-- ==== Sys2Proof/Word.lean ====
section
/-! DEFINITION. The word types of the block and the plainest arithmetic over them. -/

namespace Sys2Proof

/-- A byte of any memory (R11: the smallest addressable unit). -/
abbrev Byte := BitVec 8

/-- A register or tally word (R7: registers are 64 bits wide). -/
abbrev W64 := BitVec 64

/-- The distance from index `a` to index `b` among 32-bit free-running indices (R76). -/
def dist32 (a b : Nat) : Nat := (b + (4294967296 - a % 4294967296)) % 4294967296

/-- R76: index `a` is before index `b`. -/
def idxBefore (a b : Nat) : Bool := decide (1 ≤ dist32 a b ∧ dist32 a b < 2147483648)

/-- R76: index `a` equals index `b` or is before it. -/
def idxLe (a b : Nat) : Bool := decide (dist32 a b < 2147483648)

/-- The next free-running 32-bit index. -/
def idxAdd (a n : Nat) : Nat := (a + n) % 4294967296

/-- R106: a tally count `c` has reached threshold `t`. -/
def tallyReached (c t : W64) : Bool := decide ((c - t).toNat < 9223372036854775808)

/-- The byte at place `k` (0 the least significant) of a number, little-endian (R11). -/
def byteOf (v k : Nat) : Byte := BitVec.ofNat 8 (v / 256 ^ k)

/-- The `n` little-endian bytes of a number (R11). -/
def leBytes : Nat → Nat → List Byte
  | 0, _ => []
  | n + 1, v => BitVec.ofNat 8 v :: leBytes n (v / 256)

/-- The number that little-endian bytes spell (R11). -/
def leNat : List Byte → Nat
  | [] => 0
  | b :: bs => b.toNat + 256 * leNat bs

/-- Bytes `off` to `off + n - 1` of a byte list, read as one number. -/
def leAt (bs : List Byte) (off n : Nat) : Nat := leNat ((bs.drop off).take n)

/-- Bits `lo + w - 1` to `lo` of a number. -/
def bitsOf (v lo w : Nat) : Nat := (v / 2 ^ lo) % 2 ^ w

/-- Whether bit `k` of a number is set. -/
def bitOf (v k : Nat) : Bool := decide (bitsOf v k 1 = 1)

/-- Division rounded up. -/
def ceilDiv (a b : Nat) : Nat := (a + (b - 1)) / b

/-- The two's complement reading of the low `w` bits of a number. -/
def signedOf (w v : Nat) : Int :=
  let m := v % 2 ^ w
  if m < 2 ^ (w - 1) then (m : Int) else (m : Int) - ((2 ^ w : Nat) : Int)

/-- The low `w` bits of an integer, as a number. -/
def wrapInt (w : Nat) (v : Int) : Nat := (v % ((2 ^ w : Nat) : Int)).toNat

end Sys2Proof
end

