-- ==== Sys2Proof/Syntax.lean ====
section
/-! DEFINITION. The commands of the block: one constructor of `Instr` per row of spec/opcode_table.json,
and the shapes of their operands (queue entries, packets, flits, tokens, descriptors).
A number is a `Nat` where the manual counts or names with it; a field of 1 bit is a `Bool`. -/

namespace Sys2Proof

/-- A function code as QU_CFG[n].FUNC encodes it: bit 8 is the port (0 HA, 1 HB), bits 7:0 the function. -/
abbrev Func := Nat

/-- A tally field of R110, raw: bits 17:0 number, 22:18 reserved, 23 EN. -/
abbrev TallyField := Nat

/-- PUT and GET (R115, R116). -/
structure XferCmd where
  rlx : Bool
  ord : Bool
  ltally : TallyField
  rtally : TallyField
  dest : Nat
  key : Nat
  roff : Nat
  laddr : Nat
  length : Nat
  deriving DecidableEq, Repr

/-- PUTI (R117): `data` holds LEN bytes. -/
structure PutiCmd where
  rlx : Bool
  ord : Bool
  dest : Nat
  key : Nat
  roff : Nat
  data : List Byte
  deriving DecidableEq, Repr

/-- ATOMIC (R119). -/
structure AtomicCmd where
  rlx : Bool
  ord : Bool
  fetch : Bool
  size64 : Bool
  signed : Bool
  ltally : TallyField
  aop : Nat
  dest : Nat
  key : Nat
  roff : Nat
  operand : Nat
  compare : Nat
  result : Nat
  deriving DecidableEq, Repr

/-- SEND (R121). -/
structure SendCmd where
  rlx : Bool
  sync : Bool
  rdv : Bool
  ltally : TallyField
  dest : Nat
  comm : Nat
  src : Nat
  length : Nat
  rank : Nat
  tag : Nat
  deriving DecidableEq, Repr

/-- POSTRECV (R122). -/
structure RecvCmd where
  rlx : Bool
  anySrc : Bool
  anyTag : Bool
  ltally : TallyField
  comm : Nat
  srcRank : Nat
  buf : Nat
  length : Nat
  tag : Nat
  status : Nat
  deriving DecidableEq, Repr

/-- FENCE (R125). -/
structure FenceCmd where
  scopeEp : Bool
  ltally : TallyField
  dest : Nat
  deriving DecidableEq, Repr

/-- CANCEL (R139). -/
structure CancelCmd where
  ltally : TallyField
  index : Nat
  tNone : TallyField
  tPart : TallyField
  tLate : TallyField
  deriving DecidableEq, Repr

/-- TALLY-ADD (R126). -/
structure TallyAddCmd where
  after : Bool
  ltally : TallyField
  tally : TallyField
  value : Nat
  deriving DecidableEq, Repr

/-- What a wait waits for (R127, R128). -/
inductive WaitKind where
  | tally
  | head
  | time
  deriving DecidableEq, Repr

/-- WAIT-TALLY, WAIT-HEAD and WAIT-TIME (R127, R128). -/
structure WaitCmd where
  kind : WaitKind
  toStop : Bool
  ltally : TallyField
  totally : TallyField
  object : Nat
  timeout : Nat
  value : Nat
  deriving DecidableEq, Repr

/-- WHISTLE (R129). -/
structure WhistleCmd where
  atFire : Bool
  ltally : TallyField
  line : Nat
  time : Nat
  deriving DecidableEq, Repr

/-- COLLECTIVE (R130, R131). -/
structure CollCmd where
  rlx : Bool
  fixed : Bool
  onWhistle : Bool
  ltally : TallyField
  kind : Nat
  operator : Nat
  dtype : Nat
  ctx : Nat
  line : Nat
  count : Nat
  src : Nat
  dst : Nat
  deriving DecidableEq, Repr

/-- LOOP (R132). -/
structure LoopCmd where
  ltally : TallyField
  body : Nat
  count : Nat
  strideL : Int
  strideR : Int
  deriving DecidableEq, Repr

/-- SKIP-IF (R136). -/
structure SkipCmd where
  ltally : TallyField
  tally : TallyField
  cond : Nat
  skip : Nat
  value : Nat
  deriving DecidableEq, Repr

/-- CALL (R137): `args` holds the 24 bytes as three 64-bit words. -/
structure CallCmd where
  ltally : TallyField
  handler : Nat
  arg1 : Nat
  arg2 : Nat
  arg3 : Nat
  deriving DecidableEq, Repr

/-- The fields every privileged command shares (the privileged layout, R142). -/
structure Priv where
  sealOut : Bool
  ltally : TallyField
  arg : Nat
  opblk : Nat
  token : Nat
  oplen : Nat
  arg2 : Nat
  deriving DecidableEq, Repr

/-- The privileged commands of R113, 0x80 to 0x8F. -/
inductive PrivOp where
  | jobOpen
  | jobClose
  | keyInstall
  | windowOpen
  | windowRevoke
  | regionRegister
  | regionDeregister
  | treeBuild
  | routeWrite
  | routeCommit
  | loadProgram
  | ferryDrain
  | ferryResume
  | queueBind
  | invalidate
  | snapshot
  deriving DecidableEq, Repr

/-- A decoded queue entry (R113). -/
inductive Cmd where
  | nop (ltally : TallyField)
  | endCmd (ltally : TallyField)
  | fence (c : FenceCmd)
  | cancel (c : CancelCmd)
  | put (c : XferCmd)
  | puti (c : PutiCmd)
  | get (c : XferCmd)
  | atomic (c : AtomicCmd)
  | send (c : SendCmd)
  | postrecv (c : RecvCmd)
  | tallyAdd (c : TallyAddCmd)
  | wait (c : WaitCmd)
  | whistle (c : WhistleCmd)
  | collective (c : CollCmd)
  | loop (c : LoopCmd)
  | skipIf (c : SkipCmd)
  | call (c : CallCmd)
  | priv (op : PrivOp) (p : Priv)
  deriving DecidableEq, Repr

/-- An authorisation token as the security engine reads it (R50), with the public key that follows it. `reservedOk` says that the reserved
bytes are 0; `head` holds bytes 0 to 79, which the signature covers. -/
structure Token where
  kind : Nat
  version : Nat
  length : Nat
  jobId : Nat
  serial : Nat
  notAfter : Nat
  scope : Nat
  authSlot : Nat
  reservedOk : Bool
  bodyHash : List Byte
  sigR : List Byte
  sigS : List Byte
  head : List Byte
  key : List Byte
  deriving DecidableEq, Repr

/-- A credential (R54): the trailer's fields, or those of an MG packet's header. -/
structure Cred where
  session : Nat
  counter : Nat
  tag : List Byte
  deriving DecidableEq, Repr

/-- What a privileged command brings with it. On the control queue: what host memory holds where its operand block and token lie (`seen`), and
whether their reads succeeded (R142). From Iamel or in an MG packet: the message (`msg`), into which OPBLK and TOKEN are byte offsets. `trailer`
is the second slot of a two-slot entry (R54). -/
structure PrivData where
  seen : List (Nat × Option Byte) := []
  msg : List Byte := []
  trailer : List Byte := []
  readOk : Bool := true
  deriving DecidableEq, Repr

/-- An MCTP control request (R449): an endpoint ID is assigned or asked for, the version of a message type, or the accepted types. -/
inductive MctpReq where
  | setEid (eid : Nat)
  | getEid
  | version (mtype : Nat)
  | types
  deriving DecidableEq, Repr

/-- A certificate (R68): the certified key, and what a device certificate carries besides, signed by the issuer. -/
structure Cert where
  key : List Byte
  serial : Nat
  ordering : Nat
  sigR : List Byte
  sigS : List Byte
  deriving DecidableEq, Repr

/-- What a KEY-REQ and a KEY-RESP carry (R56): an ephemeral key, the certificate chain from the root on, the measurement summary (slots 0 to 5,
then 15), in an answer the wrapped job key, and a signature by the identity key over all of them. `want` is the generation that a renewal's
request or notice names, `start` when the generation of an answer started; an answer without a wrapped key is a renewal's notice (log 31). -/
structure KeyMsg where
  want : Option Nat
  start : Nat
  eph : List Byte
  chain : List Cert
  summary : List (List Byte)
  wrapped : List Byte
  sigR : List Byte
  sigS : List Byte
  deriving DecidableEq, Repr

/-- The entry point a privileged command came by (R14) and where it completes. -/
inductive CmdSrc where
  | queue (index : Nat)
  | iamel (req : Nat)
  | mg (session counter node : Nat)
  deriving DecidableEq, Repr

/-- The 32-byte operation block at the front of a DATA packet (R186, R225, R228, R377). -/
inductive OpBlock where
  | oneSided (op : Nat) (rlx fetch size64 signed : Bool) (aop : Nat) (rtally : TallyField)
      (key length roff operand : Nat)
  | send (sync rdv : Bool) (comm rank length tag handle : Nat)
  | pull (length handle : Nat)
  | hmsg (mcast : Bool) (handler ferry length rlen : Nat)
  deriving DecidableEq, Repr

/-- One RESP-STATUS entry (R163). -/
structure StatusEntry where
  mtag : Nat
  cause : Nat
  value : Nat
  deriving DecidableEq, Repr

/-- The ACK plaintext (R161): `sack` lists the valid blocks as (START, COUNT). -/
structure AckBody where
  cum : Nat
  sack : List (Nat × Nat)
  npkt : Nat
  nmark : Nat
  hops : Nat
  owd : Nat
  echoTs : Nat
  grantTag : Option Nat
  grant : Nat
  deriving DecidableEq, Repr

/-- An element partial (R253): the exact integer and its four flags. -/
structure Partial where
  s : Int
  nan : Bool
  pinf : Bool
  ninf : Bool
  negz : Bool
  deriving DecidableEq, Repr

/-- The COLL header (R257). -/
structure CollHdr where
  kind : Nat
  fixed : Bool
  last : Bool
  replay : Bool
  opkind : Nat
  operator : Nat
  dtype : Nat
  cause : Nat
  ctx : Nat
  inst : Nat
  count : Nat
  elem : Nat
  nelem : Nat
  nesc : Nat
  exp : Nat
  credit : Nat
  build : Nat
  deriving DecidableEq, Repr

/-- The data of a COLL packet: windowed partials with escapes (R258), escape entries, or DTYPE values. -/
inductive CollData where
  | none
  | windows (w : List Int) (esc : List (Nat × Partial))
  | escapes (esc : List (Nat × Partial))
  | values (v : List Nat)
  deriving DecidableEq, Repr

/-- A WHISTLE schedule (R358). -/
structure Schedule where
  line : Nat
  byJob : Bool
  jobId : Nat
  time : Nat
  origin : Nat
  deriving DecidableEq, Repr

/-- The payload of an MG packet (R288). -/
inductive MgBody where
  | cmd (msg : List Byte)
  | status (counter cause head : Nat)
  | keyReq (jobId node serial : Nat) (m : KeyMsg)
  | keyResp (jobId gen : Nat) (m : KeyMsg)
  | notYet (jobId : Nat)
  | spdm (code : Nat)
  | whistle (w : Schedule)
  | telemetry (op first count : Nat)
  | telemetryReply (op first count : Nat) (entries : List Nat)
  | other
  deriving DecidableEq, Repr

/-- What follows a packet header: a plaintext read by its type, or the ciphertext and tag of a job packet on the wire (`sealed`, R59). -/
inductive Body where
  | none
  | data (blk : OpBlock) (bytes : List Byte)
  | resp (bytes : List Byte)
  | status (es : List StatusEntry)
  | ack (a : AckBody)
  | close (reqPsn respPsn : Nat)
  | coll (h : CollHdr) (d : CollData)
  | revoke (kind window origin serial : Nat)
  | mg (srcrt : Option (List Nat)) (auth : Bool) (session counter : Nat) (tag : List Byte) (m : MgBody)
  | sealed (bs : List Byte)
  deriving DecidableEq, Repr

/-- A packet (R149 and R288): the header, and what follows it. `rsv` holds the header's reserved bits. -/
structure Packet where
  ptype : Nat
  cls : Nat
  opn : Bool := false
  last : Bool := false
  ord : Bool := false
  creq : Bool := false
  abort : Bool := false
  vc : Nat := 0
  detour : Bool := false
  mark : Bool := false
  hops : Nat := 0
  gen : Nat := 0
  stream : Nat := 0
  dest : Nat
  src : Nat
  job : Nat := 0
  epoch : Nat := 0
  length : Nat := 0
  psn : Nat := 0
  txc : Nat := 0
  ts : Nat := 0
  session : Nat := 0
  mtag : Nat := 0
  offset : Nat := 0
  rsv : Nat := 0
  body : Body := .none
  deriving DecidableEq, Repr

/-- The payload of a HELLO flit (R320). -/
structure Hello where
  serial : Nat
  port : Nat
  width : Nat
  rate : Nat
  init : Bool
  hold : Bool
  epoch : Nat
  txSeq : Nat
  rxExp : Nat
  ded : Nat
  held : List Nat
  deriving DecidableEq, Repr

/-- The payload of a TRAIN flit (R323). -/
structure Train where
  ack : Bool
  width : Nat
  rate : Nat
  reason : Nat
  serial : Nat
  port : Nat
  deriving DecidableEq, Repr

/-- The payload of a TIME flit (R351). -/
structure TimeFlit where
  tTx : Nat
  tRxLast : Nat
  tTxLast : Nat
  gmSerial : Nat
  gmPrio : Nat
  depth : Nat
  locked : Bool
  holdover : Bool
  ext : Bool
  deriving DecidableEq, Repr

/-- A route notice (R301, R308). -/
structure Notice where
  d : Nat
  a : Nat
  c : Nat
  up : Bool
  deriving DecidableEq, Repr

/-- The payload of a flit by type (R308). A DATA flit holds the masks of the segments at which packets of its VC start and end, and the bytes of
its segments (R309). -/
inductive FlitPay where
  | data (vc : Nat) (abort : Bool) (sop eop : Nat) (bytes : List Byte)
  | notice (n : Notice)
  | credit (counts : List Nat)
  | time (t : TimeFlit)
  | train (t : Train)
  | hello (h : Hello)
  deriving DecidableEq, Repr

/-- A flit: the fields of its header and its payload (R306, R307). -/
structure Flit where
  fseq : Nat
  ackSeq : Nat
  nack : Bool
  cvc : Nat
  ccount : Nat
  cong : Nat
  pay : FlitPay
  deriving DecidableEq, Repr

/-- One flit of a codeword as a port receives it (R303, R304): the lane on which the codeword came, its 544 symbols of 10 bits, symbol i in bits
10 i to 10 i + 9, and whether it is the second flit. -/
structure CodeHalf where
  lane : Nat
  word : Nat
  second : Bool
  deriving DecidableEq, Repr

/-- The CONTROL and STATUS words of a lane training frame (R334, R335). -/
structure TrainFrame where
  cmd : Nat
  tap : Nat
  dir : Bool
  preset : Nat
  rxReady : Bool
  seq : Nat
  echo : Nat
  result : Nat
  lock : Bool
  trained : Bool
  lane : Nat
  laneOk : Nat
  deriving DecidableEq, Repr

/-- One 64-bit or smaller host access to BAR4 (R433). -/
inductive BarOp where
  | read
  | write (bytes : List Byte)
  | atomic (aop operand compare : Nat) (size64 : Bool)
  deriving DecidableEq, Repr

/-- How an access without a row of its own reaches a register: a write by the control path of 8 bytes at an internal address
(R28), a host access of `len` bytes to BAR0 or BAR2, a write of a value or a read (R430, R431, R80), or a read of 8 bytes through JTAG (R73). -/
inductive RegPath where
  | internal (addr v : Nat)
  | bar0 (f : Func) (off len : Nat) (wr : Option Nat)
  | bar2 (f : Func) (off len : Nat) (wr : Option Nat)
  | jtag (addr : Nat)
  deriving DecidableEq, Repr

/-- A supply watched for sag (R493). -/
inductive Supply where
  | v12
  | core
  deriving DecidableEq, Repr

/-- How an SPDM message reaches the device (R71, R53): MCTP, PCIe DOE of a port's physical function, or MG packets of a node. -/
inductive SpdmVia where
  | mctp
  | doe (port : Nat)
  | mg (node : Nat)
  deriving DecidableEq, Repr

/-- A fabric manager's mutual authentication (R53): its FM-GRANT token with the key that follows it, its own public key, and its signature over the
session's transcript. -/
structure FmAuth where
  token : List Byte
  key : List Byte
  sigR : List Byte
  sigS : List Byte
  deriving DecidableEq, Repr

/-- SPDM requests (R71), and the IDE_KM requests that a session on DOE carries (R72). `id` names a session; `th` is the transcript that both ends
hold. -/
inductive SpdmReq where
  | getVersion
  | getCapabilities
  | negotiateAlgorithms
  | getDigests
  | getCertificate
  | challenge (nonce : List Byte)
  | getMeasurements (nonce : List Byte)
  | keyExchange (id : Nat) (eph th : List Byte)
  | finish (id : Nat) (auth : Option FmAuth)
  | keyUpdate (id : Nat)
  | heartbeat (id : Nat)
  | endSession (id : Nat)
  | ideKeyProg (id stream key : Nat)
  | ideGo (id stream : Nat)
  | ideStop (id stream : Nat)
  deriving DecidableEq, Repr

/-- The algorithms of the responder (R71). -/
inductive SpdmAlg where
  | ecdsaP384
  | sha384
  | ecdheP384
  | aes256Gcm
  deriving DecidableEq, Repr

/-- SPDM answers (R71). -/
inductive SpdmRsp where
  | version (major minor : Nat)
  | capabilities
  | algorithms (l : List SpdmAlg)
  | digests (l : List (List Byte))
  | certificate (l : List Cert)
  | challengeAuth (sigR sigS : List Byte)
  | measurements (l : List (Nat × List Byte)) (sigR sigS : List Byte)
  | keyExchange (id : Nat) (eph sigR sigS : List Byte)
  | done (id : Nat)
  | error (cause : Nat)
  deriving DecidableEq, Repr

/-- The commands of the block, one per row of spec/opcode_table.json. -/
inductive Instr where
  -- power, resets and e-fuses
  | auxPowerOnReset
  | auxResetRelease (mgAddr efaAuto : Nat)
  | pwrokMainAssert (hbMode : Nat)
  | mainResetComplete
  | pwrokMainDeassert
  | resetNAssert (lowNs : Nat) (acts : Bool)
  | pwResetWarm
  | pwResetMgmt
  | iamelWatchdogReset
  | trialConfirm
  | unitResetFerry (f : Nat)
  | unitResetPort (p : Nat)
  | unitResetLaneQuad (q : Nat)
  | unitResetHuddle (h : Nat)
  | unitResetCatcher (c : Nat)
  | unitResetComplete
  | pwEnWrite (r mask : Nat)
  | parkEnter
  | parkExit
  | sagWarning (x : Supply)
  | sagWarningRelease (x : Supply)
  | sagReset (x : Supply)
  | glitchDetect
  | efCommandOn (c : Nat)
  | efCommandOff (c : Nat)
  | efGateAbove8v (c : Nat)
  | efGateBelow7v5 (c : Nat)
  | efFastTrip (c : Nat)
  | efTimerTrip (c : Nat)
  | efFetOtTrip (c : Nat)
  | efFetFail (c : Nat)
  | efModelUpdate (c vin vout iout diode : Nat)
  -- pace
  | paceEvaluation (readings : List (Nat × Nat))
  | avsAck
  | avsTimeout
  | avsFailClear
  | pwPaceCtlWrite (v : Nat)
  | paceGradientWarning (region : Nat)
  | paceGradientFault (region : Nat)
  -- jobs, keys and trust
  | jobOpen (src : CmdSrc) (p : Priv) (x : PrivData)
  | keyReqReceive (jobId node serial : Nat) (m : KeyMsg)
  | keyRespReceive (jobId gen : Nat) (m : KeyMsg)
  | notYetReceive (jobId : Nat)
  | keyReqRetry (slot : Nat)
  | keyReqUnanswered (slot : Nat)
  | keyFailDeadline (slot : Nat)
  | keyInstall (src : CmdSrc) (p : Priv) (x : PrivData)
  | renewalStart (slot : Nat)
  | renewalConfirmReceive (slot child : Nat)
  | switchReceive (slot t : Nat)
  | generationSwitch (slot : Nat)
  | oldGenerationErase (slot : Nat)
  | renewalRepeat (slot : Nat)
  | generationExpiry (slot : Nat)
  | keyLeaderTakeover (slot position : Nat)
  | jobClose (src : CmdSrc) (p : Priv) (x : PrivData)
  | jobCloseManifestTimeout (slot : Nat)
  | epochKeyErase (ctx : Nat)
  | debugChallengeRead (draw : Nat)
  | debugUnlock (t : List Byte)
  | spdmMessage (via : SpdmVia) (r : SpdmReq)
  | fmSessionExpiry (id : Nat)
  -- queues
  | doorbell (f : Func) (q off size value : Nat)
  | ringFetch (q count : Nat)
  | ringReadComplete (q : Nat) (ok : Bool) (seen : List (Nat × Option Byte))
  | queueStartTurn (q : Nat) (x : PrivData) (draw : Nat)
  | heldCommandResume (q : Nat) (x : PrivData) (draw : Nat)
  | coalTimeExpiry (q : Nat)
  | headWordWriteFailure (q : Nat)
  | waitConditionMet (q : Nat)
  | waitTimeoutExpiry (q : Nat)
  | cmdRun (q : Nat) (f : Option Func)
  | cmdHalt (q : Nat) (f : Option Func)
  | cmdResume (q : Nat) (f : Option Func)
  | cmdResumeSkip (q : Nat) (f : Option Func)
  | heldResumeApply (q : Nat)
  | quNotifyWrite (q : Nat) (f : Option Func) (v : Nat)
  | queue0ConfigWrite (headaddr cfg : Bool) (f : Option Func) (v : Nat)
  | quPiRead (q : Nat) (f : Option Func)
  | queueApertureAccess (f : Func) (q reg : Nat) (wr : Option Nat)
  | tallyArrayWrite (n v : Nat)
  -- user commands
  | nop (q : Nat) (ltally : TallyField)
  | endCmd (q : Nat) (ltally : TallyField)
  | fence (q : Nat) (c : FenceCmd)
  | cancel (q : Nat) (c : CancelCmd)
  | cancelDecision (q index : Nat)
  | put (q : Nat) (c : XferCmd)
  | puti (q : Nat) (c : PutiCmd)
  | get (q : Nat) (c : XferCmd)
  | atomic (q : Nat) (c : AtomicCmd)
  | send (q : Nat) (c : SendCmd) (draw : Nat)
  | postrecv (q : Nat) (c : RecvCmd)
  | tallyAdd (q : Nat) (c : TallyAddCmd)
  | waitTally (q : Nat) (toStop : Bool) (ltally totally : TallyField) (tally timeout value : Nat)
  | waitHead (q : Nat) (toStop : Bool) (ltally totally : TallyField) (queue timeout index : Nat)
  | waitTime (q : Nat) (ltally : TallyField) (t : Nat)
  | whistle (q : Nat) (c : WhistleCmd)
  | collective (q : Nat) (c : CollCmd)
  | loop (q : Nat) (c : LoopCmd)
  | skipIf (q : Nat) (c : SkipCmd)
  | call (q : Nat) (c : CallCmd)
  -- windows, regions, trees, tables, programs
  | windowOpen (src : CmdSrc) (p : Priv) (x : PrivData)
  | windowRevoke (src : CmdSrc) (p : Priv) (x : PrivData)
  | regionRegister (src : CmdSrc) (p : Priv) (x : PrivData)
  | regionDeregister (src : CmdSrc) (p : Priv) (x : PrivData)
  | regionDeregisterComplete (key : Nat)
  | regionQuarantineEnd (key : Nat)
  | treeBuild (src : CmdSrc) (p : Priv) (x : PrivData)
  | routeWrite (src : CmdSrc) (p : Priv) (x : PrivData)
  | routeCommit (src : CmdSrc) (p : Priv) (x : PrivData)
  | loadProgram (src : CmdSrc) (p : Priv) (x : PrivData)
  | ferryDrain (src : CmdSrc) (p : Priv) (x : PrivData)
  | ferryDrainComplete (f : Nat)
  | ferryResume (src : CmdSrc) (p : Priv) (x : PrivData)
  | queueBind (src : CmdSrc) (p : Priv) (x : PrivData)
  | invalidate (src : CmdSrc) (p : Priv) (x : PrivData)
  | invalidateComplete
  | snapshot (src : CmdSrc) (p : Priv) (x : PrivData)
  -- transport
  | streamInject (ctx stream : Nat)
  | dataReceive (pkt : Packet)
  | multicastDataReceive (pkt : Packet)
  | ackReceive (pkt : Packet)
  | nackBusyReceive (pkt : Packet)
  | nackRetryExpiry (ctx stream psn : Nat)
  | respDataReceive (pkt : Packet)
  | respStatusReceive (pkt : Packet)
  | ackDelayExpiry (ctx stream : Nat)
  | rtoExpiry (ctx stream : Nat)
  | contextFail (ctx : Nat)
  | idleCloseStart (ctx : Nat)
  | closeReqReceive (pkt : Packet)
  | closeAckReceive (pkt : Packet)
  | closeRefuseReceive (pkt : Packet)
  | jobCloseQuietTimeout (ctx : Nat)
  | quietExpiry (ctx : Nat)
  | contextFetchComplete (ctx : Nat) (ok : Bool)
  | tpCfgWrite (reg v : Nat)
  | mfQuotaWrite (slot v : Nat)
  | moverTransferComplete (id : Nat) (ok : Bool) (seen : List (Nat × Option Byte))
  | flushReadComplete (id : Nat)
  | hostAtomicComplete (id : Nat) (mismatch : Bool) (old : Nat)
  | revokeReceive (pkt : Packet)
  | confirmReceive (pkt : Packet)
  | revokeDoneReceive (pkt : Packet)
  | revokeRepeat (slot window origin serial : Nat)
  | revokeFailTime (slot window : Nat)
  -- matching
  | unexpectedCopyComplete (id : Nat)
  | spillRefill (c : Nat) (ok : Bool)
  | catcherRegWrite (reg slot v : Nat)
  -- collectives
  | joinReceive (pkt : Packet)
  | partReceive (pkt : Packet)
  | escapeReceive (pkt : Packet)
  | resultReceive (pkt : Packet)
  | collDoneReceive (pkt : Packet)
  | collFailReceive (pkt : Packet)
  | collTimeout (ctx inst : Nat)
  | rejoinReceive (pkt : Packet)
  | rerunReceive (pkt : Packet)
  | rejoinRepeat (ctx : Nat)
  | collCreditReceive (pkt : Packet)
  | collCreditReturn (ctx child : Nat)
  | hdRegWrite (v : Nat)
  -- routing
  | routerHeaderArrival (inPort : Nat) (pkt : Packet) (i1 i2 : Nat)
  | cutThroughStart (out vc : Nat)
  | mgDropExpiry (out vc : Nat)
  | mgCmdReceive (pkt : Packet)
  | mgStatusReceive (pkt : Packet)
  | telemetryRequest (pkt : Packet)
  | noticeReceive (p : Nat) (n : Notice)
  -- link layer
  | flitTransmit (p : Nat)
  | dataFlitReceive (p : Nat) (c : CodeHalf)
  | creditFlitReceive (p : Nat) (c : CodeHalf)
  | replayTimeout (p : Nat)
  | nackRepeatTimeout (p : Nat)
  | fecLockGain (l : Nat)
  | fecLockLoss (l : Nat)
  | portDown (p cause : Nat)
  | helloReceive (p : Nat) (c : CodeHalf)
  | helloRepeat (p : Nat)
  | holdExpiry (p : Nat)
  | trainFlitReceive (p : Nat) (c : CodeHalf)
  | trainReqRepeat (p : Nat)
  | retrainLimitExpiry (p : Nat)
  | portDisableDrainEnd (p : Nat)
  -- lanes
  | trainingFrameReceive (l : Nat) (w : Nat)
  | laneRequestRepeat (l : Nat)
  | fastPathTimeout (l : Nat)
  | fullTrainingRestart (l : Nat)
  | recalRequest (l : Nat)
  | laneFailureNarrow (p : Nat) (lost : List Nat)
  | lnLaneSerRead (l : Nat)
  | lnLanePrbsRead (l : Nat)
  -- machine time
  | timeFlitReceive (p : Nat) (c : CodeHalf)
  | ppsEdge
  | extReferenceLoss
  | parentLoss
  | holdoverExpiry
  | whistlePacketReceive (pkt : Packet)
  | whistleFire (line : Nat)
  | trigCaptureEdge (k : Nat) (rising : Bool)
  | trigOutputFire (k : Nat)
  | mtTrigCfgWrite (k v : Nat)
  | mtTrigCapRead (k : Nat)
  | mtTrigStatRead (k : Nat)
  | mtLineRead (w : Nat)
  -- ferries: dispatch and events
  | handlerDispatch (f : Nat)
  | budgetExpiry (f t : Nat)
  | unitOpComplete (f t op : Nat) (result : Nat)
  | timerFire (f t k : Nat)
  | eventWaitTimeout (f t : Nat)
  | fxCfgWrite (f v : Nat)
  | fxFaultRead (f t : Nat)
  -- Maelrum engine code
  | alu (f t rd ra rb pg : Nat) (gn : Bool) (fn : Nat)
  | cmp (f t rd ra rb pg : Nat) (gn : Bool) (fn : Nat)
  | pred (f t rd ra rb pg : Nat) (gn : Bool) (fn : Nat)
  | amo (f t rd ra rb pg : Nat) (gn : Bool) (fn : Nat)
  | sysFence (f t rd ra rb pg : Nat) (gn : Bool)
  | sysYield (f t rd ra rb pg : Nat) (gn : Bool)
  | sysDone (f t rd ra rb pg : Nat) (gn : Bool)
  | sysNow (f t rd ra rb pg : Nat) (gn : Bool)
  | sysSelf (f t rd ra rb pg : Nat) (gn : Bool)
  | sysBreak (f t rd ra rb pg : Nat) (gn : Bool)
  | jr (f t rd ra rb pg : Nat) (gn : Bool) (fn : Nat)
  | addi (f t rd ra imm : Nat)
  | andi (f t rd ra imm : Nat)
  | ori (f t rd ra imm : Nat)
  | xori (f t rd ra imm : Nat)
  | movi (f t rd ra imm : Nat)
  | movk (f t rd ra imm : Nat)
  | cmpi (f t rd ra imm : Nat)
  | shi (f t rd ra imm : Nat)
  | ld (f t rd ra sz mo off : Nat)
  | lds (f t rd ra sz mo off : Nat)
  | st (f t rs ra sz mo off : Nat)
  | br (f t p : Nat) (n : Bool) (rsv off : Nat)
  | brl (f t p : Nat) (n : Bool) (rsv off : Nat)
  -- unit operations
  | sendRequest (f t rd rs ra : Nat) (w : Bool)
  | sendReply (f t rd rs ra : Nat) (w : Bool)
  | sendMcast (f t rd rs ra : Nat) (w : Bool)
  | matchPost (f t rd rs ra : Nat) (w : Bool)
  | matchProbe (f t rd rs ra : Nat) (w : Bool)
  | matchClaim (f t rd rs ra : Nat) (w : Bool)
  | matchDeliver (f t rd rs ra : Nat) (w : Bool)
  | moveCopy (f t rd rs ra : Nat) (w : Bool)
  | moveFill (f t rd rs ra : Nat) (w : Bool)
  | tallyUnitAdd (f t rd rs ra : Nat) (w : Bool)
  | tallyRead (f t rd rs ra : Nat) (w : Bool)
  | tallyWait (f t rd rs ra : Nat) (w : Bool)
  | lockAcquire (f t rd rs ra : Nat) (w : Bool)
  | lockTry (f t rd rs ra : Nat) (w : Bool)
  | lockRelease (f t rd rs ra : Nat) (w : Bool)
  | eventWait (f t rd rs ra : Nat) (w : Bool)
  | eventPost (f t rd rs ra : Nat) (w : Bool)
  | timerArm (f t rd rs ra : Nat) (w : Bool)
  | timerCancel (f t rd rs ra : Nat) (w : Bool)
  | doorbellRing (f t rd rs ra : Nat) (w : Bool)
  | enqueue (f t rd rs ra : Nat) (w : Bool)
  -- wharf coherence and locks
  | ferryRead (f addr : Nat)
  | ferryOwn (f addr : Nat)
  | ferryUpgrade (f addr : Nat)
  | agentRead (addr : Nat)
  | agentWrite (addr : Nat) (bytes : List Byte)
  | agentAtomic (addr aop operand compare : Nat) (size64 : Bool)
  | ferryEviction (f addr : Nat)
  | poisonTimeout (addr : Nat)
  | lkAcquire (n ident writer : Nat)
  | lkRelease (n ident writer : Nat)
  | lkClearOrphan (n ident writer : Nat)
  | lkWithdraw (n ident writer : Nat)
  | lkGroupWrite (g : Nat) (ferries : Bool) (v : Nat)
  | lkCfgWrite (v : Nat)
  | lkWordAcquire (writer addr : Nat)
  | lkWordRelease (writer addr : Nat)
  -- translation
  | txAsidWrite (a reg v : Nat)
  | txSpanBaseWrite (a sp reg v : Nat)
  -- host interface
  | bmeClear (f : Func)
  | bmeSet (f : Func)
  | quiesceExpiry (f : Func)
  | d3hotEntry (f : Func)
  | flr (f : Func)
  | flrComplete (f : Func)
  | vfEnableClear (p : Nat)
  | pcieLinkDown (p : Nat)
  | completionTimeout (id : Nat)
  | bar4Access (f : Func) (off len : Nat) (op : BarOp) (bad : Bool)
  | hiCtlDataRead (len : Nat)
  | hiCtlDataWrite (len v : Nat)
  | hiWinWrite (tgt : Bool) (p w v : Nat)
  | hiVfWrite (p vf v : Nat)
  | hiFnStatRead (f : Func)
  | msixUnmask (f : Func) (vec : Nat)
  | slotPwrOn
  | slotPwrOff
  | slotPerstRelease
  | settleExpiry
  | presenceChange (present : Bool)
  | attentionButton
  | containmentFreeze (cause : Nat)
  | containmentRelease
  | attachedMsiWrite (addr data : Nat)
  | attachedRequest
  -- management
  | welrirelCmd (msg : List Byte)
  | enrol (req : Nat) (slot0 : Bool) (key token : List Byte)
  | logRead (req first count : Nat) (flash : Bool)
  | commit (req t v : Nat) (sigR sigS : List Byte)
  | mctpControl (smbus : Nat) (r : MctpReq)
  | pldmUpdateComponent (t : Nat) (container : List Byte)
  | activateFirmware (ts : List Nat)
  | liveUpdateUnit (ok : Bool)
  | logFlashCopy
  | mgLogLostRead
  | sensorReading (i v : Nat)
  | sensorFail (i : Nat)
  | mgSensThrWrite (i v : Nat)
  -- faults
  | faultAssertion (src : Nat)
  | wireFault (src : Nat)
  | ftForceAssert (src : Nat)
  | ftForceWire (src : Nat)
  | ftReactWrite (src v : Nat)
  | ftSrcRead (src : Nat)
  | fatalEntry (src : Nat)
  | collectorSelfCheckFail
  -- counters
  | ecSelWrite (u k v : Nat)
  | ecCntWrite (u k v : Nat)
  | ecHistCfgWrite (p v : Nat)
  | histogramSample (p : Nat)
  | snapshotCapture
  | snapshotComplete (k : Nat) (ok : Bool)
  -- the rows that close the table
  | registerWrite (p : RegPath)
  | mgmtResetComplete
  | regionEntryFetchComplete (key : Nat)
  | efRegulation (c : Nat) (on : Bool)
  | prbsCheckerLock (l : Nat)
  | vfEnableSet (p numVfs : Nat)
  | pcieLinkUp (p speed width : Nat) (flitMode : Bool)
  deriving DecidableEq, Repr

end Sys2Proof
end

