-- ==== Sys2Proof/WellFormed.lean ====
section
/-! DEFINITION. Well-formedness: the ranges and reserved fields of a command's operands, as the manual's layouts
give them. Check 4 of R112 (R10, R109, R110, R119, R131) is `Cmd.ok`. -/

namespace Sys2Proof

/-- R110: a tally field of 24 bits whose reserved bits are 0, and whose number is 0 with EN 0. -/
def tallyFieldOk (t : TallyField) : Bool :=
  decide (t < 2 ^ 24) && decide (bitsOf t 18 5 = 0) && (bitOf t 23 || decide (bitsOf t 0 18 = 0))

/-- A tally field whose EN must be 1 (R126, R136). -/
def tallyFieldReq (t : TallyField) : Bool := tallyFieldOk t && bitOf t 23

/-- A 48-bit address or offset. -/
def addr48 (a : Nat) : Bool := decide (a < 2 ^ 48)

/-- A 32-bit field. -/
def word32 (a : Nat) : Bool := decide (a < 2 ^ 32)

/-- A 64-bit field. -/
def word64 (a : Nat) : Bool := decide (a < 2 ^ 64)

/-- PUT and GET (R115, R116). -/
def XferCmd.ok (c : XferCmd) : Bool :=
  tallyFieldOk c.ltally && tallyFieldOk c.rtally && word32 c.dest && word32 c.key && addr48 c.roff && addr48 c.laddr
    && word32 c.length

/-- PUTI (R117): 1 to 16 bytes. -/
def PutiCmd.ok (c : PutiCmd) : Bool :=
  word32 c.dest && word32 c.key && addr48 c.roff && decide (1 ≤ c.data.length ∧ c.data.length ≤ 16)

/-- ATOMIC (R119). -/
def AtomicCmd.ok (c : AtomicCmd) : Bool :=
  tallyFieldOk c.ltally && decide (c.aop ≤ 7) && word32 c.dest && word32 c.key && addr48 c.roff
    && word64 c.operand && word64 c.compare && addr48 c.result
    && (c.size64 || (word32 c.operand && word32 c.compare))
    && (!c.signed || decide (c.aop = 3 ∨ c.aop = 4))
    && (c.fetch || decide (c.aop ≠ 1 ∧ c.aop ≠ 2))
    && (decide (c.aop = 2) || decide (c.compare = 0))
    && (c.fetch || decide (c.result = 0))

/-- SEND (R121). -/
def SendCmd.ok (c : SendCmd) : Bool :=
  tallyFieldOk c.ltally && word32 c.dest && word32 c.comm && addr48 c.src && word32 c.length && word32 c.rank
    && word64 c.tag

/-- POSTRECV (R122). -/
def RecvCmd.ok (c : RecvCmd) : Bool :=
  tallyFieldOk c.ltally && word32 c.comm && word32 c.srcRank && addr48 c.buf && word32 c.length && word64 c.tag
    && addr48 c.status && (!c.anySrc || decide (c.srcRank = 0)) && (!c.anyTag || decide (c.tag = 0))

/-- FENCE (R125). -/
def FenceCmd.ok (c : FenceCmd) : Bool :=
  tallyFieldOk c.ltally && word32 c.dest && (c.scopeEp || decide (c.dest = 0))

/-- CANCEL (R139). -/
def CancelCmd.ok (c : CancelCmd) : Bool :=
  tallyFieldOk c.ltally && word32 c.index && tallyFieldOk c.tNone && tallyFieldOk c.tPart && tallyFieldOk c.tLate

/-- TALLY-ADD (R126): TALLY must be named. -/
def TallyAddCmd.ok (c : TallyAddCmd) : Bool := tallyFieldOk c.ltally && tallyFieldReq c.tally && word64 c.value

/-- WAIT-TALLY, WAIT-HEAD and WAIT-TIME (R127, R128). -/
def WaitCmd.ok (c : WaitCmd) : Bool :=
  tallyFieldOk c.ltally && tallyFieldOk c.totally && word32 c.timeout && word64 c.value
    && (match c.kind with
        | .tally => decide (c.object < 2 ^ 18)
        | .head => decide (c.object < 2 ^ 16) && word32 c.value
        | .time => decide (c.object = 0 ∧ c.timeout = 0 ∧ c.totally = 0) && !c.toStop)

/-- WHISTLE (R129). -/
def WhistleCmd.ok (c : WhistleCmd) : Bool := tallyFieldOk c.ltally && decide (c.line < 16) && word64 c.time

/-- Whether a DTYPE is a floating type (4 fp16, 5 bf16, 6 fp32, 7 fp64). -/
def floatType (d : Nat) : Bool := decide (4 ≤ d ∧ d ≤ 7)

/-- R131: the valid combinations of KIND, OPERATOR, DTYPE, COUNT and FIXED. -/
def CollCmd.comboOk (c : CollCmd) : Bool :=
  match c.kind with
  | 0 => decide (c.operator = 0 ∧ c.dtype = 0 ∧ c.count = 0 ∧ c.src = 0 ∧ c.dst = 0) && !c.fixed
  | 1 => decide (c.operator = 0 ∧ c.dtype ≤ 7 ∧ 1 ≤ c.count) && !c.fixed
  | _ =>
    decide (c.kind ≤ 4 ∧ c.operator ≤ 5 ∧ c.dtype ≤ 7 ∧ 1 ≤ c.count)
      && (decide (c.operator ≤ 2) || !floatType c.dtype)
      && (!c.fixed || (decide (c.operator = 0) && floatType c.dtype))

/-- COLLECTIVE (R130, R131). -/
def CollCmd.ok (c : CollCmd) : Bool :=
  tallyFieldOk c.ltally && c.comboOk && decide (c.ctx < 4096) && decide (c.line < 16) && word32 c.count
    && addr48 c.src && addr48 c.dst && (c.onWhistle || decide (c.line = 0))

/-- LOOP (R132). -/
def LoopCmd.ok (c : LoopCmd) : Bool :=
  tallyFieldOk c.ltally && decide (1 ≤ c.body ∧ c.body ≤ 255) && decide (1 ≤ c.count ∧ c.count ≤ 65535)
    && decide (-2147483648 ≤ c.strideL ∧ c.strideL < 2147483648)
    && decide (-2147483648 ≤ c.strideR ∧ c.strideR < 2147483648)

/-- SKIP-IF (R136): TALLY must be named. -/
def SkipCmd.ok (c : SkipCmd) : Bool :=
  tallyFieldOk c.ltally && tallyFieldReq c.tally && decide (c.cond ≤ 3) && decide (1 ≤ c.skip ∧ c.skip ≤ 255)
    && word64 c.value

/-- CALL (R137). -/
def CallCmd.ok (c : CallCmd) : Bool :=
  tallyFieldOk c.ltally && decide (c.handler < 256) && word64 c.arg1 && word64 c.arg2 && word64 c.arg3

/-- The privileged layout (R142): the widths of its fields. -/
def Priv.ok (p : Priv) : Bool :=
  tallyFieldOk p.ltally && decide (p.arg < 2 ^ 24) && word64 p.opblk && word64 p.token && word32 p.oplen
    && word32 p.arg2

/-- Check 4 of R112 for a decoded command. -/
def Cmd.ok : Cmd → Bool
  | .nop t => tallyFieldOk t
  | .endCmd t => tallyFieldOk t
  | .fence c => c.ok
  | .cancel c => c.ok
  | .put c => c.ok
  | .puti c => c.ok
  | .get c => c.ok
  | .atomic c => c.ok
  | .send c => c.ok
  | .postrecv c => c.ok
  | .tallyAdd c => c.ok
  | .wait c => c.ok
  | .whistle c => c.ok
  | .collective c => c.ok
  | .loop c => c.ok
  | .skipIf c => c.ok
  | .call c => c.ok
  | .priv _ p => p.ok

/-- A queue number (R102). -/
def queueOk (q : Nat) : Bool := decide (q < 65536)

/-- A function code: bit 8 the port, bits 7:0 the function, 0 to 252. -/
def funcOk (f : Func) : Bool := decide (f < 512 ∧ f % 256 ≤ 252)

/-- The path of a register access: the control path, or a host function. -/
def pathOk (f : Option Func) : Bool :=
  match f with
  | none => true
  | some g => funcOk g

/-- A thread of a ferry (R361). -/
def threadOk (f t : Nat) : Bool := decide (f < 64 ∧ t < 16)

/-- An access without a row of its own: its function, and the width of what it writes. -/
def RegPath.ok : RegPath → Bool
  | .internal a v => decide (a < 2 ^ 40) && word64 v
  | .bar0 f _ _ v => funcOk f && word64 (v.getD 0)
  | .bar2 f _ _ v => funcOk f && word64 (v.getD 0)
  | .jtag a => decide (a < 2 ^ 40)

/-- A half of a codeword: its lane, and its 544 symbols of 10 bits. -/
def CodeHalf.ok (c : CodeHalf) : Bool := decide (c.lane < 72 ∧ c.word < 2 ^ 5440)

/-- The well-formedness of a command of the block: the ranges of the operands that name a unit, spell an instruction's field, or carry a queue
entry or a register's value. A packet or flit of the surroundings may be of any form: one whose form is bad is a command too. -/
def Instr.wf : Instr → Bool
  | .auxPowerOnReset | .auxResetRelease _ _ | .pwrokMainAssert _ | .mainResetComplete | .pwrokMainDeassert | .resetNAssert _ _
  | .pwResetWarm | .pwResetMgmt | .iamelWatchdogReset | .trialConfirm => true
  | .unitResetFerry f => decide (f < 64)
  | .unitResetPort p => decide (p < 72)
  | .unitResetLaneQuad q => decide (q < 18)
  | .unitResetHuddle h => decide (h < 8)
  | .unitResetCatcher c => decide (c < 4)
  | .unitResetComplete => true
  | .pwEnWrite r mask => decide (r ≤ 6) && word64 mask
  | .parkEnter | .parkExit | .sagWarning _ | .sagWarningRelease _ | .sagReset _ | .glitchDetect => true
  | .efCommandOn c | .efCommandOff c | .efGateAbove8v c | .efGateBelow7v5 c | .efFastTrip c | .efTimerTrip c | .efFetOtTrip c
  | .efFetFail c | .efModelUpdate c _ _ _ _ => decide (c < 2)
  | .paceEvaluation _ | .avsAck | .avsTimeout | .avsFailClear => true
  | .pwPaceCtlWrite v => word64 v
  | .paceGradientWarning region | .paceGradientFault region => decide (region < 24)
  | .jobOpen _ p _ => p.ok
  | .keyReqReceive _ _ _ _ | .keyRespReceive _ _ _ | .notYetReceive _ => true
  | .keyReqRetry slot | .keyReqUnanswered slot | .keyFailDeadline slot => decide (slot < 256)
  | .keyInstall _ p _ => p.ok
  | .renewalStart slot | .renewalConfirmReceive slot _ | .switchReceive slot _ | .generationSwitch slot
  | .oldGenerationErase slot | .renewalRepeat slot | .generationExpiry slot | .keyLeaderTakeover slot _ => decide (slot < 256)
  | .jobClose _ p _ => p.ok
  | .jobCloseManifestTimeout slot => decide (slot < 256)
  | .epochKeyErase _ | .debugChallengeRead _ | .debugUnlock _ | .spdmMessage _ _ | .fmSessionExpiry _ => true
  | .doorbell f q _ _ value => queueOk q && (funcOk f && word64 value)
  | .ringFetch q _ | .ringReadComplete q _ _ | .queueStartTurn q _ _ | .heldCommandResume q _ _ | .coalTimeExpiry q
  | .headWordWriteFailure q | .waitConditionMet q | .waitTimeoutExpiry q => queueOk q
  | .cmdRun q f | .cmdHalt q f | .cmdResume q f | .cmdResumeSkip q f => queueOk q && pathOk f
  | .heldResumeApply q => queueOk q
  | .quNotifyWrite q f v => queueOk q && (pathOk f && word64 v)
  | .queue0ConfigWrite _ _ f v => pathOk f && word64 v
  | .quPiRead q f => queueOk q && pathOk f
  | .queueApertureAccess f q _ wr => queueOk q && (funcOk f && word64 (wr.getD 0))
  | .tallyArrayWrite n v => word64 v && decide (n < 2 ^ 18)
  | .nop q ltally | .endCmd q ltally => queueOk q && tallyFieldOk ltally
  | .fence q c | .cancel q c => queueOk q && c.ok
  | .cancelDecision q _ => queueOk q
  | .put q c | .puti q c | .get q c | .atomic q c | .send q c _ | .postrecv q c | .tallyAdd q c => queueOk q && c.ok
  | .waitTally q toStop ltally totally tally timeout value =>
    queueOk q && WaitCmd.ok ⟨.tally, toStop, ltally, totally, tally, timeout, value⟩
  | .waitHead q toStop ltally totally queue timeout index =>
    queueOk q && WaitCmd.ok ⟨.head, toStop, ltally, totally, queue, timeout, index⟩
  | .waitTime q ltally t => queueOk q && WaitCmd.ok ⟨.time, false, ltally, 0, 0, 0, t⟩
  | .whistle q c | .collective q c | .loop q c | .skipIf q c | .call q c => queueOk q && c.ok
  | .windowOpen _ p _ | .windowRevoke _ p _ | .regionRegister _ p _ | .regionDeregister _ p _ => p.ok
  | .regionDeregisterComplete _ | .regionQuarantineEnd _ => true
  | .treeBuild _ p _ | .routeWrite _ p _ | .routeCommit _ p _ | .loadProgram _ p _ | .ferryDrain _ p _ => p.ok
  | .ferryDrainComplete f => decide (f < 64)
  | .ferryResume _ p _ | .queueBind _ p _ | .invalidate _ p _ => p.ok
  | .invalidateComplete => true
  | .snapshot _ p _ => p.ok
  | .streamInject _ _ | .dataReceive _ | .multicastDataReceive _ | .ackReceive _ | .nackBusyReceive _ | .nackRetryExpiry _ _ _
  | .respDataReceive _ | .respStatusReceive _ | .ackDelayExpiry _ _ | .rtoExpiry _ _ | .contextFail _ | .idleCloseStart _
  | .closeReqReceive _ | .closeAckReceive _ | .closeRefuseReceive _ | .jobCloseQuietTimeout _ | .quietExpiry _
  | .contextFetchComplete _ _ => true
  | .tpCfgWrite _ v => word64 v
  | .mfQuotaWrite slot v => decide (slot < 256) && word64 v
  | .moverTransferComplete _ _ _ | .flushReadComplete _ | .hostAtomicComplete _ _ _ | .revokeReceive _ | .confirmReceive _
  | .revokeDoneReceive _ => true
  | .revokeRepeat slot _ _ _ | .revokeFailTime slot _ => decide (slot < 256)
  | .unexpectedCopyComplete _ => true
  | .spillRefill c _ => decide (c < 4)
  | .catcherRegWrite _ slot v => decide (slot < 256) && word64 v
  | .joinReceive _ | .partReceive _ | .escapeReceive _ | .resultReceive _ | .collDoneReceive _ | .collFailReceive _
  | .collTimeout _ _ | .rejoinReceive _ | .rerunReceive _ | .rejoinRepeat _ | .collCreditReceive _ | .collCreditReturn _ _ => true
  | .hdRegWrite v => word64 v
  | .routerHeaderArrival inPort _ _ _ => decide (inPort < 80)
  | .cutThroughStart out vc | .mgDropExpiry out vc => decide (out < 80 ∧ vc < 8)
  | .mgCmdReceive _ | .mgStatusReceive _ | .telemetryRequest _ => true
  | .noticeReceive p _ | .flitTransmit p => decide (p < 72)
  | .dataFlitReceive p c | .creditFlitReceive p c => c.ok && decide (p < 72)
  | .replayTimeout p | .nackRepeatTimeout p => decide (p < 72)
  | .fecLockGain l | .fecLockLoss l => decide (l < 72)
  | .portDown p _ => decide (p < 72)
  | .helloReceive p c => c.ok && decide (p < 72)
  | .helloRepeat p | .holdExpiry p => decide (p < 72)
  | .trainFlitReceive p c => c.ok && decide (p < 72)
  | .trainReqRepeat p | .retrainLimitExpiry p | .portDisableDrainEnd p => decide (p < 72)
  | .trainingFrameReceive l w => decide (w < 2 ^ 96) && decide (l < 72)
  | .laneRequestRepeat l | .fastPathTimeout l | .fullTrainingRestart l | .recalRequest l => decide (l < 72)
  | .laneFailureNarrow p _ => decide (p < 72)
  | .lnLaneSerRead l | .lnLanePrbsRead l => decide (l < 72)
  | .timeFlitReceive p c => c.ok && decide (p < 72)
  | .ppsEdge | .extReferenceLoss | .parentLoss | .holdoverExpiry | .whistlePacketReceive _ => true
  | .whistleFire line => decide (line < 16)
  | .trigCaptureEdge k _ | .trigOutputFire k => decide (k < 4)
  | .mtTrigCfgWrite k v => word64 v && decide (k < 4)
  | .mtTrigCapRead k | .mtTrigStatRead k => decide (k < 4)
  | .mtLineRead w => decide (w < 16)
  | .handlerDispatch f => decide (f < 64)
  | .budgetExpiry f t | .unitOpComplete f t _ _ => decide (f < 64) && decide (t < 16)
  | .timerFire f t k => decide (f < 64) && (decide (t < 16) && decide (k < 65536))
  | .eventWaitTimeout f t => decide (f < 64) && decide (t < 16)
  | .fxCfgWrite f v => decide (f < 64) && word64 v
  | .fxFaultRead f t => decide (f < 64) && decide (t < 16)
  | .alu f t rd ra rb pg _ fn | .cmp f t rd ra rb pg _ fn | .pred f t rd ra rb pg _ fn | .amo f t rd ra rb pg _ fn =>
    threadOk f t && decide (rd < 32 ∧ ra < 32 ∧ rb < 32 ∧ pg < 8 ∧ fn < 128)
  | .sysFence f t rd ra rb pg _ | .sysYield f t rd ra rb pg _ | .sysDone f t rd ra rb pg _ | .sysNow f t rd ra rb pg _
  | .sysSelf f t rd ra rb pg _ | .sysBreak f t rd ra rb pg _ => threadOk f t && decide (rd < 32 ∧ ra < 32 ∧ rb < 32 ∧ pg < 8)
  | .jr f t rd ra rb pg _ fn => threadOk f t && decide (rd < 32 ∧ ra < 32 ∧ rb < 32 ∧ pg < 8 ∧ fn < 128)
  | .addi f t rd ra imm | .andi f t rd ra imm | .ori f t rd ra imm | .xori f t rd ra imm | .movi f t rd ra imm
  | .movk f t rd ra imm | .cmpi f t rd ra imm | .shi f t rd ra imm => threadOk f t && decide (rd < 32 ∧ ra < 32 ∧ imm < 65536)
  | .ld f t rd ra sz mo off | .lds f t rd ra sz mo off => threadOk f t && decide (rd < 32 ∧ ra < 32 ∧ sz < 4 ∧ mo < 4 ∧ off < 4096)
  | .st f t rs ra sz mo off => threadOk f t && decide (rs < 32 ∧ ra < 32 ∧ sz < 4 ∧ mo < 4 ∧ off < 4096)
  | .br f t p _ rsv off | .brl f t p _ rsv off => threadOk f t && decide (off < 1048576 ∧ p < 8 ∧ rsv < 4)
  | .sendRequest f t rd rs ra _ | .sendReply f t rd rs ra _ | .sendMcast f t rd rs ra _ | .matchPost f t rd rs ra _
  | .matchProbe f t rd rs ra _ | .matchClaim f t rd rs ra _ | .matchDeliver f t rd rs ra _ | .moveCopy f t rd rs ra _
  | .moveFill f t rd rs ra _ | .tallyUnitAdd f t rd rs ra _ | .tallyRead f t rd rs ra _ | .tallyWait f t rd rs ra _
  | .lockAcquire f t rd rs ra _ | .lockTry f t rd rs ra _ | .lockRelease f t rd rs ra _ | .eventWait f t rd rs ra _
  | .eventPost f t rd rs ra _ | .timerArm f t rd rs ra _ | .timerCancel f t rd rs ra _ | .doorbellRing f t rd rs ra _
  | .enqueue f t rd rs ra _ => threadOk f t && decide (rd < 32 ∧ rs < 32 ∧ ra < 32)
  | .ferryRead f _ | .ferryOwn f _ | .ferryUpgrade f _ => decide (f < 64)
  | .agentRead _ | .agentWrite _ _ | .agentAtomic _ _ _ _ _ => true
  | .ferryEviction f _ => decide (f < 64)
  | .poisonTimeout _ => true
  | .lkAcquire n ident writer | .lkRelease n ident writer | .lkClearOrphan n ident writer | .lkWithdraw n ident writer =>
    decide (n < 4096 ∧ ident < 65536 ∧ writer < 65536)
  | .lkGroupWrite g _ v => word64 v && decide (g < 16)
  | .lkCfgWrite v => word64 v
  | .lkWordAcquire writer _ | .lkWordRelease writer _ => decide (writer < 65536)
  | .txAsidWrite a _ v => word64 v && decide (a < 4096)
  | .txSpanBaseWrite a sp _ v => word64 v && decide (a < 4096 ∧ sp < 8)
  | .bmeClear f | .bmeSet f | .quiesceExpiry f | .d3hotEntry f | .flr f | .flrComplete f => funcOk f
  | .vfEnableClear p | .pcieLinkDown p => decide (p < 2)
  | .completionTimeout _ => true
  | .bar4Access f _ _ _ _ => funcOk f
  | .hiCtlDataRead _ => true
  | .hiCtlDataWrite _ v => word64 v
  | .hiWinWrite _ p w v => word64 v && decide (p < 2 ∧ w < 16)
  | .hiVfWrite p vf v => word64 v && decide (p < 2 ∧ 1 ≤ vf ∧ vf ≤ 252)
  | .hiFnStatRead f => funcOk f
  | .msixUnmask f vec => funcOk f && decide (vec < 2048)
  | .slotPwrOn | .slotPwrOff | .slotPerstRelease | .settleExpiry | .presenceChange _ | .attentionButton => true
  | .containmentFreeze cause => decide (1 ≤ cause ∧ cause ≤ 4)
  | .containmentRelease | .attachedMsiWrite _ _ | .attachedRequest | .welrirelCmd _ | .enrol _ _ _ _ | .logRead _ _ _ _ => true
  | .commit _ t v _ _ => decide (t < 6) && decide (v ≤ 256)
  | .mctpControl smbus r => decide (smbus < 2) && match r with | .setEid eid => decide (eid < 256) | .version t => decide (t < 128) | _ => true
  | .pldmUpdateComponent t _ => decide (t < 6)
  | .activateFirmware _ | .liveUpdateUnit _ | .logFlashCopy | .mgLogLostRead => true
  | .sensorReading i _ | .sensorFail i => decide (i < 147)
  | .mgSensThrWrite i v => word64 v && decide (i < 147)
  | .faultAssertion src | .wireFault src | .ftForceAssert src | .ftForceWire src => decide (src < 512)
  | .ftReactWrite src v => word64 v && decide (src < 512)
  | .ftSrcRead src | .fatalEntry src => decide (src < 512)
  | .collectorSelfCheckFail => true
  | .ecSelWrite u k v | .ecCntWrite u k v => word64 v && decide (u < 295 ∧ k < 4)
  | .ecHistCfgWrite p v => word64 v && decide (p < 72)
  | .histogramSample p => decide (p < 72)
  | .snapshotCapture | .snapshotComplete _ _ => true
  | .registerWrite p => p.ok
  | .mgmtResetComplete | .regionEntryFetchComplete _ => true
  | .efRegulation c _ => decide (c < 2)
  | .prbsCheckerLock l => decide (l < 72)
  | .vfEnableSet p numVfs => decide (p < 2 ∧ numVfs ≤ 252)
  | .pcieLinkUp p _ _ _ => decide (p < 2)

/-- The queue that a command names. -/
def Instr.queue : Instr → Option Nat
  | .doorbell _ q _ _ _ | .ringFetch q _ | .ringReadComplete q _ _ | .queueStartTurn q _ _ | .heldCommandResume q _ _
  | .coalTimeExpiry q | .headWordWriteFailure q | .waitConditionMet q | .waitTimeoutExpiry q | .cmdRun q _ | .cmdHalt q _
  | .cmdResume q _ | .cmdResumeSkip q _ | .heldResumeApply q | .quNotifyWrite q _ _ | .quPiRead q _
  | .queueApertureAccess _ q _ _ | .nop q _ | .endCmd q _ | .fence q _ | .cancel q _ | .cancelDecision q _ | .put q _
  | .puti q _ | .get q _ | .atomic q _ | .send q _ _ | .postrecv q _ | .tallyAdd q _ | .waitTally q _ _ _ _ _ _
  | .waitHead q _ _ _ _ _ _ | .waitTime q _ _ | .whistle q _ | .collective q _ | .loop q _ | .skipIf q _ | .call q _ => some q
  | _ => none

end Sys2Proof
end

