-- ==== Sys2Proof/Decode.lean ====
section
/-! DEFINITION. Reading the bytes of ring entries (R109 to R143) and of operand blocks into the operand
structures, and `decodeTableWord`. -/

namespace Sys2Proof

/-- The command a table word spells: no row of spec/opcode_table.json gives bits, so none. -/
def decodeTableWord (_nbits _w : Nat) : Option Instr := none

/-- Whether every byte of a range of an entry is 0. -/
def zeros (bs : List Byte) (off n : Nat) : Bool := (bs.drop off |>.take n).all fun b => b = 0

/-- The privileged command of an opcode (R113). -/
def privOp : Nat → Option PrivOp
  | 0x80 => some .jobOpen
  | 0x81 => some .jobClose
  | 0x82 => some .keyInstall
  | 0x83 => some .windowOpen
  | 0x84 => some .windowRevoke
  | 0x85 => some .regionRegister
  | 0x86 => some .regionDeregister
  | 0x87 => some .treeBuild
  | 0x88 => some .routeWrite
  | 0x89 => some .routeCommit
  | 0x8A => some .loadProgram
  | 0x8B => some .ferryDrain
  | 0x8C => some .ferryResume
  | 0x8D => some .queueBind
  | 0x8E => some .invalidate
  | 0x8F => some .snapshot
  | _ => none

/-- The number of slots of an entry with a known opcode (R113): none where byte 0 is unknown. -/
def opcodeSlots (op flags : Nat) : Option Nat :=
  if op = 0x0B then some (if bitOf flags 2 then 2 else 1)
  else if op = 0x0C ∨ op = 0x0D ∨ op = 0x88 ∨ op = 0x89 then some 2
  else if op ≤ 0x03 ∨ (0x08 ≤ op ∧ op ≤ 0x0A) ∨ (0x10 ≤ op ∧ op ≤ 0x14) ∨ op = 0x18 ∨ (0x1C ≤ op ∧ op ≤ 0x1E)
      ∨ (0x80 ≤ op ∧ op ≤ 0x8F) then some 1
  else none

/-- Whether an opcode is privileged. -/
def opcodePriv (op : Nat) : Bool := decide (0x80 ≤ op ∧ op ≤ 0x8F)

/-- R114: the opcodes that the control queue accepts beside the privileged ones. -/
def opcodeCtl (op : Nat) : Bool := decide (op = 0 ∨ op = 1 ∨ op = 2 ∨ op = 0x10 ∨ op = 0x11 ∨ op = 0x13)

/-- R114: the opcodes that a queue bound without a job accepts. -/
def opcodeJobless (op : Nat) : Bool := decide (op = 0 ∨ op = 1 ∨ op = 2 ∨ op = 0x13)

/-- A decoded command, or none where a field the layout reserves is not 0. -/
def guardOk (b : Bool) (c : Cmd) : Option Cmd := if b then some c else none

/-- Read an entry (32 bytes, or 64 with its second slot) into a command; none where a reserved field is not 0 or the
second slot is not marked 0x7F (R10, R111). Ranges are checked by `Cmd.ok`. -/
def decodeEntry (bs : List Byte) : Option Cmd :=
  let at' := leAt bs
  let op := at' 0 1
  let fl := at' 1 1
  let lt := at' 2 3
  let second := decide (at' 32 1 = 0x7F)
  match op with
  | 0x00 => guardOk (decide (fl = 0) && zeros bs 5 27) (.nop lt)
  | 0x01 => guardOk (decide (fl = 0) && zeros bs 5 27) (.endCmd lt)
  | 0x02 =>
    guardOk (decide (fl = 0 ∨ fl = 4) && zeros bs 5 3 && zeros bs 12 20)
      (.fence ⟨bitOf fl 2, lt, at' 8 4⟩)
  | 0x03 =>
    guardOk (decide (fl = 0) && zeros bs 5 3 && zeros bs 15 1 && zeros bs 19 1 && zeros bs 23 9)
      (.cancel ⟨lt, at' 8 4, at' 12 3, at' 16 3, at' 20 3⟩)
  | 0x08 =>
    guardOk (decide (fl < 4)) (.put ⟨bitOf fl 0, bitOf fl 1, lt, at' 5 3, at' 8 4, at' 12 4, at' 16 6, at' 22 6, at' 28 4⟩)
  | 0x09 =>
    let n := bitsOf fl 2 5 + 1
    guardOk (decide (fl < 128) && decide (n ≤ 16) && zeros bs (16 + n) (16 - n))
      (.puti ⟨bitOf fl 0, bitOf fl 1, at' 2 4, at' 6 4, at' 10 6, (bs.drop 16).take n⟩)
  | 0x0A =>
    guardOk (decide (fl < 4)) (.get ⟨bitOf fl 0, bitOf fl 1, lt, at' 5 3, at' 8 4, at' 12 4, at' 16 6, at' 22 6, at' 28 4⟩)
  | 0x0B =>
    let fetch := bitOf fl 2
    let slot2 := second && zeros bs 33 7 && zeros bs 54 10
    guardOk (decide (fl < 32) && zeros bs 6 2 && zeros bs 22 2 && (!fetch || slot2))
      (.atomic ⟨bitOf fl 0, bitOf fl 1, fetch, bitOf fl 3, bitOf fl 4, lt, at' 5 1, at' 8 4, at' 12 4, at' 16 6, at' 24 8,
        if fetch then at' 40 8 else 0, if fetch then at' 48 6 else 0⟩)
  | 0x0C =>
    guardOk (decide (fl < 16) && !bitOf fl 1 && zeros bs 5 3 && zeros bs 22 2 && second && zeros bs 33 7 && zeros bs 48 16)
      (.send ⟨bitOf fl 0, bitOf fl 2, bitOf fl 3, lt, at' 8 4, at' 12 4, at' 16 6, at' 24 4, at' 28 4, at' 40 8⟩)
  | 0x0D =>
    guardOk (decide (fl < 16) && !bitOf fl 1 && zeros bs 5 3 && zeros bs 22 2 && zeros bs 28 4 && second
        && zeros bs 33 7 && zeros bs 54 10)
      (.postrecv ⟨bitOf fl 0, bitOf fl 2, bitOf fl 3, lt, at' 8 4, at' 12 4, at' 16 6, at' 24 4, at' 40 8, at' 48 6⟩)
  | 0x10 =>
    guardOk (decide (fl = 0 ∨ fl = 4) && zeros bs 16 16) (.tallyAdd ⟨bitOf fl 2, lt, at' 5 3, at' 8 8⟩)
  | 0x11 =>
    guardOk (decide (fl = 0 ∨ fl = 4) && zeros bs 24 8) (.wait ⟨.tally, bitOf fl 2, lt, at' 5 3, at' 8 4, at' 12 4, at' 16 8⟩)
  | 0x12 =>
    guardOk (decide (fl = 0 ∨ fl = 4) && zeros bs 24 8) (.wait ⟨.head, bitOf fl 2, lt, at' 5 3, at' 8 4, at' 12 4, at' 16 8⟩)
  | 0x13 =>
    guardOk (decide (fl = 0) && zeros bs 24 8) (.wait ⟨.time, false, lt, at' 5 3, at' 8 4, at' 12 4, at' 16 8⟩)
  | 0x14 =>
    guardOk (decide (fl = 0 ∨ fl = 4) && zeros bs 6 2 && zeros bs 16 16) (.whistle ⟨bitOf fl 2, lt, at' 5 1, at' 8 8⟩)
  | 0x18 =>
    guardOk (decide (fl < 16) && !bitOf fl 1 && zeros bs 11 1 && zeros bs 22 2 && zeros bs 30 2)
      (.collective ⟨bitOf fl 0, bitOf fl 2, bitOf fl 3, lt, at' 5 1, at' 6 1, at' 7 1, at' 8 2, at' 10 1, at' 12 4,
        at' 16 6, at' 24 6⟩)
  | 0x1C =>
    guardOk (decide (fl = 0) && zeros bs 16 16)
      (.loop ⟨lt, at' 5 1, at' 6 2, signedOf 32 (at' 8 4), signedOf 32 (at' 12 4)⟩)
  | 0x1D =>
    guardOk (decide (fl = 0) && zeros bs 10 6 && zeros bs 24 8) (.skipIf ⟨lt, at' 5 3, at' 8 1, at' 9 1, at' 16 8⟩)
  | 0x1E => guardOk (decide (fl = 0) && zeros bs 6 2) (.call ⟨lt, at' 5 1, at' 8 8, at' 16 8, at' 24 8⟩)
  | op =>
    match privOp op with
    | none => none
    | some o =>
      guardOk (decide (fl = 0 ∨ fl = 4)) (.priv o ⟨bitOf fl 2, lt, at' 5 3, at' 8 8, at' 16 8, at' 24 4, at' 28 4⟩)

/-! ## Privileged entries, tokens and trailers as bytes -/

/-- The opcode of a privileged command (R113). -/
def PrivOp.code : PrivOp → Nat
  | .jobOpen => 0x80
  | .jobClose => 0x81
  | .keyInstall => 0x82
  | .windowOpen => 0x83
  | .windowRevoke => 0x84
  | .regionRegister => 0x85
  | .regionDeregister => 0x86
  | .treeBuild => 0x87
  | .routeWrite => 0x88
  | .routeCommit => 0x89
  | .loadProgram => 0x8A
  | .ferryDrain => 0x8B
  | .ferryResume => 0x8C
  | .queueBind => 0x8D
  | .invalidate => 0x8E
  | .snapshot => 0x8F

/-- The 32 bytes of a privileged command's first slot (R142), TOKEN read as `token`. -/
def Priv.bytes (op : PrivOp) (p : Priv) (token : Nat) : List Byte :=
  leBytes 1 op.code ++ leBytes 1 (if p.sealOut then 4 else 0) ++ leBytes 3 p.ltally ++ leBytes 3 p.arg ++ leBytes 8 p.opblk
    ++ leBytes 8 token ++ leBytes 4 p.oplen ++ leBytes 4 p.arg2

/-- The bytes of a token and the public key that follows it (R50, R142). -/
def tokenSize : Nat := 273

/-- Read a token and its key (R50). -/
def decodeToken (bs : List Byte) : Token :=
  { kind := leAt bs 0 1, version := leAt bs 1 1, length := leAt bs 2 2, jobId := leAt bs 4 3, serial := leAt bs 8 8, notAfter := leAt bs 16 8,
    scope := leAt bs 24 3 % 2 ^ 20, authSlot := leAt bs 27 1,
    reservedOk := decide (bs.length = tokenSize) && zeros bs 7 1 && decide (leAt bs 24 3 < 2 ^ 20) && zeros bs 28 4,
    bodyHash := (bs.drop 32).take 48, sigR := (bs.drop 80).take 48, sigS := (bs.drop 128).take 48, head := bs.take 80,
    key := (bs.drop 176).take 97 }

/-- Read a credential trailer (R54); none where its 4 bytes of 0 are not. -/
def decodeTrailer (bs : List Byte) : Option Cred :=
  if bs.length = 32 ∧ zeros bs 12 4 then some ⟨leAt bs 0 4, leAt bs 4 8, bs.drop 16⟩ else none

/-! ## Operand blocks -/

/-- The JOB-OPEN block (R144). -/
structure JobBlock where
  mode : Nat
  members : List (Nat × Nat)
  accepted : List (Nat × Nat)
  asids : List Nat
  tallyBase : Nat
  tallyCount : Nat
  whistleMask : Nat
  whistleTally : Nat
  blob : Nat
  deriving DecidableEq, Repr

/-- `n` entries of `size` bytes from an offset, each read by `f`. -/
def entries {α : Type} (bs : List Byte) (off size n : Nat) (f : List Byte → α) : List α :=
  (List.range n).map fun k => f ((bs.drop (off + size * k)).take size)

/-- Whether a list rises strictly. -/
def rising : List Nat → Bool
  | a :: b :: r => decide (a < b) && rising (b :: r)
  | _ => true

/-- Read a JOB-OPEN block (R55, R144); none where it is malformed. -/
def decodeJobBlock (bs : List Byte) (sealOut : Bool) : Option JobBlock :=
  let m := leAt bs 0 4
  let mode := leAt bs 4 1
  let acc := leAt bs 5 1
  let as := leAt bs 6 1
  let tb := leAt bs 8 4
  let tc := leAt bs 12 4
  let wm := leAt bs 16 2
  let wt := leAt bs 18 3
  let blob := leAt bs 24 8
  let o1 := 64 + 16 * m
  let o2 := o1 + 64 * acc
  let len := o2 + 8 * ceilDiv as 4
  let members := entries bs 64 16 m fun e => (leAt e 0 4, leAt e 8 8)
  let accepted := entries bs o1 64 acc fun e => (leAt e 0 1, leAt e 16 48)
  let asids := entries bs o2 2 as fun e => leAt e 0 2
  if bs.length = len ∧ 1 ≤ m ∧ m ≤ 104976 ∧ mode ≤ 1 ∧ (mode = 1 ∨ m ≤ 4096) ∧ 1 ≤ acc ∧ acc ≤ 64 ∧ 1 ≤ as ∧ as ≤ 16
      ∧ 1 ≤ tc ∧ tb + tc ≤ 262144 ∧ (wm = 0 ∨ (tb ≤ wt ∧ wt + 16 ≤ tb + tc)) ∧ (sealOut ∨ blob = 0)
      ∧ zeros bs 7 1 ∧ zeros bs 21 3 ∧ zeros bs 32 32
      ∧ (entries bs 64 16 m fun e => zeros e 4 4 && decide (leAt e 0 4 < 2 ^ 20)).all id
      ∧ rising (members.map (·.1))
      ∧ (entries bs o1 64 acc fun e => zeros e 1 15 && decide (leAt e 0 1 ≤ 5)).all id
      ∧ zeros bs (o2 + 2 * as) (len - (o2 + 2 * as))
  then some ⟨mode, members, accepted, asids, tb, tc, wm, wt, blob⟩ else none

/-- The QUEUE-BIND block (R145). -/
structure BindBlock where
  base : Nat
  headAddr : Nat
  start : Nat
  asid : Nat
  slot : Nat
  ferry : Nat
  thread : Nat
  sizeLog2 : Nat
  func : Func
  loc : Bool
  ep : Nat
  noJob : Bool
  deriving DecidableEq, Repr

/-- Read a QUEUE-BIND block; none where it is malformed. -/
def decodeBind (bs : List Byte) : Option BindBlock :=
  let a := leAt bs
  let f := a 26 2
  let fl := a 30 1
  if bs.length = 32 ∧ a 0 8 % 4096 = 0 ∧ bitsOf (a 8 8) 2 1 = 0 ∧ a 23 1 < 64 ∧ a 24 1 < 16 ∧ 6 ≤ a 25 1 ∧ a 25 1 ≤ 16
      ∧ bitsOf f 9 6 = 0 ∧ a 28 2 < 4096 ∧ fl ≤ 1 ∧ zeros bs 31 1 ∧ (fl = 0 ∨ a 22 1 = 0)
  then some ⟨a 0 8, a 8 8, a 16 4, a 20 2, a 22 1, a 23 1, a 24 1, a 25 1, bitsOf f 0 9, bitOf f 15, a 28 2, bitOf fl 0⟩
  else none

/-- The fields of a window or region descriptor (R185). -/
structure DescrBlock where
  base : Nat
  length : Nat
  asid : Nat
  func : Func
  rights : Nat
  ao : Bool
  deriving DecidableEq, Repr

/-- Read a descriptor; none where it is malformed. -/
def decodeDescr (bs : List Byte) : Option DescrBlock :=
  let a := leAt bs
  if bs.length = 32 ∧ a 0 8 % 64 = 0 ∧ a 0 8 < 2 ^ 48 ∧ 1 ≤ a 8 8 ∧ a 0 8 + a 8 8 ≤ 2 ^ 48 ∧ a 18 2 < 512 ∧ a 20 1 < 8
      ∧ a 21 1 < 2 ∧ zeros bs 22 10
  then some ⟨a 0 8, a 8 8, a 16 2, a 18 2, a 20 1, bitOf (a 21 1) 0⟩ else none

/-- Read INVALIDATE's operand block (R420): BASE and LENGTH, checked. -/
def decodeInval (bs : List Byte) : Option (Nat × Nat) :=
  let b := leAt bs 0 8
  let n := leAt bs 8 8
  if bs.length = 16 ∧ b % 4096 = 0 ∧ n % 4096 = 0 ∧ b + n ≤ 2 ^ 48 then some (b, n) else none

/-- Read SNAPSHOT's operand block (R483): T and DEST. -/
def decodeSnap (bs : List Byte) : Option (Nat × Nat) :=
  let d := leAt bs 8 8
  if bs.length = 16 ∧ bitsOf d 2 4 = 0 then some (leAt bs 0 8, d) else none

/-- The tree descriptor of TREE-BUILD (R241): `parent` is none at the root; a child is (node, first, last). -/
structure TreeBlock where
  root : Nat
  parent : Option Nat
  members : Nat
  pos : Nat
  first : Nat
  last : Nat
  rebuild : Bool
  land : Nat
  timeout : Nat
  maxBytes : Nat
  build : Nat
  retain : Nat
  kids : List (Nat × Nat × Nat)
  deriving DecidableEq, Repr

/-- Read a tree descriptor (check 1 of R242); none where it is malformed. -/
def decodeTree (bs : List Byte) : Option TreeBlock :=
  let a := leAt bs
  let m := a 8 4
  let n := a 24 1
  let none' := bitOf (a 4 4) 31
  let r := a 40 8
  let kids := entries bs 64 16 n fun e => (leAt e 0 4, leAt e 4 4, leAt e 8 4)
  if 64 ≤ bs.length ∧ n ≤ 64 ∧ bs.length = 64 + 16 * n ∧ a 0 4 < 2 ^ 20 ∧ bitsOf (a 4 4) 20 11 = 0
      ∧ (!none' ∨ bitsOf (a 4 4) 0 20 = 0) ∧ 1 ≤ m ∧ m ≤ 104976 ∧ a 12 4 < m ∧ a 16 4 < m ∧ a 20 4 < m ∧ a 25 1 ≤ 1
      ∧ 2 ≤ a 26 1 ∧ a 26 1 ≤ 16 ∧ zeros bs 27 1 ∧ 1 ≤ a 32 4 ∧ a 32 4 ≤ 2 ^ 30 ∧ zeros bs 38 2 ∧ zeros bs 48 16
      ∧ (if none' then r % 64 = 0 else r = 0)
      ∧ (entries bs 64 16 n fun e => decide (leAt e 0 4 < 2 ^ 20 ∧ leAt e 4 4 < m ∧ leAt e 8 4 < m) && zeros e 12 4).all id
  then some ⟨a 0 4, if none' then none else some (bitsOf (a 4 4) 0 20), m, a 12 4, a 16 4, a 20 4, bitOf (a 25 1) 0, a 26 1,
    a 28 4, a 32 4, a 36 2, r, kids⟩
  else none

/-- A handler entry of an image (R382): its number and what it holds. -/
structure ImageEntry where
  num : Nat
  flags : Nat
  threads : Nat
  pc : Nat
  budget : Nat
  deriving DecidableEq, Repr

/-- A program image (R385). -/
structure ImageBlock where
  job : Bool
  secver : Nat
  asid : Nat
  slot : Nat
  segBase : Nat
  segLen : Nat
  inbox : Nat
  lineEntry : List Nat
  entries : List ImageEntry
  code : List Nat
  deriving DecidableEq, Repr

/-- Read a program image (check 1 of R386); none where it is malformed. -/
def decodeImage (bs : List Byte) : Option ImageBlock :=
  let a := leAt bs
  let job := decide (a 0 1 = 1)
  let n := a 3 1
  let len := a 4 4
  let o := 64 + 16 * n
  let total := o + 4 * len + (if job then 0 else 96)
  let lines := entries bs 24 1 16 fun e => leAt e 0 1
  let es := entries bs 64 16 n fun e => (⟨leAt e 0 1, leAt e 1 1, leAt e 2 2, leAt e 4 4, leAt e 8 4⟩ : ImageEntry)
  let okEntry (e : ImageEntry) : Bool :=
    decide (e.flags < 16 ∧ e.pc < len)
      && (if job then decide (0x80 ≤ e.num ∧ e.flags / 4 ≤ 2 ∧ 1 ≤ e.budget ∧ e.budget ≤ 1000)
          else decide (e.num < 0x80 ∧ e.budget = 0))
  if a 0 1 ≤ 1 ∧ a 1 1 = 1 ∧ 1 ≤ n ∧ n ≤ 128 ∧ 1 ≤ len ∧ len ≤ (if job then 10240 else 6144) ∧ bs.length = total
      ∧ zeros bs 11 1 ∧ zeros bs 18 6 ∧ zeros bs 40 24 ∧ (!job ∨ a 2 1 = 0)
      ∧ (!job ∨ (1 ≤ a 14 2 ∧ a 14 2 ≤ 1024 ∧ lines.all fun l => decide (l = 0 ∨ 0x80 ≤ l)))
      ∧ es.all okEntry ∧ (entries bs 64 16 n fun e => zeros e 12 4).all id
  then some ⟨job, a 2 1, a 8 2, a 10 1, a 12 2, a 14 2, a 16 2, lines, es, entries bs o 4 len fun e => leAt e 0 4⟩
  else none

/-- A container of an image slot (R457): its header fields, whether the header is well-formed, the bytes that its signature covers. -/
structure Container where
  ptype : Nat
  secver : Nat
  build : Nat
  payload : List Byte
  signed : List Byte
  sigR : List Byte
  sigS : List Byte
  deriving DecidableEq, Repr

/-- Read a container; none where it is malformed. -/
def decodeContainer (bs : List Byte) : Option Container :=
  let n := leAt bs 4 4
  if bs.length = 64 + n + 96 ∧ leAt bs 1 1 = 1 ∧ zeros bs 3 1 ∧ zeros bs 16 48 ∧ bs.length ≤ 0x20_0000 then
    some ⟨leAt bs 0 1, leAt bs 2 1, leAt bs 8 8, (bs.drop 64).take n, bs.take (64 + n), (bs.drop (64 + n)).take 48, bs.drop (112 + n)⟩
  else none

/-- The sizes in bytes of the entries of tables 0 route, 1 multicast, 2 port, 3 lane (R297), and how many each holds. -/
def tableSize (t : Nat) : Nat := if t = 0 then 8 else 16
def tableCount (t : Nat) : Nat :=
  match t with
  | 0 => 132
  | 1 => 65536
  | 2 => 73
  | _ => 72

/-- Read the operand block of ROUTE-WRITE (R297): its entries as the numbers that they spell; none where it is no whole number of
entries. -/
def decodeTable (t : Nat) (bs : List Byte) : Option (List Nat) :=
  let k := tableSize t
  if t ≤ 3 ∧ bs ≠ [] ∧ bs.length % k = 0 then some (entries bs 0 k (bs.length / k) leNat) else none

end Sys2Proof
end

