-- ==== Sys2Proof/Machine/Blocks.lean ====
section
/-! DEFINITION. What kind of operation an operation block names (R186, R225, R228, R377), and what an ACK covers (R162). -/

namespace Sys2Proof

/-! ## Kinds of operations -/

/-- Whether an operation's DATA packets carry bytes read from a local buffer: PUT, eager SEND. -/
def OpBlock.streams : OpBlock → Bool
  | .oneSided op .. => decide (op = 0x08)
  | .send _ rdv .. => !rdv
  | _ => false

/-- Whether an operation is answered with RESP-DATA that movers place: GET, pull. -/
def OpBlock.gets : OpBlock → Bool
  | .oneSided op .. => decide (op = 0x0A)
  | .pull .. => true
  | _ => false

/-- Whether an operation is an ATOMIC, and whether it returns the old value. -/
def OpBlock.atomic : OpBlock → Bool
  | .oneSided op .. => decide (op = 0x0B)
  | _ => false
def OpBlock.fetches : OpBlock → Bool
  | .oneSided op _ fetch .. => decide (op = 0x0B) && fetch
  | _ => false

/-- Whether an operation is a SEND, an HMSG, or either, which a target takes in sequence (R156, R378). -/
def OpBlock.isSend : OpBlock → Bool
  | .send .. => true
  | _ => false
def OpBlock.isHmsg : OpBlock → Bool
  | .hmsg .. => true
  | _ => false
def OpBlock.ordered (b : OpBlock) : Bool := b.isSend || b.isHmsg

/-- Whether a packet is a DATA packet of an operation. -/
def Packet.ofOp (p : Packet) (m : Nat) : Bool := decide (p.ptype = 0x01 ∧ p.mtag = m)

/-- A packet on the wire: an operation's number is its bits 16:0 (R149, R163). -/
def Packet.wire (p : Packet) : Packet :=
  { p with mtag := p.mtag % 2 ^ 17,
           body := match p.body with | .status es => .status (es.map fun e => { e with mtag := e.mtag % 2 ^ 17 }) | b => b }

/-- A packet without its data bytes. -/
def Packet.bare (p : Packet) : Packet :=
  match p.body with
  | .data blk _ => { p with body := .data blk [], length := 32 }
  | .resp _ => { p with body := .resp [], length := 0 }
  | _ => p

/-- Whether an operation needs a read slot (R25, R378). -/
def OpBlock.needsSlot (b : OpBlock) : Bool := b.gets || b.fetches || b.isHmsg

/-- Whether an ACK covers a PSN: it lies before CUM or in a valid SACK block. -/
def AckBody.covers (a : AckBody) (psn : Nat) : Bool :=
  idxBefore psn a.cum ||
    a.sack.any fun b => decide (b.1 ≤ dist32 a.cum psn ∧ dist32 a.cum psn < b.1 + b.2)

/-- The bytes that an operation moves: the LENGTH of its block. -/
def OpBlock.len : OpBlock → Nat
  | .oneSided _ _ _ _ _ _ _ _ length _ _ => length
  | .send _ _ _ _ length _ _ => length
  | .pull length _ => length
  | .hmsg _ _ _ length _ => length

/-- The value that an atomic operation stores (the ATOMIC table): `w` is its width in bits. -/
def atomicNew (aop w : Nat) (signed : Bool) (old operand compare : Nat) : Nat :=
  let lt (a b : Nat) : Bool := if signed then decide (signedOf w a < signedOf w b) else decide (a < b)
  let r :=
    match aop with
    | 0 => old + operand
    | 1 => operand
    | 2 => if old = compare then operand else old
    | 3 => if lt operand old then operand else old
    | 4 => if lt old operand then operand else old
    | 5 => old &&& operand
    | 6 => old ||| operand
    | _ => old ^^^ operand
  r % 2 ^ w

end Sys2Proof
end

