-- ==== Sys2Proof/Machine/CollMath.lean ====
section
/-! DEFINITION. The arithmetic of collectives (R251 to R258): elements and partials, exact sums and their rounding,
fixed-order sums, minima and maxima, segments, windows and escapes. -/

namespace Sys2Proof.Machine

/-- The bytes of an element of a DTYPE (R247). -/
def dtSize (d : Nat) : Nat := if d = 4 ∨ d = 5 then 2 else if d = 1 ∨ d = 3 ∨ d = 7 then 8 else 4

/-- Exponent and mantissa bits of a floating DTYPE. -/
def dtExp (d : Nat) : Nat := if d = 4 then 5 else if d = 7 then 11 else 8
def dtMan (d : Nat) : Nat := if d = 4 then 10 else if d = 5 then 7 else if d = 7 then 52 else 23

/-- Whether a DTYPE is floating. -/
def dtFloat (d : Nat) : Bool := decide (4 ≤ d ∧ d ≤ 7)

/-- Minus the exponent of the accumulator's least significant bit (R252). -/
def dtLsb (d : Nat) : Nat := if d = 7 then 1074 else 149

/-- The canonical NaN (R251). -/
def dtNan (d : Nat) : Nat := (2 ^ dtExp d - 1) * 2 ^ dtMan d + 2 ^ (dtMan d - 1)

/-- An infinity of a sign. -/
def dtInf (d : Nat) (neg : Bool) : Nat :=
  (if neg then 2 ^ (dtExp d + dtMan d) else 0) + (2 ^ dtExp d - 1) * 2 ^ dtMan d

/-- A partial that is a plain integer. -/
def partInt (v : Int) : Partial := ⟨v, false, false, false, false⟩

/-- The partial of a floating element (R253). -/
def toPartial (d v : Nat) : Partial :=
  let mb := dtMan d
  let m := v % 2 ^ mb
  let e := v / 2 ^ mb % 2 ^ dtExp d
  let neg := bitOf v (mb + dtExp d)
  if e = 2 ^ dtExp d - 1 then
    if m ≠ 0 then { partInt 0 with nan := true }
    else if neg then { partInt 0 with ninf := true } else { partInt 0 with pinf := true }
  else if e = 0 ∧ m = 0 then (if neg then { partInt 0 with negz := true } else partInt 0)
  else
    let bias := 2 ^ (dtExp d - 1) - 1
    let man := if e = 0 then m else m + 2 ^ mb
    let a := man * 2 ^ (max e 1 + dtLsb d - bias - mb)
    partInt (if neg then -(a : Int) else a)

/-- Two partials combine: exact addition, OR of the flags, AND of NEGZ (R253). -/
def partAdd (a b : Partial) : Partial :=
  ⟨a.s + b.s, a.nan || b.nan, a.pinf || b.pinf, a.ninf || b.ninf, a.negz && b.negz⟩

/-- Divide by a power of two, rounding to nearest, ties to even. -/
def roundEven (a sh : Nat) : Nat :=
  let q := a / 2 ^ sh
  let r := a % 2 ^ sh
  if 2 ^ sh < 2 * r ∨ (2 ^ sh = 2 * r ∧ q % 2 = 1) then q + 1 else q

/-- A nonzero magnitude in units of the accumulator's least significant bit, rounded to DTYPE (R254). -/
def roundMag (d a : Nat) : Nat :=
  let mb := dtMan d
  let bias := 2 ^ (dtExp d - 1) - 1
  -- the biased exponent that the magnitude's highest bit gives, 1 for a subnormal
  let e0 := Nat.log2 a + bias - dtLsb d
  let e := if Nat.log2 a + bias < dtLsb d + 1 then 1 else e0
  let r := roundEven a (e + dtLsb d - bias - mb)
  let v := if r < 2 ^ mb then r else if r = 2 ^ (mb + 1) then (e + 1) * 2 ^ mb else e * 2 ^ mb + (r - 2 ^ mb)
  min v ((2 ^ dtExp d - 1) * 2 ^ mb)

/-- Round a partial to DTYPE (R254). A nonzero sum that rounds to zero keeps its sign (log 21). -/
def partRound (d : Nat) (p : Partial) : Nat :=
  let sign := 2 ^ (dtExp d + dtMan d)
  if p.nan || (p.pinf && p.ninf) then dtNan d
  else if p.pinf then dtInf d false
  else if p.ninf then dtInf d true
  else if p.s = 0 then (if p.negz then sign else 0)
  else (if p.s < 0 then sign else 0) + roundMag d p.s.natAbs

/-- The order of floating values in min and max: numeric, −0 below +0 (R251). -/
def floatKey (d v : Nat) : Int :=
  let m := v % 2 ^ (dtExp d + dtMan d)
  if bitOf v (dtExp d + dtMan d) then -(m : Int) - 1 else m

/-- The order of integer values. -/
def intKey (d v : Nat) : Int := if d ≤ 1 then signedOf (8 * dtSize d) v else v

/-- OPERATOR on two DTYPE values (R251, R256). -/
def valueOp (op d a b : Nat) : Nat :=
  let w := 8 * dtSize d
  if dtFloat d then
    if op = 0 then partRound d (partAdd (toPartial d a) (toPartial d b))
    else if (toPartial d a).nan || (toPartial d b).nan then dtNan d
    else if op = 1 then (if floatKey d b < floatKey d a then b else a)
    else (if floatKey d a < floatKey d b then b else a)
  else
    match op with
    | 0 => (a + b) % 2 ^ w
    | 1 => if intKey d b < intKey d a then b else a
    | 2 => if intKey d a < intKey d b then b else a
    | 3 => a &&& b
    | 4 => a ||| b
    | _ => a ^^^ b

/-- Whether a command's partials are exact sums (R251, R257). -/
def collExact (c : CollCmd) : Bool := decide (c.operator = 0) && dtFloat c.dtype && !c.fixed

/-- The contribution of an element value; a NaN of a floating min or max is the canonical one (R251). -/
def collPart (c : CollCmd) (v : Nat) : Partial :=
  if collExact c then toPartial c.dtype v
  else if dtFloat c.dtype && c.operator != 0 && (toPartial c.dtype v).nan then partInt (dtNan c.dtype) else partInt v

/-- Combine contributions in order (R253, R256). -/
def collCombine (c : CollCmd) (a b : Partial) : Partial :=
  if collExact c then partAdd a b else partInt (valueOp c.operator c.dtype a.s.toNat b.s.toNat)

/-- The result value of a combined element (R254). -/
def collFinal (c : CollCmd) (p : Partial) : Nat := if collExact c then partRound c.dtype p else p.s.toNat

/-- Elements of a segment, and of a 4,096-byte packet (R257). -/
def segElems (c : CollCmd) : Nat := 4096 / dtSize c.dtype

/-- Elements of one PART with windows (R257). -/
def winElems (c : CollCmd) : Nat := if c.dtype = 7 then 128 else 256

/-- Whether a partial has a flag set. -/
def partFlagged (p : Partial) : Bool := p.nan || p.pinf || p.ninf || p.negz

/-- The segment exponent (R258). -/
def segExp (d : Nat) (ps : List Partial) : Nat :=
  let w := if d = 7 then 190 else 94
  let hs := ps.filterMap fun p => if partFlagged p || decide (p.s = 0) then none else some (Nat.log2 p.s.natAbs)
  hs.foldl max 0 - w

/-- Whether an element is windowed (R258). -/
def windowed (exp : Nat) (p : Partial) : Bool := !partFlagged p && decide (p.s % ((2 ^ exp : Nat) : Int) = 0)

/-- Number the members of a list. -/
def numbered {α : Type} : Nat → List α → List (Nat × α)
  | _, [] => []
  | n, a :: r => (n, a) :: numbered (n + 1) r

/-- Cut a list into pieces of `n`; `fuel` bounds the pieces. -/
def chunksOf {α : Type} : Nat → Nat → List α → List (List α)
  | 0, _, _ => []
  | fuel + 1, n, l => if l.isEmpty then [] else l.take n :: chunksOf fuel n (l.drop n)

/-- Elements per escape list of a PART and of an ESCAPE packet (R258). -/
def escFirst (d : Nat) : Nat := if d = 7 then 3 else 21
def escMore (d : Nat) : Nat := if d = 7 then 14 else 85

/-- A PART's data and the ESCAPE packets that follow it (R258). -/
def encodePart (d exp : Nat) (ps : List Partial) : CollData × List CollData :=
  let ws := ps.map fun p => if windowed exp p then p.s / ((2 ^ exp : Nat) : Int) else 0
  let esc := (numbered 0 ps).filter fun e => !windowed exp e.2
  (.windows ws (esc.take (escFirst d)), (chunksOf esc.length (escMore d) (esc.drop (escFirst d))).map .escapes)

/-- The partials that a PART's windows and escapes give (R258), as (offset, partial). -/
def decodePart (exp : Nat) : CollData → List (Nat × Partial)
  | .windows ws esc => numbered 0 (ws.map fun w => partInt (w * ((2 ^ exp : Nat) : Int))) ++ esc
  | .escapes esc => esc
  | .values vs => numbered 0 (vs.map fun v => partInt (Int.ofNat v))
  | .none => []

/-- Element values of bytes, and bytes of element values (little-endian, R11). -/
def valuesOf (d : Nat) (bs : List Byte) : List Nat := (chunksOf bs.length (dtSize d) bs).map leNat
def bytesOf (d : Nat) (vs : List Nat) : List Byte := vs.flatMap fun v => leBytes (dtSize d) v

end Sys2Proof.Machine
end

