-- ==== Sys2Proof/Config.lean ====
section
/-! DEFINITION. What an implementation fixes, and the free values. None of these constants has a body that a
proof can see: a statement holds whatever they are. -/

namespace Sys2Proof

/-- GLB_SERIAL, fused (R74). -/
opaque Config.serial : Nat

/-- The enterprise number of MG_STATUS, fused (R464). -/
opaque Config.enterprise : Nat

/-- A free value: the value that the manual leaves open, read at the counter of State (log 8). -/
opaque Config.freeValue : Nat → Nat

/-- The number of an event-log CODE within its block (R454 gives the field, no number): log 8. -/
opaque Config.logCode : Nat → Nat

/-- The 36 DATA bytes of an event-log record as one number, from its CODE and what the record tells (R454: DATA is per CODE, and the
manual lays out none): log 8. -/
opaque Config.logData : Nat → List Nat → Nat

/-- The placement of a match space on one of `n` enabled catchers, by its key (log 10). -/
opaque Config.catcherHash : Nat → Nat → Nat

/-- The placement of a collective segment on one of `n` enabled huddles (R261 names no rule): log 8. -/
opaque Config.huddleHash : Nat → Nat → Nat

/-- The hash of R31 that gives a wharf line its home berth, over the number of berths in use. -/
opaque Config.berthHash : Nat → Nat → Nat

/-- The directory set of a wharf line at its home berth, over 128 (R394 names no rule): log 8. -/
opaque Config.directorySet : Nat → Nat

/-- The local endpoint index of a ferry's own requests, by ferry (R377 names none): log 8. -/
opaque Config.ferryEndpoint : Nat → Nat

/-- Which of the eight agent ports of its home berth an agent's access to a line takes (R410 maps none): log 8. -/
opaque Config.agentPort : Nat → Nat

/-- How many MG packets more than one the management agent's queue has room for (R288 states no capacity): log 37. -/
opaque Config.agentQueue : Nat

end Sys2Proof
end

