-- ==== Sys2Proof/Machine/RegMap.lean ====
section
/-! DEFINITION. The register map: every register and register field of the manual's register tables, its
place in the internal address map (R28), its access type (R9) and its reset value (R8). The register FIELD is
the home of a value; a register word is composed of its fields. One constructor of `Reg` and `Fld` per table
and per non-reserved field; a reserved field has no home and reads 0 (R10). -/

namespace Sys2Proof.Machine

/-- The access types of R9, with the mixed types that four tables give. -/
inductive Acc where
  /-- Read and write. -/
  | rw
  /-- Read only. -/
  | ro
  /-- Write only; reads return 0. -/
  | wo
  /-- Writing 1 clears. -/
  | w1c
  /-- Writing 1 sets. -/
  | w1s
  /-- A read returns the value and clears it. -/
  | rc
  /-- Read and write, sticky (R8); every field of this type records a hardware event. -/
  | rws
  /-- Read and write until locked at job setup. -/
  | rwl
  /-- Read and write through the control path only. -/
  | priv
  /-- Written through the control path only; reads return 0. -/
  | privWo
  /-- Read only, but read and write for queue 0 (R523). -/
  | rwQ0
  /-- PW_EN: the control path writes it, except PW_EN[1]. -/
  | enMask
  /-- EF_CTL.ON: the control path writes it, except channel B while HB is a downstream port. -/
  | efCtl
  deriving DecidableEq, Repr

/-- Where the registers of one table stand: instance `a` of `n` and inner instance `b` of `m` (from `mlo`) stand
at `base + stride * a + istride * b`. -/
structure Place where
  base : Nat
  n : Nat
  stride : Nat
  mlo : Nat
  m : Nat
  istride : Nat
  deriving DecidableEq, Repr

/-- One field's row of its register table. -/
structure FieldRow where
  lo : Nat
  width : Nat
  acc : Acc
  reset : Nat
  deriving DecidableEq, Repr

/-- The registers of the manual, one constructor per register table. -/
inductive Reg where
  | PW_PACE_CTL
  | PW_PACE_STATUS
  | PW_PACE_MON
  | GLB_SERIAL
  | GLB_SEC_STATE
  | GLB_JOB
  | GLB_ROLLBACK
  | QU_BASE
  | QU_CFG
  | QU_PI
  | QU_CI
  | QU_HEAD
  | QU_HEADADDR
  | QU_NOTIFY
  | QU_STATE
  | TP_CTX_CFG
  | TP_RTO_CFG
  | TP_ACK_CFG
  | TP_CC_CFG
  | TP_CC_RATE
  | TP_CREDIT_CFG
  | TP_STATUS
  | TP_TGT_STATUS
  | MF_STATUS
  | MF_QUOTA
  | MF_USE
  | CT_CFG
  | CT_UXPOOL
  | CT_UXSTATUS
  | CT_STATUS
  | CT_QUOTA
  | CT_USE
  | HD_LANDPOOL
  | HD_STATUS
  | HD_CTX
  | XB_STATUS
  | XB_PORT_UP
  | XB_NOTICE
  | LL_PORT_STATE
  | LL_PORT_PEER
  | LL_PORT_LINK
  | LL_TIMERS
  | LN_LANE_STATUS
  | LN_LANE_TAPS
  | LN_LANE_QUAL
  | LN_LANE_SER
  | LN_LANE_PRBS
  | MT_NOW
  | MT_CFG
  | MT_STATUS
  | MT_LINE
  | MT_TRIG_CFG
  | MT_TRIG_TIME
  | MT_TRIG_CAP
  | MT_TRIG_STAT
  | FX_STATUS
  | FX_CFG
  | FX_JOBSEG
  | FX_SLOTS
  | FX_THREAD
  | FX_FAULT
  | LK_LOCK
  | LK_GROUP
  | LK_GROUP_FERRIES
  | LK_CFG
  | LK_WORD
  | TX_STATUS
  | TX_WALK_BASE
  | TX_WALK_LIMIT
  | TX_ASID
  | TX_ROOT
  | TX_PKG
  | TX_SPAN_BASE
  | TX_SPAN_LIMIT
  | TX_SPAN_TGT
  | HI_PORT
  | HI_WIN_BASE
  | HI_WIN_TGT
  | HI_VF
  | HI_FN_STATE
  | HI_SLOT_CTL
  | HI_SLOT_STATUS
  | HI_HB_MSI
  | HI_FN_STAT
  | HI_CTL_ADDR
  | HI_CTL_DATA
  | MG_STATUS
  | MG_IMAGE
  | MG_LOG_STATUS
  | MG_LOG_LOST
  | MG_LOG_SEL
  | MG_LOG_DATA
  | MG_SENS
  | MG_SENS_THR
  | FT_STATUS
  | FT_VEC
  | FT_FATAL_TIME
  | FT_SRC
  | EC_SEL
  | EC_CNT
  | EC_SNAP
  | EC_HIST_CFG
  | EC_HIST
  | EC_SNAP_STATUS
  | EC_SNAP_TIME
  | PW_STATUS
  | PW_CTL
  | PW_RESET
  | PW_UNIT_RST
  | PW_EN
  | EF_CFG
  | EF_MODEL
  | EF_CTL
  | EF_STATUS
  deriving DecidableEq, Repr

/-- The fields of the registers, `<register>_<field>`, one constructor per table row that is not reserved. -/
inductive Fld where
  | PW_PACE_CTL_FLOOR_MV
  | PW_PACE_CTL_CEIL_MV
  | PW_PACE_CTL_FIXED_MV
  | PW_PACE_CTL_TARGET
  | PW_PACE_CTL_MODE
  | PW_PACE_STATUS_PACE_AT_CEIL
  | PW_PACE_STATUS_SLOWEST
  | PW_PACE_STATUS_SLOW_MON
  | PW_PACE_STATUS_VOLT_MV
  | PW_PACE_STATUS_MARGIN_MV
  | PW_PACE_STATUS_AVS_FAIL
  | PW_PACE_STATUS_SHORT
  | PW_PACE_MON_REGION
  | PW_PACE_MON_PACE
  | GLB_SERIAL_SERIAL
  | GLB_SEC_STATE_AUTH_SLOT
  | GLB_SEC_STATE_DEBUG
  | GLB_SEC_STATE_FM_SESSIONS
  | GLB_SEC_STATE_JOBS_ACTIVE
  | GLB_SEC_STATE_GLITCH_SEEN
  | GLB_SEC_STATE_KEYS_CLEAR
  | GLB_JOB_JOB_ID
  | GLB_JOB_STATE
  | GLB_JOB_MODE
  | GLB_JOB_GEN
  | GLB_JOB_RENEWING
  | GLB_JOB_SEALED
  | GLB_JOB_LEADER
  | GLB_ROLLBACK_FLOOR
  | QU_BASE_BASE
  | QU_CFG_ASID
  | QU_CFG_JOB_SLOT
  | QU_CFG_CTLQ
  | QU_CFG_FUNC
  | QU_CFG_FERRY
  | QU_CFG_THREAD
  | QU_CFG_SIZE_LOG2
  | QU_CFG_LOC
  | QU_PI_STALE_DB
  | QU_PI_PI
  | QU_CI_LAST_STARTED
  | QU_CI_CI
  | QU_HEAD_HEAD
  | QU_HEADADDR_ADDR
  | QU_HEADADDR_LOC
  | QU_HEADADDR_EN
  | QU_NOTIFY_ARM_INDEX
  | QU_NOTIFY_ARMED
  | QU_NOTIFY_MSIX_EN
  | QU_NOTIFY_VECTOR
  | QU_NOTIFY_COAL_CNT
  | QU_NOTIFY_COAL_TIME
  | QU_STATE_ERR_INDEX
  | QU_STATE_CAUSE
  | QU_STATE_STATE
  | QU_STATE_DRAINED
  | QU_STATE_ERR_MULTI
  | QU_STATE_HALT_REASON
  | QU_STATE_CMD
  | TP_CTX_CFG_CLOSE_IDLE
  | TP_CTX_CFG_LOW_WATER
  | TP_RTO_CFG_FAIL_TIME
  | TP_RTO_CFG_RTO_MAX
  | TP_RTO_CFG_RTO_INIT
  | TP_RTO_CFG_RTO_MIN
  | TP_ACK_CFG_DUPTHRESH
  | TP_ACK_CFG_ACK_COUNT
  | TP_ACK_CFG_ACK_DELAY
  | TP_CC_CFG_BETA
  | TP_CC_CFG_HAI_AFTER
  | TP_CC_CFG_AI_STEP
  | TP_CC_CFG_PER_HOP
  | TP_CC_CFG_Q_TARGET
  | TP_CC_RATE_RATE_MAX
  | TP_CC_RATE_RATE_MIN
  | TP_CC_RATE_RATE_INIT
  | TP_CC_RATE_BURST
  | TP_CREDIT_CFG_POOL
  | TP_CREDIT_CFG_GRANT_BURST
  | TP_STATUS_CTX_USED
  | TP_STATUS_CTX_CACHED
  | TP_STATUS_MOORED
  | TP_TGT_STATUS_REGIONS
  | TP_TGT_STATUS_READS
  | TP_TGT_STATUS_LEAVES_FREE
  | MF_STATUS_USED
  | MF_STATUS_HELD
  | MF_STATUS_LAND_FREE
  | MF_QUOTA_MANIFEST
  | MF_QUOTA_READS
  | MF_USE_MANIFEST
  | MF_USE_READS
  | CT_CFG_EAGER_KIB
  | CT_UXPOOL_BASE
  | CT_UXPOOL_UNITS
  | CT_UXSTATUS_FREE
  | CT_UXSTATUS_HELD
  | CT_STATUS_ONCHIP
  | CT_STATUS_ENTRIES
  | CT_QUOTA_ENTRIES
  | CT_QUOTA_UXUNITS
  | CT_USE_ENTRIES
  | CT_USE_UXUNITS
  | HD_LANDPOOL_BASE
  | HD_LANDPOOL_SLOTS
  | HD_STATUS_SLOTS_FREE
  | HD_STATUS_CTX_BUILT
  | HD_STATUS_ENABLED
  | HD_CTX_INST
  | HD_CTX_JOB_SLOT
  | HD_CTX_STATE
  | HD_CTX_ROOT
  | HD_CTX_HELD
  | HD_CTX_REBUILT
  | HD_CTX_REJOIN_DUE
  | HD_CTX_BUILD
  | XB_STATUS_COMMITS
  | XB_STATUS_BUSY
  | XB_STATUS_ACTIVE
  | XB_PORT_UP_UP
  | XB_NOTICE_AVOIDED
  | LL_PORT_STATE_TX_SEQ
  | LL_PORT_STATE_ACKED
  | LL_PORT_STATE_RX_EXP
  | LL_PORT_STATE_RFAIL
  | LL_PORT_STATE_DOWN_CAUSE
  | LL_PORT_STATE_RATE
  | LL_PORT_STATE_WIDTH
  | LL_PORT_STATE_STATE
  | LL_PORT_PEER_SERIAL
  | LL_PORT_LINK_EPOCH
  | LL_PORT_LINK_PEER_PORT
  | LL_PORT_LINK_RTT
  | LL_PORT_LINK_HOLD_LEFT
  | LL_TIMERS_RETRAIN_LIMIT
  | LL_TIMERS_REPLAY_TO
  | LN_LANE_STATUS_ATTEMPTS
  | LN_LANE_STATUS_TRAIN_TIME
  | LN_LANE_STATUS_LOOP
  | LN_LANE_STATUS_FAILED
  | LN_LANE_STATUS_TRAINED
  | LN_LANE_STATUS_LOCK
  | LN_LANE_STATUS_CDR_LOCK
  | LN_LANE_STATUS_RATE
  | LN_LANE_STATUS_PSTATE
  | LN_LANE_STATUS_PORT_LANE
  | LN_LANE_TAPS_POST2
  | LN_LANE_TAPS_POST1
  | LN_LANE_TAPS_MAIN
  | LN_LANE_TAPS_PRE1
  | LN_LANE_TAPS_PRE2
  | LN_LANE_TAPS_PRE3
  | LN_LANE_QUAL_SNR
  | LN_LANE_QUAL_EYE_H
  | LN_LANE_QUAL_EYE_W
  | LN_LANE_QUAL_FEC_MAX
  | LN_LANE_SER_SYM_ERR
  | LN_LANE_PRBS_CHK_LOCK
  | LN_LANE_PRBS_ERRORS
  | MT_NOW_NOW
  | MT_CFG_EXT_OFFSET
  | MT_CFG_EXT_EN
  | MT_CFG_PRIO
  | MT_STATUS_OFFSET
  | MT_STATUS_DEPTH
  | MT_STATUS_PARENT
  | MT_STATUS_STEPPED
  | MT_STATUS_STATE
  | MT_LINE_FIRED
  | MT_LINE_LATE
  | MT_LINE_OVERFLOW
  | MT_LINE_PENDING
  | MT_TRIG_CFG_PERIOD
  | MT_TRIG_CFG_WIDTH
  | MT_TRIG_CFG_LINE
  | MT_TRIG_CFG_MODE
  | MT_TRIG_TIME_TIME
  | MT_TRIG_CAP_STAMP
  | MT_TRIG_STAT_DROPPED
  | MT_TRIG_STAT_QUEUED
  | FX_STATUS_JOB_SLOT
  | FX_STATUS_JOB_LOADED
  | FX_STATUS_SYS_LEN
  | FX_STATUS_JOB_LEN
  | FX_STATUS_UNITS_OUT
  | FX_STATUS_DISPATCH_Q
  | FX_STATUS_STATE
  | FX_CFG_JOB_THREADS
  | FX_JOBSEG_INBOX
  | FX_JOBSEG_SEG_LEN
  | FX_JOBSEG_SEG_BASE
  | FX_JOBSEG_ASID
  | FX_SLOTS_COUNT
  | FX_THREAD_PC
  | FX_THREAD_ENTRY
  | FX_THREAD_PRIO_EFF
  | FX_THREAD_EVQ
  | FX_THREAD_ASYNC
  | FX_THREAD_TIMERS
  | FX_THREAD_STATE
  | FX_FAULT_PC
  | FX_FAULT_ENTRY
  | FX_FAULT_JOB_SLOT
  | FX_FAULT_COUNT
  | FX_FAULT_CAUSE
  | LK_LOCK_OWNER
  | LK_LOCK_HELD
  | LK_LOCK_ORPHANED
  | LK_LOCK_WAITERS
  | LK_LOCK_QUEUED
  | LK_LOCK_IDENT
  | LK_LOCK_CMD
  | LK_GROUP_JOB_SLOT
  | LK_GROUP_BOUND
  | LK_GROUP_PRIO_MODE
  | LK_GROUP_HOST_PRIO
  | LK_GROUP_HFUNC1
  | LK_GROUP_HEN1
  | LK_GROUP_HFUNC0
  | LK_GROUP_HEN0
  | LK_GROUP_FERRIES_FERRIES
  | LK_CFG_MAINT
  | LK_WORD_RESULT
  | LK_WORD_ADDR
  | LK_WORD_WORD
  | LK_WORD_CMD
  | TX_STATUS_ACTIVE
  | TX_STATUS_LOCKED
  | TX_STATUS_INV_BUSY
  | TX_WALK_BASE_BASE
  | TX_WALK_BASE_EN
  | TX_WALK_BASE_LOC
  | TX_WALK_BASE_FUNC
  | TX_WALK_LIMIT_LIMIT
  | TX_ASID_ASID
  | TX_ASID_VALID
  | TX_ASID_LOCKED
  | TX_ASID_WFUNC
  | TX_ROOT_ROOT
  | TX_ROOT_LOC
  | TX_PKG_FIRST
  | TX_PKG_LAST
  | TX_SPAN_BASE_BASE
  | TX_SPAN_BASE_W
  | TX_SPAN_BASE_R
  | TX_SPAN_BASE_LOC
  | TX_SPAN_BASE_VALID
  | TX_SPAN_LIMIT_LIMIT
  | TX_SPAN_TGT_TARGET
  | HI_PORT_NUMVFS
  | HI_PORT_MODE
  | HI_PORT_FLIT
  | HI_PORT_IDE_LINK
  | HI_PORT_WIDTH
  | HI_PORT_SPEED
  | HI_PORT_DL_UP
  | HI_WIN_BASE_OFFSET
  | HI_WIN_BASE_FUNC
  | HI_WIN_BASE_SIZE
  | HI_WIN_BASE_W
  | HI_WIN_BASE_R
  | HI_WIN_TGT_TARGET
  | HI_WIN_TGT_EN
  | HI_VF_QBASE
  | HI_VF_JOB_SLOT
  | HI_VF_BOUND
  | HI_FN_STATE_LEFT
  | HI_FN_STATE_STATE
  | HI_SLOT_CTL_SLOT_VEC
  | HI_SLOT_CTL_CONT_EN
  | HI_SLOT_CTL_SURPRISE_OFF
  | HI_SLOT_CTL_EVT_EN
  | HI_SLOT_CTL_ATTN_IND
  | HI_SLOT_CTL_PWR_IND
  | HI_SLOT_CTL_RELEASE
  | HI_SLOT_CTL_PWR_ON
  | HI_SLOT_STATUS_PRES_SEQ
  | HI_SLOT_STATUS_CAUSE
  | HI_SLOT_STATUS_FROZEN
  | HI_SLOT_STATUS_DL_ACTIVE
  | HI_SLOT_STATUS_SETTLE
  | HI_SLOT_STATUS_PG
  | HI_SLOT_STATUS_PRESENCE
  | HI_SLOT_STATUS_CMD_REJECTED
  | HI_SLOT_STATUS_DLLSC
  | HI_SLOT_STATUS_PFD
  | HI_SLOT_STATUS_ABP
  | HI_SLOT_STATUS_PDC
  | HI_HB_MSI_ADDR
  | HI_HB_MSI_HB_VEC_BASE
  | HI_FN_STAT_DB_FOREIGN
  | HI_FN_STAT_REG_FOREIGN
  | HI_FN_STAT_WIN_MISS
  | HI_CTL_ADDR_ADDR
  | HI_CTL_ADDR_VIOLATION
  | HI_CTL_DATA_DATA
  | MG_STATUS_ENTERPRISE
  | MG_STATUS_UPD_UNIT
  | MG_STATUS_UPD_TYPE
  | MG_STATUS_RESETS
  | MG_STATUS_STATE
  | MG_IMAGE_VER_A
  | MG_IMAGE_VER_B
  | MG_IMAGE_RUN_MIN
  | MG_IMAGE_RUN_MAX
  | MG_IMAGE_CONFIRM
  | MG_IMAGE_TRIAL
  | MG_IMAGE_VALID_A
  | MG_IMAGE_VALID_B
  | MG_IMAGE_PENDING
  | MG_IMAGE_ACTIVE
  | MG_LOG_STATUS_NEWEST
  | MG_LOG_STATUS_PERSISTED
  | MG_LOG_LOST_LOST
  | MG_LOG_SEL_FOUND
  | MG_LOG_SEL_FLASH
  | MG_LOG_SEL_SEQ
  | MG_LOG_DATA_DATA
  | MG_SENS_AGE
  | MG_SENS_FAIL
  | MG_SENS_CRIT
  | MG_SENS_WARN
  | MG_SENS_VALUE
  | MG_SENS_THR_CRIT
  | MG_SENS_THR_WARN
  | MG_SENS_THR_LOW
  | FT_STATUS_FATAL_SRC
  | FT_STATUS_FATAL_SEEN
  | FT_STATUS_FATAL
  | FT_STATUS_PENDING
  | FT_STATUS_ALIVE_ON
  | FT_VEC_EN
  | FT_VEC_VECTOR
  | FT_FATAL_TIME_TIME
  | FT_SRC_COUNT
  | FT_SRC_MIN
  | FT_SRC_REACT
  | FT_SRC_WIRE
  | FT_SRC_FORCED
  | FT_SRC_ISOLATED
  | FT_SRC_STATUS
  | FT_SRC_FORCE
  | EC_SEL_USER_FN
  | EC_SEL_USER_EN
  | EC_SEL_OVF
  | EC_SEL_MODE
  | EC_SEL_SUB
  | EC_SEL_EVENT
  | EC_CNT_COUNT
  | EC_SNAP_DISABLED
  | EC_SNAP_OVF
  | EC_SNAP_COUNT
  | EC_HIST_CFG_CLASS
  | EC_HIST_OVF
  | EC_HIST_COUNT
  | EC_SNAP_STATUS_SEQ
  | EC_SNAP_STATUS_PENDING
  | EC_SNAP_TIME_T
  | PW_STATUS_LAST_RESET
  | PW_STATUS_WARMS
  | PW_STATUS_PARKED
  | PW_STATUS_SAG_CORE
  | PW_STATUS_SAG_12V
  | PW_CTL_PARK
  | PW_CTL_VEC_EN
  | PW_CTL_VECTOR
  | PW_RESET_MGMT
  | PW_RESET_WARM
  | PW_UNIT_RST_BUSY
  | PW_UNIT_RST_KIND
  | PW_UNIT_RST_INDEX
  | PW_EN_MASK
  | EF_CFG_RSENSE
  | EF_CFG_ILIM
  | EF_CFG_GATE_UA
  | EF_CFG_TREG_MS
  | EF_CFG_FET_TMAX
  | EF_CFG_TSRC
  | EF_MODEL_RDSON
  | EF_MODEL_RTH
  | EF_MODEL_TAU
  | EF_MODEL_TAMB
  | EF_CTL_ON
  | EF_STATUS_VOUT
  | EF_STATUS_IOUT
  | EF_STATUS_FET_T
  | EF_STATUS_CAUSE
  | EF_STATUS_STATE
  | EF_STATUS_FET_FAIL
  | EF_STATUS_REG
  | EF_STATUS_PG
  deriving DecidableEq, Repr

/-- Registers, part 1. -/
def regs1 : List Reg :=
  [.PW_PACE_CTL, .PW_PACE_STATUS, .PW_PACE_MON, .GLB_SERIAL, .GLB_SEC_STATE, .GLB_JOB, .GLB_ROLLBACK, .QU_BASE, .QU_CFG, .QU_PI, .QU_CI, .QU_HEAD, .QU_HEADADDR, .QU_NOTIFY, .QU_STATE, .TP_CTX_CFG, .TP_RTO_CFG, .TP_ACK_CFG, .TP_CC_CFG, .TP_CC_RATE]

/-- Registers, part 2. -/
def regs2 : List Reg :=
  [.TP_CREDIT_CFG, .TP_STATUS, .TP_TGT_STATUS, .MF_STATUS, .MF_QUOTA, .MF_USE, .CT_CFG, .CT_UXPOOL, .CT_UXSTATUS, .CT_STATUS, .CT_QUOTA, .CT_USE, .HD_LANDPOOL, .HD_STATUS, .HD_CTX, .XB_STATUS, .XB_PORT_UP, .XB_NOTICE, .LL_PORT_STATE, .LL_PORT_PEER]

/-- Registers, part 3. -/
def regs3 : List Reg :=
  [.LL_PORT_LINK, .LL_TIMERS, .LN_LANE_STATUS, .LN_LANE_TAPS, .LN_LANE_QUAL, .LN_LANE_SER, .LN_LANE_PRBS, .MT_NOW, .MT_CFG, .MT_STATUS, .MT_LINE, .MT_TRIG_CFG, .MT_TRIG_TIME, .MT_TRIG_CAP, .MT_TRIG_STAT, .FX_STATUS, .FX_CFG, .FX_JOBSEG, .FX_SLOTS, .FX_THREAD]

/-- Registers, part 4. -/
def regs4 : List Reg :=
  [.FX_FAULT, .LK_LOCK, .LK_GROUP, .LK_GROUP_FERRIES, .LK_CFG, .LK_WORD, .TX_STATUS, .TX_WALK_BASE, .TX_WALK_LIMIT, .TX_ASID, .TX_ROOT, .TX_PKG, .TX_SPAN_BASE, .TX_SPAN_LIMIT, .TX_SPAN_TGT, .HI_PORT, .HI_WIN_BASE, .HI_WIN_TGT, .HI_VF, .HI_FN_STATE]

/-- Registers, part 5. -/
def regs5 : List Reg :=
  [.HI_SLOT_CTL, .HI_SLOT_STATUS, .HI_HB_MSI, .HI_FN_STAT, .HI_CTL_ADDR, .HI_CTL_DATA, .MG_STATUS, .MG_IMAGE, .MG_LOG_STATUS, .MG_LOG_LOST, .MG_LOG_SEL, .MG_LOG_DATA, .MG_SENS, .MG_SENS_THR, .FT_STATUS, .FT_VEC, .FT_FATAL_TIME, .FT_SRC, .EC_SEL, .EC_CNT]

/-- Registers, part 6. -/
def regs6 : List Reg :=
  [.EC_SNAP, .EC_HIST_CFG, .EC_HIST, .EC_SNAP_STATUS, .EC_SNAP_TIME, .PW_STATUS, .PW_CTL, .PW_RESET, .PW_UNIT_RST, .PW_EN, .EF_CFG, .EF_MODEL, .EF_CTL, .EF_STATUS]

/-- All registers. -/
def allRegs : List Reg :=
  regs1 ++ regs2 ++ regs3 ++ regs4 ++ regs5 ++ regs6

/-- The place of a register by internal address; none for the three registers of the BAR0 function page,
which the host alone reaches (R430). Second-level indices: [p][w] and the like; the width of the inner index is
`m + mlo`. -/
def Reg.place : Reg → Option Place
  | .PW_PACE_CTL => some ⟨0xF00000400, 1, 0x0, 0, 1, 0x0⟩
  | .PW_PACE_STATUS => some ⟨0xF00000408, 1, 0x0, 0, 1, 0x0⟩
  | .PW_PACE_MON => some ⟨0xF00000500, 64, 0x8, 0, 1, 0x0⟩
  | .GLB_SERIAL => some ⟨0x10, 1, 0x0, 0, 1, 0x0⟩
  | .GLB_SEC_STATE => some ⟨0x20, 1, 0x0, 0, 1, 0x0⟩
  | .GLB_JOB => some ⟨0x1000, 256, 0x8, 0, 1, 0x0⟩
  | .GLB_ROLLBACK => some ⟨0x200, 8, 0x8, 0, 1, 0x0⟩
  | .QU_BASE => some ⟨0x100000000, 65536, 0x40, 0, 1, 0x0⟩
  | .QU_CFG => some ⟨0x100000008, 65536, 0x40, 0, 1, 0x0⟩
  | .QU_PI => some ⟨0x100000010, 65536, 0x40, 0, 1, 0x0⟩
  | .QU_CI => some ⟨0x100000018, 65536, 0x40, 0, 1, 0x0⟩
  | .QU_HEAD => some ⟨0x100000020, 65536, 0x40, 0, 1, 0x0⟩
  | .QU_HEADADDR => some ⟨0x100000028, 65536, 0x40, 0, 1, 0x0⟩
  | .QU_NOTIFY => some ⟨0x100000030, 65536, 0x40, 0, 1, 0x0⟩
  | .QU_STATE => some ⟨0x100000038, 65536, 0x40, 0, 1, 0x0⟩
  | .TP_CTX_CFG => some ⟨0x700000008, 1, 0x0, 0, 1, 0x0⟩
  | .TP_RTO_CFG => some ⟨0x700000010, 1, 0x0, 0, 1, 0x0⟩
  | .TP_ACK_CFG => some ⟨0x700000018, 1, 0x0, 0, 1, 0x0⟩
  | .TP_CC_CFG => some ⟨0x700000020, 1, 0x0, 0, 1, 0x0⟩
  | .TP_CC_RATE => some ⟨0x700000028, 1, 0x0, 0, 1, 0x0⟩
  | .TP_CREDIT_CFG => some ⟨0x700000030, 1, 0x0, 0, 1, 0x0⟩
  | .TP_STATUS => some ⟨0x700000040, 1, 0x0, 0, 1, 0x0⟩
  | .TP_TGT_STATUS => some ⟨0x700000048, 1, 0x0, 0, 1, 0x0⟩
  | .MF_STATUS => some ⟨0x700001000, 1, 0x0, 0, 1, 0x0⟩
  | .MF_QUOTA => some ⟨0x700002000, 256, 0x8, 0, 1, 0x0⟩
  | .MF_USE => some ⟨0x700003000, 256, 0x8, 0, 1, 0x0⟩
  | .CT_CFG => some ⟨0x800000000, 1, 0x0, 0, 1, 0x0⟩
  | .CT_UXPOOL => some ⟨0x800000008, 1, 0x0, 0, 1, 0x0⟩
  | .CT_UXSTATUS => some ⟨0x800000010, 1, 0x0, 0, 1, 0x0⟩
  | .CT_STATUS => some ⟨0x800000100, 4, 0x8, 0, 1, 0x0⟩
  | .CT_QUOTA => some ⟨0x800001000, 256, 0x8, 0, 1, 0x0⟩
  | .CT_USE => some ⟨0x800002000, 256, 0x8, 0, 1, 0x0⟩
  | .HD_LANDPOOL => some ⟨0x900000008, 1, 0x0, 0, 1, 0x0⟩
  | .HD_STATUS => some ⟨0x900000010, 1, 0x0, 0, 1, 0x0⟩
  | .HD_CTX => some ⟨0x900001000, 4096, 0x8, 0, 1, 0x0⟩
  | .XB_STATUS => some ⟨0x400000000, 1, 0x0, 0, 1, 0x0⟩
  | .XB_PORT_UP => some ⟨0x400000010, 2, 0x8, 0, 1, 0x0⟩
  | .XB_NOTICE => some ⟨0x400000040, 4, 0x8, 0, 1, 0x0⟩
  | .LL_PORT_STATE => some ⟨0x500001000, 72, 0x40, 0, 1, 0x0⟩
  | .LL_PORT_PEER => some ⟨0x500001008, 72, 0x40, 0, 1, 0x0⟩
  | .LL_PORT_LINK => some ⟨0x500001010, 72, 0x40, 0, 1, 0x0⟩
  | .LL_TIMERS => some ⟨0x500000000, 1, 0x0, 0, 1, 0x0⟩
  | .LN_LANE_STATUS => some ⟨0x500004000, 72, 0x40, 0, 1, 0x0⟩
  | .LN_LANE_TAPS => some ⟨0x500004008, 72, 0x40, 0, 1, 0x0⟩
  | .LN_LANE_QUAL => some ⟨0x500004010, 72, 0x40, 0, 1, 0x0⟩
  | .LN_LANE_SER => some ⟨0x500004018, 72, 0x40, 0, 1, 0x0⟩
  | .LN_LANE_PRBS => some ⟨0x500004020, 72, 0x40, 0, 1, 0x0⟩
  | .MT_NOW => some ⟨0xA00000000, 1, 0x0, 0, 1, 0x0⟩
  | .MT_CFG => some ⟨0xA00000008, 1, 0x0, 0, 1, 0x0⟩
  | .MT_STATUS => some ⟨0xA00000010, 1, 0x0, 0, 1, 0x0⟩
  | .MT_LINE => some ⟨0xA00000100, 16, 0x8, 0, 1, 0x0⟩
  | .MT_TRIG_CFG => some ⟨0xA00000200, 4, 0x20, 0, 1, 0x0⟩
  | .MT_TRIG_TIME => some ⟨0xA00000208, 4, 0x20, 0, 1, 0x0⟩
  | .MT_TRIG_CAP => some ⟨0xA00000210, 4, 0x20, 0, 1, 0x0⟩
  | .MT_TRIG_STAT => some ⟨0xA00000218, 4, 0x20, 0, 1, 0x0⟩
  | .FX_STATUS => some ⟨0x200000000, 64, 0x10000, 0, 1, 0x0⟩
  | .FX_CFG => some ⟨0x200000008, 64, 0x10000, 0, 1, 0x0⟩
  | .FX_JOBSEG => some ⟨0x200000010, 64, 0x10000, 0, 1, 0x0⟩
  | .FX_SLOTS => some ⟨0x200000100, 64, 0x10000, 0, 4, 0x8⟩
  | .FX_THREAD => some ⟨0x200000200, 64, 0x10000, 0, 16, 0x8⟩
  | .FX_FAULT => some ⟨0x200000300, 64, 0x10000, 0, 16, 0x8⟩
  | .LK_LOCK => some ⟨0x200008000, 64, 0x10000, 0, 64, 0x8⟩
  | .LK_GROUP => some ⟨0x20000C000, 16, 0x10000, 0, 1, 0x0⟩
  | .LK_GROUP_FERRIES => some ⟨0x20000C008, 16, 0x10000, 0, 1, 0x0⟩
  | .LK_CFG => some ⟨0x20000E000, 1, 0x0, 0, 1, 0x0⟩
  | .LK_WORD => some ⟨0x20000E008, 1, 0x0, 0, 1, 0x0⟩
  | .TX_STATUS => some ⟨0x600000000, 1, 0x0, 0, 1, 0x0⟩
  | .TX_WALK_BASE => some ⟨0x600000100, 16, 0x10, 0, 1, 0x0⟩
  | .TX_WALK_LIMIT => some ⟨0x600000108, 16, 0x10, 0, 1, 0x0⟩
  | .TX_ASID => some ⟨0x600100000, 4096, 0x200, 0, 1, 0x0⟩
  | .TX_ROOT => some ⟨0x600100008, 4096, 0x200, 0, 1, 0x0⟩
  | .TX_PKG => some ⟨0x600100010, 4096, 0x200, 0, 1, 0x0⟩
  | .TX_SPAN_BASE => some ⟨0x600100100, 4096, 0x200, 0, 8, 0x20⟩
  | .TX_SPAN_LIMIT => some ⟨0x600100108, 4096, 0x200, 0, 8, 0x20⟩
  | .TX_SPAN_TGT => some ⟨0x600100110, 4096, 0x200, 0, 8, 0x20⟩
  | .HI_PORT => some ⟨0xC00000000, 2, 0x8, 0, 1, 0x0⟩
  | .HI_WIN_BASE => some ⟨0xC00001000, 2, 0x100, 0, 16, 0x10⟩
  | .HI_WIN_TGT => some ⟨0xC00001008, 2, 0x100, 0, 16, 0x10⟩
  | .HI_VF => some ⟨0xC00002000, 2, 0x800, 1, 252, 0x8⟩
  | .HI_FN_STATE => some ⟨0xC00004000, 2, 0x800, 0, 253, 0x8⟩
  | .HI_SLOT_CTL => some ⟨0xC00006000, 1, 0x0, 0, 1, 0x0⟩
  | .HI_SLOT_STATUS => some ⟨0xC00006008, 1, 0x0, 0, 1, 0x0⟩
  | .HI_HB_MSI => some ⟨0xC00006010, 1, 0x0, 0, 1, 0x0⟩
  | .HI_FN_STAT => none
  | .HI_CTL_ADDR => none
  | .HI_CTL_DATA => none
  | .MG_STATUS => some ⟨0x1000000, 1, 0x0, 0, 1, 0x0⟩
  | .MG_IMAGE => some ⟨0x1000100, 6, 0x8, 0, 1, 0x0⟩
  | .MG_LOG_STATUS => some ⟨0x1000200, 1, 0x0, 0, 1, 0x0⟩
  | .MG_LOG_LOST => some ⟨0x1000208, 1, 0x0, 0, 1, 0x0⟩
  | .MG_LOG_SEL => some ⟨0x1000210, 1, 0x0, 0, 1, 0x0⟩
  | .MG_LOG_DATA => some ⟨0x1000220, 8, 0x8, 0, 1, 0x0⟩
  | .MG_SENS => some ⟨0x1001000, 147, 0x8, 0, 1, 0x0⟩
  | .MG_SENS_THR => some ⟨0x1002000, 147, 0x8, 0, 1, 0x0⟩
  | .FT_STATUS => some ⟨0xD00000000, 1, 0x0, 0, 1, 0x0⟩
  | .FT_VEC => some ⟨0xD00000008, 1, 0x0, 0, 1, 0x0⟩
  | .FT_FATAL_TIME => some ⟨0xD00000010, 1, 0x0, 0, 1, 0x0⟩
  | .FT_SRC => some ⟨0xD00001000, 512, 0x8, 0, 1, 0x0⟩
  | .EC_SEL => some ⟨0xE00000000, 295, 0x100, 0, 4, 0x8⟩
  | .EC_CNT => some ⟨0xE00000020, 295, 0x100, 0, 4, 0x8⟩
  | .EC_SNAP => some ⟨0xE00000040, 295, 0x100, 0, 4, 0x8⟩
  | .EC_HIST_CFG => some ⟨0xE00100000, 72, 0x80, 0, 1, 0x0⟩
  | .EC_HIST => some ⟨0xE00100008, 72, 0x80, 0, 8, 0x8⟩
  | .EC_SNAP_STATUS => some ⟨0xE00200000, 1, 0x0, 0, 1, 0x0⟩
  | .EC_SNAP_TIME => some ⟨0xE00200008, 1, 0x0, 0, 1, 0x0⟩
  | .PW_STATUS => some ⟨0xF00000000, 1, 0x0, 0, 1, 0x0⟩
  | .PW_CTL => some ⟨0xF00000008, 1, 0x0, 0, 1, 0x0⟩
  | .PW_RESET => some ⟨0xF00000010, 1, 0x0, 0, 1, 0x0⟩
  | .PW_UNIT_RST => some ⟨0xF00000018, 1, 0x0, 0, 1, 0x0⟩
  | .PW_EN => some ⟨0xF00000100, 7, 0x8, 0, 1, 0x0⟩
  | .EF_CFG => some ⟨0xF00001000, 2, 0x40, 0, 1, 0x0⟩
  | .EF_MODEL => some ⟨0xF00001008, 2, 0x40, 0, 1, 0x0⟩
  | .EF_CTL => some ⟨0xF00001010, 2, 0x40, 0, 1, 0x0⟩
  | .EF_STATUS => some ⟨0xF00001018, 2, 0x40, 0, 1, 0x0⟩

/-- The fields of a register, from its table. -/
def Reg.fields : Reg → List Fld
  | .PW_PACE_CTL => [.PW_PACE_CTL_FLOOR_MV, .PW_PACE_CTL_CEIL_MV, .PW_PACE_CTL_FIXED_MV, .PW_PACE_CTL_TARGET, .PW_PACE_CTL_MODE]
  | .PW_PACE_STATUS => [.PW_PACE_STATUS_PACE_AT_CEIL, .PW_PACE_STATUS_SLOWEST, .PW_PACE_STATUS_SLOW_MON, .PW_PACE_STATUS_VOLT_MV, .PW_PACE_STATUS_MARGIN_MV, .PW_PACE_STATUS_AVS_FAIL, .PW_PACE_STATUS_SHORT]
  | .PW_PACE_MON => [.PW_PACE_MON_REGION, .PW_PACE_MON_PACE]
  | .GLB_SERIAL => [.GLB_SERIAL_SERIAL]
  | .GLB_SEC_STATE => [.GLB_SEC_STATE_AUTH_SLOT, .GLB_SEC_STATE_DEBUG, .GLB_SEC_STATE_FM_SESSIONS, .GLB_SEC_STATE_JOBS_ACTIVE, .GLB_SEC_STATE_GLITCH_SEEN, .GLB_SEC_STATE_KEYS_CLEAR]
  | .GLB_JOB => [.GLB_JOB_JOB_ID, .GLB_JOB_STATE, .GLB_JOB_MODE, .GLB_JOB_GEN, .GLB_JOB_RENEWING, .GLB_JOB_SEALED, .GLB_JOB_LEADER]
  | .GLB_ROLLBACK => [.GLB_ROLLBACK_FLOOR]
  | .QU_BASE => [.QU_BASE_BASE]
  | .QU_CFG => [.QU_CFG_ASID, .QU_CFG_JOB_SLOT, .QU_CFG_CTLQ, .QU_CFG_FUNC, .QU_CFG_FERRY, .QU_CFG_THREAD, .QU_CFG_SIZE_LOG2, .QU_CFG_LOC]
  | .QU_PI => [.QU_PI_STALE_DB, .QU_PI_PI]
  | .QU_CI => [.QU_CI_LAST_STARTED, .QU_CI_CI]
  | .QU_HEAD => [.QU_HEAD_HEAD]
  | .QU_HEADADDR => [.QU_HEADADDR_ADDR, .QU_HEADADDR_LOC, .QU_HEADADDR_EN]
  | .QU_NOTIFY => [.QU_NOTIFY_ARM_INDEX, .QU_NOTIFY_ARMED, .QU_NOTIFY_MSIX_EN, .QU_NOTIFY_VECTOR, .QU_NOTIFY_COAL_CNT, .QU_NOTIFY_COAL_TIME]
  | .QU_STATE => [.QU_STATE_ERR_INDEX, .QU_STATE_CAUSE, .QU_STATE_STATE, .QU_STATE_DRAINED, .QU_STATE_ERR_MULTI, .QU_STATE_HALT_REASON, .QU_STATE_CMD]
  | .TP_CTX_CFG => [.TP_CTX_CFG_CLOSE_IDLE, .TP_CTX_CFG_LOW_WATER]
  | .TP_RTO_CFG => [.TP_RTO_CFG_FAIL_TIME, .TP_RTO_CFG_RTO_MAX, .TP_RTO_CFG_RTO_INIT, .TP_RTO_CFG_RTO_MIN]
  | .TP_ACK_CFG => [.TP_ACK_CFG_DUPTHRESH, .TP_ACK_CFG_ACK_COUNT, .TP_ACK_CFG_ACK_DELAY]
  | .TP_CC_CFG => [.TP_CC_CFG_BETA, .TP_CC_CFG_HAI_AFTER, .TP_CC_CFG_AI_STEP, .TP_CC_CFG_PER_HOP, .TP_CC_CFG_Q_TARGET]
  | .TP_CC_RATE => [.TP_CC_RATE_RATE_MAX, .TP_CC_RATE_RATE_MIN, .TP_CC_RATE_RATE_INIT, .TP_CC_RATE_BURST]
  | .TP_CREDIT_CFG => [.TP_CREDIT_CFG_POOL, .TP_CREDIT_CFG_GRANT_BURST]
  | .TP_STATUS => [.TP_STATUS_CTX_USED, .TP_STATUS_CTX_CACHED, .TP_STATUS_MOORED]
  | .TP_TGT_STATUS => [.TP_TGT_STATUS_REGIONS, .TP_TGT_STATUS_READS, .TP_TGT_STATUS_LEAVES_FREE]
  | .MF_STATUS => [.MF_STATUS_USED, .MF_STATUS_HELD, .MF_STATUS_LAND_FREE]
  | .MF_QUOTA => [.MF_QUOTA_MANIFEST, .MF_QUOTA_READS]
  | .MF_USE => [.MF_USE_MANIFEST, .MF_USE_READS]
  | .CT_CFG => [.CT_CFG_EAGER_KIB]
  | .CT_UXPOOL => [.CT_UXPOOL_BASE, .CT_UXPOOL_UNITS]
  | .CT_UXSTATUS => [.CT_UXSTATUS_FREE, .CT_UXSTATUS_HELD]
  | .CT_STATUS => [.CT_STATUS_ONCHIP, .CT_STATUS_ENTRIES]
  | .CT_QUOTA => [.CT_QUOTA_ENTRIES, .CT_QUOTA_UXUNITS]
  | .CT_USE => [.CT_USE_ENTRIES, .CT_USE_UXUNITS]
  | .HD_LANDPOOL => [.HD_LANDPOOL_BASE, .HD_LANDPOOL_SLOTS]
  | .HD_STATUS => [.HD_STATUS_SLOTS_FREE, .HD_STATUS_CTX_BUILT, .HD_STATUS_ENABLED]
  | .HD_CTX => [.HD_CTX_INST, .HD_CTX_JOB_SLOT, .HD_CTX_STATE, .HD_CTX_ROOT, .HD_CTX_HELD, .HD_CTX_REBUILT, .HD_CTX_REJOIN_DUE, .HD_CTX_BUILD]
  | .XB_STATUS => [.XB_STATUS_COMMITS, .XB_STATUS_BUSY, .XB_STATUS_ACTIVE]
  | .XB_PORT_UP => [.XB_PORT_UP_UP]
  | .XB_NOTICE => [.XB_NOTICE_AVOIDED]
  | .LL_PORT_STATE => [.LL_PORT_STATE_TX_SEQ, .LL_PORT_STATE_ACKED, .LL_PORT_STATE_RX_EXP, .LL_PORT_STATE_RFAIL, .LL_PORT_STATE_DOWN_CAUSE, .LL_PORT_STATE_RATE, .LL_PORT_STATE_WIDTH, .LL_PORT_STATE_STATE]
  | .LL_PORT_PEER => [.LL_PORT_PEER_SERIAL]
  | .LL_PORT_LINK => [.LL_PORT_LINK_EPOCH, .LL_PORT_LINK_PEER_PORT, .LL_PORT_LINK_RTT, .LL_PORT_LINK_HOLD_LEFT]
  | .LL_TIMERS => [.LL_TIMERS_RETRAIN_LIMIT, .LL_TIMERS_REPLAY_TO]
  | .LN_LANE_STATUS => [.LN_LANE_STATUS_ATTEMPTS, .LN_LANE_STATUS_TRAIN_TIME, .LN_LANE_STATUS_LOOP, .LN_LANE_STATUS_FAILED, .LN_LANE_STATUS_TRAINED, .LN_LANE_STATUS_LOCK, .LN_LANE_STATUS_CDR_LOCK, .LN_LANE_STATUS_RATE, .LN_LANE_STATUS_PSTATE, .LN_LANE_STATUS_PORT_LANE]
  | .LN_LANE_TAPS => [.LN_LANE_TAPS_POST2, .LN_LANE_TAPS_POST1, .LN_LANE_TAPS_MAIN, .LN_LANE_TAPS_PRE1, .LN_LANE_TAPS_PRE2, .LN_LANE_TAPS_PRE3]
  | .LN_LANE_QUAL => [.LN_LANE_QUAL_SNR, .LN_LANE_QUAL_EYE_H, .LN_LANE_QUAL_EYE_W, .LN_LANE_QUAL_FEC_MAX]
  | .LN_LANE_SER => [.LN_LANE_SER_SYM_ERR]
  | .LN_LANE_PRBS => [.LN_LANE_PRBS_CHK_LOCK, .LN_LANE_PRBS_ERRORS]
  | .MT_NOW => [.MT_NOW_NOW]
  | .MT_CFG => [.MT_CFG_EXT_OFFSET, .MT_CFG_EXT_EN, .MT_CFG_PRIO]
  | .MT_STATUS => [.MT_STATUS_OFFSET, .MT_STATUS_DEPTH, .MT_STATUS_PARENT, .MT_STATUS_STEPPED, .MT_STATUS_STATE]
  | .MT_LINE => [.MT_LINE_FIRED, .MT_LINE_LATE, .MT_LINE_OVERFLOW, .MT_LINE_PENDING]
  | .MT_TRIG_CFG => [.MT_TRIG_CFG_PERIOD, .MT_TRIG_CFG_WIDTH, .MT_TRIG_CFG_LINE, .MT_TRIG_CFG_MODE]
  | .MT_TRIG_TIME => [.MT_TRIG_TIME_TIME]
  | .MT_TRIG_CAP => [.MT_TRIG_CAP_STAMP]
  | .MT_TRIG_STAT => [.MT_TRIG_STAT_DROPPED, .MT_TRIG_STAT_QUEUED]
  | .FX_STATUS => [.FX_STATUS_JOB_SLOT, .FX_STATUS_JOB_LOADED, .FX_STATUS_SYS_LEN, .FX_STATUS_JOB_LEN, .FX_STATUS_UNITS_OUT, .FX_STATUS_DISPATCH_Q, .FX_STATUS_STATE]
  | .FX_CFG => [.FX_CFG_JOB_THREADS]
  | .FX_JOBSEG => [.FX_JOBSEG_INBOX, .FX_JOBSEG_SEG_LEN, .FX_JOBSEG_SEG_BASE, .FX_JOBSEG_ASID]
  | .FX_SLOTS => [.FX_SLOTS_COUNT]
  | .FX_THREAD => [.FX_THREAD_PC, .FX_THREAD_ENTRY, .FX_THREAD_PRIO_EFF, .FX_THREAD_EVQ, .FX_THREAD_ASYNC, .FX_THREAD_TIMERS, .FX_THREAD_STATE]
  | .FX_FAULT => [.FX_FAULT_PC, .FX_FAULT_ENTRY, .FX_FAULT_JOB_SLOT, .FX_FAULT_COUNT, .FX_FAULT_CAUSE]
  | .LK_LOCK => [.LK_LOCK_OWNER, .LK_LOCK_HELD, .LK_LOCK_ORPHANED, .LK_LOCK_WAITERS, .LK_LOCK_QUEUED, .LK_LOCK_IDENT, .LK_LOCK_CMD]
  | .LK_GROUP => [.LK_GROUP_JOB_SLOT, .LK_GROUP_BOUND, .LK_GROUP_PRIO_MODE, .LK_GROUP_HOST_PRIO, .LK_GROUP_HFUNC1, .LK_GROUP_HEN1, .LK_GROUP_HFUNC0, .LK_GROUP_HEN0]
  | .LK_GROUP_FERRIES => [.LK_GROUP_FERRIES_FERRIES]
  | .LK_CFG => [.LK_CFG_MAINT]
  | .LK_WORD => [.LK_WORD_RESULT, .LK_WORD_ADDR, .LK_WORD_WORD, .LK_WORD_CMD]
  | .TX_STATUS => [.TX_STATUS_ACTIVE, .TX_STATUS_LOCKED, .TX_STATUS_INV_BUSY]
  | .TX_WALK_BASE => [.TX_WALK_BASE_BASE, .TX_WALK_BASE_EN, .TX_WALK_BASE_LOC, .TX_WALK_BASE_FUNC]
  | .TX_WALK_LIMIT => [.TX_WALK_LIMIT_LIMIT]
  | .TX_ASID => [.TX_ASID_ASID, .TX_ASID_VALID, .TX_ASID_LOCKED, .TX_ASID_WFUNC]
  | .TX_ROOT => [.TX_ROOT_ROOT, .TX_ROOT_LOC]
  | .TX_PKG => [.TX_PKG_FIRST, .TX_PKG_LAST]
  | .TX_SPAN_BASE => [.TX_SPAN_BASE_BASE, .TX_SPAN_BASE_W, .TX_SPAN_BASE_R, .TX_SPAN_BASE_LOC, .TX_SPAN_BASE_VALID]
  | .TX_SPAN_LIMIT => [.TX_SPAN_LIMIT_LIMIT]
  | .TX_SPAN_TGT => [.TX_SPAN_TGT_TARGET]
  | .HI_PORT => [.HI_PORT_NUMVFS, .HI_PORT_MODE, .HI_PORT_FLIT, .HI_PORT_IDE_LINK, .HI_PORT_WIDTH, .HI_PORT_SPEED, .HI_PORT_DL_UP]
  | .HI_WIN_BASE => [.HI_WIN_BASE_OFFSET, .HI_WIN_BASE_FUNC, .HI_WIN_BASE_SIZE, .HI_WIN_BASE_W, .HI_WIN_BASE_R]
  | .HI_WIN_TGT => [.HI_WIN_TGT_TARGET, .HI_WIN_TGT_EN]
  | .HI_VF => [.HI_VF_QBASE, .HI_VF_JOB_SLOT, .HI_VF_BOUND]
  | .HI_FN_STATE => [.HI_FN_STATE_LEFT, .HI_FN_STATE_STATE]
  | .HI_SLOT_CTL => [.HI_SLOT_CTL_SLOT_VEC, .HI_SLOT_CTL_CONT_EN, .HI_SLOT_CTL_SURPRISE_OFF, .HI_SLOT_CTL_EVT_EN, .HI_SLOT_CTL_ATTN_IND, .HI_SLOT_CTL_PWR_IND, .HI_SLOT_CTL_RELEASE, .HI_SLOT_CTL_PWR_ON]
  | .HI_SLOT_STATUS => [.HI_SLOT_STATUS_PRES_SEQ, .HI_SLOT_STATUS_CAUSE, .HI_SLOT_STATUS_FROZEN, .HI_SLOT_STATUS_DL_ACTIVE, .HI_SLOT_STATUS_SETTLE, .HI_SLOT_STATUS_PG, .HI_SLOT_STATUS_PRESENCE, .HI_SLOT_STATUS_CMD_REJECTED, .HI_SLOT_STATUS_DLLSC, .HI_SLOT_STATUS_PFD, .HI_SLOT_STATUS_ABP, .HI_SLOT_STATUS_PDC]
  | .HI_HB_MSI => [.HI_HB_MSI_ADDR, .HI_HB_MSI_HB_VEC_BASE]
  | .HI_FN_STAT => [.HI_FN_STAT_DB_FOREIGN, .HI_FN_STAT_REG_FOREIGN, .HI_FN_STAT_WIN_MISS]
  | .HI_CTL_ADDR => [.HI_CTL_ADDR_ADDR, .HI_CTL_ADDR_VIOLATION]
  | .HI_CTL_DATA => [.HI_CTL_DATA_DATA]
  | .MG_STATUS => [.MG_STATUS_ENTERPRISE, .MG_STATUS_UPD_UNIT, .MG_STATUS_UPD_TYPE, .MG_STATUS_RESETS, .MG_STATUS_STATE]
  | .MG_IMAGE => [.MG_IMAGE_VER_A, .MG_IMAGE_VER_B, .MG_IMAGE_RUN_MIN, .MG_IMAGE_RUN_MAX, .MG_IMAGE_CONFIRM, .MG_IMAGE_TRIAL, .MG_IMAGE_VALID_A, .MG_IMAGE_VALID_B, .MG_IMAGE_PENDING, .MG_IMAGE_ACTIVE]
  | .MG_LOG_STATUS => [.MG_LOG_STATUS_NEWEST, .MG_LOG_STATUS_PERSISTED]
  | .MG_LOG_LOST => [.MG_LOG_LOST_LOST]
  | .MG_LOG_SEL => [.MG_LOG_SEL_FOUND, .MG_LOG_SEL_FLASH, .MG_LOG_SEL_SEQ]
  | .MG_LOG_DATA => [.MG_LOG_DATA_DATA]
  | .MG_SENS => [.MG_SENS_AGE, .MG_SENS_FAIL, .MG_SENS_CRIT, .MG_SENS_WARN, .MG_SENS_VALUE]
  | .MG_SENS_THR => [.MG_SENS_THR_CRIT, .MG_SENS_THR_WARN, .MG_SENS_THR_LOW]
  | .FT_STATUS => [.FT_STATUS_FATAL_SRC, .FT_STATUS_FATAL_SEEN, .FT_STATUS_FATAL, .FT_STATUS_PENDING, .FT_STATUS_ALIVE_ON]
  | .FT_VEC => [.FT_VEC_EN, .FT_VEC_VECTOR]
  | .FT_FATAL_TIME => [.FT_FATAL_TIME_TIME]
  | .FT_SRC => [.FT_SRC_COUNT, .FT_SRC_MIN, .FT_SRC_REACT, .FT_SRC_WIRE, .FT_SRC_FORCED, .FT_SRC_ISOLATED, .FT_SRC_STATUS, .FT_SRC_FORCE]
  | .EC_SEL => [.EC_SEL_USER_FN, .EC_SEL_USER_EN, .EC_SEL_OVF, .EC_SEL_MODE, .EC_SEL_SUB, .EC_SEL_EVENT]
  | .EC_CNT => [.EC_CNT_COUNT]
  | .EC_SNAP => [.EC_SNAP_DISABLED, .EC_SNAP_OVF, .EC_SNAP_COUNT]
  | .EC_HIST_CFG => [.EC_HIST_CFG_CLASS]
  | .EC_HIST => [.EC_HIST_OVF, .EC_HIST_COUNT]
  | .EC_SNAP_STATUS => [.EC_SNAP_STATUS_SEQ, .EC_SNAP_STATUS_PENDING]
  | .EC_SNAP_TIME => [.EC_SNAP_TIME_T]
  | .PW_STATUS => [.PW_STATUS_LAST_RESET, .PW_STATUS_WARMS, .PW_STATUS_PARKED, .PW_STATUS_SAG_CORE, .PW_STATUS_SAG_12V]
  | .PW_CTL => [.PW_CTL_PARK, .PW_CTL_VEC_EN, .PW_CTL_VECTOR]
  | .PW_RESET => [.PW_RESET_MGMT, .PW_RESET_WARM]
  | .PW_UNIT_RST => [.PW_UNIT_RST_BUSY, .PW_UNIT_RST_KIND, .PW_UNIT_RST_INDEX]
  | .PW_EN => [.PW_EN_MASK]
  | .EF_CFG => [.EF_CFG_RSENSE, .EF_CFG_ILIM, .EF_CFG_GATE_UA, .EF_CFG_TREG_MS, .EF_CFG_FET_TMAX, .EF_CFG_TSRC]
  | .EF_MODEL => [.EF_MODEL_RDSON, .EF_MODEL_RTH, .EF_MODEL_TAU, .EF_MODEL_TAMB]
  | .EF_CTL => [.EF_CTL_ON]
  | .EF_STATUS => [.EF_STATUS_VOUT, .EF_STATUS_IOUT, .EF_STATUS_FET_T, .EF_STATUS_CAUSE, .EF_STATUS_STATE, .EF_STATUS_FET_FAIL, .EF_STATUS_REG, .EF_STATUS_PG]

/-- Low bit, width, access type and reset value of each field, from its table. A reset that the table gives per
source, per instance or as fused stands as 0 here and is given by `Fld.resetAt`. -/
def Fld.row : Fld → FieldRow
  | .PW_PACE_CTL_FLOOR_MV => ⟨48, 12, .priv, 660⟩
  | .PW_PACE_CTL_CEIL_MV => ⟨36, 12, .priv, 850⟩
  | .PW_PACE_CTL_FIXED_MV => ⟨24, 12, .priv, 750⟩
  | .PW_PACE_CTL_TARGET => ⟨8, 16, .priv, 600⟩
  | .PW_PACE_CTL_MODE => ⟨0, 1, .priv, 0⟩
  | .PW_PACE_STATUS_PACE_AT_CEIL => ⟨48, 16, .ro, 0⟩
  | .PW_PACE_STATUS_SLOWEST => ⟨32, 16, .ro, 0⟩
  | .PW_PACE_STATUS_SLOW_MON => ⟨26, 6, .ro, 0⟩
  | .PW_PACE_STATUS_VOLT_MV => ⟨14, 12, .ro, 750⟩
  | .PW_PACE_STATUS_MARGIN_MV => ⟨2, 12, .ro, 100⟩
  | .PW_PACE_STATUS_AVS_FAIL => ⟨1, 1, .w1c, 0⟩
  | .PW_PACE_STATUS_SHORT => ⟨0, 1, .ro, 0⟩
  | .PW_PACE_MON_REGION => ⟨16, 5, .ro, 0⟩
  | .PW_PACE_MON_PACE => ⟨0, 16, .ro, 0⟩
  | .GLB_SERIAL_SERIAL => ⟨0, 64, .ro, 0⟩
  | .GLB_SEC_STATE_AUTH_SLOT => ⟨52, 4, .ro, 0⟩
  | .GLB_SEC_STATE_DEBUG => ⟨50, 2, .ro, 0⟩
  | .GLB_SEC_STATE_FM_SESSIONS => ⟨48, 2, .ro, 0⟩
  | .GLB_SEC_STATE_JOBS_ACTIVE => ⟨16, 9, .ro, 0⟩
  | .GLB_SEC_STATE_GLITCH_SEEN => ⟨1, 1, .rws, 0⟩
  | .GLB_SEC_STATE_KEYS_CLEAR => ⟨0, 1, .ro, 1⟩
  | .GLB_JOB_JOB_ID => ⟨40, 24, .ro, 0⟩
  | .GLB_JOB_STATE => ⟨37, 3, .ro, 0⟩
  | .GLB_JOB_MODE => ⟨36, 1, .ro, 0⟩
  | .GLB_JOB_GEN => ⟨34, 2, .ro, 0⟩
  | .GLB_JOB_RENEWING => ⟨33, 1, .ro, 0⟩
  | .GLB_JOB_SEALED => ⟨32, 1, .ro, 0⟩
  | .GLB_JOB_LEADER => ⟨12, 20, .ro, 0⟩
  | .GLB_ROLLBACK_FLOOR => ⟨0, 9, .ro, 0⟩
  | .QU_BASE_BASE => ⟨12, 52, .rwQ0, 0⟩
  | .QU_CFG_ASID => ⟨48, 16, .ro, 0⟩
  | .QU_CFG_JOB_SLOT => ⟨40, 8, .ro, 0⟩
  | .QU_CFG_CTLQ => ⟨39, 1, .ro, 0⟩
  | .QU_CFG_FUNC => ⟨30, 9, .ro, 0⟩
  | .QU_CFG_FERRY => ⟨24, 6, .ro, 0⟩
  | .QU_CFG_THREAD => ⟨20, 4, .ro, 0⟩
  | .QU_CFG_SIZE_LOG2 => ⟨15, 5, .rwQ0, 0⟩
  | .QU_CFG_LOC => ⟨14, 1, .rwQ0, 0⟩
  | .QU_PI_STALE_DB => ⟨48, 16, .rc, 0⟩
  | .QU_PI_PI => ⟨0, 32, .ro, 0⟩
  | .QU_CI_LAST_STARTED => ⟨32, 32, .ro, 0⟩
  | .QU_CI_CI => ⟨0, 32, .ro, 0⟩
  | .QU_HEAD_HEAD => ⟨0, 32, .ro, 0⟩
  | .QU_HEADADDR_ADDR => ⟨3, 61, .rwQ0, 0⟩
  | .QU_HEADADDR_LOC => ⟨1, 1, .rwQ0, 0⟩
  | .QU_HEADADDR_EN => ⟨0, 1, .rwQ0, 0⟩
  | .QU_NOTIFY_ARM_INDEX => ⟨32, 32, .rw, 0⟩
  | .QU_NOTIFY_ARMED => ⟨31, 1, .rw, 0⟩
  | .QU_NOTIFY_MSIX_EN => ⟨30, 1, .rw, 0⟩
  | .QU_NOTIFY_VECTOR => ⟨19, 11, .rw, 0⟩
  | .QU_NOTIFY_COAL_CNT => ⟨12, 7, .rw, 64⟩
  | .QU_NOTIFY_COAL_TIME => ⟨7, 5, .rw, 16⟩
  | .QU_STATE_ERR_INDEX => ⟨32, 32, .ro, 0⟩
  | .QU_STATE_CAUSE => ⟨24, 8, .ro, 0⟩
  | .QU_STATE_STATE => ⟨21, 3, .ro, 0⟩
  | .QU_STATE_DRAINED => ⟨20, 1, .ro, 0⟩
  | .QU_STATE_ERR_MULTI => ⟨19, 1, .ro, 0⟩
  | .QU_STATE_HALT_REASON => ⟨16, 3, .ro, 0⟩
  | .QU_STATE_CMD => ⟨0, 3, .wo, 0⟩
  | .TP_CTX_CFG_CLOSE_IDLE => ⟨16, 16, .priv, 100⟩
  | .TP_CTX_CFG_LOW_WATER => ⟨0, 16, .priv, 16⟩
  | .TP_RTO_CFG_FAIL_TIME => ⟨48, 16, .priv, 100⟩
  | .TP_RTO_CFG_RTO_MAX => ⟨32, 16, .priv, 256⟩
  | .TP_RTO_CFG_RTO_INIT => ⟨16, 16, .priv, 64⟩
  | .TP_RTO_CFG_RTO_MIN => ⟨0, 16, .priv, 16⟩
  | .TP_ACK_CFG_DUPTHRESH => ⟨16, 8, .priv, 3⟩
  | .TP_ACK_CFG_ACK_COUNT => ⟨8, 8, .priv, 8⟩
  | .TP_ACK_CFG_ACK_DELAY => ⟨0, 8, .priv, 4⟩
  | .TP_CC_CFG_BETA => ⟨56, 8, .priv, 128⟩
  | .TP_CC_CFG_HAI_AFTER => ⟨48, 8, .priv, 16⟩
  | .TP_CC_CFG_AI_STEP => ⟨32, 16, .priv, 10⟩
  | .TP_CC_CFG_PER_HOP => ⟨16, 16, .priv, 480⟩
  | .TP_CC_CFG_Q_TARGET => ⟨0, 16, .priv, 4000⟩
  | .TP_CC_RATE_RATE_MAX => ⟨48, 16, .priv, 2000⟩
  | .TP_CC_RATE_RATE_MIN => ⟨32, 16, .priv, 1⟩
  | .TP_CC_RATE_RATE_INIT => ⟨16, 16, .priv, 2000⟩
  | .TP_CC_RATE_BURST => ⟨0, 16, .priv, 64⟩
  | .TP_CREDIT_CFG_POOL => ⟨16, 16, .priv, 32⟩
  | .TP_CREDIT_CFG_GRANT_BURST => ⟨8, 8, .priv, 4⟩
  | .TP_STATUS_CTX_USED => ⟨43, 21, .ro, 0⟩
  | .TP_STATUS_CTX_CACHED => ⟨27, 16, .ro, 0⟩
  | .TP_STATUS_MOORED => ⟨13, 14, .ro, 0⟩
  | .TP_TGT_STATUS_REGIONS => ⟨43, 21, .ro, 0⟩
  | .TP_TGT_STATUS_READS => ⟨26, 17, .ro, 0⟩
  | .TP_TGT_STATUS_LEAVES_FREE => ⟨0, 25, .ro, 16777216⟩
  | .MF_STATUS_USED => ⟨46, 18, .ro, 0⟩
  | .MF_STATUS_HELD => ⟨30, 16, .ro, 0⟩
  | .MF_STATUS_LAND_FREE => ⟨0, 14, .ro, 8192⟩
  | .MF_QUOTA_MANIFEST => ⟨28, 18, .priv, 131072⟩
  | .MF_QUOTA_READS => ⟨11, 17, .priv, 65536⟩
  | .MF_USE_MANIFEST => ⟨28, 18, .ro, 0⟩
  | .MF_USE_READS => ⟨11, 17, .ro, 0⟩
  | .CT_CFG_EAGER_KIB => ⟨0, 8, .priv, 16⟩
  | .CT_UXPOOL_BASE => ⟨40, 24, .priv, 0⟩
  | .CT_UXPOOL_UNITS => ⟨16, 24, .priv, 0⟩
  | .CT_UXSTATUS_FREE => ⟨40, 24, .ro, 0⟩
  | .CT_UXSTATUS_HELD => ⟨16, 24, .ro, 0⟩
  | .CT_STATUS_ONCHIP => ⟨47, 17, .ro, 0⟩
  | .CT_STATUS_ENTRIES => ⟨22, 25, .ro, 0⟩
  | .CT_QUOTA_ENTRIES => ⟨39, 25, .priv, 16777216⟩
  | .CT_QUOTA_UXUNITS => ⟨15, 24, .priv, 16777215⟩
  | .CT_USE_ENTRIES => ⟨39, 25, .ro, 0⟩
  | .CT_USE_UXUNITS => ⟨15, 24, .ro, 0⟩
  | .HD_LANDPOOL_BASE => ⟨40, 24, .priv, 0⟩
  | .HD_LANDPOOL_SLOTS => ⟨16, 24, .priv, 0⟩
  | .HD_STATUS_SLOTS_FREE => ⟨40, 24, .ro, 0⟩
  | .HD_STATUS_CTX_BUILT => ⟨27, 13, .ro, 0⟩
  | .HD_STATUS_ENABLED => ⟨0, 8, .ro, 255⟩
  | .HD_CTX_INST => ⟨32, 32, .ro, 0⟩
  | .HD_CTX_JOB_SLOT => ⟨24, 8, .ro, 0⟩
  | .HD_CTX_STATE => ⟨21, 3, .ro, 0⟩
  | .HD_CTX_ROOT => ⟨20, 1, .ro, 0⟩
  | .HD_CTX_HELD => ⟨19, 1, .ro, 0⟩
  | .HD_CTX_REBUILT => ⟨18, 1, .ro, 0⟩
  | .HD_CTX_REJOIN_DUE => ⟨17, 1, .ro, 0⟩
  | .HD_CTX_BUILD => ⟨0, 16, .ro, 0⟩
  | .XB_STATUS_COMMITS => ⟨48, 16, .ro, 0⟩
  | .XB_STATUS_BUSY => ⟨1, 1, .ro, 0⟩
  | .XB_STATUS_ACTIVE => ⟨0, 1, .ro, 0⟩
  | .XB_PORT_UP_UP => ⟨0, 64, .ro, 0⟩
  | .XB_NOTICE_AVOIDED => ⟨0, 32, .ro, 0⟩
  | .LL_PORT_STATE_TX_SEQ => ⟨52, 12, .ro, 0⟩
  | .LL_PORT_STATE_ACKED => ⟨40, 12, .ro, 0⟩
  | .LL_PORT_STATE_RX_EXP => ⟨28, 12, .ro, 0⟩
  | .LL_PORT_STATE_RFAIL => ⟨24, 4, .ro, 0⟩
  | .LL_PORT_STATE_DOWN_CAUSE => ⟨16, 4, .ro, 0⟩
  | .LL_PORT_STATE_RATE => ⟨6, 2, .ro, 0⟩
  | .LL_PORT_STATE_WIDTH => ⟨4, 2, .ro, 0⟩
  | .LL_PORT_STATE_STATE => ⟨0, 3, .ro, 0⟩
  | .LL_PORT_PEER_SERIAL => ⟨0, 64, .ro, 0⟩
  | .LL_PORT_LINK_EPOCH => ⟨32, 32, .ro, 0⟩
  | .LL_PORT_LINK_PEER_PORT => ⟨24, 8, .ro, 0⟩
  | .LL_PORT_LINK_RTT => ⟨12, 12, .ro, 0⟩
  | .LL_PORT_LINK_HOLD_LEFT => ⟨0, 12, .ro, 0⟩
  | .LL_TIMERS_RETRAIN_LIMIT => ⟨16, 16, .ro, 4000⟩
  | .LL_TIMERS_REPLAY_TO => ⟨8, 8, .ro, 7⟩
  | .LN_LANE_STATUS_ATTEMPTS => ⟨56, 8, .ro, 0⟩
  | .LN_LANE_STATUS_TRAIN_TIME => ⟨48, 8, .ro, 0⟩
  | .LN_LANE_STATUS_LOOP => ⟨13, 3, .ro, 0⟩
  | .LN_LANE_STATUS_FAILED => ⟨12, 1, .ro, 0⟩
  | .LN_LANE_STATUS_TRAINED => ⟨11, 1, .ro, 0⟩
  | .LN_LANE_STATUS_LOCK => ⟨10, 1, .ro, 0⟩
  | .LN_LANE_STATUS_CDR_LOCK => ⟨9, 1, .ro, 0⟩
  | .LN_LANE_STATUS_RATE => ⟨6, 2, .ro, 0⟩
  | .LN_LANE_STATUS_PSTATE => ⟨4, 2, .ro, 0⟩
  | .LN_LANE_STATUS_PORT_LANE => ⟨2, 2, .ro, 0⟩
  | .LN_LANE_TAPS_POST2 => ⟨40, 8, .ro, 0⟩
  | .LN_LANE_TAPS_POST1 => ⟨32, 8, .ro, 0⟩
  | .LN_LANE_TAPS_MAIN => ⟨24, 8, .ro, 128⟩
  | .LN_LANE_TAPS_PRE1 => ⟨16, 8, .ro, 0⟩
  | .LN_LANE_TAPS_PRE2 => ⟨8, 8, .ro, 0⟩
  | .LN_LANE_TAPS_PRE3 => ⟨0, 8, .ro, 0⟩
  | .LN_LANE_QUAL_SNR => ⟨48, 16, .ro, 0⟩
  | .LN_LANE_QUAL_EYE_H => ⟨32, 16, .ro, 0⟩
  | .LN_LANE_QUAL_EYE_W => ⟨16, 16, .ro, 0⟩
  | .LN_LANE_QUAL_FEC_MAX => ⟨8, 8, .ro, 0⟩
  | .LN_LANE_SER_SYM_ERR => ⟨0, 64, .rc, 0⟩
  | .LN_LANE_PRBS_CHK_LOCK => ⟨63, 1, .ro, 0⟩
  | .LN_LANE_PRBS_ERRORS => ⟨0, 32, .rc, 0⟩
  | .MT_NOW_NOW => ⟨0, 64, .ro, 0⟩
  | .MT_CFG_EXT_OFFSET => ⟨32, 32, .priv, 0⟩
  | .MT_CFG_EXT_EN => ⟨9, 1, .priv, 0⟩
  | .MT_CFG_PRIO => ⟨0, 8, .priv, 128⟩
  | .MT_STATUS_OFFSET => ⟨24, 16, .ro, 0⟩
  | .MT_STATUS_DEPTH => ⟨16, 8, .ro, 255⟩
  | .MT_STATUS_PARENT => ⟨9, 7, .ro, 127⟩
  | .MT_STATUS_STEPPED => ⟨8, 1, .w1c, 0⟩
  | .MT_STATUS_STATE => ⟨0, 3, .ro, 0⟩
  | .MT_LINE_FIRED => ⟨48, 16, .rc, 0⟩
  | .MT_LINE_LATE => ⟨32, 16, .rc, 0⟩
  | .MT_LINE_OVERFLOW => ⟨16, 16, .rc, 0⟩
  | .MT_LINE_PENDING => ⟨0, 5, .ro, 0⟩
  | .MT_TRIG_CFG_PERIOD => ⟨32, 32, .priv, 0⟩
  | .MT_TRIG_CFG_WIDTH => ⟨16, 16, .priv, 100⟩
  | .MT_TRIG_CFG_LINE => ⟨12, 4, .priv, 0⟩
  | .MT_TRIG_CFG_MODE => ⟨0, 3, .priv, 0⟩
  | .MT_TRIG_TIME_TIME => ⟨0, 64, .priv, 0⟩
  | .MT_TRIG_CAP_STAMP => ⟨0, 64, .rc, 0⟩
  | .MT_TRIG_STAT_DROPPED => ⟨8, 8, .rc, 0⟩
  | .MT_TRIG_STAT_QUEUED => ⟨0, 7, .ro, 0⟩
  | .FX_STATUS_JOB_SLOT => ⟨56, 8, .ro, 0⟩
  | .FX_STATUS_JOB_LOADED => ⟨55, 1, .ro, 0⟩
  | .FX_STATUS_SYS_LEN => ⟨41, 14, .ro, 0⟩
  | .FX_STATUS_JOB_LEN => ⟨27, 14, .ro, 0⟩
  | .FX_STATUS_UNITS_OUT => ⟨18, 9, .ro, 0⟩
  | .FX_STATUS_DISPATCH_Q => ⟨9, 9, .ro, 0⟩
  | .FX_STATUS_STATE => ⟨0, 3, .ro, 0⟩
  | .FX_CFG_JOB_THREADS => ⟨0, 16, .priv, 65535⟩
  | .FX_JOBSEG_INBOX => ⟨48, 16, .ro, 0⟩
  | .FX_JOBSEG_SEG_LEN => ⟨32, 16, .ro, 0⟩
  | .FX_JOBSEG_SEG_BASE => ⟨16, 16, .ro, 0⟩
  | .FX_JOBSEG_ASID => ⟨0, 16, .ro, 0⟩
  | .FX_SLOTS_COUNT => ⟨0, 64, .ro, 0⟩
  | .FX_THREAD_PC => ⟨50, 14, .ro, 0⟩
  | .FX_THREAD_ENTRY => ⟨42, 8, .ro, 0⟩
  | .FX_THREAD_PRIO_EFF => ⟨40, 2, .ro, 0⟩
  | .FX_THREAD_EVQ => ⟨34, 6, .ro, 0⟩
  | .FX_THREAD_ASYNC => ⟨29, 5, .ro, 0⟩
  | .FX_THREAD_TIMERS => ⟨26, 3, .ro, 0⟩
  | .FX_THREAD_STATE => ⟨0, 3, .ro, 0⟩
  | .FX_FAULT_PC => ⟨50, 14, .ro, 0⟩
  | .FX_FAULT_ENTRY => ⟨42, 8, .ro, 0⟩
  | .FX_FAULT_JOB_SLOT => ⟨34, 8, .ro, 0⟩
  | .FX_FAULT_COUNT => ⟨8, 8, .rc, 0⟩
  | .FX_FAULT_CAUSE => ⟨0, 8, .ro, 0⟩
  | .LK_LOCK_OWNER => ⟨48, 16, .ro, 0⟩
  | .LK_LOCK_HELD => ⟨47, 1, .ro, 0⟩
  | .LK_LOCK_ORPHANED => ⟨46, 1, .ro, 0⟩
  | .LK_LOCK_WAITERS => ⟨39, 7, .ro, 0⟩
  | .LK_LOCK_QUEUED => ⟨38, 1, .ro, 0⟩
  | .LK_LOCK_IDENT => ⟨16, 16, .wo, 0⟩
  | .LK_LOCK_CMD => ⟨0, 3, .wo, 0⟩
  | .LK_GROUP_JOB_SLOT => ⟨56, 8, .priv, 0⟩
  | .LK_GROUP_BOUND => ⟨55, 1, .priv, 0⟩
  | .LK_GROUP_PRIO_MODE => ⟨54, 1, .priv, 0⟩
  | .LK_GROUP_HOST_PRIO => ⟨52, 2, .priv, 0⟩
  | .LK_GROUP_HFUNC1 => ⟨41, 9, .priv, 0⟩
  | .LK_GROUP_HEN1 => ⟨40, 1, .priv, 0⟩
  | .LK_GROUP_HFUNC0 => ⟨31, 9, .priv, 0⟩
  | .LK_GROUP_HEN0 => ⟨30, 1, .priv, 0⟩
  | .LK_GROUP_FERRIES_FERRIES => ⟨0, 64, .priv, 0⟩
  | .LK_CFG_MAINT => ⟨0, 1, .priv, 0⟩
  | .LK_WORD_RESULT => ⟨0, 64, .ro, 0⟩
  | .LK_WORD_ADDR => ⟨6, 34, .wo, 0⟩
  | .LK_WORD_WORD => ⟨3, 3, .wo, 0⟩
  | .LK_WORD_CMD => ⟨0, 3, .wo, 0⟩
  | .TX_STATUS_ACTIVE => ⟨51, 13, .ro, 0⟩
  | .TX_STATUS_LOCKED => ⟨38, 13, .ro, 0⟩
  | .TX_STATUS_INV_BUSY => ⟨0, 1, .ro, 0⟩
  | .TX_WALK_BASE_BASE => ⟨12, 52, .priv, 0⟩
  | .TX_WALK_BASE_EN => ⟨11, 1, .priv, 0⟩
  | .TX_WALK_BASE_LOC => ⟨10, 1, .priv, 0⟩
  | .TX_WALK_BASE_FUNC => ⟨1, 9, .priv, 0⟩
  | .TX_WALK_LIMIT_LIMIT => ⟨12, 52, .priv, 0⟩
  | .TX_ASID_ASID => ⟨48, 16, .rwl, 0⟩
  | .TX_ASID_VALID => ⟨47, 1, .rwl, 0⟩
  | .TX_ASID_LOCKED => ⟨46, 1, .ro, 0⟩
  | .TX_ASID_WFUNC => ⟨37, 9, .rwl, 0⟩
  | .TX_ROOT_ROOT => ⟨12, 52, .rwl, 0⟩
  | .TX_ROOT_LOC => ⟨0, 1, .rwl, 0⟩
  | .TX_PKG_FIRST => ⟨42, 22, .rwl, 4194303⟩
  | .TX_PKG_LAST => ⟨20, 22, .rwl, 0⟩
  | .TX_SPAN_BASE_BASE => ⟨12, 36, .rwl, 0⟩
  | .TX_SPAN_BASE_W => ⟨3, 1, .rwl, 0⟩
  | .TX_SPAN_BASE_R => ⟨2, 1, .rwl, 0⟩
  | .TX_SPAN_BASE_LOC => ⟨1, 1, .rwl, 0⟩
  | .TX_SPAN_BASE_VALID => ⟨0, 1, .rwl, 0⟩
  | .TX_SPAN_LIMIT_LIMIT => ⟨12, 36, .rwl, 0⟩
  | .TX_SPAN_TGT_TARGET => ⟨12, 52, .rwl, 0⟩
  | .HI_PORT_NUMVFS => ⟨16, 8, .ro, 0⟩
  | .HI_PORT_MODE => ⟨14, 2, .ro, 0⟩
  | .HI_PORT_FLIT => ⟨13, 1, .ro, 0⟩
  | .HI_PORT_IDE_LINK => ⟨12, 1, .ro, 0⟩
  | .HI_PORT_WIDTH => ⟨7, 5, .ro, 0⟩
  | .HI_PORT_SPEED => ⟨4, 3, .ro, 0⟩
  | .HI_PORT_DL_UP => ⟨0, 1, .ro, 0⟩
  | .HI_WIN_BASE_OFFSET => ⟨16, 48, .priv, 0⟩
  | .HI_WIN_BASE_FUNC => ⟨7, 9, .priv, 0⟩
  | .HI_WIN_BASE_SIZE => ⟨2, 5, .priv, 0⟩
  | .HI_WIN_BASE_W => ⟨1, 1, .priv, 0⟩
  | .HI_WIN_BASE_R => ⟨0, 1, .priv, 0⟩
  | .HI_WIN_TGT_TARGET => ⟨16, 24, .priv, 0⟩
  | .HI_WIN_TGT_EN => ⟨0, 1, .priv, 0⟩
  | .HI_VF_QBASE => ⟨48, 16, .priv, 0⟩
  | .HI_VF_JOB_SLOT => ⟨40, 8, .ro, 0⟩
  | .HI_VF_BOUND => ⟨39, 1, .ro, 0⟩
  | .HI_FN_STATE_LEFT => ⟨2, 14, .ro, 0⟩
  | .HI_FN_STATE_STATE => ⟨0, 2, .ro, 0⟩
  | .HI_SLOT_CTL_SLOT_VEC => ⟨10, 11, .priv, 0⟩
  | .HI_SLOT_CTL_CONT_EN => ⟨9, 1, .priv, 0⟩
  | .HI_SLOT_CTL_SURPRISE_OFF => ⟨8, 1, .priv, 1⟩
  | .HI_SLOT_CTL_EVT_EN => ⟨7, 1, .priv, 0⟩
  | .HI_SLOT_CTL_ATTN_IND => ⟨5, 2, .priv, 0⟩
  | .HI_SLOT_CTL_PWR_IND => ⟨3, 2, .priv, 0⟩
  | .HI_SLOT_CTL_RELEASE => ⟨2, 1, .w1s, 0⟩
  | .HI_SLOT_CTL_PWR_ON => ⟨0, 1, .priv, 0⟩
  | .HI_SLOT_STATUS_PRES_SEQ => ⟨48, 16, .ro, 0⟩
  | .HI_SLOT_STATUS_CAUSE => ⟨16, 4, .ro, 0⟩
  | .HI_SLOT_STATUS_FROZEN => ⟨15, 1, .ro, 0⟩
  | .HI_SLOT_STATUS_DL_ACTIVE => ⟨14, 1, .ro, 0⟩
  | .HI_SLOT_STATUS_SETTLE => ⟨13, 1, .ro, 0⟩
  | .HI_SLOT_STATUS_PG => ⟨12, 1, .ro, 0⟩
  | .HI_SLOT_STATUS_PRESENCE => ⟨11, 1, .ro, 0⟩
  | .HI_SLOT_STATUS_CMD_REJECTED => ⟨5, 1, .w1c, 0⟩
  | .HI_SLOT_STATUS_DLLSC => ⟨4, 1, .w1c, 0⟩
  | .HI_SLOT_STATUS_PFD => ⟨3, 1, .w1c, 0⟩
  | .HI_SLOT_STATUS_ABP => ⟨2, 1, .w1c, 0⟩
  | .HI_SLOT_STATUS_PDC => ⟨1, 1, .w1c, 0⟩
  | .HI_HB_MSI_ADDR => ⟨12, 52, .priv, 0⟩
  | .HI_HB_MSI_HB_VEC_BASE => ⟨0, 11, .priv, 0⟩
  | .HI_FN_STAT_DB_FOREIGN => ⟨48, 16, .rc, 0⟩
  | .HI_FN_STAT_REG_FOREIGN => ⟨32, 16, .rc, 0⟩
  | .HI_FN_STAT_WIN_MISS => ⟨16, 16, .rc, 0⟩
  | .HI_CTL_ADDR_ADDR => ⟨3, 37, .rw, 0⟩
  | .HI_CTL_ADDR_VIOLATION => ⟨0, 1, .w1c, 0⟩
  | .HI_CTL_DATA_DATA => ⟨0, 64, .rw, 0⟩
  | .MG_STATUS_ENTERPRISE => ⟨40, 24, .ro, 0⟩
  | .MG_STATUS_UPD_UNIT => ⟨32, 8, .ro, 0⟩
  | .MG_STATUS_UPD_TYPE => ⟨28, 4, .ro, 15⟩
  | .MG_STATUS_RESETS => ⟨16, 12, .ro, 0⟩
  | .MG_STATUS_STATE => ⟨0, 3, .ro, 0⟩
  | .MG_IMAGE_VER_A => ⟨56, 8, .ro, 0⟩
  | .MG_IMAGE_VER_B => ⟨48, 8, .ro, 0⟩
  | .MG_IMAGE_RUN_MIN => ⟨40, 8, .ro, 0⟩
  | .MG_IMAGE_RUN_MAX => ⟨32, 8, .ro, 0⟩
  | .MG_IMAGE_CONFIRM => ⟨5, 1, .w1s, 0⟩
  | .MG_IMAGE_TRIAL => ⟨4, 1, .ro, 0⟩
  | .MG_IMAGE_VALID_A => ⟨3, 1, .ro, 0⟩
  | .MG_IMAGE_VALID_B => ⟨2, 1, .ro, 0⟩
  | .MG_IMAGE_PENDING => ⟨1, 1, .ro, 0⟩
  | .MG_IMAGE_ACTIVE => ⟨0, 1, .ro, 0⟩
  | .MG_LOG_STATUS_NEWEST => ⟨32, 32, .ro, 0⟩
  | .MG_LOG_STATUS_PERSISTED => ⟨0, 32, .ro, 0⟩
  | .MG_LOG_LOST_LOST => ⟨0, 32, .rc, 0⟩
  | .MG_LOG_SEL_FOUND => ⟨63, 1, .ro, 0⟩
  | .MG_LOG_SEL_FLASH => ⟨32, 1, .rw, 0⟩
  | .MG_LOG_SEL_SEQ => ⟨0, 32, .rw, 0⟩
  | .MG_LOG_DATA_DATA => ⟨0, 64, .ro, 0⟩
  | .MG_SENS_AGE => ⟨24, 16, .ro, 0⟩
  | .MG_SENS_FAIL => ⟨18, 1, .ro, 0⟩
  | .MG_SENS_CRIT => ⟨17, 1, .ro, 0⟩
  | .MG_SENS_WARN => ⟨16, 1, .ro, 0⟩
  | .MG_SENS_VALUE => ⟨0, 16, .ro, 0⟩
  | .MG_SENS_THR_CRIT => ⟨32, 16, .priv, 0x7FFF⟩
  | .MG_SENS_THR_WARN => ⟨16, 16, .priv, 0x7FFF⟩
  | .MG_SENS_THR_LOW => ⟨0, 1, .priv, 0⟩
  | .FT_STATUS_FATAL_SRC => ⟨55, 9, .rws, 0⟩
  | .FT_STATUS_FATAL_SEEN => ⟨54, 1, .rws, 0⟩
  | .FT_STATUS_FATAL => ⟨53, 1, .ro, 0⟩
  | .FT_STATUS_PENDING => ⟨43, 10, .ro, 0⟩
  | .FT_STATUS_ALIVE_ON => ⟨42, 1, .ro, 0⟩
  | .FT_VEC_EN => ⟨11, 1, .priv, 0⟩
  | .FT_VEC_VECTOR => ⟨0, 11, .priv, 0⟩
  | .FT_FATAL_TIME_TIME => ⟨0, 64, .rws, 0⟩
  | .FT_SRC_COUNT => ⟨48, 16, .rc, 0⟩
  | .FT_SRC_MIN => ⟨38, 2, .ro, 0⟩
  | .FT_SRC_REACT => ⟨36, 2, .priv, 0⟩
  | .FT_SRC_WIRE => ⟨35, 1, .w1c, 0⟩
  | .FT_SRC_FORCED => ⟨34, 1, .w1c, 0⟩
  | .FT_SRC_ISOLATED => ⟨33, 1, .ro, 0⟩
  | .FT_SRC_STATUS => ⟨32, 1, .w1c, 0⟩
  | .FT_SRC_FORCE => ⟨0, 2, .privWo, 0⟩
  | .EC_SEL_USER_FN => ⟨43, 9, .priv, 0⟩
  | .EC_SEL_USER_EN => ⟨42, 1, .priv, 0⟩
  | .EC_SEL_OVF => ⟨41, 1, .w1c, 0⟩
  | .EC_SEL_MODE => ⟨32, 2, .priv, 0⟩
  | .EC_SEL_SUB => ⟨16, 8, .priv, 0⟩
  | .EC_SEL_EVENT => ⟨0, 8, .priv, 0⟩
  | .EC_CNT_COUNT => ⟨0, 48, .priv, 0⟩
  | .EC_SNAP_DISABLED => ⟨49, 1, .ro, 0⟩
  | .EC_SNAP_OVF => ⟨48, 1, .ro, 0⟩
  | .EC_SNAP_COUNT => ⟨0, 48, .ro, 0⟩
  | .EC_HIST_CFG_CLASS => ⟨0, 2, .priv, 0⟩
  | .EC_HIST_OVF => ⟨48, 1, .w1c, 0⟩
  | .EC_HIST_COUNT => ⟨0, 48, .ro, 0⟩
  | .EC_SNAP_STATUS_SEQ => ⟨32, 32, .ro, 0⟩
  | .EC_SNAP_STATUS_PENDING => ⟨0, 3, .ro, 0⟩
  | .EC_SNAP_TIME_T => ⟨0, 64, .ro, 0⟩
  | .PW_STATUS_LAST_RESET => ⟨60, 4, .ro, 0⟩
  | .PW_STATUS_WARMS => ⟨44, 16, .ro, 0⟩
  | .PW_STATUS_PARKED => ⟨2, 1, .ro, 0⟩
  | .PW_STATUS_SAG_CORE => ⟨1, 1, .ro, 0⟩
  | .PW_STATUS_SAG_12V => ⟨0, 1, .ro, 0⟩
  | .PW_CTL_PARK => ⟨12, 1, .priv, 0⟩
  | .PW_CTL_VEC_EN => ⟨11, 1, .priv, 0⟩
  | .PW_CTL_VECTOR => ⟨0, 11, .priv, 0⟩
  | .PW_RESET_MGMT => ⟨1, 1, .privWo, 0⟩
  | .PW_RESET_WARM => ⟨0, 1, .privWo, 0⟩
  | .PW_UNIT_RST_BUSY => ⟨15, 1, .ro, 0⟩
  | .PW_UNIT_RST_KIND => ⟨8, 3, .privWo, 0⟩
  | .PW_UNIT_RST_INDEX => ⟨0, 7, .privWo, 0⟩
  | .PW_EN_MASK => ⟨0, 64, .enMask, 0⟩
  | .EF_CFG_RSENSE => ⟨48, 16, .priv, 500⟩
  | .EF_CFG_ILIM => ⟨38, 10, .priv, 0⟩
  | .EF_CFG_GATE_UA => ⟨32, 6, .priv, 20⟩
  | .EF_CFG_TREG_MS => ⟨24, 8, .priv, 50⟩
  | .EF_CFG_FET_TMAX => ⟨16, 8, .priv, 125⟩
  | .EF_CFG_TSRC => ⟨15, 1, .priv, 0⟩
  | .EF_MODEL_RDSON => ⟨48, 16, .priv, 800⟩
  | .EF_MODEL_RTH => ⟨32, 16, .priv, 150⟩
  | .EF_MODEL_TAU => ⟨16, 16, .priv, 500⟩
  | .EF_MODEL_TAMB => ⟨8, 8, .priv, 55⟩
  | .EF_CTL_ON => ⟨0, 1, .efCtl, 0⟩
  | .EF_STATUS_VOUT => ⟨48, 16, .ro, 0⟩
  | .EF_STATUS_IOUT => ⟨32, 16, .ro, 0⟩
  | .EF_STATUS_FET_T => ⟨20, 12, .ro, 0⟩
  | .EF_STATUS_CAUSE => ⟨12, 4, .ro, 0⟩
  | .EF_STATUS_STATE => ⟨6, 2, .ro, 0⟩
  | .EF_STATUS_FET_FAIL => ⟨3, 1, .w1c, 0⟩
  | .EF_STATUS_REG => ⟨2, 1, .ro, 0⟩
  | .EF_STATUS_PG => ⟨1, 1, .ro, 0⟩
/-- The two dies of R3. The grades C and X are functionally identical. -/
inductive Variant where
  /-- WLN-7230: every unit. -/
  | wln7230
  /-- WLN-7215: L0-L35, P0-P35, F0-F31, C0-C1, H0-H3. -/
  | wln7215
  deriving DecidableEq, Repr

/-- The fused enable mask of PW_EN[r] (R3, R504). Berths: all 64 in both variants, since R5 halves no wharf. -/
def fusedMask (v : Variant) (r : Nat) : Nat :=
  match v, r with
  | .wln7230, 0 => 2 ^ 64 - 1
  | .wln7230, 1 => 2 ^ 64 - 1
  | .wln7230, 2 => 2 ^ 64 - 1
  | .wln7230, 3 => 0xFFFFF
  | .wln7230, 4 => 2 ^ 64 - 1
  | .wln7230, 5 => 0xFF
  | .wln7230, 6 => 2 ^ 64 - 1
  | .wln7215, 0 => 2 ^ 32 - 1
  | .wln7215, 1 => 2 ^ 64 - 1
  | .wln7215, 2 => 2 ^ 36 - 1
  | .wln7215, 3 => 0x0F300
  | .wln7215, 4 => 2 ^ 36 - 1
  | .wln7215, 5 => 0
  | .wln7215, 6 => 2 ^ 64 - 1
  | _, _ => 0

/-- The fault sources of R465 that exist: listed numbers. -/
def srcListed (s : Nat) : Bool := decide (s ≤ 249 ∨ (256 ≤ s ∧ s ≤ 402))

/-- The minimum class of a fault source (R465): 0 corrected, 1 deferred, 2 contained, 3 fatal. -/
def srcMin (s : Nat) : Nat :=
  if s ≤ 165 then 2
  else if s ≤ 230 then 1
  else if s = 231 ∨ s = 234 ∨ s = 237 then 3
  else if 243 ≤ s ∧ s ≤ 248 then (if s = 244 then 3 else 1)
  else 0

/-- The default class of a fault source (R465). -/
def srcDefault (s : Nat) : Nat :=
  if s = 232 ∨ s = 238 then 3
  else if s = 233 ∨ s = 239 ∨ s = 240 ∨ s = 241 then 1
  else if 256 ≤ s ∧ s ≤ 303 then 3
  else if 304 ≤ s ∧ s ≤ 402 then 1
  else srcMin s

/-- The pace region that holds monitor `m` (the monitor table of the pace chapter). -/
def monRegion (m : Nat) : Nat := if m < 48 then m / 2 else (m - 48) / 2

/-- The reset value of instance `i` of a field (R8): the table's value, or the one it gives per instance.
Log 3 names the values that the manual leaves to fuses, straps and sensors. -/
def Fld.resetAt (v : Variant) (f : Fld) (i : Nat) : Nat :=
  match f with
  | .QU_CFG_CTLQ => if i = 0 then 1 else 0
  | .QU_CFG_SIZE_LOG2 => if i = 0 then 6 else 0
  | .QU_STATE_STATE => if i = 0 then 4 else 0
  | .QU_STATE_DRAINED => if i = 0 then 1 else 0
  | .QU_STATE_HALT_REASON => if i = 0 then 2 else 0
  | .PW_PACE_MON_REGION => monRegion i
  | .GLB_SERIAL_SERIAL => Config.serial % 2 ^ 64
  | .GLB_SEC_STATE_AUTH_SLOT => 15
  | .MG_STATUS_ENTERPRISE => Config.enterprise % 2 ^ 24
  | .FT_SRC_MIN => if srcListed i then srcMin i else 0
  | .FT_SRC_REACT => if srcListed i then srcDefault i else 0
  | .PW_STATUS_LAST_RESET => 2
  | .PW_EN_MASK => fusedMask v i
  | .EF_CFG_ILIM => if i = 0 then 200 else 100
  | f => f.row.reset

/-- The key of a field instance in the register table of State. -/
def fkey (f : Fld) (i : Nat) : Nat := i * 512 + f.ctorIdx

/-- Whether an address lies at an instance of a place; the answer is the flat index. -/
def Place.index (p : Place) (addr : Nat) : Option Nat :=
  if addr < p.base then none
  else
    let d := addr - p.base
    let a := if p.stride = 0 then 0 else if p.n = 1 then 0 else min (d / p.stride) (p.n - 1)
    let e := d - a * p.stride
    let b := if p.istride = 0 then 0 else e / p.istride
    if e = b * p.istride ∧ p.mlo ≤ b ∧ b < p.mlo + p.m then some (a * (p.mlo + p.m) + b) else none

/-- The internal address of instance `i` of a place. -/
def Place.addr (p : Place) (i : Nat) : Nat :=
  p.base + p.stride * (i / (p.mlo + p.m)) + p.istride * (i % (p.mlo + p.m))

/-- The register at an internal address (R28), with its flat index; none at a reserved location (R29). -/
def regAt (addr : Nat) : Option (Reg × Nat) :=
  allRegs.findSome? fun r =>
    match r.place with
    | none => none
    | some p => (p.index addr).map fun i => (r, i)

/-- The implemented spans of R28 outside package memory. -/
def inSpan (addr : Nat) : Bool :=
  decide (addr < 0x101_0000 ∨
    (0x01_0000_0000 ≤ addr ∧ addr < 0x01_0040_0000) ∨
    (0x02_0000_0000 ≤ addr ∧ addr < 0x02_0040_0000) ∨
    (0x03_0000_0000 ≤ addr ∧ addr < 0x03_0400_0000) ∨
    (0x04_0000_0000 ≤ addr ∧ addr < 0x04_0400_0000) ∨
    (0x05_0000_0000 ≤ addr ∧ addr < 0x05_0400_0000) ∨
    (0x06_0000_0000 ≤ addr ∧ addr < 0x06_0100_0000) ∨
    (0x07_0000_0000 ≤ addr ∧ addr < 0x07_1000_0000) ∨
    (0x08_0000_0000 ≤ addr ∧ addr < 0x08_0400_0000) ∨
    (0x09_0000_0000 ≤ addr ∧ addr < 0x09_0400_0000) ∨
    (0x0A_0000_0000 ≤ addr ∧ addr < 0x0A_0010_0000) ∨
    (0x0B_0000_0000 ≤ addr ∧ addr < 0x0B_0010_0000) ∨
    (0x0C_0000_0000 ≤ addr ∧ addr < 0x0C_0100_0000) ∨
    (0x0D_0000_0000 ≤ addr ∧ addr < 0x0D_0010_0000) ∨
    (0x0E_0000_0000 ≤ addr ∧ addr < 0x0E_0100_0000) ∨
    (0x0F_0000_0000 ≤ addr ∧ addr < 0x0F_0010_0000))

/-- Package memory (R28, R32). -/
def inPackage (addr : Nat) : Bool := decide (0x10_0000_0000 ≤ addr ∧ addr ≤ 0x13_FFFF_FFFF)

/-- The reserved range of R32. -/
def inReserved (addr : Nat) : Bool := decide (0x13_8000_0000 ≤ addr ∧ addr ≤ 0x13_FFFF_FFFF)

/-- The security block (R28, R30). -/
def inSecurity (addr : Nat) : Bool := decide (0x0B_0000_0000 ≤ addr ∧ addr < 0x0C_0000_0000)

/-- The address-map block of an internal address: bits 39:32 of its base, 0x80 the management mailbox (R454). -/
def blockOf (addr : Nat) : Nat :=
  if 0x100_0000 ≤ addr ∧ addr < 0x101_0000 then 0x80 else addr / 2 ^ 32 % 256

end Sys2Proof.Machine
end

