-- ==== Sys2Proof/Machine/Tab.lean ====
section
/-! DEFINITION. Sparse tables and byte memories. A table lists what it holds in the order in which the keys
came; a memory is a list of cells in one canonical form: addresses strictly rising, no cell 0 (an unlisted
address reads 0, log 5). -/

namespace Sys2Proof.Machine

/-- A sparse table from keys to values. -/
structure Tab (κ α : Type) where
  cells : List (κ × α) := []
  deriving DecidableEq, Repr

/-- The value at a key. -/
def lookList {κ α : Type} [DecidableEq κ] (k : κ) : List (κ × α) → Option α
  | [] => none
  | (a, v) :: r => if a = k then some v else lookList k r

/-- Set the value at a key: in place where the key is held, else at the end. -/
def putList {κ α : Type} [DecidableEq κ] (k : κ) (v : α) : List (κ × α) → List (κ × α)
  | [] => [(k, v)]
  | (a, w) :: r => if a = k then (k, v) :: r else (a, w) :: putList k v r

/-- Remove every cell of a key. -/
def delList {κ α : Type} [DecidableEq κ] (k : κ) : List (κ × α) → List (κ × α)
  | [] => []
  | (a, w) :: r => if a = k then delList k r else (a, w) :: delList k r

/-- The value a table holds at a key. -/
def Tab.look {κ α : Type} [DecidableEq κ] (t : Tab κ α) (k : κ) : Option α := lookList k t.cells

/-- A table with a value set at a key. -/
def Tab.put {κ α : Type} [DecidableEq κ] (t : Tab κ α) (k : κ) (v : α) : Tab κ α := ⟨putList k v t.cells⟩

/-- A table without a key. -/
def Tab.del {κ α : Type} [DecidableEq κ] (t : Tab κ α) (k : κ) : Tab κ α := ⟨delList k t.cells⟩

/-- A table with the value at a key changed where it is held. -/
def Tab.upd {κ α : Type} [DecidableEq κ] (t : Tab κ α) (k : κ) (f : α → α) : Tab κ α :=
  match t.look k with
  | none => t
  | some v => t.put k (f v)

/-- The keys a table holds. -/
def Tab.keys {κ α : Type} (t : Tab κ α) : List κ := t.cells.map (·.1)

/-- How many keys a table holds. -/
def Tab.size {κ α : Type} (t : Tab κ α) : Nat := t.cells.length

/-- The cells that a test keeps. -/
def Tab.keep {κ α : Type} (t : Tab κ α) (p : κ → α → Bool) : Tab κ α := ⟨t.cells.filter fun c => p c.1 c.2⟩

/-- A byte memory: Host cells in canonical form. -/
abbrev Memory := List Host.Cell

/-- The byte at an address; an unlisted address reads 0 (log 5). -/
def memGet : Memory → Nat → Byte
  | [], _ => 0
  | (a, v) :: r, k => if a = k then v else memGet r k

/-- Write one byte; the canonical form is kept. -/
def memPut (k : Nat) (v : Byte) : Memory → Memory
  | [] => if v = 0 then [] else [(k, v)]
  | (a, w) :: r =>
    if k < a then (if v = 0 then (a, w) :: r else (k, v) :: (a, w) :: r)
    else if k = a then (if v = 0 then r else (k, v) :: r)
    else (a, w) :: memPut k v r

/-- Every address of a memory lies above `lo`, strictly rising, and no cell is 0. -/
def memAbove : Option Nat → Memory → Bool
  | _, [] => true
  | lo, (a, v) :: r =>
    (match lo with | none => true | some l => decide (l < a)) && decide (v ≠ 0) && memAbove (some a) r

/-- The canonical form of a memory. -/
def Memory.wf (m : Memory) : Bool := memAbove none m

/-- Read `n` bytes from an address. -/
def memRead (m : Memory) (a : Nat) : Nat → List Byte
  | 0 => []
  | n + 1 => memGet m a :: memRead m (a + 1) n

/-- Write bytes from an address upward. -/
def memWrite (m : Memory) (a : Nat) : List Byte → Memory
  | [] => m
  | b :: bs => memWrite (memPut a b m) (a + 1) bs

/-- Write given (address, byte) pairs. -/
def memMerge (m : Memory) : List (Nat × Byte) → Memory
  | [] => m
  | (a, b) :: r => memMerge (memPut a b m) r

/-- Read an `n`-byte little-endian number (R11). -/
def memNat (m : Memory) (a n : Nat) : Nat := leNat (memRead m a n)

end Sys2Proof.Machine
end

