-- ==== Sys2Proof/Machine/Parts.lean ====
section
/-! DEFINITION. The parts of State that are no registers: what the chapters on jobs, queues, transport, remote
memory, translation, the host interface, management, faults and power give the machine to hold. The other
chapters' parts stand in Parts2. -/

namespace Sys2Proof.Machine

/-- Where an access goes: the bus of a host function, or package memory (R415). -/
inductive Loc where
  | host (f : Func) (addr : Nat)
  | pkg (addr : Nat)
  deriving DecidableEq, Repr

/-- The reset phases of the device (R490, R501). -/
inductive Phase where
  /-- Auxiliary reset is held: VDD_AUX low, or not yet 10 ms above 3.0 V. -/
  | auxHeld
  /-- Main reset is held: PWROK_MAIN low, or a sag not yet over. -/
  | mainHeld
  /-- Main or warm reset was released and its start-up runs (at most 50 ms). -/
  | starting
  /-- The device runs. -/
  | running
  deriving DecidableEq, Repr

/-- What a table of due times is keyed by: one constructor per kind of timed event. -/
inductive TimerKey where
  | auxRelease
  | mainUp
  | avs
  | pace
  | efReg (c : Nat)
  | keyReqRetry (slot : Nat)
  | keyReqUnanswered (slot : Nat)
  | keyFail (slot : Nat)
  | renewal (slot : Nat)
  | genSwitch (slot : Nat)
  | oldGen (slot : Nat)
  | renewalRepeat (slot : Nat)
  | genExpiry (slot : Nat)
  | closeManifest (slot : Nat)
  | epochErase (ctx : Nat)
  | challenge
  | fmSession (id : Nat)
  | coal (q : Nat)
  | wait (q : Nat)
  | nackRetry (ctx stream psn : Nat)
  | ackDelay (ctx stream : Nat)
  | rto (ctx stream : Nat)
  | ctxFail (ctx : Nat)
  | idleClose (ctx : Nat)
  | closeQuiet (ctx : Nat)
  | quiet (ctx : Nat)
  | revokeRepeat (slot window origin serial : Nat)
  | revokeFail (slot window : Nat)
  | quarantine (key : Nat)
  | coll (ctx inst : Nat)
  | rejoin (ctx : Nat)
  | mgDrop (out vc : Nat)
  | replay (p : Nat)
  | nackRepeat (p : Nat)
  | hello (p : Nat)
  | hold (p : Nat)
  | trainReq (p : Nat)
  | retrain (p : Nat)
  | drain (p : Nat)
  | laneReq (l : Nat)
  | fastPath (l : Nat)
  | fullTrain (l : Nat)
  | parent
  | holdover
  | extRef
  | budget (f t : Nat)
  | ferryTimer (f t k : Nat)
  | eventWait (f t : Nat)
  | quiesce (f : Func)
  | flr (f : Func)
  | settle
  | perst
  | completion (id : Nat)
  | trial
  | snapshot (k : Nat)
  deriving DecidableEq, Repr

/-- The event-log codes of the model, one per event that the manual says writes a record. Their numbers are
`Config.logCode` (log 8). -/
inductive LogCode where
  | accessViolation
  | authFailed
  | authentication
  | paceShort
  | paceGradient
  | keyExchange
  | keyExpired
  | headWrite
  | regRejected
  | noContext
  | contextFailed
  | loopError
  | linkDown
  | peerMismatch
  | laneFailed
  | timeStep
  | whistle
  | threadFault
  | translation
  | portError
  | bootFallback
  | trialFailed
  | sensor
  | update
  | fault
  | resetIgnored
  | powerRejected
  | lostRecords
  deriving DecidableEq, Repr

/-- An event-log record (R454). -/
structure LogRec where
  time : Nat
  seq : Nat
  sev : Nat
  block : Nat
  code : LogCode
  unit : Nat
  rep : Nat
  boot : Nat
  data : List Nat
  deriving DecidableEq, Repr

/-- When the records of one CODE of the last second were written and how many were suppressed since the last of them (R455). -/
structure LogRate where
  times : List Nat
  suppressed : Nat
  deriving DecidableEq, Repr

/-- One execution of a started entry (R133: an entry of a loop body has one per iteration). -/
structure Exec where
  index : Nat
  iter : Nat
  slots : Nat
  cmd : Cmd
  dest : Option Nat
  cancelling : Bool := false
  deriving DecidableEq, Repr

/-- A LOOP in progress (R132, R133): its body as (index, slots) and the execution to start next. -/
structure LoopRec where
  index : Nat
  cmd : LoopCmd
  body : List (Nat × Nat)
  iter : Nat
  pos : Nat
  active : Bool
  deriving DecidableEq, Repr

/-- An unsatisfied wait (R94): the entry, its command, and the machine time at which the queue entered WAIT. -/
structure WaitRec where
  index : Nat
  iter : Nat
  cmd : WaitCmd
  entered : Nat
  deriving DecidableEq, Repr

/-- The latched failing execution (R95, R98, R135): whether it failed after it was decoded, and its slots. -/
structure FailRec where
  index : Nat
  iter : Nat
  slots : Nat
  decoded : Bool
  dest : Option Nat := none
  deriving DecidableEq, Repr

/-- What a CANCEL has decided for an execution (R140). -/
inductive CancelOutcome where
  | none
  | part
  | late
  deriving DecidableEq, Repr

/-- A started CANCEL (R139, R140): its index, the named index, and the outcome once it is decided. -/
structure CancelRec where
  index : Nat
  named : Nat
  outcome : Option CancelOutcome := none
  failed : Bool := false
  deriving DecidableEq, Repr

/-- Why a queue holds its next command: for a manifest entry or landing units (R22), for another reason that the manual
holds it for as under R22 or under R79 or R85, or for the order of commands or room in a dispatch queue. -/
inductive HoldWhy where
  | entry
  | slots
  | order
  deriving DecidableEq, Repr

/-- What a queue holds beside its registers: `cursor` is the next index to start; `fetched` the entries read and
not yet passed; `reads` the ring reads in flight (first index, count); `started` the executions in start order;
`done` the completed entries the head has not passed (index, slots); `skipped` those among them that a SKIP-IF skipped;
`doneExecs` the completed executions of loop bodies (index, iteration); `top` the latest index started since the queue was bound (R96);
`seconds` the second slots that the head has passed (R139). -/
structure QSt where
  cursor : Nat := 0
  fetched : Tab Nat (List Byte) := {}
  reads : List (Nat × Nat) := []
  started : List Exec := []
  doneExecs : List (Nat × Nat) := []
  done : List (Nat × Nat) := []
  skipped : List Nat := []
  loops : List LoopRec := []
  wait : Option WaitRec := none
  resume : Option Bool := none
  failed : Option FailRec := none
  fails : List FailRec := []
  cancels : List CancelRec := []
  unpub : Nat := 0
  ep : Nat := 0
  noJob : Bool := true
  held : Option HoldWhy := none
  top : Option Nat := none
  seconds : List Nat := []
  deriving DecidableEq, Repr

/-- Who waits for an operation: the execution of a queue's entry, a receive that pulls (R228), or a ferry thread's unit
operation (R377). -/
inductive Owner where
  | exec
  | pull (id : Nat)
  | unit (f t op : Nat)
  deriving DecidableEq, Repr

/-- A manifest entry: one operation in flight at its requester (R206). `blk` is its operation block, `data` the bytes that
its entry carries itself, `total` how many bytes move. `nextOff` is the offset of the next source read, `injected` counts
DATA packets injected; `got` counts response bytes placed, `inBytes` those admitted (R182), and `placing` those being placed; `rdv` marks a rendezvous SEND,
whose pull was admitted (`pulled`) and has ended (`pullOver`). -/
structure MEntry where
  queue : Nat
  index : Nat
  iter : Nat
  slot : Nat
  ctx : Nat
  blk : OpBlock
  total : Nat
  data : List Byte := []
  ord : Bool := false
  rlx : Bool := false
  nextOff : Nat := 0
  injected : Nat := 0
  lastQueued : Bool := false
  lastInjected : Bool := false
  aborted : Bool := false
  grant : Nat := 0
  status : Option (Nat × Nat) := none
  got : Nat := 0
  placing : Nat := 0
  land : Nat := 0
  cancel : Option CancelOutcome := none
  localFail : Option Nat := none
  rdv : Bool := false
  pulled : Bool := false
  pullOver : Bool := false
  owner : Owner := .exec
  asid : Nat := 0
  func : Func := 0
  laddr : Nat := 0
  reading : Bool := false
  host : Bool := false
  inBytes : Nat := 0
  deriving DecidableEq, Repr

/-- A transmitted packet that is not yet acknowledged (R162, R169): `lost` says that its retransmission is under way, `fast`
that R169 has retransmitted it once without the timer, `notBefore` when a NACK-BUSY lets it go (R165). -/
structure Sent where
  pkt : Packet
  sentAt : Nat
  notBefore : Nat := 0
  fast : Bool := false
  lost : Bool := false
  deriving DecidableEq, Repr

/-- A send stream (R152, R168, R179). Times are in ticks, the rate in units of 100 Mb/s, the bucket in 1/320 byte,
which is what one unit of rate fills in one tick. `cum` is the CUM that the receiver has reported, `backed` says that the
timer has doubled RTO since it last advanced. -/
structure SendStream where
  next : Nat := 0
  cum : Nat := 0
  backed : Bool := false
  una : List Sent := []
  waiting : List Packet := []
  resend : List Packet := []
  srtt : Option Nat := none
  rttvar : Nat := 0
  rto : Nat := 0
  rate : Nat := 0
  bucket : Nat := 0
  filledAt : Nat := 0
  lastDec : Nat := 0
  lastInc : Nat := 0
  run : Nat := 0
  deriving DecidableEq, Repr

/-- A receive stream (R153, R156, R161). `map` lists the PSNs admitted at or after CUM; `store` the packets
that wait for their place in sequence. -/
structure RecvStream where
  cum : Nat := 0
  map : List Nat := []
  store : List Packet := []
  npkt : Nat := 0
  nmark : Nat := 0
  hops : Nat := 0
  owd : Nat := 0
  echoTs : Nat := 0
  grant : Option (Nat × Nat) := none
  deriving DecidableEq, Repr

/-- The state of a transport context. -/
inductive CtxState where
  | opened
  | closing
  | quiet
  deriving DecidableEq, Repr

/-- A transport context (R147, R158, R172). Stream 0 is the request stream, 1 the response stream, and a
context between collective endpoints has stream 2 alone. `rxEpoch` is the epoch that its peer's packets of the generation in use have
reached, `rxNext` that one of the epoch after it has come (R61); `rxOther` gives both for another generation, by GEN. -/
structure Ctx where
  slot : Nat
  job : Nat
  loc : Nat
  rem : Nat
  session : Nat
  state : CtxState := .opened
  coll : Bool := false
  opening : Bool := true
  fresh : Bool := true
  cached : Bool := true
  fetching : Bool := false
  used : Nat := 0
  noIdle : Nat := 0
  waitClose : Bool := false
  jobClose : Bool := false
  epoch : Nat := 0
  txc : Nat := 0
  rxEpoch : Nat := 0
  rxNext : Bool := false
  rxOther : Tab Nat (Nat × Bool) := {}
  progress : Nat := 0
  snd : Tab Nat SendStream := {}
  rcv : Tab Nat RecvStream := {}
  deriving DecidableEq, Repr

/-- What a freed context leaves for a CLOSE-ACK of the session that it had (R60, R173): its session, epoch and transmission counter, and
the next PSNs of its streams. -/
structure ClosedCtx where
  session : Nat
  epoch : Nat
  txc : Nat
  req : Nat
  resp : Nat
  deriving DecidableEq, Repr

/-- A window's descriptor (R185). -/
structure Descr where
  base : Nat
  length : Nat
  asid : Nat
  func : Func
  rights : Nat
  ao : Bool
  deriving DecidableEq, Repr

/-- An operation at its target (R163, R166, R188): keyed by context and MTAG. `busy` counts its accesses in flight, `host` says
that it wrote host memory of the function `port` since the last flush, `fail` is the failing packet of lowest OFFSET with its cause,
`result` the status entry once it is decided, `tallied` says that RTALLY was incremented. A GET holds its descriptor `d`; a
pull names in `pull` the manifest entry it reads for; `held` says that its presentation was held and counted (R223); `inBytes` counts
the data bytes admitted (R182). -/
structure TOp where
  slot : Nat
  blk : OpBlock
  read : Bool := false
  busy : Nat := 0
  port : Option Nat := none
  lastSeq : Bool := false
  fail : Option (Nat × Nat) := none
  aborted : Bool := false
  value : Nat := 0
  d : Option Descr := none
  pull : Option Nat := none
  nextOff : Nat := 0
  tallied : Bool := false
  statusQueued : Bool := false
  grant : Nat := 0
  key : Nat := 0
  win : Bool := true
  msg : Option Nat := none
  held : Bool := false
  kept : Bool := false
  result : Option (Nat × Nat) := none
  host : Bool := false
  inBytes : Nat := 0
  deriving DecidableEq, Repr

/-- A creditable operation at the receiver of its data (R182): `units` beyond the first 64 KiB, `bytes` admitted. -/
structure Credit where
  ctx : Nat
  stream : Nat
  mtag : Nat
  units : Nat
  granted : Nat
  filled : Nat
  bytes : Nat := 0
  deriving DecidableEq, Repr

/-- What an access of a mover or of the host interface is for. -/
inductive XferKind where
  /-- Read of the source bytes of a DATA packet; `re` names the PSN of a retransmission. -/
  | source (mtag off len : Nat) (re : Option Nat)
  /-- Write of a PUT or PUTI packet at its target. -/
  | place (ctx mtag off : Nat)
  /-- Read of the bytes of a RESP-DATA packet at the target. -/
  | serve (ctx mtag off len : Nat) (re : Option Nat)
  /-- Write of response bytes at the requester. -/
  | land (mtag off len : Nat)
  /-- Write of a fetched old value at RESULT. -/
  | result (mtag : Nat)
  /-- The flushing read of a target operation (R189). -/
  | flushT (ctx mtag : Nat)
  /-- The flushing read of a requester's operation (R437). -/
  | flushM (mtag : Nat)
  /-- An ATOMIC in the atomic unit of package memory (R195). -/
  | memAtomic (ctx mtag : Nat)
  /-- A host AtomicOp of a target operation (R193); `tries` counts CAS mismatches. -/
  | hostAtomic (ctx mtag tries : Nat) (expect : Option Nat)
  /-- A copy of an eager message to a receive buffer. -/
  | recv (id off : Nat)
  /-- A write of a status record, then completion of the receive. -/
  | recvStatus (id : Nat)
  /-- The flushing read before a receive's tally (R437). -/
  | recvFlush (id : Nat)
  /-- A copy of an unexpected message to its receive buffer (R224). -/
  | unexpected (id : Nat)
  /-- A MOVE COPY or FILL of a ferry thread. -/
  | move (f t op : Nat)
  /-- The flushing read of a MOVE (R373). -/
  | moveFlush (f t op : Nat)
  /-- A collective's read or write of local memory. -/
  | collSrc (ctx inst : Nat)
  | collDst (ctx inst elem : Nat)
  | collFwd (ctx inst node elem : Nat)
  | collFlush (ctx inst : Nat)
  /-- The flushing read of an INVALIDATE (R421). -/
  | invalFlush
  deriving DecidableEq, Repr

/-- A mover transfer or host request in flight (R27). -/
structure Xfer where
  kind : XferKind
  write : Bool
  segs : List (Loc × Nat)
  bytes : List Byte := []
  mover : Nat := 0
  rlx : Bool := false
  deriving DecidableEq, Repr

/-- The states of a window (R196). -/
inductive WinState where
  | closed
  | opened
  | revoking
  | barred
  deriving DecidableEq, Repr

/-- A window of a job (R196), with the command that revokes it; `doneSeen` says that its revocation is confirmed and that it waits for
accesses of operations admitted before (R200). -/
structure Window where
  state : WinState
  d : Descr
  src : Option (CmdSrc × TallyField) := none
  serial : Nat := 0
  doneSeen : Bool := false
  deriving DecidableEq, Repr

/-- A leaf record of a region (R202): where `size` bytes from `from` on stand. -/
structure Leaf where
  start : Nat
  size : Nat
  loc : Loc
  deriving DecidableEq, Repr

/-- A keyed region (R202, R528). -/
structure Region where
  slot : Nat
  job : Nat
  d : Descr
  leaves : List Leaf
  live : Bool := true
  cached : Bool := true
  src : Option (CmdSrc × TallyField) := none
  deriving DecidableEq, Repr

/-- A revocation at a member (R198, R199). `origin` and `serial` name it beside the window. A record with `asOrigin` is the
revoking device's own, which waits for DONE; the others are members of the tree, the leader's with `root`. `parents` are the
nodes that sent REVOKE and get CONFIRM, `waitFor` the children that have not confirmed, `marked` the packets (context, session,
PSN) still to be acknowledged. -/
structure Revoke where
  slot : Nat
  window : Nat
  origin : Nat
  serial : Nat
  asOrigin : Bool := false
  root : Bool := false
  parents : List Nat := []
  waitFor : List Nat := []
  marked : List (Nat × Nat × Nat) := []
  sentAt : Nat := 0
  repeats : Nat := 0
  confirmed : Bool := false
  deriving DecidableEq, Repr

/-- A job slot (R55, R56, R62, R144). Generations are counted from 0; `keys` holds K[g] of those that the security engine holds, `eph` the
private part of the ephemeral key of the KEY-REQ that awaits its answer (R56). -/
structure Job where
  members : List (Nat × Nat) := []
  pos : Nat := 0
  asids : List Nat := []
  tallyBase : Nat := 0
  tallyCount : Nat := 0
  accepted : List (Nat × Nat) := []
  whistleMask : Nat := 0
  whistleTally : Nat := 0
  serial : Nat := 0
  notAfter : Nat := 0
  sealOut : Bool := false
  blob : Nat := 0
  openSrc : Option (CmdSrc × TallyField) := none
  closeSrc : Option (CmdSrc × TallyField) := none
  keys : Tab Nat Nat := {}
  eph : Nat := 0
  gen : Nat := 0
  genStart : Nat := 0
  reqTo : Nat := 0
  reqFails : Nat := 0
  leaderPos : Nat := 0
  confirmed : List Nat := []
  confirmSent : Bool := false
  switchAt : Option Nat := none
  deriving DecidableEq, Repr

/-- The job's generations whose keys the security engine holds. -/
def Job.held (b : Job) : List Nat := b.keys.cells.map (·.1)

/-- The key of the held generation that GEN, a generation modulo 4, names (R62). -/
def Job.keyOf (b : Job) (gen : Nat) : Option Nat := (b.keys.cells.find? fun k => decide (k.1 % 4 = gen)).map (·.2)

/-- A fabric-manager session (R53, R54). -/
structure FmSession where
  id : Nat
  notAfter : Nat
  used : Nat
  counter : Option Nat
  key : Nat
  deriving DecidableEq, Repr

/-- An SPDM session (R71): where it runs, the transcript that FINISH is signed over, its key, and whether FINISH has come. -/
structure Spdm where
  id : Nat
  via : SpdmVia
  th : List Byte
  key : Nat
  finished : Bool := false
  deriving DecidableEq, Repr

/-- An IDE stream of a port (R72): its key once IDE_KM has programmed one, and whether it is active. -/
structure IdeStream where
  key : Option Nat := none
  active : Bool := false
  deriving DecidableEq, Repr

/-- What a host function holds beside its registers (R427, R435, R438). `unmasked` lists the MSI-X vectors whose
mask bit is clear, `pendingVec` those whose pending bit is set. -/
structure FnSt where
  bme : Bool := false
  relaxed : Bool := true
  d3 : Bool := false
  /-- The Completion Timeout Value in ticks, 0 where it is not set (R427). -/
  timeout : Nat := 0
  unmasked : List Nat := []
  pendingVec : List Nat := []
  heldHeads : List Nat := []
  heldVecs : List Nat := []
  /-- The dwords of the MSI-X table that are not 0, mask bits apart. -/
  table : Tab Nat Nat := {}
  deriving DecidableEq, Repr

/-- Where a cached translation came from and what it holds (R419). Level 0 to 2 leaves, or pointers. -/
structure TxEntry where
  slot : Nat
  level : Nat
  base : Nat
  leaf : Bool
  loc : Bool
  addr : Nat
  r : Bool
  w : Bool
  deriving DecidableEq, Repr

/-- An INVALIDATE that waits for requests in flight, then for flushing reads of the functions in `flush` (R421). -/
structure Inval where
  src : CmdSrc × TallyField
  waitFor : List Nat
  flush : List Func := []
  deriving DecidableEq, Repr

/-- What an e-fuse channel holds beside its registers (R497, R500): the FET's rise in units of 10^-12 degrees, how many
ticks REG has been set in total, and when REG last changed. -/
structure EfSt where
  rise : Nat := 0
  regAcc : Nat := 0
  regAt : Nat := 0
  deriving DecidableEq, Repr

/-- The governor's outstanding request (R39, R42). -/
structure AvsReq where
  volt : Nat
  attempts : Nat
  deriving DecidableEq, Repr

/-- One flash slot of an image type: its container's SECVER, BUILD and payload, and whether its signature and TYPE verify (R457, R458). -/
structure ImgSlot where
  secver : Nat := 0
  build : Nat := 0
  ok : Bool := false
  payload : List Byte := []
  deriving DecidableEq, Repr

/-- The two flash slots of one image type, and the ACTIVE slot before a trial (R457, R458). -/
structure Image where
  a : ImgSlot := {}
  b : ImgSlot := {}
  prev : Nat := 0
  deriving DecidableEq, Repr

/-- The live procedure of an image type (R461, R462): the unit in update and whether its step has begun, the units still to come, the
types whose procedures wait. -/
structure Live where
  ptype : Nat
  unit : Nat
  begun : Bool
  rest : List Nat
  queue : List Nat := []
  deriving DecidableEq, Repr

/-- A ROUTE-WRITE or ROUTE-COMMIT whose checks before the crossing passed and that waits for its turn there (R299, R462): table, first entry
and entries; or ARG. -/
inductive RouteJob where
  | write (table first : Nat) (vs : List Nat)
  | commit (arg : Nat)
  deriving DecidableEq, Repr

/-- A pending snapshot (R483); `data` is its record once it is captured. -/
structure Snap where
  src : CmdSrc × TallyField
  t : Nat
  dest : Nat
  captured : Bool := false
  seq : Nat := 0
  data : List Byte := []
  deriving DecidableEq, Repr

end Sys2Proof.Machine
end

