-- ==== Sys2Proof/Machine/Parts2.lean ====
section
/-! DEFINITION. The parts of State that are no registers: what the chapters on matching, collectives, machine time,
engine code, the wharf and the locks give the machine to hold. -/

namespace Sys2Proof.Machine

/-! ## Matching -/

/-- A match space (R212). -/
structure Space where
  slot : Nat
  ep : Nat
  comm : Nat
  deriving DecidableEq, Repr

/-- Who posted a receive: a queue's execution, or a unit operation of a ferry thread (R234, R375). -/
inductive RecvOwner where
  | exec (q i iter : Nat)
  | unit (f t op : Nat)
  deriving DecidableEq, Repr

/-- What of a matched receive is still to do (R122, R437). -/
inductive RecvStage where
  | posted
  | data
  | status
  | flush
  deriving DecidableEq, Repr

/-- A posted or matched receive (R214 to R218). -/
structure Recv where
  space : Space
  anySrc : Bool
  anyTag : Bool
  srcRank : Nat
  tag : Nat
  rlx : Bool
  func : Func
  asid : Nat
  buf : Nat
  length : Nat
  status : Nat
  owner : RecvOwner
  stamp : Nat := 0
  chip : Bool := true
  stage : RecvStage := .posted
  msg : Nat := 0
  time : Nat := 0
  placed : Nat := 0
  busy : Nat := 0
  host : Bool := false
  pulled : Bool := false
  pullDone : Bool := false
  truncated : Bool := false
  fail : Option Nat := none
  deriving DecidableEq, Repr

/-- A presented message (R219 to R225): unexpected, claimed, or matched to receive `recv`. `place` lists the units of the unexpected store
that an eager message holds, `stored` says how many of its bytes lie there, `copied` that a match has moved them on (R222, R224). -/
structure Msg where
  space : Space
  rem : Nat
  rank : Nat
  tag : Nat
  sent : Nat
  rdv : Bool
  handle : Nat
  ctx : Nat
  mtag : Nat
  stamp : Nat
  chip : Bool := true
  entry : Bool := false
  place : List Nat := []
  stored : Nat := 0
  copied : Bool := false
  recv : Option Nat := none
  claimed : Bool := false
  lastIn : Bool := false
  cut : Bool := false
  deriving DecidableEq, Repr

/-! ## Collectives -/

/-- A child of a tree edge (R241). -/
structure Child where
  node : Nat
  first : Nat
  last : Nat
  deriving DecidableEq, Repr

/-- An instance (R246, R247). Source 0 is this device, source n + 1 child n. `parts` holds the contributions by
(source, element), `got` how many elements of each source are complete, `sentUp` how many are combined; `res` the
result's elements known so far, `fed` how many each child was sent; `wrote` counts the elements of DST written.
`spans` lists the elements of DST written, as (first, how many), `reading` the children for which a read of DST is under way, `hold` the
result's elements that wait for their half of RETAIN (R248). `done` says that the instance has completed here and only forwards;
`rejoin` that it rejoins, with its REJOIN repeated at `rejoinAt` (R264), `replay` that its result is a replayed one. -/
structure CollInst where
  num : Nat
  q : Nat
  i : Nat
  iter : Nat
  cmd : CollCmd
  armed : Bool := false
  contributing : Bool := false
  joined : List Nat := []
  joinSent : Bool := false
  parts : Tab (Nat × Nat) Partial := {}
  got : Tab Nat Nat := {}
  sentUp : Nat := 0
  res : List Nat := []
  fed : Tab Nat Nat := {}
  wrote : Nat := 0
  spans : List (Nat × Nat) := []
  reading : List Nat := []
  hold : List Nat := []
  busy : Nat := 0
  host : Bool := false
  down : Bool := false
  flushing : Bool := false
  done : Bool := false
  rejoin : Bool := false
  rejoinAt : Nat := 0
  replay : Bool := false
  deriving DecidableEq, Repr

/-- A built collective context (R241, R245). `credits` counts the landing credits toward each neighbour, `freed` the
slots to report to it (R259); `slots` lists the landing slots that the build reserves, `room` the free ones of each neighbour,
`landing` the slot of each data packet that lies in one, by neighbour and PSN. `pending` holds the packets that wait for a credit or an
edge, `early` the packets of instances that this device has not started, with their PSNs, `held` the instances whose result RETAIN
holds (R248), `past` the commands of the last instances that completed here (R249); `rejoins` lists the children whose REJOIN was
recorded, by instance, `asked` the instances for which a REJOIN went to the parent, `reruns` those whose RERUN came before this device
could begin (R264); `failedAt` is the instance of the FAIL that the context has taken (R263). -/
structure CollCtx where
  slot : Nat
  root : Nat
  parent : Option Nat
  members : Nat
  pos : Nat
  first : Nat
  last : Nat
  children : List Child
  land : Nat
  timeout : Nat
  maxBytes : Nat
  build : Nat
  retain : Nat
  credits : Tab Nat Nat := {}
  freed : Tab Nat Nat := {}
  pending : List (Nat × CollHdr × CollData) := []
  slots : List Nat := []
  room : Tab Nat (List Nat) := {}
  landing : Tab (Nat × Nat) Nat := {}
  early : List (Nat × Nat × CollHdr) := []
  rejoins : List (Nat × Nat) := []
  asked : List Nat := []
  reruns : List Nat := []
  insts : List CollInst := []
  held : List Nat := []
  past : List (Nat × CollCmd) := []
  failedAt : Option Nat := none
  deriving DecidableEq, Repr

/-! ## Machine time -/

/-- A neighbour's announced candidate (R351), and when it came. -/
structure Announce where
  serial : Nat
  prio : Nat
  depth : Nat
  holdover : Bool
  ext : Bool
  deriving DecidableEq, Repr

/-- The servo (R351 to R356): the adopted candidate, what each port announced, the last TIME flit sent and received
on each port, the correction still to be slewed, the ticks for which the count is held. -/
structure Servo where
  gmSerial : Nat := 0
  gmPrio : Nat := 128
  self : Bool := true
  ann : Tab Nat Announce := {}
  sent : Tab Nat Nat := {}
  got : Tab Nat (Nat × Nat) := {}
  steady : Nat := 0
  everLocked : Bool := false
  steppedOnce : Bool := false
  ext : Bool := false
  pps : Option Nat := none
  slew : Int := 0
  hold : Nat := 0
  phase : Nat := 0
  deriving DecidableEq, Repr

/-- A pending firing of a whistle line (R359): its time, and the owning job's ID, or none for the fabric manager. -/
structure Firing where
  time : Nat
  job : Option Nat
  deriving DecidableEq, Repr

/-! ## Ferries -/

/-- A handler entry (R382). -/
structure HEntry where
  callable : Bool
  remote : Bool
  prio : Nat
  threads : Nat
  pc : Nat
  budget : Nat
  deriving DecidableEq, Repr

/-- What started an invocation (the dispatch table). -/
inductive EvKind where
  | work
  | call (q i iter : Nat)
  | hmsg (ctx mtag : Nat)
  | mcast
  | whistle
  | post
  deriving DecidableEq, Repr

/-- An event that waits in a dispatch queue (R383). -/
structure DEvent where
  kind : EvKind
  entry : Nat
  slot : Nat
  asid : Nat
  args : List (Nat × Nat)
  payload : List Byte
  deriving DecidableEq, Repr

/-- What a sleeping thread waits for (R363). -/
inductive Sleep where
  | unit (op : Nat)
  | tally (rd n threshold : Nat)
  | lock (rd n : Nat)
  | event (rd : Nat)
  | full
  deriving DecidableEq, Repr

/-- A descriptor operation that has not completed (R375, R376): `writes` says that it writes host or package memory (R374); a MOVE
writes to the local address `dst`, or to `segs` where they are given. -/
structure UnitOp where
  op : Nat
  unit : Nat
  fn : Nat
  desc : Nat
  done : Bool
  ctally : TallyField
  w : Bool
  rd : Nat
  writes : Bool
  dst : Nat := 0
  segs : List (Loc × Nat) := []
  deriving DecidableEq, Repr

/-- A running invocation: `slot` is its job slot, none for a system invocation. `pc` counts in instruction memory. -/
structure Invoc where
  slot : Option Nat
  entry : Nat
  prio : Nat
  kind : EvKind
  asid : Nat
  pc : Nat
  g : Tab Nat Nat := {}
  p : Tab Nat Bool := {}
  replied : Bool := false
  sleep : Option Sleep := none
  ending : Option Nat := none
  inbox : List Byte := []
  deriving DecidableEq, Repr

/-- A thread: its invocation, its unit operations (those of an invocation that ended run on as orphans), its event
records as (KIND, code, data), its timers with their tags. -/
structure Thread where
  inv : Option Invoc := none
  ops : List UnitOp := []
  orphans : List UnitOp := []
  events : List (Nat × Nat × Nat) := []
  timers : Tab Nat Nat := {}
  -- consecutive issue slots that it was ready for and did not get (R366)
  passed : Nat := 0
  deriving DecidableEq, Repr

/-- A ferry beside its registers: its dispatch queue, its handler entries, LINE_ENTRY of the job image, and what its
drain completes to. -/
structure Ferry where
  queue : List DEvent := []
  entries : Tab Nat HEntry := {}
  lineEntry : List Nat := []
  drainSrc : Option (CmdSrc × TallyField) := none
  -- the thread that it issued last (R366)
  issued : Nat := 15
  deriving DecidableEq, Repr

/-! ## Wharf and locks -/

/-- The state of the one copy of a line that answers others (R392). -/
inductive LineState where
  | written
  | kept
  | pilot
  deriving DecidableEq, Repr

/-- A directory entry (R394): the line, its holder with its state, its crew, and those of the crew that dropped their copy
without telling the home (R396). -/
structure Line where
  addr : Nat
  holder : Option (Nat × LineState)
  crew : List Nat
  gone : List Nat := []
  deriving DecidableEq, Repr

/-- A hardware lock (R403, R404): waiters by identity in arrival order, with the priority of a host waiter. -/
structure Lock where
  owner : Option Nat := none
  orphaned : Bool := false
  waiters : List Nat := []
  deriving DecidableEq, Repr

end Sys2Proof.Machine
end

