-- ==== Sys2Proof/Machine/Parts3.lean ====
section
/-! DEFINITION. The parts of State that are no registers: what the chapters on routing, the link layer and the lanes give
the machine to hold. -/

namespace Sys2Proof.Machine

/-! ## The crossing -/

/-- One copy of a packet in the crossing: its output, the VC of the hop (0 or 1), the ROUTE bits that the hop sets, how
many 16-byte segments have left, since when it waits, and when it was granted its output. -/
structure Leg where
  out : Nat
  chan : Nat
  detour : Bool
  mark : Bool
  sent : Nat := 0
  started : Bool := false
  since : Nat := 0
  granted : Nat := 0
  deriving DecidableEq, Repr

/-- A packet in the crossing: where it entered, the VC it arrived on (2 × class + channel), the bytes of the segments that are in, whether its units
are counted, whether this router has marked it (R281), its copies that have not left, how many units of its input buffer are freed (R316). -/
structure Transit where
  inPort : Nat
  inVc : Nat
  raw : List Byte
  whole : Bool
  counted : Bool := false
  marked : Bool := false
  decided : Bool := false
  mcast : Bool := false
  legs : List Leg := []
  freed : Nat := 0
  deriving DecidableEq, Repr

/-- The arbiter of a crossbar output (R410, R411): the input it granted last, and the durations of its last 16 grants. -/
structure Arbiter where
  owner : Nat := 79
  grants : List Nat := []
  deriving DecidableEq, Repr

/-! ## Links -/

/-- A port beside its registers (R311 to R330). `replay` holds the sequenced flits from ACKED to TX_SEQ - 1, `resend` those
still to be resent; `sentU`, `retU` and `freedU` count units per VC; `opened` is the packet open on a VC; `group` lists the lanes in
use, `goal` the (WIDTH, RATE) agreed for the present training; `peerEpoch` is the partner's EPOCH. `cwOut` counts the codewords sent,
`half` is the first flit of the next one; `cwIn` is the place expected next, twice CW_SEQ and 1 for a second flit (R303, R304). -/
structure Link where
  replay : List Flit := []
  resend : List Flit := []
  replayOf : Option Nat := none
  nackSent : Bool := false
  nackDue : Bool := false
  sentU : Tab Nat Nat := {}
  retU : Tab Nat Nat := {}
  freedU : Tab Nat Nat := {}
  ded : Nat := 96
  peerDed : Nat := 96
  cvc : Nat := 0
  opened : Tab Nat Nat := {}
  aborts : List Nat := []
  cong : Nat := 0
  congAt : Nat := 0
  notices : List Notice := []
  noticesIn : List Notice := []
  init : Bool := true
  held : Bool := false
  helloDue : Bool := false
  helloSent : Bool := false
  peerEpoch : Nat := 0
  trainDue : Option Train := none
  trainReq : Option Train := none
  reason : Nat := 0
  group : List Nat := []
  goal : Nat × Nat := (0, 0)
  disabling : Bool := false
  lostAt : Option Nat := none
  recal : Option (Nat × Nat) := none
  cwOut : Nat := 0
  half : Option Nat := none
  cwIn : Option Nat := none
  deriving DecidableEq, Repr

/-! ## Lanes -/

/-- A request of a receiver to the far transmitter (R334). -/
structure LaneReq where
  cmd : Nat
  tap : Nat
  dir : Bool
  preset : Nat
  deriving DecidableEq, Repr

/-- A lane beside its registers (R333 to R349): the stored coefficient sets by RATE, whether it trains and by which path,
its receiver's readiness, its outstanding request, the echo it reports, the partner's LANE_OK, whether recalibration was
already deferred. -/
structure Lane where
  stored : Tab Nat (List Int) := {}
  training : Bool := false
  fast : Bool := false
  rxReady : Bool := false
  sendTrained : Bool := false
  seq : Nat := 0
  req : Option LaneReq := none
  echo : Nat := 0
  result : Nat := 0
  start : Nat := 0
  laneOk : Nat := 0
  lastFull : Nat := 0
  deferred : Bool := false
  deriving DecidableEq, Repr

end Sys2Proof.Machine
end

