-- ==== Sys2Proof/Machine/State.lean ====
section
/-! DEFINITION. The state of the block, plain data, and the machine right after reset. -/

namespace Sys2Proof.Machine

/-- Why a step stops with a fault. -/
inductive Fault where
  /-- Raised by nobody: every event of this block that the manual calls a fault is an effect on State. Safe. -/
  | unused
  deriving DecidableEq, Repr

/-- Why a command is refused. -/
inductive Refusal where
  /-- The command has no meaning in this model yet. Raised by `exec` alone. Safe: the machine stops where the
  hardware goes on. -/
  | notModelled (mnemonic : String)
  deriving DecidableEq, Repr

/-- A message that leaves the block (log 7). -/
inductive Out where
  /-- A host write request, with its relaxed-ordering attribute. -/
  | hostWrite (f : Func) (addr : Nat) (bytes : List Byte) (rlx : Bool)
  /-- A host read request, its length 0 for a flushing read (R189). -/
  | hostRead (f : Func) (addr len : Nat)
  /-- A host AtomicOp request (R193): 0 FetchAdd, 1 Swap, 2 CAS, its operand and, of a CAS, its compare value. -/
  | hostAtomic (f : Func) (addr len kind operand compare : Nat) (rlx : Bool)
  /-- An MSI-X message (R435). -/
  | msix (f : Func) (vec : Nat)
  /-- The answer to a host read, or UR (R426, R433); `poisoned` is the EP bit. -/
  | hostReply (f : Func) (value : Option Nat) (poisoned : Bool)
  /-- A packet that enters the crossing on an internal port. -/
  | packet (p : Packet)
  /-- A packet that leaves the crossing on an internal port. -/
  | forward (out : Nat) (vc : Nat) (bytes : List Byte)
  /-- A codeword on a lane, as 544 symbols of 10 bits, symbol i in bits 10 i to 10 i + 9 (R303). -/
  | codeword (lane : Nat) (word : Nat)
  /-- CONTROL, STATUS and CHECK of a lane training frame, as symbols 64 to 159 carry them (R333). -/
  | frame (l : Nat) (w : Nat)
  /-- The lane training pattern on a port whose flits stopped (R473). -/
  | pattern (p : Nat)
  /-- Iamel's reply to a Welrirel message (R450). -/
  | status (req result cause : Nat)
  /-- Records that a LOG-READ returns. -/
  | records (req : Nat) (rs : List LogRec)
  /-- Iamel's answer on MCTP or PLDM. -/
  | mgmt (code value : Nat)
  /-- The MCTP message types that Iamel accepts (R449). -/
  | mctpTypes (ts : List Nat)
  /-- An SPDM answer (R71). -/
  | spdm (via : SpdmVia) (r : SpdmRsp)
  /-- A request to the core regulator, in mV (R39). -/
  | avs (mv : Nat)
  /-- ALIVE toggling or held low (R474). -/
  | alive (on : Bool)
  /-- SAG_WARN_N driven low or released (R493). -/
  | sagWarn (low : Bool)
  /-- EFA_PG_N driven low or released (R498). -/
  | efaPg (low : Bool)
  /-- The gate of an e-fuse channel charged or pulled down (R496). -/
  | gate (c : Nat) (on : Bool)
  /-- HB_PERST_N asserted or released (R444). -/
  | perst (asserted : Bool)
  /-- A slot indicator LED (R443). -/
  | led (attn : Bool) (v : Nat)
  /-- A TRIG output pulse (R361). -/
  | trig (k width : Nat)
  /-- An AER report of an uncorrectable internal error (R473). -/
  | aer (f : Func)
  /-- A renewal message of a job slot to a node, whose layout the manual does not give (R62): 1 confirmation, 2 SWITCH at a time. -/
  | renewal (kind job node value : Nat)
  /-- A value that a register or memory read returns. -/
  | value (v : Nat)
  deriving DecidableEq, Repr

/-- The state of the block. -/
structure State where
  /-- The commands that wait, first in, first out. -/
  pending : List Instr := []
  /-- Machine time in ticks (R351). -/
  now : Nat := 0
  variant : Variant := .wln7230
  phase : Phase := .running
  /-- PWROK_MAIN, and the straps that main and auxiliary reset sample. -/
  pwrok : Bool := true
  strapMg : Nat := 0
  strapHb : Nat := 0
  /-- The supplies whose sag reset still waits for their release (R494). -/
  sagHeld : List Supply := []
  /-- The register fields that differ from their reset value, by field and instance. -/
  regs : Tab (Fld × Nat) Nat := {}
  /-- The wharf and package memory by internal address. -/
  mem : Memory := []
  /-- 64-byte lines of the wharf that carry the poison mark (R398), by line address. -/
  poison : List Nat := []
  /-- The host memories, the surroundings' own: port p's address a stands at p * 2^64 + a. -/
  hostMem : Memory := []
  /-- The 64-byte lines of host and package memory whose reads fail, the surroundings' own (log 5): host lines by host key / 64, package lines by
  (2^65 + internal address) / 64. -/
  badReads : List Nat := []
  /-- The ferries' private scratch: ferry f's offset o stands at f * 2^16 + o. -/
  scratch : Memory := []
  /-- The tallies that have been written; every other tally is 0 (R105, log 6). -/
  tallies : Tab Nat Nat := {}
  /-- The timers that run, with their due times. -/
  timers : Tab TimerKey Nat := {}
  /-- What left the block, oldest first (log 7). -/
  out : List Out := []
  /-- The counter that free values are read at (log 8), the model's own. -/
  free : Nat := 0
  /-- The number that the next transfer, context or message takes, the model's own. -/
  nextId : Nat := 1
  -- power and pace
  avs : Option AvsReq := none
  -- the pace regions whose gradient warning stands (R38)
  gradients : List Nat := []
  -- HB_PERST_N is asserted (R443)
  perst : Bool := true
  ef : Tab Nat EfSt := {}
  -- the unit in per-unit reset, as (KIND, INDEX) (R503), and the ferries that PARKED drained (R492)
  unitInReset : Option (Nat × Nat) := none
  parked : List Nat := []
  boots : Nat := 0
  -- trust
  -- the fused digests of the authority slots, the digest of the Welrirel root key, the device's identity key, certificate chain and sealing secret
  -- (R49, R66, R68)
  authDigests : List (List Byte) := []
  rootDigest : List Byte := []
  identity : Nat := 1
  chain : List Cert := []
  sealSecret : Nat := 0
  openSerial : Nat := 0
  grants : List Nat := []
  fmSessions : List FmSession := []
  -- the measurement slots that are not 0, each of 48 bytes (R69)
  meas : Tab Nat (List Byte) := {}
  challenge : Option Nat := none
  ownerAccepted : Bool := false
  spdm : List Spdm := []
  -- the IDE streams by port and stream, 0 the link stream (R72)
  ide : Tab (Nat × Nat) IdeStream := {}
  heldGen : Tab Nat Nat := {}
  jobs : Tab Nat Job := {}
  -- queues
  queues : Tab Nat QSt := {}
  -- the queue that each thread, numbered 16 × ferry + thread, served last (R103)
  turns : Tab Nat Nat := {}
  -- transport and remote memory
  manifest : Tab Nat MEntry := {}
  ctxs : Tab Nat Ctx := {}
  -- what freed contexts leave for a repeated CLOSE-REQ (R173), and those that were closed with presentations held (R223)
  closed : Tab Nat ClosedCtx := {}
  ghosts : Tab Nat Ctx := {}
  moored : List Packet := []
  mcStreams : Tab (Nat × Nat) (Nat × Nat × Nat) := {}
  tops : Tab (Nat × Nat) TOp := {}
  credits : List Credit := []
  xfers : Tab Nat Xfer := {}
  windows : Tab (Nat × Nat) Window := {}
  revokes : List Revoke := []
  -- operations that ended before their status entry came, as (context, MTAG): their numbers are not taken again until it comes
  stale : List (Nat × Nat) := []
  regions : Tab Nat Region := {}
  -- routing tables: (bank, table, entry) to the number that the entry's bytes spell (R297, R298)
  banks : Tab (Nat × Nat × Nat) Nat := {}
  -- the crossing: packets in it by number, its output queues and the started packets by (output, VC), the last mark by
  -- (arrival port, class), route notices by the port they came on, this device's ports that it has told to be down
  transit : Tab Nat Transit := {}
  outq : Tab (Nat × Nat) (List Nat) := {}
  sending : Tab (Nat × Nat) (List Nat) := {}
  marked : Tab (Nat × Nat) Nat := {}
  notices : List (Nat × Notice) := []
  told : List Nat := []
  -- the arbiters of the crossbar outputs (R410)
  arbs : Tab Nat Arbiter := {}
  -- links and lanes
  links : Tab Nat Link := {}
  lanes : Tab Nat Lane := {}
  -- translation
  walkCache : List TxEntry := []
  txCache : List TxEntry := []
  invals : List Inval := []
  -- host interface
  fns : Tab Func FnSt := {}
  vfEnable : List Nat := []
  vfLeaving : List Nat := []
  -- management and log
  ring : List LogRec := []
  flash : List LogRec := []
  logRates : Tab LogCode LogRate := {}
  lostPending : Nat := 0
  images : Tab Nat Image := {}
  -- what each unit of an image type runs, by (type, unit): SECVER and BUILD, none for a LOAD-PROGRAM's
  running : Tab (Nat × Nat) (Nat × Option Nat) := {}
  -- MG packets and messages that the management agent discarded and counted (R288, R451)
  mgLost : Nat := 0
  -- MG-CMDs that the agent has begun and not answered, by session and counter (R288, log 37)
  mgCmds : List (Nat × Nat) := []
  cmds : List Nat := []
  eids : Tab Nat Nat := {}
  -- when each sensor was read (R464)
  sensAt : Tab Nat Nat := {}
  live : Option Live := none
  -- route commands that wait for their turn at the crossing (R299)
  routeWait : List ((CmdSrc × TallyField) × RouteJob) := []
  -- matching: receives and messages by number, each catcher's stamp counter (R215)
  recvs : Tab Nat Recv := {}
  msgs : Tab Nat Msg := {}
  stamps : Tab Nat Nat := {}
  -- collectives
  colls : Tab Nat CollCtx := {}
  -- machine time
  servo : Servo := {}
  firings : Tab Nat (List Firing) := {}
  trig : Tab Nat (List Nat) := {}
  whlCount : Tab Nat Nat := {}
  -- ferries: threads by (ferry, thread), instruction memory by (ferry, index)
  ferries : Tab Nat Ferry := {}
  threads : Tab (Nat × Nat) Thread := {}
  imem : Tab (Nat × Nat) Nat := {}
  -- wharf lines, least recently used first; locks; the last word-lock result of each writer (R409)
  lines : List Line := []
  locks : Tab Nat Lock := {}
  lkWord : Tab Nat Nat := {}
  -- faults and counters: `raised` lists the sources that the running step has raised
  raised : List Nat := []
  snaps : Tab Nat Snap := {}
  -- the collector's self-check has failed (R474)
  checkFailed : Bool := false
  deriving DecidableEq, Repr

/-- The machine right after reset: main power-on reset has ended on a WLN-7230 (log 4). Every register stands at
its reset value, no memory is listed, nothing waits. Its start-up is due to complete: MAIN_RESET_COMPLETE starts the enabled ports (R530). -/
def State.reset : State :=
  let due : Tab TimerKey Nat := ⟨[(.mainUp, 0)]⟩
  { timers := due }

end Sys2Proof.Machine
end

