-- ==== Sys2Proof/Machine/Ops.lean ====
section
/-! DEFINITION. The operations every chapter uses: register fields, enable masks, tallies, timers, messages out,
free values, the event log (R454, R455), the event counters (R475 to R481), routing-table entries, job slots. -/

namespace Sys2Proof.Machine

/-! ## Register fields -/

/-- The value of a register field instance. -/
def State.rd (s : State) (f : Fld) (i : Nat := 0) : Nat :=
  (s.regs.look (f, i)).getD (f.resetAt s.variant i)

/-- Set a register field instance to a value, cut to the field's width. -/
def State.wr (s : State) (f : Fld) (i : Nat) (v : Nat) : State :=
  { s with regs := s.regs.put (f, i) (v % 2 ^ f.row.width) }

/-- Add to a field that holds at its largest value. -/
def State.incSat (s : State) (f : Fld) (i n : Nat) : State :=
  s.wr f i (min (s.rd f i + n) (2 ^ f.row.width - 1))

/-- Add to a field that wraps. -/
def State.incWrap (s : State) (f : Fld) (i n : Nat) : State := s.wr f i (s.rd f i + n)

/-- Whether a one-bit field is set. -/
def State.flag (s : State) (f : Fld) (i : Nat := 0) : Bool := decide (s.rd f i = 1)

/-- Set a one-bit field. -/
def State.setFlag (s : State) (f : Fld) (i : Nat) (b : Bool) : State := s.wr f i (if b then 1 else 0)

/-- Set several fields of one instance. -/
def State.wrAll (s : State) (i : Nat) : List (Fld × Nat) → State
  | [] => s
  | (f, v) :: r => State.wrAll (s.wr f i v) i r

/-- Put every field that a test does not keep at its reset value (R8). -/
def State.resetFields (s : State) (keep : Fld → Nat → Bool) : State :=
  { s with regs := s.regs.keep fun k _ => keep k.1 k.2 }

/-! ## Enabled units (R3, R4, R504) -/

/-- Whether ferry `f` is enabled. -/
def State.ferryOn (s : State) (f : Nat) : Bool := decide (f < 64) && bitOf (s.rd .PW_EN_MASK 0) f

/-- Whether berth `b` is in use. -/
def State.berthOn (s : State) (b : Nat) : Bool := decide (b < 64) && bitOf (s.rd .PW_EN_MASK 1) b

/-- Whether port `p` is enabled; one that its mask bit's clearing still drains works on (R319, R504). -/
def State.portOn (s : State) (p : Nat) : Bool :=
  decide (p < 72) && ((if p < 64 then bitOf (s.rd .PW_EN_MASK 2) p else bitOf (s.rd .PW_EN_MASK 3) (p - 64))
    || (match s.links.look p with | some k => k.disabling | none => false))

/-- Whether catcher `c` is enabled. -/
def State.catcherOn (s : State) (c : Nat) : Bool := decide (c < 4) && bitOf (s.rd .PW_EN_MASK 3) (8 + c)

/-- Whether huddle `h` is enabled. -/
def State.huddleOn (s : State) (h : Nat) : Bool := decide (h < 8) && bitOf (s.rd .PW_EN_MASK 3) (12 + h)

/-- Whether lane `l` is enabled. -/
def State.laneOn (s : State) (l : Nat) : Bool :=
  decide (l < 72) && (if l < 64 then bitOf (s.rd .PW_EN_MASK 4) l else bitOf (s.rd .PW_EN_MASK 5) (l - 64))

/-- The enabled catchers, in number order. -/
def State.catchersOn (s : State) : List Nat := (List.range 4).filter s.catcherOn

/-- Whether a unit of a live procedure's type, or of a per-unit reset's KIND, is out of service while its work moved to others (R461, R503). -/
def State.movedAway (s : State) (ptype kind u : Nat) : Bool :=
  decide (s.unitInReset = some (kind, u))
    || (match s.live with | some v => decide (v.ptype = ptype ∧ v.unit = u) && v.begun | none => false)

/-- The enabled huddles, in number order. -/
def State.huddlesOn (s : State) : List Nat := (List.range 8).filter s.huddleOn

/-- How many berths are in use. -/
def State.berthsOn (s : State) : Nat := ((List.range 64).filter s.berthOn).length

/-- Whether the block of counter unit `u` is enabled (R475). -/
def State.unitOn (s : State) (u : Nat) : Bool :=
  if u < 64 then s.ferryOn u
  else if u < 128 then s.berthOn (u - 64)
  else if u < 200 then s.portOn (u - 128)
  else if u < 218 then (List.range 4).any fun k => s.laneOn (4 * (u - 200) + k)
  else if u < 222 then s.catcherOn (u - 218)
  else if u < 230 then s.huddleOn (u - 222)
  else decide (u < 295)

/-! ## Messages, free values, timers -/

/-- Whether the device is in the fatal state (R473). -/
def State.fatal (s : State) : Bool := s.flag .FT_STATUS_FATAL

/-- What the fatal state stops (R473): DMA, injection, ejection and flits. The answers of Iamel, and of configuration and BAR0 reads, go on. -/
def Out.stopped : Out → Bool
  | .hostWrite .. | .hostRead .. | .hostAtomic .. | .msix .. | .packet _ | .forward .. | .codeword .. | .renewal .. => true
  | .hostReply .. | .frame .. | .pattern _ | .status .. | .records .. | .mgmt .. | .mctpTypes _ | .spdm .. | .avs _ | .alive _ | .sagWarn _
  | .efaPg _ | .gate .. | .perst _ | .led .. | .trig .. | .aer _ | .value _ => false

/-- Send a message out of the block (log 7); the fatal state sends none that it stops. -/
def State.emit (s : State) (o : Out) : State := { s with out := if s.fatal && o.stopped then s.out else s.out ++ [o] }

/-- Send several messages. -/
def State.emits (s : State) (os : List Out) : State := { s with out := s.out ++ os.filter fun o => !(s.fatal && o.stopped) }

/-- The next free value of `w` bits (log 8). -/
def State.freeVal (s : State) (w : Nat) : Nat := Config.freeValue s.free % 2 ^ w

/-- The state after a free value was taken. -/
def State.freeNext (s : State) : State := { s with free := s.free + 1 }

/-- The state after the next number was taken. -/
def State.idNext (s : State) : State := { s with nextId := s.nextId + 1 }

/-- Run a timer until a machine time. -/
def State.arm (s : State) (k : TimerKey) (due : Nat) : State := { s with timers := s.timers.put k due }

/-- Run a timer for a number of ticks from now. -/
def State.armIn (s : State) (k : TimerKey) (ticks : Nat) : State := s.arm k (s.now + ticks)

/-- Stop a timer. -/
def State.disarm (s : State) (k : TimerKey) : State := { s with timers := s.timers.del k }

/-- Stop every timer that a test finds. -/
def State.disarmAll (s : State) (p : TimerKey → Bool) : State :=
  { s with timers := s.timers.keep fun k _ => !p k }

/-- Whether a timer runs. -/
def State.armed (s : State) (k : TimerKey) : Bool := (s.timers.look k).isSome

/-- Ticks in a microsecond (R351: a tick is 0.25 ns). -/
def us (n : Nat) : Nat := 4000 * n

/-- Ticks in a millisecond. -/
def ms (n : Nat) : Nat := 4000000 * n

/-- Ticks in a second. -/
def sec (n : Nat) : Nat := 4000000000 * n

/-- Raise a fault source: the collector takes it before the step ends (R469). -/
def State.raise (s : State) (src : Nat) : State := { s with raised := s.raised ++ [src] }

/-! ## Tallies (R105, R106) -/

/-- The count of tally `n`. -/
def State.tally (s : State) (n : Nat) : Nat := (s.tallies.look n).getD 0

/-- Set tally `n`. -/
def State.setTally (s : State) (n v : Nat) : State :=
  { s with tallies := s.tallies.put n (v % 2 ^ 64) }

/-- Add to tally `n`, modulo 2^64. -/
def State.addTally (s : State) (n v : Nat) : State := s.setTally n (s.tally n + v)

/-- Whether a tally field names a tally (R110). -/
def tfEn (t : TallyField) : Bool := bitOf t 23

/-- The tally that a tally field names. -/
def tfNum (t : TallyField) : Nat := bitsOf t 0 18

/-- Whether a tally field is well formed (R110). -/
def tfOk (t : TallyField) : Bool :=
  decide (t < 2 ^ 24) && decide (bitsOf t 18 5 = 0) && (tfEn t || decide (tfNum t = 0))

/-- Increment the tally that a field names, if it names one. -/
def State.bumpField (s : State) (t : TallyField) : State := if tfEn t then s.addTally (tfNum t) 1 else s

/-- Whether a tally count has reached a threshold (R106), over numbers. -/
def reached (c t : Nat) : Bool := decide ((c + (2 ^ 64 - t % 2 ^ 64)) % 2 ^ 64 < 2 ^ 63)

/-! ## Event counters (R476, R477, R479) -/

/-- Add to one counter; a wrap sets OVF. -/
def State.addCount (s : State) (i w : Nat) : State :=
  let c := s.rd .EC_CNT_COUNT i + w
  let s := s.wr .EC_CNT_COUNT i c
  if 2 ^ 48 ≤ c then s.wr .EC_SEL_OVF i 1 else s

/-- Whether counter `i` counts edge event `ev` with qualifier `sub`. -/
def State.selects (s : State) (i mode ev sub : Nat) : Bool :=
  decide (s.rd .EC_SEL_MODE i = mode) && decide (s.rd .EC_SEL_EVENT i = ev) && decide (s.rd .EC_SEL_SUB i = sub)

/-- One occurrence of an edge event of unit `u`, of weight `w`, over the counters of a list. -/
def State.countOver (s : State) (u ev sub w : Nat) : List Nat → State
  | [] => s
  | k :: ks =>
    let s := if s.selects (4 * u + k) 1 ev sub then s.addCount (4 * u + k) w else s
    State.countOver s u ev sub w ks

/-- One occurrence of an edge event of unit `u` (R477); a disabled unit counts nothing (R475). -/
def State.count (s : State) (u ev : Nat) (sub : Nat := 0) (w : Nat := 1) : State :=
  if s.unitOn u then s.countOver u ev sub w [0, 1, 2, 3] else s

/-- Count in a field whose value past its largest the manual does not state: a free value there (log 8). -/
def State.incOpen (s : State) (f : Fld) (i : Nat) : State :=
  if s.rd f i + 1 < 2 ^ f.row.width then s.wr f i (s.rd f i + 1)
  else (s.wr f i (s.freeVal f.row.width)).freeNext

/-! ## The event log (R454, R455) -/

/-- How many records of the ring are not yet copied to flash. -/
def State.uncopied (s : State) : Nat := (s.ring.filter fun r => idxBefore (s.rd .MG_LOG_STATUS_PERSISTED) r.seq).length

/-- Place one record at the end of the ring, numbered 1 more than the newest. -/
def State.placeRec (s : State) (sev block : Nat) (code : LogCode) (unit rep : Nat) (data : List Nat) : State :=
  let seq := (s.rd .MG_LOG_STATUS_NEWEST + 1) % 2 ^ 32
  let r : LogRec := ⟨s.now, seq, sev, block, code, unit, rep, s.boots % 65536, data⟩
  let ring := s.ring ++ [r]
  { s.wr .MG_LOG_STATUS_NEWEST 0 seq with ring := ring.drop (ring.length - 16384) }

/-- The writer's record of the records it discarded, once room is back (R455). -/
def State.placeLost (s : State) : State :=
  if s.lostPending = 0 then s
  else { s.placeRec 1 0x80 .lostRecords 0 0 [s.lostPending] with lostPending := 0 }

/-- Write an event-log record (R455): at most 1,000 of one CODE in any second of machine time; a record without
room is discarded and counted in LOST. -/
def State.logRec (s : State) (sev block : Nat) (code : LogCode) (unit : Nat) (data : List Nat := []) : State :=
  let r0 := (s.logRates.look code).getD ⟨[], 0⟩
  let r := { r0 with times := r0.times.filter fun t => decide (s.now < t + sec 1) }
  if 1000 ≤ r.times.length then
    { s with logRates := s.logRates.put code { r with suppressed := r.suppressed + 1 } }
  else if 16384 ≤ s.uncopied then
    { s.incSat .MG_LOG_LOST_LOST 0 1 with lostPending := s.lostPending + 1 }
  else
    let s := s.placeLost
    if 16384 ≤ s.uncopied then { s.incSat .MG_LOG_LOST_LOST 0 1 with lostPending := s.lostPending + 1 }
    else
      let s := s.placeRec sev block code unit (min r.suppressed 65535) data
      { s with logRates := s.logRates.put code ⟨r.times ++ [s.now], 0⟩ }

/-- The access-violation record of R9 and R29. -/
def State.logViolation (s : State) (addr : Nat) : State :=
  s.logRec 1 (blockOf addr) .accessViolation 0 [addr]

/-- The record of a register write that is rejected whole. -/
def State.logRejected (s : State) (addr : Nat) : State := s.logRec 1 (blockOf addr) .regRejected 0 [addr]

/-! ## Routing-table entries (R297, R530) -/

/-- The reset contents of an entry of tables 0 route, 1 multicast, 2 port, 3 lane (R270, R318, R530). -/
def State.entryReset (s : State) (table e : Nat) : Nat :=
  match table with
  | 0 =>
    if e = 128 then 0xE4 * 2 ^ 32 + (1 + 32 + 1024 + 32768) * 2 ^ 12
    else if e = 129 then 8 + 8 * 2 ^ 16 + 8 * 2 ^ 32 + 8 * 2 ^ 48
    else if e = 130 then 10 * 2 ^ 40 + 15 * 2 ^ 32 + 24 * 2 ^ 24 + 24 * 2 ^ 16 + 16
    else if e = 131 then 96
    else 0
  | 2 =>
    let fused := if e < 64 then bitOf (fusedMask s.variant 2) e else bitOf (fusedMask s.variant 3) (e - 64)
    if e = 72 then 7 + 4000 * 2 ^ 16 else if fused then 0x10 else 0
  | _ => 0

/-- An entry of a bank, as the number its bytes spell. -/
def State.bankEntry (s : State) (bank table e : Nat) : Nat :=
  (s.banks.look (bank, table, e)).getD (s.entryReset table e)

/-- The active bank (R298). -/
def State.activeBank (s : State) : Nat := s.rd .XB_STATUS_ACTIVE

/-- An entry of the active bank. -/
def State.entry (s : State) (table e : Nat) : Nat := s.bankEntry s.activeBank table e

/-- This device's node ID (R270). -/
def State.nodeId (s : State) : Nat := bitsOf (s.entry 0 128) 44 20

/-! ## Job slots -/

/-- The states of a job slot: GLB_JOB[j].STATE. -/
def jobFree : Nat := 0
def jobKeying : Nat := 1
def jobOpened : Nat := 2
def jobClosing : Nat := 3

/-- The STATE of job slot `j`. -/
def State.jobState (s : State) (j : Nat) : Nat := s.rd .GLB_JOB_STATE j

/-- The slot that a job ID has on this device. -/
def State.slotOf (s : State) (job : Nat) : Option Nat :=
  s.jobs.keys.find? fun j => decide (s.rd .GLB_JOB_JOB_ID j = job)

/-- The lowest FREE slot. -/
def State.freeSlot (s : State) : Option Nat :=
  (List.range 256).find? fun j => (s.jobs.look j).isNone

/-- The job in a slot; an empty one where the slot is FREE. -/
def State.job (s : State) (j : Nat) : Job := (s.jobs.look j).getD {}

/-- Change the job in a slot. -/
def State.updJob (s : State) (j : Nat) (f : Job → Job) : State := { s with jobs := s.jobs.upd j f }

/-- Whether a tally lies in a job's range (R105, R144). -/
def Job.hasTally (b : Job) (n : Nat) : Bool := decide (b.tallyBase ≤ n ∧ n < b.tallyBase + b.tallyCount)

/-- How many slots are not FREE (GLB_SEC_STATE.JOBS_ACTIVE). -/
def State.jobsActive (s : State) : Nat := s.jobs.size

/-! ## Locations in memory -/

/-- The key of a host address in the host memories: one memory behind each port (log 5). -/
def hostKey (f : Func) (addr : Nat) : Nat := f / 256 % 2 * 2 ^ 64 + addr % 2 ^ 64

/-- Whether an internal address is a tally's (R105). -/
def tallyAddr (addr : Nat) : Bool := decide (0x13_8000_0000 ≤ addr ∧ addr < 0x13_8020_0000)

/-- One byte of the internal memory: a tally's where the address is one (R105), else the wharf or package. -/
def State.byteAt (s : State) (addr : Nat) : Byte :=
  if tallyAddr addr then byteOf (s.tally ((addr - 0x13_8000_0000) / 8)) ((addr - 0x13_8000_0000) % 8)
  else memGet s.mem addr

/-- Read `n` bytes at a location. -/
def State.readLoc (s : State) (l : Loc) (n : Nat) : List Byte :=
  match l with
  | .host f a => memRead s.hostMem (hostKey f a) n
  | .pkg a => (List.range n).map fun k => s.byteAt (a + k)

/-- Write one byte of the internal memory. -/
def State.putByte (s : State) (addr : Nat) (b : Byte) : State :=
  if tallyAddr addr then
    let n := (addr - 0x13_8000_0000) / 8
    let k := (addr - 0x13_8000_0000) % 8
    let v := s.tally n
    s.setTally n (v - bitsOf v (8 * k) 8 * 2 ^ (8 * k) + b.toNat * 2 ^ (8 * k))
  else { s with mem := memPut addr b s.mem }

/-- Write bytes to the internal memory from an address upward. -/
def State.putBytes (s : State) (addr : Nat) : List Byte → State
  | [] => s
  | b :: bs => State.putBytes (s.putByte addr b) (addr + 1) bs

/-- Write bytes at a location; a host write also leaves the block as a request, of which the fatal state makes none (R473). -/
def State.writeLoc (s : State) (l : Loc) (bs : List Byte) (rlx : Bool := false) : State :=
  match l with
  | .host f a =>
    if s.fatal then s else { s with hostMem := memWrite s.hostMem (hostKey f a) bs }.emit (.hostWrite f a bs rlx)
  | .pkg a => s.putBytes a bs

/-- Read the bytes of a list of segments. -/
def State.readSegs (s : State) : List (Loc × Nat) → List Byte
  | [] => []
  | (l, n) :: r => s.readLoc l n ++ State.readSegs s r

/-- Write bytes over a list of segments. -/
def State.writeSegs (s : State) (bs : List Byte) (rlx : Bool) : List (Loc × Nat) → State
  | [] => s
  | (l, n) :: r => State.writeSegs (s.writeLoc l (bs.take n) rlx) (bs.drop n) rlx r

/-- Whether a poisoned line of the wharf lies in a range of internal addresses (R398). -/
def State.poisoned (s : State) (addr n : Nat) : Bool :=
  s.poison.any fun l => decide (l < addr + n ∧ addr < l + 64)

end Sys2Proof.Machine
end

