-- ==== Sys2Proof/Machine/HostOps.lean ====
section
/-! DEFINITION. The shared operations of the host interface: functions and their states, MSI-X, host reads and
writes, flushing reads (R189, R428, R435, R438, R526). -/

namespace Sys2Proof.Machine

/-- The flat index of a function in the registers that have one instance per function. -/
def fnIdx (f : Func) : Nat := f / 256 % 2 * 253 + f % 256

/-- What a function holds beside its registers. -/
def State.fn (s : State) (f : Func) : FnSt := (s.fns.look f).getD {}

/-- Change what a function holds. -/
def State.updFn (s : State) (f : Func) (g : FnSt → FnSt) : State := { s with fns := s.fns.put f (g (s.fn f)) }

/-- Port HB is an endpoint, a downstream port, or disabled (R425). Port HA is an endpoint. -/
def State.portMode (s : State) (p : Nat) : Nat :=
  if p = 0 then 0 else let m := s.rd .HI_PORT_MODE 1; if m = 3 then 2 else m

/-- Whether a function exists (R428, R526); a VF whose VF Enable was cleared exists until its FLR completes (R441). -/
def State.fnExists (s : State) (f : Func) : Bool :=
  decide (f < 512) && decide (s.portMode (f / 256) = 0)
    && (decide (f % 256 = 0) || s.vfLeaving.contains f
      || (s.vfEnable.contains (f / 256) && decide (f % 256 ≤ s.rd .HI_PORT_NUMVFS (f / 256))))

/-- The STATE of a function: 0 NORMAL, 1 QUIESCING, 2 REFUSING, 3 FLR (R438, R440). -/
def State.fnState (s : State) (f : Func) : Nat := s.rd .HI_FN_STATE_STATE (fnIdx f)

/-- Whether FUNC names the memory of the attached device (HB as downstream port). -/
def State.isAttached (s : State) (f : Func) : Bool := decide (f = 256) && decide (s.portMode 1 = 1)

/-- The answer to a request for an access to a function's memory. -/
inductive FnAccess where
  /-- The access may be made. -/
  | ok
  /-- The function is quiescing or in FLR: no access now (R438 step 5, R440). -/
  | busy
  /-- No access is made: a memory error at the user (R438 step 6, R526, R446, R447). -/
  | error
  deriving DecidableEq, Repr

/-- Whether an access to a function's memory may be made. -/
def State.fnAccess (s : State) (f : Func) : FnAccess :=
  if s.isAttached f then
    if s.flag .HI_SLOT_STATUS_DL_ACTIVE && !s.flag .HI_SLOT_STATUS_FROZEN then .ok else .error
  else if !s.fnExists f then .error
  else if s.fnState f = 0 then .ok
  else if s.fnState f = 2 then .error
  else .busy

/-- The functions that the segments of an access reach. -/
def segFuncs : List (Loc × Nat) → List Func
  | [] => []
  | (.host f _, _) :: r => f :: segFuncs r
  | (.pkg _, _) :: r => segFuncs r

/-- Whether the segments of an access may be used: an error wins over a wait. -/
def State.segAccess (s : State) (segs : List (Loc × Nat)) : FnAccess :=
  let as := (segFuncs segs).map s.fnAccess
  if as.contains .error then .error else if as.contains .busy then .busy else .ok

/-- The function that the segments write, if any. -/
def segFunc (segs : List (Loc × Nat)) : Option Func := (segFuncs segs).head?

/-- The counter unit of a host port. -/
def hostUnit (f : Func) : Nat := 259 + f / 256 % 2

/-- Send an MSI-X message of a function, or hold it: a function that is not NORMAL holds it (R438 step 4), and a
masked vector sets its pending bit (R435). -/
def State.msix (s : State) (f : Func) (vec : Nat) : State :=
  if !s.fnExists f then s
  else if s.fnState f ≠ 0 then
    s.updFn f fun n => { n with heldVecs := n.heldVecs ++ [vec], pendingVec := n.pendingVec.erase vec ++ [vec] }
  else if (s.fn f).unmasked.contains vec then s.emit (.msix f vec)
  else s.updFn f fun n => { n with pendingVec := n.pendingVec.erase vec ++ [vec] }

/-- The host reads that a list of segments needs: counted (R481) and sent. -/
def State.askSegs (s : State) (write : Bool) : List (Loc × Nat) → State
  | [] => s
  | (.host f a, n) :: r =>
    let s := if write then s.count (hostUnit f) 2 else (s.count (hostUnit f) 1).emit (.hostRead f a n)
    State.askSegs s write r
  | (.pkg _, n) :: r => State.askSegs (s.count 261 (if write then 2 else 1) 0 (ceilDiv n 64)) write r

/-- The completion timeout of a function's host requests, in ticks: 50 ms where none is set (R427). -/
def State.completionTicks (s : State) (f : Func) : Nat := let t := (s.fn f).timeout; if t = 0 then ms 50 else t

/-- Start a transfer or a host request; its completion is a command. The mover is its number modulo 32 (R481). -/
def State.startXfer (s : State) (kind : XferKind) (write : Bool) (segs : List (Loc × Nat)) (bytes : List Byte)
    (rlx : Bool := false) : State :=
  let id := s.nextId
  let s := s.askSegs write segs
  let s := if (segFuncs segs).isEmpty || write then s
    else s.armIn (.completion id) (s.completionTicks ((segFunc segs).getD 0))
  let x : Xfer := { kind := kind, write := write, segs := segs, bytes := bytes, mover := id % 32, rlx := rlx }
  { s.idNext with xfers := s.xfers.put id x }

/-- Start a flushing read: a zero-length read of a function on the port that it wrote (R189). -/
def State.startFlush (s : State) (kind : XferKind) (f : Func) : State :=
  let id := s.nextId
  let s := (s.count (hostUnit f) 3).emit (.hostRead f 0 0)
  let s := s.armIn (.completion id) (s.completionTicks f)
  let x : Xfer := { kind := kind, write := false, segs := [(.host f 0, 0)], mover := id % 32 }
  { s.idNext with xfers := s.xfers.put id x }

/-- A transfer is over. -/
def State.endXfer (s : State) (id : Nat) : State :=
  { s.disarm (.completion id) with xfers := s.xfers.del id }

/-! ## What the surroundings say of memory (log 5) -/

/-- The first key of package memory among the keys of `State.see`: keys below it are host keys, key 2^65 + a is internal address a. -/
def pkgKey : Nat := 2 ^ 65

/-- The 64-byte line of a location, as `State.badReads` numbers lines. -/
def locLine : Loc → Nat
  | .host f a => hostKey f a / 64
  | .pkg a => (pkgKey + a) / 64

/-- Whether a read of up to 64 aligned bytes at a location returns an error, poison or an uncorrectable error (R417). -/
def State.readFails (s : State) (l : Loc) : Bool := s.badReads.contains (locLine l)

/-- Bring in what the surroundings say of memory: a byte that a host memory holds, or none where reading the line of the key fails; any byte
says that its line reads again. -/
def State.see (s : State) (seen : List (Nat × Option Byte)) : State :=
  let mark (l : List Nat) (x : Nat × Option Byte) : List Nat :=
    if pkgKey ≤ x.1 ∧ !inPackage (x.1 - pkgKey) then l
    else if x.2.isSome then l.erase (x.1 / 64) else l.erase (x.1 / 64) ++ [x.1 / 64]
  { s with
    hostMem := memMerge s.hostMem (seen.filterMap fun x => if x.1 < pkgKey then x.2.map fun b => (x.1, b) else none),
    badReads := seen.foldl mark s.badReads }

end Sys2Proof.Machine
end

