-- ==== Sys2Proof/Machine/Translate.lean ====
section
/-! DEFINITION. Address translation (R412 to R424): spans, caches, the radix walk, the walkable ranges. -/

namespace Sys2Proof.Machine

/-- The cause codes that a translation ends in. -/
def causeTranslation : Nat := 0x05
def causeWalkDevice : Nat := 0x06

/-- The instances of a one-bit field that are set (all its reset values being 0). -/
def State.setOf (s : State) (f : Fld) : List Nat :=
  s.regs.cells.filterMap fun c => if c.1.1 = f ∧ c.2 = 1 then some c.1.2 else none

/-- The ASID slot that holds an ASID value (R412). -/
def State.asidSlot (s : State) (asid : Nat) : Option Nat :=
  (s.setOf .TX_ASID_VALID).find? fun a => decide (s.rd .TX_ASID_ASID a = asid)

/-- The outcome of one translation: a location, or the cause of a fault. -/
inductive TxRes where
  | ok (l : Loc)
  | fault (cause : Nat)
  deriving DecidableEq, Repr

/-- The location of a translated address: bus addresses are the user's function's (R524). -/
def mkLoc (f : Func) (pkg : Bool) (addr : Nat) : Loc := if pkg then .pkg addr else .host f addr

/-- The lowest-numbered VALID span that covers an address (R415 step 2). -/
def State.spanOf (s : State) (a addr : Nat) : Option Nat :=
  (List.range 8).find? fun k =>
    let i := 8 * a + k
    s.flag .TX_SPAN_BASE_VALID i
      && decide (s.rd .TX_SPAN_BASE_BASE i * 4096 ≤ addr)
      && decide (addr ≤ s.rd .TX_SPAN_LIMIT_LIMIT i * 4096 + 0xFFF)

/-- Step 5 of R415 for a result: rights, and for package memory the slot's bounds and the reserved range. -/
def State.resultOk (s : State) (a : Nat) (pkg r w : Bool) (target n : Nat) (needR needW : Bool) : Bool :=
  (!needR || r) && (!needW || w) &&
    (!pkg ||
      (let p0 := (target - 0x10_0000_0000) / 4096
       let p1 := (target + (n - 1) - 0x10_0000_0000) / 4096
       inPackage target && inPackage (target + (n - 1)) && !inReserved target && !inReserved (target + (n - 1))
         && decide (s.rd .TX_PKG_FIRST a ≤ p0) && decide (p1 ≤ s.rd .TX_PKG_LAST a)))

/-- R418: whether the walker may read a table at an address of a location. -/
def State.walkable (s : State) (wfunc : Func) (pkg : Bool) (addr : Nat) : Bool :=
  (List.range 16).any fun k =>
    s.flag .TX_WALK_BASE_EN k
      && decide ((s.rd .TX_WALK_BASE_LOC k = 1) ↔ pkg = true)
      && (pkg || decide (s.rd .TX_WALK_BASE_FUNC k = wfunc))
      && decide (s.rd .TX_WALK_BASE_BASE k * 4096 ≤ addr)
      && decide (addr ≤ s.rd .TX_WALK_LIMIT_LIMIT k * 4096 + 0xFFF)

/-- The bytes that an entry of a level covers (R420). -/
def levelBytes (level : Nat) : Nat := 4096 * 512 ^ level

/-- What one table entry is (R416, R417). -/
inductive Pte where
  | bad
  | pointer (pkg : Bool) (addr : Nat)
  | leaf (pkg : Bool) (addr : Nat) (r w : Bool)
  deriving DecidableEq, Repr

/-- Read a 64-bit table entry at a level (R416, R417). -/
def pteOf (level v : Nat) : Pte :=
  let addr := bitsOf v 12 52 * 4096
  let pkg := bitOf v 4
  let leaf := bitOf v 1
  if !bitOf v 0 || decide (bitsOf v 5 7 ≠ 0) then .bad
  else if leaf && decide (level = 3) || !leaf && decide (level = 0) then .bad
  else if pkg && decide (0x13_FFFF_FFFF < addr) then .bad
  else if leaf then
    if addr % levelBytes level = 0 then .leaf pkg addr (bitOf v 2) (bitOf v 3) else .bad
  else if bitsOf v 2 2 ≠ 0 then .bad
  else .pointer pkg addr

/-- A cached entry of a slot that covers an address: a leaf, or the pointer of the lowest level. -/
def cacheFind (c : List TxEntry) (a addr : Nat) : Option TxEntry :=
  c.find? fun e => decide (e.slot = a ∧ e.base ≤ addr ∧ addr < e.base + levelBytes e.level)

/-- Place an entry in a cache of a capacity, the least recently used entry leaving (R419). -/
def cacheAdd (c : List TxEntry) (cap : Nat) (e : TxEntry) : List TxEntry :=
  let c := (c.filter fun x => !decide (x.slot = e.slot ∧ x.level = e.level ∧ x.base = e.base)) ++ [e]
  c.drop (c.length - cap)

/-- Move an entry to the recently used end. -/
def cacheTouch (c : List TxEntry) (e : TxEntry) : List TxEntry := c.erase e ++ [e]

/-- The outcome of a walk: a leaf entry, or a fault with the level reached and whether a read failed. -/
inductive WalkRes where
  | leaf (e : TxEntry)
  | fault (cause level : Nat) (memError : Bool)
  deriving DecidableEq, Repr

/-- Walk down from a table (R417, R418). `n` is the level plus 1. -/
def State.walkFrom (s : State) (a addr : Nat) (wfunc : Func) : Nat → Bool → Nat → State × WalkRes
  | 0, _, _ => (s, .fault causeTranslation 0 false)
  | n + 1, pkg, table =>
    let level := n
    let ea := table + 8 * (addr / levelBytes level % 512)
    if pkg && inReserved table then (s, .fault causeTranslation level false)
    else if !s.walkable wfunc pkg table then (s, .fault causeWalkDevice level false)
    else if !pkg && decide (s.fnAccess wfunc ≠ .ok) then (s, .fault causeTranslation level true)
    else
      let loc := mkLoc wfunc pkg ea
      let v := leNat (s.readLoc loc 8)
      let s := s.askSegs false [(loc, 8)]
      let base := addr / levelBytes level * levelBytes level
      if s.readFails loc then (if pkg then (s.count 261 5).raise 230 else s, .fault causeTranslation level true)
      else if pkg && s.poisoned ea 8 then (s, .fault causeTranslation level true)
      else
        match pteOf level v with
        | .bad => (s, .fault causeTranslation level false)
        | .pointer p t =>
          let e : TxEntry := ⟨a, level, base, false, p, t, false, false⟩
          State.walkFrom { s with walkCache := cacheAdd s.walkCache 2048 e } a addr wfunc n p t
        | .leaf p t r w =>
          let e : TxEntry := ⟨a, level, base, true, p, t, r, w⟩
          ({ s with txCache := cacheAdd s.txCache 16384 e }, .leaf e)

/-- The lowest cached pointer that covers an address. -/
def State.walkHit (s : State) (a addr : Nat) : Option TxEntry :=
  [1, 2, 3].findSome? fun l => cacheFind (s.walkCache.filter fun e => decide (e.level = l)) a addr

/-- Walk the radix table of a slot, from the lowest cached pointer where there is one. -/
def State.walk (s : State) (a addr : Nat) : State × WalkRes :=
  let wf := s.rd .TX_ASID_WFUNC a
  let s := s.count 232 1
  match s.walkHit a addr with
  | some e =>
    let s := (s.count 232 4)
    State.walkFrom { s with walkCache := cacheTouch s.walkCache e } a addr wf e.level e.loc e.addr
  | none => s.walkFrom a addr wf 4 (s.flag .TX_ROOT_LOC a) (s.rd .TX_ROOT_ROOT a * 4096)

/-- The record and the counts of a translation fault (R418, R481). -/
def State.txFault (s : State) (asid addr cause level : Nat) (memError : Bool) : State :=
  let s := (s.count 232 6 0).count 232 6 (if cause = causeWalkDevice then 2 else 1)
  s.logRec 1 0x06 .translation asid [asid, addr, level, cause, if memError then 1 else 0]

/-- One access of R415: the translation of an address of a slot for `n` bytes within one 4 KiB page. -/
def State.translate (s : State) (a addr n : Nat) (f : Func) (needR needW : Bool) : State × TxRes :=
  let asid := s.rd .TX_ASID_ASID a
  let bad (s : State) (c l : Nat) (m : Bool) : State × TxRes := (s.txFault asid addr c l m, .fault c)
  if !s.flag .TX_ASID_VALID a || decide (2 ^ 48 < addr + n) then bad s causeTranslation 0 false
  else
    match s.spanOf a addr with
    | some k =>
      let i := 8 * a + k
      let t := s.rd .TX_SPAN_TGT_TARGET i * 4096 + (addr - s.rd .TX_SPAN_BASE_BASE i * 4096)
      let pkg := s.flag .TX_SPAN_BASE_LOC i
      let s := s.count 232 5
      if s.resultOk a pkg (s.flag .TX_SPAN_BASE_R i) (s.flag .TX_SPAN_BASE_W i) t n needR needW
      then (s, .ok (mkLoc f pkg t)) else bad s causeTranslation 0 false
    | none =>
      let fin (s : State) (e : TxEntry) : State × TxRes :=
        let t := e.addr + (addr - e.base)
        if s.resultOk a e.loc e.r e.w t n needR needW then (s, .ok (mkLoc f e.loc t))
        else bad s causeTranslation e.level false
      match cacheFind s.txCache a addr with
      | some e => fin { s.count 232 2 with txCache := cacheTouch s.txCache e } e
      | none =>
        match (s.count 232 3).walk a addr with
        | (s, .leaf e) => fin s e
        | (s, .fault c l m) => bad s c l m

/-- Split a range at every 4 KiB boundary (R415); `fuel` bounds the pieces. -/
def pieces : Nat → Nat → Nat → List (Nat × Nat)
  | 0, _, _ => []
  | fuel + 1, addr, n =>
    if n = 0 then []
    else
      let k := min n (4096 - addr % 4096)
      (addr, k) :: pieces fuel (addr + k) (n - k)

/-- Translate the pieces of a range, in order, stopping at the first fault. -/
def State.translatePieces (s : State) (a : Nat) (f : Func) (needR needW : Bool) :
    List (Nat × Nat) → State × Sum Nat (List (Loc × Nat))
  | [] => (s, .inr [])
  | (addr, n) :: r =>
    match s.translate a addr n f needR needW with
    | (s, .fault c) => (s, .inl c)
    | (s, .ok l) =>
      match State.translatePieces s a f needR needW r with
      | (s, .inl c) => (s, .inl c)
      | (s, .inr segs) => (s, .inr ((l, n) :: segs))

/-- Translate a range of an ASID for a user's function: the cause of a fault, or the segments. -/
def State.translateRange (s : State) (asid addr n : Nat) (f : Func) (needR needW : Bool) :
    State × Sum Nat (List (Loc × Nat)) :=
  match s.asidSlot asid with
  | none => (s.txFault asid addr causeTranslation 0 false, .inl causeTranslation)
  | some a => s.translatePieces a f needR needW (pieces (n / 4096 + 2) addr n)

/-- Flush every cached entry of a slot (R414). -/
def State.flushSlot (s : State) (a : Nat) : State :=
  { s with walkCache := s.walkCache.filter (fun e => decide (e.slot ≠ a)),
           txCache := s.txCache.filter (fun e => decide (e.slot ≠ a)) }

end Sys2Proof.Machine
end

