-- ==== Sys2Proof/Machine/QueueOps.lean ====
section
/-! DEFINITION. The shared operations of the queue block (R75 to R103): completion, the head and the head word,
failures, halts, resumes. -/

namespace Sys2Proof.Machine

/-- The states of a queue: QU_STATE[n].STATE. -/
def qDisabled : Nat := 0
def qRunning : Nat := 1
def qWait : Nat := 2
def qError : Nat := 3
def qHalted : Nat := 4

/-- What queue `q` holds beside its registers. -/
def State.q (s : State) (q : Nat) : QSt := (s.queues.look q).getD {}

/-- Change what a queue holds. -/
def State.updQ (s : State) (q : Nat) (f : QSt → QSt) : State := { s with queues := s.queues.put q (f (s.q q)) }

/-- The STATE of queue `q`. -/
def State.qState (s : State) (q : Nat) : Nat := s.rd .QU_STATE_STATE q

/-- The function that queue `q` is bound to. -/
def State.qFunc (s : State) (q : Nat) : Func := s.rd .QU_CFG_FUNC q

/-- The bound queues that a test finds: every queue that is not DISABLED, queue 0 first (R102). -/
def State.boundQueues (s : State) (p : Nat → Bool) : List Nat :=
  (0 :: (s.queues.keys.filter fun q => decide (q ≠ 0))).filter fun q => decide (s.qState q ≠ qDisabled) && p q

/-- Whether queue `q` belongs to job slot `j`. -/
def State.qOfJob (s : State) (j q : Nat) : Bool :=
  decide (q ≠ 0) && !(s.q q).noJob && decide (s.rd .QU_CFG_JOB_SLOT q = j)

/-- Apply an operation to each member of a list. -/
def forEach {α : Type} (f : State → α → State) : List α → State → State
  | [], s => s
  | a :: r, s => forEach f r (f s a)

/-! ## The head word (R89 to R91) -/

/-- The value of the head word of queue `q`. -/
def State.headWord (s : State) (q : Nat) : Nat :=
  s.rd .QU_HEAD_HEAD q + s.rd .QU_STATE_CAUSE q * 2 ^ 32 + s.qState q * 2 ^ 40

/-- Write the head word to its location; a queue whose EN is 0 publishes none, and a function that does not exist is sent none (R89, R526). -/
def State.writeHead (s : State) (q : Nat) : State :=
  if !s.flag .QU_HEADADDR_EN q then s
  else
    let addr := s.rd .QU_HEADADDR_ADDR q * 8
    let loc := if s.flag .QU_HEADADDR_LOC q then Loc.pkg addr else Loc.host (s.qFunc q) addr
    if s.segAccess [(loc, 8)] = .error then s.logRec 1 0x01 .headWrite q [q]
    else ((s.count 233 4).askSegs true [(loc, 8)]).writeLoc loc (leBytes 8 (s.headWord q))

/-- Whether ARMED is set and the head has reached ARM_INDEX. -/
def State.armFires (s : State) (q : Nat) : Bool :=
  s.flag .QU_NOTIFY_ARMED q && idxLe (s.rd .QU_NOTIFY_ARM_INDEX q) (s.rd .QU_HEAD_HEAD q)

/-- Publish the head: the head word, then the vector where ARMED fires or `err` says that the queue entered ERROR
(R91). A function that is not NORMAL holds both (R438 step 4). -/
def State.publish (s : State) (q : Nat) (err : Bool) : State :=
  let fire := s.armFires q
  let f := s.qFunc q
  let s := (s.updQ q fun x => { x with unpub := 0 }).disarm (.coal q)
  let s :=
    if s.fnState f = 0 then s.writeHead q
    else s.updFn f fun n => { n with heldHeads := n.heldHeads.erase q ++ [q] }
  let s := if fire then s.wr .QU_NOTIFY_ARMED q 0 else s
  if (fire || err) && s.flag .QU_NOTIFY_MSIX_EN q then s.msix f (s.rd .QU_NOTIFY_VECTOR q) else s

/-- After the head has passed entries: publish under R89, or start COAL_TIME. -/
def State.publishCheck (s : State) (q : Nat) : State :=
  if decide (s.rd .QU_NOTIFY_COAL_CNT q ≤ (s.q q).unpub)
      || decide (s.rd .QU_HEAD_HEAD q = s.rd .QU_PI_PI q) || s.armFires q then s.publish q false
  else if s.armed (.coal q) then s
  else s.armIn (.coal q) (500 * s.rd .QU_NOTIFY_COAL_TIME q)

/-! ## Completion of entries (R87, R133) -/

/-- Move the head past done entries (R87); answers the new head, the rest, and how many were passed. -/
def passDone : Nat → Nat → List (Nat × Nat) → Nat → Nat × List (Nat × Nat) × Nat
  | 0, head, done, n => (head, done, n)
  | fuel + 1, head, done, n =>
    match done.find? fun d => decide (d.1 = head) with
    | none => (head, done, n)
    | some d => passDone fuel (idxAdd head d.2) (done.erase d) (n + 1)

/-- The later of two indices (R76). -/
def idxMax (a b : Nat) : Nat := if idxBefore a b then b else a

/-- Advance the completion head of queue `q` (R87) and publish as R89 asks. What the head passes is neither fetched nor started again, so CI and the
cursor never stay behind it (R77, R98, R99). -/
def State.advanceHead (s : State) (q : Nat) : State :=
  let x := s.q q
  let r := passDone x.done.length (s.rd .QU_HEAD_HEAD q) x.done 0
  if r.2.2 = 0 then s
  else
    let s := s.wr .QU_HEAD_HEAD q r.1
    let s := s.updQ q fun x => { x with
      done := r.2.1, unpub := x.unpub + r.2.2, skipped := x.skipped.filter fun i => idxLe r.1 i,
      fetched := x.fetched.keep fun i _ => idxLe r.1 i, cursor := idxMax x.cursor r.1,
      seconds := x.seconds ++ (x.done.filter fun d => decide (d.2 = 2) && !r.2.1.contains d).map fun d => idxAdd d.1 1 }
    (s.wr .QU_CI_CI q (idxMax (s.rd .QU_CI_CI q) r.1)).publishCheck q

/-- The loop whose body holds an index. -/
def QSt.loopOf (x : QSt) (i : Nat) : Option LoopRec := x.loops.find? fun l => l.body.any fun b => decide (b.1 = i)

/-- Record that an execution is done: an entry of a loop body is done when all its executions are (R133). -/
def QSt.markDone (x : QSt) (i iter slots : Nat) : QSt :=
  match x.loopOf i with
  | none => { x with done := x.done ++ [(i, slots)] }
  | some l =>
    let de := if x.doneExecs.contains (i, iter) then x.doneExecs else x.doneExecs ++ [(i, iter)]
    if (de.filter fun d => decide (d.1 = i)).length = l.cmd.count ∧ !x.done.contains (i, slots)
    then { x with doneExecs := de, done := x.done ++ [(i, slots)] }
    else { x with doneExecs := de }

/-- Whether every entry of a loop's body is done. -/
def QSt.loopDone (x : QSt) (l : LoopRec) : Bool := l.body.all fun b => x.done.contains b

/-- Complete the loops whose bodies are done: the LOOP's tally, then its entry (R133). -/
def State.closeLoops (s : State) (q : Nat) : List LoopRec → State
  | [] => s
  | l :: r =>
    let s :=
      if (s.q q).loopDone l then
        (s.bumpField l.cmd.ltally).updQ q fun x => { x with
          loops := x.loops.erase l, done := x.done ++ [(l.index, 1)],
          doneExecs := x.doneExecs.filter fun d => !l.body.any fun b => decide (b.1 = d.1) }
      else s
    State.closeLoops s q r

/-- Record the end of an execution of queue `q` and advance the head; the execution leaves the started ones. -/
def State.endExec (s : State) (q : Nat) (e : Exec) : State :=
  let s := s.updQ q fun x => { x with started := x.started.erase e }.markDone e.index e.iter e.slots
  (s.closeLoops q (s.q q).loops).advanceHead q

/-- The completion tally of a command (R109, R110). -/
def cmdTally : Cmd → TallyField
  | .nop t => t
  | .endCmd t => t
  | .fence c => c.ltally
  | .cancel c => c.ltally
  | .put c => c.ltally
  | .puti _ => 0
  | .get c => c.ltally
  | .atomic c => c.ltally
  | .send c => c.ltally
  | .postrecv c => c.ltally
  | .tallyAdd c => c.ltally
  | .wait c => c.ltally
  | .whistle c => c.ltally
  | .collective c => c.ltally
  | .loop c => c.ltally
  | .skipIf c => c.ltally
  | .call c => c.ltally
  | .priv _ p => p.ltally

/-- Complete an execution successfully: its tally, then the head (R20 steps 3 to 5). -/
def State.finishExec (s : State) (q : Nat) (e : Exec) : State := (s.bumpField (cmdTally e.cmd)).endExec q e

/-- The started executions before an execution, in start order. -/
def execsBefore (e : Exec) : List Exec → List Exec
  | [] => []
  | x :: r => if x = e then [] else x :: execsBefore e r

/-- Whether a failure before an execution means that it can never complete (log 16). -/
def QSt.blocked (x : QSt) (e : Exec) : Bool :=
  match e.cmd with
  | .fence c => x.fails.any fun f => idxLe f.index e.index && (!c.scopeEp || decide (f.dest = some c.dest))
  | .endCmd _ => x.fails.any fun f => idxLe f.index e.index
  | .tallyAdd c => c.after && x.fails.any fun f => idxLe f.index e.index
  | _ => false

/-- Whether a started execution that waits for earlier ones is now complete (R125, R126, R138, R141). -/
def QSt.ready (x : QSt) (head : Nat) (e : Exec) : Bool :=
  let before := execsBefore e x.started
  match e.cmd with
  | .fence c => if c.scopeEp then !before.any fun b => decide (b.dest = some c.dest) else before.isEmpty
  | .endCmd _ => before.isEmpty
  | .tallyAdd c => c.after && (if (x.loopOf e.index).isSome then before.isEmpty else decide (head = e.index))
  | .cancel _ =>
    x.cancels.any fun r => decide (r.index = e.index) && r.outcome.isSome
      && !x.started.any fun n => decide (n.index = r.named)
  | _ => false

/-- A halt of queue `q` from RUNNING or WAIT: a wait not satisfied is discarded (R93). -/
def State.stopRunning (s : State) (q st : Nat) : State :=
  let s := (s.updQ q fun x => { x with wait := none, held := none }).disarm (.wait q)
  (s.wr .QU_STATE_STATE q st).wr .QU_STATE_DRAINED q 0

/-- Set DRAINED once no started entry remains, and publish (R93, R89, R91). -/
def State.checkDrained (s : State) (q : Nat) : State :=
  if (decide (s.qState q = qError) || decide (s.qState q = qHalted)) && (s.q q).started.isEmpty
      && !s.flag .QU_STATE_DRAINED q
  then (s.wr .QU_STATE_DRAINED q 1).publish q (decide (s.qState q = qError))
  else s

/-- A halt event for queue `q` (R92, R100). -/
def State.haltQueue (s : State) (q reason : Nat) : State :=
  let st := s.qState q
  if st = qRunning ∨ st = qWait then
    ((s.stopRunning q qHalted).wr .QU_STATE_HALT_REASON q reason).checkDrained q
  else if st = qError then
    let s := (s.wr .QU_STATE_STATE q qHalted).wr .QU_STATE_HALT_REASON q reason
    if s.flag .QU_STATE_DRAINED q then s.publish q false else s.checkDrained q
  else if st = qHalted then
    let old := s.rd .QU_STATE_HALT_REASON q
    if old ≠ 5 ∧ (reason = 5 ∨ old < reason) then s.wr .QU_STATE_HALT_REASON q reason else s
  else s

/-- The tally that a CANCEL increments for its outcome (R141). -/
def cancelTally (c : CancelCmd) : CancelOutcome → TallyField
  | .none => c.tNone
  | .part => c.tPart
  | .late => c.tLate

/-- Complete one execution that became ready. -/
def State.finishReady (s : State) (q : Nat) (e : Exec) : State :=
  match e.cmd with
  | .tallyAdd c => (s.addTally (tfNum c.tally) c.value).finishExec q e
  | .endCmd _ =>
    let s := s.finishExec q e
    if s.qState q = qRunning then s.haltQueue q 1 else s
  | .cancel c =>
    match (s.q q).cancels.find? fun r => decide (r.index = e.index) with
    | some r =>
      let s' := s.updQ q fun x => { x with cancels := x.cancels.erase r }
      if r.failed then s'.endExec q e
      else
        match r.outcome with
        | some o => (s'.bumpField (cancelTally c o)).finishExec q e
        | none => s
    | none => s
  | _ => s.finishExec q e

/-- Complete, one after another, the executions that earlier completions made ready; drop those that a failure
before them blocks. -/
def State.settleN (s : State) (q : Nat) : Nat → State
  | 0 => s
  | n + 1 =>
    let s := s.updQ q fun x => { x with started := x.started.filter fun e => !x.blocked e }
    match (s.q q).started.find? ((s.q q).ready (s.rd .QU_HEAD_HEAD q)) with
    | none => s
    | some e => State.settleN (s.finishReady q e) q n

/-- After an execution of queue `q` ended: what became ready, then DRAINED. -/
def State.settle (s : State) (q : Nat) : State :=
  (s.settleN q ((s.q q).started.length + 1)).checkDrained q

/-- The started execution of queue `q` at an index and iteration. -/
def State.execAt (s : State) (q i iter : Nat) : Option Exec :=
  (s.q q).started.find? fun e => decide (e.index = i ∧ e.iter = iter)

/-- Complete the execution at an index and iteration successfully. -/
def State.completeExec (s : State) (q i iter : Nat) : State :=
  match s.execAt q i iter with
  | none => s
  | some e => (s.finishExec q e).settle q

/-- Complete the execution at an index and iteration as cancelled: no tally (R110, R141). -/
def State.cancelExec (s : State) (q i iter : Nat) : State :=
  match s.execAt q i iter with
  | none => s
  | some e => (s.endExec q e).settle q

/-! ## Failures (R95) -/

/-- Whether a failure comes before the latched one, whose index is `e`, in start order (R95, R135): in one loop body by iteration first, else by
index. -/
def QSt.earlier (x : QSt) (r : FailRec) (e : Nat) : Bool :=
  let same := match x.loopOf e with | some l => l.body.any fun b => decide (b.1 = r.index) | none => decide (r.index = e)
  match x.failed with
  | some f => if same && decide (r.iter ≠ f.iter) then decide (r.iter < f.iter) else idxBefore r.index e
  | none => idxBefore r.index e

/-- Latch a failure of queue `q` (R95): the earliest failure in start order stays. -/
def State.latch (s : State) (q : Nat) (r : FailRec) (cause : Nat) : State :=
  let s := s.updQ q fun x => { x with fails := x.fails ++ [r] }
  if s.rd .QU_STATE_CAUSE q = 0 then
    ((s.wr .QU_STATE_ERR_INDEX q r.index).wr .QU_STATE_CAUSE q cause).updQ q fun x => { x with failed := some r }
  else
    let s := s.wr .QU_STATE_ERR_MULTI q 1
    if (s.q q).earlier r (s.rd .QU_STATE_ERR_INDEX q) then
      ((s.wr .QU_STATE_ERR_INDEX q r.index).wr .QU_STATE_CAUSE q cause).updQ q fun x => { x with failed := some r }
    else s

/-- A failure of queue `q`: latched; a RUNNING or WAIT queue enters ERROR, a HALTED one stays (R92, R95, R100). -/
def State.failQueue (s : State) (q : Nat) (r : FailRec) (cause : Nat) : State :=
  let s := (s.latch q r cause).logRec 1 0x01 .loopError q [r.index, r.iter, cause]
  let st := s.qState q
  if st = qRunning ∨ st = qWait then ((s.stopRunning q qError).count 233 5).settle q
  else s.settle q

/-- Mark the CANCELs that name an execution as overtaken by its failure (R141). -/
def QSt.cancelFails (x : QSt) (i : Nat) : QSt :=
  { x with cancels := x.cancels.map fun r =>
      if r.named = i then { r with failed := true, outcome := some .late } else r }

/-- Fail the started execution at an index and iteration. -/
def State.failExec (s : State) (q i iter cause : Nat) : State :=
  match s.execAt q i iter with
  | none => s
  | some e =>
    let s := s.updQ q fun x => { x with started := x.started.erase e }.cancelFails i
    s.failQueue q ⟨i, iter, e.slots, true, e.dest⟩ cause

/-! ## Halts, resumes, freeing -/

/-- The place of an index in a loop's body. -/
def bodyPos (i : Nat) : List (Nat × Nat) → Nat
  | [] => 0
  | b :: r => if b.1 = i then 0 else bodyPos i r + 1

/-- One step of the cursor past an entry that is already done (R99): in a loop body, one whose execution of this iteration is. -/
def QSt.passOne (x : QSt) : Option (Nat × Nat) :=
  let i := x.cursor
  let here := match x.loops.find? (·.active) with | some l => if l.body.any (fun b => decide (b.1 = i)) then some l else none | none => none
  match here with
  | some l =>
    if x.doneExecs.contains (i, l.iter) then l.body.find? fun b => decide (b.1 = i) else x.done.find? fun d => decide (d.1 = i)
  | none => x.done.find? fun d => decide (d.1 = i)

/-- The loop that a queue runs. -/
def QSt.activeLoop (x : QSt) : Option LoopRec := x.loops.find? (·.active)

/-- Keep the active loop in step with the cursor: past the end of the body the next iteration starts, or the loop has
started everything. -/
def QSt.loopSync (x : QSt) : QSt :=
  match x.activeLoop with
  | none => x
  | some l =>
    let first := idxAdd l.index 1
    let stop := idxAdd first l.cmd.body
    let set (l' : LoopRec) : List LoopRec := x.loops.map fun m => if m.index = l.index then l' else m
    if x.cursor = stop then
      if l.iter + 1 < l.cmd.count then { x with cursor := first, loops := set { l with iter := l.iter + 1, pos := 0 } }
      else { x with loops := set { l with active := false } }
    else { x with loops := set { l with pos := bodyPos x.cursor l.body } }

/-- The iteration that the entry at an index starts in. -/
def QSt.iterAt (x : QSt) (i : Nat) : Nat :=
  match x.activeLoop with
  | some l => if l.body.any (fun b => decide (b.1 = i)) then l.iter else 0
  | none => 0

/-- A queue with its cursor at the next entry that is not done; `fuel` bounds the entries passed. -/
def QSt.toNext (x : QSt) : Nat → QSt
  | 0 => x
  | fuel + 1 =>
    match x.passOne with
    | none => x
    | some b => QSt.toNext { x with cursor := idxAdd b.1 b.2 }.loopSync fuel

/-- Where a stop that names no entry latches its failure (R63, R65): the lowest index at or after HEAD whose entry, in a loop body whose execution,
has not started, or PI. -/
def State.firstUnstarted (s : State) (q : Nat) : FailRec :=
  let x := (s.q q).toNext ((s.q q).done.length + (s.q q).doneExecs.length)
  if idxLe x.cursor (s.rd .QU_PI_PI q) then ⟨x.cursor, x.iterAt x.cursor, 0, false, none⟩ else ⟨s.rd .QU_PI_PI q, 0, 0, false, none⟩

/-- Stop the queues of a job slot for a cause that names no entry (R63, R65): RUNNING and WAIT queues enter ERROR;
`halted` says whether a HALTED queue takes HALT_REASON 5 (R65). -/
def State.stopJobQueues (s : State) (j cause : Nat) (halted : Bool) : State :=
  forEach (fun s q =>
    let st := s.qState q
    if st = qRunning ∨ st = qWait then s.failQueue q (s.firstUnstarted q) cause
    else if st = qHalted ∧ halted then s.haltQueue q 5
    else s) (s.boundQueues (s.qOfJob j)) s

/-- Every queue of a freed job slot becomes DISABLED, its indices and error fields kept (R92). -/
def State.disableJobQueues (s : State) (j : Nat) : State :=
  forEach (fun s q =>
    let s := (((s.wr .QU_STATE_STATE q qDisabled).wr .QU_STATE_HALT_REASON q 0).disarm (.coal q)).disarm (.wait q)
    s.updQ q fun x => { x with started := [], loops := [], wait := none, resume := none, noJob := true })
    (s.boundQueues (s.qOfJob j)) s

/-- Skip the latched execution: it completes as skipped (R98, R135). -/
def State.skipFailed (s : State) (q : Nat) : State :=
  match (s.q q).failed with
  | some r => if r.decoded then s.updQ q fun x => x.markDone r.index r.iter r.slots else s
  | none => s

/-- Go back to the latched execution: the loop whose body holds it resumes at its iteration, and loops that started
after it start again when their entry does (R98, R99, R135). The cursor never moves forward (log 15). -/
def QSt.rewind (x : QSt) (i iter : Nat) : QSt :=
  let c := if idxBefore x.cursor i then x.cursor else i
  { x with
    cursor := c, reads := [], fetched := x.fetched.keep fun k _ => idxBefore k c,
    loops := (x.loops.filter fun l => idxBefore l.index c).map fun l =>
      if l.body.any fun b => decide (b.1 = i) then { l with iter := iter, pos := bodyPos i l.body, active := true }
      else l }

/-- RESUME, or with `skip` RESUME_SKIP, of a drained queue in ERROR (R98). -/
def State.resumeQueue (s : State) (q : Nat) (skip : Bool) : State :=
  let i := s.rd .QU_STATE_ERR_INDEX q
  let iter := match (s.q q).failed with | some r => r.iter | none => 0
  let s := if skip then s.skipFailed q else s
  let s := s.updQ q fun x => { x.rewind i iter with failed := none, fails := [], resume := none, cancels := [] }
  let s := s.wrAll q [(.QU_CI_CI, (s.q q).cursor), (.QU_STATE_CAUSE, 0), (.QU_STATE_ERR_MULTI, 0),
    (.QU_STATE_ERR_INDEX, 0), (.QU_STATE_STATE, qRunning), (.QU_STATE_DRAINED, 0)]
  ((s.closeLoops q (s.q q).loops).advanceHead q).settle q

end Sys2Proof.Machine
end

