-- ==== Sys2Proof/Machine/Crypto.lean ====
section
/-! DEFINITION. The cryptographic algorithms that the specification names: SHA-384 (R50, R69), HMAC and HKDF with it (R60, R66), AES-256-GCM
(R54, R59, R66), ECDSA on P-384 (R50, R68). Their definitions are those of the standards with these names (PRESUMED: the specification
does not repeat them; log 9). Bytes and words are natural numbers here. -/

namespace Sys2Proof.Machine

/-! ## Byte strings -/

/-- The number that bytes give, the first one highest. -/
def ofBe (l : List Nat) : Nat := l.foldl (fun a b => a * 256 + b) 0

/-- A number as `n` bytes, the highest first. -/
def toBe (n x : Nat) : List Nat := (List.range n).map fun i => x / 256 ^ (n - 1 - i) % 256

/-- The first `k` cutEvery of `n` of a list. -/
def cutEvery (n : Nat) : Nat → List Nat → List (List Nat)
  | 0, _ => []
  | k + 1, l => l.take n :: cutEvery n k (l.drop n)

/-- Bytes as numbers, and numbers as bytes. -/
def natsOf (l : List Byte) : List Nat := l.map (·.toNat)
def bytesOfNats (l : List Nat) : List Byte := l.map (BitVec.ofNat 8)

/-! ## SHA-384 -/

/-- A word of 64 bits. -/
def shaCut (x : Nat) : Nat := x % 0x10000000000000000

/-- A word rotated right. -/
def rotr64 (x n : Nat) : Nat := (x >>> n) ||| shaCut (x <<< (64 - n))

/-- The functions σ0, σ1, Σ0, Σ1 of the standard. -/
def shaSmall0 (x : Nat) : Nat := rotr64 x 1 ^^^ rotr64 x 8 ^^^ (x >>> 7)
def shaSmall1 (x : Nat) : Nat := rotr64 x 19 ^^^ rotr64 x 61 ^^^ (x >>> 6)
def shaBig0 (x : Nat) : Nat := rotr64 x 28 ^^^ rotr64 x 34 ^^^ rotr64 x 39
def shaBig1 (x : Nat) : Nat := rotr64 x 14 ^^^ rotr64 x 18 ^^^ rotr64 x 41

/-- The initial hash value. -/
def shaInit : List Nat :=
  [0xcbbb9d5dc1059ed8, 0x629a292a367cd507, 0x9159015a3070dd17, 0x152fecd8f70e5939, 0x67332667ffc00b31,
   0x8eb44a8768581511, 0xdb0c2e0d64f98fa7, 0x47b5481dbefa4fa4]

/-- The round constants. -/
def shaK0 : List Nat :=
  [0x428a2f98d728ae22, 0x7137449123ef65cd, 0xb5c0fbcfec4d3b2f, 0xe9b5dba58189dbbc, 0x3956c25bf348b538,
   0x59f111f1b605d019, 0x923f82a4af194f9b, 0xab1c5ed5da6d8118, 0xd807aa98a3030242, 0x12835b0145706fbe,
   0x243185be4ee4b28c, 0x550c7dc3d5ffb4e2, 0x72be5d74f27b896f, 0x80deb1fe3b1696b1, 0x9bdc06a725c71235,
   0xc19bf174cf692694, 0xe49b69c19ef14ad2, 0xefbe4786384f25e3, 0x0fc19dc68b8cd5b5, 0x240ca1cc77ac9c65]
def shaK1 : List Nat :=
  [0x2de92c6f592b0275, 0x4a7484aa6ea6e483, 0x5cb0a9dcbd41fbd4, 0x76f988da831153b5, 0x983e5152ee66dfab,
   0xa831c66d2db43210, 0xb00327c898fb213f, 0xbf597fc7beef0ee4, 0xc6e00bf33da88fc2, 0xd5a79147930aa725,
   0x06ca6351e003826f, 0x142929670a0e6e70, 0x27b70a8546d22ffc, 0x2e1b21385c26c926, 0x4d2c6dfc5ac42aed,
   0x53380d139d95b3df, 0x650a73548baf63de, 0x766a0abb3c77b2a8, 0x81c2c92e47edaee6, 0x92722c851482353b]
def shaK2 : List Nat :=
  [0xa2bfe8a14cf10364, 0xa81a664bbc423001, 0xc24b8b70d0f89791, 0xc76c51a30654be30, 0xd192e819d6ef5218,
   0xd69906245565a910, 0xf40e35855771202a, 0x106aa07032bbd1b8, 0x19a4c116b8d2d0c8, 0x1e376c085141ab53,
   0x2748774cdf8eeb99, 0x34b0bcb5e19b48a8, 0x391c0cb3c5c95a63, 0x4ed8aa4ae3418acb, 0x5b9cca4f7763e373,
   0x682e6ff3d6b2b8a3, 0x748f82ee5defb2fc, 0x78a5636f43172f60, 0x84c87814a1f0ab72, 0x8cc702081a6439ec]
def shaK3 : List Nat :=
  [0x90befffa23631e28, 0xa4506cebde82bde9, 0xbef9a3f7b2c67915, 0xc67178f2e372532b, 0xca273eceea26619c,
   0xd186b8c721c0c207, 0xeada7dd6cde0eb1e, 0xf57d4f7fee6ed178, 0x06f067aa72176fba, 0x0a637dc5a2c898a6,
   0x113f9804bef90dae, 0x1b710b35131c471b, 0x28db77f523047d84, 0x32caab7b40c72493, 0x3c9ebe0a15c9bebc,
   0x431d67c49c100d4c, 0x4cc5d4becb3e42b6, 0x597f299cfc657e2a, 0x5fcb6fab3ad6faec, 0x6c44198c4a475817]

/-- The message schedule: the first `n` words that a block's 16 words give. -/
def shaSchedule : Nat → List Nat → List Nat
  | 0, _ => []
  | n + 1, l =>
    match l with
    | w0 :: r => w0 :: shaSchedule n (r ++ [shaCut (shaSmall1 (r.getD 13 0) + r.getD 8 0 + shaSmall0 (r.getD 0 0) + w0)])
    | [] => []

/-- The rounds of a block on the eight working variables. -/
def shaRounds : List Nat → List Nat → Nat → Nat → Nat → Nat → Nat → Nat → Nat → Nat → List Nat
  | k :: ks, w :: ws, a, b, c, d, e, f, g, h =>
    let t1 := h + shaBig1 e + ((e &&& f) ^^^ ((0xffffffffffffffff ^^^ e) &&& g)) + k + w
    let t2 := shaBig0 a + ((a &&& b) ^^^ (a &&& c) ^^^ (b &&& c))
    shaRounds ks ws (shaCut (t1 + t2)) a b c (shaCut (d + t1)) e f g
  | _, _, a, b, c, d, e, f, g, h => [a, b, c, d, e, f, g, h]

/-- A block of 128 bytes compressed into a hash value. -/
def shaBlock (st block : List Nat) : List Nat :=
  let w := shaSchedule 80 ((cutEvery 8 16 block).map ofBe)
  let g (i : Nat) : Nat := st.getD i 0
  List.zipWith (fun x y => shaCut (x + y)) st
    (shaRounds (shaK0 ++ shaK1 ++ shaK2 ++ shaK3) w (g 0) (g 1) (g 2) (g 3) (g 4) (g 5) (g 6) (g 7))

/-- A message with its padding. -/
def shaPad (m : List Nat) : List Nat :=
  m ++ [0x80] ++ List.replicate ((239 - m.length % 128) % 128) 0 ++ toBe 16 (8 * m.length)

/-- SHA-384 of bytes, as a number of 384 bits whose highest byte is the first. -/
def sha384 (m : List Nat) : Nat :=
  let p := shaPad m
  (((cutEvery 128 (p.length / 128) p).foldl shaBlock shaInit).take 6).foldl (fun a w => a * 2 ^ 64 + w) 0

/-! ## HMAC and HKDF -/

/-- HMAC-SHA-384 under a key of at most 128 bytes. -/
def hmac384 (key m : List Nat) : Nat :=
  let k := key ++ List.replicate (128 - key.length) 0
  sha384 (k.map (· ^^^ 0x5c) ++ toBe 48 (sha384 (k.map (· ^^^ 0x36) ++ m)))

/-- HKDF with SHA-384, no salt and an output of 32 bytes (R60), as a number. -/
def hkdf384 (key info : List Nat) : Nat :=
  hmac384 (toBe 48 (hmac384 (List.replicate 48 0) key)) (info ++ [1]) / 2 ^ 128

/-! ## AES-256 -/

/-- The substitution box: entry x is byte x of this number. -/
def aesBoxBits : Nat :=
  0x16bb54b00f2d99416842e6bf0d89a18cdf2855cee9871e9b948ed9691198f8e19e1dc186b95735610ef6034866b53e708a8bbd4b1f74dde8c6b4a61c2e2578ba08ae7a65eaf4566ca94ed58d6d37c8e779e4959162acd3c25c2406490a3a32e0db0b5ede14b8ee4688902a22dc4f816073195d643d7ea7c41744975fec130ccdd2f3ff1021dab6bcf5389d928f40a351a89f3c507f02f94585334d43fbaaefd0cf584c4a39becb6a5bb1fc20ed00d153842fe329b3d63b52a05a6e1b1a2c830975b227ebe28012079a059618c323c7041531d871f1e5a534ccf73f362693fdb7c072a49cafa2d4adf04759fa7dc982ca76abd7fe2b670130c56f6bf27b777c63

/-- The substitution of a byte. -/
def aesSub (x : Nat) : Nat := (aesBoxBits >>> (8 * x)) % 256

/-- Twice a byte in the field of AES. -/
def aesDouble (x : Nat) : Nat := if x < 128 then 2 * x else (2 * x) % 256 ^^^ 0x1b

/-- A column of the state mixed. -/
def aesMix : List Nat → List Nat
  | [a, b, c, d] =>
    let t := a ^^^ b ^^^ c ^^^ d
    [a ^^^ t ^^^ aesDouble (a ^^^ b), b ^^^ t ^^^ aesDouble (b ^^^ c), c ^^^ t ^^^ aesDouble (c ^^^ d), d ^^^ t ^^^ aesDouble (d ^^^ a)]
  | l => l

/-- The rows of a state shifted: the state lists its columns one after the other. -/
def aesShift (l : List Nat) : List Nat := (List.range 16).map fun i => l.getD ((i + 4 * (i % 4)) % 16) 0

/-- The next word of the key schedule, `i` its number, from the eight words before it. -/
def aesKeyWord (i : Nat) (first last : List Nat) : List Nat :=
  let t :=
    if i % 8 = 0 then
      match last.map aesSub with
      | [a, b, c, d] => [b ^^^ 2 ^ (i / 8 - 1), c, d, a]
      | l => l
    else if i % 8 = 4 then last.map aesSub else last
  List.zipWith (· ^^^ ·) first t

/-- The key schedule from word `i` on: the first `n` words that the last eight words `l` lead to, those included. -/
def aesSchedule : Nat → Nat → List (List Nat) → List (List Nat)
  | 0, _, _ => []
  | n + 1, i, l =>
    match l with
    | w :: r => w :: aesSchedule n (i + 1) (r ++ [aesKeyWord i w (r.getLastD [])])
    | [] => []

/-- The round keys of a 256-bit key: fifteen of 16 bytes. -/
def aesKeys (key : Nat) : List (List Nat) :=
  cutEvery 16 15 (aesSchedule 60 8 (cutEvery 4 8 (toBe 32 key))).flatten

/-- The rounds of a block, the last without mixing. -/
def aesRounds : List (List Nat) → List Nat → List Nat
  | [], st => st
  | [k], st => List.zipWith (· ^^^ ·) k (aesShift (st.map aesSub))
  | k :: ks, st =>
    aesRounds ks (List.zipWith (· ^^^ ·) k ((cutEvery 4 4 (aesShift (st.map aesSub))).flatMap aesMix))

/-- AES of a block under round keys. -/
def aesBlock (keys : List (List Nat)) (block : List Nat) : List Nat :=
  match keys with
  | k :: ks => aesRounds ks (List.zipWith (· ^^^ ·) k block)
  | [] => block

/-! ## GCM -/

/-- The product of two blocks in the field of GCM: `v` runs through the multiples of the second by powers of x, over the first `n` bits
of the first from its highest. -/
def gcmTimes (x : Nat) : Nat → Nat → Nat → Nat
  | 0, _, z => z
  | n + 1, v, z =>
    let z := if x.testBit n then z ^^^ v else z
    gcmTimes x n (if v % 2 = 1 then (v >>> 1) ^^^ (0xe1 <<< 120) else v >>> 1) z

/-- GHASH of bytes cut into blocks and padded with 0, from a value on. -/
def gcmHash (h y : Nat) (l : List Nat) : Nat :=
  (cutEvery 16 ((l.length + 15) / 16) l).foldl (fun y b => gcmTimes (y ^^^ ofBe (b ++ List.replicate (16 - b.length) 0)) 128 h 0) y

/-- Counter mode from counter `n` on under a 12-byte nonce. -/
def gcmStream (keys : List (List Nat)) (nonce : List Nat) : Nat → List (List Nat) → List Nat
  | _, [] => []
  | n, b :: r => List.zipWith (· ^^^ ·) b (aesBlock keys (nonce ++ toBe 4 n)) ++ gcmStream keys nonce (n + 1) r

/-- Encryption or decryption of bytes. -/
def gcmCrypt (keys : List (List Nat)) (nonce text : List Nat) : List Nat :=
  gcmStream keys nonce 2 (cutEvery 16 ((text.length + 15) / 16) text)

/-- The tag over additional data and ciphertext. -/
def gcmTag (keys : List (List Nat)) (nonce aad cipher : List Nat) : List Nat :=
  let h := ofBe (aesBlock keys (List.replicate 16 0))
  let y := gcmHash h (gcmHash h 0 aad) cipher
  let y := gcmTimes (y ^^^ (8 * aad.length * 2 ^ 64 + 8 * cipher.length)) 128 h 0
  List.zipWith (· ^^^ ·) (toBe 16 y) (aesBlock keys (nonce ++ toBe 4 1))

/-- AES-256-GCM: the ciphertext followed by the 16-byte tag. -/
def gcmSeal (key : Nat) (nonce aad text : List Nat) : List Nat :=
  let keys := aesKeys key
  let c := gcmCrypt keys nonce text
  c ++ gcmTag keys nonce aad c

/-- AES-256-GCM opened: the plaintext where the tag verifies. -/
def gcmOpen (key : Nat) (nonce aad sealed : List Nat) : Option (List Nat) :=
  if sealed.length < 16 then none
  else
    let keys := aesKeys key
    let c := sealed.take (sealed.length - 16)
    if gcmTag keys nonce aad c = sealed.drop (sealed.length - 16) then some (gcmCrypt keys nonce c) else none

/-! ## ECDSA on P-384 -/

/-- The field's prime, the group's order, the curve's second coefficient and the base point. -/
def p384P : Nat := 2 ^ 384 - 2 ^ 128 - 2 ^ 96 + 2 ^ 32 - 1
def p384N : Nat := 0xffffffffffffffffffffffffffffffffffffffffffffffffc7634d81f4372ddf581a0db248b0a77aecec196accc52973
def p384B : Nat := 0xb3312fa7e23ee7e4988e056be3f82d19181d9c6efe8141120314088f5013875ac656398d8a2ed19d2a85c8edd3ec2aef
def p384X : Nat := 0xaa87ca22be8b05378eb1c71ef320ad746e1d3b628ba79b9859f741e082542a385502f25dbf55296c3a545e3872760ab7
def p384Y : Nat := 0x3617de4a96262c6f5d9e98bf9292dc29f8f41dbd289a147ce9da3113b5f0b8c00a60b1ce1d7e819d7a431d7c90ea0e5f

/-- The power b^e modulo m, over the lowest n bits of e. -/
def powMod (m b : Nat) : Nat → Nat → Nat
  | 0, _ => 1
  | n + 1, e =>
    let r := powMod m b n (e / 2)
    let r := r * r % m
    if e % 2 = 1 then r * b % m else r

/-- A point in Jacobian coordinates; z 0 is the neutral one. -/
structure CurvePt where
  x : Nat
  y : Nat
  z : Nat

/-- Twice a point. -/
def CurvePt.double (p : CurvePt) : CurvePt :=
  let d := p.z * p.z % p384P
  let g := p.y * p.y % p384P
  let b := p.x * g % p384P
  let a := 3 * ((p.x + p384P - d) * (p.x + d)) % p384P
  let x := (a * a + 8 * p384P - 8 * b) % p384P
  ⟨x, (a * (4 * b + p384P - x) + (8 * p384P - 8 * (g * g % p384P))) % p384P, 2 * p.y * p.z % p384P⟩

/-- The sum of two points. -/
def CurvePt.add (p q : CurvePt) : CurvePt :=
  if p.z = 0 then q
  else if q.z = 0 then p
  else
    let z1 := p.z * p.z % p384P
    let z2 := q.z * q.z % p384P
    let u1 := p.x * z2 % p384P
    let u2 := q.x * z1 % p384P
    let s1 := p.y * q.z % p384P * z2 % p384P
    let s2 := q.y * p.z % p384P * z1 % p384P
    if u1 = u2 then (if s1 = s2 then p.double else ⟨0, 1, 0⟩)
    else
      let h := (u2 + p384P - u1) % p384P
      let r := (s2 + p384P - s1) % p384P
      let hh := h * h % p384P
      let hhh := h * hh % p384P
      let v := u1 * hh % p384P
      let x := (r * r + 3 * p384P - hhh - 2 * v) % p384P
      ⟨x, (r * (v + p384P - x) + (p384P - s1) * hhh) % p384P, p.z * q.z % p384P * h % p384P⟩

/-- u times `a` plus v times `b`, with `c` their sum, over the lowest n bits of u and v. -/
def curveSum (a b c : CurvePt) : Nat → Nat → Nat → CurvePt
  | 0, _, _ => ⟨0, 1, 0⟩
  | n + 1, u, v =>
    let r := (curveSum a b c n (u / 2) (v / 2)).double
    if u % 2 = 1 then (if v % 2 = 1 then r.add c else r.add a) else if v % 2 = 1 then r.add b else r

/-- The affine coordinates of a point that is not the neutral one. -/
def CurvePt.affine (t : CurvePt) : Option (Nat × Nat) :=
  if t.z = 0 then none
  else
    let zi := powMod p384P t.z 384 (p384P - 2)
    let z2 := zi * zi % p384P
    some (t.x * z2 % p384P, t.y * z2 % p384P * zi % p384P)

/-- `d` times the point with these coordinates. -/
def curveMul (d x y : Nat) : Option (Nat × Nat) :=
  let g : CurvePt := ⟨x, y, 1⟩
  (curveSum g g g 384 (d % p384N) 0).affine

/-- Whether coordinates are those of a point of the curve. -/
def onCurve (x y : Nat) : Bool :=
  decide (x < p384P ∧ y < p384P ∧ y * y % p384P = (x * x % p384P * x + (p384P - 3) * x + p384B) % p384P)

/-- Whether (r, s) is the ECDSA signature of a digest under a public key. -/
def ecdsaOk (x y digest r s : Nat) : Bool :=
  if !onCurve x y || decide (r = 0 ∨ p384N ≤ r ∨ s = 0 ∨ p384N ≤ s) then false
  else
    let w := powMod p384N s 384 (p384N - 2)
    let g : CurvePt := ⟨p384X, p384Y, 1⟩
    let q : CurvePt := ⟨x, y, 1⟩
    let t := curveSum g q (g.add q) 384 (digest * w % p384N) (r * w % p384N)
    let zi := powMod p384P t.z 384 (p384P - 2)
    decide (t.z ≠ 0 ∧ t.x * (zi * zi % p384P) % p384P % p384N = r)

/-- Whether bytes are an uncompressed point of the curve (R50), as its coordinates. -/
def pointOf (l : List Nat) : Option (Nat × Nat) :=
  match l with
  | 4 :: r => if r.length = 96 ∧ onCurve (ofBe (r.take 48)) (ofBe (r.drop 48)) then some (ofBe (r.take 48), ofBe (r.drop 48)) else none
  | _ => none

end Sys2Proof.Machine
end

