-- ==== Sys2Proof/Machine/Wire.lean ====
section
/-! DEFINITION. Packets as bytes: the header (R149, R267, R269, R288), the plaintext of each packet type (R150, R161, R163, R186, R197,
R225, R228, R257, R258, R377), check 1 of R154, and the encryption and tag of a job packet (R59, R60). -/

namespace Sys2Proof.Machine

/-! ## The header -/

/-- A bit as a number. -/
def bit01 (b : Bool) : Nat := if b then 1 else 0

/-- FLAGS of a job packet's header (R149); bit 0 of `rsv` is the reserved bit 7. -/
def Packet.flagByte (p : Packet) : Nat :=
  p.cls % 4 + 4 * bit01 p.opn + 8 * bit01 p.last + 16 * bit01 p.ord + 32 * bit01 p.creq + 64 * bit01 p.abort + 128 * bitsOf p.rsv 0 1

/-- ROUTE, the byte that routers change (R149, R150, R269); bit 1 of `rsv` is its reserved bit 3. -/
def Packet.routeByte (p : Packet) : Nat :=
  p.vc % 2 + 2 * bit01 p.detour + 4 * bit01 p.mark + 8 * bitsOf p.rsv 1 1 + 16 * (p.hops % 16)

/-- KEYSEL (R149); bits 5:2 of `rsv` are its reserved bits 7:4. -/
def Packet.keyByte (p : Packet) : Nat := p.gen % 4 + 4 * (p.stream % 4) + 16 * bitsOf p.rsv 2 4

/-- The 48 bytes of a job packet's header with a given ROUTE (R149); bits 13:6 of `rsv` are the reserved byte 15. -/
def Packet.headerBytes (p : Packet) (route : Nat) : List Byte :=
  leBytes 1 p.ptype ++ leBytes 1 (Packet.flagByte p) ++ leBytes 1 route ++ leBytes 1 (Packet.keyByte p) ++ leBytes 4 p.dest ++ leBytes 4 p.src
    ++ leBytes 3 p.job ++ leBytes 1 (bitsOf p.rsv 6 8) ++ leBytes 2 p.epoch ++ leBytes 2 p.length ++ leBytes 4 p.psn ++ leBytes 4 p.txc
    ++ leBytes 4 p.ts ++ leBytes 8 p.session ++ leBytes 4 p.mtag ++ leBytes 4 p.offset

/-! ## Operation blocks -/

/-- The 32 bytes of an operation block (R186, R225, R228, R377). -/
def OpBlock.bytes : OpBlock → List Byte
  | .oneSided op rlx fetch size64 signed aop rtally key length roff operand =>
    leBytes 1 op ++ leBytes 1 (bit01 rlx + 2 * bit01 fetch + 4 * bit01 size64 + 8 * bit01 signed) ++ leBytes 2 aop ++ leBytes 4 rtally
      ++ leBytes 4 key ++ leBytes 4 length ++ leBytes 8 roff ++ leBytes 8 operand
  | .send sync rdv comm rank length tag handle =>
    leBytes 1 0x0C ++ leBytes 3 (bit01 sync + 2 * bit01 rdv) ++ leBytes 4 comm ++ leBytes 4 rank ++ leBytes 4 length ++ leBytes 8 tag
      ++ leBytes 8 handle
  | .pull length handle => leBytes 4 0x0E ++ leBytes 4 length ++ leBytes 8 handle ++ leBytes 16 0
  | .hmsg mcast handler ferry length rlen =>
    leBytes 1 0x0F ++ leBytes 1 (bit01 mcast) ++ leBytes 1 handler ++ leBytes 1 ferry ++ leBytes 4 length ++ leBytes 2 rlen ++ leBytes 22 0

/-- An operation block read from its 32 bytes; none where the code is unknown, a reserved field is not 0, or an eager SEND is longer than
65,536 bytes (R226). -/
def decodeOp (bs : List Byte) : Option OpBlock :=
  let fl := leAt bs 1 1
  match leAt bs 0 1 with
  | 0x0C =>
    let rdv := bitOf fl 1
    if fl < 4 ∧ zeros bs 2 2 ∧ (rdv ∨ (leAt bs 12 4 ≤ 65536 ∧ leAt bs 24 8 = 0)) then
      some (.send (bitOf fl 0) rdv (leAt bs 4 4) (leAt bs 8 4) (leAt bs 12 4) (leAt bs 16 8) (leAt bs 24 8))
    else none
  | 0x0E => if zeros bs 1 3 ∧ zeros bs 16 16 then some (.pull (leAt bs 4 4) (leAt bs 8 8)) else none
  | 0x0F => if fl < 2 ∧ zeros bs 10 22 then some (.hmsg (bitOf fl 0) (leAt bs 2 1) (leAt bs 3 1) (leAt bs 4 4) (leAt bs 8 2)) else none
  | op =>
    if 0x08 ≤ op ∧ op ≤ 0x0B ∧ fl < 16 ∧ zeros bs 3 1 ∧ zeros bs 7 1 ∧ zeros bs 22 2 ∧ leAt bs 2 1 < 8
        ∧ (op = 0x0B ∨ (leAt bs 2 1 = 0 ∧ leAt bs 24 8 = 0)) then
      some (.oneSided op (bitOf fl 0) (bitOf fl 1) (bitOf fl 2) (bitOf fl 3) (leAt bs 2 1) (leAt bs 4 3) (leAt bs 8 4) (leAt bs 12 4)
        (leAt bs 16 6) (leAt bs 24 8))
    else none

/-- The data bytes that may follow an operation block (R186, R225, R228, R377). -/
def OpBlock.dataOk (b : OpBlock) (n : Nat) : Bool :=
  match b with
  | .oneSided op _ _ _ _ aop _ _ _ _ _ => if op = 0x0A then decide (n = 0) else if op = 0x0B then decide (n = if aop = 2 then 8 else 0) else decide (n ≤ 4096)
  | .send _ rdv .. => decide (n ≤ if rdv then 0 else 4096)
  | .pull .. => decide (n = 0)
  | .hmsg .. => decide (n ≤ 4096)

/-! ## The other plaintexts -/

/-- A RESP-STATUS entry (R163). -/
def StatusEntry.bytes (e : StatusEntry) : List Byte := leBytes 4 e.mtag ++ leBytes 4 e.cause ++ leBytes 8 e.value
def decodeStatus (bs : List Byte) : Option StatusEntry :=
  if leAt bs 0 4 < 2 ^ 17 ∧ zeros bs 5 3 then some ⟨leAt bs 0 4, leAt bs 4 1, leAt bs 8 8⟩ else none

/-- All of a list of options, or none. -/
def allSome {α : Type} : List (Option α) → Option (List α)
  | [] => some []
  | none :: _ => none
  | some a :: r => (allSome r).map fun l => a :: l

/-- A list of bytes cut into pieces of `n`, the last perhaps shorter. -/
def cutBytes (n : Nat) (bs : List Byte) : List (List Byte) := chunksOf bs.length n bs

/-- The ACK plaintext (R161). -/
def AckBody.bytes (a : AckBody) : List Byte :=
  leBytes 4 a.cum ++ (List.range 3).flatMap (fun k => match a.sack[k]? with | some b => leBytes 4 (b.1 + 1024 * b.2 + 2 ^ 31) | none => leBytes 4 0)
    ++ leBytes 1 a.npkt ++ leBytes 1 a.nmark ++ leBytes 2 a.hops ++ leBytes 4 a.owd ++ leBytes 4 a.echoTs
    ++ leBytes 4 (match a.grantTag with | some t => t + 2 ^ 31 | none => 0) ++ leBytes 4 a.grant ++ leBytes 12 0
def decodeAck (bs : List Byte) : Option AckBody :=
  let block (k : Nat) : Nat := leAt bs (4 + 4 * k) 4
  let ok (v : Nat) : Bool :=
    !bitOf v 31 || (decide (bitsOf v 21 10 = 0 ∧ 1 ≤ bitsOf v 0 10 ∧ 1 ≤ bitsOf v 10 11 ∧ bitsOf v 10 11 ≤ 1023 ∧ bitsOf v 0 10 + bitsOf v 10 11 ≤ 1024))
  let tag := leAt bs 28 4
  if bs.length = 48 ∧ (List.range 3).all (fun k => ok (block k)) ∧ zeros bs 19 1 ∧ bitsOf tag 17 14 = 0 ∧ zeros bs 36 12 then
    some {
      cum := leAt bs 0 4,
      sack := (List.range 3).filterMap fun k => if bitOf (block k) 31 then some (bitsOf (block k) 0 10, bitsOf (block k) 10 11) else none,
      npkt := leAt bs 16 1, nmark := leAt bs 17 1, hops := leAt bs 18 1, owd := leAt bs 20 4, echoTs := leAt bs 24 4,
      grantTag := if bitOf tag 31 then some (bitsOf tag 0 17) else none, grant := leAt bs 32 4 }
  else none

/-- The 32-byte COLL header (R257). -/
def CollHdr.bytes (h : CollHdr) : List Byte :=
  leBytes 1 h.kind ++ leBytes 1 (bit01 h.fixed + 2 * bit01 h.last + 4 * bit01 h.replay) ++ leBytes 1 h.opkind ++ leBytes 1 h.operator
    ++ leBytes 1 h.dtype ++ leBytes 1 h.cause ++ leBytes 2 h.ctx ++ leBytes 4 h.inst ++ leBytes 4 h.count ++ leBytes 4 h.elem
    ++ leBytes 2 h.nelem ++ leBytes 2 h.nesc ++ leBytes 2 h.exp ++ leBytes 2 h.credit ++ leBytes 4 h.build
def decodeCollHdr (bs : List Byte) : Option CollHdr :=
  let fl := leAt bs 1 1
  let kind := leAt bs 0 1
  if 1 ≤ kind ∧ kind ≤ 9 ∧ fl < 8 ∧ leAt bs 4 1 < 8 ∧ leAt bs 6 2 < 4096 ∧ zeros bs 30 2
      ∧ (if kind = 6 then leAt bs 5 1 = 0x21 ∨ leAt bs 5 1 = 0x22 else leAt bs 5 1 = 0) then
    some {
      kind := kind, fixed := bitOf fl 0, last := bitOf fl 1, replay := bitOf fl 2, opkind := leAt bs 2 1, operator := leAt bs 3 1,
      dtype := leAt bs 4 1, cause := leAt bs 5 1, ctx := leAt bs 6 2, inst := leAt bs 8 4, count := leAt bs 12 4, elem := leAt bs 16 4,
      nelem := leAt bs 20 2, nesc := leAt bs 22 2, exp := leAt bs 24 2, credit := leAt bs 26 2, build := leAt bs 28 2 }
  else none

/-- The bytes of a window, and of the integer of an escape entry (R252, R258). -/
def winSize (d : Nat) : Nat := if d = 7 then 24 else 12
def accSize (d : Nat) : Nat := if d = 7 then 272 else 40

/-- An escape entry (R258). -/
def escBytes (d : Nat) (e : Nat × Partial) : List Byte :=
  leBytes 2 e.1 ++ leBytes 6 (bit01 e.2.nan + 2 * bit01 e.2.pinf + 4 * bit01 e.2.ninf + 8 * bit01 e.2.negz)
    ++ leBytes (accSize d) (wrapInt (8 * accSize d) e.2.s)
def decodeEsc (d nelem : Nat) (bs : List Byte) : Option (Nat × Partial) :=
  let fl := leAt bs 2 1
  if leAt bs 0 2 < nelem ∧ fl < 16 ∧ zeros bs 3 5 then
    some (leAt bs 0 2, ⟨signedOf (8 * accSize d) (leAt bs 8 (accSize d)), bitOf fl 0, bitOf fl 1, bitOf fl 2, bitOf fl 3⟩)
  else none

/-- The data of a COLL packet of a DTYPE (R257, R258). -/
def CollData.bytes (d : Nat) : CollData → List Byte
  | .none => []
  | .windows ws esc => ws.flatMap (fun w => leBytes (winSize d) (wrapInt (8 * winSize d) w)) ++ esc.flatMap (escBytes d)
  | .escapes esc => esc.flatMap (escBytes d)
  | .values vs => vs.flatMap fun v => leBytes (dtSize d) v

/-- Whether a PART of this header carries windows: an exact sum (R257). -/
def CollHdr.exact (h : CollHdr) : Bool := decide (h.operator = 0) && dtFloat h.dtype && !h.fixed && decide (h.kind = 2 ∨ h.kind = 3)

/-- The data of a COLL packet read from its bytes; none where their number does not fit the header. -/
def decodeCollData (h : CollHdr) (bs : List Byte) : Option CollData :=
  let d := h.dtype
  let esc (l : List Byte) : Option (List (Nat × Partial)) := allSome ((cutBytes (8 + accSize d) l).map (decodeEsc d h.nelem))
  if h.kind = 3 then (if CollHdr.exact h ∧ bs.length = h.nesc * (8 + accSize d) then (esc bs).map .escapes else none)
  else if h.kind = 2 ∧ CollHdr.exact h then
    let n := h.nelem * winSize d
    if bs.length = n + h.nesc * (8 + accSize d) then
      (esc (bs.drop n)).map (CollData.windows ((cutBytes (winSize d) (bs.take n)).map fun w => signedOf (8 * winSize d) (leNat w)))
    else none
  else if h.kind = 2 ∨ h.kind = 4 then
    (if bs.length = h.nelem * dtSize d then some (.values ((cutBytes (dtSize d) bs).map leNat)) else none)
  else if bs.isEmpty then some .none else none

/-- The plaintext of a job packet (R150). -/
def Body.bytes : Body → List Byte
  | .none => []
  | .data blk bs => OpBlock.bytes blk ++ bs
  | .resp bs => bs
  | .status es => es.flatMap StatusEntry.bytes
  | .ack a => AckBody.bytes a
  | .close q r => leBytes 4 q ++ leBytes 4 r ++ leBytes 8 0
  | .coll h d => CollHdr.bytes h ++ CollData.bytes h.dtype d
  | .revoke kind w origin serial => leBytes 1 kind ++ leBytes 3 w ++ leBytes 4 origin ++ leBytes 8 serial
  | .mg .. => []
  | .sealed bs => bs

/-- A plaintext read as a packet's type gives it (R150); none where it is malformed. -/
def decodeBody (ptype : Nat) (bs : List Byte) : Option Body :=
  let n := bs.length
  match ptype with
  | 0x01 =>
    if n < 32 then none
    else
      match decodeOp (bs.take 32) with
      | some b => if OpBlock.dataOk b (n - 32) then some (.data b (bs.drop 32)) else none
      | none => none
  | 0x02 =>
    if 0xE1 ≤ leAt bs 0 1 ∧ leAt bs 0 1 ≤ 0xE3 then
      (if n = 16 ∧ zeros bs 2 2 ∧ leAt bs 4 4 < 2 ^ 20 then some (.revoke (leAt bs 0 1) (leAt bs 1 1) (leAt bs 4 4) (leAt bs 8 8)) else none)
    else if n < 32 then none
    else (decodeCollHdr (bs.take 32)).bind fun h => (decodeCollData h (bs.drop 32)).map (.coll h)
  | 0x03 => if 1 ≤ n ∧ n ≤ 4096 then some (.resp bs) else none
  | 0x04 => if 16 ≤ n ∧ n ≤ 256 ∧ n % 16 = 0 then (allSome ((cutBytes 16 bs).map decodeStatus)).map .status else none
  | 0x08 => (decodeAck bs).map .ack
  | 0x0A | 0x0B | 0x0C => if n = 16 ∧ zeros bs 8 8 then some (.close (leAt bs 0 4) (leAt bs 4 4)) else none
  | _ => none

/-! ## Check 1 of R154 -/

/-- The class of a packet type (R150). -/
def typeClass (t : Nat) : Option Nat :=
  if t = 0x01 then some 0
  else if t = 0x02 then some 2
  else if t = 0x03 ∨ t = 0x04 ∨ (0x08 ≤ t ∧ t ≤ 0x0C) then some 1
  else none

/-- Whether STREAM fits a packet type (R147, R150): a sequenced type names its own, an ACK or NACK-BUSY any, a close the request stream. -/
def streamOk (t st : Nat) : Bool :=
  if t = 0x01 then decide (st = 0)
  else if t = 0x02 then decide (st = 2)
  else if t = 0x03 ∨ t = 0x04 then decide (st = 1)
  else if t = 0x08 ∨ t = 0x09 then decide (st ≤ 2)
  else decide (st = 0)

/-- Check 1 of R154 on a header: TYPE, CLASS, STREAM, the reserved fields and LENGTH, which counts the plaintext bytes that came. Data
flags stand on a DATA packet only. -/
def Packet.headOk (p : Packet) : Bool :=
  let n := match p.body with | .sealed bs => bs.length - 16 | _ => 0
  decide (typeClass p.ptype = some p.cls) && streamOk p.ptype p.stream && decide (p.rsv = 0) && decide (p.length = n)
    && decide (p.ptype = 0x09 ∨ p.mtag < 2 ^ 17)
    && (decide (p.ptype = 0x01) || (!p.ord && !p.abort))
    && (match p.body with
        | .sealed bs => decide (p.ptype ≠ 0x09 ∧ 16 ≤ bs.length)
        | _ => decide (p.ptype = 0x09))

/-! ## Signatures, digests and sealing -/

/-- The SHA-384 digest of bytes, as 48 bytes. -/
def digestOf (bs : List Byte) : List Byte := bytesOfNats (toBe 48 (sha384 (natsOf bs)))

/-- Whether an ECDSA P-384 signature over bytes verifies under an uncompressed point. -/
def signedBy (key bs sigR sigS : List Byte) : Bool :=
  match pointOf (natsOf key) with
  | some k => ecdsaOk k.1 k.2 (sha384 (natsOf bs)) (ofBe (natsOf sigR)) (ofBe (natsOf sigS))
  | none => false

/-- The 97 bytes of the public key of a private one. -/
def publicKey (d : Nat) : List Byte :=
  match curveMul d p384X p384Y with
  | some k => bytesOfNats (4 :: toBe 48 k.1 ++ toBe 48 k.2)
  | none => []

/-- An ECDSA P-384 signature over bytes by a private key, with the nonce that the signer draws. -/
def signWith (d nonce : Nat) (bs : List Byte) : List Byte × List Byte :=
  match curveMul nonce p384X p384Y with
  | some k =>
    let r := k.1 % p384N
    let z := sha384 (natsOf bs) % p384N
    let s := powMod p384N nonce 384 (p384N - 2) * (z + r * d) % p384N
    (bytesOfNats (toBe 48 r), bytesOfNats (toBe 48 s))
  | none => ([], [])

/-- The key that wraps a job key (R56 step 5): HKDF of the ECDH secret of a private key and the other end's point. -/
def wrapKey (d : Nat) (peer : List Byte) : Option Nat :=
  (pointOf (natsOf peer)).bind fun q => (curveMul d q.1 q.2).map fun k => hkdf384 (toBe 48 k.1) [0x6b, 0x65, 0x79]

/-- A job key wrapped, with its tag, and read again (R56 step 5). The key is used once, so its nonce is 0. -/
def wrapJobKey (kek key : Nat) : List Byte := bytesOfNats (gcmSeal kek (List.replicate 12 0) [] (toBe 32 key))
def unwrapJobKey (kek : Nat) (bs : List Byte) : Option Nat :=
  if bs.length = 48 then (gcmOpen kek (List.replicate 12 0) [] (natsOf bs)).map ofBe else none

/-- The bytes of a certificate that its issuer signs, and all of them (R68; the layout is the model's, log 31). -/
def Cert.body (c : Cert) : List Byte := c.key ++ leBytes 8 c.serial ++ leBytes 8 c.ordering
def Cert.bytes (c : Cert) : List Byte := Cert.body c ++ c.sigR ++ c.sigS

/-- The bytes of a key message that its signature covers, and all of them (R56; the layout is the model's, log 31). -/
def KeyMsg.body (m : KeyMsg) : List Byte :=
  leBytes 4 (match m.want with | some g => g + 1 | none => 0) ++ leBytes 8 m.start ++ m.eph ++ m.chain.flatMap Cert.bytes ++ m.summary.flatten ++ m.wrapped
def KeyMsg.bytes (m : KeyMsg) : List Byte := KeyMsg.body m ++ m.sigR ++ m.sigS

/-- The device certificate of a chain of three that leads from a root with this digest, each signed by the one before it (R56 step 5, R68). -/
def chainLeaf (root : List Byte) (cs : List Cert) : Option Cert :=
  match cs with
  | [a, b, c] =>
    if digestOf a.key = root ∧ signedBy a.key (Cert.body a) a.sigR a.sigS ∧ signedBy a.key (Cert.body b) b.sigR b.sigS
        ∧ signedBy b.key (Cert.body c) c.sigR c.sigS then some c
    else none
  | _ => none

/-! ## Management packets (R288) -/

/-- The payload of an MG packet after its route list (R288, R358, R488); the layouts of a status and of the key messages are the model's (log 31). -/
def MgBody.bytes : MgBody → List Byte
  | .cmd msg => msg
  | .status counter cause head => leBytes 8 counter ++ leBytes 4 cause ++ leBytes 4 head
  | .keyReq jobId node serial m => leBytes 4 jobId ++ leBytes 4 node ++ leBytes 8 serial ++ KeyMsg.bytes m
  | .keyResp jobId gen m => leBytes 4 jobId ++ leBytes 4 gen ++ KeyMsg.bytes m
  | .notYet jobId => leBytes 4 jobId
  | .spdm code => leBytes 4 code
  | .whistle w => leBytes 1 w.line ++ leBytes 1 (bit01 w.byJob) ++ leBytes 3 w.jobId ++ leBytes 3 0 ++ leBytes 8 w.time ++ leBytes 4 w.origin ++ leBytes 12 0
  | .telemetry op first count => leBytes 2 op ++ leBytes 2 first ++ leBytes 4 count
  | .telemetryReply op first count es => leBytes 2 op ++ leBytes 2 first ++ leBytes 4 count ++ es.flatMap (leBytes 8)
  | .other => []

/-- The payload of an MG packet, its route list first where it has one (R288, R289). -/
def Packet.mgPayload (p : Packet) : List Byte :=
  match p.body with
  | .mg (some l) _ _ _ _ m => l.flatMap (leBytes 1) ++ MgBody.bytes m
  | .mg none _ _ _ _ m => MgBody.bytes m
  | _ => []

/-- Bytes 0 to 31 of an MG packet's header, ROUTE taken as 0 (R288). -/
def Packet.mgHeader (p : Packet) : List Byte :=
  match p.body with
  | .mg src auth session counter _ _ =>
    leBytes 1 p.ptype ++ leBytes 1 (p.cls % 4 + 4 * bit01 src.isSome + 8 * bit01 auth) ++ leBytes 2 0 ++ leBytes 4 p.dest ++ leBytes 4 p.src
      ++ leBytes 4 session ++ leBytes 2 0 ++ leBytes 2 p.length ++ leBytes 8 counter ++ leBytes 4 p.ts
  | _ => []

/-- The nonce under which a session's credential is computed: the session ID and the counter (log 31). -/
def credNonce (session counter : Nat) : List Nat := natsOf (leBytes 4 session ++ leBytes 8 counter)

/-- A credential's tag over bytes (R54): AES-256-GCM without plaintext. -/
def credTag (key session counter : Nat) (bs : List Byte) : List Byte := bytesOfNats (gcmSeal key (credNonce session counter) (natsOf bs) [])

/-- The bytes that an MG packet's tag covers, and the packet tagged under a key (R288). -/
def Packet.mgCovered (p : Packet) : List Byte := Packet.mgHeader p ++ Packet.mgPayload p
def Packet.mgTagged (p : Packet) (key : Nat) : Packet :=
  match p.body with
  | .mg src auth session counter _ m => { p with body := .mg src auth session counter (credTag key session counter (Packet.mgCovered p)) m }
  | _ => p

/-- The key of a job's WHISTLE packets from a node (R358). -/
def whistleKey (jobKey jobId node : Nat) : Nat := hkdf384 (toBe 32 jobKey) ([0x77, 0x68, 0x6c] ++ natsOf (leBytes 3 jobId ++ leBytes 4 node))

/-- Whether the tag of an MG packet verifies under a key (R288). -/
def Packet.mgVerifies (p : Packet) (key : Nat) : Bool :=
  match p.body with
  | .mg _ _ session counter tag _ => decide (tag = credTag key session counter (Packet.mgCovered p))
  | _ => false

/-- Whether an MG packet's header fits its payload (R288): reserved bits, LENGTH, a route list of 8 bytes, and, without AUTH, SESSION, COUNTER and
TAG all 0. -/
def Packet.mgOk (p : Packet) : Bool :=
  match p.body with
  | .mg src auth session counter tag _ =>
    decide (p.cls = 3 ∧ p.rsv = 0 ∧ p.length = (Packet.mgPayload p).length ∧ p.length ≤ 4096 ∧ tag.length = 16)
      && (match src with | some l => decide (l.length = 8 ∧ ∀ b ∈ l, b < 256) | none => true)
      && (auth || (decide (session = 0 ∧ counter = 0) && tag.all fun b => decide (b = 0)))
  | _ => false

/-! ## Encryption (R59, R60) -/

/-- The group of a multicast address, if an address is one (R283). -/
def mcGroup (dest : Nat) : Option Nat := if dest / 2 ^ 27 = 31 then some (dest % 2 ^ 16) else none

/-- HKDF's info for a packet's key (R60): of one direction of a session, or of a multicast stream. Numbers are little-endian (R11). -/
def Packet.keyInfo (p : Packet) : List Nat :=
  match mcGroup p.dest with
  | some g => [0x67, 0x72, 0x70] ++ natsOf (leBytes 2 g ++ leBytes 4 p.src ++ leBytes 8 p.session ++ leBytes 2 p.epoch)
  | none => [0x63, 0x74, 0x78] ++ natsOf (leBytes 4 p.src ++ leBytes 4 p.dest ++ leBytes 8 p.session ++ leBytes 2 p.epoch)

/-- The nonce of a packet (R60). -/
def Packet.nonce (p : Packet) : List Nat := natsOf (leBytes 4 p.txc ++ leBytes 4 p.psn ++ leBytes 4 p.src)

/-- The key of a packet under a job key (R60). -/
def Packet.key (p : Packet) (jobKey : Nat) : Nat := hkdf384 (toBe 32 jobKey) (Packet.keyInfo p)

/-- The additional authenticated data: the header, with ROUTE taken as 0 (R59, R150). -/
def Packet.aad (p : Packet) : List Nat := natsOf (Packet.headerBytes p 0)

/-- A job packet encrypted under a job key, its tag after its ciphertext (R59, R149). -/
def Packet.encrypt (p : Packet) (jobKey : Nat) : Packet :=
  let text := Body.bytes p.body
  let p := { p with length := text.length }
  { p with body := .sealed (bytesOfNats (gcmSeal (Packet.key p jobKey) (Packet.nonce p) (Packet.aad p) (natsOf text))) }

/-- The plaintext of a sealed job packet, where its tag verifies under a job key (check 4 of R154). -/
def Packet.decrypt (p : Packet) (jobKey : Nat) : Option (List Byte) :=
  match p.body with
  | .sealed bs => (gcmOpen (Packet.key p jobKey) (Packet.nonce p) (Packet.aad p) (natsOf bs)).map bytesOfNats
  | _ => none

end Sys2Proof.Machine
end

