-- ==== Sys2Proof/Machine/TransportOps.lean ====
section
/-! DEFINITION. The shared operations of the transport (R147 to R182): contexts, streams, packets sent, the
receive checks, acknowledgements, grants. -/

namespace Sys2Proof.Machine

/-! ## Packet types (R150) -/

def tyData : Nat := 0x01
def tyColl : Nat := 0x02
def tyRespData : Nat := 0x03
def tyRespStatus : Nat := 0x04
def tyAck : Nat := 0x08
def tyNackBusy : Nat := 0x09
def tyCloseReq : Nat := 0x0A
def tyCloseAck : Nat := 0x0B
def tyCloseRefuse : Nat := 0x0C

/-- Whether packets of a type are sequenced in a stream. -/
def sequenced (t : Nat) : Bool := decide (1 ≤ t ∧ t ≤ 4)

/-- The stream that carries a packet type: 0 request, 1 response, 2 collective. -/
def streamOf (t : Nat) : Nat := if t = tyData then 0 else if t = tyColl then 2 else 1

/-- The counter unit of the transport, and of the security engine. -/
def uTransport : Nat := 230
def uSecurity : Nat := 234

/-! ## Contexts -/

/-- Change a context. -/
def State.updCtx (s : State) (c : Nat) (f : Ctx → Ctx) : State := { s with ctxs := s.ctxs.upd c f }

/-- A send stream of a context. -/
def Ctx.tx (x : Ctx) (st : Nat) : SendStream := (x.snd.look st).getD {}

/-- A receive stream of a context. -/
def Ctx.rx (x : Ctx) (st : Nat) : RecvStream := (x.rcv.look st).getD {}

/-- Change a send stream. -/
def State.updTx (s : State) (c st : Nat) (f : SendStream → SendStream) : State :=
  s.updCtx c fun x => { x with snd := x.snd.put st (f (x.tx st)) }

/-- Change a receive stream. -/
def State.updRx (s : State) (c st : Nat) (f : RecvStream → RecvStream) : State :=
  s.updCtx c fun x => { x with rcv := x.rcv.put st (f (x.rx st)) }

/-- The number of the context of a job ID and a pair of endpoints (R147): the three values in one number. -/
def ctxKey (job loc rem : Nat) : Nat := job * 2 ^ 64 + loc % 2 ^ 32 * 2 ^ 32 + rem % 2 ^ 32

/-- The context of a job ID and a pair of endpoints (R147). -/
def State.ctxOf (s : State) (job loc rem : Nat) : Option Nat :=
  let c := ctxKey job loc rem
  if (s.ctxs.look c).isSome then some c else none

/-- A send stream as its session opens it (R152, R168, R179). -/
def State.newTx (s : State) : SendStream :=
  { rto := 1000 * s.rd .TP_RTO_CFG_RTO_INIT, rate := s.rd .TP_CC_RATE_RATE_INIT,
    bucket := s.rd .TP_CC_RATE_BURST * 256 * 320, filledAt := s.now }

/-- The streams of a context. -/
def ctxStreams (coll : Bool) : List Nat := if coll then [2] else [0, 1]

/-- Fresh send streams for a context's session. -/
def State.freshSnd (s : State) (coll : Bool) : Tab Nat SendStream := ⟨(ctxStreams coll).map fun k => (k, s.newTx)⟩

/-- Fresh receive streams. -/
def freshRcv (coll : Bool) : Tab Nat RecvStream := ⟨(ctxStreams coll).map fun k => (k, {})⟩

/-- Write the least recently used idle context back where 32,768 are cached or being fetched (R148, R176). -/
def State.evictOne (s : State) : State :=
  if (s.ctxs.cells.filter fun c => c.2.cached || c.2.fetching).length < 32768 then s
  else
    let free := s.ctxs.cells.filter fun c => c.2.cached && !c.2.fetching &&
      !s.moored.any fun p => decide (p.job = c.2.job ∧ p.dest = c.2.loc ∧ p.src = c.2.rem)
    match free with
    | [] => s
    | c :: r =>
      let v := r.foldl (fun a b => if b.2.used < a.2.used then b else a) c
      s.updCtx v.1 fun x => { x with cached := false }

/-- Fetch an evicted context, for which another makes room (R148, R176, R177). -/
def State.fetchCtx (s : State) (c : Nat) : State :=
  match s.ctxs.look c with
  | none => s
  | some x =>
    if x.cached || x.fetching then s
    else (s.evictOne.count uTransport 0x0D).updCtx c fun x => { x with fetching := true }

/-- What a timer of a context does: the context is fetched first where it is evicted, and its timer is due again (R176). -/
def State.atCtx (s : State) (c : Nat) (k : TimerKey) (f : State → State) : State :=
  match s.ctxs.look c with
  | none => f s
  | some x => if x.cached then f s else (s.fetchCtx c).arm k s.now

/-- A new context (R158). CLOSE_IDLE starts. -/
def State.newCtx (s : State) (slot job loc rem session : Nat) (coll : Bool) : State :=
  let s := s.evictOne
  let c := ctxKey job loc rem
  let x : Ctx := {
    slot := slot, job := job, loc := loc, rem := rem, session := session, coll := coll, used := s.now,
    progress := s.now, snd := s.freshSnd coll, rcv := freshRcv coll }
  { s with ctxs := s.ctxs.put c x }.armIn (.idleClose c) (ms (s.rd .TP_CTX_CFG_CLOSE_IDLE))

/-- The largest number of contexts (R148). -/
def maxCtxs : Nat := 1048576

/-- The limit of R171 on a context without progress. -/
def State.failTicks (s : State) : Nat := 400000 * s.rd .TP_RTO_CFG_FAIL_TIME

/-- The manifest entries of a context. -/
def State.ctxEntries (s : State) (c : Nat) : List (Nat × MEntry) := s.manifest.cells.filter fun m => decide (m.2.ctx = c)

/-- Whether an operation waits for a status, SENDs whose packets are acknowledged and which wait for a match apart (R171). A rendezvous
SEND whose pull was admitted has matched. -/
def MEntry.owes (m : MEntry) : Bool :=
  match m.blk with
  | .send .. => !m.lastInjected || m.pulled
  | _ => true

/-- Whether a context owes work (R171). -/
def State.owesWork (s : State) (c : Nat) : Bool :=
  match s.ctxs.look c with
  | none => false
  | some x =>
    x.snd.cells.any (fun t => !t.2.una.isEmpty || !t.2.waiting.isEmpty || !t.2.resend.isEmpty)
      || (s.ctxEntries c).any fun m => m.2.owes

/-- Run the failure timer of a context while it owes work (R171). -/
def State.watch (s : State) (c : Nat) : State :=
  if s.owesWork c then (if s.armed (.ctxFail c) then s else s.armIn (.ctxFail c) s.failTicks)
  else s.disarm (.ctxFail c)

/-- Progress of a context (R171). -/
def State.progress (s : State) (c : Nat) : State :=
  ((s.updCtx c fun x => { x with progress := s.now }).disarm (.ctxFail c)).watch c

/-- A context was used: it is idle from now on (R172, R176). -/
def State.touch (s : State) (c : Nat) : State :=
  match s.ctxs.look c with
  | none => s
  | some x =>
    let s := s.updCtx c fun x => { x with used := s.now }
    if x.state = .opened then s.arm (.idleClose c) (max (s.now + ms (s.rd .TP_CTX_CFG_CLOSE_IDLE)) x.noIdle) else s

/-! ## Sending -/

/-- The header that every packet of a context carries: OPEN until the session's first ACK is accepted (R158). -/
def State.header (s : State) (x : Ctx) (ty : Nat) : Packet :=
  { ptype := ty, cls := if ty = tyData then 0 else if ty = tyColl then 2 else 1,
    opn := x.opening, gen := (s.job x.slot).gen % 4, stream := streamOf ty, dest := x.rem, src := x.loc,
    job := x.job, epoch := x.epoch, txc := x.txc, ts := s.now % 2 ^ 32, session := x.session }

/-- Take the next transmission counter of a context's direction; after 2^32 the epoch advances (R61). -/
def Ctx.nextTxc (x : Ctx) : Ctx :=
  if x.txc + 1 < 2 ^ 32 then { x with txc := x.txc + 1 } else { x with txc := 0, epoch := (x.epoch + 1) % 65536 }

/-- A job packet leaves, encrypted under the job key of its GEN (R59); without that key none can leave. -/
def State.emitSealed (s : State) (j : Nat) (p : Packet) : State :=
  match (s.job j).keyOf p.gen with
  | some k => (s.count uSecurity 1).emit (.packet (Packet.encrypt p k))
  | none => s

/-- Send an ACK or a close packet at once, unpaced (R179). -/
def State.sendCtl (s : State) (c ty st : Nat) (body : Body) : State :=
  match s.ctxs.look c with
  | none => s
  | some x =>
    (s.updCtx c Ctx.nextTxc).emitSealed x.slot { s.header x ty with stream := st, body := body }

/-- Queue a new sequenced packet on its stream; it takes its PSN when it is injected (R152, R181). -/
def State.queuePkt (s : State) (c : Nat) (p : Packet) : State :=
  ((s.updTx c (streamOf p.ptype) fun t => { t with waiting := t.waiting ++ [p] }).watch c).fetchCtx c

/-- The retry-after time of 2 microseconds. -/
def retry2 : Nat := us 2

/-- Answer a packet NACK-BUSY (R165); `row` is the cause's row in the NACK-BUSY table. -/
def State.nackBusy (s : State) (p : Packet) (row retry : Nat) : State :=
  let n : Packet := {
    ptype := tyNackBusy, cls := 1, stream := p.stream, dest := p.src, src := p.dest, job := p.job, gen := p.gen,
    session := p.session, psn := p.psn, mtag := retry, ts := s.now % 2 ^ 32 }
  (s.count uTransport 0x0A row).emit (.packet n)

/-! ## Acknowledgement (R161) -/

/-- The offsets from CUM that a receive stream has admitted, sorted. -/
def RecvStream.offs (r : RecvStream) : List Nat := (r.map.map fun p => dist32 r.cum p).mergeSort (· ≤ ·)

/-- Blocks (START, COUNT) of sorted offsets. -/
def sackBlocks : List Nat → List (Nat × Nat)
  | [] => []
  | a :: r =>
    match sackBlocks r with
    | (b, n) :: bs => if b = a + 1 then (a, n + 1) :: bs else (a, 1) :: (b, n) :: bs
    | [] => [(a, 1)]

/-- Send the ACK of a stream. -/
def State.sendAck (s : State) (c st : Nat) : State :=
  match s.ctxs.look c with
  | none => s
  | some x =>
    let r := x.rx st
    let b : AckBody := {
      cum := r.cum, sack := (sackBlocks r.offs).take 3, npkt := min r.npkt 255, nmark := min r.nmark 255,
      hops := r.hops, owd := r.owd, echoTs := r.echoTs,
      grantTag := r.grant.map (·.1), grant := match r.grant with | some g => g.2 | none => 0 }
    let s := s.sendCtl c tyAck st (.ack b)
    (s.updRx c st fun r => { r with npkt := 0, nmark := 0 }).disarm (.ackDelay c st)

/-- Acknowledge a duplicate at once (R155, R161): the ACK echoes its TS. -/
def State.dupAck (s : State) (c st : Nat) (p : Packet) : State :=
  ((s.count uTransport 5).updRx c st fun r => { r with echoTs := p.ts }).sendAck c st

/-- Advance CUM past every admitted PSN (R153). `fuel` is at least the length of the map. -/
def advanceCum : Nat → Nat → List Nat → Nat × List Nat
  | 0, cum, m => (cum, m)
  | fuel + 1, cum, m => if m.contains cum then advanceCum fuel (idxAdd cum 1) (m.erase cum) else (cum, m)

/-- Whether a PSN of a stream is a duplicate, new, or beyond the window (R153). -/
inductive PsnCase where
  | duplicate
  | new
  | beyond
  deriving DecidableEq, Repr

/-- The case of a PSN at a receive stream (R153). -/
def RecvStream.psnCase (r : RecvStream) (p : Nat) : PsnCase :=
  let d := dist32 r.cum p
  if !decide (d < 2147483648) || r.map.contains p then .duplicate else if d < 1024 then .new else .beyond

/-- Whether an admission leaves or fills a gap below the newest admitted PSN (R161). -/
def RecvStream.gap (r : RecvStream) (p : Nat) : Bool := !r.map.isEmpty || decide (p ≠ r.cum)

/-- Admit a packet: its map bit, CUM, and what the next ACK reports; then the ACK rules of R161. -/
def State.admitPkt (s : State) (c : Nat) (p : Packet) : State :=
  match s.ctxs.look c with
  | none => s
  | some x =>
    let st := p.stream
    let r := x.rx st
    let gap := r.gap p.psn
    let m := advanceCum (r.map.length + 1) r.cum (p.psn :: r.map)
    let r' := { r with
      cum := m.1, map := m.2, npkt := r.npkt + 1, nmark := r.nmark + (if p.mark then 1 else 0), hops := p.hops,
      owd := dist32 p.ts s.now, echoTs := p.ts }
    let s := s.updCtx c fun x => { x with rcv := x.rcv.put st r', fresh := false }
    let s := (s.count uTransport 1 st).touch c
    if gap || decide (s.rd .TP_ACK_CFG_ACK_COUNT ≤ r'.npkt) then s.sendAck c st
    else if s.armed (.ackDelay c st) then s
    else s.armIn (.ackDelay c st) (500 * s.rd .TP_ACK_CFG_ACK_DELAY)

/-! ## Credits (R182) -/

/-- The granted units that are not yet filled. -/
def State.poolUsed (s : State) : Nat := (s.credits.map fun c => c.granted - c.filled).foldl (· + ·) 0

/-- Free landing units of 4 KiB (R208). -/
def State.landFree (s : State) : Nat := 8192 - (s.manifest.cells.map fun m => m.2.land).foldl (· + ·) 0

/-- Serve the crediting operations in arrival order: one unit each up to GRANT_BURST unfilled while the pool
lasts; a requester reserves 16 landing units for each (R208); a change of grant is acknowledged (R161, R182). -/
def State.grantLoop (s : State) : List Credit → State
  | [] => s
  | k :: r =>
    let room := s.rd .TP_CREDIT_CFG_POOL - s.poolUsed
    let n := min (min room (s.rd .TP_CREDIT_CFG_GRANT_BURST - (k.granted - k.filled))) (k.units - k.granted)
    let n := if k.stream = 1 then min n (s.landFree / 16) else n
    let s :=
      if n = 0 then s
      else
        let k' := { k with granted := k.granted + n }
        let s := { s with credits := s.credits.map fun c => if c = k then k' else c }
        let s :=
          if k.stream = 1 then { s with manifest := s.manifest.upd k.mtag fun e => { e with land := e.land + 16 * n } } else s
        (s.updRx k.ctx k.stream fun x => { x with grant := some (k.mtag, k'.granted) }).sendAck k.ctx k.stream
    State.grantLoop s r

/-- Grant what the pool allows. -/
def State.grant (s : State) : State := s.grantLoop s.credits

/-- A crediting operation ends: its units return (R182). -/
def State.endCredit (s : State) (c st mtag : Nat) : State :=
  { s with credits := s.credits.filter fun k => !decide (k.ctx = c ∧ k.stream = st ∧ k.mtag = mtag) }.grant

/-! ## The receive checks (R154) -/

/-- The epoch that a context's peer has reached in the generation that GEN names, and whether the one after it has begun: each
generation counts its own (R61). -/
def State.epochOf (s : State) (x : Ctx) (gen : Nat) : Nat × Bool :=
  if gen = (s.job x.slot).gen % 4 then (x.rxEpoch, x.rxNext) else (x.rxOther.look gen).getD (0, false)

/-- Whether the job's held generations match a packet's GEN, and the context's epochs its EPOCH (R60 to R62). A packet that opens a
session fits epochs 0 and 1 alone; of a session that has no context, and of one before, any epoch's key can be derived. -/
def State.keyFits (s : State) (j : Nat) (p : Packet) (x : Option Ctx) : Bool :=
  ((s.job j).held.any fun g => decide (g % 4 = p.gen)) &&
    (match x with
     | some x =>
       if p.session = x.session then
         let e := (s.epochOf x p.gen).1
         decide (p.epoch = e ∨ p.epoch = (e + 1) % 65536)
       else decide (p.session < x.session ∨ p.epoch ≤ 1)
     | none => !p.opn || decide (p.epoch ≤ 1))

/-- The record and counts of a packet that fails authentication (R23). -/
def State.authFailed (s : State) (p : Packet) : State :=
  ((s.count uTransport 8).count uSecurity 3).logRec 1 0x0B .authentication 0 [p.src, p.dest, p.job]

/-- A packet of epoch e + 1 arrived: the key of epoch e is kept for 1 ms more (R61). -/
def State.noteEpoch (s : State) (c : Nat) (p : Packet) : State :=
  match s.ctxs.look c with
  | none => s
  | some x =>
    let e := s.epochOf x p.gen
    if p.epoch ≠ (e.1 + 1) % 65536 ∨ e.2 then s
    else
      let s :=
        if p.gen = (s.job x.slot).gen % 4 then s.updCtx c fun x => { x with rxNext := true }
        else s.updCtx c fun x => { x with rxOther := x.rxOther.put p.gen (e.1, true) }
      s.armIn (.epochErase c) (ms 1)

/-- The keys of the epochs that have ended go (R61). -/
def State.eraseEpoch (s : State) (c : Nat) : State :=
  s.updCtx c fun x => { x with
    rxEpoch := if x.rxNext then (x.rxEpoch + 1) % 65536 else x.rxEpoch, rxNext := false,
    rxOther := ⟨x.rxOther.cells.map fun g => (g.1, if g.2.2 then ((g.2.1 + 1) % 65536, false) else g.2)⟩ }

/-- What the checks of R154 up to 6 leave of a packet. -/
inductive Rx where
  /-- The packet is done with. -/
  | stop (s : State)
  /-- The packet goes on at its context. -/
  | go (s : State) (c : Nat)
  /-- No context, or one in QUIET, and a type that is not sequenced: R173. -/
  | noCtx (s : State) (quiet : Option Nat)
  /-- Every context is in use: R160. -/
  | full (s : State)

/-- The units of 256 bytes that a packet takes in the mooring buffer: its 64-byte header and tag, and its plaintext. -/
def moorUnits (p : Packet) : Nat := ceilDiv (64 + p.length) 256

/-- Whether the mooring buffer has room within a packet's class's share (R177). -/
def State.moorRoom (s : State) (p : Packet) : Bool :=
  let units (ps : List Packet) := (ps.map moorUnits).foldl (· + ·) 0
  let rq := s.moored.filter fun m => decide (m.cls = 0)
  decide (s.moored.length < 8192) && decide (units s.moored + moorUnits p ≤ 8192)
    && (decide (p.cls ≠ 0) || (decide (rq.length < 7168) && decide (units rq + moorUnits p ≤ 7168)))

/-- Hold a packet while its context or region entry is fetched, or answer NACK-BUSY (R177). -/
def State.moor (s : State) (p : Packet) : State :=
  if s.moorRoom p then { s.count uTransport 2 with moored := s.moored ++ [p] } else s.nackBusy p 1 retry2

/-- Ticks left on a timer. -/
def State.timeLeft (s : State) (k : TimerKey) : Nat := (s.timers.look k).getD s.now - s.now

/-- Checks 1 to 3 of R154: the job's slot, or the state in which the packet was discarded (R58). -/
def State.rxHead (s : State) (p : Packet) : State × Option Nat :=
  if !Packet.headOk p || decide (p.dest / 4096 ≠ s.nodeId) then (s.count uTransport 4, none)
  else if 2000000 < dist32 p.ts s.now then (s.count uTransport 3, none)
  else
    match s.slotOf p.job with
    | none => (s.authFailed p, none)
    | some j =>
      if s.jobState j = jobKeying then
        if sequenced p.ptype then (s.nackBusy p 0 retry2, none) else (s.count uTransport 9, none)
      else (s, some j)

/-- The plaintext of a packet whose job has slot `j`, where its tag verifies under the key of its GEN (check 4 of R154). -/
def State.opened (s : State) (j : Nat) (p : Packet) : Option (List Byte) := ((s.job j).keyOf p.gen).bind (Packet.decrypt p)

/-- A packet with its plaintext read; one whose plaintext is malformed is discarded as check 1 discards (DEDUCED, log 31). -/
def State.readBody (s : State) (j : Nat) (p : Packet) (text : List Byte) : State × Option (Nat × Packet) :=
  match decodeBody p.ptype text with
  | some b => (s.count uSecurity 2, some (j, { p with body := b }))
  | none => ((s.count uSecurity 2).count uTransport 4, none)

/-- Checks 1 to 4 of R154: the job's slot and the packet with its plaintext, or the state in which the packet was discarded. A NACK-BUSY is
not authenticated (R149). -/
def State.rxAuth (s : State) (p : Packet) : State × Option (Nat × Packet) :=
  match s.rxHead p with
  | (s, none) => (s, none)
  | (s, some j) =>
    if p.ptype = tyNackBusy then (s, some (j, p))
    else if !s.keyFits j p ((s.ctxOf p.job p.dest p.src).bind s.ctxs.look) then (s.authFailed p, none)
    else
      match s.opened j p with
      | none => (s.authFailed p, none)
      | some text => s.readBody j p text

/-- A context is reopened under a higher session: fresh streams, and a close that it had begun is over (R159); under JOB-CLOSE it starts
again. The operations that fail with it are the caller's. -/
def State.reopen (s : State) (c session : Nat) : State :=
  match s.ctxs.look c with
  | none => s
  | some x =>
    s.updCtx c fun x' => { x' with
      session := session, opening := true, fresh := true, epoch := 0, txc := 0, rxEpoch := 0, rxNext := false, rxOther := {},
      state := .opened, waitClose := x'.jobClose,
      snd := s.freshSnd x.coll, rcv := freshRcv x.coll }

/-- Both ends opened at once: the higher session is adopted and every unacknowledged packet goes out again
(R159). -/
def State.adopt (s : State) (c session : Nat) : State :=
  match s.ctxs.look c with
  | none => s
  | some x =>
    let snd : Tab Nat SendStream := ⟨x.snd.cells.map fun t =>
      (t.1, { s.newTx with
        waiting := (t.2.una.map (·.pkt)) ++ t.2.waiting })⟩
    let mark (k : Nat × Nat × Nat) : Nat × Nat × Nat := if k.1 = c then (c, session, k.2.2) else k
    let again (r : Revoke) : Revoke := { r with marked := r.marked.map mark }
    let s := { s with revokes := s.revokes.map again }
    s.updCtx c fun x => { x with session := session, epoch := 0, txc := 0, rxEpoch := 0, rxNext := false, rxOther := {}, snd := snd }

/-- The record of a packet without OPEN that finds no context (R158). -/
def State.noCtxRec (s : State) (p : Packet) : State := (s.count uTransport 9).logRec 1 0x07 .noContext 0 [p.src, p.dest, p.job]

/-- Checks 5 and 6 of R154 for a packet whose job has slot `j`. `reopen` fails the operations of a context whose
peer has reopened (R159). A NACK-BUSY counts at its own session only (R165). -/
def State.rxCtx (s : State) (p : Packet) (j : Nat) (reopen : State → Nat → State) : Rx :=
  match s.ctxOf p.job p.dest p.src with
  | none =>
    if !sequenced p.ptype then .noCtx s none
    else if !p.opn then .stop (s.noCtxRec p)
    else if maxCtxs ≤ s.ctxs.size then .full (s.nackBusy p 4 retry2)
    else
      .go (s.newCtx j p.job p.dest p.src p.session (decide (p.cls = 2))) (ctxKey p.job p.dest p.src)
  | some c =>
    match s.ctxs.look c with
    | none => .stop s
    | some x =>
      if x.state = .quiet then
        if !sequenced p.ptype then .noCtx s (some c)
        else if p.opn then .stop (s.nackBusy p 5 (s.timeLeft (.quiet c)))
        else .stop (s.count uTransport 0x0F)
      else if !x.cached then .stop ((s.moor p).fetchCtx c)
      else if p.session < x.session ∨ (p.ptype = tyNackBusy ∧ p.session ≠ x.session) then .stop (s.count uTransport 6)
      else if x.session < p.session then
        if !p.opn then .stop (s.count uTransport 6)
        else if x.fresh && x.opening then .go (s.adopt c p.session) c
        else .go (reopen s c |>.reopen c p.session) c
      else .go (if p.ptype = tyNackBusy then s else s.noteEpoch c p) c

end Sys2Proof.Machine
end

