-- ==== Sys2Proof/Machine/Control.lean ====
section
/-! DEFINITION. The control path (R14 to R19): how a privileged command starts and completes on each entry point
(R142, R450, R288), token checks (R50 to R52), fabric-manager credentials (R53, R54). -/

namespace Sys2Proof.Machine

/-- What a privileged command completes to: its entry point and its LTALLY. -/
abbrev Requester := CmdSrc × TallyField

/-- The counter of a queue's slots from its cursor up to PI. -/
def State.slotsAhead (s : State) (q : Nat) : Nat := dist32 (s.q q).cursor (s.rd .QU_PI_PI q)

/-- How many entries of a queue are started and not yet passed by the head (R79). An execution of a loop body counts as one while it runs (R133); once
it is done it counts no longer, so that a LOOP of any COUNT ends (DEDUCED, log 22). -/
def QSt.inFlight (x : QSt) : Nat :=
  x.started.length + x.loops.length
    + (x.done.filter fun d => !x.skipped.contains d.1 && (x.loopOf d.1).isNone).length

/-- Whether queue `q` is served: the control queue by its sequencer, any other by the thread of a ferry that is RUNNING (R102, R387). -/
def State.served (s : State) (q : Nat) : Bool := decide (q = 0) || decide (s.rd .FX_STATUS_STATE (s.rd .QU_CFG_FERRY q) = 1)

/-- Whether queue `q` may start an entry of `n` slots at its cursor now (R79, R85, R92). -/
def State.canStart (s : State) (q n : Nat) : Bool :=
  decide (s.qState q = qRunning) && s.served q && !s.flag .FT_STATUS_FATAL && decide ((s.q q).inFlight < 256)
    && decide (n ≤ s.slotsAhead q) && idxLe (s.q q).cursor (s.rd .QU_PI_PI q)

/-- Pass the entries at the cursor that are done (R99), CI with the cursor; `fuel` bounds them. -/
def State.toNext (s : State) (q : Nat) : Nat → State
  | 0 => s
  | fuel + 1 =>
    match (s.q q).passOne with
    | none => s
    | some b =>
      let c := idxAdd b.1 b.2
      let s := s.wr .QU_CI_CI q (idxMax (s.rd .QU_CI_CI q) c)
      State.toNext (s.updQ q fun x => { x with cursor := c }.loopSync) q fuel
def State.passDoneEntries (s : State) (q : Nat) : State := s.toNext q ((s.q q).done.length + (s.q q).doneExecs.length)

/-- The thread that serves a queue, numbered 16 × ferry + thread. -/
def State.threadOf (s : State) (q : Nat) : Nat := 16 * s.rd .QU_CFG_FERRY q + s.rd .QU_CFG_THREAD q

/-- Whether a thread's turn goes past a queue (R103): it is not RUNNING, its next command is held, or no entry stands fetched at its cursor. -/
def State.turnSkips (s : State) (q : Nat) : Bool :=
  decide (s.qState q ≠ qRunning) || (s.q q).held.isSome || ((s.q q).fetched.look (s.q q).cursor).isNone

/-- Whether queue `q` comes next in its thread's round robin (R103): in the order of queue numbers from the one served last, the turn goes past every queue
before `q`. The sequencer of the control queue serves it alone (R102). -/
def State.turnOf (s : State) (q : Nat) : Bool :=
  let last := (s.turns.look (s.threadOf q)).getD 0
  let steps (r : Nat) : Nat := (r + 65536 - last - 1) % 65536
  decide (q = 0) ||
    (s.boundQueues fun r => decide (r ≠ 0 ∧ s.threadOf r = s.threadOf q ∧ steps r < steps q)).all s.turnSkips

/-- A thread served queue `q` (R103). -/
def State.tookTurn (s : State) (q : Nat) : State := if q = 0 then s else { s with turns := s.turns.put (s.threadOf q) q }

/-- Record that an entry of queue `q` started at the cursor: LAST_STARTED holds the latest index started (R96), CI and the cursor go past it. -/
def State.noteStart (s : State) (q i n : Nat) : State :=
  let c := idxAdd i n
  let t := match (s.q q).top with | some t => idxMax t i | none => i
  let s := (s.wr .QU_CI_LAST_STARTED q t).count 233 3
  let s := s.wr .QU_CI_CI q (idxMax (s.rd .QU_CI_CI q) c)
  (s.updQ q fun x => { x with cursor := c, top := some t }).tookTurn q

/-- Whether a FENCE of every target or an END that has started holds what comes after it (R125, R138). -/
def QSt.fencedAll (x : QSt) : Bool :=
  x.started.any fun e =>
    match e.cmd with
    | .fence f => !f.scopeEp
    | .endCmd _ => true
    | _ => false

/-- The slots of a privileged command (R113). -/
def privSlots (op : PrivOp) : Nat := if op = .routeWrite ∨ op = .routeCommit then 2 else 1

/-- Start a privileged command: on the control queue it is the entry at the cursor and becomes a started
execution; from Iamel it is one of at most 8 in progress (R450). -/
def State.startPriv (s : State) (src : CmdSrc) (op : PrivOp) (p : Priv) : Option State :=
  match src with
  | .queue i =>
    let s := s.passDoneEntries 0
    if s.canStart 0 (privSlots op) && !(s.q 0).fencedAll && decide ((s.q 0).cursor = i) then
      let e : Exec := ⟨i, 0, privSlots op, .priv op p, none, false⟩
      some ((s.noteStart 0 i (privSlots op)).updQ 0 fun x => { x with started := x.started ++ [e] })
    else none
  | .iamel req => if s.cmds.length < 8 then some { s with cmds := s.cmds ++ [req] } else none
  | .mg session counter _ => some { s with mgCmds := s.mgCmds ++ [(session, counter)] }

/-- A packet that the management agent discards and counts (R288). -/
def State.mgDiscard (s : State) : State := { s with mgLost := s.mgLost + 1 }

/-- Whether the agent's queue has room for a packet: the commands not yet answered stand in it (log 37). -/
def State.mgRoom (s : State) : Bool := decide (s.mgCmds.length < Config.agentQueue + 1)

/-- Hand an MG packet to the agent; without room it is discarded and counted (R287, R288, R294). -/
def State.mgTake (s : State) (f : State → State) : State := if s.mgRoom then f s else s.mgDiscard

/-- The MG type MG-STATUS (R288). -/
def mgTypeStatus : Nat := 0x41

/-- The key of a fabric-manager session (R53, R54). -/
def State.fmKey (s : State) (session : Nat) : Option Nat := (s.fmSessions.find? fun f => decide (f.id = session)).map (·.key)

/-- Send an MG packet with AUTH (R288): tagged under its session's key; once the session has ended none can be. -/
def State.sendAuth (s : State) (session : Nat) (p : Packet) : State :=
  match s.fmKey session with
  | some k => s.emit (.packet (Packet.mgTagged p k))
  | none => s

/-- Complete a privileged command with a cause, 0 for success. -/
def State.endPriv (s : State) (r : Requester) (cause : Nat) : State :=
  match r.1 with
  | .queue i => if cause = 0 then s.completeExec 0 i 0 else s.failExec 0 i 0 cause
  | .iamel req =>
    let s := if cause = 0 then s.bumpField r.2 else s
    if s.cmds.contains req then { s with cmds := s.cmds.erase req }.emit (.status req 0 cause) else s
  | .mg session counter node =>
    let s := if cause = 0 then s.bumpField r.2 else s
    let s := { s with mgCmds := s.mgCmds.erase (session, counter) }
    s.sendAuth session {
      ptype := mgTypeStatus, cls := 3, dest := node * 4096 + 0xFFF, src := s.nodeId * 4096 + 0xFFF,
      ts := s.now % 2 ^ 32, length := 16,
      body := .mg none true session counter [] (.status counter cause (s.rd .QU_HEAD_HEAD 0)) }

/-! ## Causes -/

def cMalformed : Nat := 0x01
def cLocalMemory : Nat := 0x1C
def cUnreachable : Nat := 0x10
def cTargetRange : Nat := 0x31
def cState : Nat := 0x32
def cReservedRange : Nat := 0x33
def cAuthFormat : Nat := 0x40
def cAuthSig : Nat := 0x48
def cFmCred : Nat := 0x49
def cJobFull : Nat := 0x4A
def cJobActive : Nat := 0x4B
def cKeyFail : Nat := 0x4C
def cKeyExpired : Nat := 0x4D
def cKeyZeroised : Nat := 0x4E
def cBlobInvalid : Nat := 0x4F

/-- The token kind a privileged command carries, the zero of one that carries none (R143's table). -/
def privKind : PrivOp → Nat
  | .jobOpen => 0x01
  | .jobClose => 0x02
  | .keyInstall => 0x03
  | .windowOpen | .windowRevoke => 0x04
  | .regionRegister | .regionDeregister => 0x05
  | .treeBuild => 0x06
  | .queueBind => 0x07
  | .loadProgram => 0x08
  | .routeWrite | .routeCommit | .ferryDrain | .ferryResume | .invalidate | .snapshot => 0

/-- The ranges of ARG and ARG2 in each privileged command, part of check 4 of R112 (R143's table, R241, R297, R298, R420). -/
def privArgsOk (op : PrivOp) (p : Priv) : Bool :=
  match op with
  | .jobOpen | .jobClose | .keyInstall => decide (p.arg < 2 ^ 24 ∧ p.arg2 = 0)
  | .windowOpen | .windowRevoke | .regionRegister | .regionDeregister => true
  | .treeBuild => decide (p.arg2 < 4096)
  | .routeWrite => decide (p.arg < 4)
  | .routeCommit => decide (p.arg < 4 ∧ p.arg2 = 0)
  | .loadProgram | .ferryDrain | .ferryResume | .queueBind => decide (p.arg2 = 0)
  | .invalidate => decide (p.arg < 2 ^ 17 ∧ 0 < p.arg2 ∧ p.arg2 < 16)
  | .snapshot => decide (p.arg = 0 ∧ p.arg2 = 0)

/-- Run a privileged command: its start, check 4 of R112 on ARG and ARG2, then its body, which answers the state and, when the
command completes now, its cause. A command whose required TOKEN is 0 fails check 1 of R51, an authorisation failure (R142, R16). -/
def State.runPriv (s : State) (src : CmdSrc) (op : PrivOp) (p : Priv) (x : PrivData) (body : State → State × Option Nat) : State :=
  match (s.see x.seen).startPriv src op p with
  | none => s
  | some s =>
    if !privArgsOk op p then s.endPriv (src, p.ltally) cMalformed
    else
      match body s with
      | (s, none) => s
      | (s, some cause) =>
        let s := if p.token = 0 ∧ cause = cAuthFormat then s.logRec 1 0x0B .authFailed 0 [privKind op, cause] else s
        s.endPriv (src, p.ltally) cause

/-- R104's check of a package-memory range: 0 where it lies in package memory and outside the reserved range. -/
def rangeCause (addr n : Nat) : Nat :=
  let last := addr + (n - 1)
  if addr ≤ 0x13_FFFF_FFFF ∧ 0x13_8000_0000 ≤ last ∧ inPackage last ∨ inReserved addr then cReservedRange
  else if inPackage addr && inPackage last then 0
  else cTargetRange

/-- The bytes that a command references (R142): on the control queue at an address in the location of its ring, host addresses being those of
HA's physical function; from Iamel or in an MG packet at an offset in the message. -/
def State.refBytes (s : State) (src : CmdSrc) (x : PrivData) (addr n : Nat) : List Byte :=
  match src with
  | .queue _ => s.readLoc (mkLoc 0 (s.flag .QU_CFG_LOC 0) addr) n
  | _ => (x.msg.drop addr).take n

/-- The operand block of a command (R142). -/
def State.blockOf (s : State) (src : CmdSrc) (p : Priv) (x : PrivData) : List Byte := s.refBytes src x p.opblk p.oplen

/-- A token that is offered: as it reads, and the BODY_HASH that it must show. -/
abbrev Offer := Token × List Byte

/-- What a command's token must hash (R143): its first slot with TOKEN 0, then its operand block. -/
def State.bodyHash (s : State) (src : CmdSrc) (op : PrivOp) (p : Priv) (x : PrivData) : List Byte :=
  digestOf (Priv.bytes op p 0 ++ s.blockOf src p x)

/-- The token of a privileged command (R50, R142). -/
def State.offer (s : State) (src : CmdSrc) (op : PrivOp) (p : Priv) (x : PrivData) : Offer :=
  (decodeToken (s.refBytes src x p.token tokenSize), s.bodyHash src op p x)

/-- The checks that every privileged command shares before its own (R142, R112): reserved fields, the token's
presence, the places of the operand block and token, and their reads. 0 where all pass. -/
def State.privPre (s : State) (src : CmdSrc) (p : Priv) (x : PrivData) (needToken : Bool) (sealing : Bool := false)
    (needBlock : Bool := true) : Nat :=
  if p.sealOut && !sealing then cMalformed
  else if !tfOk p.ltally then cMalformed
  else if !needToken && decide (p.token ≠ 0) then cMalformed
  else if !needBlock && decide (p.oplen ≠ 0 ∨ p.opblk ≠ 0) then cMalformed
  else
    let place :=
      match src with
      | .queue _ =>
        if s.flag .QU_CFG_LOC 0 then
          let a := if p.oplen = 0 then 0 else rangeCause p.opblk p.oplen
          if a ≠ 0 then a else if p.token = 0 then 0 else rangeCause p.token tokenSize
        else 0
      | _ => 0
    if place ≠ 0 then place
    else if needToken && decide (p.token = 0) then cAuthFormat
    else if !x.readOk then cLocalMemory
    else if (s.blockOf src p x).length ≠ p.oplen then cMalformed
    else 0

/-- The token kinds (R50). -/
def kindKnown (k : Nat) : Bool := decide (1 ≤ k ∧ k ≤ 8 ∨ k = 0x10 ∨ k = 0x11 ∨ k = 0x20 ∨ k = 0x21)

/-- Check 2 of R51: the key that a token offers is the one of its fuse slot, which is the current one (R49); of DEBUG-VENDOR, Welrirel's (R73). -/
def State.signerOk (s : State) (t : Token) (kind : Nat) : Bool :=
  if kind = 0x21 then decide (digestOf t.key = s.rootDigest)
  else decide (s.rd .GLB_SEC_STATE_AUTH_SLOT = t.authSlot ∧ t.authSlot < 8 ∧ s.authDigests[t.authSlot]? = some (digestOf t.key))

/-- The token checks of R51 in their order; 0 where all pass. `here` says that the member list names this device,
`fresh` that SERIAL is fresh (R52). A JOB-OPEN or KEY-INSTALL whose list does not name this device fails check 5 (R56). -/
def State.tokenCause (s : State) (o : Offer) (kind job : Nat) (here fresh : Bool) : Nat :=
  let t := o.1
  let node := here || decide (kind ≠ 0x01 ∧ kind ≠ 0x03)
  if !kindKnown t.kind || decide (t.version ≠ 1) || decide (t.length ≠ 176) || !t.reservedOk then 0x40
  else if !s.signerOk t kind then 0x41
  else if t.kind ≠ kind then 0x42
  else if t.jobId ≠ job then 0x43
  else if !(decide (t.scope = s.nodeId) && node || (decide (t.scope = 0xFFFFF) && here)) then 0x44
  else if t.notAfter < s.now ∨ s.now + sec 10 < t.notAfter then 0x45
  else if !fresh then 0x46
  else if t.bodyHash ≠ o.2 then 0x47
  else if !signedBy t.key t.head t.sigR t.sigS then 0x48
  else 0

/-- Check a command's token: the record of a failure (R16), the public-key operation of check 9 (R481). -/
def State.checkToken (s : State) (o : Offer) (kind job : Nat) (here : Bool) (fresh : Nat → Bool) : State × Nat :=
  let c := s.tokenCause o kind job here (fresh o.1.serial)
  let s := if c = 0 ∨ c = 0x48 then s.count uSecurity 4 else s
  if c = 0 then (s, 0) else (s.logRec 1 0x0B .authFailed 0 [kind, c], c)

/-- Whether the member list of a job names this device by node ID and serial (R51, R55). -/
def State.memberHere (s : State) (ms : List (Nat × Nat)) : Bool :=
  ms.contains (s.nodeId, s.rd .GLB_SERIAL_SERIAL)

/-- Check the token of a command that names an OPEN job slot, and consume its serial (R51, R52). -/
def State.jobToken (s : State) (o : Offer) (kind j : Nat) : State × Nat :=
  let b := s.job j
  match s.checkToken o kind (s.rd .GLB_JOB_JOB_ID j) (s.memberHere b.members) (fun n => decide (b.serial < n)) with
  | (s, 0) => (s.updJob j fun b => { b with serial := o.1.serial }, 0)
  | (s, c) => (s, c)

/-- Check a token of no open job, and consume its serial (R51, R52): fresh is a serial that no such token had before. -/
def State.grantToken (s : State) (o : Offer) (kind job : Nat) : State × Nat :=
  match s.checkToken o kind job false (fun n => !s.grants.contains n) with
  | (s, 0) => ({ s with grants := o.1.serial :: s.grants }, 0)
  | (s, c) => (s, c)

/-! ## Fabric-manager sessions -/

/-- Whether a credential over bytes holds (R54): its tag verifies under its session's key, and its counter exceeds every one that the session
has accepted. -/
def State.credOk (s : State) (c : Cred) (covered : List Byte) : Bool :=
  s.fmSessions.any fun f =>
    decide (f.id = c.session) && (match f.counter with | some n => decide (n < c.counter) | none => true)
      && decide (c.tag = credTag f.key c.session c.counter covered)

/-- Accept a credential: the session's counter and last use. -/
def State.useCred (s : State) (c : Cred) : State :=
  { s with fmSessions := s.fmSessions.map fun f =>
      if f.id = c.session then { f with counter := some c.counter, used := s.now } else f }

/-- Check a credential over bytes (R54): the state with the counter accepted, or FM_CRED. -/
def State.checkCred (s : State) (c : Cred) (covered : List Byte) : State × Nat :=
  if s.credOk c covered then (s.useCred c, 0) else (s.logRec 1 0x0B .authFailed 0 [c.session, cFmCred], cFmCred)

/-- Check the credential trailer of a command (R54), which covers its first slot and its operand block. An MG packet's header is the credential
of the command in it, which was checked when the packet came (R54, R288). -/
def State.checkTrailer (s : State) (src : CmdSrc) (op : PrivOp) (p : Priv) (x : PrivData) : State × Nat :=
  match src with
  | .mg _ _ _ => (s, 0)
  | _ =>
    match decodeTrailer x.trailer with
    | some c => s.checkCred c (Priv.bytes op p p.token ++ s.blockOf src p x)
    | none => (s.logRec 1 0x0B .authFailed 0 [0, cFmCred], cFmCred)

end Sys2Proof.Machine
end

