-- ==== Sys2Proof/Machine/LockOps.lean ====
section
/-! DEFINITION. The operations of ferry threads (R363 to R376) and of the hardware locks (R401 to R408): invocations,
event records, unit operations, acquiring and handing over a lock, effective priority. -/

namespace Sys2Proof.Machine

/-! ## Threads -/

/-- A thread of a ferry. -/
def State.thread (s : State) (f t : Nat) : Thread := (s.threads.look (f, t)).getD {}

/-- Change a thread. -/
def State.updThread (s : State) (f t : Nat) (g : Thread → Thread) : State :=
  { s with threads := s.threads.put (f, t) (g (s.thread f t)) }

/-- Change the invocation of a thread. -/
def State.updInv (s : State) (f t : Nat) (g : Invoc → Invoc) : State :=
  s.updThread f t fun x => { x with inv := x.inv.map g }

/-- A ferry beside its registers. -/
def State.ferry (s : State) (f : Nat) : Ferry := (s.ferries.look f).getD {}

/-- Change a ferry. -/
def State.updFerry (s : State) (f : Nat) (g : Ferry → Ferry) : State := { s with ferries := s.ferries.put f (g (s.ferry f)) }

/-- The value of a general register; g0 reads as 0 (R367). -/
def Invoc.reg (v : Invoc) (r : Nat) : Nat := if r = 0 then 0 else (v.g.look r).getD 0

/-- Write a general register, cut to 64 bits; writes to g0 are discarded (R367). -/
def Invoc.setReg (v : Invoc) (r x : Nat) : Invoc := if r = 0 then v else { v with g := v.g.put r (x % 2 ^ 64) }

/-- The value of a predicate; p0 reads as 1 (R367). -/
def Invoc.prd (v : Invoc) (r : Nat) : Bool := if r = 0 then true else (v.p.look r).getD false

/-- Write a predicate; writes to p0 are discarded (R367). -/
def Invoc.setPrd (v : Invoc) (r : Nat) (b : Bool) : Invoc := if r = 0 then v else { v with p := v.p.put r b }

/-- The states of a ferry: FX_STATUS[f].STATE. -/
def fxOff : Nat := 0
def fxRunning : Nat := 1
def fxDraining : Nat := 2
def fxDrained : Nat := 3
def fxFailed : Nat := 4

/-- The STATE of a ferry. -/
def State.fxState (s : State) (f : Nat) : Nat := s.rd .FX_STATUS_STATE f

/-- Result codes of unit operations (R375). -/
def ruOk : Nat := 0
def ruBusy : Nat := 1
def ruRights : Nat := 2
def ruRange : Nat := 3
def ruTranslation : Nat := 4
def ruNone : Nat := 5
def ruTimeout : Nat := 6
def ruMemory : Nat := 7
def ruRemote : Nat := 8

/-- An event record as a word: KIND, code, data (R375). -/
def evWord (e : Nat × Nat × Nat) : Nat := e.1 + e.2.1 % 256 * 256 + e.2.2 % 2 ^ 48 * 65536

/-- Queue an event record at a thread, or hand it to the thread that waits for one; a thread queues up to 32 (R375,
log 17). -/
def State.postEvent (s : State) (f t : Nat) (e : Nat × Nat × Nat) : State :=
  match (s.thread f t).inv with
  | none => s
  | some v =>
    match v.sleep with
    | some (.event rd) => (s.updInv f t fun v => { v.setReg rd (evWord e) with sleep := none }).disarm (.eventWait f t)
    | _ => s.updThread f t fun x => if x.events.length < 32 then { x with events := x.events ++ [e] } else x

/-! ## Locks -/

/-- The identity of a ferry thread (R402). -/
def identThread (f t : Nat) : Nat := 16 * f + t

/-- The identity of a host function. -/
def identHost (f : Func) : Nat := 0x4000 + f

/-- The identity of Iamel and the control path. -/
def identCtl : Nat := 0x8000

/-- A lock. -/
def State.lock (s : State) (n : Nat) : Lock := (s.locks.look n).getD {}

/-- Change a lock. -/
def State.updLock (s : State) (n : Nat) (g : Lock → Lock) : State := { s with locks := s.locks.put n (g (s.lock n)) }

/-- The group of a lock, and the counter unit of a group. -/
def lockGroup (n : Nat) : Nat := n / 256
def lockUnit (n : Nat) : Nat := 235 + n / 256

/-- The numbers of the locks that a requester holds. -/
def State.locksOf (s : State) (ident : Nat) : List Nat :=
  (s.locks.cells.filter fun c => decide (c.2.owner = some ident)).map (·.1)

/-- The priority of a requester at a lock of group `g`: a thread's effective priority, raised along chains of waiters
of priority groups (R366, R405); a host function's HOST_PRIO. `fuel` bounds the chain. -/
def State.prioOf (s : State) : Nat → Nat → Nat → Nat
  | 0, g, ident => if ident < 1024 then 0 else s.rd .LK_GROUP_HOST_PRIO g
  | fuel + 1, g, ident =>
    if ident < 1024 then
      let base := match (s.thread (ident / 16) (ident % 16)).inv with | some v => v.prio | none => 0
      (s.locksOf ident).foldl (fun m n =>
        if s.flag .LK_GROUP_PRIO_MODE (lockGroup n) then
          (s.lock n).waiters.foldl (fun m w => max m (State.prioOf s fuel (lockGroup n) w)) m
        else m) base
    else s.rd .LK_GROUP_HOST_PRIO g

/-- The effective priority of a thread (R366). -/
def State.effPrio (s : State) (f t : Nat) : Nat := s.prioOf 1025 0 (identThread f t)

/-- The waiter that a lock goes to next (R405). -/
def State.nextWaiter (s : State) (n : Nat) : Option Nat :=
  match (s.lock n).waiters with
  | [] => none
  | w :: r =>
    if s.flag .LK_GROUP_PRIO_MODE (lockGroup n) then
      some (r.foldl (fun a b => if s.prioOf 1025 (lockGroup n) a < s.prioOf 1025 (lockGroup n) b then b else a) w)
    else some w

/-- Whether a waiting ACQUIRE sees ORPHANED, in rd bit 16. -/
def orphanBit (b : Bool) : Nat := if b then 65536 else 0

/-- A requester becomes the owner; a sleeping thread wakes with its ACQUIRE done (R404). -/
def State.grantLock (s : State) (n ident : Nat) : State :=
  let s := (s.updLock n fun l => { l with owner := some ident, waiters := l.waiters.erase ident }).count (lockUnit n) 1
  let orph := (s.lock n).orphaned
  if ident < 1024 then
    s.updInv (ident / 16) (ident % 16) fun v =>
      match v.sleep with
      | some (.lock rd m) => if m = n then { v.setReg rd (ruOk + orphanBit orph) with sleep := none } else v
      | _ => v
  else s

/-- Release a lock, marking it ORPHANED where its holder was reset: it goes at once to the next waiter (R404, R406). -/
def State.releaseLock (s : State) (n : Nat) (orphan : Bool) : State :=
  let s := s.updLock n fun l => { l with owner := none, orphaned := l.orphaned || orphan }
  let s := if orphan then s.count (lockUnit n) 3 else s
  match s.nextWaiter n with
  | none => s
  | some w => (s.count (lockUnit n) 2).grantLock n w

/-- The outcome of an ACQUIRE. -/
inductive LockRes where
  | held
  | queued
  | busy
  deriving DecidableEq, Repr

/-- ACQUIRE of a lock by a requester (R403, R404). -/
def State.acquireLock (s : State) (n ident : Nat) : State × LockRes :=
  let l := s.lock n
  match l.owner with
  | none => (s.grantLock n ident, .held)
  | some o =>
    if o = ident then (s, .held)
    else if l.waiters.contains ident then (s, .queued)
    else if 64 ≤ l.waiters.length then (s.count (lockUnit n) 4, .busy)
    else (s.updLock n fun l => { l with waiters := l.waiters ++ [ident] }, .queued)

/-- Withdraw every wait of a requester and release its locks with ORPHANED (R406). -/
def State.dropLocks (s : State) (ident : Nat) : State :=
  let s := { s with locks := ⟨s.locks.cells.map fun c => (c.1, { c.2 with waiters := c.2.waiters.erase ident })⟩ }
  forEach (fun s n => s.releaseLock n true) (s.locksOf ident) s

/-- Free the locks of a group: no holder, no waiter, ORPHANED clear (R408). -/
def State.freeGroup (s : State) (g : Nat) : State := { s with locks := s.locks.keep fun n _ => decide (n / 256 ≠ g) }

/-- Free the locks of the groups bound to a freed job slot (R408). -/
def State.freeLocksOfJob (s : State) (j : Nat) : State :=
  forEach (fun s g => if s.flag .LK_GROUP_BOUND g && decide (s.rd .LK_GROUP_JOB_SLOT g = j) then s.freeGroup g else s)
    (List.range 16) s

end Sys2Proof.Machine
end

