-- ==== Sys2Proof/Machine/ThreadOps.lean ====
section
/-! DEFINITION. Target-side status entries and responses (R163, R166), and what threads do with them: unit operations
that complete (R375, R376), invocations that end (R365, R384, R388), events that wait (R383). -/

namespace Sys2Proof.Machine

/-! ## Responses of an operation at its target -/

/-- Add a status entry to a RESP-STATUS packet that waits for injection with room (R163), unless read data of its operation waits behind
that packet. -/
def joinStatus (e : StatusEntry) : List Packet → Option (List Packet)
  | [] => none
  | p :: r =>
    let data := r.any fun q => decide (q.ptype = tyRespData ∧ q.mtag = e.mtag)
    match p.body with
    | .status es =>
      if es.length < 16 ∧ !data then some ({ p with body := .status (es ++ [e]), length := p.length + 16 } :: r)
      else (joinStatus e r).map (p :: ·)
    | _ => (joinStatus e r).map (p :: ·)

/-- Queue a status entry on a context's response stream (R163): it joins a waiting RESP-STATUS packet. -/
def State.queueStatus (s : State) (c : Nat) (e : StatusEntry) : State :=
  match s.ctxs.look c with
  | none => s
  | some x =>
    match joinStatus e (x.tx 1).waiting with
    | some w => s.updTx c 1 fun t => { t with waiting := w }
    | none => s.queuePkt c { s.header x tyRespStatus with body := .status [e], length := 16 }

/-- Change an operation at its target. -/
def State.updTop (s : State) (c m : Nat) (f : TOp → TOp) : State := { s with tops := s.tops.upd (c, m) f }

/-- A packet of an operation failed: the failure of lowest OFFSET stays (R188). -/
def State.topFail (s : State) (c m off cause : Nat) : State :=
  s.updTop c m fun t =>
    match t.fail with
    | some f => if off < f.1 then { t with fail := some (off, cause) } else t
    | none => { t with fail := some (off, cause) }

/-- End an operation at its target with its one status entry (R163); a read keeps its slot until its responses are
acknowledged (R166). The operation's credits return (R182). Where the context is closing or in QUIET,
the entry waits for the next session; where it is freed, the target opens that session (R158, R174). -/
def State.sendStatus (s : State) (c m cause value : Nat) : State :=
  match s.tops.look (c, m) with
  | none => s
  | some t =>
    let s := s.updTop c m fun t => { t with result := some (cause, value) }
    let s :=
      if (s.ctxs.look c).isNone && decide (s.ctxs.size < maxCtxs) then
        s.newCtx t.slot (c / 2 ^ 64) (c / 2 ^ 32 % 2 ^ 32) (c % 2 ^ 32) s.now false
      else s
    if (s.ctxs.look c).any (fun x => decide (x.state = .opened)) then
      let s := (s.queueStatus c ⟨m, cause, value⟩).endCredit c 0 m
      if t.read then s.updTop c m fun t => { t with statusQueued := true } else { s with tops := s.tops.del (c, m) }
    else s

/-- Queue a RESP-DATA packet of an operation (R166). -/
def State.queueResp (s : State) (c m off : Nat) (bytes : List Byte) (last creq : Bool) : State :=
  match s.ctxs.look c with
  | none => s
  | some x =>
    s.queuePkt c { s.header x tyRespData with mtag := m, offset := off, last := last, creq := creq, body := .resp bytes, length := bytes.length }

/-! ## Ferries that hold a job image -/

/-- The usable wharf (R31). -/
def State.wharfTop (s : State) : Nat := 0x03_0000_0000 + s.berthsOn * 0x10_0000

/-- Whether a ferry holds the job image of a slot. -/
def State.servesJob (s : State) (f j : Nat) : Bool :=
  s.flag .FX_STATUS_JOB_LOADED f && decide (s.rd .FX_STATUS_JOB_SLOT f = j)

/-- The threads of a ferry with an invocation. -/
def State.busyThreads (s : State) (f : Nat) : List Nat := (List.range 16).filter fun t => (s.thread f t).inv.isSome

/-- Clear the job region, the job entries and the job scratch half; the ferry then serves no job (R388). -/
def State.clearJobImage (s : State) (f : Nat) : State :=
  let s := s.wrAll f [(.FX_STATUS_JOB_LOADED, 0), (.FX_STATUS_JOB_SLOT, 0), (.FX_STATUS_JOB_LEN, 0), (.FX_JOBSEG_INBOX, 0),
    (.FX_JOBSEG_SEG_LEN, 0), (.FX_JOBSEG_SEG_BASE, 0), (.FX_JOBSEG_ASID, 0)]
  let s := s.updFerry f fun x => { x with entries := x.entries.keep (fun n _ => decide (n < 0x80)), lineEntry := [] }
  { s with
    imem := s.imem.keep fun k _ => decide (k.1 ≠ f ∨ k.2 < 6144),
    scratch := s.scratch.filter fun c => !decide (c.1 / 65536 = f ∧ 0x2000 ≤ c.1 % 65536 ∧ c.1 % 65536 < 0x4000) }

/-- Clear the job image of a ferry whose job left OPEN once no invocation of it remains (R388). -/
def State.jobImageCheck (s : State) (f : Nat) : State :=
  let j := s.rd .FX_STATUS_JOB_SLOT f
  if s.flag .FX_STATUS_JOB_LOADED f && decide (s.jobState j ≠ jobOpened)
      && !(s.busyThreads f).any (fun t => decide (((s.thread f t).inv.bind (·.slot)) = some j))
  then s.clearJobImage f else s

/-! ## Invocations that end -/

/-- How an invocation ends. -/
inductive EndHow where
  | done
  | fault
  | budget
  deriving DecidableEq, Repr

def cCallNone : Nat := 0x28
def cCallFault : Nat := 0x29
def cCallTimeout : Nat := 0x2A
def cNoJob : Nat := 0x12

/-- What an invocation that ends means to its event: a CALL completes or fails (R137), an HMSG without a REPLY gets its
status (R378). -/
def State.endKind (s : State) (k : EvKind) (replied : Bool) (how : EndHow) : State :=
  match k with
  | .call q i iter =>
    match how with
    | .done => s.completeExec q i iter
    | .fault => s.failExec q i iter cCallFault
    | .budget => s.failExec q i iter cCallTimeout
  | .hmsg c m =>
    if replied then s
    else
      match how with
      | .done => s.sendStatus c m 0 0
      | .fault => s.sendStatus c m cCallFault 0
      | .budget => s.sendStatus c m cCallTimeout 0
  | _ => s

/-- The timers of a thread. -/
def TimerKey.ofThread (f t : Nat) : TimerKey → Bool
  | .budget g u => decide (g = f ∧ u = t)
  | .ferryTimer g u _ => decide (g = f ∧ u = t)
  | .eventWait g u => decide (g = f ∧ u = t)
  | _ => false

/-- An invocation ends (R365): its locks are released and marked ORPHANED, its timers cancelled, its events discarded;
unit operations that still run go on without it. -/
def State.endInvoc (s : State) (f t : Nat) (how : EndHow) : State :=
  match (s.thread f t).inv with
  | none => s
  | some v =>
    let s := (s.dropLocks (identThread f t)).disarmAll (TimerKey.ofThread f t)
    let s := s.updThread f t fun x => { x with inv := none, ops := [], orphans := x.orphans ++ x.ops, events := [], timers := {} }
    (s.endKind v.kind v.replied how).jobImageCheck f

/-- The queues bound to a ferry's threads. -/
def State.ferryQueues (s : State) (f : Nat) : List Nat :=
  s.boundQueues fun q => decide (q ≠ 0) && decide (s.rd .QU_CFG_FERRY q = f)

/-- Halt the queues of a ferry with HALT_REASON 6 (R384, R387). -/
def State.haltFerryQueues (s : State) (f : Nat) : State := forEach (fun s q => s.haltQueue q 6) (s.ferryQueues f) s

/-- A ferry is FAILED: its queues halt, it dispatches nothing more, its fault source is raised (R384). -/
def State.ferryFailed (s : State) (f : Nat) : State :=
  ((s.wr .FX_STATUS_STATE f fxFailed).haltFerryQueues f).raise f

/-- The causes of thread faults (R384). -/
def tfIllegal : Nat := 0x01
def tfAccess : Nat := 0x02
def tfAlign : Nat := 0x03
def tfPoison : Nat := 0x04
def tfBudget : Nat := 0x05
def tfOriginate : Nat := 0x06
def tfPcRange : Nat := 0x07
def tfBreak : Nat := 0x08
def tfUnit : Nat := 0x09
def tfJobClosed : Nat := 0x0A
def tfReset : Nat := 0x0B

/-- A thread fault (R384): the record, the end of the invocation, and for a system invocation a FAILED ferry. -/
def State.threadFault (s : State) (f t cause : Nat) : State :=
  match (s.thread f t).inv with
  | none => s
  | some v =>
    let i := 16 * f + t
    let s := s.wrAll i [(.FX_FAULT_PC, v.pc), (.FX_FAULT_ENTRY, v.entry), (.FX_FAULT_JOB_SLOT, v.slot.getD 0),
      (.FX_FAULT_CAUSE, cause)]
    let s := ((s.incSat .FX_FAULT_COUNT i 1).count f 2 cause).count f 2 0
    let s := s.logRec 1 0x02 .threadFault i [v.pc, v.entry, cause]
    let s := s.endInvoc f t (if cause = tfBudget then .budget else .fault)
    if v.slot.isNone then s.ferryFailed f else s

/-- Discard an event that waits in a dispatch queue (R388, log 18): a CALL fails, an HMSG is answered NO_JOB. -/
def State.dropEvent (s : State) (f : Nat) (e : DEvent) : State :=
  let s := s.count f 3
  match e.kind with
  | .call q i iter => s.failExec q i iter cCallFault
  | .hmsg c m => s.sendStatus c m cNoJob 0
  | _ => s

/-- The slot of a ferry's job leaves OPEN (R388): its running invocations fault, its waiting events are discarded, its
image is cleared once no invocation remains. -/
def State.jobLeftFerry (s : State) (j f : Nat) : State :=
  if !s.servesJob f j then s
  else
    let es := (s.ferry f).queue.filter fun e => decide (e.slot = j)
    let s := s.updFerry f fun x => { x with queue := x.queue.filter fun e => decide (e.slot ≠ j) }
    let s := forEach (fun s e => s.dropEvent f e) es s
    let s := forEach (fun s t =>
      match (s.thread f t).inv with
      | some v => if v.slot = some j then s.threadFault f t tfJobClosed else s
      | none => s) (List.range 16) s
    s.jobImageCheck f

/-- The slot of a job leaves OPEN: every ferry that serves it (R388). -/
def State.jobLeftOpen (s : State) (j : Nat) : State := forEach (fun s f => s.jobLeftFerry j f) (List.range 64) s

/-! ## Unit operations -/

/-- The result word of a unit operation (R375). -/
def ruWord (code cause value : Nat) : Nat := code + cause % 256 * 256 + value % 2 ^ 48 * 65536

/-- Local addresses: the ferry's scratch or the wharf (R368). -/
def isScratch (addr : Nat) : Bool := decide (addr < 0x4000)

/-- Read local bytes of a ferry. -/
def State.readLocal (s : State) (f addr n : Nat) : List Byte :=
  if isScratch addr then memRead s.scratch (65536 * f + addr) n else memRead s.mem addr n

/-! ## Lines of the wharf -/

/-- The line of an address. -/
def lineOf (addr : Nat) : Nat := addr / 64 * 64

/-- The home berth of a line (R31), among the berths in use. -/
def State.homeOf (s : State) (line : Nat) : Nat :=
  let bs := (List.range 64).filter s.berthOn
  (bs[Config.berthHash line bs.length % bs.length]?).getD 0

/-- A line transfer at the home of an address, for one of the home's requester ports: it is counted, and the berth's arbiter has a new last owner
(R410, R481). -/
def State.lineMove (s : State) (addr port : Nat) : State :=
  let b := s.homeOf (lineOf addr)
  let s := s.count (64 + b) 1
  { s with arbs := s.arbs.put (128 + b) { owner := port } }

/-- The line transfers of an agent's access: each line goes to or from its home (R395). -/
def State.agentMoves (s : State) (addr n : Nat) : State :=
  if isScratch addr ∨ n = 0 then s
  else
    (List.range ((addr + n - 1) / 64 - addr / 64 + 1)).foldl
      (fun s k => let a := lineOf addr + 64 * k; s.lineMove a (64 + Config.agentPort a % 8)) s

/-- Write local bytes of a ferry; a write to the wharf by the hardware invalidates every cached copy (R374, R395). -/
def State.writeLocal (s : State) (f addr : Nat) (bs : List Byte) : State :=
  if bs.isEmpty then s
  else if isScratch addr then { s with scratch := memWrite s.scratch (65536 * f + addr) bs }
  else
    let s := s.agentMoves addr bs.length
    { s with
      mem := memWrite s.mem addr bs,
      lines := s.lines.filter fun l => !decide (lineOf addr ≤ l.addr ∧ l.addr < addr + bs.length),
      poison := s.poison.filter fun l => !decide (addr ≤ l ∧ l + 64 ≤ addr + bs.length) }

/-- Whether an access of `n` bytes at a local address is allowed to an invocation of a ferry (R368, R31). -/
def State.localOk (s : State) (f addr n : Nat) (job : Bool) : Bool :=
  let last := addr + (n - 1)
  let seg := 0x03_0000_0000 + s.rd .FX_JOBSEG_SEG_BASE f * 65536
  let segEnd := seg + s.rd .FX_JOBSEG_SEG_LEN f * 65536
  if job then decide (0x2000 ≤ addr ∧ last < 0x4000) || decide (seg ≤ addr ∧ last < segEnd ∧ last < s.wharfTop)
  else decide (last < 0x4000) || decide (0x03_0000_0000 ≤ addr ∧ last < s.wharfTop)

/-- A thread whose invocation waits for its unit operations ends once none is left (R365). -/
def State.endingCheck (s : State) (f t : Nat) : State :=
  match (s.thread f t).inv with
  | some v => if v.ending.isSome && (s.thread f t).ops.isEmpty then s.endInvoc f t .done else s
  | none => s

/-- A unit operation completes with a result code (R375, R376): its tally and event, the thread that sleeps on it. -/
def State.unitDone (s : State) (f t op code cause value : Nat) : State :=
  let x := s.thread f t
  match x.ops.find? fun o => decide (o.op = op) with
  | none =>
    match x.orphans.find? fun o => decide (o.op = op) with
    | some o =>
      let s := s.updThread f t fun x => { x with orphans := x.orphans.erase o }
      if code = ruOk then s.bumpField o.ctally else s
    | none => s
  | some o =>
    let s := s.updThread f t fun x => { x with ops := x.ops.erase o }
    let s := if code = ruOk then s.bumpField o.ctally else s
    let s :=
      if o.w then
        s.updInv f t fun v =>
          if v.sleep = some (.unit op) then { v.setReg o.rd (ruWord code cause value) with sleep := none } else v
      else s
    let s := s.updInv f t fun v => if v.sleep = some .full then { v with sleep := none } else v
    let s :=
      if (code = ruOk && o.done) || (code ≠ ruOk && !o.w) then s.postEvent f t (1, code, o.desc) else s
    s.endingCheck f t

/-- Whether a ferry has room for one more event (R383). -/
def State.dispatchRoom (s : State) (f : Nat) : Bool := decide ((s.ferry f).queue.length < 256)

/-- Put an event in a ferry's dispatch queue. -/
def State.pushEvent (s : State) (f : Nat) (e : DEvent) : State :=
  s.updFerry f fun x => { x with queue := x.queue ++ [e] }

/-- The threads that may run an entry: THREADS ∩ JOB_THREADS for a job entry (the dispatch table). -/
def State.entryThreads (s : State) (f entry : Nat) : Nat :=
  match (s.ferry f).entries.look entry with
  | none => 0
  | some h => if entry < 0x80 then h.threads else h.threads &&& s.rd .FX_CFG_JOB_THREADS f

end Sys2Proof.Machine
end

