-- ==== Sys2Proof/Machine/ManifestOps.lean ====
section
/-! DEFINITION. Manifest entries and the limits of R207, contexts opened for an operation (R158, R160) and closed
(R172, R173). -/

namespace Sys2Proof.Machine

/-! ## Manifest entries -/

/-- The counter unit of the manifest. -/
def uManifest : Nat := 231

/-- Manifest entries that a job slot holds (MF_USE). -/
def State.entriesOf (s : State) (j : Nat) : Nat := (s.manifest.cells.filter fun m => decide (m.2.slot = j)).length

/-- Read slots that a job slot holds (MF_USE). -/
def State.readsOf (s : State) (j : Nat) : Nat := (s.tops.cells.filter fun t => t.2.read && decide (t.2.slot = j)).length

/-- Read slots in use (R25). -/
def State.reads (s : State) : Nat := (s.tops.cells.filter fun t => t.2.read).length

/-- Free leaf records of the region pool (R202). -/
def State.leavesFree (s : State) : Nat := 16777216 - (s.regions.cells.map fun r => r.2.leaves.length).foldl (· + ·) 0

/-- The lowest free manifest entry number, below 131,072. -/
def freeMtag (used : List Nat) : Nat := ((List.range (used.length + 1)).find? fun k => !used.contains k).getD 0

/-- Change a manifest entry. -/
def State.updM (s : State) (m : Nat) (f : MEntry → MEntry) : State := { s with manifest := s.manifest.upd m f }

/-- Whether a transfer reads for an operation of this requester, and whether it belongs to one. -/
def XferKind.readsFor (m : Nat) : XferKind → Bool
  | .source n _ _ _ => decide (n = m)
  | _ => false
def XferKind.ofEntry (m : Nat) : XferKind → Bool
  | .source n _ _ _ => decide (n = m)
  | .land n _ _ => decide (n = m)
  | .result n => decide (n = m)
  | .flushM n => decide (n = m)
  | _ => false

/-- The operation at its target that a transfer belongs to, as (context, number). -/
def XferKind.target : XferKind → Option (Nat × Nat)
  | .place c m _ => some (c, m)
  | .serve c m _ _ _ => some (c, m)
  | .flushT c m => some (c, m)
  | .memAtomic c m => some (c, m)
  | .hostAtomic c m _ _ => some (c, m)
  | _ => none

/-- Keep the operations of a context at this target that a test finds; the accesses of the others are given up (R171, R205). -/
def State.keepTops (s : State) (c : Nat) (f : Nat → TOp → Bool) : State :=
  let tops := s.tops.keep fun k t => decide (k.1 ≠ c) || f k.2 t
  { s with
    tops := tops,
    xfers := s.xfers.keep fun _ x => match x.kind.target with | some k => decide (k.1 ≠ c) || (tops.look k).isSome | none => true }

/-- Retire a manifest entry: its transfers are given up, its landing units and its credits return (R20 step 2, R182, R208), and its
context may owe work no longer (R171). -/
def State.retire (s : State) (m : Nat) : State :=
  match s.manifest.look m with
  | none => s
  | some e =>
    let s := { s with manifest := s.manifest.del m, xfers := s.xfers.keep fun _ x => !x.kind.ofEntry m }
    ((s.endCredit e.ctx 1 m).count uManifest 2).watch e.ctx

/-- Whether a context's send streams are fully acknowledged and it owes no work (R172). -/
def State.ctxIdle (s : State) (c : Nat) : Bool := !s.owesWork c

/-- The plaintext of a close packet (R150): the next PSNs of the request and response streams. -/
def Ctx.closeBody (x : Ctx) : Body := .close (x.tx (if x.coll then 2 else 0)).next (x.tx 1).next

/-- The retransmit timeout of a context's close packets. -/
def Ctx.closeRto (x : Ctx) : Nat := (x.tx (if x.coll then 2 else 0)).rto

/-- Send CLOSE-REQ (R172 step 1) and repeat it at each RTO. -/
def State.sendClose (s : State) (c : Nat) : State :=
  match s.ctxs.look c with
  | none => s
  | some x => (s.sendCtl c tyCloseReq 0 x.closeBody).armIn (.rto c (if x.coll then 2 else 0)) x.closeRto

/-- Start a close (R172): at once where the context is idle, else when it becomes so. Under JOB-CLOSE the initiator
goes QUIET 100 microseconds after its first CLOSE-REQ (R173). -/
def State.startClose (s : State) (c : Nat) (job : Bool) : State :=
  match s.ctxs.look c with
  | none => s
  | some x =>
    if x.state ≠ .opened then
      if !job || x.jobClose then s
      else
        let s := s.updCtx c fun x => { x with jobClose := true }
        if x.state = .closing then s.armIn (.closeQuiet c) (us 100) else s
    else if s.ctxIdle c then
      let s := s.updCtx c fun x => { x with state := .closing, waitClose := false, jobClose := x.jobClose || job }
      let s := (s.sendClose c).disarm (.idleClose c)
      let s := if job then s.armIn (.closeQuiet c) (us 100) else s
      if s.armed (.ctxFail c) then s else s.armIn (.ctxFail c) s.failTicks
    else s.updCtx c fun x => { x with waitClose := true, jobClose := x.jobClose || job }

/-! ## Contexts for operations -/

/-- Start idle closes while free contexts are below LOW_WATER (R160, R172): the longest idle first, idle for 1 ms at
least, as many as are wanted beyond the contexts that close already. -/
def State.lowWater (s : State) : State :=
  let going := (s.ctxs.cells.filter fun c => decide (c.2.state ≠ .opened)).length
  let want := s.rd .TP_CTX_CFG_LOW_WATER * 1024 - (maxCtxs - s.ctxs.size) - going
  if want = 0 then s
  else
    let idle := s.ctxs.cells.filter fun c =>
      decide (c.2.state = .opened ∧ c.2.used + ms 1 ≤ s.now) && s.ctxIdle c.1
    let order := idle.mergeSort fun a b => decide (a.2.used ≤ b.2.used)
    forEach (fun s c => s.startClose c.1 false) (order.take want) s

/-- The context for an operation of a job slot between two endpoints, opened on first use (R158); none where the
operation is held: the pair's context is closing (R172), or every context is in use (R160). -/
def State.openFor (s : State) (slot loc rem : Nat) (coll : Bool) : State × Option Nat :=
  let job := s.rd .GLB_JOB_JOB_ID slot
  match s.ctxOf job loc rem with
  | some c =>
    match s.ctxs.look c with
    | some x => if x.state = .opened ∧ !x.jobClose then (s.fetchCtx c, some c) else (s, none)
    | none => (s, none)
  | none =>
    if maxCtxs ≤ s.ctxs.size then (s.lowWater, none)
    else ((s.newCtx slot job loc rem s.now coll).lowWater, some (ctxKey job loc rem))

/-- Whether a slot may take one more manifest entry (R22, R207). -/
def State.canTake (s : State) (slot : Nat) : Bool :=
  decide (s.manifest.size < 131072) && decide (s.entriesOf slot < s.rd .MF_QUOTA_MANIFEST slot)

/-- Take the lowest free manifest entry (R206). -/
def State.takeEntry (s : State) (e : MEntry) : State × Nat :=
  let m := freeMtag (s.manifest.keys ++ s.stale.map (·.2))
  ({ s with manifest := s.manifest.put m e }.count uManifest 1, m)

/-- Landing units that a response of `n` bytes reserves before its request leaves (R208). -/
def landUnits (n : Nat) : Nat := ceilDiv (min n 65536) 4096

/-- The endpoint address of an endpoint index of this device. -/
def State.endpoint (s : State) (ep : Nat) : Nat := s.nodeId * 4096 + ep

/-- A DATA packet of a manifest entry. -/
def State.dataPkt (s : State) (x : Ctx) (m off : Nat) (last ord creq : Bool) (blk : OpBlock) (bytes : List Byte) : Packet :=
  { s.header x tyData with
    last := last, ord := ord, creq := creq, mtag := m, offset := off, length := 32 + bytes.length, body := .data blk bytes }

end Sys2Proof.Machine
end

