-- ==== Sys2Proof/Machine/MatchOps.lean ====
section
/-! DEFINITION. Message matching (R212 to R237): spaces and catchers, posts, presentations, the data of a matched
receive, pulls, probes and claims. -/

namespace Sys2Proof.Machine

/-! ## Catchers -/

/-- The key of a match space. -/
def Space.key (p : Space) : Nat := p.slot * 2 ^ 44 + p.ep * 2 ^ 32 + p.comm

/-- The catchers that serve spaces: enabled, not isolated, and not moved away from, where another one serves (R213, R461, R472, R503). -/
def State.catchersIn (s : State) : List Nat :=
  let cs := s.catchersOn.filter fun c => !s.flag .FT_SRC_ISOLATED (64 + c)
  let ds := cs.filter fun c => !s.movedAway 4 5 c
  if ds.isEmpty then cs else ds

/-- The catcher that serves a space (R213); none while no catcher serves. -/
def State.catcherOf (s : State) (p : Space) : Option Nat :=
  let cs := s.catchersIn
  if cs.isEmpty then none else cs[Config.catcherHash p.key cs.length % cs.length]?

/-- The counter unit of a catcher. -/
def catcherUnit (c : Nat) : Nat := 218 + c

/-- The next stamp of a catcher (R215). -/
def State.nextStamp (s : State) (c : Nat) : State × Nat :=
  let v := (s.stamps.look c).getD 0 + 1
  ({ s with stamps := s.stamps.put c v }, v)

/-- Advance every catcher's stamp counter to the highest, so that moved spaces keep the order of their stamps (R213,
log 19). -/
def State.levelStamps (s : State) : State :=
  let m := (s.stamps.cells.map (·.2)).foldl max 0
  { s with stamps := ⟨(List.range 4).map fun c => (c, m)⟩ }

/-! ## Match entries and units (R222, R235, R236) -/

/-- Whether a receive holds a match entry: it is posted. -/
def Recv.holds (r : Recv) : Bool := decide (r.stage = .posted)

/-- Match entries in use. -/
def State.matchUsed (s : State) : Nat :=
  (s.recvs.cells.filter fun r => r.2.holds).length + (s.msgs.cells.filter fun m => m.2.entry).length

/-- Match entries that a job slot holds. -/
def State.matchUse (s : State) (j : Nat) : Nat :=
  (s.recvs.cells.filter fun r => r.2.holds && decide (r.2.space.slot = j)).length
    + (s.msgs.cells.filter fun m => m.2.entry && decide (m.2.space.slot = j)).length

/-- Whether a slot may take one more match entry. -/
def State.canMatch (s : State) (j : Nat) : Bool :=
  decide (s.matchUsed < 16777216) && decide (s.matchUse j < s.rd .CT_QUOTA_ENTRIES j)

/-- Units of the unexpected store in use, and those of a slot. -/
def State.unitsUsed (s : State) : Nat := (s.msgs.cells.map fun m => m.2.place.length).foldl (· + ·) 0
def State.unitsUse (s : State) (j : Nat) : Nat :=
  (s.msgs.cells.map fun m => if m.2.space.slot = j then m.2.place.length else 0).foldl (· + ·) 0

/-- Whether a pool of `size` bytes at a base of 64 KiB units lies in package memory below its reserved range. -/
def poolOk (base size : Nat) : Bool :=
  decide (size = 0 ∨ (0x10_0000_0000 ≤ base * 65536 ∧ base * 65536 + size ≤ 0x13_8000_0000))

/-- Whether an eager message's units can be taken; a pool of no units, or one that does not lie in its range (log 34), takes none (R223,
R239). -/
def State.canUnits (s : State) (j n : Nat) : Bool :=
  decide (s.rd .CT_UXPOOL_UNITS ≠ 0) && poolOk (s.rd .CT_UXPOOL_BASE) (256 * s.rd .CT_UXPOOL_UNITS) && decide (s.unitsUsed + n ≤ s.rd .CT_UXPOOL_UNITS)
    && decide (s.unitsUse j + n ≤ s.rd .CT_QUOTA_UXUNITS j)

/-- The units that a message takes: the lowest free ones, a choice of the model. -/
def State.pickUnits (s : State) (n : Nat) : List Nat :=
  let used := s.msgs.cells.flatMap fun m => m.2.place
  (((List.range (used.length + n)).filter fun u => !used.contains u)).take n

/-- The unexpected store's place of byte `k` of a message that holds the units `us` (R222, R239). -/
def State.unitAddr (s : State) (us : List Nat) (k : Nat) : Nat :=
  s.rd .CT_UXPOOL_BASE * 65536 + 256 * us.getD (k / 256) 0 + k % 256

/-- Write bytes of a message into the unexpected store from its byte `off` on. -/
def State.storeUnits (s : State) (us : List Nat) (off : Nat) : List Byte → State
  | [] => s
  | b :: r => (s.putByte (s.unitAddr us off) b).storeUnits us (off + 1) r

/-- The first `n` bytes of a message that stand in the unexpected store. -/
def State.readUnits (s : State) (us : List Nat) (n : Nat) : List Byte := (List.range n).map fun k => s.byteAt (s.unitAddr us k)

/-- Entries on chip of a catcher. -/
def State.onChip (s : State) (c : Nat) : Nat :=
  (s.recvs.cells.filter fun r => r.2.holds && r.2.chip && decide (s.catcherOf r.2.space = some c)).length
    + (s.msgs.cells.filter fun m => m.2.entry && m.2.chip && decide (s.catcherOf m.2.space = some c)).length

/-- The exact chain or wildcard list that a posted receive lies in: its space and, in a chain, its rank and tag (R217). -/
def Recv.chain (r : Recv) : Space × Option (Nat × Nat) := (r.space, if r.anySrc || r.anyTag then none else some (r.srcRank, r.tag))

/-- The entries on chip of a catcher by chain or list, as (stamp, number): posted receives by theirs, unexpected messages by their key. -/
def State.chipEntries (s : State) (c : Nat) : List ((Space × Option (Nat × Nat)) × Nat × Nat) :=
  (s.recvs.cells.filterMap fun r =>
      if r.2.holds && r.2.chip && decide (s.catcherOf r.2.space = some c) then some (r.2.chain, r.2.stamp, r.1) else none)
    ++ (s.msgs.cells.filterMap fun m =>
      if m.2.entry && m.2.chip && decide (s.catcherOf m.2.space = some c) then some ((m.2.space, some (m.2.rank, m.2.tag)), m.2.stamp, m.1)
      else none)

/-- The newest entry of a longest chain or list of a catcher: the one to move out first (R237). -/
def State.spillFirst (s : State) (c : Nat) : Option Nat :=
  let es := s.chipEntries c
  let size (e : (Space × Option (Nat × Nat)) × Nat × Nat) : Nat := (es.filter fun f => decide (f.1 = e.1)).length
  match es with
  | [] => none
  | e :: r =>
    some ((r.foldl (fun a b => if size a < size b ∨ (size a = size b ∧ a.2.1 < b.2.1) then b else a) e).2.2)

/-- Move entries of a catcher out to package memory until no more than 65,536 are on chip (R236, R237); `n` bounds how many. -/
def State.spillOver (s : State) (c : Nat) : Nat → State
  | 0 => s
  | n + 1 =>
    if s.onChip c ≤ 65536 then s
    else
      match s.spillFirst c with
      | none => s
      | some i =>
        let s := { s with recvs := s.recvs.upd i fun r => { r with chip := false }, msgs := s.msgs.upd i fun m => { m with chip := false } }
        (s.count (catcherUnit c) 5).spillOver c n

/-- The set of catchers that serve has changed: stamps are levelled, and each catcher makes room for the entries that moved to it (R213). -/
def State.catchersMoved (s : State) : State :=
  forEach (fun s c => s.spillOver c (s.onChip c)) (List.range 4) s.levelStamps

/-- Whether a new entry of a catcher stays on chip; one that does not is counted as spilled (R237). -/
def State.placeEntry (s : State) (c : Nat) : State × Bool :=
  if s.onChip c < 65536 then (s, true) else (s.count (catcherUnit c) 5, false)

/-! ## Matching (R214, R218, R219) -/

/-- Whether a receive's criteria fit a message. -/
def critFit (anySrc anyTag : Bool) (srcRank tag rank mtag : Nat) : Bool :=
  (anySrc || decide (srcRank = rank)) && (anyTag || decide (tag = mtag))

/-- The entry of lowest stamp among candidates given as (stamp, number). -/
def lowest : List (Nat × Nat) → Option Nat
  | [] => none
  | a :: r => some ((r.foldl (fun x y => if y.1 < x.1 then y else x) a).2)

/-- The oldest unexpected message of a space that fits. -/
def State.findMsg (s : State) (p : Space) (anySrc anyTag : Bool) (srcRank tag : Nat) : Option Nat :=
  lowest ((s.msgs.cells.filter fun m =>
    decide (m.2.space = p) && m.2.recv.isNone && !m.2.claimed && critFit anySrc anyTag srcRank tag m.2.rank m.2.tag).map
      fun m => (m.2.stamp, m.1))

/-- The posted receive of a space that a message matches: the one of lowest stamp (R219). -/
def State.findRecv (s : State) (p : Space) (rank tag : Nat) : Option Nat :=
  lowest ((s.recvs.cells.filter fun r =>
    decide (r.2.space = p) && r.2.holds && critFit r.2.anySrc r.2.anyTag r.2.srcRank r.2.tag rank tag).map
      fun r => (r.2.stamp, r.1))

/-- Change a receive, or a message. -/
def State.updRecv (s : State) (i : Nat) (f : Recv → Recv) : State := { s with recvs := s.recvs.upd i f }
def State.updMsg (s : State) (i : Nat) (f : Msg → Msg) : State := { s with msgs := s.msgs.upd i f }

/-! ## The data of a matched receive -/

/-- Write bytes of a message at an offset of a receive's buffer, cut to its LENGTH (R123, R231); answers whether a
transfer started, or none where the access is refused or the receive has failed before its message is in. -/
def State.recvWrite (s : State) (i off : Nat) (bytes : List Byte) (kind : XferKind) : State × Option Bool :=
  match s.recvs.look i with
  | none => (s, if bytes.isEmpty then some false else none)
  | some r =>
    let bs := bytes.take (r.length - off)
    if bs.isEmpty then (s, some false)
    else
      match s.translateRange r.asid (r.buf + off) bs.length r.func false true with
      | (s, .inl _) => (s.updRecv i fun r => { r with fail := some cLocalMemory }, none)
      | (s, .inr segs) =>
        if s.segAccess segs ≠ .ok then (s.updRecv i fun r => { r with fail := some cLocalMemory }, none)
        else
          let s := s.updRecv i fun r => { r with busy := r.busy + 1, host := r.host || !(segFuncs segs).isEmpty }
          (s.startXfer kind true segs bs r.rlx, some true)

/-- The receive status record (R122). -/
def recvRecord (r : Recv) (m : Msg) : List Byte :=
  leBytes 4 m.rank ++ leBytes 4 r.placed ++ leBytes 8 m.tag ++ leBytes 4 m.sent
    ++ leBytes 4 (if r.truncated then 1 else 0) ++ leBytes 8 r.time

/-- A receive goes: its message is released with it, but for an eager one whose packets still come (R222, R224). -/
def State.recvGone (s : State) (i : Nat) (r : Recv) : State :=
  let s := { s with recvs := s.recvs.del i }
  if (s.msgs.look r.msg).any fun m => !m.rdv && !m.lastIn && !m.cut then s.updMsg r.msg fun m => { m with copied := true }
  else { s with msgs := s.msgs.del r.msg }

/-- A receive ends: its owner learns of it (R122). -/
def State.recvEnd (s : State) (i cause : Nat) : State :=
  match s.recvs.look i with
  | none => s
  | some r =>
    let s := s.recvGone i r
    match r.owner with
    | .exec q k iter => if cause = 0 then s.completeExec q k iter else s.failExec q k iter cause
    | .unit f t op =>
      if cause = 0 then s.unitDone f t op ruOk 0 0
      else if cause = cLocalMemory then s.unitDone f t op ruMemory 0 0
      else s.unitDone f t op ruRemote cause 0

/-- A receive whose pull was retired with its job slot's closing: it is cancelled with it (the JOB-CLOSE table, step 2). -/
def State.recvCancelled (s : State) (i : Nat) : State :=
  match s.recvs.look i with
  | none => s
  | some r =>
    let s := s.recvGone i r
    match r.owner with
    | .exec q k iter => s.cancelExec q k iter
    | .unit f t op => s.unitDone f t op ruRemote 0x10 0

/-- After the data: the status record, the flushing read, the end (R122, R437). -/
def State.recvNext (s : State) (i : Nat) : State :=
  match s.recvs.look i with
  | none => s
  | some r =>
    match r.fail with
    | some c => s.recvEnd i c
    | none =>
      if r.stage = .data ∧ r.status ≠ 0 then
        let rec0 := recvRecord r ((s.msgs.look r.msg).getD { space := r.space, rem := 0, rank := 0, tag := 0, sent := 0, rdv := false, handle := 0, ctx := 0, mtag := 0, stamp := 0 })
        match s.translateRange r.asid r.status 32 r.func false true with
        | (s, .inl _) => s.recvEnd i cLocalMemory
        | (s, .inr segs) =>
          if s.segAccess segs ≠ .ok then s.recvEnd i cLocalMemory
          else
            let s := s.updRecv i fun r => { r with stage := .status, host := r.host || !(segFuncs segs).isEmpty }
            s.startXfer (.recvStatus i) true segs rec0
      else if r.host then
        (s.updRecv i fun r => { r with stage := .flush, host := false }).startFlush (.recvFlush i) r.func
      else s.recvEnd i 0

/-- Whether every byte of a matched receive is in: a pull has ended, an eager message has been presented whole. -/
def State.recvFull (s : State) (r : Recv) : Bool :=
  decide (r.busy = 0) &&
    (match s.msgs.look r.msg with
     | some m => if m.rdv then r.pullDone else m.lastIn || m.cut
     | none => true)

/-- A receive whose data is complete goes on. -/
def State.recvCheck (s : State) (i : Nat) : State :=
  match s.recvs.look i with
  | none => s
  | some r =>
    if r.stage = .data && s.recvFull r then
      let m := s.msgs.look r.msg
      let s := match m with
        | some m => if r.length < m.sent then s.updRecv i fun r => { r with truncated := true } else s
        | none => s
      s.recvNext i
    else s

/-! ## Pulls (R228) -/

/-- Issue the pull of a receive that matched a rendezvous header, where landing space, a manifest entry and the
context allow it; else it waits for them. -/
def State.tryPull (s : State) (i : Nat) : State :=
  match s.recvs.look i with
  | none => s
  | some r =>
    match s.msgs.look r.msg with
    | none => s
    | some m =>
      if r.pulled || decide (r.stage ≠ .data) || !m.rdv then s
      else
        let n := min m.sent r.length
        let units := landUnits n
        if s.landFree < units || !s.canTake r.space.slot then s
        else
          match s.openFor r.space.slot (s.endpoint r.space.ep) m.rem false with
          | (s, none) => s
          | (s, some c) =>
            match s.ctxs.look c with
            | none => s
            | some x =>
              let e : MEntry := {
                queue := 0, index := 0, iter := 0, slot := r.space.slot, ctx := c, blk := .pull n m.handle, total := n,
                rlx := r.rlx, lastQueued := true, land := units, owner := .pull i, asid := r.asid, func := r.func, laddr := r.buf }
              match s.takeEntry e with
              | (s, mt) =>
                let s := s.updRecv i fun r => { r with pulled := true }
                s.queuePkt c (s.dataPkt x mt 0 true false false (.pull n m.handle) [])

/-- Issue the pulls that wait. -/
def State.retryPulls (s : State) : State := forEach State.tryPull s.recvs.keys s

/-- A pull ended with a cause (R230): 0 every byte placed, TARGET_ERROR a withdrawn send. -/
def State.pullEnded (s : State) (i cause : Nat) : State :=
  match s.recvs.look i with
  | none => s
  | some r =>
    let sent := match s.msgs.look r.msg with | some m => m.sent | none => 0
    let s := s.updRecv i fun r => { r with pullDone := true }
    let s :=
      if cause = 0 then s.updRecv i fun r => { r with placed := min sent r.length }
      else if cause = 0x11 then s.updRecv i fun r => { r with placed := 0, truncated := true }
      else s.updRecv i fun r => { r with fail := some cause }
    s.recvCheck i

/-! ## Posts and matches -/

/-- The stored bytes of a message have moved on, or there are none to move: its units return once its LAST packet has been presented
too (R224). -/
def State.copied (s : State) (m : Nat) : State :=
  s.updMsg m fun x => { x with copied := true, stored := 0, place := if x.lastIn || x.cut then [] else x.place }

/-- A receive and a message match (R218, R219): the entry is released, the data starts to move (R224, R228). -/
def State.pairUp (s : State) (i m : Nat) : State :=
  let s := s.updMsg m fun x => { x with recv := some i, entry := false, claimed := false }
  let s := s.updRecv i fun r => { r with stage := .data, msg := m, time := s.now }
  match s.msgs.look m with
  | none => s
  | some x =>
    if x.rdv then (s.tryPull i).recvCheck i
    else
      match s.recvWrite i 0 (s.readUnits x.place x.stored) (.unexpected i) with
      | (s, some true) => s
      | (s, _) => (s.copied m).recvCheck i

/-- Post a receive at its catcher (R218): its stamp, the search of the unexpected messages, or its chain or list. -/
def State.postRecv (s : State) (c : Nat) (r : Recv) : State :=
  let s := s.count (catcherUnit c) 1
  let i := s.nextId
  match s.idNext.nextStamp c with
  | (s, stamp) =>
    match s.findMsg r.space r.anySrc r.anyTag r.srcRank r.tag with
    | some m => { s with recvs := s.recvs.put i { r with stamp := stamp } }.pairUp i m
    | none =>
      match s.placeEntry c with
      | (s, chip) => { s with recvs := s.recvs.put i { r with stamp := stamp, chip := chip } }

/-! ## Presentations (R219 to R223) -/

/-- Present the first packet of a SEND to the catcher of its space (R219): none where the message is held (R223), else
the state and the message's number. -/
def State.present (s : State) (c : Nat) (x : Ctx) (m : Nat) (rdv : Bool) (comm rank length tag handle : Nat) : Option (State × Nat) :=
  let p : Space := ⟨x.slot, x.loc % 4096, comm⟩
  match s.catcherOf p with
  | none => none
  | some k =>
    let id := s.nextId
    let msg : Msg := {
      space := p, rem := x.rem, rank := rank, tag := tag, sent := length, rdv := rdv, handle := handle, ctx := c,
      mtag := m, stamp := 0 }
    match s.findRecv p rank tag with
    | some i =>
      match (s.idNext.count (catcherUnit k) 2).nextStamp k with
      | (s, stamp) => some ({ s with msgs := s.msgs.put id { msg with stamp := stamp } }.pairUp i id, id)
    | none =>
      let units := if rdv then 0 else ceilDiv length 256
      if s.canMatch x.slot && (rdv || s.canUnits x.slot units) then
        match ((s.idNext.count (catcherUnit k) 2).count (catcherUnit k) 3).nextStamp k with
        | (s, stamp) =>
          match s.placeEntry k with
          | (s, chip) =>
            let msg := { msg with stamp := stamp, chip := chip, entry := true, place := s.pickUnits units }
            some ({ s with msgs := s.msgs.put id msg }, id)
      else none

/-- Data of a presented message (R220): to the matched buffer, to its units of the unexpected store, or discarded. Answers none
where the placement is refused, else whether a transfer started. -/
def State.msgData (s : State) (c mtag id off : Nat) (bytes : List Byte) : State × Option Bool :=
  match s.msgs.look id with
  | none => (s, some false)
  | some m =>
    match m.recv with
    | some i => s.recvWrite i off bytes (.recv i off)
    | none =>
      if m.ctx = c ∧ m.mtag = mtag then
        ((s.storeUnits m.place off bytes).updMsg id fun m => { m with stored := m.stored + bytes.length }, some false)
      else (s, some false)

/-- The LAST packet of a message has been presented. -/
def State.msgLast (s : State) (id : Nat) : State :=
  let s := s.updMsg id fun m => { m with lastIn := true, place := if m.copied then [] else m.place }
  match (s.msgs.look id).bind (·.recv) with
  | some i => if (s.recvs.look i).isSome then s.recvCheck i else { s with msgs := s.msgs.del id }
  | none => s

/-- A message will never be complete: its operation was aborted (`cause` none, log 20), or its context failed. A
matched receive ends; an unexpected message leaves. -/
def State.msgCut (s : State) (id : Nat) (cause : Option Nat) : State :=
  match s.msgs.look id with
  | none => s
  | some m =>
    match m.recv with
    | some i =>
      if (s.recvs.look i).isNone then { s with msgs := s.msgs.del id }
      else
        let s := s.updMsg id fun m => { m with cut := true, place := if m.copied then [] else m.place }
        let s := s.updRecv i fun r => { r with truncated := true, fail := if r.fail.isSome then r.fail else cause }
        s.recvCheck i
    | none =>
      if m.claimed then s.updMsg id fun m => { m with cut := true } else { s with msgs := s.msgs.del id }

/-- A context goes: its messages that are not yet presented whole are cut (R171). -/
def State.msgsCtxGone (s : State) (c cause : Nat) : State :=
  let ids := (s.msgs.cells.filter fun m => decide (m.2.ctx = c) && !m.2.lastIn && !m.2.cut).map (·.1)
  forEach (fun s i => s.msgCut i (some cause)) ids s

/-- Free the receives and messages of a job slot. -/
def State.freeMatchOfJob (s : State) (j : Nat) : State :=
  { s with
    recvs := s.recvs.keep fun _ r => decide (r.space.slot ≠ j),
    msgs := s.msgs.keep fun _ m => decide (m.space.slot ≠ j) }

end Sys2Proof.Machine
end

