-- ==== Sys2Proof/Machine/CollOps.lean ====
section
/-! DEFINITION. Collectives (R240 to R265): contexts and instances, COLL packets and landing credits, the up and down
phases, completion, failure, rejoin. -/

namespace Sys2Proof.Machine

/-- The kinds of COLL packets. -/
def ckJoin : Nat := 1
def ckPart : Nat := 2
def ckEscape : Nat := 3
def ckResult : Nat := 4
def ckDone : Nat := 5
def ckFail : Nat := 6
def ckRejoin : Nat := 7
def ckRerun : Nat := 8
def ckCredit : Nat := 9

/-- Whether a kind uses a landing slot. -/
def ckData (k : Nat) : Bool := decide (2 ≤ k ∧ k ≤ 4)

/-- The states of a collective context: HD_CTX[c].STATE. -/
def hcUnbuilt : Nat := 0
def hcReady : Nat := 1
def hcActive : Nat := 2
def hcFailed : Nat := 3

def cCollContext : Nat := 0x20
def cCollMismatch : Nat := 0x21
def cCollFailed : Nat := 0x22

/-- The kinds of COLLECTIVE. -/
def kBarrier : Nat := 0
def kBroadcast : Nat := 1
def kReduce : Nat := 2
def kAllreduce : Nat := 3
def kScatter : Nat := 4

/-- Change a collective context. -/
def State.updColl (s : State) (c : Nat) (f : CollCtx → CollCtx) : State := { s with colls := s.colls.upd c f }

/-- An instance of a context. -/
def CollCtx.inst (x : CollCtx) (n : Nat) : Option CollInst := x.insts.find? fun v => decide (v.num = n)

/-- Change an instance. -/
def State.updInst (s : State) (c n : Nat) (f : CollInst → CollInst) : State :=
  s.updColl c fun x => { x with insts := x.insts.map fun v => if v.num = n then f v else v }

/-- The command of an instance that this device has started, in progress or completed (R249). -/
def CollCtx.cmdOf (x : CollCtx) (n : Nat) : Option CollCmd :=
  match x.inst n with
  | some v => some v.cmd
  | none => (x.past.find? fun p => decide (p.1 = n)).map (·.2)

/-- The fields of a COLL header that are a command's. -/
def hdrCmd (h : CollHdr) : CollCmd := ⟨false, h.fixed, false, 0, h.opkind, h.operator, h.dtype, h.ctx, 0, h.count, 0, 0⟩

/-- Whether this device is the root. -/
def CollCtx.isRoot (x : CollCtx) : Bool := x.parent.isNone

/-- The tree neighbours. -/
def CollCtx.neighbours (x : CollCtx) : List Nat := x.parent.toList ++ x.children.map (·.node)

/-- The index of a child by its node. -/
def CollCtx.childIx (x : CollCtx) (node : Nat) : Option Nat := x.children.findIdx? fun k => decide (k.node = node)

/-- Elements of the vector (R247). -/
def CollCtx.vecLen (x : CollCtx) (m : CollCmd) : Nat :=
  if m.kind = kBarrier then 0 else if m.kind = kScatter then m.count * x.members else m.count

/-- The half of the retention buffer that an instance uses (R248). -/
def CollCtx.retainAt (x : CollCtx) (n : Nat) : Nat := x.retain + n % 2 * (ceilDiv x.maxBytes 64 * 64)

/-- Whether the member reads SRC, and whether it writes DST (R131, R247). -/
def CollCtx.usesSrc (x : CollCtx) (m : CollCmd) : Bool :=
  decide (m.kind ≠ kBarrier) && (decide (m.kind ≠ kBroadcast) || x.isRoot)
def CollCtx.usesDst (x : CollCtx) (m : CollCmd) : Bool :=
  if m.kind = kBarrier then false
  else if m.kind = kBroadcast then !x.isRoot
  else if m.kind = kReduce then x.isRoot
  else true

/-- The elements of the result that this member writes to DST: from, to. -/
def CollCtx.ownRange (x : CollCtx) (m : CollCmd) : Nat × Nat :=
  if !x.usesDst m then (0, 0)
  else if m.kind = kScatter then (x.pos * m.count, (x.pos + 1) * m.count)
  else (0, m.count)

/-- The elements of the result that reach this device: from, to. -/
def CollCtx.resRange (x : CollCtx) (m : CollCmd) : Nat × Nat :=
  if m.kind = kScatter ∧ !x.isRoot then (x.first * m.count, (x.last + 1) * m.count) else (0, x.vecLen m)

/-- The elements of the result that a child receives. -/
def CollCtx.childRange (x : CollCtx) (m : CollCmd) (k : Child) : Nat × Nat :=
  if m.kind = kScatter then (k.first * m.count, (k.last + 1) * m.count)
  else if m.kind = kBroadcast ∨ m.kind = kAllreduce then (0, x.vecLen m)
  else (0, 0)

/-! ## Huddles -/

/-- The huddles that serve segments: enabled and not isolated (R261, R472). -/
def State.huddlesIn (s : State) : List Nat :=
  let hs := s.huddlesOn.filter fun h => !s.flag .FT_SRC_ISOLATED (68 + h)
  let ds := hs.filter fun h => !s.movedAway 3 4 h
  if ds.isEmpty then hs else ds

/-- The huddle of a segment (R261). -/
def State.huddleOf (s : State) (c inst seg : Nat) : Nat :=
  let hs := s.huddlesIn
  (hs[Config.huddleHash (c * 2 ^ 64 + inst * 2 ^ 32 + seg) hs.length % hs.length]?).getD 0

/-- Count an event at the huddle of a segment. -/
def State.countHuddle (s : State) (c inst seg ev : Nat) (w : Nat := 1) : State :=
  s.count (222 + s.huddleOf c inst seg) ev 0 w

/-! ## Packets and credits (R257 to R259) -/

/-- The header of a COLL packet of an instance. -/
def collHdr (c : Nat) (x : CollCtx) (n : Nat) (m : CollCmd) (kind : Nat) : CollHdr :=
  { kind := kind, fixed := m.fixed, last := false, replay := false, opkind := m.kind, operator := m.operator,
    dtype := m.dtype, cause := 0, ctx := c, inst := n, count := m.count, elem := 0, nelem := 0, nesc := 0, exp := 0,
    credit := 0, build := x.build }

/-- The plaintext bytes of a COLL packet. -/
def collBytes (d : Nat) : CollData → Nat
  | .none => 32
  | .windows ws esc => 32 + ws.length * (if d = 7 then 24 else 12) + esc.length * (if d = 7 then 280 else 48)
  | .escapes esc => 32 + esc.length * (if d = 7 then 280 else 48)
  | .values vs => 32 + vs.length * dtSize d

/-- The transport context of a tree edge, opened on first use (R240). -/
def State.edgeCtx (s : State) (slot node : Nat) : State × Option Nat :=
  s.openFor slot (s.endpoint 0xFFF) (node * 4096 + 0xFFF) true

/-- Send one COLL packet on an edge, with the credits freed there (R259). -/
def State.collTransmit (s : State) (c node t : Nat) (h : CollHdr) (d : CollData) : State :=
  match s.colls.look c, s.ctxs.look t with
  | some x, some tx =>
    let free := (x.freed.look node).getD 0
    let h := { h with credit := free }
    let s := s.updColl c fun x => { x with
      freed := x.freed.put node 0,
      credits := if ckData h.kind then x.credits.put node ((x.credits.look node).getD 0 - 1) else x.credits }
    let s := if h.kind = ckResult then s.countHuddle c h.inst (h.elem / segElems (hdrCmd h)) 3 else s
    s.queuePkt t { s.header tx tyColl with body := .coll h d, length := collBytes h.dtype d, last := h.last }
  | _, _ => s

/-- Send what waits for a neighbour, in order: control kinds at once, data kinds while credits last. A data kind that
waits holds the later data kinds of its edge. -/
def State.collFlushList (s : State) (c : Nat) (stuck : List Nat) : List (Nat × CollHdr × CollData) → State
  | [] => s
  | e :: r =>
    match s.colls.look c with
    | none => s
    | some x =>
      let node := e.1
      let wait := ckData e.2.1.kind && (stuck.contains node || decide ((x.credits.look node).getD 0 = 0))
      if wait then State.collFlushList s c (node :: stuck) r
      else
        match s.edgeCtx x.slot node with
        | (s, none) => State.collFlushList s c (node :: stuck) r
        | (s, some t) =>
          let s := s.updColl c fun x => { x with pending := x.pending.erase e }
          State.collFlushList (s.collTransmit c node t e.2.1 e.2.2) c stuck r

/-- Send what waits in a context. -/
def State.collFlush (s : State) (c : Nat) : State :=
  match s.colls.look c with
  | none => s
  | some x => s.collFlushList c [] x.pending

/-- Queue COLL packets for a neighbour. -/
def State.collPush (s : State) (c : Nat) (ps : List (Nat × CollHdr × CollData)) : State :=
  s.updColl c fun x => { x with pending := x.pending ++ ps }

/-- Send a control kind to a neighbour. -/
def State.collTell (s : State) (c node : Nat) (h : CollHdr) : State := (s.collPush c [(node, h, .none)]).collFlush c

/-! ## Landing slots (R259) -/

/-- The address of a landing slot. -/
def State.slotAddr (s : State) (i : Nat) : Nat := s.rd .HD_LANDPOOL_BASE * 65536 + 4224 * i

/-- A data packet from a neighbour takes one of the slots reserved for it; where none is free nothing lands. -/
def State.collLand (s : State) (c node psn : Nat) (h : CollHdr) (d : CollData) : State :=
  match s.colls.look c with
  | none => s
  | some x =>
    match (x.room.look node).getD [], x.landing.look (node, psn) with
    | i :: r, none =>
      let bs := CollHdr.bytes h ++ CollData.bytes h.dtype d
      ((s.askSegs true [(.pkg (s.slotAddr i), bs.length)]).putBytes (s.slotAddr i) bs).updColl c fun x => { x with
        room := x.room.put node r, landing := x.landing.put (node, psn) i }
    | _, _ => s

/-- The bytes that the data of a PART, ESCAPE or RESULT take, by its header (R257, R258). -/
def CollHdr.dataLen (h : CollHdr) : Nat :=
  let esc := h.nesc * (8 + accSize h.dtype)
  if h.kind = ckEscape then esc
  else if h.kind = ckPart ∧ CollHdr.exact h then h.nelem * winSize h.dtype + esc
  else h.nelem * dtSize h.dtype

/-- The data of a packet that landed, read from its slot: none where its slot cannot be read. -/
def State.collLanded (s : State) (c node psn : Nat) (h : CollHdr) : Option CollData :=
  match (s.colls.look c).bind fun x => x.landing.look (node, psn) with
  | none => none
  | some i =>
    let a := s.slotAddr i
    if s.poisoned a (32 + CollHdr.dataLen h) then none
    else decodeCollData h (s.readLoc (.pkg (a + 32)) (CollHdr.dataLen h))

/-- Free the landing slot of a packet: the slot is reported to the neighbour. -/
def State.freeSlotOf (s : State) (c node psn : Nat) : State :=
  s.updColl c fun x =>
    match x.landing.look (node, psn) with
    | none => x
    | some i => { x with
        landing := x.landing.del (node, psn), room := x.room.put node ((x.room.look node).getD [] ++ [i]),
        freed := x.freed.put node ((x.freed.look node).getD 0 + 1) }

/-- Whether a context takes packets of a job slot from a neighbour under a BUILD (R244). -/
def CollCtx.takes (x : CollCtx) (slot node : Nat) (h : CollHdr) : Bool :=
  decide (x.slot = slot ∧ h.build = x.build) && x.neighbours.contains node

/-- A COLL packet that is admitted: a data kind lands, and its data stands in the slot alone. -/
def State.collStore (s : State) (slot node psn : Nat) (h : CollHdr) (d : CollData) : State × CollData :=
  match s.colls.look h.ctx with
  | none => (s, d)
  | some x =>
    if ckData h.kind && x.takes slot node h && !((x.room.look node).getD []).isEmpty then (s.collLand h.ctx node psn h d, .none) else (s, d)

/-! ## Failure (R263) -/

/-- The timer of REJOIN_REPEAT runs to the first repetition of an instance that still waits for its answer (R264). -/
def State.armRejoin (s : State) (c : Nat) : State :=
  match s.colls.look c with
  | none => s
  | some x =>
    match (x.insts.map (·.rejoinAt)).filter fun t => decide (t ≠ 0) with
    | [] => s.disarm (.rejoin c)
    | t :: r => s.arm (.rejoin c) (r.foldl min t)

/-- An answer to the REJOIN of an instance has come. -/
def State.rejoinOver (s : State) (c n : Nat) : State := (s.updInst c n fun v => { v with rejoinAt := 0 }).armRejoin c

/-- The lowest of instance numbers, in their wrapping order. -/
def lowestInst (l : List Nat) (d : Nat) : Nat :=
  match l with
  | [] => d
  | n :: r => r.foldl (fun a b => if idxBefore b a then b else a) n

/-- Raise or receive FAIL for instance `k` of a context; one that the context has taken for `k` or an instance before it changes nothing
more. -/
def State.collFail (s : State) (c k cause : Nat) (src : Option Nat) : State :=
  match s.colls.look c with
  | none => s
  | some x =>
    if x.failedAt.any fun f => idxLe f k then s
    else
      let m := (x.cmdOf k).getD ⟨false, false, false, 0, 0, 0, 0, 0, 0, 0, 0, 0⟩
      let h := { collHdr c x k m ckFail with cause := cause }
      let s := s.wr .HD_CTX_STATE c hcFailed
      let out := (x.neighbours.filter fun n => decide (some n ≠ src)).map fun n => (n, h, CollData.none)
      let lost := x.insts.filter fun v => !v.done && idxLe k v.num
      let gone := x.early.filter fun e => idxLe k e.2.2.inst
      let s := forEach (fun s (e : Nat × Nat × CollHdr) => s.freeSlotOf c e.1 e.2.1) gone s
      let s := s.updColl c fun x => { x with
        insts := x.insts.filter fun v => !(!v.done && idxLe k v.num),
        pending := (x.pending.filter fun p => !idxLe k p.2.1.inst) ++ out,
        early := x.early.filter fun e => !idxLe k e.2.2.inst, failedAt := some k }
      let s := s.collFlush c
      let s := (s.disarmAll fun t => match t with
        | .coll d n => decide (d = c) && idxLe k n
        | _ => false).armRejoin c
      let low := lowestInst (lost.map (·.num)) 0
      let s := if lost.isEmpty then s else (s.wr .HD_CTX_INST c low).wr .HD_CTX_REJOIN_DUE c 1
      forEach (fun s v => s.failExec v.q v.i v.iter cause) lost s

/-- A device's own access to SRC or DST failed (R263): its command fails with the cause, its context with COLL_FAILED. -/
def State.collMemFail (s : State) (c n cause : Nat) : State :=
  match (s.colls.look c).bind (·.inst n) with
  | none => s
  | some v => (if v.done then s else s.failExec v.q v.i v.iter cause).collFail c n cCollFailed none

/-- The transport context of a tree edge failed (R263): every context of its job with that edge fails. -/
def State.collCtxFailed (s : State) (t : Nat) : State :=
  match s.ctxs.look t with
  | none => s
  | some tx =>
    forEach (fun s c =>
      match s.colls.look c with
      | some x =>
        if x.slot = tx.slot ∧ x.neighbours.contains (tx.rem / 4096) then
          let k := lowestInst ((x.insts.filter fun v => !v.done).map (·.num)) (s.rd .HD_CTX_INST c)
          s.collFail c k cCollFailed none
        else s
      | none => s) s.colls.keys s

/-! ## Completion (R247, R250) -/

/-- Whether every child of a broadcast's member has been sent the whole result. -/
def CollCtx.allFed (x : CollCtx) (v : CollInst) : Bool :=
  x.children.all fun k => decide ((v.fed.look k.node).getD 0 = x.vecLen v.cmd)

/-- An instance is complete at this device: the command completes, the context is READY once nothing is in progress. A member of a
broadcast goes on forwarding from DST to the children that have not joined yet. -/
def State.collEnd (s : State) (c n : Nat) : State :=
  match s.colls.look c with
  | none => s
  | some x =>
    match x.inst n with
    | none => s
    | some v =>
      let s := s.disarm (.coll c n)
      let s := if v.rejoin then s.wr .HD_CTX_REJOIN_DUE c 0 else s
      let s := s.wr .HD_CTX_REBUILT c 0
      let more := decide (v.cmd.kind = kBroadcast) && !x.isRoot && !v.replay && !x.allFed v
      let s := (s.updColl c fun x => { x with
        past := ((n, v.cmd) :: x.past.filter fun p => decide (p.1 ≠ n)).take 4,
        insts := if more then x.insts.map (fun w => if w.num = n then { w with done := true, rejoinAt := 0 } else w)
          else x.insts.filter fun w => decide (w.num ≠ n) }).armRejoin c
      let left := match s.colls.look c with | some x => x.insts.any fun w => !w.done | none => false
      let s := if !left && decide (s.rd .HD_CTX_STATE c = hcActive) then s.wr .HD_CTX_STATE c hcReady else s
      s.completeExec v.q v.i v.iter

/-- Whether a RESULT packet of an instance toward a child is not yet acknowledged (R247). -/
def State.collUnacked (s : State) (c n : Nat) (x : CollCtx) : Bool :=
  let isRes (p : Packet) : Bool :=
    match p.body with
    | .coll h _ => decide (h.ctx = c ∧ h.inst = n ∧ h.kind = ckResult)
    | _ => false
  x.pending.any (fun p => decide (p.2.1.inst = n ∧ p.2.1.kind = ckResult))
    || s.ctxs.cells.any fun t => t.2.coll && decide (t.2.slot = x.slot) &&
      (let t2 := t.2.tx 2
       t2.una.any (fun u => isRes u.pkt) || t2.waiting.any isRes || t2.resend.any isRes)

/-- Whether an instance has done everything that completes it here (the phase table of R247). -/
def State.collDone (s : State) (c : Nat) (x : CollCtx) (v : CollInst) : Bool :=
  let own := x.ownRange v.cmd
  let wrote := decide (v.busy = 0 ∧ v.wrote = own.2 - own.1)
  if v.cmd.kind = kBarrier then v.down
  else if v.cmd.kind = kBroadcast then
    if x.isRoot then
      v.replay || (decide (v.res.length = v.cmd.count)
        && x.children.all (fun k => decide ((v.fed.look k.node).getD 0 = v.cmd.count)) && !s.collUnacked c v.num x)
    else wrote
  else if v.cmd.kind = kReduce then (if x.isRoot then wrote && v.down else v.down)
  else wrote

/-- Complete an instance that is done: after the flushing read where it wrote host memory (R437, R250). -/
def State.collCheck (s : State) (c n : Nat) : State :=
  match s.colls.look c with
  | none => s
  | some x =>
    match x.inst n with
    | none => s
    | some v =>
      if v.done || v.flushing || !s.collDone c x v then s
      else if v.host then
        (s.updInst c n fun v => { v with flushing := true, host := false }).startFlush (.collFlush c n) (s.qFunc v.q)
      else s.collEnd c n

/-! ## The down phase -/

/-- Write elements of the result to DST, those of this member's range (R247). -/
def State.collDst (s : State) (c n elem : Nat) (vals : List Nat) : State :=
  match s.colls.look c with
  | none => s
  | some x =>
    match x.inst n with
    | none => s
    | some v =>
      let r := x.ownRange v.cmd
      let lo := max elem r.1
      let hi := min (elem + vals.length) r.2
      if hi ≤ lo then s
      else
        let bs := bytesOf v.cmd.dtype ((vals.drop (lo - elem)).take (hi - lo))
        let a := v.cmd.dst + (lo - r.1) * dtSize v.cmd.dtype
        match s.translateRange (s.rd .QU_CFG_ASID v.q) a bs.length (s.qFunc v.q) false true with
        | (s, .inl k) => s.collMemFail c n k
        | (s, .inr segs) =>
          if s.segAccess segs ≠ .ok then s.collMemFail c n cLocalMemory
          else
            let s := s.updInst c n fun v => { v with busy := v.busy + 1, host := v.host || !(segFuncs segs).isEmpty }
            s.startXfer (.collDst c n lo) true segs bs v.cmd.rlx

/-- The RESULT packets from element `at'` on that a child can be sent now; `fuel` bounds them. -/
def feedChunks (m : CollCmd) (h : CollHdr) (base : Nat) (res : List Nat) (hi node : Nat) :
    Nat → Nat → List (Nat × CollHdr × CollData) × Nat
  | 0, at' => ([], at')
  | fuel + 1, at' =>
    let stop := min ((at' / segElems m + 1) * segElems m) hi
    if at' < stop ∧ stop ≤ base + res.length then
      let vs := (res.drop (at' - base)).take (stop - at')
      let p := (node, { h with elem := at', nelem := stop - at', last := decide (stop = hi) }, CollData.values vs)
      match feedChunks m h base res hi node fuel stop with
      | (ps, e) => (p :: ps, e)
    else ([], at')

/-- Whether a child may be sent result elements that this device holds (R247): a member of a broadcast forwards from DST, a replayed
result goes on packet by packet (R264). -/
def CollCtx.feeds (x : CollCtx) (v : CollInst) (ix : Nat) : Bool :=
  if v.replay then false
  else if v.cmd.kind = kBroadcast then x.isRoot && v.joined.contains ix
  else decide (v.cmd.kind = kAllreduce ∨ v.cmd.kind = kScatter)

/-- Send the children the result elements that are known (R247). -/
def State.collFeed (s : State) (c n : Nat) : State :=
  let s := match s.colls.look c with
    | none => s
    | some x =>
      forEach (fun s (k : Nat × Child) =>
        match (s.colls.look c).bind (·.inst n) with
        | none => s
        | some v =>
          if !x.feeds v k.1 then s
          else
            let r := x.childRange v.cmd k.2
            let base := (x.resRange v.cmd).1
            let h := collHdr c x n v.cmd ckResult
            let at' := (v.fed.look k.2.node).getD r.1
            match feedChunks v.cmd h base v.res r.2 k.2.node (v.res.length + 1) at' with
            | (ps, e) => (s.updInst c n fun v => { v with fed := v.fed.put k.2.node e }).collPush c ps)
        (numbered 0 x.children) s
  s.collFlush c

/-- Where the elements written from element `at'` on end, without a gap; `fuel` bounds the spans. -/
def spanEnd (l : List (Nat × Nat)) : Nat → Nat → Nat
  | 0, at' => at'
  | fuel + 1, at' => match l.find? fun e => decide (e.1 = at' ∧ e.2 ≠ 0) with
    | some e => spanEnd l fuel (at' + e.2)
    | none => at'

/-- The elements of DST that a member of a broadcast may read for a child now: from, to (R247). A child that has joined is served one
read at a time, while it has a credit. -/
def CollCtx.nextRead (x : CollCtx) (v : CollInst) (ix node : Nat) : Option (Nat × Nat) :=
  let at' := (v.fed.look node).getD 0
  let stop := min ((at' / segElems v.cmd + 1) * segElems v.cmd) v.cmd.count
  let busy := v.reading.contains node || x.pending.any (fun p => decide (p.1 = node) && ckData p.2.1.kind)
    || decide ((x.credits.look node).getD 0 = 0)
  if v.joined.contains ix && !busy && decide (at' < stop ∧ stop ≤ spanEnd v.spans v.spans.length 0) then some (at', stop) else none

/-- Start the read of DST for one child. -/
def State.collForwardTo (s : State) (c n ix node : Nat) : State :=
  match s.colls.look c with
  | none => s
  | some x =>
    match x.inst n with
    | none => s
    | some v =>
      match x.nextRead v ix node with
      | none => s
      | some (lo, hi) =>
        let size := dtSize v.cmd.dtype
        match s.translateRange (s.rd .QU_CFG_ASID v.q) (v.cmd.dst + lo * size) ((hi - lo) * size) (s.qFunc v.q) false true with
        | (s, .inl k) => s.collMemFail c n k
        | (s, .inr segs) =>
          if s.segAccess segs ≠ .ok then s.collMemFail c n cLocalMemory
          else (s.updInst c n fun v => { v with reading := node :: v.reading }).startXfer (.collFwd c n node lo) false segs []

/-- A member of a broadcast forwards from its own DST to the children that have joined (R247). -/
def State.collForward (s : State) (c n : Nat) : State :=
  match s.colls.look c with
  | none => s
  | some x =>
    match x.inst n with
    | none => s
    | some v =>
      if v.cmd.kind ≠ kBroadcast ∨ x.isRoot ∨ v.replay then s
      else forEach (fun s (k : Nat × Child) => s.collForwardTo c n k.1 k.2.node) (numbered 0 x.children) s

/-- Elements of DST have been read for a child: they go to it as one RESULT. -/
def State.collFwdOver (s : State) (c n node elem : Nat) (bytes : List Byte) : State :=
  match s.colls.look c with
  | none => s
  | some x =>
    match x.inst n with
    | none => s
    | some v =>
      let vals := valuesOf v.cmd.dtype bytes
      let stop := elem + vals.length
      let h := { collHdr c x n v.cmd ckResult with elem := elem, nelem := vals.length, last := decide (stop = v.cmd.count) }
      let s := s.updInst c n fun v => { v with reading := v.reading.filter (fun k => decide (k ≠ node)), fed := v.fed.put node stop }
      let s := ((s.collPush c [(node, h, .values vals)]).collFlush c).collForward c n
      s.updColl c fun x => { x with insts := x.insts.filter fun v => !(decide (v.num = n) && v.done && x.allFed v) }

/-- Result elements from element `elem` on are known: at the root they go to RETAIN first, then to DST and down the tree (R248, R254). A
member of a broadcast keeps no copy beside DST. -/
def State.collResult (s : State) (c n elem : Nat) (vals : List Nat) : State :=
  match s.colls.look c with
  | none => s
  | some x =>
    match x.inst n with
    | none => s
    | some v =>
      let s := if x.isRoot && !v.replay then
        let bs := bytesOf v.cmd.dtype vals
        (s.askSegs true [(.pkg (x.retainAt n + elem * dtSize v.cmd.dtype), bs.length)]).putBytes (x.retainAt n + elem * dtSize v.cmd.dtype) bs
      else s
      let s := if v.cmd.kind = kBroadcast ∧ !x.isRoot then s else s.updInst c n fun v => { v with res := v.res ++ vals }
      let s := if x.isRoot && decide (elem + vals.length = x.vecLen v.cmd) && !v.replay
        then s.updColl c fun x => { x with held := n :: x.held.filter fun k => decide (k ≠ n) } else s
      ((s.collDst c n elem vals).collFeed c n).collCheck c n

/-- The root has result elements: while the half of RETAIN still holds the result of the instance two before they wait (R248). -/
def State.collGive (s : State) (c n : Nat) (vals : List Nat) : State :=
  match s.colls.look c with
  | none => s
  | some x =>
    match x.inst n with
    | none => s
    | some v =>
      if x.held.any fun k => decide ((k + 2) % 2 ^ 32 = n) then s.updInst c n fun v => { v with hold := v.hold ++ vals }
      else (s.updInst c n fun v => { v with hold := [] }).collResult c n v.res.length (v.hold ++ vals)

/-- Send DONE to the children (barrier, reduce). -/
def State.collSendDone (s : State) (c n : Nat) : State :=
  match s.colls.look c with
  | none => s
  | some x =>
    match x.inst n with
    | none => s
    | some v =>
      let s := s.updInst c n fun v => { v with down := true }
      ((s.collPush c (x.children.map fun k => (k.node, collHdr c x n v.cmd ckDone, .none))).collFlush c).collCheck c n

/-! ## The up phase -/

/-- The up phase of an instance is complete at the root: the result of the instance two before may go (R248). -/
def State.collUpDone (s : State) (c n : Nat) : State :=
  s.updColl c fun x => { x with held := x.held.filter fun k => decide ((k + 2) % 2 ^ 32 ≠ n) }

/-- The packets of one combined segment toward the parent (R257, R258). -/
def segPackets (m : CollCmd) (h : CollHdr) (node start : Nat) (lastSeg : Bool) (ps : List Partial) :
    List (Nat × CollHdr × CollData) × Nat :=
  if collExact m then
    let e := segExp m.dtype ps
    let pieces := numbered 0 (chunksOf ps.length (winElems m) ps)
    let out := pieces.flatMap fun q =>
      let h := { h with elem := start + q.1 * winElems m, nelem := q.2.length, exp := e }
      match encodePart m.dtype e q.2 with
      | (d, more) =>
        let n0 := match d with | .windows _ esc => esc.length | _ => 0
        (node, { h with kind := ckPart, nesc := n0 }, d)
          :: more.map fun x => (node, { h with kind := ckEscape, nesc := (match x with | .escapes l => l.length | _ => 0) }, x)
    let n := out.length
    ((numbered 1 out).map fun o => if lastSeg && decide (o.1 = n) then (o.2.1, { o.2.2.1 with last := true }, o.2.2.2) else o.2,
      (ps.filter fun p => !windowed e p).length)
  else
    ([(node, { h with kind := ckPart, elem := start, nelem := ps.length, last := lastSeg }, .values (ps.map (·.s.toNat)))], 0)

/-- Combine one segment whose contributions are all in, in descriptor order (R253, R256). -/
def combineSeg (v : CollInst) (nsrc start stop : Nat) : List Partial :=
  (List.range (stop - start)).map fun k =>
    let e := start + k
    let own := (v.parts.look (0, e)).getD (partInt 0)
    (List.range nsrc).foldl (fun a j => collCombine v.cmd a ((v.parts.look (j + 1, e)).getD (partInt 0))) own

/-- Combine and send up, or at the root round, every segment that is complete (R254, R257); `fuel` bounds the segments. -/
def State.collAdvanceN (s : State) (c n : Nat) : Nat → State
  | 0 => s
  | fuel + 1 =>
    match s.colls.look c with
    | none => s
    | some x =>
      match x.inst n with
      | none => s
      | some v =>
        let total := x.vecLen v.cmd
        let start := v.sentUp
        let stop := min (start + segElems v.cmd) total
        let ready := (List.range (x.children.length + 1)).all fun k => decide (stop ≤ (v.got.look k).getD 0)
        if start < stop && ready && v.cmd.kind != kBroadcast && !s.huddlesIn.isEmpty then
          let ps := combineSeg v x.children.length start stop
          let s := s.updInst c n fun v => { v with sentUp := stop, parts := v.parts.keep fun k _ => decide (stop ≤ k.2) }
          let s := match x.parent with
            | some node =>
              match segPackets v.cmd (collHdr c x n v.cmd ckPart) node start (decide (stop = total)) ps with
              | (out, esc) =>
                let s := if esc = 0 then s else s.countHuddle c n (start / segElems v.cmd) 4 esc
                (s.collPush c out).collFlush c
            | none =>
              let s := if stop = total then s.collUpDone c n else s
              let s := s.collGive c n (ps.map (collFinal v.cmd))
              if stop = total ∧ v.cmd.kind = kReduce then s.collSendDone c n else s
          State.collAdvanceN s c n fuel
        else s

/-- Advance the up phase of an instance: JOIN where every child has joined, segments that are complete, DONE at the
root of a barrier (R247). -/
def State.collAdvance (s : State) (c n : Nat) : State :=
  match s.colls.look c with
  | none => s
  | some x =>
    match x.inst n with
    | none => s
    | some v =>
      if !v.contributing then s
      else if v.cmd.kind = kBarrier then
        if v.joined.length < x.children.length || v.joinSent then s
        else
          let s := s.updInst c n fun v => { v with joinSent := true }
          match x.parent with
          | some p => s.collTell c p (collHdr c x n v.cmd ckJoin)
          | none =>
            let s := (s.collUpDone c n).updColl c fun x => { x with held := n :: x.held.filter fun k => decide (k ≠ n) }
            s.collSendDone c n
      else if v.cmd.kind = kBroadcast then
        match x.parent with
        | some p =>
          if v.joinSent then s
          else (s.updInst c n fun v => { v with joinSent := true }).collTell c p (collHdr c x n v.cmd ckJoin)
        | none => if v.joined.length = x.children.length then (s.collUpDone c n).collGive c n [] else s
      else s.collAdvanceN c n (x.vecLen v.cmd / segElems v.cmd + 2)

/-- Start reading SRC (R247). -/
def State.collReadSrc (s : State) (c n : Nat) (m : CollCmd) (q bytes : Nat) : State :=
  match s.translateRange (s.rd .QU_CFG_ASID q) m.src bytes (s.qFunc q) true false with
  | (s, .inl k) => s.collMemFail c n k
  | (s, .inr segs) =>
    if s.segAccess segs ≠ .ok then s.collMemFail c n cLocalMemory else s.startXfer (.collSrc c n) false segs []

/-- This device begins to contribute to an instance (R247, R262): TIMEOUT starts. -/
def State.collBegin (s : State) (c n : Nat) : State :=
  match s.colls.look c with
  | none => s
  | some x =>
    match x.inst n with
    | none => s
    | some v =>
      let s := s.updInst c n fun v => { v with contributing := true }
      let s := if x.timeout = 0 || s.armed (.coll c n) then s else s.armIn (.coll c n) (us x.timeout)
      let s := if x.usesSrc v.cmd then s.collReadSrc c n v.cmd v.q (x.vecLen v.cmd * dtSize v.cmd.dtype) else s
      s.collAdvance c n

/-- The device's own contribution enters the huddles, each segment its own (R261). -/
def State.countInput (s : State) (c n : Nat) (m : CollCmd) (len : Nat) : State :=
  forEach (fun s k => s.countHuddle c n k 8 (min (segElems m) (len - k * segElems m) * dtSize m.dtype))
    (List.range (ceilDiv len (segElems m))) s

/-- The SRC bytes of an instance are read: its own contribution, or at the root of a broadcast the result (R248). -/
def State.collSrcIn (s : State) (c n : Nat) (bytes : List Byte) : State :=
  match s.colls.look c with
  | none => s
  | some x =>
    match x.inst n with
    | none => s
    | some v =>
      let vals := valuesOf v.cmd.dtype bytes
      if v.cmd.kind = kBroadcast then s.collGive c n vals
      else
        let s := s.countInput c n v.cmd vals.length
        let cells := (numbered 0 vals).map fun e => ((0, e.1), collPart v.cmd e.2)
        let s := s.updInst c n fun v => { v with
          parts := ⟨v.parts.cells ++ cells⟩, got := v.got.put 0 vals.length }
        s.collAdvance c n

/-! ## Packets taken (R244, R249) -/

/-- Whether a packet's fields equal the command's (R249). -/
def collSame (m : CollCmd) (h : CollHdr) : Bool :=
  decide (h.opkind = m.kind ∧ h.operator = m.operator ∧ h.dtype = m.dtype ∧ h.count = m.count) && (h.fixed == m.fixed)

/-- Whether a PART or ESCAPE completes the elements of its PART: none of its escapes can follow (R258). -/
def partWhole (m : CollCmd) (h : CollHdr) : Bool :=
  h.last || !collExact m || decide (h.nesc < if h.kind = ckPart then escFirst h.dtype else escMore h.dtype)

/-- Put the partials of a PART or ESCAPE of child `ix` into an instance; the elements before it are complete, and its
own once no ESCAPE of it can follow (R258). -/
def CollInst.takePart (v : CollInst) (ix : Nat) (h : CollHdr) (d : CollData) : CollInst :=
  let cells := (decodePart h.exp d).map fun e => ((ix + 1, h.elem + e.1), e.2)
  let parts := cells.foldl (fun t e => t.put e.1 e.2) v.parts
  let upto := if partWhole v.cmd h then h.elem + h.nelem else h.elem
  { v with parts := parts, got := v.got.put (ix + 1) (max upto ((v.got.look (ix + 1)).getD 0)) }

/-- A RESULT of an instance in progress: its elements (R247); a replayed one ends the repetition of REJOIN (R264). -/
def State.collResultIn (s : State) (c : Nat) (v : CollInst) (h : CollHdr) (vals : List Nat) : State :=
  let s := if h.replay then (s.updInst c v.num fun v => { v with replay := true }).rejoinOver c v.num else s
  s.collResult c v.num h.elem vals

/-- A DONE of an instance in progress (R247); a device that rejoins has sent it on already (R264). -/
def State.collDoneIn (s : State) (c : Nat) (v : CollInst) : State :=
  if v.contributing then s.collSendDone c v.num
  else ((s.updInst c v.num fun v => { v with down := true }).rejoinOver c v.num).collCheck c v.num

/-- A JOIN, PART, ESCAPE, RESULT or DONE of an instance that has started here. -/
def State.collPacket (s : State) (c node psn : Nat) (x : CollCtx) (v : CollInst) (h : CollHdr) : State :=
  let n := v.num
  let d := s.collLanded c node psn h
  let s := s.freeSlotOf c node psn
  if !collSame v.cmd h then s.collFail c n cCollMismatch none
  else if ckData h.kind && d.isNone then (s.raise 230).collFail c n cCollFailed none
  else if h.kind = ckJoin then
    match x.childIx node with
    | some ix =>
      let s := s.updInst c n fun v => { v with joined := v.joined.filter (fun k => decide (k ≠ ix)) ++ [ix] }
      ((s.collAdvance c n).collFeed c n).collForward c n
    | none => s
  else if h.kind = ckPart ∨ h.kind = ckEscape then
    match x.childIx node, d with
    | some ix, some d =>
      let seg := h.elem / segElems v.cmd
      let s := s.countHuddle c n seg (if h.kind = ckPart then 1 else 2)
      let s := if h.kind = ckPart then s.countHuddle c n seg 8 (h.nelem * dtSize v.cmd.dtype) else s
      (s.updInst c n fun v => v.takePart ix h d).collAdvance c n
    | _, _ => s
  else if h.kind = ckResult then
    match d with
    | some (.values vs) => s.collResultIn c v h vs
    | _ => s
  else if h.kind = ckDone then s.collDoneIn c v
  else s

/-- The RESULT packets of a held result toward one child, from RETAIN (R264 step 3). -/
def State.collReplay (s : State) (c n node : Nat) (x : CollCtx) (m : CollCmd) : State :=
  let s := s.countHuddle c n 0 5
  let len := x.vecLen m * dtSize m.dtype
  if m.kind = kBarrier ∨ m.kind = kReduce then s.collTell c node (collHdr c x n m ckDone)
  else if s.poisoned (x.retainAt n) len then (s.raise 230).collFail c n cCollFailed none
  else
    let vals := valuesOf m.dtype (s.readLoc (.pkg (x.retainAt n)) len)
    match x.children.find? fun k => decide (k.node = node) with
    | none => s
    | some k =>
      let r := x.childRange m k
      match feedChunks m { collHdr c x n m ckResult with replay := true } 0 vals r.2 node (vals.length + 1) r.1 with
      | (ps, _) => (s.collPush c ps).collFlush c

/-- A REJOIN from a child (R264 steps 2 to 4): compared with the device's own command where it has started the instance (R249), and
recorded; the root answers each child once for an instance, another device forwards it the first time it receives or sends one. -/
def State.collRejoin (s : State) (c node : Nat) (x : CollCtx) (h : CollHdr) : State :=
  let n := h.inst
  let m := (x.cmdOf n).getD (hdrCmd h)
  if !collSame m h then s.collFail c n cCollMismatch none
  else
    let new := !x.rejoins.contains (n, node)
    let s := if new then s.updColl c fun x => { x with rejoins := x.rejoins ++ [(n, node)] } else s
    match x.parent with
    | none =>
      if !new then s
      else if x.held.contains n then s.collReplay c n node x m
      else (s.countHuddle c n 0 6).collTell c node (collHdr c x n m ckRerun)
    | some p =>
      if x.asked.contains n then s
      else (s.updColl c fun x => { x with asked := n :: x.asked }).collTell c p (collHdr c x n m ckRejoin)

/-- The children whose REJOIN for an instance was recorded. -/
def CollCtx.rejoined (x : CollCtx) (n : Nat) : List Nat := (x.rejoins.filter fun r => decide (r.1 = n)).map (·.2)

/-- A replayed RESULT toward one recorded child: the elements of its range. -/
def CollCtx.relayResult (x : CollCtx) (h : CollHdr) (vs : List Nat) (node : Nat) : Option (Nat × CollHdr × CollData) :=
  match x.children.find? fun y => decide (y.node = node) with
  | none => none
  | some y =>
    let r := x.childRange (hdrCmd h) y
    let lo := max h.elem r.1
    let hi := min (h.elem + vs.length) r.2
    if hi ≤ lo then none
    else some (node, { h with elem := lo, nelem := hi - lo, last := decide (hi = r.2), credit := 0 },
      .values ((vs.drop (lo - h.elem)).take (hi - lo)))

/-- A replayed RESULT, a DONE that answers a REJOIN, and a RERUN go on to the recorded children when they arrive (R264 steps 3 and 4). -/
def State.collRelay (s : State) (c node psn : Nat) (x : CollCtx) (h : CollHdr) : State :=
  let to' := x.rejoined h.inst
  let own := (x.inst h.inst).any (·.contributing)
  let out : List (Nat × CollHdr × CollData) :=
    if h.kind = ckResult ∧ h.replay then
      match s.collLanded c node psn h with
      | some (.values vs) => to'.filterMap (x.relayResult h vs)
      | _ => []
    else if h.kind = ckRerun ∨ (h.kind = ckDone ∧ !own) then to'.map fun k => (k, { h with credit := 0 }, .none)
    else []
  if out.isEmpty then s else (s.collPush c out).collFlush c

/-- A RERUN that comes before this device can begin is remembered. -/
def State.noteRerun (s : State) (c n : Nat) : State :=
  s.updColl c fun x => { x with reruns := n :: x.reruns.filter fun k => decide (k ≠ n) }

/-- A RERUN from the parent (R264 step 4): a device that rejoins contributes, once it has begun. -/
def State.collRerun (s : State) (c : Nat) (x : CollCtx) (h : CollHdr) : State :=
  let n := h.inst
  if !collSame ((x.cmdOf n).getD (hdrCmd h)) h then s.collFail c n cCollMismatch none
  else
    match x.inst n with
    | some v => if v.rejoin && !v.contributing && !v.armed then (s.rejoinOver c n).collBegin c n else s.noteRerun c n
    | none => s.noteRerun c n

/-- A packet of an instance that has completed here is compared with its command (R249) and discarded. -/
def State.collLate (s : State) (c node psn : Nat) (x : CollCtx) (h : CollHdr) : State :=
  let s := s.freeSlotOf c node psn
  if (x.cmdOf h.inst).any fun m => !collSame m h then s.collFail c h.inst cCollMismatch none else s.countHuddle c h.inst 0 7

/-- A packet of an instance goes to it, waits for it to start here, or comes late. -/
def State.collDispatch (s : State) (c node psn : Nat) (h : CollHdr) : State :=
  match s.colls.look c with
  | none => s
  | some x =>
    if h.kind = ckRejoin then s.collRejoin c node x h
    else if h.kind = ckRerun then s.collRerun c x h
    else
      match x.inst h.inst with
      | some v => s.collPacket c node psn x v h
      | none =>
        if idxLe (s.rd .HD_CTX_INST c) h.inst && (x.cmdOf h.inst).isNone then
          s.updColl c fun x => { x with early := x.early ++ [(node, psn, h)] }
        else s.collLate c node psn x h

/-- What credits toward a neighbour let go: the packets that waited for them, and the reads of DST for broadcasts. -/
def State.collGo (s : State) (c : Nat) : State :=
  let s := s.collFlush c
  match s.colls.look c with
  | none => s
  | some x => forEach (fun s v => s.collForward c v.num) x.insts s

/-- A packet of an instance of a context that takes it. A FAILED context takes those of the instances that are still in progress. -/
def State.collOwn (s : State) (c node psn : Nat) (h : CollHdr) (d : CollData) : State :=
  let s := if ckData h.kind && d != .none then s.collLand c node psn h d else s
  match s.colls.look c with
  | none => s
  | some x =>
    let lost := ckData h.kind && (x.landing.look (node, psn)).isNone
    if lost || (decide (s.rd .HD_CTX_STATE c = hcFailed) && (x.inst h.inst).isNone) then (s.freeSlotOf c node psn).countHuddle c h.inst 0 7
    else (s.collRelay c node psn x h).collDispatch c node psn h

/-- Take a COLL packet of a context from a neighbour (R244); `d` is its data where it has not landed. -/
def State.collTake (s : State) (slot node psn : Nat) (h : CollHdr) (d : CollData) : State :=
  let c := h.ctx
  match s.colls.look c with
  | none => s.countHuddle c h.inst 0 7
  | some x =>
    if !x.takes slot node h then s.countHuddle c h.inst 0 7
    else
      let s := (s.updColl c fun x => { x with credits := x.credits.put node ((x.credits.look node).getD 0 + h.credit) }).collGo c
      if h.kind = ckFail then s.collFail c h.inst h.cause (some node)
      else if h.kind = ckCredit then s
      else s.collOwn c node psn h d

/-! ## A COLLECTIVE starts (R241, R246, R247, R262, R264) -/

/-- The outcome of a start. -/
inductive StartRes where
  /-- Held, and why (R22, R79, R246). -/
  | held (w : HoldWhy)
  /-- The entry fails with a cause. -/
  | fail (cause : Nat)
  /-- The execution runs. -/
  | run
  /-- The execution completed at once. -/
  | done
  deriving DecidableEq, Repr

/-- The root rejoins an instance whose result it holds: RETAIN to DST, nothing sent (R264). -/
def State.collRootRejoin (s : State) (c n : Nat) (x : CollCtx) (m : CollCmd) : State :=
  let s := s.updInst c n fun v => { v with replay := true, down := true }
  let len := x.vecLen m * dtSize m.dtype
  if m.kind = kBarrier then s.collCheck c n
  else if s.poisoned (x.retainAt n) len then (s.raise 230).collFail c n cCollFailed none
  else (s.collDst c n 0 (valuesOf m.dtype (s.readLoc (.pkg (x.retainAt n)) len))).collCheck c n

/-- Translate a buffer that a COLLECTIVE uses: none, or the cause of a fault. -/
def State.collBuf (s : State) (q addr bytes : Nat) (use wr : Bool) : State × Option Nat :=
  if !use then (s, none)
  else
    match s.translateRange (s.rd .QU_CFG_ASID q) addr bytes (s.qFunc q) (!wr) wr with
    | (s, .inl k) => (s, some k)
    | (s, .inr _) => (s, none)

/-- A COLLECTIVE that rejoins (R264): REJOIN to the parent, repeated every 100 microseconds, unless a RERUN for the instance is here
already; at the root the held result, or a contribution. TIMEOUT runs from here. -/
def State.collReenter (s : State) (c : Nat) (x : CollCtx) (v : CollInst) : State :=
  let n := v.num
  let s := if x.timeout = 0 then s else s.armIn (.coll c n) (us x.timeout)
  match x.parent with
  | none => if x.held.contains n then s.collRootRejoin c n x v.cmd else s.collBegin c n
  | some p =>
    if x.reruns.contains n then s.collBegin c n
    else
      let s := s.updColl c fun x => { x with asked := n :: x.asked.filter fun k => decide (k ≠ n) }
      let s := (s.updInst c n fun v => { v with rejoinAt := s.now + us 100 }).armRejoin c
      s.collTell c p (collHdr c x n v.cmd ckRejoin)

/-- A COLLECTIVE begins: at its start, or at the first firing of its line (R262). -/
def State.collEnter (s : State) (c n : Nat) : State :=
  match s.colls.look c with
  | none => s
  | some x =>
    match x.inst n with
    | none => s
    | some v =>
      let s := s.updInst c n fun v => { v with armed := false }
      if v.rejoin then s.collReenter c x v else s.collBegin c n

/-- A COLLECTIVE that passed its checks takes the next instance of its context and begins, or waits for its whistle line
(R246, R262, R264); what arrived early is taken then. -/
def State.collJoin (s : State) (q i iter : Nat) (x : CollCtx) (m : CollCmd) (note : State → State) : State :=
  let n := s.rd .HD_CTX_INST m.ctx
  let v : CollInst := {
    num := n, q := q, i := i, iter := iter, cmd := m, armed := m.onWhistle, rejoin := s.flag .HD_CTX_REJOIN_DUE m.ctx }
  let early := x.early.filter fun e => decide (e.2.2.inst = n)
  let s := (note s).wrAll m.ctx [(.HD_CTX_INST, n + 1), (.HD_CTX_STATE, hcActive)]
  let s := s.updColl m.ctx fun x => { x with
    insts := x.insts.filter (fun w => decide (w.num ≠ n)) ++ [v], early := x.early.filter fun e => decide (e.2.2.inst ≠ n),
    past := x.past.filter fun p => decide (p.1 ≠ n) }
  let s := if m.onWhistle then s else s.collEnter m.ctx n
  forEach (fun s (e : Nat × Nat × CollHdr) => s.collDispatch m.ctx e.1 e.2.1 e.2.2) early s

/-- Start a COLLECTIVE of a queue; its execution has been recorded as started when it runs. -/
def State.collStart (s : State) (q i iter : Nat) (m : CollCmd) (note : State → State) : State × StartRes :=
  let slot := s.rd .QU_CFG_JOB_SLOT q
  match s.colls.look m.ctx with
  | none => (s, .fail cCollContext)
  | some x =>
    let size := dtSize m.dtype
    if x.slot ≠ slot ∨ x.maxBytes < x.vecLen m * size then (s, .fail cCollContext)
    else if s.rd .HD_CTX_STATE m.ctx = hcFailed then (s, .fail cCollFailed)
    else if 2 ≤ (x.insts.filter fun v => !v.done).length then (s, .held .slots)
    else
      let own := x.ownRange m
      match s.collBuf q m.src (x.vecLen m * size) (x.usesSrc m) false with
      | (s, some k) => (s, .fail k)
      | (s, none) =>
        match s.collBuf q m.dst ((own.2 - own.1) * size) (x.usesDst m) true with
        | (s, some k) => (s, .fail k)
        | (s, none) => (s.collJoin q i iter x m note, .run)

/-- A whistle line fires for a job: the COLLECTIVEs that wait on it begin (R262, R360). -/
def State.collWhistle (s : State) (slot line : Nat) : State :=
  forEach (fun s c =>
    match s.colls.look c with
    | some x =>
      if x.slot = slot then
        forEach (fun s v => if v.armed && decide (v.cmd.line = line) then s.collEnter c v.num else s) x.insts s
      else s
    | none => s) s.colls.keys s

/-- An acknowledgement on an edge may complete a broadcast at its root (R247). -/
def State.collAcked (s : State) (t : Nat) : State :=
  match s.ctxs.look t with
  | none => s
  | some tx =>
    if !tx.coll then s
    else
      forEach (fun s c =>
        match s.colls.look c with
        | some x =>
          if x.slot = tx.slot then
            forEach (fun s v => if v.cmd.kind = kBroadcast then s.collCheck c v.num else s) x.insts s
          else s
        | none => s) s.colls.keys s

/-- Free the collective contexts of a job slot: UNBUILT, their slots and RETAIN free (R245). -/
def State.freeCollOfJob (s : State) (j : Nat) : State :=
  forEach (fun s c =>
    match s.colls.look c with
    | some x =>
      if x.slot = j then
        let s := s.wrAll c [(.HD_CTX_INST, 0), (.HD_CTX_JOB_SLOT, 0), (.HD_CTX_STATE, hcUnbuilt), (.HD_CTX_ROOT, 0),
          (.HD_CTX_HELD, 0), (.HD_CTX_REBUILT, 0), (.HD_CTX_REJOIN_DUE, 0), (.HD_CTX_BUILD, 0)]
        let s := s.disarmAll fun t => match t with
          | .coll d _ => decide (d = c)
          | .rejoin d => decide (d = c)
          | _ => false
        { s with colls := s.colls.del c }
      else s
    | none => s) s.colls.keys s

end Sys2Proof.Machine
end

