-- ==== Sys2Proof/Machine/JobOps.lean ====
section
/-! DEFINITION. The shared operations of jobs and of failing operations: retirement of manifest entries (R20, R206),
failure of a context (R171), two-phase close (R172, R173), zeroisation (R64, R65), closing and freeing a job slot
(R92, R525), windows and regions of a slot. -/

namespace Sys2Proof.Machine

/-! ## Operations that end -/

/-- How the owner of a manifest entry learns of its end. -/
inductive OpEnd where
  | done
  | cancelled
  | failed (cause : Nat)
  deriving DecidableEq, Repr

/-- Tell the owner of an operation how it ended. -/
def State.tellOwner (s : State) (e : MEntry) (r : OpEnd) : State :=
  match e.owner with
  | .exec =>
    match r with
    | .done => s.completeExec e.queue e.index e.iter
    | .cancelled => s.cancelExec e.queue e.index e.iter
    | .failed c => s.failExec e.queue e.index e.iter c
  | .pull id =>
    match r with
    | .done => s.pullEnded id 0
    | .cancelled => s.recvCancelled id
    | .failed c => s.pullEnded id c
  | .unit f t op =>
    match r with
    | .failed c => s.unitDone f t op ruRemote c 0
    | _ => s.unitDone f t op ruOk 0 (match e.status with | some v => v.2 | none => 0)

/-- Retire an entry and tell its owner (R20). -/
def State.endOp (s : State) (m : Nat) (r : OpEnd) : State :=
  match s.manifest.look m with
  | none => s
  | some e => ((s.retire m).tellOwner e r).retryPulls

/-! ## Contexts that fail and close -/

/-- Whether a timer belongs to a context. -/
def TimerKey.ofCtx (c : Nat) : TimerKey → Bool
  | .nackRetry d _ _ => decide (d = c)
  | .ackDelay d _ => decide (d = c)
  | .rto d _ => decide (d = c)
  | .ctxFail d => decide (d = c)
  | .idleClose d => decide (d = c)
  | .closeQuiet d => decide (d = c)
  | .epochErase d => decide (d = c)
  | _ => false

/-- The packets of a context's resequencing store under numbers of the model's own, PSN + 2^32, which no session's packets have. -/
def Ctx.heldPackets (x : Ctx) : List Packet :=
  ((x.rx 0).store.mergeSort fun a b => idxLe a.psn b.psn).map fun p => { p with psn := p.psn % 2 ^ 32 + 2 ^ 32 }

/-- Keep the presentations that a context holds when it closes: they are never dropped (R223), and wait without it. -/
def State.keepHeld (s : State) (c : Nat) (x : Ctx) : State :=
  if (x.rx 0).store.isEmpty then s
  else
    let old := match s.ghosts.look c with | some g => (g.rx 0).store | none => []
    let r : RecvStream := { store := old ++ x.heldPackets }
    { s with ghosts := s.ghosts.put c { x with rcv := ⟨[(0, r)]⟩, snd := {} } }

/-- Put a context in QUIET for 1 ms (R172 step 4): it holds no packets and its timers stop; the numbers of its streams and its
transmission counter stay, for the CLOSE-ACKs that it still sends (R150, R173). A close keeps the operations that still wait for a match;
a failure drops every one (R171). -/
def State.quietCtx (s : State) (c : Nat) (failed : Bool) : State :=
  match s.ctxs.look c with
  | none => s
  | some x =>
    let s := (s.msgsCtxGone c cUnreachable).disarmAll (TimerKey.ofCtx c)
    let s := if failed then s else s.keepHeld c x
    let s := s.keepTops c fun _ t => !failed && !t.statusQueued && (t.lastSeq || t.blk.ordered)
    let s := { s with
      credits := s.credits.filter fun k => decide (k.ctx ≠ c), stale := s.stale.filter fun k => decide (k.1 ≠ c),
      moored := s.moored.filter fun p => !decide (p.job = x.job ∧ p.dest = x.loc ∧ p.src = x.rem) }
    let snd : Tab Nat SendStream := ⟨x.snd.cells.map fun t => (t.1, { s.newTx with next := t.2.next })⟩
    let s := s.updCtx c fun x => { x with state := .quiet, fetching := false, cached := true, snd := snd, rcv := freshRcv x.coll }
    s.armIn (.quiet c) (ms 1)

/-- Free a context whose QUIET has ended (R172 step 4), and remember what a repeated CLOSE-REQ is answered with (R173). -/
def State.freeCtx (s : State) (c : Nat) : State :=
  match s.ctxs.look c with
  | none => s
  | some x =>
    let m : ClosedCtx := ⟨x.session, x.epoch, x.txc, (x.tx (if x.coll then 2 else 0)).next, (x.tx 1).next⟩
    { s with ctxs := s.ctxs.del c, closed := s.closed.put c m }

/-- Fail the operations of a context with a cause; one that was cancelled ends as cancelled (R141, R171). -/
def State.failOps (s : State) (c cause : Nat) : State :=
  forEach (fun s m =>
    match s.manifest.look m with
    | some e =>
      if e.cancel.isSome && e.localFail.isNone then s.endOp m .cancelled
      else s.endOp m (.failed cause)
    | none => s) ((s.ctxEntries c).map (·.1)) s

/-- A context fails (R171): its operations, its read slots and packets, the record, QUIET. -/
def State.failCtx (s : State) (c : Nat) : State :=
  match s.ctxs.look c with
  | none => s
  | some x =>
    let s := (s.count uTransport 0x0E).failOps c cUnreachable
    let s := if x.coll then s.collCtxFailed c else s
    (s.logRec 1 0x07 .contextFailed c [x.loc, x.rem, x.job]).quietCtx c true

/-! ## Windows and regions of a slot -/

/-- Not fenced: an operation admitted on the region has a memory access in flight, or a read slot holds one of its reads (R528 step 2).
An operation that has not made its access yet makes none, since its key is unregistered. -/
def State.regionBusy (s : State) (key : Nat) : Bool :=
  s.tops.cells.any fun t => !t.2.win && decide (t.2.key = key) && (t.2.read || decide (t.2.busy ≠ 0))

/-- Which region entry leaves the cache when another comes in, if one does, is a free value (R204, log 8). -/
def State.evictRegion (s : State) (key : Nat) : State :=
  match s.regions.keys[s.freeVal 21]? with
  | some k => if k = key then s.freeNext else { s.freeNext with regions := s.regions.upd k fun r => { r with cached := false } }
  | none => s.freeNext

/-- End a region: its leaf records return, its key is in quarantine for 1 ms (R528 step 3). -/
def State.endRegion (s : State) (key : Nat) : State :=
  { s with regions := s.regions.del key }.armIn (.quarantine key) (ms 1)

/-- Withdraw a slot's windows and regions locally (the JOB-CLOSE table, step 4; R201). -/
def State.dropMemory (s : State) (j : Nat) : State :=
  let reqs := (s.windows.cells.filterMap fun w => if w.1.1 = j then w.2.src else none)
    ++ (s.regions.cells.filterMap fun r => if r.2.slot = j then r.2.src else none)
  let keys := (s.regions.cells.filter fun r => decide (r.2.slot = j)).map (·.1)
  let s := { s with
    windows := s.windows.keep fun k _ => decide (k.1 ≠ j), revokes := s.revokes.filter fun r => decide (r.slot ≠ j) }
  let s := s.disarmAll fun k => match k with
    | .revokeRepeat i _ _ _ => decide (i = j)
    | .revokeFail i _ => decide (i = j)
    | _ => false
  forEach (fun s r => s.endPriv r 0) reqs (forEach State.endRegion keys s)

/-! ## Zeroisation and the end of a job -/

/-- The timers of a job slot's keys. -/
def TimerKey.ofSlot (j : Nat) : TimerKey → Bool
  | .keyReqRetry i => decide (i = j)
  | .keyReqUnanswered i => decide (i = j)
  | .keyFail i => decide (i = j)
  | .renewal i => decide (i = j)
  | .genSwitch i => decide (i = j)
  | .oldGen i => decide (i = j)
  | .renewalRepeat i => decide (i = j)
  | .genExpiry i => decide (i = j)
  | .closeManifest i => decide (i = j)
  | _ => false

/-- Zeroise the keys of a job slot: every generation and every derived key (R64). -/
def State.zeroiseJob (s : State) (j : Nat) : State :=
  (s.updJob j fun b => { b with keys := {} }).setFlag .GLB_JOB_RENEWING j false

/-- The virtual functions bound to a slot, as (register index, function). -/
def State.vfsOf (s : State) (j : Nat) : List (Nat × Func) :=
  (s.setOf .HI_VF_BOUND).filterMap fun i =>
    if s.rd .HI_VF_JOB_SLOT i = j then some (i, i / 253 * 256 + i % 253) else none

/-- Unbind a slot's virtual functions and disable their BAR4 windows (R429, R434). -/
def State.freeVfs (s : State) (j : Nat) : State :=
  forEach (fun s v =>
    let s := (s.wr .HI_VF_BOUND v.1 0).wr .HI_VF_JOB_SLOT v.1 0
    forEach (fun s i => if s.rd .HI_WIN_BASE_FUNC i = v.2 then s.wr .HI_WIN_TGT_EN i 0 else s)
      (s.setOf .HI_WIN_TGT_EN) s) (s.vfsOf j) s

/-- Unlock the ASID slots of a job (R413). -/
def State.unlockAsids (s : State) (j : Nat) : State :=
  forEach (fun s a => match s.asidSlot a with | some i => s.wr .TX_ASID_LOCKED i 0 | none => s) (s.job j).asids s

/-- The fields of GLB_JOB[j] that a FREE slot shows at reset value. -/
def glbJobFields : List Fld :=
  [.GLB_JOB_JOB_ID, .GLB_JOB_STATE, .GLB_JOB_MODE, .GLB_JOB_GEN, .GLB_JOB_RENEWING, .GLB_JOB_SEALED, .GLB_JOB_LEADER]

/-- Free a job slot: its queues are disabled (R92), its virtual functions unbound, its ASID slots unlocked, its locks,
match entries, collective contexts and multicast streams freed, its quotas restored (R157, R211, R239). -/
def State.freeJob (s : State) (j : Nat) : State :=
  let id := s.rd .GLB_JOB_JOB_ID j
  let s := (((s.disableJobQueues j).freeVfs j).unlockAsids j).freeLocksOfJob j
  let s := (s.freeMatchOfJob j).freeCollOfJob j
  let s := s.disarmAll (TimerKey.ofSlot j)
  let s := s.wrAll j [(.MF_QUOTA_MANIFEST, 131072), (.MF_QUOTA_READS, 65536), (.CT_QUOTA_ENTRIES, 16777216),
    (.CT_QUOTA_UXUNITS, 16777215)]
  let s := s.wrAll j (glbJobFields.map fun f => (f, 0))
  { s with
    jobs := s.jobs.del j, manifest := s.manifest.keep fun _ m => decide (m.slot ≠ j),
    ghosts := s.ghosts.keep fun _ x => decide (x.slot ≠ j), closed := s.closed.keep fun k _ => decide (k / 2 ^ 64 ≠ id),
    mcStreams := s.mcStreams.keep fun k _ => decide (k.1 / 2 ^ 32 ≠ j) }

/-- The contexts of a job slot that are not yet closed. -/
def State.openCtxs (s : State) (j : Nat) : List Nat :=
  (s.ctxs.cells.filter fun c => decide (c.2.slot = j) && decide (c.2.state ≠ .quiet)).map (·.1)

/-- Steps 2 to 5 of the JOB-CLOSE table, as far as they can go now: contexts close once no manifest entry of the job is
left; with every context closed the windows and regions go, the keys are zeroised, the slot becomes FREE and JOB-CLOSE
completes. -/
def State.closeProgress (s : State) (j : Nat) : State :=
  if s.jobState j ≠ jobClosing ∨ (s.jobs.look j).isNone ∨ s.entriesOf j ≠ 0 then s
  else
    let s := forEach (fun s c => s.startClose c true) (s.openCtxs j) s
    if !(s.openCtxs j).isEmpty then s
    else
      let src := (s.job j).closeSrc
      let s := ((s.dropMemory j).zeroiseJob j).freeJob j
      match src with
      | some r => s.endPriv r 0
      | none => s

/-- A job slot goes to CLOSING: a key exchange is abandoned, the 2 ms of step 2 start (R65, R525). -/
def State.beginClose (s : State) (j : Nat) (src : Option Requester) : State :=
  let opening := (s.job j).openSrc
  let s := (s.wr .GLB_JOB_STATE j jobClosing).disarmAll (TimerKey.ofSlot j)
  let s := s.updJob j fun b => { b with openSrc := none, closeSrc := if src.isSome then src else b.closeSrc }
  let s := match opening with | some r => s.endPriv r cKeyFail | none => s
  (s.jobLeftOpen j).armIn (.closeManifest j) (ms 2)

/-- Zeroise a job's keys outside JOB-CLOSE (R65): its queues stop with KEY_ZEROISED, the slot closes. -/
def State.zeroiseStop (s : State) (j : Nat) : State :=
  let s := s.zeroiseJob j
  if s.jobState j = jobClosing then s
  else ((s.stopJobQueues j cKeyZeroised true).beginClose j none).closeProgress j

/-- Zeroise every job key on the device (R64, R65). -/
def State.zeroiseAll (s : State) : State := forEach State.zeroiseStop s.jobs.keys s

/-- After an operation ended: its slot may go on closing. -/
def State.endOpClose (s : State) (m : Nat) (r : OpEnd) : State :=
  match s.manifest.look m with
  | none => s
  | some e => (s.endOp m r).closeProgress e.slot

/-- A context fails, and its slot may go on closing. -/
def State.failCtxClose (s : State) (c : Nat) : State :=
  match s.ctxs.look c with
  | none => s
  | some x => (s.failCtx c).closeProgress x.slot

/-- A context goes QUIET, and its slot may go on closing. -/
def State.quietClose (s : State) (c : Nat) : State :=
  match s.ctxs.look c with
  | none => s
  | some x => (s.quietCtx c false).closeProgress x.slot

end Sys2Proof.Machine
end

