-- ==== Sys2Proof/Machine/LinkWire.lean ====
section
/-! DEFINITION. What a lane carries as bits: the CRC-32 (R306), flits and their payloads (R306 to R309, R316, R320, R323, R351), codewords of
the Reed-Solomon (544,514) code (R303), training frames (R333 to R335); and a packet's bytes on a link, with what a router reads of
them (R267). -/

namespace Sys2Proof.Machine

/-! ## CRC-32 (R306) -/

/-- One bit, and one byte, of the CRC of the IEEE 802.3 frame check sequence. -/
def crcBit (c : Nat) : Nat := if c % 2 = 1 then (c / 2) ^^^ 0xEDB88320 else c / 2
def crcByte (c b : Nat) : Nat := crcBit (crcBit (crcBit (crcBit (crcBit (crcBit (crcBit (crcBit (c ^^^ b))))))))

/-- The CRC-32 of bytes. -/
def crc32 (bs : List Byte) : Nat := (bs.foldl (fun c b => crcByte c b.toNat) 0xFFFFFFFF) ^^^ 0xFFFFFFFF

/-! ## The Reed-Solomon code (R303)

Symbols are elements of the field of 2^10 elements of IEEE 802.3, whose primitive element is a root of x^10 + x^3 + 1; a codeword is a multiple of
the product of x - a^j over j = 0 to 29 (PRESUMED, as IEEE 802.3 has it: log 35). A codeword is one number of 5,440 bits whose bits 10 i to
10 i + 9 are symbol i, the first sent being that of the highest power. -/

/-- Symbol `i` of a codeword. -/
def symOf (w i : Nat) : Nat := (w >>> (10 * i)) % 1024

/-- The coefficients of the generator below its leading one, times x^b for b = 0 to 9; bits 10 i to 10 i + 9 hold coefficient i. -/
def rsRows : List Nat :=
  [0x8fe282ece68a0011b235468f99448417ad07bd81eb9f7dcd69c5262305881fcb927880d0a0b,
   0x1dc595d9cc16402360638d1f22ad082f1a9f7b02d57eebbed2884cd60b103f9724f100a341f,
   0x3b8b2bb3982c8046c0c6187e455a105e352ed60da8fd575dad12d9ac12297f2e49e20044c3e,
   0x771647473959008d818c30bc1ab029bc2add8c1353fa3ebb5a25b348045bfe1c13e4098987c,
   0xee2c8e8a7bb2010b27186138b544527a553b3c26a7b4fd56bd4b26102cb6fe7827c812114f8,
   0xde599d34ff6642066e39c231fa88a4f4aa665c4c4d697a8d73960cb0596cfef0df9024229f0,
   0xbef32a4dfecc840cd87b8663753548eb545cb8989a92753ee62e5960b2d8ffe13f0448453e0,
   0x7fe6d4bffc9b480994f60ec67a6a90d4e8a955303764ea79c55cb2c161b9fdc2fe2c908a3c9,
   0xff8d397bf134d0030dec1d8ce4f529abd1d28e606e8954d78ab92512c372f9c5ec7d201679b,
   0xfd5a62d7eb69a0061bd83b19c9ea5255e3a518c9dd12a9ab1d704ab582edf1cbc8de402cb3f]

/-- A symbol times the generator's lower part. -/
def rsTimes (f : Nat) : Nat := (List.range 10).foldl (fun a b => if bitOf f b then a ^^^ rsRows.getD b 0 else a) 0

/-- The remainder after one more symbol of the message. -/
def rsStep (p s : Nat) : Nat := ((p <<< 10) % 2 ^ 300) ^^^ rsTimes (s ^^^ (p >>> 290))

/-- The parity of a message of 514 symbols; bits 10 i to 10 i + 9 hold the coefficient of x^i. -/
def rsParity (m : Nat) : Nat := (List.range 514).foldl (fun p i => rsStep p (symOf m i)) 0

/-- The codeword of a message of 5,140 bits. -/
def rsEncode (m : Nat) : Nat :=
  m + 2 ^ 5140 * (List.range 30).foldl (fun a i => a + symOf (rsParity m) (29 - i) * 2 ^ (10 * i)) 0

/-- The product of two symbols, and the inverse of one. -/
def gfMul (a b : Nat) : Nat :=
  (List.range 10).foldr (fun i r =>
    let d := 2 * r
    let d := if 1024 ≤ d then d ^^^ 0x409 else d
    if bitOf b i then d ^^^ a else d) 0
def gfPow (a : Nat) : Nat → Nat
  | 0 => 1
  | n + 1 => gfMul a (gfPow a n)
def gfInv (a : Nat) : Nat := (List.range 9).foldl (fun r _ => gfMul (gfMul r r) (gfMul a a)) 1

/-- Polynomials over the field, lowest coefficient first: sum, product by a symbol, value, product. -/
def gpAdd : List Nat → List Nat → List Nat
  | [], q => q
  | p, [] => p
  | a :: p, b :: q => (a ^^^ b) :: gpAdd p q
def gpScale (c : Nat) (p : List Nat) : List Nat := p.map (gfMul c)
def gpAt (p : List Nat) (x : Nat) : Nat := p.foldr (fun c r => c ^^^ gfMul x r) 0
def gpMul : List Nat → List Nat → List Nat
  | [], _ => []
  | a :: p, q => gpAdd (gpScale a q) (0 :: gpMul p q)

/-- The syndromes of a received codeword: its values at a^0 to a^29. -/
def rsSyndromes (w : Nat) : List Nat :=
  (List.range 30).map fun j => (List.range 544).foldl (fun r i => gfMul (gfPow 2 j) r ^^^ symOf w i) 0

/-- The Berlekamp-Massey search: the error locator of syndromes, from the `n`-th on. `c` and `b` are the present and the earlier locator, `l` the
degree, `m` the steps since the earlier one changed, `d` its discrepancy. -/
def rsLocator (syn : List Nat) : Nat → Nat → List Nat → List Nat → Nat → Nat → Nat → List Nat
  | 0, _, c, _, _, _, _ => c
  | fuel + 1, n, c, b, l, m, d =>
    let disc := (List.range (l + 1)).foldl (fun r i => r ^^^ gfMul (c.getD i 0) (syn.getD (n - i) 0)) 0
    if disc = 0 then rsLocator syn fuel (n + 1) c b l (m + 1) d
    else
      let next := gpAdd c (List.replicate m 0 ++ gpScale (gfMul disc (gfInv d)) b)
      if 2 * l ≤ n then rsLocator syn fuel (n + 1) next c (n + 1 - l) 1 disc
      else rsLocator syn fuel (n + 1) next b l (m + 1) d

/-- The error at the symbol of power `e`, where the locator has a root there (Forney's rule): none elsewhere. -/
def rsErrorAt (loc omega : List Nat) (e : Nat) : Option Nat :=
  let x := gfPow 2 e
  let xi := gfInv x
  if gpAt loc xi ≠ 0 then none
  else
    let slope := (List.range loc.length).foldl (fun r i => if i % 2 = 1 then r ^^^ gfMul (loc.getD i 0) (gfPow xi (i - 1)) else r) 0
    some (gfMul x (gfMul (gpAt omega xi) (gfInv slope)))

/-- A received codeword with up to 15 wrong symbols put right: the message and how many were wrong; none where it cannot be corrected. -/
def rsCorrect (w : Nat) : Option (Nat × Nat) :=
  let syn := rsSyndromes w
  let loc := rsLocator syn 30 0 [1] [1] 0 1 1
  let omega := (gpMul syn loc).take 30
  let wrong := (List.range 544).filterMap fun i => (rsErrorAt loc omega (543 - i)).map fun v => (i, v)
  let fixed := wrong.foldl (fun w e => w ^^^ (e.2 <<< (10 * e.1))) w
  if wrong.length ≤ 15 ∧ fixed = rsEncode (fixed % 2 ^ 5140) then some (fixed % 2 ^ 5140, wrong.length) else none

/-- The message of a received codeword, and how many symbols were wrong; none where it is uncorrectable. -/
def rsDecode (w : Nat) : Option (Nat × Nat) :=
  if w = rsEncode (w % 2 ^ 5140) then some (w % 2 ^ 5140, 0) else rsCorrect w

/-- The codeword of two flits of 320 bytes (R303): CW_SEQ and LANE follow them. -/
def codeword (a b seq lane : Nat) : Nat := rsEncode (a + b * 2 ^ 2560 + seq * 2 ^ 5120 + lane * 2 ^ 5128)

/-! ## Flits (R306, R307) -/

/-- Whether a flit type is sequenced (R308). -/
def flitSeq : FlitPay → Bool
  | .data .. => true
  | .notice _ => true
  | _ => false

/-- FTYPE (R308). -/
def FlitPay.ftype : FlitPay → Nat
  | .data .. => 0x1
  | .notice _ => 0x2
  | .credit _ => 0x8
  | .time _ => 0xA
  | .train _ => 0xB
  | .hello _ => 0xC

/-- Bits 95:52 of the header: the fields of DATA. -/
def FlitPay.dataBits : FlitPay → Nat
  | .data vc abort sop eop _ => vc + 8 * bit01 abort + 16 * sop + 2 ^ 23 * eop
  | _ => 0

/-- The payload of a flit before its padding. -/
def FlitPay.bytes : FlitPay → List Byte
  | .data _ _ _ _ bs => bs
  | .notice n => leBytes 1 n.d ++ leBytes 1 n.a ++ leBytes 1 n.c ++ leBytes 1 (bit01 n.up)
  | .credit cs => cs.flatMap (leBytes 2)
  | .time t =>
    leBytes 8 t.tTx ++ leBytes 8 t.tRxLast ++ leBytes 8 t.tTxLast ++ leBytes 8 t.gmSerial ++ leBytes 1 t.gmPrio ++ leBytes 1 t.depth
      ++ leBytes 1 (bit01 t.locked + 2 * bit01 t.holdover + 4 * bit01 t.ext)
  | .train t =>
    leBytes 1 (if t.ack then 2 else 1) ++ leBytes 1 t.width ++ leBytes 1 t.rate ++ leBytes 1 t.reason ++ leBytes 8 t.serial ++ leBytes 1 t.port
  | .hello h =>
    leBytes 8 h.serial ++ leBytes 1 h.port ++ leBytes 1 (h.width + 4 * h.rate) ++ leBytes 2 (bit01 h.init + 2 * bit01 h.hold) ++ leBytes 4 h.epoch
      ++ leBytes 2 h.txSeq ++ leBytes 2 h.rxExp ++ leBytes 4 h.ded ++ h.held.flatMap (leBytes 2)

/-- Bytes followed by zeros up to `n` bytes. -/
def padTo (n : Nat) (bs : List Byte) : List Byte := bs ++ List.replicate (n - bs.length) 0

/-- Bytes 0 to 315 of a flit: header and payload. -/
def Flit.body (f : Flit) : List Byte :=
  leBytes 12 (FlitPay.ftype f.pay + 2 ^ 4 * f.fseq + 2 ^ 16 * f.ackSeq + 2 ^ 28 * bit01 f.nack + 2 ^ 29 * f.cvc + 2 ^ 32 * f.ccount
    + 2 ^ 48 * f.cong + 2 ^ 52 * FlitPay.dataBits f.pay)
    ++ padTo 304 (FlitPay.bytes f.pay)

/-- The 320 bytes of a flit, and as one number. -/
def Flit.bytes (f : Flit) : List Byte := Flit.body f ++ leBytes 4 (crc32 (Flit.body f))
def Flit.word (f : Flit) : Nat := leNat (Flit.bytes f)

/-- The payload of a flit of a type; none where it breaks the type's layout (R308). `hi` holds bits 95:52 of the header. -/
def decodePay (ftype hi : Nat) (bs : List Byte) : Option FlitPay :=
  let at' (k n : Nat) : Nat := leAt bs k n
  let rest (k : Nat) : Bool := hi = 0 && (bs.drop k).all fun b => decide (b = 0)
  match ftype with
  | 0x1 => if bitsOf hi 42 2 = 0 then some (.data (bitsOf hi 0 3) (bitOf hi 3) (bitsOf hi 4 19) (bitsOf hi 23 19) bs) else none
  | 0x2 =>
    if rest 4 && decide (at' 0 1 < 4 ∧ at' 1 1 < 32 ∧ at' 2 1 < 32 ∧ at' 3 1 < 2) then
      some (.notice ⟨at' 0 1, at' 1 1, at' 2 1, decide (at' 3 1 = 1)⟩)
    else none
  | 0x8 => if rest 16 then some (.credit ((List.range 8).map fun v => at' (2 * v) 2)) else none
  | 0xA =>
    if rest 35 && decide (at' 34 1 < 8) then
      some (.time ⟨at' 0 8, at' 8 8, at' 16 8, at' 24 8, at' 32 1, at' 33 1, bitOf (at' 34 1) 0, bitOf (at' 34 1) 1, bitOf (at' 34 1) 2⟩)
    else none
  | 0xB =>
    if rest 13 && decide ((at' 0 1 = 1 ∨ at' 0 1 = 2) ∧ at' 1 1 < 3 ∧ at' 2 1 < 3 ∧ at' 3 1 < 4 ∧ at' 12 1 < 72) then
      some (.train ⟨decide (at' 0 1 = 2), at' 1 1, at' 2 1, at' 3 1, at' 4 8, at' 12 1⟩)
    else none
  | 0xC =>
    if rest 40 && decide (at' 8 1 < 72 ∧ at' 9 1 < 16 ∧ at' 10 1 < 4 ∧ at' 11 1 = 0 ∧ at' 16 2 < 4096 ∧ at' 18 2 < 4096 ∧ at' 22 2 = 0) then
      some (.hello {
        serial := at' 0 8, port := at' 8 1, width := bitsOf (at' 9 1) 0 2, rate := bitsOf (at' 9 1) 2 2, init := bitOf (at' 10 1) 0,
        hold := bitOf (at' 10 1) 1, epoch := at' 12 4, txSeq := at' 16 2, rxExp := at' 18 2, ded := at' 20 2,
        held := (List.range 8).map fun v => at' (24 + 2 * v) 2 })
    else none
  | _ => none

/-- What a port makes of the 320 bytes of a flit: a CRC that fails, a malformed flit, or a flit. -/
inductive FlitRes where
  | bad
  | malformed
  | ok (f : Flit)
  deriving DecidableEq, Repr

/-- Read a flit from its number (R306 to R308). -/
def decodeFlit (w : Nat) : FlitRes :=
  let bs := leBytes 320 w
  let h := leAt bs 0 12
  if crc32 (bs.take 316) ≠ leAt bs 316 4 then .bad
  else
    match decodePay (bitsOf h 0 4) (bitsOf h 52 44) ((bs.drop 12).take 304) with
    | none => .malformed
    | some pay => .ok {
        fseq := bitsOf h 4 12, ackSeq := bitsOf h 16 12, nack := bitOf h 28, cvc := bitsOf h 29 3, ccount := bitsOf h 32 16,
        cong := bitsOf h 48 4, pay := pay }

/-- The places of the set bits of a segment mask, lowest first (R309). -/
def segsSet (m : Nat) : List Nat := (List.range 19).filter fun k => bitOf m k

/-- The mask of segments. -/
def segMask (l : List Nat) : Nat := l.foldl (fun m k => m ||| 2 ^ k) 0

/-! ## Packets on a link (R149, R267, R288) -/

/-- The bytes of a packet on a link. -/
def Packet.wire (p : Packet) : List Byte :=
  match p.body with
  | .mg _ _ _ _ tag _ =>
    let h := Packet.mgHeader p
    h.take 2 ++ leBytes 1 (Packet.routeByte p) ++ h.drop 3 ++ tag ++ Packet.mgPayload p
  | .sealed bs => Packet.headerBytes p (Packet.routeByte p) ++ bs
  | b => Packet.headerBytes p (Packet.routeByte p) ++ Body.bytes b

/-- What a router reads of a packet (R267): CLASS, ROUTE, DEST, SRC, LENGTH, TS, and the route list of a source-routed MG packet (R289). -/
structure RHead where
  cls : Nat
  vc : Nat
  detour : Bool
  mark : Bool
  hops : Nat
  dest : Nat
  src : Nat
  length : Nat
  ts : Nat
  route : Option (List Nat)
  deriving DecidableEq, Repr

/-- Read a packet's bytes as a router does. -/
def headOf (bs : List Byte) : RHead :=
  let fl := leAt bs 1 1
  let r := leAt bs 2 1
  { cls := fl % 4, vc := r % 2, detour := bitOf r 1, mark := bitOf r 2, hops := bitsOf r 4 4, dest := leAt bs 4 4, src := leAt bs 8 4,
    length := leAt bs 18 2, ts := leAt bs 28 4,
    route := if fl % 4 = 3 ∧ bitOf fl 2 then some ((List.range 8).map fun k => leAt bs (48 + k) 1) else none }

/-- A packet's bytes as they leave on a hop: ROUTE is the only byte that changes (R267, R269). -/
def withRoute (bs : List Byte) (route : Nat) : List Byte := bs.take 2 ++ leBytes 1 route ++ bs.drop 3

/-! ## Training frames (R333 to R335) -/

/-- CONTROL and STATUS of a frame. -/
def TrainFrame.control (f : TrainFrame) : Nat :=
  f.cmd + 4 * f.tap + 32 * bit01 f.dir + 64 * f.preset + 512 * bit01 f.rxReady + 1024 * f.seq
def TrainFrame.status (f : TrainFrame) : Nat :=
  f.echo + 16 * f.result + 64 * bit01 f.lock + 128 * bit01 f.trained + 256 * f.lane + 1024 * f.laneOk

/-- Symbols 64 to 159 of a training frame, one bit each (R333): CONTROL, STATUS and CHECK. -/
def TrainFrame.word (f : TrainFrame) : Nat :=
  let v := TrainFrame.control f + 2 ^ 32 * TrainFrame.status f
  v + 2 ^ 64 * crc32 (leBytes 8 v)

/-- Read a training frame; none where its check fails. -/
def decodeFrame (w : Nat) : Option TrainFrame :=
  if crc32 (leBytes 8 w) ≠ bitsOf w 64 32 then none
  else some {
    cmd := bitsOf w 0 2, tap := bitsOf w 2 3, dir := bitOf w 5, preset := bitsOf w 6 3, rxReady := bitOf w 9, seq := bitsOf w 10 4,
    echo := bitsOf w 32 4, result := bitsOf w 36 2, lock := bitOf w 38, trained := bitOf w 39, lane := bitsOf w 40 2, laneOk := bitsOf w 42 4 }

end Sys2Proof.Machine
end

