-- ==== Sys2Proof/Machine/RouteOps.lean ====
section
/-! DEFINITION. The shared operations of the crossing (R267 to R301): table entries, the route decision, output queues,
copies, discards, cut-through under credits. -/

namespace Sys2Proof.Machine

/-! ## Packets and positions -/

/-- The MG class. -/
def clsMG : Nat := 3

/-- The bytes of a packet on a link: header, payload and tag (R149, R288). -/
def pktBytes (p : RHead) : Nat := if p.cls = clsMG then 48 + p.length else 64 + p.length

/-- Its 64-byte units (R278) and 16-byte segments (R309). -/
def pktUnits (p : RHead) : Nat := ceilDiv (pktBytes p) 64
def pktSegs (p : RHead) : Nat := ceilDiv (pktBytes p) 16

/-- A packet of the crossing as the router reads it; a MARK that it has set stays (R269). -/
def Transit.pkt (t : Transit) : RHead :=
  let h := headOf t.raw
  { h with mark := h.mark || t.marked }

/-- How many of its 16-byte segments are in, and how many it has in all (R309). -/
def Transit.segs (t : Transit) : Nat := t.raw.length / 16
def Transit.total (t : Transit) : Nat := if t.whole then t.segs else pktSegs t.pkt

/-- Whether its header is in: with the route list of a source-routed packet, 64 bytes or the whole packet. -/
def Transit.headIn (t : Transit) : Bool := t.whole || decide (4 ≤ t.segs)

/-- The number of a VC: 2 × class + channel (R307). -/
def vcNo (cls chan : Nat) : Nat := 2 * cls + chan

/-- Network and internal positions of the crossbar. -/
def isNet (p : Nat) : Bool := decide (p < 72)

/-- The counter unit of a position. -/
def posUnit (p : Nat) : Nat := if p < 72 then 128 + p else 251 + (p - 72)

/-! ## Table entries (R270) -/

/-- The entry of coordinate `c` of dimension `d`. -/
def State.coordEntry (s : State) (d c : Nat) : Nat := s.entry 0 (32 * d + c)

/-- KIND, PORT and VIA_MASK of a coordinate entry. -/
def ceKind (e : Nat) : Nat := bitsOf e 0 2
def cePort (e : Nat) : Nat := bitsOf e 8 7
def ceVia (e i : Nat) : Bool := bitOf e (32 + i)

/-- KIND DIRECT and KIND VIA_ONLY. -/
def kindSelf : Nat := 1
def kindDirect : Nat := 2
def kindVia : Nat := 3

/-- SIZE[d], DMODE[d], BIAS[d] and the dimensions in ORDER. -/
def State.dimSize (s : State) (d : Nat) : Nat := bitsOf (s.entry 0 128) (12 + 5 * d) 5
def State.dmode (s : State) (d : Nat) : Nat := bitsOf (s.entry 0 129) (16 * d + 8) 2
def State.bias (s : State) (d : Nat) : Nat := bitsOf (s.entry 0 129) (16 * d) 8
def State.order (s : State) : List Nat := (List.range 4).map fun k => bitsOf (s.entry 0 128) (32 + 2 * k) 2

/-- The fields of MARK and BUFFER. -/
def State.mgDropUs (s : State) : Nat := bitsOf (s.entry 0 130) 40 8
def State.adaptClass (s : State) (k : Nat) : Bool := bitOf (s.entry 0 130) (32 + k)
def State.threshCO (s : State) : Nat := bitsOf (s.entry 0 130) 24 8
def State.threshRQ (s : State) : Nat := bitsOf (s.entry 0 130) 16 8
def State.kMark (s : State) : Nat := bitsOf (s.entry 0 130) 0 8
def State.dedOf (s : State) : Nat := bitsOf (s.entry 0 131) 0 9

/-- Coordinate `d` of a node ID. -/
def coordOf (node d : Nat) : Nat := bitsOf node (5 * d) 5

/-- The dimension and coordinate whose DIRECT entry names a port. -/
def State.dimOfPort (s : State) (p : Nat) : Option (Nat × Nat) :=
  ((List.range 128).find? fun e => decide (ceKind (s.entry 0 e) = kindDirect) && decide (cePort (s.entry 0 e) = p)).map
    fun e => (e / 32, e % 32)

/-! ## Links as the router sees them -/

/-- A port beside its registers. -/
def State.link (s : State) (p : Nat) : Link := (s.links.look p).getD {}

/-- Change a port. -/
def State.updLink (s : State) (p : Nat) (f : Link → Link) : State := { s with links := s.links.put p (f (s.link p)) }

/-- The states of a port (R322). -/
def psDisabled : Nat := 0
def psTraining : Nat := 1
def psUp : Nat := 2
def psHold : Nat := 3
def psRetrain : Nat := 4

/-- LL_PORT_STATE[p].STATE. -/
def State.portState (s : State) (p : Nat) : Nat := s.rd .LL_PORT_STATE_STATE p

/-- Whether a port is up for routing (R322). -/
def State.portUp (s : State) (p : Nat) : Bool := s.portOn p && decide (s.portState p = psUp) && !(s.link p).disabling

/-- Units of a VC sent and not returned (R315). -/
def Link.outstanding (k : Link) (v : Nat) : Nat :=
  ((k.sentU.look v).getD 0 + (65536 - (k.retU.look v).getD 0 % 65536)) % 65536

/-- The packets in the crossing. -/
def State.transitOf (s : State) (id : Nat) : Option Transit := s.transit.look id

/-- Change a packet in the crossing. -/
def State.updTransit (s : State) (id : Nat) (f : Transit → Transit) : State := { s with transit := s.transit.upd id f }

/-- The queue of an output VC, and the packets started on it. -/
def State.outQ (s : State) (out v : Nat) : List Nat := (s.outq.look (out, v)).getD []
def State.sendQ (s : State) (out v : Nat) : List Nat := (s.sending.look (out, v)).getD []

/-- Units queued for an output VC and not started. -/
def State.queuedUnits (s : State) (out v : Nat) : Nat :=
  (s.outQ out v).foldl (fun n id => n + (match s.transit.look id with | some t => pktUnits t.pkt | none => 0)) 0

/-- The occupancy of R274 restricted to a VC (R281), and Q(p) for a class. -/
def State.qvc (s : State) (p v : Nat) : Nat := s.queuedUnits p v + (s.link p).outstanding v
def State.qOf (s : State) (p k : Nat) : Nat := s.qvc p (vcNo k 0) + s.qvc p (vcNo k 1)

/-- M(p): the far router's congestion report, at most 2 microseconds old (R282). -/
def State.congested (s : State) (p k : Nat) : Bool := bitOf (s.link p).cong k && decide (s.now ≤ (s.link p).congAt + us 2)

/-- C(p) of R274. -/
def State.cost (s : State) (p k : Nat) : Nat := s.qOf p k + (if s.congested p k then s.kMark else 0)

/-! ## The decision (R273, R274) -/

/-- The discards of R280, by their SUB. -/
def dropAged : Nat := 0
def dropHops : Nat := 1
def dropBadDest : Nat := 2
def dropNoRoute : Nat := 3
def dropDetour : Nat := 4
def dropMcRoot : Nat := 5
def dropMcOrder : Nat := 6
def dropMg : Nat := 7

/-- What the router decides for a unicast packet. -/
inductive Decision where
  | eject (port : Option Nat)
  | hop (out chan : Nat) (detour : Bool)
  | drop (sub : Nat)
  deriving DecidableEq, Repr

/-- Whether a route notice removes coordinate `i` for destination `c` (R301). -/
def State.noticed (s : State) (d i c : Nat) : Bool :=
  s.notices.any fun n => decide (n.2.d = d ∧ n.2.a = i ∧ n.2.c = c)

/-- The set E of R274. -/
def State.via (s : State) (d c : Nat) : List Nat :=
  (List.range 32).filter fun i =>
    ceVia (s.coordEntry d c) i && decide (ceKind (s.coordEntry d i) = kindDirect)
      && s.portUp (cePort (s.coordEntry d i)) && !s.noticed d i c

/-- The choice between the direct hop and a detour (R274). -/
def State.chooseHop (s : State) (k d c i1 i2 : Nat) : Decision :=
  let e := s.coordEntry d c
  let port := cePort e
  let direct := decide (ceKind e = kindDirect) && s.portUp port
  let es := s.via d c
  let pick (i : Nat) : Nat := (es[i % es.length]?).getD 0
  let portTo (i : Nat) : Nat := cePort (s.coordEntry d i)
  let best := if s.cost (portTo (pick i2)) k < s.cost (portTo (pick i1)) k then pick i2 else pick i1
  let around (i : Nat) : Decision := .hop (portTo i) 0 true
  if !s.adaptClass k || decide (s.dmode d = 1) then
    if direct then .hop port 0 false else if es.isEmpty then .drop dropNoRoute else around best
  else if s.dmode d = 2 && !es.isEmpty then around (pick i1)
  else if direct && (es.isEmpty || decide (s.cost port k ≤ 2 * s.cost (portTo best) k + s.bias d)) then .hop port 0 false
  else if es.isEmpty then .drop dropNoRoute
  else around best

/-- Whether DEST is a multicast address. -/
def isMcast (dest : Nat) : Bool := decide (bitsOf dest 27 5 = 31 ∧ bitsOf dest 16 11 = 0)

/-- The route of a unicast packet that arrived on a position (R273, R289): a source route names the position itself. -/
def State.routeUnicast (s : State) (inPort : Nat) (p : RHead) (i1 i2 : Nat) : Decision :=
  let x := s.nodeId
  let t := p.dest / 4096
  let k := p.cls
  match p.route with
  | some route =>
    match route[p.hops]? with
    | none => .drop dropNoRoute
    | some o =>
      if 72 ≤ o ∧ o ≤ 79 then .eject (some o)
      else if o < 72 && s.portUp o then .hop o 0 false
      else .drop dropNoRoute
  | none =>
    if (List.range 4).any fun d => decide (18 ≤ coordOf t d) then .drop dropBadDest
    else if t = x then .eject none
    else if p.detour then
      match (if isNet inPort then s.dimOfPort inPort else none) with
      | none => .drop dropDetour
      | some (d, _) =>
        let e := s.coordEntry d (coordOf t d)
        if ceKind e = kindDirect && s.portUp (cePort e) then .hop (cePort e) 1 false else .drop dropDetour
    else
      match s.order.find? fun d => decide (coordOf x d ≠ coordOf t d) with
      | none => .drop dropBadDest
      | some d =>
        let c := coordOf t d
        if s.dimSize d ≤ c ∨ ceKind (s.coordEntry d c) = 0 then .drop dropBadDest
        else s.chooseHop k d c i1 i2

/-! ## Discards and buffers (R280, R316) -/

/-- Count a discard at the position where the packet entered (R280). -/
def State.dropCount (s : State) (inPort sub : Nat) : State :=
  s.count (posUnit inPort) (if isNet inPort then 5 else 4) sub

/-- Return the units of an input buffer that have left, and forget a packet that is gone (R316). -/
def State.settleTransit (s : State) (id : Nat) : State :=
  match s.transit.look id with
  | none => s
  | some t =>
    if !t.decided then s
    else
      let all := ceilDiv t.total 4
      let gone := match t.legs with
        | [] => if t.whole then all else t.segs / 4
        | l :: r => r.foldl (fun n k => min n (k.sent / 4)) (l.sent / 4)
      let more := gone - t.freed
      let s := if isNet t.inPort && decide (more ≠ 0) then
          s.updLink t.inPort fun k => { k with freedU := k.freedU.put t.inVc (((k.freedU.look t.inVc).getD 0 + more) % 65536) }
        else s
      if t.legs.isEmpty && t.whole then { s with transit := s.transit.del id }
      else s.updTransit id fun t => { t with freed := t.freed + more }

/-- The arbiter of a crossbar output. -/
def State.arb (s : State) (out : Nat) : Arbiter := (s.arbs.look out).getD {}

/-- A grant of an output has ended: its duration is one of the last 16 (R411). -/
def State.endGrant (s : State) (out ticks : Nat) : State :=
  let a := s.arb out
  { s with arbs := s.arbs.put out { a with grants := (ticks :: a.grants).take 16 } }

/-- Take a packet out of the queues of an output. -/
def State.unqueue (s : State) (out v id : Nat) : State :=
  { s with
    outq := s.outq.put (out, v) ((s.outQ out v).filter fun k => decide (k ≠ id)),
    sending := s.sending.put (out, v) ((s.sendQ out v).filter fun k => decide (k ≠ id)) }

/-- The copy of a packet for an output is over, sent or dropped. -/
def State.endLeg (s : State) (id : Nat) (l : Leg) : State :=
  match s.transit.look id with
  | none => s
  | some t =>
    let s := s.unqueue l.out (vcNo t.pkt.cls l.chan) id
    let s := if l.started && isNet l.out then s.endGrant l.out (s.now - l.granted) else s
    (s.updTransit id fun t => { t with legs := t.legs.filter fun k => decide (k.out ≠ l.out) }).settleTransit id

/-- Discard the copy of a packet for an output, counted under a SUB. -/
def State.dropLeg (s : State) (id : Nat) (l : Leg) (sub : Nat) : State :=
  match s.transit.look id with
  | none => s
  | some t => (s.dropCount t.inPort sub).endLeg id l

/-- A copy joins the queue of its output; an RQ or CO unicast packet that finds the queue above its threshold is marked
(R281). -/
def State.joinQueue (s : State) (id : Nat) (l : Leg) : State :=
  match s.transit.look id with
  | none => s
  | some t =>
    let v := vcNo t.pkt.cls l.chan
    let q := s.qvc l.out v
    let hot := !t.mcast && (decide (t.pkt.cls = 0) && decide (s.threshRQ < q) || decide (t.pkt.cls = 2) && decide (s.threshCO < q))
    let s := if hot && !l.mark then
        let s := s.count (posUnit l.out) 7
        if isNet t.inPort then { s with marked := s.marked.put (t.inPort, t.pkt.cls) s.now } else s
      else s
    let l := { l with mark := l.mark || hot, since := s.now }
    let s := s.updTransit id fun t => { t with legs := t.legs ++ [l], marked := t.marked || hot }
    { s with outq := s.outq.put (l.out, v) (s.outQ l.out v ++ [id]) }

/-- A packet that is ejected has arrived whole: it leaves the crossing for its consumer. -/
def State.ejectWhole (s : State) (id : Nat) : State :=
  match s.transit.look id with
  | none => s
  | some t =>
    match t.legs.find? fun l => decide (72 ≤ l.out) with
    | some l =>
      if t.whole then
        let s := s.emit (.forward l.out (vcNo t.pkt.cls 0) (t.raw.take (pktBytes t.pkt)))
        (s.updTransit id fun t => { t with legs := t.legs.filter fun k => decide (k.out ≠ l.out) }).settleTransit id
      else s
    | none => s

/-- The units that a class's ejection buffer of an internal port holds: those of the packets that are being ejected there and are not yet
whole (R277). -/
def State.ejectUsed (s : State) (out cls : Nat) : Nat :=
  (s.transit.cells.map fun t =>
    if t.2.pkt.cls = cls ∧ t.2.legs.any (fun l => decide (l.out = out)) then ceilDiv t.2.segs 4 else 0).foldl (· + ·) 0

/-- The internal ports whose buffer for a class is least occupied. -/
def State.ejectPorts (s : State) (cls : Nat) : List Nat :=
  let used := (List.range 8).map fun k => (72 + k, s.ejectUsed (72 + k) cls)
  (used.filter fun a => used.all fun b => decide (a.2 ≤ b.2)).map (·.1)

/-- A packet leaves the crossing on an internal port (R277): which of equally empty buffers takes it is a free value. -/
def State.eject (s : State) (id : Nat) (port : Option Nat) : State :=
  match s.transit.look id with
  | none => s
  | some t =>
    let ports := s.ejectPorts t.pkt.cls
    let out := match port with | some p => p | none => ports.getD (s.freeVal 3 % ports.length) 72
    let s := if port.isNone then s.freeNext else s
    let l : Leg := { out := out, chan := 0, detour := false, mark := t.pkt.mark, started := true }
    ((s.count (posUnit out) 1 t.pkt.cls).updTransit id fun t => { t with decided := true, legs := t.legs ++ [l] }).ejectWhole id

/-- Decide a unicast packet, newly arrived or again (R273, R300). -/
def State.decideUnicast (s : State) (id i1 i2 : Nat) : State :=
  match s.transit.look id with
  | none => s
  | some t =>
    let s := s.updTransit id fun t => { t with decided := true }
    match s.routeUnicast t.inPort t.pkt i1 i2 with
    | .eject port => s.eject id port
    | .drop sub => (s.dropCount t.inPort sub).settleTransit id
    | .hop out chan detour =>
      s.joinQueue id { out := out, chan := chan, detour := detour, mark := t.pkt.mark }

/-- The place of a dimension in ORDER. -/
def State.orderPos (s : State) (d : Nat) : Nat := (s.order.findIdx? fun k => decide (k = d)).getD 4

/-- Copy a multicast packet (R284 to R286): to the network ports, and last to an internal port. -/
def State.replicate (s : State) (id : Nat) : State :=
  match s.transit.look id with
  | none => s
  | some t =>
    let s := s.updTransit id fun t => { t with decided := true, mcast := true }
    let e := s.entry 1 (t.pkt.dest % 65536)
    let drop (sub : Nat) : State := (s.dropCount t.inPort sub).settleTransit id
    if t.pkt.cls ≠ 0 ∧ t.pkt.cls ≠ clsMG then drop dropBadDest
    else if !bitOf e 104 then drop dropBadDest
    else if t.pkt.src / 4096 ≠ bitsOf e 80 20 then drop dropMcRoot
    else
      let inDim := if isNet t.inPort then (s.dimOfPort t.inPort).map (·.1) else none
      let outs := (List.range 72).filter fun p => bitOf e p && decide (p ≠ t.inPort)
      let s := outs.foldl (fun s p =>
        let ordered := match s.dimOfPort p with
          | none => false
          | some (d, _) => if isNet t.inPort then (match inDim with | some a => decide (s.orderPos a < s.orderPos d) | none => false) else true
        if !ordered then s.dropCount t.inPort dropMcOrder
        else if s.portUp p || decide (s.portState p = psRetrain) then
          s.joinQueue id { out := p, chan := 0, detour := t.pkt.detour, mark := t.pkt.mark }
        else s.dropCount t.inPort dropNoRoute) s
      match (List.range 8).find? fun k => bitOf e (72 + k) with
      | some k => s.eject id (some (72 + k))
      | none => s.settleTransit id

/-- Whether a packet is older than 500 microseconds (R175, R280). -/
def State.aged (s : State) (p : RHead) : Bool := decide (2000000 < dist32 p.ts s.now)

/-- A header has reached the decision point (R273, R284). -/
def State.decideHeader (s : State) (id i1 i2 : Nat) : State :=
  match s.transit.look id with
  | none => s
  | some t =>
    if s.aged t.pkt then
      ((s.updTransit id fun t => { t with decided := true }).dropCount t.inPort dropAged).settleTransit id
    else if isMcast t.pkt.dest && t.pkt.route.isNone then s.replicate id
    else s.decideUnicast id i1 i2

/-! ## Cut-through (R278, R315) -/

/-- Whether a packet of `u` units may start on VC `v` of a port. -/
def Link.credit (k : Link) (v u : Nat) : Bool :=
  if v < 6 then
    let above (w : Nat) : Nat := (k.outstanding w + (if w = v then u else 0)) - k.peerDed
    decide (((List.range 6).map above).foldl (· + ·) 0 ≤ 1536 - 8 * k.peerDed)
  else decide (k.outstanding v + u ≤ k.peerDed)

/-- The copy of a packet for an output. -/
def Transit.leg (t : Transit) (out : Nat) : Option Leg := t.legs.find? fun l => decide (l.out = out)

/-- Change the copy of a packet for an output. -/
def State.updLeg (s : State) (id out : Nat) (f : Leg → Leg) : State :=
  s.updTransit id fun t => { t with legs := t.legs.map fun l => if l.out = out then f l else l }

/-- ROUTE of a packet as it leaves on a hop (R269). -/
def legRoute (p : RHead) (l : Leg) : Nat := l.chan % 2 + 2 * bit01 l.detour + 4 * bit01 l.mark + 16 * ((p.hops + 1) % 16)

/-- The bytes of a packet as they leave on a hop: ROUTE is the only byte that changes (R267). -/
def Transit.legBytes (t : Transit) (l : Leg) : List Byte := withRoute t.raw (legRoute t.pkt l)

/-! ## The arbiter of an output (R410, R411) -/

/-- The oldest copy of each input that waits for an output on a VC, as (input, packet). -/
def State.headsOf (s : State) (out v : Nat) : List (Nat × Nat) :=
  ((s.outQ out v).filterMap fun id => (s.transit.look id).map fun t => (t.inPort, id)).foldl
    (fun l e => if l.any fun k => decide (k.1 = e.1) then l else l ++ [e]) []

/-- The inputs that hold a packet for an output with its credits, each with the VC and the packet. -/
def State.asking (s : State) (out : Nat) : List (Nat × Nat × Nat) :=
  (List.range 8).flatMap fun v => (s.headsOf out v).filterMap fun e =>
    match s.transit.look e.2 with
    | some t => if (s.link out).credit v (pktUnits t.pkt) then some (e.1, v, e.2) else none
    | none => none

/-- How many places an input comes after the last owner in round-robin order. -/
def afterOwner (owner i : Nat) : Nat := (i + 79 - owner) % 80

/-- The input whose turn it is among those that ask. -/
def State.granted (s : State) (out : Nat) : Option Nat :=
  let w := (s.arb out).owner
  match (s.asking out).map (·.1) with
  | [] => none
  | i :: r => some (r.foldl (fun a b => if afterOwner w b < afterOwner w a then b else a) i)

/-- WAIT of a turn hint (R411): the grants ahead, the present one among them (log 36), times the mean of the last 16. -/
def State.hintWait (s : State) (out owner i : Nat) (asks : List Nat) : Nat :=
  let ahead := min 15 (1 + (asks.eraseDups.filter fun j => decide (afterOwner owner j < afterOwner owner i ∧ j ≠ owner)).length)
  let g := (s.arb out).grants
  min 65535 (ahead * (g.foldl (· + ·) 0 / max 1 g.length))

/-- The inputs that lose against a grant get their hints, which count at network ports. -/
def State.giveHints (s : State) (out owner : Nat) (asks : List Nat) : State :=
  (asks.eraseDups.filter fun i => decide (i ≠ owner)).foldl
    (fun s i => if isNet i then s.count (posUnit i) 0x0E 0 (s.hintWait out owner i asks) else s) s

/-- The copy of a packet starts on its output: its credits are taken, its input owns the output. -/
def State.startLeg (s : State) (out v id : Nat) (t : Transit) (l : Leg) : State :=
  let asks := (s.asking out).map (·.1)
  let s := s.updLink out fun k => { k with sentU := k.sentU.put v (((k.sentU.look v).getD 0 + pktUnits t.pkt) % 65536) }
  let s := s.updLeg id out fun l => { l with started := true, granted := s.now }
  let s := { s with
    outq := s.outq.put (out, v) ((s.outQ out v).filter fun k => decide (k ≠ id)), sending := s.sending.put (out, v) (s.sendQ out v ++ [id]) }
  let s := (s.giveHints out t.inPort asks)
  let s := { s with arbs := s.arbs.put out { s.arb out with owner := t.inPort } }
  if l.detour then s.count (posUnit out) 6 else s

/-- A waiting copy that may not leave any more, with its cause: too old, or with 8 hops (R280). -/
def State.unfit (s : State) (out v : Nat) : Option (Nat × Leg × Nat) :=
  (s.headsOf out v).findSome? fun e =>
    match s.transit.look e.2 with
    | none => none
    | some t => (t.leg out).bind fun l =>
        if s.aged t.pkt then some (e.2, l, dropAged) else if 8 ≤ t.pkt.hops then some (e.2, l, dropHops) else none

/-- On an output VC, a copy that fails its checks is discarded; else the copy of the input whose turn it is starts, where it waits on this VC
(R278, R280, R410). -/
def State.cutThrough (s : State) (out v : Nat) : State :=
  if !s.portUp out then s
  else
    match s.unfit out v with
    | some (id, l, sub) => s.dropLeg id l sub
    | none =>
      match (s.asking out).find? fun a => decide (s.granted out = some a.1 ∧ a.2.1 = v) with
      | none => s
      | some a =>
        match s.transit.look a.2.2 with
        | none => s
        | some t => match t.leg out with
          | none => s
          | some l => s.startLeg out v a.2.2 t l

/-- A packet enters the crossing on an internal port, or its header arrives on a network port: an entry in the input
buffer. -/
def State.enterCrossing (s : State) (inPort inVc : Nat) (raw : List Byte) (whole : Bool) : State × Nat :=
  let t : Transit := { inPort := inPort, inVc := inVc, raw := raw, whole := whole }
  ({ s.idNext with transit := s.transit.put s.nextId t }, s.nextId)

/-- Decide again, or discard, what is queued for a port that goes down (R300); `retrain` says that VC1 packets and
multicast copies wait instead (R324). -/
def State.reroute (s : State) (p : Nat) (retrain : Bool) : State :=
  (List.range 8).foldl (fun s v =>
    (s.outQ p v).foldl (fun s id =>
      match s.transit.look id with
      | none => s
      | some t =>
        match t.leg p with
        | none => s
        | some l =>
          if t.mcast then (if retrain then s else s.dropLeg id l dropNoRoute)
          else if l.chan = 1 then (if retrain then s else s.dropLeg id l dropDetour)
          else
            let s := s.unqueue p v id
            let s := s.updTransit id fun t => { t with legs := [] }
            let i1 := s.freeVal 16
            let s := s.freeNext
            let i2 := s.freeVal 16
            s.freeNext.decideUnicast id i1 i2) s) s

end Sys2Proof.Machine
end

