-- ==== Sys2Proof/Machine/LinkOps.lean ====
section
/-! DEFINITION. The shared operations of links and lanes (R303 to R350): lane training, flits and replay, HELLO and TRAIN,
ports that come up, go down, hold, flush and retrain. -/

namespace Sys2Proof.Machine

/-! ## Entries (R318, R340) -/

/-- The fields of port entry `p`. -/
def peWidth (e : Nat) : Nat := bitsOf e 0 2
def peRate (e : Nat) : Nat := bitsOf e 2 2
def peEn (e : Nat) : Bool := bitOf e 4
def peNarrow (e : Nat) : Bool := bitOf e 5
def peCheck (e : Nat) : Bool := bitOf e 6
def pePeer (e : Nat) : Nat := bitsOf e 8 8
def peSerial (e : Nat) : Nat := bitsOf e 64 64

/-- The fields of lane entry `l`. -/
def lePstate (e : Nat) : Nat := bitsOf e 0 2
def leLoop (e : Nat) : Nat := bitsOf e 2 3
def leMedium (e : Nat) : Nat := bitsOf e 7 1
def lePreset (e : Nat) : Nat := bitsOf e 8 3
def leGen (e : Nat) : Nat := bitsOf e 16 2
def leRepair (e : Nat) : Nat := bitsOf e 24 8
def leHours (e : Nat) : Nat := bitsOf e 32 8
def leSnr (e : Nat) : Nat := bitsOf e 40 8

/-- Port entry `p`, and lane entry `l`, of the active bank. -/
def State.portEntry (s : State) (p : Nat) : Nat := s.entry 2 p
def State.laneEntry (s : State) (l : Nat) : Nat := s.entry 3 l

/-- The lanes of a port at a width: `2 ^ w` lanes from its first. -/
def lanesOf (p w : Nat) : List Nat := (List.range (2 ^ w)).map fun k => p + k

/-- The configured lanes of a port. -/
def State.confLanes (s : State) (p : Nat) : List Nat := lanesOf p (peWidth (s.portEntry p))

/-- The port that a lane belongs to: the one with EN whose lanes hold it. -/
def State.portOfLane (s : State) (l : Nat) : Option Nat :=
  (List.range 72).find? fun p => peEn (s.portEntry p) && (s.confLanes p).contains l

/-- The effective replay timeout of a port, in ticks (R312). -/
def State.replayTicks (s : State) (p : Nat) : Nat :=
  max (1000 * s.rd .LL_TIMERS_REPLAY_TO) (4 * s.rd .LL_PORT_LINK_RTT p + us 1)

/-! ## Lane training (R333 to R339) -/

/-- A lane beside its registers. -/
def State.lane (s : State) (l : Nat) : Lane := (s.lanes.look l).getD {}

/-- Change a lane. -/
def State.updLane (s : State) (l : Nat) (f : Lane → Lane) : State := { s with lanes := s.lanes.put l (f (s.lane l)) }

/-- The tap fields of a lane, PRE3 to POST2. -/
def tapFlds : List Fld :=
  [.LN_LANE_TAPS_PRE3, .LN_LANE_TAPS_PRE2, .LN_LANE_TAPS_PRE1, .LN_LANE_TAPS_MAIN, .LN_LANE_TAPS_POST1, .LN_LANE_TAPS_POST2]

/-- The coefficients in use on a lane: MAIN is 0 to 128, the others are signed. -/
def State.taps (s : State) (l : Nat) : List Int :=
  tapFlds.map fun f => if f = .LN_LANE_TAPS_MAIN then (s.rd f l : Int) else signedOf 8 (s.rd f l)

/-- Set the coefficients of a lane. -/
def State.setTaps (s : State) (l : Nat) (ts : List Int) : State :=
  s.wrAll l ((tapFlds.zip ts).map fun x => (x.1, wrapInt 8 x.2))

/-- The presets (R336). -/
def presets : List (List Int) :=
  [[0, 0, 0, 128, 0, 0], [0, 0, -12, 116, 0, 0], [0, 4, -20, 104, 0, 0], [0, 4, -24, 92, -8, 0],
   [0, 0, -16, 104, -8, 0], [-2, 6, -28, 84, -8, 0], [0, 0, 0, 112, -16, 0], [-4, 8, -32, 76, -8, 0]]

/-- The range of each tap (R336). -/
def tapRange : List (Int × Int) := [(-8, 8), (-16, 16), (-40, 0), (64, 128), (-32, 0), (-8, 8)]

/-- Apply a STEP to a set (R336): the RESULT and the set afterwards. -/
def stepTap (ts : List Int) (tap : Nat) (down : Bool) : Nat × List Int :=
  if tap = 3 ∨ 5 < tap then (2, ts)
  else
    let v := (ts[tap]?).getD 0
    let v' := if down then v - 1 else v + 1
    let r := (tapRange[tap]?).getD (0, 0)
    let main := (ts[3]?).getD 0
    let main' := main - (v'.natAbs : Int) + (v.natAbs : Int)
    if v' < r.1 ∨ r.2 < v' then (1, ts)
    else if main' < 64 ∨ 128 < main' then (2, ts)
    else (0, (ts.set tap v').set 3 main')

/-- The frame that a lane sends now (R334, R335). -/
def State.laneFrame (s : State) (l : Nat) : TrainFrame :=
  let x := s.lane l
  let r := x.req.getD ⟨0, 0, false, 0⟩
  let p := (s.portOfLane l).getD l
  let ok := (s.confLanes p).foldl (fun n k => if (s.lane k).rxReady then n + 2 ^ (k - p) else n) 0
  { cmd := r.cmd, tap := r.tap, dir := r.dir, preset := r.preset, rxReady := x.rxReady, seq := x.seq, echo := x.echo,
    result := x.result, lock := s.flag .LN_LANE_STATUS_CDR_LOCK l, trained := x.sendTrained, lane := l - p, laneOk := ok }

/-- Send a lane's present frame. -/
def State.sendFrame (s : State) (l : Nat) : State := s.emit (.frame l (TrainFrame.word (s.laneFrame l)))

/-- Make a request to the far transmitter of a lane, repeated every 10 microseconds until it is echoed (R337). -/
def State.laneRequest (s : State) (l : Nat) (r : LaneReq) : State :=
  ((s.updLane l fun x => { x with seq := (x.seq + 1) % 16, req := some r }).armIn (.laneReq l) (us 10)).sendFrame l

/-- Start full training of a lane from its PRESET (R338). -/
def State.laneFull (s : State) (l : Nat) : State :=
  let s := s.setTaps l ((presets[lePreset (s.laneEntry l)]?).getD [])
  let s := s.updLane l fun x => { x with
    training := true, fast := false, rxReady := false, sendTrained := false, req := none, laneOk := 0, start := s.now }
  let s := (((s.wr .LN_LANE_STATUS_TRAINED l 0).disarm (.fastPath l)).disarm (.laneReq l)).armIn (.fullTrain l) (ms 2)
  s.sendFrame l

/-- Start a lane on the fast path (R338): KEEP. -/
def State.laneFast (s : State) (l : Nat) : State :=
  let s := s.updLane l fun x => { x with
    training := true, fast := true, rxReady := false, sendTrained := false, laneOk := 0, start := s.now }
  let s := ((s.wr .LN_LANE_STATUS_TRAINED l 0).disarm (.fullTrain l)).armIn (.fastPath l) (us 40)
  s.laneRequest l ⟨3, 0, false, 0⟩

/-- Train a lane for a port at a rate: fast where it holds a stored set for the rate and no full training is asked for. -/
def State.laneTrain (s : State) (l place rate : Nat) (full : Bool) : State :=
  let s := s.wrAll l [(.LN_LANE_STATUS_RATE, rate), (.LN_LANE_STATUS_PORT_LANE, place), (.LN_LANE_STATUS_PSTATE, 0),
    (.LN_LANE_STATUS_LOOP, 0), (.LN_LANE_STATUS_LOCK, 0)]
  if full || ((s.lane l).stored.look rate).isNone then s.laneFull l else s.laneFast l

/-- Stop training a lane. -/
def State.laneStop (s : State) (l : Nat) : State :=
  (((s.updLane l fun x => { x with training := false, req := none }).disarm (.fastPath l)).disarm (.fullTrain l)).disarm (.laneReq l)

/-- Train the lanes of a list that are not FAILED. -/
def State.trainLanes (s : State) (p rate : Nat) (full : Nat → Bool) (ls : List Nat) : State :=
  ls.foldl (fun s l => if s.flag .LN_LANE_STATUS_FAILED l then s else s.laneTrain l (l - p) rate (full l)) s

/-- The aligned groups of width `w` of a port's configured lanes, lowest first. -/
def State.groups (s : State) (p w : Nat) : List (List Nat) :=
  (List.range (2 ^ (peWidth (s.portEntry p) - w))).map fun k => (List.range (2 ^ w)).map fun i => p + k * 2 ^ w + i

/-- Whether every lane of a group has finished training. -/
def State.groupTrained (s : State) (g : List Nat) : Bool := g.all fun l => s.flag .LN_LANE_STATUS_TRAINED l && !(s.lane l).training

/-- Whether a lane of a port has RX_READY in both directions (R335, R347). -/
def State.laneReady (s : State) (p l : Nat) : Bool :=
  let x := s.lane l
  (s.flag .LN_LANE_STATUS_TRAINED l && !x.training) || (x.training && x.rxReady && bitOf x.laneOk (l - p))

/-- Lane training of a port is finished (R338, R347): the lowest group of the agreed width with RX_READY in both directions is in use once each of
its lanes has finished, and HELLO follows. -/
def State.lanesDone (s : State) (p : Nat) : State :=
  let k := s.link p
  if k.helloDue || k.helloSent || !(decide (s.portState p = psTraining) || decide (s.portState p = psHold) || decide (s.portState p = psRetrain))
  then s
  else
    match (s.groups p k.goal.1).find? fun g => g.all fun l => s.laneReady p l with
    | none => s
    | some g =>
      if !s.groupTrained g then s
      else
      let s := s.wrAll p [(.LL_PORT_STATE_WIDTH, k.goal.1), (.LL_PORT_STATE_RATE, k.goal.2)]
      let s := g.zipIdx.foldl (fun s x => s.wr .LN_LANE_STATUS_PORT_LANE x.1 x.2) s
      s.updLink p fun k => { k with group := g, helloDue := true, half := none, cwIn := none }

/-! ## Sending flits (R307, R312, R316, R317) -/

/-- CONG: the classes of which a packet from this port was marked within the last microsecond (R282). -/
def State.congBits (s : State) (p : Nat) : Nat :=
  (List.range 4).foldl (fun n k =>
    match s.marked.look (p, k) with
    | some t => if s.now ≤ t + us 1 then n + 2 ^ k else n
    | none => n) 0

/-- A flit goes out: the second of two closes a codeword, which travels on the lane whose index is its count modulo the width (R303, R304). -/
def State.putFlit (s : State) (p : Nat) (f : Flit) : State :=
  let k := s.link p
  match k.half with
  | none => s.updLink p fun k => { k with half := some (Flit.word f) }
  | some a =>
    let i := k.cwOut % max 1 k.group.length
    (s.updLink p fun k => { k with half := none, cwOut := k.cwOut + 1 }).emit
      (.codeword (k.group.getD i p) (codeword a (Flit.word f) (k.cwOut % 256) i))

/-- Send a flit: its acknowledgement, credit and congestion fields carry the present values. -/
def State.sendFlit (s : State) (p fseq : Nat) (pay : FlitPay) : State :=
  let k := s.link p
  let f : Flit := {
    fseq := fseq, ackSeq := s.rd .LL_PORT_STATE_RX_EXP p, nack := k.nackDue, cvc := k.cvc,
    ccount := (k.freedU.look k.cvc).getD 0, cong := s.congBits p, pay := pay }
  let s := (s.updLink p fun k => { k with nackDue := false, cvc := (k.cvc + 1) % 8 }).putFlit p f
  if k.nackDue then s.armIn (.nackRepeat p) (s.replayTicks p) else s

/-- Send an unsequenced flit: FSEQ names the next sequenced flit. -/
def State.sendUnseq (s : State) (p : Nat) (pay : FlitPay) : State := s.sendFlit p (s.rd .LL_PORT_STATE_TX_SEQ p) pay

/-- Send a new sequenced flit: it joins the replay buffer. -/
def State.sendSeq (s : State) (p : Nat) (pay : FlitPay) : State :=
  let n := s.rd .LL_PORT_STATE_TX_SEQ p
  let f : Flit := ⟨n, 0, false, 0, 0, 0, pay⟩
  let first := (s.link p).replay.isEmpty
  let s := (s.sendFlit p n pay).wr .LL_PORT_STATE_TX_SEQ p (n + 1)
  let s := s.updLink p fun k => { k with replay := k.replay ++ [f] }
  if first then s.armIn (.replay p) (s.replayTicks p) else s

/-- The HELLO of a port (R320). -/
def State.helloOf (s : State) (p : Nat) : Hello :=
  let k := s.link p
  let held (v : Nat) : Nat := (s.transit.cells.map fun t =>
    if t.2.inPort = p ∧ t.2.inVc = v then pktUnits t.2.pkt - t.2.freed else 0).foldl (· + ·) 0
  { serial := s.rd .GLB_SERIAL_SERIAL, port := p, width := s.rd .LL_PORT_STATE_WIDTH p, rate := s.rd .LL_PORT_STATE_RATE p,
    init := k.init, hold := k.held, epoch := s.rd .LL_PORT_LINK_EPOCH p, txSeq := s.rd .LL_PORT_STATE_TX_SEQ p,
    rxExp := s.rd .LL_PORT_STATE_RX_EXP p, ded := k.ded,
    held := (List.range 8).map fun v => if k.init then held v else 0 }

/-- The TIME flit of a port (R351). -/
def State.timeFlit (s : State) (p : Nat) : TimeFlit :=
  let v := s.servo
  let got := (v.got.look p).getD (0, 0)
  let st := s.rd .MT_STATUS_STATE
  let gm := if v.self then (if v.ext then 0 else s.rd .MT_CFG_PRIO, s.rd .GLB_SERIAL_SERIAL) else (v.gmPrio, v.gmSerial)
  { tTx := s.now, tRxLast := got.1, tTxLast := got.2, gmSerial := gm.2, gmPrio := gm.1,
    depth := if v.self then 0 else s.rd .MT_STATUS_DEPTH, locked := decide (st = 1 ∨ 3 ≤ st), holdover := decide (st = 2),
    ext := v.ext }

/-- What a DATA flit takes: the segments at which packets start, those in which packets end, the bytes. -/
structure Filled where
  starts : List Nat := []
  ends : List Nat := []
  bytes : List Byte := []
  deriving DecidableEq, Repr

/-- The segments of started packets that fit in one DATA flit, from segment `at'` on. -/
def State.fillFlit (s : State) (p v : Nat) : List Nat → Nat → State × Filled
  | [], _ => (s, {})
  | id :: r, at' =>
    match s.transit.look id with
    | none => State.fillFlit s p v r at'
    | some t =>
      match t.leg p with
      | none => State.fillFlit s p v r at'
      | some l =>
        let total := t.total
        let n := min (19 - at') (total - l.sent)
        if n = 0 ∨ t.segs < l.sent + n then (s, {})
        else
          let start := if l.sent = 0 then [at'] else []
          let bytes := ((t.legBytes l).drop (16 * l.sent)).take (16 * n)
          let s := if l.sent = 0 then
              (s.count (posUnit p) 2 t.pkt.cls).count (posUnit p) 4 t.pkt.cls (pktUnits t.pkt)
            else s
          let s := (s.updLeg id p fun l => { l with sent := l.sent + n }).settleTransit id
          if l.sent + n = total then
            let s := s.endLeg id l
            match State.fillFlit s p v r (at' + n) with
            | (s, x) => (s, ⟨start ++ x.starts, (at' + n - 1) :: x.ends, bytes ++ x.bytes⟩)
          else (s, ⟨start, [], bytes⟩)

/-- Send a DATA flit of the first VC that has one ready, in the order of R317; none where no VC has. -/
def State.sendData (s : State) (p : Nat) : List Nat → Option State
  | [] => none
  | v :: r =>
    let k := s.link p
    if k.aborts.contains v then
      some (((s.updLink p fun k => { k with aborts := k.aborts.erase v }).count (posUnit p) 0x0C).sendSeq p (.data v true 0 0 []))
    else
      match s.fillFlit p v (s.sendQ p v) 0 with
      | (s', x) =>
        if x.bytes.isEmpty then State.sendData s p r else some (s'.sendSeq p (.data v false (segMask x.starts) (segMask x.ends) x.bytes))

/-- The VCs in the order in which a port serves them (R317). -/
def vcOrder : List Nat := [7, 6, 3, 2, 5, 4, 1, 0]

/-- Whether a TIME flit is due (R317). -/
def State.timeDue (s : State) (p : Nat) : Bool :=
  match s.servo.sent.look p with
  | some t => decide (t + us 10 ≤ s.now)
  | none => true

/-- Send the flit of one flit boundary (R317). -/
def State.transmit (s : State) (p : Nat) : State :=
  let k := s.link p
  let st := s.portState p
  match k.trainDue with
  | some t =>
    if st = psUp then
      let s := (s.updLink p fun k => { k with trainDue := none }).sendUnseq p (.train t)
      s.armIn (.trainReq p) (us 1)
    else s
  | none =>
    if k.helloDue then
      let s := s.sendUnseq p (.hello (s.helloOf p))
      let s := s.updLink p fun k => { k with helloDue := false, helloSent := true }
      if st = psUp then s.updLink p fun k => { k with init := false } else s.armIn (.hello p) (us 1)
    else if st ≠ psUp then s
    else if s.timeDue p then
      ({ s with servo := { s.servo with sent := s.servo.sent.put p s.now } }).sendUnseq p (.time (s.timeFlit p))
    else
      match k.resend with
      | f :: r =>
        let s := (s.updLink p fun k => { k with resend := r }).sendFlit p f.fseq f.pay
        if f.fseq = s.rd .LL_PORT_STATE_ACKED p then s.armIn (.replay p) (s.replayTicks p) else s
      | [] =>
        let full := decide (256 ≤ k.replay.length)
        match k.notices with
        | n :: r => if full then s.sendUnseq p (.credit ((List.range 8).map fun v => (k.freedU.look v).getD 0))
          else (s.updLink p fun k => { k with notices := r }).sendSeq p (.notice n)
        | [] =>
          match (if full then none else s.sendData p vcOrder) with
          | some s => s
          | none => s.sendUnseq p (.credit ((List.range 8).map fun v => (k.freedU.look v).getD 0))

/-! ## Packets cut short (R329) -/

/-- End a packet that will never be whole: an ABORT toward each output it has reached; its other copies are forgotten. -/
def State.abortTransit (s : State) (id : Nat) : State :=
  match s.transit.look id with
  | none => s
  | some t =>
    let s := t.legs.foldl (fun s l =>
      let v := vcNo t.pkt.cls l.chan
      let s := s.unqueue l.out v id
      if 72 ≤ l.out then s
      else if l.sent ≠ 0 then s.updLink l.out fun k => { k with aborts := k.aborts ++ [v] }
      else if l.started then
        s.updLink l.out fun k => { k with sentU := k.sentU.put v (((k.sentU.look v).getD 0 + (65536 - pktUnits t.pkt)) % 65536) }
      else s) s
    let more := pktUnits t.pkt - t.freed
    let s := if isNet t.inPort then
        s.updLink t.inPort fun k => { k with freedU := k.freedU.put t.inVc (((k.freedU.look t.inVc).getD 0 + more) % 65536) }
      else s
    { s with transit := s.transit.del id }

/-- Forget the copies that were started toward a port (R329 step 3). -/
def State.cutOutput (s : State) (p : Nat) : State :=
  (List.range 8).foldl (fun s v =>
    (s.sendQ p v).foldl (fun s id =>
      match (s.transit.look id).bind (·.leg p) with
      | some l => s.endLeg id l
      | none => s) s) s

/-! ## Notices (R301, R330) -/

/-- Queue a route notice of port `p` to every neighbour of its dimension. -/
def State.tellNeighbours (s : State) (p : Nat) (up : Bool) : State :=
  match s.dimOfPort p with
  | none => s
  | some (d, c) =>
    let n : Notice := ⟨d, coordOf s.nodeId d, c, up⟩
    (List.range 32).foldl (fun s i =>
      let e := s.coordEntry d i
      let q := cePort e
      if ceKind e = kindDirect ∧ q ≠ p ∧ s.portState q = psUp then s.updLink q fun k => { k with notices := k.notices ++ [n] }
      else s) s

/-- A port is down: its notice, once (R301). -/
def State.noticeDown (s : State) (p : Nat) : State :=
  if s.told.contains p || (s.dimOfPort p).isNone then s else { s.tellNeighbours p false with told := s.told ++ [p] }

/-- A port is up again: the second notice (R301). -/
def State.noticeUp (s : State) (p : Nat) : State :=
  if s.told.contains p then { s.tellNeighbours p true with told := s.told.erase p } else s

/-- The notices that a port is sent on a fresh start (R330). -/
def State.startNotices (s : State) (p : Nat) : List Notice :=
  match s.dimOfPort p with
  | none => []
  | some (d, _) => s.told.filterMap fun q =>
    match s.dimOfPort q with
    | some (e, c) => if e = d ∧ q ≠ p then some ⟨d, coordOf s.nodeId d, c, false⟩ else none
    | none => none

/-! ## Ports (R319 to R329) -/

/-- The timers of a port. -/
def TimerKey.ofPort (p : Nat) : TimerKey → Bool
  | .replay q => decide (q = p)
  | .nackRepeat q => decide (q = p)
  | .hello q => decide (q = p)
  | .hold q => decide (q = p)
  | .trainReq q => decide (q = p)
  | .retrain q => decide (q = p)
  | .drain q => decide (q = p)
  | _ => false

/-- A fresh start (R320): a new EPOCH, sequence numbers and credit counts 0, INIT; the port is in TRAINING. -/
def State.freshStart (s : State) (p : Nat) : State :=
  let s := s.disarmAll (TimerKey.ofPort p)
  let e := s.freeVal 32
  let s := s.freeNext.wrAll p [(.LL_PORT_LINK_EPOCH, e), (.LL_PORT_STATE_TX_SEQ, 0), (.LL_PORT_STATE_ACKED, 0),
    (.LL_PORT_STATE_RX_EXP, 0), (.LL_PORT_STATE_RFAIL, 0), (.LL_PORT_STATE_STATE, psTraining)]
  let old := s.link p
  let g := (peWidth (s.portEntry p), peRate (s.portEntry p))
  let k : Link := {
    init := true, ded := s.dedOf, notices := s.startNotices p, group := old.group, goal := g, cwOut := old.cwOut, half := old.half, cwIn := old.cwIn }
  { s with links := s.links.put p k }

/-- Start a port at TRAINING (R319, R338, R342): its lanes train, on the full path after a change of RATE, from the deep state, and where the
caller asks for it. -/
def State.startPort (s : State) (p : Nat) (full : Nat → Bool) : State :=
  let s := s.freshStart p
  let r := peRate (s.portEntry p)
  let anew (l : Nat) : Bool := full l || decide (s.rd .LN_LANE_STATUS_RATE l ≠ r ∨ s.rd .LN_LANE_STATUS_PSTATE l = 2)
  s.trainLanes p r anew (s.confLanes p)

/-- Flush a port (R329): the replay buffer goes, partly received packets are aborted, partly sent ones cut; the notices
that came through it are dropped (R330). -/
def State.flushPort (s : State) (p : Nat) : State :=
  let s := s.count (posUnit p) 0x0B
  let s := ((s.link p).opened.cells.map (·.2)).foldl (fun s id => s.abortTransit id) s
  let s := s.cutOutput p
  let s := { s with notices := s.notices.filter fun n => decide (n.1 ≠ p) }
  s.freshStart p

/-- Lanes of a port whose training has finished keep their set through a fresh start: HELLO is due at once. -/
def State.helloAgain (s : State) (p : Nat) : State :=
  if s.groupTrained (s.link p).group && !(s.link p).group.isEmpty then s.updLink p fun k => { k with helloDue := true } else s

/-- The DOWN_CAUSE values. -/
def dcLock : Nat := 1
def dcReplay : Nat := 2
def dcRetrain : Nat := 3
def dcPeer : Nat := 4
def dcDisabled : Nat := 5

/-- Declare a port down (R326, R327): HOLD for 2 ms, the training pattern, rerouting, notices, the record. -/
def State.declareDown (s : State) (p cause : Nat) : State :=
  let s := s.wrAll p [(.LL_PORT_STATE_STATE, psHold), (.LL_PORT_STATE_DOWN_CAUSE, cause)]
  let s := s.disarmAll (TimerKey.ofPort p)
  let s := (s.armIn (.hold p) (ms 2)).emit (.pattern p)
  let s := s.updLink p fun k => { k with
    lostAt := none, helloDue := false, helloSent := false, trainReq := none, trainDue := none, resend := [],
    replayOf := none, nackSent := false, nackDue := false, recal := none,
    goal := (s.rd .LL_PORT_STATE_WIDTH p, s.rd .LL_PORT_STATE_RATE p) }
  let s := (s.logRec 1 0x05 .linkDown p [cause]).reroute p false
  let s := s.noticeDown p
  let s := if s.rd .MT_STATUS_PARENT = p then s.arm .parent s.now else s
  s.trainLanes p (s.rd .LL_PORT_STATE_RATE p) (fun _ => false) (s.link p).group

/-- A port goes UP. Where it has not sent its HELLO yet, that goes out first, with INIT where this is a fresh start (R320). -/
def State.goUp (s : State) (p : Nat) : State :=
  let rtt := s.freeVal 12
  let s := (s.freeNext.disarm (.hold p)).disarm (.retrain p)
  let s := (s.disarm (.hello p)).wrAll p [(.LL_PORT_STATE_STATE, psUp), (.LL_PORT_LINK_RTT, rtt)]
  let s := s.updLink p fun k => { k with
    init := k.init && !k.helloSent, held := false, helloDue := !k.helloSent, helloSent := false, lostAt := none, congAt := 0, cong := 0 }
  let s := s.noticeUp p
  let s := { s with servo := { s.servo with ann := s.servo.ann.del p } }
  if (s.link p).replay.isEmpty then s else s.armIn (.replay p) (s.replayTicks p)

/-- Disable a port (R319, R472): flush without a hold. -/
def State.disablePort (s : State) (p : Nat) : State :=
  let was := s.portState p
  let s := s.reroute p false
  let s := if was = psDisabled then s else (s.flushPort p)
  let s := (s.disarmAll (TimerKey.ofPort p)).wrAll p [(.LL_PORT_STATE_STATE, psDisabled), (.LL_PORT_STATE_DOWN_CAUSE, dcDisabled)]
  let s := (s.link p).group.foldl (fun s l => s.laneStop l) s
  let s := (s.confLanes p).foldl (fun s l => s.laneStop l) s
  let s := s.updLink p fun k => { k with disabling := false, group := [] }
  let s := if was = psDisabled then s else s.noticeDown p
  if s.rd .MT_STATUS_PARENT = p then s.arm .parent s.now else s

/-- EN cleared (R319): new packets stop; the port drains for at most 100 microseconds. -/
def State.clearEn (s : State) (p : Nat) : State :=
  if s.portState p = psUp ∧ !(s.link p).replay.isEmpty then
    let s := s.updLink p fun k => { k with disabling := true }
    (s.reroute p false).armIn (.drain p) (us 100)
  else s.disablePort p

/-- Whether a HELLO names the partner that the port entry expects (R321). -/
def State.peerOk (s : State) (p serial port : Nat) : Bool :=
  let e := s.portEntry p
  !peCheck e || (decide (serial = peSerial e) && decide (port = pePeer e))

/-- Hold a port in TRAINING for a mismatched partner (R321): HELLO carries HOLD; one record. -/
def State.holdPeer (s : State) (p : Nat) : State :=
  if (s.link p).held then s
  else
    let s := (s.wr .LL_PORT_STATE_DOWN_CAUSE p dcPeer).logRec 1 0x05 .peerMismatch p [s.rd .LL_PORT_PEER_SERIAL p]
    s.updLink p fun k => { k with held := true, helloDue := true }

/-- Distance of 12-bit sequence numbers (R311). -/
def seqDist (a b : Nat) : Nat := (b + 4096 - a % 4096) % 4096

/-- Free the flits before ACKSEQ (R312). -/
def State.ackFlits (s : State) (p ack : Nat) : State :=
  let acked := s.rd .LL_PORT_STATE_ACKED p
  let n := seqDist acked ack
  if n = 0 then s
  else
    let s := s.wrAll p [(.LL_PORT_STATE_ACKED, ack), (.LL_PORT_STATE_RFAIL, 0)]
    let s := s.updLink p fun k => { k with
      replay := k.replay.drop n, resend := k.resend.filter fun f => decide (seqDist ack f.fseq < 256), replayOf := none }
    if (s.link p).replay.isEmpty then
      let s := s.disarm (.replay p)
      if (s.link p).disabling then s.disablePort p else s
    else s.armIn (.replay p) (s.replayTicks p)

/-- Start a replay from ACKED (R312, R314). -/
def State.startReplay (s : State) (p : Nat) : State :=
  let k := s.link p
  if k.replay.isEmpty then s
  else
    let failed := k.replayOf.isSome
    let s := if failed then s.incSat .LL_PORT_STATE_RFAIL p 1 else s
    if 8 ≤ s.rd .LL_PORT_STATE_RFAIL p then s.declareDown p dcReplay
    else
      let s := (s.count (posUnit p) 0x0A).updLink p fun k => { k with
        resend := k.replay, replayOf := some (s.rd .LL_PORT_STATE_ACKED p) }
      s.armIn (.replay p) (s.replayTicks p)

/-- The header fields of a good flit (R310, R312, R316). -/
def State.flitHeader (s : State) (p : Nat) (f : Flit) : State :=
  let s := s.updLink p fun k => { k with retU := k.retU.put f.cvc (f.ccount % 65536), cong := f.cong, congAt := s.now }
  let acked := s.rd .LL_PORT_STATE_ACKED p
  let tx := s.rd .LL_PORT_STATE_TX_SEQ p
  if seqDist acked tx < seqDist acked f.ackSeq then s
  else
    let s := s.ackFlits p f.ackSeq
    if f.nack && decide (s.portState p = psUp) then s.startReplay p else s

/-- A sequenced flit was lost (R313): NACK, once until the effective timeout. -/
def State.flitLost (s : State) (p : Nat) : State :=
  if (s.link p).nackSent then s else s.updLink p fun k => { k with nackSent := true, nackDue := true }

/-- The header of a TIME, TRAIN or HELLO flit: in a port that is UP, one whose FSEQ lies after RX_EXP says that a sequenced flit was lost
(R310, R313). -/
def State.unseqHeader (s : State) (p : Nat) (f : Flit) : State :=
  let s := s.flitHeader p f
  let d := seqDist (s.rd .LL_PORT_STATE_RX_EXP p) f.fseq
  if s.portState p = psUp ∧ 0 < d ∧ d < 2048 then s.flitLost p else s

/-- The next expected flit was accepted (R313). -/
def State.flitTaken (s : State) (p : Nat) : State :=
  let s := (s.wr .LL_PORT_STATE_RX_EXP p (s.rd .LL_PORT_STATE_RX_EXP p + 1)).disarm (.nackRepeat p)
  s.updLink p fun k => { k with nackSent := false, nackDue := false }

/-- Whether a packet that starts at a segment of a DATA flit is one of the flit's VC: its CLASS and its VC say so (R309). -/
def startFits (vc : Nat) (bs : List Byte) (g : Nat) : Bool :=
  let h := headOf ((bs.drop (16 * g)).take 16)
  decide (h.cls = vc / 2 ∧ h.vc = vc % 2)

/-- Whether the starts and ends of a DATA flit fit the packet open on its VC (R309). The first argument says that one is open. -/
def dataLayout (vc : Nat) (bs : List Byte) : Bool → Nat → List Nat → List Nat → Bool
  | true, at', ss, e :: es => decide (at' ≤ e) && dataLayout vc bs false (e + 1) ss es
  | true, _, ss, [] => ss.isEmpty
  | false, at', g :: ss, es =>
    decide (at' ≤ g) && startFits vc bs g
      && (match es with
          | e :: es => decide (g ≤ e) && dataLayout vc bs false (e + 1) ss es
          | [] => ss.isEmpty)
  | false, _, [], es => es.isEmpty
termination_by structural _ _ _ es => es

end Sys2Proof.Machine
end

