-- ==== Sys2Proof/Machine/LinkRx.lean ====
section
/-! DEFINITION. What a port does with the flits it receives (R308 to R313), the HELLO exchange (R320, R321, R328) and the
retrain exchange (R324, R325), lane training frames (R334 to R339). -/

namespace Sys2Proof.Machine

/-! ## DATA and NOTICE (R309) -/

/-- The units of a packet are counted in once the LENGTH of its header is in. -/
def State.countUnits (s : State) (p id : Nat) : State :=
  match s.transit.look id with
  | some t =>
    if t.counted || decide (t.segs < 2) then s
    else (s.updTransit id fun t => { t with counted := true }).count (posUnit p) 3 (t.inVc / 2) (pktUnits t.pkt)
  | none => s

/-- The packets that start in a DATA flit enter the input buffer. -/
def State.takeData (s : State) (p vc : Nat) (bs : List Byte) : List Nat → List Nat → State
  | [], _ => s
  | g :: ss, es =>
    let whole := !es.isEmpty
    let e := (es.head?).getD 18
    match s.enterCrossing p vc ((bs.drop (16 * g)).take (16 * (e + 1 - g))) whole with
    | (s, id) =>
      let s := s.count (posUnit p) 1 (vc / 2)
      let s := if whole then s else s.updLink p fun k => { k with opened := k.opened.put vc id }
      State.takeData (s.countUnits p id) p vc bs ss es.tail

/-- The open packet of a VC continues or ends in a flit. -/
def State.continueOpen (s : State) (p vc id : Nat) (bs : List Byte) (es : List Nat) : State :=
  match es.head? with
  | none => (s.updTransit id fun t => { t with raw := t.raw ++ bs }).countUnits p id
  | some e =>
    let s := (s.updTransit id fun t => { t with raw := t.raw ++ bs.take (16 * (e + 1)), whole := true }).countUnits p id
    let s := s.updLink p fun k => { k with opened := k.opened.del vc }
    (s.ejectWhole id).settleTransit id

/-- Deliver an accepted DATA flit. -/
def State.deliverData (s : State) (p vc : Nat) (abort : Bool) (starts ends : List Nat) (bs : List Byte) : State :=
  match (s.link p).opened.look vc with
  | some id =>
    if abort then (s.abortTransit id).updLink p fun k => { k with opened := k.opened.del vc }
    else (s.continueOpen p vc id bs ends).takeData p vc bs starts ends.tail
  | none => if abort then s else s.takeData p vc bs starts ends

/-- Whether the packets of a DATA flit fit the packet that is open on its VC (R309); a flit that will not be taken in sequence is not judged
by them. -/
def State.flitOk (s : State) (p : Nat) (f : Flit) : Bool :=
  match f.pay with
  | .data vc abort sop eop bs =>
    if abort then decide (sop = 0 ∧ eop = 0)
    else decide (seqDist (s.rd .LL_PORT_STATE_RX_EXP p) f.fseq ≠ 0)
      || dataLayout vc bs ((s.link p).opened.look vc).isSome 0 (segsSet sop) (segsSet eop)
  | _ => true

/-- A sequenced or CREDIT flit arrives at a port that is up (R310, R313). -/
def State.flitIn (s : State) (p : Nat) (f : Flit) : State :=
  if !s.flitOk p f then (s.count (posUnit p) 0x0D).flitLost p
  else
    let s := s.flitHeader p f
    let d := seqDist (s.rd .LL_PORT_STATE_RX_EXP p) f.fseq
    if flitSeq f.pay then
      if d = 0 then
        let s := s.flitTaken p
        match f.pay with
        | .data vc abort sop eop bs => s.deliverData p vc abort (segsSet sop) (segsSet eop) bs
        | .notice n => s.updLink p fun k => { k with noticesIn := k.noticesIn ++ [n] }
        | _ => s
      else if d < 2048 then s.flitLost p
      else s
    else
      let s := if 0 < d ∧ d < 2048 then s.flitLost p else s
      match f.pay with
      | .credit cs => s.updLink p fun k => { k with retU := ⟨cs.zipIdx.map fun c => (c.2, c.1 % 65536)⟩ }
      | _ => s

/-! ## Codewords (R303 to R306, R310) -/

/-- The place of a flit in the codewords of a port, twice CW_SEQ and 1 for a second flit; none where the codeword is not one that travels on
its lane (R304). -/
def State.cwPlace (s : State) (p : Nat) (c : CodeHalf) (m : Nat) : Option Nat :=
  let k := s.link p
  let seq := bitsOf m 5120 8
  let lane := bitsOf m 5128 2
  if k.group[lane]? = some c.lane ∧ seq % max 1 k.group.length = lane ∧ bitsOf m 5130 10 = 0 then some (2 * seq + bit01 c.second) else none

/-- What a port makes of a flit of a codeword: nothing, where its codeword is not the next in order of CW_SEQ (its turn has not come, or it is
over), else the place that follows, the symbols that were corrected, and the flit. An uncorrectable codeword stands where the next one is
expected, and fails the CRC of both its flits (R310). -/
def State.takeHalf (s : State) (p : Nat) (c : CodeHalf) : Option (Nat × Option Nat × FlitRes) :=
  let want := (s.link p).cwIn
  match rsDecode c.word with
  | none => if (s.link p).group.contains c.lane then want.map fun n => ((n + 1) % 512, none, .bad) else none
  | some (m, k) =>
    match s.cwPlace p c m with
    | none => none
    | some n =>
      if want.any fun w => decide (w ≠ n) then none
      else some ((n + 1) % 512, some k, decodeFlit (m / 2 ^ (2560 * bit01 c.second) % 2 ^ 2560))

/-- A port has taken a flit of a codeword: what the code corrected is counted with the first one (R350, R481). -/
def State.halfTaken (s : State) (p : Nat) (c : CodeHalf) (next : Nat) (fixed : Option Nat) : State :=
  let s := s.updLink p fun k => { k with cwIn := some next }
  if c.second then s
  else
    match fixed with
    | none => (s.count (posUnit p) 9).count (200 + c.lane / 4) 1 (c.lane % 4)
    | some 0 => s
    | some n => (s.incWrap .LN_LANE_SER_SYM_ERR c.lane n).count (200 + c.lane / 4) 2 (c.lane % 4) n

/-- Whether a port's link runs: the port is enabled and not DISABLED. -/
def State.linkRuns (s : State) (p : Nat) : Bool := s.portOn p && decide (s.portState p ≠ psDisabled)

/-- The types of flits that have a row of their own (R308). -/
def isCredit (y : FlitPay) : Bool := match y with | .credit _ => true | _ => false
def isHello (y : FlitPay) : Bool := match y with | .hello _ => true | _ => false
def isTrain (y : FlitPay) : Bool := match y with | .train _ => true | _ => false
def isTime (y : FlitPay) : Bool := match y with | .time _ => true | _ => false

/-- Take a flit of a codeword where it is one that a test accepts. -/
def State.onFlit (s : State) (p : Nat) (c : CodeHalf) (ok : Flit → Bool) (run : State → Flit → State) : State :=
  match s.takeHalf p c with
  | some (next, fixed, .ok f) => if ok f then run (s.halfTaken p c next fixed) f else s
  | _ => s

/-- Take a flit of a codeword that cannot be read: its CRC fails, or it is malformed (R308, R310, R313). -/
def State.onBadFlit (s : State) (p : Nat) (c : CodeHalf) : State :=
  let lost (s : State) (ev : Nat) : State :=
    let s := s.count (posUnit p) ev
    if s.portState p = psUp then s.flitLost p else s
  match s.takeHalf p c with
  | some (next, fixed, .bad) => lost (s.halfTaken p c next fixed) 8
  | some (next, fixed, .malformed) => lost (s.halfTaken p c next fixed) 0x0D
  | _ => s

/-! ## HELLO (R320, R321, R328, R329) -/

/-- Take the credit counts of a partner that sent INIT (R320). -/
def State.takeHeld (s : State) (p : Nat) (h : Hello) : State :=
  s.updLink p fun k => { k with
    sentU := ⟨h.held.zipIdx.map fun u => (u.2, u.1 % 65536)⟩, retU := {}, peerDed := h.ded, peerEpoch := h.epoch }

/-- A HELLO in TRAINING: the peer check, then UP once the partner sends INIT without HOLD. -/
def State.helloTraining (s : State) (p : Nat) (h : Hello) : State :=
  if !s.peerOk p h.serial h.port then s.holdPeer p
  else
    let s := if (s.link p).held then s.updLink p fun k => { k with held := false, helloDue := true, helloSent := false } else s
    if h.hold || !h.init then s
    else (s.takeHeld p h).goUp p

/-- A HELLO that ends a hold or a retrain without a flush (R324, R328): each end replays from the partner's RX_EXP. -/
def State.helloResume (s : State) (p : Nat) (h : Hello) : State :=
  let s := s.ackFlits p h.rxExp
  let s := s.updLink p fun k => { k with resend := k.replay, replayOf := none, nackSent := false, nackDue := false, peerDed := h.ded }
  s.goUp p

/-- Whether a HELLO lets a port resume (R328). -/
def State.helloFits (s : State) (p : Nat) (h : Hello) (serial port : Nat) : Bool :=
  let acked := s.rd .LL_PORT_STATE_ACKED p
  let tx := s.rd .LL_PORT_STATE_TX_SEQ p
  let rx := s.rd .LL_PORT_STATE_RX_EXP p
  decide (h.serial = serial ∧ h.port = port ∧ h.epoch = (s.link p).peerEpoch) && !h.init && !h.hold
    && decide (seqDist acked h.rxExp ≤ seqDist acked tx) && decide (seqDist rx h.txSeq ≤ 256)

/-- Flush, and exchange HELLO anew with the partner whose HELLO arrived (R329). -/
def State.helloFlush (s : State) (p : Nat) (h : Hello) : State :=
  let down := decide (s.portState p = psUp)
  let s := if down then (s.reroute p false).noticeDown p else s
  ((s.flushPort p).helloAgain p).helloTraining p h

/-- A HELLO arrives at a port. -/
def State.helloIn (s : State) (p : Nat) (h : Hello) : State :=
  let serial := s.rd .LL_PORT_PEER_SERIAL p
  let port := s.rd .LL_PORT_LINK_PEER_PORT p
  let st := s.portState p
  if st = psDisabled then s
  else
    let s := s.wrAll p [(.LL_PORT_PEER_SERIAL, h.serial), (.LL_PORT_LINK_PEER_PORT, h.port)]
    if st = psTraining then s.helloTraining p h
    else if st = psHold then
      if s.helloFits p h serial port && s.peerOk p h.serial h.port then s.helloResume p h else s.helloFlush p h
    else if st = psRetrain then
      if h.init || h.hold || decide (h.epoch ≠ (s.link p).peerEpoch) || !s.peerOk p h.serial h.port then s.helloFlush p h
      else if !(s.link p).helloDue && !(s.link p).helloSent then s
      else s.helloResume p h
    else if h.hold || (h.init && decide (h.epoch ≠ (s.link p).peerEpoch)) then s.helloFlush p h
    else s

/-! ## Retrain (R323 to R325, R346, R347, R349) -/

/-- Ask for a retrain (R324 step 1). -/
def State.askRetrain (s : State) (p w r reason : Nat) : State :=
  let t : Train := ⟨false, w, r, reason, s.rd .GLB_SERIAL_SERIAL, p⟩
  s.updLink p fun k => { k with trainReq := some t, trainDue := some t }

/-- Whether a lane's recalibration is due (R345): its hours have passed, or its threshold is set and the monitor says that
SNR stayed below it for a second, which the event itself reports. -/
def State.recalDue (s : State) (l : Nat) : Bool :=
  let e := s.laneEntry l
  (decide (leHours e ≠ 0) && decide ((s.lane l).lastFull + leHours e * sec 3600 ≤ s.now)) || decide (leSnr e ≠ 0)

/-- Request the recalibration of a lane of an UP port, or defer it (R345, R346). -/
def State.recalAsk (s : State) (l : Nat) : State :=
  match s.portOfLane l with
  | none => s
  | some p =>
    let w := s.rd .LL_PORT_STATE_WIDTH p
    let r := s.rd .LL_PORT_STATE_RATE p
    if !s.recalDue l || decide (s.portState p ≠ psUp) || !(s.link p).group.contains l || (s.link p).trainReq.isSome
        || (s.link p).recal.isSome || (s.confLanes p).any (fun k => s.flag .LN_LANE_STATUS_FAILED k) then s
    else if s.rd .LL_TIMERS_RETRAIN_LIMIT < 2000 then
      if (s.lane l).deferred then s
      else (s.logRec 1 0x05 .laneFailed l [s.rd .LL_TIMERS_RETRAIN_LIMIT]).updLane l fun x => { x with deferred := true }
    else
      let s := s.updLane l fun x => { x with deferred := false, lastFull := s.now }
      if w = 0 then s.askRetrain p 0 r 2
      else (s.updLink p fun k => { k with recal := some (l, 1) }).askRetrain p (w - 1) r 2

/-- The width that a retrain can reach: the agreed one where some aligned group of it has no FAILED lane, else narrower. -/
def State.reachWidth (s : State) (p : Nat) : Nat → Nat
  | 0 => 0
  | w + 1 =>
    if (s.groups p (w + 1)).any fun g => g.all fun l => !s.flag .LN_LANE_STATUS_FAILED l then w + 1 else State.reachWidth s p w

/-- Enter RETRAIN (R324 steps 2 to 4): the router excludes the port, the lanes train. `skip` lists the lanes of a half that
recalibrates (R346). -/
def State.enterRetrain (s : State) (p w r reason : Nat) : State :=
  let full := decide (r ≠ s.rd .LL_PORT_STATE_RATE p)
  let skip : List Nat := match (s.link p).recal with
    | some (l, 1) => (((s.groups p w).find? fun g => g.contains l).getD [])
    | _ => []
  let repaired (l : Nat) : Bool := decide (reason = 3) && decide (s.rd .LN_LANE_STATUS_PSTATE l ≠ 0)
  let allFull := full || (decide (reason = 2) && decide (peWidth (s.portEntry p) = 0))
  let ls := (s.confLanes p).filter fun l => !skip.contains l
  let s := (s.wr .LL_PORT_STATE_STATE p psRetrain).disarmAll (TimerKey.ofPort p)
  let s := s.armIn (.retrain p) (us (s.rd .LL_TIMERS_RETRAIN_LIMIT))
  let s := s.updLink p fun k => { k with
    trainReq := none, trainDue := none, reason := reason, goal := (s.reachWidth p (min w (peWidth (s.portEntry p))), r),
    lostAt := none, helloDue := false, helloSent := false, init := false, resend := [], replayOf := none, nackSent := false, nackDue := false,
    ded := if s.transit.cells.any (fun t => decide (t.2.inPort = p)) then k.ded else s.dedOf }
  let s := skip.foldl (fun s l => (s.laneStop l).wr .LN_LANE_STATUS_TRAINED l 0) (s.reroute p true)
  s.trainLanes p r (fun l => allFull || repaired l) ls

/-- A TRAIN flit arrives (R324, R325). -/
def State.trainIn (s : State) (p : Nat) (t : Train) : State :=
  if s.portState p ≠ psUp then s
  else
    match (s.link p).trainReq with
    | none =>
      if t.ack then s
      else
        let a : Train := ⟨true, t.width, t.rate, t.reason, s.rd .GLB_SERIAL_SERIAL, p⟩
        (s.sendUnseq p (.train a)).enterRetrain p t.width t.rate t.reason
    | some m =>
      if t.ack then s.enterRetrain p m.width m.rate m.reason
      else
        let mine := decide (m.serial < t.serial) || (decide (m.serial = t.serial) && decide (m.port < t.port))
        if mine then s.enterRetrain p m.width m.rate m.reason
        else (s.updLink p fun k => { k with recal := none }).enterRetrain p t.width t.rate t.reason

/-! ## Lane training frames (R337, R338) -/

/-- Apply the partner's request to this end's transmitter (R334, R337). -/
def State.laneApply (s : State) (l : Nat) (f : TrainFrame) : State :=
  let x := s.lane l
  if f.cmd = 0 ∨ f.seq = x.echo then s
  else
    let done (s : State) (r : Nat) : State := s.updLane l fun x => { x with echo := f.seq, result := r }
    if f.cmd = 1 then
      match stepTap (s.taps l) f.tap f.dir with
      | (r, ts) => done (s.setTaps l ts) r
    else if f.cmd = 2 then done (s.setTaps l ((presets[f.preset]?).getD (s.taps l))) 0
    else
      match x.stored.look (s.rd .LN_LANE_STATUS_RATE l) with
      | some ts => done (s.setTaps l ts) 0
      | none => done s 3

/-- The receiver's next move, which its adaptation alone knows: a free value says whether it is ready, or which tap it asks
to step (R338). -/
def State.laneAdapt (s : State) (l : Nat) : State :=
  let x := s.lane l
  if x.rxReady || x.req.isSome then s
  else
    let v := s.freeVal 5
    let s := s.freeNext
    if bitOf v 0 then s.updLane l fun x => { x with rxReady := true }
    else if x.fast then s
    else s.laneRequest l ⟨1, bitsOf v 1 3 % 6, bitOf v 4, 0⟩

/-- A lane has finished training: 8 further frames, then codewords; its set is stored for its rate (R338). -/
def State.laneFinish (s : State) (l : Nat) : State :=
  let s := (List.range 8).foldl (fun s _ => s.sendFrame l) s
  let x := s.lane l
  let rate := s.rd .LN_LANE_STATUS_RATE l
  let ts := s.taps l
  let s := s.updLane l fun y => { y with
    training := false, stored := y.stored.put rate ts, lastFull := if x.fast then y.lastFull else s.now }
  let s := ((s.disarm (.fastPath l)).disarm (.fullTrain l)).disarm (.laneReq l)
  let s := s.wrAll l [(.LN_LANE_STATUS_TRAINED, 1), (.LN_LANE_STATUS_TRAIN_TIME, min 255 ((s.now - x.start) / us 10)),
    (.LN_LANE_STATUS_ATTEMPTS, 0)]
  match s.portOfLane l with
  | some p =>
    let s := s.lanesDone p
    match (s.link p).recal with
    | some (k, 2) =>
      -- R346 step 3: the recalibrated half has trained
      if s.portState p = psUp && (s.confLanes p).all fun i => s.flag .LN_LANE_STATUS_TRAINED i then
        (s.updLink p fun y => { y with recal := some (k, 3) }).askRetrain p (peWidth (s.portEntry p)) (s.rd .LL_PORT_STATE_RATE p) 3
      else s
    | _ => s
  | none => s

/-- A training frame arrives on a lane that trains. -/
def State.frameIn (s : State) (l : Nat) (f : TrainFrame) : State :=
  if !(s.lane l).training then s
  else
    let s := (s.wr .LN_LANE_STATUS_CDR_LOCK l 1).updLane l fun x => { x with laneOk := f.laneOk }
    let s := s.laneApply l f
    let x := s.lane l
    let answered := x.req.isSome && decide (f.echo = x.seq)
    let keep := answered && decide ((x.req.getD ⟨0, 0, false, 0⟩).cmd = 3)
    let s := if answered then (s.updLane l fun x => { x with req := none }).disarm (.laneReq l) else s
    if x.fast && ((keep && decide (f.result = 3)) || decide ((s.lane l).result = 3)) then s.laneFull l
    else
      let s := s.laneAdapt l
      let s := if (s.lane l).rxReady && f.rxReady then s.updLane l fun x => { x with sendTrained := true } else s
      let s := s.sendFrame l
      if (s.lane l).sendTrained && f.trained && f.rxReady then s.laneFinish l else s

/-- A port that came UP after the narrowing of a recalibration trains the other half (R346 step 2); after the widening the
recalibration is over. -/
def State.recalNext (s : State) (p : Nat) : State :=
  match (s.link p).recal with
  | some (l, 1) =>
    let half := (s.confLanes p).filter fun k => !(s.link p).group.contains k
    (s.updLink p fun k => { k with recal := some (l, 2) }).trainLanes p (s.rd .LL_PORT_STATE_RATE p) (fun _ => true) half
  | some (_, 3) => s.updLink p fun k => { k with recal := none }
  | _ => s

end Sys2Proof.Machine
end

