-- ==== Sys2Proof/Machine/TimeOps.lean ====
section
/-! DEFINITION. The shared operations of machine time (R351 to R361): the choice of a grandmaster and a parent, the servo,
whistle lines and their firings, TRIG outputs. -/

namespace Sys2Proof.Machine

/-- The counter unit of machine time. -/
def uTime : Nat := 262

/-- The states of MT_STATUS. -/
def mtUnlocked : Nat := 0
def mtLocked : Nat := 1
def mtHoldover : Nat := 2
def mtMaster : Nat := 3
def mtMasterExt : Nat := 4

/-! ## Grandmaster and parent (R351, R352, R356) -/

/-- Whether candidate (prio, serial) `a` ranks before `b` (R351). -/
def ranks (a b : Nat × Nat) : Bool := decide (a.1 < b.1) || (decide (a.1 = b.1) && decide (a.2 < b.2))

/-- This device's own candidate; none with PRIO 255 (R351, R352). -/
def State.ownCandidate (s : State) : Option (Nat × Nat) :=
  if s.servo.ext then some (0, s.rd .GLB_SERIAL_SERIAL)
  else if s.rd .MT_CFG_PRIO = 255 then none
  else some (s.rd .MT_CFG_PRIO, s.rd .GLB_SERIAL_SERIAL)

/-- What UP neighbours announce without HOLDOVER, as (port, announcement). PRIO 255 announces no candidate (R351). -/
def State.announced (s : State) : List (Nat × Announce) :=
  s.servo.ann.cells.filter fun a => decide (s.portState a.1 = psUp ∧ a.2.prio ≠ 255) && !a.2.holdover

/-- The best of candidates. -/
def bestCand : List (Nat × Nat) → Option (Nat × Nat)
  | [] => none
  | c :: r => match bestCand r with | none => some c | some d => some (if ranks d c then d else c)

/-- The parent port for a candidate: the lowest DEPTH, then the lowest port (R351). -/
def State.parentFor (s : State) (c : Nat × Nat) : Option (Nat × Announce) :=
  (s.announced.filter fun a => decide ((a.2.prio, a.2.serial) = c)).foldl (fun b a =>
    match b with
    | none => some a
    | some b => if a.2.depth < b.2.depth ∨ (a.2.depth = b.2.depth ∧ a.1 < b.1) then some a else some b) none

/-- Adopt a candidate: as grandmaster, or below a parent (R351). -/
def State.adoptCand (s : State) (c : Nat × Nat) (own : Bool) : State :=
  let v := s.servo
  let same := decide (v.gmPrio = c.1 ∧ v.gmSerial = c.2) && (v.self == own)
  if own then
    let s := s.wrAll 0 [(.MT_STATUS_STATE, if v.ext then mtMasterExt else mtMaster), (.MT_STATUS_DEPTH, 0),
      (.MT_STATUS_PARENT, 127), (.MT_STATUS_OFFSET, 0)]
    let s := (s.disarm .parent).disarm .holdover
    { s with servo := { s.servo with gmPrio := c.1, gmSerial := c.2, self := true, slew := 0, hold := 0, steady := 0 } }
  else
    match s.parentFor c with
    | none => s
    | some a =>
      let st := if same && decide (s.rd .MT_STATUS_STATE ≠ mtHoldover) then s.rd .MT_STATUS_STATE
        else if same && v.everLocked then mtLocked else mtUnlocked
      let s := if s.armed .parent && decide (s.rd .MT_STATUS_PARENT = a.1) then s else s.armIn .parent (us 30)
      let s := s.wrAll 0 [(.MT_STATUS_STATE, st), (.MT_STATUS_DEPTH, min 255 (a.2.depth + 1)), (.MT_STATUS_PARENT, a.1)]
      let s := s.disarm .holdover
      { s with servo := { s.servo with
          gmPrio := c.1, gmSerial := c.2, self := false, steady := if same then s.servo.steady else 0 } }

/-- Choose again under R351. In HOLDOVER the candidate stays unless one that ranks no lower is announced (R356). -/
def State.chooseTime (s : State) : State :=
  let cur := (s.servo.gmPrio, s.servo.gmSerial)
  let others := s.announced.map fun a => (a.2.prio, a.2.serial)
  let hold := decide (s.rd .MT_STATUS_STATE = mtHoldover)
  let own := if hold then none else s.ownCandidate
  let cands := (own.toList ++ others).filter fun c => !hold || !ranks cur c
  match bestCand cands with
  | none => s
  | some c => s.adoptCand c (decide (own = some c) && !others.any fun o => ranks o c)

/-- A device that has no candidate yet chooses one (R351). -/
def State.timeStart (s : State) : State :=
  if s.rd .MT_STATUS_STATE = mtUnlocked ∧ s.rd .MT_STATUS_PARENT = 127 then s.chooseTime else s

/-- MT_CFG was written: without EXT_EN the reference is dropped; the candidate may have changed (R351, R352). -/
def State.timeConfig (s : State) : State :=
  let s := if s.flag .MT_CFG_EXT_EN then s else State.disarm { s with servo := { s.servo with ext := false, pps := none } } .extRef
  s.chooseTime

/-- The parent is lost (R356): another neighbour with the same candidate, else HOLDOVER. -/
def State.loseParent (s : State) : State :=
  let v := s.servo
  let s := (s.disarm .parent)
  let s := { s with servo := { v with ann := v.ann.del (s.rd .MT_STATUS_PARENT) } }
  if (s.parentFor (v.gmPrio, v.gmSerial)).isSome then s.adoptCand (v.gmPrio, v.gmSerial) false
  else
    (s.wrAll 0 [(.MT_STATUS_STATE, mtHoldover), (.MT_STATUS_PARENT, 127)]).armIn .holdover (ms 1)

/-! ## The servo (R353, R354) -/

/-- Take an offset to the parent, in ticks (R354). -/
def State.takeOffset (s : State) (off : Int) : State :=
  let v := s.servo
  let sat := max (-32768) (min 32767 off)
  let s := s.wr .MT_STATUS_OFFSET 0 (wrapInt 16 sat)
  let steady := if off.natAbs ≤ 4 then v.steady + 1 else 0
  let lock := decide (100 ≤ steady)
  let s := { s with servo := { v with steady := steady, everLocked := v.everLocked || lock } }
  let s := if lock && decide (s.rd .MT_STATUS_STATE = mtUnlocked) then s.wr .MT_STATUS_STATE 0 mtLocked else s
  let jump (s : State) : State :=
    if 0 ≤ off then { s with now := s.now + off.toNat, servo := { s.servo with slew := 0, hold := 0 } }
    else { s with servo := { s.servo with slew := 0, hold := off.natAbs } }
  if !v.everLocked && !lock && !v.steppedOnce then jump { s with servo := { s.servo with steppedOnce := true } }
  else if off.natAbs ≤ 4000 then { s with servo := { s.servo with slew := off, hold := 0 } }
  else (((jump s).wr .MT_STATUS_STEPPED 0 1).logRec 2 0x0A .timeStep 0 [wrapInt 64 off]).raise 235

/-- A TIME flit from a neighbour (R351, R353). -/
def State.timeIn (s : State) (p : Nat) (t : TimeFlit) : State :=
  let v := s.servo
  let a : Announce := ⟨t.gmSerial, t.gmPrio, t.depth, t.holdover, t.ext⟩
  let s := { s with servo := { v with got := v.got.put p (s.now, t.tTx) } }
  if s.rd .MT_STATUS_PARENT = p ∧ v.sent.look p ≠ some t.tTxLast then s.count uTime 1
  else
    let s := { s with servo := { s.servo with ann := v.ann.put p a } }
    let s :=
      if s.rd .MT_STATUS_PARENT ≠ p then s
      else
        let off : Int := (((t.tRxLast : Int) - t.tTxLast) + ((t.tTx : Int) - s.now)) / 2
        ((s.armIn .parent (us 30)).takeOffset off)
    s.chooseTime

/-! ## Whistles (R358 to R360) and TRIG outputs (R361) -/

/-- The firings that a line holds. -/
def State.firingsOf (s : State) (line : Nat) : List Firing := (s.firings.look line).getD []

/-- Post the line event to the ferries that hold the job's image (the dispatch table). -/
def State.whistleEvents (s : State) (slot line t : Nat) : State :=
  forEach (fun s f =>
    let e := ((s.ferry f).lineEntry[line]?).getD 0
    if !s.servesJob f slot || decide (e = 0) || decide (s.jobState slot ≠ jobOpened) then s
    else if !s.dispatchRoom f then s.count f 3
    else s.pushEvent f ⟨.whistle, e, slot, s.rd .FX_JOBSEG_ASID f, [(1, line), (2, t)], []⟩) (List.range 64) s

/-- Complete the WHISTLEs with AT_FIRE that scheduled a firing (R360). -/
def State.whistleDone (s : State) (slot line t : Nat) : State :=
  forEach (fun s q =>
    forEach (fun s (e : Exec) =>
      match e.cmd with
      | .whistle c => if c.atFire ∧ c.line = line ∧ c.time = t then s.completeExec q e.index e.iter else s
      | _ => s) (s.q q).started s) (s.boundQueues (s.qOfJob slot)) s

/-- What a firing does for the owning job (R360). -/
def State.fireJob (s : State) (job line t : Nat) : State :=
  match s.slotOf job with
  | none => s
  | some j =>
    let s := s.addTally ((s.job j).whistleTally + line) 1
    ((s.collWhistle j line).whistleDone j line t).whistleEvents j line t

/-- Drive the TRIG outputs bound to a line (R360, R361). -/
def State.trigLine (s : State) (line : Nat) : State :=
  forEach (fun s k =>
    if s.rd .MT_TRIG_CFG_MODE k = 4 ∧ s.rd .MT_TRIG_CFG_LINE k = line then s.emit (.trig k (s.rd .MT_TRIG_CFG_WIDTH k)) else s)
    (List.range 4) s

/-- A line fires (R360). -/
def State.fireLine (s : State) (line : Nat) (x : Firing) (late : Bool) : State :=
  let s := (s.trigLine line).incSat .MT_LINE_FIRED line 1
  let s := s.count uTime 2 line
  let s := if late then (s.incOpen .MT_LINE_LATE line).count uTime 3 line else s
  match x.job with
  | some job => s.fireJob job line x.time
  | none => s

/-- Whether a line holds 16 pending firings and none that a schedule merges with (R359). -/
def State.lineFull (s : State) (line : Nat) (x : Firing) : Bool :=
  !(s.firingsOf line).contains x && decide (16 ≤ (s.firingsOf line).length)

/-- Fail the WHISTLEs with AT_FIRE whose schedule this device discarded (R359). -/
def State.whistleFail (s : State) (slot line t : Nat) : State :=
  forEach (fun s q =>
    forEach (fun s (e : Exec) =>
      match e.cmd with
      | .whistle c => if c.atFire ∧ c.line = line ∧ c.time = t then s.failExec q e.index e.iter 0x24 else s
      | _ => s) (s.q q).started s) (s.boundQueues (s.qOfJob slot)) s

/-- Take a schedule (R359): merge, fire at once where it is late, or hold it; false where 16 firings are pending. -/
def State.schedule (s : State) (line : Nat) (x : Firing) : State × Bool :=
  let fs := s.firingsOf line
  if fs.contains x then (s, true)
  else if x.time ≤ s.now then (s.fireLine line x true, true)
  else if 16 ≤ fs.length then
    ((s.incOpen .MT_LINE_OVERFLOW line).logRec 1 0x0A .whistle line [x.time], false)
  else ({ s with firings := s.firings.put line (fs ++ [x]) }.wr .MT_LINE_PENDING line (fs.length + 1), true)

/-- The positions below a position of a job's key tree of `n` members (R55). -/
def treeKids (n i : Nat) : List Nat := ((List.range 64).map fun k => 64 * i + 1 + k).filter fun k => decide (k < n)

/-- The positions that this device sends to in the key tree: its own children, and those of position 0 where it stands in
for the leader (R55, R63). -/
def Job.kids (b : Job) : List Nat :=
  let n := b.members.length
  let own := treeKids n b.pos
  if b.leaderPos = b.pos ∧ b.pos ≠ 0 then own ++ (treeKids n 0).filter fun k => decide (k ≠ b.pos) && !own.contains k else own

/-- The node at a position of a job's member list. -/
def Job.nodeAt (b : Job) (i : Nat) : Nat := ((b.members[i]?).getD (0, 0)).1

/-- The MG WHISTLE packets of a schedule toward a list of nodes (R358). -/
def State.sendWhistle (s : State) (w : Schedule) (nodes : List Nat) : State :=
  match (s.slotOf w.jobId).bind fun j => (s.job j).keyOf ((s.job j).gen % 4) with
  | none => s
  | some k =>
    let key := whistleKey k w.jobId s.nodeId
    s.emits (nodes.map fun n => .packet (Packet.mgTagged
      { ptype := 0x46, cls := 3, dest := n * 4096 + 0xFFF, src := s.nodeId * 4096 + 0xFFF, ts := s.now % 2 ^ 32, length := 32,
        body := .mg none true (2 ^ 31 + w.jobId) s.now [] (.whistle w) } key))

end Sys2Proof.Machine
end

