-- ==== Sys2Proof/Machine/LevelOps.lean ====
section
/-! DEFINITION. Machine time that moves, and the counters that count it: the level conditions of the counter units and what they add
(R478, R481). -/

namespace Sys2Proof.Machine

/-- The bytes of the resequencing store in use (R156): each packet with its header and tag. -/
def State.storeUsed (s : State) : Nat :=
  ((s.ctxs.cells ++ s.ghosts.cells).map fun c => (c.2.rcv.cells.map fun r =>
    if r.1 = 2 then 0 else (r.2.store.map fun p => 64 + p.length).foldl (· + ·) 0).foldl (· + ·) 0).foldl (· + ·) 0

/-- Whether the head of an output VC's queue waits for credits (R278, R315). -/
def State.headShort (s : State) (p v : Nat) : Bool :=
  match s.outQ p v with
  | [] => false
  | id :: _ => match s.transit.look id with | some t => !(s.link p).credit v (pktUnits t.pkt) | none => false

/-- Whether a packet of a class that entered at a crossbar position has a copy that has not started. -/
def State.headUngranted (s : State) (pos : Nat) (cls : Option Nat) : Bool :=
  s.transit.cells.any fun t =>
    decide (t.2.inPort = pos) && decide (cls.getD t.2.pkt.cls = t.2.pkt.cls) && t.2.legs.any fun l => !l.started

/-- Whether a data kind of a collective waits for a landing credit, with the huddle that serves it (R259). -/
def State.huddleWaits (s : State) (h : Nat) : Bool :=
  s.colls.cells.any fun c => c.2.pending.any fun e =>
    ckData e.2.1.kind && decide ((c.2.credits.look e.1).getD 0 = 0)
      && match c.2.inst e.2.1.inst with
        | some v => decide (s.huddleOf c.1 v.num (e.2.1.elem / segElems v.cmd) = h)
        | none => false

/-- Whether a presentation is held at a catcher (R223). -/
def State.catcherHolds (s : State) (k : Nat) : Bool :=
  s.tops.cells.any fun t => t.2.held && t.2.msg.isNone &&
    match t.2.blk, s.ctxs.look t.1.1 with
    | .send _ _ comm _ _ _ _, some x => decide (s.catcherOf ⟨x.slot, x.loc % 4096, comm⟩ = some k)
    | _, _ => false

/-- How many host requests that wait for a completion a host port has outstanding. -/
def State.nonPosted (s : State) (port : Nat) : Nat :=
  (s.xfers.cells.filter fun x => !x.2.write && (segFuncs x.2.segs).any fun f => decide (f / 256 % 2 = port)).length

/-- Whether a level condition of a counter unit holds (R481). -/
def State.levelHolds (s : State) (u ev sub : Nat) : Bool :=
  if u < 64 then decide (256 ≤ (s.ferry u).queue.length)
  else if u < 128 then false
  else if u < 200 then
    let p := u - 128
    if ev = 0x80 then s.headShort p sub
    else if ev = 0x81 then s.headUngranted p (some sub)
    else decide (s.portState p ≠ psUp)
  else if u < 218 then !s.flag .LN_LANE_STATUS_LOCK (4 * (u - 200) + sub)
  else if u < 222 then s.catcherHolds (u - 218)
  else if u < 230 then s.huddleWaits (u - 222)
  else if u = 230 then (if ev = 0x80 then !s.moored.isEmpty else decide (67108864 ≤ s.storeUsed))
  else if u = 231 then s.queues.cells.any fun q => decide (q.2.held = some .entry)
  else if u = 232 then !s.invals.isEmpty
  else if u = 233 then
    s.queues.cells.any fun q => decide (q.2.held = some .entry ∨ q.2.held = some .slots)
  else if u < 251 then
    s.locks.cells.any fun l => decide (lockGroup l.1 = u - 235) && l.2.owner.isSome && !l.2.waiters.isEmpty
  else if u < 259 then s.headUngranted (72 + (u - 251)) none
  else if u < 261 then decide (4096 ≤ s.nonPosted (u - 259))
  else if u = 262 then decide (s.rd .MT_STATUS_STATE = mtHoldover)
  else if 263 ≤ u then s.xfers.cells.any fun x => decide (x.2.mover = u - 263)
  else false

/-- The counters in level mode. -/
def State.levelCounters (s : State) : List Nat := (s.regs.cells.filter fun c => decide (c.1.1 = .EC_SEL_MODE ∧ c.2 = 2)).map (·.1.2)

/-- What the level counters add over a number of nanosecond boundaries (R478). -/
def State.countLevels (s : State) (n : Nat) : List Nat → State
  | [] => s
  | i :: r =>
    let on := s.unitOn (i / 4) && s.levelHolds (i / 4) (s.rd .EC_SEL_EVENT i) (s.rd .EC_SEL_SUB i)
    State.countLevels (if on then s.addCount i (4 * n) else s) n r

/-- Machine time moves on to `t`, if it is not there yet; level counters count the nanoseconds between (R478). -/
def State.setNow (s : State) (t : Nat) : State :=
  if t ≤ s.now then s else { s.countLevels (t / 4 - s.now / 4) s.levelCounters with now := t }

end Sys2Proof.Machine
end

