-- ==== Sys2Proof/Machine/FaultOps.lean ====
section
/-! DEFINITION. The fault collector (R465 to R474): assertions and their reactions, isolation of a unit, the fatal state; and
the end of every meaning, which hands the collector what the step has raised. -/

namespace Sys2Proof.Machine

/-- The reaction classes (R466). -/
def rcCorrected : Nat := 0
def rcDeferred : Nat := 1
def rcContained : Nat := 2
def rcFatal : Nat := 3

/-- Whether a source exists (R465). -/
def srcKnown (n : Nat) : Bool := decide (n < 250 ∨ (256 ≤ n ∧ n < 403))

/-- Whether a source names a unit that can be isolated: a ferry, catcher, huddle, port or lane quad (R472). -/
def srcUnit (n : Nat) : Bool := decide (n < 166)

/-- Whether a REACT of 2 may be set for a source: not for 230 to 255 and 256 to 402 (R467). -/
def srcMayContain (n : Nat) : Bool := decide (n < 230)

/-- Whether the source's unit is enabled (R465): the sources of disabled units never assert. -/
def State.srcOn (s : State) (n : Nat) : Bool :=
  if n < 64 then s.ferryOn n
  else if n < 68 then s.catcherOn (n - 64)
  else if n < 76 then s.huddleOn (n - 68)
  else if n < 148 then s.portOn (n - 76)
  else if n < 166 then (List.range 4).any fun k => s.laneOn (4 * (n - 148) + k)
  else if n < 230 then s.berthOn (n - 166)
  else srcKnown n

/-- Whether ALIVE toggles (R474): the device is out of reset, not fatal, and the collector checks itself without error. -/
def State.alive (s : State) : Bool := decide (s.phase = .running) && !s.fatal && !s.checkFailed

/-! ## Isolation (R472) -/

/-- Whether an instance holds data of a segment that a huddle serves. -/
def State.instIn (s : State) (c : Nat) (v : CollInst) (h : Nat) : Bool :=
  !v.done && v.parts.cells.any fun p => decide (s.huddleOf c v.num (p.1.2 / segElems v.cmd) = h)

/-- Fail every instance with segment data in a huddle (R472, R503). -/
def State.failHuddle (s : State) (h : Nat) : State :=
  forEach (fun s c =>
    match s.colls.look c with
    | some x => forEach (fun s v => if s.instIn c v h then s.collFail c v.num cCollFailed none else s) x.insts s
    | none => s) s.colls.keys s

/-- The ports with a lane in a quad. -/
def State.portsOfQuad (s : State) (q : Nat) : List Nat :=
  (List.range 72).filter fun p => peEn (s.portEntry p) && (s.confLanes p).any fun l => decide (l / 4 = q)

/-- Isolate the unit of a source (the isolation table). -/
def State.isolate (s : State) (n : Nat) : State :=
  if n < 64 then (s.wr .FX_STATUS_STATE n fxFailed).haltFerryQueues n
  else if n < 68 then (s.setFlag .FT_SRC_ISOLATED n true).catchersMoved
  else if n < 76 then s.failHuddle (n - 68)
  else if n < 148 then s.disablePort (n - 76)
  else
    let q := n - 148
    let s := (List.range 4).foldl (fun s k => s.wr .LN_LANE_STATUS_FAILED (4 * q + k) 1) s
    (s.portsOfQuad q).foldl (fun s p => s.disablePort p) s

/-! ## The fatal state (R473) -/

/-- The endpoint functions that exist. -/
def State.endpoints (s : State) : List Func :=
  (List.range 506).filterMap fun k =>
    let f := k / 253 * 256 + k % 253
    if s.fnExists f then some f else none

/-- The timers that the fatal state leaves running: those of the reference domain, of host functions, of Iamel and of machine time. The
others' events are starts, injections or accesses, which it stops. -/
def TimerKey.inFatal : TimerKey → Bool
  | .auxRelease | .mainUp | .avs | .pace | .efReg _ | .challenge | .fmSession _ | .parent | .holdover | .extRef | .quiesce _ | .flr _ | .settle
  | .perst | .trial => true
  | .keyReqRetry _ | .keyReqUnanswered _ | .keyFail _ | .renewal _ | .genSwitch _ | .oldGen _ | .renewalRepeat _ | .genExpiry _
  | .closeManifest _ | .epochErase _ | .coal _ | .wait _ | .nackRetry .. | .ackDelay .. | .rto .. | .ctxFail _ | .idleClose _ | .closeQuiet _
  | .quiet _ | .revokeRepeat .. | .revokeFail .. | .quarantine _ | .coll .. | .rejoin _ | .mgDrop .. | .replay _ | .nackRepeat _ | .hello _
  | .hold _ | .trainReq _ | .retrain _ | .drain _ | .laneReq _ | .fastPath _ | .fullTrain _ | .budget .. | .ferryTimer .. | .eventWait ..
  | .completion _ | .snapshot _ => false

/-- Enter the fatal state (R473): job keys zeroised, ALIVE low, links silent, AER, FATAL and its source and time. -/
def State.enterFatal (s : State) (n : Nat) : State :=
  if s.fatal then s
  else
    let s := s.zeroiseAll
    let s := { s with timers := s.timers.keep fun k _ => k.inFatal }
    let s := s.emit (.alive false)
    let up := (List.range 72).filter fun p => decide (s.portState p ≠ psDisabled)
    let s := s.emits (up.map Out.pattern)
    let s := s.emits (s.endpoints.map Out.aer)
    let s := s.wrAll 0 [(.FT_STATUS_FATAL, 1), (.FT_STATUS_FATAL_SEEN, 1), (.FT_STATUS_FATAL_SRC, n), (.FT_FATAL_TIME_TIME, s.now)]
    s.logRec 5 0x0D .fault n [n]

/-! ## Assertions (R466, R469 to R471) -/

/-- Send FT_VEC (R466). -/
def State.faultVec (s : State) : State := if s.flag .FT_VEC_EN then s.msix 0 (s.rd .FT_VEC_VECTOR) else s

/-- One assertion of a source: STATUS, COUNT, FORCED (the last assertion was forced), and the reaction of its class; once the device is
fatal, and while main reset is held, no reaction follows but the record (R466, R470). -/
def State.faultAssert (s : State) (n : Nat) (forced : Bool) : State :=
  if !srcKnown n || !s.srcOn n then s
  else
    let was := s.fatal || decide (s.phase = .mainHeld)
    let react := s.rd .FT_SRC_REACT n
    let s := ((s.wr .FT_SRC_STATUS n 1).incSat .FT_SRC_COUNT n 1).setFlag .FT_SRC_FORCED n forced
    if was then s.logRec (react + 2) 0x0D .fault n [n]
    else if react = rcFatal then s.enterFatal n
    else if react = rcCorrected then s.logRec 2 0x0D .fault n [n]
    else if react = rcDeferred then (s.logRec 3 0x0D .fault n [n]).faultVec
    else
      let s := s.logRec 4 0x0D .fault n [n]
      if s.flag .FT_SRC_ISOLATED n then s
      else
        let s := if srcUnit n then (s.isolate n).setFlag .FT_SRC_ISOLATED n true else s
        s.faultVec

/-- The sources that the step has raised, in the order in which they react: by class, fatal first, then by number
(R470). -/
def State.raisedOrder (s : State) : List Nat :=
  let rs := s.raised.eraseDups
  let cls (k : Nat) : List Nat := (rs.filter fun n => decide (s.rd .FT_SRC_REACT n = k)).mergeSort (· ≤ ·)
  cls 3 ++ cls 2 ++ cls 1 ++ cls 0

/-- Hand the collector what a step has raised. -/
def State.collectN (s : State) : Nat → State
  | 0 => s
  | n + 1 =>
    if s.raised = [] then s
    else
      let rs := s.raisedOrder
      State.collectN (rs.foldl (fun s r => s.faultAssert r false) { s with raised := [] }) n

/-- The state after the collector has taken what a step has raised (R469). -/
def State.collected (s : State) : State := if s.raised = [] then s else s.collectN 4

/-- The end of every meaning: the collector takes what the step has raised (R469). -/
def State.fin (s : State) : Host.Outcome State Fault Refusal := .next s.collected

/-- A meaning of the core domain: while the device is held in reset or starts up the command has no effect (R501). -/
def State.whenUp (s : State) (f : State → State) : Host.Outcome State Fault Refusal :=
  if s.phase = .running then (f s).fin else .next s

/-- A meaning of the core domain that the fatal state stops (R473). -/
def State.whenLive (s : State) (f : State → State) : Host.Outcome State Fault Refusal :=
  if s.phase = .running ∧ !s.fatal then (f s).fin else .next s

/-- A meaning of the reference domain: it works whatever the core does, but not in auxiliary reset (R448, R501). -/
def State.whenRef (s : State) (f : State → State) : Host.Outcome State Fault Refusal :=
  if s.phase = .auxHeld then .next s else (f s).fin

/-- A meaning of a timed event: its timer runs, and machine time is at its due time at least (log 2). -/
def State.whenDue (s : State) (k : TimerKey) (f : State → State) : Host.Outcome State Fault Refusal :=
  match s.timers.look k with
  | none => .next s
  | some t => (f ((s.setNow t).disarm k)).fin

end Sys2Proof.Machine
end

