-- ==== Sys2Proof/Machine/FieldOps.lean ====
section
/-! DEFINITION. Writing the fields of a register word (R9, R10): each from its own bits, some with fixed bounds. -/

namespace Sys2Proof.Machine

/-- The bits of a word at a field's place. -/
def Fld.of (f : Fld) (w : Nat) : Nat := bitsOf w f.row.lo f.row.width

/-- Write fields of one instance from a word. -/
def State.setFields (s : State) (i w : Nat) (fs : List Fld) : State := s.wrAll i (fs.map fun f => (f, f.of w))

/-- Write fields with fixed bounds (field, least, most) from a word: one outside its bounds keeps its value. -/
def State.setBounded (s : State) (i w : Nat) : List (Fld × Nat × Nat) → State
  | [] => s
  | (f, lo, hi) :: r => State.setBounded (if lo ≤ f.of w ∧ f.of w ≤ hi then s.wr f i (f.of w) else s) i w r

/-- Write fields with stated bounds whose registers have no rule for a value outside them: such a value leaves a free value (log 8). -/
def State.setRanged (s : State) (i w : Nat) : List (Fld × Nat × Nat) → State
  | [] => s
  | (f, lo, hi) :: r =>
    State.setRanged (if lo ≤ f.of w ∧ f.of w ≤ hi then s.wr f i (f.of w) else (s.wr f i (s.freeVal f.row.width)).freeNext) i w r

end Sys2Proof.Machine
end

