-- ==== Sys2Proof/Machine/LogBytes.lean ====
section
/-! DEFINITION. The 64 bytes of an event-log record (R454) and the record that a selection finds (R456). -/

namespace Sys2Proof.Machine

/-- The CODE of a record: 0xFFFF for lost records (R455), else the number that the part gives its event (log 8). -/
def LogCode.number (c : LogCode) : Nat := if c = .lostRecords then 0xFFFF else Config.logCode c.ctorIdx % 65536

/-- Bytes 0 to 59 of a record. -/
def LogRec.body (r : LogRec) : List Byte :=
  leBytes 8 r.time ++ leBytes 4 r.seq ++ leBytes 1 r.sev ++ leBytes 1 r.block ++ leBytes 2 r.code.number ++ leBytes 4 r.unit
    ++ leBytes 2 r.rep ++ leBytes 2 r.boot ++ leBytes 36 (Config.logData r.code.number r.data)

/-- The 64 bytes of a record. -/
def LogRec.bytes (r : LogRec) : List Byte := r.body ++ leBytes 4 (crc32 r.body)

/-- The record of a number that the ring or the flash log holds. -/
def State.findRec (s : State) (flash : Bool) (seq : Nat) : Option LogRec :=
  (if flash then s.flash else s.ring).find? fun r => decide (r.seq = seq)

/-- The record that MG_LOG_SEL selects (R456). -/
def State.selRec (s : State) : Option LogRec := s.findRec (s.flag .MG_LOG_SEL_FLASH 0) (s.rd .MG_LOG_SEL_SEQ 0)

/-- Bytes 8k to 8k + 7 of the selected record; zero where it is not held. -/
def State.selData (s : State) (k : Nat) : Nat :=
  match s.selRec with
  | some r => leAt r.bytes (8 * k) 8
  | none => 0

end Sys2Proof.Machine
end

