-- ==== Sys2Proof/Machine/RegRead.lean ====
section
/-! DEFINITION. Reading registers (R4, R8, R9): fields that are derived from the rest of State, fields that a monitor
measures, composition of a register word, the effect of a read. -/

namespace Sys2Proof.Machine

/-- The value of a bit in place `k`. -/
def bitAt (b : Bool) (k : Nat) : Nat := if b then 2 ^ k else 0

/-- Fields that a running monitor measures and no event of the table supplies: a read returns a free value (log 8). So are the slots that
found no thread able to issue: the pace of a ferry is not stated (R390). -/
def measured (i : Nat) : Fld → Bool
  | .LN_LANE_QUAL_SNR => true
  | .LN_LANE_QUAL_EYE_H => true
  | .LN_LANE_QUAL_EYE_W => true
  | .LN_LANE_QUAL_FEC_MAX => true
  | .LN_LANE_PRBS_ERRORS => true
  | .FX_SLOTS_COUNT => decide (2 ≤ i % 4)
  | _ => false

/-- A ferry thread's state for FX_THREAD.STATE. -/
def Thread.stateNo (x : Thread) : Nat :=
  match x.inv with
  | none => 0
  | some v => if v.sleep.isSome || v.ending.isSome then 2 else 1

/-- How much of a timer is left, in units of `u` ticks, rounded up. -/
def State.leftOf (s : State) (k : TimerKey) (u : Nat) : Nat := ceilDiv (s.timeLeft k) u

/-- Whether the root holds the result of the instance before INST, and of the one before it where there is one (R248). -/
def State.heldResult (s : State) (c : Nat) (x : CollCtx) : Bool :=
  let n := s.rd .HD_CTX_INST c
  decide (0 < n) && x.held.contains (n - 1) && (decide (n < 2) || x.held.contains (n - 2))

/-- The SECVERs that units of an image type run (R457). -/
def State.runVers (s : State) (t : Nat) : List Nat := (s.running.cells.filter fun r => decide (r.1.1 = t)).map fun r => r.2.1

/-- The value of a field as a read finds it: derived fields are computed from the state that they report. -/
def State.field (s : State) (f : Fld) (i : Nat) : Nat :=
  let cut (n : Nat) : Nat := n % 2 ^ f.row.width
  match f with
  | .MT_NOW_NOW => cut s.now
  | .GLB_SEC_STATE_FM_SESSIONS => cut s.fmSessions.length
  | .GLB_SEC_STATE_JOBS_ACTIVE => cut s.jobsActive
  | .GLB_SEC_STATE_KEYS_CLEAR => if s.jobs.cells.all fun j => j.2.held.isEmpty then 1 else 0
  | .TP_STATUS_CTX_USED => cut s.ctxs.size
  | .TP_STATUS_CTX_CACHED => cut (s.ctxs.cells.filter fun c => c.2.cached).length
  | .TP_STATUS_MOORED => cut s.moored.length
  | .TP_TGT_STATUS_REGIONS => cut s.regions.size
  | .TP_TGT_STATUS_READS => cut s.reads
  | .TP_TGT_STATUS_LEAVES_FREE => cut s.leavesFree
  | .MF_STATUS_USED => cut s.manifest.size
  | .MF_STATUS_LAND_FREE => cut s.landFree
  | .MF_STATUS_HELD => cut (s.queues.cells.filter fun q => decide (q.2.held = some .entry)).length
  | .MF_USE_MANIFEST => cut (s.entriesOf i)
  | .MF_USE_READS => cut (s.readsOf i)
  | .CT_UXSTATUS_FREE => cut (s.rd .CT_UXPOOL_UNITS - s.unitsUsed)
  | .CT_UXSTATUS_HELD =>
    cut (((s.tops.cells.filter fun t => t.2.held && t.2.msg.isNone && t.2.fail.isNone && !t.2.aborted && t.2.blk.isSend).map (·.1.1)).eraseDups).length
  | .CT_STATUS_ENTRIES =>
    cut ((s.recvs.cells.filter fun r => r.2.holds && decide (s.catcherOf r.2.space = some i)).length
      + (s.msgs.cells.filter fun m => m.2.entry && decide (s.catcherOf m.2.space = some i)).length)
  | .CT_STATUS_ONCHIP => cut (s.onChip i)
  | .CT_USE_ENTRIES => cut (s.matchUse i)
  | .CT_USE_UXUNITS => cut (s.unitsUse i)
  | .HD_STATUS_CTX_BUILT => cut s.colls.size
  | .HD_STATUS_ENABLED => cut ((List.range 8).foldl (fun n h => n + bitAt (s.huddleOn h) h) 0)
  | .HD_STATUS_SLOTS_FREE =>
    cut (s.rd .HD_LANDPOOL_SLOTS - (s.colls.cells.map fun c => c.2.land * c.2.neighbours.length).foldl (· + ·) 0)
  | .HD_CTX_HELD => match s.colls.look i with | some x => bitAt (s.heldResult i x) 0 | none => 0
  | .XB_PORT_UP_UP => (List.range 64).foldl (fun n k => n + bitAt (decide (64 * i + k < 72) && s.portUp (64 * i + k)) k) 0
  | .XB_NOTICE_AVOIDED => (List.range 32).foldl (fun n a => n + bitAt (s.notices.any fun x => decide (x.2.d = i ∧ x.2.a = a)) a) 0
  | .LL_PORT_LINK_HOLD_LEFT => if s.portState i = psHold then cut (s.leftOf (.hold i) (us 1)) else 0
  | .MT_LINE_PENDING => cut (s.firingsOf i).length
  | .MT_TRIG_STAT_QUEUED => cut ((s.trig.look i).getD []).length
  | .MT_TRIG_CAP_STAMP => cut ((((s.trig.look i).getD []).head?).getD 0)
  | .FX_STATUS_UNITS_OUT =>
    cut ((List.range 16).foldl (fun n t => n + (s.thread i t).ops.length + (s.thread i t).orphans.length) 0)
  | .FX_STATUS_DISPATCH_Q => cut (s.ferry i).queue.length
  | .FX_THREAD_PC => match (s.thread (i / 16) (i % 16)).inv with | some v => cut v.pc | none => 0
  | .FX_THREAD_ENTRY => match (s.thread (i / 16) (i % 16)).inv with | some v => cut v.entry | none => 0
  | .FX_THREAD_PRIO_EFF => match (s.thread (i / 16) (i % 16)).inv with | some _ => cut (s.effPrio (i / 16) (i % 16)) | none => 0
  | .FX_THREAD_EVQ => cut (s.thread (i / 16) (i % 16)).events.length
  | .FX_THREAD_ASYNC => cut (s.thread (i / 16) (i % 16)).ops.length
  | .FX_THREAD_TIMERS => cut (s.thread (i / 16) (i % 16)).timers.size
  | .FX_THREAD_STATE => if s.fxState (i / 16) = fxDrained then 3 else cut (s.thread (i / 16) (i % 16)).stateNo
  | .LK_LOCK_OWNER => cut ((s.lock i).owner.getD 0)
  | .LK_LOCK_HELD => bitAt (s.lock i).owner.isSome 0
  | .LK_LOCK_ORPHANED => bitAt (s.lock i).orphaned 0
  | .LK_LOCK_QUEUED => bitAt ((s.lock i).waiters.contains identCtl) 0
  | .LK_WORD_RESULT => cut ((s.lkWord.look identCtl).getD 0)
  | .MG_LOG_SEL_FOUND => bitAt s.selRec.isSome 0
  | .MG_LOG_DATA_DATA => cut (s.selData i)
  | .LK_LOCK_WAITERS => cut (s.lock i).waiters.length
  | .TX_STATUS_ACTIVE => cut (s.setOf .TX_ASID_VALID).length
  | .TX_STATUS_LOCKED => cut (s.setOf .TX_ASID_LOCKED).length
  | .TX_STATUS_INV_BUSY => bitAt (!s.invals.isEmpty) 0
  | .HI_PORT_NUMVFS =>
    let n := if s.vfEnable.contains i then s.rd .HI_PORT_NUMVFS i else 0
    cut (n + (s.vfLeaving.filter fun f => decide (f / 256 = i ∧ n < f % 256)).length)
  | .HI_PORT_MODE => if i = 1 then cut (s.rd .HI_PORT_MODE 1) else 0
  | .HI_SLOT_STATUS_PG => if s.portMode 1 = 1 then s.rd .EF_STATUS_PG 1 else 0
  | .HI_FN_STATE_LEFT =>
    let fn : Func := i / 253 * 256 + i % 253
    if s.fnState fn = 1 then cut (s.leftOf (.quiesce fn) (us 1)) else 0
  | .MG_SENS_AGE => min 65535 ((s.now - (s.sensAt.look i).getD 0) / us 1)
  | .FT_STATUS_ALIVE_ON => bitAt (s.alive) 0
  | .EF_CTL_ON => if i = 1 ∧ s.portMode 1 = 1 then s.rd .HI_SLOT_CTL_PWR_ON 0 else s.rd .EF_CTL_ON i
  | .FT_STATUS_PENDING => cut (s.setOf .FT_SRC_STATUS).length
  | .EC_SNAP_STATUS_PENDING => cut s.snaps.size
  | .XB_STATUS_BUSY => bitAt (!s.routeWait.isEmpty) 0
  | .MG_IMAGE_RUN_MIN => cut ((s.runVers i).foldl min 255 * (if (s.runVers i).isEmpty then 0 else 1))
  | .MG_IMAGE_RUN_MAX => cut ((s.runVers i).foldl max 0)
  | .PW_UNIT_RST_BUSY => bitAt s.unitInReset.isSome 0
  | _ => s.rd f i

/-- Compose a register word of its fields. -/
def State.composeWord (s : State) (i : Nat) : List Fld → Nat
  | [] => 0
  | f :: r => s.field f i * 2 ^ f.row.lo + State.composeWord s i r

/-- Whether the unit of a register instance is enabled; the registers of a disabled unit read 0 (R4, R475). -/
def State.regOn (s : State) (r : Reg) (i : Nat) : Bool :=
  match r with
  | .FX_STATUS => s.ferryOn i
  | .FX_CFG => s.ferryOn i
  | .FX_JOBSEG => s.ferryOn i
  | .FX_SLOTS => s.ferryOn (i / 4)
  | .FX_THREAD => s.ferryOn (i / 16)
  | .FX_FAULT => s.ferryOn (i / 16)
  | .CT_STATUS => s.catcherOn i
  | .LL_PORT_STATE => s.portOn i
  | .LL_PORT_PEER => s.portOn i
  | .LL_PORT_LINK => s.portOn i
  | .LN_LANE_STATUS => s.laneOn i
  | .LN_LANE_TAPS => s.laneOn i
  | .LN_LANE_QUAL => s.laneOn i
  | .LN_LANE_SER => s.laneOn i
  | .LN_LANE_PRBS => s.laneOn i
  | .EC_SEL => s.unitOn (i / 4)
  | .EC_CNT => s.unitOn (i / 4)
  | .EC_SNAP => s.unitOn (i / 4)
  | .EC_HIST_CFG => s.portOn i
  | .EC_HIST => s.portOn (i / 8)
  | .FT_SRC => srcKnown i
  | _ => true

/-- What a read does to a field, after its value was taken (R9): a read-clear field is cleared; a read of the oldest TRIG
stamp removes it (R361); a measured field's next free value is taken. -/
def State.readEffect (s : State) (i : Nat) (f : Fld) : State :=
  if f = .MT_TRIG_CAP_STAMP then { s with trig := s.trig.upd i List.tail }
  else if measured i f then s.freeNext
  else if f.row.acc = .rc then s.wr f i 0
  else s

/-- The fields of a register instance, from the most significant on, read in turn: the state after, and the word. -/
def State.readFields (s : State) (i : Nat) : List Fld → State × Nat
  | [] => (s, 0)
  | f :: r =>
    let v :=
      match f.row.acc with
      | .wo => 0
      | .privWo => 0
      | _ => if measured i f then s.freeVal f.row.width else s.field f i
    match State.readFields (s.readEffect i f) i r with
    | (s, w) => (s, v * 2 ^ f.row.lo + w)

/-- Read a register instance: its word, and the state after the read. -/
def State.readReg (s : State) (r : Reg) (i : Nat) : State × Nat :=
  if s.regOn r i then s.readFields i r.fields else (s, 0)

/-- Read a register and return its value (log 7). -/
def State.readOut (s : State) (r : Reg) (i : Nat) : State :=
  match s.readReg r i with
  | (s, v) => s.emit (.value v)

end Sys2Proof.Machine
end

