-- ==== Sys2Proof/Machine/RevokeOps.lean ====
section
/-! DEFINITION. Revocation of a window by confirmation of every member (R196 to R201): the tree of REVOKE and CONFIRM, the
marked packets, DONE, repeats. -/

namespace Sys2Proof.Machine

/-- The states of a window as a register shows them and the kinds of revocation messages. -/
def rkRevoke : Nat := 0xE1
def rkConfirm : Nat := 0xE2
def rkDone : Nat := 0xE3

/-- What repeats after 100 microseconds (R199). -/
def revokeTicks : Nat := us 100

/-- Send a revocation message of a job slot to a node, on the context of the collective endpoints (R198). One that finds no
open context is not sent: a REVOKE is repeated, and its receiver answers the repetition. -/
def State.revokeSend (s : State) (slot node kind w origin serial : Nat) : State :=
  match s.edgeCtx slot node with
  | (s, none) => s
  | (s, some c) =>
    match s.ctxs.look c with
    | none => s
    | some x => s.queuePkt c { s.header x tyColl with length := 16, body := .revoke kind w origin serial }

/-- Whether a record belongs to a revocation. -/
def Revoke.is (r : Revoke) (slot w origin serial : Nat) : Bool :=
  decide (r.slot = slot ∧ r.window = w ∧ r.origin = origin ∧ r.serial = serial)

/-- The timer of a record's repeats. -/
def Revoke.timer (r : Revoke) : TimerKey := .revokeRepeat r.slot r.window r.origin r.serial

/-- Whether a record still waits for answers to its REVOKEs. -/
def Revoke.waits (r : Revoke) : Bool := r.asOrigin || !r.waitFor.isEmpty

/-- Run the repeat timer of a revocation until the earliest repeat that is due. -/
def State.revokeArm (s : State) (slot w origin serial : Nat) : State :=
  match s.revokes.filter fun r => r.is slot w origin serial && r.waits with
  | [] => s.disarm (.revokeRepeat slot w origin serial)
  | r :: rs => s.arm r.timer ((rs.map (·.sentAt)).foldl min r.sentAt + revokeTicks)

/-- Change the records that a test finds. -/
def State.updRevoke (s : State) (p : Revoke → Bool) (f : Revoke → Revoke) : State :=
  { s with revokes := s.revokes.map fun r => if p r then f r else r }

/-- The request packets to a window at a node that a slot's contexts have injected and not yet seen acknowledged, as
(context, session, PSN) (R198 step 2). -/
def State.packetsTo (s : State) (slot node w : Nat) : List (Nat × Nat × Nat) :=
  (s.ctxs.cells.filter fun c => decide (c.2.slot = slot ∧ c.2.rem / 4096 = node)).flatMap fun c =>
    (c.2.tx 0).una.filterMap fun u =>
      match u.pkt.body with
      | .data (.oneSided _ _ _ _ _ _ _ key _ _ _) _ => if key = w then some (c.1, c.2.session, u.pkt.psn) else none
      | _ => none

/-- Whether a marked packet still holds back the CONFIRM: it is not acknowledged and its context has not failed (R199). -/
def State.markHolds (s : State) (m : Nat × Nat × Nat) : Bool :=
  match s.ctxs.look m.1 with
  | none => false
  | some x =>
    decide (x.state ≠ .quiet ∧ x.session = m.2.1)
      && (idxLe (x.tx 0).next m.2.2 || (x.tx 0).una.any fun u => decide (u.pkt.psn = m.2.2))

/-- The window of a revocation that ends: its command completes with a cause (R198 step 5, R199). -/
def State.revokeEnd (s : State) (slot w : Nat) (st : WinState) (cause : Nat) : State :=
  match s.windows.look (slot, w) with
  | none => s
  | some x =>
    let s := { s with
      windows := s.windows.put (slot, w) { x with state := st, src := none, doneSeen := false },
      revokes := s.revokes.filter fun r => !(r.asOrigin && decide (r.slot = slot ∧ r.window = w)) }
    let s := (s.revokeArm slot w s.nodeId x.serial).disarm (.revokeFail slot w)
    match x.src with
    | some r => s.endPriv r cause
    | none => s

def cWindow : Nat := 0x13

/-- Whether an operation at this target is one on a window of a slot. -/
def TOp.onWindow (t : TOp) (slot w : Nat) : Bool := t.win && decide (t.slot = slot ∧ t.key = w)

/-- Whether an operation admitted on a window has an access in flight. -/
def State.windowBusy (s : State) (slot w : Nat) : Bool := s.tops.cells.any fun t => t.2.onWindow slot w && decide (t.2.busy ≠ 0)

/-- Whether a stored packet has still to act on a window: an ORD packet that waits for its place (R118). -/
def actsOn (w : Nat) (p : Packet) : Bool :=
  p.ord && (match p.body with | .data (.oneSided _ _ _ _ _ _ _ key _ _ _) _ => decide (key = w) | _ => false)

/-- What was admitted on a window and has not acted fails with WINDOW once the revocation is confirmed (R200): the rest of a GET, the
packets that wait for their place. -/
def State.barWindow (s : State) (slot w : Nat) : State :=
  let gets := s.tops.cells.filter fun t =>
    t.2.onWindow slot w && t.2.blk.gets && t.2.result.isNone && !t.2.statusQueued && decide (t.2.nextOff < t.2.blk.len)
  let s := forEach (fun s t => s.topFail t.1.1 t.1.2 t.2.nextOff cWindow) gets s
  forEach (fun s c =>
    match s.ctxs.look c with
    | none => s
    | some x =>
      let late := (x.rx 0).store.filter (actsOn w)
      let dead (p : Packet) : Packet := if actsOn w p then { p.bare with ord := false } else p
      forEach (fun s p => s.topFail c p.mtag p.offset cWindow) late (s.updRx c 0 fun r => { r with store := r.store.map dead }))
    ((s.ctxs.cells.filter fun c => decide (c.2.slot = slot)).map (·.1)) s

/-- The window of a confirmed revocation is CLOSED once no operation on it has an access in flight (R198 step 5, R200). -/
def State.revokeClose (s : State) (slot w : Nat) : State :=
  match s.windows.look (slot, w) with
  | none => s
  | some x => if x.doneSeen && decide (x.state = .revoking) && !s.windowBusy slot w then s.revokeEnd slot w .closed 0 else s

/-- DONE reaches the revoking device (R198 step 5). -/
def State.revokeDone (s : State) (slot w serial : Nat) : State :=
  match s.windows.look (slot, w) with
  | none => s
  | some x =>
    if x.state = .revoking ∧ x.serial = serial then
      let s := { s with windows := s.windows.put (slot, w) { x with doneSeen := true } }
      (s.barWindow slot w).revokeClose slot w
    else s

/-- Answer a REVOKE of a confirmed revocation: DONE from the leader, CONFIRM from any other member (R199). -/
def State.revokeAnswer (s : State) (r : Revoke) (node : Nat) : State :=
  if r.root then
    if r.origin = s.nodeId then s.revokeDone r.slot r.window r.serial
    else s.revokeSend r.slot r.origin rkDone r.window r.origin r.serial
  else s.revokeSend r.slot node rkConfirm r.window r.origin r.serial

/-- Send CONFIRM or DONE for every record that every child has confirmed and whose marked packets are acknowledged (R198
steps 3 and 4), and close the windows that waited for an access (R200). -/
def State.revokeSettle (s : State) : State :=
  let s := forEach (fun s k => s.revokeClose k.1 k.2) ((s.windows.cells.filter fun w => w.2.doneSeen).map (·.1)) s
  forEach (fun s r =>
    if r.asOrigin || r.confirmed || !r.waitFor.isEmpty || r.marked.any s.markHolds then s
    else
      let s := s.updRevoke (fun x => decide (x = r)) fun x => { x with confirmed := true, marked := [] }
      if r.root then s.revokeAnswer r 0 else forEach (fun s n => s.revokeAnswer r n) r.parents s) s.revokes s

/-- A member begins a revocation: it forwards REVOKE to its children, then marks its packets (R198 step 2). -/
def State.revokeBegin (s : State) (slot w origin serial : Nat) (root : Bool) (parents : List Nat) : State :=
  let b := s.job slot
  let kids := (b.kids.map b.nodeAt).filter fun n => decide (n ≠ s.nodeId)
  let s := forEach (fun s n => s.revokeSend slot n rkRevoke w origin serial) kids s
  let r : Revoke := {
    slot := slot, window := w, origin := origin, serial := serial, root := root, parents := parents, waitFor := kids,
    marked := s.packetsTo slot origin w, sentAt := s.now }
  let old := s.revokes.filter fun x => x.asOrigin || !decide (x.slot = slot ∧ x.window = w ∧ x.origin = origin)
  let s := { s with revokes := old ++ [r] }
  (s.revokeArm slot w origin serial).revokeSettle

/-- WINDOW-REVOKE step 1: the window is REVOKING, the leader is told, FAIL_TIME starts (R198, R199). -/
def State.revokeStart (s : State) (slot w serial : Nat) (src : Requester) : State :=
  match s.windows.look (slot, w) with
  | none => s
  | some x =>
    let s := { s with windows := s.windows.put (slot, w) { x with state := .revoking, src := some src, serial := serial } }
    let s := s.armIn (.revokeFail slot w) s.failTicks
    let b := s.job slot
    let me := s.nodeId
    if b.leaderPos = b.pos then s.revokeBegin slot w me serial true []
    else
      let r : Revoke := { slot := slot, window := w, origin := me, serial := serial, asOrigin := true, sentAt := s.now }
      let s := { s with revokes := s.revokes ++ [r] }
      (s.revokeSend slot (b.nodeAt b.leaderPos) rkRevoke w me serial).revokeArm slot w me serial

/-- REVOKE from a node (R198 step 2, R199): a new one begins, one in progress carries on, a confirmed one is answered. -/
def State.revokeIn (s : State) (slot node w origin serial : Nat) : State :=
  match s.revokes.find? fun r => !r.asOrigin && r.is slot w origin serial with
  | some r =>
    if r.confirmed then s.revokeAnswer r node
    else if r.root then s
    else s.updRevoke (fun x => decide (x = r)) fun x => { x with parents := if x.parents.contains node then x.parents else x.parents ++ [node] }
  | none =>
    let b := s.job slot
    let root := decide (b.leaderPos = b.pos)
    s.revokeBegin slot w origin serial root (if root then [] else [node])

/-- CONFIRM from a node (R198 step 3, R199). -/
def State.confirmIn (s : State) (slot node w origin serial : Nat) : State :=
  let s := s.updRevoke (fun r => !r.asOrigin && r.is slot w origin serial) fun r => { r with waitFor := r.waitFor.filter (fun k => decide (k ≠ node)) }
  (s.revokeArm slot w origin serial).revokeSettle

/-- The nodes that a sender of REVOKE reaches after `n` unanswered repeats to a child: the child, and from every third
repeat on one level further below it (R199, R57). -/
def Job.below (b : Job) (pos : Nat) : Nat → List Nat
  | 0 => [pos]
  | n + 1 => pos :: (treeKids b.members.length pos).flatMap fun k => Job.below b k n

/-- Repeat the REVOKEs of a record that are 100 microseconds old (R199). -/
def State.revokeAgain (s : State) (r : Revoke) : State :=
  let b := s.job r.slot
  let s := s.updRevoke (fun x => decide (x = r)) fun x => { x with repeats := x.repeats + 1, sentAt := s.now }
  if r.asOrigin then s.revokeSend r.slot (b.nodeAt b.leaderPos) rkRevoke r.window r.origin r.serial
  else
    let kids := b.kids.filter fun k => r.waitFor.contains (b.nodeAt k)
    let level := min ((r.repeats + 1) / 3) 3
    let to' := (kids.flatMap fun k => b.below k level).map b.nodeAt
    forEach (fun s n => s.revokeSend r.slot n rkRevoke r.window r.origin r.serial) (to'.filter fun n => decide (n ≠ s.nodeId)) s

/-- The repeats of a revocation that are due. -/
def State.revokeDue (s : State) (slot w origin serial : Nat) : State :=
  let due := s.revokes.filter fun r => r.is slot w origin serial && r.waits && decide (r.sentAt + revokeTicks ≤ s.now)
  (forEach State.revokeAgain due s).revokeArm slot w origin serial

/-- FAIL_TIME has passed since WINDOW-REVOKE started and no DONE has come (R199): UNREACHABLE, and the window is BARRED. -/
def State.revokeExpire (s : State) (slot w : Nat) : State :=
  match s.windows.look (slot, w) with
  | none => s
  | some x => if x.state = .revoking ∧ !x.doneSeen then s.revokeEnd slot w .barred cUnreachable else s

/-- Take a revocation message of a context between collective endpoints, on arrival (R198). -/
def State.revokeMsg (s : State) (c kind w origin serial : Nat) : State :=
  match s.ctxs.look c with
  | none => s
  | some x =>
    let node := x.rem / 4096
    if kind = rkRevoke then s.revokeIn x.slot node w origin serial
    else if kind = rkConfirm then s.confirmIn x.slot node w origin serial
    else if kind = rkDone ∧ origin = s.nodeId then s.revokeDone x.slot w serial
    else s

end Sys2Proof.Machine
end

