-- ==== Sys2Proof/Machine/XferReq.lean ====
section
/-! DEFINITION. Operations at their requester (R115 to R121, R151, R162, R167, R206 to R210, R225 to R233, R527): source reads and
DATA packets, response data, completion, cancellation, aborts. -/

namespace Sys2Proof.Machine

/-! ## DATA packets (R151, R206) -/

/-- Whether an earlier operation of the context keeps this one from queueing its first packet: an ORD operation follows every
packet of the operations before it (R118), a SEND the first packet of every SEND before it (R124). -/
def MEntry.behind (e : MEntry) (m : Nat) : List (Nat × MEntry) → Bool
  | [] => false
  | a :: r =>
    if a.1 = m then false
    else
      decide (a.2.ctx = e.ctx) &&
        ((e.ord && !a.2.lastQueued) || (e.blk.isSend && a.2.blk.isSend && !a.2.lastQueued && decide (a.2.nextOff = 0)))
      || MEntry.behind e m r

/-- Queue one DATA packet of an operation. -/
def State.queueData (s : State) (m off : Nat) (bytes : List Byte) (last : Bool) : State :=
  match s.manifest.look m with
  | none => s
  | some e =>
    match s.ctxs.look e.ctx with
    | none => s
    | some x =>
      let creq := e.blk.streams && decide (off = 0 ∧ 65536 < e.total)
      let s := s.updM m fun e => { e with nextOff := off + bytes.length, lastQueued := e.lastQueued || last }
      s.queuePkt e.ctx (s.dataPkt x m off last e.ord creq e.blk bytes)

/-- Queue the packet that ends an operation without its data: LAST and ABORT (R141, R167, R527). -/
def State.queueAbort (s : State) (m off : Nat) : State :=
  match s.manifest.look m with
  | none => s
  | some e =>
    match s.ctxs.look e.ctx with
    | none => s
    | some x =>
      let s := s.updM m fun e => { e with lastQueued := true }
      s.queuePkt e.ctx { s.dataPkt x m off true e.ord false e.blk [] with abort := true }

/-- The abort packet that takes the place of a DATA packet (R527): `last` says that LAST is due with it. -/
def abortOf (last : Bool) (p : Packet) : Packet :=
  match p.body with
  | .data blk _ => { p with abort := true, last := p.last || last, length := 32, body := .data blk [] }
  | _ => p

/-- Drop the DATA packets of an operation that wait for their first injection. -/
def State.dropWaiting (s : State) (c m : Nat) : State :=
  s.updTx c 0 fun t => { t with waiting := t.waiting.filter fun p => !p.ofOp m }

/-- No data-carrying packet of an operation goes out any more (R527): those that wait are dropped, those in line for retransmission go as
abort packets. -/
def State.dropData (s : State) (c m : Nat) : State :=
  (s.dropWaiting c m).updTx c 0 fun t => { t with resend := t.resend.map fun p => if p.ofOp m then abortOf false p else p }

/-- Drop the packets of an operation that its status entry acknowledges (R163, R164), and its source reads. -/
def State.dropSent (s : State) (c m : Nat) : State :=
  let s := s.updTx c 0 fun t => { t with
    una := t.una.filter (fun u => !u.pkt.ofOp m), resend := t.resend.filter fun p => !p.ofOp m }
  { s with xfers := s.xfers.keep fun _ x => !x.kind.readsFor m }

/-- Whether no DATA packet of an operation is unacknowledged. -/
def State.acked (s : State) (c m : Nat) : Bool :=
  match s.ctxs.look c with
  | none => true
  | some x => !(x.tx 0).una.any fun u => u.pkt.ofOp m

/-! ## The end of an operation -/

/-- Retire an operation whose status entry has not come: its number is not taken again until it comes. -/
def State.endEarly (s : State) (m : Nat) (r : OpEnd) : State :=
  match s.manifest.look m with
  | none => s
  | some e =>
    let s := if e.lastInjected && !e.aborted && e.status.isNone then { s with stale := s.stale ++ [(e.ctx, m)] } else s
    s.endOpClose m r

/-- End an operation that has everything it waits for (R20, R121, R141, R227, R527). -/
def State.opCheck (s : State) (m : Nat) : State :=
  match s.manifest.look m with
  | none => s
  | some e =>
    if e.aborted then
      if e.lastInjected && s.acked e.ctx m then
        s.endOpClose m (match e.localFail with | some c => .failed c | none => .cancelled)
      else s
    else
      match e.status with
      | none => s
      | some (cause, v) =>
        if e.placing ≠ 0 ∨ (e.rdv ∧ e.pulled ∧ !e.pullOver) then s
        else if cause ≠ 0 then s.endOpClose m (.failed (e.localFail.getD cause))
        else
          match e.localFail with
          | some c => s.endOpClose m (.failed c)
          | none =>
            if e.rdv && !e.pulled && e.cancel.isNone then s
            else if e.blk.fetches && decide (e.got < e.total) then
              match s.translateRange e.asid e.laddr e.total e.func false true with
              | (s, .inl c) => s.endOpClose m (.failed c)
              | (s, .inr segs) =>
                if s.segAccess segs ≠ .ok then s.endOpClose m (.failed cLocalMemory)
                else
                  let s := s.updM m fun e => { e with placing := 1, host := !(segFuncs segs).isEmpty }
                  s.startXfer (.result m) true segs (leBytes e.total v) false
            else if e.got < e.total && e.blk.gets then s
            else if e.host then (s.updM m fun e => { e with host := false, placing := 1 }).startFlush (.flushM m) e.func
            else s.endOpClose m (if e.cancel.isSome then .cancelled else .done)

/-- An operation cannot go on because of a local cause (R95, R438 step 2, R527). With nothing injected it ends; partly injected it
closes with ABORT; whole at its target, or a read, it ends at once. -/
def State.opFail (s : State) (m cause : Nat) : State :=
  match s.manifest.look m with
  | none => s
  | some e =>
    let s := s.dropWaiting e.ctx m
    if e.injected = 0 then s.endOpClose m (.failed cause)
    else if e.aborted then s
    else if e.blk.streams && !e.lastInjected then
      let s := (s.dropData e.ctx m).updM m fun e => { e with localFail := some cause, aborted := true }
      (s.queueAbort m e.nextOff).opCheck m
    else s.endEarly m (.failed cause)

/-! ## Source reads (R115, R117, R121, R162) -/

/-- Read the source bytes of a packet; a fault or a refusal fails the operation (R424, R438). -/
def State.readSource (s : State) (m off n : Nat) (re : Option Nat) : State × Option Nat :=
  match s.manifest.look m with
  | none => (s, none)
  | some e =>
    match s.translateRange e.asid (e.laddr + off) n e.func true false with
    | (s, .inl c) => (s, some c)
    | (s, .inr segs) =>
      if s.segAccess segs ≠ .ok then (s, some cLocalMemory)
      else ((s.updM m fun e => { e with reading := e.reading || re.isNone }).startXfer (.source m off n re) false segs [], none)

/-- Queue or read for the next packet of an operation, as far as its order, its credit and its reads allow (R118, R124, R182). -/
def State.pumpEntry (s : State) (m : Nat) : State :=
  match s.manifest.look m with
  | none => s
  | some e =>
    if e.lastQueued || e.aborted || e.reading || e.cancel.isSome || e.behind m s.manifest.cells then s
    else if !e.blk.streams || decide (e.total = 0) then s.queueData m 0 e.data true
    else
      let off := e.nextOff
      let n := min 4096 (e.total - off)
      if 65536 * (1 + e.grant) < off + n then s
      else
        match s.readSource m off n none with
        | (s, some c) => s.opFail m c
        | (s, none) => s

/-- Every operation of a context goes on, in start order. -/
def State.pumpCtx (s : State) (c : Nat) : State := forEach (fun s m => s.pumpEntry m.1) (s.ctxEntries c) s

/-- Put a packet in line for retransmission (R169, R170). -/
def State.resend (s : State) (c st psn : Nat) (f : Packet → Packet) : State :=
  match s.ctxs.look c with
  | none => s
  | some x =>
    match (x.tx st).una.find? fun u => decide (u.pkt.psn = psn) with
    | none => s
    | some u => s.updTx c st fun t => { t with resend := t.resend.filter (fun p => decide (p.psn ≠ psn)) ++ [f u.pkt] }

/-- A source read completed, or failed (R27, R527). -/
def State.sourceIn (s : State) (m off n : Nat) (re : Option Nat) (ok : Bool) (bytes : List Byte) : State :=
  match s.manifest.look m with
  | none => s
  | some e =>
    let s := if re.isNone then s.updM m fun e => { e with reading := false } else s
    match re with
    | none =>
      if e.aborted || e.cancel.isSome then s.opCheck m
      else if !ok then s.opFail m cLocalMemory
      else (s.queueData m off bytes (decide (off + n = e.total))).pumpCtx e.ctx
    | some psn =>
      if ok && !e.aborted then
        (s.resend e.ctx 0 psn fun p => match p.body with | .data blk _ => { p with body := .data blk bytes } | _ => p).opCheck m
      else
        let s := if e.aborted then s else
          (s.dropData e.ctx m).updM m fun e => { e with localFail := some cLocalMemory, aborted := true, lastQueued := true }
        (s.resend e.ctx 0 psn (abortOf (!e.lastInjected))).opCheck m

/-- Retransmit a packet of a stream (R162, R166, R169): a DATA packet with source bytes reads them again; one of an operation
that R527 has ended goes as an abort packet; the target's side of RESP-DATA stands with the target. -/
def State.retransmitData (s : State) (c psn : Nat) (p : Packet) : State :=
  match s.manifest.look p.mtag with
  | none => s.resend c 0 psn id
  | some e =>
    match p.body with
    | .data _ bytes =>
      if e.ctx ≠ c ∨ p.abort ∨ !e.blk.streams ∨ bytes = [] then s.resend c 0 psn id
      else if e.aborted && e.localFail.isSome then s.resend c 0 psn (abortOf (!e.lastInjected))
      else
        match s.readSource p.mtag p.offset bytes.length (some psn) with
        | (s, none) => s
        | (s, some cause) =>
          let s := if e.aborted then s else
            (s.dropData c p.mtag).updM p.mtag fun e => { e with localFail := some cause, aborted := true, lastQueued := true }
          s.resend c 0 psn (abortOf (!e.lastInjected))
    | _ => s.resend c 0 psn id

/-! ## Responses (R163, R208, R228) -/

/-- Credit the bytes of a packet of a creditable operation (R182). -/
def State.fillCredit (s : State) (c st m n : Nat) : State :=
  if s.credits.any fun k => decide (k.ctx = c ∧ k.stream = st ∧ k.mtag = m) then
    let fill (k : Credit) : Credit :=
      if k.ctx = c ∧ k.stream = st ∧ k.mtag = m then
        { k with bytes := k.bytes + n, filled := min k.granted ((k.bytes + n - 65536) / 65536) }
      else k
    State.grant { s with credits := s.credits.map fill }
  else s

/-- The first packet of a creditable operation asks for credit (R182); `before` counts the operation's bytes that were admitted ahead
of it. -/
def State.openCredit (s : State) (c st m total before : Nat) (creq : Bool) : State :=
  if creq && decide (65536 < total) && !(s.credits.any fun k => decide (k.ctx = c ∧ k.stream = st ∧ k.mtag = m)) then
    let k : Credit := ⟨c, st, m, ceilDiv (total - 65536) 65536, 0, 0, before⟩
    State.grant { s with credits := s.credits ++ [k] }
  else s

/-- Response bytes have been placed, or given up: the landing units return (R208). -/
def State.landed (s : State) (m n : Nat) (fail : Option Nat) : State :=
  s.updM m fun e => { e with
    got := e.got + n, land := e.land - ((e.got + n) / 4096 - e.got / 4096),
    localFail := if e.localFail.isSome then e.localFail else fail }

/-- RESP-DATA of an operation: placed at once, in any order (R116, R156, R228, R377). -/
def State.landIn (s : State) (c : Nat) (p : Packet) (bytes : List Byte) : State :=
  match s.manifest.look p.mtag with
  | none => s
  | some e =>
    if e.ctx ≠ c then s
    else
      let s := s.updM p.mtag fun e => { e with inBytes := e.inBytes + bytes.length }
      let s := (s.openCredit c 1 p.mtag e.total e.inBytes p.creq).fillCredit c 1 p.mtag bytes.length
      match e.owner, e.blk with
      | .unit f _ _, .hmsg .. =>
        (s.writeLocal f (e.laddr + p.offset) bytes).updM p.mtag fun e => { e with got := e.got + bytes.length }
      | _, _ =>
        match s.translateRange e.asid (e.laddr + p.offset) bytes.length e.func false true with
        | (s, .inl k) => s.landed p.mtag bytes.length (some k)
        | (s, .inr segs) =>
          if s.segAccess segs ≠ .ok then s.landed p.mtag bytes.length (some cLocalMemory)
          else
            let s := s.updM p.mtag fun e => { e with placing := e.placing + 1, host := e.host || !(segFuncs segs).isEmpty }
            s.startXfer (.land p.mtag p.offset bytes.length) true segs bytes e.rlx

/-- A write of response bytes completed, or failed. -/
def State.landOver (s : State) (m n : Nat) (ok : Bool) : State :=
  ((s.landed m n (if ok then none else some cLocalMemory)).updM m fun e => { e with placing := e.placing - 1 }).opCheck m

/-- A write of a fetched old value completed, or failed. -/
def State.resultOver (s : State) (m : Nat) (ok : Bool) : State :=
  let s := s.updM m fun e => { e with
    placing := 0, got := e.total, localFail := if ok then e.localFail else some cLocalMemory }
  s.opCheck m

/-- The flushing read of an operation completed (R437). -/
def State.flushMOver (s : State) (m : Nat) : State := (s.updM m fun e => { e with placing := 0 }).opCheck m

/-- A status entry comes into sequence (R163). -/
def State.statusIn (s : State) (c : Nat) (e : StatusEntry) : State :=
  match s.manifest.look e.mtag with
  | none => { s with stale := s.stale.filter fun k => decide (k ≠ (c, e.mtag)) }
  | some m =>
    if m.ctx ≠ c ∨ m.aborted then { s with stale := s.stale.filter fun k => decide (k ≠ (c, e.mtag)) }
    else
      let s := (s.dropSent c e.mtag).updM e.mtag fun m => { m with status := some (e.cause, e.value), reading := false }
      s.opCheck e.mtag

/-! ## Cancellation (R140, R141, R233) -/

/-- Decide a CANCEL at a manifest entry (the table of R140); the entry ends as cancelled now or when R141 lets it. -/
def State.opCancel (s : State) (m : Nat) : State × CancelOutcome :=
  match s.manifest.look m with
  | none => (s, .late)
  | some e =>
    if e.injected = 0 then ((s.dropWaiting e.ctx m).endOpClose m .cancelled, .none)
    else if e.blk.atomic || e.localFail.isSome then (s, .late)
    else
      let s := s.updM m fun e => { e with cancel := some .part }
      if e.blk.streams || (!e.rdv && !e.blk.gets) then
        let s := s.dropWaiting e.ctx m
        if e.lastInjected then (s, .part)
        else ((s.updM m fun e => { e with aborted := true }).queueAbort m e.nextOff |>.opCheck m, .part)
      else (s.opCheck m, .part)

/-- JOB-CLOSE retires an entry 2 ms after it began, as cancelled with partial delivery possible (the JOB-CLOSE table). -/
def State.opRetire (s : State) (m : Nat) : State :=
  match s.manifest.look m with
  | none => s
  | some e =>
    let s := s.dropWaiting e.ctx m
    if e.injected = 0 then s.endOpClose m .cancelled
    else
      let s := if e.lastInjected || e.aborted then s else s.queueAbort m e.nextOff
      s.endEarly m .cancelled

end Sys2Proof.Machine
end

