-- ==== Sys2Proof/Machine/XferTgt.lean ====
section
/-! DEFINITION. Operations at their target (R156, R163 to R167, R187 to R195, R219 to R231, R378): the checks, placement, reads and
atomics, packets that wait for their place in sequence, status entries. -/

namespace Sys2Proof.Machine

def cNoJobT : Nat := 0x12
def cTargetError : Nat := 0x11
def cRegionKey : Nat := 0x14
def cBounds : Nat := 0x15
def cRights : Nat := 0x16
def cTargetTranslation : Nat := 0x17
def cTargetMemory : Nat := 0x18
def cRemoteTally : Nat := 0x19
def cAtomicUnsupported : Nat := 0x1A
def cAlign : Nat := 0x1B

/-! ## The target checks (R187) -/

/-- Whether RIGHTS allow an operation. -/
def rightsAllow (rights op : Nat) : Bool :=
  if op = 0x0A then bitOf rights 0 else if op = 0x0B then bitOf rights 2 else bitOf rights 1

/-- The descriptor that a KEY names (check 2), or the cause. -/
def State.tgtLook (s : State) (slot job key : Nat) : Sum Nat (Descr × Bool) :=
  if s.rd .GLB_JOB_MODE slot = 0 then
    match s.windows.look (slot, key) with
    | some w => if key < 256 ∧ w.state = .opened then .inr (w.d, true) else .inl cWindow
    | none => .inl cWindow
  else
    match s.regions.look key with
    | some r => if r.live ∧ r.job = job then .inr (r.d, false) else .inl cRegionKey
    | none => .inl cRegionKey

/-- Checks 1 to 5 of R187 for an operation of a job slot: the cause, or the descriptor and whether it is a window's. -/
def State.tgtChecks (s : State) (slot job : Nat) : OpBlock → Sum Nat (Descr × Bool)
  | .oneSided op _ _ _ _ _ rtally key length roff _ =>
    if s.jobState slot ≠ jobOpened then .inl cNoJobT
    else
      match s.tgtLook slot job key with
      | .inl k => .inl k
      | .inr (d, win) =>
        if !rightsAllow d.rights op then .inl cRights
        else if d.length < roff + length then .inl cBounds
        else if op = 0x0B ∧ roff % length ≠ 0 then .inl cAlign
        else if tfEn rtally && !(s.job slot).hasTally (tfNum rtally) then .inl cRemoteTally
        else .inr (d, win)
  | _ => .inl cNoJobT

/-- The held locations of a range of a region (R202); `fuel` bounds the leaves. -/
def leafSegs (ls : List Leaf) : Nat → Nat → Nat → Option (List (Loc × Nat))
  | 0, _, n => if n = 0 then some [] else none
  | fuel + 1, off, n =>
    if n = 0 then some []
    else
      match ls.find? fun l => decide (l.start ≤ off ∧ off < l.start + l.size) with
      | none => none
      | some l =>
        let k := min n (l.start + l.size - off)
        let loc := match l.loc with | .host f a => Loc.host f (a + (off - l.start)) | .pkg a => Loc.pkg (a + (off - l.start))
        (leafSegs ls fuel (off + k) (n - k)).map fun r => (loc, k) :: r

/-- The places of a range of a window or region (check 6), or the cause. -/
def State.tgtSegs (s : State) (d : Descr) (win : Bool) (key off n : Nat) (needR needW : Bool) : State × Sum Nat (List (Loc × Nat)) :=
  if win then
    match s.translateRange d.asid (d.base + off) n d.func needR needW with
    | (s, .inl _) => (s, .inl cTargetTranslation)
    | (s, .inr segs) => (s, .inr segs)
  else
    match (s.regions.look key).bind fun r => leafSegs r.leaves (n + 1) off n with
    | some segs => (s, .inr segs)
    | none => (s, .inl cTargetTranslation)

/-! ## Status entries (R163, R164, R188, R227) -/

/-- Whether the message of a SEND has matched (R227); one that is gone was taken. -/
def State.msgMatched (s : State) (t : TOp) : Bool :=
  match t.msg.bind s.msgs.look with
  | some m => m.recv.isSome
  | none => true

/-- The status entry of an operation whose effects are complete; RTALLY first, a flushing read before that (R21, R163, R188,
R189). -/
def State.topCheck (s : State) (c m : Nat) : State :=
  match s.tops.look (c, m) with
  | none => s
  | some t =>
    if t.statusQueued then s
    else
      match t.result with
      | some r => s.sendStatus c m r.1 r.2
      | none =>
        if !t.lastSeq || decide (t.busy ≠ 0) then s
        else if t.aborted then { s with tops := s.tops.del (c, m) }
        else if t.host then
          (s.updTop c m fun t => { t with host := false, busy := 1 }).startFlush (.flushT c m) (t.port.getD 0)
        else
          match t.fail with
          | some f => s.sendStatus c m f.2 0
          | none =>
            match t.blk with
            | .hmsg .. => s
            | .send sync rdv .. => if rdv || !sync || s.msgMatched t then s.sendStatus c m 0 0 else s
            | .pull length _ => if t.nextOff < length then s else s.sendStatus c m 0 0
            | .oneSided op _ _ _ _ _ rtally _ length _ _ =>
              if op = 0x0A ∧ t.nextOff < length then s
              else (if t.tallied then s else s.bumpField rtally).sendStatus c m 0 t.value

/-! ## PUT and PUTI -/

/-- Place the bytes of a PUT or PUTI packet (R115, R117, R187). -/
def State.tgtPlace (s : State) (c : Nat) (p : Packet) (slot : Nat) (blk : OpBlock) (bytes : List Byte) : State :=
  match blk with
  | .oneSided _ rlx _ _ _ _ _ key _ roff _ =>
    match s.tgtChecks slot p.job blk with
    | .inl k => s.topFail c p.mtag p.offset k
    | .inr (d, win) =>
      if bytes = [] then s
      else
        match s.tgtSegs d win key (roff + p.offset) bytes.length false true with
        | (s, .inl k) => s.topFail c p.mtag p.offset k
        | (s, .inr segs) =>
          if s.segAccess segs ≠ .ok then s.topFail c p.mtag p.offset cTargetMemory
          else
            let hp := segFunc segs
            let s := s.updTop c p.mtag fun t => { t with
              busy := t.busy + 1, host := t.host || hp.isSome, port := if hp.isSome then hp else t.port }
            s.startXfer (.place c p.mtag p.offset) true segs bytes rlx
  | _ => s

/-- A write at the target completed, or failed (check 8). -/
def State.placeOver (s : State) (c m off : Nat) (ok : Bool) : State :=
  let s := s.updTop c m fun t => { t with busy := t.busy - 1 }
  (if ok then s else s.topFail c m off cTargetMemory).topCheck c m

/-! ## ATOMIC (R192 to R195) -/

/-- The PCIe AtomicOp that carries an AOP out at once (R193): ADD FetchAdd, SWAP Swap, CSWAP CAS. -/
def pcieAtomic (aop : Nat) : Bool := decide (aop ≤ 2)

/-- Send a request of a host ATOMIC (R193): FetchAdd, Swap or CAS for the AOPs that PCIe has; for another one a read, and then, with the
value that it read, a CAS of the computed value against that value. -/
def State.askAtomic (s : State) (c m tries : Nat) (expect : Option Nat) (seg : Loc × Nat) (blk : OpBlock) (bytes : List Byte) : State :=
  match blk, seg with
  | .oneSided _ rlx _ _ signed aop _ _ _ _ operand, (.host f a, n) =>
    let ask : Out :=
      if pcieAtomic aop then .hostAtomic f a n aop operand (leNat bytes) rlx
      else
        match expect with
        | none => .hostRead f a n
        | some old => .hostAtomic f a n 2 (atomicNew aop (8 * n) signed old operand 0) old rlx
    let id := s.nextId
    let s := ((s.count (hostUnit f) 1).emit ask).armIn (.completion id) (s.completionTicks f)
    let x : Xfer := { kind := .hostAtomic c m tries expect, write := false, segs := [seg], bytes := bytes, mover := id % 32, rlx := rlx }
    { s.idNext with xfers := s.xfers.put id x }
  | _, _ => s

/-- An ATOMIC at its target: in package memory by the atomic unit, in host memory by an AtomicOp of the host port. -/
def State.tgtAtomic (s : State) (c : Nat) (p : Packet) (slot : Nat) (blk : OpBlock) (bytes : List Byte) : State :=
  match blk with
  | .oneSided _ _ _ _ _ _ _ key length roff _ =>
    match s.tgtChecks slot p.job blk with
    | .inl k => s.topFail c p.mtag 0 k
    | .inr (d, win) =>
      match s.tgtSegs d win key roff length true true with
      | (s, .inl k) => s.topFail c p.mtag 0 k
      | (s, .inr segs) =>
        match segs with
        | (.pkg a, _) :: _ =>
          let id := s.nextId
          let x : Xfer := { kind := .memAtomic c p.mtag, write := false, segs := [(.pkg a, length)], bytes := bytes, mover := id % 32 }
          let s := (s.count 261 3).updTop c p.mtag fun t => { t with busy := t.busy + 1 }
          { s.idNext with xfers := s.xfers.put id x }
        | (.host f a, n) :: _ =>
          if !d.ao then s.topFail c p.mtag 0 cAtomicUnsupported
          else if s.segAccess segs ≠ .ok then s.topFail c p.mtag 0 cTargetMemory
          else (s.updTop c p.mtag fun t => { t with busy := t.busy + 1 }).askAtomic c p.mtag 0 none (.host f a, n) blk bytes
        | [] => s
  | _ => s

/-- The atomic unit of package memory is done with an ATOMIC (R195), or its access met an error or poison (check 8 of R187). -/
def State.memAtomicOver (s : State) (c m : Nat) (segs : List (Loc × Nat)) (bytes : List Byte) (ok : Bool) : State :=
  match s.tops.look (c, m), segs with
  | some t, (l, n) :: _ =>
    match t.blk with
    | .oneSided _ _ _ _ signed aop _ _ _ _ operand =>
      let s := s.updTop c m fun t => { t with busy := t.busy - 1 }
      if !ok then (s.topFail c m 0 cTargetMemory).topCheck c m
      else
        let old := leNat (s.readLoc l n)
        let s := s.writeLoc l (leBytes n (atomicNew aop (8 * n) signed old operand (leNat bytes)))
        (s.updTop c m fun t => { t with value := old }).topCheck c m
    | _ => s
  | _, _ => s

/-- The PCIe request of a host ATOMIC completed (R193, R194): FetchAdd, Swap and CAS at once; the others read and then compare
and swap, until the word is unchanged, at most 256 mismatches. -/
def State.atomicOver (s : State) (id c m tries : Nat) (expect : Option Nat) (segs : List (Loc × Nat)) (bytes : List Byte)
    (mismatch : Bool) (old : Nat) : State :=
  let s := s.endXfer id
  match s.tops.look (c, m), segs with
  | some t, (l, n) :: _ =>
    match t.blk with
    | .oneSided _ _ _ _ signed aop _ _ length _ operand =>
      let w := 8 * length
      let old := old % 2 ^ w
      let endOp (s : State) : State := (s.updTop c m fun t => { t with busy := t.busy - 1, value := old }).topCheck c m
      let put (s : State) (v : Nat) : State :=
        match l with
        | .host f a => { s with hostMem := memWrite s.hostMem (hostKey f a) (leBytes length v) }
        | .pkg _ => s
      if pcieAtomic aop then endOp (put s (atomicNew aop w signed old operand (leNat bytes)))
      else
        match expect with
        | none => s.askAtomic c m tries (some old) (l, n) t.blk bytes
        | some e =>
          if !mismatch then endOp (put s (atomicNew aop w signed e operand 0))
          else if 255 ≤ tries then
            ((s.updTop c m fun t => { t with busy := t.busy - 1 }).topFail c m 0 cAtomicUnsupported).topCheck c m
          else s.askAtomic c m (tries + 1) none (l, n) t.blk bytes
    | _ => s
  | _, _ => s

/-! ## GET and pulls (R116, R166, R182, R228, R229) -/

/-- A pull cannot be served: the SEND fails with the local cause (R229, R531). -/
def State.pullFail (s : State) (t : TOp) (cause : Nat) : State :=
  match t.pull with
  | some m => s.updM m fun e => { e with localFail := if e.localFail.isSome then e.localFail else some cause }
  | none => s

/-- The places of `n` bytes of a GET or pull: the status cause and, for a pull, the SEND's cause, or the segments. -/
def State.serveSegs (s : State) (t : TOp) (off n : Nat) : State × Sum (Nat × Nat) (List (Loc × Nat)) :=
  let guardAccess (s : State) (segs : List (Loc × Nat)) : State × Sum (Nat × Nat) (List (Loc × Nat)) :=
    if s.segAccess segs = .ok then (s, .inr segs) else (s, .inl (cTargetMemory, cLocalMemory))
  match t.blk with
  | .oneSided _ _ _ _ _ _ _ key _ roff _ =>
    match t.d with
    | none => (s, .inl (cTargetMemory, 0))
    | some d =>
      match s.tgtSegs d t.win key (roff + off) n true false with
      | (s, .inl k) => (s, .inl (k, 0))
      | (s, .inr segs) => guardAccess s segs
  | _ =>
    match t.pull.bind s.manifest.look with
    | none => (s, .inl (cTargetMemory, 0))
    | some e =>
      match s.translateRange e.asid (e.laddr + off) n e.func true false with
      | (s, .inl k) => (s, .inl (cTargetTranslation, k))
      | (s, .inr segs) => guardAccess s segs

/-- Read the next bytes of a GET or pull, as far as its credit and, for the last, its place in sequence allow. -/
def State.topServe (s : State) (c m : Nat) : State :=
  match s.tops.look (c, m) with
  | none => s
  | some t =>
    let total := t.blk.len
    let n := min 4096 (total - t.nextOff)
    if !t.blk.gets || t.fail.isSome || decide (t.busy ≠ 0) || t.statusQueued || t.result.isSome || decide (total ≤ t.nextOff)
        || decide (65536 * (1 + t.grant) < t.nextOff + n) || (decide (t.nextOff + n = total) && !t.lastSeq) then s
    else
      match s.serveSegs t t.nextOff n with
      | (s, .inl k) => ((s.pullFail t k.2).topFail c m t.nextOff k.1).topCheck c m
      | (s, .inr segs) =>
        (s.updTop c m fun t => { t with busy := t.busy + 1 }).startXfer (.serve c m t.nextOff n none) false segs []

/-- A read of a GET or pull completed, or failed: the RESP-DATA packet; RTALLY before the last one (R116). -/
def State.serveOver (s : State) (c m off n : Nat) (re : Option Nat) (ok : Bool) (bytes : List Byte) : State :=
  match re with
  | some psn =>
    s.resend c 1 psn fun p => if ok then { p with body := .resp bytes } else p
  | none =>
    match s.tops.look (c, m) with
    | none => s
    | some t =>
      let s := s.updTop c m fun t => { t with busy := t.busy - 1 }
      if !ok then ((s.pullFail t cLocalMemory).topFail c m off cTargetMemory).topCheck c m
      else
        let total := t.blk.len
        let fin := decide (off + n = total)
        let s :=
          match t.blk with
          | .oneSided _ _ _ _ _ _ rtally _ _ _ _ => if fin then s.bumpField rtally else s
          | _ => s
        let s := s.updTop c m fun t => { t with nextOff := off + n, tallied := t.tallied || fin }
        let s := s.queueResp c m off bytes fin (decide (off = 0 ∧ 65536 < total))
        (s.topServe c m).topCheck c m

/-- A GET begins: checks 1 to 5, then its reads. -/
def State.tgtGet (s : State) (c : Nat) (p : Packet) (slot : Nat) (blk : OpBlock) : State :=
  match s.tgtChecks slot p.job blk with
  | .inl k => s.topFail c p.mtag 0 k
  | .inr (d, win) => (s.updTop c p.mtag fun t => { t with d := some d, win := win }).topServe c p.mtag

/-- Whether a manifest entry is the rendezvous SEND that a pull's HANDLE names (check 2 of R229). -/
def State.pullOf (s : State) (c handle : Nat) : Option (Nat × MEntry) :=
  let m := handle % 2 ^ 17
  match s.manifest.look m with
  | none => none
  | some e =>
    match e.blk with
    | .send _ rdv _ _ _ _ h =>
      if rdv ∧ e.ctx = c ∧ h = handle ∧ e.cancel.isNone ∧ !e.pulled ∧ e.localFail.isNone then some (m, e) else none
    | _ => none

/-- A pull begins: the checks of R229, then its reads. -/
def State.tgtPull (s : State) (c : Nat) (p : Packet) (slot length handle : Nat) : State :=
  if s.jobState slot ≠ jobOpened then s.topFail c p.mtag 0 cNoJobT
  else
    match s.pullOf c handle with
    | none => s.topFail c p.mtag 0 cTargetError
    | some (m, e) =>
      if e.total < length then s.topFail c p.mtag 0 cBounds
      else
        let s := (s.updM m fun e => { e with pulled := true }).updTop c p.mtag fun t => { t with pull := some m }
        match s.translateRange e.asid e.laddr length e.func true false with
        | (s, .inl k) => ((s.pullFail { slot := slot, blk := .pull length handle, pull := some m } k).topFail c p.mtag 0 cTargetTranslation).watch c
        | (s, .inr _) => (s.watch c).topServe c p.mtag

/-- The retransmission of a RESP-DATA packet (R166): its bytes are read again; where that fails the bytes sent before go. -/
def State.retransmitResp (s : State) (c psn : Nat) (p : Packet) : State :=
  match s.tops.look (c, p.mtag), p.body with
  | some t, .resp bytes =>
    if !t.blk.gets then s.resend c 1 psn id
    else
      match s.serveSegs t p.offset bytes.length with
      | (s, .inl _) => s.resend c 1 psn id
      | (s, .inr segs) => s.startXfer (.serve c p.mtag p.offset bytes.length (some psn)) false segs []
  | _, _ => s.resend c 1 psn id

/-- Whether a response packet belongs to an operation. -/
def respOf (m : Nat) (p : Packet) : Bool :=
  match p.body with
  | .resp _ => decide (p.mtag = m)
  | .status es => es.any fun e => decide (e.mtag = m)
  | _ => false

/-- Whether a response packet of an operation is not yet acknowledged. -/
def Ctx.respLeft (x : Ctx) (m : Nat) : Bool :=
  let t := x.tx 1
  t.una.any (fun u => respOf m u.pkt) || t.waiting.any (respOf m) || t.resend.any (respOf m)

/-- Release a read slot: an ended pull lets its SEND go on (R166, R227). -/
def State.releaseSlot (s : State) (c m : Nat) : State :=
  match s.tops.look (c, m) with
  | none => s
  | some t =>
    let s := { s with tops := s.tops.del (c, m) }
    match t.pull with
    | some k => (s.updM k fun e => { e with pullOver := true }).opCheck k
    | none => s

/-- Release the read slots of a context whose responses are acknowledged (R166). -/
def State.releaseReads (s : State) (c : Nat) : State :=
  let ms := (s.tops.cells.filter fun t => decide (t.1.1 = c) && t.2.statusQueued).map (·.1.2)
  forEach (fun s m =>
    match s.ctxs.look c with
    | some x => if x.respLeft m then s else s.releaseSlot c m
    | none => s) ms s

/-! ## HMSG (R378, R383) -/

/-- Checks 1 to 3 of R378, or the cause. -/
def State.hmsgCause (s : State) (slot handler ferry length rlen : Nat) : Nat :=
  let ok :=
    match (s.ferry ferry).entries.look handler with
    | some h => h.remote && decide (0x80 ≤ handler)
    | none => false
  if s.jobState slot ≠ jobOpened then cNoJobT
  else if !s.ferryOn ferry || !s.servesJob ferry slot || !ok then 0x28
  else if 4064 < length ∨ 4096 < rlen then cBounds
  else 0

/-- Check 4 of R378: the ferry is RUNNING and has room. -/
def State.hmsgRoom (s : State) (ferry : Nat) : Bool := decide (s.fxState ferry = fxRunning) && s.dispatchRoom ferry

/-! ## Packets in sequence (R156, R167, R219 to R223) -/

/-- Whether a placement of a context is in flight. -/
def State.ctxPlacing (s : State) (c : Nat) : Bool :=
  s.tops.cells.any fun t => decide (t.1.1 = c ∧ t.2.busy ≠ 0) && !t.2.blk.gets

/-- Take a packet out of the resequencing store, or out of what a closed context has left there (R223). -/
def State.unstore (s : State) (c st psn : Nat) : State :=
  let left (r : RecvStream) : RecvStream := { r with store := r.store.filter fun p => decide (p.psn ≠ psn) }
  match s.ghosts.look c with
  | some g =>
    if psn < 2 ^ 32 then s.updRx c st left
    else
      let r := left (g.rx 0)
      { s with ghosts := if r.store.isEmpty then s.ghosts.del c else s.ghosts.put c { g with rcv := ⟨[(0, r)]⟩ } }
  | none => s.updRx c st left

/-- The LAST packet of an operation is in sequence: its completion starts (R156, R163). -/
def State.seqLast (s : State) (c m : Nat) : State :=
  ((s.updTop c m fun t => { t with lastSeq := true }).topServe c m).topCheck c m

/-- An ABORT packet is in sequence: the target drops its state for the operation (R167). -/
def State.seqAbort (s : State) (c : Nat) (p : Packet) : State :=
  match s.tops.look (c, p.mtag) with
  | none => s
  | some t =>
    let s := (s.updTop c p.mtag fun t => { t with aborted := true, msg := none }).endCredit c 0 p.mtag
    let s := match t.msg with | some id => if t.aborted then s else s.msgCut id none | none => s
    if p.last then s.seqLast c p.mtag else s

/-- Perform a PUT, GET or ATOMIC packet. -/
def State.tgtRun (s : State) (c : Nat) (p : Packet) (slot : Nat) (blk : OpBlock) (bytes : List Byte) : State :=
  if blk.atomic then s.tgtAtomic c p slot blk bytes
  else
    match blk with
    | .pull length handle => s.tgtPull c p slot length handle
    | .oneSided op .. => if op = 0x0A then s.tgtGet c p slot blk else s.tgtPlace c p slot blk bytes
    | _ => s

/-- A SEND's bytes are being written to its receive's buffer; one in host memory has its status after a flushing read (R21, R163, R189). -/
def State.sendPlacing (s : State) (c m id : Nat) : State :=
  let hp := ((s.msgs.look id).bind (·.recv)).bind fun i => (s.recvs.look i).bind fun r => if r.host then some r.func else none
  s.updTop c m fun t => { t with busy := t.busy + 1, host := t.host || hp.isSome, port := if hp.isSome then hp else t.port }

/-- Present a SEND packet to its catcher, or follow the decision of its first packet (R219, R220, R529); none where the message is
held (R223). -/
def State.seqSend (s : State) (c : Nat) (x : Ctx) (p : Packet) (rdv : Bool) (comm rank length tag handle : Nat) (bytes : List Byte) :
    Option State :=
  match s.tops.look (c, p.mtag) with
  | none => some s
  | some t =>
    let first :=
      if p.offset ≠ 0 ∨ t.msg.isSome ∨ t.fail.isSome then some s
      else if s.jobState x.slot ≠ jobOpened ∧ !t.kept then some (s.topFail c p.mtag 0 cNoJobT)
      else (s.present c x p.mtag rdv comm rank length tag handle).map fun r => r.1.updTop c p.mtag fun t => { t with msg := some r.2 }
    first.map fun s =>
      let s :=
        match (s.tops.look (c, p.mtag)).bind (·.msg) with
        | none => s
        | some id =>
          let s :=
            match s.msgData c p.mtag id p.offset bytes with
            | (s, none) => s.topFail c p.mtag p.offset cTargetMemory
            | (s, some true) => s.sendPlacing c p.mtag id
            | (s, some false) => s
          if p.last then s.msgLast id else s
      if p.last then s.seqLast c p.mtag else s

/-- Dispatch an HMSG packet, or refuse it with a cause (R378); none while its ferry has no room. -/
def State.seqHmsg (s : State) (c : Nat) (x : Ctx) (p : Packet) (handler ferry length rlen : Nat) (bytes : List Byte) : Option State :=
  let k := s.hmsgCause x.slot handler ferry length rlen
  if k ≠ 0 then some ((s.topFail c p.mtag 0 k).seqLast c p.mtag)
  else if !s.hmsgRoom ferry then none
  else
    let e : DEvent := {
      kind := .hmsg c p.mtag, entry := handler, slot := x.slot, asid := s.rd .FX_JOBSEG_ASID ferry,
      args := [(2, length), (3, p.src), (4, rlen)], payload := bytes }
    some ((s.pushEvent ferry e).seqLast c p.mtag)

/-- A SEND packet waits in sequence behind a held one: its own turn came while its slot was OPEN, so it is presented (R223, R529). -/
def State.noteKept (s : State) (c : Nat) (x : Ctx) (p : Packet) : State :=
  if p.offset = 0 ∧ s.jobState x.slot = jobOpened then s.updTop c p.mtag fun t => { t with kept := true } else s

/-- Count a presentation that is held, once (R223, R481). -/
def State.noteHeld (s : State) (c : Nat) (x : Ctx) (p : Packet) (comm : Nat) : State :=
  match s.tops.look (c, p.mtag), s.catcherOf ⟨x.slot, x.loc % 4096, comm⟩ with
  | some t, some k => if t.held then s else (s.updTop c p.mtag fun t => { t with held := true }).count (catcherUnit k) 4
  | _, _ => s

/-- Walk the packets of a request stream that are in sequence, in PSN order (R156): `blocked` says that an earlier SEND or HMSG
waits, `waits` that an earlier packet of any kind does. -/
def State.seqWalk (s : State) (c : Nat) (x : Ctx) (blocked waits : Bool) : List Packet → State
  | [] => s
  | p :: r =>
    match p.body with
    | .data blk bytes =>
      if p.abort then State.seqWalk ((s.unstore c 0 p.psn).seqAbort c p) c x blocked waits r
      else if (s.tops.look (c, p.mtag)).any (·.aborted) then
        let s := s.unstore c 0 p.psn
        State.seqWalk (if p.last then s.seqLast c p.mtag else s) c x blocked waits r
      else
        match blk with
        | .send _ rdv comm rank length tag handle =>
          if blocked then State.seqWalk (s.noteKept c x p) c x true true r
          else
            match s.seqSend c x p rdv comm rank length tag handle bytes with
            | some s => State.seqWalk (s.unstore c 0 p.psn) c x blocked waits r
            | none => State.seqWalk ((s.noteHeld c x p comm).noteKept c x p) c x true true r
        | .hmsg _ handler ferry length rlen =>
          if blocked then State.seqWalk s c x true true r
          else
            match s.seqHmsg c x p handler ferry length rlen bytes with
            | some s => State.seqWalk (s.unstore c 0 p.psn) c x blocked waits r
            | none => State.seqWalk s c x true true r
        | _ =>
          if !p.ord then State.seqWalk ((s.unstore c 0 p.psn).seqLast c p.mtag) c x blocked waits r
          else if waits || s.ctxPlacing c then State.seqWalk s c x blocked true r
          else
            let s := (s.unstore c 0 p.psn).tgtRun c p x.slot blk bytes
            State.seqWalk (if p.last then s.seqLast c p.mtag else s) c x blocked waits r
    | _ => State.seqWalk (s.unstore c 0 p.psn) c x blocked waits r

/-- The packets of a stream's store that are in sequence, in PSN order. -/
def RecvStream.inSeq (r : RecvStream) : List Packet :=
  (r.store.filter fun p => idxBefore p.psn r.cum).mergeSort fun a b => idxLe a.psn b.psn

/-- What the packets of a request stream that are in sequence let happen; those that a closed context of the pair has left come first. -/
def State.seqPass (s : State) (c : Nat) : State :=
  let s := match s.ghosts.look c with
    | some g => s.seqWalk c g false false (g.rx 0).store
    | none => s
  let left := (s.ghosts.look c).isSome
  match s.ctxs.look c with
  | none => s
  | some x => s.seqWalk c x left left (x.rx 0).inSeq

/-! ## Admission of a DATA packet (R154 check 8, R156) -/

/-- Whether a packet that needs its place in sequence finds no room in the store (R156). -/
def State.storeFull (s : State) (r : RecvStream) (p : Packet) (needs behind : Bool) : Bool :=
  (needs && (decide (p.psn ≠ r.cum) || (behind && r.store.any fun q => idxBefore q.psn r.cum)))
    && decide (67108864 < s.storeUsed + 64 + p.length)

/-- Whether the walk of a window access stops only because the slot's WFUNC is quiescing or in FLR (R417, R438 step 5): with that function
NORMAL the walk succeeds. -/
def State.walkBusy (s : State) (d : Descr) (win : Bool) (key off n : Nat) (needR needW : Bool) : Bool :=
  match s.asidSlot d.asid with
  | none => false
  | some a =>
    let f := s.rd .TX_ASID_WFUNC a
    win && decide (s.fnAccess f = .busy) &&
      match ((s.wr .HI_FN_STATE_STATE (fnIdx f) 0).tgtSegs d win key off n needR needW).2 with
      | .inl _ => false
      | .inr _ => true

/-- Whether the target function of a packet, or the function whose tables its translation reads, refuses for now (R438 step 5). -/
def State.tgtBusy (s : State) (slot : Nat) (p : Packet) (blk : OpBlock) (bytes : List Byte) : Bool :=
  match blk with
  | .oneSided op _ _ _ _ _ _ key length roff _ =>
    match s.tgtChecks slot p.job blk with
    | .inl _ => false
    | .inr (d, win) =>
      let n := if op = 0x0A then min length 4096 else if op = 0x0B then length else bytes.length
      let r := decide (op ≠ 0x08 ∧ op ≠ 0x09)
      let w := decide (op ≠ 0x0A)
      match (s.tgtSegs d win key (roff + p.offset) n r w).2 with
      | .inl _ => s.walkBusy d win key (roff + p.offset) n r w
      | .inr segs => !(op = 0x0B ∧ !d.ao) && decide (s.segAccess segs = .busy)
  | _ => false

/-- The row of the NACK-BUSY table that refuses a DATA packet (check 8 of R154), if any. -/
def State.busyRow (s : State) (x : Ctx) (p : Packet) (blk : OpBlock) (bytes : List Byte) : Option Nat :=
  if blk.needsSlot && decide (65536 ≤ s.reads) then some 2
  else if s.storeFull (x.rx 0) p (p.ord || p.last || p.abort || blk.ordered) blk.ordered then some 3
  else if s.tgtBusy x.slot p blk bytes then some 6
  else
    match blk with
    | .hmsg _ handler ferry length rlen =>
      if s.hmsgCause x.slot handler ferry length rlen = 0 ∧ !s.hmsgRoom ferry then some 7
      else if s.rd .MF_QUOTA_READS x.slot ≤ s.readsOf x.slot then some 8 else none
    | _ => if blk.needsSlot && decide (s.rd .MF_QUOTA_READS x.slot ≤ s.readsOf x.slot) then some 8 else none

/-- A response packet under another number of its operation. -/
def reTag (m m' : Nat) (p : Packet) : Packet :=
  match p.body with
  | .resp _ => if p.mtag = m then { p with mtag := m' } else p
  | .status es => { p with body := .status (es.map fun e => if e.mtag = m then { e with mtag := m' } else e) }
  | _ => p

/-- Give an ended operation another number of the model's own, m + k × 2^17 with k ≥ 1, since its requester uses its MTAG again: its read
slot and its response packets stand until they are acknowledged (R166). On the wire a number is its bits 16:0 (R149). -/
def State.parkTop (s : State) (c m : Nat) : State :=
  match s.tops.look (c, m) with
  | none => s
  | some t =>
    let used := (s.tops.cells.filter fun x => decide (x.1.1 = c ∧ x.1.2 % 2 ^ 17 = m % 2 ^ 17)).length
    let m' := (((List.range (used + 1)).map fun k => m % 2 ^ 17 + (k + 1) * 2 ^ 17).find? fun n => (s.tops.look (c, n)).isNone).getD m
    let kind (k : XferKind) : XferKind :=
      match k with
      | .place d n o => if d = c ∧ n = m then .place d m' o else k
      | .serve d n o l r => if d = c ∧ n = m then .serve d m' o l r else k
      | _ => k
    let xfers : Tab Nat Xfer := ⟨s.xfers.cells.map fun x => (x.1, { x.2 with kind := kind x.2.kind })⟩
    let s := { s with tops := (s.tops.del (c, m)).put (c, m') t, xfers := xfers }
    s.updTx c 1 fun t => { t with
      una := t.una.map fun u => { u with pkt := reTag m m' u.pkt }, resend := t.resend.map (reTag m m'),
      waiting := t.waiting.map (reTag m m') }

/-- The target's state of an operation begins with its first packet (R163): an operation before it under the same number has ended. -/
def State.topOpen (s : State) (c : Nat) (x : Ctx) (p : Packet) (blk : OpBlock) : State :=
  let ended :=
    match s.tops.look (c, p.mtag) with
    | none => true
    | some t => t.statusQueued || (t.aborted && t.lastSeq)
  if !ended then s
  else
    let s := s.parkTop c p.mtag
    let key := match blk with | .oneSided _ _ _ _ _ _ _ k _ _ _ => k | _ => 0
    let t : TOp := { slot := x.slot, blk := blk, read := blk.needsSlot, key := key, win := decide (s.rd .GLB_JOB_MODE x.slot = 0) }
    { s with tops := s.tops.put (c, p.mtag) t }

/-- A LAST packet has come into sequence since CUM stood at `old`: the receiver acknowledges (R161). -/
def State.ackLast (s : State) (c st old : Nat) : State :=
  match s.ctxs.look c with
  | none => s
  | some x =>
    let r := x.rx st
    if r.npkt ≠ 0 ∧ r.store.any fun p => p.last && !idxBefore p.psn old && idxBefore p.psn r.cum then s.sendAck c st else s

/-- Keep a packet until its place in sequence; one whose data has been placed is kept without it. -/
def State.store (s : State) (c st : Nat) (p : Packet) : State := s.updRx c st fun r => { r with store := r.store ++ [p] }

/-- Whether the entry of the region that a packet names is not cached (R204). -/
def State.regionAway (s : State) (x : Ctx) : OpBlock → Bool
  | .oneSided _ _ _ _ _ _ _ key _ _ _ =>
    decide (s.rd .GLB_JOB_MODE x.slot = 1)
      && (match s.regions.look key with | some r => r.live && decide (r.job = x.job) && !r.cached | none => false)
  | _ => false

/-- Admit a packet of an operation, open the operation with its first packet, and keep its credit current. -/
def State.dataOpen (s : State) (c : Nat) (x : Ctx) (p : Packet) (blk : OpBlock) (bytes : List Byte) : State :=
  let s := (s.admitPkt c p).topOpen c x p blk
  if !blk.streams then s
  else
    let before := match s.tops.look (c, p.mtag) with | some t => t.inBytes | none => 0
    let s := s.updTop c p.mtag fun t => { t with inBytes := t.inBytes + bytes.length }
    (s.openCredit c 0 p.mtag blk.len before p.creq).fillCredit c 0 p.mtag bytes.length

/-- Whether an operation has been aborted. -/
def State.opDead (s : State) (c m : Nat) : Bool := (s.tops.look (c, m)).any (·.aborted)

/-- What an admitted packet waits for, or does at once: an abort, an ordered operation and a packet of ORD wait for their turn in
sequence; another packet runs, and one that is last keeps its turn for the end of the operation. -/
def State.dataPut (s : State) (c : Nat) (p : Packet) (slot : Nat) (blk : OpBlock) (bytes : List Byte) (dead : Bool) : State :=
  if p.abort || blk.ordered || (p.ord && !dead) then s.store c 0 p
  else
    let s := if dead then s else s.tgtRun c p slot blk bytes
    if p.last then s.store c 0 (Packet.bare p) else s

/-- A DATA packet at its context, by where its PSN lies. -/
def State.dataAt (s : State) (c : Nat) (x : Ctx) (p : Packet) (blk : OpBlock) (bytes : List Byte) : PsnCase → State
  | .duplicate => s.dupAck c 0 p
  | .beyond => s.count uTransport 7
  | .new =>
    if s.regionAway x blk then s.moor p
    else
      match s.busyRow x p blk bytes with
      | some row => s.nackBusy p row retry2
      | none =>
        let s := s.dataOpen c x p blk bytes
        (((s.dataPut c p x.slot blk bytes (s.opDead c p.mtag)).ackLast c 0 (x.rx 0).cum)).seqPass c

/-- Checks 7 and 8 of R154 and admission of a DATA packet at its context. A packet whose region entry is not cached is moored
(R204). -/
def State.dataIn (s : State) (c : Nat) (p : Packet) (blk : OpBlock) (bytes : List Byte) : State :=
  match s.ctxs.look c with
  | none => s
  | some x => s.dataAt c x p blk bytes ((x.rx 0).psnCase p.psn)

/-! ## Everything that waits -/

/-- What waits for the end of something else is tried again, and contexts that are wanted close (R172): operations that queue behind others, presentations and dispatches that
are held, status entries that wait for a match, revocations, pulls. -/
def State.settleAll (s : State) : State :=
  let s := s.retryPulls
  let s := forEach State.seqPass (s.ghosts.keys.filter fun c => (s.ctxs.look c).isNone) s
  let s := forEach (fun s c => if (s.ctxs.look c).any (fun x => !(x.rx 0).store.isEmpty) then s.seqPass c else s) s.ctxs.keys s
  let s := forEach (fun s k => match s.tops.look k with
    | some t => if t.lastSeq && !t.statusQueued && decide (t.busy = 0) then s.topCheck k.1 k.2 else s
    | none => s) s.tops.keys s
  let s := forEach (fun s m => s.pumpEntry m) s.manifest.keys s
  let s := forEach State.collFlush (s.colls.keys.filter fun c => (s.colls.look c).any fun x => !x.pending.isEmpty) s
  s.revokeSettle.lowWater

end Sys2Proof.Machine
end

