-- ==== Sys2Proof/Machine/RxOps.lean ====
section
/-! DEFINITION. The transport's streams at work: injection (R152, R170, R179 to R181), acknowledgements and rates (R161, R162, R168,
R169, R180), NACK-BUSY (R165), responses and COLL packets (R163, R244), closes (R172, R173), and the receive checks that join
them (R154). -/

namespace Sys2Proof.Machine

/-! ## Injection -/

/-- The oldest unacknowledged packet's timer: from its latest transmission (R169). -/
def State.armRto (s : State) (c st : Nat) : State :=
  match s.ctxs.look c with
  | none => s
  | some x =>
    match (x.tx st).una with
    | [] => s.disarm (.rto c st)
    | u :: _ => s.arm (.rto c st) (max s.now (u.sentAt + (x.tx st).rto))

/-- A rate held between RATE_MIN and RATE_MAX as they stand (R179, R183). -/
def State.rateHeld (s : State) (r : Nat) : Nat := min (s.rd .TP_CC_RATE_RATE_MAX) (max (s.rd .TP_CC_RATE_RATE_MIN) r)

/-- The token bucket of a stream now: it fills at its rate, up to BURST (R181). -/
def State.bucketNow (s : State) (t : SendStream) : Nat :=
  min (s.rd .TP_CC_RATE_BURST * 256 * 320) (t.bucket + s.rateHeld t.rate * (s.now - t.filledAt))

/-- What a packet takes from the bucket: its length in bytes, header and tag included. -/
def bucketCost (p : Packet) : Nat := 320 * (64 + p.length)

/-- Whether the window lets a stream send a new packet (R152). -/
def SendStream.windowOpen (t : SendStream) : Bool :=
  match t.una with
  | [] => true
  | u :: _ => decide (dist32 u.pkt.psn t.next < 1024)

/-- The next packet of a stream: one to repeat, else a new one; whether it is new. -/
def SendStream.pick (t : SendStream) : Option (Packet × Bool) :=
  match t.resend with
  | p :: _ => some (p, false)
  | [] =>
    match t.waiting with
    | p :: _ => if t.windowOpen then some ({ p with psn := t.next }, true) else none
    | [] => none

/-- RTO from SRTT and RTTVAR, held between RTO_MIN and RTO_MAX; RTO_INIT before the first sample (R168, R183). -/
def State.rtoOf (s : State) (t : SendStream) : Nat :=
  match t.srtt with
  | none => 1000 * s.rd .TP_RTO_CFG_RTO_INIT
  | some m => min (1000 * s.rd .TP_RTO_CFG_RTO_MAX) (max (1000 * s.rd .TP_RTO_CFG_RTO_MIN) (m + 4 * t.rttvar))

/-- The RTO of a stream's next packet or ACK: doubled since CUM advanced, up to RTO_MAX, or from its samples (R169, R183). -/
def State.rtoNow (s : State) (t : SendStream) : Nat := if t.backed then min (1000 * s.rd .TP_RTO_CFG_RTO_MAX) t.rto else s.rtoOf t

/-- A packet as it is transmitted now: its TXC, TS, GEN, EPOCH, SESSION and OPEN are new (R158, R170). -/
def State.stamp (s : State) (x : Ctx) (p : Packet) : Packet :=
  { p with opn := x.opening, gen := (s.job x.slot).gen % 4, epoch := x.epoch, txc := x.txc, ts := s.now % 2 ^ 32,
           session := x.session, vc := 0, detour := false, mark := false, hops := 0 }

/-- A stream injects its next packet where its bucket holds the packet's length (R181). An evicted context is fetched first (R176). -/
def State.inject (s : State) (c st : Nat) : State :=
  match s.ctxs.look c with
  | none => s
  | some x =>
    let t := x.tx st
    if decide (x.state = .quiet) || !(s.job x.slot).held.contains (s.job x.slot).gen then s
    else if !x.cached then s.fetchCtx c
    else
      match t.pick with
      | none => s
      | some (p, isNew) =>
        let level := s.bucketNow t
        if level < bucketCost p then s
        else
          let p := s.stamp x p
          let t := { t with bucket := level - bucketCost p, filledAt := s.now, rate := s.rateHeld t.rate, rto := s.rtoNow t }
          let again (u : Sent) : Sent := if u.pkt.psn = p.psn then { u with pkt := p, sentAt := s.now, lost := false } else u
          let t :=
            if isNew then
              { t with next := idxAdd t.next 1, waiting := t.waiting.drop 1, una := t.una ++ [{ pkt := p, sentAt := s.now }] }
            else { t with resend := t.resend.drop 1, una := t.una.map again }
          let s := s.updCtx c fun x => { x.nextTxc with snd := x.snd.put st t }
          let s := s.touch c
          let s := if isNew then s else s.count uTransport 0x0B
          let s :=
            if p.ptype = tyData then
              let k := if isNew then 1 else 0
              s.updM p.mtag fun e => if e.ctx = c then { e with injected := e.injected + k, lastInjected := e.lastInjected || p.last } else e
            else s
          ((s.armRto c st).watch c).emitSealed x.slot p.wire

/-! ## Retransmission (R162, R166, R169) -/

/-- Retransmit a packet of a stream, reading its data again. -/
def State.retransmit (s : State) (c st : Nat) (u : Sent) : State :=
  let s := s.updTx c st fun t => { t with una := t.una.map fun v => if v.pkt.psn = u.pkt.psn then { v with lost := true } else v }
  if st = 0 then s.retransmitData c u.pkt.psn u.pkt
  else if u.pkt.ptype = tyRespData then s.retransmitResp c u.pkt.psn u.pkt
  else s.resend c st u.pkt.psn id

/-- Retransmit the packets of a stream that a test finds, oldest first. -/
def State.retransmitAll (s : State) (c st : Nat) (p : Sent → Bool) : State :=
  match s.ctxs.look c with
  | none => s
  | some x => forEach (fun s u => s.retransmit c st u) ((x.tx st).una.filter fun u => p u && !u.lost && decide (u.notBefore ≤ s.now)) s

/-! ## Rates (R168, R180) -/

/-- An RTT sample (R168). -/
def SendStream.sample (t : SendStream) (r : Nat) : SendStream :=
  match t.srtt with
  | none => { t with srtt := some r, rttvar := r / 2 }
  | some m =>
    let d := if m ≤ r then r - m else m - r
    { t with srtt := some ((7 * m + r) / 8), rttvar := (3 * t.rttvar + d) / 4 }

/-- A fraction `a / b` in units of 1/256, rounded to the nearest, at most 1. -/
def frac256 (a b : Nat) : Nat := if b = 0 then 256 else min 256 ((512 * a + b) / (2 * b))

/-- The controller's `s` for an ACK, in units of 1/256 (R180). -/
def State.ccSignal (s : State) (a : AckBody) : Nat :=
  let target := a.hops * s.rd .TP_CC_CFG_PER_HOP + s.rd .TP_CC_CFG_Q_TARGET
  let m := frac256 a.nmark a.npkt
  if target < a.owd then max m (frac256 (a.owd - target) target) else m

/-- One step of the rate controller (R180). -/
def State.ccStep (s : State) (t : SendStream) (sig : Nat) : SendStream :=
  if 0 < sig then
    if t.lastDec = 0 ∨ t.lastDec + t.srtt.getD 0 ≤ s.now then
      let r := s.rateHeld t.rate * (65536 - s.rd .TP_CC_CFG_BETA * sig) / 65536
      { t with rate := s.rateHeld r, run := 0, lastDec := s.now }
    else t
  else if t.lastInc = 0 ∨ t.lastInc + us 1 ≤ s.now then
    let run := t.run + 1
    let h := s.rd .TP_CC_CFG_HAI_AFTER
    let step := if h ≠ 0 ∧ h < run then 4 * s.rd .TP_CC_CFG_AI_STEP else s.rd .TP_CC_CFG_AI_STEP
    { t with rate := s.rateHeld (s.rateHeld t.rate + step), run := run, lastInc := s.now }
  else t

/-- A stream's bucket is filled up to now at its rate so far, before the rate changes. -/
def State.fillNow (s : State) (t : SendStream) : SendStream :=
  { t with bucket := s.bucketNow t, filledAt := s.now, rate := s.rateHeld t.rate }

/-! ## Acknowledgements (R161, R162) -/

/-- The operations whose DATA packets an ACK acknowledges. -/
def ackedOps (us' : List Sent) : List Nat := (us'.filterMap fun u => if u.pkt.ptype = tyData then some u.pkt.mtag else none).eraseDups

/-- A grant reaches the sender of a creditable operation (R182). -/
def State.takeGrant (s : State) (c st tag g : Nat) : State :=
  if st = 0 then (s.updM tag fun e => if e.ctx = c then { e with grant := max e.grant g } else e).pumpEntry tag
  else if st = 1 then (s.updTop c tag fun t => { t with grant := max t.grant g }).topServe c tag
  else s

/-- The packets that fast retransmission sends again (R169). -/
def State.fastSet (s : State) (t : SendStream) (u : Sent) : Bool :=
  let after := (t.una.filter fun v => idxBefore u.pkt.psn v.pkt.psn).length
  let gone := dist32 u.pkt.psn t.next - 1 - after
  !u.fast && decide (s.rd .TP_ACK_CFG_DUPTHRESH ≤ gone) && decide (u.sentAt + t.srtt.getD 0 < s.now)

/-- What an ACK does for a stream of a context. -/
def State.ackIn (s : State) (c : Nat) (p : Packet) (a : AckBody) : State :=
  match s.ctxs.look c with
  | none => s
  | some x =>
    let st := p.stream
    let t := x.tx st
    let gone := t.una.filter fun u => a.covers u.pkt.psn
    let moved := idxBefore t.cum a.cum
    let r := dist32 a.echoTs s.now
    let t := (s.fillNow t).sample r
    let t := { t with
      una := t.una.filter (fun u => !a.covers u.pkt.psn), resend := t.resend.filter (fun q => !a.covers q.psn),
      cum := if moved then a.cum else t.cum, backed := t.backed && !moved }
    let t := { t with rto := s.rtoNow t }
    let t := if a.npkt = 0 then t else s.ccStep t (s.ccSignal a)
    let fast := s.fastSet t
    let again := (t.una.filter fun u => fast u && decide (u.notBefore ≤ s.now) && !u.lost).map (·.pkt.psn)
    let t := { t with una := t.una.map fun u => if again.contains u.pkt.psn then { u with fast := true } else u }
    let s := s.updCtx c fun x => { x with opening := false, fresh := false, snd := x.snd.put st t }
    let s := forEach (fun s u => s.disarm (.nackRetry c st u.pkt.psn)) gone s
    let s := (s.armRto c st).progress c
    let s := s.retransmitAll c st fun u => again.contains u.pkt.psn
    let s := match a.grantTag with | some tag => s.takeGrant c st tag a.grant | none => s
    let s := forEach State.opCheck (ackedOps gone) s
    let s := if st = 1 then s.releaseReads c else s
    let s := if st = 2 then s.collAcked c else s
    let s := s.settleAll
    match s.ctxs.look c with
    | some x => if x.waitClose && s.ctxIdle c then s.startClose c x.jobClose else s
    | none => s

/-- A NACK-BUSY reaches the sender (R165): the packet waits for RETRY. -/
def State.nackIn (s : State) (c : Nat) (p : Packet) : State :=
  match s.ctxs.look c with
  | none => s
  | some x =>
    if !(x.tx p.stream).una.any (fun u => decide (u.pkt.psn = p.psn)) then s
    else
      let due := s.now + p.mtag
      let s := s.updTx c p.stream fun t => { t with
        resend := t.resend.filter (fun q => decide (q.psn ≠ p.psn)),
        una := t.una.map fun u => if u.pkt.psn = p.psn then { u with notBefore := due, lost := false } else u }
      (s.arm (.nackRetry c p.stream p.psn) due).progress c

/-- RETRY has passed for a packet (R165). -/
def State.nackRetry (s : State) (c st psn : Nat) : State := s.retransmitAll c st fun u => decide (u.pkt.psn = psn)

/-- The retransmit timer of a stream expires (R169, R172). Within a RETRY it repeats the packets that may go, and changes neither RTO nor
rate (R165). -/
def State.rtoOver (s : State) (c st : Nat) : State :=
  match s.ctxs.look c with
  | none => s
  | some x =>
    if x.state = .closing then s.sendClose c
    else if x.state = .quiet then s
    else
      let t := x.tx st
      let old := t.rto
      let now := s.now
      let retry := t.una.any fun u => decide (now < u.notBefore)
      let t' :=
        if retry then t
        else { s.ccStep (s.fillNow t) 256 with rto := min (1000 * s.rd .TP_RTO_CFG_RTO_MAX) (2 * old), backed := true }
      let s := (s.count uTransport 0x0C).updTx c st fun _ => t'
      let s := s.retransmitAll c st fun u => decide (u.sentAt + old ≤ now)
      if t.una.isEmpty then s else s.armIn (.rto c st) t'.rto

/-! ## Responses (R153, R156, R163) -/

/-- Deliver the packets of a response stream that are in sequence. -/
def State.respPass (s : State) (c : Nat) : State :=
  match s.ctxs.look c with
  | none => s
  | some x =>
    forEach (fun s p =>
      let s := s.unstore c 1 p.psn
      match p.body with
      | .status es => forEach (fun s e => s.statusIn c e) es s
      | _ => s) (x.rx 1).inSeq s

/-- A RESP-DATA or RESP-STATUS packet at its context, by where its PSN lies. -/
def State.respAt (s : State) (c : Nat) (x : Ctx) (p : Packet) : PsnCase → State
  | .duplicate => s.dupAck c 1 p
  | .beyond => s.count uTransport 7
  | .new =>
    if s.storeFull (x.rx 1) p (decide (p.ptype = tyRespStatus)) false then s.nackBusy p 3 retry2
    else
      let s := (s.admitPkt c p).progress c
      let s :=
        match p.body with
        | .resp bytes =>
          let s := s.landIn c p bytes
          if p.last then s.store c 1 (Packet.bare p) else s
        | _ => s.store c 1 p
      (s.ackLast c 1 (x.rx 1).cum).respPass c

/-- Checks 7 and 8 of R154 and admission of a RESP-DATA or RESP-STATUS packet. -/
def State.respIn (s : State) (c : Nat) (p : Packet) : State :=
  match s.ctxs.look c with
  | none => s
  | some x => s.respAt c x p ((x.rx 1).psnCase p.psn)

/-! ## COLL packets (R198, R244) -/

/-- Deliver the packets of a collective stream that are in sequence. -/
def State.collPass (s : State) (c : Nat) : State :=
  match s.ctxs.look c with
  | none => s
  | some x =>
    forEach (fun s p =>
      let s := s.unstore c 2 p.psn
      match p.body with
      | .coll h d => s.collTake x.slot (x.rem / 4096) p.psn h d
      | _ => s) (x.rx 2).inSeq s

/-- A COLL packet at its context, by where its PSN lies. -/
def State.collAt (s : State) (c : Nat) (x : Ctx) (p : Packet) : PsnCase → State
  | .duplicate => s.dupAck c 2 p
  | .beyond => s.count uTransport 7
  | .new =>
    let s := s.admitPkt c p
    match p.body with
    | .revoke kind w origin serial => ((s.ackLast c 2 (x.rx 2).cum).revokeMsg c kind w origin serial).collPass c
    | .coll h d =>
      match s.collStore x.slot (x.rem / 4096) p.psn h d with
      | (s, d) => (((s.store c 2 { p with body := .coll h d }).ackLast c 2 (x.rx 2).cum)).collPass c
    | _ => (((s.store c 2 p).ackLast c 2 (x.rx 2).cum)).collPass c

/-- Checks 7 and 8 of R154 and admission of a COLL packet; a revocation message is consumed on arrival. -/
def State.collIn (s : State) (c : Nat) (p : Packet) : State :=
  match s.ctxs.look c with
  | none => s
  | some x => s.collAt c x p ((x.rx 2).psnCase p.psn)

/-! ## Closes (R172, R173) -/

/-- Whether a CLOSE-REQ's PSNs equal this end's CUMs. -/
def Ctx.closeFits (x : Ctx) (q r : Nat) : Bool :=
  if x.coll then decide ((x.rx 2).cum = q) else decide ((x.rx 0).cum = q ∧ (x.rx 1).cum = r)

/-- CLOSE-REQ at a context (R172 step 2, R173). -/
def State.closeReqIn (s : State) (c q r : Nat) : State :=
  match s.ctxs.look c with
  | none => s
  | some x =>
    if s.ctxIdle c && x.closeFits q r then (s.sendCtl c tyCloseAck 0 x.closeBody).quietClose c
    else s.sendCtl c tyCloseRefuse 0 x.closeBody

/-- CLOSE-ACK at a context (R172 step 3). -/
def State.closeAckIn (s : State) (c : Nat) : State :=
  match s.ctxs.look c with
  | none => s
  | some x => if x.state = .closing then s.quietClose c else s

/-- CLOSE-REFUSE at a context (R172 step 3, R173): open again, with no idle close for CLOSE_IDLE; under JOB-CLOSE the initiator goes on. -/
def State.closeRefuseIn (s : State) (c : Nat) : State :=
  match s.ctxs.look c with
  | none => s
  | some x =>
    if x.state ≠ .closing then s
    else if x.jobClose then s.progress c |>.armIn (.ctxFail c) s.failTicks
    else
      let until' := s.now + ms (s.rd .TP_CTX_CFG_CLOSE_IDLE)
      let s := ((s.disarm (.rto c 0)).disarm (.rto c 2)).updCtx c fun x => { x with state := .opened, noIdle := until' }
      (s.progress c).arm (.idleClose c) until'

/-- The transmission counter after one transmission (R61), with its epoch. -/
def nextNonce (epoch txc : Nat) : Nat × Nat := if txc + 1 < 2 ^ 32 then (epoch, txc + 1) else ((epoch + 1) % 65536, 0)

/-- Answer a CLOSE-REQ that finds no context (R173): CLOSE-ACK of the session that it names, under a transmission counter that goes on from
the freed context's (R60). Of a session that the pair has not had here, counter and PSNs are 0. -/
def State.closeNoCtx (s : State) (j : Nat) (p : Packet) : State :=
  let k := ctxKey p.job p.dest p.src
  let fresh : ClosedCtx := ⟨p.session, 0, 0, 0, 0⟩
  let m := match s.closed.look k with | some m => if m.session = p.session then m else fresh | none => fresh
  let q : Packet := {
    ptype := tyCloseAck, cls := 1, dest := p.src, src := p.dest, job := p.job, gen := p.gen, epoch := m.epoch, txc := m.txc,
    session := p.session, ts := s.now % 2 ^ 32, body := .close m.req m.resp }
  let n := nextNonce m.epoch m.txc
  let s := { s with closed := s.closed.put k { m with epoch := n.1, txc := n.2 } }
  s.emitSealed j q

/-- A packet of a type that is not sequenced meets QUIET or no context (R173, R158): a CLOSE-REQ is answered with CLOSE-ACK. -/
def State.closeAnswer (s : State) (j : Nat) (p : Packet) (quiet : Option Nat) : State :=
  match quiet with
  | some c =>
    if p.ptype = tyCloseReq then
      match s.ctxs.look c with
      | some x => s.sendCtl c tyCloseAck 0 x.closeBody
      | none => s
    else if p.ptype = tyAck then s.count uTransport 0x0F
    else s
  | none => if p.ptype = tyCloseReq then s.closeNoCtx j p else s.noCtxRec p

/-! ## The receive checks from 5 on -/

/-- The peer has reopened the context (R159): its operations fail, and what this end held for the peer's goes. -/
def State.peerReopened (s : State) (c : Nat) : State :=
  match s.ctxs.look c with
  | none => s
  | some x =>
    let s := (s.failOps c cUnreachable).msgsCtxGone c cUnreachable
    let s := if x.coll then s.collCtxFailed c else s
    let s := s.keepTops c fun _ _ => false
    let s := { s with
      credits := s.credits.filter fun k => decide (k.ctx ≠ c),
      stale := s.stale.filter fun k => decide (k.1 ≠ c) }
    let ends (k : TimerKey) : Bool :=
      match k with
      | .rto d _ => decide (d = c)
      | .nackRetry d _ _ => decide (d = c)
      | .ackDelay d _ => decide (d = c)
      | .epochErase d => decide (d = c)
      | _ => false
    (s.disarmAll ends).disarm (.ctxFail c)

/-- A packet at its context, by its type. -/
def State.rxGo (s : State) (c : Nat) (p : Packet) : State :=
  match p.body with
  | .data blk bytes => s.dataIn c p blk bytes
  | .resp _ => s.respIn c p
  | .status _ => s.respIn c p
  | .coll .. => s.collIn c p
  | .revoke .. => s.collIn c p
  | .ack a => s.ackIn c p a
  | .none => if p.ptype = tyNackBusy then s.nackIn c p else s
  | .close q r =>
    if p.ptype = tyCloseReq then s.closeReqIn c q r
    else if p.ptype = tyCloseAck then s.closeAckIn c
    else s.closeRefuseIn c
  | .mg .. => s
  | .sealed _ => s

/-- Checks 5 and 6 of R154, then the packet's own. -/
def State.rxFrom5 (s : State) (p : Packet) (j : Nat) : State :=
  match s.rxCtx p j State.peerReopened with
  | .stop s => s
  | .full s => s.lowWater
  | .noCtx s q => s.closeAnswer j p q
  | .go s c => s.rxGo c p

/-- A transport packet arrives at its destination (R154). -/
def State.rxPacket (s : State) (p : Packet) : State :=
  match s.rxAuth p with
  | (s, none) => s
  | (s, some r) => (s.rxFrom5 r.2 r.1).settleAll

/-- Whether the body of a packet is of a kind, as far as this device can read it: what cannot be read is any packet's (R154). -/
def State.bodyIs (s : State) (p : Packet) (f : Body → Bool) : Bool :=
  match (s.slotOf p.job).bind fun j => (s.opened j p).bind (decodeBody p.ptype) with
  | some b => f b
  | none => true

/-- Resume the moored packets that a test finds, in arrival order (R177). -/
def State.unmoor (s : State) (f : Packet → Bool) : State :=
  let ps := s.moored.filter f
  let s := { s with moored := s.moored.filter fun p => !f p }
  forEach (fun s p => match s.slotOf p.job with | some j => s.rxFrom5 p j | none => s) ps s

/-- A context has been fetched (R177), or its fetch met an uncorrectable error (R178). -/
def State.ctxFetched (s : State) (c : Nat) (ok : Bool) : State :=
  match s.ctxs.look c with
  | none => s
  | some x =>
    if !x.fetching then s
    else
      let mine (p : Packet) : Bool := decide (p.job = x.job ∧ p.dest = x.loc ∧ p.src = x.rem)
      let s := s.updCtx c fun x => { x with fetching := false, cached := true, used := s.now }
      if ok then
        let s := forEach (fun s st => if s.armed (.rto c st) then s else s.armRto c st) (ctxStreams x.coll) s
        (s.unmoor mine).settleAll
      else
        let s := s.count uTransport 0x0F 0 (s.moored.filter mine).length
        let s := { s with moored := s.moored.filter fun p => !mine p }
        ((s.raise 230).failCtxClose c).settleAll

end Sys2Proof.Machine
end

