-- ==== Sys2Proof/Machine/Transport.lean ====
section
/-! DEFINITION. The meanings of the transport's events (R147 to R183) and of remote memory's (R184 to R211, R528). -/

namespace Sys2Proof.Machine

/-- A timer of a context falls due (R176). -/
def State.whenCtx (s : State) (c : Nat) (k : TimerKey) (f : State → State) : Host.Outcome State Fault Refusal :=
  s.whenDue k fun s => s.atCtx c k f

/-- STREAM_INJECT: a send stream injects its next packet (R181). -/
def execStreamInject (ctx stream : Nat) (s : State) : Host.Outcome State Fault Refusal :=
  s.whenLive fun s => s.inject ctx stream

/-- DATA_RECEIVE: a DATA packet arrives at its destination (R154). -/
def execDataReceive (pkt : Packet) (s : State) : Host.Outcome State Fault Refusal :=
  s.whenLive fun s => if pkt.ptype = tyData ∧ !isMcast pkt.dest then s.rxPacket pkt else s

/-- A multicast packet that its consumer has no room for, or that fails a check of R378, is discarded and counted at the internal
port that it was ejected on (R287, R378). -/
def State.mcDrop (s : State) (pkt : Packet) : State :=
  let e := s.entry 1 (pkt.dest % 65536)
  match (List.range 8).find? fun k => bitOf e (72 + k) with
  | some k => s.count (251 + k) 3
  | none => s

/-- Checks 1 to 4 of R154 for a multicast packet (R157, R58). -/
def State.mcAuth (s : State) (pkt : Packet) : State × Option (Nat × Packet) :=
  if !Packet.headOk pkt then (s.count uTransport 4, none)
  else if 2000000 < dist32 pkt.ts s.now then (s.count uTransport 3, none)
  else
    match s.slotOf pkt.job with
    | none => (s.authFailed pkt, none)
    | some j =>
      if s.jobState j = jobKeying then (s.count uTransport 9, none)
      else
        match s.opened j pkt with
        | none => (s.authFailed pkt, none)
        | some text => s.readBody j pkt text

/-- The dispatch of a multicast HMSG (R378): its event, or its discard. -/
def State.mcTake (s : State) (j : Nat) (pkt : Packet) (handler ferry length rlen : Nat) (bytes : List Byte) : State :=
  if s.hmsgCause j handler ferry length rlen ≠ 0 || !s.hmsgRoom ferry then (s.mcDrop pkt).count ferry 3
  else
    s.pushEvent ferry {
      kind := .mcast, entry := handler, slot := j, asid := s.rd .FX_JOBSEG_ASID ferry,
      args := [(2, length), (3, pkt.src), (4, pkt.dest % 65536)], payload := bytes }

/-- MULTICAST_DATA_RECEIVE: a multicast DATA packet: checks 1 to 4, then the dispatch checks of R378 (R157, R287). -/
def execMulticastDataReceive (pkt : Packet) (s : State) : Host.Outcome State Fault Refusal :=
  s.whenLive fun s =>
    if !isMcast pkt.dest then s
    else
      match s.mcAuth pkt with
      | (s, none) => s
      | (s, some r) =>
        match r.2.body with
        | .data (.hmsg true handler ferry length rlen) bytes => s.mcTake r.1 pkt handler ferry length rlen bytes
        | _ => s.count uTransport 4

/-- ACK_RECEIVE: an ACK arrives (R162). -/
def execAckReceive (pkt : Packet) (s : State) : Host.Outcome State Fault Refusal :=
  s.whenLive fun s => if pkt.ptype = tyAck then s.rxPacket pkt else s

/-- NACK_BUSY_RECEIVE: a NACK-BUSY arrives; it is not authenticated (R149, R154, R165). -/
def execNackBusyReceive (pkt : Packet) (s : State) : Host.Outcome State Fault Refusal :=
  s.whenLive fun s => if pkt.ptype = tyNackBusy then s.rxPacket pkt else s

/-- NACK_RETRY_EXPIRY: the retry-after time of a packet has passed (R165). -/
def execNackRetryExpiry (ctx stream psn : Nat) (s : State) : Host.Outcome State Fault Refusal :=
  s.whenCtx ctx (.nackRetry ctx stream psn) fun s => s.nackRetry ctx stream psn

/-- RESP_DATA_RECEIVE: a RESP-DATA packet arrives (R163, R208). -/
def execRespDataReceive (pkt : Packet) (s : State) : Host.Outcome State Fault Refusal :=
  s.whenLive fun s => if pkt.ptype = tyRespData then s.rxPacket pkt else s

/-- RESP_STATUS_RECEIVE: a RESP-STATUS packet arrives (R163). -/
def execRespStatusReceive (pkt : Packet) (s : State) : Host.Outcome State Fault Refusal :=
  s.whenLive fun s => if pkt.ptype = tyRespStatus then s.rxPacket pkt else s

/-- ACK_DELAY_EXPIRY: ACK_DELAY has passed since a packet was admitted (R161). -/
def execAckDelayExpiry (ctx stream : Nat) (s : State) : Host.Outcome State Fault Refusal :=
  s.whenCtx ctx (.ackDelay ctx stream) fun s =>
    match s.ctxs.look ctx with
    | some x => if x.state = .quiet then s else s.sendAck ctx stream
    | none => s

/-- RTO_EXPIRY: the retransmit timer of a stream expires (R169). -/
def execRtoExpiry (ctx stream : Nat) (s : State) : Host.Outcome State Fault Refusal :=
  s.whenCtx ctx (.rto ctx stream) fun s => s.rtoOver ctx stream

/-- CONTEXT_FAIL: FAIL_TIME has passed without progress while the context owes work or waits for a close (R171, R172). -/
def execContextFail (ctx : Nat) (s : State) : Host.Outcome State Fault Refusal :=
  s.whenCtx ctx (.ctxFail ctx) fun s =>
    match s.ctxs.look ctx with
    | some x => if s.owesWork ctx || decide (x.state = .closing) then (s.failCtxClose ctx).settleAll else s
    | none => s

/-- IDLE_CLOSE_START: a context has been idle for CLOSE_IDLE (R172). -/
def execIdleCloseStart (ctx : Nat) (s : State) : Host.Outcome State Fault Refusal :=
  s.whenCtx ctx (.idleClose ctx) fun s => if s.ctxIdle ctx then s.startClose ctx false else s.touch ctx

/-- CLOSE_REQ_RECEIVE: a CLOSE-REQ arrives (R172 step 2, R173). -/
def execCloseReqReceive (pkt : Packet) (s : State) : Host.Outcome State Fault Refusal :=
  s.whenLive fun s => if pkt.ptype = tyCloseReq then s.rxPacket pkt else s

/-- CLOSE_ACK_RECEIVE: a CLOSE-ACK arrives (R172 step 3). -/
def execCloseAckReceive (pkt : Packet) (s : State) : Host.Outcome State Fault Refusal :=
  s.whenLive fun s => if pkt.ptype = tyCloseAck then s.rxPacket pkt else s

/-- CLOSE_REFUSE_RECEIVE: a CLOSE-REFUSE arrives (R172 step 3, R173). -/
def execCloseRefuseReceive (pkt : Packet) (s : State) : Host.Outcome State Fault Refusal :=
  s.whenLive fun s => if pkt.ptype = tyCloseRefuse then s.rxPacket pkt else s

/-- JOB_CLOSE_QUIET_TIMEOUT: an initiator under JOB-CLOSE goes QUIET without the peer after 100 microseconds (R173). -/
def execJobCloseQuietTimeout (ctx : Nat) (s : State) : Host.Outcome State Fault Refusal :=
  s.whenCtx ctx (.closeQuiet ctx) fun s =>
    match s.ctxs.look ctx with
    | some x => if x.state = .closing then (s.quietClose ctx).settleAll else s
    | none => s

/-- QUIET_EXPIRY: a context's 1 ms of QUIET ends and it is freed (R172 step 4, R174). -/
def execQuietExpiry (ctx : Nat) (s : State) : Host.Outcome State Fault Refusal :=
  s.whenCtx ctx (.quiet ctx) fun s => (s.freeCtx ctx).settleAll

/-- CONTEXT_FETCH_COMPLETE: a context arrives from package memory, or its fetch met an error (R177, R178). -/
def execContextFetchComplete (ctx : Nat) (ok : Bool) (s : State) : Host.Outcome State Fault Refusal :=
  s.whenUp fun s => s.ctxFetched ctx ok

/-- Whether a packet's operation names a region. -/
def namesKey (key : Nat) (p : Packet) : Bool :=
  match p.body with
  | .data (.oneSided _ _ _ _ _ _ _ k _ _ _) _ => decide (k = key)
  | _ => false

/-- REGION_ENTRY_FETCH_COMPLETE: a region entry arrives from package memory; the packets that wait for it resume (R204). Where the region
has ended meanwhile they go on without it, and fail check 2 of R187. -/
def execRegionEntryFetchComplete (key : Nat) (s : State) : Host.Outcome State Fault Refusal :=
  s.whenUp fun s =>
    match s.regions.look key with
    | none => (s.unmoor (namesKey key)).settleAll
    | some r =>
      if r.cached then s
      else
        let s := { s with regions := s.regions.put key { r with cached := true } }.evictRegion key
        (s.unmoor fun p => decide (p.job = r.job) && namesKey key p).settleAll

/-! ## Registers (R183, R211) -/

/-- A write of TP_RTO_CFG: FAIL_TIME and RTO_MIN have fixed bounds; RTO_MIN ≤ RTO_INIT ≤ RTO_MAX is judged on the whole. -/
def State.writeTpRto (s : State) (v : Nat) : State :=
  let t := s.setBounded 0 v [(.TP_RTO_CFG_FAIL_TIME, 30, 65535), (.TP_RTO_CFG_RTO_MIN, 16, 65535)]
  let t := t.setFields 0 v [.TP_RTO_CFG_RTO_MAX, .TP_RTO_CFG_RTO_INIT]
  let i := t.rd .TP_RTO_CFG_RTO_INIT
  if t.rd .TP_RTO_CFG_RTO_MIN ≤ i ∧ i ≤ t.rd .TP_RTO_CFG_RTO_MAX then t else s.logRejected 0x07_0000_0010

/-- A write of TP_CC_RATE: RATE_MIN ≤ RATE_INIT ≤ RATE_MAX is judged on the whole. -/
def State.writeTpRate (s : State) (v : Nat) : State :=
  let t := s.setBounded 0 v [(.TP_CC_RATE_RATE_MAX, 0, 2000), (.TP_CC_RATE_RATE_MIN, 1, 65535), (.TP_CC_RATE_BURST, 17, 4096)]
  let t := t.setFields 0 v [.TP_CC_RATE_RATE_INIT]
  let i := t.rd .TP_CC_RATE_RATE_INIT
  if t.rd .TP_CC_RATE_RATE_MIN ≤ i ∧ i ≤ t.rd .TP_CC_RATE_RATE_MAX then t else s.logRejected 0x07_0000_0028

/-- A write of a transport register, by its offset in the block (R183). -/
def State.writeTp (s : State) (reg v : Nat) : State :=
  match reg with
  | 0x08 => s.setBounded 0 v [(.TP_CTX_CFG_CLOSE_IDLE, 1, 65535), (.TP_CTX_CFG_LOW_WATER, 0, 1023)]
  | 0x10 => s.writeTpRto v
  | 0x18 => s.setBounded 0 v [(.TP_ACK_CFG_DUPTHRESH, 1, 255), (.TP_ACK_CFG_ACK_COUNT, 1, 64), (.TP_ACK_CFG_ACK_DELAY, 1, 255)]
  | 0x20 => (s.setBounded 0 v [(.TP_CC_CFG_BETA, 1, 255), (.TP_CC_CFG_AI_STEP, 1, 2000)]).setFields 0 v
      [.TP_CC_CFG_HAI_AFTER, .TP_CC_CFG_PER_HOP, .TP_CC_CFG_Q_TARGET]
  | 0x28 => s.writeTpRate v
  | 0x30 => s.setBounded 0 v [(.TP_CREDIT_CFG_POOL, 1, 1024), (.TP_CREDIT_CFG_GRANT_BURST, 1, 64)]
  | _ => s

/-- TP_CFG_WRITE: a write of a transport configuration register (R183). -/
def execTpCfgWrite (reg v : Nat) (s : State) : Host.Outcome State Fault Refusal := s.whenUp fun s => (s.writeTp reg v).grant

/-- A write of MF_QUOTA (R211). -/
def State.writeMfQuota (s : State) (slot v : Nat) : State :=
  s.setBounded slot v [(.MF_QUOTA_MANIFEST, 0, 131072), (.MF_QUOTA_READS, 0, 65536)]

/-- MF_QUOTA_WRITE: a write of a job slot's quotas (R211). -/
def execMfQuotaWrite (slot v : Nat) (s : State) : Host.Outcome State Fault Refusal :=
  s.whenUp fun s => if slot < 256 then s.writeMfQuota slot v else s

/-! ## Revocation (R198, R199) and regions (R528, R202) -/

/-- Whether a body is a revocation message of a kind. -/
def isRevoke (kind : Nat) (b : Body) : Bool := match b with | .revoke k _ _ _ => decide (k = kind) | _ => false

/-- REVOKE_RECEIVE: a REVOKE arrives (R198 step 2). -/
def execRevokeReceive (pkt : Packet) (s : State) : Host.Outcome State Fault Refusal :=
  s.whenLive fun s => if pkt.ptype = tyColl && s.bodyIs pkt (isRevoke 0xE1) then s.rxPacket pkt else s

/-- CONFIRM_RECEIVE: a CONFIRM arrives (R198 step 3). -/
def execConfirmReceive (pkt : Packet) (s : State) : Host.Outcome State Fault Refusal :=
  s.whenLive fun s => if pkt.ptype = tyColl && s.bodyIs pkt (isRevoke 0xE2) then s.rxPacket pkt else s

/-- REVOKE_DONE_RECEIVE: DONE arrives at the revoking device (R198 step 5). -/
def execRevokeDoneReceive (pkt : Packet) (s : State) : Host.Outcome State Fault Refusal :=
  s.whenLive fun s => if pkt.ptype = tyColl && s.bodyIs pkt (isRevoke 0xE3) then s.rxPacket pkt else s

/-- REVOKE_REPEAT: a REVOKE goes unanswered for 100 microseconds (R199). -/
def execRevokeRepeat (slot window origin serial : Nat) (s : State) : Host.Outcome State Fault Refusal :=
  s.whenDue (.revokeRepeat slot window origin serial) fun s => s.revokeDue slot window origin serial

/-- REVOKE_FAIL_TIME: FAIL_TIME has passed since WINDOW-REVOKE started (R199). -/
def execRevokeFailTime (slot window : Nat) (s : State) : Host.Outcome State Fault Refusal :=
  s.whenDue (.revokeFail slot window) fun s => s.revokeExpire slot window

/-- REGION_DEREGISTER_COMPLETE: the operations admitted on an unregistered region have ended (R528 step 3, R205). -/
def execRegionDeregisterComplete (key : Nat) (s : State) : Host.Outcome State Fault Refusal :=
  s.whenUp fun s =>
    match s.regions.look key with
    | none => s
    | some r =>
      if r.live || s.regionBusy key then s
      else
        let s := s.endRegion key
        match r.src with
        | some q => s.endPriv q 0
        | none => s

/-- REGION_QUARANTINE_END: 1 ms has passed since a key was deregistered (R202 case 3). -/
def execRegionQuarantineEnd (key : Nat) (s : State) : Host.Outcome State Fault Refusal :=
  s.whenDue (.quarantine key) fun s => s

end Sys2Proof.Machine
end

