-- ==== Sys2Proof/Machine/Collectives.lean ====
section
/-! DEFINITION. The meanings of the collectives' events (R240 to R266) and of the catchers' (R237, R239). -/

namespace Sys2Proof.Machine

/-- Whether a body is a collective's of a kind (R257). -/
def isColl (kind : Nat) (b : Body) : Bool := match b with | .coll h _ => decide (h.kind = kind) | _ => false

/-- A COLL packet of a kind arrives: the receive checks, then its context (R154, R244). -/
def State.collArrives (s : State) (p : Packet) (kind : Nat) : State :=
  if p.ptype = tyColl && s.bodyIs p (isColl kind) then s.rxPacket p else s

/-- JOIN_RECEIVE: a JOIN arrives from a child (R247). -/
def execJoinReceive (pkt : Packet) (s : State) : Host.Outcome State Fault Refusal :=
  s.whenLive fun s => s.collArrives pkt ckJoin

/-- PART_RECEIVE: a PART arrives and its partials are combined (R247, R253, R258). -/
def execPartReceive (pkt : Packet) (s : State) : Host.Outcome State Fault Refusal :=
  s.whenLive fun s => s.collArrives pkt ckPart

/-- ESCAPE_RECEIVE: an ESCAPE arrives with the partials that no window holds (R258). -/
def execEscapeReceive (pkt : Packet) (s : State) : Host.Outcome State Fault Refusal :=
  s.whenLive fun s => s.collArrives pkt ckEscape

/-- RESULT_RECEIVE: a RESULT arrives from the parent (R247). -/
def execResultReceive (pkt : Packet) (s : State) : Host.Outcome State Fault Refusal :=
  s.whenLive fun s => s.collArrives pkt ckResult

/-- COLL_DONE_RECEIVE: a DONE arrives from the parent (R247). -/
def execCollDoneReceive (pkt : Packet) (s : State) : Host.Outcome State Fault Refusal :=
  s.whenLive fun s => s.collArrives pkt ckDone

/-- COLL_FAIL_RECEIVE: a FAIL arrives from a neighbour (R263). -/
def execCollFailReceive (pkt : Packet) (s : State) : Host.Outcome State Fault Refusal :=
  s.whenLive fun s => s.collArrives pkt ckFail

/-- COLL_TIMEOUT: TIMEOUT has passed since this device began to contribute to an instance (R263). -/
def execCollTimeout (ctx inst : Nat) (s : State) : Host.Outcome State Fault Refusal :=
  s.whenDue (.coll ctx inst) fun s => (s.collFail ctx inst cCollFailed none).settleAll

/-- REJOIN_RECEIVE: a REJOIN arrives from a child (R264). -/
def execRejoinReceive (pkt : Packet) (s : State) : Host.Outcome State Fault Refusal :=
  s.whenLive fun s => s.collArrives pkt ckRejoin

/-- RERUN_RECEIVE: a RERUN arrives from the parent (R264 step 4). -/
def execRerunReceive (pkt : Packet) (s : State) : Host.Outcome State Fault Refusal :=
  s.whenLive fun s => s.collArrives pkt ckRerun

/-- REJOIN is sent to the parent again for the instances whose 100 microseconds have passed (R264 step 1). -/
def State.rejoinAgain (s : State) (c : Nat) : State :=
  match s.colls.look c with
  | none => s
  | some x =>
    match x.parent with
    | none => s
    | some p =>
      let due := x.insts.filter fun v => decide (v.rejoinAt ≠ 0 ∧ v.rejoinAt ≤ s.now)
      (forEach (fun s v =>
        (s.updInst c v.num fun v => { v with rejoinAt := s.now + us 100 }).collTell c p (collHdr c x v.num v.cmd ckRejoin)) due s).armRejoin c

/-- REJOIN_REPEAT: 100 microseconds pass without an answer to REJOIN (R264). -/
def execRejoinRepeat (ctx : Nat) (s : State) : Host.Outcome State Fault Refusal :=
  s.whenDue (.rejoin ctx) fun s => s.rejoinAgain ctx

/-- COLL_CREDIT_RECEIVE: a CREDIT arrives from a neighbour (R259). -/
def execCollCreditReceive (pkt : Packet) (s : State) : Host.Outcome State Fault Refusal :=
  s.whenLive fun s => s.collArrives pkt ckCredit

/-- Report the landing slots freed for a neighbour in a CREDIT packet of their own (R259). -/
def State.creditReturn (s : State) (c node : Nat) : State :=
  match s.colls.look c with
  | none => s
  | some x =>
    if (x.freed.look node).getD 0 = 0 then s
    else
      let m : CollCmd := ⟨false, false, false, 0, 0, 0, 0, c, 0, 0, 0, 0⟩
      s.collTell c node (collHdr c x (s.rd .HD_CTX_INST c) m ckCredit)

/-- COLL_CREDIT_RETURN: slots freed for a neighbour are reported with no packet to carry the count (R259). -/
def execCollCreditReturn (ctx child : Nat) (s : State) : Host.Outcome State Fault Refusal :=
  s.whenLive fun s => s.creditReturn ctx child

/-- A write of HD_LANDPOOL (R266): the stated range is that of SLOTS, and BASE takes effect (log 34). -/
def State.writeLandpool (s : State) (v : Nat) : State :=
  if s.colls.size ≠ 0 then s.logRejected 0x09_0000_0008
  else
    s.setFields 0 v (.HD_LANDPOOL_BASE :: if poolOk (Fld.of .HD_LANDPOOL_BASE v) (4224 * Fld.of .HD_LANDPOOL_SLOTS v) then [.HD_LANDPOOL_SLOTS] else [])

/-- HD_REG_WRITE: a write of HD_LANDPOOL (R266). -/
def execHdRegWrite (v : Nat) (s : State) : Host.Outcome State Fault Refusal := s.whenUp fun s => s.writeLandpool v

/-! ## Catchers -/

/-- The spilled entries of a catcher, as (stamp, number): receives, and unexpected messages. -/
def State.spilledRecvs (s : State) (c : Nat) : List (Nat × Nat) :=
  (s.recvs.cells.filter fun r => r.2.holds && !r.2.chip && decide (s.catcherOf r.2.space = some c)).map fun r => (r.2.stamp, r.1)
def State.spilledMsgs (s : State) (c : Nat) : List (Nat × Nat) :=
  (s.msgs.cells.filter fun m => m.2.entry && !m.2.chip && decide (s.catcherOf m.2.space = some c)).map fun m => (m.2.stamp, m.1)

/-- A spilled entry comes back on chip (R237). -/
def State.refillEntry (s : State) (c n : Nat) : State :=
  ((s.updRecv n fun r => { r with chip := true }).updMsg n fun m => { m with chip := true }).count (catcherUnit c) 6

/-- A spilled entry is lost to an uncorrectable error (R237): its receive fails, or its message is discarded. -/
def State.loseEntry (s : State) (c n : Nat) : State :=
  let s := s.raise 230
  match s.recvs.look n with
  | some _ => s.recvEnd n cLocalMemory
  | none => { s with msgs := s.msgs.del n }.count (catcherUnit c) 8

/-- SPILL_REFILL: room on chip takes the spilled entry of lowest stamp; a read of it that meets an uncorrectable error, for a refill or
because an event examined the entry, loses it (R237). -/
def execSpillRefill (c : Nat) (ok : Bool) (s : State) : Host.Outcome State Fault Refusal :=
  s.whenUp fun s =>
    match lowest (s.spilledRecvs c ++ s.spilledMsgs c) with
    | none => s
    | some n => if !ok then (s.loseEntry c n).settleAll else if 65536 ≤ s.onChip c then s else s.refillEntry c n

/-- A write of CT_UXPOOL (R239): the stated range is that of UNITS, and BASE takes effect (log 34). -/
def State.writeUxpool (s : State) (v : Nat) : State :=
  if s.jobsActive ≠ 0 then s.logRejected 0x08_0000_0008
  else
    s.setFields 0 v (.CT_UXPOOL_BASE :: if poolOk (Fld.of .CT_UXPOOL_BASE v) (256 * Fld.of .CT_UXPOOL_UNITS v) then [.CT_UXPOOL_UNITS] else [])

/-- A write of CT_QUOTA (R239). -/
def State.writeMatchQuota (s : State) (slot v : Nat) : State :=
  (s.setBounded slot v [(.CT_QUOTA_ENTRIES, 0, 16777216)]).setFields slot v [.CT_QUOTA_UXUNITS]

/-- A write of a catcher register, by its offset in the block (R239). -/
def State.writeCatcher (s : State) (reg slot v : Nat) : State :=
  match reg with
  | 0x00 => s.setBounded 0 v [(.CT_CFG_EAGER_KIB, 1, 64)]
  | 0x08 => s.writeUxpool v
  | 0x1000 => if slot < 256 then s.writeMatchQuota slot v else s
  | _ => s

/-- CATCHER_REG_WRITE: a write of CT_CFG, CT_UXPOOL or CT_QUOTA (R239). -/
def execCatcherRegWrite (reg slot v : Nat) (s : State) : Host.Outcome State Fault Refusal :=
  s.whenUp fun s => (s.writeCatcher reg slot v).settleAll

end Sys2Proof.Machine
end

