-- ==== Sys2Proof/Machine/RingOps.lean ====
section
/-! DEFINITION. Ringing a queue's doorbell (R81 to R83). -/

namespace Sys2Proof.Machine

/-- Causes of the queue block. -/
def cPrivOpcode : Nat := 0x02
def cDbOverrun : Nat := 0x03
def cFetchError : Nat := 0x04
def cTallyRange : Nat := 0x07
def cQueueForeign : Nat := 0x08
def cWaitTimeout : Nat := 0x09

/-- The ring size of a queue in slots (R75). -/
def State.ringSize (s : State) (q : Nat) : Nat := 2 ^ s.rd .QU_CFG_SIZE_LOG2 q

/-- Count a doorbell that R81 discards, at the function that the queue is bound to. -/
def State.dbForeign (s : State) (q : Nat) : State := s.incSat .HI_FN_STAT_DB_FOREIGN (fnIdx (s.qFunc q)) 1

/-- An accepted doorbell value (R82): stale, an overrun, or the new PI. -/
def State.takeDoorbell (s : State) (q d : Nat) : State :=
  let s := s.count 233 1
  let pi := s.rd .QU_PI_PI q
  let head := s.rd .QU_HEAD_HEAD q
  if idxLe d pi then (s.incSat .QU_PI_STALE_DB q 1).count 233 2
  else if s.ringSize q < dist32 head d then s.failQueue q ⟨pi, 0, 0, false, none⟩ cDbOverrun
  else s.wr .QU_PI_PI q d

end Sys2Proof.Machine
end

