-- ==== Sys2Proof/Machine/Wharf.lean ====
section
/-! DEFINITION. Wharf coherence (R392 to R400) and the hardware locks' host side (R401 to R409): the directory's operations and
the meanings of their events. The bytes of the wharf are held once, as every request sees them; the directory says which caches
hold copies. -/

namespace Sys2Proof.Machine

/-! ## The directory -/

/-- The directory entry of a line. -/
def State.line (s : State) (addr : Nat) : Option Line := s.lines.find? fun l => decide (l.addr = lineOf addr)

/-- Whether two lines share a directory set: one home, one of its 128 sets (R394). -/
def State.sameSet (s : State) (a b : Nat) : Bool :=
  decide (s.homeOf a = s.homeOf b) && decide (Config.directorySet a % 128 = Config.directorySet b % 128)

/-- Make room for a line's entry: a full set of 8 recalls its least recently used line (R394). -/
def State.lineRoom (s : State) (line : Nat) : State :=
  let same := s.lines.filter fun l => s.sameSet l.addr line
  if same.length < 8 then s
  else
    match same with
    | l :: _ => { s with lines := s.lines.erase l }.count (64 + s.homeOf line) 2
    | [] => s

/-- Put a directory entry in the place of the most recently used. -/
def State.putLine (s : State) (l : Line) : State :=
  { s with lines := (s.lines.filter fun x => decide (x.addr ≠ l.addr)) ++ [l] }

/-- Whether a ferry holds a copy. -/
def Line.has (l : Line) (f : Nat) : Bool := (match l.holder with | some h => decide (h.1 = f) | none => false) || (l.crew.contains f && !l.gone.contains f)

/-- The state of a line after a ferry read (R395). -/
def readLine (f : Nat) (l : Line) : Line :=
  let l' : Line := { l with crew := l.crew.erase f, gone := l.gone.erase f }
  match l.holder with
  | some h => { l' with holder := some (h.1, .pilot), crew := l'.crew ++ [f] }
  | none => if l.crew.isEmpty then { l' with holder := some (f, .kept) } else { l' with holder := some (f, .pilot) }

/-- A ferry read that misses (R395); a line already held is a hit and changes nothing. -/
def State.lineRead (s : State) (f addr : Nat) : State :=
  match s.line addr with
  | some l => if l.has f then s else (s.putLine (readLine f l)).lineMove addr f
  | none => ((s.lineRoom (lineOf addr)).putLine ⟨lineOf addr, some (f, .kept), [], []⟩).lineMove addr f

/-- A ferry's store or AMO gains the line in W (R395, R396): every other copy is invalidated. -/
def State.lineOwn (s : State) (f addr : Nat) : State :=
  match s.line addr with
  | some l =>
    if l.holder = some (f, .written) then s
    else if l.holder = some (f, .kept) then s.putLine { l with holder := some (f, .written) }
    else
      let s' := s.putLine ⟨l.addr, some (f, .written), [], []⟩
      if l.has f then s' else s'.lineMove addr f
  | none => ((s.lineRoom (lineOf addr)).putLine ⟨lineOf addr, some (f, .written), [], []⟩).lineMove addr f

/-- A ferry gives up its copy of a line: a W, K or P copy goes back to the home, a C copy is dropped without telling it (R396). -/
def State.lineEvict (s : State) (f addr : Nat) : State :=
  match s.line addr with
  | none => s
  | some l =>
    let l' : Line := {
      l with
      holder := match l.holder with | some h => if h.1 = f then none else some h | none => none,
      gone := if l.crew.contains f && !l.gone.contains f then l.gone ++ [f] else l.gone }
    if l'.holder.isNone && l'.crew.isEmpty then { s with lines := s.lines.erase l } else s.putLine l'

/-- A line is poisoned (R398): its mark, no directory entry, the berth's fault source. -/
def State.linePoison (s : State) (addr : Nat) : State :=
  let a := lineOf addr
  let b := s.homeOf a
  let s := { s with poison := (s.poison.erase a) ++ [a], lines := s.lines.filter fun l => decide (l.addr ≠ a) }
  (s.count (64 + b) 3).raise (166 + b)

/-- Whether an address lies in the usable wharf (R31). -/
def State.inWharf (s : State) (addr : Nat) : Bool := decide (0x03_0000_0000 ≤ addr ∧ addr < s.wharfTop)

/-- FERRY_READ: a ferry reads a line that it does not hold (R395). -/
def execFerryRead (f addr : Nat) (s : State) : Host.Outcome State Fault Refusal :=
  s.whenUp fun s => if s.ferryOn f && s.inWharf addr then s.lineRead f addr else s

/-- FERRY_OWN: a ferry's store or AMO misses (R395). -/
def execFerryOwn (f addr : Nat) (s : State) : Host.Outcome State Fault Refusal :=
  s.whenUp fun s => if s.ferryOn f && s.inWharf addr then s.lineOwn f addr else s

/-- FERRY_UPGRADE: a ferry stores to a line it holds in P or C; one whose copy is gone is an own request (R395, R396). -/
def execFerryUpgrade (f addr : Nat) (s : State) : Host.Outcome State Fault Refusal :=
  s.whenUp fun s => if s.ferryOn f && s.inWharf addr then s.lineOwn f addr else s

/-- AGENT_READ: an agent reads a line at its home; nothing is invalidated (R395). Poisoned data is an uncorrectable memory error
(R399). -/
def execAgentRead (addr : Nat) (s : State) : Host.Outcome State Fault Refusal :=
  s.whenUp fun s =>
    if !s.inWharf addr then s
    else if s.poisoned (lineOf addr) 64 then (s.agentMoves addr 1).emit (.hostReply 0 none true)
    else (s.agentMoves addr 1).emit (.value (leNat (memRead s.mem (lineOf addr) 64)))

/-- AGENT_WRITE: an agent writes the wharf: every copy is invalidated, then the berth is written (R395, R399). -/
def execAgentWrite (addr : Nat) (bytes : List Byte) (s : State) : Host.Outcome State Fault Refusal :=
  s.whenUp fun s =>
    if s.inWharf addr && s.inWharf (addr + bytes.length - 1) then s.writeLocal 0 addr bytes else s

/-- AGENT_ATOMIC: an agent's atomic executes at the home berth after every copy was invalidated (R395, R397). -/
def execAgentAtomic (addr aop operand compare : Nat) (size64 : Bool) (s : State) : Host.Outcome State Fault Refusal :=
  s.whenUp fun s =>
    let n := if size64 then 8 else 4
    if !(s.inWharf addr && s.inWharf (addr + n - 1)) || addr % n ≠ 0 then s
    else if s.poisoned addr n then (s.agentMoves addr 1).emit (.hostReply 0 none true)
    else
      let old := memNat s.mem addr n
      let new := atomicNew aop (8 * n) false old operand compare
      (s.writeLocal 0 addr (leBytes n new)).emit (.value old)

/-- FERRY_EVICTION: a ferry's cache gives up a line (R396). -/
def execFerryEviction (f addr : Nat) (s : State) : Host.Outcome State Fault Refusal :=
  s.whenUp fun s =>
    match s.line addr with
    | some l => if l.has f then s.lineEvict f addr else s.count (64 + s.homeOf (lineOf addr)) 4
    | none => s

/-- POISON_TIMEOUT: a holder has not answered within 20 microseconds, or a berth read meets an uncorrectable error (R398). -/
def execPoisonTimeout (addr : Nat) (s : State) : Host.Outcome State Fault Refusal :=
  s.whenUp fun s => if s.inWharf addr then s.linePoison addr else s

/-! ## Locks -/

/-- The internal address of LK_LOCK[n]. -/
def lockAddr (n : Nat) : Nat := 0x02_0000_0000 + 0x1_0000 * (n / 64) + 0x8000 + 8 * (n % 64)

/-- Whether a host function or the control path may use a lock (R401). -/
def State.lockHostOk (s : State) (n writer : Nat) : Bool :=
  let g := lockGroup n
  if writer = identCtl then true
  else if 0x4000 ≤ writer ∧ writer < 0x4200 then
    let f := writer - 0x4000
    (s.flag .LK_GROUP_HEN0 g && decide (s.rd .LK_GROUP_HFUNC0 g = f))
      || (s.flag .LK_GROUP_HEN1 g && decide (s.rd .LK_GROUP_HFUNC1 g = f))
  else false

/-- A write of LK_LOCK[n] with a command by a requester (R401, R403). -/
def State.lockWrite (s : State) (n ident writer : Nat) (act : State → State) : State :=
  if 4096 ≤ n then s
  else if !s.lockHostOk n writer then s.logViolation (lockAddr n)
  else if ident ≠ writer then (s.count (lockUnit n) 5).logViolation (lockAddr n)
  else act s

/-- LK_ACQUIRE: a host function or the control path writes ACQUIRE to a lock (R403, R404). -/
def execLkAcquire (n ident writer : Nat) (s : State) : Host.Outcome State Fault Refusal :=
  s.whenUp fun s => s.lockWrite n ident writer fun s => (s.acquireLock n ident).1

/-- A release by the owner hands the lock over; by any other requester it has no effect (R404). -/
def State.lockHostRelease (s : State) (n ident : Nat) : State :=
  if (s.lock n).owner = some ident then s.releaseLock n false else s

/-- LK_RELEASE: a host function or the control path writes RELEASE (R404). -/
def execLkRelease (n ident writer : Nat) (s : State) : Host.Outcome State Fault Refusal :=
  s.whenUp fun s => s.lockWrite n ident writer fun s => s.lockHostRelease n ident

/-- The owner of a lock clears ORPHANED (R406). -/
def State.lockClear (s : State) (n ident : Nat) : State :=
  if (s.lock n).owner = some ident then s.updLock n fun l => { l with orphaned := false } else s

/-- LK_CLEAR_ORPHAN: the owner writes CLEAR_ORPHAN (R406). -/
def execLkClearOrphan (n ident writer : Nat) (s : State) : Host.Outcome State Fault Refusal :=
  s.whenUp fun s => s.lockWrite n ident writer fun s => s.lockClear n ident

/-- LK_WITHDRAW: the writer leaves the waiters (R404). -/
def execLkWithdraw (n ident writer : Nat) (s : State) : Host.Outcome State Fault Refusal :=
  s.whenUp fun s => s.lockWrite n ident writer fun s => s.updLock n fun l => { l with waiters := l.waiters.erase ident }

/-- Whether no lock of a group is held or waited for. -/
def State.groupFree (s : State) (g : Nat) : Bool :=
  s.locks.cells.all fun l => decide (l.1 / 256 ≠ g) || (l.2.owner.isNone && l.2.waiters.isEmpty)

/-- A write of LK_GROUP[g], or of LK_GROUP_FERRIES[g] (R408). -/
def State.writeLockGroup (s : State) (g : Nat) (ferries : Bool) (v : Nat) : State :=
  if 16 ≤ g then s
  else if !s.groupFree g then s.logRejected (0x02_0000_C000 + 0x1_0000 * g + (if ferries then 8 else 0))
  else if ferries then s.setFields g v [.LK_GROUP_FERRIES_FERRIES]
  else s.setFields g v [.LK_GROUP_JOB_SLOT, .LK_GROUP_BOUND, .LK_GROUP_PRIO_MODE, .LK_GROUP_HOST_PRIO, .LK_GROUP_HFUNC1,
    .LK_GROUP_HEN1, .LK_GROUP_HFUNC0, .LK_GROUP_HEN0]

/-- LK_GROUP_WRITE: a write of a lock group's registers (R408). -/
def execLkGroupWrite (g : Nat) (ferries : Bool) (v : Nat) (s : State) : Host.Outcome State Fault Refusal :=
  s.whenUp fun s => s.writeLockGroup g ferries v

/-- A write of LK_CFG: only while no job is active (R409). -/
def State.writeLockCfg (s : State) (v : Nat) : State :=
  if s.jobsActive = 0 then s.setFields 0 v [.LK_CFG_MAINT] else s

/-- LK_CFG_WRITE: a write of LK_CFG (R409). -/
def execLkCfgWrite (v : Nat) (s : State) : Host.Outcome State Fault Refusal := s.whenUp fun s => s.writeLockCfg v

/-- An operation on a word lock (R409): the new word where the present one is `want`. -/
def State.wordLock (s : State) (writer addr want new : Nat) : State :=
  if !s.flag .LK_CFG_MAINT || decide (writer ≠ identCtl) then s.logViolation 0x02_0000_E008
  else if !s.inWharf addr || addr % 8 ≠ 0 then s
  else
    let old := memNat s.mem addr 8
    let s := if old = want then s.writeLocal 0 addr (leBytes 8 new) else s.writeLocal 0 addr (leBytes 8 old)
    { s with lkWord := s.lkWord.put writer (if old = want then new else old) }

/-- LK_WORD_ACQUIRE: the control path or Iamel takes a word lock in maintenance mode (R409). -/
def execLkWordAcquire (writer addr : Nat) (s : State) : Host.Outcome State Fault Refusal :=
  s.whenUp fun s => s.wordLock writer addr 0 (0x1_0000 + writer)

/-- LK_WORD_RELEASE: the holder releases a word lock (R409). -/
def execLkWordRelease (writer addr : Nat) (s : State) : Host.Outcome State Fault Refusal :=
  s.whenUp fun s => s.wordLock writer addr (0x1_0000 + writer) 0

end Sys2Proof.Machine
end

