-- ==== Sys2Proof/Machine/EngineOps.lean ====
section
/-! DEFINITION. Maelrum engine code (R366 to R371, R390): encodings, the issue of one instruction, its end, and what the ALU,
compares, shifts and memory accesses compute. -/

namespace Sys2Proof.Machine

/-! ## Encodings (R369, R370) -/

/-- The word that fields spell, the most significant first, each as (value, width); none where a value does not fit. -/
def wordOf : List (Nat × Nat) → Option Nat
  | [] => some 0
  | f :: r =>
    let w := (r.map (·.2)).foldl (· + ·) 0
    match wordOf r with
    | some v => if f.1 < 2 ^ f.2 then some (f.1 * 2 ^ w + v) else none
    | none => none

/-- A flag as a field of one bit. -/
def bit1 (b : Bool) : Nat × Nat := (if b then 1 else 0, 1)

/-- The fields of the five formats. -/
def fmtA (op rd ra rb pg : Nat) (gn : Bool) (fn : Nat) : List (Nat × Nat) :=
  [(op, 6), (rd, 5), (ra, 5), (rb, 5), (pg, 3), bit1 gn, (fn, 7)]
def fmtB (op rd ra imm : Nat) : List (Nat × Nat) := [(op, 6), (rd, 5), (ra, 5), (imm, 16)]
def fmtC (op rd ra sz mo off : Nat) : List (Nat × Nat) := [(op, 6), (rd, 5), (ra, 5), (sz, 2), (mo, 2), (off, 12)]
def fmtD (op p : Nat) (n : Bool) (rsv off : Nat) : List (Nat × Nat) := [(op, 6), (p, 3), bit1 n, (rsv, 2), (off, 20)]
def fmtE (rd rs ra unit fn : Nat) (w : Bool) : List (Nat × Nat) :=
  [(0x20, 6), (rd, 5), (rs, 5), (ra, 5), (unit, 4), (fn, 3), bit1 w, (0, 3)]

/-- How many functions a unit has (the unit table). -/
def unitFns (u : Nat) : Nat :=
  match u with
  | 0 => 3
  | 1 => 4
  | 2 => 2
  | 3 => 3
  | 4 => 3
  | 5 => 2
  | 6 => 2
  | 7 => 2
  | _ => 0

/-- Whether R370 defines a word. -/
def wordDefined (w : Nat) : Bool :=
  let rd := bitsOf w 21 5
  let ra := bitsOf w 16 5
  let rb := bitsOf w 11 5
  let fn := bitsOf w 0 7
  match w / 2 ^ 26 with
  | 0x00 => decide (fn ≤ 0x10 ∧ (fn < 0x0E ∨ rb = 0))
  | 0x01 => decide (fn ≤ 5 ∧ rd < 8)
  | 0x02 => decide (fn ≤ 5 ∧ rd < 8 ∧ ra < 8 ∧ rb < 8)
  | 0x03 => decide (fn / 8 ≤ 9)
  | 0x04 => decide (fn ≤ 5)
  | 0x05 => decide (fn = 0)
  | 0x08 => true
  | 0x09 => true
  | 0x0A => true
  | 0x0B => true
  | 0x0C => decide (ra = 0)
  | 0x0D => decide (ra < 4)
  | 0x0E => true
  | 0x0F => decide (bitsOf w 8 8 = 0)
  | 0x10 => decide (bitsOf w 12 2 ≤ 1)
  | 0x11 => decide (bitsOf w 12 2 ≤ 1)
  | 0x12 => decide (bitsOf w 12 2 ≤ 1)
  | 0x18 => decide (bitsOf w 20 2 = 0)
  | 0x19 => decide (bitsOf w 20 2 = 0)
  | 0x20 => decide (bitsOf w 4 3 < unitFns (bitsOf w 7 4) ∧ bitsOf w 0 3 = 0)
  | _ => false

/-! ## Issue (R366, R390) -/

/-- Whether an instruction number lies in the region of an invocation's image (R362). -/
def Invoc.inRegion (v : Invoc) (pc : Nat) : Bool :=
  if v.slot.isNone then decide (pc < 6144) else decide (6144 ≤ pc ∧ pc < 16384)

/-- Count a slot: 0 retired, 1 wasted (R390). -/
def State.slot (s : State) (f k : Nat) : State := s.incWrap .FX_SLOTS_COUNT (4 * f + k) 1

/-- An instruction faults its thread (R384); its slot is wasted. -/
def State.engineFault (s : State) (f t cause : Nat) : State := (s.slot f 1).threadFault f t cause

/-- An instruction takes effect: the change of its invocation, the next PC, its slot. -/
def State.retireInstr (s : State) (f t : Nat) (g : Invoc → Invoc) : State :=
  (s.updInv f t fun v => { g v with pc := v.pc + 1 }).slot f 0

/-- A taken branch or JR: the target within the region, else PC_RANGE; the slot after it is wasted. -/
def State.jump (s : State) (f t : Nat) (target : Int) (g : Invoc → Invoc) : State :=
  match (s.thread f t).inv with
  | none => s
  | some v =>
    if 0 ≤ target ∧ v.inRegion target.toNat then
      ((s.updInv f t fun v => { g v with pc := target.toNat }).slot f 0).slot f 1
    else s.engineFault f t tfPcRange

/-- Whether a thread is in RUN (R363); its next instruction then counts as ready (log 38). -/
def State.ready (s : State) (f t : Nat) : Bool :=
  match (s.thread f t).inv with
  | some v => v.sleep.isNone && v.ending.isNone
  | none => false

/-- The thread that takes a ferry's next issue slot (R366): one that was passed over in 128 slots, else one of the highest effective priority; among
several the first in round-robin order from the one issued last. -/
def State.issuer (s : State) (f : Nat) : Option Nat :=
  let ts := (List.range 16).filter fun t => s.ready f t
  let old := ts.filter fun t => decide (128 ≤ (s.thread f t).passed)
  let top := (ts.map fun t => s.effPrio f t).foldl max 0
  let pool := if old.isEmpty then ts.filter fun t => decide (s.effPrio f t = top) else old
  let turn (t : Nat) : Nat := (t + 15 - (s.ferry f).issued) % 16
  match pool with
  | [] => none
  | t :: r => some (r.foldl (fun a b => if turn b < turn a then b else a) t)

/-- A thread takes an issue slot: the other ready ones are passed over. -/
def State.tookSlot (s : State) (f t : Nat) : State :=
  let ts := (List.range 16).map fun u => (u, if decide (u = t) || !s.ready f u then 0 else (s.thread f u).passed + 1)
  let s := ts.foldl (fun s u => if (s.thread f u.1).passed = u.2 then s else s.updThread f u.1 fun x => { x with passed := u.2 }) s
  s.updFerry f fun x => { x with issued := t }

/-- A thread of a running invocation issues the instruction at its PC (R366): the word there is the one that the command's
fields spell, and it is the thread's turn. An undefined word faults ILLEGAL (R370); a PC that has left the region faults PC_RANGE (R362). -/
def State.issue (s : State) (f t : Nat) (fields : List (Nat × Nat)) (exe : State → Invoc → State) : State :=
  match (s.thread f t).inv with
  | none => s
  | some v =>
    if !s.ferryOn f || decide (s.issuer f ≠ some t) then s
    else if !v.inRegion v.pc then (s.tookSlot f t).engineFault f t tfPcRange
    else
      let w := (s.imem.look (f, v.pc)).getD 0
      if !wordDefined w then (s.tookSlot f t).engineFault f t tfIllegal
      else if wordOf fields = some w then exe (s.tookSlot f t) v
      else s

/-- Issue a format A instruction: without its guard it has no effect and its slot is wasted (R369). -/
def State.issueA (s : State) (f t op rd ra rb pg : Nat) (gn : Bool) (fn : Nat) (exe : State → Invoc → State) : State :=
  s.issue f t (fmtA op rd ra rb pg gn fn) fun s v =>
    if v.prd pg != gn then exe s v
    else (s.updInv f t fun v => { v with pc := v.pc + 1 }).slot f 1

/-! ## What instructions compute -/

/-- 2^64 minus 1, and reduction to 64 bits. -/
def w64 (n : Nat) : Nat := n % 2 ^ 64
def neg64 (n : Nat) : Nat := 2 ^ 64 - 1 - n % 2 ^ 64

/-- Shifts of 64-bit values. -/
def sll64 (a n : Nat) : Nat := w64 (a * 2 ^ n)
def srl64 (a n : Nat) : Nat := a / 2 ^ n
def sra64 (a n : Nat) : Nat := wrapInt 64 (signedOf 64 a / ((2 ^ n : Nat) : Int))
def ror64 (a n : Nat) : Nat := w64 (a / 2 ^ n + a * 2 ^ (64 - n))

/-- Sign-extension of the low `w` bits to 64. -/
def sext64 (w v : Nat) : Nat := wrapInt 64 (signedOf w v)

/-- How many of the 64 bits are leading zeros, and how many are set. -/
def clz64 (a : Nat) : Nat := ((List.range 64).find? fun k => bitOf a (63 - k)).getD 64
def popc64 (a : Nat) : Nat := ((List.range 64).filter fun k => bitOf a k).length

/-- The ALU (R370). -/
def aluOp (fn a b : Nat) : Nat :=
  match fn with
  | 0x00 => w64 (a + b)
  | 0x01 => w64 (a + (2 ^ 64 - b))
  | 0x02 => a &&& b
  | 0x03 => a ||| b
  | 0x04 => a ^^^ b
  | 0x05 => sll64 a (b % 64)
  | 0x06 => srl64 a (b % 64)
  | 0x07 => sra64 a (b % 64)
  | 0x08 => w64 (a * b)
  | 0x09 => a * b / 2 ^ 64
  | 0x0A => if signedOf 64 a ≤ signedOf 64 b then a else b
  | 0x0B => if signedOf 64 a ≤ signedOf 64 b then b else a
  | 0x0C => min a b
  | 0x0D => max a b
  | 0x0E => clz64 a
  | 0x0F => popc64 a
  | _ => leNat (leBytes 8 a).reverse

/-- The compares (R370). -/
def cmpOp (fn a b : Nat) : Bool :=
  match fn with
  | 0 => decide (a = b)
  | 1 => decide (a ≠ b)
  | 2 => decide (signedOf 64 a < signedOf 64 b)
  | 3 => decide (a < b)
  | 4 => decide (signedOf 64 b ≤ signedOf 64 a)
  | _ => decide (b ≤ a)

/-- The predicate operations (R370). -/
def predOp (fn : Nat) (a b : Bool) : Bool :=
  match fn with
  | 0 => a && b
  | 1 => a || b
  | 2 => a != b
  | 3 => a && !b
  | 4 => true
  | _ => false

/-- The new word of an AMO of `w` bits (R370): `cmp` is rd on entry. -/
def amoOp (fn w old b cmp : Nat) : Nat :=
  let b := b % 2 ^ w
  match fn with
  | 0 => (old + b) % 2 ^ w
  | 1 => b
  | 2 => if old = cmp % 2 ^ w then b else old
  | 3 => old &&& b
  | 4 => old ||| b
  | 5 => old ^^^ b
  | 6 => if signedOf w old ≤ signedOf w b then old else b
  | 7 => if signedOf w old ≤ signedOf w b then b else old
  | 8 => min old b
  | _ => max old b

/-! ## Memory accesses (R368, R371) -/

/-- Why an access of `n` bytes at a local address faults: ACCESS, then ALIGN, then POISON where it reads. -/
def State.accessFault (s : State) (f : Nat) (v : Invoc) (addr n : Nat) (reads : Bool) : Option Nat :=
  if !s.localOk f addr n v.slot.isSome then some tfAccess
  else if addr % n ≠ 0 then some tfAlign
  else if reads && !isScratch addr && s.poisoned addr n then some tfPoison
  else none

/-- The directory's part of a ferry's access to the wharf (R395): none for scratch. -/
def State.touchLine (s : State) (f addr : Nat) (own : Bool) : State :=
  if isScratch addr then s else if own then s.lineOwn f addr else s.lineRead f addr

/-- A ferry's store to local memory; the copy in its cache keeps its state, and a poison mark stays (R399). -/
def State.storeLocal (s : State) (f addr : Nat) (bs : List Byte) : State :=
  if isScratch addr then { s with scratch := memWrite s.scratch (65536 * f + addr) bs }
  else { s with mem := memWrite s.mem addr bs }

/-- The address of a load or store: base plus the signed offset (R369). -/
def offAddr (base off : Nat) : Nat := wrapInt 64 ((base : Int) + signedOf 12 off)

/-- LD and LDS. -/
def State.loadInstr (s : State) (f t : Nat) (v : Invoc) (rd ra sz off : Nat) (signed : Bool) : State :=
  let n := 2 ^ sz
  let a := offAddr (v.reg ra) off
  match s.accessFault f v a n true with
  | some c => s.engineFault f t c
  | none =>
    let x := leNat (s.readLocal f a n)
    (s.touchLine f a false).retireInstr f t fun v => v.setReg rd (if signed then sext64 (8 * n) x else x)

/-- ST. -/
def State.storeInstr (s : State) (f t : Nat) (v : Invoc) (rs ra sz off : Nat) : State :=
  let n := 2 ^ sz
  let a := offAddr (v.reg ra) off
  match s.accessFault f v a n false with
  | some c => s.engineFault f t c
  | none => ((s.touchLine f a true).storeLocal f a (leBytes n (v.reg rs))).retireInstr f t id

/-- AMO (R397). -/
def State.amoInstr (s : State) (f t : Nat) (v : Invoc) (rd ra rb fn : Nat) : State :=
  let n := if bitOf fn 2 then 8 else 4
  let a := v.reg ra
  match s.accessFault f v a n true with
  | some c => s.engineFault f t c
  | none =>
    let old := leNat (s.readLocal f a n)
    let new := amoOp (fn / 8) (8 * n) old (v.reg rb) (v.reg rd)
    ((s.touchLine f a true).storeLocal f a (leBytes n new)).retireInstr f t fun v => v.setReg rd old

/-- DONE (R365): timers are cancelled and events discarded; the invocation ends once its unit operations have completed. -/
def State.doneInstr (s : State) (f t status : Nat) : State :=
  let tm (k : TimerKey) : Bool := match k with | .ferryTimer g u _ => decide (g = f ∧ u = t) | _ => false
  let s := (s.retireInstr f t fun v => { v with ending := some (status % 256) }).disarmAll tm
  (s.updThread f t fun x => { x with events := [], timers := {} }).endingCheck f t

/-- The word that SELF returns (R370). -/
def selfWord (f t entry : Nat) : Nat := f % 64 + t % 16 * 256 + entry % 256 * 65536

end Sys2Proof.Machine
end

