-- ==== Sys2Proof/Machine/Engine.lean ====
section
/-! DEFINITION. The meanings of the Maelrum engine instructions (R369 to R372): each issues on a thread whose next instruction it
is. -/

namespace Sys2Proof.Machine

/-- ALU: rd = ra op rb. -/
def execAlu (f t rd ra rb pg : Nat) (gn : Bool) (fn : Nat) (s : State) : Host.Outcome State Fault Refusal :=
  s.whenUp fun s => s.issueA f t 0x00 rd ra rb pg gn fn fun s _ =>
    s.retireInstr f t fun v => v.setReg rd (aluOp fn (v.reg ra) (v.reg rb))

/-- CMP: the predicate in rd = compare ra, rb. -/
def execCmp (f t rd ra rb pg : Nat) (gn : Bool) (fn : Nat) (s : State) : Host.Outcome State Fault Refusal :=
  s.whenUp fun s => s.issueA f t 0x01 rd ra rb pg gn fn fun s _ =>
    s.retireInstr f t fun v => v.setPrd rd (cmpOp fn (v.reg ra) (v.reg rb))

/-- PRED: a predicate from two predicates. -/
def execPred (f t rd ra rb pg : Nat) (gn : Bool) (fn : Nat) (s : State) : Host.Outcome State Fault Refusal :=
  s.whenUp fun s => s.issueA f t 0x02 rd ra rb pg gn fn fun s _ =>
    s.retireInstr f t fun v => v.setPrd rd (predOp fn (v.prd ra) (v.prd rb))

/-- AMO: rd = the old word at ra, and the new word is old op rb. -/
def execAmo (f t rd ra rb pg : Nat) (gn : Bool) (fn : Nat) (s : State) : Host.Outcome State Fault Refusal :=
  s.whenUp fun s => s.issueA f t 0x03 rd ra rb pg gn fn fun s v => s.amoInstr f t v rd ra rb fn

/-- SYS FENCE: orders the thread's accesses (R372); they are performed in order here. -/
def execSysFence (f t rd ra rb pg : Nat) (gn : Bool) (s : State) : Host.Outcome State Fault Refusal :=
  s.whenUp fun s => s.issueA f t 0x04 rd ra rb pg gn 0 fun s _ => s.retireInstr f t id

/-- SYS YIELD: gives up the present slot turn (R366). -/
def execSysYield (f t rd ra rb pg : Nat) (gn : Bool) (s : State) : Host.Outcome State Fault Refusal :=
  s.whenUp fun s => s.issueA f t 0x04 rd ra rb pg gn 1 fun s _ => s.retireInstr f t id

/-- SYS DONE: ends the invocation with the status in ra (R365). -/
def execSysDone (f t rd ra rb pg : Nat) (gn : Bool) (s : State) : Host.Outcome State Fault Refusal :=
  s.whenUp fun s => s.issueA f t 0x04 rd ra rb pg gn 2 fun s v => (s.doneInstr f t (v.reg ra)).settleAll

/-- SYS NOW: rd = machine time (R357). -/
def execSysNow (f t rd ra rb pg : Nat) (gn : Bool) (s : State) : Host.Outcome State Fault Refusal :=
  s.whenUp fun s => s.issueA f t 0x04 rd ra rb pg gn 3 fun s _ => s.retireInstr f t fun v => v.setReg rd s.now

/-- SYS SELF: rd = ferry, thread and entry. -/
def execSysSelf (f t rd ra rb pg : Nat) (gn : Bool) (s : State) : Host.Outcome State Fault Refusal :=
  s.whenUp fun s => s.issueA f t 0x04 rd ra rb pg gn 4 fun s _ => s.retireInstr f t fun v => v.setReg rd (selfWord f t v.entry)

/-- SYS BREAK: faults BREAK. -/
def execSysBreak (f t rd ra rb pg : Nat) (gn : Bool) (s : State) : Host.Outcome State Fault Refusal :=
  s.whenUp fun s => s.issueA f t 0x04 rd ra rb pg gn 5 fun s _ => (s.engineFault f t tfBreak).settleAll

/-- JR: rd = PC + 1; PC = ra bits 13:0 in the invocation's region. -/
def execJr (f t rd ra rb pg : Nat) (gn : Bool) (fn : Nat) (s : State) : Host.Outcome State Fault Refusal :=
  s.whenUp fun s => s.issueA f t 0x05 rd ra rb pg gn fn fun s v =>
    s.jump f t (v.reg ra % 16384) fun v => v.setReg rd (v.pc + 1)

/-- ADDI: rd = ra + sign-extended IMM16. -/
def execAddi (f t rd ra imm : Nat) (s : State) : Host.Outcome State Fault Refusal :=
  s.whenUp fun s => s.issue f t (fmtB 0x08 rd ra imm) fun s _ =>
    s.retireInstr f t fun v => v.setReg rd (w64 (v.reg ra + sext64 16 imm))

/-- ANDI: rd = ra AND zero-extended IMM16. -/
def execAndi (f t rd ra imm : Nat) (s : State) : Host.Outcome State Fault Refusal :=
  s.whenUp fun s => s.issue f t (fmtB 0x09 rd ra imm) fun s _ => s.retireInstr f t fun v => v.setReg rd (v.reg ra &&& imm)

/-- ORI: rd = ra OR zero-extended IMM16. -/
def execOri (f t rd ra imm : Nat) (s : State) : Host.Outcome State Fault Refusal :=
  s.whenUp fun s => s.issue f t (fmtB 0x0A rd ra imm) fun s _ => s.retireInstr f t fun v => v.setReg rd (v.reg ra ||| imm)

/-- XORI: rd = ra XOR zero-extended IMM16. -/
def execXori (f t rd ra imm : Nat) (s : State) : Host.Outcome State Fault Refusal :=
  s.whenUp fun s => s.issue f t (fmtB 0x0B rd ra imm) fun s _ => s.retireInstr f t fun v => v.setReg rd (v.reg ra ^^^ imm)

/-- MOVI: rd = sign-extended IMM16. -/
def execMovi (f t rd ra imm : Nat) (s : State) : Host.Outcome State Fault Refusal :=
  s.whenUp fun s => s.issue f t (fmtB 0x0C rd ra imm) fun s _ => s.retireInstr f t fun v => v.setReg rd (sext64 16 imm)

/-- The value of MOVK: IMM16 in the 16-bit piece `k` of a value. -/
def movkValue (old k imm : Nat) : Nat := old - bitsOf old (16 * k) 16 * 2 ^ (16 * k) + imm % 65536 * 2 ^ (16 * k)

/-- MOVK: one 16-bit piece of rd = IMM16, the other bits kept. -/
def execMovk (f t rd ra imm : Nat) (s : State) : Host.Outcome State Fault Refusal :=
  s.whenUp fun s => s.issue f t (fmtB 0x0D rd ra imm) fun s _ => s.retireInstr f t fun v => v.setReg rd (movkValue (v.reg rd) ra imm)

/-- CMPI: a predicate = compare ra with sign-extended IMM16; rd bits 4:3 choose the compare. -/
def execCmpi (f t rd ra imm : Nat) (s : State) : Host.Outcome State Fault Refusal :=
  s.whenUp fun s => s.issue f t (fmtB 0x0E rd ra imm) fun s _ =>
    s.retireInstr f t fun v => v.setPrd (rd % 8) (cmpOp (rd / 8) (v.reg ra) (sext64 16 imm))

/-- The shifts of SHI: IMM16 bits 7:6 choose the kind, bits 5:0 the count. -/
def shiOp (imm a : Nat) : Nat :=
  let n := imm % 64
  match imm / 64 % 4 with
  | 0 => sll64 a n
  | 1 => srl64 a n
  | 2 => sra64 a n
  | _ => ror64 a n

/-- SHI: rd = ra shifted by IMM16 bits 5:0. -/
def execShi (f t rd ra imm : Nat) (s : State) : Host.Outcome State Fault Refusal :=
  s.whenUp fun s => s.issue f t (fmtB 0x0F rd ra imm) fun s _ => s.retireInstr f t fun v => v.setReg rd (shiOp imm (v.reg ra))

/-- LD: rd = zero-extended load at ra + OFF12. -/
def execLd (f t rd ra sz mo off : Nat) (s : State) : Host.Outcome State Fault Refusal :=
  s.whenUp fun s => s.issue f t (fmtC 0x10 rd ra sz mo off) fun s v => s.loadInstr f t v rd ra sz off false

/-- LDS: rd = sign-extended load at ra + OFF12. -/
def execLds (f t rd ra sz mo off : Nat) (s : State) : Host.Outcome State Fault Refusal :=
  s.whenUp fun s => s.issue f t (fmtC 0x11 rd ra sz mo off) fun s v => s.loadInstr f t v rd ra sz off true

/-- ST: store the low bytes of rs at ra + OFF12. -/
def execSt (f t rs ra sz mo off : Nat) (s : State) : Host.Outcome State Fault Refusal :=
  s.whenUp fun s => s.issue f t (fmtC 0x12 rs ra sz mo off) fun s v => s.storeInstr f t v rs ra sz off

/-- BR: if (P XOR N) = 1, PC = PC + OFF20. -/
def execBr (f t p : Nat) (n : Bool) (rsv off : Nat) (s : State) : Host.Outcome State Fault Refusal :=
  s.whenUp fun s => s.issue f t (fmtD 0x18 p n rsv off) fun s v =>
    if v.prd p != n then s.jump f t (v.pc + signedOf 20 off) id else s.retireInstr f t id

/-- BRL: as BR, and g31 = PC + 1 when the branch is taken. -/
def execBrl (f t p : Nat) (n : Bool) (rsv off : Nat) (s : State) : Host.Outcome State Fault Refusal :=
  s.whenUp fun s => s.issue f t (fmtD 0x19 p n rsv off) fun s v =>
    if v.prd p != n then s.jump f t (v.pc + signedOf 20 off) (fun v => v.setReg 31 (v.pc + 1)) else s.retireInstr f t id

end Sys2Proof.Machine
end

