-- ==== Sys2Proof/Machine/UnitOps.lean ====
section
/-! DEFINITION. Unit operations of ferry threads (R373 to R381): how a UNIT instruction issues, descriptors, and each unit's work. -/

namespace Sys2Proof.Machine

/-! ## Issue and acceptance (R375, R376) -/

/-- A UNIT instruction issues. -/
def State.issueUnit (s : State) (f t rd rs ra unit fn : Nat) (w : Bool) (exe : State → Invoc → State) : State :=
  s.issue f t (fmtE rd rs ra unit fn w) exe

/-- A register operation completes at once with a word in rd. -/
def State.unitRet (s : State) (f t rd x : Nat) : State := (s.count f 4).retireInstr f t fun v => v.setReg rd x

/-- A job invocation's slot, and whether a tally, a queue, a lock belongs to it (R376, R401); a system invocation may use all. -/
def State.invTally (s : State) (v : Invoc) (n : Nat) : Bool :=
  match v.slot with
  | some j => (s.job j).hasTally n
  | none => true
def State.invQueue (s : State) (v : Invoc) (q : Nat) : Bool :=
  match v.slot with
  | some j => s.qOfJob j q && decide (s.qState q ≠ qDisabled)
  | none => decide (s.qState q ≠ qDisabled)
def State.invLock (s : State) (f : Nat) (v : Invoc) (n : Nat) : Bool :=
  match v.slot with
  | some j =>
    let g := lockGroup n
    s.flag .LK_GROUP_BOUND g && decide (s.rd .LK_GROUP_JOB_SLOT g = j) && bitOf (s.rd .LK_GROUP_FERRIES_FERRIES g) f
  | none => true

/-- Whether an invocation was dispatched by an arriving packet (R380). -/
def Invoc.fromNet (v : Invoc) : Bool :=
  match v.kind with
  | .hmsg _ _ => true
  | .mcast => true
  | _ => false

/-- The host function of an invocation's accesses (R524). -/
def State.invFunc (s : State) (v : Invoc) (asid : Nat) : Func :=
  match v.kind with
  | .call q _ _ => s.qFunc q
  | _ => match s.asidSlot asid with | some a => s.rd .TX_ASID_WFUNC a | none => 0

/-- The head of a descriptor is well formed: DFLAGS and CTALLY (R376). -/
def descHead (d : List Byte) : Bool := decide (leAt d 0 1 ≤ 1) && tfOk (leAt d 1 3)

/-- Whether bytes of a descriptor are 0. -/
def descZero (d : List Byte) (off n : Nat) : Bool := decide (leAt d off n = 0)

/-- Accept a descriptor operation: with W the thread sleeps until it completes, else rd receives code 0 (R375). -/
def State.acceptOp (s : State) (f t rd unit fn : Nat) (w : Bool) (addr : Nat) (d : List Byte) (writes : Bool) : State × Nat :=
  let op := s.nextId
  let o : UnitOp := {
    op := op, unit := unit, fn := fn, desc := addr, done := bitOf (leAt d 0 1) 0, ctally := leAt d 1 3, w := w, rd := rd, writes := writes }
  let s := (s.idNext.count f 4).updThread f t fun x => { x with ops := x.ops ++ [o] }
  (s.retireInstr f t fun v => if w then { v with sleep := some (.unit op) } else v.setReg rd 0, op)

/-- A descriptor operation: the descriptor is read at rs, aligned to 64 bytes; a 17th outstanding one sleeps; a malformed one
faults UNIT; `stops` gives the fault, `waits` says that the operation cannot be taken yet; then it is accepted and, where CTALLY
belongs to the job, it runs. -/
def State.descOp (s : State) (f t rd rs unit fn : Nat) (w : Bool) (writes ok : List Byte → Bool) (stops : List Byte → Option Nat)
    (waits : State → List Byte → Bool) (v : Invoc) (run : State → Nat → List Byte → State) : State :=
  let a := v.reg rs
  if !s.localOk f a 64 v.slot.isSome then s.engineFault f t tfAccess
  else if a % 64 ≠ 0 then s.engineFault f t tfAlign
  else if !isScratch a && s.poisoned a 64 then s.engineFault f t tfPoison
  else if 16 ≤ (s.thread f t).ops.length then s.updInv f t fun v => { v with sleep := some .full }
  else
    let d := s.readLocal f a 64
    if !(descHead d && ok d) then s.engineFault f t tfUnit
    else
      match stops d with
      | some c => s.engineFault f t c
      | none =>
        if waits s d then s
        else
          match (s.agentMoves a 64).acceptOp f t rd unit fn w a d (writes d) with
          | (s, op) =>
            let c := leAt d 1 3
            if tfEn c && !s.invTally v (tfNum c) then s.unitDone f t op ruRights 0 0 else run s op d

/-- An operation that writes host or package memory, and one that does not (R374). -/
def writesMem (_ : List Byte) : Bool := true
def writesNone (_ : List Byte) : Bool := false

/-- No wait, and no fault. -/
def noWait (_ : State) (_ : List Byte) : Bool := false
def noStop (_ : List Byte) : Option Nat := none

/-- R380: an invocation that a packet dispatched originates no request. -/
def Invoc.noOriginate (v : Invoc) (_ : List Byte) : Option Nat := if v.fromNet then some tfOriginate else none

/-! ## SEND (R377, R378) -/

/-- The fields of a SEND descriptor. -/
def sdDest (d : List Byte) : Nat := leAt d 4 4
def sdHandler (d : List Byte) : Nat := leAt d 8 1
def sdFerry (d : List Byte) : Nat := leAt d 9 1
def sdStatus (d : List Byte) : Nat := leAt d 10 1
def sdLen (d : List Byte) : Nat := leAt d 12 4
def sdSrc (d : List Byte) : Nat := leAt d 16 8
def sdRlen (d : List Byte) : Nat := leAt d 24 2
def sdRbuf (d : List Byte) : Nat := leAt d 32 8

/-- The causes of R146's table. -/
def isCause (c : Nat) : Bool :=
  [0x10, 0x11, 0x12, 0x13, 0x14, 0x15, 0x16, 0x17, 0x18, 0x19, 0x1A, 0x1B, 0x1C, 0x1D, 0x1E, 0x20, 0x21, 0x22, 0x24, 0x25,
    0x28, 0x29, 0x2A, 0x2C, 0x2D, 0x2E, 0x30, 0x31, 0x32, 0x33].contains c

/-- A SEND descriptor's layout, per function. -/
def sendDescOk (fn : Nat) (d : List Byte) : Bool :=
  descZero d 11 1 && descZero d 26 6 && descZero d 40 24 &&
    (if fn = 1 then decide (sdDest d = 0 ∧ sdLen d ≤ 4096) && (decide (sdStatus d = 0) || isCause (sdStatus d))
     else decide (0x80 ≤ sdHandler d ∧ sdFerry d < 64 ∧ sdLen d ≤ 4064 ∧ sdRlen d ≤ 4096)
      && (if fn = 2 then isMcast (sdDest d) else !isMcast (sdDest d)))

/-- Whether a local range of an invocation may be used; an empty one may. -/
def State.rangeOk (s : State) (f : Nat) (v : Invoc) (addr n : Nat) : Bool := decide (n = 0) || s.localOk f addr n v.slot.isSome

/-- The local endpoint of a ferry's own requests. -/
def State.ferryEp (s : State) (f : Nat) : Nat := s.endpoint (Config.ferryEndpoint f % 4095)

/-- Whether a REQUEST cannot be taken yet: no manifest entry, landing unit or context (R22, R207). -/
def State.requestWaits (s : State) (f : Nat) (v : Invoc) (d : List Byte) : Bool :=
  match v.slot with
  | none => false
  | some j =>
    !s.canTake j || decide (s.landFree < (if sdRlen d = 0 then 0 else 1)) || (s.openFor j (s.ferryEp f) (sdDest d) false).2.isNone

/-- REQUEST (R377). -/
def State.runRequest (s : State) (f t : Nat) (v : Invoc) (op : Nat) (d : List Byte) : State :=
  match v.slot with
  | none => s.unitDone f t op ruRights 0 0
  | some j =>
    if !s.rangeOk f v (sdSrc d) (sdLen d) || !s.rangeOk f v (sdRbuf d) (sdRlen d) then s.unitDone f t op ruRange 0 0
    else if s.poisoned (sdSrc d) (sdLen d) then s.unitDone f t op ruMemory 0 0
    else
      match s.openFor j (s.ferryEp f) (sdDest d) false with
      | (s, none) => s.unitDone f t op ruBusy 0 0
      | (s, some c) =>
        let e : MEntry := {
          queue := 0, index := 0, iter := 0, slot := j, ctx := c, blk := .hmsg false (sdHandler d) (sdFerry d) (sdLen d) (sdRlen d),
          total := sdRlen d, data := s.readLocal f (sdSrc d) (sdLen d), land := if sdRlen d = 0 then 0 else 1, owner := .unit f t op,
          laddr := sdRbuf d }
        match (s.agentMoves (sdSrc d) (sdLen d)).takeEntry e with
        | (s, m) => s.pumpEntry m

/-- REPLY (R378). -/
def State.runReply (s : State) (f t : Nat) (v : Invoc) (op : Nat) (d : List Byte) : State :=
  match v.kind with
  | .hmsg c m =>
    let rlen := match s.tops.look (c, m) with | some x => (match x.blk with | .hmsg _ _ _ _ r => r | _ => 0) | none => 4096
    if !s.rangeOk f v (sdSrc d) (sdLen d) || decide (rlen < sdLen d) then s.unitDone f t op ruRange 0 0
    else if s.poisoned (sdSrc d) (sdLen d) then s.unitDone f t op ruMemory 0 0
    else
      let s := (s.agentMoves (sdSrc d) (sdLen d)).updInv f t fun v => { v with replied := true }
      let s := if sdLen d = 0 then s else s.queueResp c m 0 (s.readLocal f (sdSrc d) (sdLen d)) true false
      (s.sendStatus c m (sdStatus d) (sdLen d)).unitDone f t op ruOk 0 0
  | _ => s

/-- REPLY faults UNIT where no HMSG dispatched the invocation, or it has replied. -/
def replyStop (v : Invoc) (_ : List Byte) : Option Nat :=
  match v.kind with
  | .hmsg _ _ => if v.replied then some tfUnit else none
  | _ => some tfUnit

/-- The key of a multicast stream of a slot (R157): its source endpoint and the group. -/
def mcKey (slot src group : Nat) : Nat × Nat := (slot * 2 ^ 32 + src, group)

/-- Send one packet of a multicast stream (R157, R377): a new TXC, a new epoch after 2^32. -/
def State.mcastSend (s : State) (j src dest : Nat) (blk : OpBlock) (bytes : List Byte) : State :=
  let k := mcKey j src (dest % 65536)
  let m := (s.mcStreams.look k).getD (s.now, 0, 0)
  let p : Packet := {
    ptype := tyData, cls := 0, gen := (s.job j).gen % 4, dest := dest, src := src, job := s.rd .GLB_JOB_JOB_ID j, epoch := m.2.2,
    txc := m.2.1, ts := s.now % 2 ^ 32, session := m.1, last := true, body := .data blk bytes }
  let next := if m.2.1 + 1 < 2 ^ 32 then (m.1, m.2.1 + 1, m.2.2) else (m.1, 0, (m.2.2 + 1) % 65536)
  { s with mcStreams := s.mcStreams.put k next }.emitSealed j p

/-- MCAST (R377): completes at injection. -/
def State.runMcast (s : State) (f t : Nat) (v : Invoc) (op : Nat) (d : List Byte) : State :=
  match v.slot with
  | none => s.unitDone f t op ruRights 0 0
  | some j =>
    if !s.rangeOk f v (sdSrc d) (sdLen d) then s.unitDone f t op ruRange 0 0
    else if s.poisoned (sdSrc d) (sdLen d) then s.unitDone f t op ruMemory 0 0
    else
      let bytes := s.readLocal f (sdSrc d) (sdLen d)
      ((s.agentMoves (sdSrc d) (sdLen d)).mcastSend j (s.ferryEp f) (sdDest d) (.hmsg true (sdHandler d) (sdFerry d) (sdLen d) (sdRlen d)) bytes).unitDone f t op ruOk 0 0

/-! ## MATCH (R234, R235) -/

/-- The fields of a MATCH descriptor. -/
def mdEp (d : List Byte) : Nat := leAt d 4 2
def mdAnySrc (d : List Byte) : Bool := bitOf (leAt d 6 1) 0
def mdAnyTag (d : List Byte) : Bool := bitOf (leAt d 6 1) 1
def mdComm (d : List Byte) : Nat := leAt d 8 4
def mdRank (d : List Byte) : Nat := leAt d 12 4
def mdTag (d : List Byte) : Nat := leAt d 16 8
def mdBuf (d : List Byte) : Nat := leAt d 24 8
def mdLen (d : List Byte) : Nat := leAt d 32 4
def mdClaim (d : List Byte) : Nat := leAt d 36 4
def mdStatus (d : List Byte) : Nat := leAt d 40 8
def mdRecord (d : List Byte) : Nat := leAt d 48 8

/-- A MATCH descriptor's layout. -/
def matchDescOk (d : List Byte) : Bool := decide (mdEp d < 4096 ∧ leAt d 6 1 < 4) && descZero d 7 1 && descZero d 56 8

/-- Whether an endpoint index is that of a queue bound to a job slot (R376). -/
def State.epOfJob (s : State) (j ep : Nat) : Bool := !(s.boundQueues fun q => s.qOfJob j q && decide ((s.q q).ep = ep)).isEmpty

/-- The receive that a POST or DELIVER makes, once its buffers translate; else the result code. -/
def State.matchRecv (s : State) (f t : Nat) (v : Invoc) (op : Nat) (p : Space) (d : List Byte) : State × Sum Nat Recv :=
  let fn := s.invFunc v v.asid
  let r : Recv := {
    space := p, anySrc := mdAnySrc d, anyTag := mdAnyTag d, srcRank := mdRank d, tag := mdTag d, rlx := false, func := fn,
    asid := v.asid, buf := mdBuf d, length := mdLen d, status := mdStatus d, owner := .unit f t op }
  match s.translateRange v.asid (mdBuf d) (mdLen d) fn false true with
  | (s, .inl _) => (s, .inl ruTranslation)
  | (s, .inr _) =>
    if mdStatus d = 0 then (s, .inr r)
    else
      match s.translateRange v.asid (mdStatus d) 32 fn false true with
      | (s, .inl _) => (s, .inl ruTranslation)
      | (s, .inr _) => (s, .inr r)

/-- Whether a POST cannot be taken yet: no match entry or no catcher (R22, R236). -/
def State.postWaits (s : State) (v : Invoc) (d : List Byte) : Bool :=
  match v.slot with
  | none => false
  | some j => !s.canMatch j || (s.catcherOf ⟨j, mdEp d, mdComm d⟩).isNone

/-- POST (R234). -/
def State.runPost (s : State) (f t : Nat) (v : Invoc) (op : Nat) (d : List Byte) : State :=
  match v.slot with
  | none => s.unitDone f t op ruRights 0 0
  | some j =>
    let p : Space := ⟨j, mdEp d, mdComm d⟩
    if !s.epOfJob j (mdEp d) then s.unitDone f t op ruRights 0 0
    else
      match s.catcherOf p with
      | none => s.unitDone f t op ruBusy 0 0
      | some k =>
        match s.matchRecv f t v op p d with
        | (s, .inl c) => s.unitDone f t op c 0 0
        | (s, .inr r) => (s.postRecv k r).settleAll

/-- The probe record of a message, or of none (R234). -/
def probeRecord (m : Option Msg) (handle : Nat) : List Byte :=
  match m with
  | none => leBytes 32 0
  | some m =>
    leBytes 4 m.rank ++ leBytes 4 0 ++ leBytes 8 m.tag ++ leBytes 4 m.sent ++ leBytes 1 1 ++ leBytes 1 (if m.rdv then 1 else 0)
      ++ leBytes 2 0 ++ leBytes 4 handle ++ leBytes 4 0

/-- PROBE, and with `claim` CLAIM (R234). -/
def State.runProbe (s : State) (f t : Nat) (v : Invoc) (op : Nat) (d : List Byte) (claim : Bool) : State :=
  match v.slot with
  | none => s.unitDone f t op ruRights 0 0
  | some j =>
    if !s.epOfJob j (mdEp d) then s.unitDone f t op ruRights 0 0
    else if !s.rangeOk f v (mdRecord d) 32 then s.unitDone f t op ruRange 0 0
    else
      match s.findMsg ⟨j, mdEp d, mdComm d⟩ (mdAnySrc d) (mdAnyTag d) (mdRank d) (mdTag d) with
      | none => (s.writeLocal f (mdRecord d) (probeRecord none 0)).unitDone f t op ruOk 0 0
      | some id =>
        let rec0 := probeRecord (s.msgs.look id) (if claim then id % 2 ^ 32 else 0)
        let s := if claim then s.updMsg id fun m => { m with claimed := true } else s
        (s.writeLocal f (mdRecord d) rec0).unitDone f t op ruOk 0 0

/-- DELIVER (R234, R235). -/
def State.runDeliver (s : State) (f t : Nat) (v : Invoc) (op : Nat) (d : List Byte) : State :=
  match v.slot with
  | none => s.unitDone f t op ruRights 0 0
  | some j =>
    match s.msgs.cells.find? fun m => decide (m.1 % 2 ^ 32 = mdClaim d) && m.2.claimed && m.2.recv.isNone && decide (m.2.space.slot = j) with
    | none => s.unitDone f t op ruNone 0 0
    | some m =>
      match s.matchRecv f t v op m.2.space d with
      | (s, .inl c) => s.unitDone f t op c 0 0
      | (s, .inr r) =>
        let i := s.nextId
        (State.pairUp { s.idNext with recvs := s.recvs.put i r } i m.1).settleAll

/-! ## MOVE -/

/-- The fields of a MOVE descriptor. -/
def vdFrom (d : List Byte) : Nat := leAt d 4 1 % 4
def vdTo (d : List Byte) : Nat := leAt d 4 1 / 4
def vdAsid (d : List Byte) : Nat := leAt d 6 2
def vdSrc (d : List Byte) : Nat := leAt d 8 8
def vdDst (d : List Byte) : Nat := leAt d 16 8
def vdLen (d : List Byte) : Nat := leAt d 24 4
def vdPattern (d : List Byte) : List Byte := (d.drop 32).take 8

/-- A MOVE writes host or package memory unless its destination is local (R374). -/
def moveWrites (d : List Byte) : Bool := decide (vdTo d ≠ 0)

/-- A MOVE descriptor's layout. -/
def moveDescOk (d : List Byte) : Bool :=
  decide (vdFrom d < 3 ∧ vdTo d < 3 ∧ 1 ≤ vdLen d ∧ vdLen d ≤ 16777216) && descZero d 5 1 && descZero d 28 4 && descZero d 40 24

/-- Whether an internal range is memory: the wharf, or package memory. -/
def State.internalOk (s : State) (addr n : Nat) : Bool :=
  (s.inWharf addr && s.inWharf (addr + n - 1)) || (inPackage addr && inPackage (addr + n - 1))

/-- The segments of one side of a MOVE, or the result code; none for local memory and for a wharf range named by its internal
address, which the mover reads and writes as any agent does (R395). -/
def State.moveSide (s : State) (f : Nat) (v : Invoc) (space asid addr n : Nat) (wr : Bool) : State × Sum Nat (List (Loc × Nat)) :=
  if space = 0 then (s, if s.rangeOk f v addr n then .inr [] else .inl ruRange)
  else if space = 2 then
    (s, if v.slot.isSome then .inl ruRights
      else if s.internalOk addr n then .inr (if inPackage addr then [(.pkg addr, n)] else []) else .inl ruRange)
  else if v.slot.any (fun j => decide (asid ≠ v.asid) && !(s.job j).asids.contains asid) then (s, .inl ruRights)
  else
    match s.translateRange asid addr n (s.invFunc v asid) (!wr) wr with
    | (s, .inl _) => (s, .inl ruTranslation)
    | (s, .inr segs) => (s, if s.segAccess segs = .ok then .inr segs else .inl ruMemory)

/-- An operation of a thread, running or an orphan. -/
def State.unitOp (s : State) (f t op : Nat) : Option UnitOp :=
  ((s.thread f t).ops ++ (s.thread f t).orphans).find? fun o => decide (o.op = op)

/-- Change an operation. -/
def State.updOp (s : State) (f t op : Nat) (g : UnitOp → UnitOp) : State :=
  let h (o : UnitOp) : UnitOp := if o.op = op then g o else o
  s.updThread f t fun x => { x with ops := x.ops.map h, orphans := x.orphans.map h }

/-- The bytes of a MOVE go to its destination. -/
def State.moveWrite (s : State) (f t op : Nat) (bytes : List Byte) : State :=
  match s.unitOp f t op with
  | none => s
  | some o =>
    if o.segs.isEmpty then (s.writeLocal f o.dst bytes).unitDone f t op ruOk 0 0
    else s.startXfer (.move f t op) true o.segs bytes

/-- A repeated pattern of 8 bytes. -/
def fillBytes (pat : List Byte) (n : Nat) : List Byte := (List.range n).map fun k => (pat[k % 8]?).getD 0

/-- COPY and FILL (R375). -/
def State.runMove (s : State) (f t : Nat) (v : Invoc) (op : Nat) (d : List Byte) (fill : Bool) : State :=
  let asid := if vdAsid d = 0 then v.asid else vdAsid d
  match s.moveSide f v (vdTo d) asid (vdDst d) (vdLen d) true with
  | (s, .inl c) => s.unitDone f t op c 0 0
  | (s, .inr dsts) =>
    let s := s.updOp f t op fun o => { o with dst := vdDst d, segs := dsts }
    if fill then s.moveWrite f t op (fillBytes (vdPattern d) (vdLen d))
    else
      match s.moveSide f v (vdFrom d) asid (vdSrc d) (vdLen d) false with
      | (s, .inl c) => s.unitDone f t op c 0 0
      | (s, .inr src) =>
        if src.isEmpty then
          if s.poisoned (vdSrc d) (vdLen d) then s.unitDone f t op ruMemory 0 0
          else (s.agentMoves (vdSrc d) (vdLen d)).moveWrite f t op (s.readLocal f (vdSrc d) (vdLen d))
        else s.startXfer (.move f t op) false src []

/-- A transfer of a MOVE completed, or failed. -/
def State.moveOver (s : State) (f t op : Nat) (write ok : Bool) (segs : List (Loc × Nat)) (bytes : List Byte) : State :=
  if !ok then s.unitDone f t op ruMemory 0 0
  else if !write then s.moveWrite f t op bytes
  else
    match segFunc segs with
    | some p => s.startFlush (.moveFlush f t op) p
    | none => s.unitDone f t op ruOk 0 0

/-! ## TALLY, LOCK, EVENT, TIMER -/

/-- ADD and READ of a tally (R126, R375). -/
def State.runTallyAdd (s : State) (f t rd : Nat) (v : Invoc) (n x : Nat) : State :=
  if 262144 ≤ n ∨ !s.invTally v n then s.unitRet f t rd ruRights else (s.addTally n x).unitRet f t rd ruOk
def State.runTallyRead (s : State) (f t rd : Nat) (v : Invoc) (n : Nat) : State :=
  if 262144 ≤ n ∨ !s.invTally v n then s.unitRet f t rd ruRights else s.unitRet f t rd (ruWord ruOk 0 (s.tally n))

/-- WAIT for a tally: sleeps until it has reached the threshold (R106, R375). -/
def State.runTallyWait (s : State) (f t rd : Nat) (v : Invoc) (w : Bool) (n x : Nat) : State :=
  if !w then s.engineFault f t tfUnit
  else if 262144 ≤ n ∨ !s.invTally v n then s.unitRet f t rd ruRights
  else if reached (s.tally n) x then s.unitRet f t rd ruOk
  else (s.count f 4).retireInstr f t fun v => { v with sleep := some (.tally rd n x) }

/-- A thread that waits for a tally wakes once it has reached the threshold. -/
def State.tallyWake (s : State) (f t : Nat) : State :=
  match (s.thread f t).inv with
  | none => s
  | some v =>
    match v.sleep with
    | some (.tally rd n x) => if reached (s.tally n) x then s.updInv f t fun v => { v.setReg rd ruOk with sleep := none } else s
    | _ => s

/-- ACQUIRE of a lock: sleeps until the thread holds it (R403, R404). -/
def State.runLockAcquire (s : State) (f t rd : Nat) (v : Invoc) (w : Bool) (n : Nat) : State :=
  if !w then s.engineFault f t tfUnit
  else if 4096 ≤ n then s.unitRet f t rd ruRange
  else if !s.invLock f v n then s.unitRet f t rd ruRights
  else
    let orph := (s.lock n).orphaned
    match s.acquireLock n (identThread f t) with
    | (s, .held) => s.unitRet f t rd (ruOk + orphanBit orph)
    | (s, .queued) => (s.count f 4).retireInstr f t fun v => { v with sleep := some (.lock rd n) }
    | (s, .busy) => s.unitRet f t rd ruBusy

/-- TRY: acquires only a free lock (R403). -/
def State.runLockTry (s : State) (f t rd : Nat) (v : Invoc) (n : Nat) : State :=
  if 4096 ≤ n then s.unitRet f t rd ruRange
  else if !s.invLock f v n then s.unitRet f t rd ruRights
  else if (s.lock n).owner.isSome then s.unitRet f t rd ruBusy
  else (s.grantLock n (identThread f t)).unitRet f t rd ruOk

/-- RELEASE: RIGHTS where the thread does not own the lock (R404). -/
def State.runLockRelease (s : State) (f t rd : Nat) (v : Invoc) (n : Nat) : State :=
  if 4096 ≤ n then s.unitRet f t rd ruRange
  else if !s.invLock f v n || decide ((s.lock n).owner ≠ some (identThread f t)) then s.unitRet f t rd ruRights
  else (s.unitRet f t rd ruOk).releaseLock n false

/-- EVENT WAIT: the next event record, or sleep for it, at most the timeout (R375, R381). -/
def State.runEventWait (s : State) (f t rd : Nat) (w : Bool) (timeout : Nat) : State :=
  if !w then s.engineFault f t tfUnit
  else
    match (s.thread f t).events with
    | e :: r => (s.updThread f t fun x => { x with events := r }).unitRet f t rd (evWord e)
    | [] =>
      let s := (s.count f 4).retireInstr f t fun v => { v with sleep := some (.event rd) }
      if timeout = 0 then s else s.armIn (.eventWait f t) (us timeout)

/-- EVENT POST: an event for a CALLABLE entry of the same job (R375, R383). -/
def State.runEventPost (s : State) (f t rd : Nat) (v : Invoc) (target x : Nat) : State :=
  let g := target % 64
  let entry := bitsOf target 8 8
  let callable := match (s.ferry g).entries.look entry with | some h => h.callable | none => false
  match v.slot with
  | none => s.unitRet f t rd ruRights
  | some j =>
    if !s.ferryOn g || !s.servesJob g j || !callable || decide (entry < 0x80) then s.unitRet f t rd ruRights
    else if !s.dispatchRoom g then (s.count g 3).unitRet f t rd ruBusy
    else
      let e : DEvent := {
        kind := .post, entry := entry, slot := j, asid := s.rd .FX_JOBSEG_ASID g,
        args := [(1, x), (2, selfWord f t v.entry)], payload := [] }
      (s.pushEvent g e).unitRet f t rd ruOk

/-- TIMER ARM: rd = the timer's number (R375, R381); with 4 armed no timer is armed and rd is a free value (log 8). -/
def State.runTimerArm (s : State) (f t rd due tag : Nat) : State :=
  match (List.range 4).find? fun k => ((s.thread f t).timers.look k).isNone with
  | some k =>
    let s := s.updThread f t fun x => { x with timers := x.timers.put k (tag % 65536) }
    (s.arm (.ferryTimer f t k) due).unitRet f t rd k
  | none => (s.unitRet f t rd (s.freeVal 64)).freeNext

/-- TIMER CANCEL: OK when the timer had not fired, else NONE (R381). -/
def State.runTimerCancel (s : State) (f t rd k : Nat) : State :=
  match (s.thread f t).timers.look k with
  | some _ => ((s.updThread f t fun x => { x with timers := x.timers.del k }).disarm (.ferryTimer f t k)).unitRet f t rd ruOk
  | none => s.unitRet f t rd ruNone

/-! ## DOORBELL (R374, R379) -/

/-- Whether an operation of the thread that writes host or package memory is outstanding, those that an earlier invocation left
among them (R374). -/
def State.writesOut (s : State) (f t : Nat) : Bool := ((s.thread f t).ops ++ (s.thread f t).orphans).any (·.writes)

/-- RING: a doorbell of the invocation (R81, R375, R380). -/
def State.runRing (s : State) (f t rd : Nat) (v : Invoc) (q x : Nat) : State :=
  if s.writesOut f t then s
  else if v.fromNet && !s.flag .QU_CFG_LOC q then s.engineFault f t tfOriginate
  else if 65536 ≤ q then s.unitRet f t rd ruRights
  else if !s.invQueue v q then (s.dbForeign q).unitRet f t rd ruRights
  else (s.takeDoorbell q (x % 2 ^ 32)).unitRet f t rd ruOk

/-- An ENQUEUE descriptor's fields and layout (R379). -/
def edQueue (d : List Byte) : Nat := leAt d 4 2
def edCount (d : List Byte) : Nat := leAt d 6 1
def edSrc (d : List Byte) : Nat := leAt d 8 8
def enqDescOk (d : List Byte) : Bool := decide (1 ≤ edCount d ∧ edCount d ≤ 8) && descZero d 7 1 && descZero d 16 48

/-- Write slots into a ring in package memory from an index on. -/
def State.writeSlots (s : State) (q i : Nat) : Nat → List Byte → State
  | 0, _ => s
  | n + 1, bs =>
    let a := s.rd .QU_BASE_BASE q * 4096 + 32 * (i % s.ringSize q)
    State.writeSlots ((s.askSegs true [(.pkg a, 32)]).putBytes a (bs.take 32)) q (idxAdd i 1) n (bs.drop 32)

/-- ENQUEUE (R379). -/
def State.runEnqueue (s : State) (f t : Nat) (v : Invoc) (op : Nat) (d : List Byte) : State :=
  let q := edQueue d
  let n := edCount d
  let pi := s.rd .QU_PI_PI q
  if !s.invQueue v q then s.unitDone f t op ruRights 0 0
  else if !s.flag .QU_CFG_LOC q then s.unitDone f t op ruRights 0 0
  else if !s.rangeOk f v (edSrc d) (32 * n) then s.unitDone f t op ruRange 0 0
  else if s.ringSize q < dist32 (s.rd .QU_HEAD_HEAD q) (idxAdd pi n) then s.unitDone f t op ruBusy 0 0
  else
    let s := (s.agentMoves (edSrc d) (32 * n)).writeSlots q pi n (s.readLocal f (edSrc d) (32 * n))
    (s.takeDoorbell q (idxAdd pi n)).unitDone f t op ruOk 0 pi

end Sys2Proof.Machine
end

