-- ==== Sys2Proof/Machine/Ferries.lean ====
section
/-! DEFINITION. The meanings of the ferries' events (R364, R367, R381 to R384, R391): dispatch, expiries, wake-ups, FX registers. -/

namespace Sys2Proof.Machine

/-- The PRIO of an event's entry. -/
def State.eventPrio (s : State) (f : Nat) (e : DEvent) : Nat :=
  match (s.ferry f).entries.look e.entry with
  | some h => h.prio
  | none => 0

/-- The lowest-numbered IDLE thread that may run an event (R383). -/
def State.threadFor (s : State) (f : Nat) (e : DEvent) : Option Nat :=
  (List.range 16).find? fun t => bitOf (s.entryThreads f e.entry) t && (s.thread f t).inv.isNone

/-- The event to dispatch: the oldest of the highest PRIO among those whose thread set holds an IDLE thread (R383). -/
def State.nextEvent (s : State) (f : Nat) : Option DEvent :=
  let es := (s.ferry f).queue.filter fun e => (s.threadFor f e).isSome
  match es with
  | [] => none
  | e :: r => some (r.foldl (fun a b => if s.eventPrio f a < s.eventPrio f b then b else a) e)

/-- The inbox slot of a thread: 4,096 bytes at INBOX in the job's segment. -/
def State.inboxOf (s : State) (f t : Nat) : Nat :=
  0x03_0000_0000 + (s.rd .FX_JOBSEG_SEG_BASE f + s.rd .FX_JOBSEG_INBOX f) * 65536 + 4096 * t

/-- The budget of an invocation in ticks (R364). -/
def budgetOf (h : HEntry) (k : EvKind) : Nat :=
  match k with
  | .call _ _ _ => us (min h.budget 1000)
  | _ => us h.budget

/-- Dispatch an event on a thread (R367, the dispatch table). -/
def State.dispatchEvent (s : State) (f t : Nat) (e : DEvent) (h : HEntry) : State :=
  let s := s.updFerry f fun x => { x with queue := x.queue.erase e }
  let inbox := s.inboxOf f t
  let s := if e.payload.isEmpty then s else s.writeLocal f inbox e.payload
  let args := match e.kind with | .hmsg _ _ => (1, inbox) :: e.args | .mcast => (1, inbox) :: e.args | _ => e.args
  let v : Invoc := {
    slot := if e.entry < 0x80 then none else some e.slot, entry := e.entry, prio := h.prio, kind := e.kind, asid := e.asid,
    pc := if e.entry < 0x80 then h.pc else 6144 + h.pc }
  let v := args.foldl (fun v a => v.setReg a.1 a.2) v
  let s := (s.updThread f t fun x => { x with inv := some v, events := [], timers := {} }).count f 1
  if h.budget = 0 then s else s.armIn (.budget f t) (budgetOf h e.kind)

/-- HANDLER_DISPATCH: an IDLE thread takes a waiting event (R383). -/
def execHandlerDispatch (f : Nat) (s : State) : Host.Outcome State Fault Refusal :=
  s.whenLive fun s =>
    if !s.ferryOn f || decide (s.fxState f ≠ fxRunning) then s
    else
      match s.nextEvent f with
      | none => s
      | some e =>
        match s.threadFor f e, (s.ferry f).entries.look e.entry with
        | some t, some h => (s.dispatchEvent f t e h).settleAll
        | _, _ => s

/-- BUDGET_EXPIRY: a job invocation's budget expires (R364, R384). -/
def execBudgetExpiry (f t : Nat) (s : State) : Host.Outcome State Fault Refusal :=
  s.whenDue (.budget f t) fun s => (s.threadFault f t tfBudget).settleAll

/-- UNIT_OP_COMPLETE: a thread that sleeps on a tally wakes once it has reached the threshold (R375). The other unit operations
complete with the transfer, the response, the receive or the lock that completes them. -/
def execUnitOpComplete (f t _op _result : Nat) (s : State) : Host.Outcome State Fault Refusal :=
  s.whenUp fun s => s.tallyWake f t

/-- TIMER_FIRE: a thread's timer fires (R375, R381). -/
def execTimerFire (f t k : Nat) (s : State) : Host.Outcome State Fault Refusal :=
  s.whenDue (.ferryTimer f t k) fun s =>
    match (s.thread f t).timers.look k with
    | some tag => (s.updThread f t fun x => { x with timers := x.timers.del k }).postEvent f t (2, 0, tag)
    | none => s

/-- EVENT_WAIT_TIMEOUT: an EVENT WAIT's timeout passes with the queue empty (R381). -/
def execEventWaitTimeout (f t : Nat) (s : State) : Host.Outcome State Fault Refusal :=
  s.whenDue (.eventWait f t) fun s => s.postEvent f t (15, 0, 0)

/-- A write of FX_CFG[f] (R391). -/
def State.writeFxCfg (s : State) (f v : Nat) : State := s.setBounded f v [(.FX_CFG_JOB_THREADS, 1, 65535)]

/-- FX_CFG_WRITE: a write of FX_CFG[f] (R391). -/
def execFxCfgWrite (f v : Nat) (s : State) : Host.Outcome State Fault Refusal :=
  s.whenUp fun s => if s.ferryOn f then s.writeFxCfg f v else s

/-- FX_FAULT_READ: a read of FX_FAULT[f][t], which clears COUNT (R9, R384). -/
def execFxFaultRead (f t : Nat) (s : State) : Host.Outcome State Fault Refusal :=
  s.whenUp fun s => if f < 64 ∧ t < 16 then s.readOut .FX_FAULT (16 * f + t) else s

end Sys2Proof.Machine
end

