-- ==== Sys2Proof/Machine/Units.lean ====
section
/-! DEFINITION. The meanings of the UNIT instructions (R375 to R381). -/

namespace Sys2Proof.Machine

/-- SEND REQUEST (R377). -/
def execSendRequest (f t rd rs ra : Nat) (w : Bool) (s : State) : Host.Outcome State Fault Refusal :=
  s.whenUp fun s => s.issueUnit f t rd rs ra 0 0 w fun s v =>
    s.descOp f t rd rs 0 0 w writesNone (sendDescOk 0) v.noOriginate (fun s d => s.requestWaits f v d) v (fun s op d => s.runRequest f t v op d)

/-- SEND REPLY (R378). -/
def execSendReply (f t rd rs ra : Nat) (w : Bool) (s : State) : Host.Outcome State Fault Refusal :=
  s.whenUp fun s => s.issueUnit f t rd rs ra 0 1 w fun s v =>
    s.descOp f t rd rs 0 1 w writesNone (sendDescOk 1) (replyStop v) noWait v (fun s op d => s.runReply f t v op d)

/-- SEND MCAST (R377). -/
def execSendMcast (f t rd rs ra : Nat) (w : Bool) (s : State) : Host.Outcome State Fault Refusal :=
  s.whenUp fun s => s.issueUnit f t rd rs ra 0 2 w fun s v =>
    s.descOp f t rd rs 0 2 w writesNone (sendDescOk 2) v.noOriginate noWait v (fun s op d => s.runMcast f t v op d)

/-- MATCH POST (R234). -/
def execMatchPost (f t rd rs ra : Nat) (w : Bool) (s : State) : Host.Outcome State Fault Refusal :=
  s.whenUp fun s => s.issueUnit f t rd rs ra 1 0 w fun s v =>
    s.descOp f t rd rs 1 0 w writesMem matchDescOk v.noOriginate (fun s d => s.postWaits v d) v (fun s op d => s.runPost f t v op d)

/-- MATCH PROBE (R234). -/
def execMatchProbe (f t rd rs ra : Nat) (w : Bool) (s : State) : Host.Outcome State Fault Refusal :=
  s.whenUp fun s => s.issueUnit f t rd rs ra 1 1 w fun s v =>
    s.descOp f t rd rs 1 1 w writesNone matchDescOk noStop noWait v (fun s op d => s.runProbe f t v op d false)

/-- MATCH CLAIM (R234). -/
def execMatchClaim (f t rd rs ra : Nat) (w : Bool) (s : State) : Host.Outcome State Fault Refusal :=
  s.whenUp fun s => s.issueUnit f t rd rs ra 1 2 w fun s v =>
    s.descOp f t rd rs 1 2 w writesNone matchDescOk noStop noWait v (fun s op d => s.runProbe f t v op d true)

/-- MATCH DELIVER (R234, R235). -/
def execMatchDeliver (f t rd rs ra : Nat) (w : Bool) (s : State) : Host.Outcome State Fault Refusal :=
  s.whenUp fun s => s.issueUnit f t rd rs ra 1 3 w fun s v =>
    s.descOp f t rd rs 1 3 w writesMem matchDescOk v.noOriginate noWait v (fun s op d => s.runDeliver f t v op d)

/-- MOVE COPY (R375). -/
def execMoveCopy (f t rd rs ra : Nat) (w : Bool) (s : State) : Host.Outcome State Fault Refusal :=
  s.whenUp fun s => s.issueUnit f t rd rs ra 2 0 w fun s v =>
    s.descOp f t rd rs 2 0 w moveWrites moveDescOk noStop noWait v (fun s op d => s.runMove f t v op d false)

/-- MOVE FILL (R375). -/
def execMoveFill (f t rd rs ra : Nat) (w : Bool) (s : State) : Host.Outcome State Fault Refusal :=
  s.whenUp fun s => s.issueUnit f t rd rs ra 2 1 w fun s v =>
    s.descOp f t rd rs 2 1 w moveWrites moveDescOk noStop noWait v (fun s op d => s.runMove f t v op d true)

/-- TALLY ADD (R126). -/
def execTallyUnitAdd (f t rd rs ra : Nat) (w : Bool) (s : State) : Host.Outcome State Fault Refusal :=
  s.whenUp fun s => s.issueUnit f t rd rs ra 3 0 w fun s v => s.runTallyAdd f t rd v (v.reg rs) (v.reg ra)

/-- TALLY READ. -/
def execTallyRead (f t rd rs ra : Nat) (w : Bool) (s : State) : Host.Outcome State Fault Refusal :=
  s.whenUp fun s => s.issueUnit f t rd rs ra 3 1 w fun s v => s.runTallyRead f t rd v (v.reg rs)

/-- TALLY WAIT (R106). -/
def execTallyWait (f t rd rs ra : Nat) (w : Bool) (s : State) : Host.Outcome State Fault Refusal :=
  s.whenUp fun s => s.issueUnit f t rd rs ra 3 2 w fun s v => s.runTallyWait f t rd v w (v.reg rs) (v.reg ra)

/-- LOCK ACQUIRE (R403). -/
def execLockAcquire (f t rd rs ra : Nat) (w : Bool) (s : State) : Host.Outcome State Fault Refusal :=
  s.whenUp fun s => s.issueUnit f t rd rs ra 4 0 w fun s v => s.runLockAcquire f t rd v w (v.reg rs)

/-- LOCK TRY (R403). -/
def execLockTry (f t rd rs ra : Nat) (w : Bool) (s : State) : Host.Outcome State Fault Refusal :=
  s.whenUp fun s => s.issueUnit f t rd rs ra 4 1 w fun s v => s.runLockTry f t rd v (v.reg rs)

/-- LOCK RELEASE (R404). -/
def execLockRelease (f t rd rs ra : Nat) (w : Bool) (s : State) : Host.Outcome State Fault Refusal :=
  s.whenUp fun s => s.issueUnit f t rd rs ra 4 2 w fun s v => s.runLockRelease f t rd v (v.reg rs)

/-- EVENT WAIT (R375). -/
def execEventWait (f t rd rs ra : Nat) (w : Bool) (s : State) : Host.Outcome State Fault Refusal :=
  s.whenUp fun s => s.issueUnit f t rd rs ra 5 0 w fun s v => s.runEventWait f t rd w (v.reg ra)

/-- EVENT POST (R375). -/
def execEventPost (f t rd rs ra : Nat) (w : Bool) (s : State) : Host.Outcome State Fault Refusal :=
  s.whenUp fun s => s.issueUnit f t rd rs ra 5 1 w fun s v => s.runEventPost f t rd v (v.reg rs) (v.reg ra)

/-- TIMER ARM (R375). -/
def execTimerArm (f t rd rs ra : Nat) (w : Bool) (s : State) : Host.Outcome State Fault Refusal :=
  s.whenUp fun s => s.issueUnit f t rd rs ra 6 0 w fun s v => s.runTimerArm f t rd (v.reg rs) (v.reg ra)

/-- TIMER CANCEL (R381). -/
def execTimerCancel (f t rd rs ra : Nat) (w : Bool) (s : State) : Host.Outcome State Fault Refusal :=
  s.whenUp fun s => s.issueUnit f t rd rs ra 6 1 w fun s v => s.runTimerCancel f t rd (v.reg rs)

/-- DOORBELL RING (R375). -/
def execDoorbellRing (f t rd rs ra : Nat) (w : Bool) (s : State) : Host.Outcome State Fault Refusal :=
  s.whenUp fun s => s.issueUnit f t rd rs ra 7 0 w fun s v => s.runRing f t rd v (v.reg rs) (v.reg ra)

/-- ENQUEUE (R379). -/
def execEnqueue (f t rd rs ra : Nat) (w : Bool) (s : State) : Host.Outcome State Fault Refusal :=
  s.whenUp fun s => s.issueUnit f t rd rs ra 7 1 w fun s v =>
    s.descOp f t rd rs 7 1 w writesMem enqDescOk noStop (fun s _ => s.writesOut f t) v (fun s op d => s.runEnqueue f t v op d)

end Sys2Proof.Machine
end

