-- ==== Sys2Proof/Machine/CommandOps.lean ====
section
/-! DEFINITION. Starting the user commands of a queue (R109 to R141): the checks of R112, loops and strides, and what each command
does when it starts. -/

namespace Sys2Proof.Machine

/-! ## What a command names -/

/-- The target endpoint of a command, if it has one. -/
def cmdDest : Cmd → Option Nat
  | .put c => some c.dest
  | .puti c => some c.dest
  | .get c => some c.dest
  | .atomic c => some c.dest
  | .send c => some c.dest
  | _ => none

/-- The tally fields of a command, its completion tally among them; RTALLY names a tally of the target. -/
def cmdTallies (c : Cmd) : List TallyField :=
  cmdTally c ::
    match c with
    | .cancel c => [c.tNone, c.tPart, c.tLate]
    | .tallyAdd c => [c.tally]
    | .wait c => if c.kind = .tally then [c.totally, c.object + 2 ^ 23] else [c.totally]
    | .skipIf c => [c.tally]
    | _ => []

/-- Whether the opcode of a command is one that the control queue accepts, and one for a queue without a job (R114). -/
def cmdCtl : Cmd → Bool
  | .nop _ => true
  | .endCmd _ => true
  | .fence _ => true
  | .tallyAdd _ => true
  | .wait c => decide (c.kind ≠ .head)
  | .priv _ _ => true
  | _ => false
def cmdJobless : Cmd → Bool
  | .nop _ => true
  | .endCmd _ => true
  | .fence _ => true
  | .wait c => decide (c.kind = .time)
  | _ => false

def cCtlOpcode : Nat := 0x2D
def cJobless : Nat := 0x2E
def cLoopBody : Nat := 0x2C
def cCancelIndex : Nat := 0x1D
def cCancelType : Nat := 0x1E
def cWhistleLine : Nat := 0x24
def cWhistleLate : Nat := 0x25

/-- Whether a queue may name a tally field (R110): any tally for the control queue, else the job's range. -/
def State.tallyFieldIn (s : State) (q : Nat) (t : TallyField) : Bool :=
  !tfEn t || decide (q = 0) || (!(s.q q).noJob && (s.job (s.rd .QU_CFG_JOB_SLOT q)).hasTally (tfNum t))

/-- Whether a command's addresses are aligned (R120); a COLLECTIVE's as far as this member uses them. -/
def State.cmdAligned (s : State) (c : Cmd) : Bool :=
  match c with
  | .atomic c =>
    let n := if c.size64 then 8 else 4
    decide (c.roff % n = 0) && (!c.fetch || decide (c.result % n = 0))
  | .postrecv c => decide (c.status % 32 = 0)
  | .collective c =>
    match s.colls.look c.ctx with
    | some x =>
      let n := dtSize c.dtype
      (!x.usesSrc c || decide (c.src % n = 0)) && (!x.usesDst c || decide (c.dst % n = 0))
    | none => true
  | _ => true

/-- Checks 2, 3, 4 and 6 of R112 on a decoded command: 0 where they pass; `body` is the verdict of check 5. -/
def State.entryCause (s : State) (q : Nat) (c : Cmd) (body : Bool) : Nat :=
  let priv := match c with | .priv _ _ => true | _ => false
  if priv && decide (q ≠ 0) then cPrivOpcode
  else if q = 0 ∧ !cmdCtl c then cCtlOpcode
  else if q ≠ 0 ∧ (s.q q).noJob ∧ !cmdJobless c then cJobless
  else if !c.ok then cMalformed
  else if !body then cLoopBody
  else if !(cmdTallies c).all (s.tallyFieldIn q) then cTallyRange
  else 0

/-! ## Loops (R132 to R134) -/

/-- A 48-bit address moved by a stride; none where it leaves the range. -/
def moved (a : Nat) (d : Int) : Option Nat :=
  let x := (a : Int) + d
  if 0 ≤ x ∧ x < ((2 ^ 48 : Nat) : Int) then some x.toNat else none

/-- A command of a loop body in iteration `k` (the table of R132). `uses` says which of SRC and DST a COLLECTIVE uses at this member: a field that
it ignores (R131) is no address. -/
def strided (l : LoopCmd) (k : Nat) (uses : CollCmd → Bool × Bool) (c : Cmd) : Option Cmd :=
  let dl : Int := (k : Int) * l.strideL
  let dr : Int := (k : Int) * l.strideR
  match c with
  | .put c => match moved c.laddr dl, moved c.roff dr with | some a, some r => some (.put { c with laddr := a, roff := r }) | _, _ => none
  | .get c => match moved c.laddr dl, moved c.roff dr with | some a, some r => some (.get { c with laddr := a, roff := r }) | _, _ => none
  | .puti c => (moved c.roff dr).map fun r => .puti { c with roff := r }
  | .atomic c =>
    match (if c.fetch then moved c.result dl else some c.result), moved c.roff dr with
    | some a, some r => some (.atomic { c with result := a, roff := r })
    | _, _ => none
  | .send c => (moved c.src dl).map fun a => .send { c with src := a }
  | .postrecv c =>
    match moved c.buf dl, (if c.status = 0 then some 0 else moved c.status dl) with
    | some a, some t => some (.postrecv { c with buf := a, status := t })
    | _, _ => none
  | .collective c =>
    match (if (uses c).1 then moved c.src dl else some c.src), (if (uses c).2 then moved c.dst dl else some c.dst) with
    | some a, some b => some (.collective { c with src := a, dst := b })
    | _, _ => none
  | c => some c

/-- The entries of a loop body as (index, slots), read from the fetched slots; none while a slot is not fetched. `fuel` bounds
the slots. -/
def QSt.bodyOf (x : QSt) : Nat → Nat → Nat → Option (List (Nat × Nat))
  | 0, _, _ => some []
  | fuel + 1, i, n =>
    if n = 0 then some []
    else
      match x.fetched.look i with
      | none => none
      | some bs =>
        let k := (opcodeSlots (leAt bs 0 1) (leAt bs 1 1)).getD 1
        match QSt.bodyOf x fuel (idxAdd i k) (n - k) with
        | some r => some ((i, k) :: r)
        | none => none

/-- Whether one body entry is allowed (R134): `stop` is the index after the body. -/
def QSt.bodyEntryOk (x : QSt) (stop : Nat) (e : Nat × Nat) : Bool :=
  match x.fetched.look e.1 with
  | none => false
  | some bs =>
    let op := leAt bs 0 1
    decide (op ≠ 0x1C ∧ op ≠ 0x01 ∧ op ≠ 0x03) && !opcodePriv op && idxLe (idxAdd e.1 e.2) stop
      && (decide (op ≠ 0x1D) || idxLe (idxAdd e.1 (1 + leAt bs 9 1)) stop)

/-! ## Notes of a start -/

/-- The entry at the cursor starts: LAST_STARTED, CI, the cursor, its loop. -/
def State.markStart (s : State) (q i slots : Nat) : State :=
  (s.noteStart q i slots).updQ q fun x => { x with held := none }.loopSync

/-- The entry at the cursor starts as an execution. -/
def State.beginExec (s : State) (q i iter slots : Nat) (c : Cmd) : State :=
  (s.markStart q i slots).updQ q fun x => { x with started := x.started ++ [⟨i, iter, slots, c, cmdDest c, false⟩] }

/-- The entry at the cursor starts and fails (R95, R112). -/
def State.startFail (s : State) (q i iter slots : Nat) (d : Option Nat) (cause : Nat) : State :=
  (s.markStart q i slots).failQueue q ⟨i, iter, slots, true, d⟩ cause

/-- Whether a FENCE or END that has started holds a command (R125, R138). -/
def QSt.fenced (x : QSt) (c : Cmd) : Bool :=
  x.started.any fun e =>
    match e.cmd with
    | .fence f => if f.scopeEp then decide (cmdDest c = some f.dest) else true
    | .endCmd _ => true
    | _ => false

/-! ## One-sided commands and SEND (R115 to R121, R206 to R208) -/

/-- Start an operation toward a target: it needs a manifest entry, landing units and a context; `pre` translates what the start
translates. -/
def State.startOp (s : State) (q dest land : Nat) (note : State → State) (pre : State → State × Option Nat)
    (mk : Nat → Nat → MEntry) : State × StartRes :=
  let slot := s.rd .QU_CFG_JOB_SLOT q
  if !s.canTake slot || decide (s.landFree < land) then (s, .held .entry)
  else
    match s.openFor slot (s.endpoint (s.q q).ep) dest false with
    | (s, none) => (s, .held .order)
    | (s, some c) =>
      match pre s with
      | (s, some k) => (s, .fail k)
      | (s, none) =>
        let m := freeMtag (s.manifest.keys ++ s.stale.map (·.2))
        match (note s).takeEntry (mk c m) with
        | (s, m) => (s.pumpEntry m, .run)

/-- Translate a local range of a queue's command: the cause of a fault. -/
def State.preRange (q addr n : Nat) (wr : Bool) (s : State) : State × Option Nat :=
  match s.translateRange (s.rd .QU_CFG_ASID q) addr n (s.qFunc q) (!wr) wr with
  | (s, .inl k) => (s, some k)
  | (s, .inr _) => (s, none)

/-- Nothing to translate. -/
def State.preNone (s : State) : State × Option Nat := (s, none)

/-- The manifest entry that an operation of a queue starts from. -/
def State.opEntry (s : State) (q i iter c : Nat) (blk : OpBlock) (total laddr : Nat) : MEntry :=
  { queue := q, index := i, iter := iter, slot := s.rd .QU_CFG_JOB_SLOT q, ctx := c, blk := blk, total := total, laddr := laddr,
    asid := s.rd .QU_CFG_ASID q, func := s.qFunc q }

/-- PUT (R115). -/
def State.startPut (s : State) (q i iter : Nat) (c : XferCmd) (note : State → State) : State × StartRes :=
  let b : OpBlock := .oneSided 0x08 c.rlx false false false 0 c.rtally c.key c.length c.roff 0
  s.startOp q c.dest 0 note State.preNone fun x _ => { s.opEntry q i iter x b c.length c.laddr with ord := c.ord, rlx := c.rlx }

/-- PUTI (R117). -/
def State.startPuti (s : State) (q i iter : Nat) (c : PutiCmd) (note : State → State) : State × StartRes :=
  let b : OpBlock := .oneSided 0x09 c.rlx false false false 0 0 c.key c.data.length c.roff 0
  s.startOp q c.dest 0 note State.preNone fun x _ =>
    { s.opEntry q i iter x b c.data.length 0 with ord := c.ord, rlx := c.rlx, data := c.data }

/-- GET (R116): the landing space is reserved and translated before the request leaves (R24, R208). -/
def State.startGet (s : State) (q i iter : Nat) (c : XferCmd) (note : State → State) : State × StartRes :=
  let b : OpBlock := .oneSided 0x0A c.rlx false false false 0 c.rtally c.key c.length c.roff 0
  s.startOp q c.dest (landUnits c.length) note (State.preRange q c.laddr (min c.length 65536) true) fun x _ =>
    { s.opEntry q i iter x b c.length c.laddr with ord := c.ord, rlx := c.rlx, land := landUnits c.length }

/-- ATOMIC (R119). -/
def State.startAtomic (s : State) (q i iter : Nat) (c : AtomicCmd) (note : State → State) : State × StartRes :=
  let n := if c.size64 then 8 else 4
  let b : OpBlock := .oneSided 0x0B c.rlx c.fetch c.size64 c.signed c.aop 0 c.key n c.roff c.operand
  let land := if c.fetch then landUnits n else 0
  s.startOp q c.dest land note (if c.fetch then State.preRange q c.result n true else State.preNone) fun x _ =>
    { s.opEntry q i iter x b n c.result with
      ord := c.ord, rlx := c.rlx, land := land, data := if c.aop = 2 then leBytes 8 c.compare else [] }

/-- SEND (R121, R225, R226): eager where it fits and RDV is clear, else a rendezvous header whose HANDLE holds the manifest entry
and the drawn value. -/
def State.startSend (s : State) (q i iter : Nat) (c : SendCmd) (draw : Nat) (note : State → State) : State × StartRes :=
  let rdv := c.rdv || decide (s.rd .CT_CFG_EAGER_KIB * 1024 < c.length)
  s.startOp q c.dest 0 note (if rdv then State.preRange q c.src c.length false else State.preNone) fun x m =>
    let b : OpBlock := .send c.sync rdv c.comm c.rank c.length c.tag (if rdv then m + 2 ^ 17 * (draw % 2 ^ 47) else 0)
    { s.opEntry q i iter x b c.length c.src with rlx := c.rlx, rdv := rdv }

/-! ## POSTRECV, WHISTLE, CALL -/

/-- POSTRECV (R122, R218). -/
def State.startPostrecv (s : State) (q i iter : Nat) (c : RecvCmd) (note : State → State) : State × StartRes :=
  let slot := s.rd .QU_CFG_JOB_SLOT q
  let p : Space := ⟨slot, (s.q q).ep, c.comm⟩
  match s.catcherOf p with
  | none => (s, .held .order)
  | some k =>
    if !s.canMatch slot then (s, .held .slots)
    else
      match State.preRange q c.buf c.length true s with
      | (s, some e) => (s, .fail e)
      | (s, none) =>
        match (if c.status = 0 then (s, none) else State.preRange q c.status 32 true s) with
        | (s, some e) => (s, .fail e)
        | (s, none) =>
          let r : Recv := {
            space := p, anySrc := c.anySrc, anyTag := c.anyTag, srcRank := c.srcRank, tag := c.tag, rlx := c.rlx, func := s.qFunc q,
            asid := s.rd .QU_CFG_ASID q, buf := c.buf, length := c.length, status := c.status, owner := .exec q i iter }
          ((note s).postRecv k r, .run)

/-- WHISTLE (R129, R358): the schedule goes to the key leader, or from it down the key tree. A line of this device that is full
discards the schedule and fails the command before it is distributed (R359). -/
def State.startWhistle (s : State) (q : Nat) (c : WhistleCmd) (note : State → State) : State × StartRes :=
  let j := s.rd .QU_CFG_JOB_SLOT q
  let b := s.job j
  if !bitOf b.whistleMask c.line then (s, .fail cWhistleLine)
  else if c.time < s.now + us 10 then (s, .fail cWhistleLate)
  else if s.lineFull c.line ⟨c.time, some (s.rd .GLB_JOB_JOB_ID j)⟩ then
    ((s.schedule c.line ⟨c.time, some (s.rd .GLB_JOB_JOB_ID j)⟩).1, .fail cWhistleLine)
  else
    let id := s.rd .GLB_JOB_JOB_ID j
    let w : Schedule := ⟨c.line, true, id, c.time, s.nodeId⟩
    let s := note s
    let s :=
      if b.pos = b.leaderPos then ((s.sendWhistle w (b.kids.map b.nodeAt)).schedule c.line ⟨c.time, some id⟩).1
      else s.sendWhistle w [b.nodeAt b.leaderPos]
    (s, if c.atFire then .run else .done)

/-- CALL (R137): the event of a callable job entry at the bound ferry. -/
def State.startCall (s : State) (q i iter : Nat) (c : CallCmd) (note : State → State) : State × StartRes :=
  let f := s.rd .QU_CFG_FERRY q
  let slot := s.rd .QU_CFG_JOB_SLOT q
  let ok := match (s.ferry f).entries.look c.handler with | some h => h.callable && decide (0x80 ≤ c.handler) | none => false
  if !s.servesJob f slot || !ok then (s, .fail cCallNone)
  else if !s.dispatchRoom f then (s, .held .order)
  else
    let e : DEvent := {
      kind := .call q i iter, entry := c.handler, slot := slot, asid := s.rd .QU_CFG_ASID q,
      args := [(1, c.arg1), (2, c.arg2), (3, c.arg3), (4, q), (5, i)], payload := [] }
    ((note s).pushEvent f e, .run)

/-! ## Waits (R94, R106, R127, R128) -/

/-- Whether a wait's condition holds. -/
def State.waitMet (s : State) (c : WaitCmd) : Bool :=
  match c.kind with
  | .tally => reached (s.tally (c.object % 2 ^ 18)) c.value
  | .head => idxLe c.value (s.rd .QU_HEAD_HEAD (c.object % 65536))
  | .time => decide (c.value ≤ s.now)

/-- Whether WAIT-HEAD names another bound queue of the same job (R107, R128). -/
def State.waitQueueOk (s : State) (q n : Nat) : Bool :=
  decide (n ≠ q) && decide (s.qState n ≠ qDisabled) && s.qOfJob (s.rd .QU_CFG_JOB_SLOT q) n

/-- A wait starts: done where its condition holds, else the queue enters WAIT and its timeout runs. -/
def State.startWait (s : State) (q i iter : Nat) (c : WaitCmd) (note : State → State) : State × StartRes :=
  if c.kind = .head ∧ !s.waitQueueOk q (c.object % 65536) then (s, .fail cQueueForeign)
  else if s.waitMet c then (note s, .done)
  else
    let s := (s.wr .QU_STATE_STATE q qWait).updQ q fun x => { x with wait := some ⟨i, iter, c, s.now⟩, held := none }
    (if c.timeout = 0 then s else s.armIn (.wait q) (us c.timeout), .run)

/-! ## SKIP-IF, LOOP, CANCEL -/

/-- The conditions of SKIP-IF (R136). -/
def skipCond (cond c v : Nat) : Bool :=
  match cond with
  | 0 => reached c v
  | 1 => !reached c v
  | 2 => decide (c = v)
  | _ => decide (c ≠ v)

/-- Complete the slots that a SKIP-IF skips, from index `i` on (R136): in a loop body the executions of this iteration. -/
def QSt.skipSlots (x : QSt) (i n iter : Nat) : QSt :=
  match x.activeLoop with
  | some l =>
    (l.body.filter fun b => decide (dist32 i b.1 < n)).foldl (fun x b => x.markDone b.1 iter b.2) x
  | none =>
    let ks := (List.range n).map fun k => idxAdd i k
    { x with done := x.done ++ ks.map (fun k => (k, 1)), skipped := x.skipped ++ ks }

/-- Whether an index lies in the body of the loop that a queue runs. -/
def QSt.inBody (x : QSt) (i : Nat) : Bool := match x.activeLoop with | some l => l.body.any fun b => decide (b.1 = i) | none => false

/-- A SKIP-IF at index `i` that started skips (R136): what it skips completes, and the cursor and CI go past it; in a loop body (`body`),
unless the loop has gone on to its next iteration. -/
def State.skipAhead (s : State) (q i iter skip : Nat) (body : Bool) : State :=
  let after := idxAdd i (1 + skip)
  let s := s.updQ q fun x =>
    if body && decide (x.cursor ≠ idxAdd i 1) then x
    else { x.skipSlots (idxAdd i 1) skip iter with cursor := after }.loopSync
  if idxBefore (s.rd .QU_CI_CI q) after then s.wr .QU_CI_CI q after else s

/-- SKIP-IF (R136). -/
def State.startSkip (s : State) (q i iter : Nat) (c : SkipCmd) (note : State → State) : State × StartRes :=
  if s.slotsAhead q < 1 + c.skip then (s, .held .slots)
  else if !skipCond c.cond (s.tally (tfNum c.tally)) c.value then (note s, .done)
  else ((note s).skipAhead q i iter c.skip ((s.q q).inBody i), .done)

/-- Whether a LOOP's body is whole and valid now: none while PI or the fetch does not cover it (R132, R134). -/
def State.loopBody (s : State) (q i : Nat) (c : LoopCmd) : Option (List (Nat × Nat) × Bool) :=
  if s.slotsAhead q < 1 + c.body then none
  else
    let x := s.q q
    let first := idxAdd i 1
    (x.bodyOf (c.body + 1) first c.body).map fun b => (b, b.all (x.bodyEntryOk (idxAdd first c.body)))

/-- LOOP (R132): its body entries start from the next index on. -/
def State.startLoop (s : State) (q i : Nat) (c : LoopCmd) (body : List (Nat × Nat)) : State :=
  (s.markStart q i 1).updQ q fun x => { x with loops := x.loops ++ [⟨i, c, body, 0, 0, true⟩] }

/-- Whether an index names the second slot of an entry that has started; the head may have passed it. -/
def QSt.secondSlot (x : QSt) (n : Nat) : Bool :=
  x.seconds.contains n ||
  x.started.any (fun e => decide (e.slots = 2 ∧ idxAdd e.index 1 = n)) || x.done.any fun d => decide (d.2 = 2 ∧ idxAdd d.1 1 = n)

/-- Whether a command can be cancelled (R139). -/
def cancellable : Cmd → Bool
  | .put _ => true
  | .puti _ => true
  | .get _ => true
  | .atomic _ => true
  | .send _ => true
  | .postrecv _ => true
  | _ => false

/-- CANCEL (R139): refused for a wrong index or type; too late at once where the named entry has completed. -/
def State.startCancel (s : State) (q i : Nat) (c : CancelCmd) (note : State → State) : State × StartRes :=
  let x := s.q q
  let late := idxBefore c.index (s.rd .QU_HEAD_HEAD q) || x.done.any fun d => decide (d.1 = c.index)
  let es := x.started.filter fun e => decide (e.index = c.index)
  if !idxBefore c.index i || x.secondSlot c.index then (s, .fail cCancelIndex)
  else if !late && (es.any (fun e => !cancellable e.cmd) || x.loops.any (fun l => decide (l.index = c.index))) then (s, .fail cCancelType)
  else
    let o := if late || es.isEmpty then some CancelOutcome.late else none
    ((note s).updQ q fun x => { x with cancels := x.cancels ++ [⟨i, c.index, o, false⟩] }, .run)

/-- TALLY-ADD (R126). -/
def State.startTallyAdd (s : State) (c : TallyAddCmd) (note : State → State) : State × StartRes :=
  if c.after then (note s, .run) else ((note s).addTally (tfNum c.tally) c.value, .done)

/-! ## The start of an entry -/

/-- LOOP at its start: it waits until its body entries stand in the ring. -/
def State.runLoop (s : State) (q i : Nat) (c : LoopCmd) : State × StartRes :=
  match s.loopBody q i c with
  | some b => (s.startLoop q i c b.1, .run)
  | none => (s, .held .slots)

/-- What a user command does when it starts. -/
def State.runCmd (s : State) (q i iter : Nat) (c : Cmd) (draw : Nat) (note : State → State) : State × StartRes :=
  match c with
  | .nop _ => (note s, .done)
  | .endCmd _ => (note s, .run)
  | .fence _ => (note s, .run)
  | .cancel c => s.startCancel q i c note
  | .put c => s.startPut q i iter c note
  | .puti c => s.startPuti q i iter c note
  | .get c => s.startGet q i iter c note
  | .atomic c => s.startAtomic q i iter c note
  | .send c => s.startSend q i iter c draw note
  | .postrecv c => s.startPostrecv q i iter c note
  | .tallyAdd c => s.startTallyAdd c note
  | .wait c => s.startWait q i iter c note
  | .whistle c => s.startWhistle q c note
  | .collective c => s.collStart q i iter c note
  | .loop c => s.runLoop q i c
  | .skipIf c => s.startSkip q i iter c note
  | .call c => s.startCall q i iter c note
  | .priv _ _ => (s, .held .order)

/-- A queue holds its next command (R22, R79, R85). -/
def State.holdQueue (s : State) (q : Nat) (w : HoldWhy) : State := s.updQ q fun x => { x with held := some w }

/-- The verdict of check 5 of R112 on a command at a queue's cursor: a LOOP's body, where it is whole, is valid. -/
def State.bodyOk (s : State) (q : Nat) (c : Cmd) : Bool :=
  match c with
  | .loop l => (match s.loopBody q (s.q q).cursor l with | some b => b.2 | none => true)
  | _ => true

/-- Whether a LOOP that passes checks 1 to 4 of R112 holds, because PI or the fetch does not cover its body yet (R132). -/
def State.bodyWaits (s : State) (q : Nat) (c : Cmd) : Bool :=
  match c with
  | .loop l => (s.loopBody q (s.q q).cursor l).isNone && decide (s.entryCause q c false = cLoopBody)
  | _ => false

/-- A command as it runs at a queue's cursor: in a loop body, with the strides of the iteration (R132). -/
def State.iterated (s : State) (q : Nat) (c : Cmd) : Option Cmd :=
  let x := s.q q
  let uses (c : CollCmd) : Bool × Bool :=
    match s.colls.look c.ctx with
    | some y => (y.usesSrc c, y.usesDst c)
    | none => (decide (c.kind ≠ kBarrier), decide (c.kind ≠ kBarrier))
  match x.activeLoop with
  | some l => if l.body.any (fun b => decide (b.1 = x.cursor)) then strided l.cmd (x.iterAt x.cursor) uses c else some c
  | none => some c

/-- Start a decoded user command at the cursor of a queue. -/
def State.startAt (s : State) (q slots : Nat) (c : Cmd) (draw : Nat) : State :=
  let i := (s.q q).cursor
  let iter := (s.q q).iterAt i
  let cause := s.entryCause q c (s.bodyOk q c)
  if (s.q q).fenced c then s.holdQueue q .order
  else if s.bodyWaits q c then s.holdQueue q .slots
  else if cause ≠ 0 then s.startFail q i iter slots (cmdDest c) cause
  else
    match s.iterated q c with
    | none => s.startFail q i iter slots (cmdDest c) causeTranslation
    | some c =>
      if !s.cmdAligned c then s.startFail q i iter slots (cmdDest c) cAlign
      else
        match s.runCmd q i iter c draw (fun s => s.beginExec q i iter slots c) with
        | (s, .held w) => s.holdQueue q w
        | (s, .fail k) => s.startFail q i iter slots (cmdDest c) k
        | (s, .run) => (s.settle q).settleAll
        | (s, .done) => (s.completeExec q i iter).settleAll

/-- Start a user command that a row names at the cursor of a queue that may start it (R79, R85, R92) and whose turn it is (R103). -/
def State.startUser (s : State) (q slots : Nat) (c : Cmd) (draw : Nat) : State :=
  let s' := s.passDoneEntries q
  if s'.canStart q slots && s'.turnOf q then s'.startAt q slots c draw else s

end Sys2Proof.Machine
end

