-- ==== Sys2Proof/Machine/Commands.lean ====
section
/-! DEFINITION. The meanings of the user commands (R115 to R141): each starts as the entry at the cursor of a queue. -/

namespace Sys2Proof.Machine

/-- NOP completes at once (R138). -/
def execNop (q : Nat) (ltally : TallyField) (s : State) : Host.Outcome State Fault Refusal :=
  s.whenLive fun s => s.startUser q 1 (.nop ltally) 0

/-- END completes after every earlier entry; the queue is then HALTED (R138). -/
def execEndCmd (q : Nat) (ltally : TallyField) (s : State) : Host.Outcome State Fault Refusal :=
  s.whenLive fun s => s.startUser q 1 (.endCmd ltally) 0

/-- FENCE completes after the earlier entries, or those of DEST (R125). -/
def execFence (q : Nat) (c : FenceCmd) (s : State) : Host.Outcome State Fault Refusal :=
  s.whenLive fun s => s.startUser q 1 (.fence c) 0

/-- CANCEL (R139 to R141). -/
def execCancel (q : Nat) (c : CancelCmd) (s : State) : Host.Outcome State Fault Refusal :=
  s.whenLive fun s => s.startUser q 1 (.cancel c) 0

/-- The manifest entry of an execution. -/
def State.entryOf (s : State) (q : Nat) (e : Exec) : Option Nat :=
  (s.manifest.cells.find? fun m => decide (m.2.owner = .exec ∧ m.2.queue = q ∧ m.2.index = e.index ∧ m.2.iter = e.iter)).map (·.1)

/-- The receive of an execution. -/
def State.recvOf (s : State) (q : Nat) (e : Exec) : Option (Nat × Recv) :=
  s.recvs.cells.find? fun r => decide (r.2.owner = .exec q e.index e.iter)

/-- A CANCEL reaches one execution (R140): its manifest entry, or its catcher entry. -/
def State.cancelOne (s : State) (q : Nat) (e : Exec) : State × CancelOutcome :=
  match s.entryOf q e with
  | some m => s.opCancel m
  | none =>
    match s.recvOf q e with
    | some r =>
      if r.2.holds then
        let s := match s.catcherOf r.2.space with | some k => s.count (catcherUnit k) 9 | none => s
        (State.cancelExec { s with recvs := s.recvs.del r.1 } q e.index e.iter, .none)
      else (s, .late)
    | none => (s, .late)

/-- A CANCEL reaches every execution of an entry; the outcome is that of the earliest. -/
def State.cancelEach (s : State) (q : Nat) : List Exec → State × CancelOutcome
  | [] => (s, .late)
  | e :: r =>
    match s.cancelOne q e with
    | (s, o) => ((State.cancelEach s q r).1, o)

/-- CANCEL_DECISION: a started CANCEL reaches the named command (R140). -/
def execCancelDecision (q index : Nat) (s : State) : Host.Outcome State Fault Refusal :=
  s.whenLive fun s =>
    match (s.q q).cancels.find? fun r => decide (r.index = index) && r.outcome.isNone with
    | none => s
    | some r =>
      match s.cancelEach q ((s.q q).started.filter fun e => decide (e.index = r.named)) with
      | (s, o) =>
        let f (r : CancelRec) : CancelRec := if r.index = index ∧ r.outcome.isNone then { r with outcome := some o } else r
        let s := s.updQ q fun x => { x with cancels := x.cancels.map f }
        (s.settle q).settleAll

/-- PUT (R115). -/
def execPut (q : Nat) (c : XferCmd) (s : State) : Host.Outcome State Fault Refusal :=
  s.whenLive fun s => s.startUser q 1 (.put c) 0

/-- PUTI (R117). -/
def execPuti (q : Nat) (c : PutiCmd) (s : State) : Host.Outcome State Fault Refusal :=
  s.whenLive fun s => s.startUser q 1 (.puti c) 0

/-- GET (R116). -/
def execGet (q : Nat) (c : XferCmd) (s : State) : Host.Outcome State Fault Refusal :=
  s.whenLive fun s => s.startUser q 1 (.get c) 0

/-- ATOMIC (R119). -/
def execAtomic (q : Nat) (c : AtomicCmd) (s : State) : Host.Outcome State Fault Refusal :=
  s.whenLive fun s => s.startUser q (if c.fetch then 2 else 1) (.atomic c) 0

/-- SEND (R121); `draw` is what the random bit generator gives (R225). -/
def execSend (q : Nat) (c : SendCmd) (draw : Nat) (s : State) : Host.Outcome State Fault Refusal :=
  s.whenLive fun s => s.startUser q 2 (.send c) draw

/-- POSTRECV (R122). -/
def execPostrecv (q : Nat) (c : RecvCmd) (s : State) : Host.Outcome State Fault Refusal :=
  s.whenLive fun s => s.startUser q 2 (.postrecv c) 0

/-- TALLY-ADD (R126). -/
def execTallyAdd (q : Nat) (c : TallyAddCmd) (s : State) : Host.Outcome State Fault Refusal :=
  s.whenLive fun s => s.startUser q 1 (.tallyAdd c) 0

/-- WAIT-TALLY (R127). -/
def execWaitTally (q : Nat) (toStop : Bool) (ltally totally : TallyField) (tally timeout value : Nat) (s : State) :
    Host.Outcome State Fault Refusal :=
  s.whenLive fun s => s.startUser q 1 (.wait ⟨.tally, toStop, ltally, totally, tally, timeout, value⟩) 0

/-- WAIT-HEAD (R127, R128). -/
def execWaitHead (q : Nat) (toStop : Bool) (ltally totally : TallyField) (queue timeout index : Nat) (s : State) :
    Host.Outcome State Fault Refusal :=
  s.whenLive fun s => s.startUser q 1 (.wait ⟨.head, toStop, ltally, totally, queue, timeout, index⟩) 0

/-- WAIT-TIME (R128). -/
def execWaitTime (q : Nat) (ltally : TallyField) (t : Nat) (s : State) : Host.Outcome State Fault Refusal :=
  s.whenLive fun s => s.startUser q 1 (.wait ⟨.time, false, ltally, 0, 0, 0, t⟩) 0

/-- WHISTLE (R129). -/
def execWhistle (q : Nat) (c : WhistleCmd) (s : State) : Host.Outcome State Fault Refusal :=
  s.whenLive fun s => s.startUser q 1 (.whistle c) 0

/-- COLLECTIVE (R130). -/
def execCollective (q : Nat) (c : CollCmd) (s : State) : Host.Outcome State Fault Refusal :=
  s.whenLive fun s => s.startUser q 1 (.collective c) 0

/-- LOOP (R132). -/
def execLoop (q : Nat) (c : LoopCmd) (s : State) : Host.Outcome State Fault Refusal :=
  s.whenLive fun s => s.startUser q 1 (.loop c) 0

/-- SKIP-IF (R136). -/
def execSkipIf (q : Nat) (c : SkipCmd) (s : State) : Host.Outcome State Fault Refusal :=
  s.whenLive fun s => s.startUser q 1 (.skipIf c) 0

/-- CALL (R137). -/
def execCall (q : Nat) (c : CallCmd) (s : State) : Host.Outcome State Fault Refusal :=
  s.whenLive fun s => s.startUser q 1 (.call c) 0

end Sys2Proof.Machine
end

