-- ==== Sys2Proof/Machine/Counters.lean ====
section
/-! DEFINITION. Event counters (R475 to R487): what a counter may select, writes of the counter registers, queue-depth histograms, snapshots. -/

namespace Sys2Proof.Machine

/-! ## Event codes (R481) -/

/-- The kinds of counter units. -/
inductive UnitKind where
  | ferry
  | berth
  | port
  | quad
  | catcher
  | huddle
  | transport
  | manifest
  | translation
  | queues
  | security
  | lockGroup
  | internal
  | host
  | package
  | time
  | mover
  deriving DecidableEq, Repr

/-- The kind of a counter unit (R475). -/
def unitKind (u : Nat) : UnitKind :=
  if u < 64 then .ferry
  else if u < 128 then .berth
  else if u < 200 then .port
  else if u < 218 then .quad
  else if u < 222 then .catcher
  else if u < 230 then .huddle
  else if u = 230 then .transport
  else if u = 231 then .manifest
  else if u = 232 then .translation
  else if u = 233 then .queues
  else if u = 234 then .security
  else if u < 251 then .lockGroup
  else if u < 259 then .internal
  else if u < 261 then .host
  else if u = 261 then .package
  else if u = 262 then .time
  else .mover

/-- How many values SUB has for an event code of a kind, from 0 on: 0 where the kind does not define the code (R481). -/
def subCount (k : UnitKind) (ev : Nat) : Nat :=
  let plain (n : Nat) : Nat := if (1 ≤ ev ∧ ev ≤ n) ∨ ev = 0x80 then 1 else 0
  match k with
  | .ferry => if ev = 2 then 12 else plain 4
  | .berth => plain 4
  | .port =>
    if 1 ≤ ev ∧ ev ≤ 4 then 4 else if ev = 5 then 8 else if ev = 0x80 then 8 else if ev = 0x81 then 4
    else if ev = 0x82 then 1 else plain 0x0E
  | .quad => if (1 ≤ ev ∧ ev ≤ 3) ∨ ev = 0x80 then 4 else 0
  | .catcher => plain 9
  | .huddle => plain 8
  | .transport => if ev = 1 then 3 else if ev = 0x0A then 9 else if ev = 0x81 then 1 else plain 0x0F
  | .manifest => plain 2
  | .translation => if ev = 6 then 3 else plain 7
  | .queues => plain 5
  | .security => if 1 ≤ ev ∧ ev ≤ 4 then 1 else 0
  | .lockGroup => plain 5
  | .internal => if ev = 1 ∨ ev = 2 then 4 else if ev = 4 then 8 else plain 3
  | .host => plain 5
  | .package => if 1 ≤ ev ∧ ev ≤ 5 then 1 else 0
  | .time => if ev = 2 ∨ ev = 3 then 64 else plain 1
  | .mover => plain 2

/-- Whether a write of EC_SEL is accepted (R476). -/
def selOk (u mode ev sub : Nat) : Bool :=
  let defined := decide (sub < subCount (unitKind u) ev)
  (decide (mode = 0) && (decide (ev = 0 ∧ sub = 0) || defined))
    || (decide (mode = 1 ∧ 1 ≤ ev ∧ ev < 0x80) && defined)
    || (decide (mode = 2 ∧ 0x80 ≤ ev) && defined)

/-! ## Counter registers (R476, R480) -/

/-- The internal address of EC_SEL[u][k]. -/
def ecSelAddr (u k : Nat) : Nat := 0xE00000000 + 0x100 * u + 8 * k

/-- The bits of a one-bit write-1-to-clear field: cleared where the word writes 1 (R9). -/
def State.w1c (s : State) (f : Fld) (i w : Nat) : State := if Fld.of f w = 1 then s.wr f i 0 else s

/-- A write of EC_SEL (R476): rejected whole with a record, or accepted; a changed selection zeroes COUNT (R480). -/
def State.writeEcSel (s : State) (u k w : Nat) : State :=
  let i := 4 * u + k
  let mode := Fld.of .EC_SEL_MODE w
  let ev := Fld.of .EC_SEL_EVENT w
  let sub := Fld.of .EC_SEL_SUB w
  if !s.unitOn u then s
  else if !selOk u mode ev sub then s.logRejected (ecSelAddr u k)
  else
    let same := decide (s.rd .EC_SEL_MODE i = mode ∧ s.rd .EC_SEL_EVENT i = ev ∧ s.rd .EC_SEL_SUB i = sub)
    let s := (s.setFields i w [.EC_SEL_USER_FN, .EC_SEL_USER_EN, .EC_SEL_MODE, .EC_SEL_SUB, .EC_SEL_EVENT]).w1c .EC_SEL_OVF i w
    if same then s else s.wr .EC_CNT_COUNT i 0

/-- EC_SEL_WRITE. -/
def execEcSelWrite (u k v : Nat) (s : State) : Host.Outcome State Fault Refusal :=
  s.whenUp fun s => if u < 295 ∧ k < 4 then s.writeEcSel u k v else s

/-- A write of EC_CNT sets COUNT (R480). -/
def State.writeEcCnt (s : State) (u k w : Nat) : State := if s.unitOn u then s.setFields (4 * u + k) w [.EC_CNT_COUNT] else s

/-- EC_CNT_WRITE. -/
def execEcCntWrite (u k v : Nat) (s : State) : Host.Outcome State Fault Refusal :=
  s.whenUp fun s => if u < 295 ∧ k < 4 then s.writeEcCnt u k v else s

/-! ## Histograms (R482) -/

/-- Set every bin of a port to 0. -/
def State.zeroBins (s : State) (p : Nat) : State := (List.range 8).foldl (fun s b => s.wr .EC_HIST_COUNT (8 * p + b) 0) s

/-- A write of EC_HIST_CFG: a change of CLASS zeroes the port's bins. -/
def State.writeHistCfg (s : State) (p w : Nat) : State :=
  let c := Fld.of .EC_HIST_CFG_CLASS w
  if !s.portOn p ∨ s.rd .EC_HIST_CFG_CLASS p = c then s else (s.wr .EC_HIST_CFG_CLASS p c).zeroBins p

/-- EC_HIST_CFG_WRITE. -/
def execEcHistCfgWrite (p v : Nat) (s : State) : Host.Outcome State Fault Refusal :=
  s.whenUp fun s => s.writeHistCfg p v

/-- The bin of a queue depth in 64-byte units (the histogram table). -/
def histBin (q : Nat) : Nat :=
  if q = 0 then 0 else if q ≤ 8 then 1 else if q ≤ 24 then 2 else if q ≤ 48 then 3 else if q ≤ 96 then 4
  else if q ≤ 192 then 5 else if q ≤ 768 then 6 else 7

/-- One sample of a port's queue depth. -/
def State.sampleHist (s : State) (p : Nat) : State :=
  if !s.portOn p then s
  else
    let i := 8 * p + histBin (s.qOf p (s.rd .EC_HIST_CFG_CLASS p))
    let c := s.rd .EC_HIST_COUNT i + 1
    let s := s.wr .EC_HIST_COUNT i c
    if 2 ^ 48 ≤ c then s.wr .EC_HIST_OVF i 1 else s

/-- HISTOGRAM_SAMPLE. -/
def execHistogramSample (p : Nat) (s : State) : Host.Outcome State Fault Refusal := s.whenUp fun s => s.sampleHist p

/-! ## Snapshots (R483 to R486) -/

/-- A counter as the snapshot record and TELEMETRY give it (the COUNTER entry). -/
def State.counterEntry (s : State) (u k : Nat) : Nat :=
  if s.unitOn u then s.rd .EC_CNT_COUNT (4 * u + k) + s.rd .EC_SEL_OVF (4 * u + k) * 2 ^ 48 else 2 ^ 49

/-- A bin as the record gives it. -/
def State.binEntry (s : State) (p b : Nat) : Nat :=
  if s.portOn p then s.rd .EC_HIST_COUNT (8 * p + b) + s.rd .EC_HIST_OVF (8 * p + b) * 2 ^ 48 else 2 ^ 49

/-- The snapshot record (R486). -/
def State.snapRecord (s : State) (t seq : Nat) (clear : Bool) : List Byte :=
  leBytes 8 t ++ leBytes 8 (s.rd .GLB_SERIAL_SERIAL) ++ leBytes 4 seq ++ leBytes 2 295
    ++ leBytes 2 (if clear then 1 else 0) ++ leBytes 4 s.nodeId ++ leBytes 36 0
    ++ ((List.range 295).map fun u => ((List.range 4).map fun k => leBytes 8 (s.counterEntry u k)).flatten).flatten
    ++ ((List.range 72).map fun p => ((List.range 8).map fun b => leBytes 8 (s.binEntry p b)).flatten).flatten

/-- Copy the counters of every unit into EC_SNAP. -/
def State.copySnap (s : State) : State :=
  (List.range 1180).foldl (fun s i =>
    let e := s.counterEntry (i / 4) (i % 4)
    s.wrAll i [(.EC_SNAP_COUNT, bitsOf e 0 48), (.EC_SNAP_OVF, bitsOf e 48 1), (.EC_SNAP_DISABLED, bitsOf e 49 1)]) s

/-- Restart every counter and bin at 0 (CLEAR). -/
def State.clearCounters (s : State) : State :=
  let s := (List.range 1180).foldl (fun s i => s.wr .EC_CNT_COUNT i 0) s
  (List.range 72).foldl (fun s p => s.zeroBins p) s

/-- The pending snapshots of the earliest capture time that has not come. -/
def State.nextSnaps (s : State) : List (Nat × Snap) :=
  let open_ := s.snaps.cells.filter fun n => !n.2.captured
  open_.filter fun n => open_.all fun m => decide (n.2.t ≤ m.2.t)

/-- The sequence number of the next capture: 1 more than those completed and captured. -/
def State.nextSnapSeq (s : State) : Nat :=
  let seqs := (s.snaps.cells.filter fun n => n.2.captured).map fun n => n.2.seq
  idxAdd (seqs.foldl idxMax (s.rd .EC_SNAP_STATUS_SEQ)) 1

/-- The capture at a time T of the snapshots that share it (R484). -/
def State.capture (s : State) : State :=
  let ns := s.nextSnaps
  match ns with
  | [] => s
  | n :: _ =>
    let s := s.setNow n.2.t
    let seq := s.nextSnapSeq
    let mark (m : Snap) : Snap := { m with captured := true, seq := seq, data := s.snapRecord m.t seq (bitOf m.dest 1) }
    let snaps := ns.foldl (fun t (m : Nat × Snap) => t.put m.1 (mark m.2)) s.snaps
    let s := ns.foldl (fun s (m : Nat × Snap) => s.disarm (.snapshot m.1)) { s.copySnap with snaps := snaps }
    let s := s.wr .EC_SNAP_TIME_T 0 n.2.t
    if ns.any fun m => bitOf m.2.dest 1 then s.clearCounters else s

/-- SNAPSHOT_CAPTURE: a fatal device captures nothing (R485). -/
def execSnapshotCapture (s : State) : Host.Outcome State Fault Refusal := s.whenLive State.capture

/-- Write the record of a captured snapshot: whether it was written, none while a host destination accepts no writes (R486). -/
def State.writeSnap (s : State) (n : Snap) (ok : Bool) : Option (State × Bool) :=
  let addr := n.dest / 64 * 64
  if n.dest = 0 then some (s, true)
  else if bitOf n.dest 0 then
    if ok && decide (0x10_0000_0000 ≤ addr ∧ addr + 14112 ≤ 0x14_0000_0000) then
      some ((s.writeLoc (.pkg addr) n.data).count 261 2 0 (ceilDiv 14112 64), true)
    else some (s, false)
  else
    match s.fnAccess 0 with
    | .busy => none
    | .error => some (s, false)
    | .ok =>
      if !ok then some (s.count (hostUnit 0) 2, false)
      else some (((((s.count (hostUnit 0) 2).writeLoc (.host 0 addr) n.data).count (hostUnit 0) 3).emit (.hostRead 0 0 0)), true)

/-- A captured snapshot's record is written, and SNAPSHOT completes (R486). -/
def State.completeSnap (s : State) (k : Nat) (ok : Bool) : State :=
  match s.snaps.look k with
  | none => s
  | some n =>
    if !n.captured then s
    else
      match s.writeSnap n ok with
      | none => s
      | some (s, done) =>
        let s := if idxBefore (s.rd .EC_SNAP_STATUS_SEQ) n.seq then s.wr .EC_SNAP_STATUS_SEQ 0 n.seq else s
        { s with snaps := s.snaps.del k }.endPriv n.src (if done then 0 else cLocalMemory)

/-- SNAPSHOT_COMPLETE. -/
def execSnapshotComplete (k : Nat) (ok : Bool) (s : State) : Host.Outcome State Fault Refusal :=
  s.whenLive fun s => s.completeSnap k ok

end Sys2Proof.Machine
end

