-- ==== Sys2Proof/Machine/RegAccess.lean ====
section
/-! DEFINITION. How an entry point reads a register and gets its value back, and counters whose overflow the manual leaves
open (R9, R430, R431). -/

namespace Sys2Proof.Machine

/-- Return a value to whom it was read for: the function that asked through a BAR, or the control path (log 7). -/
def State.answer (s : State) (f : Option Func) (v : Nat) : State :=
  match f with
  | some g => s.emit (.hostReply g (some v) false)
  | none => s.emit (.value v)

/-- Read a register for an entry point. -/
def State.readFor (s : State) (f : Option Func) (r : Reg) (i : Nat) : State :=
  match s.readReg r i with
  | (s, v) => s.answer f v

/-- Count a queue-aperture access that R431 discards, at the function that made it. -/
def State.regForeign (s : State) (f : Func) : State := s.incOpen .HI_FN_STAT_REG_FOREIGN (fnIdx f)

/-- Whether queue `q` is bound to a function: it is not DISABLED. -/
def State.boundTo (s : State) (q : Nat) (f : Func) : Bool := decide (s.qState q ≠ qDisabled) && decide (s.qFunc q = f)

/-- Whether an entry point reaches the registers of queue `q`: the control path, or the bound function (R431). -/
def State.reachesQueue (s : State) (q : Nat) (f : Option Func) : Bool :=
  match f with
  | none => true
  | some g => s.boundTo q g

/-- An access to a queue's registers: it acts, or is counted as foreign. -/
def State.queueAccess (s : State) (q : Nat) (f : Option Func) (act : State → State) : State :=
  if 65536 ≤ q then s
  else if s.reachesQueue q f then act s
  else match f with | some g => s.regForeign g | none => s

end Sys2Proof.Machine
end

