-- ==== Sys2Proof/Machine/Faults.lean ====
section
/-! DEFINITION. The fault collector's own rows (R466 to R474): assertions, wire faults, forces, REACT, the fatal state, its self-check. -/

namespace Sys2Proof.Machine

/-- FAULT_ASSERTION: a source's wire changes to fault (R469). -/
def execFaultAssertion (src : Nat) (s : State) : Host.Outcome State Fault Refusal :=
  s.whenRef fun s => s.faultAssert src false

/-- A source's rails stay equal for 50 ns: WIRE, and an assertion (R468). -/
def State.wireAssert (s : State) (src : Nat) (forced : Bool) : State :=
  if srcKnown src && s.srcOn src then (s.wr .FT_SRC_WIRE src 1).faultAssert src forced else s

/-- WIRE_FAULT. -/
def execWireFault (src : Nat) (s : State) : Host.Outcome State Fault Refusal :=
  s.whenRef fun s => s.wireAssert src false

/-- The internal address of FT_SRC[s]. -/
def ftSrcAddr (n : Nat) : Nat := 0xD00001000 + 8 * n

/-- A force of a source: discarded with a record where its REACT is fatal while a job is active (R471). -/
def State.forceSrc (s : State) (src : Nat) (act : State → State) : State :=
  if !srcKnown src then s
  else if s.rd .FT_SRC_REACT src = rcFatal ∧ s.jobsActive ≠ 0 then s.logRejected (ftSrcAddr src)
  else act s

/-- FT_FORCE_ASSERT: FORCE 1. -/
def execFtForceAssert (src : Nat) (s : State) : Host.Outcome State Fault Refusal :=
  s.whenRef fun s => s.forceSrc src fun s => s.faultAssert src true

/-- FT_FORCE_WIRE: FORCE 2. -/
def execFtForceWire (src : Nat) (s : State) : Host.Outcome State Fault Refusal :=
  s.whenRef fun s => s.forceSrc src fun s => s.wireAssert src true

/-- A new REACT of a source, unless R467 keeps the present one. -/
def State.setReact (s : State) (src r : Nat) : State :=
  if r < s.rd .FT_SRC_MIN src ∨ (r = rcContained ∧ !srcMayContain src) then s else s.wr .FT_SRC_REACT src r

/-- A write of FT_SRC: REACT under R467, the write-1-to-clear fields, FORCE (R471). -/
def State.writeFtSrc (s : State) (src w : Nat) : State :=
  if !srcKnown src then s
  else
    let s := ((((s.setReact src (Fld.of .FT_SRC_REACT w)).w1c .FT_SRC_WIRE src w).w1c .FT_SRC_FORCED src w)).w1c .FT_SRC_STATUS src w
    match Fld.of .FT_SRC_FORCE w with
    | 1 => s.forceSrc src fun s => s.faultAssert src true
    | 2 => s.forceSrc src fun s => s.wireAssert src true
    | _ => s

/-- FT_REACT_WRITE: `v` is the register word. -/
def execFtReactWrite (src v : Nat) (s : State) : Host.Outcome State Fault Refusal :=
  s.whenRef fun s => s.writeFtSrc src v

/-- FT_SRC_READ: COUNT is cleared (R9). -/
def execFtSrcRead (src : Nat) (s : State) : Host.Outcome State Fault Refusal :=
  s.whenRef fun s => if src < 512 then s.readOut .FT_SRC src else s

/-- FATAL_ENTRY: the fatal reaction of a source whose class is fatal (R473). -/
def execFatalEntry (src : Nat) (s : State) : Host.Outcome State Fault Refusal :=
  s.whenUp fun s => if srcKnown src && s.srcOn src && decide (s.rd .FT_SRC_REACT src = rcFatal) then s.enterFatal src else s

/-- COLLECTOR_SELF_CHECK_FAIL: ALIVE stops (R474). -/
def execCollectorSelfCheckFail (s : State) : Host.Outcome State Fault Refusal :=
  s.whenRef fun s => ({ s with checkFailed := true }).emit (.alive false)

end Sys2Proof.Machine
end

