-- ==== Sys2Proof/Machine/MoverOps.lean ====
section
/-! DEFINITION. Transfers and host requests that end (R27, R189, R193, R231, R424, R427, R437): what each was for goes on, and
the meanings of their completions. -/

namespace Sys2Proof.Machine

/-- The counter unit of a mover. -/
def moverUnit (x : Xfer) : Nat := 263 + x.mover

/-- The bytes that a list of segments covers. -/
def segBytes (segs : List (Loc × Nat)) : Nat := (segs.map (·.2)).foldl (· + ·) 0

/-- Whether a segment in the wharf carries the poison mark (R398). -/
def State.segPoisoned (s : State) (segs : List (Loc × Nat)) : Bool :=
  segs.any fun g => match g.1 with | .pkg a => s.poisoned a g.2 | .host _ _ => false

/-- Whether every function that a write reaches has Enable Relaxed Ordering set (R436). -/
def State.segRelaxed (s : State) (segs : List (Loc × Nat)) : Bool := (segFuncs segs).all fun f => (s.fn f).relaxed

/-- The operation at its target whose packet a receive's write placed. -/
def State.topOfRecv (s : State) (i : Nat) : Option (Nat × Nat) :=
  match (s.recvs.look i).bind fun r => s.msgs.look r.msg with
  | none => none
  | some m =>
    match s.tops.look (m.ctx, m.mtag) with
    | some t => if t.msg = (s.recvs.look i).map (·.msg) then some (m.ctx, m.mtag) else none
    | none => none

/-- A write of a packet's bytes to a receive's buffer completed, or failed (R220, R231). -/
def State.recvWriteOver (s : State) (i off n : Nat) (ok : Bool) : State :=
  let k := s.topOfRecv i
  let s := s.updRecv i fun r => { r with
    busy := r.busy - 1, placed := if ok then r.placed + n else r.placed, fail := if ok ∨ r.fail.isSome then r.fail else some cLocalMemory }
  let s :=
    match k with
    | none => s
    | some k =>
      let s := s.updTop k.1 k.2 fun t => { t with busy := t.busy - 1 }
      (if ok then s else s.topFail k.1 k.2 off cTargetMemory).topCheck k.1 k.2
  s.recvCheck i

/-- The copy of an unexpected message to its receive's buffer completed, or failed (R224). -/
def State.copyOver (s : State) (i n : Nat) (ok : Bool) : State :=
  let m := (s.recvs.look i).map (·.msg)
  let s := match m with | some m => s.copied m | none => s
  let s := s.updRecv i fun r => { r with
    busy := r.busy - 1, placed := if ok then r.placed + n else r.placed, fail := if ok ∨ r.fail.isSome then r.fail else some cLocalMemory }
  s.recvCheck i

/-- A write of DST elements completed, or failed (R247): a member of a broadcast forwards them from there. -/
def State.collDstOver (s : State) (c n elem bytes : Nat) (ok : Bool) : State :=
  if !ok then s.collMemFail c n cLocalMemory
  else
    let s := s.updInst c n fun v =>
      let k := bytes / dtSize v.cmd.dtype
      { v with busy := v.busy - 1, wrote := v.wrote + k, spans := v.spans ++ [(elem, k)] }
    (s.collForward c n).collCheck c n

/-- What a transfer or host request was for goes on: `ok` says that it succeeded, `bytes` are what a read brought. -/
def State.kindOver (s : State) (x : Xfer) (ok : Bool) (bytes : List Byte) : State :=
  match x.kind with
  | .source m off n re => s.sourceIn m off n re ok bytes
  | .place c m off => s.placeOver c m off ok
  | .serve c m off n re => s.serveOver c m off n re ok bytes
  | .land m _ n => s.landOver m n ok
  | .result m => s.resultOver m ok
  | .flushT c m =>
    let s := s.updTop c m fun t => { t with busy := t.busy - 1 }
    (if ok then s else s.topFail c m 0 cTargetMemory).topCheck c m
  | .flushM m =>
    (if ok then s else s.updM m fun e => { e with localFail := some cLocalMemory }).flushMOver m
  | .memAtomic c m => s.memAtomicOver c m x.segs x.bytes ok
  | .hostAtomic c m _ _ =>
    let s := s.updTop c m fun t => { t with busy := t.busy - 1 }
    (s.topFail c m 0 cTargetMemory).topCheck c m
  | .recv i off => s.recvWriteOver i off (segBytes x.segs) ok
  | .recvStatus i => if ok then s.recvNext i else s.recvEnd i cLocalMemory
  | .recvFlush i => if ok then s.recvNext i else s.recvEnd i cLocalMemory
  | .unexpected i => s.copyOver i (segBytes x.segs) ok
  | .move f t op => s.moveOver f t op x.write ok x.segs bytes
  | .moveFlush f t op => s.unitDone f t op (if ok then ruOk else ruMemory) 0 0
  | .collSrc c n => if ok then s.collSrcIn c n bytes else s.collMemFail c n cLocalMemory
  | .collDst c n elem => s.collDstOver c n elem (segBytes x.segs) ok
  | .collFwd c n node elem => if ok then s.collFwdOver c n node elem bytes else s.collMemFail c n cLocalMemory
  | .collFlush c n => if ok then s.collEnd c n else s.collMemFail c n cLocalMemory
  | .invalFlush => s

/-- A transfer ends without having moved anything. -/
def State.xferFail (s : State) (id : Nat) : State :=
  match s.xfers.look id with
  | none => s
  | some x => (s.endXfer id).kindOver x false []

/-- The atomic unit of package memory is done (R195): an uncorrectable error raises PKG_MEM, and poison counts as one (R187). -/
def State.memAtomicEnd (s : State) (id : Nat) (x : Xfer) (ok : Bool) : State :=
  let s := s.endXfer id
  if ok && !s.segPoisoned x.segs then s.kindOver x true [] else ((s.count 261 5).raise 230).kindOver x false []

/-- A transfer moved its bytes: those of a write stand at its segments, those of a read are what the segments hold. -/
def State.xferDone (s : State) (id : Nat) (x : Xfer) : State :=
  let n := segBytes x.segs
  let s := s.endXfer id
  if x.write then
    ((s.count (moverUnit x) 2 0 n).writeSegs x.bytes (x.rlx && s.segRelaxed x.segs) x.segs).kindOver x true []
  else if s.segPoisoned x.segs then s.kindOver x false []
  else (s.count (moverUnit x) 1 0 n).kindOver x true (s.readSegs x.segs)

/-- Whether a kind is a flushing read. -/
def XferKind.isFlush : XferKind → Bool
  | .flushT _ _ => true
  | .flushM _ => true
  | .recvFlush _ => true
  | .moveFlush _ _ _ => true
  | .collFlush _ _ => true
  | .invalFlush => true
  | _ => false

/-- Whether a kind is the copy of an unexpected message, an ATOMIC in package memory, or a host AtomicOp. -/
def XferKind.isCopy : XferKind → Bool
  | .unexpected _ => true
  | _ => false
def XferKind.isMem : XferKind → Bool
  | .memAtomic _ _ => true
  | _ => false
def XferKind.isAtomic : XferKind → Bool
  | .hostAtomic _ _ _ _ => true
  | _ => false

/-- MOVER_TRANSFER_COMPLETE: a mover's transfer completes, or fails (R27, R231); `seen` is what host memory holds (log 5). -/
def execMoverTransferComplete (id : Nat) (ok : Bool) (seen : List (Nat × Option Byte)) (s : State) : Host.Outcome State Fault Refusal :=
  s.whenLive fun s =>
    match s.xfers.look id with
    | none => s
    | some x =>
      if x.kind.isFlush || x.kind.isAtomic || x.kind.isCopy then s
      else if x.kind.isMem then (s.memAtomicEnd id x ok).settleAll
      else if ok then ((s.see seen).xferDone id x).settleAll
      else (s.xferFail id).settleAll

/-- FLUSH_READ_COMPLETE: a flushing read completes (R189, R437). -/
def execFlushReadComplete (id : Nat) (s : State) : Host.Outcome State Fault Refusal :=
  s.whenLive fun s =>
    match s.xfers.look id with
    | none => s
    | some x => if x.kind.isFlush then ((s.endXfer id).kindOver x true []).settleAll else s

/-- HOST_ATOMIC_COMPLETE: the PCIe request of a host ATOMIC completes (R193, R194). -/
def execHostAtomicComplete (id : Nat) (mismatch : Bool) (old : Nat) (s : State) : Host.Outcome State Fault Refusal :=
  s.whenLive fun s =>
    match s.xfers.look id with
    | none => s
    | some x =>
      match x.kind with
      | .hostAtomic c m tries expect => (s.atomicOver id c m tries expect x.segs x.bytes mismatch old).settleAll
      | _ => s

/-- UNEXPECTED_COPY_COMPLETE: the copy of an unexpected message completes (R224). -/
def execUnexpectedCopyComplete (id : Nat) (s : State) : Host.Outcome State Fault Refusal :=
  s.whenLive fun s =>
    match s.xfers.look id with
    | none => s
    | some x => if x.kind.isCopy then (s.xferDone id x).settleAll else s

end Sys2Proof.Machine
end

