-- ==== Sys2Proof/Machine/Queues.lean ====
section
/-! DEFINITION. The meanings of the queue rows but the start turn (R80 to R108, R523): doorbells, ring reads, waits, commands written to
QU_STATE, the queue registers, the tally array. -/

namespace Sys2Proof.Machine

/-! ## Doorbells and ring reads -/

/-- DOORBELL: a host write to the doorbell page of queue `q` (R80 to R83). -/
def execDoorbell (f : Func) (q off size value : Nat) (s : State) : Host.Outcome State Fault Refusal :=
  s.whenLive fun s =>
    if off ≠ 0 ∨ (size ≠ 4 ∧ size ≠ 8) ∨ 65536 ≤ q then s
    else if s.boundTo q f then s.takeDoorbell q (value % 2 ^ 32)
    else s.dbForeign q

/-- Where entry `i` of a queue's ring lies (R75, R104). -/
def State.ringLoc (s : State) (q i : Nat) : Loc :=
  let addr := s.rd .QU_BASE_BASE q * 4096 + 32 * (i % s.ringSize q)
  if s.flag .QU_CFG_LOC q then .pkg addr else .host (s.qFunc q) addr

/-- CI past the entries that R96 recorded as done (R99). -/
def State.fetchFrom (s : State) (q : Nat) : Nat :=
  let x := s.q q
  (passDone x.done.length (s.rd .QU_CI_CI q) x.done 0).1

/-- Whether one ring read may cover `n` entries from index `i` on (R84, R99). -/
def State.fetchOk (s : State) (q i n : Nat) : Bool :=
  decide (1 ≤ n ∧ n ≤ 8 ∧ n ≤ dist32 i (s.rd .QU_PI_PI q)) && idxLe i (s.rd .QU_PI_PI q)
    && decide (i % s.ringSize q + n ≤ s.ringSize q)
    && (List.range n).all fun k => !(s.q q).done.any fun d => decide (d.1 = idxAdd i k)

/-- RING_FETCH: one read of `count` entries (R84). CI advances past them as they are asked for. -/
def execRingFetch (q count : Nat) (s : State) : Host.Outcome State Fault Refusal :=
  s.whenLive fun s =>
    let i := s.fetchFrom q
    if s.qState q = qRunning ∧ s.fetchOk q i count then
      let s := (s.wr .QU_CI_CI q (idxAdd i count)).askSegs false [(s.ringLoc q i, 32 * count)]
      s.updQ q fun x => { x with reads := x.reads ++ [(i, count)] }
    else s

/-- Keep the bytes of entries that a ring read brought. -/
def putEntries (t : Tab Nat (List Byte)) (i : Nat) : Nat → List Byte → Tab Nat (List Byte)
  | 0, _ => t
  | n + 1, bs => putEntries (t.put i (bs.take 32)) (idxAdd i 1) n (bs.drop 32)

/-- RING_READ_COMPLETE: the oldest ring read of a queue returns (R84), or fails (R86). One of a queue that a function's loss of bus
mastery has halted is discarded, and made again once the queue runs (R438 step 3). -/
def execRingReadComplete (q : Nat) (ok : Bool) (seen : List (Nat × Option Byte)) (s : State) : Host.Outcome State Fault Refusal :=
  s.whenLive fun s =>
    match (s.q q).reads with
    | [] => s
    | r :: rest =>
      let s := (s.updQ q fun x => { x with reads := rest }).see seen
      let loc := s.ringLoc q r.1
      let access := s.segAccess [(loc, 32 * r.2)]
      if s.qState q = qHalted ∧ access ≠ .ok then s.updQ q fun x => { x with reads := r :: x.reads }
      else if ok && decide (access = .ok) then
        let bs := s.readLoc loc (32 * r.2)
        s.updQ q fun x => { x with fetched := putEntries x.fetched r.1 r.2 bs }
      else s.failQueue q ⟨r.1, 0, 0, false, none⟩ cFetchError

/-! ## The head word and waits -/

/-- COAL_TIME_EXPIRY: the head word is written (R89). -/
def execCoalTimeExpiry (q : Nat) (s : State) : Host.Outcome State Fault Refusal :=
  s.whenDue (.coal q) fun s => s.publish q false

/-- HEAD_WORD_WRITE_FAILURE: recorded, not retried (R89). -/
def execHeadWordWriteFailure (q : Nat) (s : State) : Host.Outcome State Fault Refusal :=
  s.whenUp fun s => if s.flag .QU_HEADADDR_EN q then s.logRec 1 0x01 .headWrite q [q] else s

/-- The waiting entry of a queue completes: it starts and ends, and the queue runs (R94). `totally` is the tally of a timeout. -/
def State.endWait (s : State) (q : Nat) (w : WaitRec) (totally : Option TallyField) : State :=
  let s := ((s.updQ q fun x => { x with wait := none }).disarm (.wait q)).wr .QU_STATE_STATE q qRunning
  let s := s.beginExec q w.index w.iter 1 (.wait w.cmd)
  let s := match totally with
    | some t => (s.bumpField t).cancelExec q w.index w.iter
    | none => s.completeExec q w.index w.iter
  s.settleAll

/-- WAIT_CONDITION_MET: a waiting queue's condition is true (R94). -/
def execWaitConditionMet (q : Nat) (s : State) : Host.Outcome State Fault Refusal :=
  s.whenLive fun s =>
    match (s.q q).wait with
    | some w => if s.qState q = qWait ∧ s.waitMet w.cmd then s.endWait q w none else s
    | none => s

/-- WAIT_TIMEOUT_EXPIRY: the wait stops its queue, or completes and increments TOTALLY (R94, R127). -/
def execWaitTimeoutExpiry (q : Nat) (s : State) : Host.Outcome State Fault Refusal :=
  s.whenDue (.wait q) fun s =>
    match (s.q q).wait with
    | some w =>
      if s.qState q ≠ qWait ∨ s.fatal then s
      else if s.waitMet w.cmd then s.endWait q w none
      else if w.cmd.toStop then s.failQueue q ⟨w.index, w.iter, 1, true, none⟩ cWaitTimeout
      else s.endWait q w (some w.cmd.totally)
    | none => s

/-! ## Commands written to QU_STATE -/

/-- Whether an entry point may RUN a queue that is HALTED for a reason (the halt-reason table). -/
def State.mayRun (s : State) (q : Nat) (f : Option Func) : Bool :=
  let r := s.rd .QU_STATE_HALT_REASON q
  if r = 1 ∨ r = 2 then true
  else if r = 3 ∨ r = 4 then f.isSome && decide (s.fnState (s.qFunc q) = 0) && (s.fn (s.qFunc q)).bme
  else false

/-- CMD RUN (R92, R100). -/
def State.runQueue (s : State) (q : Nat) (f : Option Func) : State :=
  if s.qState q ≠ qHalted ∨ !s.mayRun q f then s
  else
    let again := s.rd .QU_STATE_HALT_REASON q = 3 ∨ s.rd .QU_STATE_HALT_REASON q = 4
    let s := if again then s.askSegs false ((s.q q).reads.map fun r => (s.ringLoc q r.1, 32 * r.2)) else s
    let s := s.wr .QU_STATE_HALT_REASON q 0
    if s.rd .QU_STATE_CAUSE q = 0 then (s.wr .QU_STATE_STATE q qRunning).wr .QU_STATE_DRAINED q 0
    else
      let s := s.wr .QU_STATE_STATE q qError
      if s.flag .QU_STATE_DRAINED q then s.publish q true else s.checkDrained q

def execCmdRun (q : Nat) (f : Option Func) (s : State) : Host.Outcome State Fault Refusal :=
  s.whenLive fun s => s.queueAccess q f fun s => s.runQueue q f

/-- CMD HALT stops a queue that is RUNNING or in WAIT; in any other state it does nothing (the table of R92). -/
def State.haltCmd (s : State) (q : Nat) : State := if s.qState q = qRunning ∨ s.qState q = qWait then s.haltQueue q 1 else s

def execCmdHalt (q : Nat) (f : Option Func) (s : State) : Host.Outcome State Fault Refusal :=
  s.whenUp fun s => s.queueAccess q f fun s => s.haltCmd q

/-- CMD RESUME and RESUME_SKIP of a queue in ERROR: at once where DRAINED is set, else held; the later one replaces the earlier
(R98). -/
def State.cmdResume (s : State) (q : Nat) (skip : Bool) : State :=
  if s.qState q ≠ qError then s
  else if s.flag .QU_STATE_DRAINED q then s.resumeQueue q skip
  else s.updQ q fun x => { x with resume := some skip }

def execCmdResume (q : Nat) (f : Option Func) (s : State) : Host.Outcome State Fault Refusal :=
  s.whenLive fun s => s.queueAccess q f fun s => s.cmdResume q false

def execCmdResumeSkip (q : Nat) (f : Option Func) (s : State) : Host.Outcome State Fault Refusal :=
  s.whenLive fun s => s.queueAccess q f fun s => s.cmdResume q true

/-- HELD_RESUME_APPLY: a held RESUME or RESUME_SKIP takes effect once DRAINED is set (R98). -/
def execHeldResumeApply (q : Nat) (s : State) : Host.Outcome State Fault Refusal :=
  s.whenLive fun s =>
    match (s.q q).resume with
    | some skip => if s.qState q = qError ∧ s.flag .QU_STATE_DRAINED q then s.resumeQueue q skip else s
    | none => s

/-! ## The queue registers -/

/-- A write of QU_NOTIFY[q] (R108): a VECTOR, COAL_CNT or COAL_TIME outside its range leaves that field. A head that has already passed
ARM_INDEX does not fire: the host reads QU_HEAD once after it armed (R91). -/
def State.writeNotify (s : State) (q v : Nat) : State :=
  let top := if s.qFunc q % 256 = 0 then 2047 else 63
  let s := s.setFields q v [.QU_NOTIFY_ARM_INDEX, .QU_NOTIFY_ARMED, .QU_NOTIFY_MSIX_EN]
  s.setBounded q v [(.QU_NOTIFY_VECTOR, 0, top), (.QU_NOTIFY_COAL_CNT, 1, 64), (.QU_NOTIFY_COAL_TIME, 1, 16)]

def execQuNotifyWrite (q : Nat) (f : Option Func) (v : Nat) (s : State) : Host.Outcome State Fault Refusal :=
  s.whenUp fun s => s.queueAccess q f fun s => s.writeNotify q v

/-- Whether a package-memory range obeys R104; a host range is not checked. -/
def ringRangeOk (pkg : Bool) (addr n : Nat) : Bool := !pkg || decide (rangeCause addr n = 0)

/-- A write of QU_BASE[0], QU_CFG[0] or QU_HEADADDR[0] (R523). -/
def State.writeQueue0 (s : State) (headaddr cfg : Bool) (v : Nat) : State :=
  let addr := 0x01_0000_0000 + (if headaddr then 0x28 else if cfg then 0x08 else 0)
  let idle := decide (s.qState 0 = qHalted) && s.flag .QU_STATE_DRAINED 0
  let size := if cfg then Fld.of .QU_CFG_SIZE_LOG2 v else s.rd .QU_CFG_SIZE_LOG2 0
  let loc := if cfg then Fld.of .QU_CFG_LOC v else s.rd .QU_CFG_LOC 0
  let base := if headaddr || cfg then s.rd .QU_BASE_BASE 0 else Fld.of .QU_BASE_BASE v
  let ringOk := decide (6 ≤ size ∧ size ≤ 16) && ringRangeOk (decide (loc = 1)) (base * 4096) (32 * 2 ^ size)
  let headOk := ringRangeOk (decide (Fld.of .QU_HEADADDR_LOC v = 1)) (Fld.of .QU_HEADADDR_ADDR v * 8) 8
  let ok := if headaddr then headOk else ringOk
  if !idle || !ok then s.logRejected addr
  else if headaddr then s.setFields 0 v [.QU_HEADADDR_ADDR, .QU_HEADADDR_LOC, .QU_HEADADDR_EN]
  else if cfg then s.setFields 0 v [.QU_CFG_SIZE_LOG2, .QU_CFG_LOC]
  else
    let s := (s.setFields 0 v [.QU_BASE_BASE]).wrAll 0 [(.QU_PI_PI, 0), (.QU_CI_CI, 0), (.QU_CI_LAST_STARTED, 0), (.QU_HEAD_HEAD, 0),
      (.QU_STATE_ERR_INDEX, 0), (.QU_STATE_CAUSE, 0), (.QU_STATE_ERR_MULTI, 0)]
    s.updQ 0 fun x => { noJob := x.noJob, ep := x.ep }

def execQueue0ConfigWrite (headaddr cfg : Bool) (f : Option Func) (v : Nat) (s : State) : Host.Outcome State Fault Refusal :=
  s.whenUp fun s => s.queueAccess 0 f fun s => s.writeQueue0 headaddr cfg v

/-- QU_PI_READ: the read returns and clears STALE_DB (R9); a foreign function reads 0 (R431). -/
def execQuPiRead (q : Nat) (f : Option Func) (s : State) : Host.Outcome State Fault Refusal :=
  s.whenUp fun s =>
    if 65536 ≤ q then s
    else if s.reachesQueue q f then s.readFor f .QU_PI q
    else match f with | some g => (s.regForeign g).answer f 0 | none => s

/-- The registers of a queue, by their number in the aperture. -/
def queueRegs : List Reg := [.QU_BASE, .QU_CFG, .QU_PI, .QU_CI, .QU_HEAD, .QU_HEADADDR, .QU_NOTIFY, .QU_STATE]

/-- A write of QU_STATE's CMD. -/
def State.writeCmd (s : State) (q : Nat) (f : Option Func) (v : Nat) : State :=
  match Fld.of .QU_STATE_CMD v with
  | 1 => s.runQueue q f
  | 2 => s.haltCmd q
  | 3 => s.cmdResume q false
  | 4 => s.cmdResume q true
  | _ => s

/-- A write of one of a queue's registers by an entry point that reaches it. -/
def State.writeQueueReg (s : State) (q reg : Nat) (f : Option Func) (v : Nat) : State :=
  match reg with
  | 0 => if q = 0 then s.writeQueue0 false false v else s
  | 1 => if q = 0 then s.writeQueue0 false true v else s
  | 5 => if q = 0 then s.writeQueue0 true false v else s
  | 6 => s.writeNotify q v
  | 7 => if s.fatal then s else s.writeCmd q f v
  | _ => s

/-- QUEUE_APERTURE_ACCESS: a function's access to a register of queue `q`, a read or a write (R431). -/
def execQueueApertureAccess (f : Func) (q reg : Nat) (wr : Option Nat) (s : State) : Host.Outcome State Fault Refusal :=
  s.whenUp fun s =>
    if 65536 ≤ q then (match wr with | some _ => s | none => s.answer (some f) 0)
    else
      match wr with
      | some v => s.queueAccess q (some f) fun s => s.writeQueueReg q reg (some f) v
      | none =>
        if !s.boundTo q f then (s.regForeign f).answer (some f) 0
        else
          match queueRegs[reg]? with
          | some r => s.readFor (some f) r q
          | none => s.answer (some f) 0

/-- TALLY_ARRAY_WRITE: an aligned 8-byte write sets a tally (R105). -/
def execTallyArrayWrite (n v : Nat) (s : State) : Host.Outcome State Fault Refusal :=
  s.whenUp fun s => if n < 262144 then s.setTally n v else s

end Sys2Proof.Machine
end

