-- ==== Sys2Proof/Machine/HostFns.lean ====
section
/-! DEFINITION. Host functions that lose or regain bus mastery, are reset, come and go (R427, R428, R435, R438 to R441, R531). -/

namespace Sys2Proof.Machine

/-! ## What still needs a function's memory (R438 step 2) -/

/-- Whether a range of an ASID reaches host memory of a function. -/
def State.rangeReaches (s : State) (f : Func) (asid addr n : Nat) (wr : Bool) : Bool :=
  match (s.translateRange asid addr n f (!wr) wr).2 with
  | .inr segs => (segFuncs segs).contains f
  | .inl _ => false

/-- Whether an operation still needs a host access of a function. -/
def State.entryNeeds (s : State) (f : Func) (e : MEntry) : Bool :=
  decide (e.func = f ∧ e.owner = .exec) &&
    (if e.rdv then !e.pullOver && s.rangeReaches f e.asid e.laddr e.total false
     else if e.blk.streams then !e.lastQueued && s.rangeReaches f e.asid (e.laddr + e.nextOff) (e.total - e.nextOff) false
     else if e.blk.gets || e.blk.fetches then e.host || (decide (e.got < e.total) && s.rangeReaches f e.asid e.laddr e.total true)
     else false)

/-- Whether a receive still needs one. -/
def State.recvNeeds (s : State) (f : Func) (r : Recv) : Bool :=
  decide (r.func = f) && (r.host || s.rangeReaches f r.asid r.buf r.length true
    || (decide (r.status ≠ 0) && s.rangeReaches f r.asid r.status 32 true))

/-- Whether an instance of a collective still needs one. -/
def State.instNeeds (s : State) (f : Func) (x : CollCtx) (v : CollInst) : Bool :=
  let size := dtSize v.cmd.dtype
  let own := x.ownRange v.cmd
  let asid := s.rd .QU_CFG_ASID v.q
  !v.done && decide (s.qFunc v.q = f) &&
    (v.host
      || (x.usesSrc v.cmd && (v.got.look 0).isNone && v.res.isEmpty && v.hold.isEmpty && !v.replay && s.rangeReaches f asid v.cmd.src (x.vecLen v.cmd * size) false)
      || (x.usesDst v.cmd && decide (v.wrote < own.2 - own.1) && s.rangeReaches f asid v.cmd.dst ((own.2 - own.1) * size) true))

/-- The instances that need one, as (context, instance). -/
def State.instsNeeding (s : State) (f : Func) : List (Nat × CollInst) :=
  s.colls.cells.flatMap fun c => (c.2.insts.filter fun v => s.instNeeds f c.2 v).map fun v => (c.1, v)

/-- An operation fails with LOCAL_MEMORY; a rendezvous SEND whose pull is in progress once that pull has ended (R531). -/
def State.entryLost (s : State) (m : Nat) : State :=
  match s.manifest.look m with
  | none => s
  | some e =>
    if e.rdv && e.pulled && !e.pullOver then s.updM m fun e => { e with localFail := some cLocalMemory }
    else s.opFail m cLocalMemory

/-- The transfers in flight that reach a function. -/
def State.xfersOf (s : State) (f : Func) : List Nat := (s.xfers.cells.filter fun x => (segFuncs x.2.segs).contains f).map (·.1)

/-- Steps 1 to 3 of the Bus Master Enable table for a function: its STATE, its queues halted for a reason, its requests given up,
and what still needed its memory failed. -/
def State.dropFunc (s : State) (f : Func) (st reason : Nat) : State :=
  let entries := (s.manifest.cells.filter fun m => s.entryNeeds f m.2).map (·.1)
  let recvs := (s.recvs.cells.filter fun r => s.recvNeeds f r.2).map (·.1)
  let insts := s.instsNeeding f
  let tops := (s.tops.cells.filter fun t => t.2.host && decide (t.2.port = some f)).map (·.1)
  let s := s.wr .HI_FN_STATE_STATE (fnIdx f) st
  let s := forEach (fun s q => s.haltQueue q reason) (s.boundQueues fun q => decide (s.qFunc q = f)) s
  let s := forEach State.xferFail (s.xfersOf f) s
  let s := forEach State.entryLost entries s
  let s := forEach (fun s i => s.recvEnd i cLocalMemory) recvs s
  let s := forEach (fun s (v : Nat × CollInst) => s.failExec v.2.q v.2.i v.2.iter cLocalMemory) insts s
  let s := forEach (fun s (v : Nat × CollInst) => s.collMemFail v.1 v.2.num cLocalMemory) insts s
  let s := forEach (fun s (k : Nat × Nat) =>
    (((s.updTop k.1 k.2 fun t => { t with host := false }).topFail k.1 k.2 0 cTargetMemory).topCheck k.1 k.2)) tops s
  s.settleAll

/-! ## Bus Master Enable (R427, R438, R439) -/

/-- Bus Master Enable of a function is cleared; `d3` says that it entered D3hot. While an FLR runs it has no effect (R440). -/
def State.clearBme (s : State) (f : Func) (d3 : Bool) : State :=
  if !s.fnExists f || decide (s.fnState f = 3) || (!(s.fn f).bme && decide (s.fnState f ≠ 0)) then s
  else
    let s := s.updFn f fun n => { n with bme := false, d3 := n.d3 || d3 }
    (s.dropFunc f 1 3).armIn (.quiesce f) (ms 10)

/-- BME_CLEAR (R438). -/
def execBmeClear (f : Func) (s : State) : Host.Outcome State Fault Refusal := s.whenUp fun s => s.clearBme f false

/-- D3HOT_ENTRY: as a clear of Bus Master Enable (R427). -/
def execD3hotEntry (f : Func) (s : State) : Host.Outcome State Fault Refusal := s.whenUp fun s => s.clearBme f true

/-- Step 7: a function is NORMAL again; one head word per queue, then the held messages. -/
def State.fnNormal (s : State) (f : Func) : State :=
  let vecs := (s.fn f).heldVecs
  let s := (s.wr .HI_FN_STATE_STATE (fnIdx f) 0).disarm (.quiesce f)
  let s := s.updFn f fun n => { n with
    heldHeads := [], heldVecs := [], pendingVec := n.pendingVec.filter fun v => !vecs.contains v }
  let s := forEach State.writeHead (s.boundQueues fun q => decide (s.qFunc q = f)) s
  forEach (fun s v => s.msix f v) vecs s

/-- BME_SET (R438 step 7, R439). While an FLR runs it has no effect (R440). -/
def execBmeSet (f : Func) (s : State) : Host.Outcome State Fault Refusal :=
  s.whenUp fun s =>
    if !s.fnExists f || decide (s.fnState f = 3) then s
    else
      let s := s.updFn f fun n => { n with bme := true, d3 := false }
      if s.fnState f = 0 then s else s.fnNormal f

/-- QUIESCE_EXPIRY: 10 ms after the clear the function is REFUSING (R438 step 6). One whose FLR still runs waits for its end. -/
def execQuiesceExpiry (f : Func) (s : State) : Host.Outcome State Fault Refusal :=
  match s.timers.look (.quiesce f) with
  | none => .next s
  | some t =>
    let s := s.setNow t
    if s.fnState f = 1 then ((s.wr .HI_FN_STATE_STATE (fnIdx f) 2).disarm (.quiesce f)).fin else .next s

/-! ## Function-level reset (R440, R441) -/

/-- Steps 1 to 4 of an FLR of one function: held head words and messages are discarded with its configuration space. -/
def State.flrOne (s : State) (f : Func) : State :=
  if s.fnState f = 3 then s
  else
    let s := (s.dropFunc f 3 4).dropLocks (identHost f)
    let s := s.wrAll (fnIdx f) [(.HI_FN_STAT_DB_FOREIGN, 0), (.HI_FN_STAT_REG_FOREIGN, 0), (.HI_FN_STAT_WIN_MISS, 0)]
    let s := { s with fns := s.fns.del f }
    (s.armIn (.quiesce f) (ms 10)).armIn (.flr f) 0

/-- The virtual functions of a port that exist. -/
def State.vfsOn (s : State) (p : Nat) : List Func :=
  ((List.range 252).map fun k => p * 256 + k + 1).filter s.fnExists

/-- VF Enable of a port is cleared: every VF undergoes an FLR and then ceases to exist. -/
def State.clearVfs (s : State) (p : Nat) : State :=
  let vs := s.vfsOn p
  let s := { s with vfEnable := s.vfEnable.filter (fun k => decide (k ≠ p)), vfLeaving := (s.vfLeaving ++ vs).eraseDups }
  forEach State.flrOne vs s

/-- An FLR of a function; one of a PF clears VF Enable. -/
def State.flrFunc (s : State) (f : Func) : State :=
  if !s.fnExists f then s
  else
    let s := s.flrOne f
    if f % 256 = 0 then s.clearVfs (f / 256) else s

/-- FLR (R440). -/
def execFlr (f : Func) (s : State) : Host.Outcome State Fault Refusal := s.whenUp fun s => s.flrFunc f

/-- FLR_COMPLETE: STATE becomes QUIESCING; a VF whose VF Enable was cleared ceases to exist (R440 step 5, R441). -/
def execFlrComplete (f : Func) (s : State) : Host.Outcome State Fault Refusal :=
  s.whenDue (.flr f) fun s =>
    if s.vfLeaving.contains f then
      let s := { s with vfLeaving := s.vfLeaving.filter fun g => decide (g ≠ f) }
      if s.fnExists f then s.wr .HI_FN_STATE_STATE (fnIdx f) 1
      else ((s.wr .HI_FN_STATE_STATE (fnIdx f) 0).disarm (.quiesce f)).settleAll
    else s.wr .HI_FN_STATE_STATE (fnIdx f) 1

/-- VF_ENABLE_CLEAR (R441). -/
def execVfEnableClear (p : Nat) (s : State) : Host.Outcome State Fault Refusal :=
  s.whenUp fun s => if s.vfEnable.contains p && decide (s.fnState (p * 256) ≠ 3) then s.clearVfs p else s

/-- VF_ENABLE_SET: the virtual functions up to NumVFs, at most 252, come into existence (R428). A PF in FLR takes no configuration
write (R440). -/
def execVfEnableSet (p numVfs : Nat) (s : State) : Host.Outcome State Fault Refusal :=
  s.whenUp fun s =>
    if 2 ≤ p ∨ !s.fnExists (p * 256) ∨ s.fnState (p * 256) = 3 ∨ 252 < numVfs then s
    else { s.wr .HI_PORT_NUMVFS p numVfs with vfEnable := s.vfEnable.filter (fun k => decide (k ≠ p)) ++ [p] }

/-! ## MSI-X -/

/-- The vectors of a function (R435). -/
def vectorsOf (f : Func) : Nat := if f % 256 = 0 then 2048 else 64

/-- A vector is unmasked: a pending message is sent, or held while its function is not NORMAL (R435, R438 step 4). -/
def State.unmaskVec (s : State) (f : Func) (vec : Nat) : State :=
  let pend := (s.fn f).pendingVec.contains vec
  let s := s.updFn f fun n => { n with unmasked := n.unmasked.filter (fun v => decide (v ≠ vec)) ++ [vec] }
  if !pend || (s.fn f).heldVecs.contains vec then s
  else (s.updFn f fun n => { n with pendingVec := n.pendingVec.filter fun v => decide (v ≠ vec) }).msix f vec

/-- MSIX_UNMASK. -/
def execMsixUnmask (f : Func) (vec : Nat) (s : State) : Host.Outcome State Fault Refusal :=
  s.whenUp fun s =>
    if !s.fnExists f || decide (s.fnState f = 3) || decide (vectorsOf f ≤ vec) then s else s.unmaskVec f vec

end Sys2Proof.Machine
end

