-- ==== Sys2Proof/Machine/Sensors.lean ====
section
/-! DEFINITION. Sensors (R452, R453, R464) and the pace governor (R33 to R43), which reads the pace monitors among them. -/

namespace Sys2Proof.Machine

/-! ## Sensors -/

/-- The address-map block number of the management mailbox and of the power block (R454). -/
def blkMgmt : Nat := 0x80
def blkPower : Nat := 0x0F

/-- The refresh period of a sensor, in ticks (R452). -/
def sensorPeriod (i : Nat) : Nat :=
  if i < 48 then ms 1 else if i < 80 then us 100 else if i < 144 then us 1 else if i = 144 then ms 10 else ms 1

/-- Whether a reading lies beyond a threshold (R453). -/
def State.beyond (s : State) (i v : Nat) (f : Fld) : Bool :=
  if s.flag .MG_SENS_THR_LOW i then decide (signedOf 16 v < signedOf 16 (s.rd f i))
  else decide (signedOf 16 (s.rd f i) < signedOf 16 v)

/-- WARN and CRIT of a sensor for its reading: each change writes a record, and CRIT raises the sensor's fault source (R453). -/
def State.sensorJudge (s : State) (i v : Nat) : State :=
  let w := s.beyond i v .MG_SENS_THR_WARN
  let c := s.beyond i v .MG_SENS_THR_CRIT
  let note (s : State) (f : Fld) (b : Bool) : State :=
    if s.flag f i = b then s else (s.setFlag f i b).logRec 1 blkMgmt .sensor i [v, if b then 1 else 0]
  let rise := c && !s.flag .MG_SENS_CRIT i
  let s := note (note s .MG_SENS_WARN w) .MG_SENS_CRIT c
  if rise then s.raise (256 + i) else s

/-- A reading of a sensor; a pace monitor's is PACE of its monitor register too (R36, R452). -/
def State.sensorTake (s : State) (i v : Nat) : State :=
  let s := s.wrAll i [(.MG_SENS_VALUE, v), (.MG_SENS_FAIL, 0)]
  let s := { s with sensAt := s.sensAt.put i s.now }
  let s := if 80 ≤ i ∧ i < 144 then s.wr .PW_PACE_MON_PACE (i - 80) v else s
  s.sensorJudge i (v % 65536)

/-- SENSOR_READING (R453). -/
def execSensorReading (i v : Nat) (s : State) : Host.Outcome State Fault Refusal :=
  s.whenRef fun s => if i < 147 then s.sensorTake i v else s

/-- SENSOR_FAIL: no reading for 10 refresh periods; the last VALUE stays (R453). -/
def execSensorFail (i : Nat) (s : State) : Host.Outcome State Fault Refusal :=
  s.whenRef fun s =>
    if 147 ≤ i then s
    else
      let s := s.setNow ((s.sensAt.look i).getD 0 + 10 * sensorPeriod i)
      s.wr .MG_SENS_FAIL i 1

/-- The internal address of MG_SENS_THR[i]. -/
def sensThrAddr (i : Nat) : Nat := 0x00_0100_2000 + 8 * i

/-- A write of a sensor's thresholds: rejected whole where CRIT is nearer to normal than WARN (R464); a sensor that was read is judged
again. -/
def State.writeSensThr (s : State) (i v : Nat) : State :=
  let c := signedOf 16 (Fld.of .MG_SENS_THR_CRIT v)
  let w := signedOf 16 (Fld.of .MG_SENS_THR_WARN v)
  if (if Fld.of .MG_SENS_THR_LOW v = 1 then w < c else c < w) then s.logRejected (sensThrAddr i)
  else
    let s := s.setFields i v [.MG_SENS_THR_CRIT, .MG_SENS_THR_WARN, .MG_SENS_THR_LOW]
    if (s.sensAt.look i).isSome then s.sensorJudge i (s.rd .MG_SENS_VALUE i) else s

/-- MG_SENS_THR_WRITE (R464). -/
def execMgSensThrWrite (i v : Nat) (s : State) : Host.Outcome State Fault Refusal :=
  s.whenRef fun s => if i < 147 then s.writeSensThr i v else s

/-! ## The pace governor -/

/-- The slowest monitor and its reading; of equals the lowest-numbered (R39). -/
def State.slowest (s : State) : Nat × Nat :=
  (List.range 64).foldl (fun b m => let v := s.rd .PW_PACE_MON_PACE m; if v < b.2 then (m, v) else b) (0, s.rd .PW_PACE_MON_PACE 0)

/-- MARGIN_MV: CEIL_MV less VOLT_MV; a free value where a lowered CEIL_MV makes that negative. -/
def State.setMargin (s : State) : State :=
  let c := s.rd .PW_PACE_CTL_CEIL_MV
  let v := s.rd .PW_PACE_STATUS_VOLT_MV
  if v ≤ c then s.wr .PW_PACE_STATUS_MARGIN_MV 0 (c - v)
  else (s.wr .PW_PACE_STATUS_MARGIN_MV 0 (s.freeVal 12)).freeNext

/-- Request a voltage of the core regulator; 100 microseconds run for its acknowledgement (R39, R42). -/
def State.askVolt (s : State) (mv : Nat) : State :=
  let s := (s.wr .PW_PACE_STATUS_VOLT_MV 0 mv).setMargin
  { (s.emit (.avs mv)).armIn .avs (us 100) with avs := some ⟨mv, 1⟩ }

/-- The voltage that the governor wants now (R39, R41, R43, R492). -/
def State.wantVolt (s : State) (reading : Nat) : Nat :=
  let lo := s.rd .PW_PACE_CTL_FLOOR_MV
  let hi := s.rd .PW_PACE_CTL_CEIL_MV
  let v := s.rd .PW_PACE_STATUS_VOLT_MV
  let t := s.rd .PW_PACE_CTL_TARGET
  if s.flag .PW_STATUS_PARKED then lo
  else if s.flag .PW_PACE_CTL_MODE then s.rd .PW_PACE_CTL_FIXED_MV
  else if reading * 1000 < t * 995 then max lo (min hi (v + 5))
  else if t * 102 < reading * 100 then min hi (max lo (v - 5))
  else v

/-- SHORT: the target is not reached at CEIL_MV; one record when it sets (R41). -/
def State.judgeShort (s : State) (reading : Nat) : State :=
  let low := decide (reading * 1000 < s.rd .PW_PACE_CTL_TARGET * 995)
  if s.flag .PW_PACE_CTL_MODE then s
  else if !low then s.wr .PW_PACE_STATUS_SHORT 0 0
  else if s.rd .PW_PACE_STATUS_VOLT_MV = s.rd .PW_PACE_CTL_CEIL_MV ∧ !s.flag .PW_PACE_STATUS_SHORT then
    (s.wr .PW_PACE_STATUS_SHORT 0 1).logRec 1 blkPower .paceShort 0 [reading]
  else s

/-- One evaluation of the governor: none while a request is outstanding, after AVS_FAIL, or before main reset ends (R39, R42, R490). The
estimate of the pace at CEIL_MV is a free value. -/
def State.paceEval (s : State) (readings : List (Nat × Nat)) : State :=
  let s := readings.foldl (fun s r => if r.1 < 64 then s.sensorTake (80 + r.1) r.2 else s) s
  let b := s.slowest
  let s := s.wrAll 0 [(.PW_PACE_STATUS_SLOWEST, b.2), (.PW_PACE_STATUS_SLOW_MON, b.1), (.PW_PACE_STATUS_PACE_AT_CEIL, s.freeVal 16)]
  let s := s.freeNext
  if s.avs.isSome || s.flag .PW_PACE_STATUS_AVS_FAIL || decide (s.phase ≠ .running) then s
  else
    let s := s.judgeShort b.2
    let v := s.wantVolt b.2
    if v = s.rd .PW_PACE_STATUS_VOLT_MV then s.setMargin else s.askVolt v

/-- The next evaluation comes 2 microseconds after this one, or after the acknowledgement of its request (R39). -/
def State.paceNext (s : State) : State := if s.avs.isSome then s else s.armIn .pace (us 2)

/-- PACE_EVALUATION, at its time where one is set (R39). -/
def execPaceEvaluation (readings : List (Nat × Nat)) (s : State) : Host.Outcome State Fault Refusal :=
  s.whenRef fun s =>
    let s := match s.timers.look .pace with
      | some t => (s.setNow t).disarm .pace
      | none => s
    (s.paceEval readings).paceNext

/-- AVS_ACK: the regulator acknowledged the request; the governor evaluates 2 microseconds later (R39). -/
def execAvsAck (s : State) : Host.Outcome State Fault Refusal :=
  s.whenRef fun s => if s.avs.isNone then s else State.paceNext { s.disarm .avs with avs := none }

/-- AVS_TIMEOUT: the request is repeated twice more; then AVS_FAIL (R42). -/
def execAvsTimeout (s : State) : Host.Outcome State Fault Refusal :=
  s.whenDue .avs fun s =>
    match s.avs with
    | none => s
    | some a =>
      if a.attempts < 3 then { (s.emit (.avs a.volt)).armIn .avs (us 100) with avs := some { a with attempts := a.attempts + 1 } }
      else (State.paceNext { s.wr .PW_PACE_STATUS_AVS_FAIL 0 1 with avs := none }).raise 233

/-- AVS_FAIL_CLEAR: AVS_FAIL is written 1 (R42). -/
def execAvsFailClear (s : State) : Host.Outcome State Fault Refusal :=
  s.whenRef fun s => s.wr .PW_PACE_STATUS_AVS_FAIL 0 0

/-- The internal address of PW_PACE_CTL. -/
def paceCtlAddr : Nat := 0x0F_0000_0400

/-- A write of PW_PACE_CTL: accepted or rejected whole (R43). The governor reads it at its next evaluation, which follows the
acknowledgement of an outstanding request. -/
def State.writePaceCtl (s : State) (v : Nat) : State :=
  let lo := Fld.of .PW_PACE_CTL_FLOOR_MV v
  let hi := Fld.of .PW_PACE_CTL_CEIL_MV v
  let fx := Fld.of .PW_PACE_CTL_FIXED_MV v
  if lo < 660 ∨ hi < 680 ∨ 900 < hi ∨ fx < lo ∨ hi < fx ∨ hi < lo then s.logRejected paceCtlAddr
  else s.setFields 0 v [.PW_PACE_CTL_FLOOR_MV, .PW_PACE_CTL_CEIL_MV, .PW_PACE_CTL_FIXED_MV, .PW_PACE_CTL_TARGET, .PW_PACE_CTL_MODE]

/-- PW_PACE_CTL_WRITE (R43). -/
def execPwPaceCtlWrite (v : Nat) (s : State) : Host.Outcome State Fault Refusal := s.whenRef fun s => s.writePaceCtl v

/-- PACE_GRADIENT_WARNING: the warning of a region stands, one record (R38). -/
def execPaceGradientWarning (region : Nat) (s : State) : Host.Outcome State Fault Refusal :=
  s.whenRef fun s =>
    if 24 ≤ region then s
    else { s.logRec 1 blkPower .paceGradient region [region] with
      gradients := s.gradients.filter (fun r => decide (r ≠ region)) ++ [region] }

/-- PACE_GRADIENT_FAULT: the larger difference has lasted 10 microseconds (R38). -/
def execPaceGradientFault (region : Nat) (s : State) : Host.Outcome State Fault Refusal :=
  s.whenRef fun s => if region < 24 then s.raise 232 else s

end Sys2Proof.Machine
end

