-- ==== Sys2Proof/Machine/KeyOps.lean ====
section
/-! DEFINITION. The shared operations of jobs and keys (R49 to R74): opening a slot, key requests and answers, renewal, sealed blobs,
SPDM sessions, and the bodies of JOB-OPEN, KEY-INSTALL and JOB-CLOSE. -/

namespace Sys2Proof.Machine

/-- A privileged command from an entry point (R14): the fatal state stops the queues and the network, not Iamel (R473). -/
def State.privRow (s : State) (src : CmdSrc) (op : PrivOp) (p : Priv) (x : PrivData) (body : State → State × Option Nat) :
    Host.Outcome State Fault Refusal :=
  s.whenUp fun s =>
    match src with
    | .iamel _ => s.runPriv src op p x body
    | .mg _ _ _ => if s.fatal then s else s.mgTake fun s => s.runPriv src op p x body
    | .queue _ => if s.fatal then s else s.runPriv src op p x body

/-! ## Measurements (R69) -/

/-- A measurement slot; one that nothing has measured is 0. -/
def State.measOf (s : State) (k : Nat) : List Byte := (s.meas.look k).getD (leBytes 48 0)

/-- The measurement slots that enter the boot measurement digest (R69). -/
def bootSlots : List Nat := [0, 1, 2, 3, 4, 5, 15]

/-- Those slots, as a key exchange shows them (R56, R69). -/
def State.summary (s : State) : List (List Byte) := bootSlots.map s.measOf

/-- The boot measurement digest (R69): of slots 0 to 5, then 15. -/
def State.bootDigest (s : State) : List Byte := digestOf s.summary.flatten

/-- Extend a measurement slot with a digest (R69): the slot becomes the digest of what it held and the new one (log 9). -/
def State.extendMeas (s : State) (slot : Nat) (digest : List Byte) : State :=
  { s with meas := s.meas.put slot (digestOf (s.measOf slot ++ digest)) }

/-! ## Messages -/

/-- An MG packet without AUTH to a node's management agent (R288). -/
def State.sendMg (s : State) (node ty : Nat) (m : MgBody) : State :=
  s.emit (.packet {
    ptype := ty, cls := 3, dest := node * 4096 + 0xFFF, src := s.nodeId * 4096 + 0xFFF, ts := s.now % 2 ^ 32, length := (MgBody.bytes m).length,
    body := .mg none false 0 0 (leBytes 16 0) m })

/-- This device's key message (R56): its chain and measurement summary, signed by its identity key, whose nonce is drawn. -/
def State.keyMsg (s : State) (want : Option Nat) (start : Nat) (eph wrapped : List Byte) : KeyMsg :=
  let m : KeyMsg := ⟨want, start, eph, s.chain, s.summary, wrapped, [], []⟩
  let g := signWith s.identity (s.freeVal 384) (KeyMsg.body m)
  { m with sigR := g.1, sigS := g.2 }

/-- Whether a job accepts a measurement summary (R66, R69): slot 15 shows locked, and each of slots 0 to 5 with accepted entries shows one of
the digests listed for it. -/
def Job.accepts (b : Job) (summary : List (List Byte)) : Bool :=
  decide (summary.length = 7 ∧ summary[6]? = some (leBytes 48 0))
    && (List.range 6).all fun k =>
      let l := (b.accepted.filter fun a => decide (a.1 = k)).map (·.2)
      l.isEmpty || (match summary[k]? with | some d => l.contains (leNat d) | none => false)

/-- The checks of step 5 of the JOB-OPEN table on a key message of the device with a serial number (R56): its chain leads to the Welrirel root,
its device certificate names that device, the identity key signed it, and its measurements are accepted. -/
def State.keyMsgOk (s : State) (b : Job) (m : KeyMsg) (serial : Nat) : Bool :=
  match chainLeaf s.rootDigest m.chain with
  | some c => decide (c.serial = serial) && signedBy c.key (KeyMsg.body m) m.sigR m.sigS && b.accepts m.summary
  | none => false

/-- `n` bytes that the manual leaves open (log 8). -/
def State.freeBytes (s : State) (n : Nat) : List Byte := (List.range n).map fun k => byteOf (Config.freeValue s.free) k

/-! ## Sealed blobs (R66) -/

/-- The key of this device's sealed blobs (R66; HKDF's info is the model's, log 31). -/
def State.blobKey (s : State) : Nat := hkdf384 (toBe 32 s.sealSecret) [0x73, 0x65, 0x61, 0x6c]

/-- The bytes of a sealed blob (R66). -/
def blobBytes (key : Nat) (head iv : List Byte) (jobKey : Nat) : List Byte :=
  head ++ iv ++ bytesOfNats (gcmSeal key (natsOf iv) (natsOf head) (toBe 32 jobKey)) ++ leBytes 4 0

/-- The job key in a sealed blob, where its tag verifies (R66). -/
def blobOpen (key : Nat) (bs : List Byte) : Option Nat :=
  (gcmOpen key (natsOf ((bs.drop 80).take 12)) (natsOf (bs.take 80)) (natsOf ((bs.drop 92).take 48))).map ofBe

/-- Write the sealed blob of a slot's current generation where its command named (R66). -/
def State.sealOut (s : State) (j : Nat) : State :=
  let b := s.job j
  match b.sealOut, b.keys.look b.gen with
  | true, some k =>
    let head := leBytes 1 1 ++ leBytes 3 0 ++ leBytes 3 (s.rd .GLB_JOB_JOB_ID j) ++ leBytes 1 b.gen
      ++ leBytes 8 (s.rd .GLB_SERIAL_SERIAL) ++ leBytes 8 (b.genStart + sec 90000) ++ leBytes 8 0 ++ s.bootDigest
    let loc := mkLoc 0 (s.flag .QU_CFG_LOC 0) b.blob
    ((s.askSegs true [(loc, 140)]).writeLoc loc (blobBytes s.blobKey head (s.freeBytes 12) k)).freeNext
  | _, _ => s

/-! ## Opening a slot (R55 to R57) -/

/-- The index of this device in a member list. -/
def State.posIn (s : State) (ms : List (Nat × Nat)) : Nat := (ms.findIdx? fun m => decide (m = (s.nodeId, s.rd .GLB_SERIAL_SERIAL))).getD 0

/-- Whether two ranges of package pages overlap; FIRST above LAST holds none. -/
def pagesMeet (a b c d : Nat) : Bool := decide (a ≤ b ∧ c ≤ d ∧ a ≤ d ∧ c ≤ b)

/-- The slots of R413 that another job has locked: those LOCKED and not of the job with this ID. -/
def State.lockedElse (s : State) (jobId : Nat) : List Nat :=
  let own := match s.slotOf jobId with | some j => (s.job j).asids.filterMap s.asidSlot | none => []
  (s.setOf .TX_ASID_LOCKED).filter fun a => !own.contains a

/-- Whether JOB-OPEN may lock the ASIDs of its list (R413). -/
def State.asidsOk (s : State) (jobId : Nat) (as : List Nat) : Bool :=
  as.all fun v =>
    match s.asidSlot v with
    | none => false
    | some a =>
      let first := s.rd .TX_PKG_FIRST a
      let last := s.rd .TX_PKG_LAST a
      !(s.lockedElse jobId).contains a && !pagesMeet first last 0x380000 0x3FFFFF
        && (s.lockedElse jobId).all fun b => !pagesMeet first last (s.rd .TX_PKG_FIRST b) (s.rd .TX_PKG_LAST b)

/-- What R409, R413 and R56 ask of a JOB-OPEN or KEY-INSTALL once its token has passed; 0 where a slot is free for it. -/
def State.openCause (s : State) (jobId : Nat) (b : JobBlock) : Nat :=
  if s.flag .LK_CFG_MAINT || !s.asidsOk jobId b.asids then cState
  else if s.freeSlot.isNone then cJobFull
  else if (s.slotOf jobId).isSome then cJobActive
  else 0

/-- Take a FREE slot for a job (R56 step 2): KEYING, its fields recorded, its ASID slots locked. -/
def State.takeSlot (s : State) (j jobId : Nat) (b : JobBlock) (t : Token) (p : Priv) (src : CmdSrc) : State :=
  let x : Job := {
    members := b.members, pos := s.posIn b.members, asids := b.asids, tallyBase := b.tallyBase, tallyCount := b.tallyCount,
    accepted := b.accepted, whistleMask := b.whistleMask, whistleTally := b.whistleTally, serial := t.serial, notAfter := t.notAfter,
    sealOut := p.sealOut, blob := b.blob, openSrc := some (src, p.ltally), reqTo := (s.posIn b.members - 1) / 64 }
  let s := { s with jobs := s.jobs.put j x }
  let s := s.wrAll j [(.GLB_JOB_JOB_ID, jobId), (.GLB_JOB_STATE, jobKeying), (.GLB_JOB_MODE, b.mode), (.GLB_JOB_GEN, 0),
    (.GLB_JOB_RENEWING, 0), (.GLB_JOB_SEALED, 0), (.GLB_JOB_LEADER, x.nodeAt 0)]
  forEach (fun s v => match s.asidSlot v with | some a => s.wr .TX_ASID_LOCKED a 1 | none => s) b.asids s

/-- Ticks of 24 h and 25 h. -/
def hours (n : Nat) : Nat := sec (3600 * n)

/-- A generation is in use from a time on: the leader's renewal at 24 h, its expiry at 25 h (R62, R63). -/
def State.genTimers (s : State) (j : Nat) : State :=
  let b := s.job j
  let s := if b.pos = b.leaderPos then s.arm (.renewal j) (b.genStart + hours 24) else s
  s.arm (.genExpiry j) (b.genStart + hours 25)

/-- Install a generation's key in a KEYING slot (R56 step 6): OPEN, and its command completes. -/
def State.installKey (s : State) (j gen start key : Nat) : State :=
  let src := (s.job j).openSrc
  let s := s.disarmAll (TimerKey.ofSlot j)
  let s := s.updJob j fun b => { b with keys := (⟨[]⟩ : Tab Nat Nat).put gen key, eph := 0, gen := gen, genStart := start, openSrc := none, reqFails := 0 }
  let s := { s with mcStreams := s.mcStreams.keep fun k _ => decide (k.1 / 2 ^ 32 ≠ j) }
  let s := (((s.wr .GLB_JOB_STATE j jobOpened).wr .GLB_JOB_GEN j gen).genTimers j).sealOut j
  match src with
  | some r => s.endPriv r 0
  | none => s

/-- Send KEY-REQ to a member, with a new ephemeral key (R56 step 4); `want` names the generation of a renewal. -/
def State.askKey (s : State) (j pos : Nat) (want : Option Nat) : State :=
  let e := s.freeVal 384
  let s := (s.updJob j fun b => { b with eph := e }).freeNext
  (s.sendMg ((s.job j).nodeAt pos) 0x42
    (.keyReq (s.rd .GLB_JOB_JOB_ID j) s.nodeId (s.rd .GLB_SERIAL_SERIAL) (s.keyMsg want 0 (publicKey e) []))).freeNext

/-- Send KEY-REQ to the member it is directed to, and wait 10 ms for an answer (R56 step 4, R57). -/
def State.sendKeyReq (s : State) (j : Nat) : State :=
  (s.askKey j (s.job j).reqTo none).armIn (.keyReqUnanswered j) (ms 10)

/-- The body of JOB-OPEN (R56). The leader draws generation 0 of the job key (step 3). -/
def State.bodyJobOpen (s : State) (src : CmdSrc) (p : Priv) (x : PrivData) : State × Option Nat :=
  let pre := s.privPre src p x true true
  if pre ≠ 0 then (s, some pre)
  else
    match decodeJobBlock (s.blockOf src p x) p.sealOut with
    | none => (s, some cMalformed)
    | some b =>
      let o := s.offer src .jobOpen p x
      match s.checkToken o 0x01 p.arg (s.memberHere b.members) (fun n => decide (s.openSerial < n)) with
      | (s, 0) =>
        let s := { s with openSerial := o.1.serial }
        let c := if s.flag .PW_STATUS_PARKED then cState else s.openCause p.arg b
        if c ≠ 0 then (s, some c)
        else
          match s.freeSlot with
          | none => (s, some cJobFull)
          | some j =>
            let s := s.takeSlot j p.arg b o.1 p src
            if s.posIn b.members = 0 then ((s.freeNext).installKey j 0 s.now (s.freeVal 256), none)
            else ((s.arm (.keyFail j) (o.1.notAfter + 1)).sendKeyReq j, none)
      | (s, c) => (s, some c)

/-- Whether a sealed blob whose tag verifies opens here for a job (R67). -/
def State.blobOk (s : State) (bs : List Byte) (jobId : Nat) : Bool :=
  decide (leAt bs 4 3 = jobId) && decide (leAt bs 8 8 = s.rd .GLB_SERIAL_SERIAL) && decide ((bs.drop 32).take 48 = s.bootDigest)
    && decide (s.now ≤ leAt bs 16 8) && decide ((s.heldGen.look jobId).getD 0 ≤ leAt bs 7 1)

/-- Remember the latest generation held for a job (R67). -/
def State.noteGen (s : State) (jobId gen : Nat) : State :=
  { s with heldGen := s.heldGen.put jobId (max ((s.heldGen.look jobId).getD 0) gen) }

/-- KEY-INSTALL once its token has passed (R67): the slot is OPEN at the blob's generation. -/
def State.installBlob (s : State) (src : CmdSrc) (p : Priv) (t : Token) (bs : List Byte) (b : JobBlock) : State × Option Nat :=
  let s := { s with openSerial := t.serial }
  let c := if s.flag .PW_STATUS_PARKED then cState else s.openCause p.arg b
  if c ≠ 0 then (s, some c)
  else
    match blobOpen s.blobKey bs, s.freeSlot with
    | none, _ => (s, some cBlobInvalid)
    | some key, j =>
      if !s.blobOk bs p.arg then (s, some cBlobInvalid)
      else
        match j with
        | none => (s, some cJobFull)
        | some j =>
          let gen := leAt bs 7 1
          let s := (s.takeSlot j p.arg b t p src).noteGen p.arg gen
          (((s.wr .GLB_JOB_SEALED j 1).installKey j gen (leAt bs 16 8 - hours 25) key), none)

/-- The body of KEY-INSTALL (R67). -/
def State.bodyKeyInstall (s : State) (src : CmdSrc) (p : Priv) (x : PrivData) : State × Option Nat :=
  let pre := s.privPre src p x true true
  if pre ≠ 0 then (s, some pre)
  else
    let bs := s.blockOf src p x
    match decodeJobBlock (bs.drop 144) p.sealOut with
    | none => (s, some cMalformed)
    | some b =>
      if leAt bs 0 1 ≠ 1 ∨ !zeros bs 1 3 ∨ !zeros bs 24 8 ∨ !zeros bs 140 4 then (s, some cMalformed)
      else
        let o := s.offer src .keyInstall p x
        match s.checkToken o 0x03 p.arg (s.memberHere b.members) (fun n => decide (s.openSerial < n)) with
        | (s, 0) => s.installBlob src p o.1 (bs.take 144) b
        | (s, c) => (s, some c)

/-- The body of JOB-CLOSE (the JOB-CLOSE table, R525, R65). Where no slot holds its job, a passing token is consumed: its serial
counts among those of the JOB-OPEN rule that judged it. -/
def State.bodyJobClose (s : State) (src : CmdSrc) (p : Priv) (x : PrivData) : State × Option Nat :=
  let pre := s.privPre src p x true false false
  if pre ≠ 0 then (s, some pre)
  else
    let o := s.offer src .jobClose p x
    match s.slotOf p.arg with
    | none =>
      match s.checkToken o 0x02 p.arg false (fun n => decide (s.openSerial < n)) with
      | (s, 0) => ({ s with openSerial := o.1.serial }, some cTargetRange)
      | (s, c) => (s, some c)
    | some j =>
      match s.jobToken o 0x02 j with
      | (s, 0) =>
        if s.jobState j = jobClosing then (s, some cState)
        else
          let s := forEach (fun s q => s.haltQueue q 5) (s.boundQueues (s.qOfJob j)) s
          (((s.beginClose j (some (src, p.ltally))).closeProgress j).settleAll, none)
      | (s, c) => (s, some c)

/-! ## Requests of other members (R57) -/

/-- Whether position `p` lies in the subtree of position `i` in the key tree (R55). `fuel` is at least its depth. -/
def underPos : Nat → Nat → Nat → Bool
  | 0, _, _ => false
  | n + 1, p, i => decide (p = i) || (decide (0 < p) && underPos n ((p - 1) / 64) i)

/-- Whether this member serves a requester at a position: one of its own subtree, which for the leader is every one (R57, R63). -/
def Job.serves (b : Job) (p : Nat) : Bool := decide (p ≠ b.pos) && (decide (b.pos = b.leaderPos) || underPos 8 p b.pos)

/-- Answer a KEY-REQ with a generation's key, wrapped to the requester's ephemeral key (R56 step 5). -/
def State.answerKey (s : State) (j node gen key : Nat) (m : KeyMsg) : State :=
  let e := s.freeVal 384
  match wrapKey e m.eph with
  | none => s.count uSecurity 3
  | some kek =>
    let s := s.freeNext
    (s.sendMg node 0x43 (.keyResp (s.rd .GLB_JOB_JOB_ID j) gen
      (s.keyMsg m.want (s.job j).genStart (publicKey e) (wrapJobKey kek key)))).freeNext

/-- The generation that a KEY-REQ is answered with: the one that it wants where it is held, else the one in use. -/
def Job.answerGen (b : Job) (m : KeyMsg) : Nat :=
  match m.want with
  | some g => if b.held.contains g then g else b.gen
  | none => b.gen

/-- A KEY-REQ from a device for a job (R57): NOT-YET, KEY-RESP, or no answer. -/
def State.keyReqIn (s : State) (jobId node serial : Nat) (m : KeyMsg) : State :=
  match s.slotOf jobId with
  | none => s.sendMg node 0x44 (.notYet jobId)
  | some j =>
    if s.jobState j = jobKeying then s.sendMg node 0x44 (.notYet jobId)
    else if s.jobState j ≠ jobOpened then s
    else
      let b := s.job j
      match b.members.findIdx? fun m => decide (m = (node, serial)) with
      | none => s.count uSecurity 3
      | some p =>
        let s := s.count uSecurity 4 0 3
        if b.serves p && s.keyMsgOk b m serial then
          match b.keys.look (b.answerGen m) with
          | some k => s.answerKey j node (b.answerGen m) k m
          | none => s.count uSecurity 3
        else s.count uSecurity 3

/-- The parent of a position in the key tree, as the key leader stands in for position 0 (R63). -/
def Job.above (b : Job) (i : Nat) : Nat := if i = 0 then b.leaderPos else let k := (i - 1) / 64; if k = 0 then b.leaderPos else k

/-- A KEY-REQ was not answered (R57): after three in a row the requests go one level up; it repeats. -/
def State.keyUnanswered (s : State) (j : Nat) : State :=
  let f (b : Job) : Job :=
    if b.reqFails + 1 < 3 then { b with reqFails := b.reqFails + 1 } else { b with reqFails := 0, reqTo := b.above b.reqTo }
  (s.updJob j f).sendKeyReq j

/-! ## Renewal (R62, R63) -/

/-- The latest generation held: the one of a renewal while it runs. -/
def Job.newest (b : Job) : Nat := b.held.foldl max b.gen

/-- Whether a renewal runs: a later generation than the one in use is held. -/
def Job.renewing (b : Job) : Bool := decide (b.gen < b.newest)

/-- Tell children of the key tree that the next generation is there: each asks for it with a KEY-REQ (R62 step 1, log 31). -/
def State.distribute (s : State) (j : Nat) (kids : List Nat) : State :=
  let b := s.job j
  let id := s.rd .GLB_JOB_JOB_ID j
  forEach (fun s k =>
    ((s.count uSecurity 4).sendMg (b.nodeAt k) 0x43 (.keyResp id b.newest (s.keyMsg (some b.newest) 0 [] []))).freeNext) kids s

/-- Send SWITCH(T) to the children, and switch at T (R62 step 3). -/
def State.takeSwitch (s : State) (j t : Nat) : State :=
  let b := s.job j
  let id := s.rd .GLB_JOB_JOB_ID j
  let s := s.emits (b.kids.map fun k => .renewal 2 id (b.nodeAt k) t)
  ((s.updJob j fun b => { b with switchAt := some t }).disarm (.renewalRepeat j)).arm (.genSwitch j) t

/-- Tell the parent that this member and all its children hold the next generation (R62 step 2). -/
def State.sendConfirm (s : State) (j : Nat) : State :=
  let b := s.job j
  s.emit (.renewal 1 (s.rd .GLB_JOB_JOB_ID j) (b.nodeAt (b.above b.pos)) 0)

/-- Confirm once this member and all its children hold the next generation; the leader then sends SWITCH, 2 ms ahead (R62 steps 2 and 3). -/
def State.confirmGen (s : State) (j : Nat) : State :=
  let b := s.job j
  if !b.renewing || b.confirmSent || !b.kids.all (fun k => b.confirmed.contains k) then s
  else
    let s := s.updJob j fun b => { b with confirmSent := true }
    if b.pos = b.leaderPos then s.takeSwitch j (s.now + ms 2) else s.sendConfirm j

/-- Hold the next generation: RENEWING, and on to the children (R62 step 1). -/
def State.holdNext (s : State) (j gen key : Nat) : State :=
  let s := s.updJob j fun b => { b with keys := b.keys.put gen key, eph := 0, confirmed := [], confirmSent := false, switchAt := none }
  let s := (s.setFlag .GLB_JOB_RENEWING j true).noteGen (s.rd .GLB_JOB_JOB_ID j) gen
  (s.distribute j (s.job j).kids).confirmGen j

/-- A renewal's notice from the parent (R62, R63): a member that does not hold the generation asks for it; one that does repeats the distribution to
its children that have not confirmed, or its confirmation. -/
def State.noticeIn (s : State) (j gen : Nat) : State :=
  let b := s.job j
  if gen ≤ b.gen then s
  else if !b.held.contains gen then s.askKey j (b.above b.pos) (some gen)
  else if b.confirmSent then (if b.pos = b.leaderPos then s else s.sendConfirm j)
  else s.distribute j (b.kids.filter fun k => !b.confirmed.contains k)

/-- A KEY-RESP for a job (R56 step 5, R62): the key of a KEYING slot, a renewal's notice, or its key. What fails the checks has no effect: the
request counts as unanswered (log 32). -/
def State.keyRespIn (s : State) (jobId gen : Nat) (m : KeyMsg) : State :=
  match s.slotOf jobId with
  | none => s
  | some j =>
    let b := s.job j
    let from' := if s.jobState j = jobKeying then b.reqTo else b.above b.pos
    let ok := s.keyMsgOk b m ((b.members[from']?).getD (0, 0)).2
    let key := (wrapKey b.eph m.eph).bind fun kek => unwrapJobKey kek m.wrapped
    if s.jobState j = jobKeying then
      let s := s.count uSecurity 4 0 3
      match ok, key with
      | true, some k => (s.noteGen jobId gen).installKey j gen m.start k
      | _, _ => s
    else if s.jobState j ≠ jobOpened then s
    else if m.wrapped.isEmpty then (if ok then (s.count uSecurity 4).noticeIn j gen else s.count uSecurity 4)
    else
      let s := s.count uSecurity 4 0 3
      match ok && decide (b.gen < gen) && !b.held.contains gen, key with
      | true, some k => s.holdNext j gen k
      | _, _ => s

/-- The generation changes at T (R62 step 4): senders' epochs and counters restart, a new multicast stream starts with its next packet
(R61, R157), the epochs received so far stay those of the old generation, and K[g] goes 1 ms later. -/
def State.switchGen (s : State) (j : Nat) : State :=
  let old := (s.job j).gen % 4
  let next := (s.job j).newest
  let new := next % 4
  let id := s.rd .GLB_JOB_JOB_ID j
  let s := s.updJob j fun b => { b with gen := next, genStart := s.now, switchAt := none }
  let s := s.wr .GLB_JOB_GEN j next
  let f (x : Ctx) : Ctx :=
    if x.slot = j then
      let e := (x.rxOther.look new).getD (0, false)
      { x with epoch := 0, txc := 0, rxEpoch := e.1, rxNext := e.2, rxOther := (x.rxOther.del new).put old (x.rxEpoch, x.rxNext) }
    else x
  let g (k : Nat) (m : ClosedCtx) : ClosedCtx := if k / 2 ^ 64 = id then { m with epoch := 0, txc := 0 } else m
  let ctxs : Tab Nat Ctx := ⟨s.ctxs.cells.map fun c => (c.1, f c.2)⟩
  let closed : Tab Nat ClosedCtx := ⟨s.closed.cells.map fun c => (c.1, g c.1 c.2)⟩
  let s := { s with ctxs := ctxs, closed := closed, mcStreams := s.mcStreams.keep fun k _ => decide (k.1 / 2 ^ 32 ≠ j) }
  ((s.armIn (.oldGen j) (ms 1)).genTimers j).sealOut j

/-- The member at a position stands in for position 0 (R63). In a renewal, a member whose parent it becomes confirms to it again; the new leader
itself starts with the children that it takes over: it sends them SWITCH where it has one, else the distribution goes on. -/
def State.newLeader (s : State) (j pos : Nat) : State :=
  let old := s.job j
  let s := (s.updJob j fun b => { b with leaderPos := pos }).wr .GLB_JOB_LEADER j (old.nodeAt pos)
  let b := s.job j
  if s.jobState j ≠ jobOpened then s
  else
    let s := s.genTimers j
    if !b.renewing then s
    else if b.pos = pos then
      match b.switchAt with
      | some t => s.takeSwitch j t
      | none => ((s.updJob j fun b => { b with confirmSent := false }).confirmGen j).arm (.renewalRepeat j) s.now
    else if b.confirmSent ∧ b.above b.pos ≠ old.above b.pos then s.sendConfirm j
    else s

/-! ## Debug and fabric-manager tokens (R53, R73) -/

/-- A debug token against the challenge read before (R73): the challenge is good for one attempt. -/
def State.unlock (s : State) (bs : List Byte) : State :=
  match s.challenge with
  | none => s
  | some n =>
    let t := decodeToken bs
    let s := { s with challenge := none }.disarm .challenge
    let level := if t.kind = 0x21 then 2 else 1
    if (t.kind ≠ 0x20 ∧ t.kind ≠ 0x21) ∨ (t.kind = 0x21 ∧ !s.ownerAccepted) then s.logRec 1 0x0B .authFailed 0 [t.kind, 0x42]
    else
      match s.grantToken (t, digestOf (bytesOfNats (toBe 48 n))) t.kind 0 with
      | (s, 0) =>
        let s := { s.zeroiseAll.settleAll with ownerAccepted := true }
        let s := { s with meas := s.meas.put 15 (leBytes 48 level) }
        s.wr .GLB_SEC_STATE_DEBUG 0 (max (s.rd .GLB_SEC_STATE_DEBUG) level)
      | (s, _) => s

/-- What JTAG may read (R73): once unlocked, the registers outside the security block (R28: block 0x0B). -/
def State.jtagReads (s : State) (addr : Nat) : Bool := decide (0 < s.rd .GLB_SEC_STATE_DEBUG ∧ addr / 2 ^ 32 ≠ 0x0B)

/-! ## SPDM sessions (R53, R71, R72) -/

/-- The SPDM sessions held at once (R71). -/
def maxSpdm : Nat := 8

/-- End a session, a fabric manager's included (R53, R71). -/
def State.endSession (s : State) (id : Nat) : State :=
  { s with
    fmSessions := s.fmSessions.filter (fun f => decide (f.id ≠ id)), spdm := s.spdm.filter fun f => decide (f.id ≠ id) }.disarm (.fmSession id)

/-- The session idle longest. -/
def oldestFm : List FmSession → Option Nat
  | [] => none
  | f :: r => some (r.foldl (fun a b => if b.used < a.used then b else a) f).id

/-- A session becomes a fabric manager's under its grant, or its grant is renewed (R53): a third replaces the one idle longest. -/
def State.openFm (s : State) (t : Token) (x : Spdm) : State :=
  let renew (f : FmSession) : FmSession := if f.id = x.id then { f with notAfter := t.notAfter, used := s.now } else f
  if s.fmSessions.any fun f => decide (f.id = x.id) then
    { s with fmSessions := s.fmSessions.map renew }.arm (.fmSession x.id) (t.notAfter + 1)
  else
    let new : FmSession := ⟨x.id, t.notAfter, s.now, none, x.key⟩
    let s := if s.fmSessions.length < 2 then s else match oldestFm s.fmSessions with | some k => s.endSession k | none => s
    { s with fmSessions := s.fmSessions ++ [new] }.arm (.fmSession x.id) (t.notAfter + 1)

/-- FINISH of a session (R53): plain, or with a fabric manager's mutual authentication under the key that its grant names, over MCTP or in MG
packets. -/
def State.finishSession (s : State) (x : Spdm) (auth : Option FmAuth) : State × SpdmRsp :=
  let done (s : State) : State := { s with spdm := s.spdm.map fun f => if f.id = x.id then { f with finished := true } else f }
  match auth with
  | none => (done s, .done x.id)
  | some a =>
    let doe := match x.via with | .doe _ => true | _ => false
    if doe || !signedBy a.key x.th a.sigR a.sigS then (s.count uSecurity 3, .error cAuthSig)
    else
      let o : Offer := (decodeToken a.token, digestOf a.key)
      match s.grantToken o 0x10 0 with
      | (s, 0) => ((done s).openFm o.1 x, .done x.id)
      | (s, c) => (s, .error c)

/-- Change an IDE stream of a port, and show in HI_PORT whether its link stream is active (R72). -/
def State.setIde (s : State) (port stream : Nat) (x : IdeStream) : State :=
  let s := { s with ide := s.ide.put (port, stream) x }
  if stream = 0 then s.setFlag .HI_PORT_IDE_LINK port x.active else s

/-- An IDE_KM request in a session on DOE (R72): a key for a stream of that port, its start, or its stop. Stream 0 is the link stream. -/
def State.ideIn (s : State) (x : Spdm) (stream : Nat) (f : IdeStream → Option IdeStream) : State × SpdmRsp :=
  match x.via with
  | .doe port =>
    if port ≤ 1 ∧ stream ≤ 8 ∧ x.finished then
      match f ((s.ide.look (port, stream)).getD {}) with
      | some i => (s.setIde port stream i, .done x.id)
      | none => (s, .error cState)
    else (s, .error cTargetRange)
  | _ => (s, .error cTargetRange)

/-- The signature that answers an SPDM request, over its nonce and what the answer shows (log 31). -/
def State.attest (s : State) (bs : List Byte) : List Byte × List Byte := signWith s.identity (s.freeVal 384) bs

/-- An SPDM request: the state after it and its answer (R71, R53, R72). A request of a session comes on the session's own transport. -/
def State.spdmAnswer (s : State) (via : SpdmVia) (r : SpdmReq) : State × SpdmRsp :=
  let inSession (id : Nat) (f : Spdm → State × SpdmRsp) : State × SpdmRsp :=
    match s.spdm.find? fun x => decide (x.id = id ∧ x.via = via) with
    | some x => f x
    | none => (s, .error cState)
  match r with
  | .getVersion => (s, .version 1 3)
  | .getCapabilities => (s, .capabilities)
  | .negotiateAlgorithms => (s, .algorithms [.ecdsaP384, .sha384, .ecdheP384, .aes256Gcm])
  | .getDigests => (s, .digests [digestOf (s.chain.flatMap Cert.bytes)])
  | .getCertificate => (s, .certificate s.chain)
  | .challenge nonce =>
    let g := s.attest (nonce ++ s.summary.flatten)
    ((s.count uSecurity 4).freeNext, .challengeAuth g.1 g.2)
  | .getMeasurements nonce =>
    let l := (List.range 16).map fun k => (k, s.measOf k)
    let g := s.attest (nonce ++ (l.map (·.2)).flatten)
    ((s.count uSecurity 4).freeNext, .measurements l g.1 g.2)
  | .keyExchange id eph th =>
    if maxSpdm ≤ s.spdm.length ∨ s.spdm.any (fun x => decide (x.id = id)) then (s, .error cState)
    else
      let e := s.freeVal 384
      match wrapKey e eph with
      | none => (s.count uSecurity 3, .error cAuthSig)
      | some key =>
        let new : Spdm := ⟨id, via, th, key, false⟩
        let s := { s.freeNext with spdm := s.spdm ++ [new] }
        let g := s.attest th
        ((s.count uSecurity 4 0 2).freeNext, .keyExchange id (publicKey e) g.1 g.2)
  | .finish id auth => inSession id fun x => s.finishSession x auth
  | .keyUpdate id =>
    inSession id fun x =>
      let key := s.freeVal 256
      ({ s.freeNext with
          spdm := s.spdm.map fun f => if f.id = x.id then { f with key := key } else f,
          fmSessions := s.fmSessions.map fun f => if f.id = x.id then { f with key := key } else f }, .done id)
  | .heartbeat id => inSession id fun _ => (s, .done id)
  | .endSession id => inSession id fun _ => (s.endSession id, .done id)
  | .ideKeyProg id stream key => inSession id fun x => s.ideIn x stream fun i => some { i with key := some key }
  | .ideGo id stream => inSession id fun x => s.ideIn x stream fun i => if i.key.isSome then some { i with active := true } else none
  | .ideStop id stream => inSession id fun x => s.ideIn x stream fun i => some { i with active := false }

/-- An SPDM request is answered on the transport that it came by. -/
def State.spdmIn (s : State) (via : SpdmVia) (r : SpdmReq) : State :=
  match s.spdmAnswer via r with
  | (s, a) => s.emit (.spdm via a)

end Sys2Proof.Machine
end

