-- ==== Sys2Proof/Machine/Keys.lean ====
section
/-! DEFINITION. The meanings of the rows on jobs, keys and trust (R49 to R74, R525). -/

namespace Sys2Proof.Machine

/-- JOB_OPEN (R56). -/
def execJobOpen (src : CmdSrc) (p : Priv) (x : PrivData) (s : State) : Host.Outcome State Fault Refusal :=
  s.privRow src .jobOpen p x fun s => s.bodyJobOpen src p x

/-- KEY_REQ_RECEIVE (R57). -/
def execKeyReqReceive (jobId node serial : Nat) (m : KeyMsg) (s : State) : Host.Outcome State Fault Refusal :=
  s.whenUp fun s => s.mgTake fun s => s.keyReqIn jobId node serial m

/-- KEY_RESP_RECEIVE: the key of a KEYING slot, or a renewal's notice or key at an OPEN one (R56 step 5, R62). -/
def execKeyRespReceive (jobId gen : Nat) (m : KeyMsg) (s : State) : Host.Outcome State Fault Refusal :=
  s.whenUp fun s => s.mgTake fun s => s.keyRespIn jobId gen m

/-- NOT_YET_RECEIVE: the request repeats after 100 microseconds (R56 step 4). -/
def execNotYetReceive (jobId : Nat) (s : State) : Host.Outcome State Fault Refusal :=
  s.whenUp fun s => s.mgTake fun s =>
    match s.slotOf jobId with
    | none => s
    | some j =>
      if s.jobState j = jobKeying ∧ s.armed (.keyReqUnanswered j) then
        ((s.disarm (.keyReqUnanswered j)).updJob j fun b => { b with reqFails := 0 }).armIn (.keyReqRetry j) (us 100)
      else s

/-- KEY_REQ_RETRY. -/
def execKeyReqRetry (slot : Nat) (s : State) : Host.Outcome State Fault Refusal :=
  s.whenDue (.keyReqRetry slot) fun s => s.sendKeyReq slot

/-- KEY_REQ_UNANSWERED (R57). -/
def execKeyReqUnanswered (slot : Nat) (s : State) : Host.Outcome State Fault Refusal :=
  s.whenDue (.keyReqUnanswered slot) fun s => s.keyUnanswered slot

/-- KEY_FAIL_DEADLINE: the slot is freed and JOB-OPEN completes with KEY_FAIL (R57). -/
def execKeyFailDeadline (slot : Nat) (s : State) : Host.Outcome State Fault Refusal :=
  s.whenDue (.keyFail slot) fun s =>
    let src := (s.job slot).openSrc
    let s := (s.logRec 1 0x0B .keyExchange slot [s.rd .GLB_JOB_JOB_ID slot]).freeJob slot
    match src with
    | some r => s.endPriv r cKeyFail
    | none => s

/-- KEY_INSTALL (R67). -/
def execKeyInstall (src : CmdSrc) (p : Priv) (x : PrivData) (s : State) : Host.Outcome State Fault Refusal :=
  s.privRow src .keyInstall p x fun s => s.bodyKeyInstall src p x

/-- RENEWAL_START: the leader generates K[g + 1] and distributes it; it repeats after 1 s (R62, R63). -/
def execRenewalStart (slot : Nat) (s : State) : Host.Outcome State Fault Refusal :=
  s.whenDue (.renewal slot) fun s =>
    let b := s.job slot
    if s.jobState slot = jobOpened ∧ b.pos = b.leaderPos ∧ !b.renewing then
      (s.freeNext.armIn (.renewalRepeat slot) (sec 1)).holdNext slot (b.gen + 1) (s.freeVal 256)
    else s

/-- RENEWAL_CONFIRM_RECEIVE (R62 steps 2 and 3); `child` is a position of the member list. -/
def execRenewalConfirmReceive (slot child : Nat) (s : State) : Host.Outcome State Fault Refusal :=
  s.whenUp fun s =>
    if s.jobState slot ≠ jobOpened then s
    else
      let f (b : Job) : Job := if b.confirmed.contains child then b else { b with confirmed := b.confirmed ++ [child] }
      (s.updJob slot f).confirmGen slot

/-- SWITCH_RECEIVE (R62 step 3). -/
def execSwitchReceive (slot t : Nat) (s : State) : Host.Outcome State Fault Refusal :=
  s.whenUp fun s =>
    let b := s.job slot
    if s.jobState slot = jobOpened ∧ b.renewing ∧ b.switchAt.isNone then s.takeSwitch slot t else s

/-- GENERATION_SWITCH (R62 step 4). -/
def execGenerationSwitch (slot : Nat) (s : State) : Host.Outcome State Fault Refusal :=
  s.whenDue (.genSwitch slot) fun s =>
    let b := s.job slot
    if s.jobState slot = jobOpened ∧ b.renewing then s.switchGen slot else s

/-- OLD_GENERATION_ERASE (R62 step 5). -/
def execOldGenerationErase (slot : Nat) (s : State) : Host.Outcome State Fault Refusal :=
  s.whenDue (.oldGen slot) fun s =>
    (s.updJob slot fun b => { b with keys := b.keys.keep fun g _ => decide (b.gen ≤ g) }).setFlag .GLB_JOB_RENEWING slot false

/-- RENEWAL_REPEAT: the leader repeats the distribution to the children that have not confirmed (R63). -/
def execRenewalRepeat (slot : Nat) (s : State) : Host.Outcome State Fault Refusal :=
  s.whenDue (.renewalRepeat slot) fun s =>
    let b := s.job slot
    if s.jobState slot ≠ jobOpened ∨ b.switchAt.isSome ∨ !b.renewing then s
    else (s.distribute slot (b.kids.filter fun k => !b.confirmed.contains k)).armIn (.renewalRepeat slot) (sec 1)

/-- GENERATION_EXPIRY: 25 h without a switch; the queues stop with KEY_EXPIRED and the keys are zeroised (R63 to R65). -/
def execGenerationExpiry (slot : Nat) (s : State) : Host.Outcome State Fault Refusal :=
  s.whenDue (.genExpiry slot) fun s =>
    if s.jobState slot = jobOpened then
      ((s.logRec 1 0x0B .keyExpired slot [s.rd .GLB_JOB_JOB_ID slot]).stopJobQueues slot cKeyExpired false).zeroiseStop slot |>.settleAll
    else s

/-- KEY_LEADER_TAKEOVER: the member at a position stands in for position 0 (R63). -/
def execKeyLeaderTakeover (slot position : Nat) (s : State) : Host.Outcome State Fault Refusal :=
  s.whenUp fun s =>
    match s.jobs.look slot with
    | none => s
    | some b =>
      if b.members.length ≤ position then s
      else s.newLeader slot position

/-- JOB_CLOSE (the JOB-CLOSE table, R525). -/
def execJobClose (src : CmdSrc) (p : Priv) (x : PrivData) (s : State) : Host.Outcome State Fault Refusal :=
  s.privRow src .jobClose p x fun s => s.bodyJobClose src p x

/-- JOB_CLOSE_MANIFEST_TIMEOUT: step 2 of the JOB-CLOSE table at 2 ms. -/
def execJobCloseManifestTimeout (slot : Nat) (s : State) : Host.Outcome State Fault Refusal :=
  s.whenDue (.closeManifest slot) fun s =>
    let ms := (s.manifest.cells.filter fun m => decide (m.2.slot = slot)).map (·.1)
    ((forEach State.opRetire ms s).closeProgress slot).settleAll

/-- EPOCH_KEY_ERASE: the key of the earlier epoch goes (R61). -/
def execEpochKeyErase (ctx : Nat) (s : State) : Host.Outcome State Fault Refusal :=
  s.whenDue (.epochErase ctx) fun s =>
    s.eraseEpoch ctx

/-- DEBUG_CHALLENGE_READ: a 48-byte challenge, good for 60 s and one attempt (R73). -/
def execDebugChallengeRead (draw : Nat) (s : State) : Host.Outcome State Fault Refusal :=
  s.whenUp fun s => ({ s with challenge := some (draw % 2 ^ 384) }.emit (.value (draw % 2 ^ 384))).armIn .challenge (sec 60)

/-- DEBUG_UNLOCK (R73). -/
def execDebugUnlock (t : List Byte) (s : State) : Host.Outcome State Fault Refusal :=
  s.whenUp fun s =>
    match s.timers.look .challenge with
    | some due => if s.now ≤ due then s.unlock t else { s with challenge := none }.disarm .challenge
    | none => s

/-- SPDM_MESSAGE (R71, R53). -/
def execSpdmMessage (via : SpdmVia) (r : SpdmReq) (s : State) : Host.Outcome State Fault Refusal :=
  s.whenRef fun s =>
    if s.rd .MG_STATUS_STATE = 3 then s.mgDiscard
    else
      match via with
      | .mg _ => s.mgTake fun s => s.spdmIn via r
      | _ => s.spdmIn via r

/-- FM_SESSION_EXPIRY: the grant's NOT_AFTER has passed (R53). -/
def execFmSessionExpiry (id : Nat) (s : State) : Host.Outcome State Fault Refusal :=
  s.whenDue (.fmSession id) fun s => s.endSession id

end Sys2Proof.Machine
end

