-- ==== Sys2Proof/Machine/MemoryCmds.lean ====
section
/-! DEFINITION. The privileged commands on windows, keyed regions and collective trees (R185, R196 to R205, R240 to R245, R528), and their
rows. -/

namespace Sys2Proof.Machine

/-- The checks that a command naming an OPEN job slot shares: its slot (R142), then its token (R51). -/
def State.slotToken (s : State) (slot kind : Nat) (o : Offer) : State × Nat :=
  if 256 ≤ slot ∨ s.jobState slot ≠ jobOpened then (s, cTargetRange) else s.jobToken o kind slot

/-- The descriptor that a window or region holds. -/
def descrOf (d : DescrBlock) : Descr := ⟨d.base, d.length, d.asid, d.func, d.rights, d.ao⟩

/-- WINDOW-OPEN (R185, R197). -/
def State.bodyWindowOpen (s : State) (src : CmdSrc) (p : Priv) (x : PrivData) : State × Option Nat :=
  let pre := s.privPre src p x true
  if pre ≠ 0 then (s, some pre)
  else
    match decodeDescr (s.blockOf src p x) with
    | none => (s, some cMalformed)
    | some d =>
      if 256 ≤ p.arg2 then (s, some cTargetRange)
      else
        match s.slotToken p.arg 0x04 (s.offer src .windowOpen p x) with
        | (s, 0) =>
          if s.rd .GLB_JOB_MODE p.arg = 1 ∨ (s.windows.look (p.arg, p.arg2)).any (fun w => decide (w.state ≠ .closed)) then
            (s, some cState)
          else if !(s.job p.arg).asids.contains d.asid then (s, some cTargetRange)
          else
            let w : Window := { state := .opened, d := descrOf d }
            ({ s with windows := s.windows.put (p.arg, p.arg2) w }, some 0)
        | (s, c) => (s, some c)

/-- WINDOW-REVOKE (R197, R198): it completes when the revocation is confirmed. -/
def State.bodyWindowRevoke (s : State) (src : CmdSrc) (p : Priv) (x : PrivData) : State × Option Nat :=
  let pre := s.privPre src p x true false false
  if pre ≠ 0 then (s, some pre)
  else if 256 ≤ p.arg2 then (s, some cTargetRange)
  else
    let o := s.offer src .windowRevoke p x
    match s.slotToken p.arg 0x04 o with
    | (s, 0) =>
      if (s.windows.look (p.arg, p.arg2)).any (fun w => decide (w.state = .opened)) then
        (s.revokeStart p.arg p.arg2 o.1.serial (src, p.ltally), none)
      else (s, some cState)
    | (s, c) => (s, some c)

/-! ## Keyed regions (R202, R528) -/

/-- The VALID spans of a slot, in number order, as (number, first address, last address + 1). -/
def State.spansOf (s : State) (a : Nat) : List (Nat × Nat × Nat) :=
  (List.range 8).filterMap fun k =>
    let i := 8 * a + k
    if s.flag .TX_SPAN_BASE_VALID i then
      some (k, s.rd .TX_SPAN_BASE_BASE i * 4096, s.rd .TX_SPAN_LIMIT_LIMIT i * 4096 + 4096)
    else none

/-- The largest block of 1 GiB, 2 MiB or 4 KiB at an address whose target is aligned too and that ends within the span (R202). -/
def spanBlock (addr target stop : Nat) : Nat :=
  ([2 ^ 30, 2 ^ 21].find? fun b => decide (addr % b = 0 ∧ target % b = 0 ∧ addr + b ≤ stop)).getD 4096

/-- The first place after `addr` at which a span of a number below `k` begins, `stop` at most. -/
def nextSpan (spans : List (Nat × Nat × Nat)) (k addr stop : Nat) : Nat :=
  (spans.filter fun x => decide (x.1 < k ∧ addr < x.2.1)).foldl (fun n x => min n x.2.1) stop

/-- One record of a region: the part of a block at `from'` that lies in the region, by offset, with the rank by which it covers
others: a span's number, or 8 for a table leaf. -/
def regionLeaf (d : Descr) (start size : Nat) (pkg : Bool) (target : Nat) : Leaf :=
  let lo := max start d.base
  let hi := min (start + size) (d.base + d.length)
  ⟨lo - d.base, hi - lo, mkLoc d.func pkg (target + (lo - start))⟩

/-- Find the table leaf of an address: cached, or walked for (R417, R419). -/
def State.leafAt (s : State) (a addr : Nat) : State × WalkRes :=
  match cacheFind s.txCache a addr with
  | some e => ({ s.count 232 2 with txCache := cacheTouch s.txCache e }, .leaf e)
  | none => (s.count 232 3).walk a addr

/-- Translate a region from an address on (R202): its records with their ranks, or the cause of the fault. -/
def State.regionWalk (s : State) (a : Nat) (d : Descr) : Nat → Nat → List (Nat × Leaf) → State × Sum Nat (List (Nat × Leaf))
  | 0, _, acc => (s, .inr acc)
  | fuel + 1, addr, acc =>
    let stop := d.base + d.length
    let needR := bitOf d.rights 0 || bitOf d.rights 2
    let needW := bitOf d.rights 1 || bitOf d.rights 2
    if stop ≤ addr then (s, .inr acc)
    else
      let spans := s.spansOf a
      let page := addr / 4096 * 4096
      match spans.find? fun x => decide (x.2.1 ≤ addr ∧ addr < x.2.2) with
      | some x =>
        let i := 8 * a + x.1
        let pkg := s.flag .TX_SPAN_BASE_LOC i
        let target := s.rd .TX_SPAN_TGT_TARGET i * 4096 + (page - x.2.1)
        let size := spanBlock page target x.2.2
        let s := s.count 232 5
        let next := nextSpan spans x.1 addr (page + size)
        let l := regionLeaf d page size pkg target
        if s.resultOk a pkg (s.flag .TX_SPAN_BASE_R i) (s.flag .TX_SPAN_BASE_W i) (target + (addr - page)) (min stop next - addr) needR needW then
          State.regionWalk s a d fuel next (acc ++ [(x.1, l)])
        else (s.txFault d.asid addr causeTranslation 0 false, .inl causeTranslation)
      | none =>
        match s.leafAt a addr with
        | (s, .leaf e) =>
          let next := nextSpan spans 8 addr (e.base + levelBytes e.level)
          let l := regionLeaf d e.base (levelBytes e.level) e.loc e.addr
          if s.resultOk a e.loc e.r e.w (e.addr + (addr - e.base)) (min stop next - addr) needR needW then
            State.regionWalk s a d fuel next (if acc.contains (8, l) then acc else acc ++ [(8, l)])
          else (s.txFault d.asid addr causeTranslation e.level false, .inl causeTranslation)
        | (s, .fault c l m) => (s.txFault d.asid addr c l m, .inl c)

/-- The records of a region in the order in which they are looked up: spans by number, then table leaves (R415 step 2). -/
def rankLeaves (ls : List (Nat × Leaf)) : List Leaf :=
  (List.range 9).flatMap fun k => (ls.filter fun l => decide (l.1 = k)).map (·.2)

/-- Translate a region's whole range (R202). -/
def State.holdRegion (s : State) (d : Descr) : State × Sum Nat (List Leaf) :=
  match s.asidSlot d.asid with
  | none => (s.txFault d.asid d.base causeTranslation 0 false, .inl causeTranslation)
  | some a =>
    match s.regionWalk a d (d.length / 4096 + 2) d.base [] with
    | (s, .inl c) => (s, .inl c)
    | (s, .inr ls) => (s, .inr (rankLeaves ls))

/-- REGION-REGISTER (R202). Whether the new entry is cached in the wharf is a free value (R204, log 8). -/
def State.bodyRegionRegister (s : State) (src : CmdSrc) (p : Priv) (x : PrivData) : State × Option Nat :=
  let pre := s.privPre src p x true
  if pre ≠ 0 then (s, some pre)
  else
    match decodeDescr (s.blockOf src p x) with
    | none => (s, some cMalformed)
    | some b =>
      let d := descrOf b
      let key := p.arg2
      match s.slotToken p.arg 0x05 (s.offer src .regionRegister p x) with
      | (s, 0) =>
        if s.rd .GLB_JOB_MODE p.arg = 0 then (s, some cState)
        else if key = 0 ∨ !(s.job p.arg).asids.contains d.asid then (s, some cTargetRange)
        else if (s.regions.look key).isSome ∨ s.armed (.quarantine key) then (s, some cState)
        else if 1048576 ≤ s.regions.size then (s, some cState)
        else
          match s.holdRegion d with
          | (s, .inl c) => (s, some c)
          | (s, .inr ls) =>
            if s.leavesFree < ls.length then (s, some cState)
            else
              let r : Region := {
                slot := p.arg, job := s.rd .GLB_JOB_JOB_ID p.arg, d := d, leaves := ls, cached := decide (s.freeVal 1 = 1) }
              ({ s.freeNext with regions := s.regions.put key r }.evictRegion key, some 0)
      | (s, c) => (s, some c)

/-- REGION-DEREGISTER (R528): the key is unregistered at once; the command completes when the region is fenced. -/
def State.bodyRegionDeregister (s : State) (src : CmdSrc) (p : Priv) (x : PrivData) : State × Option Nat :=
  let pre := s.privPre src p x true false false
  if pre ≠ 0 then (s, some pre)
  else
    match s.slotToken p.arg 0x05 (s.offer src .regionDeregister p x) with
    | (s, 0) =>
      if p.arg2 = 0 then (s, some cTargetRange)
      else
        match s.regions.look p.arg2 with
        | some r =>
          if r.live ∧ r.slot = p.arg then
            let r' : Region := { r with live := false, src := some (src, p.ltally) }
            ({ s with regions := s.regions.put p.arg2 r' }, none)
          else (s, some cState)
        | none => (s, some cState)
    | (s, c) => (s, some c)

/-! ## Collective trees (R240 to R245, R259) -/

/-- Check 2 of R242: the nodes of a tree are members of the job. -/
def State.treeNodesOk (s : State) (slot : Nat) (b : TreeBlock) : Bool :=
  let names := (s.job slot).members.map (·.1)
  let me := s.nodeId
  names.contains b.root && b.parent.all (fun n => names.contains n)
    && (b.parent.isNone == decide (b.root = me))
    && b.kids.all fun k => names.contains k.1 && decide (k.1 ≠ me ∧ b.parent ≠ some k.1)

/-- Whether ranges in rising order cover a range exactly, from `lo` on; answers where they end. -/
def coverFrom : Nat → List (Nat × Nat) → Option Nat
  | lo, [] => some lo
  | lo, (a, b) :: r => if a = lo ∧ a ≤ b then coverFrom (b + 1) r else none

/-- Check 3 of R242: the ranges of the children and the own position cover FIRST to LAST exactly. -/
def treeRangesOk (b : TreeBlock) : Bool :=
  let rs := ((b.pos, b.pos) :: b.kids.map (·.2)).mergeSort fun x y => decide (x.1 ≤ y.1)
  decide (b.first ≤ b.pos ∧ b.pos ≤ b.last) && decide (coverFrom b.first rs = some (b.last + 1))
    && (b.parent.isSome || decide (b.first = 0 ∧ b.last + 1 = b.members))

/-- Check 5 of R242: the context's state allows the build (R245). -/
def State.treeStateOk (s : State) (c : Nat) (b : TreeBlock) : Bool :=
  let st := s.rd .HD_CTX_STATE c
  if b.rebuild then
    decide (st = hcFailed) && (s.colls.look c).any fun x => decide (x.root = b.root ∧ x.build ≠ b.build)
  else decide (st ≠ hcActive)

/-- The landing slots that a build reserves, and those that the other contexts hold (R259). -/
def treeSlots (b : TreeBlock) : Nat := b.land * (b.kids.length + b.parent.toList.length)
def State.slotsElse (s : State) (c : Nat) : List Nat := (s.colls.cells.filter fun x => decide (x.1 ≠ c)).flatMap fun x => x.2.slots

/-- Whether the pool holds the slots of a build: none does with SLOTS 0 (R266), nor where the pool does not lie in its range (log 34). -/
def State.poolHolds (s : State) (c : Nat) (b : TreeBlock) : Bool :=
  let n := s.rd .HD_LANDPOOL_SLOTS
  decide (n ≠ 0) && poolOk (s.rd .HD_LANDPOOL_BASE) (4224 * n) && decide ((s.slotsElse c).length + treeSlots b ≤ n)

/-- The `n` lowest slots that are not used, a choice of the model (log 34). -/
def freeSlots (used : List Nat) (n : Nat) : List Nat := (((List.range (used.length + n)).filter fun k => !used.contains k)).take n

/-- The checks of R242 after the first; 0 where all pass. -/
def State.treeCause (s : State) (slot c : Nat) (b : TreeBlock) : Nat :=
  let h := ceilDiv b.maxBytes 64 * 64
  if !s.treeNodesOk slot b then cTargetRange
  else if !treeRangesOk b then cMalformed
  else if b.parent.isNone ∧ !(decide (0x10_0000_0000 ≤ b.retain ∧ b.retain + 2 * h ≤ 0x13_8000_0000)) then cReservedRange
  else if !s.treeStateOk c b then cState
  else if !s.poolHolds c b then cState
  else 0

/-- Build a context (R241, R245): a REBUILD keeps INST, REJOIN_DUE and the retained result, and the commands that completed here. -/
def State.treeBuilt (s : State) (slot c : Nat) (b : TreeBlock) : State :=
  let kept := if b.rebuild then (s.colls.look c).toList else []
  let slots := freeSlots (s.slotsElse c) (treeSlots b)
  let kids := b.kids.map fun k => (⟨k.1, k.2.1, k.2.2⟩ : Child)
  let near := b.parent.toList ++ b.kids.map (·.1)
  let x : CollCtx := {
    slot := slot, root := b.root, parent := b.parent, members := b.members, pos := b.pos, first := b.first, last := b.last,
    children := kids, land := b.land, timeout := b.timeout, maxBytes := b.maxBytes, build := b.build, retain := b.retain,
    credits := ⟨near.map fun n => (n, b.land)⟩, slots := slots,
    room := (numbered 0 near).foldl (fun t n => t.put n.2 ((slots.drop (b.land * n.1)).take b.land)) ⟨[]⟩,
    held := kept.flatMap (·.held), past := kept.flatMap (·.past) }
  let s := s.disarmAll fun t => match t with
    | .coll d _ => decide (d = c)
    | .rejoin d => decide (d = c)
    | _ => false
  let s := { s with colls := s.colls.put c x }
  let s := s.wrAll c [(.HD_CTX_JOB_SLOT, slot), (.HD_CTX_STATE, hcReady), (.HD_CTX_ROOT, if b.parent.isNone then 1 else 0),
    (.HD_CTX_BUILD, b.build), (.HD_CTX_REBUILT, if b.rebuild then 1 else 0)]
  if b.rebuild then s else s.wrAll c [(.HD_CTX_INST, 0), (.HD_CTX_REJOIN_DUE, 0)]

/-- TREE-BUILD (R241, R242). -/
def State.bodyTreeBuild (s : State) (src : CmdSrc) (p : Priv) (x : PrivData) : State × Option Nat :=
  let pre := s.privPre src p x true
  if pre ≠ 0 then (s, some pre)
  else
    match s.slotToken p.arg 0x06 (s.offer src .treeBuild p x) with
    | (s, 0) =>
      match decodeTree (s.blockOf src p x) with
      | none => (s, some cMalformed)
      | some b =>
        let k := s.treeCause p.arg p.arg2 b
        if k ≠ 0 then (s, some k) else (s.treeBuilt p.arg p.arg2 b, some 0)
    | (s, c) => (s, some c)

/-! ## The rows -/

/-- WINDOW_OPEN. -/
def execWindowOpen (src : CmdSrc) (p : Priv) (x : PrivData) (s : State) : Host.Outcome State Fault Refusal :=
  s.privRow src .windowOpen p x fun s => s.bodyWindowOpen src p x

/-- WINDOW_REVOKE. -/
def execWindowRevoke (src : CmdSrc) (p : Priv) (x : PrivData) (s : State) : Host.Outcome State Fault Refusal :=
  s.privRow src .windowRevoke p x fun s => s.bodyWindowRevoke src p x

/-- REGION_REGISTER. -/
def execRegionRegister (src : CmdSrc) (p : Priv) (x : PrivData) (s : State) : Host.Outcome State Fault Refusal :=
  s.privRow src .regionRegister p x fun s => s.bodyRegionRegister src p x

/-- REGION_DEREGISTER. -/
def execRegionDeregister (src : CmdSrc) (p : Priv) (x : PrivData) (s : State) : Host.Outcome State Fault Refusal :=
  s.privRow src .regionDeregister p x fun s => s.bodyRegionDeregister src p x

/-- TREE_BUILD. -/
def execTreeBuild (src : CmdSrc) (p : Priv) (x : PrivData) (s : State) : Host.Outcome State Fault Refusal :=
  s.privRow src .treeBuild p x fun s => s.bodyTreeBuild src p x

end Sys2Proof.Machine
end

