-- ==== Sys2Proof/Machine/RouteCmds.lean ====
section
/-! DEFINITION. ROUTE-WRITE and ROUTE-COMMIT (R270, R271, R297 to R299, R318, R319, R340, R341, R349) and their rows. -/

namespace Sys2Proof.Machine

/-- Whether a variant lacks the ports and lanes of a number (R318, R341): P36 to P71 of a WLN-7215. -/
def State.removed (s : State) (n : Nat) : Bool := decide (s.variant = .wln7215 ∧ 36 ≤ n)

/-! ## ROUTE-WRITE -/

/-- Write entries of a bank from an entry number upward. -/
def State.putEntries (s : State) (bank table : Nat) : Nat → List Nat → State
  | _, [] => s
  | e, v :: r => State.putEntries { s with banks := s.banks.put (bank, table, e) v } bank table (e + 1) r

/-! ## The checks of a bank (R271, R318, R341) -/

/-- The fields of the route table of a bank. -/
def State.bkSize (s : State) (b d : Nat) : Nat := bitsOf (s.bankEntry b 0 128) (12 + 5 * d) 5
def State.bkNode (s : State) (b : Nat) : Nat := bitsOf (s.bankEntry b 0 128) 44 20
def State.bkOwn (s : State) (b d : Nat) : Nat := coordOf (s.bkNode b) d
def State.bkCoord (s : State) (b d c : Nat) : Nat := s.bankEntry b 0 (32 * d + c)

/-- The control words: ORDER names each dimension once, DMODE, SIZE, NODE_ID, DED, and the fields that are 0. -/
def State.controlOk (s : State) (b : Nat) : Bool :=
  let w := s.bankEntry b 0
  let order := (List.range 4).map fun k => bitsOf (w 128) (32 + 2 * k) 2
  let ded := bitsOf (w 131) 0 9
  order.eraseDups.length == 4
    && decide (bitsOf (w 128) 40 4 = 0 ∧ bitsOf (w 128) 0 12 = 0 ∧ bitsOf (w 130) 48 16 = 0 ∧ bitsOf (w 130) 36 4 = 0
      ∧ bitsOf (w 130) 8 8 = 0 ∧ bitsOf (w 131) 9 55 = 0 ∧ 66 ≤ ded ∧ ded ≤ 192)
    && (List.range 4).all fun d => decide (bitsOf (w 129) (16 * d + 10) 6 = 0 ∧ bitsOf (w 129) (16 * d + 8) 2 ≠ 3
      ∧ 1 ≤ s.bkSize b d ∧ s.bkSize b d ≤ 18 ∧ s.bkOwn b d < s.bkSize b d)

/-- One coordinate entry of R271. -/
def State.coordOk (s : State) (b d c : Nat) : Bool :=
  let e := s.bkCoord b d c
  let n := s.bkSize b d
  let own := s.bkOwn b d
  let via := bitsOf e 32 32
  let k := ceKind e
  !bitOf via own && !bitOf via c && decide (via < 2 ^ n) && (decide (k ≠ kindVia) || decide (via ≠ 0))
    && (if n ≤ c then decide (k = 0) else if c = own then decide (k = kindSelf) else decide (k = kindDirect ∨ k = kindVia))

/-- The ports that the DIRECT entries of a bank name. -/
def State.bkDirect (s : State) (b : Nat) : List Nat :=
  (List.range 128).filterMap fun e => let v := s.bankEntry b 0 e; if ceKind v = kindDirect then some (cePort v) else none

/-- One port entry (R318): its ranges, and the start and the other lanes of a ganged port. -/
def State.portEntryOk (s : State) (b p : Nat) : Bool :=
  let e := s.bankEntry b 2 p
  let n := 2 ^ peWidth e
  decide (peWidth e ≤ 2 ∧ peRate e ≤ 2 ∧ bitsOf e 7 1 = 0 ∧ pePeer e ≤ 71 ∧ bitsOf e 16 48 = 0)
    && (peCheck e || decide (peSerial e = 0))
    && (!peEn e || (decide (p % n = 0) && (lanesOf p (peWidth e)).all fun q => decide (q = p) || !peEn (s.bankEntry b 2 q)))

/-- The link timers (entry 72). -/
def State.timersOk (s : State) (b : Nat) : Bool :=
  let e := s.bankEntry b 2 72
  let r := bitsOf e 16 16
  decide (4 ≤ bitsOf e 0 8 ∧ bitsOf e 8 8 = 0 ∧ 100 ≤ r ∧ r ≤ 20000 ∧ bitsOf e 32 96 = 0)

/-- One lane entry: no reserved value (R341). -/
def State.laneEntryOk (s : State) (b l : Nat) : Bool :=
  let e := s.bankEntry b 3 l
  decide (lePstate e ≤ 2 ∧ leLoop e ≤ 3 ∧ leGen e ≤ 2 ∧ bitsOf e 11 5 = 0 ∧ bitsOf e 19 5 = 0 ∧ bitsOf e 48 80 = 0)

/-- The lanes of a port whose entry has EN set: active, no loopback, no generator, one MEDIUM (R341). -/
def State.portLanesOk (s : State) (b p : Nat) : Bool :=
  let e := s.bankEntry b 2 p
  !peEn e || (lanesOf p (peWidth e)).all fun l =>
    let v := s.bankEntry b 3 l
    decide (lePstate v = 0 ∧ leLoop v = 0 ∧ leGen v = 0 ∧ leMedium v = leMedium (s.bankEntry b 3 p))

/-- Whether the bank names a port or lane that is not there (R271, R318, R341): true where all are. -/
def State.bankPresent (s : State) (b : Nat) : Bool :=
  ((s.bkDirect b).all fun p => decide (p < 72) && s.portOn p && peEn (s.bankEntry b 2 p)
      && (List.range 72).all fun q => decide (q = p) || !peEn (s.bankEntry b 2 q)
        || !(lanesOf q (peWidth (s.bankEntry b 2 q))).contains p)
    && (List.range 72).all fun p =>
      (!s.removed p || decide (s.bankEntry b 2 p = 0 ∧ s.bankEntry b 3 p = 0)) && (s.portOn p || !peEn (s.bankEntry b 2 p))

/-- The checks of ROUTE-COMMIT on a bank, 0 where all pass. -/
def State.bankCause (s : State) (b : Nat) : Nat :=
  let ports := s.bkDirect b
  if !(s.controlOk b && ((List.range 4).all fun d => (List.range 32).all fun c => s.coordOk b d c)
      && ports.eraseDups.length == ports.length && ((List.range 72).all fun p => s.portEntryOk b p) && s.timersOk b
      && ((List.range 72).all fun l => s.laneEntryOk b l) && (List.range 72).all fun p => s.portLanesOk b p) then cMalformed
  else if !s.bankPresent b then cTargetRange
  else if s.bkNode b ≠ s.nodeId ∧ s.jobsActive ≠ 0 then cState
  else 0

/-! ## What a commit changes (R298, R319, R342, R349) -/

/-- The bytes of a bank that its digest covers: every entry of its route, multicast, port and lane tables in order (R298; the order is the model's,
log 9). -/
def State.bankBytes (s : State) (b : Nat) : List Byte :=
  (List.range 4).flatMap fun t => (List.range (tableCount t)).flatMap fun e => leBytes (tableSize t) (s.bankEntry b t e)

/-- A lane outside every enabled port takes its PSTATE and LOOP; a FAILED lane stays in standby (R342, R343). A checker that is off
or has another pattern has no lock. In PARKED every lane stays in deep (R492). -/
def State.applyLane (s : State) (l old new : Nat) : State :=
  let s := if bitsOf old 16 3 = bitsOf new 16 3 then s else s.wr .LN_LANE_PRBS_CHK_LOCK l 0
  if (s.portOfLane l).isSome then s
  else
    let s := s.wr .LN_LANE_STATUS_LOOP l (leLoop new)
    if s.flag .LN_LANE_STATUS_FAILED l || s.flag .PW_STATUS_PARKED then s else s.wr .LN_LANE_STATUS_PSTATE l (lePstate new)

/-- A port whose partner no longer fits flushes and is held in TRAINING (R321). -/
def State.recheckPeer (s : State) (p : Nat) : State :=
  let st := s.portState p
  if st = psUp then
    if s.peerOk p (s.rd .LL_PORT_PEER_SERIAL p) (s.rd .LL_PORT_LINK_PEER_PORT p) then s
    else ((((s.reroute p false).noticeDown p).flushPort p).helloAgain p).holdPeer p
  else if st = psTraining then s.updLink p fun k => { k with held := false, helloDue := k.helloDue || k.held, helloSent := k.helloSent && !k.held }
  else s

/-- A changed REPAIR_SEQ of a port's first lane takes the lanes out of FAILED (R349). -/
def State.repairLanes (s : State) (ls : List Nat) (repair : Bool) : State :=
  if repair then ls.foldl (fun s l => s.wr .LN_LANE_STATUS_FAILED l 0) s else s

/-- A port's entry changed (R319), and the REPAIR_SEQ of its first lane (R349). In PARKED no port starts (R492). -/
def State.applyPort (s : State) (p old new : Nat) (repair : Bool) : State :=
  let stopOld (s : State) : State := (lanesOf p (peWidth old)).foldl (fun s l => s.laneStop l) s
  if s.flag .PW_STATUS_PARKED then s.repairLanes (lanesOf p (peWidth new)) repair
  else if !peEn old && peEn new then s.startPort p fun _ => false
  else if peEn old && !peEn new then
    let s := s.clearEn p
    if s.portState p = psDisabled then stopOld s else s
  else if !peEn new then s
  else
    let peer := decide (bitsOf old 6 1 ≠ bitsOf new 6 1 ∨ pePeer old ≠ pePeer new ∨ peSerial old ≠ peSerial new)
    let s := if peer then s.recheckPeer p else s
    let freed (l : Nat) : Bool := repair && s.flag .LN_LANE_STATUS_FAILED l
    let s := s.repairLanes (lanesOf p (peWidth new)) repair
    if peWidth old ≠ peWidth new ∨ peRate old ≠ peRate new then
      if s.portState p = psTraining then (stopOld s).startPort p freed else s.askRetrain p (peWidth new) (peRate new) 0
    else if repair then
      if s.portState p = psTraining then s.startPort p freed else s.askRetrain p (peWidth new) (peRate new) 3
    else s

/-- The effect of a commit on the ports and lanes: each entry of the new active bank against the one that was active (R530). A
RETRAIN_LIMIT raised to 2,000 µs makes the recalibration requests that waited for it (R345). -/
def State.applyBank (s : State) (old new : Nat) : State :=
  let t := s.bankEntry new 2 72
  let raised := decide (s.rd .LL_TIMERS_RETRAIN_LIMIT < 2000 ∧ 2000 ≤ bitsOf t 16 16)
  let s := s.wrAll 0 [(.LL_TIMERS_REPLAY_TO, bitsOf t 0 8), (.LL_TIMERS_RETRAIN_LIMIT, bitsOf t 16 16)]
  let s := (List.range 72).foldl (fun s l =>
    if s.bankEntry old 3 l = s.bankEntry new 3 l then s else s.applyLane l (s.bankEntry old 3 l) (s.bankEntry new 3 l)) s
  let s := (List.range 72).foldl (fun s p =>
    let repair := decide (leRepair (s.bankEntry old 3 p) ≠ leRepair (s.bankEntry new 3 p))
    if s.bankEntry old 2 p = s.bankEntry new 2 p ∧ !repair then s
    else s.applyPort p (s.bankEntry old 2 p) (s.bankEntry new 2 p) repair) s
  if raised then (List.range 72).foldl (fun s l => if (s.lane l).deferred then s.recalAsk l else s) s else s

/-- The inactive bank becomes a copy of the active one (COPY). -/
def State.copyBank (s : State) (a b : Nat) : State :=
  let others := s.banks.cells.filter fun c => decide (c.1.1 ≠ b)
  let copies := (s.banks.cells.filter fun c => decide (c.1.1 = a)).map fun c => ((b, c.1.2), c.2)
  { s with banks := ⟨others ++ copies⟩ }

/-- The lanes of a quad that a commit of a bank would change, themselves or through their port's entry (R462). -/
def State.quadChanges (s : State) (old new q : Nat) : Bool :=
  let same (t e : Nat) : Bool := decide (s.bankEntry old t e = s.bankEntry new t e)
  (List.range 4).any (fun k => !same 3 (4 * q + k))
    || (List.range 72).any fun p => !same 2 p
      && ((lanesOf p (peWidth (s.bankEntry old 2 p))) ++ lanesOf p (peWidth (s.bankEntry new 2 p))).any fun l => decide (l / 4 = q)

/-- Whether a route command waits for the step of a quad under lane update (R462). -/
def State.routeHeld (s : State) (j : RouteJob) : Bool :=
  match j, s.live with
  | .commit arg, some v => decide (v.ptype = 2) && v.begun && s.quadChanges s.activeBank (arg % 2) v.unit
  | _, _ => false

/-- A route command at the crossing: its cause. ROUTE-WRITE puts its entries in the inactive bank (R297). ROUTE-COMMIT switches, then COPY,
then measurement slot 6 (R298); the old bank is still to be compared when the ports act, so the copy is made last. -/
def State.routeRun (s : State) (j : RouteJob) : State × Nat :=
  match j with
  | .write t e vs => (s.putEntries (1 - s.activeBank) t e vs, 0)
  | .commit arg =>
    let new := arg % 2
    let old := s.activeBank
    if new = old then (s, cState)
    else
      let k := s.bankCause new
      if k ≠ 0 then (s, k)
      else
        let s := (s.wr .XB_STATUS_ACTIVE 0 new).incWrap .XB_STATUS_COMMITS 0 1
        let s := s.applyBank old new
        let s := if bitOf arg 1 then s.copyBank new old else s
        (s.extendMeas 6 (digestOf (s.bankBytes new)), 0)

/-- A route command reaches the crossing: it runs, or waits behind others (R299). -/
def State.routeStart (s : State) (r : CmdSrc × TallyField) (j : RouteJob) : State × Option Nat :=
  if !s.routeWait.isEmpty || s.routeHeld j then ({ s with routeWait := s.routeWait ++ [(r, j)] }, none)
  else match s.routeRun j with | (s, c) => (s, some c)

/-- Run the route commands that wait, in order, up to one that still waits. -/
def State.routeGo (s : State) : List ((CmdSrc × TallyField) × RouteJob) → State
  | [] => s
  | w :: r =>
    if s.routeHeld w.2 then s
    else
      match State.routeRun { s with routeWait := r } w.2 with
      | (s, c) => State.routeGo (s.endPriv w.1 c) r

/-- ROUTE-WRITE (R297). -/
def State.bodyRouteWrite (s : State) (src : CmdSrc) (p : Priv) (x : PrivData) : State × Option Nat :=
  let pre := s.privPre src p x false
  if pre ≠ 0 then (s, some pre)
  else
    match s.checkTrailer src .routeWrite p x with
    | (s, 0) =>
      match decodeTable p.arg (s.blockOf src p x) with
      | none => (s, some cMalformed)
      | some vs =>
        if tableCount p.arg < p.arg2 + vs.length then (s, some cTargetRange) else s.routeStart (src, p.ltally) (.write p.arg p.arg2 vs)
    | (s, c) => (s, some c)

/-- ROUTE-COMMIT (R298). -/
def State.bodyRouteCommit (s : State) (src : CmdSrc) (p : Priv) (x : PrivData) : State × Option Nat :=
  let pre := s.privPre src p x false false false
  if pre ≠ 0 then (s, some pre)
  else
    match s.checkTrailer src .routeCommit p x with
    | (s, 0) => s.routeStart (src, p.ltally) (.commit p.arg)
    | (s, c) => (s, some c)

/-- ROUTE_WRITE. -/
def execRouteWrite (src : CmdSrc) (p : Priv) (x : PrivData) (s : State) : Host.Outcome State Fault Refusal :=
  s.privRow src .routeWrite p x fun s => s.bodyRouteWrite src p x

/-- ROUTE_COMMIT. -/
def execRouteCommit (src : CmdSrc) (p : Priv) (x : PrivData) (s : State) : Host.Outcome State Fault Refusal :=
  s.privRow src .routeCommit p x fun s => s.bodyRouteCommit src p x

end Sys2Proof.Machine
end

