-- ==== Sys2Proof/Machine/UnitCmds.lean ====
section
/-! DEFINITION. The privileged commands on ferries, queue bindings, translation caches and snapshots (R102 to R104, R145, R385 to R389, R420,
R421, R429, R483), and their rows. -/

namespace Sys2Proof.Machine

/-! ## LOAD-PROGRAM (R385, R386) -/

/-- Whether every thread of a ferry is IDLE and it is DRAINED, or FAILED (R384, R386, R389). -/
def State.ferryStill (s : State) (f : Nat) : Bool :=
  decide (s.fxState f = fxDrained) || (decide (s.fxState f = fxFailed) && (s.busyThreads f).isEmpty)

/-- Whether a segment lies in the usable wharf, holds its inbox, and meets no segment of another job (R386). -/
def State.segOk (s : State) (b : ImageBlock) : Bool :=
  decide (0x03_0000_0000 + (b.segBase + b.segLen) * 65536 ≤ s.wharfTop) && decide (b.inbox < b.segLen)
    && (List.range 64).all fun f =>
      !s.flag .FX_STATUS_JOB_LOADED f || decide (s.rd .FX_STATUS_JOB_SLOT f = b.slot)
        || decide (b.segBase + b.segLen ≤ s.rd .FX_JOBSEG_SEG_BASE f)
        || decide (s.rd .FX_JOBSEG_SEG_BASE f + s.rd .FX_JOBSEG_SEG_LEN f ≤ b.segBase)

/-- Put instructions in a ferry's instruction memory from a place upward. -/
def State.putCode (s : State) (f : Nat) : Nat → List Nat → State
  | _, [] => s
  | i, w :: r => State.putCode { s with imem := s.imem.put (f, i) w } f (i + 1) r

/-- The handler entry that an image names (R382). -/
def hEntryOf (e : ImageEntry) : HEntry := ⟨bitOf e.flags 0, bitOf e.flags 1, e.flags / 4, e.threads, e.pc, e.budget⟩

/-- Load a checked image: its region and every entry of its half are replaced (R386). -/
def State.loadImage (s : State) (f : Nat) (b : ImageBlock) : State :=
  let s := if b.job then s.clearJobImage f else
    { s.updFerry f (fun x => { x with entries := x.entries.keep fun n _ => decide (0x80 ≤ n) }) with
      imem := s.imem.keep fun k _ => decide (k.1 ≠ f ∨ 6144 ≤ k.2) }
  let s := s.putCode f (if b.job then 6144 else 0) b.code
  let s := s.updFerry f fun x => { x with
    entries := b.entries.foldl (fun t e => t.put e.num (hEntryOf e)) x.entries,
    lineEntry := if b.job then b.lineEntry else x.lineEntry }
  if b.job then
    s.wrAll f [(.FX_STATUS_JOB_LOADED, 1), (.FX_STATUS_JOB_SLOT, b.slot), (.FX_STATUS_JOB_LEN, b.code.length),
      (.FX_JOBSEG_ASID, b.asid), (.FX_JOBSEG_SEG_BASE, b.segBase), (.FX_JOBSEG_SEG_LEN, b.segLen), (.FX_JOBSEG_INBOX, b.inbox)]
  else s.wr .FX_STATUS_SYS_LEN f b.code.length

/-- Whether bytes carry a signature of the Tirsia product authority, whose key the second certificate of the chain holds (R68, R385, R457). -/
def State.productSigned (s : State) (bs sigR sigS : List Byte) : Bool :=
  match s.chain with
  | _ :: c :: _ => signedBy c.key bs sigR sigS
  | _ => false

/-- The token of a job image (R51, R386): of kind 0x08, of whatever job it names. -/
def State.imageToken (s : State) (o : Offer) : State × Nat :=
  match s.slotOf o.1.jobId with
  | some j => s.jobToken o 0x08 j
  | none => s.grantToken o 0x08 o.1.jobId

/-- Check 3 of R386 for a job image whose token has passed: 0 where it may be loaded. -/
def State.jobImageCause (s : State) (f : Nat) (b : ImageBlock) (t : Token) : Nat :=
  let j := b.slot
  if s.jobState j ≠ jobOpened ∨ t.jobId ≠ s.rd .GLB_JOB_JOB_ID j ∨ !(s.job j).asids.contains b.asid then cTargetRange
  else if s.flag .FX_STATUS_JOB_LOADED f ∧ s.rd .FX_STATUS_JOB_SLOT f ≠ j then cState
  else if !s.segOk b then cState
  else 0

/-- The checks of R386, and the load. -/
def State.loadChecked (s : State) (f : Nat) (bs : List Byte) (t : Token) : State × Option Nat :=
  match decodeImage bs with
  | none => (s, some cMalformed)
  | some b =>
    if !s.ferryStill f then (s, some cState)
    else if b.job then
      let c := s.jobImageCause f b t
      if c ≠ 0 then (s, some c) else (s.loadImage f b, some 0)
    else if !s.productSigned (bs.take (bs.length - 96)) ((bs.drop (bs.length - 96)).take 48) (bs.drop (bs.length - 48)) then (s.logRec 1 0x0B .authFailed 0 [0x8A, 0x48], some 0x48)
    else if b.secver < s.rd .GLB_ROLLBACK_FLOOR 5 then (s, some cState)
    else ((s.loadImage f b).extendMeas 5 (digestOf bs), some 0)

/-- LOAD-PROGRAM: the token of a job image, then the checks of R386. -/
def State.bodyLoadProgram (s : State) (src : CmdSrc) (p : Priv) (x : PrivData) : State × Option Nat :=
  let bs := s.blockOf src p x
  let job := decide (leAt bs 0 1 = 1)
  let pre := s.privPre src p x job
  if pre ≠ 0 then (s, some pre)
  else if !s.ferryOn p.arg then (s, some cTargetRange)
  else
    let o := s.offer src .loadProgram p x
    match (if job then s.imageToken o else (s, 0)) with
    | (s, 0) => s.loadChecked p.arg bs o.1
    | (s, c) => (s, some c)

/-! ## FERRY-DRAIN and FERRY-RESUME (R387, R389) -/

/-- FERRY-DRAIN: it completes when the ferry is DRAINED. -/
def State.bodyFerryDrain (s : State) (src : CmdSrc) (p : Priv) (x : PrivData) : State × Option Nat :=
  let pre := s.privPre src p x false false false
  if pre ≠ 0 then (s, some pre)
  else if !s.ferryOn p.arg then (s, some cTargetRange)
  else if s.fxState p.arg ≠ fxRunning then (s, some cState)
  else
    let s := (s.wr .FX_STATUS_STATE p.arg fxDraining).haltFerryQueues p.arg
    (s.updFerry p.arg fun f => { f with drainSrc := some (src, p.ltally) }, none)

/-- Whether a draining ferry is drained: every thread IDLE, no unit operation outstanding. -/
def State.drained (s : State) (f : Nat) : Bool :=
  decide (s.fxState f = fxDraining) && (s.busyThreads f).isEmpty
    && (List.range 16).all fun t => (s.thread f t).ops.isEmpty && (s.thread f t).orphans.isEmpty

/-- The drain is over: DRAINED, and its command completes. -/
def State.drainOver (s : State) (f : Nat) : State :=
  if !s.drained f then s
  else
    let src := (s.ferry f).drainSrc
    let s := (s.wr .FX_STATUS_STATE f fxDrained).updFerry f fun x => { x with drainSrc := none }
    match src with
    | some r => s.endPriv r 0
    | none => s

/-- Run a queue that was halted with a reason that clears itself (R100). -/
def State.rerunQueue (s : State) (q : Nat) : State :=
  let s := s.wr .QU_STATE_HALT_REASON q 0
  if s.rd .QU_STATE_CAUSE q = 0 then (s.wr .QU_STATE_STATE q qRunning).wr .QU_STATE_DRAINED q 0
  else
    let s := s.wr .QU_STATE_STATE q qError
    if s.flag .QU_STATE_DRAINED q then s.publish q true else s.checkDrained q

/-- A ferry runs: dispatch restarts and its queues halted with reason 6 run (R389). -/
def State.runFerry (s : State) (f : Nat) : State :=
  let qs := (s.ferryQueues f).filter fun q => decide (s.qState q = qHalted ∧ s.rd .QU_STATE_HALT_REASON q = 6)
  forEach State.rerunQueue qs (s.wr .FX_STATUS_STATE f fxRunning)

/-- FERRY-RESUME. -/
def State.bodyFerryResume (s : State) (src : CmdSrc) (p : Priv) (x : PrivData) : State × Option Nat :=
  let pre := s.privPre src p x false false false
  if pre ≠ 0 then (s, some pre)
  else if !s.ferryOn p.arg then (s, some cTargetRange)
  else if !s.ferryStill p.arg then (s, some cState)
  else (s.runFerry p.arg, some 0)

/-! ## QUEUE-BIND (R102, R104, R145, R429) -/

/-- Whether a function may be bound to a queue of a slot (R428, R429). -/
def State.bindFuncOk (s : State) (f : Func) (q : Nat) (noJob : Bool) (slot : Nat) : Bool :=
  let i := fnIdx f
  let q0 := s.rd .HI_VF_QBASE i
  s.fnExists f
    && (decide (f % 256 = 0) || (!noJob && decide (q0 ≠ 0 ∧ q0 ≤ q ∧ q ≤ q0 + 63)
      && (!s.flag .HI_VF_BOUND i || decide (s.rd .HI_VF_JOB_SLOT i = slot))))

/-- The addresses of a binding (R104): 0 where both are good. -/
def bindAddrs (b : BindBlock) : Nat :=
  let r := if b.loc then rangeCause b.base (32 * 2 ^ b.sizeLog2) else 0
  if r ≠ 0 then r
  else if bitOf b.headAddr 1 then rangeCause (bitsOf b.headAddr 3 61 * 8) 8
  else 0

/-- Bind a queue (R102). -/
def State.bindQueue (s : State) (q : Nat) (b : BindBlock) : State :=
  let s := if b.noJob ∨ b.func % 256 = 0 then s
    else (s.wr .HI_VF_BOUND (fnIdx b.func) 1).wr .HI_VF_JOB_SLOT (fnIdx b.func) b.slot
  let s := s.setFields q b.headAddr [.QU_HEADADDR_ADDR, .QU_HEADADDR_LOC, .QU_HEADADDR_EN]
  let s := s.setFields q b.base [.QU_BASE_BASE]
  let s := s.wrAll q [(.QU_CFG_ASID, b.asid), (.QU_CFG_JOB_SLOT, b.slot), (.QU_CFG_CTLQ, 0), (.QU_CFG_FUNC, b.func), (.QU_CFG_FERRY, b.ferry),
    (.QU_CFG_THREAD, b.thread), (.QU_CFG_SIZE_LOG2, b.sizeLog2), (.QU_CFG_LOC, if b.loc then 1 else 0), (.QU_PI_PI, b.start),
    (.QU_CI_LAST_STARTED, 0), (.QU_CI_CI, b.start), (.QU_HEAD_HEAD, b.start), (.QU_STATE_ERR_INDEX, 0), (.QU_STATE_CAUSE, 0),
    (.QU_STATE_ERR_MULTI, 0), (.QU_STATE_STATE, qHalted), (.QU_STATE_HALT_REASON, 2), (.QU_STATE_DRAINED, 1)]
  let s := (s.disarm (.coal q)).disarm (.wait q)
  s.updQ q fun _ => { cursor := b.start, ep := b.ep, noJob := b.noJob }

/-- QUEUE-BIND. -/
def State.bodyQueueBind (s : State) (src : CmdSrc) (p : Priv) (x : PrivData) : State × Option Nat :=
  let bs := s.blockOf src p x
  let q := p.arg
  let pre := s.privPre src p x (!bitOf (leAt bs 30 1) 0)
  if pre ≠ 0 then (s, some pre)
  else
    match decodeBind bs with
    | none => (s, some cMalformed)
    | some b =>
      if q = 0 ∨ 65536 ≤ q ∨ !s.ferryOn b.ferry ∨ b.ep = 0xFFF then (s, some cTargetRange)
      else if !b.noJob ∧ (s.jobState b.slot ≠ jobOpened ∨ !(s.job b.slot).asids.contains b.asid) then (s, some cTargetRange)
      else
        match (if b.noJob then (s, 0) else s.jobToken (s.offer src .queueBind p x) 0x07 b.slot) with
        | (s, 0) =>
          let a := bindAddrs b
          if a ≠ 0 then (s, some a)
          else if !s.bindFuncOk b.func q b.noJob b.slot then (s, some cTargetRange)
          else if s.qState q = qDisabled ∨ (s.qState q = qHalted ∧ s.flag .QU_STATE_DRAINED q) then (s.bindQueue q b, some 0)
          else (s, some cState)
        | (s, c) => (s, some c)

/-! ## INVALIDATE (R420, R421) -/

/-- Whether an entry of a cache is one that an INVALIDATE flushes: `slot` none for ALL. -/
def TxEntry.flushed (e : TxEntry) (slot : Option Nat) (levels base stop : Nat) : Bool :=
  slot.all (fun a => decide (e.slot = a)) && bitOf levels e.level && decide (e.base < stop ∧ base < e.base + levelBytes e.level)

/-- Whether an access lies in the target of a leaf. -/
def segUnder (e : TxEntry) : Loc × Nat → Bool
  | (.host _ a, _) => !e.loc && decide (e.addr ≤ a ∧ a < e.addr + levelBytes e.level)
  | (.pkg a, _) => e.loc && decide (e.addr ≤ a ∧ a < e.addr + levelBytes e.level)

/-- The accesses in flight that were issued under flushed entries: under a flushed leaf, or a cached leaf below a flushed pointer. -/
def State.issuedUnder (s : State) (es : List TxEntry) : List Nat :=
  let leaves := s.txCache.filter fun l =>
    es.any fun e => decide (e.slot = l.slot ∧ e.base ≤ l.base ∧ l.base < e.base + levelBytes e.level)
  (s.xfers.cells.filter fun x => x.2.segs.any fun g => leaves.any fun e => segUnder e g).map (·.1)

/-- Flush, and the accesses to wait for. -/
def State.flushTx (s : State) (slot : Option Nat) (levels base stop : Nat) : State × List Nat :=
  let f (e : TxEntry) : Bool := e.flushed slot levels base stop
  let wait := s.issuedUnder ((s.walkCache ++ s.txCache).filter f)
  ({ s with walkCache := s.walkCache.filter (fun e => !f e), txCache := s.txCache.filter (fun e => !f e) }, wait)

/-- The functions whose host memory was written by writes that no flushing read has covered yet: those of transfers, and those of
operations, receives and collectives that still owe one (R189). -/
def State.unflushed (s : State) (ids : List Nat) : List Func :=
  let xs := (s.xfers.cells.filter fun x => x.2.write && ids.contains x.1).flatMap fun x => segFuncs x.2.segs
  let ts := (s.tops.cells.filter fun t => t.2.host).filterMap (·.2.port)
  let es := (s.manifest.cells.filter fun e => e.2.host).map (·.2.func)
  let rs := (s.recvs.cells.filter fun r => r.2.host).map (·.2.func)
  let cs := s.colls.cells.flatMap fun c => (c.2.insts.filter fun v => v.host).map fun v => s.qFunc v.q
  ((xs ++ ts ++ es ++ rs ++ cs).filter fun f => decide (s.fnAccess f = .ok)).eraseDups

/-- An INVALIDATE whose accesses are over makes the writes among them visible: one flushing read a function (R189, R421). -/
def State.invalFlush (s : State) (i : Inval) : State × Inval :=
  i.flush.foldl (fun a f => (a.1.startFlush .invalFlush f, { a.2 with waitFor := a.1.nextId :: a.2.waitFor }))
    (s, { i with flush := [] })

/-- Whether an INVALIDATE waits for accesses. -/
def State.invalWaits (s : State) (i : Inval) : Bool := i.waitFor.any fun x => (s.xfers.look x).isSome

/-- INVALIDATE: it completes when the accesses under the flushed entries have. -/
def State.bodyInvalidate (s : State) (src : CmdSrc) (p : Priv) (x : PrivData) : State × Option Nat :=
  let pre := s.privPre src p x false
  if pre ≠ 0 then (s, some pre)
  else
    match decodeInval (s.blockOf src p x) with
    | none => (s, some cMalformed)
    | some (base, n) =>
      let all := bitOf p.arg 16
      let slot := s.asidSlot (p.arg % 65536)
      if !all ∧ slot.isNone then (s, some cTargetRange)
      else
        match s.flushTx (if all then none else slot) p.arg2 base (if n = 0 then 2 ^ 48 else base + n) with
        | (s, wait) =>
          let i : Inval := ⟨(src, p.ltally), wait, s.unflushed wait⟩
          let r := if s.invalWaits i then (s, i) else s.invalFlush i
          ({ r.1 with invals := r.1.invals ++ [r.2] }, none)

/-- The oldest INVALIDATE whose accesses are over completes once its flushing reads have (R421, R481). -/
def State.invalOver (s : State) : State :=
  match s.invals.find? fun i => !s.invalWaits i with
  | none => s
  | some i =>
    if i.flush.isEmpty then ({ s with invals := s.invals.erase i }.count 232 7).endPriv i.src 0
    else
      let r := s.invalFlush i
      { r.1 with invals := r.1.invals.map fun j => if j = i then r.2 else j }

/-! ## SNAPSHOT (R483) -/

/-- SNAPSHOT: it completes when its record is written. -/
def State.bodySnapshot (s : State) (src : CmdSrc) (p : Priv) (x : PrivData) : State × Option Nat :=
  let pre := s.privPre src p x false
  if pre ≠ 0 then (s, some pre)
  else
    match decodeSnap (s.blockOf src p x) with
    | none => (s, some cMalformed)
    | some (t, d) =>
      let addr := d / 64 * 64
      if t < s.now + us 2 then (s, some 0x30)
      else if bitOf d 0 ∧ 0x13_8000_0000 < addr + 14112 ∧ addr ≤ 0x13_FFFF_FFFF then (s, some cReservedRange)
      else
        match (List.range 4).find? fun k => (s.snaps.look k).isNone with
        | none => (s, some cState)
        | some k =>
          let n : Snap := { src := (src, p.ltally), t := t, dest := d }
          ({ s with snaps := s.snaps.put k n }.arm (.snapshot k) t, none)

/-! ## Every privileged command -/

/-- The body of a privileged command, by its opcode. -/
def State.privBody (s : State) (op : PrivOp) (src : CmdSrc) (p : Priv) (x : PrivData) : State × Option Nat :=
  match op with
  | .jobOpen => s.bodyJobOpen src p x
  | .jobClose => s.bodyJobClose src p x
  | .keyInstall => s.bodyKeyInstall src p x
  | .windowOpen => s.bodyWindowOpen src p x
  | .windowRevoke => s.bodyWindowRevoke src p x
  | .regionRegister => s.bodyRegionRegister src p x
  | .regionDeregister => s.bodyRegionDeregister src p x
  | .treeBuild => s.bodyTreeBuild src p x
  | .routeWrite => s.bodyRouteWrite src p x
  | .routeCommit => s.bodyRouteCommit src p x
  | .loadProgram => s.bodyLoadProgram src p x
  | .ferryDrain => s.bodyFerryDrain src p x
  | .ferryResume => s.bodyFerryResume src p x
  | .queueBind => s.bodyQueueBind src p x
  | .invalidate => s.bodyInvalidate src p x
  | .snapshot => s.bodySnapshot src p x

/-! ## The rows -/

/-- LOAD_PROGRAM. -/
def execLoadProgram (src : CmdSrc) (p : Priv) (x : PrivData) (s : State) : Host.Outcome State Fault Refusal :=
  s.privRow src .loadProgram p x fun s => s.bodyLoadProgram src p x

/-- FERRY_DRAIN. -/
def execFerryDrain (src : CmdSrc) (p : Priv) (x : PrivData) (s : State) : Host.Outcome State Fault Refusal :=
  s.privRow src .ferryDrain p x fun s => s.bodyFerryDrain src p x

/-- FERRY_DRAIN_COMPLETE (R387). -/
def execFerryDrainComplete (f : Nat) (s : State) : Host.Outcome State Fault Refusal := s.whenUp fun s => s.drainOver f

/-- FERRY_RESUME. -/
def execFerryResume (src : CmdSrc) (p : Priv) (x : PrivData) (s : State) : Host.Outcome State Fault Refusal :=
  s.privRow src .ferryResume p x fun s => s.bodyFerryResume src p x

/-- QUEUE_BIND. -/
def execQueueBind (src : CmdSrc) (p : Priv) (x : PrivData) (s : State) : Host.Outcome State Fault Refusal :=
  s.privRow src .queueBind p x fun s => s.bodyQueueBind src p x

/-- INVALIDATE. -/
def execInvalidate (src : CmdSrc) (p : Priv) (x : PrivData) (s : State) : Host.Outcome State Fault Refusal :=
  s.privRow src .invalidate p x fun s => s.bodyInvalidate src p x

/-- INVALIDATE_COMPLETE (R421). -/
def execInvalidateComplete (s : State) : Host.Outcome State Fault Refusal := s.whenUp State.invalOver

/-- SNAPSHOT. -/
def execSnapshot (src : CmdSrc) (p : Priv) (x : PrivData) (s : State) : Host.Outcome State Fault Refusal :=
  s.privRow src .snapshot p x fun s => s.bodySnapshot src p x

end Sys2Proof.Machine
end

