-- ==== Sys2Proof/Machine/Images.lean ====
section
/-! DEFINITION. Images, the boot ROM's choice of a slot, updates, live procedures, anti-rollback and Iamel's own resets (R69, R70,
R457 to R463, R501), with their rows. -/

namespace Sys2Proof.Machine

/-! ## Slots (R457, R458) -/

/-- The states of Iamel: MG_STATUS.STATE. -/
def mgBoot : Nat := 0
def mgRunning : Nat := 1
def mgTrial : Nat := 2
def mgResetting : Nat := 3

/-- Whether Iamel answers: it does not reset (R451, R461). -/
def State.iamelUp (s : State) : Bool := decide (s.rd .MG_STATUS_STATE ≠ mgResetting)

/-- The images of a type. -/
def State.image (s : State) (t : Nat) : Image := (s.images.look t).getD {}

/-- A slot of an image: 0 A, 1 B. -/
def Image.slot (m : Image) (k : Nat) : ImgSlot := if k = 0 then m.a else m.b

/-- The ACTIVE slot of a type. -/
def State.activeSlot (s : State) (t : Nat) : Nat := s.rd .MG_IMAGE_ACTIVE t

/-- The image in the ACTIVE slot of a type. -/
def State.activeImg (s : State) (t : Nat) : ImgSlot := (s.image t).slot (s.activeSlot t)

/-- Whether a slot passes the check of R458: signature, TYPE, SECVER not below FLOOR. -/
def State.slotOk (s : State) (t k : Nat) : Bool :=
  let m := (s.image t).slot k
  m.ok && decide (s.rd .GLB_ROLLBACK_FLOOR t ≤ m.secver)

/-- The digest of an image, over its container's header and payload (R69, R457, log 9). -/
def ImgSlot.digest (m : ImgSlot) (t : Nat) : List Byte :=
  digestOf (leBytes 1 t ++ leBytes 1 1 ++ leBytes 2 m.secver ++ leBytes 4 m.payload.length ++ leBytes 8 m.build ++ leBytes 48 0 ++ m.payload)

/-- Put a component in a slot and report it in MG_IMAGE. -/
def State.placeSlot (s : State) (t k : Nat) (m : ImgSlot) : State :=
  let old := s.image t
  let s := { s with images := s.images.put t (if k = 0 then { old with a := m } else { old with b := m }) }
  let s := s.wr (if k = 0 then .MG_IMAGE_VER_A else .MG_IMAGE_VER_B) t m.secver
  s.setFlag (if k = 0 then .MG_IMAGE_VALID_A else .MG_IMAGE_VALID_B) t (s.slotOk t k)

/-- The boot ROM's choice for a type (R458): the ACTIVE slot; else the other one, with a BOOT_FALLBACK record; else the type's fault source. -/
def State.bootSelect (s : State) (t : Nat) : State :=
  let s := (s.setFlag .MG_IMAGE_VALID_A t (s.slotOk t 0)).setFlag .MG_IMAGE_VALID_B t (s.slotOk t 1)
  let k := s.activeSlot t
  if s.slotOk t k then s
  else if s.slotOk t (1 - k) then
    ((s.wr .MG_IMAGE_ACTIVE t (1 - k)).wr .MG_IMAGE_TRIAL t 0).logRec 1 blkMgmt .bootFallback t [t]
  else s.raise (243 + t)

/-- The units of a type that can run its image. -/
def State.unitsOf (s : State) (t : Nat) : List Nat :=
  match t with
  | 2 => (List.range 18).filter fun q => (List.range 4).any fun k => s.laneOn (4 * q + k)
  | 3 => s.huddlesOn
  | 4 => s.catchersOn
  | 5 => (List.range 64).filter s.ferryOn
  | _ => [0]

/-- A unit runs the image of the ACTIVE slot. -/
def State.runActive (s : State) (t u : Nat) : State :=
  let m := s.activeImg t
  { s with running := s.running.put (t, u) (m.secver, some m.build) }

/-- Whether a unit runs another image than the ACTIVE slot's (R462). -/
def State.runsOther (s : State) (t u : Nat) : Bool :=
  let m := s.activeImg t
  decide (s.running.look (t, u) ≠ some (m.secver, some m.build))

/-! ## Live procedures (R461, R462) -/

/-- Extend a type's measurement slot when a unit is the first that runs the ACTIVE image (R461). -/
def State.firstRun (s : State) (t : Nat) : State :=
  let m := s.activeImg t
  let seen := s.running.cells.any fun r => decide (r.1.1 = t ∧ r.2 = (m.secver, some m.build))
  if seen then s else s.extendMeas t (m.digest t)

/-- Begin the step of a unit: a lane quad's ports retrain with REASON 2, while RETRAIN_LIMIT is at least 2,500 microseconds; a catcher's
spaces and a huddle's segments move away; a ferry drains. -/
def State.beginStep (s : State) (t u : Nat) : State × Bool :=
  match t with
  | 2 =>
    if s.rd .LL_TIMERS_RETRAIN_LIMIT < 2500 then (s, false)
    else
      let ps := (s.portsOfQuad u).filter fun p => decide (s.portState p = psUp)
      (ps.foldl (fun s p => s.askRetrain p (s.rd .LL_PORT_STATE_WIDTH p) (s.rd .LL_PORT_STATE_RATE p) 2) s, true)
  | 4 => (s.catchersMoved, true)
  | 5 =>
    (if s.fxState u = fxRunning then (s.wr .FX_STATUS_STATE u fxDraining).haltFerryQueues u else s, true)
  | _ => (s, true)

/-- Begin the step of the procedure's unit, if it has not begun. -/
def State.liveBegin (s : State) : State :=
  match s.live with
  | none => s
  | some v =>
    if v.begun then s
    else
      match s.beginStep v.ptype v.unit with
      | (s, b) => { s with live := some { v with begun := b } }

/-- Start the procedure of a type over units, or of the first type after it that has units to update; none is left: UPD_TYPE 15. -/
def State.liveStart (s : State) (t : Nat) (us : List Nat) : List Nat → State
  | [] =>
    match us with
    | [] => ({ s with live := none }).wrAll 0 [(.MG_STATUS_UPD_TYPE, 15), (.MG_STATUS_UPD_UNIT, 0)]
    | u :: r =>
      (({ s with live := some ⟨t, u, false, r, []⟩ }).wrAll 0 [(.MG_STATUS_UPD_TYPE, t), (.MG_STATUS_UPD_UNIT, u)]).liveBegin
  | q :: qs =>
    match us with
    | [] => State.liveStart s q ((s.unitsOf q).filter fun u => s.runsOther q u) qs
    | u :: r =>
      (({ s with live := some ⟨t, u, false, r, q :: qs⟩ }).wrAll 0 [(.MG_STATUS_UPD_TYPE, t), (.MG_STATUS_UPD_UNIT, u)]).liveBegin

/-- Whether a unit is back in service after its step: a ferry can be loaded, a quad's ports have left their retrain. -/
def State.stepOver (s : State) (t u : Nat) : Bool :=
  match t with
  | 2 => (s.portsOfQuad u).all fun p => decide (s.portState p ≠ psRetrain) && (s.link p).trainReq.isNone
  | 5 => s.ferryStill u
  | _ => true

/-- A unit takes the ACTIVE image: a ferry's system half is replaced and the ferry runs (R386, R389). -/
def State.takeImage (s : State) (t u : Nat) : State :=
  let s := (s.firstRun t).runActive t u
  match t with
  | 4 => s.catchersMoved
  | 5 => (match decodeImage (s.activeImg 5).payload with | some b => (s.loadImage u b).runFerry u | none => s.runFerry u)
  | _ => s

/-- The present unit is back in service, or failed to return: a failure stops the type's procedure with a record, and the remaining units keep
their image (R462). Route commands that waited for it run. -/
def State.liveNext (s : State) (ok : Bool) : State :=
  match s.live with
  | none => s
  | some v =>
    if !v.begun then s.liveBegin
    else if ok && !s.stepOver v.ptype v.unit then s
    else
      let s := { s with live := some { v with begun := false } }
      let s := if ok then s.takeImage v.ptype v.unit else s.logRec 1 blkMgmt .update v.unit [v.ptype]
      let s := s.liveStart v.ptype (if ok then v.rest else []) v.queue
      s.routeGo s.routeWait

/-- LIVE_UPDATE_UNIT. -/
def execLiveUpdateUnit (ok : Bool) (s : State) : Host.Outcome State Fault Refusal :=
  s.whenUp fun s => if s.iamelUp then s.liveNext ok else s

/-! ## Iamel's resets (R458, R461, R501) -/

/-- Iamel resets: its CMDs in progress lose their replies, a procedure in progress keeps the unit at work (R462). -/
def State.iamelReset (s : State) : State :=
  let s := (s.disarm .trial).incSat .MG_STATUS_RESETS 0 1
  ({ s with cmds := [], eids := {} }).wr .MG_STATUS_STATE 0 mgResetting

/-- An unconfirmed trial ends: the ACTIVE slot before it, TRIAL clear, a TRIAL_FAILED record (R458). -/
def State.trialFails (s : State) : State :=
  if !s.flag .MG_IMAGE_TRIAL 0 then s
  else
    let s := (s.wr .MG_IMAGE_ACTIVE 0 (s.image 0).prev).wr .MG_IMAGE_TRIAL 0 0
    s.logRec 1 blkMgmt .trialFailed 0 []

/-- Iamel starts from its ACTIVE slot: on trial with TRIAL set, for 60 s (R458). -/
def State.iamelStart (s : State) : State :=
  if !s.slotOk 0 (s.activeSlot 0) then s.wr .MG_STATUS_STATE 0 mgBoot
  else
    let s := (if s.runsOther 0 0 then s.firstRun 0 else s).runActive 0 0
    if s.flag .MG_IMAGE_TRIAL 0 then (s.wr .MG_STATUS_STATE 0 mgTrial).armIn .trial (sec 60) else s.wr .MG_STATUS_STATE 0 mgRunning

/-- The boot ROM starts Iamel. -/
def State.iamelBoot (s : State) : State := ((List.range 6).foldl (fun s t => s.bootSelect t) s).iamelStart

/-- The end of a management controller reset: Iamel boots, and resumes an interrupted procedure at the first unit whose image differs from the
ACTIVE slot's (R462). -/
def State.iamelBack (s : State) : State :=
  let s := s.iamelBoot
  match s.live with
  | none => s
  | some v =>
    -- the unit in progress finished its retrain or move
    let s := if v.begun && v.ptype ≠ 5 && s.stepOver v.ptype v.unit then s.takeImage v.ptype v.unit else s
    let us := (s.unitsOf v.ptype).filter fun u => s.runsOther v.ptype u
    let s := ({ s with live := some { v with begun := false } }).liveStart v.ptype us v.queue
    s.routeGo s.routeWait

/-- MGMT_RESET_COMPLETE. -/
def execMgmtResetComplete (s : State) : Host.Outcome State Fault Refusal :=
  s.whenRef fun s => if s.iamelUp then s else s.iamelBack

/-- PW_RESET.MGMT; absorbed while Iamel resets, or while a reset of wider scope runs (R502). -/
def State.mgmtReset (s : State) : State := if s.iamelUp ∧ s.phase = .running then s.iamelReset else s

/-- PW_RESET_MGMT. -/
def execPwResetMgmt (s : State) : Host.Outcome State Fault Refusal := s.whenRef State.mgmtReset

/-- IAMEL_WATCHDOG_RESET: Iamel resets, a trial is rolled back, and the watchdog's fault source is raised. -/
def execIamelWatchdogReset (s : State) : Host.Outcome State Fault Refusal :=
  s.whenRef fun s => if s.iamelUp then (s.mgmtReset.trialFails).raise 249 else s

/-- CONFIRM of the trial slot (R458). -/
def State.confirmTrial (s : State) : State :=
  if s.rd .MG_STATUS_STATE = mgTrial then ((s.disarm .trial).wr .MG_IMAGE_TRIAL 0 0).wr .MG_STATUS_STATE 0 mgRunning else s

/-- TRIAL_CONFIRM. -/
def execTrialConfirm (s : State) : Host.Outcome State Fault Refusal := s.whenRef State.confirmTrial

/-! ## Update and commit (R459, R460) -/

/-- The codes of Iamel's answers on MCTP, PLDM and SPDM in this model (log 7): done, refused, COMMAND_NOT_EXPECTED. -/
def mgOk : Nat := 0
def mgRefused : Nat := 1
def mgNotExpected : Nat := 2

/-- Place a component in the inactive slot of its type and verify it (R459): one that is no container is refused. -/
def State.updateComponent (s : State) (t : Nat) (bs : List Byte) : State :=
  match decodeContainer bs with
  | none => s.emit (.mgmt mgRefused 0)
  | some c =>
    if 6 ≤ t then s.emit (.mgmt mgRefused 0)
    else
      let k := 1 - s.activeSlot t
      let s := s.placeSlot t k ⟨c.secver, c.build, decide (c.ptype = t) && s.productSigned c.signed c.sigR c.sigS, c.payload⟩
      s.emit (.mgmt (if s.slotOk t k then mgOk else mgRefused) 0)

/-- PLDM_UPDATE_COMPONENT. -/
def execPldmUpdateComponent (t : Nat) (container : List Byte) (s : State) : Host.Outcome State Fault Refusal :=
  s.whenRef fun s => if s.iamelUp then s.updateComponent t container else s

/-- The new slot of a type becomes ACTIVE: on trial for type 0, PENDING for type 1 (R459). -/
def State.activate (s : State) (t : Nat) : State :=
  let k := s.activeSlot t
  let s := { s with images := s.images.put t { s.image t with prev := k } }
  let s := s.wr .MG_IMAGE_ACTIVE t (1 - k)
  if t = 0 then s.wr .MG_IMAGE_TRIAL 0 1 else if t = 1 then s.wr .MG_IMAGE_PENDING 1 1 else s

/-- ActivateFirmware: refused while a live procedure runs, or for a slot that was not verified; else every named type's new slot becomes
ACTIVE, the procedures of types 2 to 5 start in turn, and Iamel resets for type 0 (R459, R461, R462). -/
def State.activateAll (s : State) (ts : List Nat) : State :=
  let ts := ts.eraseDups
  if s.live.isSome then s.emit (.mgmt mgNotExpected 0)
  else if ts.any fun t => decide (6 ≤ t) || !s.slotOk t (1 - s.activeSlot t) then s.emit (.mgmt mgRefused 0)
  else
    let s := (ts.foldl (fun s t => s.activate t) s).emit (.mgmt mgOk 0)
    let live := (ts.filter fun t => decide (2 ≤ t)).mergeSort (· ≤ ·)
    let s := match live with | [] => s | t :: r => s.liveStart t (s.unitsOf t) r
    if ts.contains 0 then s.iamelReset else s

/-- ACTIVATE_FIRMWARE. -/
def execActivateFirmware (ts : List Nat) (s : State) : Host.Outcome State Fault Refusal :=
  s.whenUp fun s => if s.iamelUp then s.activateAll ts else s

/-- A signed COMMIT (R460): FLOOR rises to `v`. The cause of a COMMIT that fails is a free value (log 8). -/
def State.commitFloor (s : State) (req t v : Nat) (sigR sigS : List Byte) : State :=
  let runs := s.runVers t
  if s.productSigned (leBytes 1 t ++ leBytes 2 v) sigR sigS && decide (t < 6 ∧ v ≤ 256 ∧ v ≤ (s.activeImg t).secver) && runs.all fun r => decide (v ≤ r) then
    (if s.rd .GLB_ROLLBACK_FLOOR t < v then s.wr .GLB_ROLLBACK_FLOOR t v else s).emit (.status req 0 0)
  else (s.emit (.status req 0 (s.freeVal 8))).freeNext

/-- COMMIT. -/
def execCommit (req t v : Nat) (sigR sigS : List Byte) (s : State) : Host.Outcome State Fault Refusal :=
  s.whenRef fun s => if s.iamelUp then s.commitFloor req t v sigR sigS else s

end Sys2Proof.Machine
end

