-- ==== Sys2Proof/Machine/Lanes.lean ====
section
/-! DEFINITION. The meanings of the lanes' events (R331 to R350). -/

namespace Sys2Proof.Machine

/-- TRAINING_FRAME_RECEIVE: a training frame, ignored where its check fails (R333 to R338). -/
def execTrainingFrameReceive (l : Nat) (w : Nat) (s : State) : Host.Outcome State Fault Refusal :=
  s.whenUp fun s =>
    match decodeFrame w with
    | some f => if s.laneOn l then s.frameIn l f else s
    | none => s

/-- LANE_REQUEST_REPEAT: a request without its ECHO is repeated with the same SEQ (R337). -/
def execLaneRequestRepeat (l : Nat) (s : State) : Host.Outcome State Fault Refusal :=
  s.whenDue (.laneReq l) fun s =>
    if (s.lane l).training && (s.lane l).req.isSome then (s.sendFrame l).armIn (.laneReq l) (us 10) else s

/-- FAST_PATH_TIMEOUT: the fast path has not finished in 40 microseconds; full training follows (R327, R338). -/
def execFastPathTimeout (l : Nat) (s : State) : Host.Outcome State Fault Refusal :=
  s.whenDue (.fastPath l) fun s => if (s.lane l).training then s.laneFull l else s

/-- Full training of a lane starts again from its PRESET, counted in ATTEMPTS; a released lane that fails to train in the
retrain that was to repair it is FAILED again, and the port keeps its narrower width (R339, R349). -/
def State.laneAgain (s : State) (l : Nat) : State :=
  if !(s.lane l).training then s
  else
    match s.portOfLane l with
    | some p =>
      let k := s.link p
      if s.portState p = psRetrain ∧ k.reason = 3 ∧ !k.group.contains l then
        let s := (s.wr .LN_LANE_STATUS_FAILED l 1).laneStop l
        let s := s.wr .LN_LANE_STATUS_PSTATE l 1
        let s := s.updLink p fun k => { k with goal := (s.reachWidth p k.goal.1, k.goal.2) }
        s.lanesDone p
      else (s.incSat .LN_LANE_STATUS_ATTEMPTS l 1).laneFull l
    | none => (s.incSat .LN_LANE_STATUS_ATTEMPTS l 1).laneFull l

/-- FULL_TRAINING_RESTART: a lane has not finished full training within 2 ms (R339). -/
def execFullTrainingRestart (l : Nat) (s : State) : Host.Outcome State Fault Refusal :=
  s.whenDue (.fullTrain l) fun s => s.laneAgain l

/-- RECAL_REQUEST: the receiving end of a lane requests a recalibration (R345, R346). -/
def execRecalRequest (l : Nat) (s : State) : Host.Outcome State Fault Refusal :=
  s.whenLive fun s => if s.laneOn l then s.recalAsk l else s

/-- Mark lost lanes FAILED and narrow their port (R347, R348). -/
def State.narrow (s : State) (p : Nat) (lost : List Nat) : State :=
  let k := s.link p
  let w := s.rd .LL_PORT_STATE_WIDTH p
  let lost := lost.filter fun l => k.group.contains l && !s.flag .LN_LANE_STATUS_LOCK l
  let keeps := (s.groups p (w - 1)).any fun g => g.all fun l => k.group.contains l && s.flag .LN_LANE_STATUS_LOCK l
  let fail (s : State) : State := lost.foldl (fun s l =>
    ((s.wr .LN_LANE_STATUS_FAILED l 1).wr .LN_LANE_STATUS_PSTATE l 1).laneStop l) s
  if lost.isEmpty || decide (w = 0) || !peNarrow (s.portEntry p) then s
  else if s.portState p = psUp && (keeps || (s.groups p 0).any fun g => g.all fun l => k.group.contains l && s.flag .LN_LANE_STATUS_LOCK l) then
    let held := k.group.all fun l => lost.contains l || s.flag .LN_LANE_STATUS_LOCK l
    let s := ((fail s).updLink p fun k => { k with lostAt := if held then none else k.lostAt, recal := none }).logRec 1 0x05 .laneFailed p lost
    s.askRetrain p (s.reachWidth p (w - 1)) (s.rd .LL_PORT_STATE_RATE p) 1
  else if s.portState p = psRetrain then
    let s := fail s
    let s := s.updLink p fun k => { k with goal := (s.reachWidth p k.goal.1, k.goal.2) }
    s.lanesDone p
  else s

/-- LANE_FAILURE_NARROW: some lanes of a port lost lock and a narrower aligned group keeps it (R347). -/
def execLaneFailureNarrow (p : Nat) (lost : List Nat) (s : State) : Host.Outcome State Fault Refusal :=
  s.whenLive fun s => if s.portOn p then s.narrow p lost else s

/-- LN_LANE_SER_READ: a read of LN_LANE_SER[l] returns SYM_ERR and clears it (R350). -/
def execLnLaneSerRead (l : Nat) (s : State) : Host.Outcome State Fault Refusal :=
  s.whenUp fun s => if l < 72 then s.readOut .LN_LANE_SER l else s

/-- LN_LANE_PRBS_READ: a read of LN_LANE_PRBS[l] returns CHK_LOCK and ERRORS and clears ERRORS (R344). -/
def execLnLanePrbsRead (l : Nat) (s : State) : Host.Outcome State Fault Refusal :=
  s.whenUp fun s => if l < 72 then s.readOut .LN_LANE_PRBS l else s

/-- PRBS_CHECKER_LOCK: the checker of a lane without a port locks to its PRBS (R343, R344). -/
def execPrbsCheckerLock (l : Nat) (s : State) : Host.Outcome State Fault Refusal :=
  s.whenUp fun s =>
    if s.laneOn l && bitOf (s.laneEntry l) 18 && (s.portOfLane l).isNone then s.wr .LN_LANE_PRBS_CHK_LOCK l 1 else s

end Sys2Proof.Machine
end

