-- ==== Sys2Proof/Machine/Links.lean ====
section
/-! DEFINITION. The meanings of the link layer's events (R303 to R330). -/

namespace Sys2Proof.Machine

/-- FLIT_TRANSMIT: at a flit boundary a port sends the first flit that is ready (R317). -/
def execFlitTransmit (p : Nat) (s : State) : Host.Outcome State Fault Refusal :=
  s.whenLive fun s => if s.linkRuns p then s.transmit p else s

/-- DATA_FLIT_RECEIVE: a sequenced flit arrives, or one whose CRC fails or that is malformed (R310, R312, R313). -/
def execDataFlitReceive (p : Nat) (c : CodeHalf) (s : State) : Host.Outcome State Fault Refusal :=
  s.whenLive fun s =>
    if !s.linkRuns p then s
    else
      match s.takeHalf p c with
      | some (_, _, .ok _) => s.onFlit p c (fun f => flitSeq f.pay) fun s f => if s.portState p = psUp then s.flitIn p f else s
      | _ => s.onBadFlit p c

/-- CREDIT_FLIT_RECEIVE: a CREDIT flit arrives (R316, R310). -/
def execCreditFlitReceive (p : Nat) (c : CodeHalf) (s : State) : Host.Outcome State Fault Refusal :=
  s.whenLive fun s =>
    if s.linkRuns p then s.onFlit p c (fun f => isCredit f.pay) fun s f => if s.portState p = psUp then s.flitIn p f else s else s

/-- REPLAY_TIMEOUT: ACKED has not advanced within the effective timeout (R312, R314). -/
def execReplayTimeout (p : Nat) (s : State) : Host.Outcome State Fault Refusal :=
  s.whenDue (.replay p) fun s => if s.portState p = psUp then s.startReplay p else s

/-- NACK_REPEAT_TIMEOUT: the receiver in NACK_SENT sends one more NACK (R313). -/
def execNackRepeatTimeout (p : Nat) (s : State) : Host.Outcome State Fault Refusal :=
  s.whenDue (.nackRepeat p) fun s =>
    if s.portState p = psUp ∧ (s.link p).nackSent then s.updLink p fun k => { k with nackDue := true } else s

/-- FEC_LOCK_GAIN: a lane gains FEC lock after 8 consecutive codewords at one boundary (R305). -/
def execFecLockGain (l : Nat) (s : State) : Host.Outcome State Fault Refusal :=
  s.whenUp fun s =>
    if !s.laneOn l || (s.lane l).training then s
    else
      let s := (s.wr .LN_LANE_STATUS_LOCK l 1).wr .LN_LANE_STATUS_CDR_LOCK l 1
      match s.portOfLane l with
      | none => s
      | some p =>
        if (s.link p).group.all fun k => s.flag .LN_LANE_STATUS_LOCK k then s.updLink p fun k => { k with lostAt := none } else s

/-- FEC_LOCK_LOSS: a lane loses FEC lock; a port in service, or one that has trained for its retrain, has lost lock
from now on (R305, R322, R326). -/
def execFecLockLoss (l : Nat) (s : State) : Host.Outcome State Fault Refusal :=
  s.whenUp fun s =>
    if !s.laneOn l || !s.flag .LN_LANE_STATUS_LOCK l then s
    else
      let s := (s.wr .LN_LANE_STATUS_LOCK l 0).count (200 + l / 4) 3 (l % 4)
      match s.portOfLane l with
      | none => s
      | some p =>
        let k := s.link p
        let st := s.portState p
        if k.group.contains l && k.lostAt.isNone
            && (decide (st = psUp) || (decide (st = psRetrain) && (k.helloDue || k.helloSent))) then
          s.updLink p fun k => { k with lostAt := some s.now }
        else s

/-- PORT_DOWN: lock lost for 1 microsecond, or RFAIL at 8, declares the port down (R326). -/
def execPortDown (p cause : Nat) (s : State) : Host.Outcome State Fault Refusal :=
  s.whenUp fun s =>
    if cause = dcLock then
      match (s.link p).lostAt with
      | some t => (s.setNow (t + us 1)).declareDown p dcLock
      | none => s
    else if cause = dcReplay ∧ s.portState p = psUp ∧ 8 ≤ s.rd .LL_PORT_STATE_RFAIL p then s.declareDown p dcReplay
    else if cause = dcRetrain ∧ s.portState p = psRetrain then
      match s.timers.look (.retrain p) with
      | some t => (s.setNow t).declareDown p dcRetrain
      | none => s
    else s

/-- HELLO_RECEIVE: a HELLO completes the exchange, resumes, holds or flushes (R320, R321, R324, R328, R329). -/
def execHelloReceive (p : Nat) (c : CodeHalf) (s : State) : Host.Outcome State Fault Refusal :=
  s.whenLive fun s =>
    if !s.linkRuns p then s
    else
      s.onFlit p c (fun f => isHello f.pay) fun s f =>
        match f.pay with
        | .hello h =>
          let s := if h.init then s else s.unseqHeader p f
          let s := s.helloIn p h
          if s.portState p = psUp then s.recalNext p else s
        | _ => s

/-- HELLO_REPEAT: HELLO is sent again each microsecond until the exchange is done (R320). -/
def execHelloRepeat (p : Nat) (s : State) : Host.Outcome State Fault Refusal :=
  s.whenDue (.hello p) fun s =>
    if s.portState p = psUp ∨ s.portState p = psDisabled then s else s.updLink p fun k => { k with helloDue := true }

/-- HOLD_EXPIRY: the hold ends without a HELLO that resumes it; the port flushes and trains (R328, R329). -/
def execHoldExpiry (p : Nat) (s : State) : Host.Outcome State Fault Refusal :=
  s.whenDue (.hold p) fun s => if s.portState p = psHold then (s.flushPort p).helloAgain p else s

/-- TRAIN_FLIT_RECEIVE: a TRAIN REQ or ACK (R324, R325). -/
def execTrainFlitReceive (p : Nat) (c : CodeHalf) (s : State) : Host.Outcome State Fault Refusal :=
  s.whenLive fun s =>
    if !s.linkRuns p then s
    else
      s.onFlit p c (fun f => isTrain f.pay) fun s f =>
        match f.pay with
        | .train t => (s.unseqHeader p f).trainIn p t
        | _ => s

/-- TRAIN_REQ_REPEAT: TRAIN REQ is repeated each microsecond until answered (R324). -/
def execTrainReqRepeat (p : Nat) (s : State) : Host.Outcome State Fault Refusal :=
  s.whenDue (.trainReq p) fun s =>
    if s.portState p = psUp then
      match (s.link p).trainReq with
      | some t => s.updLink p fun k => { k with trainDue := some t }
      | none => s
    else s

/-- RETRAIN_LIMIT_EXPIRY: a retrain that outlasts RETRAIN_LIMIT declares the port down (R322, R326). -/
def execRetrainLimitExpiry (p : Nat) (s : State) : Host.Outcome State Fault Refusal :=
  s.whenDue (.retrain p) fun s => if s.portState p = psRetrain then s.declareDown p dcRetrain else s

/-- PORT_DISABLE_DRAIN_END: 100 microseconds after EN was cleared the port is DISABLED whatever is unacknowledged
(R319). -/
def execPortDisableDrainEnd (p : Nat) (s : State) : Host.Outcome State Fault Refusal :=
  s.whenDue (.drain p) fun s => if (s.link p).disabling then s.disablePort p else s

end Sys2Proof.Machine
end

