-- ==== Sys2Proof/Machine/MachineTime.lean ====
section
/-! DEFINITION. The meanings of machine time's events (R351 to R361). -/

namespace Sys2Proof.Machine

/-- TIME_FLIT_RECEIVE: a TIME flit brings a candidate, and from the parent an offset (R351, R353, R354). -/
def execTimeFlitReceive (p : Nat) (c : CodeHalf) (s : State) : Host.Outcome State Fault Refusal :=
  s.whenLive fun s =>
    if !s.linkRuns p then s
    else
      s.onFlit p c (fun f => isTime f.pay) fun s f =>
        match f.pay with
        | .time t => if s.portState p = psUp then (s.unseqHeader p f).timeIn p t else s
        | _ => s

/-- The nearest time to `now` that is a whole number of seconds plus an offset. -/
def ppsTarget (now off : Nat) : Nat := (now + sec 1 / 2 - off) / sec 1 * sec 1 + off

/-- PPS_EDGE: a rising edge of TIME_PPS_IN; the second of two that are a second apart makes the reference valid, and each
aligns the count (R352). -/
def execPpsEdge (s : State) : Host.Outcome State Fault Refusal :=
  if s.phase = .auxHeld ∨ !s.flag .MT_CFG_EXT_EN then .next s
  else
    let good := match s.servo.pps with
      | some t => decide (s.now ≤ t + sec 1 + us 1 ∧ t + sec 1 ≤ s.now + us 1)
      | none => false
    let s := { s with servo := { s.servo with pps := some s.now } }
    if !good then s.fin
    else
      let s := { s with servo := { s.servo with ext := true } }
      let off : Int := (ppsTarget s.now (s.rd .MT_CFG_EXT_OFFSET) : Int) - s.now
      let s := (s.armIn .extRef (sec 2)).chooseTime
      if s.servo.self && decide (4 < off.natAbs) then
        let s := s.takeOffset off
        { s with servo := { s.servo with pps := some s.now } }.fin
      else s.fin

/-- EXT_REFERENCE_LOSS: a reference signal is lost; EXT is dropped (R352). -/
def execExtReferenceLoss (s : State) : Host.Outcome State Fault Refusal :=
  s.whenDue .extRef fun s => ({ s with servo := { s.servo with ext := false, pps := none } }).chooseTime

/-- PARENT_LOSS: the parent port is down, or sent no valid TIME flit for 30 microseconds (R356). -/
def execParentLoss (s : State) : Host.Outcome State Fault Refusal :=
  s.whenDue .parent fun s => if s.rd .MT_STATUS_PARENT = 127 then s else s.loseParent

/-- HOLDOVER_EXPIRY: after 1 ms in HOLDOVER the candidate is dropped and the best remaining one adopted (R356). -/
def execHoldoverExpiry (s : State) : Host.Outcome State Fault Refusal :=
  s.whenDue .holdover fun s =>
    if s.rd .MT_STATUS_STATE ≠ mtHoldover then s
    else
      let v := s.servo
      let ann : Tab Nat Announce := v.ann.keep fun _ a => decide ((a.prio, a.serial) ≠ (v.gmPrio, v.gmSerial))
      let s := { s with servo := { v with ann := ann, gmPrio := 255, gmSerial := s.rd .GLB_SERIAL_SERIAL } }
      let s := s.wrAll 0 [(.MT_STATUS_STATE, mtUnlocked), (.MT_STATUS_DEPTH, 255)]
      s.chooseTime

/-- Whether the COUNTER of a job's WHISTLE packet is fresh for its source node and job (R358). -/
def State.whistleFresh (s : State) (w : Schedule) (node counter : Nat) : Bool :=
  match s.whlCount.look (w.jobId * 2 ^ 20 + node) with
  | some n => decide (n < counter)
  | none => true

/-- Take a job's WHISTLE packet: forward it down the key tree and schedule the line; a full line at the scheduling device fails
the WHISTLE that waits for the firing (R358, R359). -/
def State.whistleJob (s : State) (w : Schedule) (node counter : Nat) : State :=
  match s.slotOf w.jobId with
  | none => s
  | some j =>
    let b := s.job j
    if s.jobState j ≠ jobOpened ∨ !bitOf b.whistleMask w.line ∨ !s.whistleFresh w node counter then s
    else
      let s := { s with whlCount := s.whlCount.put (w.jobId * 2 ^ 20 + node) counter }
      let s := s.sendWhistle w (b.kids.map b.nodeAt)
      match s.schedule w.line ⟨w.time, some w.jobId⟩ with
      | (s, true) => s
      | (s, false) => if w.origin = s.nodeId then s.whistleFail j w.line w.time else s

/-- Whether a job's WHISTLE packet verifies under one of the job's held generations (R358). -/
def State.whistleOk (s : State) (pkt : Packet) (jobId : Nat) : Bool :=
  match s.slotOf jobId with
  | some j => (s.job j).keys.cells.any fun k => Packet.mgVerifies pkt (whistleKey k.2 jobId (pkt.src / 4096))
  | none => false

/-- WHISTLE_PACKET_RECEIVE: an MG WHISTLE packet of a job, or of a fabric manager under its session (R288, R358, R359). -/
def execWhistlePacketReceive (pkt : Packet) (s : State) : Host.Outcome State Fault Refusal :=
  s.whenLive fun s => s.mgTake fun s =>
    match pkt.body with
    | .mg _ auth session counter tag (.whistle w) =>
      if pkt.ptype ≠ 0x46 ∨ !auth ∨ !Packet.mgOk pkt ∨ 16 ≤ w.line then s.mgDiscard
      else if bitOf session 31 then
        if !w.byJob || decide (session ≠ 2 ^ 31 + w.jobId) then s
        else if !s.whistleOk pkt w.jobId then s.logRec 1 0x0B .authentication 0 [pkt.src, w.jobId]
        else s.whistleJob w (pkt.src / 4096) counter
      else
        match s.checkCred ⟨session, counter, tag⟩ (Packet.mgCovered pkt) with
        | (s, 0) => if w.byJob then s else (s.schedule w.line ⟨w.time, none⟩).1
        | (s, _) => s
    | _ => s

/-- The earliest pending firing of a line. -/
def State.nextFiring (s : State) (line : Nat) : Option Firing :=
  (s.firingsOf line).foldl (fun a x => match a with | none => some x | some y => if x.time < y.time then some x else some y) none

/-- WHISTLE_FIRE: the earliest pending firing of a line comes due (R360). -/
def execWhistleFire (line : Nat) (s : State) : Host.Outcome State Fault Refusal :=
  match s.nextFiring line with
  | none => .next s
  | some x =>
    let s := { s.setNow x.time with firings := s.firings.put line ((s.firingsOf line).erase x) }
    ((s.wr .MT_LINE_PENDING line (s.firingsOf line).length).fireLine line x false).fin

/-- TRIG_CAPTURE_EDGE: an edge at a capture pin is stamped, or counted in DROPPED (R361). -/
def execTrigCaptureEdge (k : Nat) (rising : Bool) (s : State) : Host.Outcome State Fault Refusal :=
  s.whenUp fun s =>
    let m := s.rd .MT_TRIG_CFG_MODE k
    if 4 ≤ k ∨ !((m = 1 && rising) || (m = 2 && !rising) || decide (m = 3)) then s
    else
      let q := (s.trig.look k).getD []
      if 64 ≤ q.length then s.incSat .MT_TRIG_STAT_DROPPED k 1
      else { s with trig := s.trig.put k (q ++ [s.now / 2 * 2 + (if rising then 1 else 0)]) }

/-- When an output pin of mode 5 or 6 fires next (R361): mode 5 once at TIME, mode 6 at TIME + n × PERIOD. -/
def State.trigNext (s : State) (k : Nat) : Option Nat :=
  let t := s.rd .MT_TRIG_TIME_TIME k
  let m := s.rd .MT_TRIG_CFG_MODE k
  let per := 4 * s.rd .MT_TRIG_CFG_PERIOD k
  if m = 5 then (if s.now ≤ t then some t else none)
  else if m = 6 ∧ per ≠ 0 then some (if s.now ≤ t then t else t + ceilDiv (s.now - t) per * per)
  else none

/-- TRIG_OUTPUT_FIRE: an output pin drives its pulse at its machine time (R361); the time moves past it. -/
def execTrigOutputFire (k : Nat) (s : State) : Host.Outcome State Fault Refusal :=
  s.whenUp fun s =>
    if 4 ≤ k then s
    else
      match s.trigNext k with
      | some t => (s.setNow (max s.now t + 1)).emit (.trig k (s.rd .MT_TRIG_CFG_WIDTH k))
      | none => s

/-- Write MT_TRIG_CFG[k] (R361): a change of mode discards the queue. -/
def State.writeTrigCfg (s : State) (k v : Nat) : State :=
  let s := if Fld.of .MT_TRIG_CFG_MODE v ≠ s.rd .MT_TRIG_CFG_MODE k then { s with trig := s.trig.del k } else s
  (s.setFields k v [.MT_TRIG_CFG_LINE]).setRanged k v
    [(.MT_TRIG_CFG_PERIOD, 0, 4000000000), (.MT_TRIG_CFG_WIDTH, 4, 65535), (.MT_TRIG_CFG_MODE, 0, 6)]

/-- MT_TRIG_CFG_WRITE: the control path writes MT_TRIG_CFG[k] (R361). -/
def execMtTrigCfgWrite (k v : Nat) (s : State) : Host.Outcome State Fault Refusal :=
  s.whenUp fun s => if k < 4 then s.writeTrigCfg k v else s

/-- MT_TRIG_CAP_READ: the oldest stamp is returned and removed (R361). -/
def execMtTrigCapRead (k : Nat) (s : State) : Host.Outcome State Fault Refusal :=
  s.whenUp fun s => if k < 4 then s.readOut .MT_TRIG_CAP k else s

/-- MT_TRIG_STAT_READ: DROPPED is returned and cleared (R361). -/
def execMtTrigStatRead (k : Nat) (s : State) : Host.Outcome State Fault Refusal :=
  s.whenUp fun s => if k < 4 then s.readOut .MT_TRIG_STAT k else s

/-- MT_LINE_READ: the counts of a line are returned and cleared (R359, R360). -/
def execMtLineRead (w : Nat) (s : State) : Host.Outcome State Fault Refusal :=
  s.whenUp fun s => if w < 16 then s.readOut .MT_LINE w else s

end Sys2Proof.Machine
end

