-- ==== Sys2Proof/Machine/Pins.lean ====
section
/-! DEFINITION. The balls (R506 to R510) and what the straps fix of the pins (R512): where each signal lies, and the level that the board gives
an output whose domain is in reset or absent (R505). -/

namespace Sys2Proof.Machine

/-! ## Ball names and positions (R506 to R508) -/

/-- The second letters of a block of rows, in order. -/
def rowLetters : List Char := "ABCDEFGHJKLMNPTUVWY".toList

/-- The name of row n, 1 to 72 (R506): A to Y, AA to AY, BA to BY, CA to CT. -/
def rowName (n : Nat) : String :=
  let letter := String.ofList ((rowLetters.drop ((n - 1) % 19)).take 1)
  let block := String.ofList (("ABC".toList.drop ((n - 1) / 19 - 1)).take 1)
  if n ≤ 19 then letter else block ++ letter

/-- A ball, by row and column, 1 to 72 each. -/
structure Ball where
  row : Nat
  col : Nat
  deriving DecidableEq, Repr

/-- The name of a ball: its row and its column. -/
def Ball.name (b : Ball) : String := rowName b.row ++ toString b.col

/-- TXP, TXN, RXP and RXN of lane l (R508). -/
def laneBalls (l : Nat) : List Ball :=
  let k := l % 36
  let tx := if l < 36 then 1 else 72
  let rx := if l < 36 then 3 else 70
  [⟨tx, 2 * k + 1⟩, ⟨tx, 2 * k + 2⟩, ⟨rx, 2 * k + 1⟩, ⟨rx, 2 * k + 2⟩]

/-- TXP, TXN, RXP and RXN of PCIe lane i of HA, or of HB (R508). -/
def pcieBalls (hb : Bool) (i : Nat) : List Ball :=
  let tx := if hb then 72 else 1
  let rx := if hb then 70 else 3
  [⟨6 + 2 * i, tx⟩, ⟨7 + 2 * i, tx⟩, ⟨6 + 2 * i, rx⟩, ⟨7 + 2 * i, rx⟩]

/-! ## The interior (R509) -/

/-- The supplies of the interior balls. -/
inductive Rail where
  | vddL075
  | vddL12
  | vddP075
  | vddP12
  | hbmVdd
  | hbmVddq
  | hbmVpp
  | vddAux
  | vddIo
  | vddSram
  | vddCore
  | vss
  deriving DecidableEq, Repr

/-- The supply of the region that an interior ball lies in (the table of R509). -/
def railOf (b : Ball) : Rail :=
  let r := b.row
  let c := b.col
  if r ≤ 8 ∨ 65 ≤ r then .vddL075
  else if r ≤ 12 ∨ 61 ≤ r then .vddL12
  else if c ≤ 6 ∨ 67 ≤ c then .vddP075
  else if c ≤ 8 ∨ 65 ≤ c then .vddP12
  else if c ≤ 12 then (if r ≤ 44 then .hbmVdd else if r ≤ 56 then .hbmVddq else .hbmVpp)
  else if 61 ≤ c then (if r ≤ 16 then .vddAux else if r ≤ 20 then .vddIo else .vddSram)
  else .vddCore

/-- What an interior ball carries, rows and columns 5 to 68: its region's supply where row and column add to an odd number, else VSS. -/
def interior (b : Ball) : Option Rail :=
  if b.row < 5 ∨ 68 < b.row ∨ b.col < 5 ∨ 68 < b.col then none
  else some (if (b.row + b.col) % 2 = 1 then railOf b else .vss)

/-! ## Sideband (R510, R505, R512) -/

/-- The level of a ball whose domain is in reset, unpowered or absent. -/
inductive Idle where
  | low
  | high
  | released
  | off
  /-- The table names none. -/
  | unnamed
  deriving DecidableEq, Repr

/-- A row of the sideband table: the signals, their balls, and the level that the board's resistor sets. -/
structure Sideband where
  signals : List String
  balls : List String
  idle : Idle
  deriving DecidableEq, Repr

/-- The sideband table, clocks, time and buses (R510). -/
def sidebandBuses : List Sideband := [
  ⟨["SYS_REFCLK"], ["BA1"], .unnamed⟩, ⟨["LREFCLK0_P", "LREFCLK0_N"], ["BB1", "BC1"], .unnamed⟩,
  ⟨["LREFCLK1_P", "LREFCLK1_N"], ["BD1", "BE1"], .unnamed⟩, ⟨["TIME_REF_IN", "TIME_PPS_IN"], ["BF1", "BG1"], .low⟩,
  ⟨["TRIG0", "TRIG1", "TRIG2", "TRIG3"], ["BH1", "BJ1", "BK1", "BL1"], .low⟩, ⟨["SMB0_SCL", "SMB0_SDA"], ["BM1", "BN1"], .released⟩,
  ⟨["SMB0_ALERT_N"], ["BP1"], .high⟩, ⟨["SMB1_SCL", "SMB1_SDA"], ["BT1", "BU1"], .released⟩, ⟨["SMB1_ALERT_N"], ["BV1"], .high⟩,
  ⟨["UART_TX", "UART_RX"], ["BW1", "BY1"], .high⟩, ⟨["TCK"], ["CA1"], .unnamed⟩, ⟨["TMS", "TDI"], ["CB1", "CC1"], .unnamed⟩,
  ⟨["TDO"], ["CD1"], .high⟩, ⟨["TRST_N"], ["CE1"], .low⟩, ⟨["QSPI_SCK"], ["CF1"], .low⟩, ⟨["QSPI_CS_N"], ["CG1"], .high⟩,
  ⟨["QSPI_IO0", "QSPI_IO1", "QSPI_IO2", "QSPI_IO3"], ["BA3", "BB3", "BC3", "BD3"], .high⟩]

/-- The sideband table, resets, straps, hosts, AVSBus and e-fuses (R510). -/
def sidebandPower : List Sideband := [
  ⟨["RESET_N"], ["BE3"], .unnamed⟩, ⟨["PWROK_MAIN"], ["BF3"], .low⟩, ⟨["ALIVE"], ["BG3"], .low⟩, ⟨["SAG_WARN_N"], ["BH3"], .high⟩,
  ⟨["HB_MODE0", "HB_MODE1"], ["BJ3", "BK3"], .unnamed⟩, ⟨["MG_ADDR0", "MG_ADDR1", "MG_ADDR2", "MG_ADDR3"], ["BL3", "BM3", "BN3", "BP3"], .unnamed⟩,
  ⟨["EFA_AUTO"], ["BT3"], .unnamed⟩, ⟨["HA_REFCLK_P", "HA_REFCLK_N"], ["BU3", "BV3"], .unnamed⟩, ⟨["HA_PERST_N"], ["BW3"], .low⟩,
  ⟨["HB_REFCLK_P", "HB_REFCLK_N"], ["BA72", "BB72"], .unnamed⟩, ⟨["HB_PERST_N"], ["BC72"], .low⟩,
  ⟨["HB_PRSNT_N", "HB_ATTN_BTN_N"], ["BD72", "BE72"], .high⟩, ⟨["HB_PWR_LED_N", "HB_ATTN_LED_N"], ["BF72", "BG72"], .high⟩,
  ⟨["AVS_CLK"], ["BH72"], .low⟩, ⟨["AVS_MDATA"], ["BJ72"], .high⟩, ⟨["AVS_SDATA"], ["BK72"], .unnamed⟩,
  ⟨["EFA_GATE", "EFB_GATE"], ["BL72", "BY72"], .off⟩, ⟨["EFA_SRC", "EFB_SRC"], ["BM72", "CA72"], .unnamed⟩,
  ⟨["EFA_SNSP", "EFA_SNSN"], ["BN72", "BP72"], .unnamed⟩, ⟨["EFB_SNSP", "EFB_SNSN"], ["CB72", "CC72"], .unnamed⟩,
  ⟨["EFA_VIN", "EFB_VIN"], ["BT72", "CD72"], .unnamed⟩, ⟨["EFA_DP", "EFA_DN", "EFB_DP", "EFB_DN"], ["BU72", "BV72", "CE72", "CF72"], .unnamed⟩,
  ⟨["EFA_PG_N"], ["BW72"], .high⟩]

/-- The sideband table (R510). -/
def sideband : List Sideband := sidebandBuses ++ sidebandPower

/-- The 7-bit SMBus address of port 0 or 1 (R449, R512). -/
def State.smbusAddr (s : State) (port : Nat) : Nat := 0x40 + 2 * s.strapMg + port

end Sys2Proof.Machine
end

