-- ==== Sys2Proof/Machine/Mgmt.lean ====
section
/-! DEFINITION. The management agent's rows (R49, R288, R449 to R456, R488): Welrirel messages, MG packets, the log, MCTP control. -/

namespace Sys2Proof.Machine

/-! ## Welrirel messages (R450) -/

/-- The privileged entry at an offset of a message, as its opcode and its fields, with its second slot (R450, R288, R142). -/
def msgEntry (msg : List Byte) (off : Nat) : Option (PrivOp × Priv × List Byte) :=
  match privOp (leAt msg off 1), decodeEntry ((msg.drop off).take 32) with
  | some op, some (.priv _ p) =>
    some (op, p, if privSlots op = 2 then (msg.drop (off + 32)).take 32 else [])
  | _, _ => none

/-- A CMD of Iamel: malformed, busy, or started. While main or warm reset runs no command starts: busy. -/
def State.welrirel (s : State) (req : Nat) (msg : List Byte) : State :=
  match msgEntry msg 4 with
  | none => s.emit (.status req 2 0)
  | some e =>
    if 8 ≤ s.cmds.length ∨ s.phase ≠ .running then s.emit (.status req 1 0)
    else
      let x : PrivData := { msg := msg, trailer := e.2.2 }
      s.runPriv (.iamel req) e.1 e.2.1 x fun s => s.privBody e.1 (.iamel req) e.2.1 x

/-- WELRIREL_CMD: a CMD, whose entry follows KIND, the request number and a byte 0 (log 33). A message of another kind is malformed here. -/
def execWelrirelCmd (msg : List Byte) (s : State) : Host.Outcome State Fault Refusal :=
  s.whenRef fun s =>
    if !s.iamelUp then s
    else if leAt msg 0 1 = 1 ∧ leAt msg 3 1 = 0 then s.welrirel (leAt msg 1 2) msg
    else s.emit (.status (leAt msg 1 2) 2 0)

/-- Enrol an authority key (R49): slot 0 only while every slot is empty; slot n + 1 under a token signed with the key in slot n. The cause of
an enrolment that fails without a token's cause is a free value (log 8). -/
def State.enrol (s : State) (req : Nat) (slot0 : Bool) (key token : List Byte) : State :=
  let n := s.rd .GLB_SEC_STATE_AUTH_SLOT
  let take (s : State) (k : Nat) : State :=
    ({ s with authDigests := s.authDigests ++ [digestOf key] }.wr .GLB_SEC_STATE_AUTH_SLOT 0 k).emit (.status req 0 0)
  let refuse (s : State) : State := (s.emit (.status req 0 (s.freeVal 8))).freeNext
  if slot0 then (if 8 ≤ n then take s 0 else refuse s)
  else if 7 ≤ n then refuse s
  else
    match s.grantToken (decodeToken token, digestOf key) 0x11 0 with
    | (s, 0) => take s (n + 1)
    | (s, c) => s.emit (.status req 0 c)

/-- ENROL. -/
def execEnrol (req : Nat) (slot0 : Bool) (key token : List Byte) (s : State) : Host.Outcome State Fault Refusal :=
  s.whenRef fun s => if s.iamelUp then s.enrol req slot0 key token else s

/-! ## The event log (R455, R456) -/

/-- LOG-READ: up to 3 records by SEQ. -/
def State.logRead (s : State) (req first count : Nat) (flash : Bool) : State :=
  if count = 0 ∨ 3 < count then s.emit (.status req 2 0)
  else s.emit (.records req ((List.range count).filterMap fun k => s.findRec flash ((first + k) % 2 ^ 32)))

/-- LOG_READ. -/
def execLogRead (req first count : Nat) (flash : Bool) (s : State) : Host.Outcome State Fault Refusal :=
  s.whenRef fun s => if s.iamelUp then s.logRead req first count flash else s

/-- Copy the ring's records that flash does not hold yet; once room is back the writer records what it discarded (R455). -/
def State.flashCopy (s : State) : State :=
  let new := s.ring.filter fun r => idxBefore (s.rd .MG_LOG_STATUS_PERSISTED) r.seq
  let flash := s.flash ++ new
  let s := { s with flash := flash.drop (flash.length - 262144) }
  (s.wr .MG_LOG_STATUS_PERSISTED 0 (s.rd .MG_LOG_STATUS_NEWEST)).placeLost

/-- LOG_FLASH_COPY. -/
def execLogFlashCopy (s : State) : Host.Outcome State Fault Refusal :=
  s.whenRef fun s => if s.iamelUp then s.flashCopy else s

/-- MG_LOG_LOST_READ: LOST is cleared (R9). -/
def execMgLogLostRead (s : State) : Host.Outcome State Fault Refusal := s.whenRef fun s => s.readOut .MG_LOG_LOST 0

/-! ## MCTP (R449) -/

/-- The MCTP message types that Iamel accepts: control, PLDM, SPDM, vendor-defined. -/
def mctpTypes : List Nat := [0x00, 0x01, 0x05, 0x7F]

/-- The answer with the endpoint ID of an SMBus port. -/
def State.eidAnswer (s : State) (smbus : Nat) : State := s.emit (.mgmt mgOk ((s.eids.look smbus).getD 0))

/-- An MCTP control message on an SMBus port: an endpoint ID is assigned or answered, the version of an accepted type (a free value: the
manual names none), or the accepted types. -/
def State.mctpIn (s : State) (smbus : Nat) (r : MctpReq) : State :=
  if 2 ≤ smbus then s
  else
    match r with
    | .setEid eid => State.eidAnswer { s with eids := s.eids.put smbus (eid % 256) } smbus
    | .getEid => s.eidAnswer smbus
    | .version t => if mctpTypes.contains t then s.freeNext.emit (.mgmt mgOk (s.freeVal 32)) else s.emit (.mgmt mgRefused 0)
    | .types => s.emit (.mctpTypes mctpTypes)

/-- MCTP_CONTROL. -/
def execMctpControl (smbus : Nat) (r : MctpReq) (s : State) : Host.Outcome State Fault Refusal :=
  s.whenRef fun s => if s.iamelUp then s.mctpIn smbus r else s

/-! ## MG packets (R54, R288, R451, R488) -/

/-- An MG-CMD (R288): authenticated in its session, then executed; its cause is FM_CRED where R54 fails it. -/
def State.mgCommand (s : State) (pkt : Packet) (c : Cred) (msg : List Byte) : State :=
  let src : CmdSrc := .mg c.session c.counter (pkt.src / 4096)
  match s.checkCred c (Packet.mgCovered pkt) with
  | (s, 0) =>
    match msgEntry msg 0 with
    | some e =>
      let x : PrivData := { msg := msg, trailer := e.2.2 }
      s.runPriv src e.1 e.2.1 x fun s => s.privBody e.1 src e.2.1 x
    | none => s.endPriv (src, 0) cMalformed
  | (s, k) => s.endPriv (src, 0) k

/-- MG_CMD_RECEIVE. -/
def execMgCmdReceive (pkt : Packet) (s : State) : Host.Outcome State Fault Refusal :=
  s.whenLive fun s => s.mgTake fun s =>
    match pkt.body with
    | .mg _ auth session counter tag (.cmd msg) =>
      if pkt.ptype ≠ 0x40 ∨ !auth ∨ !Packet.mgOk pkt then s.mgDiscard else s.mgCommand pkt ⟨session, counter, tag⟩ msg
    | _ => s.mgDiscard

/-- MG_STATUS_RECEIVE: the completion of an MG-CMD that this device's side sent; its counter is accepted (R54, R288). -/
def execMgStatusReceive (pkt : Packet) (s : State) : Host.Outcome State Fault Refusal :=
  s.whenLive fun s => s.mgTake fun s =>
    match pkt.body with
    | .mg _ auth session counter tag (.status _ _ _) =>
      if pkt.ptype ≠ 0x41 ∨ !auth ∨ !Packet.mgOk pkt then s.mgDiscard else (s.checkCred ⟨session, counter, tag⟩ (Packet.mgCovered pkt)).1
    | _ => s.mgDiscard

/-- A counter as TELEMETRY answers it: 1 its present value, 2 the last capture (R488). -/
def State.teleEntry (s : State) (op i : Nat) : Nat :=
  if op = 1 then s.counterEntry (i / 4) (i % 4)
  else s.rd .EC_SNAP_COUNT i + s.rd .EC_SNAP_OVF i * 2 ^ 48 + s.rd .EC_SNAP_DISABLED i * 2 ^ 49

/-- Iamel answers a TELEMETRY request (R488); one that comes while Iamel resets (R451), or that it cannot answer, is discarded and counted. -/
def State.telemetry (s : State) (pkt : Packet) (c : Cred) (op first count : Nat) : State :=
  if !s.iamelUp then s.mgDiscard
  else
    match s.checkCred c (Packet.mgCovered pkt) with
    | (s, 0) =>
      if op = 0 ∨ 2 < op ∨ count = 0 ∨ 64 < count ∨ 295 < first + count then s.mgDiscard
      else
        let es := (List.range (4 * count)).map fun k => s.teleEntry op (4 * first + k)
        s.sendAuth c.session {
          ptype := 0x47, cls := 3, dest := pkt.src, src := s.nodeId * 4096 + 0xFFF, ts := s.now % 2 ^ 32, length := 8 + 32 * count,
          body := .mg none true c.session c.counter [] (.telemetryReply op first count es) }
    | (s, _) => s

/-- TELEMETRY_REQUEST. -/
def execTelemetryRequest (pkt : Packet) (s : State) : Host.Outcome State Fault Refusal :=
  s.whenLive fun s => s.mgTake fun s =>
    match pkt.body with
    | .mg _ auth session counter tag (.telemetry op first count) =>
      if pkt.ptype ≠ 0x47 ∨ !auth ∨ !Packet.mgOk pkt then s.mgDiscard else s.telemetry pkt ⟨session, counter, tag⟩ op first count
    | _ => s.mgDiscard

end Sys2Proof.Machine
end

