-- ==== Sys2Proof/Machine/EfuseOps.lean ====
section
/-! DEFINITION. The e-fuse channels (R495 to R500) and the attached-device slot (R442 to R447): shared operations. -/

namespace Sys2Proof.Machine

/-! ## The slot -/

/-- Whether HB is a downstream port. -/
def State.slotOn (s : State) : Bool := decide (s.portMode 1 = 1)

/-- Send SLOT_VEC (R435). -/
def State.slotVec (s : State) : State := s.msix 0 (s.rd .HI_SLOT_CTL_SLOT_VEC)

/-- A slot event: SLOT_VEC where EVT_EN is set. -/
def State.slotEvent (s : State) : State := if s.flag .HI_SLOT_CTL_EVT_EN then s.slotVec else s

/-- The link to the attached device goes down: its outstanding requests fail as memory errors at their users (R446, R447). -/
def State.slotLinkDown (s : State) : State :=
  let s :=
    if s.flag .HI_SLOT_STATUS_DL_ACTIVE then
      (s.wrAll 0 [(.HI_SLOT_STATUS_DL_ACTIVE, 0), (.HI_SLOT_STATUS_DLLSC, 1)]).slotEvent
    else s
  let s := s.wrAll 1 [(.HI_PORT_DL_UP, 0), (.HI_PORT_WIDTH, 0), (.HI_PORT_SPEED, 0), (.HI_PORT_FLIT, 0), (.HI_PORT_IDE_LINK, 0)]
  (forEach State.xferFail (s.xfersOf 256) s).settleAll

/-- The settle timer starts: every power-off of the slot (R445). -/
def State.startSettle (s : State) : State :=
  let s := s.armIn .settle (sec 1)
  if s.flag .HI_SLOT_STATUS_SETTLE then s else (s.wr .HI_SLOT_STATUS_SETTLE 0 1).slotEvent

/-- Freeze HB (R447). A frozen port stays as it is. -/
def State.freeze (s : State) (cause : Nat) : State :=
  if s.flag .HI_SLOT_STATUS_FROZEN then s
  else ((s.wrAll 0 [(.HI_SLOT_STATUS_FROZEN, 1), (.HI_SLOT_STATUS_CAUSE, cause)]).slotLinkDown).slotVec

/-- An error event of HB as downstream port: with CONT_EN it freezes, else it is reported and the port keeps running (R447). -/
def State.slotError (s : State) (cause : Nat) : State :=
  if s.flag .HI_SLOT_CTL_CONT_EN then s.freeze cause
  else (s.emit (.aer 256)).logRec 1 0x0C .portError 1 [cause]

/-! ## Channels -/

/-- The states of a channel: EF_STATUS[c].STATE (R496). -/
def efOff : Nat := 0
def efRamp : Nat := 1
def efOn : Nat := 2
def efTripped : Nat := 3

/-- The STATE of a channel. -/
def State.efState (s : State) (c : Nat) : Nat := s.rd .EF_STATUS_STATE c

/-- What a channel holds beside its registers. -/
def State.efSt (s : State) (c : Nat) : EfSt := (s.ef.look c).getD {}

/-- Change it. -/
def State.updEf (s : State) (c : Nat) (f : EfSt → EfSt) : State := { s with ef := s.ef.put c (f (s.efSt c)) }

/-- Power-good clears; that of channel A drives EFA_PG_N (R498). -/
def State.efPgClear (s : State) (c : Nat) : State :=
  let s' := s.wr .EF_STATUS_PG c 0
  if s.flag .EF_STATUS_PG c && decide (c = 0) then s'.emit (.efaPg false) else s'

/-- A channel's command goes from 0 to 1: it ramps, unless FET_FAIL is set (R496, R499). -/
def State.efStart (s : State) (c : Nat) : State :=
  if s.flag .EF_STATUS_FET_FAIL c || decide (s.efState c = efRamp ∨ s.efState c = efOn) then s
  else
    let s := (s.wrAll c [(.EF_STATUS_STATE, efRamp), (.EF_STATUS_REG, 0)]).updEf c fun e => { e with regAcc := 0, regAt := s.now }
    s.emit (.gate c true)

/-- A channel leaves RAMP or ON for a state: the gate is held at the source, regulation ends. -/
def State.efLeave (s : State) (c st : Nat) : State :=
  let s := (s.efPgClear c).wrAll c [(.EF_STATUS_STATE, st), (.EF_STATUS_REG, 0)]
  (s.disarm (.efReg c)).emit (.gate c false)

/-- A channel's command goes to 0 (R496). -/
def State.efStop (s : State) (c : Nat) : State := if s.efState c = efOff then s else s.efLeave c efOff

/-- Power off the slot: HB_PERST_N, the link, the gate, the settle timer (R444, R445). -/
def State.slotOff (s : State) : State :=
  let s := { (s.wr .HI_SLOT_CTL_PWR_ON 0 0).emit (.perst true) with perst := true }
  ((((s.disarm .perst).slotLinkDown).efStop 1)).startSettle

/-- A channel trips with a cause, in RAMP or ON (R497): for the slot's channel PFD, PWR_ON and the settle timer too (R444). -/
def State.efTrip (s : State) (c cause : Nat) : State :=
  if s.efState c ≠ efRamp ∧ s.efState c ≠ efOn then s
  else
    let s := ((s.wr .EF_STATUS_CAUSE c cause).efLeave c efTripped).raise (238 + c)
    if c = 1 ∧ s.slotOn then
      let pfd := s.flag .HI_SLOT_STATUS_PFD
      let s := s.wrAll 0 [(.HI_SLOT_STATUS_PFD, 1), (.HI_SLOT_CTL_PWR_ON, 0)]
      let s := if pfd then s else s.slotEvent
      let s := { (s.emit (.perst true)).disarm .perst with perst := true }
      s.slotLinkDown.startSettle
    else s

/-- REG sets or clears: its count runs while it is set, and starts again once it has stayed clear for 10 ms (R496, R497). -/
def State.efRegulate (s : State) (c : Nat) (on : Bool) : State :=
  if (s.efState c ≠ efRamp ∧ s.efState c ≠ efOn) ∨ s.flag .EF_STATUS_REG c = on then s
  else
    let e := s.efSt c
    if on then
      let acc := if e.regAt + ms 10 ≤ s.now then 0 else e.regAcc
      let s := (s.wr .EF_STATUS_REG c 1).updEf c fun e => { e with regAcc := acc, regAt := s.now }
      s.armIn (.efReg c) (ms (s.rd .EF_CFG_TREG_MS c) - acc)
    else
      let s := (s.wr .EF_STATUS_REG c 0).updEf c fun e => { e with regAcc := e.regAcc + (s.now - e.regAt), regAt := s.now }
      s.disarm (.efReg c)

/-! ## The FET's temperature (R500) -/

/-- RTH times the FET's power, in units of 10^-12 degrees: `vin`, `vout` in mV, `iout` in units of 10 mA. -/
def State.efHeat (s : State) (c vin vout iout : Nat) : Nat :=
  let rth := s.rd .EF_MODEL_RTH c
  if s.efState c = efOn ∧ !s.flag .EF_STATUS_REG c then rth * iout * iout * s.rd .EF_MODEL_RDSON c
  else if s.efState c = efRamp ∨ s.efState c = efOn then rth * (vin - vout) * iout * 100000
  else 0

/-- The rise after 10 microseconds. -/
def efRise (rise heat tau : Nat) : Nat :=
  ((rise : Int) + ((heat : Int) - rise) / (100 * (tau : Int))).toNat

/-- The model's temperature, in units of 0.1 degrees. -/
def State.efModel (s : State) (c : Nat) : Nat := 10 * s.rd .EF_MODEL_TAMB c + (s.efSt c).rise / 100000000000

/-- One update of a channel's measurements: the temperature of the diode or of the model is FET_T and the channel's sensor; one that
FET_T cannot hold is a free value there. -/
def State.efUpdate (s : State) (c vin vout iout diode : Nat) : State :=
  let s := s.updEf c fun e => { e with rise := efRise e.rise (s.efHeat c vin vout iout) (s.rd .EF_MODEL_TAU c) }
  let t := if s.flag .EF_CFG_TSRC c then diode else s.efModel c
  let s := s.wrAll c [(.EF_STATUS_VOUT, vout), (.EF_STATUS_IOUT, iout)]
  let s := if t < 4096 then s.wr .EF_STATUS_FET_T c t else (s.wr .EF_STATUS_FET_T c (s.freeVal 12)).freeNext
  s.sensorTake (145 + c) t

end Sys2Proof.Machine
end

