-- ==== Sys2Proof/Machine/Slot.lean ====
section
/-! DEFINITION. The meanings of the rows of the e-fuse channels, the attached-device slot and the PCIe links (R427, R441 to R447, R495
to R500). -/

namespace Sys2Proof.Machine

/-! ## E-fuse channels -/

/-- Whether the control path commands a channel: B is the slot's while HB is a downstream port (R495). -/
def State.efOwned (s : State) (c : Nat) : Bool := decide (c < 2) && !(decide (c = 1) && s.slotOn)

/-- EF_CTL[c].ON is written. While FET_FAIL is set a command to 1 is ignored (R499). -/
def State.writeEfCtl (s : State) (c : Nat) (on : Bool) : State :=
  if !s.efOwned c || decide (s.flag .EF_CTL_ON c = on) then s
  else if on then (if s.flag .EF_STATUS_FET_FAIL c then s else (s.wr .EF_CTL_ON c 1).efStart c)
  else (s.wr .EF_CTL_ON c 0).efStop c

/-- EF_COMMAND_ON (R496). -/
def execEfCommandOn (c : Nat) (s : State) : Host.Outcome State Fault Refusal := s.whenRef fun s => s.writeEfCtl c true

/-- EF_COMMAND_OFF (R496). -/
def execEfCommandOff (c : Nat) (s : State) : Host.Outcome State Fault Refusal := s.whenRef fun s => s.writeEfCtl c false

/-- EF_GATE_ABOVE_8V: the channel is ON and power is good; the slot's HB_PERST_N waits 100 ms (R444, R498). -/
def execEfGateAbove8v (c : Nat) (s : State) : Host.Outcome State Fault Refusal :=
  s.whenRef fun s =>
    if 2 ≤ c ∨ s.efState c ≠ efRamp then s
    else
      let s := s.wrAll c [(.EF_STATUS_STATE, efOn), (.EF_STATUS_PG, 1)]
      if c = 0 then s.emit (.efaPg true) else if s.slotOn then s.armIn .perst (ms 100) else s

/-- EF_GATE_BELOW_7V5 (R498). -/
def execEfGateBelow7v5 (c : Nat) (s : State) : Host.Outcome State Fault Refusal :=
  s.whenRef fun s => if c < 2 then s.efPgClear c else s

/-- EF_FAST_TRIP (R497). -/
def execEfFastTrip (c : Nat) (s : State) : Host.Outcome State Fault Refusal :=
  s.whenRef fun s => if c < 2 then s.efTrip c 1 else s

/-- EF_TIMER_TRIP: REG has been set for TREG_MS in total (R497). -/
def execEfTimerTrip (c : Nat) (s : State) : Host.Outcome State Fault Refusal :=
  s.whenDue (.efReg c) fun s => if c < 2 then s.efTrip c 2 else s

/-- EF_FET_OT_TRIP: the FET's temperature lies above FET_TMAX (R497). -/
def execEfFetOtTrip (c : Nat) (s : State) : Host.Outcome State Fault Refusal :=
  s.whenRef fun s => if c < 2 ∧ 10 * s.rd .EF_CFG_FET_TMAX c < s.rd .EF_STATUS_FET_T c then s.efTrip c 3 else s

/-- EF_FET_FAIL: an output stands for 10 ms at a channel that is off (R499). -/
def execEfFetFail (c : Nat) (s : State) : Host.Outcome State Fault Refusal :=
  s.whenRef fun s =>
    if 2 ≤ c ∨ (s.efState c ≠ efOff ∧ s.efState c ≠ efTripped) ∨ s.flag .EF_STATUS_FET_FAIL c then s
    else (s.wr .EF_STATUS_FET_FAIL c 1).raise (240 + c)

/-- EF_MODEL_UPDATE (R500). -/
def execEfModelUpdate (c vin vout iout diode : Nat) (s : State) : Host.Outcome State Fault Refusal :=
  s.whenRef fun s => if c < 2 then s.efUpdate c vin vout iout diode else s

/-- EF_REGULATION: the load exceeds ILIM, or falls back below it (R496). -/
def execEfRegulation (c : Nat) (on : Bool) (s : State) : Host.Outcome State Fault Refusal :=
  s.whenRef fun s => if c < 2 then s.efRegulate c on else s

/-! ## The slot -/

/-- PWR_ON is written 1 (R444, R445). Where the slot has no port the bit alone is written. -/
def State.slotPwrOn (s : State) : State :=
  if !s.slotOn then s.wr .HI_SLOT_CTL_PWR_ON 0 1
  else if s.flag .HI_SLOT_STATUS_SETTLE then s.wr .HI_SLOT_STATUS_CMD_REJECTED 0 1
  else if s.flag .HI_SLOT_CTL_PWR_ON || s.flag .EF_STATUS_FET_FAIL 1 then s
  else (s.wr .HI_SLOT_CTL_PWR_ON 0 1).efStart 1

/-- SLOT_PWR_ON (R444, R445). -/
def execSlotPwrOn (s : State) : Host.Outcome State Fault Refusal := s.whenUp fun s => s.slotPwrOn

/-- PWR_ON is written 0 (R444). -/
def State.slotPwrOff (s : State) : State :=
  if !s.slotOn then s.wr .HI_SLOT_CTL_PWR_ON 0 0
  else if s.flag .HI_SLOT_CTL_PWR_ON then s.slotOff else s

/-- SLOT_PWR_OFF (R444, R445). -/
def execSlotPwrOff (s : State) : Host.Outcome State Fault Refusal := s.whenUp fun s => s.slotPwrOff

/-- SLOT_PERST_RELEASE: 100 ms after power-good (R444). -/
def execSlotPerstRelease (s : State) : Host.Outcome State Fault Refusal :=
  s.whenDue .perst fun s =>
    if s.slotOn && s.flag .EF_STATUS_PG 1 then { s.emit (.perst false) with perst := false } else s

/-- SETTLE_EXPIRY (R445). -/
def execSettleExpiry (s : State) : Host.Outcome State Fault Refusal :=
  s.whenDue .settle fun s => (s.wr .HI_SLOT_STATUS_SETTLE 0 0).slotEvent

/-- PRESENCE_CHANGE: debounced presence (R443, R445); a powered slot that loses its card is powered off under SURPRISE_OFF (R446). -/
def execPresenceChange (present : Bool) (s : State) : Host.Outcome State Fault Refusal :=
  s.whenUp fun s =>
    if !s.slotOn || decide (s.flag .HI_SLOT_STATUS_PRESENCE = present) then s
    else
      let s := (s.setFlag .HI_SLOT_STATUS_PRESENCE 0 present).wr .HI_SLOT_STATUS_PDC 0 1
      let s := (if present then s.incWrap .HI_SLOT_STATUS_PRES_SEQ 0 1 else s).slotEvent
      if !present && s.flag .HI_SLOT_CTL_SURPRISE_OFF && s.flag .HI_SLOT_CTL_PWR_ON then s.slotOff else s

/-- ATTENTION_BUTTON (R443). -/
def execAttentionButton (s : State) : Host.Outcome State Fault Refusal :=
  s.whenUp fun s =>
    if !s.slotOn then s
    else
      let was := s.flag .HI_SLOT_STATUS_ABP
      let s := s.wr .HI_SLOT_STATUS_ABP 0 1
      if was then s else s.slotEvent

/-- CONTAINMENT_FREEZE: an uncorrectable error 1, a completion timeout 2, a poisoned TLP 3, a link-down of a powered slot 4 (R447). -/
def execContainmentFreeze (cause : Nat) (s : State) : Host.Outcome State Fault Refusal :=
  s.whenUp fun s =>
    if !s.slotOn || decide (cause = 0 ∨ 4 < cause) || (decide (cause = 4) && !s.flag .HI_SLOT_CTL_PWR_ON) then s
    else s.slotError cause

/-- RELEASE is written 1: FROZEN clears; the link may train again (R447). -/
def State.slotRelease (s : State) : State := if s.slotOn then s.wr .HI_SLOT_STATUS_FROZEN 0 0 else s

/-- CONTAINMENT_RELEASE (R447). -/
def execContainmentRelease (s : State) : Host.Outcome State Fault Refusal := s.whenUp fun s => s.slotRelease

/-- A request of the attached device that is refused: it completes as UR and is counted (R442). -/
def State.attachedUr (s : State) : State := (s.count 260 5).emit (.hostReply 256 none false)

/-- ATTACHED_MSI_WRITE: a write to HB_MSI_ADDR with data 0 to 63 is forwarded as a vector of HA's PF; larger data is discarded and
counted (R442). -/
def execAttachedMsiWrite (addr data : Nat) (s : State) : Host.Outcome State Fault Refusal :=
  s.whenLive fun s =>
    if !s.slotOn || !s.flag .HI_SLOT_STATUS_DL_ACTIVE then s
    else if addr ≠ s.rd .HI_HB_MSI_ADDR * 4096 then s.attachedUr
    else if data < 64 then s.msix 0 (s.rd .HI_HB_MSI_HB_VEC_BASE + data)
    else s.count 260 5

/-- ATTACHED_REQUEST: any other request (R442). -/
def execAttachedRequest (s : State) : Host.Outcome State Fault Refusal :=
  s.whenLive fun s => if s.slotOn && s.flag .HI_SLOT_STATUS_DL_ACTIVE then s.attachedUr else s

/-! ## PCIe links -/

/-- The fields of HI_PORT[p] while its link is up, or down. -/
def State.portLink (s : State) (p up speed width : Nat) (flit : Bool) : State :=
  let s := s.wrAll p [(.HI_PORT_DL_UP, up), (.HI_PORT_SPEED, speed), (.HI_PORT_WIDTH, width), (.HI_PORT_FLIT, if flit then 1 else 0)]
  if up = 0 then s.wr .HI_PORT_IDE_LINK p 0 else s

/-- PCIE_LINK_DOWN: of an endpoint port an FLR of every function (R441); of the slot's link an error of a powered slot (R446, R447). -/
def execPcieLinkDown (p : Nat) (s : State) : Host.Outcome State Fault Refusal :=
  s.whenUp fun s =>
    if 2 ≤ p then s
    else if s.portMode p = 0 then (s.portLink p 0 0 0 false).flrFunc (p * 256)
    else if s.slotOn && s.flag .HI_SLOT_STATUS_DL_ACTIVE then
      if s.flag .HI_SLOT_CTL_CONT_EN && s.flag .HI_SLOT_CTL_PWR_ON then s.freeze 4 else s.slotLinkDown
    else s

/-- Whether a speed code and a lane count are ones that a link has (R426). -/
def linkOk (speed width : Nat) : Bool :=
  decide (1 ≤ speed ∧ speed ≤ 6) && decide (width = 1 ∨ width = 2 ∨ width = 4 ∨ width = 8 ∨ width = 16)

/-- PCIE_LINK_UP: a link finishes training (R426, R443): the slot's only while it is powered, out of reset and not frozen (R447). -/
def execPcieLinkUp (p speed width : Nat) (flitMode : Bool) (s : State) : Host.Outcome State Fault Refusal :=
  s.whenUp fun s =>
    if 2 ≤ p ∨ !linkOk speed width then s
    else if s.portMode p = 0 then s.portLink p 1 speed width flitMode
    else if s.slotOn && s.flag .EF_STATUS_PG 1 && !s.perst && !s.flag .HI_SLOT_STATUS_FROZEN then
      let was := s.flag .HI_SLOT_STATUS_DL_ACTIVE
      let s := (s.portLink 1 1 speed width flitMode).wr .HI_SLOT_STATUS_DL_ACTIVE 0 1
      if was then s else (s.wr .HI_SLOT_STATUS_DLLSC 0 1).slotEvent
    else s

/-- COMPLETION_TIMEOUT: a host read fails as a memory error at its user (R427); at the attached device it is an error event of the port
(R447). -/
def execCompletionTimeout (id : Nat) (s : State) : Host.Outcome State Fault Refusal :=
  s.whenDue (.completion id) fun s =>
    match s.xfers.look id with
    | none => s
    | some x =>
      let f := (segFunc x.segs).getD 0
      let s := s.count (hostUnit f) 4
      let s := if s.isAttached f then s.slotError 2 else s
      (s.xferFail id).settleAll

end Sys2Proof.Machine
end

