-- ==== Sys2Proof/Machine/Power.lean ====
section
/-! DEFINITION. Power modes, supply sag and resets (R8, R74, R490 to R494, R501 to R505): what each reset keeps, the start-up, PARKED, and their
rows. -/

namespace Sys2Proof.Machine

/-! ## What a reset of the core keeps (R8, R448, R501) -/

/-- The registers of the reference domain: Iamel, the event log, sensors, the fault collector, machine time, the e-fuse controllers, the pace
governor, and the fused rollback banks. -/
def refRegs : List Reg :=
  [.MG_STATUS, .MG_IMAGE, .MG_LOG_STATUS, .MG_LOG_LOST, .MG_LOG_SEL, .MG_SENS, .MG_SENS_THR, .FT_STATUS, .FT_VEC, .FT_FATAL_TIME, .FT_SRC,
    .MT_CFG, .MT_STATUS, .MT_LINE, .MT_TRIG_CFG, .MT_TRIG_TIME, .MT_TRIG_CAP, .MT_TRIG_STAT, .EF_CFG, .EF_MODEL, .EF_CTL, .EF_STATUS,
    .PW_PACE_CTL, .PW_PACE_MON, .GLB_ROLLBACK]

/-- Whether main power-on reset, or warm device reset, keeps a register field. The fields that count since main power-on run on through a warm
reset (DEDUCED, log 40). -/
def keptFld (warm : Bool) (f : Fld) (i : Nat) : Bool :=
  match f with
  | .FT_STATUS_FATAL => false
  | .FT_SRC_ISOLATED => false
  | .GLB_SEC_STATE_AUTH_SLOT => true
  | .GLB_SEC_STATE_DEBUG => true
  | .GLB_SEC_STATE_GLITCH_SEEN => true
  | .PW_STATUS_SAG_CORE => true
  | .PW_STATUS_SAG_12V => true
  | .PW_STATUS_WARMS => warm
  | .HI_PORT_MODE => warm
  | .XB_STATUS_COMMITS => warm
  | .HI_SLOT_STATUS_PRES_SEQ => warm
  | .EC_SNAP_STATUS_SEQ => warm
  | .PW_EN_MASK => warm && decide (i = 6)
  | _ => (refRegs.flatMap Reg.fields).contains f || (warm && Reg.PW_PACE_STATUS.fields.contains f)

/-- Whether a timer runs on through such a reset. -/
def keptTimer (warm : Bool) : TimerKey → Bool
  | .parent => true
  | .holdover => true
  | .extRef => true
  | .trial => true
  | .efReg _ => true
  | .avs => warm
  | .pace => warm
  | _ => false

/-- The servo after a reset: before its first lock after main power-on reset a device may step once more (R354). -/
def Servo.afterReset (v : Servo) (warm : Bool) : Servo := if warm then v else { v with everLocked := false, steppedOnce := false }

/-- A lane after a reset: warm device reset keeps its stored coefficient sets (R338). -/
def Lane.afterReset (x : Lane) : Lane := { stored := x.stored }

/-- The core's state goes, the reference domain's stays (R501); what `warm` keeps beside it is R8's and R338's. Job keys go with the jobs (R64).
The slot is powered off first, because its PWR_ON goes to 0 (R444). -/
def State.coreReset (s : State) (warm : Bool) : State :=
  let s := if s.slotOn && s.flag .HI_SLOT_CTL_PWR_ON then s.slotOff else s
  let s := if s.alive then s.emit (.alive false) else s
  let s := if s.perst then s else s.emit (.perst true)
  let t : State := {
    pending := s.pending, now := s.now, variant := s.variant, phase := s.phase, pwrok := s.pwrok, strapMg := s.strapMg, strapHb := s.strapHb,
    sagHeld := s.sagHeld, regs := s.regs.keep (fun k _ => keptFld warm k.1 k.2), hostMem := s.hostMem, badReads := s.badReads,
    timers := s.timers.keep (fun k _ => keptTimer warm k), out := s.out, free := s.free, nextId := s.nextId,
    avs := if warm then s.avs else none, ef := s.ef, boots := s.boots, authDigests := s.authDigests, rootDigest := s.rootDigest, identity := s.identity,
    chain := s.chain, sealSecret := s.sealSecret, openSerial := s.openSerial,
    grants := s.grants, meas := s.meas.del 6, ownerAccepted := s.ownerAccepted, heldGen := s.heldGen, ring := s.ring, flash := s.flash,
    logRates := s.logRates, lostPending := s.lostPending, images := s.images, running := s.running.keep (fun k _ => decide (k.1 = 0)),
    mgLost := s.mgLost, eids := s.eids, sensAt := s.sensAt, servo := s.servo.afterReset warm,
    firings := ⟨s.firings.cells.map fun c => (c.1, c.2.filter fun x => x.job.isNone)⟩, trig := s.trig, raised := s.raised,
    checkFailed := s.checkFailed, lanes := if warm then ⟨s.lanes.cells.map fun c => (c.1, c.2.afterReset)⟩ else {} }
  let t := t.wrAll 0 [(.MG_STATUS_UPD_TYPE, 15), (.MG_STATUS_UPD_UNIT, 0)]
  if warm then t.wr .PW_EN_MASK 1 (t.rd .PW_EN_MASK 6) else t

/-! ## Start-up (R389, R425, R490, R501) -/

/-- Main reset is released once PWROK_MAIN is asserted and no supply's sag holds it (R490, R494): HB_MODE is sampled (R425). -/
def State.releaseMain (s : State) : State :=
  if s.phase = .mainHeld ∧ s.pwrok ∧ s.sagHeld.isEmpty then
    ({ s with phase := .starting }.wr .HI_PORT_MODE 1 s.strapHb).armIn .mainUp (ms 50)
  else s

/-- The units of a type take the image of its ACTIVE slot, which is measured first (R69, R389, R462); without one that passes they stay
unloaded (R458). -/
def State.loadType (s : State) (t : Nat) : State :=
  let s := s.wr .MG_IMAGE_PENDING t 0
  if !s.slotOk t (s.activeSlot t) then s
  else
    let s := { s with meas := s.meas.put t ((s.activeImg t).digest t) }
    (s.unitsOf t).foldl (fun s u =>
      let s := s.runActive t u
      if t ≠ 5 then s
      else match decodeImage (s.activeImg 5).payload with
        | some b => (s.loadImage u b).wr .FX_STATUS_STATE u fxRunning
        | none => s) s

/-- The device is up: images loaded, every port with EN started, ALIVE (R474, R490). -/
def State.mainUp (s : State) : State :=
  let s := { s with phase := .running }
  let s := [1, 2, 3, 4, 5].foldl (fun s t => s.loadType t) s
  let s := ((List.range 72).filter fun p => s.portOn p && peEn (s.portEntry p)).foldl (fun s p => s.startPort p fun _ => false) s
  let s := s.timeStart
  if s.alive then s.emit (.alive true) else s

/-- MAIN_RESET_COMPLETE: main or warm reset finishes; in `State.reset` it is due (log 4). -/
def execMainResetComplete (s : State) : Host.Outcome State Fault Refusal :=
  s.whenDue .mainUp fun s => if s.phase = .starting ∨ s.phase = .running then s.mainUp else s

/-! ## Auxiliary power-on reset (R490, R501) -/

/-- The states that the board's resistors give the outputs of an absent reference domain, and of the core (R505). -/
def absentOut : List Out := [.alive false, .sagWarn false, .gate 0 false, .gate 1 false, .efaPg false, .perst true]

/-- Everything is reset but fuses and flash: LAST_RESET 1, the boot count, SEQ kept in flash (R454). -/
def State.auxReset (s : State) : State :=
  let kept (f : Fld) : Bool :=
    match f with
    | .GLB_SEC_STATE_AUTH_SLOT => true
    | .GLB_ROLLBACK_FLOOR => true
    | .MG_LOG_STATUS_NEWEST => true
    | .MG_LOG_STATUS_PERSISTED => true
    | .MG_IMAGE_VER_A => true
    | .MG_IMAGE_VER_B => true
    | .MG_IMAGE_VALID_A => true
    | .MG_IMAGE_VALID_B => true
    | .MG_IMAGE_ACTIVE => true
    | .MG_IMAGE_TRIAL => true
    | _ => false
  let t : State := {
    pending := s.pending, variant := s.variant, phase := .auxHeld, pwrok := s.pwrok, strapMg := s.strapMg, strapHb := s.strapHb,
    regs := s.regs.keep (fun k _ => kept k.1), hostMem := s.hostMem, badReads := s.badReads, out := s.out ++ absentOut, free := s.free, nextId := s.nextId,
    boots := s.boots + 1, authDigests := s.authDigests, rootDigest := s.rootDigest, identity := s.identity, chain := s.chain,
    sealSecret := s.sealSecret, flash := s.flash, images := s.images }
  (t.wr .PW_STATUS_LAST_RESET 0 1).armIn .auxRelease (ms 10)

/-- AUX_POWER_ON_RESET. -/
def execAuxPowerOnReset (s : State) : Host.Outcome State Fault Refusal := .next s.auxReset

/-- The reference domain leaves auxiliary reset: straps, the boot ROM, channel A under EFA_AUTO, and main reset follows PWROK_MAIN. -/
def State.auxRelease (s : State) (mgAddr efaAuto : Nat) : State :=
  let s := { s with phase := .mainHeld, strapMg := mgAddr }
  let s := s.iamelBoot
  let s := if s.slotOk 0 (s.activeSlot 0) then { s with meas := s.meas.put 0 ((s.activeImg 0).digest 0) } else s
  let s := if efaAuto = 1 then (s.wr .EF_CTL_ON 0 1).efStart 0 else s
  s.releaseMain

/-- AUX_RESET_RELEASE: 10 ms after VDD_AUX rose. -/
def execAuxResetRelease (mgAddr efaAuto : Nat) (s : State) : Host.Outcome State Fault Refusal :=
  s.whenDue .auxRelease fun s => if s.phase = .auxHeld then s.auxRelease mgAddr efaAuto else s

/-! ## Main and warm reset (R491, R494, R501, R502) -/

/-- Whether main power-on reset holds or runs: one that arrives is absorbed (R502). -/
def State.mainRuns (s : State) : Bool :=
  decide (s.phase = .mainHeld) || (decide (s.phase = .starting) && decide (s.rd .PW_STATUS_LAST_RESET ≠ 5 ∧ s.rd .PW_STATUS_LAST_RESET ≠ 6))

/-- Main power-on reset with its cause: one that runs goes on, held again; else everything but the reference domain is reset. -/
def State.mainReset (s : State) (last : Nat) : State :=
  if s.mainRuns then { s.disarm .mainUp with phase := .mainHeld }
  else ({ s.coreReset false with phase := .mainHeld }).wr .PW_STATUS_LAST_RESET 0 last

/-- Warm device reset with its cause, `low` ticks before RESET_N rises; absorbed while a reset of its scope or a wider one runs (R502). -/
def State.warmReset (s : State) (last low : Nat) : State :=
  if s.phase ≠ .running then s
  else
    let s := { s.coreReset true with phase := .starting }
    (((s.wr .PW_STATUS_LAST_RESET 0 last).incWrap .PW_STATUS_WARMS 0 1)).armIn .mainUp (low + ms 50)

/-- PWROK_MAIN_ASSERT. -/
def execPwrokMainAssert (hbMode : Nat) (s : State) : Host.Outcome State Fault Refusal :=
  ((if s.phase = Phase.running then { s with pwrok := true } else { s with pwrok := true, strapHb := hbMode }).releaseMain).fin

/-- PWROK_MAIN_DEASSERT: main reset within a microsecond (R491). -/
def execPwrokMainDeassert (s : State) : Host.Outcome State Fault Refusal :=
  if s.phase = .auxHeld then .next { s with pwrok := false } else (State.mainReset { s with pwrok := false } 2).fin

/-- RESET_N_ASSERT: a low time of 1 microsecond always resets, of 500 ns never; between, `acts` says (the timing table). -/
def execResetNAssert (lowNs : Nat) (acts : Bool) (s : State) : Host.Outcome State Fault Refusal :=
  s.whenRef fun s => if 1000 ≤ lowNs ∨ (500 < lowNs ∧ acts) then s.warmReset 5 (4 * lowNs) else s

/-- PW_RESET_WARM. -/
def execPwResetWarm (s : State) : Host.Outcome State Fault Refusal := s.whenRef fun s => s.warmReset 6 0

/-! ## Supply sag and glitches (R74, R493, R494) -/

/-- The flag of a supply's warning. -/
def sagFld : Supply → Fld
  | .v12 => .PW_STATUS_SAG_12V
  | .core => .PW_STATUS_SAG_CORE

/-- A supply's warning: SAG_WARN_N, the fault source, the vector (R493). -/
def State.sagWarn (s : State) (x : Supply) : State :=
  if s.flag (sagFld x) then s
  else
    let s := ((s.wr (sagFld x) 0 1).emit (.sagWarn true)).raise 242
    if s.flag .PW_CTL_VEC_EN then s.msix 0 (s.rd .PW_CTL_VECTOR) else s

/-- SAG_WARNING. -/
def execSagWarning (x : Supply) (s : State) : Host.Outcome State Fault Refusal := s.whenRef fun s => s.sagWarn x

/-- A supply has stayed above its release level for 1 ms: its warning ends, and it no longer holds main reset (R493, R494). -/
def State.sagRelease (s : State) (x : Supply) : State :=
  let was := s.flag (sagFld x)
  let s := { s.wr (sagFld x) 0 0 with sagHeld := s.sagHeld.filter fun y => decide (y ≠ x) }
  let s := if was ∧ !s.flag .PW_STATUS_SAG_12V ∧ !s.flag .PW_STATUS_SAG_CORE then s.emit (.sagWarn false) else s
  s.releaseMain

/-- SAG_WARNING_RELEASE. -/
def execSagWarningRelease (x : Supply) (s : State) : Host.Outcome State Fault Refusal := s.whenRef fun s => s.sagRelease x

/-- SAG_RESET: main power-on reset, held until the supply's release (R494). -/
def execSagReset (x : Supply) (s : State) : Host.Outcome State Fault Refusal :=
  s.whenRef fun s =>
    (State.mainReset { s with sagHeld := s.sagHeld.filter (fun y => decide (y ≠ x)) ++ [x] } (match x with | .v12 => 3 | .core => 4))

/-- GLITCH_DETECT: keys are zeroised, GLITCH_SEEN is set, the fault source is raised (R74). -/
def execGlitchDetect (s : State) : Host.Outcome State Fault Refusal :=
  s.whenRef fun s => ((s.zeroiseAll).wr .GLB_SEC_STATE_GLITCH_SEEN 0 1).raise 234

/-! ## PARKED (R492) -/

/-- The internal address of PW_CTL. -/
def pwCtlAddr : Nat := 0xF00000008

/-- Whether the device may park: no job, and EN clear in every port's entry. -/
def State.parkOk (s : State) : Bool :=
  decide (s.jobsActive = 0) && (List.range 72).all fun p => !(s.portOn p && peEn (s.portEntry p))

/-- Enter PARKED: ferries drain, lanes go to deep. -/
def State.park (s : State) : State :=
  let fs := (List.range 64).filter fun f => s.ferryOn f && decide (s.fxState f = fxRunning)
  let s := fs.foldl (fun s f => (s.wr .FX_STATUS_STATE f fxDraining).haltFerryQueues f) s
  let s := (List.range 72).foldl (fun s l => if s.laneOn l then s.wr .LN_LANE_STATUS_PSTATE l 2 else s) s
  { s.wrAll 0 [(.PW_CTL_PARK, 1), (.PW_STATUS_PARKED, 1)] with parked := fs }

/-- Leave PARKED: every unit is back in service, and a port whose entry has come to set EN starts, its lanes training anew. -/
def State.unpark (s : State) : State :=
  let fs := s.parked
  let s := { s.wrAll 0 [(.PW_CTL_PARK, 0), (.PW_STATUS_PARKED, 0)] with parked := [] }
  let s := (List.range 72).foldl (fun s l =>
    if s.laneOn l then s.wr .LN_LANE_STATUS_PSTATE l (if s.flag .LN_LANE_STATUS_FAILED l then 1 else lePstate (s.laneEntry l)) else s) s
  let s := ((List.range 72).filter fun p => s.portOn p && peEn (s.portEntry p)).foldl (fun s p => s.startPort p fun _ => true) s
  fs.foldl (fun s f => if s.fxState f = fxDraining ∨ s.fxState f = fxDrained then s.runFerry f else s) s

/-- A write of PARK with the other fields of PW_CTL: a park that is not accepted rejects the write whole. -/
def State.writePwCtl (s : State) (w : Nat) : State :=
  let on := decide (Fld.of .PW_CTL_PARK w = 1)
  let was := s.flag .PW_STATUS_PARKED
  if on && !was && !s.parkOk then s.logRejected pwCtlAddr
  else
    let s := s.setFields 0 w [.PW_CTL_VEC_EN, .PW_CTL_VECTOR]
    if on && !was then s.park else if !on && was then s.unpark else s

/-- PARK_ENTER: PARK is written 1. -/
def execParkEnter (s : State) : Host.Outcome State Fault Refusal :=
  s.whenUp fun s => if s.flag .PW_STATUS_PARKED then s else if s.parkOk then s.park else s.logRejected pwCtlAddr

/-- PARK_EXIT: PARK is written 0. -/
def execParkExit (s : State) : Host.Outcome State Fault Refusal :=
  s.whenUp fun s => if s.flag .PW_STATUS_PARKED then s.unpark else s

end Sys2Proof.Machine
end

