-- ==== Sys2Proof/Machine/QueueTurn.lean ====
section
/-! DEFINITION. A queue's turn (R79, R85, R103, R111 to R114, R142): the entry at its cursor is decoded and starts, fails, or is held. -/

namespace Sys2Proof.Machine

/-- What a queue refuses of an opcode before the entry is read further (R15, R114); 0 where it accepts it. -/
def State.opcodeCause (s : State) (q op : Nat) : Nat :=
  if opcodePriv op && decide (q ≠ 0) then cPrivOpcode
  else if q = 0 ∧ !opcodePriv op ∧ !opcodeCtl op then cCtlOpcode
  else if q ≠ 0 ∧ (s.q q).noJob ∧ !opcodeJobless op then cJobless
  else 0

/-- Start a decoded entry: a privileged command on the control queue, else a user command. -/
def State.startEntry (s : State) (q n : Nat) (c : Cmd) (x : PrivData) (draw : Nat) : State :=
  let i := (s.q q).cursor
  match c with
  | .priv op p =>
    let k := s.entryCause q c true
    if (s.q q).fenced c then s.holdQueue q .order
    else if k ≠ 0 then s.startFail q i 0 n none k
    else (s.runPriv (.queue i) op p x fun s => s.privBody op (.queue i) p x).settleAll
  | _ => s.startAt q n c draw

/-- The turn of a queue at an entry whose first slot is fetched. -/
def State.turnAt (s : State) (q i : Nat) (bs : List Byte) (x : PrivData) (draw : Nat) : State :=
  let op := leAt bs 0 1
  if (s.q q).fencedAll then s.holdQueue q .order
  else match opcodeSlots op (leAt bs 1 1) with
  | none => if s.canStart q 1 then s.startFail q i ((s.q q).iterAt i) 1 none cMalformed else s.holdQueue q .slots
  | some n =>
    let iter := (s.q q).iterAt i
    let k := s.opcodeCause q op
    if !s.canStart q n then s.holdQueue q .slots
    else if k ≠ 0 then s.startFail q i iter n none k
    else
      match (if n = 1 then some [] else (s.q q).fetched.look (idxAdd i 1)) with
      | none => s
      | some more =>
        match decodeEntry (bs ++ more) with
        | none => s.startFail q i iter n none cMalformed
        | some c => s.startEntry q n c { x with trailer := more } draw

/-- A queue's turn: nothing where it is not RUNNING, is not served, or has no fetched entry before PI. -/
def State.queueTurn (s : State) (q : Nat) (x : PrivData) (draw : Nat) : State :=
  if s.qState q ≠ qRunning ∨ !s.served q then s
  else
    let s := s.passDoneEntries q
    let i := (s.q q).cursor
    if s.slotsAhead q = 0 ∨ !idxLe i (s.rd .QU_PI_PI q) then s
    else
      match (s.q q).fetched.look i with
      | none => s
      | some bs => s.turnAt q i bs x draw

/-- QUEUE_START_TURN: the turn of a queue, where it comes next in its thread's round robin (R103). -/
def execQueueStartTurn (q : Nat) (x : PrivData) (draw : Nat) (s : State) : Host.Outcome State Fault Refusal :=
  s.whenLive fun s => if s.turnOf q then s.queueTurn q x draw else s

/-- HELD_COMMAND_RESUME: a held command is tried again (R22, R79, R85). -/
def execHeldCommandResume (q : Nat) (x : PrivData) (draw : Nat) (s : State) : Host.Outcome State Fault Refusal :=
  s.whenLive fun s => if (s.q q).held.isSome then s.queueTurn q x draw else s

end Sys2Proof.Machine
end

