-- ==== Sys2Proof/Machine/TxRegs.lean ====
section
/-! DEFINITION. Writes of the ASID slot and span registers (R412 to R414). -/

namespace Sys2Proof.Machine

/-- The internal address of register `reg` of ASID slot `a`: 0 TX_ASID, 1 TX_ROOT, 2 TX_PKG. -/
def txSlotAddr (a reg : Nat) : Nat := 0x06_0010_0000 + 0x200 * a + 8 * reg

/-- Whether another VALID slot holds an ASID value. -/
def State.asidTaken (s : State) (a asid : Nat) : Bool :=
  (s.setOf .TX_ASID_VALID).any fun b => decide (b ≠ a) && decide (s.rd .TX_ASID_ASID b = asid)

/-- A write of TX_ASID[a]: rejected whole where two VALID slots would hold one value; clearing VALID flushes the slot (R412, R414). -/
def State.writeAsid (s : State) (a v : Nat) : State :=
  let valid := decide (Fld.of .TX_ASID_VALID v = 1)
  if valid && s.asidTaken a (Fld.of .TX_ASID_ASID v) then s.logRejected (txSlotAddr a 0)
  else
    let s' := s.setFields a v [.TX_ASID_ASID, .TX_ASID_VALID, .TX_ASID_WFUNC]
    if s.flag .TX_ASID_VALID a && !valid then s'.flushSlot a else s'

/-- A write of a register of an ASID slot; a locked slot takes none (R413). -/
def State.writeTxSlot (s : State) (a reg v : Nat) : State :=
  if 4096 ≤ a ∨ s.flag .TX_ASID_LOCKED a then s
  else
    match reg with
    | 0 => s.writeAsid a v
    | 1 => s.setFields a v [.TX_ROOT_ROOT, .TX_ROOT_LOC]
    | 2 => s.setFields a v [.TX_PKG_FIRST, .TX_PKG_LAST]
    | _ => s

/-- TX_ASID_WRITE (R412 to R414). -/
def execTxAsidWrite (a reg v : Nat) (s : State) : Host.Outcome State Fault Refusal := s.whenUp fun s => s.writeTxSlot a reg v

/-- A write of a register of span `sp` of a slot: 0 TX_SPAN_BASE, 1 TX_SPAN_LIMIT, 2 TX_SPAN_TGT. While VALID is set only a write of
TX_SPAN_BASE with VALID 0 acts, and it clears VALID alone (R414). -/
def State.writeTxSpan (s : State) (a sp reg v : Nat) : State :=
  let i := 8 * a + sp
  if 4096 ≤ a ∨ 8 ≤ sp ∨ s.flag .TX_ASID_LOCKED a then s
  else if s.flag .TX_SPAN_BASE_VALID i then
    if reg = 0 ∧ Fld.of .TX_SPAN_BASE_VALID v = 0 then s.wr .TX_SPAN_BASE_VALID i 0 else s
  else
    match reg with
    | 0 => s.setFields i v [.TX_SPAN_BASE_BASE, .TX_SPAN_BASE_W, .TX_SPAN_BASE_R, .TX_SPAN_BASE_LOC, .TX_SPAN_BASE_VALID]
    | 1 => s.setFields i v [.TX_SPAN_LIMIT_LIMIT]
    | 2 => s.setFields i v [.TX_SPAN_TGT_TARGET]
    | _ => s

/-- TX_SPAN_BASE_WRITE (R414). -/
def execTxSpanBaseWrite (a sp reg v : Nat) (s : State) : Host.Outcome State Fault Refusal := s.whenUp fun s => s.writeTxSpan a sp reg v

end Sys2Proof.Machine
end

