-- ==== Sys2Proof/Machine/UnitReset.lean ====
section
/-! DEFINITION. Per-unit resets and enable masks (R4, R389, R400, R472, R502 to R504) and their rows. -/

namespace Sys2Proof.Machine

/-! ## Per-unit reset (R503) -/

/-- The internal address of PW_UNIT_RST. -/
def unitRstAddr : Nat := 0xF00000018

/-- The record of a reset that is ignored (R502). -/
def State.resetIgnored (s : State) (kind i : Nat) : State := s.logRec 1 blkPower .resetIgnored i [kind]

/-- A ferry gives up every line of its data cache: W lines are written back, K and P lines noticed (R400). -/
def State.dropCache (s : State) (f : Nat) : State :=
  ((s.lines.filter fun l => l.has f).map fun l => l.addr).foldl (fun s a => s.lineEvict f a) s

/-- An invocation ends with RESET: its fault record, and its end (R384, R389). The ferry does not fail for it. -/
def State.resetThread (s : State) (f t : Nat) : State :=
  match (s.thread f t).inv with
  | none => s
  | some v =>
    let i := 16 * f + t
    let s := s.wrAll i [(.FX_FAULT_PC, v.pc), (.FX_FAULT_ENTRY, v.entry), (.FX_FAULT_JOB_SLOT, v.slot.getD 0), (.FX_FAULT_CAUSE, tfReset)]
    let s := ((s.incSat .FX_FAULT_COUNT i 1).count f 2 tfReset).count f 2 0
    (s.logRec 1 0x02 .threadFault i [v.pc, v.entry, tfReset]).endInvoc f t .fault

/-- A ferry's reset: its cache, its invocations, DRAINED with both images kept, its queues HALTED with reason 6 (R389, R400); a
FERRY-DRAIN that waits completes. -/
def State.resetFerry (s : State) (f : Nat) : State :=
  let s := s.dropCache f
  let s := (s.busyThreads f).foldl (fun s t => s.resetThread f t) s
  let src := (s.ferry f).drainSrc
  let s := ((s.wr .FX_STATUS_STATE f fxDrained).haltFerryQueues f).updFerry f fun x => { x with drainSrc := none }
  match src with
  | some r => s.endPriv r 0
  | none => s

/-- A port's reset: flushed without hold, then TRAINING if EN is set. -/
def State.resetPort (s : State) (p : Nat) (full : Nat → Bool) : State :=
  let cause := s.rd .LL_PORT_STATE_DOWN_CAUSE p
  let s := (s.disablePort p).wr .LL_PORT_STATE_DOWN_CAUSE p cause
  if peEn (s.portEntry p) && !s.flag .PW_STATUS_PARKED then s.startPort p full else s

/-- A quad's reset: its ports, with full training; the lanes that its isolation marked FAILED return. -/
def State.resetQuad (s : State) (q : Nat) : State :=
  let s := if s.flag .FT_SRC_ISOLATED (148 + q) then
      (List.range 4).foldl (fun s k => s.wr .LN_LANE_STATUS_FAILED (4 * q + k) 0) s else s
  (s.portsOfQuad q).foldl (fun s p => s.resetPort p fun _ => true) s

/-- Whether a unit of a KIND is there and enabled. -/
def State.rstUnitOn (s : State) (kind i : Nat) : Bool :=
  match kind with
  | 1 => s.ferryOn i
  | 2 => s.portOn i
  | 3 => decide (i < 18) && (List.range 4).any fun k => s.laneOn (4 * i + k)
  | 4 => s.huddleOn i
  | 5 => s.catcherOn i
  | _ => false

/-- The effect of a reset on its unit; a catcher's spaces move away from it (R213). -/
def State.rstEffect (s : State) (kind i : Nat) : State :=
  match kind with
  | 1 => s.resetFerry i
  | 2 => s.resetPort i fun _ => false
  | 3 => s.resetQuad i
  | 4 => s.failHuddle i
  | _ => State.catchersMoved { s with unitInReset := some (kind, i) }

/-- A write of PW_UNIT_RST: rejected while BUSY is set, and for a catcher while no other one is enabled; ignored and logged for a disabled
unit. -/
def State.unitReset (s : State) (kind i : Nat) : State :=
  if kind = 0 ∨ 5 < kind then s
  else if s.unitInReset.isSome then s.logRejected unitRstAddr
  else if !s.rstUnitOn kind i then s.resetIgnored kind i
  else if kind = 5 ∧ (s.catchersOn.filter fun c => decide (c ≠ i)).isEmpty then s.logRejected unitRstAddr
  else { s.rstEffect kind i with unitInReset := some (kind, i) }

/-- The fault source of a unit of a KIND. -/
def rstSource (kind i : Nat) : Nat :=
  match kind with
  | 1 => i
  | 2 => 76 + i
  | 3 => 148 + i
  | 4 => 68 + i
  | _ => 64 + i

/-- A per-unit reset finishes: BUSY and ISOLATED clear (R472); a catcher's spaces move back. -/
def State.unitResetOver (s : State) : State :=
  match s.unitInReset with
  | none => s
  | some (kind, i) =>
    let s := { s with unitInReset := none }.setFlag .FT_SRC_ISOLATED (rstSource kind i) false
    if kind = 5 then s.catchersMoved else s

/-- UNIT_RESET_FERRY. -/
def execUnitResetFerry (f : Nat) (s : State) : Host.Outcome State Fault Refusal := s.whenUp fun s => (s.unitReset 1 f).settleAll

/-- UNIT_RESET_PORT. -/
def execUnitResetPort (p : Nat) (s : State) : Host.Outcome State Fault Refusal := s.whenUp fun s => s.unitReset 2 p

/-- UNIT_RESET_LANE_QUAD. -/
def execUnitResetLaneQuad (q : Nat) (s : State) : Host.Outcome State Fault Refusal := s.whenUp fun s => s.unitReset 3 q

/-- UNIT_RESET_HUDDLE. -/
def execUnitResetHuddle (h : Nat) (s : State) : Host.Outcome State Fault Refusal := s.whenUp fun s => (s.unitReset 4 h).settleAll

/-- UNIT_RESET_CATCHER. -/
def execUnitResetCatcher (c : Nat) (s : State) : Host.Outcome State Fault Refusal := s.whenUp fun s => s.unitReset 5 c

/-- UNIT_RESET_COMPLETE. -/
def execUnitResetComplete (s : State) : Host.Outcome State Fault Refusal := s.whenUp State.unitResetOver

/-! ## Enable masks (R504) -/

/-- The internal address of PW_EN[r]. -/
def pwEnAddr (r : Nat) : Nat := 0xF00000100 + 8 * r

/-- Whether bit `k` of PW_EN[r] may be cleared. -/
def State.mayClear (s : State) (r k new : Nat) : Bool :=
  let lane (l : Nat) : Bool := (s.portOfLane l).isNone || s.flag .LN_LANE_STATUS_FAILED l
  match r with
  | 0 => s.ferryStill k
  | 3 =>
    if k < 8 then true
    else if k < 12 then decide (bitsOf new 8 4 ≠ 0)
    else decide (bitsOf new 12 8 ≠ 0)
  | 4 => lane k
  | 5 => lane (64 + k)
  | 6 => decide (32 ≤ ((List.range 64).filter fun b => bitOf new b).length)
  | _ => true

/-- What a unit whose bit of PW_EN[r] is cleared does before it goes. -/
def State.unitGoes (s : State) (r k : Nat) : State :=
  match r with
  | 0 => s.dropCache k
  | 2 => s.clearEn k
  | 3 => if k < 8 then s.clearEn (64 + k) else s
  | 4 => s.laneStop k
  | 5 => s.laneStop (64 + k)
  | _ => s

/-- A unit whose bit is set returns in the state that a per-unit reset leaves. -/
def State.unitReturns (s : State) (r k : Nat) : State :=
  let clear (s : State) (n : Nat) : State := s.setFlag .FT_SRC_ISOLATED n false
  match r with
  | 0 => (clear s k).wr .FX_STATUS_STATE k fxDrained
  | 2 => (clear s (76 + k)).resetPort k fun _ => false
  | 3 =>
    if k < 8 then (clear s (140 + k)).resetPort (64 + k) fun _ => false
    else if k < 12 then clear s (56 + k)
    else clear s (56 + k)
  | _ => s

/-- A write of PW_EN[r]: rejected whole where R504 forbids the clearing of a bit; fused bits are fixed (R4). -/
def State.writePwEn (s : State) (r w : Nat) : State :=
  if r = 1 ∨ 6 < r then s
  else
    let old := s.rd .PW_EN_MASK r
    let fused := fusedMask s.variant r
    let bits := (List.range 64).filter fun k => bitOf fused k
    let new := bits.foldl (fun n k => n + bitAt (bitOf w k) k) 0
    let cleared := bits.filter fun k => bitOf old k && !bitOf new k
    let set := bits.filter fun k => !bitOf old k && bitOf new k
    if !cleared.all (fun k => s.mayClear r k new) then s.logRec 1 blkPower .powerRejected r [pwEnAddr r, w]
    else
      let s := cleared.foldl (fun s k => s.unitGoes r k) s
      let s := s.wr .PW_EN_MASK r new
      let s := set.foldl (fun s k => s.unitReturns r k) s
      if r = 3 ∧ bitsOf old 8 4 ≠ bitsOf new 8 4 then s.catchersMoved else s

/-- PW_EN_WRITE. -/
def execPwEnWrite (r mask : Nat) (s : State) : Host.Outcome State Fault Refusal := s.whenUp fun s => s.writePwEn r mask

end Sys2Proof.Machine
end

