-- ==== Sys2Proof/Machine/RegWrite.lean ====
section
/-! DEFINITION. Access to every register by the path it takes (R4, R9, R10, R28 to R31, R430 to R432): the control path, or a host
function through a BAR. `none` is the control path. Also the writes of BAR4 windows and of VF registers (R429, R434). -/

namespace Sys2Proof.Machine

/-! ## Rights (R9) -/

/-- The identity of an entry point at the lock unit (R402). -/
def pathIdent (f : Option Func) : Nat := match f with | some g => identHost g | none => identCtl

/-- The registers that their chapter makes PRIV whole. -/
def Reg.priv (r : Reg) : Bool :=
  match r with
  | .MT_CFG => true
  | .MT_STATUS => true
  | .MT_LINE => true
  | .MT_TRIG_CFG => true
  | .MT_TRIG_TIME => true
  | .MT_TRIG_CAP => true
  | .MT_TRIG_STAT => true
  | .TP_CTX_CFG => true
  | .TP_RTO_CFG => true
  | .TP_ACK_CFG => true
  | .TP_CC_CFG => true
  | .TP_CC_RATE => true
  | .TP_CREDIT_CFG => true
  | .TP_STATUS => true
  | _ => false

/-- Whether a field of a register is reached through the control path only. -/
def Reg.hides (r : Reg) (x : Fld) : Bool :=
  r.priv || (match x.row.acc with | .priv => true | .privWo => true | .enMask => true | .efCtl => true | _ => false)

/-- The internal address of a register instance; 0 for a register of a BAR0 function page. -/
def Reg.addr (r : Reg) (i : Nat) : Nat := match r.place with | some p => p.addr i | none => 0

/-- The PRIV fields that an access touches are out of a function's reach: the access leaves a record (R9). -/
def State.guard (s : State) (f : Option Func) (r : Reg) (i : Nat) (fs : List Fld) : State :=
  if f.isSome && fs.any r.hides then s.logViolation (r.addr i) else s

/-! ## Reads -/

/-- The fields that depend on who reads (R403, R409). -/
def State.readerPart (s : State) (f : Option Func) (r : Reg) (i w : Nat) : Nat :=
  match r with
  | .LK_LOCK =>
    w - s.field .LK_LOCK_QUEUED i * 2 ^ 38 + bitAt ((s.lock i).waiters.contains (pathIdent f)) 38
  | .LK_WORD => (s.lkWord.look (pathIdent f)).getD 0
  | _ => w

/-- A read of some fields of a register instance by an entry point. -/
def State.readPart (s : State) (f : Option Func) (r : Reg) (i : Nat) (fs : List Fld) : State × Nat :=
  if !s.regOn r i then (s, 0)
  else if r = .LK_LOCK ∧ !s.lockHostOk i (pathIdent f) then (s.logViolation (r.addr i), 0)
  else
    let sees := if f.isSome then fs.filter fun x => !r.hides x else fs
    match (s.guard f r i fs).readFields i sees with
    | (t, w) => (t, s.readerPart f r i w)

/-- Whether a field lies in the accessed half of its register. -/
def Fld.inHalf (x : Fld) (hi : Bool) : Bool := if hi then decide (32 < x.row.lo + x.row.width) else decide (x.row.lo < 32)

/-- Half of a register word. -/
def halfOf (hi : Bool) (w : Nat) : Nat := if hi then w / 2 ^ 32 % 2 ^ 32 else w % 2 ^ 32

/-- The fields of a register that an access to a half, or to the whole, touches. -/
def Reg.partFields (r : Reg) (part : Option Bool) : List Fld :=
  match part with
  | none => r.fields
  | some hi => r.fields.filter fun x => Fld.inHalf x hi

/-- An aligned 4-byte or 8-byte read: `part` names the half of a 4-byte one. -/
def State.readWord (s : State) (f : Option Func) (r : Reg) (i : Nat) (part : Option Bool) : State × Nat :=
  match s.readPart f r i (r.partFields part) with
  | (s, w) => (s, match part with | none => w | some hi => halfOf hi w)

/-! ## BAR4 windows and virtual functions (R429, R434) -/

/-- Whether two ranges, each a start and a length, overlap. -/
def rangesMeet (a n b m : Nat) : Bool := decide (a < b + m ∧ b < a + n)

/-- The start in BAR4 and the size of a window, by its flat index 16 × p + w. -/
def State.winLo (s : State) (i : Nat) : Nat := s.rd .HI_WIN_BASE_OFFSET i * 65536
def State.winSize (s : State) (i : Nat) : Nat := 2 ^ (16 + s.rd .HI_WIN_BASE_SIZE i)

/-- The internal address that a window starts at. -/
def State.winTarget (s : State) (i : Nat) : Nat := s.rd .HI_WIN_TGT_TARGET i * 65536

/-- Whether a range lies in what a VF's job may reach: its tally range, or the package bounds of one slot locked to it (R434). -/
def State.vfReaches (s : State) (f : Func) (a n : Nat) : Bool :=
  let i := fnIdx f
  let job := s.job (s.rd .HI_VF_JOB_SLOT i)
  s.flag .HI_VF_BOUND i &&
    (decide (0x13_8000_0000 + 8 * job.tallyBase ≤ a ∧ a + n ≤ 0x13_8000_0000 + 8 * (job.tallyBase + job.tallyCount))
      || job.asids.any fun v =>
        match s.asidSlot v with
        | some b =>
          decide (0x10_0000_0000 + 4096 * s.rd .TX_PKG_FIRST b ≤ a ∧ a + n ≤ 0x10_0000_0000 + 4096 * (s.rd .TX_PKG_LAST b + 1))
        | none => false)

/-- Whether an enabled window obeys R434. -/
def State.winOk (s : State) (i : Nat) : Bool :=
  let f := s.rd .HI_WIN_BASE_FUNC i
  let t := s.winTarget i
  let n := s.winSize i
  (s.setOf .HI_WIN_TGT_EN).all (fun j =>
    decide (j = i) || decide (s.rd .HI_WIN_BASE_FUNC j ≠ f) || !rangesMeet (s.winLo i) n (s.winLo j) (s.winSize j))
    && !rangesMeet t n 0x0B_0000_0000 0x1_0000_0000
    && !rangesMeet t n 0x13_8020_0000 0x7FE0_0000
    && (decide (f % 256 = 0) || s.vfReaches f t n)

/-- A write of HI_WIN_BASE or HI_WIN_TGT of window `i`, judged by the window as the write would leave it. -/
def State.writeWin (s : State) (tgt : Bool) (i v : Nat) : State :=
  let t :=
    if tgt then s.setFields i v [.HI_WIN_TGT_TARGET, .HI_WIN_TGT_EN]
    else (s.setFields i v [.HI_WIN_BASE_OFFSET, .HI_WIN_BASE_FUNC, .HI_WIN_BASE_W, .HI_WIN_BASE_R]).setBounded i v
      [(.HI_WIN_BASE_SIZE, 0, 19)]
  if t.flag .HI_WIN_TGT_EN i && !t.winOk i then
    s.logRejected ((if tgt then Reg.HI_WIN_TGT else Reg.HI_WIN_BASE).addr i)
  else t

/-- A write of HI_VF, by flat index: rejected whole while a queue of the VF is not DISABLED, and for a value that R429's table forbids. -/
def State.writeVf (s : State) (i v : Nat) : State :=
  let q := Fld.of .HI_VF_QBASE v
  let f : Func := i / 253 * 256 + i % 253
  if q = 0 ∨ q % 64 ≠ 0 ∨ s.boundQueues (fun k => decide (s.qFunc k = f)) ≠ [] then s.logRejected (Reg.HI_VF.addr i)
  else s.wr .HI_VF_QBASE i q

/-! ## Writes -/

/-- The bits of a word that a 4-byte write changes, laid over the register as it stands; bits that act when written stand as 0. -/
def State.mergeWord (s : State) (i : Nat) (fs : List Fld) (part : Option Bool) (v : Nat) : Nat :=
  let kept := fs.filter fun x => match x.row.acc with | .w1c => false | .w1s => false | .wo => false | .privWo => false | _ => true
  let cur := s.composeWord i kept
  match part with
  | none => v % 2 ^ 64
  | some true => cur % 2 ^ 32 + v % 2 ^ 32 * 2 ^ 32
  | some false => cur / 2 ^ 32 * 2 ^ 32 + v % 2 ^ 32

/-- A command written to LK_LOCK[n] (R403). -/
def State.writeLock (s : State) (n : Nat) (f : Option Func) (v : Nat) : State :=
  let id := Fld.of .LK_LOCK_IDENT v
  let w := pathIdent f
  match Fld.of .LK_LOCK_CMD v with
  | 1 => s.lockWrite n id w fun s => (s.acquireLock n id).1
  | 2 => s.lockWrite n id w fun s => s.lockHostRelease n id
  | 3 => s.lockWrite n id w fun s => s.lockClear n id
  | 4 => s.lockWrite n id w fun s => s.updLock n fun l => { l with waiters := l.waiters.erase id }
  | _ => s

/-- A command written to LK_WORD (R409): 1 ACQUIRE, 2 RELEASE. -/
def State.writeLkWord (s : State) (f : Option Func) (v : Nat) : State :=
  let a := Fld.of .LK_WORD_ADDR v * 64 + Fld.of .LK_WORD_WORD v * 8
  let w := pathIdent f
  match Fld.of .LK_WORD_CMD v with
  | 1 => s.wordLock w a 0 (0x1_0000 + w)
  | 2 => s.wordLock w a (0x1_0000 + w) 0
  | _ => if !s.flag .LK_CFG_MAINT || decide (w ≠ identCtl) then s.logViolation (Reg.LK_WORD.addr 0) else s

/-- The parts of a register that any entry point writes: fields that are not PRIV. -/
def State.writeOpen (s : State) (f : Option Func) (r : Reg) (i v : Nat) : State :=
  match r with
  | .QU_BASE => s.writeQueueReg i 0 f v
  | .QU_CFG => s.writeQueueReg i 1 f v
  | .QU_HEADADDR => s.writeQueueReg i 5 f v
  | .QU_NOTIFY => s.writeQueueReg i 6 f v
  | .QU_STATE => s.writeQueueReg i 7 f v
  | .LK_LOCK => s.writeLock i f v
  | .LK_WORD => s.writeLkWord f v
  | .TX_ASID => s.writeTxSlot i 0 v
  | .TX_ROOT => s.writeTxSlot i 1 v
  | .TX_PKG => s.writeTxSlot i 2 v
  | .TX_SPAN_BASE => s.writeTxSpan (i / 8) (i % 8) 0 v
  | .TX_SPAN_LIMIT => s.writeTxSpan (i / 8) (i % 8) 1 v
  | .TX_SPAN_TGT => s.writeTxSpan (i / 8) (i % 8) 2 v
  | .MG_LOG_SEL => s.setFields i v [.MG_LOG_SEL_FLASH, .MG_LOG_SEL_SEQ]
  | .MG_IMAGE => if i = 0 ∧ Fld.of .MG_IMAGE_CONFIRM v = 1 then s.confirmTrial else s
  | .HI_SLOT_CTL => if Fld.of .HI_SLOT_CTL_RELEASE v = 1 then s.slotRelease else s
  | .HI_SLOT_STATUS => ((((s.w1c .HI_SLOT_STATUS_CMD_REJECTED i v).w1c .HI_SLOT_STATUS_DLLSC i v).w1c .HI_SLOT_STATUS_PFD i v).w1c
      .HI_SLOT_STATUS_ABP i v).w1c .HI_SLOT_STATUS_PDC i v
  | .EF_STATUS => s.w1c .EF_STATUS_FET_FAIL i v
  | .PW_PACE_STATUS => s.w1c .PW_PACE_STATUS_AVS_FAIL i v
  | .EC_SEL => if f.isSome && s.unitOn (i / 4) then s.w1c .EC_SEL_OVF i v else s
  | .EC_HIST => if s.portOn (i / 8) then s.w1c .EC_HIST_OVF i v else s
  | .FT_SRC =>
    if f.isSome && srcKnown i then ((s.w1c .FT_SRC_WIRE i v).w1c .FT_SRC_FORCED i v).w1c .FT_SRC_STATUS i v else s
  | .GLB_SEC_STATE => s.setFields i v [.GLB_SEC_STATE_GLITCH_SEEN]
  | .FT_STATUS => s.setFields i v [.FT_STATUS_FATAL_SRC, .FT_STATUS_FATAL_SEEN]
  | .FT_FATAL_TIME => s.setFields i v [.FT_FATAL_TIME_TIME]
  | _ => s

/-- The slot's controls (R443 to R447): PWR_ON, the indicators and the settings. -/
def State.writeSlotCtl (s : State) (v : Nat) : State :=
  let a := s.rd .HI_SLOT_CTL_ATTN_IND
  let p := s.rd .HI_SLOT_CTL_PWR_IND
  let s := (s.setFields 0 v [.HI_SLOT_CTL_SLOT_VEC, .HI_SLOT_CTL_CONT_EN, .HI_SLOT_CTL_SURPRISE_OFF, .HI_SLOT_CTL_EVT_EN]).setRanged 0 v
    [(.HI_SLOT_CTL_ATTN_IND, 0, 2), (.HI_SLOT_CTL_PWR_IND, 0, 2)]
  let s := if s.rd .HI_SLOT_CTL_ATTN_IND = a then s else s.emit (.led true (s.rd .HI_SLOT_CTL_ATTN_IND))
  let s := if s.rd .HI_SLOT_CTL_PWR_IND = p then s else s.emit (.led false (s.rd .HI_SLOT_CTL_PWR_IND))
  if Fld.of .HI_SLOT_CTL_PWR_ON v = 1 then s.slotPwrOn else s.slotPwrOff

/-- A write of EF_CFG[c] (R495 to R500). -/
def State.writeEfCfg (s : State) (c v : Nat) : State :=
  let ilim : Nat × Nat := if c = 0 then (50, 300) else (10, 250)
  (s.setFields c v [.EF_CFG_TSRC]).setRanged c v
    [(.EF_CFG_RSENSE, 100, 10000), (.EF_CFG_ILIM, ilim.1, ilim.2), (.EF_CFG_GATE_UA, 5, 60), (.EF_CFG_TREG_MS, 1, 255),
      (.EF_CFG_FET_TMAX, 85, 175)]

/-- A write of PW_RESET: the wider reset absorbs the other (R502). -/
def State.writeReset (s : State) (v : Nat) : State :=
  if Fld.of .PW_RESET_WARM v = 1 then s.warmReset 6 0 else if Fld.of .PW_RESET_MGMT v = 1 then s.mgmtReset else s

/-- The parts of a register that the control path alone writes. -/
def State.writePriv (s : State) (r : Reg) (i v : Nat) : State :=
  match r with
  | .PW_PACE_CTL => s.writePaceCtl v
  | .TP_CTX_CFG => (s.writeTp 0x08 v).grant
  | .TP_RTO_CFG => (s.writeTp 0x10 v).grant
  | .TP_ACK_CFG => (s.writeTp 0x18 v).grant
  | .TP_CC_CFG => (s.writeTp 0x20 v).grant
  | .TP_CC_RATE => (s.writeTp 0x28 v).grant
  | .TP_CREDIT_CFG => (s.writeTp 0x30 v).grant
  | .MF_QUOTA => s.writeMfQuota i v
  | .CT_CFG => (s.writeCatcher 0x00 0 v).settleAll
  | .CT_UXPOOL => (s.writeCatcher 0x08 0 v).settleAll
  | .CT_QUOTA => (s.writeCatcher 0x1000 i v).settleAll
  | .HD_LANDPOOL => s.writeLandpool v
  | .MT_CFG => (s.setFields 0 v [.MT_CFG_EXT_OFFSET, .MT_CFG_EXT_EN, .MT_CFG_PRIO]).timeConfig
  | .MT_STATUS => s.w1c .MT_STATUS_STEPPED 0 v
  | .MT_TRIG_CFG => s.writeTrigCfg i v
  | .MT_TRIG_TIME => s.setFields i v [.MT_TRIG_TIME_TIME]
  | .FX_CFG => if s.ferryOn i then s.writeFxCfg i v else s
  | .LK_GROUP => s.writeLockGroup i false v
  | .LK_GROUP_FERRIES => s.writeLockGroup i true v
  | .LK_CFG => s.writeLockCfg v
  | .TX_WALK_BASE => s.setFields i v [.TX_WALK_BASE_BASE, .TX_WALK_BASE_EN, .TX_WALK_BASE_LOC, .TX_WALK_BASE_FUNC]
  | .TX_WALK_LIMIT => s.setFields i v [.TX_WALK_LIMIT_LIMIT]
  | .HI_WIN_BASE => s.writeWin false i v
  | .HI_WIN_TGT => s.writeWin true i v
  | .HI_VF => s.writeVf i v
  | .HI_SLOT_CTL => s.writeSlotCtl v
  | .HI_HB_MSI => (s.setFields 0 v [.HI_HB_MSI_ADDR]).setRanged 0 v [(.HI_HB_MSI_HB_VEC_BASE, 0, 1984)]
  | .MG_SENS_THR => s.writeSensThr i v
  | .FT_VEC => s.setFields 0 v [.FT_VEC_EN, .FT_VEC_VECTOR]
  | .FT_SRC => s.writeFtSrc i v
  | .EC_SEL => s.writeEcSel (i / 4) (i % 4) v
  | .EC_CNT => s.writeEcCnt (i / 4) (i % 4) v
  | .EC_HIST_CFG => s.writeHistCfg i v
  | .PW_CTL => s.writePwCtl v
  | .PW_RESET => s.writeReset v
  | .PW_UNIT_RST => s.unitReset (Fld.of .PW_UNIT_RST_KIND v) (Fld.of .PW_UNIT_RST_INDEX v)
  | .PW_EN => s.writePwEn i v
  | .EF_CFG => s.writeEfCfg i v
  | .EF_MODEL => (s.setFields i v [.EF_MODEL_RDSON, .EF_MODEL_RTH, .EF_MODEL_TAMB]).setRanged i v [(.EF_MODEL_TAU, 1, 65535)]
  | .EF_CTL => s.writeEfCtl i (decide (Fld.of .EF_CTL_ON v = 1))
  | _ => s

/-- An aligned 4-byte or 8-byte write of a register by an entry point: PRIV fields take it from the control path only (R9). -/
def State.writeWord (s : State) (f : Option Func) (r : Reg) (i : Nat) (part : Option Bool) (v : Nat) : State :=
  if !s.regOn r i then s
  else
    let w := s.mergeWord i r.fields part v
    let s := if f.isSome then s.guard f r i (r.partFields part) else s.writePriv r i w
    s.writeOpen f r i w

/-! ## By internal address (R28 to R31) -/

/-- A read of 8 bytes by the control path at an internal address. -/
def State.readAddr (s : State) (addr : Nat) : State × Nat :=
  if inSecurity addr || !inSpan addr then (s.logViolation addr, 0)
  else if 0x03_0000_0000 ≤ addr ∧ addr < 0x03_0400_0000 then
    if s.inWharf (addr + 7) then (s.agentMoves addr 1, if s.poisoned addr 8 then 0 else memNat s.mem addr 8) else (s.logViolation addr, 0)
  else
    match regAt addr with
    | some (r, i) => s.readWord none r i none
    | none => (s, 0)

/-- A write of 8 bytes by the control path at an internal address. -/
def State.writeAddr (s : State) (addr v : Nat) : State :=
  if inSecurity addr || !inSpan addr then s.logViolation addr
  else if 0x03_0000_0000 ≤ addr ∧ addr < 0x03_0400_0000 then
    if s.inWharf (addr + 7) then s.writeLocal 0 addr (leBytes 8 v) else s.logViolation addr
  else
    match regAt addr with
    | some (r, i) => s.writeWord none r i none v
    | none => s

/-- Whether HI_CTL_DATA discards an access of a length (R432). -/
def State.ctlDiscards (s : State) (len : Nat) : Bool :=
  let a := s.rd .HI_CTL_ADDR_ADDR * 8
  decide (len ≠ 8) || inSecurity a || !inSpan a || (decide (0x03_0000_0000 ≤ a ∧ a < 0x03_0400_0000) && !s.inWharf (a + 7))

/-- A discarded access of HI_CTL_DATA (R432). -/
def State.ctlViolation (s : State) : State :=
  (s.logViolation (s.rd .HI_CTL_ADDR_ADDR * 8)).wr .HI_CTL_ADDR_VIOLATION 0 1

/-- A read of HI_CTL_DATA; a discarded one returns 0. -/
def State.ctlRead (s : State) (len : Nat) : State × Nat :=
  if s.ctlDiscards len then (s.ctlViolation, 0) else s.readAddr (s.rd .HI_CTL_ADDR_ADDR * 8)

/-- A write of HI_CTL_DATA. -/
def State.ctlWrite (s : State) (len v : Nat) : State :=
  if s.ctlDiscards len then s.ctlViolation else s.writeAddr (s.rd .HI_CTL_ADDR_ADDR * 8) v

/-! ## BAR0 and BAR2 (R430, R431, R80) -/

/-- What lies at an offset of BAR0. -/
inductive Bar0 where
  | queue (q reg : Nat)
  | now
  | fnStat
  | ctlAddr
  | ctlData
  | lock (n : Nat)
  | vec (dword : Nat)
  | pba (word : Nat)
  | nothing
  deriving DecidableEq, Repr

/-- The BAR0 layout of a function. -/
def State.bar0At (s : State) (f : Func) (off : Nat) : Bar0 :=
  if f % 256 = 0 then
    if off < 0x40_0000 then .queue (off / 0x40) (off % 0x40 / 8)
    else if off / 8 = 0x40_0000 / 8 then .now
    else if off / 8 = 0x40_1000 / 8 then .fnStat
    else if f = 0 ∧ off / 8 = 0x40_1008 / 8 then .ctlAddr
    else if f = 0 ∧ off / 8 = 0x40_1010 / 8 then .ctlData
    else if 0x41_0000 ≤ off ∧ off < 0x41_8000 then .lock ((off - 0x41_0000) / 8)
    else if 0x50_0000 ≤ off ∧ off < 0x50_8000 then .vec ((off - 0x50_0000) / 4)
    else if 0x50_8000 ≤ off ∧ off < 0x50_8100 then .pba ((off - 0x50_8000) / 8)
    else .nothing
  else
    if off < 0x1000 then .queue (s.rd .HI_VF_QBASE (fnIdx f) + off / 0x40) (off % 0x40 / 8)
    else if off / 8 = 0x1000 / 8 then .now
    else if off / 8 = 0x2000 / 8 then .fnStat
    else if 0x8000 ≤ off ∧ off < 0x1_0000 then .lock ((off - 0x8000) / 8)
    else if 0x3000 ≤ off ∧ off < 0x3400 then .vec ((off - 0x3000) / 4)
    else if 0x3800 ≤ off ∧ off < 0x3808 then .pba ((off - 0x3800) / 8)
    else .nothing

/-- A dword of the MSI-X table: address, address high, data, and vector control, whose bit 0 masks. -/
def State.vecDword (s : State) (f : Func) (d : Nat) : Nat :=
  if d % 4 = 3 then (if (s.fn f).unmasked.contains (d / 4) then 0 else 1) else ((s.fn f).table.look d).getD 0

/-- Write a dword of the MSI-X table; unmasking a vector sends its pending message (R435). -/
def State.setVecDword (s : State) (f : Func) (d v : Nat) : State :=
  if d % 4 ≠ 3 then
    let w := if d % 4 = 0 then v / 4 * 4 else v
    s.updFn f fun n => { n with table := n.table.put d w }
  else if v % 2 = 1 then s.updFn f fun n => { n with unmasked := n.unmasked.filter fun x => decide (x ≠ d / 4) }
  else s.unmaskVec f (d / 4)

/-- A qword of the pending-bit array. -/
def State.pbaWord (s : State) (f : Func) (k : Nat) : Nat :=
  (List.range 64).foldl (fun n b => n + bitAt ((s.fn f).pendingVec.contains (64 * k + b)) b) 0

/-- The half that a 4-byte access reaches; none for 8 bytes. -/
def partOf (off len : Nat) : Option Bool := if len = 8 then none else some (decide (off % 8 = 4))

/-- A part of a word that stands on its own. -/
def cutPart (part : Option Bool) (w : Nat) : Nat := match part with | none => w | some hi => halfOf hi w

/-- A read of BAR0 by a function. -/
def State.bar0Read (s : State) (f : Func) (off len : Nat) : State × Nat :=
  let part := partOf off len
  if (len ≠ 4 ∧ len ≠ 8) ∨ off % len ≠ 0 then (s, 0)
  else
    match s.bar0At f off with
    | .queue q reg =>
      if !s.boundTo q f then (s.regForeign f, 0)
      else
        match queueRegs[reg]? with
        | some r => s.readWord (some f) r q part
        | none => (s, 0)
    | .now => (s, cutPart part (s.field .MT_NOW_NOW 0))
    | .fnStat => s.readWord (some f) .HI_FN_STAT (fnIdx f) part
    | .ctlAddr => s.readWord (some f) .HI_CTL_ADDR 0 part
    | .ctlData => s.ctlRead len
    | .lock n => s.readWord (some f) .LK_LOCK n part
    | .vec d => (s, s.vecDword f d + (if len = 8 then s.vecDword f (d + 1) * 2 ^ 32 else 0))
    | .pba k => (s, cutPart part (s.pbaWord f k))
    | .nothing => (s, 0)

/-- A write of BAR0 by a function. -/
def State.bar0Write (s : State) (f : Func) (off len v : Nat) : State :=
  let part := partOf off len
  if (len ≠ 4 ∧ len ≠ 8) ∨ off % len ≠ 0 then s
  else
    match s.bar0At f off with
    | .queue q reg =>
      if !s.boundTo q f then s.regForeign f
      else
        match queueRegs[reg]? with
        | some r => s.writeWord (some f) r q part v
        | none => s
    | .ctlAddr =>
      let w := s.mergeWord 0 Reg.HI_CTL_ADDR.fields part v
      (s.setFields 0 w [.HI_CTL_ADDR_ADDR]).w1c .HI_CTL_ADDR_VIOLATION 0 w
    | .ctlData => s.ctlWrite len v
    | .lock n => s.writeWord (some f) .LK_LOCK n part v
    | .vec d =>
      let s := s.setVecDword f d (v % 2 ^ 32)
      if len = 8 then s.setVecDword f (d + 1) (v / 2 ^ 32 % 2 ^ 32) else s
    | _ => s

/-- The queue whose doorbell page holds an offset of BAR2. -/
def State.pageQueue (s : State) (f : Func) (off : Nat) : Option Nat :=
  let k := off / 4096
  if f % 256 = 0 then (if k < 65536 then some k else none)
  else if k < 64 ∧ s.rd .HI_VF_QBASE (fnIdx f) + k < 65536 then some (s.rd .HI_VF_QBASE (fnIdx f) + k)
  else none

/-- A read of BAR2: the completion head at offset 0 of a page (R80). -/
def State.bar2Read (s : State) (f : Func) (off len : Nat) : Nat :=
  if (len = 4 ∨ len = 8) ∧ off % 4096 = 0 then
    match s.pageQueue f off with
    | some q => s.rd .QU_HEAD_HEAD q
    | none => 0
  else 0

/-- A write of BAR2: a doorbell at offset 0 of a page; any other is discarded (R80, R81). -/
def State.bar2Write (s : State) (f : Func) (off len v : Nat) : State :=
  if s.fatal ∨ ¬((len = 4 ∨ len = 8) ∧ off % 4096 = 0) then s
  else
    match s.pageQueue f off with
    | some q => if s.boundTo q f then s.takeDoorbell q (v % 2 ^ 32) else s.dbForeign q
    | none => s

/-- A request that completes as Unsupported Request (R426). -/
def State.urReply (s : State) (f : Func) : State := (s.count (hostUnit f) 5).emit (.hostReply f none false)

/-- A host access to BAR0 or BAR2 of a function; one that does not exist answers UR. -/
def State.barAccess (s : State) (f : Func) (wr : Option Nat) (rd : State → State × Nat) (put : State → Nat → State) : State :=
  if !s.fnExists f then (match wr with | some _ => s | none => s.urReply f)
  else
    match wr with
    | some v => put s v
    | none => match rd s with | (s, w) => s.answer (some f) w

/-! ## The rows -/

/-- The blocks that work while the core is held in reset: the mailbox, the faults, power (R448, R501). -/
def refBlock (addr : Nat) : Bool := let b := blockOf addr; decide (b = 0x80 ∨ b = 0x0D ∨ b = 0x0F)

/-- REGISTER_WRITE: an access to a register that has no row of its own. -/
def execRegisterWrite (p : RegPath) (s : State) : Host.Outcome State Fault Refusal :=
  match p with
  | .internal addr v => s.whenRef fun s => if s.phase = .running ∨ refBlock addr then s.writeAddr (addr / 8 * 8) v else s
  | .bar0 f off len wr => s.whenUp fun s => s.barAccess f wr (fun s => s.bar0Read f off len) fun s v => s.bar0Write f off len v
  | .bar2 f off len wr => s.whenUp fun s => s.barAccess f wr (fun s => (s, s.bar2Read f off len)) fun s v => s.bar2Write f off len v
  | .jtag addr => s.whenUp fun s => if s.jtagReads addr && (regAt (addr / 8 * 8)).isSome then (match s.readAddr (addr / 8 * 8) with | (s, w) => s.emit (.value w)) else s

/-- HI_CTL_DATA_READ (R432). -/
def execHiCtlDataRead (len : Nat) (s : State) : Host.Outcome State Fault Refusal :=
  s.whenUp fun s => match s.ctlRead len with | (s, w) => s.answer (some 0) w

/-- HI_CTL_DATA_WRITE (R432). -/
def execHiCtlDataWrite (len v : Nat) (s : State) : Host.Outcome State Fault Refusal := s.whenUp fun s => s.ctlWrite len v

/-- HI_WIN_WRITE (R434). -/
def execHiWinWrite (tgt : Bool) (p w v : Nat) (s : State) : Host.Outcome State Fault Refusal :=
  s.whenUp fun s => if p < 2 ∧ w < 16 then s.writeWin tgt (16 * p + w) v else s

/-- HI_VF_WRITE (R429). -/
def execHiVfWrite (p vf v : Nat) (s : State) : Host.Outcome State Fault Refusal :=
  s.whenUp fun s => if p < 2 ∧ 1 ≤ vf ∧ vf ≤ 252 then s.writeVf (253 * p + vf) v else s

/-- HI_FN_STAT_READ: the counts are returned and cleared (R9). -/
def execHiFnStatRead (f : Func) (s : State) : Host.Outcome State Fault Refusal :=
  s.whenUp fun s => if s.fnExists f then s.readFor (some f) .HI_FN_STAT (fnIdx f) else s

/-! ## BAR4 (R433, R487) -/

/-- The enabled window of a function that covers an access. -/
def State.winFor (s : State) (f : Func) (off len : Nat) : Option Nat :=
  (s.setOf .HI_WIN_TGT_EN).find? fun i =>
    decide (i / 16 = f / 256 ∧ s.rd .HI_WIN_BASE_FUNC i = f ∧ s.winLo i ≤ off ∧ off + len ≤ s.winLo i + s.winSize i)

/-- The size of a function's BAR4. -/
def bar4Size (f : Func) : Nat := if f % 256 = 0 then 2 ^ 35 else 2 ^ 30

/-- A BAR4 access that no window covers or that its rights forbid. -/
def State.winMiss (s : State) (f : Func) (op : BarOp) : State :=
  let s := s.incOpen .HI_FN_STAT_WIN_MISS (fnIdx f)
  match op with
  | .write _ => s
  | _ => s.urReply f

/-- The counter that a function may read through a window of the event-counter block (R487). -/
def State.userCount (s : State) (f : Func) (addr len : Nat) : Option Nat :=
  match regAt addr with
  | some (.EC_CNT, i) =>
    if len = 8 ∧ s.unitOn (i / 4) ∧ s.flag .EC_SEL_USER_EN i ∧ s.rd .EC_SEL_USER_FN i = f then some (s.rd .EC_CNT_COUNT i) else none
  | _ => none

/-- Whether the bytes of an access touch a PRIV field of a register. -/
def privBytes (addr len : Nat) : Bool :=
  (List.range (len / 8 + 2)).any fun k =>
    let w := addr / 8 * 8 + 8 * k
    match regAt w with
    | some (r, _) => r.fields.any fun x => r.hides x && rangesMeet (8 * addr) (8 * len) (8 * w + x.row.lo) x.row.width
    | none => false

/-- A function's access through a window that no register takes is discarded; one that touches a PRIV field leaves a record (R9). -/
def State.winDrop (s : State) (addr len : Nat) : State := if privBytes addr len then s.logViolation addr else s

/-- The registers of queue 0 that HA's PF writes through BAR0 and the control path writes, and nobody else (R523). -/
def ownOnly (r : Reg) : Bool := decide (r = .QU_BASE ∨ r = .QU_CFG ∨ r = .QU_HEADADDR)

/-- Whether an address lies in no span that a window reaches: the security block, the reserved ranges, the wharf's absent part. -/
def offSpan (addr : Nat) : Bool := inSecurity addr || !inSpan addr || decide (0x03_0000_0000 ≤ addr ∧ addr < 0x03_0400_0000)

/-- A function's access through a window to an address outside package memory: the event counters, the wharf, a register. -/
def State.winRegs (s : State) (f : Func) (addr len : Nat) (op : BarOp) : State :=
  let part := partOf addr len
  let aligned := decide ((len = 4 ∨ len = 8) ∧ addr % len = 0)
  match op with
  | .atomic _ _ _ _ => s.urReply f
  | .read =>
    if s.inWharf addr && s.inWharf (addr + len - 1) then
      if s.poisoned addr len then (s.agentMoves addr 1).emit (.hostReply f (some 0) true)
      else (s.agentMoves addr 1).answer (some f) (memNat s.mem addr len)
    else if offSpan addr then (s.logViolation addr).answer (some f) 0
    else if Machine.blockOf addr = 0x0E then
      match s.userCount f addr len with
      | some n => s.answer (some f) n
      | none => (s.winDrop addr len).answer (some f) 0
    else
      match regAt (addr / 8 * 8), aligned with
      | some (r, i), true => match s.readWord (some f) r i part with | (s, w) => s.answer (some f) w
      | _, _ => (s.winDrop addr len).answer (some f) 0
  | .write bs =>
    if s.inWharf addr && s.inWharf (addr + len - 1) then s.writeLocal 0 addr bs
    else if offSpan addr then s.logViolation addr
    else if Machine.blockOf addr = 0x0E then s.winDrop addr len
    else
      match regAt (addr / 8 * 8), aligned with
      | some (r, i), true => if ownOnly r then s else s.writeWord (some f) r i part (leNat bs)
      | _, _ => s.winDrop addr len

/-- A function's access through a window to package memory; `bad` says that the read meets an uncorrectable error or poison. -/
def State.winPackage (s : State) (f : Func) (addr len : Nat) (op : BarOp) (bad : Bool) : State :=
  match op with
  | .write bs => (s.count 261 2).writeLoc (.pkg addr) bs
  | .read =>
    let s := s.count 261 1
    if bad then ((s.count 261 5).raise 230).emit (.hostReply f (some 0) true)
    else s.answer (some f) (leNat (s.readLoc (.pkg addr) len))
  | .atomic aop operand compare size64 =>
    let n := if size64 then 8 else 4
    if 2 < aop ∨ addr % n ≠ 0 ∨ len ≠ n then s.urReply f
    else
      let s := s.count 261 3
      if bad then ((s.count 261 5).raise 230).emit (.hostReply f (some 0) true)
      else
        let old := leNat (s.readLoc (.pkg addr) n)
        (s.writeLoc (.pkg addr) (leBytes n (atomicNew aop (8 * n) false old operand compare))).answer (some f) old

/-- Whether a window's rights allow an operation. -/
def State.winAllows (s : State) (i : Nat) (op : BarOp) : Bool :=
  match op with
  | .read => s.flag .HI_WIN_BASE_R i
  | _ => s.flag .HI_WIN_BASE_W i

/-- An access to BAR4 (R433). -/
def State.bar4 (s : State) (f : Func) (off len : Nat) (op : BarOp) (bad : Bool) : State :=
  if off / 64 ≠ (off + len - 1) / 64 ∨ bar4Size f < off + len then s.winMiss f op
  else
    match s.winFor f off len with
    | none => s.winMiss f op
    | some i =>
      if !s.winAllows i op then s.winMiss f op
      else
        let addr := s.winTarget i + (off - s.winLo i)
        if inPackage addr then s.winPackage f addr len op bad else s.winRegs f addr len op

/-- The bytes that an access covers: a write's own. -/
def barLenOk (op : BarOp) (len : Nat) : Bool :=
  match op with
  | .write bs => decide (bs.length = len)
  | _ => true

/-- BAR4_ACCESS (R433, R487, R195). -/
def execBar4Access (f : Func) (off len : Nat) (op : BarOp) (bad : Bool) (s : State) : Host.Outcome State Fault Refusal :=
  s.whenUp fun s =>
    if len = 0 ∨ !barLenOk op len then s
    else if !s.fnExists f then (match op with | .write _ => s | _ => s.urReply f)
    else s.bar4 f off len op bad

end Sys2Proof.Machine
end

