-- ==== Sys2Proof/Machine/Routing.lean ====
section
/-! DEFINITION. The meanings of the crossing's events (R273 to R301). -/

namespace Sys2Proof.Machine

/-- The first undecided packet of a position whose header is in and is a packet's. -/
def State.undecided (s : State) (inPort : Nat) (p : Packet) : Option Nat :=
  (s.transit.cells.find? fun t => decide (t.2.inPort = inPort ∧ t.2.pkt = headOf (Packet.wire p)) && t.2.headIn && !t.2.decided).map (·.1)

/-- Bytes padded to whole segments (R309). -/
def padSegs (bs : List Byte) : List Byte := padTo (16 * ceilDiv bs.length 16) bs

/-- ROUTER_HEADER_ARRIVAL: the header of a packet that arrived on a network port, or of one that this device injects on
an internal port, reaches the decision point; `i1` and `i2` are the two random draws (R273, R274, R284, R289). -/
def execRouterHeaderArrival (inPort : Nat) (pkt : Packet) (i1 i2 : Nat) (s : State) : Host.Outcome State Fault Refusal :=
  s.whenLive fun s =>
    if inPort < 72 then
      match s.undecided inPort pkt with
      | some id => s.decideHeader id i1 i2
      | none => s
    else if inPort < 80 && s.out.contains (.packet pkt) then
      let s := { s with out := s.out.erase (.packet pkt) }
      match (s.count (posUnit inPort) 2 pkt.cls).enterCrossing inPort (vcNo pkt.cls 0) (padSegs (Packet.wire pkt)) true with
      | (s, id) => s.decideHeader id i1 i2
    else s

/-- CUT_THROUGH_START: the head packet of an output VC starts once its age, its hops and its credits allow (R278,
R280, R315). -/
def execCutThroughStart (out vc : Nat) (s : State) : Host.Outcome State Fault Refusal :=
  s.whenLive fun s => if out < 72 ∧ vc < 8 then s.cutThrough out vc else s

/-- Discard the MG packets that have waited MG_DROP microseconds at the head of an output VC (R288). -/
def State.mgDrop (s : State) (out vc : Nat) : State :=
  match s.outQ out vc with
  | [] => s
  | id :: _ =>
    match (s.transit.look id).bind (·.leg out) with
    | none => s
    | some l => (s.setNow (l.since + us s.mgDropUs)).dropLeg id l dropMg

/-- MG_DROP_EXPIRY: the head MG packet of an output has waited MG_DROP microseconds for credits (R288, R294). -/
def execMgDropExpiry (out vc : Nat) (s : State) : Host.Outcome State Fault Refusal :=
  s.whenLive fun s => if out < 72 ∧ 6 ≤ vc ∧ vc < 8 then s.mgDrop out vc else s

/-- NOTICE_RECEIVE: the next route notice that a port received takes effect (R301). -/
def execNoticeReceive (p : Nat) (n : Notice) (s : State) : Host.Outcome State Fault Refusal :=
  s.whenLive fun s =>
    match (s.link p).noticesIn with
    | m :: r =>
      if m = n then
        let s := s.updLink p fun k => { k with noticesIn := r }
        let d : Notice := { n with up := false }
        let rest := s.notices.filter fun x => decide (x ≠ (p, d))
        { s with notices := if n.up then rest else rest ++ [(p, d)] }
      else s
    | [] => s

end Sys2Proof.Machine
end

