-- ==== Sys2Proof/Machine/Dispatch.lean ====
section
/-! DEFINITION. The dispatch: one arm per command, each a direct call of its meaning. -/

namespace Sys2Proof.Machine

def exec (i : Instr) (s : State) : Host.Outcome State Fault Refusal :=
  match i with
  | .auxPowerOnReset => Sys2Proof.Machine.execAuxPowerOnReset s
  | .auxResetRelease mgAddr efaAuto => Sys2Proof.Machine.execAuxResetRelease mgAddr efaAuto s
  | .pwrokMainAssert hbMode => Sys2Proof.Machine.execPwrokMainAssert hbMode s
  | .mainResetComplete => Sys2Proof.Machine.execMainResetComplete s
  | .pwrokMainDeassert => Sys2Proof.Machine.execPwrokMainDeassert s
  | .resetNAssert lowNs acts => Sys2Proof.Machine.execResetNAssert lowNs acts s
  | .pwResetWarm => Sys2Proof.Machine.execPwResetWarm s
  | .pwResetMgmt => Sys2Proof.Machine.execPwResetMgmt s
  | .iamelWatchdogReset => Sys2Proof.Machine.execIamelWatchdogReset s
  | .trialConfirm => Sys2Proof.Machine.execTrialConfirm s
  | .unitResetFerry f => Sys2Proof.Machine.execUnitResetFerry f s
  | .unitResetPort p => Sys2Proof.Machine.execUnitResetPort p s
  | .unitResetLaneQuad q => Sys2Proof.Machine.execUnitResetLaneQuad q s
  | .unitResetHuddle h => Sys2Proof.Machine.execUnitResetHuddle h s
  | .unitResetCatcher c => Sys2Proof.Machine.execUnitResetCatcher c s
  | .unitResetComplete => Sys2Proof.Machine.execUnitResetComplete s
  | .pwEnWrite r mask => Sys2Proof.Machine.execPwEnWrite r mask s
  | .parkEnter => Sys2Proof.Machine.execParkEnter s
  | .parkExit => Sys2Proof.Machine.execParkExit s
  | .sagWarning x => Sys2Proof.Machine.execSagWarning x s
  | .sagWarningRelease x => Sys2Proof.Machine.execSagWarningRelease x s
  | .sagReset x => Sys2Proof.Machine.execSagReset x s
  | .glitchDetect => Sys2Proof.Machine.execGlitchDetect s
  | .efCommandOn c => Sys2Proof.Machine.execEfCommandOn c s
  | .efCommandOff c => Sys2Proof.Machine.execEfCommandOff c s
  | .efGateAbove8v c => Sys2Proof.Machine.execEfGateAbove8v c s
  | .efGateBelow7v5 c => Sys2Proof.Machine.execEfGateBelow7v5 c s
  | .efFastTrip c => Sys2Proof.Machine.execEfFastTrip c s
  | .efTimerTrip c => Sys2Proof.Machine.execEfTimerTrip c s
  | .efFetOtTrip c => Sys2Proof.Machine.execEfFetOtTrip c s
  | .efFetFail c => Sys2Proof.Machine.execEfFetFail c s
  | .efModelUpdate c vin vout iout diode => Sys2Proof.Machine.execEfModelUpdate c vin vout iout diode s
  | .paceEvaluation readings => Sys2Proof.Machine.execPaceEvaluation readings s
  | .avsAck => Sys2Proof.Machine.execAvsAck s
  | .avsTimeout => Sys2Proof.Machine.execAvsTimeout s
  | .avsFailClear => Sys2Proof.Machine.execAvsFailClear s
  | .pwPaceCtlWrite v => Sys2Proof.Machine.execPwPaceCtlWrite v s
  | .paceGradientWarning region => Sys2Proof.Machine.execPaceGradientWarning region s
  | .paceGradientFault region => Sys2Proof.Machine.execPaceGradientFault region s
  | .jobOpen src p x => Sys2Proof.Machine.execJobOpen src p x s
  | .keyReqReceive jobId node serial m => Sys2Proof.Machine.execKeyReqReceive jobId node serial m s
  | .keyRespReceive jobId gen m => Sys2Proof.Machine.execKeyRespReceive jobId gen m s
  | .notYetReceive jobId => Sys2Proof.Machine.execNotYetReceive jobId s
  | .keyReqRetry slot => Sys2Proof.Machine.execKeyReqRetry slot s
  | .keyReqUnanswered slot => Sys2Proof.Machine.execKeyReqUnanswered slot s
  | .keyFailDeadline slot => Sys2Proof.Machine.execKeyFailDeadline slot s
  | .keyInstall src p x => Sys2Proof.Machine.execKeyInstall src p x s
  | .renewalStart slot => Sys2Proof.Machine.execRenewalStart slot s
  | .renewalConfirmReceive slot child => Sys2Proof.Machine.execRenewalConfirmReceive slot child s
  | .switchReceive slot t => Sys2Proof.Machine.execSwitchReceive slot t s
  | .generationSwitch slot => Sys2Proof.Machine.execGenerationSwitch slot s
  | .oldGenerationErase slot => Sys2Proof.Machine.execOldGenerationErase slot s
  | .renewalRepeat slot => Sys2Proof.Machine.execRenewalRepeat slot s
  | .generationExpiry slot => Sys2Proof.Machine.execGenerationExpiry slot s
  | .keyLeaderTakeover slot position => Sys2Proof.Machine.execKeyLeaderTakeover slot position s
  | .jobClose src p x => Sys2Proof.Machine.execJobClose src p x s
  | .jobCloseManifestTimeout slot => Sys2Proof.Machine.execJobCloseManifestTimeout slot s
  | .epochKeyErase ctx => Sys2Proof.Machine.execEpochKeyErase ctx s
  | .debugChallengeRead draw => Sys2Proof.Machine.execDebugChallengeRead draw s
  | .debugUnlock t => Sys2Proof.Machine.execDebugUnlock t s
  | .spdmMessage via r => Sys2Proof.Machine.execSpdmMessage via r s
  | .fmSessionExpiry id => Sys2Proof.Machine.execFmSessionExpiry id s
  | .doorbell f q off size value => Sys2Proof.Machine.execDoorbell f q off size value s
  | .ringFetch q count => Sys2Proof.Machine.execRingFetch q count s
  | .ringReadComplete q ok seen => Sys2Proof.Machine.execRingReadComplete q ok seen s
  | .queueStartTurn q x draw => Sys2Proof.Machine.execQueueStartTurn q x draw s
  | .heldCommandResume q x draw => Sys2Proof.Machine.execHeldCommandResume q x draw s
  | .coalTimeExpiry q => Sys2Proof.Machine.execCoalTimeExpiry q s
  | .headWordWriteFailure q => Sys2Proof.Machine.execHeadWordWriteFailure q s
  | .waitConditionMet q => Sys2Proof.Machine.execWaitConditionMet q s
  | .waitTimeoutExpiry q => Sys2Proof.Machine.execWaitTimeoutExpiry q s
  | .cmdRun q f => Sys2Proof.Machine.execCmdRun q f s
  | .cmdHalt q f => Sys2Proof.Machine.execCmdHalt q f s
  | .cmdResume q f => Sys2Proof.Machine.execCmdResume q f s
  | .cmdResumeSkip q f => Sys2Proof.Machine.execCmdResumeSkip q f s
  | .heldResumeApply q => Sys2Proof.Machine.execHeldResumeApply q s
  | .quNotifyWrite q f v => Sys2Proof.Machine.execQuNotifyWrite q f v s
  | .queue0ConfigWrite headaddr cfg f v => Sys2Proof.Machine.execQueue0ConfigWrite headaddr cfg f v s
  | .quPiRead q f => Sys2Proof.Machine.execQuPiRead q f s
  | .queueApertureAccess f q reg wr => Sys2Proof.Machine.execQueueApertureAccess f q reg wr s
  | .tallyArrayWrite n v => Sys2Proof.Machine.execTallyArrayWrite n v s
  | .nop q ltally => Sys2Proof.Machine.execNop q ltally s
  | .endCmd q ltally => Sys2Proof.Machine.execEndCmd q ltally s
  | .fence q c => Sys2Proof.Machine.execFence q c s
  | .cancel q c => Sys2Proof.Machine.execCancel q c s
  | .cancelDecision q index => Sys2Proof.Machine.execCancelDecision q index s
  | .put q c => Sys2Proof.Machine.execPut q c s
  | .puti q c => Sys2Proof.Machine.execPuti q c s
  | .get q c => Sys2Proof.Machine.execGet q c s
  | .atomic q c => Sys2Proof.Machine.execAtomic q c s
  | .send q c draw => Sys2Proof.Machine.execSend q c draw s
  | .postrecv q c => Sys2Proof.Machine.execPostrecv q c s
  | .tallyAdd q c => Sys2Proof.Machine.execTallyAdd q c s
  | .waitTally q toStop ltally totally tally timeout value => Sys2Proof.Machine.execWaitTally q toStop ltally totally tally timeout value s
  | .waitHead q toStop ltally totally queue timeout index => Sys2Proof.Machine.execWaitHead q toStop ltally totally queue timeout index s
  | .waitTime q ltally t => Sys2Proof.Machine.execWaitTime q ltally t s
  | .whistle q c => Sys2Proof.Machine.execWhistle q c s
  | .collective q c => Sys2Proof.Machine.execCollective q c s
  | .loop q c => Sys2Proof.Machine.execLoop q c s
  | .skipIf q c => Sys2Proof.Machine.execSkipIf q c s
  | .call q c => Sys2Proof.Machine.execCall q c s
  | .windowOpen src p x => Sys2Proof.Machine.execWindowOpen src p x s
  | .windowRevoke src p x => Sys2Proof.Machine.execWindowRevoke src p x s
  | .regionRegister src p x => Sys2Proof.Machine.execRegionRegister src p x s
  | .regionDeregister src p x => Sys2Proof.Machine.execRegionDeregister src p x s
  | .regionDeregisterComplete key => Sys2Proof.Machine.execRegionDeregisterComplete key s
  | .regionQuarantineEnd key => Sys2Proof.Machine.execRegionQuarantineEnd key s
  | .treeBuild src p x => Sys2Proof.Machine.execTreeBuild src p x s
  | .routeWrite src p x => Sys2Proof.Machine.execRouteWrite src p x s
  | .routeCommit src p x => Sys2Proof.Machine.execRouteCommit src p x s
  | .loadProgram src p x => Sys2Proof.Machine.execLoadProgram src p x s
  | .ferryDrain src p x => Sys2Proof.Machine.execFerryDrain src p x s
  | .ferryDrainComplete f => Sys2Proof.Machine.execFerryDrainComplete f s
  | .ferryResume src p x => Sys2Proof.Machine.execFerryResume src p x s
  | .queueBind src p x => Sys2Proof.Machine.execQueueBind src p x s
  | .invalidate src p x => Sys2Proof.Machine.execInvalidate src p x s
  | .invalidateComplete => Sys2Proof.Machine.execInvalidateComplete s
  | .snapshot src p x => Sys2Proof.Machine.execSnapshot src p x s
  | .streamInject ctx stream => Sys2Proof.Machine.execStreamInject ctx stream s
  | .dataReceive pkt => Sys2Proof.Machine.execDataReceive pkt s
  | .multicastDataReceive pkt => Sys2Proof.Machine.execMulticastDataReceive pkt s
  | .ackReceive pkt => Sys2Proof.Machine.execAckReceive pkt s
  | .nackBusyReceive pkt => Sys2Proof.Machine.execNackBusyReceive pkt s
  | .nackRetryExpiry ctx stream psn => Sys2Proof.Machine.execNackRetryExpiry ctx stream psn s
  | .respDataReceive pkt => Sys2Proof.Machine.execRespDataReceive pkt s
  | .respStatusReceive pkt => Sys2Proof.Machine.execRespStatusReceive pkt s
  | .ackDelayExpiry ctx stream => Sys2Proof.Machine.execAckDelayExpiry ctx stream s
  | .rtoExpiry ctx stream => Sys2Proof.Machine.execRtoExpiry ctx stream s
  | .contextFail ctx => Sys2Proof.Machine.execContextFail ctx s
  | .idleCloseStart ctx => Sys2Proof.Machine.execIdleCloseStart ctx s
  | .closeReqReceive pkt => Sys2Proof.Machine.execCloseReqReceive pkt s
  | .closeAckReceive pkt => Sys2Proof.Machine.execCloseAckReceive pkt s
  | .closeRefuseReceive pkt => Sys2Proof.Machine.execCloseRefuseReceive pkt s
  | .jobCloseQuietTimeout ctx => Sys2Proof.Machine.execJobCloseQuietTimeout ctx s
  | .quietExpiry ctx => Sys2Proof.Machine.execQuietExpiry ctx s
  | .contextFetchComplete ctx ok => Sys2Proof.Machine.execContextFetchComplete ctx ok s
  | .tpCfgWrite reg v => Sys2Proof.Machine.execTpCfgWrite reg v s
  | .mfQuotaWrite slot v => Sys2Proof.Machine.execMfQuotaWrite slot v s
  | .moverTransferComplete id ok seen => Sys2Proof.Machine.execMoverTransferComplete id ok seen s
  | .flushReadComplete id => Sys2Proof.Machine.execFlushReadComplete id s
  | .hostAtomicComplete id mismatch old => Sys2Proof.Machine.execHostAtomicComplete id mismatch old s
  | .revokeReceive pkt => Sys2Proof.Machine.execRevokeReceive pkt s
  | .confirmReceive pkt => Sys2Proof.Machine.execConfirmReceive pkt s
  | .revokeDoneReceive pkt => Sys2Proof.Machine.execRevokeDoneReceive pkt s
  | .revokeRepeat slot window origin serial => Sys2Proof.Machine.execRevokeRepeat slot window origin serial s
  | .revokeFailTime slot window => Sys2Proof.Machine.execRevokeFailTime slot window s
  | .unexpectedCopyComplete id => Sys2Proof.Machine.execUnexpectedCopyComplete id s
  | .spillRefill c ok => Sys2Proof.Machine.execSpillRefill c ok s
  | .catcherRegWrite reg slot v => Sys2Proof.Machine.execCatcherRegWrite reg slot v s
  | .joinReceive pkt => Sys2Proof.Machine.execJoinReceive pkt s
  | .partReceive pkt => Sys2Proof.Machine.execPartReceive pkt s
  | .escapeReceive pkt => Sys2Proof.Machine.execEscapeReceive pkt s
  | .resultReceive pkt => Sys2Proof.Machine.execResultReceive pkt s
  | .collDoneReceive pkt => Sys2Proof.Machine.execCollDoneReceive pkt s
  | .collFailReceive pkt => Sys2Proof.Machine.execCollFailReceive pkt s
  | .collTimeout ctx inst => Sys2Proof.Machine.execCollTimeout ctx inst s
  | .rejoinReceive pkt => Sys2Proof.Machine.execRejoinReceive pkt s
  | .rerunReceive pkt => Sys2Proof.Machine.execRerunReceive pkt s
  | .rejoinRepeat ctx => Sys2Proof.Machine.execRejoinRepeat ctx s
  | .collCreditReceive pkt => Sys2Proof.Machine.execCollCreditReceive pkt s
  | .collCreditReturn ctx child => Sys2Proof.Machine.execCollCreditReturn ctx child s
  | .hdRegWrite v => Sys2Proof.Machine.execHdRegWrite v s
  | .routerHeaderArrival inPort pkt i1 i2 => Sys2Proof.Machine.execRouterHeaderArrival inPort pkt i1 i2 s
  | .cutThroughStart out vc => Sys2Proof.Machine.execCutThroughStart out vc s
  | .mgDropExpiry out vc => Sys2Proof.Machine.execMgDropExpiry out vc s
  | .mgCmdReceive pkt => Sys2Proof.Machine.execMgCmdReceive pkt s
  | .mgStatusReceive pkt => Sys2Proof.Machine.execMgStatusReceive pkt s
  | .telemetryRequest pkt => Sys2Proof.Machine.execTelemetryRequest pkt s
  | .noticeReceive p n => Sys2Proof.Machine.execNoticeReceive p n s
  | .flitTransmit p => Sys2Proof.Machine.execFlitTransmit p s
  | .dataFlitReceive p c => Sys2Proof.Machine.execDataFlitReceive p c s
  | .creditFlitReceive p c => Sys2Proof.Machine.execCreditFlitReceive p c s
  | .replayTimeout p => Sys2Proof.Machine.execReplayTimeout p s
  | .nackRepeatTimeout p => Sys2Proof.Machine.execNackRepeatTimeout p s
  | .fecLockGain l => Sys2Proof.Machine.execFecLockGain l s
  | .fecLockLoss l => Sys2Proof.Machine.execFecLockLoss l s
  | .portDown p cause => Sys2Proof.Machine.execPortDown p cause s
  | .helloReceive p c => Sys2Proof.Machine.execHelloReceive p c s
  | .helloRepeat p => Sys2Proof.Machine.execHelloRepeat p s
  | .holdExpiry p => Sys2Proof.Machine.execHoldExpiry p s
  | .trainFlitReceive p c => Sys2Proof.Machine.execTrainFlitReceive p c s
  | .trainReqRepeat p => Sys2Proof.Machine.execTrainReqRepeat p s
  | .retrainLimitExpiry p => Sys2Proof.Machine.execRetrainLimitExpiry p s
  | .portDisableDrainEnd p => Sys2Proof.Machine.execPortDisableDrainEnd p s
  | .trainingFrameReceive l w => Sys2Proof.Machine.execTrainingFrameReceive l w s
  | .laneRequestRepeat l => Sys2Proof.Machine.execLaneRequestRepeat l s
  | .fastPathTimeout l => Sys2Proof.Machine.execFastPathTimeout l s
  | .fullTrainingRestart l => Sys2Proof.Machine.execFullTrainingRestart l s
  | .recalRequest l => Sys2Proof.Machine.execRecalRequest l s
  | .laneFailureNarrow p lost => Sys2Proof.Machine.execLaneFailureNarrow p lost s
  | .lnLaneSerRead l => Sys2Proof.Machine.execLnLaneSerRead l s
  | .lnLanePrbsRead l => Sys2Proof.Machine.execLnLanePrbsRead l s
  | .timeFlitReceive p c => Sys2Proof.Machine.execTimeFlitReceive p c s
  | .ppsEdge => Sys2Proof.Machine.execPpsEdge s
  | .extReferenceLoss => Sys2Proof.Machine.execExtReferenceLoss s
  | .parentLoss => Sys2Proof.Machine.execParentLoss s
  | .holdoverExpiry => Sys2Proof.Machine.execHoldoverExpiry s
  | .whistlePacketReceive pkt => Sys2Proof.Machine.execWhistlePacketReceive pkt s
  | .whistleFire line => Sys2Proof.Machine.execWhistleFire line s
  | .trigCaptureEdge k rising => Sys2Proof.Machine.execTrigCaptureEdge k rising s
  | .trigOutputFire k => Sys2Proof.Machine.execTrigOutputFire k s
  | .mtTrigCfgWrite k v => Sys2Proof.Machine.execMtTrigCfgWrite k v s
  | .mtTrigCapRead k => Sys2Proof.Machine.execMtTrigCapRead k s
  | .mtTrigStatRead k => Sys2Proof.Machine.execMtTrigStatRead k s
  | .mtLineRead w => Sys2Proof.Machine.execMtLineRead w s
  | .handlerDispatch f => Sys2Proof.Machine.execHandlerDispatch f s
  | .budgetExpiry f t => Sys2Proof.Machine.execBudgetExpiry f t s
  | .unitOpComplete f t op result => Sys2Proof.Machine.execUnitOpComplete f t op result s
  | .timerFire f t k => Sys2Proof.Machine.execTimerFire f t k s
  | .eventWaitTimeout f t => Sys2Proof.Machine.execEventWaitTimeout f t s
  | .fxCfgWrite f v => Sys2Proof.Machine.execFxCfgWrite f v s
  | .fxFaultRead f t => Sys2Proof.Machine.execFxFaultRead f t s
  | .alu f t rd ra rb pg gn fn => Sys2Proof.Machine.execAlu f t rd ra rb pg gn fn s
  | .cmp f t rd ra rb pg gn fn => Sys2Proof.Machine.execCmp f t rd ra rb pg gn fn s
  | .pred f t rd ra rb pg gn fn => Sys2Proof.Machine.execPred f t rd ra rb pg gn fn s
  | .amo f t rd ra rb pg gn fn => Sys2Proof.Machine.execAmo f t rd ra rb pg gn fn s
  | .sysFence f t rd ra rb pg gn => Sys2Proof.Machine.execSysFence f t rd ra rb pg gn s
  | .sysYield f t rd ra rb pg gn => Sys2Proof.Machine.execSysYield f t rd ra rb pg gn s
  | .sysDone f t rd ra rb pg gn => Sys2Proof.Machine.execSysDone f t rd ra rb pg gn s
  | .sysNow f t rd ra rb pg gn => Sys2Proof.Machine.execSysNow f t rd ra rb pg gn s
  | .sysSelf f t rd ra rb pg gn => Sys2Proof.Machine.execSysSelf f t rd ra rb pg gn s
  | .sysBreak f t rd ra rb pg gn => Sys2Proof.Machine.execSysBreak f t rd ra rb pg gn s
  | .jr f t rd ra rb pg gn fn => Sys2Proof.Machine.execJr f t rd ra rb pg gn fn s
  | .addi f t rd ra imm => Sys2Proof.Machine.execAddi f t rd ra imm s
  | .andi f t rd ra imm => Sys2Proof.Machine.execAndi f t rd ra imm s
  | .ori f t rd ra imm => Sys2Proof.Machine.execOri f t rd ra imm s
  | .xori f t rd ra imm => Sys2Proof.Machine.execXori f t rd ra imm s
  | .movi f t rd ra imm => Sys2Proof.Machine.execMovi f t rd ra imm s
  | .movk f t rd ra imm => Sys2Proof.Machine.execMovk f t rd ra imm s
  | .cmpi f t rd ra imm => Sys2Proof.Machine.execCmpi f t rd ra imm s
  | .shi f t rd ra imm => Sys2Proof.Machine.execShi f t rd ra imm s
  | .ld f t rd ra sz mo off => Sys2Proof.Machine.execLd f t rd ra sz mo off s
  | .lds f t rd ra sz mo off => Sys2Proof.Machine.execLds f t rd ra sz mo off s
  | .st f t rs ra sz mo off => Sys2Proof.Machine.execSt f t rs ra sz mo off s
  | .br f t p n rsv off => Sys2Proof.Machine.execBr f t p n rsv off s
  | .brl f t p n rsv off => Sys2Proof.Machine.execBrl f t p n rsv off s
  | .sendRequest f t rd rs ra w => Sys2Proof.Machine.execSendRequest f t rd rs ra w s
  | .sendReply f t rd rs ra w => Sys2Proof.Machine.execSendReply f t rd rs ra w s
  | .sendMcast f t rd rs ra w => Sys2Proof.Machine.execSendMcast f t rd rs ra w s
  | .matchPost f t rd rs ra w => Sys2Proof.Machine.execMatchPost f t rd rs ra w s
  | .matchProbe f t rd rs ra w => Sys2Proof.Machine.execMatchProbe f t rd rs ra w s
  | .matchClaim f t rd rs ra w => Sys2Proof.Machine.execMatchClaim f t rd rs ra w s
  | .matchDeliver f t rd rs ra w => Sys2Proof.Machine.execMatchDeliver f t rd rs ra w s
  | .moveCopy f t rd rs ra w => Sys2Proof.Machine.execMoveCopy f t rd rs ra w s
  | .moveFill f t rd rs ra w => Sys2Proof.Machine.execMoveFill f t rd rs ra w s
  | .tallyUnitAdd f t rd rs ra w => Sys2Proof.Machine.execTallyUnitAdd f t rd rs ra w s
  | .tallyRead f t rd rs ra w => Sys2Proof.Machine.execTallyRead f t rd rs ra w s
  | .tallyWait f t rd rs ra w => Sys2Proof.Machine.execTallyWait f t rd rs ra w s
  | .lockAcquire f t rd rs ra w => Sys2Proof.Machine.execLockAcquire f t rd rs ra w s
  | .lockTry f t rd rs ra w => Sys2Proof.Machine.execLockTry f t rd rs ra w s
  | .lockRelease f t rd rs ra w => Sys2Proof.Machine.execLockRelease f t rd rs ra w s
  | .eventWait f t rd rs ra w => Sys2Proof.Machine.execEventWait f t rd rs ra w s
  | .eventPost f t rd rs ra w => Sys2Proof.Machine.execEventPost f t rd rs ra w s
  | .timerArm f t rd rs ra w => Sys2Proof.Machine.execTimerArm f t rd rs ra w s
  | .timerCancel f t rd rs ra w => Sys2Proof.Machine.execTimerCancel f t rd rs ra w s
  | .doorbellRing f t rd rs ra w => Sys2Proof.Machine.execDoorbellRing f t rd rs ra w s
  | .enqueue f t rd rs ra w => Sys2Proof.Machine.execEnqueue f t rd rs ra w s
  | .ferryRead f addr => Sys2Proof.Machine.execFerryRead f addr s
  | .ferryOwn f addr => Sys2Proof.Machine.execFerryOwn f addr s
  | .ferryUpgrade f addr => Sys2Proof.Machine.execFerryUpgrade f addr s
  | .agentRead addr => Sys2Proof.Machine.execAgentRead addr s
  | .agentWrite addr bytes => Sys2Proof.Machine.execAgentWrite addr bytes s
  | .agentAtomic addr aop operand compare size64 => Sys2Proof.Machine.execAgentAtomic addr aop operand compare size64 s
  | .ferryEviction f addr => Sys2Proof.Machine.execFerryEviction f addr s
  | .poisonTimeout addr => Sys2Proof.Machine.execPoisonTimeout addr s
  | .lkAcquire n ident writer => Sys2Proof.Machine.execLkAcquire n ident writer s
  | .lkRelease n ident writer => Sys2Proof.Machine.execLkRelease n ident writer s
  | .lkClearOrphan n ident writer => Sys2Proof.Machine.execLkClearOrphan n ident writer s
  | .lkWithdraw n ident writer => Sys2Proof.Machine.execLkWithdraw n ident writer s
  | .lkGroupWrite g ferries v => Sys2Proof.Machine.execLkGroupWrite g ferries v s
  | .lkCfgWrite v => Sys2Proof.Machine.execLkCfgWrite v s
  | .lkWordAcquire writer addr => Sys2Proof.Machine.execLkWordAcquire writer addr s
  | .lkWordRelease writer addr => Sys2Proof.Machine.execLkWordRelease writer addr s
  | .txAsidWrite a reg v => Sys2Proof.Machine.execTxAsidWrite a reg v s
  | .txSpanBaseWrite a sp reg v => Sys2Proof.Machine.execTxSpanBaseWrite a sp reg v s
  | .bmeClear f => Sys2Proof.Machine.execBmeClear f s
  | .bmeSet f => Sys2Proof.Machine.execBmeSet f s
  | .quiesceExpiry f => Sys2Proof.Machine.execQuiesceExpiry f s
  | .d3hotEntry f => Sys2Proof.Machine.execD3hotEntry f s
  | .flr f => Sys2Proof.Machine.execFlr f s
  | .flrComplete f => Sys2Proof.Machine.execFlrComplete f s
  | .vfEnableClear p => Sys2Proof.Machine.execVfEnableClear p s
  | .pcieLinkDown p => Sys2Proof.Machine.execPcieLinkDown p s
  | .completionTimeout id => Sys2Proof.Machine.execCompletionTimeout id s
  | .bar4Access f off len op bad => Sys2Proof.Machine.execBar4Access f off len op bad s
  | .hiCtlDataRead len => Sys2Proof.Machine.execHiCtlDataRead len s
  | .hiCtlDataWrite len v => Sys2Proof.Machine.execHiCtlDataWrite len v s
  | .hiWinWrite tgt p w v => Sys2Proof.Machine.execHiWinWrite tgt p w v s
  | .hiVfWrite p vf v => Sys2Proof.Machine.execHiVfWrite p vf v s
  | .hiFnStatRead f => Sys2Proof.Machine.execHiFnStatRead f s
  | .msixUnmask f vec => Sys2Proof.Machine.execMsixUnmask f vec s
  | .slotPwrOn => Sys2Proof.Machine.execSlotPwrOn s
  | .slotPwrOff => Sys2Proof.Machine.execSlotPwrOff s
  | .slotPerstRelease => Sys2Proof.Machine.execSlotPerstRelease s
  | .settleExpiry => Sys2Proof.Machine.execSettleExpiry s
  | .presenceChange present => Sys2Proof.Machine.execPresenceChange present s
  | .attentionButton => Sys2Proof.Machine.execAttentionButton s
  | .containmentFreeze cause => Sys2Proof.Machine.execContainmentFreeze cause s
  | .containmentRelease => Sys2Proof.Machine.execContainmentRelease s
  | .attachedMsiWrite addr data => Sys2Proof.Machine.execAttachedMsiWrite addr data s
  | .attachedRequest => Sys2Proof.Machine.execAttachedRequest s
  | .welrirelCmd msg => Sys2Proof.Machine.execWelrirelCmd msg s
  | .enrol req slot0 key token => Sys2Proof.Machine.execEnrol req slot0 key token s
  | .logRead req first count flash => Sys2Proof.Machine.execLogRead req first count flash s
  | .commit req t v sigR sigS => Sys2Proof.Machine.execCommit req t v sigR sigS s
  | .mctpControl smbus r => Sys2Proof.Machine.execMctpControl smbus r s
  | .pldmUpdateComponent t container => Sys2Proof.Machine.execPldmUpdateComponent t container s
  | .activateFirmware ts => Sys2Proof.Machine.execActivateFirmware ts s
  | .liveUpdateUnit ok => Sys2Proof.Machine.execLiveUpdateUnit ok s
  | .logFlashCopy => Sys2Proof.Machine.execLogFlashCopy s
  | .mgLogLostRead => Sys2Proof.Machine.execMgLogLostRead s
  | .sensorReading ix v => Sys2Proof.Machine.execSensorReading ix v s
  | .sensorFail ix => Sys2Proof.Machine.execSensorFail ix s
  | .mgSensThrWrite ix v => Sys2Proof.Machine.execMgSensThrWrite ix v s
  | .faultAssertion src => Sys2Proof.Machine.execFaultAssertion src s
  | .wireFault src => Sys2Proof.Machine.execWireFault src s
  | .ftForceAssert src => Sys2Proof.Machine.execFtForceAssert src s
  | .ftForceWire src => Sys2Proof.Machine.execFtForceWire src s
  | .ftReactWrite src v => Sys2Proof.Machine.execFtReactWrite src v s
  | .ftSrcRead src => Sys2Proof.Machine.execFtSrcRead src s
  | .fatalEntry src => Sys2Proof.Machine.execFatalEntry src s
  | .collectorSelfCheckFail => Sys2Proof.Machine.execCollectorSelfCheckFail s
  | .ecSelWrite u k v => Sys2Proof.Machine.execEcSelWrite u k v s
  | .ecCntWrite u k v => Sys2Proof.Machine.execEcCntWrite u k v s
  | .ecHistCfgWrite p v => Sys2Proof.Machine.execEcHistCfgWrite p v s
  | .histogramSample p => Sys2Proof.Machine.execHistogramSample p s
  | .snapshotCapture => Sys2Proof.Machine.execSnapshotCapture s
  | .snapshotComplete k ok => Sys2Proof.Machine.execSnapshotComplete k ok s
  | .registerWrite p => Sys2Proof.Machine.execRegisterWrite p s
  | .mgmtResetComplete => Sys2Proof.Machine.execMgmtResetComplete s
  | .regionEntryFetchComplete key => Sys2Proof.Machine.execRegionEntryFetchComplete key s
  | .efRegulation c on => Sys2Proof.Machine.execEfRegulation c on s
  | .prbsCheckerLock l => Sys2Proof.Machine.execPrbsCheckerLock l s
  | .vfEnableSet p numVfs => Sys2Proof.Machine.execVfEnableSet p numVfs s
  | .pcieLinkUp p speed width flitMode => Sys2Proof.Machine.execPcieLinkUp p speed width flitMode s

end Sys2Proof.Machine
end

