-- ==== Sys2Proof/Machine/Idle.lean ====
section
/-! DEFINITION. What the block does with no command waiting: one tick of machine time (log 2), with the servo's hold
and slew (R355, R356). -/

namespace Sys2Proof.Machine

/-- One tick of machine time: the count moves by 1, unless the servo holds it; the slew adds or takes one tick in
10,000 (R355). -/
def State.tick (s : State) : State :=
  let v := s.servo
  if 0 < v.hold then { s with servo := { v with hold := v.hold - 1 } }
  else if v.slew = 0 then s.setNow (s.now + 1)
  else if v.phase + 1 < 10000 then { s.setNow (s.now + 1) with servo := { v with phase := v.phase + 1 } }
  else if 0 < v.slew then { s.setNow (s.now + 2) with servo := { v with phase := 0, slew := v.slew - 1 } }
  else { s with servo := { v with phase := 0, slew := v.slew + 1 } }

end Sys2Proof.Machine
end

