-- ==== Sys2Proof/Safety.lean ====
section
/-! DEFINITION. What counts as a safe run: every step answers a next state. And the shape that every state of a run has. -/

namespace Sys2Proof

open Sys2Proof.Machine

/-- A step of the block goes on. -/
def Safe (s : State) : Prop := ∃ t, step s = .next t

/-- The first `n` steps from a state go on. -/
def SafeFor : Nat → State → Prop
  | 0, _ => True
  | n + 1, s => ∃ t, step s = .next t ∧ SafeFor n t

/-- The shape of a state: every memory in its canonical form, every register field within its width, every tally within 64 bits. -/
structure Machine.State.Inv (s : State) : Prop where
  mem : s.mem.wf = true
  hostMem : s.hostMem.wf = true
  scratch : s.scratch.wf = true
  regs : ∀ c ∈ s.regs.cells, c.2 < 2 ^ c.1.1.row.width
  tallies : ∀ c ∈ s.tallies.cells, c.2 < 2 ^ 64

/-- The parts of a state that a command's effect is told by: a register group each, the event log, and the memories and tables. -/
inductive Part where
  /-- The device and security registers (GLB_). -/
  | glb
  /-- The queue registers (QU_). -/
  | qu
  /-- The transport registers (TP_). -/
  | tp
  /-- The manifest registers (MF_). -/
  | mf
  /-- The catcher registers (CT_). -/
  | ct
  /-- The huddle registers (HD_). -/
  | hd
  /-- The port registers (LL_). -/
  | ll
  /-- The lane registers (LN_). -/
  | ln
  /-- The router registers (XB_). -/
  | xb
  /-- The time registers (MT_). -/
  | mt
  /-- The ferry registers (FX_). -/
  | fx
  /-- The lock registers (LK_). -/
  | lk
  /-- The translation registers (TX_). -/
  | tx
  /-- The host-interface registers (HI_). -/
  | hi
  /-- The management registers (MG_) but those of the log. -/
  | mg
  /-- The event log: its registers (MG_LOG_) and its ring. -/
  | log
  /-- The fault registers (FT_). -/
  | ft
  /-- The counter registers (EC_). -/
  | ec
  /-- The power registers (PW_). -/
  | pw
  /-- The e-fuse registers (EF_). -/
  | ef
  /-- The wharf and package memory. -/
  | mem
  /-- The host memories. -/
  | hostMem
  /-- The ferries' scratch memories. -/
  | scratch
  /-- The tallies. -/
  | tallies
  /-- The routing-table banks. -/
  | banks
  /-- The job slots and their keys. -/
  | jobs
  /-- The locks. -/
  | locks
  deriving DecidableEq, Repr

/-- The register group that a field belongs to. -/
def Machine.Fld.part : Fld → Part
  | .GLB_SERIAL_SERIAL | .GLB_SEC_STATE_AUTH_SLOT | .GLB_SEC_STATE_DEBUG | .GLB_SEC_STATE_FM_SESSIONS
  | .GLB_SEC_STATE_JOBS_ACTIVE | .GLB_SEC_STATE_GLITCH_SEEN | .GLB_SEC_STATE_KEYS_CLEAR | .GLB_JOB_JOB_ID | .GLB_JOB_STATE
  | .GLB_JOB_MODE | .GLB_JOB_GEN | .GLB_JOB_RENEWING | .GLB_JOB_SEALED | .GLB_JOB_LEADER | .GLB_ROLLBACK_FLOOR => .glb
  | .QU_BASE_BASE | .QU_CFG_ASID | .QU_CFG_JOB_SLOT | .QU_CFG_CTLQ | .QU_CFG_FUNC | .QU_CFG_FERRY | .QU_CFG_THREAD
  | .QU_CFG_SIZE_LOG2 | .QU_CFG_LOC | .QU_PI_STALE_DB | .QU_PI_PI | .QU_CI_LAST_STARTED | .QU_CI_CI | .QU_HEAD_HEAD
  | .QU_HEADADDR_ADDR | .QU_HEADADDR_LOC | .QU_HEADADDR_EN | .QU_NOTIFY_ARM_INDEX | .QU_NOTIFY_ARMED | .QU_NOTIFY_MSIX_EN
  | .QU_NOTIFY_VECTOR | .QU_NOTIFY_COAL_CNT | .QU_NOTIFY_COAL_TIME | .QU_STATE_ERR_INDEX | .QU_STATE_CAUSE
  | .QU_STATE_STATE | .QU_STATE_DRAINED | .QU_STATE_ERR_MULTI | .QU_STATE_HALT_REASON | .QU_STATE_CMD => .qu
  | .TP_CTX_CFG_CLOSE_IDLE | .TP_CTX_CFG_LOW_WATER | .TP_RTO_CFG_FAIL_TIME | .TP_RTO_CFG_RTO_MAX | .TP_RTO_CFG_RTO_INIT
  | .TP_RTO_CFG_RTO_MIN | .TP_ACK_CFG_DUPTHRESH | .TP_ACK_CFG_ACK_COUNT | .TP_ACK_CFG_ACK_DELAY | .TP_CC_CFG_BETA
  | .TP_CC_CFG_HAI_AFTER | .TP_CC_CFG_AI_STEP | .TP_CC_CFG_PER_HOP | .TP_CC_CFG_Q_TARGET | .TP_CC_RATE_RATE_MAX
  | .TP_CC_RATE_RATE_MIN | .TP_CC_RATE_RATE_INIT | .TP_CC_RATE_BURST | .TP_CREDIT_CFG_POOL | .TP_CREDIT_CFG_GRANT_BURST
  | .TP_STATUS_CTX_USED | .TP_STATUS_CTX_CACHED | .TP_STATUS_MOORED | .TP_TGT_STATUS_REGIONS | .TP_TGT_STATUS_READS
  | .TP_TGT_STATUS_LEAVES_FREE => .tp
  | .MF_STATUS_USED | .MF_STATUS_HELD | .MF_STATUS_LAND_FREE | .MF_QUOTA_MANIFEST | .MF_QUOTA_READS | .MF_USE_MANIFEST
  | .MF_USE_READS => .mf
  | .CT_CFG_EAGER_KIB | .CT_UXPOOL_BASE | .CT_UXPOOL_UNITS | .CT_UXSTATUS_FREE | .CT_UXSTATUS_HELD | .CT_STATUS_ONCHIP
  | .CT_STATUS_ENTRIES | .CT_QUOTA_ENTRIES | .CT_QUOTA_UXUNITS | .CT_USE_ENTRIES | .CT_USE_UXUNITS => .ct
  | .HD_LANDPOOL_BASE | .HD_LANDPOOL_SLOTS | .HD_STATUS_SLOTS_FREE | .HD_STATUS_CTX_BUILT | .HD_STATUS_ENABLED
  | .HD_CTX_INST | .HD_CTX_JOB_SLOT | .HD_CTX_STATE | .HD_CTX_ROOT | .HD_CTX_HELD | .HD_CTX_REBUILT | .HD_CTX_REJOIN_DUE
  | .HD_CTX_BUILD => .hd
  | .LL_PORT_STATE_TX_SEQ | .LL_PORT_STATE_ACKED | .LL_PORT_STATE_RX_EXP | .LL_PORT_STATE_RFAIL
  | .LL_PORT_STATE_DOWN_CAUSE | .LL_PORT_STATE_RATE | .LL_PORT_STATE_WIDTH | .LL_PORT_STATE_STATE | .LL_PORT_PEER_SERIAL
  | .LL_PORT_LINK_EPOCH | .LL_PORT_LINK_PEER_PORT | .LL_PORT_LINK_RTT | .LL_PORT_LINK_HOLD_LEFT | .LL_TIMERS_RETRAIN_LIMIT
  | .LL_TIMERS_REPLAY_TO => .ll
  | .LN_LANE_STATUS_ATTEMPTS | .LN_LANE_STATUS_TRAIN_TIME | .LN_LANE_STATUS_LOOP | .LN_LANE_STATUS_FAILED
  | .LN_LANE_STATUS_TRAINED | .LN_LANE_STATUS_LOCK | .LN_LANE_STATUS_CDR_LOCK | .LN_LANE_STATUS_RATE
  | .LN_LANE_STATUS_PSTATE | .LN_LANE_STATUS_PORT_LANE | .LN_LANE_TAPS_POST2 | .LN_LANE_TAPS_POST1 | .LN_LANE_TAPS_MAIN
  | .LN_LANE_TAPS_PRE1 | .LN_LANE_TAPS_PRE2 | .LN_LANE_TAPS_PRE3 | .LN_LANE_QUAL_SNR | .LN_LANE_QUAL_EYE_H
  | .LN_LANE_QUAL_EYE_W | .LN_LANE_QUAL_FEC_MAX | .LN_LANE_SER_SYM_ERR | .LN_LANE_PRBS_CHK_LOCK | .LN_LANE_PRBS_ERRORS => .ln
  | .XB_STATUS_COMMITS | .XB_STATUS_BUSY | .XB_STATUS_ACTIVE | .XB_PORT_UP_UP | .XB_NOTICE_AVOIDED => .xb
  | .MT_NOW_NOW | .MT_CFG_EXT_OFFSET | .MT_CFG_EXT_EN | .MT_CFG_PRIO | .MT_STATUS_OFFSET | .MT_STATUS_DEPTH
  | .MT_STATUS_PARENT | .MT_STATUS_STEPPED | .MT_STATUS_STATE | .MT_LINE_FIRED | .MT_LINE_LATE | .MT_LINE_OVERFLOW
  | .MT_LINE_PENDING | .MT_TRIG_CFG_PERIOD | .MT_TRIG_CFG_WIDTH | .MT_TRIG_CFG_LINE | .MT_TRIG_CFG_MODE
  | .MT_TRIG_TIME_TIME | .MT_TRIG_CAP_STAMP | .MT_TRIG_STAT_DROPPED | .MT_TRIG_STAT_QUEUED => .mt
  | .FX_STATUS_JOB_SLOT | .FX_STATUS_JOB_LOADED | .FX_STATUS_SYS_LEN | .FX_STATUS_JOB_LEN | .FX_STATUS_UNITS_OUT
  | .FX_STATUS_DISPATCH_Q | .FX_STATUS_STATE | .FX_CFG_JOB_THREADS | .FX_JOBSEG_INBOX | .FX_JOBSEG_SEG_LEN
  | .FX_JOBSEG_SEG_BASE | .FX_JOBSEG_ASID | .FX_SLOTS_COUNT | .FX_THREAD_PC | .FX_THREAD_ENTRY | .FX_THREAD_PRIO_EFF
  | .FX_THREAD_EVQ | .FX_THREAD_ASYNC | .FX_THREAD_TIMERS | .FX_THREAD_STATE | .FX_FAULT_PC | .FX_FAULT_ENTRY
  | .FX_FAULT_JOB_SLOT | .FX_FAULT_COUNT | .FX_FAULT_CAUSE => .fx
  | .LK_LOCK_OWNER | .LK_LOCK_HELD | .LK_LOCK_ORPHANED | .LK_LOCK_WAITERS | .LK_LOCK_QUEUED | .LK_LOCK_IDENT
  | .LK_LOCK_CMD | .LK_GROUP_JOB_SLOT | .LK_GROUP_BOUND | .LK_GROUP_PRIO_MODE | .LK_GROUP_HOST_PRIO | .LK_GROUP_HFUNC1
  | .LK_GROUP_HEN1 | .LK_GROUP_HFUNC0 | .LK_GROUP_HEN0 | .LK_GROUP_FERRIES_FERRIES | .LK_CFG_MAINT | .LK_WORD_RESULT
  | .LK_WORD_ADDR | .LK_WORD_WORD | .LK_WORD_CMD => .lk
  | .TX_STATUS_ACTIVE | .TX_STATUS_LOCKED | .TX_STATUS_INV_BUSY | .TX_WALK_BASE_BASE | .TX_WALK_BASE_EN
  | .TX_WALK_BASE_LOC | .TX_WALK_BASE_FUNC | .TX_WALK_LIMIT_LIMIT | .TX_ASID_ASID | .TX_ASID_VALID | .TX_ASID_LOCKED
  | .TX_ASID_WFUNC | .TX_ROOT_ROOT | .TX_ROOT_LOC | .TX_PKG_FIRST | .TX_PKG_LAST | .TX_SPAN_BASE_BASE | .TX_SPAN_BASE_W
  | .TX_SPAN_BASE_R | .TX_SPAN_BASE_LOC | .TX_SPAN_BASE_VALID | .TX_SPAN_LIMIT_LIMIT | .TX_SPAN_TGT_TARGET => .tx
  | .HI_PORT_NUMVFS | .HI_PORT_MODE | .HI_PORT_FLIT | .HI_PORT_IDE_LINK | .HI_PORT_WIDTH | .HI_PORT_SPEED | .HI_PORT_DL_UP
  | .HI_WIN_BASE_OFFSET | .HI_WIN_BASE_FUNC | .HI_WIN_BASE_SIZE | .HI_WIN_BASE_W | .HI_WIN_BASE_R | .HI_WIN_TGT_TARGET
  | .HI_WIN_TGT_EN | .HI_VF_QBASE | .HI_VF_JOB_SLOT | .HI_VF_BOUND | .HI_FN_STATE_LEFT | .HI_FN_STATE_STATE
  | .HI_SLOT_CTL_SLOT_VEC | .HI_SLOT_CTL_CONT_EN | .HI_SLOT_CTL_SURPRISE_OFF | .HI_SLOT_CTL_EVT_EN | .HI_SLOT_CTL_ATTN_IND
  | .HI_SLOT_CTL_PWR_IND | .HI_SLOT_CTL_RELEASE | .HI_SLOT_CTL_PWR_ON | .HI_SLOT_STATUS_PRES_SEQ | .HI_SLOT_STATUS_CAUSE
  | .HI_SLOT_STATUS_FROZEN | .HI_SLOT_STATUS_DL_ACTIVE | .HI_SLOT_STATUS_SETTLE | .HI_SLOT_STATUS_PG
  | .HI_SLOT_STATUS_PRESENCE | .HI_SLOT_STATUS_CMD_REJECTED | .HI_SLOT_STATUS_DLLSC | .HI_SLOT_STATUS_PFD
  | .HI_SLOT_STATUS_ABP | .HI_SLOT_STATUS_PDC | .HI_HB_MSI_ADDR | .HI_HB_MSI_HB_VEC_BASE | .HI_FN_STAT_DB_FOREIGN
  | .HI_FN_STAT_REG_FOREIGN | .HI_FN_STAT_WIN_MISS | .HI_CTL_ADDR_ADDR | .HI_CTL_ADDR_VIOLATION | .HI_CTL_DATA_DATA => .hi
  | .MG_STATUS_ENTERPRISE | .MG_STATUS_UPD_UNIT | .MG_STATUS_UPD_TYPE | .MG_STATUS_RESETS | .MG_STATUS_STATE
  | .MG_IMAGE_VER_A | .MG_IMAGE_VER_B | .MG_IMAGE_RUN_MIN | .MG_IMAGE_RUN_MAX | .MG_IMAGE_CONFIRM | .MG_IMAGE_TRIAL
  | .MG_IMAGE_VALID_A | .MG_IMAGE_VALID_B | .MG_IMAGE_PENDING | .MG_IMAGE_ACTIVE | .MG_SENS_AGE | .MG_SENS_FAIL
  | .MG_SENS_CRIT | .MG_SENS_WARN | .MG_SENS_VALUE | .MG_SENS_THR_CRIT | .MG_SENS_THR_WARN | .MG_SENS_THR_LOW => .mg
  | .MG_LOG_STATUS_NEWEST | .MG_LOG_STATUS_PERSISTED | .MG_LOG_LOST_LOST | .MG_LOG_SEL_FOUND | .MG_LOG_SEL_FLASH
  | .MG_LOG_SEL_SEQ | .MG_LOG_DATA_DATA => .log
  | .FT_STATUS_FATAL_SRC | .FT_STATUS_FATAL_SEEN | .FT_STATUS_FATAL | .FT_STATUS_PENDING | .FT_STATUS_ALIVE_ON
  | .FT_VEC_EN | .FT_VEC_VECTOR | .FT_FATAL_TIME_TIME | .FT_SRC_COUNT | .FT_SRC_MIN | .FT_SRC_REACT | .FT_SRC_WIRE
  | .FT_SRC_FORCED | .FT_SRC_ISOLATED | .FT_SRC_STATUS | .FT_SRC_FORCE => .ft
  | .EC_SEL_USER_FN | .EC_SEL_USER_EN | .EC_SEL_OVF | .EC_SEL_MODE | .EC_SEL_SUB | .EC_SEL_EVENT | .EC_CNT_COUNT
  | .EC_SNAP_DISABLED | .EC_SNAP_OVF | .EC_SNAP_COUNT | .EC_HIST_CFG_CLASS | .EC_HIST_OVF | .EC_HIST_COUNT
  | .EC_SNAP_STATUS_SEQ | .EC_SNAP_STATUS_PENDING | .EC_SNAP_TIME_T => .ec
  | .PW_PACE_CTL_FLOOR_MV | .PW_PACE_CTL_CEIL_MV | .PW_PACE_CTL_FIXED_MV | .PW_PACE_CTL_TARGET | .PW_PACE_CTL_MODE
  | .PW_PACE_STATUS_PACE_AT_CEIL | .PW_PACE_STATUS_SLOWEST | .PW_PACE_STATUS_SLOW_MON | .PW_PACE_STATUS_VOLT_MV
  | .PW_PACE_STATUS_MARGIN_MV | .PW_PACE_STATUS_AVS_FAIL | .PW_PACE_STATUS_SHORT | .PW_PACE_MON_REGION | .PW_PACE_MON_PACE
  | .PW_STATUS_LAST_RESET | .PW_STATUS_WARMS | .PW_STATUS_PARKED | .PW_STATUS_SAG_CORE | .PW_STATUS_SAG_12V | .PW_CTL_PARK
  | .PW_CTL_VEC_EN | .PW_CTL_VECTOR | .PW_RESET_MGMT | .PW_RESET_WARM | .PW_UNIT_RST_BUSY | .PW_UNIT_RST_KIND
  | .PW_UNIT_RST_INDEX | .PW_EN_MASK => .pw
  | .EF_CFG_RSENSE | .EF_CFG_ILIM | .EF_CFG_GATE_UA | .EF_CFG_TREG_MS | .EF_CFG_FET_TMAX | .EF_CFG_TSRC | .EF_MODEL_RDSON
  | .EF_MODEL_RTH | .EF_MODEL_TAU | .EF_MODEL_TAMB | .EF_CTL_ON | .EF_STATUS_VOUT | .EF_STATUS_IOUT | .EF_STATUS_FET_T
  | .EF_STATUS_CAUSE | .EF_STATUS_STATE | .EF_STATUS_FET_FAIL | .EF_STATUS_REG | .EF_STATUS_PG => .ef

/-- What a step leaves alone from `s` to `t` that may touch only the parts of a list: every register field of another group, every
memory and table of another kind, and the variant. -/
structure Leaves (l : List Part) (s t : State) : Prop where
  variant : t.variant = s.variant
  regs : ∀ f i, f.part ∉ l → t.rd f i = s.rd f i
  ring : .log ∉ l → t.ring = s.ring
  mem : .mem ∉ l → t.mem = s.mem
  hostMem : .hostMem ∉ l → t.hostMem = s.hostMem
  scratch : .scratch ∉ l → t.scratch = s.scratch
  tallies : .tallies ∉ l → t.tallies = s.tallies
  banks : .banks ∉ l → t.banks = s.banks
  jobs : .jobs ∉ l → t.jobs = s.jobs
  locks : .locks ∉ l → t.locks = s.locks

end Sys2Proof
end

