-- ==== Sys2Proof/Certificates/Slice0/Obligations.lean ====
section
/-! DEFINITION. The statements about the block: what each command's effect is and that it answers, what it leaves alone, and the rules that
every state and every step obey. -/

section

/-! ## User commands -/

namespace Sys2Proof.Claims

open Sys2Proof.Machine

/-- A command leaves the state `t`, once the fault collector has taken what it raised. -/
def Gives (c : Instr) (s t : State) : Prop := exec c s = .next t.collected

/-- A user command `c` of `slots` slots at the cursor of queue `q` may start, and runs as `d` (its strides added in a loop body): the
device is up and not fatal, it is the queue's turn and the queue may start it, it passes the start checks, its loop body is there, and no FENCE or END
holds it. -/
structure Starts (s : State) (q slots : Nat) (c d : Cmd) : Prop where
  up : s.phase = .running
  live : s.fatal = false
  here : (s.q q).passOne = none
  may : s.canStart q slots = true
  passes : s.entryCause q c (s.bodyOk q c) = 0
  runs : s.iterated q c = some d
  aligned : s.cmdAligned d = true
  free : (s.q q).fenced c = false
  waits : s.bodyWaits q c = false
  turn : s.turnOf q = true

/-- The index of the entry that a queue starts next. -/
def index (s : State) (q : Nat) : Nat := (s.q q).cursor

/-- The iteration that the entry at the cursor starts in: 0 outside a loop body. -/
def iteration (s : State) (q : Nat) : Nat := (s.q q).iterAt (s.q q).cursor

/-- The entry at the cursor of `s` has started as `d`, in the state `u` that its start led to. -/
def started (s u : State) (q slots : Nat) (d : Cmd) : State := u.beginExec q (index s q) (iteration s q) slots d

/-- A started entry goes on: what its start made ready has been done. -/
def ongoing (t : State) (q : Nat) : State := (t.settle q).settleAll

/-- The entry that started at the cursor of `s` has completed, from the state `t`. -/
def completed (s t : State) (q : Nat) : State := (t.completeExec q (index s q) (iteration s q)).settleAll

/-- A queue waits for a wait's condition (R94). -/
def waiting (s : State) (q : Nat) (w : WaitCmd) : State :=
  let u := (s.wr .QU_STATE_STATE q qWait).updQ q fun x =>
    { x with wait := some ⟨index s q, iteration s q, w, s.now⟩, held := none }
  if w.timeout = 0 then u else u.armIn (.wait q) (us w.timeout)

/-- An operation toward an endpoint can start: a manifest entry and landing units are free, and its context is open in `u`. -/
structure Takes (s : State) (q dest land : Nat) (u : State) (x : Nat) : Prop where
  entry : s.canTake (s.rd .QU_CFG_JOB_SLOT q) = true
  room : land ≤ s.landFree
  ctx : s.openFor (s.rd .QU_CFG_JOB_SLOT q) (s.endpoint (s.q q).ep) dest false = (u, some x)

/-- A started operation takes a manifest entry and goes out. -/
def launched (t : State) (e : MEntry) : State := (t.takeEntry e).1.pumpEntry (t.takeEntry e).2

/-- The manifest entry of an operation at the cursor of `s`. -/
def entryAt (s : State) (q x : Nat) (blk : OpBlock) (total laddr : Nat) : MEntry :=
  s.opEntry q (index s q) (iteration s q) x blk total laddr

end Sys2Proof.Claims

open Sys2Proof Sys2Proof.Machine Sys2Proof.Claims

/-- NOP, TALLY-ADD without AFTER, WAIT-TALLY, WAIT-HEAD and WAIT-TIME whose condition holds, and SKIP-IF that does not skip start and
complete; END, FENCE, CANCEL, TALLY-ADD with AFTER and LOOP start and go on; a wait whose condition does not hold puts the queue in
WAIT with its timeout running; SKIP-IF that skips completes and moves the cursor past what it skips. -/
def Obligations.controlCommandsComplete : Prop :=
  (∀ s q t, Starts s q 1 (.nop t) (.nop t) → Gives (.nop q t) s (completed s (started s s q 1 (.nop t)) q)) ∧
  (∀ s q t, Starts s q 1 (.endCmd t) (.endCmd t) → Gives (.endCmd q t) s (ongoing (started s s q 1 (.endCmd t)) q)) ∧
  (∀ s q c, Starts s q 1 (.fence c) (.fence c) → Gives (.fence q c) s (ongoing (started s s q 1 (.fence c)) q)) ∧
  (∀ s q c, Starts s q 1 (.tallyAdd c) (.tallyAdd c) → c.after = false →
    Gives (.tallyAdd q c) s (completed s ((started s s q 1 (.tallyAdd c)).addTally (tfNum c.tally) c.value) q)) ∧
  (∀ s q c, Starts s q 1 (.tallyAdd c) (.tallyAdd c) → c.after = true →
    Gives (.tallyAdd q c) s (ongoing (started s s q 1 (.tallyAdd c)) q)) ∧
  (∀ s q c, Starts s q 1 (.cancel c) (.cancel c) → idxBefore c.index (index s q) = true → (s.q q).secondSlot c.index = false →
    ((s.q q).started.all fun e => decide (e.index ≠ c.index) || cancellable e.cmd) = true →
    ((s.q q).loops.all fun l => decide (l.index ≠ c.index)) = true →
    Gives (.cancel q c) s (ongoing ((started s s q 1 (.cancel c)).updQ q fun x => { x with
      cancels := x.cancels ++ [⟨index s q, c.index,
        if (idxBefore c.index (s.rd .QU_HEAD_HEAD q) || (s.q q).done.any fun d => decide (d.1 = c.index))
          || ((s.q q).started.filter fun e => decide (e.index = c.index)).isEmpty then some .late else none, false⟩] }) q)) ∧
  (∀ s q stop lt tt n tmo v, let w : WaitCmd := ⟨.tally, stop, lt, tt, n, tmo, v⟩
    Starts s q 1 (.wait w) (.wait w) →
    Gives (.waitTally q stop lt tt n tmo v) s
      (if s.waitMet w then completed s (started s s q 1 (.wait w)) q else ongoing (waiting s q w) q)) ∧
  (∀ s q stop lt tt n tmo v, let w : WaitCmd := ⟨.head, stop, lt, tt, n, tmo, v⟩
    Starts s q 1 (.wait w) (.wait w) → s.waitQueueOk q (n % 65536) = true →
    Gives (.waitHead q stop lt tt n tmo v) s
      (if s.waitMet w then completed s (started s s q 1 (.wait w)) q else ongoing (waiting s q w) q)) ∧
  (∀ s q lt v, let w : WaitCmd := ⟨.time, false, lt, 0, 0, 0, v⟩
    Starts s q 1 (.wait w) (.wait w) →
    Gives (.waitTime q lt v) s
      (if s.waitMet w then completed s (started s s q 1 (.wait w)) q else ongoing (waiting s q w) q)) ∧
  (∀ s q c body, Starts s q 1 (.loop c) (.loop c) → s.loopBody q (index s q) c = some (body, true) →
    Gives (.loop q c) s (ongoing (s.startLoop q (index s q) c body) q)) ∧
  (∀ s q c, Starts s q 1 (.skipIf c) (.skipIf c) → 1 + c.skip ≤ s.slotsAhead q →
    skipCond c.cond (s.tally (tfNum c.tally)) c.value = false →
    Gives (.skipIf q c) s (completed s (started s s q 1 (.skipIf c)) q)) ∧
  (∀ s q c, Starts s q 1 (.skipIf c) (.skipIf c) → 1 + c.skip ≤ s.slotsAhead q →
    skipCond c.cond (s.tally (tfNum c.tally)) c.value = true →
    Gives (.skipIf q c) s (completed s ((started s s q 1 (.skipIf c)).skipAhead q (index s q) (iteration s q) c.skip
      ((s.q q).inBody (index s q))) q))

/-- PUT, PUTI, GET and ATOMIC start where a manifest entry, the landing units and the context can be had (and, for a GET and a
fetching ATOMIC, the landing space translates): each takes a manifest entry that holds its operation block, and goes out. -/
def Obligations.oneSidedCommandsComplete : Prop :=
  (∀ s q c d u x, Starts s q 1 (.put c) (.put d) → Takes s q d.dest 0 u x →
    Gives (.put q c) s (ongoing (launched (started s u q 1 (.put d))
      { entryAt s q x (.oneSided 0x08 d.rlx false false false 0 d.rtally d.key d.length d.roff 0) d.length d.laddr with
        ord := d.ord, rlx := d.rlx }) q)) ∧
  (∀ s q c d u x, Starts s q 1 (.puti c) (.puti d) → Takes s q d.dest 0 u x →
    Gives (.puti q c) s (ongoing (launched (started s u q 1 (.puti d))
      { entryAt s q x (.oneSided 0x09 d.rlx false false false 0 0 d.key d.data.length d.roff 0) d.data.length 0 with
        ord := d.ord, rlx := d.rlx, data := d.data }) q)) ∧
  (∀ s q c d u x v, Starts s q 1 (.get c) (.get d) → Takes s q d.dest (landUnits d.length) u x →
    State.preRange q d.laddr (min d.length 65536) true u = (v, none) →
    Gives (.get q c) s (ongoing (launched (started s v q 1 (.get d))
      { entryAt s q x (.oneSided 0x0A d.rlx false false false 0 d.rtally d.key d.length d.roff 0) d.length d.laddr with
        ord := d.ord, rlx := d.rlx, land := landUnits d.length }) q)) ∧
  (∀ s q c d u x, Starts s q 1 (.atomic c) (.atomic d) → c.fetch = false → d.fetch = false → Takes s q d.dest 0 u x →
    let n := if d.size64 then 8 else 4
    Gives (.atomic q c) s (ongoing (launched (started s u q 1 (.atomic d))
      { entryAt s q x (.oneSided 0x0B d.rlx false d.size64 d.signed d.aop 0 d.key n d.roff d.operand) n d.result with
        ord := d.ord, rlx := d.rlx, data := if d.aop = 2 then leBytes 8 d.compare else [] }) q)) ∧
  (∀ s q c d u x v, let n := if d.size64 then 8 else 4
    Starts s q 2 (.atomic c) (.atomic d) → c.fetch = true → d.fetch = true → Takes s q d.dest (landUnits n) u x →
    State.preRange q d.result n true u = (v, none) →
    Gives (.atomic q c) s (ongoing (launched (started s v q 2 (.atomic d))
      { entryAt s q x (.oneSided 0x0B d.rlx true d.size64 d.signed d.aop 0 d.key n d.roff d.operand) n d.result with
        ord := d.ord, rlx := d.rlx, land := landUnits n, data := if d.aop = 2 then leBytes 8 d.compare else [] }) q))

/-- SEND (eager, and by rendezvous), POSTRECV, WHISTLE, COLLECTIVE and CALL start where their checks pass: the message goes out under a
manifest entry, the receive is posted at the catcher of its space, the schedule goes out, the member joins the next instance of its
context, the event stands in the dispatch queue of the bound ferry. -/
def Obligations.messageCommandsComplete : Prop :=
  (∀ s q c d draw u x, Starts s q 2 (.send c) (.send d) → d.rdv = false → d.length ≤ s.rd .CT_CFG_EAGER_KIB * 1024 →
    Takes s q d.dest 0 u x →
    Gives (.send q c draw) s (ongoing (launched (started s u q 2 (.send d))
      { entryAt s q x (.send d.sync false d.comm d.rank d.length d.tag 0) d.length d.src with rlx := d.rlx, rdv := false }) q)) ∧
  (∀ s q c d draw u x v, Starts s q 2 (.send c) (.send d) → (d.rdv = true ∨ s.rd .CT_CFG_EAGER_KIB * 1024 < d.length) →
    Takes s q d.dest 0 u x → State.preRange q d.src d.length false u = (v, none) →
    Gives (.send q c draw) s (ongoing (launched (started s v q 2 (.send d))
      { entryAt s q x (.send d.sync true d.comm d.rank d.length d.tag
          (freeMtag (v.manifest.keys ++ v.stale.map (·.2)) + 2 ^ 17 * (draw % 2 ^ 47))) d.length d.src with
        rlx := d.rlx, rdv := true }) q)) ∧
  (∀ s q c d k u v, Starts s q 2 (.postrecv c) (.postrecv d) →
    let p : Space := ⟨s.rd .QU_CFG_JOB_SLOT q, (s.q q).ep, d.comm⟩
    s.catcherOf p = some k → s.canMatch (s.rd .QU_CFG_JOB_SLOT q) = true →
    State.preRange q d.buf d.length true s = (u, none) →
    (if d.status = 0 then (u, none) else State.preRange q d.status 32 true u) = (v, none) →
    Gives (.postrecv q c) s (ongoing ((started s v q 2 (.postrecv d)).postRecv k {
      space := p, anySrc := d.anySrc, anyTag := d.anyTag, srcRank := d.srcRank, tag := d.tag, rlx := d.rlx, func := v.qFunc q,
      asid := v.rd .QU_CFG_ASID q, buf := d.buf, length := d.length, status := d.status,
      owner := .exec q (index s q) (iteration s q) }) q)) ∧
  (∀ s q c, Starts s q 1 (.whistle c) (.whistle c) →
    let b := s.job (s.rd .QU_CFG_JOB_SLOT q)
    let id := s.rd .GLB_JOB_JOB_ID (s.rd .QU_CFG_JOB_SLOT q)
    bitOf b.whistleMask c.line = true → s.now + us 10 ≤ c.time → s.lineFull c.line ⟨c.time, some id⟩ = false →
    let t := started s s q 1 (.whistle c)
    let w : Schedule := ⟨c.line, true, id, c.time, s.nodeId⟩
    let sent :=
      if b.pos = b.leaderPos then ((t.sendWhistle w (b.kids.map b.nodeAt)).schedule c.line ⟨c.time, some id⟩).1
      else t.sendWhistle w [b.nodeAt b.leaderPos]
    Gives (.whistle q c) s (if c.atFire then ongoing sent q else completed s sent q)) ∧
  (∀ s q c d x u v, Starts s q 1 (.collective c) (.collective d) →
    let size := dtSize d.dtype
    s.colls.look d.ctx = some x → x.slot = s.rd .QU_CFG_JOB_SLOT q → x.vecLen d * size ≤ x.maxBytes →
    s.rd .HD_CTX_STATE d.ctx ≠ hcFailed → (x.insts.filter fun i => !i.done).length < 2 →
    s.collBuf q d.src (x.vecLen d * size) (x.usesSrc d) false = (u, none) →
    u.collBuf q d.dst (((x.ownRange d).2 - (x.ownRange d).1) * size) (x.usesDst d) true = (v, none) →
    Gives (.collective q c) s (ongoing (v.collJoin q (index s q) (iteration s q) x d
      fun z => started s z q 1 (.collective d)) q)) ∧
  (∀ s q c h, Starts s q 1 (.call c) (.call c) →
    let f := s.rd .QU_CFG_FERRY q
    let slot := s.rd .QU_CFG_JOB_SLOT q
    s.servesJob f slot = true → (s.ferry f).entries.look c.handler = some h → h.callable = true → 0x80 ≤ c.handler →
    s.dispatchRoom f = true →
    Gives (.call q c) s (ongoing ((started s s q 1 (.call c)).pushEvent f {
      kind := .call q (index s q) (iteration s q), entry := c.handler, slot := slot, asid := s.rd .QU_CFG_ASID q,
      args := [(1, c.arg1), (2, c.arg2), (3, c.arg3), (4, q), (5, index s q)], payload := [] }) q))

/-! ## Maelrum engine instructions -/

namespace Sys2Proof.Claims

open Sys2Proof.Machine

/-- A thread issues the instruction that its fields spell: it takes its ferry's next issue slot, in the state `s'`, its invocation `v` is in its
region, and the word at its PC is that instruction's and is defined (R366, R370). -/
structure Issues (s s' : State) (f t : Nat) (fields : List (Nat × Nat)) (v : Invoc) : Prop where
  up : s.phase = .running
  inv : (s.thread f t).inv = some v
  on : s.ferryOn f = true
  turn : s.issuer f = some t
  took : s' = s.tookSlot f t
  region : v.inRegion v.pc = true
  word : wordOf fields = some ((s.imem.look (f, v.pc)).getD 0)
  defined : wordDefined ((s.imem.look (f, v.pc)).getD 0) = true

/-- The invocation of a thread becomes `w`, and a slot of its ferry retires (R390). -/
def retired (s : State) (f t : Nat) (w : Invoc) : State := (s.updThread f t fun x => { x with inv := some w }).slot f 0

/-- The invocation after an instruction that writes a register, and after one that writes a predicate. -/
def wroteReg (v : Invoc) (rd x : Nat) : Invoc := { v.setReg rd x with pc := v.pc + 1 }
def wrotePrd (v : Invoc) (rd : Nat) (b : Bool) : Invoc := { v.setPrd rd b with pc := v.pc + 1 }

/-- The thread, the fields and the guard of an instruction of format A. -/
def guardOf : Instr → Option (Nat × Nat × List (Nat × Nat) × Nat × Bool)
  | .alu f t rd ra rb pg gn fn => some (f, t, fmtA 0x00 rd ra rb pg gn fn, pg, gn)
  | .cmp f t rd ra rb pg gn fn => some (f, t, fmtA 0x01 rd ra rb pg gn fn, pg, gn)
  | .pred f t rd ra rb pg gn fn => some (f, t, fmtA 0x02 rd ra rb pg gn fn, pg, gn)
  | .amo f t rd ra rb pg gn fn => some (f, t, fmtA 0x03 rd ra rb pg gn fn, pg, gn)
  | .sysFence f t rd ra rb pg gn => some (f, t, fmtA 0x04 rd ra rb pg gn 0, pg, gn)
  | .sysYield f t rd ra rb pg gn => some (f, t, fmtA 0x04 rd ra rb pg gn 1, pg, gn)
  | .sysDone f t rd ra rb pg gn => some (f, t, fmtA 0x04 rd ra rb pg gn 2, pg, gn)
  | .sysNow f t rd ra rb pg gn => some (f, t, fmtA 0x04 rd ra rb pg gn 3, pg, gn)
  | .sysSelf f t rd ra rb pg gn => some (f, t, fmtA 0x04 rd ra rb pg gn 4, pg, gn)
  | .sysBreak f t rd ra rb pg gn => some (f, t, fmtA 0x04 rd ra rb pg gn 5, pg, gn)
  | .jr f t rd ra rb pg gn fn => some (f, t, fmtA 0x05 rd ra rb pg gn fn, pg, gn)
  | _ => none

end Sys2Proof.Claims

/-- ALU, CMP, PRED, FENCE, YIELD, NOW, SELF and the eight instructions of format B: an instruction that issues, and whose guard holds,
writes its one register or predicate (R370), adds 1 to the PC and retires its slot. -/
def Obligations.registerInstructionsComplete : Prop :=
  (∀ s s' f t rd ra rb pg gn fn v, Issues s s' f t (fmtA 0x00 rd ra rb pg gn fn) v → v.prd pg ≠ gn →
    Gives (.alu f t rd ra rb pg gn fn) s (retired s' f t (wroteReg v rd (aluOp fn (v.reg ra) (v.reg rb))))) ∧
  (∀ s s' f t rd ra rb pg gn fn v, Issues s s' f t (fmtA 0x01 rd ra rb pg gn fn) v → v.prd pg ≠ gn →
    Gives (.cmp f t rd ra rb pg gn fn) s (retired s' f t (wrotePrd v rd (cmpOp fn (v.reg ra) (v.reg rb))))) ∧
  (∀ s s' f t rd ra rb pg gn fn v, Issues s s' f t (fmtA 0x02 rd ra rb pg gn fn) v → v.prd pg ≠ gn →
    Gives (.pred f t rd ra rb pg gn fn) s (retired s' f t (wrotePrd v rd (predOp fn (v.prd ra) (v.prd rb))))) ∧
  (∀ s s' f t rd ra rb pg gn v, Issues s s' f t (fmtA 0x04 rd ra rb pg gn 0) v → v.prd pg ≠ gn →
    Gives (.sysFence f t rd ra rb pg gn) s (retired s' f t { v with pc := v.pc + 1 })) ∧
  (∀ s s' f t rd ra rb pg gn v, Issues s s' f t (fmtA 0x04 rd ra rb pg gn 1) v → v.prd pg ≠ gn →
    Gives (.sysYield f t rd ra rb pg gn) s (retired s' f t { v with pc := v.pc + 1 })) ∧
  (∀ s s' f t rd ra rb pg gn v, Issues s s' f t (fmtA 0x04 rd ra rb pg gn 3) v → v.prd pg ≠ gn →
    Gives (.sysNow f t rd ra rb pg gn) s (retired s' f t (wroteReg v rd s'.now))) ∧
  (∀ s s' f t rd ra rb pg gn v, Issues s s' f t (fmtA 0x04 rd ra rb pg gn 4) v → v.prd pg ≠ gn →
    Gives (.sysSelf f t rd ra rb pg gn) s (retired s' f t (wroteReg v rd (f % 64 + t % 16 * 256 + v.entry % 256 * 65536)))) ∧
  (∀ s s' f t rd ra imm v, Issues s s' f t (fmtB 0x08 rd ra imm) v →
    Gives (.addi f t rd ra imm) s (retired s' f t (wroteReg v rd ((v.reg ra + sext64 16 imm) % 2 ^ 64)))) ∧
  (∀ s s' f t rd ra imm v, Issues s s' f t (fmtB 0x09 rd ra imm) v →
    Gives (.andi f t rd ra imm) s (retired s' f t (wroteReg v rd (v.reg ra &&& imm)))) ∧
  (∀ s s' f t rd ra imm v, Issues s s' f t (fmtB 0x0A rd ra imm) v →
    Gives (.ori f t rd ra imm) s (retired s' f t (wroteReg v rd (v.reg ra ||| imm)))) ∧
  (∀ s s' f t rd ra imm v, Issues s s' f t (fmtB 0x0B rd ra imm) v →
    Gives (.xori f t rd ra imm) s (retired s' f t (wroteReg v rd (v.reg ra ^^^ imm)))) ∧
  (∀ s s' f t rd ra imm v, Issues s s' f t (fmtB 0x0C rd ra imm) v →
    Gives (.movi f t rd ra imm) s (retired s' f t (wroteReg v rd (sext64 16 imm)))) ∧
  (∀ s s' f t rd k imm v, Issues s s' f t (fmtB 0x0D rd k imm) v →
    Gives (.movk f t rd k imm) s (retired s' f t (wroteReg v rd (movkValue (v.reg rd) k imm)))) ∧
  (∀ s s' f t rd ra imm v, Issues s s' f t (fmtB 0x0E rd ra imm) v →
    Gives (.cmpi f t rd ra imm) s (retired s' f t (wrotePrd v (rd % 8) (cmpOp (rd / 8) (v.reg ra) (sext64 16 imm))))) ∧
  (∀ s s' f t rd ra imm v, Issues s s' f t (fmtB 0x0F rd ra imm) v →
    Gives (.shi f t rd ra imm) s (retired s' f t (wroteReg v rd (shiOp imm (v.reg ra)))))

/-- AMO, LD, LDS and ST: an access that faults for none of ACCESS, ALIGN and POISON reads or writes its bytes, little-endian, and the
instruction retires (R368, R370, R371). -/
def Obligations.memoryInstructionsComplete : Prop :=
  (∀ s s' f t rd ra rb pg gn fn v, Issues s s' f t (fmtA 0x03 rd ra rb pg gn fn) v → v.prd pg ≠ gn →
    let n := if bitOf fn 2 then 8 else 4
    let old := leNat (s'.readLocal f (v.reg ra) n)
    s'.accessFault f v (v.reg ra) n true = none →
    Gives (.amo f t rd ra rb pg gn fn) s
      (retired ((s'.touchLine f (v.reg ra) true).storeLocal f (v.reg ra)
        (leBytes n (amoOp (fn / 8) (8 * n) old (v.reg rb) (v.reg rd)))) f t (wroteReg v rd old))) ∧
  (∀ s s' f t rd ra sz mo off v, Issues s s' f t (fmtC 0x10 rd ra sz mo off) v →
    let a := offAddr (v.reg ra) off
    s'.accessFault f v a (2 ^ sz) true = none →
    Gives (.ld f t rd ra sz mo off) s
      (retired (s'.touchLine f a false) f t (wroteReg v rd (leNat (s'.readLocal f a (2 ^ sz)))))) ∧
  (∀ s s' f t rd ra sz mo off v, Issues s s' f t (fmtC 0x11 rd ra sz mo off) v →
    let a := offAddr (v.reg ra) off
    s'.accessFault f v a (2 ^ sz) true = none →
    Gives (.lds f t rd ra sz mo off) s
      (retired (s'.touchLine f a false) f t (wroteReg v rd (sext64 (8 * 2 ^ sz) (leNat (s'.readLocal f a (2 ^ sz))))))) ∧
  (∀ s s' f t rs ra sz mo off v, Issues s s' f t (fmtC 0x12 rs ra sz mo off) v →
    let a := offAddr (v.reg ra) off
    s'.accessFault f v a (2 ^ sz) false = none →
    Gives (.st f t rs ra sz mo off) s
      (retired ((s'.touchLine f a true).storeLocal f a (leBytes (2 ^ sz) (v.reg rs))) f t { v with pc := v.pc + 1 }))

/-- BR, BRL and JR go to their target where it lies in the region, and waste the slot after them; a branch not taken goes on; BREAK faults
its thread; DONE ends the invocation (R365, R370). -/
def Obligations.controlInstructionsComplete : Prop :=
  (∀ s s' f t p n rsv off v, Issues s s' f t (fmtD 0x18 p n rsv off) v → v.prd p = n →
    Gives (.br f t p n rsv off) s (retired s' f t { v with pc := v.pc + 1 })) ∧
  (∀ s s' f t p n rsv off v k, Issues s s' f t (fmtD 0x18 p n rsv off) v → v.prd p ≠ n →
    (v.pc : Int) + signedOf 20 off = (k : Nat) → v.inRegion k = true →
    Gives (.br f t p n rsv off) s ((retired s' f t { v with pc := k }).slot f 1)) ∧
  (∀ s s' f t p n rsv off v, Issues s s' f t (fmtD 0x19 p n rsv off) v → v.prd p = n →
    Gives (.brl f t p n rsv off) s (retired s' f t { v with pc := v.pc + 1 })) ∧
  (∀ s s' f t p n rsv off v k, Issues s s' f t (fmtD 0x19 p n rsv off) v → v.prd p ≠ n →
    (v.pc : Int) + signedOf 20 off = (k : Nat) → v.inRegion k = true →
    Gives (.brl f t p n rsv off) s ((retired s' f t { v.setReg 31 (v.pc + 1) with pc := k }).slot f 1)) ∧
  (∀ s s' f t rd ra rb pg gn fn v, Issues s s' f t (fmtA 0x05 rd ra rb pg gn fn) v → v.prd pg ≠ gn →
    v.inRegion (v.reg ra % 16384) = true →
    Gives (.jr f t rd ra rb pg gn fn) s
      ((retired s' f t { v.setReg rd (v.pc + 1) with pc := v.reg ra % 16384 }).slot f 1)) ∧
  (∀ s s' f t rd ra rb pg gn v, Issues s s' f t (fmtA 0x04 rd ra rb pg gn 5) v → v.prd pg ≠ gn →
    Gives (.sysBreak f t rd ra rb pg gn) s ((s'.engineFault f t tfBreak).settleAll)) ∧
  (∀ s s' f t rd ra rb pg gn v, Issues s s' f t (fmtA 0x04 rd ra rb pg gn 2) v → v.prd pg ≠ gn →
    Gives (.sysDone f t rd ra rb pg gn) s ((s'.doneInstr f t (v.reg ra)).settleAll))

/-- An instruction of format A whose guard does not hold has no effect but to go on: PC plus 1, and a wasted slot. -/
def Obligations.guardedOffInstructionsGoOn : Prop :=
  ∀ c s s' f t fields pg gn v, guardOf c = some (f, t, fields, pg, gn) → Issues s s' f t fields v → v.prd pg = gn →
    Gives c s ((s'.updThread f t fun x => { x with inv := some { v with pc := v.pc + 1 } }).slot f 1)

/-! ## UNIT operations -/

namespace Sys2Proof.Claims

open Sys2Proof.Machine

/-- A UNIT instruction issues. -/
def IssuesUnit (s s' : State) (f t rd rs ra unit fn : Nat) (w : Bool) (v : Invoc) : Prop := Issues s s' f t (fmtE rd rs ra unit fn w) v

/-- A descriptor operation of a thread is accepted as operation `op`, in the state `u`: its descriptor `d` lies in local memory that the
invocation may use, is aligned, is not poisoned and is well formed, fewer than 16 operations are outstanding, and CTALLY is the job's
(R375, R376). -/
structure Accepts (s : State) (f t rd rs unit fn : Nat) (w : Bool) (writes ok : List Byte → Bool) (v : Invoc) (d : List Byte)
    (u : State) (op : Nat) : Prop where
  allowed : s.localOk f (v.reg rs) 64 v.slot.isSome = true
  aligned : v.reg rs % 64 = 0
  clean : (!isScratch (v.reg rs) && s.poisoned (v.reg rs) 64) = false
  room : (s.thread f t).ops.length < 16
  desc : d = s.readLocal f (v.reg rs) 64
  form : (descHead d && ok d) = true
  taken : (s.agentMoves (v.reg rs) 64).acceptOp f t rd unit fn w (v.reg rs) d (writes d) = (u, op)
  tally : (tfEn (leAt d 1 3) && !u.invTally v (tfNum (leAt d 1 3))) = false

/-- What a packet that goes out for an invocation reads lies where the invocation may read it, and is not poisoned. -/
def Sound (u : State) (f : Nat) (v : Invoc) (addr n : Nat) : Prop := u.rangeOk f v addr n = true ∧ u.poisoned addr n = false

end Sys2Proof.Claims

/-- TALLY, LOCK, EVENT, TIMER and RING: a register operation whose checks pass has its effect and answers in rd, or puts its thread to
sleep where it must wait (R375, R381, R403, R404). -/
def Obligations.registerUnitOperationsComplete : Prop :=
  (∀ s s' f t rd rs ra w v, IssuesUnit s s' f t rd rs ra 3 0 w v → v.reg rs < 262144 → s'.invTally v (v.reg rs) = true →
    Gives (.tallyUnitAdd f t rd rs ra w) s ((s'.addTally (v.reg rs) (v.reg ra)).unitRet f t rd ruOk)) ∧
  (∀ s s' f t rd rs ra w v, IssuesUnit s s' f t rd rs ra 3 1 w v → v.reg rs < 262144 → s'.invTally v (v.reg rs) = true →
    Gives (.tallyRead f t rd rs ra w) s (s'.unitRet f t rd (ruWord ruOk 0 (s'.tally (v.reg rs))))) ∧
  (∀ s s' f t rd rs ra v, IssuesUnit s s' f t rd rs ra 3 2 true v → v.reg rs < 262144 → s'.invTally v (v.reg rs) = true →
    Gives (.tallyWait f t rd rs ra true) s
      (if reached (s'.tally (v.reg rs)) (v.reg ra) then s'.unitRet f t rd ruOk
       else (s'.count f 4).retireInstr f t fun z => { z with sleep := some (.tally rd (v.reg rs) (v.reg ra)) })) ∧
  (∀ s s' f t rd rs ra v u, IssuesUnit s s' f t rd rs ra 4 0 true v → v.reg rs < 4096 → s'.invLock f v (v.reg rs) = true →
    s'.acquireLock (v.reg rs) (identThread f t) = (u, .held) →
    Gives (.lockAcquire f t rd rs ra true) s (u.unitRet f t rd (ruOk + orphanBit (s'.lock (v.reg rs)).orphaned))) ∧
  (∀ s s' f t rd rs ra v u, IssuesUnit s s' f t rd rs ra 4 0 true v → v.reg rs < 4096 → s'.invLock f v (v.reg rs) = true →
    s'.acquireLock (v.reg rs) (identThread f t) = (u, .queued) →
    Gives (.lockAcquire f t rd rs ra true) s
      ((u.count f 4).retireInstr f t fun z => { z with sleep := some (.lock rd (v.reg rs)) })) ∧
  (∀ s s' f t rd rs ra w v, IssuesUnit s s' f t rd rs ra 4 1 w v → v.reg rs < 4096 → s'.invLock f v (v.reg rs) = true →
    (s'.lock (v.reg rs)).owner = none →
    Gives (.lockTry f t rd rs ra w) s ((s'.grantLock (v.reg rs) (identThread f t)).unitRet f t rd ruOk)) ∧
  (∀ s s' f t rd rs ra w v, IssuesUnit s s' f t rd rs ra 4 2 w v → v.reg rs < 4096 → s'.invLock f v (v.reg rs) = true →
    (s'.lock (v.reg rs)).owner = some (identThread f t) →
    Gives (.lockRelease f t rd rs ra w) s ((s'.unitRet f t rd ruOk).releaseLock (v.reg rs) false)) ∧
  (∀ s s' f t rd rs ra v e r, IssuesUnit s s' f t rd rs ra 5 0 true v → (s'.thread f t).events = e :: r →
    Gives (.eventWait f t rd rs ra true) s ((s'.updThread f t fun x => { x with events := r }).unitRet f t rd (evWord e))) ∧
  (∀ s s' f t rd rs ra v, IssuesUnit s s' f t rd rs ra 5 0 true v → (s'.thread f t).events = [] →
    let u := (s'.count f 4).retireInstr f t fun v => { v with sleep := some (.event rd) }
    Gives (.eventWait f t rd rs ra true) s (if v.reg ra = 0 then u else u.armIn (.eventWait f t) (us (v.reg ra)))) ∧
  (∀ s s' f t rd rs ra w v j h, IssuesUnit s s' f t rd rs ra 5 1 w v → v.slot = some j →
    let g := v.reg rs % 64
    let entry := bitsOf (v.reg rs) 8 8
    s'.ferryOn g = true → s'.servesJob g j = true → (s'.ferry g).entries.look entry = some h → h.callable = true → 0x80 ≤ entry →
    s'.dispatchRoom g = true →
    Gives (.eventPost f t rd rs ra w) s
      ((s'.pushEvent g {
          kind := .post, entry := entry, slot := j, asid := s'.rd .FX_JOBSEG_ASID g,
          args := [(1, v.reg ra), (2, selfWord f t v.entry)], payload := [] }).unitRet f t rd ruOk)) ∧
  (∀ s s' f t rd rs ra w v k, IssuesUnit s s' f t rd rs ra 6 0 w v →
    ((List.range 4).find? fun k => ((s'.thread f t).timers.look k).isNone) = some k →
    Gives (.timerArm f t rd rs ra w) s
      (((s'.updThread f t fun x => { x with timers := x.timers.put k (v.reg ra % 65536) }).arm (.ferryTimer f t k) (v.reg rs)).unitRet
        f t rd k)) ∧
  (∀ s s' f t rd rs ra w v tag, IssuesUnit s s' f t rd rs ra 6 1 w v → (s'.thread f t).timers.look (v.reg rs) = some tag →
    Gives (.timerCancel f t rd rs ra w) s
      (((s'.updThread f t fun x => { x with timers := x.timers.del (v.reg rs) }).disarm (.ferryTimer f t (v.reg rs))).unitRet
        f t rd ruOk)) ∧
  (∀ s s' f t rd rs ra w v, IssuesUnit s s' f t rd rs ra 7 0 w v → s'.writesOut f t = false →
    (v.fromNet = false ∨ s'.flag .QU_CFG_LOC (v.reg rs) = true) → v.reg rs < 65536 → s'.invQueue v (v.reg rs) = true →
    Gives (.doorbellRing f t rd rs ra w) s ((s'.takeDoorbell (v.reg rs) (v.reg ra % 2 ^ 32)).unitRet f t rd ruOk))

/-- REQUEST, REPLY and MCAST: an accepted operation sends its packet (R377, R378): REQUEST under a manifest entry, REPLY as the response
and the status of the HMSG that dispatched the invocation, MCAST on its multicast stream. -/
def Obligations.sendOperationsComplete : Prop :=
  (∀ s s' f t rd rs ra w v d u op j x c, IssuesUnit s s' f t rd rs ra 0 0 w v →
    Accepts s' f t rd rs 0 0 w writesNone (sendDescOk 0) v d u op → v.fromNet = false → v.slot = some j →
    s'.requestWaits f v d = false → Sound u f v (sdSrc d) (sdLen d) → u.rangeOk f v (sdRbuf d) (sdRlen d) = true →
    u.openFor j (u.ferryEp f) (sdDest d) false = (x, some c) →
    Gives (.sendRequest f t rd rs ra w) s (launched (x.agentMoves (sdSrc d) (sdLen d)) {
      queue := 0, index := 0, iter := 0, slot := j, ctx := c, blk := .hmsg false (sdHandler d) (sdFerry d) (sdLen d) (sdRlen d),
      total := sdRlen d, data := x.readLocal f (sdSrc d) (sdLen d), land := if sdRlen d = 0 then 0 else 1, owner := .unit f t op,
      laddr := sdRbuf d })) ∧
  (∀ s s' f t rd rs ra w v d u op c m b, IssuesUnit s s' f t rd rs ra 0 1 w v →
    Accepts s' f t rd rs 0 1 w writesNone (sendDescOk 1) v d u op → v.kind = .hmsg c m → v.replied = false →
    Sound u f v (sdSrc d) (sdLen d) → u.tops.look (c, m) = some b →
    (∀ a e g h r, b.blk = .hmsg a e g h r → sdLen d ≤ r) → (∃ a e g h r, b.blk = .hmsg a e g h r) →
    let z := (u.agentMoves (sdSrc d) (sdLen d)).updInv f t fun v => { v with replied := true }
    let y := if sdLen d = 0 then z else z.queueResp c m 0 (z.readLocal f (sdSrc d) (sdLen d)) true false
    Gives (.sendReply f t rd rs ra w) s ((y.sendStatus c m (sdStatus d) (sdLen d)).unitDone f t op ruOk 0 0)) ∧
  (∀ s s' f t rd rs ra w v d u op j, IssuesUnit s s' f t rd rs ra 0 2 w v →
    Accepts s' f t rd rs 0 2 w writesNone (sendDescOk 2) v d u op → v.fromNet = false → v.slot = some j →
    Sound u f v (sdSrc d) (sdLen d) →
    Gives (.sendMcast f t rd rs ra w) s
      (((u.agentMoves (sdSrc d) (sdLen d)).mcastSend j (u.ferryEp f) (sdDest d) (.hmsg true (sdHandler d) (sdFerry d) (sdLen d) (sdRlen d))
        (u.readLocal f (sdSrc d) (sdLen d))).unitDone f t op ruOk 0 0))

/-- POST, PROBE, CLAIM and DELIVER: an accepted operation posts a receive at the catcher of its space, writes the record of the message it
finds (and claims it), or delivers the claimed message to a receive (R234, R235). -/
def Obligations.matchOperationsComplete : Prop :=
  (∀ s s' f t rd rs ra w v d u op j k x r, IssuesUnit s s' f t rd rs ra 1 0 w v → Accepts s' f t rd rs 1 0 w writesMem matchDescOk v d u op →
    v.fromNet = false → v.slot = some j → s'.postWaits v d = false → u.epOfJob j (mdEp d) = true →
    u.catcherOf ⟨j, mdEp d, mdComm d⟩ = some k → u.matchRecv f t v op ⟨j, mdEp d, mdComm d⟩ d = (x, .inr r) →
    Gives (.matchPost f t rd rs ra w) s ((x.postRecv k r).settleAll)) ∧
  (∀ s s' f t rd rs ra w v d u op j, IssuesUnit s s' f t rd rs ra 1 1 w v → Accepts s' f t rd rs 1 1 w writesNone matchDescOk v d u op →
    v.slot = some j → u.epOfJob j (mdEp d) = true → u.rangeOk f v (mdRecord d) 32 = true →
    Gives (.matchProbe f t rd rs ra w) s
      ((u.writeLocal f (mdRecord d)
        (match u.findMsg ⟨j, mdEp d, mdComm d⟩ (mdAnySrc d) (mdAnyTag d) (mdRank d) (mdTag d) with
         | none => probeRecord none 0
         | some id => probeRecord (u.msgs.look id) 0)).unitDone f t op ruOk 0 0)) ∧
  (∀ s s' f t rd rs ra w v d u op j id, IssuesUnit s s' f t rd rs ra 1 2 w v → Accepts s' f t rd rs 1 2 w writesNone matchDescOk v d u op →
    v.slot = some j → u.epOfJob j (mdEp d) = true → u.rangeOk f v (mdRecord d) 32 = true →
    u.findMsg ⟨j, mdEp d, mdComm d⟩ (mdAnySrc d) (mdAnyTag d) (mdRank d) (mdTag d) = some id →
    Gives (.matchClaim f t rd rs ra w) s
      (((u.updMsg id fun m => { m with claimed := true }).writeLocal f (mdRecord d)
        (probeRecord (u.msgs.look id) (id % 2 ^ 32))).unitDone f t op ruOk 0 0)) ∧
  (∀ s s' f t rd rs ra w v d u op j m x r, IssuesUnit s s' f t rd rs ra 1 3 w v → Accepts s' f t rd rs 1 3 w writesMem matchDescOk v d u op →
    v.fromNet = false → v.slot = some j →
    (u.msgs.cells.find? fun m => decide (m.1 % 2 ^ 32 = mdClaim d) && m.2.claimed && m.2.recv.isNone && decide (m.2.space.slot = j))
      = some m →
    u.matchRecv f t v op m.2.space d = (x, .inr r) →
    Gives (.matchDeliver f t rd rs ra w) s
      ((State.pairUp { x.idNext with recvs := x.recvs.put x.nextId r } x.nextId m.1).settleAll))

/-- COPY, FILL and ENQUEUE: an accepted COPY moves its bytes, or reads them where its source is in host or package memory; an accepted FILL
writes its pattern; an accepted ENQUEUE writes its slots into the ring and rings the doorbell (R375, R379). -/
def Obligations.moveOperationsComplete : Prop :=
  (∀ s s' f t rd rs ra w v d u op x dsts, IssuesUnit s s' f t rd rs ra 2 1 w v → Accepts s' f t rd rs 2 1 w moveWrites moveDescOk v d u op →
    u.moveSide f v (vdTo d) (if vdAsid d = 0 then v.asid else vdAsid d) (vdDst d) (vdLen d) true = (x, .inr dsts) →
    Gives (.moveFill f t rd rs ra w) s
      ((x.updOp f t op fun o => { o with dst := vdDst d, segs := dsts }).moveWrite f t op (fillBytes (vdPattern d) (vdLen d)))) ∧
  (∀ s s' f t rd rs ra w v d u op x dsts y src, IssuesUnit s s' f t rd rs ra 2 0 w v → Accepts s' f t rd rs 2 0 w moveWrites moveDescOk v d u op →
    let asid := if vdAsid d = 0 then v.asid else vdAsid d
    u.moveSide f v (vdTo d) asid (vdDst d) (vdLen d) true = (x, .inr dsts) →
    (x.updOp f t op fun o => { o with dst := vdDst d, segs := dsts }).moveSide f v (vdFrom d) asid (vdSrc d) (vdLen d) false
      = (y, .inr src) →
    (src.isEmpty = true → y.poisoned (vdSrc d) (vdLen d) = false) →
    Gives (.moveCopy f t rd rs ra w) s
      (if src.isEmpty then (y.agentMoves (vdSrc d) (vdLen d)).moveWrite f t op (y.readLocal f (vdSrc d) (vdLen d)) else y.startXfer (.move f t op) false src [])) ∧
  (∀ s s' f t rd rs ra w v d u op, IssuesUnit s s' f t rd rs ra 7 1 w v → Accepts s' f t rd rs 7 1 w writesMem enqDescOk v d u op →
    let q := edQueue d
    let n := edCount d
    let pi := u.rd .QU_PI_PI q
    s'.writesOut f t = false → u.invQueue v q = true → u.flag .QU_CFG_LOC q = true → u.rangeOk f v (edSrc d) (32 * n) = true →
    dist32 (u.rd .QU_HEAD_HEAD q) (idxAdd pi n) ≤ u.ringSize q →
    Gives (.enqueue f t rd rs ra w) s
      ((((u.agentMoves (edSrc d) (32 * n)).writeSlots q pi n (u.readLocal f (edSrc d) (32 * n))).takeDoorbell q (idxAdd pi n)).unitDone f t op ruOk 0 pi))

/-! ## Queues and ferries -/

namespace Sys2Proof.Claims

open Sys2Proof.Machine

/-- The state in which a timed event happens: its timer has run to machine time `d`. -/
def at_ (s : State) (k : TimerKey) (d : Nat) : State := (s.setNow d).disarm k

/-- The entry at the cursor of queue `q`, `n` slots that decode to `c` and whose second slot (if any) is `more`, may start. -/
structure Ready (s : State) (q n : Nat) (more : List Byte) (c : Cmd) : Prop where
  up : s.phase = .running
  live : s.fatal = false
  running : s.qState q = qRunning
  served : s.served q = true
  here : (s.q q).passOne = none
  ahead : s.slotsAhead q ≠ 0
  before : idxLe (s.q q).cursor (s.rd .QU_PI_PI q) = true
  may : s.canStart q n = true
  free : (s.q q).fencedAll = false
  entry : ∃ bs, (s.q q).fetched.look (s.q q).cursor = some bs ∧ opcodeSlots (leAt bs 0 1) (leAt bs 1 1) = some n
    ∧ s.opcodeCause q (leAt bs 0 1) = 0
    ∧ (if n = 1 then some [] else (s.q q).fetched.look (idxAdd (s.q q).cursor 1)) = some more ∧ decodeEntry (bs ++ more) = some c

/-- An entry point reaches a queue that exists. -/
def Reaches (s : State) (q : Nat) (f : Option Func) : Prop := s.phase = .running ∧ q < 65536 ∧ s.reachesQueue q f = true

/-- The control queue's ring may be changed: it is HALTED and drained (R523). -/
def Idle0 (s : State) : Prop := s.qState 0 = qHalted ∧ s.flag .QU_STATE_DRAINED 0 = true

end Sys2Proof.Claims

/-- A queue's turn and a held command start the entry at the cursor; a ring read is asked for, and its bytes are kept; a doorbell of the
bound function is taken; a CANCEL reaches its entry (R79 to R86, R103, R140). -/
def Obligations.queueTurnsComplete : Prop :=
  (∀ s q n more c x draw, Ready s q n more c → s.turnOf q = true →
    Gives (.queueStartTurn q x draw) s (s.startEntry q n c { x with trailer := more } draw)) ∧
  (∀ s q n more c x draw, Ready s q n more c → (s.q q).held.isSome = true →
    Gives (.heldCommandResume q x draw) s (s.startEntry q n c { x with trailer := more } draw)) ∧
  (∀ s q n, s.phase = .running → s.fatal = false → s.qState q = qRunning → s.fetchOk q (s.fetchFrom q) n = true →
    Gives (.ringFetch q n) s
      (((s.wr .QU_CI_CI q (idxAdd (s.fetchFrom q) n)).askSegs false
          [(s.ringLoc q (s.fetchFrom q), 32 * n)]).updQ q
        fun x => { x with reads := x.reads ++ [(s.fetchFrom q, n)] })) ∧
  (∀ s q seen i n rest, s.phase = .running → s.fatal = false → (s.q q).reads = (i, n) :: rest →
    let u := (s.updQ q fun x => { x with reads := rest }).see seen
    u.segAccess [(u.ringLoc q i, 32 * n)] = .ok →
    Gives (.ringReadComplete q true seen) s
      (u.updQ q fun x => { x with fetched := putEntries x.fetched i n (u.readLoc (u.ringLoc q i) (32 * n)) })) ∧
  (∀ s f q size v, s.phase = .running → s.fatal = false → (size = 4 ∨ size = 8) → q < 65536 → s.boundTo q f = true →
    Gives (.doorbell f q 0 size v) s (s.takeDoorbell q (v % 2 ^ 32))) ∧
  (∀ s q i r u o, s.phase = .running → s.fatal = false →
    ((s.q q).cancels.find? fun r => decide (r.index = i) && r.outcome.isNone) = some r →
    s.cancelEach q ((s.q q).started.filter fun e => decide (e.index = r.named)) = (u, o) →
    Gives (.cancelDecision q i) s
      (ongoing (u.updQ q fun x => { x with
        cancels := x.cancels.map fun r => if r.index = i ∧ r.outcome.isNone then { r with outcome := some o } else r }) q))

/-- COAL_TIME publishes; a failed write of the head word is recorded; a waiting queue whose condition holds completes its wait, one whose
timeout passes stops, or completes and increments TOTALLY (R89, R94, R127). -/
def Obligations.queueEventsComplete : Prop :=
  (∀ s q d, s.timers.look (.coal q) = some d → Gives (.coalTimeExpiry q) s ((at_ s (.coal q) d).publish q false)) ∧
  (∀ s q, s.phase = .running → s.flag .QU_HEADADDR_EN q = true →
    Gives (.headWordWriteFailure q) s (s.logRec 1 0x01 .headWrite q [q])) ∧
  (∀ s q w, s.phase = .running → s.fatal = false → (s.q q).wait = some w → s.qState q = qWait → s.waitMet w.cmd = true →
    Gives (.waitConditionMet q) s (s.endWait q w none)) ∧
  (∀ s q w d, s.timers.look (.wait q) = some d → let u := at_ s (.wait q) d
    (u.q q).wait = some w → u.qState q = qWait → u.fatal = false → u.waitMet w.cmd = false →
    Gives (.waitTimeoutExpiry q) s
      (if w.cmd.toStop then u.failQueue q ⟨w.index, w.iter, 1, true, none⟩ cWaitTimeout else u.endWait q w (some w.cmd.totally)))

/-- RUN, HALT, RESUME, RESUME_SKIP and a held resume act on a queue in the state they are for (R92, R93, R98, R100). -/
def Obligations.queueControlsComplete : Prop :=
  (∀ s q f, Reaches s q f → s.fatal = false → s.qState q = qHalted → (s.rd .QU_STATE_HALT_REASON q = 1 ∨ s.rd .QU_STATE_HALT_REASON q = 2) →
    s.rd .QU_STATE_CAUSE q = 0 →
    Gives (.cmdRun q f) s
      (((s.wr .QU_STATE_HALT_REASON q 0).wr .QU_STATE_STATE q qRunning).wr .QU_STATE_DRAINED q 0)) ∧
  (∀ s q f, Reaches s q f → (s.qState q = qRunning ∨ s.qState q = qWait) →
    Gives (.cmdHalt q f) s (((s.stopRunning q qHalted).wr .QU_STATE_HALT_REASON q 1).checkDrained q)) ∧
  (∀ s q f, Reaches s q f → s.fatal = false → s.qState q = qError →
    Gives (.cmdResume q f) s
      (if s.flag .QU_STATE_DRAINED q then s.resumeQueue q false else s.updQ q fun x => { x with resume := some false })) ∧
  (∀ s q f, Reaches s q f → s.fatal = false → s.qState q = qError →
    Gives (.cmdResumeSkip q f) s
      (if s.flag .QU_STATE_DRAINED q then s.resumeQueue q true else s.updQ q fun x => { x with resume := some true })) ∧
  (∀ s q skip, s.phase = .running → s.fatal = false → (s.q q).resume = some skip → s.qState q = qError →
    s.flag .QU_STATE_DRAINED q = true → Gives (.heldResumeApply q) s (s.resumeQueue q skip))

/-- The queue registers and the tally array take what is written and answer what is read (R9, R105, R108, R431, R523). -/
def Obligations.queueRegistersComplete : Prop :=
  (∀ s q f v, Reaches s q f → Gives (.quNotifyWrite q f v) s (s.writeNotify q v)) ∧
  (∀ s f v, Reaches s 0 f → Idle0 s → ringRangeOk (decide (Fld.of .QU_HEADADDR_LOC v = 1)) (Fld.of .QU_HEADADDR_ADDR v * 8) 8 = true →
    Gives (.queue0ConfigWrite true false f v) s (s.setFields 0 v [.QU_HEADADDR_ADDR, .QU_HEADADDR_LOC, .QU_HEADADDR_EN])) ∧
  (∀ s f v, Reaches s 0 f → Idle0 s → 6 ≤ Fld.of .QU_CFG_SIZE_LOG2 v → Fld.of .QU_CFG_SIZE_LOG2 v ≤ 16 →
    ringRangeOk (decide (Fld.of .QU_CFG_LOC v = 1)) (s.rd .QU_BASE_BASE 0 * 4096) (32 * 2 ^ Fld.of .QU_CFG_SIZE_LOG2 v) = true →
    Gives (.queue0ConfigWrite false true f v) s (s.setFields 0 v [.QU_CFG_SIZE_LOG2, .QU_CFG_LOC])) ∧
  (∀ s f v, Reaches s 0 f → Idle0 s → 6 ≤ s.rd .QU_CFG_SIZE_LOG2 0 → s.rd .QU_CFG_SIZE_LOG2 0 ≤ 16 →
    ringRangeOk (decide (s.rd .QU_CFG_LOC 0 = 1)) (Fld.of .QU_BASE_BASE v * 4096) (32 * 2 ^ s.rd .QU_CFG_SIZE_LOG2 0) = true →
    Gives (.queue0ConfigWrite false false f v) s
      (((s.setFields 0 v [.QU_BASE_BASE]).wrAll 0 [(.QU_PI_PI, 0), (.QU_CI_CI, 0), (.QU_CI_LAST_STARTED, 0), (.QU_HEAD_HEAD, 0),
        (.QU_STATE_ERR_INDEX, 0), (.QU_STATE_CAUSE, 0), (.QU_STATE_ERR_MULTI, 0)]).updQ 0 fun x => { noJob := x.noJob, ep := x.ep })) ∧
  (∀ s q f, Reaches s q f → Gives (.quPiRead q f) s (s.readFor f .QU_PI q)) ∧
  (∀ s q f k r, Reaches s q (some f) → queueRegs[k]? = some r → Gives (.queueApertureAccess f q k none) s (s.readFor (some f) r q)) ∧
  (∀ s q f k v, Reaches s q (some f) → Gives (.queueApertureAccess f q k (some v)) s (s.writeQueueReg q k (some f) v)) ∧
  (∀ s n v, s.phase = .running → n < 262144 →
    Gives (.tallyArrayWrite n v) s { s with tallies := s.tallies.put n (v % 2 ^ 64) })

/-- Ferries: the oldest waiting event of the highest priority goes to an IDLE thread; a budget that expires faults its invocation; a
thread whose tally has been reached wakes; a timer that fires, and a timeout, post their event; FX_CFG and FX_FAULT answer
(R364, R375, R381 to R384, R391). -/
def Obligations.ferryEventsComplete : Prop :=
  (∀ s f e t h, s.phase = .running → s.fatal = false → s.ferryOn f = true → s.fxState f = fxRunning → s.nextEvent f = some e →
    s.threadFor f e = some t → (s.ferry f).entries.look e.entry = some h →
    Gives (.handlerDispatch f) s ((s.dispatchEvent f t e h).settleAll)) ∧
  (∀ s f t d, s.timers.look (.budget f t) = some d →
    Gives (.budgetExpiry f t) s (((at_ s (.budget f t) d).threadFault f t tfBudget).settleAll)) ∧
  (∀ s f t op res v rd n x, s.phase = .running → (s.thread f t).inv = some v → v.sleep = some (.tally rd n x) →
    reached (s.tally n) x = true →
    Gives (.unitOpComplete f t op res) s (s.updThread f t fun y => { y with inv := some { v.setReg rd ruOk with sleep := none } })) ∧
  (∀ s f t k d tag, s.timers.look (.ferryTimer f t k) = some d → let u := at_ s (.ferryTimer f t k) d
    (u.thread f t).timers.look k = some tag →
    Gives (.timerFire f t k) s
      ((u.updThread f t fun x => { x with timers := x.timers.del k }).postEvent f t (2, 0, tag))) ∧
  (∀ s f t d, s.timers.look (.eventWait f t) = some d →
    Gives (.eventWaitTimeout f t) s ((at_ s (.eventWait f t) d).postEvent f t (15, 0, 0))) ∧
  (∀ s f v, s.phase = .running → s.ferryOn f = true → v % 65536 ≠ 0 →
    Gives (.fxCfgWrite f v) s (s.wr .FX_CFG_JOB_THREADS f (v % 65536))) ∧
  (∀ s f t, s.phase = .running → f < 64 → t < 16 → Gives (.fxFaultRead f t) s (s.readOut .FX_FAULT (16 * f + t)))

/-! ## Privileged commands -/

namespace Sys2Proof.Claims

open Sys2Proof.Machine

/-- A privileged command from an entry point starts, in the state `u`: on the control queue as the entry at its cursor, from Iamel as one of
at most 8, from the network where the agent has room; ARG and ARG2 are in range. The fatal state stops the queues and the network (R14, R112, R113,
R288, R450, R473). -/
structure Runs (s : State) (src : CmdSrc) (op : PrivOp) (p : Priv) (x : PrivData) (u : State) : Prop where
  up : s.phase = .running
  live : s.fatal = false ∨ ∃ r, src = .iamel r
  room : s.mgRoom = true ∨ ∀ ses ctr node, src ≠ .mg ses ctr node
  start : (s.see x.seen).startPriv src op p = some u
  args : privArgsOk op p = true

/-- The state in which a privileged command has completed successfully. -/
def succeeded (t : State) (src : CmdSrc) (p : Priv) : State := t.endPriv (src, p.ltally) 0

/-- The token of JOB-OPEN or KEY-INSTALL, the offer `o`, passes, in the state `v` with its serial consumed, and slot `j` is free for the
job. -/
structure Opens (u : State) (kind : Nat) (p : Priv) (b : JobBlock) (o : Offer) (v : State) (j : Nat) : Prop where
  passes : ∃ w, u.checkToken o kind p.arg (u.memberHere b.members) (fun n => decide (u.openSerial < n)) = (w, 0)
    ∧ v = { w with openSerial := o.1.serial }
  parked : v.flag .PW_STATUS_PARKED = false
  allowed : v.openCause p.arg b = 0
  slot : v.freeSlot = some j

end Sys2Proof.Claims

/-- JOB-OPEN at the leader installs generation 0 and completes; at another member it takes the slot and asks for the key. KEY-INSTALL installs
the generation of a sealed blob that opens here. JOB-CLOSE halts the job's queues and begins to close (R56, R67, R525). -/
def Obligations.jobCommandsComplete : Prop :=
  (∀ s src p x u b v j, Runs s src .jobOpen p x u → u.privPre src p x true true = 0 →
    decodeJobBlock (u.blockOf src p x) p.sealOut = some b → let o := u.offer src .jobOpen p x
    Opens u 0x01 p b o v j →
    Gives (.jobOpen src p x) s
      (let w := v.takeSlot j p.arg b o.1 p src
       if w.posIn b.members = 0 then w.freeNext.installKey j 0 w.now (w.freeVal 256)
       else (w.arm (.keyFail j) (o.1.notAfter + 1)).sendKeyReq j)) ∧
  (∀ s src p x u b v j key, Runs s src .keyInstall p x u → u.privPre src p x true true = 0 →
    let bs := u.blockOf src p x
    decodeJobBlock (bs.drop 144) p.sealOut = some b → leAt bs 0 1 = 1 → zeros bs 1 3 = true → zeros bs 24 8 = true →
    zeros bs 140 4 = true → let o := u.offer src .keyInstall p x
    Opens u 0x03 p b o v j → let blob := bs.take 144
    blobOpen v.blobKey blob = some key → v.blobOk blob p.arg = true →
    Gives (.keyInstall src p x) s
      ((((v.takeSlot j p.arg b o.1 p src).noteGen p.arg (leAt blob 7 1)).wr .GLB_JOB_SEALED j 1).installKey j (leAt blob 7 1)
        (leAt blob 16 8 - hours 25) key)) ∧
  (∀ s src p x u j v, Runs s src .jobClose p x u → u.privPre src p x true false false = 0 →
    u.slotOf p.arg = some j → u.jobToken (u.offer src .jobClose p x) 0x02 j = (v, 0) → v.jobState j ≠ jobClosing →
    Gives (.jobClose src p x) s
      (((forEach (fun s q => s.haltQueue q 5) (v.boundQueues (v.qOfJob j)) v).beginClose j (some (src, p.ltally))).closeProgress
        j).settleAll)

/-- WINDOW-OPEN opens the window, WINDOW-REVOKE starts its revocation, REGION-REGISTER holds the region's translation, REGION-DEREGISTER fences
it, TREE-BUILD builds the context, where their token and their own checks pass (R185, R197, R202, R241, R528). -/
def Obligations.memoryCommandsComplete : Prop :=
  (∀ s src p x u d v, Runs s src .windowOpen p x u → u.privPre src p x true = 0 → decodeDescr (u.blockOf src p x) = some d →
    p.arg2 < 256 → u.slotToken p.arg 0x04 (u.offer src .windowOpen p x) = (v, 0) → v.rd .GLB_JOB_MODE p.arg ≠ 1 →
    (v.windows.look (p.arg, p.arg2)).all (fun w => decide (w.state = .closed)) = true → (v.job p.arg).asids.contains d.asid = true →
    Gives (.windowOpen src p x) s
      (succeeded { v with windows := v.windows.put (p.arg, p.arg2) { state := .opened, d := descrOf d } } src p)) ∧
  (∀ s src p x u v, Runs s src .windowRevoke p x u → u.privPre src p x true false false = 0 → p.arg2 < 256 →
    let o := u.offer src .windowRevoke p x
    u.slotToken p.arg 0x04 o = (v, 0) →
    (v.windows.look (p.arg, p.arg2)).any (fun w => decide (w.state = .opened)) = true →
    Gives (.windowRevoke src p x) s (v.revokeStart p.arg p.arg2 o.1.serial (src, p.ltally))) ∧
  (∀ s src p x u b v w ls, Runs s src .regionRegister p x u → u.privPre src p x true = 0 → decodeDescr (u.blockOf src p x) = some b →
    u.slotToken p.arg 0x05 (u.offer src .regionRegister p x) = (v, 0) → v.rd .GLB_JOB_MODE p.arg ≠ 0 → p.arg2 ≠ 0 →
    (v.job p.arg).asids.contains (descrOf b).asid = true → v.regions.look p.arg2 = none → v.armed (.quarantine p.arg2) = false →
    v.regions.size < 1048576 → v.holdRegion (descrOf b) = (w, .inr ls) → ls.length ≤ w.leavesFree →
    Gives (.regionRegister src p x) s
      (succeeded (State.evictRegion { w.freeNext with regions := w.regions.put p.arg2 {
        slot := p.arg, job := w.rd .GLB_JOB_JOB_ID p.arg, d := descrOf b, leaves := ls, cached := decide (w.freeVal 1 = 1) } } p.arg2)
        src p)) ∧
  (∀ s src p x u v r, Runs s src .regionDeregister p x u → u.privPre src p x true false false = 0 →
    u.slotToken p.arg 0x05 (u.offer src .regionDeregister p x) = (v, 0) → p.arg2 ≠ 0 → v.regions.look p.arg2 = some r →
    r.live = true → r.slot = p.arg →
    Gives (.regionDeregister src p x) s
      { v with regions := v.regions.put p.arg2 { r with live := false, src := some (src, p.ltally) } }) ∧
  (∀ s src p x u v b, Runs s src .treeBuild p x u → u.privPre src p x true = 0 →
    u.slotToken p.arg 0x06 (u.offer src .treeBuild p x) = (v, 0) → decodeTree (v.blockOf src p x) = some b →
    v.treeCause p.arg p.arg2 b = 0 →
    Gives (.treeBuild src p x) s (succeeded (v.treeBuilt p.arg p.arg2 b) src p))

/-- ROUTE-WRITE puts its entries in the inactive bank, and ROUTE-COMMIT makes the other bank active, where the credential and the checks pass and
no other route command waits; one that finds others waiting waits behind them (R297 to R299). -/
def Obligations.routeCommandsComplete : Prop :=
  (∀ s src p x u v vs, Runs s src .routeWrite p x u → u.privPre src p x false = 0 → u.checkTrailer src .routeWrite p x = (v, 0) →
    decodeTable p.arg (v.blockOf src p x) = some vs → p.arg2 + vs.length ≤ tableCount p.arg → v.routeWait = [] →
    Gives (.routeWrite src p x) s (succeeded (v.putEntries (1 - v.activeBank) p.arg p.arg2 vs) src p)) ∧
  (∀ s src p x u v, Runs s src .routeCommit p x u → u.privPre src p x false false false = 0 →
    u.checkTrailer src .routeCommit p x = (v, 0) → v.routeWait = [] → v.routeHeld (.commit p.arg) = false →
    p.arg % 2 ≠ v.activeBank → v.bankCause (p.arg % 2) = 0 →
    let old := v.activeBank
    let a := ((v.wr .XB_STATUS_ACTIVE 0 (p.arg % 2)).incWrap .XB_STATUS_COMMITS 0 1).applyBank old (p.arg % 2)
    let b := if bitOf p.arg 1 then a.copyBank (p.arg % 2) old else a
    Gives (.routeCommit src p x) s
      (succeeded (b.extendMeas 6 (digestOf (b.bankBytes (p.arg % 2)))) src p)) ∧
  (∀ s src p x u v vs, Runs s src .routeWrite p x u → u.privPre src p x false = 0 → u.checkTrailer src .routeWrite p x = (v, 0) →
    decodeTable p.arg (v.blockOf src p x) = some vs → p.arg2 + vs.length ≤ tableCount p.arg → v.routeWait ≠ [] →
    Gives (.routeWrite src p x) s
      { v with routeWait := v.routeWait ++ [((src, p.ltally), .write p.arg p.arg2 vs)] })

/-- LOAD-PROGRAM (of a job, and of the system), FERRY-DRAIN, FERRY-RESUME, QUEUE-BIND, INVALIDATE and SNAPSHOT have their effect where their
checks pass (R102, R385 to R389, R420, R483). -/
def Obligations.unitCommandsComplete : Prop :=
  (∀ s src p x u b v, Runs s src .loadProgram p x u → leAt (u.blockOf src p x) 0 1 = 1 → u.privPre src p x true = 0 →
    u.ferryOn p.arg = true → let o := u.offer src .loadProgram p x
    u.imageToken o = (v, 0) → decodeImage (u.blockOf src p x) = some b → b.job = true →
    v.ferryStill p.arg = true → v.jobImageCause p.arg b o.1 = 0 →
    Gives (.loadProgram src p x) s (succeeded (v.loadImage p.arg b) src p)) ∧
  (∀ s src p x u b, Runs s src .loadProgram p x u → let bs := u.blockOf src p x
    leAt bs 0 1 ≠ 1 → u.privPre src p x false = 0 →
    u.ferryOn p.arg = true → decodeImage bs = some b → b.job = false → u.ferryStill p.arg = true →
    u.productSigned (bs.take (bs.length - 96)) ((bs.drop (bs.length - 96)).take 48) (bs.drop (bs.length - 48)) = true →
    u.rd .GLB_ROLLBACK_FLOOR 5 ≤ b.secver →
    Gives (.loadProgram src p x) s (succeeded ((u.loadImage p.arg b).extendMeas 5 (digestOf bs)) src p)) ∧
  (∀ s src p x u, Runs s src .ferryDrain p x u → u.privPre src p x false false false = 0 → u.ferryOn p.arg = true →
    u.fxState p.arg = fxRunning →
    Gives (.ferryDrain src p x) s
      (((u.wr .FX_STATUS_STATE p.arg fxDraining).haltFerryQueues p.arg).updFerry p.arg fun f =>
        { f with drainSrc := some (src, p.ltally) })) ∧
  (∀ s src p x u, Runs s src .ferryResume p x u → u.privPre src p x false false false = 0 → u.ferryOn p.arg = true →
    u.ferryStill p.arg = true → Gives (.ferryResume src p x) s (succeeded (u.runFerry p.arg) src p)) ∧
  (∀ s src p x u b v, Runs s src .queueBind p x u → u.privPre src p x (!bitOf (leAt (u.blockOf src p x) 30 1) 0) = 0 →
    decodeBind (u.blockOf src p x) = some b → p.arg ≠ 0 → p.arg < 65536 → u.ferryOn b.ferry = true → b.ep ≠ 0xFFF →
    (b.noJob = true ∨ (u.jobState b.slot = jobOpened ∧ (u.job b.slot).asids.contains b.asid = true)) →
    (if b.noJob then (u, 0) else u.jobToken (u.offer src .queueBind p x) 0x07 b.slot) = (v, 0) → bindAddrs b = 0 →
    v.bindFuncOk b.func p.arg b.noJob b.slot = true →
    (v.qState p.arg = qDisabled ∨ (v.qState p.arg = qHalted ∧ v.flag .QU_STATE_DRAINED p.arg = true)) →
    Gives (.queueBind src p x) s (succeeded (v.bindQueue p.arg b) src p)) ∧
  (∀ s src p x u base n v wait, Runs s src .invalidate p x u → u.privPre src p x false = 0 →
    decodeInval (u.blockOf src p x) = some (base, n) → (bitOf p.arg 16 = true ∨ (u.asidSlot (p.arg % 65536)).isSome = true) →
    u.flushTx (if bitOf p.arg 16 then none else u.asidSlot (p.arg % 65536)) p.arg2 base (if n = 0 then 2 ^ 48 else base + n)
      = (v, wait) →
    let i : Inval := ⟨(src, p.ltally), wait, v.unflushed wait⟩
    Gives (.invalidate src p x) s
      (if v.invalWaits i then { v with invals := v.invals ++ [i] }
       else { (v.invalFlush i).1 with invals := (v.invalFlush i).1.invals ++ [(v.invalFlush i).2] })) ∧
  (∀ s src p x u t d k, Runs s src .snapshot p x u → u.privPre src p x false = 0 →
    decodeSnap (u.blockOf src p x) = some (t, d) → u.now + us 2 ≤ t →
    (bitOf d 0 = true → 0x13_8000_0000 < d / 64 * 64 + 14112 → 0x13_FFFF_FFFF < d / 64 * 64) →
    ((List.range 4).find? fun k => (u.snaps.look k).isNone) = some k →
    Gives (.snapshot src p x) s
      ({ u with snaps := u.snaps.put k { src := (src, p.ltally), t := t, dest := d } }.arm (.snapshot k) t))

/-! ## Jobs, keys and trust -/

/-- KEY-REQ is answered NOT-YET while the key is not there, and KEY-RESP to a member that this device serves; a key is installed in a KEYING
slot, and the next generation held in an OPEN one; NOT-YET, silence and the deadline act on the waiting slot (R56, R57). -/
def Obligations.keyExchangeCompletes : Prop :=
  (∀ s job node serial m, s.phase = .running → s.mgRoom = true → (∀ j, s.slotOf job = some j → s.jobState j = jobKeying) →
    Gives (.keyReqReceive job node serial m) s (s.sendMg node 0x44 (.notYet job))) ∧
  (∀ s job node serial j p m k, s.phase = .running → s.mgRoom = true → s.slotOf job = some j → s.jobState j = jobOpened →
    ((s.job j).members.findIdx? fun m => decide (m = (node, serial))) = some p → (s.job j).serves p = true →
    (s.count uSecurity 4 0 3).keyMsgOk (s.job j) m serial = true → (s.job j).keys.look ((s.job j).answerGen m) = some k →
    Gives (.keyReqReceive job node serial m) s
      ((s.count uSecurity 4 0 3).answerKey j node ((s.job j).answerGen m) k m)) ∧
  (∀ s job gen j m kek k, s.phase = .running → s.mgRoom = true → s.slotOf job = some j → s.jobState j = jobKeying →
    s.keyMsgOk (s.job j) m ((((s.job j).members[(s.job j).reqTo]?).getD (0, 0)).2) = true → wrapKey (s.job j).eph m.eph = some kek →
    unwrapJobKey kek m.wrapped = some k →
    Gives (.keyRespReceive job gen m) s (((s.count uSecurity 4 0 3).noteGen job gen).installKey j gen m.start k)) ∧
  (∀ s job gen j m kek k, s.phase = .running → s.mgRoom = true → s.slotOf job = some j → s.jobState j = jobOpened →
    s.keyMsgOk (s.job j) m ((((s.job j).members[(s.job j).above (s.job j).pos]?).getD (0, 0)).2) = true →
    m.wrapped.isEmpty = false → (s.job j).gen < gen → (s.job j).held.contains gen = false → wrapKey (s.job j).eph m.eph = some kek →
    unwrapJobKey kek m.wrapped = some k →
    Gives (.keyRespReceive job gen m) s ((s.count uSecurity 4 0 3).holdNext j gen k)) ∧
  (∀ s job gen j m, s.phase = .running → s.mgRoom = true → s.slotOf job = some j → s.jobState j = jobOpened →
    s.keyMsgOk (s.job j) m ((((s.job j).members[(s.job j).above (s.job j).pos]?).getD (0, 0)).2) = true → m.wrapped.isEmpty = true →
    (s.job j).gen < gen → (s.job j).held.contains gen = false →
    Gives (.keyRespReceive job gen m) s ((s.count uSecurity 4).askKey j ((s.job j).above (s.job j).pos) (some gen))) ∧
  (∀ s job j, s.phase = .running → s.mgRoom = true → s.slotOf job = some j → s.jobState j = jobKeying →
    s.armed (.keyReqUnanswered j) = true →
    Gives (.notYetReceive job) s
      (((s.disarm (.keyReqUnanswered j)).updJob j fun b => { b with reqFails := 0 }).armIn (.keyReqRetry j) (us 100))) ∧
  (∀ s j d, s.timers.look (.keyReqRetry j) = some d → Gives (.keyReqRetry j) s ((at_ s (.keyReqRetry j) d).sendKeyReq j)) ∧
  (∀ s j d, s.timers.look (.keyReqUnanswered j) = some d →
    Gives (.keyReqUnanswered j) s ((at_ s (.keyReqUnanswered j) d).keyUnanswered j)) ∧
  (∀ s j d r, s.timers.look (.keyFail j) = some d → let u := at_ s (.keyFail j) d
    (u.job j).openSrc = some r →
    Gives (.keyFailDeadline j) s
      (((u.logRec 1 0x0B .keyExchange j [u.rd .GLB_JOB_JOB_ID j]).freeJob j).endPriv r cKeyFail))

/-- Renewal: the leader starts it and repeats it, children confirm, SWITCH sets the time, the generation changes then, the old one is erased,
one that expires stops the job; another member can stand in as leader; JOB-CLOSE retires what is left at 2 ms; the key of the earlier
epoch goes (R61 to R65, R525). -/
def Obligations.renewalCompletes : Prop :=
  (∀ s j d, s.timers.look (.renewal j) = some d → let u := at_ s (.renewal j) d
    u.jobState j = jobOpened → (u.job j).pos = (u.job j).leaderPos → (u.job j).renewing = false →
    Gives (.renewalStart j) s
      ((u.freeNext.armIn (.renewalRepeat j) (sec 1)).holdNext j ((u.job j).gen + 1) (u.freeVal 256))) ∧
  (∀ s j child, s.phase = .running → s.jobState j = jobOpened →
    Gives (.renewalConfirmReceive j child) s
      ((s.updJob j fun b => if b.confirmed.contains child then b else { b with confirmed := b.confirmed ++ [child] }).confirmGen j)) ∧
  (∀ s j t, s.phase = .running → s.jobState j = jobOpened → (s.job j).renewing = true →
    (s.job j).switchAt = none → Gives (.switchReceive j t) s (s.takeSwitch j t)) ∧
  (∀ s j d, s.timers.look (.genSwitch j) = some d → let u := at_ s (.genSwitch j) d
    u.jobState j = jobOpened → (u.job j).renewing = true →
    Gives (.generationSwitch j) s (u.switchGen j)) ∧
  (∀ s j d, s.timers.look (.oldGen j) = some d →
    Gives (.oldGenerationErase j) s
      (((at_ s (.oldGen j) d).updJob j fun b => { b with keys := b.keys.keep fun g _ => decide (b.gen ≤ g) }).setFlag
        .GLB_JOB_RENEWING j false)) ∧
  (∀ s j d, s.timers.look (.renewalRepeat j) = some d → let u := at_ s (.renewalRepeat j) d
    u.jobState j = jobOpened → (u.job j).switchAt = none → (u.job j).renewing = true →
    Gives (.renewalRepeat j) s
      ((u.distribute j ((u.job j).kids.filter fun k => !(u.job j).confirmed.contains k)).armIn (.renewalRepeat j) (sec 1))) ∧
  (∀ s j d, s.timers.look (.genExpiry j) = some d → let u := at_ s (.genExpiry j) d
    u.jobState j = jobOpened →
    Gives (.generationExpiry j) s
      (((u.logRec 1 0x0B .keyExpired j [u.rd .GLB_JOB_JOB_ID j]).stopJobQueues j cKeyExpired false).zeroiseStop j).settleAll) ∧
  (∀ s j k b, s.phase = .running → s.jobs.look j = some b → k < b.members.length →
    Gives (.keyLeaderTakeover j k) s (s.newLeader j k)) ∧
  (∀ s j d, s.timers.look (.closeManifest j) = some d → let u := at_ s (.closeManifest j) d
    Gives (.jobCloseManifestTimeout j) s
      ((forEach State.opRetire ((u.manifest.cells.filter fun m => decide (m.2.slot = j)).map (·.1)) u).closeProgress j).settleAll) ∧
  (∀ s c d, s.timers.look (.epochErase c) = some d →
    Gives (.epochKeyErase c) s ((at_ s (.epochErase c) d).eraseEpoch c))

/-- The debug challenge is read and used; SPDM requests are answered while Iamel runs; a session's grant expires; a drain and an
INVALIDATE end when what they wait for is over (R53, R71, R73, R387, R421). -/
def Obligations.trustEventsComplete : Prop :=
  (∀ s draw, s.phase = .running →
    Gives (.debugChallengeRead draw) s
      (({ s with challenge := some (draw % 2 ^ 384) }.emit (.value (draw % 2 ^ 384))).armIn .challenge (sec 60))) ∧
  (∀ s t d, s.phase = .running → s.timers.look .challenge = some d → s.now ≤ d → Gives (.debugUnlock t) s (s.unlock t)) ∧
  (∀ s via r, s.phase ≠ .auxHeld → s.rd .MG_STATUS_STATE ≠ 3 → (s.mgRoom = true ∨ ∀ n, via ≠ .mg n) →
    Gives (.spdmMessage via r) s (s.spdmIn via r)) ∧
  (∀ s k d, s.timers.look (.fmSession k) = some d → Gives (.fmSessionExpiry k) s ((at_ s (.fmSession k) d).endSession k)) ∧
  (∀ s f r, s.phase = .running → s.drained f = true → (s.ferry f).drainSrc = some r →
    Gives (.ferryDrainComplete f) s
      (((s.wr .FX_STATUS_STATE f fxDrained).updFerry f fun x => { x with drainSrc := none }).endPriv r 0)) ∧
  (∀ s i, s.phase = .running → (s.invals.find? fun i => !s.invalWaits i) = some i →
    Gives .invalidateComplete s
      (if i.flush.isEmpty then ({ s with invals := s.invals.erase i }.count 232 7).endPriv i.src 0
       else { (s.invalFlush i).1 with
         invals := (s.invalFlush i).1.invals.map fun j => if j = i then (s.invalFlush i).2 else j }))

/-! ## Transport and remote memory -/

namespace Sys2Proof.Claims

open Sys2Proof.Machine

/-- A packet arrives and passes checks 1 to 6 of R154, which read it as `r`, in plaintext, and lead to the state `v` and to its context `c`, which
is `x`. -/
structure Arrives (s : State) (p r : Packet) (v : State) (c : Nat) (x : Ctx) : Prop where
  up : s.phase = .running
  live : s.fatal = false
  passes : ∃ u j, s.rxAuth p = (u, some (j, r)) ∧ u.rxCtx r j State.peerReopened = .go v c
  ctx : v.ctxs.look c = some x

/-- The context of an event is cached, or gone. -/
def Cached (s : State) (c : Nat) : Prop := ∀ x, s.ctxs.look c = some x → x.cached = true

/-- A revocation message that is new on its context's collective stream is acknowledged and acted on. -/
def revokeTaken (v : State) (c : Nat) (x : Ctx) (r : Packet) (kind w origin serial : Nat) : State :=
  ((((v.admitPkt c r).ackLast c 2 (x.rx 2).cum).revokeMsg c kind w origin serial).collPass c).settleAll

end Sys2Proof.Claims

/-- A packet that arrives at its destination, passes the checks of R154 and is new on its stream is admitted, acts or waits for its turn, and
is acknowledged: DATA, RESP-DATA, RESP-STATUS; a multicast packet becomes an event of its ferry; an ACK and a NACK-BUSY reach their
sender (R154, R157, R161 to R165). -/
def Obligations.packetArrivalsComplete : Prop :=
  (∀ s p r v c x blk bytes, Arrives s p r v c x → p.ptype = tyData → isMcast p.dest = false → r.body = .data blk bytes →
    (x.rx 0).psnCase r.psn = .new → v.regionAway x blk = false → v.busyRow x r blk bytes = none →
    let t := v.dataOpen c x r blk bytes
    Gives (.dataReceive p) s
      ((((t.dataPut c r x.slot blk bytes (t.opDead c r.mtag)).ackLast c 0 (x.rx 0).cum)).seqPass c).settleAll) ∧
  (∀ s p r u j h f n l bytes, s.phase = .running → s.fatal = false → isMcast p.dest = true →
    s.mcAuth p = (u, some (j, r)) → r.body = .data (.hmsg true h f n l) bytes → u.hmsgCause j h f n l = 0 → u.hmsgRoom f = true →
    Gives (.multicastDataReceive p) s (u.pushEvent f {
      kind := .mcast, entry := h, slot := j, asid := u.rd .FX_JOBSEG_ASID f,
      args := [(2, n), (3, p.src), (4, p.dest % 65536)], payload := bytes })) ∧
  (∀ s p r v c x a, Arrives s p r v c x → p.ptype = tyAck → r.body = .ack a →
    Gives (.ackReceive p) s (v.ackIn c r a).settleAll) ∧
  (∀ s p r v c x, Arrives s p r v c x → p.ptype = tyNackBusy → p.body = .none →
    ((x.tx p.stream).una.any fun u => decide (u.pkt.psn = p.psn)) = true →
    Gives (.nackBusyReceive p) s
      ((((v.updTx c p.stream fun t => { t with
          resend := t.resend.filter (fun q => decide (q.psn ≠ p.psn)),
          una := t.una.map fun u => if u.pkt.psn = p.psn then { u with notBefore := v.now + p.mtag, lost := false } else u }).arm
        (.nackRetry c p.stream p.psn) (v.now + p.mtag)).progress c).settleAll)) ∧
  (∀ s p r v c x bytes, Arrives s p r v c x → p.ptype = tyRespData → r.body = .resp bytes → (x.rx 1).psnCase r.psn = .new →
    v.storeFull (x.rx 1) r false false = false →
    let t := ((v.admitPkt c r).progress c).landIn c r bytes
    Gives (.respDataReceive p) s
      ((((if r.last then t.store c 1 (Packet.bare r) else t).ackLast c 1 (x.rx 1).cum).respPass c).settleAll)) ∧
  (∀ s p r v c x es, Arrives s p r v c x → p.ptype = tyRespStatus → r.body = .status es → (x.rx 1).psnCase r.psn = .new →
    v.storeFull (x.rx 1) r true false = false →
    Gives (.respStatusReceive p) s
      ((((((v.admitPkt c r).progress c).store c 1 r).ackLast c 1 (x.rx 1).cum).respPass c).settleAll))

/-- CLOSE-REQ is answered with CLOSE-ACK where the context is idle and its PSNs fit, else with CLOSE-REFUSE; CLOSE-ACK ends a close;
CLOSE-REFUSE takes it back; QUIET ends; revocation messages are acted on (R172 to R174, R198). -/
def Obligations.closesComplete : Prop :=
  (∀ s p r v c x q n, Arrives s p r v c x → p.ptype = tyCloseReq → r.body = .close q n →
    Gives (.closeReqReceive p) s
      (if v.ctxIdle c && x.closeFits q n then (v.sendCtl c tyCloseAck 0 x.closeBody).quietClose c
       else v.sendCtl c tyCloseRefuse 0 x.closeBody).settleAll) ∧
  (∀ s p r v c x q n, Arrives s p r v c x → p.ptype = tyCloseAck → r.body = .close q n → x.state = .closing →
    Gives (.closeAckReceive p) s (v.quietClose c).settleAll) ∧
  (∀ s p r v c x q n, Arrives s p r v c x → p.ptype = tyCloseRefuse → r.body = .close q n → x.state = .closing → x.jobClose = false →
    let t := v.now + ms (v.rd .TP_CTX_CFG_CLOSE_IDLE)
    Gives (.closeRefuseReceive p) s
      ((((((v.disarm (.rto c 0)).disarm (.rto c 2)).updCtx c fun x => { x with state := .opened, noIdle := t }).progress c).arm
        (.idleClose c) t).settleAll)) ∧
  (∀ s c d x, s.timers.look (.closeQuiet c) = some d → (at_ s (.closeQuiet c) d).ctxs.look c = some x → x.cached = true →
    x.state = .closing →
    Gives (.jobCloseQuietTimeout c) s ((at_ s (.closeQuiet c) d).quietClose c).settleAll) ∧
  (∀ s c d, s.timers.look (.quiet c) = some d → let u := at_ s (.quiet c) d
    Cached u c → Gives (.quietExpiry c) s (u.freeCtx c).settleAll) ∧
  (∀ s p r v c x w o n, Arrives s p r v c x → p.ptype = tyColl → r.body = .revoke 0xE1 w o n → (x.rx 2).psnCase r.psn = .new →
    Gives (.revokeReceive p) s (revokeTaken v c x r 0xE1 w o n)) ∧
  (∀ s p r v c x w o n, Arrives s p r v c x → p.ptype = tyColl → r.body = .revoke 0xE2 w o n → (x.rx 2).psnCase r.psn = .new →
    Gives (.confirmReceive p) s (revokeTaken v c x r 0xE2 w o n)) ∧
  (∀ s p r v c x w o n, Arrives s p r v c x → p.ptype = tyColl → r.body = .revoke 0xE3 w o n → (x.rx 2).psnCase r.psn = .new →
    Gives (.revokeDoneReceive p) s (revokeTaken v c x r 0xE3 w o n))

/-- A stream injects where it may; the timers of the transport do what they are for; a context and a region entry arrive; revocations repeat
and fail in time (R165, R169, R171 to R173, R177, R181, R199, R202, R204, R528). -/
def Obligations.transportEventsComplete : Prop :=
  (∀ s c st x p new, s.phase = .running → s.fatal = false → s.ctxs.look c = some x → x.state ≠ .quiet → x.cached = true →
    (s.job x.slot).held.contains (s.job x.slot).gen = true → (x.tx st).pick = some (p, new) → bucketCost p ≤ s.bucketNow (x.tx st) →
    Gives (.streamInject c st) s (s.inject c st)) ∧
  (∀ s c st n d, s.timers.look (.nackRetry c st n) = some d → let u := at_ s (.nackRetry c st n) d
    Cached u c → Gives (.nackRetryExpiry c st n) s (u.retransmitAll c st fun q => decide (q.pkt.psn = n))) ∧
  (∀ s c st d x, s.timers.look (.ackDelay c st) = some d → (at_ s (.ackDelay c st) d).ctxs.look c = some x → x.cached = true →
    x.state ≠ .quiet → Gives (.ackDelayExpiry c st) s ((at_ s (.ackDelay c st) d).sendAck c st)) ∧
  (∀ s c st d, s.timers.look (.rto c st) = some d → let u := at_ s (.rto c st) d
    Cached u c → Gives (.rtoExpiry c st) s (u.rtoOver c st)) ∧
  (∀ s c st d x, s.timers.look (.rto c st) = some d → let u := at_ s (.rto c st) d
    u.ctxs.look c = some x → x.cached = false → Gives (.rtoExpiry c st) s ((u.fetchCtx c).arm (.rto c st) u.now)) ∧
  (∀ s c d x, s.timers.look (.ctxFail c) = some d → let u := at_ s (.ctxFail c) d
    u.ctxs.look c = some x → x.cached = true → (u.owesWork c = true ∨ x.state = .closing) →
    Gives (.contextFail c) s (u.failCtxClose c).settleAll) ∧
  (∀ s c d, s.timers.look (.idleClose c) = some d → let u := at_ s (.idleClose c) d
    Cached u c → u.ctxIdle c = true → Gives (.idleCloseStart c) s (u.startClose c false)) ∧
  (∀ s c x, s.phase = .running → s.ctxs.look c = some x → x.fetching = true →
    let u := s.updCtx c fun x => { x with fetching := false, cached := true, used := s.now }
    Gives (.contextFetchComplete c true) s
      ((forEach (fun s st => if s.armed (.rto c st) then s else s.armRto c st) (ctxStreams x.coll) u).unmoor
        fun p => decide (p.job = x.job ∧ p.dest = x.loc ∧ p.src = x.rem)).settleAll) ∧
  (∀ s key r, s.phase = .running → s.regions.look key = some r → r.cached = false →
    Gives (.regionEntryFetchComplete key) s
      ((State.unmoor (State.evictRegion { s with regions := s.regions.put key { r with cached := true } } key) fun p =>
          decide (p.job = r.job) && namesKey key p).settleAll)) ∧
  (∀ s key, s.phase = .running → s.regions.look key = none →
    Gives (.regionEntryFetchComplete key) s (s.unmoor (namesKey key)).settleAll) ∧
  (∀ s j w o n d, s.timers.look (.revokeRepeat j w o n) = some d →
    Gives (.revokeRepeat j w o n) s ((at_ s (.revokeRepeat j w o n) d).revokeDue j w o n)) ∧
  (∀ s j w d, s.timers.look (.revokeFail j w) = some d →
    Gives (.revokeFailTime j w) s ((at_ s (.revokeFail j w) d).revokeExpire j w)) ∧
  (∀ s key r q, s.phase = .running → s.regions.look key = some r → r.live = false → s.regionBusy key = false → r.src = some q →
    Gives (.regionDeregisterComplete key) s ((s.endRegion key).endPriv q 0)) ∧
  (∀ s key d, s.timers.look (.quarantine key) = some d →
    Gives (.regionQuarantineEnd key) s (at_ s (.quarantine key) d))

/-- A mover's transfer, a flushing read, a host atomic and the copy of an unexpected message complete; the transport's and the quotas'
registers take what is written (R27, R183, R189, R193, R211, R224). -/
def Obligations.transfersComplete : Prop :=
  (∀ s id x seen, s.phase = .running → s.fatal = false → s.xfers.look id = some x →
    x.kind.isFlush = false → x.kind.isAtomic = false → x.kind.isCopy = false → x.kind.isMem = false →
    Gives (.moverTransferComplete id true seen) s (((s.see seen).xferDone id x).settleAll)) ∧
  (∀ s id x ok seen, s.phase = .running → s.fatal = false → s.xfers.look id = some x →
    x.kind.isFlush = false → x.kind.isAtomic = false → x.kind.isCopy = false → x.kind.isMem = true →
    Gives (.moverTransferComplete id ok seen) s (s.memAtomicEnd id x ok).settleAll) ∧
  (∀ s id x, s.phase = .running → s.fatal = false → s.xfers.look id = some x → x.kind.isFlush = true →
    Gives (.flushReadComplete id) s (((s.endXfer id).kindOver x true []).settleAll)) ∧
  (∀ s id x c m n e old, s.phase = .running → s.fatal = false → s.xfers.look id = some x → x.kind = .hostAtomic c m n e →
    Gives (.hostAtomicComplete id false old) s ((s.atomicOver id c m n e x.segs x.bytes false old).settleAll)) ∧
  (∀ s id x, s.phase = .running → s.fatal = false → s.xfers.look id = some x → x.kind.isCopy = true →
    Gives (.unexpectedCopyComplete id) s ((s.xferDone id x).settleAll)) ∧
  (∀ s reg v, s.phase = .running → Gives (.tpCfgWrite reg v) s ((s.writeTp reg v).grant)) ∧
  (∀ s j v, s.phase = .running → j < 256 → Gives (.mfQuotaWrite j v) s (s.writeMfQuota j v))


namespace Sys2Proof.Claims

/-- A COLL packet of a kind arrives, passes the checks of R154 and is new on its context's collective stream. -/
structure CollNew (s : State) (p r : Packet) (kind : Nat) (v : State) (c : Nat) (x : Ctx) (h : CollHdr) (d : CollData) : Prop where
  here : Arrives s p r v c x
  type : p.ptype = tyColl
  body : r.body = .coll h d
  kind : h.kind = kind
  fresh : (x.rx 2).psnCase r.psn = .new

/-- It is admitted, its data go into a landing slot, it is stored and acknowledged, and what is in sequence is taken by its collective context. -/
def collTaken (v : State) (c : Nat) (x : Ctx) (r : Packet) (h : CollHdr) (d : CollData) : State :=
  let y := (v.admitPkt c r).collStore x.slot (x.rem / 4096) r.psn h d
  (((y.1.store c 2 { r with body := .coll h y.2 }).ackLast c 2 (x.rx 2).cum).collPass c).settleAll

end Sys2Proof.Claims

/-- A new COLL packet of each kind is admitted, acknowledged and taken by its collective context in sequence (R244, R247, R257, R259,
R260, R263, R264). -/
def Obligations.collectivePacketsComplete : Prop :=
  (∀ s p r v c x h d, CollNew s p r ckJoin v c x h d → Gives (.joinReceive p) s (collTaken v c x r h d)) ∧
  (∀ s p r v c x h d, CollNew s p r ckPart v c x h d → Gives (.partReceive p) s (collTaken v c x r h d)) ∧
  (∀ s p r v c x h d, CollNew s p r ckEscape v c x h d → Gives (.escapeReceive p) s (collTaken v c x r h d)) ∧
  (∀ s p r v c x h d, CollNew s p r ckResult v c x h d → Gives (.resultReceive p) s (collTaken v c x r h d)) ∧
  (∀ s p r v c x h d, CollNew s p r ckDone v c x h d → Gives (.collDoneReceive p) s (collTaken v c x r h d)) ∧
  (∀ s p r v c x h d, CollNew s p r ckFail v c x h d → Gives (.collFailReceive p) s (collTaken v c x r h d)) ∧
  (∀ s p r v c x h d, CollNew s p r ckRejoin v c x h d → Gives (.rejoinReceive p) s (collTaken v c x r h d)) ∧
  (∀ s p r v c x h d, CollNew s p r ckRerun v c x h d → Gives (.rerunReceive p) s (collTaken v c x r h d)) ∧
  (∀ s p r v c x h d, CollNew s p r ckCredit v c x h d → Gives (.collCreditReceive p) s (collTaken v c x r h d))

/-- A collective times out and fails; REJOIN is repeated to the parent; freed landing slots are reported in a CREDIT; a spilled entry comes
back on chip or is lost; the registers of the huddles and the catchers take what is written (R237, R239, R259, R263, R264, R266). -/
def Obligations.collectiveEventsComplete : Prop :=
  (∀ s c i d, s.timers.look (.coll c i) = some d →
    Gives (.collTimeout c i) s ((at_ s (.coll c i) d).collFail c i cCollFailed none).settleAll) ∧
  (∀ s c d x p, s.timers.look (.rejoin c) = some d → let u := at_ s (.rejoin c) d
    u.colls.look c = some x → x.parent = some p →
    Gives (.rejoinRepeat c) s
      ((forEach (fun s v => (s.updInst c v.num fun v => { v with rejoinAt := s.now + us 100 }).collTell c p (collHdr c x v.num v.cmd ckRejoin))
        (x.insts.filter fun v => decide (v.rejoinAt ≠ 0 ∧ v.rejoinAt ≤ u.now)) u).armRejoin c)) ∧
  (∀ s c node x, s.phase = .running → s.fatal = false → s.colls.look c = some x → (x.freed.look node).getD 0 ≠ 0 →
    Gives (.collCreditReturn c node) s
      (s.collTell c node (collHdr c x (s.rd .HD_CTX_INST c) ⟨false, false, false, 0, 0, 0, 0, c, 0, 0, 0, 0⟩ ckCredit))) ∧
  (∀ s v, s.phase = .running → s.colls.size = 0 →
    Gives (.hdRegWrite v) s
      (if poolOk (Fld.of .HD_LANDPOOL_BASE v) (4224 * Fld.of .HD_LANDPOOL_SLOTS v) then
        s.setFields 0 v [.HD_LANDPOOL_BASE, .HD_LANDPOOL_SLOTS]
       else s.setFields 0 v [.HD_LANDPOOL_BASE])) ∧
  (∀ s c n, s.phase = .running → lowest (s.spilledRecvs c ++ s.spilledMsgs c) = some n →
    (s.onChip c < 65536 → Gives (.spillRefill c true) s
      (((s.updRecv n fun r => { r with chip := true }).updMsg n fun m => { m with chip := true }).count (catcherUnit c) 6)) ∧
    Gives (.spillRefill c false) s (s.loseEntry c n).settleAll) ∧
  (∀ s v, s.phase = .running →
    Gives (.catcherRegWrite 0 0 v) s (s.setBounded 0 v [(.CT_CFG_EAGER_KIB, 1, 64)]).settleAll) ∧
  (∀ s v, s.phase = .running → s.jobsActive = 0 →
    Gives (.catcherRegWrite 8 0 v) s
      (if poolOk (Fld.of .CT_UXPOOL_BASE v) (256 * Fld.of .CT_UXPOOL_UNITS v) then
        s.setFields 0 v [.CT_UXPOOL_BASE, .CT_UXPOOL_UNITS]
       else s.setFields 0 v [.CT_UXPOOL_BASE]).settleAll) ∧
  (∀ s j v, s.phase = .running → j < 256 →
    Gives (.catcherRegWrite 0x1000 j v) s
      ((s.setBounded j v [(.CT_QUOTA_ENTRIES, 0, 16777216)]).setFields j v [.CT_QUOTA_UXUNITS]).settleAll)

/-- A counter takes an accepted selection and starts at 0, keeps its count where the selection does not change, and takes a written COUNT;
a CLASS zeroes its port's bins; a sample counts in the bin of the depth; snapshots are captured and their records completed (R476, R480,
R482, R484 to R486). -/
def Obligations.counterRowsComplete : Prop :=
  (∀ s u k w, s.phase = .running → u < 295 → k < 4 → s.unitOn u = true →
    selOk u (Fld.of .EC_SEL_MODE w) (Fld.of .EC_SEL_EVENT w) (Fld.of .EC_SEL_SUB w) = true →
    let i := 4 * u + k
    let t := (s.setFields i w [.EC_SEL_USER_FN, .EC_SEL_USER_EN, .EC_SEL_MODE, .EC_SEL_SUB, .EC_SEL_EVENT]).w1c .EC_SEL_OVF i w
    Gives (.ecSelWrite u k w) s
      (if s.rd .EC_SEL_MODE i = Fld.of .EC_SEL_MODE w ∧ s.rd .EC_SEL_EVENT i = Fld.of .EC_SEL_EVENT w ∧
          s.rd .EC_SEL_SUB i = Fld.of .EC_SEL_SUB w then t else t.wr .EC_CNT_COUNT i 0)) ∧
  (∀ s u k w, s.phase = .running → u < 295 → k < 4 → s.unitOn u = true →
    Gives (.ecCntWrite u k w) s (s.setFields (4 * u + k) w [.EC_CNT_COUNT])) ∧
  (∀ s p w, s.phase = .running → s.portOn p = true → s.rd .EC_HIST_CFG_CLASS p ≠ Fld.of .EC_HIST_CFG_CLASS w →
    Gives (.ecHistCfgWrite p w) s
      ((List.range 8).foldl (fun s b => s.wr .EC_HIST_COUNT (8 * p + b) 0)
        (s.wr .EC_HIST_CFG_CLASS p (Fld.of .EC_HIST_CFG_CLASS w)))) ∧
  (∀ s p, s.phase = .running → s.portOn p = true →
    let i := 8 * p + histBin (s.qOf p (s.rd .EC_HIST_CFG_CLASS p))
    let t := s.wr .EC_HIST_COUNT i (s.rd .EC_HIST_COUNT i + 1)
    Gives (.histogramSample p) s (if 2 ^ 48 ≤ s.rd .EC_HIST_COUNT i + 1 then t.wr .EC_HIST_OVF i 1 else t)) ∧
  (∀ s, s.phase = .running → s.fatal = false → s.nextSnaps ≠ [] → Gives .snapshotCapture s s.capture) ∧
  (∀ s k ok n t done, s.phase = .running → s.fatal = false → s.snaps.look k = some n → n.captured = true →
    s.writeSnap n ok = some (t, done) →
    let u := if idxBefore (t.rd .EC_SNAP_STATUS_SEQ) n.seq then t.wr .EC_SNAP_STATUS_SEQ 0 n.seq else t
    Gives (.snapshotComplete k ok) s
      (State.endPriv { u with snaps := u.snaps.del k } n.src (if done then 0 else cLocalMemory)))

/-- An assertion of an enabled source is taken by the collector, a fault on its wire also sets WIRE; a force does either where no job is
active or the class is not fatal; FT_SRC takes what is written and gives its count away when read; a fatal source makes the device fatal;
a failing self-check ends ALIVE (R466 to R474). -/
def Obligations.faultRowsComplete : Prop :=
  (∀ s n, s.phase ≠ .auxHeld → srcKnown n = true → s.srcOn n = true →
    Gives (.faultAssertion n) s (s.faultAssert n false) ∧
    Gives (.wireFault n) s ((s.wr .FT_SRC_WIRE n 1).faultAssert n false)) ∧
  (∀ s n, s.phase ≠ .auxHeld → srcKnown n = true → s.srcOn n = true → (s.rd .FT_SRC_REACT n ≠ rcFatal ∨ s.jobsActive = 0) →
    Gives (.ftForceAssert n) s (s.faultAssert n true) ∧
    Gives (.ftForceWire n) s ((s.wr .FT_SRC_WIRE n 1).faultAssert n true)) ∧
  (∀ s n w, s.phase ≠ .auxHeld → srcKnown n = true → Fld.of .FT_SRC_FORCE w = 0 →
    Gives (.ftReactWrite n w) s
      ((((s.setReact n (Fld.of .FT_SRC_REACT w)).w1c .FT_SRC_WIRE n w).w1c .FT_SRC_FORCED n w).w1c .FT_SRC_STATUS n w)) ∧
  (∀ s n, s.phase ≠ .auxHeld → n < 512 → Gives (.ftSrcRead n) s (s.readOut .FT_SRC n)) ∧
  (∀ s n, s.phase = .running → srcKnown n = true → s.srcOn n = true → s.rd .FT_SRC_REACT n = rcFatal →
    Gives (.fatalEntry n) s (s.enterFatal n)) ∧
  (∀ s, s.phase ≠ .auxHeld → Gives .collectorSelfCheckFail s (State.emit { s with checkFailed := true } (.alive false)))

/-! ## The wharf, the locks and the registers -/

/-- A ferry's cache reads, owns, upgrades and gives up lines; agents read, write and operate on the wharf at the home berth; a line is
poisoned (R395 to R399). -/
def Obligations.wharfRowsComplete : Prop :=
  (∀ s f a, s.phase = .running → s.ferryOn f = true → s.inWharf a = true →
    Gives (.ferryRead f a) s (s.lineRead f a) ∧ Gives (.ferryOwn f a) s (s.lineOwn f a) ∧
    Gives (.ferryUpgrade f a) s (s.lineOwn f a)) ∧
  (∀ s a, s.phase = .running → s.inWharf a = true → s.poisoned (lineOf a) 64 = false →
    Gives (.agentRead a) s ((s.agentMoves a 1).emit (.value (leNat (memRead s.mem (lineOf a) 64))))) ∧
  (∀ s a bytes, s.phase = .running → s.inWharf a = true → s.inWharf (a + bytes.length - 1) = true →
    Gives (.agentWrite a bytes) s (s.writeLocal 0 a bytes)) ∧
  (∀ s a aop x y big, s.phase = .running → let n := if big then 8 else 4
    s.inWharf a = true → s.inWharf (a + n - 1) = true → a % n = 0 → s.poisoned a n = false →
    let old := memNat s.mem a n
    Gives (.agentAtomic a aop x y big) s
      ((s.writeLocal 0 a (leBytes n (atomicNew aop (8 * n) false old x y))).emit (.value old))) ∧
  (∀ s f a l, s.phase = .running → s.line a = some l →
    Gives (.ferryEviction f a) s (if l.has f then s.lineEvict f a else s.count (64 + s.homeOf (lineOf a)) 4)) ∧
  (∀ s a, s.phase = .running → s.inWharf a = true → Gives (.poisonTimeout a) s (s.linePoison a))

/-- A host requester that may use a lock acquires, releases, clears and withdraws under its own identity; a free group takes its registers;
the control path uses word locks in maintenance mode (R401, R403, R404, R406, R408, R409). -/
def Obligations.lockRowsComplete : Prop :=
  (∀ s n w, s.phase = .running → n < 4096 → s.lockHostOk n w = true →
    Gives (.lkAcquire n w w) s (s.acquireLock n w).1 ∧
    Gives (.lkRelease n w w) s (if (s.lock n).owner = some w then s.releaseLock n false else s) ∧
    Gives (.lkClearOrphan n w w) s
      (if (s.lock n).owner = some w then s.updLock n fun l => { l with orphaned := false } else s) ∧
    Gives (.lkWithdraw n w w) s (s.updLock n fun l => { l with waiters := l.waiters.erase w })) ∧
  (∀ s g v, s.phase = .running → g < 16 → s.groupFree g = true →
    Gives (.lkGroupWrite g true v) s (s.setFields g v [.LK_GROUP_FERRIES_FERRIES]) ∧
    Gives (.lkGroupWrite g false v) s
      (s.setFields g v [.LK_GROUP_JOB_SLOT, .LK_GROUP_BOUND, .LK_GROUP_PRIO_MODE, .LK_GROUP_HOST_PRIO, .LK_GROUP_HFUNC1,
        .LK_GROUP_HEN1, .LK_GROUP_HFUNC0, .LK_GROUP_HEN0])) ∧
  (∀ s v, s.phase = .running → s.jobsActive = 0 → Gives (.lkCfgWrite v) s (s.setFields 0 v [.LK_CFG_MAINT])) ∧
  (∀ s a, s.phase = .running → s.flag .LK_CFG_MAINT = true → s.inWharf a = true → a % 8 = 0 →
    let old := memNat s.mem a 8
    let next (want new : Nat) : State :=
      let t := s.writeLocal 0 a (leBytes 8 (if old = want then new else old))
      { t with lkWord := t.lkWord.put identCtl (if old = want then new else old) }
    Gives (.lkWordAcquire identCtl a) s (next 0 (0x1_0000 + identCtl)) ∧
    Gives (.lkWordRelease identCtl a) s (next (0x1_0000 + identCtl) 0))

/-- The registers of address translation, of the control window, of the BAR4 windows and of the functions take what is written and give
what is read; a register without a row of its own is written by its address or through a BAR; BAR4 reaches what its window covers
(R9, R412 to R414, R429 to R434). -/
def Obligations.registerRowsComplete : Prop :=
  (∀ s a v, s.phase = .running → a < 4096 → s.flag .TX_ASID_LOCKED a = false →
    Gives (.txAsidWrite a 0 v) s (s.writeAsid a v) ∧
    Gives (.txAsidWrite a 1 v) s (s.setFields a v [.TX_ROOT_ROOT, .TX_ROOT_LOC]) ∧
    Gives (.txAsidWrite a 2 v) s (s.setFields a v [.TX_PKG_FIRST, .TX_PKG_LAST])) ∧
  (∀ s a sp v, s.phase = .running → a < 4096 → sp < 8 → s.flag .TX_ASID_LOCKED a = false →
    s.flag .TX_SPAN_BASE_VALID (8 * a + sp) = false →
    Gives (.txSpanBaseWrite a sp 0 v) s
      (s.setFields (8 * a + sp) v [.TX_SPAN_BASE_BASE, .TX_SPAN_BASE_W, .TX_SPAN_BASE_R, .TX_SPAN_BASE_LOC, .TX_SPAN_BASE_VALID]) ∧
    Gives (.txSpanBaseWrite a sp 1 v) s (s.setFields (8 * a + sp) v [.TX_SPAN_LIMIT_LIMIT]) ∧
    Gives (.txSpanBaseWrite a sp 2 v) s (s.setFields (8 * a + sp) v [.TX_SPAN_TGT_TARGET])) ∧
  (∀ s a sp v, s.phase = .running → a < 4096 → sp < 8 → s.flag .TX_ASID_LOCKED a = false →
    s.flag .TX_SPAN_BASE_VALID (8 * a + sp) = true → Fld.of .TX_SPAN_BASE_VALID v = 0 →
    Gives (.txSpanBaseWrite a sp 0 v) s (s.wr .TX_SPAN_BASE_VALID (8 * a + sp) 0)) ∧
  (∀ s v, s.phase = .running → s.ctlDiscards 8 = false → let a := s.rd .HI_CTL_ADDR_ADDR * 8
    Gives (.hiCtlDataRead 8) s ((s.readAddr a).1.answer (some 0) (s.readAddr a).2) ∧
    Gives (.hiCtlDataWrite 8 v) s (s.writeAddr a v)) ∧
  (∀ s tgt p w v, s.phase = .running → p < 2 → w < 16 → Gives (.hiWinWrite tgt p w v) s (s.writeWin tgt (16 * p + w) v)) ∧
  (∀ s p vf v, s.phase = .running → p < 2 → 1 ≤ vf → vf ≤ 252 → Fld.of .HI_VF_QBASE v ≠ 0 → Fld.of .HI_VF_QBASE v % 64 = 0 →
    s.boundQueues (fun k => decide (s.qFunc k = (253 * p + vf) / 253 * 256 + (253 * p + vf) % 253)) = [] →
    Gives (.hiVfWrite p vf v) s (s.wr .HI_VF_QBASE (253 * p + vf) (Fld.of .HI_VF_QBASE v))) ∧
  (∀ s f, s.phase = .running → s.fnExists f = true → Gives (.hiFnStatRead f) s (s.readFor (some f) .HI_FN_STAT (fnIdx f))) ∧
  (∀ s a v, s.phase ≠ .auxHeld → (s.phase = .running ∨ refBlock a = true) →
    Gives (.registerWrite (.internal a v)) s (s.writeAddr (a / 8 * 8) v)) ∧
  (∀ s f off len v, s.phase = .running → s.fnExists f = true →
    Gives (.registerWrite (.bar0 f off len none)) s ((s.bar0Read f off len).1.answer (some f) (s.bar0Read f off len).2) ∧
    Gives (.registerWrite (.bar0 f off len (some v))) s (s.bar0Write f off len v) ∧
    Gives (.registerWrite (.bar2 f off len none)) s (s.answer (some f) (s.bar2Read f off len)) ∧
    Gives (.registerWrite (.bar2 f off len (some v))) s (s.bar2Write f off len v)) ∧
  (∀ s f off len op bad i, s.phase = .running → s.fnExists f = true → len ≠ 0 → barLenOk op len = true →
    off / 64 = (off + len - 1) / 64 → off + len ≤ bar4Size f → s.winFor f off len = some i → s.winAllows i op = true →
    let a := s.winTarget i + (off - s.winLo i)
    Gives (.bar4Access f off len op bad) s (if inPackage a then s.winPackage f a len op bad else s.winRegs f a len op))

/-! ## Routing, links, lanes and machine time -/

namespace Sys2Proof.Claims

/-- A half of a codeword brings the flit `f` that is next to a port whose link runs, in the state `u` (R303, R304, R310). -/
structure FlitIn (s : State) (p : Nat) (c : CodeHalf) (f : Flit) (u : State) : Prop where
  up : s.phase = .running
  live : s.fatal = false
  runs : s.linkRuns p = true
  half : ∃ next fixed, s.takeHalf p c = some (next, fixed, .ok f) ∧ u = s.halfTaken p c next fixed

end Sys2Proof.Claims

/-- A packet's header is decided; the copy of the input whose turn it is starts on its output once it has credits, one too old or with 8 hops is
discarded; an MG packet at its time is discarded; a route notice takes effect (R273, R278, R280, R284, R288, R301, R315, R410). -/
def Obligations.routingComplete : Prop :=
  (∀ s inPort pkt i1 i2 id, s.phase = .running → s.fatal = false → inPort < 72 → s.undecided inPort pkt = some id →
    Gives (.routerHeaderArrival inPort pkt i1 i2) s (s.decideHeader id i1 i2)) ∧
  (∀ s inPort pkt i1 i2, s.phase = .running → s.fatal = false → 72 ≤ inPort → inPort < 80 →
    s.out.contains (.packet pkt) = true →
    let t := State.enterCrossing (State.count { s with out := s.out.erase (.packet pkt) } (posUnit inPort) 2 pkt.cls) inPort
      (vcNo pkt.cls 0) (padSegs (Packet.wire pkt)) true
    Gives (.routerHeaderArrival inPort pkt i1 i2) s (t.1.decideHeader t.2 i1 i2)) ∧
  (∀ s out v i id t l, s.phase = .running → s.fatal = false → out < 72 → v < 8 → s.portUp out = true → s.unfit out v = none →
    ((s.asking out).find? fun a => decide (s.granted out = some a.1 ∧ a.2.1 = v)) = some (i, v, id) →
    s.transit.look id = some t → t.leg out = some l → Gives (.cutThroughStart out v) s (s.startLeg out v id t l)) ∧
  (∀ s out v id l sub, s.phase = .running → s.fatal = false → out < 72 → v < 8 → s.portUp out = true →
    s.unfit out v = some (id, l, sub) → Gives (.cutThroughStart out v) s (s.dropLeg id l sub)) ∧
  (∀ s out v id rest l, s.phase = .running → s.fatal = false → out < 72 → 6 ≤ v → v < 8 → s.outQ out v = id :: rest →
    (s.transit.look id).bind (·.leg out) = some l →
    Gives (.mgDropExpiry out v) s ((s.setNow (l.since + us s.mgDropUs)).dropLeg id l dropMg)) ∧
  (∀ s p n r, s.phase = .running → s.fatal = false → (s.link p).noticesIn = n :: r →
    let d : Notice := { n with up := false }
    let t := s.updLink p fun k => { k with noticesIn := r }
    let rest := t.notices.filter fun x => decide (x ≠ (p, d))
    Gives (.noticeReceive p n) s { t with notices := if n.up then rest else rest ++ [(p, d)] })

/-- Flits that arrive in codewords act: a sequenced flit and a CREDIT at a port that is up, HELLO and TRAIN at a port that is not disabled; one
whose CRC fails is lost; a flit boundary sends what is ready (R303, R304, R308 to R313, R316, R317, R320, R321, R324, R325, R328). -/
def Obligations.flitsComplete : Prop :=
  (∀ s p, s.phase = .running → s.fatal = false → s.linkRuns p = true → Gives (.flitTransmit p) s (s.transmit p)) ∧
  (∀ s p c f u, FlitIn s p c f u → flitSeq f.pay = true → u.portState p = psUp → Gives (.dataFlitReceive p c) s (u.flitIn p f)) ∧
  (∀ s p c next fixed, s.phase = .running → s.fatal = false → s.linkRuns p = true → s.takeHalf p c = some (next, fixed, .bad) →
    let t := (s.halfTaken p c next fixed).count (posUnit p) 8
    Gives (.dataFlitReceive p c) s (if t.portState p = psUp then t.flitLost p else t)) ∧
  (∀ s p c f u cs, FlitIn s p c f u → u.portState p = psUp → f.pay = .credit cs →
    let t := u.flitHeader p f
    let d := seqDist (t.rd .LL_PORT_STATE_RX_EXP p) f.fseq
    Gives (.creditFlitReceive p c) s
      ((if 0 < d ∧ d < 2048 then t.flitLost p else t).updLink p fun k => {
        k with retU := ⟨cs.zipIdx.map fun c => (c.2, c.1 % 65536)⟩ })) ∧
  (∀ s p c f u h, FlitIn s p c f u → f.pay = .hello h →
    let t := (if h.init then u else u.unseqHeader p f).helloIn p h
    Gives (.helloReceive p c) s (if t.portState p = psUp then t.recalNext p else t)) ∧
  (∀ s p c f u t, FlitIn s p c f u → f.pay = .train t →
    Gives (.trainFlitReceive p c) s ((u.unseqHeader p f).trainIn p t)) ∧
  (∀ s p c f u t, FlitIn s p c f u → u.portState p = psUp → f.pay = .time t →
    Gives (.timeFlitReceive p c) s ((u.unseqHeader p f).timeIn p t))

/-- The link layer's timers do what they are for: a replay, a repeated NACK, HELLO or TRAIN REQ, the end of a hold, a port down, a port
disabled (R312 to R314, R319, R320, R322, R324, R326, R328). -/
def Obligations.linkTimersComplete : Prop :=
  (∀ s p d, s.timers.look (.replay p) = some d → let u := at_ s (.replay p) d
    u.portState p = psUp → Gives (.replayTimeout p) s (u.startReplay p)) ∧
  (∀ s p d, s.timers.look (.nackRepeat p) = some d → let u := at_ s (.nackRepeat p) d
    u.portState p = psUp → (u.link p).nackSent = true →
    Gives (.nackRepeatTimeout p) s (u.updLink p fun k => { k with nackDue := true })) ∧
  (∀ s p d, s.timers.look (.hello p) = some d → let u := at_ s (.hello p) d
    u.portState p ≠ psUp → u.portState p ≠ psDisabled →
    Gives (.helloRepeat p) s (u.updLink p fun k => { k with helloDue := true })) ∧
  (∀ s p d, s.timers.look (.hold p) = some d → let u := at_ s (.hold p) d
    u.portState p = psHold → Gives (.holdExpiry p) s ((u.flushPort p).helloAgain p)) ∧
  (∀ s p d t, s.timers.look (.trainReq p) = some d → let u := at_ s (.trainReq p) d
    u.portState p = psUp → (u.link p).trainReq = some t →
    Gives (.trainReqRepeat p) s (u.updLink p fun k => { k with trainDue := some t })) ∧
  (∀ s p d, s.timers.look (.retrain p) = some d → let u := at_ s (.retrain p) d
    u.portState p = psRetrain → Gives (.retrainLimitExpiry p) s (u.declareDown p dcRetrain)) ∧
  (∀ s p d, s.timers.look (.drain p) = some d → let u := at_ s (.drain p) d
    (u.link p).disabling = true → Gives (.portDisableDrainEnd p) s (u.disablePort p)) ∧
  (∀ s p t, s.phase = .running → (s.link p).lostAt = some t →
    Gives (.portDown p dcLock) s ((s.setNow (t + us 1)).declareDown p dcLock)) ∧
  (∀ s p, s.phase = .running → s.portState p = psUp → 8 ≤ s.rd .LL_PORT_STATE_RFAIL p →
    Gives (.portDown p dcReplay) s (s.declareDown p dcReplay))

/-- A lane gains and loses lock, trains, repeats its request, leaves the fast path, starts full training again, asks for its
recalibration; a port narrows; the lanes' counters are read; a checker locks (R305, R326, R334 to R339, R343 to R350). -/
def Obligations.lanesComplete : Prop :=
  (∀ s l, s.phase = .running → s.laneOn l = true → (s.lane l).training = false →
    let t := (s.wr .LN_LANE_STATUS_LOCK l 1).wr .LN_LANE_STATUS_CDR_LOCK l 1
    (t.portOfLane l = none → Gives (.fecLockGain l) s t) ∧
    (∀ p, t.portOfLane l = some p → Gives (.fecLockGain l) s
      (if (t.link p).group.all fun k => t.flag .LN_LANE_STATUS_LOCK k then t.updLink p fun k => { k with lostAt := none } else t))) ∧
  (∀ s l, s.phase = .running → s.laneOn l = true → s.flag .LN_LANE_STATUS_LOCK l = true →
    let t := (s.wr .LN_LANE_STATUS_LOCK l 0).count (200 + l / 4) 3 (l % 4)
    (t.portOfLane l = none → Gives (.fecLockLoss l) s t) ∧
    (∀ p, t.portOfLane l = some p → (t.link p).group.contains l = true → (t.link p).lostAt = none → t.portState p = psUp →
      Gives (.fecLockLoss l) s (t.updLink p fun k => { k with lostAt := some t.now }))) ∧
  (∀ s l w f, s.phase = .running → s.laneOn l = true → decodeFrame w = some f →
    Gives (.trainingFrameReceive l w) s (s.frameIn l f)) ∧
  (∀ s l d, s.timers.look (.laneReq l) = some d → let u := at_ s (.laneReq l) d
    (u.lane l).training = true → (u.lane l).req.isSome = true →
    Gives (.laneRequestRepeat l) s ((u.sendFrame l).armIn (.laneReq l) (us 10))) ∧
  (∀ s l d, s.timers.look (.fastPath l) = some d → let u := at_ s (.fastPath l) d
    (u.lane l).training = true → Gives (.fastPathTimeout l) s (u.laneFull l)) ∧
  (∀ s l d, s.timers.look (.fullTrain l) = some d → let u := at_ s (.fullTrain l) d
    (u.lane l).training = true → u.portOfLane l = none →
    Gives (.fullTrainingRestart l) s ((u.incSat .LN_LANE_STATUS_ATTEMPTS l 1).laneFull l)) ∧
  (∀ s l p, s.phase = .running → s.fatal = false → s.laneOn l = true → s.portOfLane l = some p → s.recalDue l = true →
    s.portState p = psUp → (s.link p).group.contains l = true → (s.link p).trainReq = none → (s.link p).recal = none →
    (s.confLanes p).any (fun k => s.flag .LN_LANE_STATUS_FAILED k) = false → 2000 ≤ s.rd .LL_TIMERS_RETRAIN_LIMIT →
    s.rd .LL_PORT_STATE_WIDTH p = 0 →
    Gives (.recalRequest l) s
      ((s.updLane l fun x => { x with deferred := false, lastFull := s.now }).askRetrain p 0 (s.rd .LL_PORT_STATE_RATE p) 2)) ∧
  (∀ s p lost, s.phase = .running → s.fatal = false → s.portOn p = true → peNarrow (s.portEntry p) = true →
    s.portState p = psUp → s.rd .LL_PORT_STATE_WIDTH p ≠ 0 →
    let ls := lost.filter fun l => (s.link p).group.contains l && !s.flag .LN_LANE_STATUS_LOCK l
    ls ≠ [] →
    ((s.groups p (s.rd .LL_PORT_STATE_WIDTH p - 1)).any fun g =>
      g.all fun l => (s.link p).group.contains l && s.flag .LN_LANE_STATUS_LOCK l) = true →
    let t := ls.foldl (fun s l => ((s.wr .LN_LANE_STATUS_FAILED l 1).wr .LN_LANE_STATUS_PSTATE l 1).laneStop l) s
    let held := (s.link p).group.all fun l => ls.contains l || s.flag .LN_LANE_STATUS_LOCK l
    let u := (t.updLink p fun k => { k with lostAt := if held then none else k.lostAt, recal := none }).logRec 1 0x05 .laneFailed p ls
    Gives (.laneFailureNarrow p lost) s
      (u.askRetrain p (u.reachWidth p (s.rd .LL_PORT_STATE_WIDTH p - 1)) (u.rd .LL_PORT_STATE_RATE p) 1)) ∧
  (∀ s l, s.phase = .running → l < 72 →
    Gives (.lnLaneSerRead l) s (s.readOut .LN_LANE_SER l) ∧ Gives (.lnLanePrbsRead l) s (s.readOut .LN_LANE_PRBS l)) ∧
  (∀ s l, s.phase = .running → s.laneOn l = true → bitOf (s.laneEntry l) 18 = true → s.portOfLane l = none →
    Gives (.prbsCheckerLock l) s (s.wr .LN_LANE_PRBS_CHK_LOCK l 1))

/-- An edge of the reference starts or keeps it valid; references and parents are lost; HOLDOVER ends; WHISTLE packets are taken and whistles
fire; captures, outputs and their registers act (R352, R356, R358 to R361). -/
def Obligations.timeRowsComplete : Prop :=
  (∀ s, s.phase ≠ .auxHeld → s.flag .MT_CFG_EXT_EN = true → s.servo.pps = none →
    Gives .ppsEdge s { s with servo := { s.servo with pps := some s.now } }) ∧
  (∀ s b, s.phase ≠ .auxHeld → s.flag .MT_CFG_EXT_EN = true → s.servo.pps = some b →
    s.now ≤ b + sec 1 + us 1 → b + sec 1 ≤ s.now + us 1 →
    let t := (State.armIn { s with servo := { s.servo with pps := some s.now, ext := true } } .extRef (sec 2)).chooseTime
    (t.servo.self = true → ((ppsTarget s.now (s.rd .MT_CFG_EXT_OFFSET) : Int) - s.now).natAbs ≤ 4) →
    Gives .ppsEdge s t) ∧
  (∀ s d, s.timers.look .extRef = some d → let u := at_ s .extRef d
    Gives .extReferenceLoss s (State.chooseTime { u with servo := { u.servo with ext := false, pps := none } })) ∧
  (∀ s d, s.timers.look .parent = some d → let u := at_ s .parent d
    u.rd .MT_STATUS_PARENT 0 ≠ 127 → Gives .parentLoss s u.loseParent) ∧
  (∀ s d, s.timers.look .holdover = some d → let u := at_ s .holdover d
    u.rd .MT_STATUS_STATE 0 = mtHoldover →
    let v := u.servo
    let kept := v.ann.keep fun _ a => decide ((a.prio, a.serial) ≠ (v.gmPrio, v.gmSerial))
    let t : State := { u with servo := { v with ann := kept, gmPrio := 255, gmSerial := u.rd .GLB_SERIAL_SERIAL } }
    Gives .holdoverExpiry s (t.wrAll 0 [(.MT_STATUS_STATE, mtUnlocked), (.MT_STATUS_DEPTH, 255)]).chooseTime) ∧
  (∀ s p mc ses ctr tag w, s.phase = .running → s.fatal = false → s.mgRoom = true → p.body = .mg mc true ses ctr tag (.whistle w) →
    p.ptype = 0x46 → Packet.mgOk p = true → w.line < 16 → bitOf ses 31 = true → w.byJob = true → ses = 2 ^ 31 + w.jobId →
    s.whistleOk p w.jobId = true → Gives (.whistlePacketReceive p) s (s.whistleJob w (p.src / 4096) ctr)) ∧
  (∀ s p mc ses ctr tag w, s.phase = .running → s.fatal = false → s.mgRoom = true → p.body = .mg mc true ses ctr tag (.whistle w) →
    p.ptype = 0x46 → Packet.mgOk p = true → w.line < 16 → bitOf ses 31 = false → w.byJob = false →
    s.credOk ⟨ses, ctr, tag⟩ (Packet.mgCovered p) = true →
    Gives (.whistlePacketReceive p) s ((s.useCred ⟨ses, ctr, tag⟩).schedule w.line ⟨w.time, none⟩).1) ∧
  (∀ s line x, s.nextFiring line = some x →
    let t : State := { s.setNow x.time with firings := s.firings.put line ((s.firingsOf line).erase x) }
    Gives (.whistleFire line) s ((t.wr .MT_LINE_PENDING line (t.firingsOf line).length).fireLine line x false)) ∧
  (∀ s k rising, s.phase = .running → k < 4 → s.rd .MT_TRIG_CFG_MODE k = 3 →
    let q := (s.trig.look k).getD []
    (64 ≤ q.length → Gives (.trigCaptureEdge k rising) s (s.incSat .MT_TRIG_STAT_DROPPED k 1)) ∧
    (q.length < 64 → Gives (.trigCaptureEdge k rising) s
      { s with trig := s.trig.put k (q ++ [s.now / 2 * 2 + (if rising then 1 else 0)]) })) ∧
  (∀ s k t, s.phase = .running → k < 4 → s.trigNext k = some t →
    Gives (.trigOutputFire k) s ((s.setNow (max s.now t + 1)).emit (.trig k (s.rd .MT_TRIG_CFG_WIDTH k)))) ∧
  (∀ s k v, s.phase = .running → k < 4 → Gives (.mtTrigCfgWrite k v) s (s.writeTrigCfg k v)) ∧
  (∀ s k, s.phase = .running → k < 4 →
    Gives (.mtTrigCapRead k) s (s.readOut .MT_TRIG_CAP k) ∧ Gives (.mtTrigStatRead k) s (s.readOut .MT_TRIG_STAT k)) ∧
  (∀ s w, s.phase = .running → w < 16 → Gives (.mtLineRead w) s (s.readOut .MT_LINE w))

/-! ## Management, images and power -/

namespace Sys2Proof.Claims

/-- Iamel answers: the reference domain is not in auxiliary reset, and Iamel does not reset. -/
structure IamelOn (s : State) : Prop where
  ref : s.phase ≠ .auxHeld
  up : s.iamelUp = true

end Sys2Proof.Claims

/-- Iamel and the management agent act on what they are sent: a Welrirel command, an enrolment, a read and a copy of the log, MCTP control; an
MG-CMD, an MG-STATUS and a TELEMETRY request whose credential holds (R49, R54, R288, R449 to R456, R488). -/
def Obligations.managementComplete : Prop :=
  (∀ s msg op p tr, IamelOn s → s.cmds.length < 8 → s.phase = .running → leAt msg 0 1 = 1 → leAt msg 3 1 = 0 →
    msgEntry msg 4 = some (op, p, tr) → let src : CmdSrc := .iamel (leAt msg 1 2)
    let x : PrivData := { msg := msg, trailer := tr }
    Gives (.welrirelCmd msg) s (s.runPriv src op p x fun s => s.privBody op src p x)) ∧
  (∀ s req key token, IamelOn s → 8 ≤ s.rd .GLB_SEC_STATE_AUTH_SLOT →
    Gives (.enrol req true key token) s
      ((State.wr { s with authDigests := s.authDigests ++ [digestOf key] } .GLB_SEC_STATE_AUTH_SLOT 0 0).emit (.status req 0 0))) ∧
  (∀ s t req key token, IamelOn s → s.rd .GLB_SEC_STATE_AUTH_SLOT < 7 →
    s.grantToken (decodeToken token, digestOf key) 0x11 0 = (t, 0) →
    Gives (.enrol req false key token) s
      ((State.wr { t with authDigests := t.authDigests ++ [digestOf key] } .GLB_SEC_STATE_AUTH_SLOT 0
        (s.rd .GLB_SEC_STATE_AUTH_SLOT + 1)).emit (.status req 0 0))) ∧
  (∀ s req first n flash, IamelOn s → n ≠ 0 → n ≤ 3 →
    Gives (.logRead req first n flash) s
      (s.emit (.records req ((List.range n).filterMap fun k => s.findRec flash ((first + k) % 2 ^ 32))))) ∧
  (∀ s, IamelOn s →
    let flash := s.flash ++ s.ring.filter fun r => idxBefore (s.rd .MG_LOG_STATUS_PERSISTED) r.seq
    let t : State := { s with flash := flash.drop (flash.length - 262144) }
    Gives .logFlashCopy s (t.wr .MG_LOG_STATUS_PERSISTED 0 (t.rd .MG_LOG_STATUS_NEWEST)).placeLost) ∧
  (∀ s, s.phase ≠ .auxHeld → Gives .mgLogLostRead s (s.readOut .MG_LOG_LOST 0)) ∧
  (∀ s bus eid, IamelOn s → bus < 2 →
    Gives (.mctpControl bus (.setEid eid)) s
      (State.emit { s with eids := s.eids.put bus (eid % 256) } (.mgmt mgOk (((s.eids.put bus (eid % 256)).look bus).getD 0))) ∧
    Gives (.mctpControl bus .getEid) s (s.emit (.mgmt mgOk ((s.eids.look bus).getD 0))) ∧
    Gives (.mctpControl bus .types) s (s.emit (.mctpTypes [0x00, 0x01, 0x05, 0x7F])) ∧
    (∀ t ∈ [0x00, 0x01, 0x05, 0x7F], Gives (.mctpControl bus (.version t)) s (s.freeNext.emit (.mgmt mgOk (s.freeVal 32))))) ∧
  (∀ s pkt mc ses ctr tag msg op p tr, s.phase = .running → s.fatal = false → s.mgRoom = true →
    pkt.body = .mg mc true ses ctr tag (.cmd msg) → pkt.ptype = 0x40 → Packet.mgOk pkt = true →
    s.credOk ⟨ses, ctr, tag⟩ (Packet.mgCovered pkt) = true → msgEntry msg 0 = some (op, p, tr) →
    let src : CmdSrc := .mg ses ctr (pkt.src / 4096)
    let x : PrivData := { msg := msg, trailer := tr }
    Gives (.mgCmdReceive pkt) s ((s.useCred ⟨ses, ctr, tag⟩).runPriv src op p x fun s => s.privBody op src p x)) ∧
  (∀ s pkt mc ses ctr tag a b c, s.phase = .running → s.fatal = false → s.mgRoom = true →
    pkt.body = .mg mc true ses ctr tag (.status a b c) → pkt.ptype = 0x41 → Packet.mgOk pkt = true →
    s.credOk ⟨ses, ctr, tag⟩ (Packet.mgCovered pkt) = true →
    Gives (.mgStatusReceive pkt) s (s.useCred ⟨ses, ctr, tag⟩)) ∧
  (∀ s pkt mc ses ctr tag op first n, s.phase = .running → s.fatal = false → s.mgRoom = true →
    pkt.body = .mg mc true ses ctr tag (.telemetry op first n) → pkt.ptype = 0x47 → Packet.mgOk pkt = true →
    s.credOk ⟨ses, ctr, tag⟩ (Packet.mgCovered pkt) = true → (op = 1 ∨ op = 2) → 1 ≤ n → n ≤ 64 → first + n ≤ 295 →
    s.iamelUp = true →
    let t := s.useCred ⟨ses, ctr, tag⟩
    Gives (.telemetryRequest pkt) s (t.sendAuth ses {
      ptype := 0x47, cls := 3, dest := pkt.src, src := t.nodeId * 4096 + 0xFFF, ts := t.now % 2 ^ 32, length := 8 + 32 * n,
      body := .mg none true ses ctr []
        (.telemetryReply op first n ((List.range (4 * n)).map fun k => t.teleEntry op (4 * first + k))) }))

/-- Iamel resets and starts again; a trial is confirmed; a component is placed in its inactive slot; activation makes it ACTIVE; a unit takes
its step of a live procedure; FLOOR is committed (R457 to R462, R501). -/
def Obligations.imagesComplete : Prop :=
  (∀ s, IamelOn s → s.phase = .running → Gives .pwResetMgmt s s.iamelReset) ∧
  (∀ s, IamelOn s → s.phase = .running → Gives .iamelWatchdogReset s (s.iamelReset.trialFails.raise 249)) ∧
  (∀ s, s.phase ≠ .auxHeld → s.rd .MG_STATUS_STATE = mgTrial →
    Gives .trialConfirm s (((s.disarm .trial).wr .MG_IMAGE_TRIAL 0 0).wr .MG_STATUS_STATE 0 mgRunning)) ∧
  (∀ s t bs c, IamelOn s → t < 6 → decodeContainer bs = some c →
    let k := 1 - s.activeSlot t
    let u := s.placeSlot t k ⟨c.secver, c.build, decide (c.ptype = t) && s.productSigned c.signed c.sigR c.sigS, c.payload⟩
    Gives (.pldmUpdateComponent t bs) s (u.emit (.mgmt (if u.slotOk t k then mgOk else mgRefused) 0))) ∧
  (∀ s t, s.phase = .running → s.iamelUp = true → s.live = none → t < 6 → s.slotOk t (1 - s.activeSlot t) = true →
    let u := (s.activate t).emit (.mgmt mgOk 0)
    Gives (.activateFirmware [t]) s
      (if t = 0 then u.iamelReset else if 2 ≤ t then u.liveStart t (u.unitsOf t) [] else u)) ∧
  (∀ s v, s.phase = .running → s.iamelUp = true → s.live = some v → v.begun = true → s.stepOver v.ptype v.unit = true →
    let t := State.takeImage { s with live := some { v with begun := false } } v.ptype v.unit
    let u := t.liveStart v.ptype v.rest v.queue
    Gives (.liveUpdateUnit true) s (u.routeGo u.routeWait)) ∧
  (∀ s, s.phase ≠ .auxHeld → s.iamelUp = false → Gives .mgmtResetComplete s s.iamelBack) ∧
  (∀ s req t v r g, IamelOn s → s.productSigned (leBytes 1 t ++ leBytes 2 v) r g = true → t < 6 → v ≤ 256 →
    v ≤ (s.activeImg t).secver → (s.runVers t).all (fun r => decide (v ≤ r)) = true →
    Gives (.commit req t v r g) s
      ((if s.rd .GLB_ROLLBACK_FLOOR t < v then s.wr .GLB_ROLLBACK_FLOOR t v else s).emit (.status req 0 0)))

/-- The resets of the device, their ends, sag, glitches and PARKED (R74, R490 to R494, R501, R502). -/
def Obligations.powerComplete : Prop :=
  (∀ s, exec .auxPowerOnReset s = .next s.auxReset) ∧
  (∀ s mg auto d, s.timers.look .auxRelease = some d → let u := at_ s .auxRelease d
    u.phase = .auxHeld → Gives (.auxResetRelease mg auto) s (u.auxRelease mg auto)) ∧
  (∀ s hb, s.phase = .mainHeld → s.sagHeld = [] →
    let t : State := { s with pwrok := true, strapHb := hb, phase := .starting }
    Gives (.pwrokMainAssert hb) s ((t.wr .HI_PORT_MODE 1 hb).armIn .mainUp (ms 50))) ∧
  (∀ s d, s.timers.look .mainUp = some d → let u := at_ s .mainUp d
    (u.phase = .starting ∨ u.phase = .running) → Gives .mainResetComplete s u.mainUp) ∧
  (∀ s, s.phase = .running →
    let t : State := { State.coreReset { s with pwrok := false } false with phase := .mainHeld }
    Gives .pwrokMainDeassert s (t.wr .PW_STATUS_LAST_RESET 0 2)) ∧
  (∀ s ns acts, s.phase = .running → (1000 ≤ ns ∨ (500 < ns ∧ acts = true)) →
    let t : State := { s.coreReset true with phase := .starting }
    Gives (.resetNAssert ns acts) s
      (((t.wr .PW_STATUS_LAST_RESET 0 5).incWrap .PW_STATUS_WARMS 0 1).armIn .mainUp (4 * ns + ms 50))) ∧
  (∀ s, s.phase = .running →
    let t : State := { s.coreReset true with phase := .starting }
    Gives .pwResetWarm s (((t.wr .PW_STATUS_LAST_RESET 0 6).incWrap .PW_STATUS_WARMS 0 1).armIn .mainUp (0 + ms 50))) ∧
  (∀ s, s.phase = .running → s.flag .PW_STATUS_PARKED = false → s.parkOk = true → Gives .parkEnter s s.park) ∧
  (∀ s, s.phase = .running → s.flag .PW_STATUS_PARKED = true → Gives .parkExit s s.unpark) ∧
  (∀ s x, s.phase ≠ .auxHeld → s.flag (sagFld x) = false →
    let t := ((s.wr (sagFld x) 0 1).emit (.sagWarn true)).raise 242
    Gives (.sagWarning x) s (if t.flag .PW_CTL_VEC_EN then t.msix 0 (t.rd .PW_CTL_VECTOR) else t)) ∧
  (∀ s x, s.phase ≠ .auxHeld → Gives (.sagWarningRelease x) s (s.sagRelease x)) ∧
  (∀ s x, s.phase ≠ .auxHeld →
    Gives (.sagReset x) s
      (State.mainReset { s with sagHeld := s.sagHeld.filter (fun y => decide (y ≠ x)) ++ [x] }
        (if x = .v12 then 3 else 4))) ∧
  (∀ s, s.phase ≠ .auxHeld → Gives .glitchDetect s ((s.zeroiseAll.wr .GLB_SEC_STATE_GLITCH_SEEN 0 1).raise 234))

/-- A per-unit reset resets its unit and marks it busy until it completes; an accepted write of PW_EN drops and returns units (R4, R389, R400,
R472, R502 to R504). -/
def Obligations.unitResetsComplete : Prop :=
  (∀ s f, s.phase = .running → s.unitInReset = none → s.ferryOn f = true →
    Gives (.unitResetFerry f) s (State.settleAll { s.resetFerry f with unitInReset := some (1, f) })) ∧
  (∀ s p, s.phase = .running → s.unitInReset = none → s.portOn p = true →
    Gives (.unitResetPort p) s { s.resetPort p (fun _ => false) with unitInReset := some (2, p) }) ∧
  (∀ s q, s.phase = .running → s.unitInReset = none → s.rstUnitOn 3 q = true →
    Gives (.unitResetLaneQuad q) s { s.resetQuad q with unitInReset := some (3, q) }) ∧
  (∀ s h, s.phase = .running → s.unitInReset = none → s.huddleOn h = true →
    Gives (.unitResetHuddle h) s (State.settleAll { s.failHuddle h with unitInReset := some (4, h) })) ∧
  (∀ s c, s.phase = .running → s.unitInReset = none → s.catcherOn c = true →
    (s.catchersOn.filter fun k => decide (k ≠ c)) ≠ [] →
    Gives (.unitResetCatcher c) s { State.catchersMoved { s with unitInReset := some (5, c) } with unitInReset := some (5, c) }) ∧
  (∀ s kind i, s.phase = .running → s.unitInReset = some (kind, i) →
    let t := State.setFlag { s with unitInReset := none } .FT_SRC_ISOLATED (rstSource kind i) false
    Gives .unitResetComplete s (if kind = 5 then t.catchersMoved else t)) ∧
  (∀ s r w, s.phase = .running → r ≠ 1 → r ≤ 6 →
    let old := s.rd .PW_EN_MASK r
    let bits := (List.range 64).filter fun k => bitOf (fusedMask s.variant r) k
    let new := bits.foldl (fun n k => n + bitAt (bitOf w k) k) 0
    let gone := bits.filter fun k => bitOf old k && !bitOf new k
    let back := bits.filter fun k => !bitOf old k && bitOf new k
    gone.all (fun k => s.mayClear r k new) = true →
    let t := back.foldl (fun s k => s.unitReturns r k) ((gone.foldl (fun s k => s.unitGoes r k) s).wr .PW_EN_MASK r new)
    Gives (.pwEnWrite r w) s (if r = 3 ∧ bitsOf old 8 4 ≠ bitsOf new 8 4 then t.catchersMoved else t))

/-! ## Host functions, the slot, the e-fuse channels, sensors and pace -/

/-- Bus mastery is lost and regained, functions are reset, VFs come and go, a vector is unmasked (R427, R428, R435, R438 to R441). -/
def Obligations.hostFunctionsComplete : Prop :=
  (∀ s f, s.phase = .running → s.fnExists f = true → s.fnState f ≠ 3 → ((s.fn f).bme = true ∨ s.fnState f = 0) →
    Gives (.bmeClear f) s
      (((s.updFn f fun n => { n with bme := false, d3 := n.d3 || false }).dropFunc f 1 3).armIn (.quiesce f) (ms 10)) ∧
    Gives (.d3hotEntry f) s
      (((s.updFn f fun n => { n with bme := false, d3 := n.d3 || true }).dropFunc f 1 3).armIn (.quiesce f) (ms 10))) ∧
  (∀ s f, s.phase = .running → s.fnExists f = true → s.fnState f ≠ 3 →
    let t := s.updFn f fun n => { n with bme := true, d3 := false }
    Gives (.bmeSet f) s (if t.fnState f = 0 then t else t.fnNormal f)) ∧
  (∀ s f d, s.timers.look (.quiesce f) = some d → (s.setNow d).fnState f = 1 →
    Gives (.quiesceExpiry f) s (((s.setNow d).wr .HI_FN_STATE_STATE (fnIdx f) 2).disarm (.quiesce f))) ∧
  (∀ s f, s.phase = .running → s.fnExists f = true → s.fnState f ≠ 3 →
    let t := (s.dropFunc f 3 4).dropLocks (identHost f)
    let u := t.wrAll (fnIdx f) [(.HI_FN_STAT_DB_FOREIGN, 0), (.HI_FN_STAT_REG_FOREIGN, 0), (.HI_FN_STAT_WIN_MISS, 0)]
    let w := (State.armIn { u with fns := u.fns.del f } (.quiesce f) (ms 10)).armIn (.flr f) 0
    Gives (.flr f) s (if f % 256 = 0 then w.clearVfs (f / 256) else w)) ∧
  (∀ s f d, s.timers.look (.flr f) = some d → let u := at_ s (.flr f) d
    u.vfLeaving.contains f = false → Gives (.flrComplete f) s (u.wr .HI_FN_STATE_STATE (fnIdx f) 1)) ∧
  (∀ s f d, s.timers.look (.flr f) = some d → let u := at_ s (.flr f) d
    let v : State := { u with vfLeaving := u.vfLeaving.filter fun g => decide (g ≠ f) }
    u.vfLeaving.contains f = true → v.fnExists f = false →
    Gives (.flrComplete f) s ((v.wr .HI_FN_STATE_STATE (fnIdx f) 0).disarm (.quiesce f)).settleAll) ∧
  (∀ s p, s.phase = .running → s.vfEnable.contains p = true → s.fnState (p * 256) ≠ 3 →
    Gives (.vfEnableClear p) s (s.clearVfs p)) ∧
  (∀ s p n, s.phase = .running → p < 2 → s.fnExists (p * 256) = true → s.fnState (p * 256) ≠ 3 → n ≤ 252 →
    Gives (.vfEnableSet p n) s
      { s.wr .HI_PORT_NUMVFS p n with vfEnable := s.vfEnable.filter (fun k => decide (k ≠ p)) ++ [p] }) ∧
  (∀ s f v, s.phase = .running → s.fnExists f = true → s.fnState f ≠ 3 → v < vectorsOf f →
    Gives (.msixUnmask f v) s (s.unmaskVec f v))

/-- The slot is powered on and off, leaves reset, settles; presence and the button are reported; containment freezes and is released; the
attached device's writes are forwarded; links come up and go down; a host read times out (R426, R427, R441 to R447). -/
def Obligations.slotComplete : Prop :=
  (∀ s, s.phase = .running → s.slotOn = true → s.flag .HI_SLOT_STATUS_SETTLE 0 = false → s.flag .HI_SLOT_CTL_PWR_ON 0 = false →
    s.flag .EF_STATUS_FET_FAIL 1 = false → Gives .slotPwrOn s ((s.wr .HI_SLOT_CTL_PWR_ON 0 1).efStart 1)) ∧
  (∀ s, s.phase = .running → s.slotOn = true → s.flag .HI_SLOT_CTL_PWR_ON 0 = true → Gives .slotPwrOff s s.slotOff) ∧
  (∀ s d, s.timers.look .perst = some d → let u := at_ s .perst d
    u.slotOn = true → u.flag .EF_STATUS_PG 1 = true →
    Gives .slotPerstRelease s { u.emit (.perst false) with perst := false }) ∧
  (∀ s d, s.timers.look .settle = some d →
    Gives .settleExpiry s ((at_ s .settle d).wr .HI_SLOT_STATUS_SETTLE 0 0).slotEvent) ∧
  (∀ s, s.phase = .running → s.slotOn = true → s.flag .HI_SLOT_STATUS_PRESENCE 0 = false →
    Gives (.presenceChange true) s
      (((s.setFlag .HI_SLOT_STATUS_PRESENCE 0 true).wr .HI_SLOT_STATUS_PDC 0 1).incWrap .HI_SLOT_STATUS_PRES_SEQ 0 1).slotEvent) ∧
  (∀ s, s.phase = .running → s.slotOn = true → s.flag .HI_SLOT_STATUS_PRESENCE 0 = true →
    let t := ((s.setFlag .HI_SLOT_STATUS_PRESENCE 0 false).wr .HI_SLOT_STATUS_PDC 0 1).slotEvent
    Gives (.presenceChange false) s (if t.flag .HI_SLOT_CTL_SURPRISE_OFF && t.flag .HI_SLOT_CTL_PWR_ON then t.slotOff else t)) ∧
  (∀ s, s.phase = .running → s.slotOn = true →
    let t := s.wr .HI_SLOT_STATUS_ABP 0 1
    Gives .attentionButton s (if s.flag .HI_SLOT_STATUS_ABP then t else t.slotEvent)) ∧
  (∀ s cause, s.phase = .running → s.slotOn = true → 1 ≤ cause → cause ≤ 4 →
    (cause ≠ 4 ∨ s.flag .HI_SLOT_CTL_PWR_ON 0 = true) → Gives (.containmentFreeze cause) s (s.slotError cause)) ∧
  (∀ s, s.phase = .running → s.slotOn = true → Gives .containmentRelease s (s.wr .HI_SLOT_STATUS_FROZEN 0 0)) ∧
  (∀ s data, s.phase = .running → s.fatal = false → s.slotOn = true → s.flag .HI_SLOT_STATUS_DL_ACTIVE 0 = true → data < 64 →
    Gives (.attachedMsiWrite (s.rd .HI_HB_MSI_ADDR * 4096) data) s (s.msix 0 (s.rd .HI_HB_MSI_HB_VEC_BASE + data))) ∧
  (∀ s, s.phase = .running → s.fatal = false → s.slotOn = true → s.flag .HI_SLOT_STATUS_DL_ACTIVE 0 = true →
    Gives .attachedRequest s ((s.count 260 5).emit (.hostReply 256 none false))) ∧
  (∀ s p, s.phase = .running → p < 2 → s.portMode p = 0 →
    Gives (.pcieLinkDown p) s ((s.portLink p 0 0 0 false).flrFunc (p * 256))) ∧
  (∀ s p speed width flit, s.phase = .running → p < 2 → linkOk speed width = true → s.portMode p = 0 →
    Gives (.pcieLinkUp p speed width flit) s (s.portLink p 1 speed width flit)) ∧
  (∀ s id d x, s.timers.look (.completion id) = some d → let u := at_ s (.completion id) d
    u.xfers.look id = some x →
    let f := (segFunc x.segs).getD 0
    let v := u.count (hostUnit f) 4
    Gives (.completionTimeout id) s ((if v.isAttached f then v.slotError 2 else v).xferFail id).settleAll)

/-- A channel is commanded on and off, gains and loses power-good, trips, regulates, fails and is measured (R495 to R500). -/
def Obligations.efuseComplete : Prop :=
  (∀ s c, s.phase ≠ .auxHeld → s.efOwned c = true → s.flag .EF_CTL_ON c = false → s.flag .EF_STATUS_FET_FAIL c = false →
    Gives (.efCommandOn c) s ((s.wr .EF_CTL_ON c 1).efStart c)) ∧
  (∀ s c, s.phase ≠ .auxHeld → s.efOwned c = true → s.flag .EF_CTL_ON c = true →
    Gives (.efCommandOff c) s ((s.wr .EF_CTL_ON c 0).efStop c)) ∧
  (∀ s c, s.phase ≠ .auxHeld → c < 2 → s.efState c = efRamp →
    let t := s.wrAll c [(.EF_STATUS_STATE, efOn), (.EF_STATUS_PG, 1)]
    Gives (.efGateAbove8v c) s (if c = 0 then t.emit (.efaPg true) else if t.slotOn then t.armIn .perst (ms 100) else t)) ∧
  (∀ s c, s.phase ≠ .auxHeld → c < 2 → Gives (.efGateBelow7v5 c) s (s.efPgClear c)) ∧
  (∀ s c, s.phase ≠ .auxHeld → c < 2 → (s.efState c = efRamp ∨ s.efState c = efOn) → Gives (.efFastTrip c) s (s.efTrip c 1)) ∧
  (∀ s c d, s.timers.look (.efReg c) = some d → c < 2 → Gives (.efTimerTrip c) s ((at_ s (.efReg c) d).efTrip c 2)) ∧
  (∀ s c, s.phase ≠ .auxHeld → c < 2 → 10 * s.rd .EF_CFG_FET_TMAX c < s.rd .EF_STATUS_FET_T c →
    Gives (.efFetOtTrip c) s (s.efTrip c 3)) ∧
  (∀ s c, s.phase ≠ .auxHeld → c < 2 → (s.efState c = efOff ∨ s.efState c = efTripped) → s.flag .EF_STATUS_FET_FAIL c = false →
    Gives (.efFetFail c) s ((s.wr .EF_STATUS_FET_FAIL c 1).raise (240 + c))) ∧
  (∀ s c vin vout iout diode, s.phase ≠ .auxHeld → c < 2 →
    Gives (.efModelUpdate c vin vout iout diode) s (s.efUpdate c vin vout iout diode)) ∧
  (∀ s c on, s.phase ≠ .auxHeld → c < 2 → Gives (.efRegulation c on) s (s.efRegulate c on))

/-- A sensor is read, fails, and takes thresholds; the governor evaluates, its regulator answers or not; gradients warn and fault
(R36, R38, R39, R42, R43, R452, R453, R464). -/
def Obligations.sensorsComplete : Prop :=
  (∀ s i v, s.phase ≠ .auxHeld → i < 147 → Gives (.sensorReading i v) s (s.sensorTake i v)) ∧
  (∀ s i, s.phase ≠ .auxHeld → i < 147 →
    Gives (.sensorFail i) s ((s.setNow ((s.sensAt.look i).getD 0 + 10 * sensorPeriod i)).wr .MG_SENS_FAIL i 1)) ∧
  (∀ s i v, s.phase ≠ .auxHeld → i < 147 →
    let c := signedOf 16 (Fld.of .MG_SENS_THR_CRIT v)
    let w := signedOf 16 (Fld.of .MG_SENS_THR_WARN v)
    (if Fld.of .MG_SENS_THR_LOW v = 1 then c ≤ w else w ≤ c) →
    let t := s.setFields i v [.MG_SENS_THR_CRIT, .MG_SENS_THR_WARN, .MG_SENS_THR_LOW]
    Gives (.mgSensThrWrite i v) s (if (t.sensAt.look i).isSome then t.sensorJudge i (t.rd .MG_SENS_VALUE i) else t)) ∧
  (∀ s rs, s.phase ≠ .auxHeld → s.timers.look .pace = none → Gives (.paceEvaluation rs) s (s.paceEval rs).paceNext) ∧
  (∀ s rs d, s.phase ≠ .auxHeld → s.timers.look .pace = some d → Gives (.paceEvaluation rs) s ((at_ s .pace d).paceEval rs).paceNext) ∧
  (∀ s, s.phase ≠ .auxHeld → s.avs.isSome = true →
    Gives .avsAck s (State.armIn { s.disarm .avs with avs := none } .pace (us 2))) ∧
  (∀ s d a, s.timers.look .avs = some d → let u := at_ s .avs d
    u.avs = some a →
    Gives .avsTimeout s
      (if a.attempts < 3 then { (u.emit (.avs a.volt)).armIn .avs (us 100) with avs := some { a with attempts := a.attempts + 1 } }
       else (State.armIn { u.wr .PW_PACE_STATUS_AVS_FAIL 0 1 with avs := none } .pace (us 2)).raise 233)) ∧
  (∀ s, s.phase ≠ .auxHeld → Gives .avsFailClear s (s.wr .PW_PACE_STATUS_AVS_FAIL 0 0)) ∧
  (∀ s v, s.phase ≠ .auxHeld → let lo := Fld.of .PW_PACE_CTL_FLOOR_MV v
    let hi := Fld.of .PW_PACE_CTL_CEIL_MV v
    let fx := Fld.of .PW_PACE_CTL_FIXED_MV v
    660 ≤ lo → 680 ≤ hi → hi ≤ 900 → lo ≤ fx → fx ≤ hi →
    Gives (.pwPaceCtlWrite v) s
      (s.setFields 0 v [.PW_PACE_CTL_FLOOR_MV, .PW_PACE_CTL_CEIL_MV, .PW_PACE_CTL_FIXED_MV, .PW_PACE_CTL_TARGET, .PW_PACE_CTL_MODE])) ∧
  (∀ s r, s.phase ≠ .auxHeld → r < 24 →
    Gives (.paceGradientWarning r) s
      { s.logRec 1 blkPower .paceGradient r [r] with gradients := s.gradients.filter (fun k => decide (k ≠ r)) ++ [r] } ∧
    Gives (.paceGradientFault r) s (s.raise 232))

/-! ## Whole-machine rules -/

namespace Sys2Proof.Claims

/-- The parts of the state that each command may touch, by its own effect: the register groups, the event log, the memories, the tallies, the
routing banks, the job slots and the locks. `.glb` to `.ef` are register groups by the block's name. -/
def touches : Instr → List Part
  | .avsAck | .paceGradientFault .. | .debugChallengeRead .. | .noticeReceive .. | .unitOpComplete .. | .msixUnmask .. | .mctpControl ..
  | .collectorSelfCheckFail => []
  | .pwrokMainAssert .. | .hiFnStatRead .. | .attentionButton | .containmentRelease | .vfEnableSet .. | .pcieLinkUp .. => [.hi]
  | .pwResetMgmt | .trialConfirm | .pldmUpdateComponent .. => [.mg]
  | .sagWarning .. | .avsFailClear => [.pw]
  | .efCommandOn .. | .efCommandOff .. | .efGateAbove8v .. | .efGateBelow7v5 .. | .efFetFail .. | .efRegulation .. => [.ef]
  | .paceGradientWarning .. | .headWordWriteFailure .. | .recalRequest .. | .logFlashCopy | .mgLogLostRead => [.log]
  | .keyReqReceive .. | .epochKeyErase .. | .fmSessionExpiry .. | .regionQuarantineEnd .. | .streamInject .. | .ackDelayExpiry ..
  | .idleCloseStart .. | .revokeRepeat .. | .rejoinRepeat .. | .collCreditReturn .. | .routerHeaderArrival .. | .cutThroughStart ..
  | .mgDropExpiry .. | .nackRepeatTimeout .. | .helloRepeat .. | .trainReqRepeat .. | .laneRequestRepeat .. | .trigOutputFire ..
  | .timerFire .. | .eventWaitTimeout .. | .ferryRead .. | .ferryOwn .. | .ferryUpgrade .. | .agentRead .. | .ferryEviction ..
  | .poisonTimeout .. | .slotPerstRelease | .attachedMsiWrite .. | .attachedRequest | .logRead .. | .ecCntWrite .. | .ecHistCfgWrite ..
  | .histogramSample .. | .snapshotCapture => [.ec]
  | .notYetReceive .. => [.jobs]
  | .tallyArrayWrite .. => [.tallies]
  | .mfQuotaWrite .. => [.mf]
  | .fecLockGain .. | .lnLaneSerRead .. | .lnLanePrbsRead .. | .prbsCheckerLock .. => [.ln]
  | .trigCaptureEdge .. | .mtTrigCfgWrite .. | .mtTrigCapRead .. | .mtTrigStatRead .. | .mtLineRead .. => [.mt]
  | .fxCfgWrite .. | .fxFaultRead .. => [.fx]
  | .lkCfgWrite .. => [.lk]
  | .txSpanBaseWrite .. => [.tx]
  | .commit .. => [.glb]
  | .ftSrcRead .. => [.ft]
  | .iamelWatchdogReset | .mgSensThrWrite .. => [.mg, .log]
  | .unitResetComplete => [.ft, .ec]
  | .sagWarningRelease .. => [.hi, .pw]
  | .avsTimeout => [.ec, .pw]
  | .pwPaceCtlWrite .. => [.log, .pw]
  | .renewalConfirmReceive .. | .switchReceive .. => [.fx, .jobs]
  | .renewalRepeat .. => [.fx, .ec]
  | .ringFetch .. => [.qu, .ec]
  | .quNotifyWrite .. | .quPiRead .. => [.qu, .hi]
  | .multicastDataReceive .. | .nackRetryExpiry .. | .rtoExpiry .. | .mgStatusReceive .. | .telemetryRequest .. | .ecSelWrite .. => [.log, .ec]
  | .hdRegWrite .. => [.hd, .log]
  | .flitTransmit .. | .holdExpiry .. | .portDisableDrainEnd .. => [.ll, .ec]
  | .fecLockLoss .. | .fastPathTimeout .. => [.ln, .ec]
  | .trainingFrameReceive .. => [.ll, .ln]
  | .ppsEdge => [.mt, .log]
  | .extReferenceLoss | .parentLoss | .holdoverExpiry => [.mt, .ec]
  | .lkGroupWrite .. => [.lk, .log]
  | .txAsidWrite .. => [.tx, .log]
  | .quiesceExpiry .. => [.hi, .ec]
  | .hiWinWrite .. | .hiVfWrite .. => [.hi, .log]
  | .slotPwrOn => [.hi, .ef]
  | .sensorFail .. => [.mg, .ec]
  | .keyReqRetry .. | .keyReqUnanswered .. => [.fx, .ec, .jobs]
  | .keyLeaderTakeover .. => [.glb, .fx, .jobs]
  | .spdmMessage .. => [.hi, .log, .ec]
  | .queue0ConfigWrite .. => [.qu, .hi, .log]
  | .tpCfgWrite .. => [.tp, .log, .ec]
  | .fullTrainingRestart .. => [.ll, .ln, .ec]
  | .laneFailureNarrow .. => [.ll, .ln, .log]
  | .agentWrite .. | .agentAtomic .. => [.ec, .mem, .scratch]
  | .lkAcquire .. | .lkRelease .. | .lkClearOrphan .. | .lkWithdraw .. => [.log, .ec, .locks]
  | .enrol .. => [.glb, .log, .ec]
  | .sensorReading .. => [.mg, .log, .pw]
  | .efModelUpdate .. => [.mg, .log, .pw, .ef]
  | .paceEvaluation .. => [.mg, .log, .ec, .pw]
  | .renewalStart .. | .oldGenerationErase .. => [.glb, .fx, .ec, .jobs]
  | .dataFlitReceive .. | .creditFlitReceive .. | .replayTimeout .. | .portDown .. | .helloReceive .. | .trainFlitReceive ..
  | .retrainLimitExpiry .. => [.ll, .ln, .log, .ec]
  | .lkWordAcquire .. | .lkWordRelease .. => [.log, .ec, .mem, .scratch]
  | .timeFlitReceive .. => [.ll, .ln, .mt, .log, .ec]
  | .auxResetRelease .. => [.fx, .hi, .mg, .log, .ec, .ef]
  | .ringReadComplete .. | .coalTimeExpiry .. | .heldResumeApply .. | .regionDeregisterComplete .. | .invalidateComplete | .snapshot ..
  | .revokeFailTime .. | .snapshotComplete .. => [.qu, .log, .ec, .mem, .hostMem, .tallies]
  | .bmeSet .. => [.hi, .log, .ec, .mem, .hostMem, .tallies]
  | .mainResetComplete => [.ll, .ln, .mt, .fx, .mg, .ec, .scratch]
  | .pwEnWrite .. => [.ll, .ln, .fx, .log, .ft, .ec, .pw]
  | .generationSwitch .. => [.glb, .fx, .ec, .mem, .hostMem, .tallies, .jobs]
  | .doorbell .. | .cmdRun .. | .cmdHalt .. | .cmdResume .. | .cmdResumeSkip .. | .queueApertureAccess .. | .settleExpiry
    => [.qu, .hi, .log, .ec, .mem, .hostMem, .tallies]
  | .ferryDrain .. | .ferryDrainComplete .. | .ferryResume .. | .invalidate .. => [.qu, .fx, .log, .ec, .mem, .hostMem, .tallies]
  | .keyRespReceive .. => [.glb, .qu, .log, .ec, .mem, .hostMem, .tallies, .jobs]
  | .windowOpen .. | .windowRevoke .. | .regionRegister .. | .regionDeregister .. => [.qu, .fx, .log, .ec, .mem, .hostMem, .tallies, .jobs]
  | .whistlePacketReceive .. | .whistleFire .. => [.qu, .hd, .mt, .log, .ec, .mem, .hostMem, .tallies]
  | .activateFirmware .. => [.qu, .fx, .mg, .log, .ec, .mem, .hostMem, .tallies]
  | .parkEnter => [.qu, .ln, .fx, .log, .ec, .pw, .mem, .hostMem, .tallies]
  | .jobOpen .. | .keyInstall .. => [.glb, .qu, .tx, .log, .ec, .mem, .hostMem, .tallies, .jobs]
  | .treeBuild .. => [.qu, .hd, .fx, .log, .ec, .mem, .hostMem, .tallies, .jobs]
  | .loadProgram .. => [.qu, .fx, .log, .ec, .mem, .hostMem, .scratch, .tallies, .jobs]
  | .queueBind .. => [.qu, .fx, .hi, .log, .ec, .mem, .hostMem, .tallies, .jobs]
  | .alu .. | .cmp .. | .pred .. | .amo .. | .sysFence .. | .sysYield .. | .sysNow .. | .sysSelf .. | .jr .. | .addi .. | .andi ..
  | .ori .. | .xori .. | .movi .. | .movk .. | .cmpi .. | .shi .. | .ld .. | .lds .. | .st .. | .br .. | .brl .. | .sendReply ..
  | .sendMcast .. | .matchProbe .. | .matchClaim .. | .moveCopy .. | .moveFill .. | .tallyUnitAdd .. | .tallyRead .. | .tallyWait ..
  | .lockAcquire .. | .lockTry .. | .lockRelease .. | .eventWait .. | .eventPost .. | .timerArm .. | .timerCancel .. | .enqueue ..
    => [.qu, .fx, .log, .ec, .mem, .hostMem, .scratch, .tallies, .locks]
  | .parkExit => [.qu, .ll, .ln, .fx, .log, .ec, .pw, .mem, .hostMem, .tallies]
  | .doorbellRing .. => [.qu, .fx, .hi, .log, .ec, .mem, .hostMem, .scratch, .tallies, .locks]
  | .routeWrite .. | .routeCommit .. => [.qu, .ll, .ln, .xb, .fx, .log, .ec, .mem, .hostMem, .tallies, .banks]
  | .unitResetPort .. | .unitResetLaneQuad .. | .unitResetCatcher ..
    => [.qu, .hd, .ll, .ln, .fx, .log, .ec, .mem, .hostMem, .scratch, .tallies, .locks]
  | .liveUpdateUnit .. | .mgmtResetComplete => [.qu, .ll, .ln, .xb, .fx, .mg, .log, .ec, .mem, .hostMem, .scratch, .tallies, .banks]
  | .keyFailDeadline .. => [.glb, .qu, .mf, .ct, .hd, .fx, .tx, .hi, .log, .ec, .mem, .hostMem, .tallies, .jobs, .locks]
  | .glitchDetect | .generationExpiry .. | .jobClose .. | .jobCloseManifestTimeout .. | .debugUnlock .. | .waitConditionMet ..
  | .waitTimeoutExpiry .. | .cancelDecision .. | .dataReceive .. | .ackReceive .. | .nackBusyReceive .. | .respDataReceive ..
  | .respStatusReceive .. | .contextFail .. | .closeReqReceive .. | .closeAckReceive .. | .closeRefuseReceive .. | .jobCloseQuietTimeout ..
  | .quietExpiry .. | .contextFetchComplete .. | .moverTransferComplete .. | .flushReadComplete .. | .hostAtomicComplete ..
  | .revokeReceive .. | .confirmReceive .. | .revokeDoneReceive .. | .unexpectedCopyComplete .. | .spillRefill .. | .catcherRegWrite ..
  | .joinReceive .. | .partReceive .. | .escapeReceive .. | .resultReceive .. | .collDoneReceive .. | .collFailReceive .. | .collTimeout ..
  | .rejoinReceive .. | .rerunReceive .. | .collCreditReceive .. | .handlerDispatch .. | .budgetExpiry .. | .sysDone .. | .sysBreak ..
  | .sendRequest .. | .matchPost .. | .matchDeliver .. | .bmeClear .. | .d3hotEntry .. | .flr .. | .flrComplete .. | .vfEnableClear ..
  | .pcieLinkDown .. | .completionTimeout .. | .containmentFreeze .. | .regionEntryFetchComplete ..
    => [.glb, .qu, .mf, .ct, .hd, .fx, .tx, .hi, .log, .ec, .mem, .hostMem, .scratch, .tallies, .jobs, .locks]
  | .efFastTrip .. | .efTimerTrip .. | .efFetOtTrip .. | .slotPwrOff | .presenceChange ..
    => [.glb, .qu, .mf, .ct, .hd, .fx, .tx, .hi, .log, .ec, .ef, .mem, .hostMem, .scratch, .tallies, .jobs, .locks]
  | .nop .. | .endCmd .. | .fence .. | .cancel .. | .put .. | .puti .. | .get .. | .atomic .. | .send .. | .postrecv .. | .tallyAdd ..
  | .waitTally .. | .waitHead .. | .waitTime .. | .whistle .. | .collective .. | .loop .. | .skipIf .. | .call ..
    => [.glb, .qu, .mf, .ct, .hd, .mt, .fx, .tx, .hi, .log, .ec, .mem, .hostMem, .scratch, .tallies, .jobs, .locks]
  | .fatalEntry .. => [.glb, .qu, .mf, .ct, .hd, .fx, .tx, .hi, .log, .ft, .ec, .mem, .hostMem, .scratch, .tallies, .jobs, .locks]
  | .unitResetFerry .. | .unitResetHuddle ..
    => [.glb, .qu, .mf, .ct, .hd, .ll, .ln, .fx, .tx, .hi, .log, .ec, .mem, .hostMem, .scratch, .tallies, .jobs, .locks]
  | .faultAssertion .. | .wireFault .. | .ftForceAssert .. | .ftForceWire .. | .ftReactWrite ..
    => [.glb, .qu, .mf, .ct, .hd, .ll, .ln, .fx, .tx, .hi, .log, .ft, .ec, .mem, .hostMem, .scratch, .tallies, .jobs, .locks]
  | .mgCmdReceive .. | .welrirelCmd ..
    => [.glb, .qu, .mf, .ct, .hd, .ll, .ln, .xb, .fx, .tx, .hi, .log, .ec, .mem, .hostMem, .scratch, .tallies, .banks, .jobs, .locks]
  | .hiCtlDataRead .. => [.glb, .qu, .tp, .mf, .ct, .hd, .ll, .ln, .xb, .mt, .fx, .lk, .tx, .hi, .mg, .log, .ft, .ec, .pw, .ef]
  | .queueStartTurn .. | .heldCommandResume ..
    => [.glb, .qu, .mf, .ct, .hd, .ll, .ln, .xb, .mt, .fx, .tx, .hi, .log, .ec, .mem, .hostMem, .scratch, .tallies, .banks, .jobs, .locks]
  | .auxPowerOnReset | .pwrokMainDeassert | .resetNAssert .. | .pwResetWarm | .sagReset .. | .bar4Access .. | .hiCtlDataWrite ..
  | .registerWrite ..
    => [.glb, .qu, .tp, .mf, .ct, .hd, .ll, .ln, .xb, .mt, .fx, .lk, .tx, .hi, .mg, .log, .ft, .ec, .pw, .ef, .mem, .hostMem, .scratch, .tallies, .banks, .jobs, .locks]

/-- A command answers a next state: `u` from its own effect, or what the fault collector makes of `u` where the effect raised fault sources. -/
def Answers (c : Instr) (s u : State) : Prop := exec c s = .next u ∨ (u.raised ≠ [] ∧ exec c s = .next u.collected)

end Sys2Proof.Claims

/-- Every step takes the command at the front of the queue and answers what the command does with the queue's rest; with nothing waiting it
idles for one tick of machine time (a choice of the model, log 2). -/
def Obligations.stepTakesTheFrontCommand : Prop :=
  (∀ c rest (s : State), step { s with pending := c :: rest } = exec c { s with pending := rest }) ∧
  (∀ s : State, s.pending = [] → step s = .next s.tick)

/-- The machine after reset has nothing waiting and the shape that every state of a run has; every register field stands at the reset value of its row
(for the variant), and the tallies are 0 (a choice of the model, log 6). -/
def Obligations.resetIsWellShaped : Prop :=
  State.reset.Inv ∧ State.reset.pending = [] ∧ (∀ n, State.reset.tally n = 0) ∧
  (∀ f i, State.reset.rd f i = f.resetAt State.reset.variant i)

/-- Every command, in every state, answers a next state: none ends in a fault or a refusal. It takes nothing from the queue and puts nothing
into it, and it leaves the variant. -/
def Obligations.everyCommandAnswers : Prop :=
  ∀ c s, ∃ t, exec c s = .next t ∧ t.pending = s.pending ∧ t.variant = s.variant

/-- Every step from a well-shaped state leads to a well-shaped state: the memories stay in their canonical form, every register field within its
width, every tally within 64 bits. -/
def Obligations.everyStepKeepsTheShape : Prop :=
  ∀ s t : State, s.Inv → step s = .next t → t.Inv

/-- Every command keeps to the parts of the state that its row may touch: every register field of another group, the event log, the memories, the
tallies, the routing banks, the job slots and the locks stay as they were, up to what the fault collector does with raised sources. -/
def Obligations.everyCommandKeepsToItsParts : Prop :=
  ∀ c s, ∃ u, Answers c s u ∧ Leaves (touches c) s u

/-! ## Rules over shared operations -/

namespace Sys2Proof.Claims

/-- An instruction that writes one general register: its thread, its fields, the register, its guard. -/
def writesReg : Instr → Option (Nat × Nat × List (Nat × Nat) × Nat × Option (Nat × Bool))
  | .alu f t rd ra rb pg gn fn => some (f, t, fmtA 0x00 rd ra rb pg gn fn, rd, some (pg, gn))
  | .sysNow f t rd ra rb pg gn => some (f, t, fmtA 0x04 rd ra rb pg gn 3, rd, some (pg, gn))
  | .sysSelf f t rd ra rb pg gn => some (f, t, fmtA 0x04 rd ra rb pg gn 4, rd, some (pg, gn))
  | .addi f t rd ra imm => some (f, t, fmtB 0x08 rd ra imm, rd, none)
  | .andi f t rd ra imm => some (f, t, fmtB 0x09 rd ra imm, rd, none)
  | .ori f t rd ra imm => some (f, t, fmtB 0x0A rd ra imm, rd, none)
  | .xori f t rd ra imm => some (f, t, fmtB 0x0B rd ra imm, rd, none)
  | .movi f t rd ra imm => some (f, t, fmtB 0x0C rd ra imm, rd, none)
  | .movk f t rd k imm => some (f, t, fmtB 0x0D rd k imm, rd, none)
  | .shi f t rd ra imm => some (f, t, fmtB 0x0F rd ra imm, rd, none)
  | _ => none

/-- An instruction that writes one predicate: its thread, its fields, the predicate, its guard. -/
def writesPrd : Instr → Option (Nat × Nat × List (Nat × Nat) × Nat × Option (Nat × Bool))
  | .cmp f t rd ra rb pg gn fn => some (f, t, fmtA 0x01 rd ra rb pg gn fn, rd, some (pg, gn))
  | .pred f t rd ra rb pg gn fn => some (f, t, fmtA 0x02 rd ra rb pg gn fn, rd, some (pg, gn))
  | .cmpi f t rd ra imm => some (f, t, fmtB 0x0E rd ra imm, rd % 8, none)
  | _ => none

/-- Whether a guard holds. -/
def guardHolds (v : Invoc) (g : Option (Nat × Bool)) : Prop := ∀ pg gn, g = some (pg, gn) → v.prd pg ≠ gn

/-- Every other thread stays but for its count of the slots in which it was passed over, and every part but the ferry registers. -/
def OtherThreads (s u : State) (f t : Nat) : Prop :=
  (∀ g k, (g, k) ≠ (f, t) → u.thread g k = { s.thread g k with passed := (u.thread g k).passed }) ∧ Leaves [.fx] s u

/-- Outside `n` bytes at an address a memory reads as before. -/
def SameOutside (m n : Memory) (a len : Nat) : Prop := ∀ b, (b < a ∨ a + len ≤ b) → memGet n b = memGet m b

/-- The bytes at an address. -/
def BytesAt (m : Memory) (a : Nat) (bs : List Byte) : Prop := memRead m a bs.length = bs

/-- No lock is free while it has a waiter (R404). -/
def NoIdleWaiter (s : State) : Prop := ∀ n, (s.lock n).owner = none → (s.lock n).waiters = []

end Sys2Proof.Claims

/-- An instruction that writes one register or one predicate, issues and is not guarded off leaves every other register and predicate of its
invocation, every other thread, every memory, tally and lock and every register field outside the ferry block as they were; g0 and p0 take
nothing. -/
def Obligations.instructionsKeepToTheirDestination : Prop :=
  (∀ c (s s' : State) f t fields rd g v, writesReg c = some (f, t, fields, rd, g) → Issues s s' f t fields v → guardHolds v g →
    ∃ (u : State) (w : Invoc), exec c s = .next u.collected ∧ (u.thread f t).inv = some w ∧ w.pc = v.pc + 1 ∧
      (∀ r, (r ≠ rd ∨ r = 0) → w.reg r = v.reg r) ∧ (∀ p, w.prd p = v.prd p) ∧ OtherThreads s u f t) ∧
  (∀ c (s s' : State) f t fields rd g v, writesPrd c = some (f, t, fields, rd, g) → Issues s s' f t fields v → guardHolds v g →
    ∃ (u : State) (w : Invoc), exec c s = .next u.collected ∧ (u.thread f t).inv = some w ∧ w.pc = v.pc + 1 ∧
      (∀ p, (p ≠ rd ∨ p = 0) → w.prd p = v.prd p) ∧ (∀ r, w.reg r = v.reg r) ∧ OtherThreads s u f t)

/-- What stores to the wharf stores where it says and nowhere else: ST at its base plus offset, in scratch or the wharf; an agent's write and
atomic at their address; a word lock at its word. Every other byte of the wharf, package memory and scratch, and all of host memory and the
tallies, read as before. (That the memories have their canonical form is kept by every step: everyStepKeepsTheShape.) -/
def Obligations.storesKeepToTheirBytes : Prop :=
  (∀ (s s' : State) f t rs ra sz mo off v, s.Inv → Issues s s' f t (fmtC 0x12 rs ra sz mo off) v →
    let a := offAddr (v.reg ra) off
    let bs := leBytes (2 ^ sz) (v.reg rs)
    s'.accessFault f v a (2 ^ sz) false = none →
    ∃ u : State, exec (.st f t rs ra sz mo off) s = .next u.collected ∧ u.hostMem = s.hostMem ∧ u.tallies = s.tallies ∧
      (isScratch a = true → u.mem = s.mem ∧ SameOutside s.scratch u.scratch (65536 * f + a) (2 ^ sz) ∧
        BytesAt u.scratch (65536 * f + a) bs) ∧
      (isScratch a = false → u.scratch = s.scratch ∧ SameOutside s.mem u.mem a (2 ^ sz) ∧ BytesAt u.mem a bs)) ∧
  (∀ (s : State) a bs, s.Inv → s.phase = .running → s.inWharf a = true → s.inWharf (a + bs.length - 1) = true →
    ∃ u : State, exec (.agentWrite a bs) s = .next u.collected ∧ u.hostMem = s.hostMem ∧ u.tallies = s.tallies ∧ u.scratch = s.scratch ∧
      SameOutside s.mem u.mem a bs.length ∧ BytesAt u.mem a bs) ∧
  (∀ (s : State) a aop x y big, s.Inv → s.phase = .running → let n := if big then 8 else 4
    s.inWharf a = true → s.inWharf (a + n - 1) = true → a % n = 0 → s.poisoned a n = false →
    ∃ u : State, exec (.agentAtomic a aop x y big) s = .next u.collected ∧ u.hostMem = s.hostMem ∧ u.tallies = s.tallies ∧
      u.scratch = s.scratch ∧ SameOutside s.mem u.mem a n ∧
      BytesAt u.mem a (leBytes n (atomicNew aop (8 * n) false (memNat s.mem a n) x y))) ∧
  (∀ (s : State) a, s.Inv → s.phase = .running → s.flag .LK_CFG_MAINT = true → s.inWharf a = true → a % 8 = 0 →
    ∃ u : State, exec (.lkWordAcquire identCtl a) s = .next u.collected ∧ u.hostMem = s.hostMem ∧ u.tallies = s.tallies ∧
      u.scratch = s.scratch ∧ SameOutside s.mem u.mem a 8 ∧
      (memNat s.mem a 8 = 0 → BytesAt u.mem a (leBytes 8 (0x1_0000 + identCtl)))) ∧
  (∀ (s : State) a, s.Inv → s.phase = .running → s.flag .LK_CFG_MAINT = true → s.inWharf a = true → a % 8 = 0 →
    ∃ u : State, exec (.lkWordRelease identCtl a) s = .next u.collected ∧ u.hostMem = s.hostMem ∧ u.tallies = s.tallies ∧
      u.scratch = s.scratch ∧ SameOutside s.mem u.mem a 8 ∧
      (memNat s.mem a 8 = 0x1_0000 + identCtl → BytesAt u.mem a (leBytes 8 0)))

/-- A write to QU_NOTIFY that puts VECTOR, COAL_CNT or COAL_TIME outside its range (VECTOR 0 to 2,047 on a physical function and 0 to 63 on a
virtual one, COAL_CNT 1 to 64, COAL_TIME 1 to 16) leaves that field unchanged, and the other fields take what is written (R108). -/
def Obligations.notifyFieldOutOfRangeStays : Prop :=
  ∀ (s : State) q f v, s.phase = .running → q < 65536 → s.reachesQueue q f = true →
    ∃ u : State, exec (.quNotifyWrite q f v) s = .next u.collected ∧
      u.rd .QU_NOTIFY_ARM_INDEX q = Fld.of .QU_NOTIFY_ARM_INDEX v ∧ u.rd .QU_NOTIFY_ARMED q = Fld.of .QU_NOTIFY_ARMED v ∧
      u.rd .QU_NOTIFY_MSIX_EN q = Fld.of .QU_NOTIFY_MSIX_EN v ∧
      u.rd .QU_NOTIFY_VECTOR q =
        (if Fld.of .QU_NOTIFY_VECTOR v ≤ (if s.qFunc q % 256 = 0 then 2047 else 63) then Fld.of .QU_NOTIFY_VECTOR v
         else s.rd .QU_NOTIFY_VECTOR q) ∧
      u.rd .QU_NOTIFY_COAL_CNT q =
        (if 1 ≤ Fld.of .QU_NOTIFY_COAL_CNT v ∧ Fld.of .QU_NOTIFY_COAL_CNT v ≤ 64 then Fld.of .QU_NOTIFY_COAL_CNT v
         else s.rd .QU_NOTIFY_COAL_CNT q) ∧
      u.rd .QU_NOTIFY_COAL_TIME q =
        (if 1 ≤ Fld.of .QU_NOTIFY_COAL_TIME v ∧ Fld.of .QU_NOTIFY_COAL_TIME v ≤ 16 then Fld.of .QU_NOTIFY_COAL_TIME v
         else s.rd .QU_NOTIFY_COAL_TIME q)

/-- A write to MG_SENS_THR[i] that gives CRIT a value nearer to normal than WARN, by LOW as the write gives it, is rejected whole, and an
event-log record is written: every threshold, and every register field outside the log's, stays (R464). -/
def Obligations.sensorThresholdsAreRejectedWhole : Prop :=
  ∀ (s : State) i v, s.phase ≠ .auxHeld → i < 147 →
    (if Fld.of .MG_SENS_THR_LOW v = 1 then signedOf 16 (Fld.of .MG_SENS_THR_WARN v) < signedOf 16 (Fld.of .MG_SENS_THR_CRIT v)
     else signedOf 16 (Fld.of .MG_SENS_THR_CRIT v) < signedOf 16 (Fld.of .MG_SENS_THR_WARN v)) →
    let u := s.logRejected (sensThrAddr i)
    exec (.mgSensThrWrite i v) s = .next u.collected ∧ ∀ f k, f.part ≠ .log → u.rd f k = s.rd f k

/-- Clearing a slot's VALID flushes every cached entry of that slot. A write to a register of a span whose VALID is set is discarded, except a
write of TX_SPAN_BASE with VALID 0, which clears VALID and changes no other field (R414). -/
def Obligations.spansNeverTakeEffectHalfWritten : Prop :=
  (∀ (s : State) a v, s.phase = .running → a < 4096 → s.flag .TX_ASID_LOCKED a = false → s.flag .TX_ASID_VALID a = true →
    Fld.of .TX_ASID_VALID v = 0 →
    ∃ u : State, exec (.txAsidWrite a 0 v) s = .next u.collected ∧ u.rd .TX_ASID_VALID a = 0 ∧
      (∀ e ∈ u.txCache, e.slot ≠ a) ∧ (∀ e ∈ u.walkCache, e.slot ≠ a)) ∧
  (∀ (s : State) a sp reg v, s.phase = .running → a < 4096 → sp < 8 → s.flag .TX_SPAN_BASE_VALID (8 * a + sp) = true →
    (reg ≠ 0 ∨ Fld.of .TX_SPAN_BASE_VALID v ≠ 0) → exec (.txSpanBaseWrite a sp reg v) s = .next s.collected) ∧
  (∀ (s : State) a sp v, s.phase = .running → a < 4096 → sp < 8 → s.flag .TX_ASID_LOCKED a = false →
    s.flag .TX_SPAN_BASE_VALID (8 * a + sp) = true → Fld.of .TX_SPAN_BASE_VALID v = 0 →
    ∃ u : State, exec (.txSpanBaseWrite a sp 0 v) s = .next u.collected ∧ u.rd .TX_SPAN_BASE_VALID (8 * a + sp) = 0 ∧
      ∀ f k, (f, k) ≠ (.TX_SPAN_BASE_VALID, 8 * a + sp) → u.rd f k = s.rd f k)

/-- A tally count has reached a threshold when their difference mod 2^64 lies below 2^63, whatever both have wrapped by; a head has reached an
index when it equals the index or the index is before it; a wait's and a skip's condition are these (R76, R106). -/
def Obligations.comparisonsHoldAcrossWraps : Prop :=
  (∀ c t : Nat, reached c t = true ↔ ((c : Int) - t) % 2 ^ 64 < 2 ^ 63) ∧
  (∀ c t k, reached ((c + k) % 2 ^ 64) ((t + k) % 2 ^ 64) = reached c t) ∧
  (∀ a b, a < 2 ^ 32 → b < 2 ^ 32 → (idxLe a b = true ↔ (a = b ∨ idxBefore a b = true))) ∧
  (∀ a b : Nat, idxBefore a b = true ↔ (1 ≤ ((b : Int) - a) % 2 ^ 32 ∧ ((b : Int) - a) % 2 ^ 32 ≤ 2 ^ 31 - 1)) ∧
  (∀ a b k, idxBefore (idxAdd a k) (idxAdd b k) = idxBefore a b) ∧
  (∀ (s : State) stop lt tt n tmo v, n < 2 ^ 18 → s.waitMet ⟨.tally, stop, lt, tt, n, tmo, v⟩ = reached (s.tally n) v) ∧
  (∀ (s : State) stop lt tt n tmo v, n < 65536 → s.waitMet ⟨.head, stop, lt, tt, n, tmo, v⟩ = idxLe v (s.rd .QU_HEAD_HEAD n)) ∧
  (∀ c v, skipCond 0 c v = reached c v ∧ skipCond 1 c v = !reached c v)

/-- A counter adds the weight of an event that it selects and wraps from 2^48 − 1 to 0, and a wrap sets OVF; OVF stays set, whatever it
counts (R477, R479); a tally adds modulo 2^64 (R105). -/
def Obligations.countersAndTalliesWrap : Prop :=
  (∀ (s : State) i w, let u := s.addCount i w
    u.rd .EC_CNT_COUNT i = (s.rd .EC_CNT_COUNT i + w) % 2 ^ 48 ∧
    (2 ^ 48 ≤ s.rd .EC_CNT_COUNT i + w → u.flag .EC_SEL_OVF i = true) ∧
    (s.flag .EC_SEL_OVF i = true → u.flag .EC_SEL_OVF i = true) ∧
    (s.rd .EC_CNT_COUNT i + w < 2 ^ 48 → u.rd .EC_SEL_OVF i = s.rd .EC_SEL_OVF i) ∧
    (∀ k, k ≠ i → u.rd .EC_CNT_COUNT k = s.rd .EC_CNT_COUNT k ∧ u.rd .EC_SEL_OVF k = s.rd .EC_SEL_OVF k)) ∧
  (∀ (s : State) u ev sub w k, k < 4 → s.unitOn u = true → s.selects (4 * u + k) 1 ev sub = true →
    (s.count u ev sub w).rd .EC_CNT_COUNT (4 * u + k) = (s.rd .EC_CNT_COUNT (4 * u + k) + w) % 2 ^ 48) ∧
  (∀ (s : State) u ev sub w k, k < 4 → s.selects (4 * u + k) 1 ev sub = false →
    (s.count u ev sub w).rd .EC_CNT_COUNT (4 * u + k) = s.rd .EC_CNT_COUNT (4 * u + k)) ∧
  (∀ (s : State) n v, (s.addTally n v).tally n = (s.tally n + v) % 2 ^ 64 ∧ ∀ k, k ≠ n → (s.addTally n v).tally k = s.tally k)

/-- No lock is free while it has a waiter: ACQUIRE, RELEASE, the release of a reset holder's locks and every host command on locks keep it so.
A release hands the lock at once to a waiter, in a group without priority to the one that has waited longest, and a requester that finds
the lock held joins the end of at most 64 (R404, R405, R406). -/
def Obligations.locksAreHandedOver : Prop :=
  (∀ (s : State) n ident, NoIdleWaiter s → NoIdleWaiter (s.acquireLock n ident).1) ∧
  (∀ (s : State) n orphan, NoIdleWaiter s → NoIdleWaiter (s.releaseLock n orphan)) ∧
  (∀ (s : State) ident, NoIdleWaiter s → NoIdleWaiter (s.dropLocks ident)) ∧
  (∀ c (s t : State), NoIdleWaiter s → s.raised = [] →
    (∃ n i w, c = .lkAcquire n i w ∨ c = .lkRelease n i w ∨ c = .lkClearOrphan n i w ∨ c = .lkWithdraw n i w) →
    exec c s = .next t → NoIdleWaiter t) ∧
  (∀ (s : State) n orphan w r, (s.lock n).waiters = w :: r → s.flag .LK_GROUP_PRIO_MODE (lockGroup n) = false →
    ((s.releaseLock n orphan).lock n).owner = some w ∧ ((s.releaseLock n orphan).lock n).waiters = r) ∧
  (∀ (s : State) n orphan, (s.lock n).waiters ≠ [] →
    ∃ w ∈ (s.lock n).waiters, let u := s.releaseLock n orphan
      (u.lock n).owner = some w ∧ (u.lock n).waiters = (s.lock n).waiters.erase w ∧
      (u.lock n).orphaned = ((s.lock n).orphaned || orphan) ∧ ∀ k, k ≠ n → u.lock k = s.lock k) ∧
  (∀ (s : State) n ident o, (s.lock n).owner = some o → o ≠ ident → (s.lock n).waiters.contains ident = false →
    (s.lock n).waiters.length < 64 →
    ((s.acquireLock n ident).1.lock n).waiters = (s.lock n).waiters ++ [ident] ∧ ((s.acquireLock n ident).1.lock n).owner = some o)
end
end

