-- ==== Sys2Proof/Laws/Tab.lean ====
section
/-! SUPPORT. Laws of tables and memories: what a read finds after a write, and that every memory operation keeps the canonical form. -/

namespace Sys2Proof.Laws

open Sys2Proof.Machine

/-! ## Tables -/

/-- A value put at a key is found there. -/
@[simp] theorem look_put_self {κ α : Type} [DecidableEq κ] (t : Tab κ α) (k : κ) (v : α) : (t.put k v).look k = some v := by
  simp only [Tab.put, Tab.look]
  induction t.cells with
  | nil => simp [putList, lookList]
  | cons c r ih => by_cases h : c.1 = k <;> simp [putList, lookList, h, ih]

/-- Every other key keeps its value. -/
theorem look_put_ne {κ α : Type} [DecidableEq κ] (t : Tab κ α) {k j : κ} (v : α) (h : j ≠ k) : (t.put k v).look j = t.look j := by
  simp only [Tab.put, Tab.look]
  induction t.cells with
  | nil => simp [putList, lookList, Ne.symm h]
  | cons c r ih =>
    by_cases hc : c.1 = k
    · simp [putList, lookList, hc, Ne.symm h]
    · simp [putList, lookList, hc, ih]

/-- A removed key is not held. -/
@[simp] theorem look_del_self {κ α : Type} [DecidableEq κ] (t : Tab κ α) (k : κ) : (t.del k).look k = none := by
  simp only [Tab.del, Tab.look]
  induction t.cells with
  | nil => rfl
  | cons c r ih => by_cases h : c.1 = k <;> simp [delList, lookList, h, ih]

/-- Every other key keeps its value. -/
theorem look_del_ne {κ α : Type} [DecidableEq κ] (t : Tab κ α) {k j : κ} (h : j ≠ k) : (t.del k).look j = t.look j := by
  simp only [Tab.del, Tab.look]
  induction t.cells with
  | nil => rfl
  | cons c r ih =>
    by_cases hc : c.1 = k
    · simp [delList, lookList, hc, ih, Ne.symm h]
    · simp [delList, lookList, hc, ih]

/-- A property of every cell holds after a put of a cell that has it. -/
theorem put_all {κ α : Type} [DecidableEq κ] {P : κ × α → Prop} (t : Tab κ α) (k : κ) (v : α) (hv : P (k, v)) (h : ∀ c ∈ t.cells, P c) :
    ∀ c ∈ (t.put k v).cells, P c := by
  intro c hc
  have : ∀ l : List (κ × α), (∀ c ∈ l, P c) → c ∈ putList k v l → P c := by
    intro l
    induction l with
    | nil => intro _ hc; simp [putList] at hc; exact hc ▸ hv
    | cons d r ih =>
      intro hl hc
      by_cases hd : d.1 = k
      · simp [putList, hd] at hc
        rcases hc with rfl | hc
        · exact hv
        · exact hl c (List.mem_cons_of_mem _ hc)
      · simp [putList, hd] at hc
        rcases hc with rfl | hc
        · exact hl _ List.mem_cons_self
        · exact ih (fun c hc => hl c (List.mem_cons_of_mem _ hc)) hc
  exact this _ h hc

/-- It holds of the cells that a test keeps. -/
theorem keep_all {κ α : Type} {P : κ × α → Prop} (t : Tab κ α) (p : κ → α → Bool) (h : ∀ c ∈ t.cells, P c) :
    ∀ c ∈ (t.keep p).cells, P c := fun c hc => h c (List.mem_filter.mp hc).1

/-! ## Memories -/

/-- When a memory with a first cell lies above a bound. -/
theorem memAbove_cons {lo : Option Nat} {a : Nat} {v : Byte} {r : Memory} :
    memAbove lo ((a, v) :: r) = true ↔ (∀ l, lo = some l → l < a) ∧ v ≠ 0 ∧ memAbove (some a) r = true := by
  have : memAbove lo ((a, v) :: r) =
      ((match lo with | none => true | some l => decide (l < a)) && decide (v ≠ 0) && memAbove (some a) r) := rfl
  rw [this]
  cases lo <;> simp [and_assoc]

/-- A memory above a bound lies above every weaker one. -/
theorem memAbove_weaken {m : Memory} {lo : Option Nat} (h : memAbove lo m = true) (lo' : Option Nat)
    (hw : ∀ b, lo' = some b → ∃ l, lo = some l ∧ b ≤ l) : memAbove lo' m = true := by
  cases m with
  | nil => rfl
  | cons c r =>
    obtain ⟨h1, h2⟩ := memAbove_cons.mp h
    refine memAbove_cons.mpr ⟨fun b e => ?_, h2⟩
    obtain ⟨l, hl, hb⟩ := hw b e
    exact Nat.lt_of_le_of_lt hb (h1 l hl)

/-- What writing a byte does at the first cell. -/
theorem memPut_cons (k : Nat) (v : Byte) (a : Nat) (w : Byte) (r : Memory) :
    memPut k v ((a, w) :: r) =
      if k < a then (if v = 0 then (a, w) :: r else (k, v) :: (a, w) :: r)
      else if k = a then (if v = 0 then r else (k, v) :: r) else (a, w) :: memPut k v r := rfl

/-- Writing a byte keeps the form, above a bound below the address. -/
theorem memPut_above (k : Nat) (v : Byte) (m : Memory) : ∀ lo : Option Nat, (∀ l, lo = some l → l < k) → memAbove lo m = true →
    memAbove lo (memPut k v m) = true := by
  induction m with
  | nil =>
    intro lo hl _
    unfold memPut
    by_cases hv : v = 0
    · rw [if_pos hv]; rfl
    · rw [if_neg hv]; exact memAbove_cons.mpr ⟨hl, hv, rfl⟩
  | cons c r ih =>
    obtain ⟨a, w⟩ := c
    intro lo hl h
    obtain ⟨h1, h2, h3⟩ := memAbove_cons.mp h
    rw [memPut_cons]
    by_cases hka : k < a
    · rw [if_pos hka]
      by_cases hv : v = 0
      · rw [if_pos hv]; exact h
      · rw [if_neg hv]
        exact memAbove_cons.mpr ⟨hl, hv, memAbove_cons.mpr ⟨fun l e => by cases e; exact hka, h2, h3⟩⟩
    · rw [if_neg hka]
      by_cases he : k = a
      · subst he
        rw [if_pos rfl]
        by_cases hv : v = 0
        · rw [if_pos hv]
          exact memAbove_weaken h3 lo fun b e => ⟨k, rfl, Nat.le_of_lt (h1 b e)⟩
        · rw [if_neg hv]; exact memAbove_cons.mpr ⟨h1, hv, h3⟩
      · rw [if_neg he]
        exact memAbove_cons.mpr ⟨h1, h2, ih (some a) (fun l e => by cases e; omega) h3⟩

/-- Writing a byte keeps the canonical form. -/
theorem memPut_wf (k : Nat) (v : Byte) {m : Memory} (h : m.wf = true) : Memory.wf (memPut k v m) = true :=
  memPut_above k v m none (fun _ e => by cases e) h

/-- Writing bytes keeps it. -/
theorem memWrite_wf (bs : List Byte) : ∀ (a : Nat) {m : Memory}, m.wf = true → Memory.wf (memWrite m a bs) = true := by
  induction bs with
  | nil => intro _ _ h; exact h
  | cons b r ih => intro a m h; exact ih (a + 1) (memPut_wf a b h)

/-- Merging bytes keeps it. -/
theorem memMerge_wf (l : List (Nat × Byte)) : ∀ {m : Memory}, m.wf = true → Memory.wf (memMerge m l) = true := by
  induction l with
  | nil => intro _ h; exact h
  | cons b r ih => intro m h; exact ih (memPut_wf b.1 b.2 h)

/-- Dropping cells keeps the form above a bound. -/
theorem memAbove_filter (p : Host.Cell → Bool) (m : Memory) : ∀ lo : Option Nat, memAbove lo m = true →
    memAbove lo (List.filter p m) = true := by
  induction m with
  | nil => intro _ h; exact h
  | cons c r ih =>
    obtain ⟨a, w⟩ := c
    intro lo h
    obtain ⟨h1, h2, h3⟩ := memAbove_cons.mp h
    by_cases hp : p (a, w) = true
    · rw [List.filter_cons_of_pos hp]
      exact memAbove_cons.mpr ⟨h1, h2, ih _ h3⟩
    · rw [List.filter_cons_of_neg hp]
      exact ih lo (memAbove_weaken h3 lo fun b e => ⟨a, rfl, Nat.le_of_lt (h1 b e)⟩)

/-- Dropping cells keeps the canonical form. -/
theorem filter_wf (p : Host.Cell → Bool) {m : Memory} (h : m.wf = true) : Memory.wf (List.filter p m) = true := memAbove_filter p m none h

/-- Nothing is held at or below a bound. -/
theorem memGet_above {m : Memory} : ∀ {lo k : Nat}, memAbove (some lo) m = true → k ≤ lo → memGet m k = 0 := by
  induction m with
  | nil => intro _ _ _ _; rfl
  | cons c r ih =>
    obtain ⟨a, w⟩ := c
    intro lo k h hk
    obtain ⟨h1, _, h3⟩ := memAbove_cons.mp h
    have := h1 lo rfl
    show (if a = k then w else memGet r k) = 0
    rw [if_neg (by omega)]
    exact ih h3 (by omega)

/-- A byte written is read there; every other address reads as before. -/
theorem memGet_memPut_above (k : Nat) (v : Byte) (j : Nat) (m : Memory) : ∀ lo : Option Nat, memAbove lo m = true →
    memGet (memPut k v m) j = if j = k then v else memGet m j := by
  induction m with
  | nil =>
    intro _ _
    unfold memPut
    by_cases hv : v = 0
    · rw [if_pos hv, hv]; split <;> rfl
    · rw [if_neg hv]
      show (if k = j then v else 0) = if j = k then v else 0
      by_cases hj : j = k
      · rw [if_pos hj, if_pos hj.symm]
      · rw [if_neg hj, if_neg (Ne.symm hj)]
  | cons c r ih =>
    obtain ⟨a, w⟩ := c
    intro lo h
    obtain ⟨_, _, h3⟩ := memAbove_cons.mp h
    have hg : ∀ (b : Nat) (x : Byte) (t : Memory), memGet ((b, x) :: t) j = if b = j then x else memGet t j := fun _ _ _ => rfl
    rw [memPut_cons]
    by_cases hka : k < a
    · have hz : memGet r k = 0 := memGet_above h3 (by omega)
      rw [if_pos hka]
      by_cases hj : j = k
      · subst hj
        rw [if_pos rfl]
        by_cases hv : v = 0
        · rw [if_pos hv, hg, if_neg (by omega), hz, hv]
        · rw [if_neg hv, hg, if_pos rfl]
      · rw [if_neg hj]
        by_cases hv : v = 0
        · rw [if_pos hv]
        · rw [if_neg hv, hg k, if_neg (Ne.symm hj)]
    · rw [if_neg hka]
      by_cases he : k = a
      · subst he
        have hz : memGet r k = 0 := memGet_above h3 (Nat.le_refl _)
        rw [if_pos rfl]
        by_cases hj : j = k
        · subst hj
          rw [if_pos rfl]
          by_cases hv : v = 0
          · rw [if_pos hv, hz, hv]
          · rw [if_neg hv, hg, if_pos rfl]
        · rw [if_neg hj, hg k w, if_neg (Ne.symm hj)]
          by_cases hv : v = 0
          · rw [if_pos hv]
          · rw [if_neg hv, hg, if_neg (Ne.symm hj)]
      · rw [if_neg he, hg, hg, ih (some a) h3]
        by_cases hj : j = k
        · subst hj; rw [if_pos rfl, if_neg (Ne.symm he), if_pos rfl]
        · rw [if_neg hj, if_neg hj]

/-- A byte written is read there; every other address reads as before. -/
theorem memGet_memPut (k : Nat) (v : Byte) {m : Memory} (h : m.wf = true) (j : Nat) :
    memGet (memPut k v m) j = if j = k then v else memGet m j := memGet_memPut_above k v j m none h

end Sys2Proof.Laws
end

