-- ==== Sys2Proof/Laws/State.lean ====
section
/-! SUPPORT. What each update of the state leaves alone, field by field, and what reading a register after a write answers. -/

namespace Sys2Proof.Laws

open Sys2Proof.Machine

/-! ## Registers -/

@[simp] theorem rd_wr_self (s : State) (f : Fld) (i v : Nat) : (s.wr f i v).rd f i = v % 2 ^ f.row.width := by
  simp [State.rd, State.wr]

theorem rd_wr_ne (s : State) {f g : Fld} {i j : Nat} (v : Nat) (h : (g, j) ≠ (f, i)) : (s.wr f i v).rd g j = s.rd g j := by
  simp [State.rd, State.wr, look_put_ne s.regs (v % 2 ^ f.row.width) h]

@[simp] theorem tally_setTally_self (s : State) (n v : Nat) : (s.setTally n v).tally n = v % 2 ^ 64 := by
  simp [State.tally, State.setTally]

theorem tally_setTally_ne (s : State) {n k : Nat} (v : Nat) (h : k ≠ n) : (s.setTally n v).tally k = s.tally k := by
  unfold State.tally State.setTally
  exact congrArg (·.getD 0) (look_put_ne s.tallies (v % 2 ^ 64) h)

@[simp] theorem timer_arm_self (s : State) (k : TimerKey) (d : Nat) : (s.arm k d).timers.look k = some d := by
  simp [State.arm]

@[simp] theorem timer_disarm_self (s : State) (k : TimerKey) : (s.disarm k).timers.look k = none := by
  simp [State.disarm]

@[simp] theorem thread_updThread_self (s : State) (f t : Nat) (g : Thread → Thread) :
    (s.updThread f t g).thread f t = g (s.thread f t) := by
  simp [State.thread, State.updThread]

theorem thread_updThread_ne (s : State) {f t g k : Nat} (h : Thread → Thread) (n : (g, k) ≠ (f, t)) :
    (s.updThread f t h).thread g k = s.thread g k := by
  simp [State.thread, State.updThread, look_put_ne s.threads _ n]

@[simp] theorem lock_updLock_self (s : State) (n : Nat) (g : Lock → Lock) : (s.updLock n g).lock n = g (s.lock n) := by
  simp [State.lock, State.updLock]

theorem lock_updLock_ne (s : State) {n k : Nat} (g : Lock → Lock) (h : k ≠ n) : (s.updLock n g).lock k = s.lock k := by
  simp [State.lock, State.updLock, look_put_ne s.locks _ h]

@[simp] theorem q_updQ_self (s : State) (q : Nat) (g : QSt → QSt) : (s.updQ q g).q q = g (s.q q) := by
  simp [State.q, State.updQ]

theorem q_updQ_ne (s : State) {q k : Nat} (g : QSt → QSt) (h : k ≠ q) : (s.updQ q g).q k = s.q k := by
  simp [State.q, State.updQ, look_put_ne s.queues _ h]

/-! ## wr -/

@[simp] theorem pending_wr (s : State) (f : Fld) (i v : Nat) : (s.wr f i v).pending = s.pending := rfl
@[simp] theorem phase_wr (s : State) (f : Fld) (i v : Nat) : (s.wr f i v).phase = s.phase := rfl
@[simp] theorem variant_wr (s : State) (f : Fld) (i v : Nat) : (s.wr f i v).variant = s.variant := rfl
@[simp] theorem now_wr (s : State) (f : Fld) (i v : Nat) : (s.wr f i v).now = s.now := rfl
@[simp] theorem mem_wr (s : State) (f : Fld) (i v : Nat) : (s.wr f i v).mem = s.mem := rfl
@[simp] theorem hostMem_wr (s : State) (f : Fld) (i v : Nat) : (s.wr f i v).hostMem = s.hostMem := rfl
@[simp] theorem scratch_wr (s : State) (f : Fld) (i v : Nat) : (s.wr f i v).scratch = s.scratch := rfl
@[simp] theorem tallies_wr (s : State) (f : Fld) (i v : Nat) : (s.wr f i v).tallies = s.tallies := rfl
@[simp] theorem timers_wr (s : State) (f : Fld) (i v : Nat) : (s.wr f i v).timers = s.timers := rfl
@[simp] theorem out_wr (s : State) (f : Fld) (i v : Nat) : (s.wr f i v).out = s.out := rfl
@[simp] theorem raised_wr (s : State) (f : Fld) (i v : Nat) : (s.wr f i v).raised = s.raised := rfl
@[simp] theorem jobs_wr (s : State) (f : Fld) (i v : Nat) : (s.wr f i v).jobs = s.jobs := rfl
@[simp] theorem queues_wr (s : State) (f : Fld) (i v : Nat) : (s.wr f i v).queues = s.queues := rfl
@[simp] theorem threads_wr (s : State) (f : Fld) (i v : Nat) : (s.wr f i v).threads = s.threads := rfl
@[simp] theorem locks_wr (s : State) (f : Fld) (i v : Nat) : (s.wr f i v).locks = s.locks := rfl
@[simp] theorem banks_wr (s : State) (f : Fld) (i v : Nat) : (s.wr f i v).banks = s.banks := rfl
@[simp] theorem ring_wr (s : State) (f : Fld) (i v : Nat) : (s.wr f i v).ring = s.ring := rfl
@[simp] theorem ctxs_wr (s : State) (f : Fld) (i v : Nat) : (s.wr f i v).ctxs = s.ctxs := rfl
@[simp] theorem manifest_wr (s : State) (f : Fld) (i v : Nat) : (s.wr f i v).manifest = s.manifest := rfl
@[simp] theorem tally_wr (s : State) (f : Fld) (i v : Nat) (x : Nat) : (s.wr f i v).tally x = s.tally x := rfl
@[simp] theorem thread_wr (s : State) (f : Fld) (i v : Nat) (x y : Nat) : (s.wr f i v).thread x y = s.thread x y := rfl
@[simp] theorem lock_wr (s : State) (f : Fld) (i v : Nat) (x : Nat) : (s.wr f i v).lock x = s.lock x := rfl
@[simp] theorem q_wr (s : State) (f : Fld) (i v : Nat) (x : Nat) : (s.wr f i v).q x = s.q x := rfl

/-! ## emit -/

@[simp] theorem pending_emit (s : State) (o : Out) : (s.emit o).pending = s.pending := rfl
@[simp] theorem phase_emit (s : State) (o : Out) : (s.emit o).phase = s.phase := rfl
@[simp] theorem variant_emit (s : State) (o : Out) : (s.emit o).variant = s.variant := rfl
@[simp] theorem now_emit (s : State) (o : Out) : (s.emit o).now = s.now := rfl
@[simp] theorem regs_emit (s : State) (o : Out) : (s.emit o).regs = s.regs := rfl
@[simp] theorem mem_emit (s : State) (o : Out) : (s.emit o).mem = s.mem := rfl
@[simp] theorem hostMem_emit (s : State) (o : Out) : (s.emit o).hostMem = s.hostMem := rfl
@[simp] theorem scratch_emit (s : State) (o : Out) : (s.emit o).scratch = s.scratch := rfl
@[simp] theorem tallies_emit (s : State) (o : Out) : (s.emit o).tallies = s.tallies := rfl
@[simp] theorem timers_emit (s : State) (o : Out) : (s.emit o).timers = s.timers := rfl
@[simp] theorem raised_emit (s : State) (o : Out) : (s.emit o).raised = s.raised := rfl
@[simp] theorem jobs_emit (s : State) (o : Out) : (s.emit o).jobs = s.jobs := rfl
@[simp] theorem queues_emit (s : State) (o : Out) : (s.emit o).queues = s.queues := rfl
@[simp] theorem threads_emit (s : State) (o : Out) : (s.emit o).threads = s.threads := rfl
@[simp] theorem locks_emit (s : State) (o : Out) : (s.emit o).locks = s.locks := rfl
@[simp] theorem banks_emit (s : State) (o : Out) : (s.emit o).banks = s.banks := rfl
@[simp] theorem ring_emit (s : State) (o : Out) : (s.emit o).ring = s.ring := rfl
@[simp] theorem ctxs_emit (s : State) (o : Out) : (s.emit o).ctxs = s.ctxs := rfl
@[simp] theorem manifest_emit (s : State) (o : Out) : (s.emit o).manifest = s.manifest := rfl
@[simp] theorem rd_emit (s : State) (o : Out) (x : Fld) (y : Nat) : (s.emit o).rd x y = s.rd x y := rfl
@[simp] theorem tally_emit (s : State) (o : Out) (x : Nat) : (s.emit o).tally x = s.tally x := rfl
@[simp] theorem thread_emit (s : State) (o : Out) (x y : Nat) : (s.emit o).thread x y = s.thread x y := rfl
@[simp] theorem lock_emit (s : State) (o : Out) (x : Nat) : (s.emit o).lock x = s.lock x := rfl
@[simp] theorem q_emit (s : State) (o : Out) (x : Nat) : (s.emit o).q x = s.q x := rfl

/-! ## arm -/

@[simp] theorem pending_arm (s : State) (k : TimerKey) (d : Nat) : (s.arm k d).pending = s.pending := rfl
@[simp] theorem phase_arm (s : State) (k : TimerKey) (d : Nat) : (s.arm k d).phase = s.phase := rfl
@[simp] theorem variant_arm (s : State) (k : TimerKey) (d : Nat) : (s.arm k d).variant = s.variant := rfl
@[simp] theorem now_arm (s : State) (k : TimerKey) (d : Nat) : (s.arm k d).now = s.now := rfl
@[simp] theorem regs_arm (s : State) (k : TimerKey) (d : Nat) : (s.arm k d).regs = s.regs := rfl
@[simp] theorem mem_arm (s : State) (k : TimerKey) (d : Nat) : (s.arm k d).mem = s.mem := rfl
@[simp] theorem hostMem_arm (s : State) (k : TimerKey) (d : Nat) : (s.arm k d).hostMem = s.hostMem := rfl
@[simp] theorem scratch_arm (s : State) (k : TimerKey) (d : Nat) : (s.arm k d).scratch = s.scratch := rfl
@[simp] theorem tallies_arm (s : State) (k : TimerKey) (d : Nat) : (s.arm k d).tallies = s.tallies := rfl
@[simp] theorem out_arm (s : State) (k : TimerKey) (d : Nat) : (s.arm k d).out = s.out := rfl
@[simp] theorem raised_arm (s : State) (k : TimerKey) (d : Nat) : (s.arm k d).raised = s.raised := rfl
@[simp] theorem jobs_arm (s : State) (k : TimerKey) (d : Nat) : (s.arm k d).jobs = s.jobs := rfl
@[simp] theorem queues_arm (s : State) (k : TimerKey) (d : Nat) : (s.arm k d).queues = s.queues := rfl
@[simp] theorem threads_arm (s : State) (k : TimerKey) (d : Nat) : (s.arm k d).threads = s.threads := rfl
@[simp] theorem locks_arm (s : State) (k : TimerKey) (d : Nat) : (s.arm k d).locks = s.locks := rfl
@[simp] theorem banks_arm (s : State) (k : TimerKey) (d : Nat) : (s.arm k d).banks = s.banks := rfl
@[simp] theorem ring_arm (s : State) (k : TimerKey) (d : Nat) : (s.arm k d).ring = s.ring := rfl
@[simp] theorem ctxs_arm (s : State) (k : TimerKey) (d : Nat) : (s.arm k d).ctxs = s.ctxs := rfl
@[simp] theorem manifest_arm (s : State) (k : TimerKey) (d : Nat) : (s.arm k d).manifest = s.manifest := rfl
@[simp] theorem rd_arm (s : State) (k : TimerKey) (d : Nat) (x : Fld) (y : Nat) : (s.arm k d).rd x y = s.rd x y := rfl
@[simp] theorem tally_arm (s : State) (k : TimerKey) (d : Nat) (x : Nat) : (s.arm k d).tally x = s.tally x := rfl
@[simp] theorem thread_arm (s : State) (k : TimerKey) (d : Nat) (x y : Nat) : (s.arm k d).thread x y = s.thread x y := rfl
@[simp] theorem lock_arm (s : State) (k : TimerKey) (d : Nat) (x : Nat) : (s.arm k d).lock x = s.lock x := rfl
@[simp] theorem q_arm (s : State) (k : TimerKey) (d : Nat) (x : Nat) : (s.arm k d).q x = s.q x := rfl

/-! ## disarm -/

@[simp] theorem pending_disarm (s : State) (k : TimerKey) : (s.disarm k).pending = s.pending := rfl
@[simp] theorem phase_disarm (s : State) (k : TimerKey) : (s.disarm k).phase = s.phase := rfl
@[simp] theorem variant_disarm (s : State) (k : TimerKey) : (s.disarm k).variant = s.variant := rfl
@[simp] theorem now_disarm (s : State) (k : TimerKey) : (s.disarm k).now = s.now := rfl
@[simp] theorem regs_disarm (s : State) (k : TimerKey) : (s.disarm k).regs = s.regs := rfl
@[simp] theorem mem_disarm (s : State) (k : TimerKey) : (s.disarm k).mem = s.mem := rfl
@[simp] theorem hostMem_disarm (s : State) (k : TimerKey) : (s.disarm k).hostMem = s.hostMem := rfl
@[simp] theorem scratch_disarm (s : State) (k : TimerKey) : (s.disarm k).scratch = s.scratch := rfl
@[simp] theorem tallies_disarm (s : State) (k : TimerKey) : (s.disarm k).tallies = s.tallies := rfl
@[simp] theorem out_disarm (s : State) (k : TimerKey) : (s.disarm k).out = s.out := rfl
@[simp] theorem raised_disarm (s : State) (k : TimerKey) : (s.disarm k).raised = s.raised := rfl
@[simp] theorem jobs_disarm (s : State) (k : TimerKey) : (s.disarm k).jobs = s.jobs := rfl
@[simp] theorem queues_disarm (s : State) (k : TimerKey) : (s.disarm k).queues = s.queues := rfl
@[simp] theorem threads_disarm (s : State) (k : TimerKey) : (s.disarm k).threads = s.threads := rfl
@[simp] theorem locks_disarm (s : State) (k : TimerKey) : (s.disarm k).locks = s.locks := rfl
@[simp] theorem banks_disarm (s : State) (k : TimerKey) : (s.disarm k).banks = s.banks := rfl
@[simp] theorem ring_disarm (s : State) (k : TimerKey) : (s.disarm k).ring = s.ring := rfl
@[simp] theorem ctxs_disarm (s : State) (k : TimerKey) : (s.disarm k).ctxs = s.ctxs := rfl
@[simp] theorem manifest_disarm (s : State) (k : TimerKey) : (s.disarm k).manifest = s.manifest := rfl
@[simp] theorem rd_disarm (s : State) (k : TimerKey) (x : Fld) (y : Nat) : (s.disarm k).rd x y = s.rd x y := rfl
@[simp] theorem tally_disarm (s : State) (k : TimerKey) (x : Nat) : (s.disarm k).tally x = s.tally x := rfl
@[simp] theorem thread_disarm (s : State) (k : TimerKey) (x y : Nat) : (s.disarm k).thread x y = s.thread x y := rfl
@[simp] theorem lock_disarm (s : State) (k : TimerKey) (x : Nat) : (s.disarm k).lock x = s.lock x := rfl
@[simp] theorem q_disarm (s : State) (k : TimerKey) (x : Nat) : (s.disarm k).q x = s.q x := rfl

/-! ## raise -/

@[simp] theorem pending_raise (s : State) (n : Nat) : (s.raise n).pending = s.pending := rfl
@[simp] theorem phase_raise (s : State) (n : Nat) : (s.raise n).phase = s.phase := rfl
@[simp] theorem variant_raise (s : State) (n : Nat) : (s.raise n).variant = s.variant := rfl
@[simp] theorem now_raise (s : State) (n : Nat) : (s.raise n).now = s.now := rfl
@[simp] theorem regs_raise (s : State) (n : Nat) : (s.raise n).regs = s.regs := rfl
@[simp] theorem mem_raise (s : State) (n : Nat) : (s.raise n).mem = s.mem := rfl
@[simp] theorem hostMem_raise (s : State) (n : Nat) : (s.raise n).hostMem = s.hostMem := rfl
@[simp] theorem scratch_raise (s : State) (n : Nat) : (s.raise n).scratch = s.scratch := rfl
@[simp] theorem tallies_raise (s : State) (n : Nat) : (s.raise n).tallies = s.tallies := rfl
@[simp] theorem timers_raise (s : State) (n : Nat) : (s.raise n).timers = s.timers := rfl
@[simp] theorem out_raise (s : State) (n : Nat) : (s.raise n).out = s.out := rfl
@[simp] theorem jobs_raise (s : State) (n : Nat) : (s.raise n).jobs = s.jobs := rfl
@[simp] theorem queues_raise (s : State) (n : Nat) : (s.raise n).queues = s.queues := rfl
@[simp] theorem threads_raise (s : State) (n : Nat) : (s.raise n).threads = s.threads := rfl
@[simp] theorem locks_raise (s : State) (n : Nat) : (s.raise n).locks = s.locks := rfl
@[simp] theorem banks_raise (s : State) (n : Nat) : (s.raise n).banks = s.banks := rfl
@[simp] theorem ring_raise (s : State) (n : Nat) : (s.raise n).ring = s.ring := rfl
@[simp] theorem ctxs_raise (s : State) (n : Nat) : (s.raise n).ctxs = s.ctxs := rfl
@[simp] theorem manifest_raise (s : State) (n : Nat) : (s.raise n).manifest = s.manifest := rfl
@[simp] theorem rd_raise (s : State) (n : Nat) (x : Fld) (y : Nat) : (s.raise n).rd x y = s.rd x y := rfl
@[simp] theorem tally_raise (s : State) (n : Nat) (x : Nat) : (s.raise n).tally x = s.tally x := rfl
@[simp] theorem thread_raise (s : State) (n : Nat) (x y : Nat) : (s.raise n).thread x y = s.thread x y := rfl
@[simp] theorem lock_raise (s : State) (n : Nat) (x : Nat) : (s.raise n).lock x = s.lock x := rfl
@[simp] theorem q_raise (s : State) (n : Nat) (x : Nat) : (s.raise n).q x = s.q x := rfl

/-! ## freeNext -/

@[simp] theorem pending_freeNext (s : State) : (s.freeNext).pending = s.pending := rfl
@[simp] theorem phase_freeNext (s : State) : (s.freeNext).phase = s.phase := rfl
@[simp] theorem variant_freeNext (s : State) : (s.freeNext).variant = s.variant := rfl
@[simp] theorem now_freeNext (s : State) : (s.freeNext).now = s.now := rfl
@[simp] theorem regs_freeNext (s : State) : (s.freeNext).regs = s.regs := rfl
@[simp] theorem mem_freeNext (s : State) : (s.freeNext).mem = s.mem := rfl
@[simp] theorem hostMem_freeNext (s : State) : (s.freeNext).hostMem = s.hostMem := rfl
@[simp] theorem scratch_freeNext (s : State) : (s.freeNext).scratch = s.scratch := rfl
@[simp] theorem tallies_freeNext (s : State) : (s.freeNext).tallies = s.tallies := rfl
@[simp] theorem timers_freeNext (s : State) : (s.freeNext).timers = s.timers := rfl
@[simp] theorem out_freeNext (s : State) : (s.freeNext).out = s.out := rfl
@[simp] theorem raised_freeNext (s : State) : (s.freeNext).raised = s.raised := rfl
@[simp] theorem jobs_freeNext (s : State) : (s.freeNext).jobs = s.jobs := rfl
@[simp] theorem queues_freeNext (s : State) : (s.freeNext).queues = s.queues := rfl
@[simp] theorem threads_freeNext (s : State) : (s.freeNext).threads = s.threads := rfl
@[simp] theorem locks_freeNext (s : State) : (s.freeNext).locks = s.locks := rfl
@[simp] theorem banks_freeNext (s : State) : (s.freeNext).banks = s.banks := rfl
@[simp] theorem ring_freeNext (s : State) : (s.freeNext).ring = s.ring := rfl
@[simp] theorem ctxs_freeNext (s : State) : (s.freeNext).ctxs = s.ctxs := rfl
@[simp] theorem manifest_freeNext (s : State) : (s.freeNext).manifest = s.manifest := rfl
@[simp] theorem rd_freeNext (s : State) (x : Fld) (y : Nat) : (s.freeNext).rd x y = s.rd x y := rfl
@[simp] theorem tally_freeNext (s : State) (x : Nat) : (s.freeNext).tally x = s.tally x := rfl
@[simp] theorem thread_freeNext (s : State) (x y : Nat) : (s.freeNext).thread x y = s.thread x y := rfl
@[simp] theorem lock_freeNext (s : State) (x : Nat) : (s.freeNext).lock x = s.lock x := rfl
@[simp] theorem q_freeNext (s : State) (x : Nat) : (s.freeNext).q x = s.q x := rfl

/-! ## idNext -/

@[simp] theorem pending_idNext (s : State) : (s.idNext).pending = s.pending := rfl
@[simp] theorem phase_idNext (s : State) : (s.idNext).phase = s.phase := rfl
@[simp] theorem variant_idNext (s : State) : (s.idNext).variant = s.variant := rfl
@[simp] theorem now_idNext (s : State) : (s.idNext).now = s.now := rfl
@[simp] theorem regs_idNext (s : State) : (s.idNext).regs = s.regs := rfl
@[simp] theorem mem_idNext (s : State) : (s.idNext).mem = s.mem := rfl
@[simp] theorem hostMem_idNext (s : State) : (s.idNext).hostMem = s.hostMem := rfl
@[simp] theorem scratch_idNext (s : State) : (s.idNext).scratch = s.scratch := rfl
@[simp] theorem tallies_idNext (s : State) : (s.idNext).tallies = s.tallies := rfl
@[simp] theorem timers_idNext (s : State) : (s.idNext).timers = s.timers := rfl
@[simp] theorem out_idNext (s : State) : (s.idNext).out = s.out := rfl
@[simp] theorem raised_idNext (s : State) : (s.idNext).raised = s.raised := rfl
@[simp] theorem jobs_idNext (s : State) : (s.idNext).jobs = s.jobs := rfl
@[simp] theorem queues_idNext (s : State) : (s.idNext).queues = s.queues := rfl
@[simp] theorem threads_idNext (s : State) : (s.idNext).threads = s.threads := rfl
@[simp] theorem locks_idNext (s : State) : (s.idNext).locks = s.locks := rfl
@[simp] theorem banks_idNext (s : State) : (s.idNext).banks = s.banks := rfl
@[simp] theorem ring_idNext (s : State) : (s.idNext).ring = s.ring := rfl
@[simp] theorem ctxs_idNext (s : State) : (s.idNext).ctxs = s.ctxs := rfl
@[simp] theorem manifest_idNext (s : State) : (s.idNext).manifest = s.manifest := rfl
@[simp] theorem rd_idNext (s : State) (x : Fld) (y : Nat) : (s.idNext).rd x y = s.rd x y := rfl
@[simp] theorem tally_idNext (s : State) (x : Nat) : (s.idNext).tally x = s.tally x := rfl
@[simp] theorem thread_idNext (s : State) (x y : Nat) : (s.idNext).thread x y = s.thread x y := rfl
@[simp] theorem lock_idNext (s : State) (x : Nat) : (s.idNext).lock x = s.lock x := rfl
@[simp] theorem q_idNext (s : State) (x : Nat) : (s.idNext).q x = s.q x := rfl

/-! ## setTally -/

@[simp] theorem pending_setTally (s : State) (n v : Nat) : (s.setTally n v).pending = s.pending := rfl
@[simp] theorem phase_setTally (s : State) (n v : Nat) : (s.setTally n v).phase = s.phase := rfl
@[simp] theorem variant_setTally (s : State) (n v : Nat) : (s.setTally n v).variant = s.variant := rfl
@[simp] theorem now_setTally (s : State) (n v : Nat) : (s.setTally n v).now = s.now := rfl
@[simp] theorem regs_setTally (s : State) (n v : Nat) : (s.setTally n v).regs = s.regs := rfl
@[simp] theorem mem_setTally (s : State) (n v : Nat) : (s.setTally n v).mem = s.mem := rfl
@[simp] theorem hostMem_setTally (s : State) (n v : Nat) : (s.setTally n v).hostMem = s.hostMem := rfl
@[simp] theorem scratch_setTally (s : State) (n v : Nat) : (s.setTally n v).scratch = s.scratch := rfl
@[simp] theorem timers_setTally (s : State) (n v : Nat) : (s.setTally n v).timers = s.timers := rfl
@[simp] theorem out_setTally (s : State) (n v : Nat) : (s.setTally n v).out = s.out := rfl
@[simp] theorem raised_setTally (s : State) (n v : Nat) : (s.setTally n v).raised = s.raised := rfl
@[simp] theorem jobs_setTally (s : State) (n v : Nat) : (s.setTally n v).jobs = s.jobs := rfl
@[simp] theorem queues_setTally (s : State) (n v : Nat) : (s.setTally n v).queues = s.queues := rfl
@[simp] theorem threads_setTally (s : State) (n v : Nat) : (s.setTally n v).threads = s.threads := rfl
@[simp] theorem locks_setTally (s : State) (n v : Nat) : (s.setTally n v).locks = s.locks := rfl
@[simp] theorem banks_setTally (s : State) (n v : Nat) : (s.setTally n v).banks = s.banks := rfl
@[simp] theorem ring_setTally (s : State) (n v : Nat) : (s.setTally n v).ring = s.ring := rfl
@[simp] theorem ctxs_setTally (s : State) (n v : Nat) : (s.setTally n v).ctxs = s.ctxs := rfl
@[simp] theorem manifest_setTally (s : State) (n v : Nat) : (s.setTally n v).manifest = s.manifest := rfl
@[simp] theorem rd_setTally (s : State) (n v : Nat) (x : Fld) (y : Nat) : (s.setTally n v).rd x y = s.rd x y := rfl
@[simp] theorem thread_setTally (s : State) (n v : Nat) (x y : Nat) : (s.setTally n v).thread x y = s.thread x y := rfl
@[simp] theorem lock_setTally (s : State) (n v : Nat) (x : Nat) : (s.setTally n v).lock x = s.lock x := rfl
@[simp] theorem q_setTally (s : State) (n v : Nat) (x : Nat) : (s.setTally n v).q x = s.q x := rfl

/-! ## addTally -/

@[simp] theorem pending_addTally (s : State) (n v : Nat) : (s.addTally n v).pending = s.pending := rfl
@[simp] theorem phase_addTally (s : State) (n v : Nat) : (s.addTally n v).phase = s.phase := rfl
@[simp] theorem variant_addTally (s : State) (n v : Nat) : (s.addTally n v).variant = s.variant := rfl
@[simp] theorem now_addTally (s : State) (n v : Nat) : (s.addTally n v).now = s.now := rfl
@[simp] theorem regs_addTally (s : State) (n v : Nat) : (s.addTally n v).regs = s.regs := rfl
@[simp] theorem mem_addTally (s : State) (n v : Nat) : (s.addTally n v).mem = s.mem := rfl
@[simp] theorem hostMem_addTally (s : State) (n v : Nat) : (s.addTally n v).hostMem = s.hostMem := rfl
@[simp] theorem scratch_addTally (s : State) (n v : Nat) : (s.addTally n v).scratch = s.scratch := rfl
@[simp] theorem timers_addTally (s : State) (n v : Nat) : (s.addTally n v).timers = s.timers := rfl
@[simp] theorem out_addTally (s : State) (n v : Nat) : (s.addTally n v).out = s.out := rfl
@[simp] theorem raised_addTally (s : State) (n v : Nat) : (s.addTally n v).raised = s.raised := rfl
@[simp] theorem jobs_addTally (s : State) (n v : Nat) : (s.addTally n v).jobs = s.jobs := rfl
@[simp] theorem queues_addTally (s : State) (n v : Nat) : (s.addTally n v).queues = s.queues := rfl
@[simp] theorem threads_addTally (s : State) (n v : Nat) : (s.addTally n v).threads = s.threads := rfl
@[simp] theorem locks_addTally (s : State) (n v : Nat) : (s.addTally n v).locks = s.locks := rfl
@[simp] theorem banks_addTally (s : State) (n v : Nat) : (s.addTally n v).banks = s.banks := rfl
@[simp] theorem ring_addTally (s : State) (n v : Nat) : (s.addTally n v).ring = s.ring := rfl
@[simp] theorem ctxs_addTally (s : State) (n v : Nat) : (s.addTally n v).ctxs = s.ctxs := rfl
@[simp] theorem manifest_addTally (s : State) (n v : Nat) : (s.addTally n v).manifest = s.manifest := rfl
@[simp] theorem rd_addTally (s : State) (n v : Nat) (x : Fld) (y : Nat) : (s.addTally n v).rd x y = s.rd x y := rfl
@[simp] theorem thread_addTally (s : State) (n v : Nat) (x y : Nat) : (s.addTally n v).thread x y = s.thread x y := rfl
@[simp] theorem lock_addTally (s : State) (n v : Nat) (x : Nat) : (s.addTally n v).lock x = s.lock x := rfl
@[simp] theorem q_addTally (s : State) (n v : Nat) (x : Nat) : (s.addTally n v).q x = s.q x := rfl

/-! ## updJob -/

@[simp] theorem pending_updJob (s : State) (j : Nat) (f : Job → Job) : (s.updJob j f).pending = s.pending := rfl
@[simp] theorem phase_updJob (s : State) (j : Nat) (f : Job → Job) : (s.updJob j f).phase = s.phase := rfl
@[simp] theorem variant_updJob (s : State) (j : Nat) (f : Job → Job) : (s.updJob j f).variant = s.variant := rfl
@[simp] theorem now_updJob (s : State) (j : Nat) (f : Job → Job) : (s.updJob j f).now = s.now := rfl
@[simp] theorem regs_updJob (s : State) (j : Nat) (f : Job → Job) : (s.updJob j f).regs = s.regs := rfl
@[simp] theorem mem_updJob (s : State) (j : Nat) (f : Job → Job) : (s.updJob j f).mem = s.mem := rfl
@[simp] theorem hostMem_updJob (s : State) (j : Nat) (f : Job → Job) : (s.updJob j f).hostMem = s.hostMem := rfl
@[simp] theorem scratch_updJob (s : State) (j : Nat) (f : Job → Job) : (s.updJob j f).scratch = s.scratch := rfl
@[simp] theorem tallies_updJob (s : State) (j : Nat) (f : Job → Job) : (s.updJob j f).tallies = s.tallies := rfl
@[simp] theorem timers_updJob (s : State) (j : Nat) (f : Job → Job) : (s.updJob j f).timers = s.timers := rfl
@[simp] theorem out_updJob (s : State) (j : Nat) (f : Job → Job) : (s.updJob j f).out = s.out := rfl
@[simp] theorem raised_updJob (s : State) (j : Nat) (f : Job → Job) : (s.updJob j f).raised = s.raised := rfl
@[simp] theorem queues_updJob (s : State) (j : Nat) (f : Job → Job) : (s.updJob j f).queues = s.queues := rfl
@[simp] theorem threads_updJob (s : State) (j : Nat) (f : Job → Job) : (s.updJob j f).threads = s.threads := rfl
@[simp] theorem locks_updJob (s : State) (j : Nat) (f : Job → Job) : (s.updJob j f).locks = s.locks := rfl
@[simp] theorem banks_updJob (s : State) (j : Nat) (f : Job → Job) : (s.updJob j f).banks = s.banks := rfl
@[simp] theorem ring_updJob (s : State) (j : Nat) (f : Job → Job) : (s.updJob j f).ring = s.ring := rfl
@[simp] theorem ctxs_updJob (s : State) (j : Nat) (f : Job → Job) : (s.updJob j f).ctxs = s.ctxs := rfl
@[simp] theorem manifest_updJob (s : State) (j : Nat) (f : Job → Job) : (s.updJob j f).manifest = s.manifest := rfl
@[simp] theorem rd_updJob (s : State) (j : Nat) (f : Job → Job) (x : Fld) (y : Nat) : (s.updJob j f).rd x y = s.rd x y := rfl
@[simp] theorem tally_updJob (s : State) (j : Nat) (f : Job → Job) (x : Nat) : (s.updJob j f).tally x = s.tally x := rfl
@[simp] theorem thread_updJob (s : State) (j : Nat) (f : Job → Job) (x y : Nat) : (s.updJob j f).thread x y = s.thread x y := rfl
@[simp] theorem lock_updJob (s : State) (j : Nat) (f : Job → Job) (x : Nat) : (s.updJob j f).lock x = s.lock x := rfl
@[simp] theorem q_updJob (s : State) (j : Nat) (f : Job → Job) (x : Nat) : (s.updJob j f).q x = s.q x := rfl

/-! ## updQ -/

@[simp] theorem pending_updQ (s : State) (q : Nat) (f : QSt → QSt) : (s.updQ q f).pending = s.pending := rfl
@[simp] theorem phase_updQ (s : State) (q : Nat) (f : QSt → QSt) : (s.updQ q f).phase = s.phase := rfl
@[simp] theorem variant_updQ (s : State) (q : Nat) (f : QSt → QSt) : (s.updQ q f).variant = s.variant := rfl
@[simp] theorem now_updQ (s : State) (q : Nat) (f : QSt → QSt) : (s.updQ q f).now = s.now := rfl
@[simp] theorem regs_updQ (s : State) (q : Nat) (f : QSt → QSt) : (s.updQ q f).regs = s.regs := rfl
@[simp] theorem mem_updQ (s : State) (q : Nat) (f : QSt → QSt) : (s.updQ q f).mem = s.mem := rfl
@[simp] theorem hostMem_updQ (s : State) (q : Nat) (f : QSt → QSt) : (s.updQ q f).hostMem = s.hostMem := rfl
@[simp] theorem scratch_updQ (s : State) (q : Nat) (f : QSt → QSt) : (s.updQ q f).scratch = s.scratch := rfl
@[simp] theorem tallies_updQ (s : State) (q : Nat) (f : QSt → QSt) : (s.updQ q f).tallies = s.tallies := rfl
@[simp] theorem timers_updQ (s : State) (q : Nat) (f : QSt → QSt) : (s.updQ q f).timers = s.timers := rfl
@[simp] theorem out_updQ (s : State) (q : Nat) (f : QSt → QSt) : (s.updQ q f).out = s.out := rfl
@[simp] theorem raised_updQ (s : State) (q : Nat) (f : QSt → QSt) : (s.updQ q f).raised = s.raised := rfl
@[simp] theorem jobs_updQ (s : State) (q : Nat) (f : QSt → QSt) : (s.updQ q f).jobs = s.jobs := rfl
@[simp] theorem threads_updQ (s : State) (q : Nat) (f : QSt → QSt) : (s.updQ q f).threads = s.threads := rfl
@[simp] theorem locks_updQ (s : State) (q : Nat) (f : QSt → QSt) : (s.updQ q f).locks = s.locks := rfl
@[simp] theorem banks_updQ (s : State) (q : Nat) (f : QSt → QSt) : (s.updQ q f).banks = s.banks := rfl
@[simp] theorem ring_updQ (s : State) (q : Nat) (f : QSt → QSt) : (s.updQ q f).ring = s.ring := rfl
@[simp] theorem ctxs_updQ (s : State) (q : Nat) (f : QSt → QSt) : (s.updQ q f).ctxs = s.ctxs := rfl
@[simp] theorem manifest_updQ (s : State) (q : Nat) (f : QSt → QSt) : (s.updQ q f).manifest = s.manifest := rfl
@[simp] theorem rd_updQ (s : State) (q : Nat) (f : QSt → QSt) (x : Fld) (y : Nat) : (s.updQ q f).rd x y = s.rd x y := rfl
@[simp] theorem tally_updQ (s : State) (q : Nat) (f : QSt → QSt) (x : Nat) : (s.updQ q f).tally x = s.tally x := rfl
@[simp] theorem thread_updQ (s : State) (q : Nat) (f : QSt → QSt) (x y : Nat) : (s.updQ q f).thread x y = s.thread x y := rfl
@[simp] theorem lock_updQ (s : State) (q : Nat) (f : QSt → QSt) (x : Nat) : (s.updQ q f).lock x = s.lock x := rfl

/-! ## updThread -/

@[simp] theorem pending_updThread (s : State) (f t : Nat) (g : Thread → Thread) : (s.updThread f t g).pending = s.pending := rfl
@[simp] theorem phase_updThread (s : State) (f t : Nat) (g : Thread → Thread) : (s.updThread f t g).phase = s.phase := rfl
@[simp] theorem variant_updThread (s : State) (f t : Nat) (g : Thread → Thread) : (s.updThread f t g).variant = s.variant := rfl
@[simp] theorem now_updThread (s : State) (f t : Nat) (g : Thread → Thread) : (s.updThread f t g).now = s.now := rfl
@[simp] theorem regs_updThread (s : State) (f t : Nat) (g : Thread → Thread) : (s.updThread f t g).regs = s.regs := rfl
@[simp] theorem mem_updThread (s : State) (f t : Nat) (g : Thread → Thread) : (s.updThread f t g).mem = s.mem := rfl
@[simp] theorem hostMem_updThread (s : State) (f t : Nat) (g : Thread → Thread) : (s.updThread f t g).hostMem = s.hostMem := rfl
@[simp] theorem scratch_updThread (s : State) (f t : Nat) (g : Thread → Thread) : (s.updThread f t g).scratch = s.scratch := rfl
@[simp] theorem tallies_updThread (s : State) (f t : Nat) (g : Thread → Thread) : (s.updThread f t g).tallies = s.tallies := rfl
@[simp] theorem timers_updThread (s : State) (f t : Nat) (g : Thread → Thread) : (s.updThread f t g).timers = s.timers := rfl
@[simp] theorem out_updThread (s : State) (f t : Nat) (g : Thread → Thread) : (s.updThread f t g).out = s.out := rfl
@[simp] theorem raised_updThread (s : State) (f t : Nat) (g : Thread → Thread) : (s.updThread f t g).raised = s.raised := rfl
@[simp] theorem jobs_updThread (s : State) (f t : Nat) (g : Thread → Thread) : (s.updThread f t g).jobs = s.jobs := rfl
@[simp] theorem queues_updThread (s : State) (f t : Nat) (g : Thread → Thread) : (s.updThread f t g).queues = s.queues := rfl
@[simp] theorem locks_updThread (s : State) (f t : Nat) (g : Thread → Thread) : (s.updThread f t g).locks = s.locks := rfl
@[simp] theorem banks_updThread (s : State) (f t : Nat) (g : Thread → Thread) : (s.updThread f t g).banks = s.banks := rfl
@[simp] theorem ring_updThread (s : State) (f t : Nat) (g : Thread → Thread) : (s.updThread f t g).ring = s.ring := rfl
@[simp] theorem ctxs_updThread (s : State) (f t : Nat) (g : Thread → Thread) : (s.updThread f t g).ctxs = s.ctxs := rfl
@[simp] theorem manifest_updThread (s : State) (f t : Nat) (g : Thread → Thread) : (s.updThread f t g).manifest = s.manifest := rfl
@[simp] theorem rd_updThread (s : State) (f t : Nat) (g : Thread → Thread) (x : Fld) (y : Nat) : (s.updThread f t g).rd x y = s.rd x y := rfl
@[simp] theorem tally_updThread (s : State) (f t : Nat) (g : Thread → Thread) (x : Nat) : (s.updThread f t g).tally x = s.tally x := rfl
@[simp] theorem lock_updThread (s : State) (f t : Nat) (g : Thread → Thread) (x : Nat) : (s.updThread f t g).lock x = s.lock x := rfl
@[simp] theorem q_updThread (s : State) (f t : Nat) (g : Thread → Thread) (x : Nat) : (s.updThread f t g).q x = s.q x := rfl

/-! ## updLock -/

@[simp] theorem pending_updLock (s : State) (n : Nat) (g : Lock → Lock) : (s.updLock n g).pending = s.pending := rfl
@[simp] theorem phase_updLock (s : State) (n : Nat) (g : Lock → Lock) : (s.updLock n g).phase = s.phase := rfl
@[simp] theorem variant_updLock (s : State) (n : Nat) (g : Lock → Lock) : (s.updLock n g).variant = s.variant := rfl
@[simp] theorem now_updLock (s : State) (n : Nat) (g : Lock → Lock) : (s.updLock n g).now = s.now := rfl
@[simp] theorem regs_updLock (s : State) (n : Nat) (g : Lock → Lock) : (s.updLock n g).regs = s.regs := rfl
@[simp] theorem mem_updLock (s : State) (n : Nat) (g : Lock → Lock) : (s.updLock n g).mem = s.mem := rfl
@[simp] theorem hostMem_updLock (s : State) (n : Nat) (g : Lock → Lock) : (s.updLock n g).hostMem = s.hostMem := rfl
@[simp] theorem scratch_updLock (s : State) (n : Nat) (g : Lock → Lock) : (s.updLock n g).scratch = s.scratch := rfl
@[simp] theorem tallies_updLock (s : State) (n : Nat) (g : Lock → Lock) : (s.updLock n g).tallies = s.tallies := rfl
@[simp] theorem timers_updLock (s : State) (n : Nat) (g : Lock → Lock) : (s.updLock n g).timers = s.timers := rfl
@[simp] theorem out_updLock (s : State) (n : Nat) (g : Lock → Lock) : (s.updLock n g).out = s.out := rfl
@[simp] theorem raised_updLock (s : State) (n : Nat) (g : Lock → Lock) : (s.updLock n g).raised = s.raised := rfl
@[simp] theorem jobs_updLock (s : State) (n : Nat) (g : Lock → Lock) : (s.updLock n g).jobs = s.jobs := rfl
@[simp] theorem queues_updLock (s : State) (n : Nat) (g : Lock → Lock) : (s.updLock n g).queues = s.queues := rfl
@[simp] theorem threads_updLock (s : State) (n : Nat) (g : Lock → Lock) : (s.updLock n g).threads = s.threads := rfl
@[simp] theorem banks_updLock (s : State) (n : Nat) (g : Lock → Lock) : (s.updLock n g).banks = s.banks := rfl
@[simp] theorem ring_updLock (s : State) (n : Nat) (g : Lock → Lock) : (s.updLock n g).ring = s.ring := rfl
@[simp] theorem ctxs_updLock (s : State) (n : Nat) (g : Lock → Lock) : (s.updLock n g).ctxs = s.ctxs := rfl
@[simp] theorem manifest_updLock (s : State) (n : Nat) (g : Lock → Lock) : (s.updLock n g).manifest = s.manifest := rfl
@[simp] theorem rd_updLock (s : State) (n : Nat) (g : Lock → Lock) (x : Fld) (y : Nat) : (s.updLock n g).rd x y = s.rd x y := rfl
@[simp] theorem tally_updLock (s : State) (n : Nat) (g : Lock → Lock) (x : Nat) : (s.updLock n g).tally x = s.tally x := rfl
@[simp] theorem thread_updLock (s : State) (n : Nat) (g : Lock → Lock) (x y : Nat) : (s.updLock n g).thread x y = s.thread x y := rfl
@[simp] theorem q_updLock (s : State) (n : Nat) (g : Lock → Lock) (x : Nat) : (s.updLock n g).q x = s.q x := rfl

/-! ## updFerry -/

@[simp] theorem pending_updFerry (s : State) (f : Nat) (g : Ferry → Ferry) : (s.updFerry f g).pending = s.pending := rfl
@[simp] theorem phase_updFerry (s : State) (f : Nat) (g : Ferry → Ferry) : (s.updFerry f g).phase = s.phase := rfl
@[simp] theorem variant_updFerry (s : State) (f : Nat) (g : Ferry → Ferry) : (s.updFerry f g).variant = s.variant := rfl
@[simp] theorem now_updFerry (s : State) (f : Nat) (g : Ferry → Ferry) : (s.updFerry f g).now = s.now := rfl
@[simp] theorem regs_updFerry (s : State) (f : Nat) (g : Ferry → Ferry) : (s.updFerry f g).regs = s.regs := rfl
@[simp] theorem mem_updFerry (s : State) (f : Nat) (g : Ferry → Ferry) : (s.updFerry f g).mem = s.mem := rfl
@[simp] theorem hostMem_updFerry (s : State) (f : Nat) (g : Ferry → Ferry) : (s.updFerry f g).hostMem = s.hostMem := rfl
@[simp] theorem scratch_updFerry (s : State) (f : Nat) (g : Ferry → Ferry) : (s.updFerry f g).scratch = s.scratch := rfl
@[simp] theorem tallies_updFerry (s : State) (f : Nat) (g : Ferry → Ferry) : (s.updFerry f g).tallies = s.tallies := rfl
@[simp] theorem timers_updFerry (s : State) (f : Nat) (g : Ferry → Ferry) : (s.updFerry f g).timers = s.timers := rfl
@[simp] theorem out_updFerry (s : State) (f : Nat) (g : Ferry → Ferry) : (s.updFerry f g).out = s.out := rfl
@[simp] theorem raised_updFerry (s : State) (f : Nat) (g : Ferry → Ferry) : (s.updFerry f g).raised = s.raised := rfl
@[simp] theorem jobs_updFerry (s : State) (f : Nat) (g : Ferry → Ferry) : (s.updFerry f g).jobs = s.jobs := rfl
@[simp] theorem queues_updFerry (s : State) (f : Nat) (g : Ferry → Ferry) : (s.updFerry f g).queues = s.queues := rfl
@[simp] theorem threads_updFerry (s : State) (f : Nat) (g : Ferry → Ferry) : (s.updFerry f g).threads = s.threads := rfl
@[simp] theorem locks_updFerry (s : State) (f : Nat) (g : Ferry → Ferry) : (s.updFerry f g).locks = s.locks := rfl
@[simp] theorem banks_updFerry (s : State) (f : Nat) (g : Ferry → Ferry) : (s.updFerry f g).banks = s.banks := rfl
@[simp] theorem ring_updFerry (s : State) (f : Nat) (g : Ferry → Ferry) : (s.updFerry f g).ring = s.ring := rfl
@[simp] theorem ctxs_updFerry (s : State) (f : Nat) (g : Ferry → Ferry) : (s.updFerry f g).ctxs = s.ctxs := rfl
@[simp] theorem manifest_updFerry (s : State) (f : Nat) (g : Ferry → Ferry) : (s.updFerry f g).manifest = s.manifest := rfl
@[simp] theorem rd_updFerry (s : State) (f : Nat) (g : Ferry → Ferry) (x : Fld) (y : Nat) : (s.updFerry f g).rd x y = s.rd x y := rfl
@[simp] theorem tally_updFerry (s : State) (f : Nat) (g : Ferry → Ferry) (x : Nat) : (s.updFerry f g).tally x = s.tally x := rfl
@[simp] theorem thread_updFerry (s : State) (f : Nat) (g : Ferry → Ferry) (x y : Nat) : (s.updFerry f g).thread x y = s.thread x y := rfl
@[simp] theorem lock_updFerry (s : State) (f : Nat) (g : Ferry → Ferry) (x : Nat) : (s.updFerry f g).lock x = s.lock x := rfl
@[simp] theorem q_updFerry (s : State) (f : Nat) (g : Ferry → Ferry) (x : Nat) : (s.updFerry f g).q x = s.q x := rfl

/-! ## updFn -/

@[simp] theorem pending_updFn (s : State) (f : Func) (g : FnSt → FnSt) : (s.updFn f g).pending = s.pending := rfl
@[simp] theorem phase_updFn (s : State) (f : Func) (g : FnSt → FnSt) : (s.updFn f g).phase = s.phase := rfl
@[simp] theorem variant_updFn (s : State) (f : Func) (g : FnSt → FnSt) : (s.updFn f g).variant = s.variant := rfl
@[simp] theorem now_updFn (s : State) (f : Func) (g : FnSt → FnSt) : (s.updFn f g).now = s.now := rfl
@[simp] theorem regs_updFn (s : State) (f : Func) (g : FnSt → FnSt) : (s.updFn f g).regs = s.regs := rfl
@[simp] theorem mem_updFn (s : State) (f : Func) (g : FnSt → FnSt) : (s.updFn f g).mem = s.mem := rfl
@[simp] theorem hostMem_updFn (s : State) (f : Func) (g : FnSt → FnSt) : (s.updFn f g).hostMem = s.hostMem := rfl
@[simp] theorem scratch_updFn (s : State) (f : Func) (g : FnSt → FnSt) : (s.updFn f g).scratch = s.scratch := rfl
@[simp] theorem tallies_updFn (s : State) (f : Func) (g : FnSt → FnSt) : (s.updFn f g).tallies = s.tallies := rfl
@[simp] theorem timers_updFn (s : State) (f : Func) (g : FnSt → FnSt) : (s.updFn f g).timers = s.timers := rfl
@[simp] theorem out_updFn (s : State) (f : Func) (g : FnSt → FnSt) : (s.updFn f g).out = s.out := rfl
@[simp] theorem raised_updFn (s : State) (f : Func) (g : FnSt → FnSt) : (s.updFn f g).raised = s.raised := rfl
@[simp] theorem jobs_updFn (s : State) (f : Func) (g : FnSt → FnSt) : (s.updFn f g).jobs = s.jobs := rfl
@[simp] theorem queues_updFn (s : State) (f : Func) (g : FnSt → FnSt) : (s.updFn f g).queues = s.queues := rfl
@[simp] theorem threads_updFn (s : State) (f : Func) (g : FnSt → FnSt) : (s.updFn f g).threads = s.threads := rfl
@[simp] theorem locks_updFn (s : State) (f : Func) (g : FnSt → FnSt) : (s.updFn f g).locks = s.locks := rfl
@[simp] theorem banks_updFn (s : State) (f : Func) (g : FnSt → FnSt) : (s.updFn f g).banks = s.banks := rfl
@[simp] theorem ring_updFn (s : State) (f : Func) (g : FnSt → FnSt) : (s.updFn f g).ring = s.ring := rfl
@[simp] theorem ctxs_updFn (s : State) (f : Func) (g : FnSt → FnSt) : (s.updFn f g).ctxs = s.ctxs := rfl
@[simp] theorem manifest_updFn (s : State) (f : Func) (g : FnSt → FnSt) : (s.updFn f g).manifest = s.manifest := rfl
@[simp] theorem rd_updFn (s : State) (f : Func) (g : FnSt → FnSt) (x : Fld) (y : Nat) : (s.updFn f g).rd x y = s.rd x y := rfl
@[simp] theorem tally_updFn (s : State) (f : Func) (g : FnSt → FnSt) (x : Nat) : (s.updFn f g).tally x = s.tally x := rfl
@[simp] theorem thread_updFn (s : State) (f : Func) (g : FnSt → FnSt) (x y : Nat) : (s.updFn f g).thread x y = s.thread x y := rfl
@[simp] theorem lock_updFn (s : State) (f : Func) (g : FnSt → FnSt) (x : Nat) : (s.updFn f g).lock x = s.lock x := rfl
@[simp] theorem q_updFn (s : State) (f : Func) (g : FnSt → FnSt) (x : Nat) : (s.updFn f g).q x = s.q x := rfl

/-! ## updLink -/

@[simp] theorem pending_updLink (s : State) (p : Nat) (f : Link → Link) : (s.updLink p f).pending = s.pending := rfl
@[simp] theorem phase_updLink (s : State) (p : Nat) (f : Link → Link) : (s.updLink p f).phase = s.phase := rfl
@[simp] theorem variant_updLink (s : State) (p : Nat) (f : Link → Link) : (s.updLink p f).variant = s.variant := rfl
@[simp] theorem now_updLink (s : State) (p : Nat) (f : Link → Link) : (s.updLink p f).now = s.now := rfl
@[simp] theorem regs_updLink (s : State) (p : Nat) (f : Link → Link) : (s.updLink p f).regs = s.regs := rfl
@[simp] theorem mem_updLink (s : State) (p : Nat) (f : Link → Link) : (s.updLink p f).mem = s.mem := rfl
@[simp] theorem hostMem_updLink (s : State) (p : Nat) (f : Link → Link) : (s.updLink p f).hostMem = s.hostMem := rfl
@[simp] theorem scratch_updLink (s : State) (p : Nat) (f : Link → Link) : (s.updLink p f).scratch = s.scratch := rfl
@[simp] theorem tallies_updLink (s : State) (p : Nat) (f : Link → Link) : (s.updLink p f).tallies = s.tallies := rfl
@[simp] theorem timers_updLink (s : State) (p : Nat) (f : Link → Link) : (s.updLink p f).timers = s.timers := rfl
@[simp] theorem out_updLink (s : State) (p : Nat) (f : Link → Link) : (s.updLink p f).out = s.out := rfl
@[simp] theorem raised_updLink (s : State) (p : Nat) (f : Link → Link) : (s.updLink p f).raised = s.raised := rfl
@[simp] theorem jobs_updLink (s : State) (p : Nat) (f : Link → Link) : (s.updLink p f).jobs = s.jobs := rfl
@[simp] theorem queues_updLink (s : State) (p : Nat) (f : Link → Link) : (s.updLink p f).queues = s.queues := rfl
@[simp] theorem threads_updLink (s : State) (p : Nat) (f : Link → Link) : (s.updLink p f).threads = s.threads := rfl
@[simp] theorem locks_updLink (s : State) (p : Nat) (f : Link → Link) : (s.updLink p f).locks = s.locks := rfl
@[simp] theorem banks_updLink (s : State) (p : Nat) (f : Link → Link) : (s.updLink p f).banks = s.banks := rfl
@[simp] theorem ring_updLink (s : State) (p : Nat) (f : Link → Link) : (s.updLink p f).ring = s.ring := rfl
@[simp] theorem ctxs_updLink (s : State) (p : Nat) (f : Link → Link) : (s.updLink p f).ctxs = s.ctxs := rfl
@[simp] theorem manifest_updLink (s : State) (p : Nat) (f : Link → Link) : (s.updLink p f).manifest = s.manifest := rfl
@[simp] theorem rd_updLink (s : State) (p : Nat) (f : Link → Link) (x : Fld) (y : Nat) : (s.updLink p f).rd x y = s.rd x y := rfl
@[simp] theorem tally_updLink (s : State) (p : Nat) (f : Link → Link) (x : Nat) : (s.updLink p f).tally x = s.tally x := rfl
@[simp] theorem thread_updLink (s : State) (p : Nat) (f : Link → Link) (x y : Nat) : (s.updLink p f).thread x y = s.thread x y := rfl
@[simp] theorem lock_updLink (s : State) (p : Nat) (f : Link → Link) (x : Nat) : (s.updLink p f).lock x = s.lock x := rfl
@[simp] theorem q_updLink (s : State) (p : Nat) (f : Link → Link) (x : Nat) : (s.updLink p f).q x = s.q x := rfl

/-! ## updLane -/

@[simp] theorem pending_updLane (s : State) (l : Nat) (f : Lane → Lane) : (s.updLane l f).pending = s.pending := rfl
@[simp] theorem phase_updLane (s : State) (l : Nat) (f : Lane → Lane) : (s.updLane l f).phase = s.phase := rfl
@[simp] theorem variant_updLane (s : State) (l : Nat) (f : Lane → Lane) : (s.updLane l f).variant = s.variant := rfl
@[simp] theorem now_updLane (s : State) (l : Nat) (f : Lane → Lane) : (s.updLane l f).now = s.now := rfl
@[simp] theorem regs_updLane (s : State) (l : Nat) (f : Lane → Lane) : (s.updLane l f).regs = s.regs := rfl
@[simp] theorem mem_updLane (s : State) (l : Nat) (f : Lane → Lane) : (s.updLane l f).mem = s.mem := rfl
@[simp] theorem hostMem_updLane (s : State) (l : Nat) (f : Lane → Lane) : (s.updLane l f).hostMem = s.hostMem := rfl
@[simp] theorem scratch_updLane (s : State) (l : Nat) (f : Lane → Lane) : (s.updLane l f).scratch = s.scratch := rfl
@[simp] theorem tallies_updLane (s : State) (l : Nat) (f : Lane → Lane) : (s.updLane l f).tallies = s.tallies := rfl
@[simp] theorem timers_updLane (s : State) (l : Nat) (f : Lane → Lane) : (s.updLane l f).timers = s.timers := rfl
@[simp] theorem out_updLane (s : State) (l : Nat) (f : Lane → Lane) : (s.updLane l f).out = s.out := rfl
@[simp] theorem raised_updLane (s : State) (l : Nat) (f : Lane → Lane) : (s.updLane l f).raised = s.raised := rfl
@[simp] theorem jobs_updLane (s : State) (l : Nat) (f : Lane → Lane) : (s.updLane l f).jobs = s.jobs := rfl
@[simp] theorem queues_updLane (s : State) (l : Nat) (f : Lane → Lane) : (s.updLane l f).queues = s.queues := rfl
@[simp] theorem threads_updLane (s : State) (l : Nat) (f : Lane → Lane) : (s.updLane l f).threads = s.threads := rfl
@[simp] theorem locks_updLane (s : State) (l : Nat) (f : Lane → Lane) : (s.updLane l f).locks = s.locks := rfl
@[simp] theorem banks_updLane (s : State) (l : Nat) (f : Lane → Lane) : (s.updLane l f).banks = s.banks := rfl
@[simp] theorem ring_updLane (s : State) (l : Nat) (f : Lane → Lane) : (s.updLane l f).ring = s.ring := rfl
@[simp] theorem ctxs_updLane (s : State) (l : Nat) (f : Lane → Lane) : (s.updLane l f).ctxs = s.ctxs := rfl
@[simp] theorem manifest_updLane (s : State) (l : Nat) (f : Lane → Lane) : (s.updLane l f).manifest = s.manifest := rfl
@[simp] theorem rd_updLane (s : State) (l : Nat) (f : Lane → Lane) (x : Fld) (y : Nat) : (s.updLane l f).rd x y = s.rd x y := rfl
@[simp] theorem tally_updLane (s : State) (l : Nat) (f : Lane → Lane) (x : Nat) : (s.updLane l f).tally x = s.tally x := rfl
@[simp] theorem thread_updLane (s : State) (l : Nat) (f : Lane → Lane) (x y : Nat) : (s.updLane l f).thread x y = s.thread x y := rfl
@[simp] theorem lock_updLane (s : State) (l : Nat) (f : Lane → Lane) (x : Nat) : (s.updLane l f).lock x = s.lock x := rfl
@[simp] theorem q_updLane (s : State) (l : Nat) (f : Lane → Lane) (x : Nat) : (s.updLane l f).q x = s.q x := rfl

/-! ## updM -/

@[simp] theorem pending_updM (s : State) (m : Nat) (f : MEntry → MEntry) : (s.updM m f).pending = s.pending := rfl
@[simp] theorem phase_updM (s : State) (m : Nat) (f : MEntry → MEntry) : (s.updM m f).phase = s.phase := rfl
@[simp] theorem variant_updM (s : State) (m : Nat) (f : MEntry → MEntry) : (s.updM m f).variant = s.variant := rfl
@[simp] theorem now_updM (s : State) (m : Nat) (f : MEntry → MEntry) : (s.updM m f).now = s.now := rfl
@[simp] theorem regs_updM (s : State) (m : Nat) (f : MEntry → MEntry) : (s.updM m f).regs = s.regs := rfl
@[simp] theorem mem_updM (s : State) (m : Nat) (f : MEntry → MEntry) : (s.updM m f).mem = s.mem := rfl
@[simp] theorem hostMem_updM (s : State) (m : Nat) (f : MEntry → MEntry) : (s.updM m f).hostMem = s.hostMem := rfl
@[simp] theorem scratch_updM (s : State) (m : Nat) (f : MEntry → MEntry) : (s.updM m f).scratch = s.scratch := rfl
@[simp] theorem tallies_updM (s : State) (m : Nat) (f : MEntry → MEntry) : (s.updM m f).tallies = s.tallies := rfl
@[simp] theorem timers_updM (s : State) (m : Nat) (f : MEntry → MEntry) : (s.updM m f).timers = s.timers := rfl
@[simp] theorem out_updM (s : State) (m : Nat) (f : MEntry → MEntry) : (s.updM m f).out = s.out := rfl
@[simp] theorem raised_updM (s : State) (m : Nat) (f : MEntry → MEntry) : (s.updM m f).raised = s.raised := rfl
@[simp] theorem jobs_updM (s : State) (m : Nat) (f : MEntry → MEntry) : (s.updM m f).jobs = s.jobs := rfl
@[simp] theorem queues_updM (s : State) (m : Nat) (f : MEntry → MEntry) : (s.updM m f).queues = s.queues := rfl
@[simp] theorem threads_updM (s : State) (m : Nat) (f : MEntry → MEntry) : (s.updM m f).threads = s.threads := rfl
@[simp] theorem locks_updM (s : State) (m : Nat) (f : MEntry → MEntry) : (s.updM m f).locks = s.locks := rfl
@[simp] theorem banks_updM (s : State) (m : Nat) (f : MEntry → MEntry) : (s.updM m f).banks = s.banks := rfl
@[simp] theorem ring_updM (s : State) (m : Nat) (f : MEntry → MEntry) : (s.updM m f).ring = s.ring := rfl
@[simp] theorem ctxs_updM (s : State) (m : Nat) (f : MEntry → MEntry) : (s.updM m f).ctxs = s.ctxs := rfl
@[simp] theorem rd_updM (s : State) (m : Nat) (f : MEntry → MEntry) (x : Fld) (y : Nat) : (s.updM m f).rd x y = s.rd x y := rfl
@[simp] theorem tally_updM (s : State) (m : Nat) (f : MEntry → MEntry) (x : Nat) : (s.updM m f).tally x = s.tally x := rfl
@[simp] theorem thread_updM (s : State) (m : Nat) (f : MEntry → MEntry) (x y : Nat) : (s.updM m f).thread x y = s.thread x y := rfl
@[simp] theorem lock_updM (s : State) (m : Nat) (f : MEntry → MEntry) (x : Nat) : (s.updM m f).lock x = s.lock x := rfl
@[simp] theorem q_updM (s : State) (m : Nat) (f : MEntry → MEntry) (x : Nat) : (s.updM m f).q x = s.q x := rfl

/-! ## updCtx -/

@[simp] theorem pending_updCtx (s : State) (c : Nat) (f : Ctx → Ctx) : (s.updCtx c f).pending = s.pending := rfl
@[simp] theorem phase_updCtx (s : State) (c : Nat) (f : Ctx → Ctx) : (s.updCtx c f).phase = s.phase := rfl
@[simp] theorem variant_updCtx (s : State) (c : Nat) (f : Ctx → Ctx) : (s.updCtx c f).variant = s.variant := rfl
@[simp] theorem now_updCtx (s : State) (c : Nat) (f : Ctx → Ctx) : (s.updCtx c f).now = s.now := rfl
@[simp] theorem regs_updCtx (s : State) (c : Nat) (f : Ctx → Ctx) : (s.updCtx c f).regs = s.regs := rfl
@[simp] theorem mem_updCtx (s : State) (c : Nat) (f : Ctx → Ctx) : (s.updCtx c f).mem = s.mem := rfl
@[simp] theorem hostMem_updCtx (s : State) (c : Nat) (f : Ctx → Ctx) : (s.updCtx c f).hostMem = s.hostMem := rfl
@[simp] theorem scratch_updCtx (s : State) (c : Nat) (f : Ctx → Ctx) : (s.updCtx c f).scratch = s.scratch := rfl
@[simp] theorem tallies_updCtx (s : State) (c : Nat) (f : Ctx → Ctx) : (s.updCtx c f).tallies = s.tallies := rfl
@[simp] theorem timers_updCtx (s : State) (c : Nat) (f : Ctx → Ctx) : (s.updCtx c f).timers = s.timers := rfl
@[simp] theorem out_updCtx (s : State) (c : Nat) (f : Ctx → Ctx) : (s.updCtx c f).out = s.out := rfl
@[simp] theorem raised_updCtx (s : State) (c : Nat) (f : Ctx → Ctx) : (s.updCtx c f).raised = s.raised := rfl
@[simp] theorem jobs_updCtx (s : State) (c : Nat) (f : Ctx → Ctx) : (s.updCtx c f).jobs = s.jobs := rfl
@[simp] theorem queues_updCtx (s : State) (c : Nat) (f : Ctx → Ctx) : (s.updCtx c f).queues = s.queues := rfl
@[simp] theorem threads_updCtx (s : State) (c : Nat) (f : Ctx → Ctx) : (s.updCtx c f).threads = s.threads := rfl
@[simp] theorem locks_updCtx (s : State) (c : Nat) (f : Ctx → Ctx) : (s.updCtx c f).locks = s.locks := rfl
@[simp] theorem banks_updCtx (s : State) (c : Nat) (f : Ctx → Ctx) : (s.updCtx c f).banks = s.banks := rfl
@[simp] theorem ring_updCtx (s : State) (c : Nat) (f : Ctx → Ctx) : (s.updCtx c f).ring = s.ring := rfl
@[simp] theorem manifest_updCtx (s : State) (c : Nat) (f : Ctx → Ctx) : (s.updCtx c f).manifest = s.manifest := rfl
@[simp] theorem rd_updCtx (s : State) (c : Nat) (f : Ctx → Ctx) (x : Fld) (y : Nat) : (s.updCtx c f).rd x y = s.rd x y := rfl
@[simp] theorem tally_updCtx (s : State) (c : Nat) (f : Ctx → Ctx) (x : Nat) : (s.updCtx c f).tally x = s.tally x := rfl
@[simp] theorem thread_updCtx (s : State) (c : Nat) (f : Ctx → Ctx) (x y : Nat) : (s.updCtx c f).thread x y = s.thread x y := rfl
@[simp] theorem lock_updCtx (s : State) (c : Nat) (f : Ctx → Ctx) (x : Nat) : (s.updCtx c f).lock x = s.lock x := rfl
@[simp] theorem q_updCtx (s : State) (c : Nat) (f : Ctx → Ctx) (x : Nat) : (s.updCtx c f).q x = s.q x := rfl

/-! ## updTransit -/

@[simp] theorem pending_updTransit (s : State) (n : Nat) (f : Transit → Transit) : (s.updTransit n f).pending = s.pending := rfl
@[simp] theorem phase_updTransit (s : State) (n : Nat) (f : Transit → Transit) : (s.updTransit n f).phase = s.phase := rfl
@[simp] theorem variant_updTransit (s : State) (n : Nat) (f : Transit → Transit) : (s.updTransit n f).variant = s.variant := rfl
@[simp] theorem now_updTransit (s : State) (n : Nat) (f : Transit → Transit) : (s.updTransit n f).now = s.now := rfl
@[simp] theorem regs_updTransit (s : State) (n : Nat) (f : Transit → Transit) : (s.updTransit n f).regs = s.regs := rfl
@[simp] theorem mem_updTransit (s : State) (n : Nat) (f : Transit → Transit) : (s.updTransit n f).mem = s.mem := rfl
@[simp] theorem hostMem_updTransit (s : State) (n : Nat) (f : Transit → Transit) : (s.updTransit n f).hostMem = s.hostMem := rfl
@[simp] theorem scratch_updTransit (s : State) (n : Nat) (f : Transit → Transit) : (s.updTransit n f).scratch = s.scratch := rfl
@[simp] theorem tallies_updTransit (s : State) (n : Nat) (f : Transit → Transit) : (s.updTransit n f).tallies = s.tallies := rfl
@[simp] theorem timers_updTransit (s : State) (n : Nat) (f : Transit → Transit) : (s.updTransit n f).timers = s.timers := rfl
@[simp] theorem out_updTransit (s : State) (n : Nat) (f : Transit → Transit) : (s.updTransit n f).out = s.out := rfl
@[simp] theorem raised_updTransit (s : State) (n : Nat) (f : Transit → Transit) : (s.updTransit n f).raised = s.raised := rfl
@[simp] theorem jobs_updTransit (s : State) (n : Nat) (f : Transit → Transit) : (s.updTransit n f).jobs = s.jobs := rfl
@[simp] theorem queues_updTransit (s : State) (n : Nat) (f : Transit → Transit) : (s.updTransit n f).queues = s.queues := rfl
@[simp] theorem threads_updTransit (s : State) (n : Nat) (f : Transit → Transit) : (s.updTransit n f).threads = s.threads := rfl
@[simp] theorem locks_updTransit (s : State) (n : Nat) (f : Transit → Transit) : (s.updTransit n f).locks = s.locks := rfl
@[simp] theorem banks_updTransit (s : State) (n : Nat) (f : Transit → Transit) : (s.updTransit n f).banks = s.banks := rfl
@[simp] theorem ring_updTransit (s : State) (n : Nat) (f : Transit → Transit) : (s.updTransit n f).ring = s.ring := rfl
@[simp] theorem ctxs_updTransit (s : State) (n : Nat) (f : Transit → Transit) : (s.updTransit n f).ctxs = s.ctxs := rfl
@[simp] theorem manifest_updTransit (s : State) (n : Nat) (f : Transit → Transit) : (s.updTransit n f).manifest = s.manifest := rfl
@[simp] theorem rd_updTransit (s : State) (n : Nat) (f : Transit → Transit) (x : Fld) (y : Nat) : (s.updTransit n f).rd x y = s.rd x y := rfl
@[simp] theorem tally_updTransit (s : State) (n : Nat) (f : Transit → Transit) (x : Nat) : (s.updTransit n f).tally x = s.tally x := rfl
@[simp] theorem thread_updTransit (s : State) (n : Nat) (f : Transit → Transit) (x y : Nat) : (s.updTransit n f).thread x y = s.thread x y := rfl
@[simp] theorem lock_updTransit (s : State) (n : Nat) (f : Transit → Transit) (x : Nat) : (s.updTransit n f).lock x = s.lock x := rfl
@[simp] theorem q_updTransit (s : State) (n : Nat) (f : Transit → Transit) (x : Nat) : (s.updTransit n f).q x = s.q x := rfl

end Sys2Proof.Laws
end

