-- ==== Sys2Proof/Laws/Answer.lean ====
section
/-! SUPPORT. When a meaning answers, and with which state: one lemma for each of the wrappers that meanings are written with. -/

namespace Sys2Proof.Laws

open Sys2Proof.Machine

/-- A core-domain meaning while the device is up. -/
theorem whenUp_eq {s : State} {f : State → State} (h : s.phase = .running) : s.whenUp f = .next (f s).collected := by
  simp only [State.whenUp, State.fin, h, if_true]

/-- A core-domain meaning while the device is not up leaves the state. -/
theorem whenUp_off {s : State} {f : State → State} (h : s.phase ≠ .running) : s.whenUp f = .next s := by
  simp only [State.whenUp, h, if_false]

/-- A meaning that the fatal state stops, while the device is up and not fatal. -/
theorem whenLive_eq {s : State} {f : State → State} (h : s.phase = .running) (hf : s.fatal = false) :
    s.whenLive f = .next (f s).collected := by
  simp only [State.whenLive, State.fin, h, hf, Bool.not_false, and_self, if_true]

/-- A reference-domain meaning outside auxiliary reset. -/
theorem whenRef_eq {s : State} {f : State → State} (h : s.phase ≠ .auxHeld) : s.whenRef f = .next (f s).collected := by
  simp only [State.whenRef, State.fin, h, if_false]

/-- A timed event whose timer runs. -/
theorem whenDue_eq {s : State} {k : TimerKey} {f : State → State} {t : Nat} (h : s.timers.look k = some t) :
    s.whenDue k f = .next (f ((s.setNow t).disarm k)).collected := by
  simp only [State.whenDue, State.fin, h]

/-- A timed event whose timer does not run leaves the state. -/
theorem whenDue_off {s : State} {k : TimerKey} {f : State → State} (h : s.timers.look k = none) : s.whenDue k f = .next s := by
  simp only [State.whenDue, h]

/-- The collector changes nothing where the step raised nothing. -/
theorem collected_eq {s : State} (h : s.raised = []) : s.collected = s := by
  simp only [State.collected, h, if_true]

/-- Taking an issue slot changes no thread's invocation. -/
theorem inv_tookSlot (s : State) (f t g k : Nat) : ((s.tookSlot f t).thread g k).inv = (s.thread g k).inv := by
  simp only [State.tookSlot]
  generalize (List.range 16).map _ = ts
  show ((List.foldl _ s ts).thread g k).inv = _
  induction ts generalizing s with
  | nil => rfl
  | cons u r ih =>
    rw [List.foldl_cons, ih]
    split
    · rfl
    · by_cases e : (g, k) = (f, u.1)
      · cases e; rw [thread_updThread_self]
      · rw [thread_updThread_ne _ _ e]

end Sys2Proof.Laws
end

