-- ==== Sys2Proof/Laws/Frame.lean ====
section
/-! SUPPORT. The frame of every operation: what it leaves alone (the command queue, the part's variant, and the register
    groups, memories
and tables that are not among its parts) and the shape of the state that it keeps (`State.Inv`). The parts of an operation are a
number, one bit for each. This file holds the relation and the rules that put operations together. -/

namespace Sys2Proof.Laws

open Sys2Proof.Machine

/-- The bit of a part. -/
def bit : Part → Nat
  | .glb => 0x1
  | .qu => 0x2
  | .tp => 0x4
  | .mf => 0x8
  | .ct => 0x10
  | .hd => 0x20
  | .ll => 0x40
  | .ln => 0x80
  | .xb => 0x100
  | .mt => 0x200
  | .fx => 0x400
  | .lk => 0x800
  | .tx => 0x1000
  | .hi => 0x2000
  | .mg => 0x4000
  | .log => 0x8000
  | .ft => 0x10000
  | .ec => 0x20000
  | .pw => 0x40000
  | .ef => 0x80000
  | .mem => 0x100000
  | .hostMem => 0x200000
  | .scratch => 0x400000
  | .tallies => 0x800000
  | .banks => 0x1000000
  | .jobs => 0x2000000
  | .locks => 0x4000000

/-- The parts of a list. -/
def mask : List Part → Nat
  | [] => 0
  | p :: r => bit p ||| mask r

/-- Every part of `a` is one of `b`. -/
def Sub (a b : Nat) : Prop := a &&& b = a

/-- A part of a part. -/
theorem sub_step {a b e : Nat} (hb : Sub b e) (h : a &&& b = a) : Sub a e := by
  unfold Sub at *
  rw [← h, Nat.and_assoc, hb]

/-- A field of a part. -/
theorem sub_field (f : Fld) {b e : Nat} (hb : Sub b e) (h : bit f.part &&& b = bit f.part) : Sub (bit f.part) e := sub_step hb h

/-- No part at all. -/
theorem sub_zero {e : Nat} : Sub 0 e := Nat.zero_and e

/-- The parts of a union. -/
theorem sub_or {a b e : Nat} (ha : Sub a e) (hb : Sub b e) : Sub (a ||| b) e := by
  unfold Sub at *
  rw [Nat.and_comm, Nat.and_or_distrib_left, Nat.and_comm, ha, Nat.and_comm, hb]

/-- A union has its parts. -/
theorem sub_left {a b e : Nat} (h : Sub (a ||| b) e) : Sub a e := sub_step h (by
  apply Nat.eq_of_testBit_eq; intro i; simp only [Nat.testBit_and, Nat.testBit_or]; cases a.testBit i <;> simp)

/-- A union has its parts. -/
theorem sub_right {a b e : Nat} (h : Sub (a ||| b) e) : Sub b e := sub_step h (by
  apply Nat.eq_of_testBit_eq; intro i; simp only [Nat.testBit_and, Nat.testBit_or]; cases b.testBit i <;> simp)

/-- A part has its bit. -/
theorem bit_ne (p : Part) : bit p ≠ 0 := by cases p <;> decide

/-- Two parts share no bit. -/
theorem bit_and {p q : Part} (h : p ≠ q) : bit p &&& bit q = 0 := by
  revert h; cases p <;> cases q <;> decide

/-- A part that is among others is not apart from them. -/
theorem not_apart {p : Part} {e : Nat} (h : Sub (bit p) e) (hf : e &&& bit p = 0) : False := by
  unfold Sub at h; rw [Nat.and_comm, hf] at h; exact bit_ne p h.symm

/-- A part that is not in a list is apart from it. -/
theorem apart_of_not_mem {p : Part} {l : List Part} (h : p ∉ l) : mask l &&& bit p = 0 := by
  induction l with
  | nil => exact Nat.zero_and _
  | cons q r ih =>
    simp only [List.mem_cons, not_or] at h
    unfold mask
    rw [Nat.and_comm, Nat.and_or_distrib_left, bit_and h.1, Nat.and_comm, ih h.2]
    rfl

/-- Every register field is of some register group. -/
theorem part_sub (f : Fld) : bit f.part &&& 0xfffff = bit f.part := by
  cases f <;> rfl

/-- The parts of the fields that a list of writes names. -/
def flds : List (Fld × Nat) → Nat
  | [] => 0
  | x :: r => bit x.1.part ||| flds r

/-- The parts of a list of fields. -/
def fldl : List Fld → Nat
  | [] => 0
  | x :: r => bit x.part ||| fldl r

/-- The parts of a list of fields with bounds. -/
def fldb : List (Fld × Nat × Nat) → Nat
  | [] => 0
  | x :: r => bit x.1.part ||| fldb r

/-- The parts of a list of writes, one by one. -/
theorem sub_flds {e : Nat} {f : Fld} {v : Nat} {r : List (Fld × Nat)} (h : Sub (bit f.part) e) (k : Sub (flds r) e) :
    Sub (flds ((f, v) :: r)) e := sub_or h k

/-- The parts of a list of fields with bounds, one by one. -/
theorem sub_fldb {e : Nat} {f : Fld} {v : Nat × Nat} {r : List (Fld × Nat × Nat)} (h : Sub (bit f.part) e) (k : Sub (fldb r) e) :
    Sub (fldb ((f, v) :: r)) e := sub_or h k

/-- The parts of a list of fields that take values from a function. -/
theorem flds_map (fs : List Fld) (g : Fld → Nat) : flds (fs.map fun f => (f, g f)) = fldl fs := by
  induction fs with
  | nil => rfl
  | cons f r ih => unfold fldl; rw [← ih]; rfl

/-- A list of fields is of the register groups. -/
theorem fldl_sub (fs : List Fld) : fldl fs &&& 0xfffff = fldl fs := by
  induction fs with
  | nil => rfl
  | cons f r ih => unfold fldl; rw [Nat.and_or_distrib_right, part_sub, ih]

/-- `t` keeps what `s` has: the queue of commands, the variant, the shape, and every part that is not in `e`. -/
structure Frame (e : Nat) (s t : State) : Prop where
  pending : t.pending = s.pending
  variant : t.variant = s.variant
  inv : s.Inv → t.Inv
  regs : ∀ f i, e &&& bit f.part = 0 → t.rd f i = s.rd f i
  ring : e &&& bit .log = 0 → t.ring = s.ring
  mem : e &&& bit .mem = 0 → t.mem = s.mem
  hostMem : e &&& bit .hostMem = 0 → t.hostMem = s.hostMem
  scratch : e &&& bit .scratch = 0 → t.scratch = s.scratch
  tallies : e &&& bit .tallies = 0 → t.tallies = s.tallies
  banks : e &&& bit .banks = 0 → t.banks = s.banks
  jobs : e &&& bit .jobs = 0 → t.jobs = s.jobs
  locks : e &&& bit .locks = 0 → t.locks = s.locks

/-- A state keeps what it has. -/
theorem Frame.refl (e : Nat) (s : State) : Frame e s s :=
  ⟨rfl, rfl, id, fun _ _ _ => rfl, fun _ => rfl, fun _ => rfl, fun _ => rfl, fun _ => rfl, fun _ => rfl, fun _ => rfl, fun _ =>
      rfl, fun _ => rfl⟩

/-- A state that keeps the queue, the variant and the shape keeps every part that is in none. -/
theorem Frame.ofAll {e : Nat} {s t : State} (hp : t.pending = s.pending) (hv : t.variant = s.variant) (hi : s.Inv → t.Inv)
    (hE : Sub 0x7ffffff e) : Frame e s t := by
  have k : ∀ p, e &&& bit p = 0 → False := fun p hf => not_apart (sub_step hE (by cases p <;> decide)) hf
  exact ⟨hp, hv, hi, fun f _ hf => (k _ hf).elim, fun hf => (k _ hf).elim, fun hf => (k _ hf).elim, fun hf => (k _ hf).elim,
    fun hf => (k _ hf).elim, fun hf => (k _ hf).elim, fun hf => (k _ hf).elim, fun hf => (k _ hf).elim, fun hf => (k _ hf).elim⟩

/-- What a frame over a list of parts leaves alone. -/
theorem Frame.leaves {l : List Part} {s t : State} (h : Frame (mask l) s t) : Leaves l s t :=
  ⟨h.variant, fun f i hf => h.regs f i (apart_of_not_mem hf), fun hf => h.ring (apart_of_not_mem hf), fun hf => h.mem
      (apart_of_not_mem hf),
    fun hf => h.hostMem (apart_of_not_mem hf), fun hf => h.scratch (apart_of_not_mem hf), fun hf => h.tallies (apart_of_not_mem hf),
    fun hf => h.banks (apart_of_not_mem hf), fun hf => h.jobs (apart_of_not_mem hf), fun hf => h.locks (apart_of_not_mem hf)⟩

/-- A command's outcome: a next state, before or after the collector has taken what it raised, that keeps what `s` has. -/
def OFrame (e : Nat) (s : State) (o : Host.Outcome State Fault Refusal) : Prop :=
  ∃ u, (o = .next u ∨ o = .next u.collected) ∧ Frame e s u

/-- `Frame` and `OFrame` under names of their own: the frame proofs run as the discharger of `simp only` with `framed` or
    `oframed`, which
leaves no trace of their steps behind, so that the files stay light to compile. -/
def FrameOf (e : Nat) (s t : State) : Prop := Frame e s t
def OFrameOf (e : Nat) (s : State) (o : Host.Outcome State Fault Refusal) : Prop := OFrame e s o
theorem framed {e : Nat} {s t : State} (h : FrameOf e s t) : Frame e s t := h
theorem oframed {e : Nat} {s : State} {o : Host.Outcome State Fault Refusal} (h : OFrameOf e s o) : OFrame e s o := h

/-- A next state that keeps it. -/
theorem OFrame.next {e : Nat} {s t : State} (h : Frame e s t) : OFrame e s (.next t) := ⟨t, .inl rfl, h⟩

/-- The first of a pair that was named. -/
theorem frame_fst {α : Type} {e : Nat} {s0 t : State} {p : State × α} {v : α} (h : Frame e s0 p.1) (q : p = (t, v)) : Frame e
    s0 t := by
  subst q; exact h

/-- A record update of anything but the parts. -/
theorem frame_any {e : Nat} {s0 s : State} (h : Frame e s0 s) {x_now x_phase x_pwrok x_strapMg x_strapHb x_sagHeld x_poison
    x_badReads x_timers x_out x_free x_nextId x_avs x_gradients x_perst x_ef x_unitInReset x_parked x_boots x_authDigests
    x_rootDigest x_identity x_chain x_sealSecret x_openSerial x_grants x_fmSessions x_meas x_challenge x_ownerAccepted x_spdm
    x_ide x_heldGen x_queues x_turns x_manifest x_ctxs x_closed x_ghosts x_moored x_mcStreams x_tops x_credits x_xfers x_windows
    x_revokes x_stale x_regions x_transit x_outq x_sending x_marked x_notices x_told x_arbs x_links x_lanes x_walkCache x_txCache
    x_invals x_fns x_vfEnable x_vfLeaving x_flash x_logRates x_lostPending x_images x_running x_mgLost x_mgCmds x_cmds x_eids
    x_sensAt x_live x_routeWait x_recvs x_msgs x_stamps x_colls x_servo x_firings x_trig x_whlCount x_ferries x_threads x_imem
    x_lines x_lkWord x_raised x_snaps x_checkFailed} :
    Frame e s0 (State.mk s.pending x_now s.variant x_phase x_pwrok x_strapMg x_strapHb x_sagHeld s.regs s.mem x_poison s.hostMem
        x_badReads s.scratch s.tallies x_timers x_out x_free x_nextId x_avs x_gradients x_perst x_ef x_unitInReset x_parked x_boots
        x_authDigests x_rootDigest x_identity x_chain x_sealSecret x_openSerial x_grants x_fmSessions x_meas x_challenge
        x_ownerAccepted x_spdm x_ide x_heldGen s.jobs x_queues x_turns x_manifest x_ctxs x_closed x_ghosts x_moored x_mcStreams
        x_tops x_credits x_xfers x_windows x_revokes x_stale x_regions s.banks x_transit x_outq x_sending x_marked x_notices x_told
        x_arbs x_links x_lanes x_walkCache x_txCache x_invals x_fns x_vfEnable x_vfLeaving s.ring x_flash x_logRates x_lostPending
        x_images x_running x_mgLost x_mgCmds x_cmds x_eids x_sensAt x_live x_routeWait x_recvs x_msgs x_stamps x_colls x_servo
        x_firings x_trig x_whlCount x_ferries x_threads x_imem x_lines s.locks x_lkWord x_raised x_snaps x_checkFailed) :=
  ⟨h.pending, h.variant, fun i => ⟨(h.inv i).mem, (h.inv i).hostMem, (h.inv i).scratch, (h.inv i).regs, (h.inv i).tallies⟩,
      h.regs, h.ring, h.mem, h.hostMem, h.scratch, h.tallies, h.banks, h.jobs, h.locks⟩

/-- A record update that also sets the wharf and package memory. -/
theorem frame_mem {e : Nat} {s0 s : State} (h : Frame e s0 s) {m : Memory} (hm : s.mem.wf = true → m.wf = true) {x_now
    x_phase x_pwrok x_strapMg x_strapHb x_sagHeld x_poison x_badReads x_timers x_out x_free x_nextId x_avs x_gradients x_perst
    x_ef x_unitInReset x_parked x_boots x_authDigests x_rootDigest x_identity x_chain x_sealSecret x_openSerial x_grants
    x_fmSessions x_meas x_challenge x_ownerAccepted x_spdm x_ide x_heldGen x_queues x_turns x_manifest x_ctxs x_closed x_ghosts
    x_moored x_mcStreams x_tops x_credits x_xfers x_windows x_revokes x_stale x_regions x_transit x_outq x_sending x_marked
    x_notices x_told x_arbs x_links x_lanes x_walkCache x_txCache x_invals x_fns x_vfEnable x_vfLeaving x_flash x_logRates
    x_lostPending x_images x_running x_mgLost x_mgCmds x_cmds x_eids x_sensAt x_live x_routeWait x_recvs x_msgs x_stamps x_colls
    x_servo x_firings x_trig x_whlCount x_ferries x_threads x_imem x_lines x_lkWord x_raised x_snaps x_checkFailed} (hE : Sub
    (bit .mem) e := by
      exact sub_step (by assumption) (by decide)) :
    Frame e s0 (State.mk s.pending x_now s.variant x_phase x_pwrok x_strapMg x_strapHb x_sagHeld s.regs m x_poison s.hostMem
        x_badReads s.scratch s.tallies x_timers x_out x_free x_nextId x_avs x_gradients x_perst x_ef x_unitInReset x_parked x_boots
        x_authDigests x_rootDigest x_identity x_chain x_sealSecret x_openSerial x_grants x_fmSessions x_meas x_challenge
        x_ownerAccepted x_spdm x_ide x_heldGen s.jobs x_queues x_turns x_manifest x_ctxs x_closed x_ghosts x_moored x_mcStreams
        x_tops x_credits x_xfers x_windows x_revokes x_stale x_regions s.banks x_transit x_outq x_sending x_marked x_notices x_told
        x_arbs x_links x_lanes x_walkCache x_txCache x_invals x_fns x_vfEnable x_vfLeaving s.ring x_flash x_logRates x_lostPending
        x_images x_running x_mgLost x_mgCmds x_cmds x_eids x_sensAt x_live x_routeWait x_recvs x_msgs x_stamps x_colls x_servo
        x_firings x_trig x_whlCount x_ferries x_threads x_imem x_lines s.locks x_lkWord x_raised x_snaps x_checkFailed) :=
  ⟨h.pending, h.variant, fun i => ⟨hm (h.inv i).mem, (h.inv i).hostMem, (h.inv i).scratch, (h.inv i).regs, (h.inv i).tallies⟩,
      h.regs, h.ring, fun hf => (not_apart hE hf).elim, h.hostMem, h.scratch, h.tallies, h.banks, h.jobs, h.locks⟩

/-- One that sets the host memories. -/
theorem frame_hostMem {e : Nat} {s0 s : State} (h : Frame e s0 s) {m : Memory} (hm : s.hostMem.wf = true → m.wf = true)
    {x_now x_phase x_pwrok x_strapMg x_strapHb x_sagHeld x_poison x_badReads x_timers x_out x_free x_nextId x_avs x_gradients
    x_perst x_ef x_unitInReset x_parked x_boots x_authDigests x_rootDigest x_identity x_chain x_sealSecret x_openSerial x_grants
    x_fmSessions x_meas x_challenge x_ownerAccepted x_spdm x_ide x_heldGen x_queues x_turns x_manifest x_ctxs x_closed x_ghosts
    x_moored x_mcStreams x_tops x_credits x_xfers x_windows x_revokes x_stale x_regions x_transit x_outq x_sending x_marked
    x_notices x_told x_arbs x_links x_lanes x_walkCache x_txCache x_invals x_fns x_vfEnable x_vfLeaving x_flash x_logRates
    x_lostPending x_images x_running x_mgLost x_mgCmds x_cmds x_eids x_sensAt x_live x_routeWait x_recvs x_msgs x_stamps x_colls
    x_servo x_firings x_trig x_whlCount x_ferries x_threads x_imem x_lines x_lkWord x_raised x_snaps x_checkFailed} (hE : Sub
    (bit .hostMem) e := by
      exact sub_step (by assumption) (by decide)) :
    Frame e s0 (State.mk s.pending x_now s.variant x_phase x_pwrok x_strapMg x_strapHb x_sagHeld s.regs s.mem x_poison m
        x_badReads s.scratch s.tallies x_timers x_out x_free x_nextId x_avs x_gradients x_perst x_ef x_unitInReset x_parked x_boots
        x_authDigests x_rootDigest x_identity x_chain x_sealSecret x_openSerial x_grants x_fmSessions x_meas x_challenge
        x_ownerAccepted x_spdm x_ide x_heldGen s.jobs x_queues x_turns x_manifest x_ctxs x_closed x_ghosts x_moored x_mcStreams
        x_tops x_credits x_xfers x_windows x_revokes x_stale x_regions s.banks x_transit x_outq x_sending x_marked x_notices x_told
        x_arbs x_links x_lanes x_walkCache x_txCache x_invals x_fns x_vfEnable x_vfLeaving s.ring x_flash x_logRates x_lostPending
        x_images x_running x_mgLost x_mgCmds x_cmds x_eids x_sensAt x_live x_routeWait x_recvs x_msgs x_stamps x_colls x_servo
        x_firings x_trig x_whlCount x_ferries x_threads x_imem x_lines s.locks x_lkWord x_raised x_snaps x_checkFailed) :=
  ⟨h.pending, h.variant, fun i => ⟨(h.inv i).mem, hm (h.inv i).hostMem, (h.inv i).scratch, (h.inv i).regs, (h.inv i).tallies⟩,
      h.regs, h.ring, h.mem, fun hf => (not_apart hE hf).elim, h.scratch, h.tallies, h.banks, h.jobs, h.locks⟩

/-- One that sets the scratch memories. -/
theorem frame_scratch {e : Nat} {s0 s : State} (h : Frame e s0 s) {m : Memory} (hm : s.scratch.wf = true → m.wf = true)
    {x_now x_phase x_pwrok x_strapMg x_strapHb x_sagHeld x_poison x_badReads x_timers x_out x_free x_nextId x_avs x_gradients
    x_perst x_ef x_unitInReset x_parked x_boots x_authDigests x_rootDigest x_identity x_chain x_sealSecret x_openSerial x_grants
    x_fmSessions x_meas x_challenge x_ownerAccepted x_spdm x_ide x_heldGen x_queues x_turns x_manifest x_ctxs x_closed x_ghosts
    x_moored x_mcStreams x_tops x_credits x_xfers x_windows x_revokes x_stale x_regions x_transit x_outq x_sending x_marked
    x_notices x_told x_arbs x_links x_lanes x_walkCache x_txCache x_invals x_fns x_vfEnable x_vfLeaving x_flash x_logRates
    x_lostPending x_images x_running x_mgLost x_mgCmds x_cmds x_eids x_sensAt x_live x_routeWait x_recvs x_msgs x_stamps x_colls
    x_servo x_firings x_trig x_whlCount x_ferries x_threads x_imem x_lines x_lkWord x_raised x_snaps x_checkFailed} (hE : Sub
    (bit .scratch) e := by
      exact sub_step (by assumption) (by decide)) :
    Frame e s0 (State.mk s.pending x_now s.variant x_phase x_pwrok x_strapMg x_strapHb x_sagHeld s.regs s.mem x_poison s.hostMem
        x_badReads m s.tallies x_timers x_out x_free x_nextId x_avs x_gradients x_perst x_ef x_unitInReset x_parked x_boots
        x_authDigests x_rootDigest x_identity x_chain x_sealSecret x_openSerial x_grants x_fmSessions x_meas x_challenge
        x_ownerAccepted x_spdm x_ide x_heldGen s.jobs x_queues x_turns x_manifest x_ctxs x_closed x_ghosts x_moored x_mcStreams
        x_tops x_credits x_xfers x_windows x_revokes x_stale x_regions s.banks x_transit x_outq x_sending x_marked x_notices x_told
        x_arbs x_links x_lanes x_walkCache x_txCache x_invals x_fns x_vfEnable x_vfLeaving s.ring x_flash x_logRates x_lostPending
        x_images x_running x_mgLost x_mgCmds x_cmds x_eids x_sensAt x_live x_routeWait x_recvs x_msgs x_stamps x_colls x_servo
        x_firings x_trig x_whlCount x_ferries x_threads x_imem x_lines s.locks x_lkWord x_raised x_snaps x_checkFailed) :=
  ⟨h.pending, h.variant, fun i => ⟨(h.inv i).mem, (h.inv i).hostMem, hm (h.inv i).scratch, (h.inv i).regs, (h.inv i).tallies⟩,
      h.regs, h.ring, h.mem, h.hostMem, fun hf => (not_apart hE hf).elim, h.tallies, h.banks, h.jobs, h.locks⟩

/-- One that sets a tally. -/
theorem frame_tallies {e : Nat} {s0 s : State} (h : Frame e s0 s) {g : Tab Nat Nat} (hg : (∀ c ∈ s.tallies.cells, c.2 < 2 ^
    64) → ∀ c ∈ g.cells, c.2 < 2 ^ 64) {x_now x_phase x_pwrok x_strapMg x_strapHb x_sagHeld x_poison x_badReads x_timers x_out
    x_free x_nextId x_avs x_gradients x_perst x_ef x_unitInReset x_parked x_boots x_authDigests x_rootDigest x_identity x_chain
    x_sealSecret x_openSerial x_grants x_fmSessions x_meas x_challenge x_ownerAccepted x_spdm x_ide x_heldGen x_queues x_turns
    x_manifest x_ctxs x_closed x_ghosts x_moored x_mcStreams x_tops x_credits x_xfers x_windows x_revokes x_stale x_regions
    x_transit x_outq x_sending x_marked x_notices x_told x_arbs x_links x_lanes x_walkCache x_txCache x_invals x_fns x_vfEnable
    x_vfLeaving x_flash x_logRates x_lostPending x_images x_running x_mgLost x_mgCmds x_cmds x_eids x_sensAt x_live x_routeWait
    x_recvs x_msgs x_stamps x_colls x_servo x_firings x_trig x_whlCount x_ferries x_threads x_imem x_lines x_lkWord x_raised
    x_snaps x_checkFailed} (hE : Sub (bit .tallies) e := by
      exact sub_step (by assumption) (by decide)) :
    Frame e s0 (State.mk s.pending x_now s.variant x_phase x_pwrok x_strapMg x_strapHb x_sagHeld s.regs s.mem x_poison s.hostMem
        x_badReads s.scratch g x_timers x_out x_free x_nextId x_avs x_gradients x_perst x_ef x_unitInReset x_parked x_boots
        x_authDigests x_rootDigest x_identity x_chain x_sealSecret x_openSerial x_grants x_fmSessions x_meas x_challenge
        x_ownerAccepted x_spdm x_ide x_heldGen s.jobs x_queues x_turns x_manifest x_ctxs x_closed x_ghosts x_moored x_mcStreams
        x_tops x_credits x_xfers x_windows x_revokes x_stale x_regions s.banks x_transit x_outq x_sending x_marked x_notices x_told
        x_arbs x_links x_lanes x_walkCache x_txCache x_invals x_fns x_vfEnable x_vfLeaving s.ring x_flash x_logRates x_lostPending
        x_images x_running x_mgLost x_mgCmds x_cmds x_eids x_sensAt x_live x_routeWait x_recvs x_msgs x_stamps x_colls x_servo
        x_firings x_trig x_whlCount x_ferries x_threads x_imem x_lines s.locks x_lkWord x_raised x_snaps x_checkFailed) :=
  ⟨h.pending, h.variant, fun i => ⟨(h.inv i).mem, (h.inv i).hostMem, (h.inv i).scratch, (h.inv i).regs, hg (h.inv i).tallies⟩,
      h.regs, h.ring, h.mem, h.hostMem, h.scratch, fun hf => (not_apart hE hf).elim, h.banks, h.jobs, h.locks⟩

/-- One that sets the routing tables. -/
theorem frame_banks {e : Nat} {s0 s : State} (h : Frame e s0 s) {g : Tab (Nat × Nat × Nat) Nat}  {x_now x_phase x_pwrok
    x_strapMg x_strapHb x_sagHeld x_poison x_badReads x_timers x_out x_free x_nextId x_avs x_gradients x_perst x_ef x_unitInReset
    x_parked x_boots x_authDigests x_rootDigest x_identity x_chain x_sealSecret x_openSerial x_grants x_fmSessions x_meas
    x_challenge x_ownerAccepted x_spdm x_ide x_heldGen x_queues x_turns x_manifest x_ctxs x_closed x_ghosts x_moored x_mcStreams
    x_tops x_credits x_xfers x_windows x_revokes x_stale x_regions x_transit x_outq x_sending x_marked x_notices x_told x_arbs
    x_links x_lanes x_walkCache x_txCache x_invals x_fns x_vfEnable x_vfLeaving x_flash x_logRates x_lostPending x_images
    x_running x_mgLost x_mgCmds x_cmds x_eids x_sensAt x_live x_routeWait x_recvs x_msgs x_stamps x_colls x_servo x_firings
    x_trig x_whlCount x_ferries x_threads x_imem x_lines x_lkWord x_raised x_snaps x_checkFailed} (hE : Sub (bit .banks) e := by
      exact sub_step (by assumption) (by decide)) :
    Frame e s0 (State.mk s.pending x_now s.variant x_phase x_pwrok x_strapMg x_strapHb x_sagHeld s.regs s.mem x_poison s.hostMem
        x_badReads s.scratch s.tallies x_timers x_out x_free x_nextId x_avs x_gradients x_perst x_ef x_unitInReset x_parked x_boots
        x_authDigests x_rootDigest x_identity x_chain x_sealSecret x_openSerial x_grants x_fmSessions x_meas x_challenge
        x_ownerAccepted x_spdm x_ide x_heldGen s.jobs x_queues x_turns x_manifest x_ctxs x_closed x_ghosts x_moored x_mcStreams
        x_tops x_credits x_xfers x_windows x_revokes x_stale x_regions g x_transit x_outq x_sending x_marked x_notices x_told x_arbs
        x_links x_lanes x_walkCache x_txCache x_invals x_fns x_vfEnable x_vfLeaving s.ring x_flash x_logRates x_lostPending x_images
        x_running x_mgLost x_mgCmds x_cmds x_eids x_sensAt x_live x_routeWait x_recvs x_msgs x_stamps x_colls x_servo x_firings
        x_trig x_whlCount x_ferries x_threads x_imem x_lines s.locks x_lkWord x_raised x_snaps x_checkFailed) :=
  ⟨h.pending, h.variant, fun i => ⟨(h.inv i).mem, (h.inv i).hostMem, (h.inv i).scratch, (h.inv i).regs, (h.inv i).tallies⟩,
      h.regs, h.ring, h.mem, h.hostMem, h.scratch, h.tallies, fun hf => (not_apart hE hf).elim, h.jobs, h.locks⟩

/-- One that sets the job slots. -/
theorem frame_jobs {e : Nat} {s0 s : State} (h : Frame e s0 s) {g : Tab Nat Job}  {x_now x_phase x_pwrok x_strapMg x_strapHb
    x_sagHeld x_poison x_badReads x_timers x_out x_free x_nextId x_avs x_gradients x_perst x_ef x_unitInReset x_parked x_boots
    x_authDigests x_rootDigest x_identity x_chain x_sealSecret x_openSerial x_grants x_fmSessions x_meas x_challenge
    x_ownerAccepted x_spdm x_ide x_heldGen x_queues x_turns x_manifest x_ctxs x_closed x_ghosts x_moored x_mcStreams x_tops
    x_credits x_xfers x_windows x_revokes x_stale x_regions x_transit x_outq x_sending x_marked x_notices x_told x_arbs x_links
    x_lanes x_walkCache x_txCache x_invals x_fns x_vfEnable x_vfLeaving x_flash x_logRates x_lostPending x_images x_running
    x_mgLost x_mgCmds x_cmds x_eids x_sensAt x_live x_routeWait x_recvs x_msgs x_stamps x_colls x_servo x_firings x_trig
    x_whlCount x_ferries x_threads x_imem x_lines x_lkWord x_raised x_snaps x_checkFailed} (hE : Sub (bit .jobs) e := by
      exact sub_step (by assumption) (by decide)) :
    Frame e s0 (State.mk s.pending x_now s.variant x_phase x_pwrok x_strapMg x_strapHb x_sagHeld s.regs s.mem x_poison s.hostMem
        x_badReads s.scratch s.tallies x_timers x_out x_free x_nextId x_avs x_gradients x_perst x_ef x_unitInReset x_parked x_boots
        x_authDigests x_rootDigest x_identity x_chain x_sealSecret x_openSerial x_grants x_fmSessions x_meas x_challenge
        x_ownerAccepted x_spdm x_ide x_heldGen g x_queues x_turns x_manifest x_ctxs x_closed x_ghosts x_moored x_mcStreams x_tops
        x_credits x_xfers x_windows x_revokes x_stale x_regions s.banks x_transit x_outq x_sending x_marked x_notices x_told x_arbs
        x_links x_lanes x_walkCache x_txCache x_invals x_fns x_vfEnable x_vfLeaving s.ring x_flash x_logRates x_lostPending x_images
        x_running x_mgLost x_mgCmds x_cmds x_eids x_sensAt x_live x_routeWait x_recvs x_msgs x_stamps x_colls x_servo x_firings
        x_trig x_whlCount x_ferries x_threads x_imem x_lines s.locks x_lkWord x_raised x_snaps x_checkFailed) :=
  ⟨h.pending, h.variant, fun i => ⟨(h.inv i).mem, (h.inv i).hostMem, (h.inv i).scratch, (h.inv i).regs, (h.inv i).tallies⟩,
      h.regs, h.ring, h.mem, h.hostMem, h.scratch, h.tallies, h.banks, fun hf => (not_apart hE hf).elim, h.locks⟩

/-- One that sets the locks. -/
theorem frame_locks {e : Nat} {s0 s : State} (h : Frame e s0 s) {g : Tab Nat Lock}  {x_now x_phase x_pwrok x_strapMg
    x_strapHb x_sagHeld x_poison x_badReads x_timers x_out x_free x_nextId x_avs x_gradients x_perst x_ef x_unitInReset x_parked
    x_boots x_authDigests x_rootDigest x_identity x_chain x_sealSecret x_openSerial x_grants x_fmSessions x_meas x_challenge
    x_ownerAccepted x_spdm x_ide x_heldGen x_queues x_turns x_manifest x_ctxs x_closed x_ghosts x_moored x_mcStreams x_tops
    x_credits x_xfers x_windows x_revokes x_stale x_regions x_transit x_outq x_sending x_marked x_notices x_told x_arbs x_links
    x_lanes x_walkCache x_txCache x_invals x_fns x_vfEnable x_vfLeaving x_flash x_logRates x_lostPending x_images x_running
    x_mgLost x_mgCmds x_cmds x_eids x_sensAt x_live x_routeWait x_recvs x_msgs x_stamps x_colls x_servo x_firings x_trig
    x_whlCount x_ferries x_threads x_imem x_lines x_lkWord x_raised x_snaps x_checkFailed} (hE : Sub (bit .locks) e := by
      exact sub_step (by assumption) (by decide)) :
    Frame e s0 (State.mk s.pending x_now s.variant x_phase x_pwrok x_strapMg x_strapHb x_sagHeld s.regs s.mem x_poison s.hostMem
        x_badReads s.scratch s.tallies x_timers x_out x_free x_nextId x_avs x_gradients x_perst x_ef x_unitInReset x_parked x_boots
        x_authDigests x_rootDigest x_identity x_chain x_sealSecret x_openSerial x_grants x_fmSessions x_meas x_challenge
        x_ownerAccepted x_spdm x_ide x_heldGen s.jobs x_queues x_turns x_manifest x_ctxs x_closed x_ghosts x_moored x_mcStreams
        x_tops x_credits x_xfers x_windows x_revokes x_stale x_regions s.banks x_transit x_outq x_sending x_marked x_notices x_told
        x_arbs x_links x_lanes x_walkCache x_txCache x_invals x_fns x_vfEnable x_vfLeaving s.ring x_flash x_logRates x_lostPending
        x_images x_running x_mgLost x_mgCmds x_cmds x_eids x_sensAt x_live x_routeWait x_recvs x_msgs x_stamps x_colls x_servo
        x_firings x_trig x_whlCount x_ferries x_threads x_imem x_lines g x_lkWord x_raised x_snaps x_checkFailed) :=
  ⟨h.pending, h.variant, fun i => ⟨(h.inv i).mem, (h.inv i).hostMem, (h.inv i).scratch, (h.inv i).regs, (h.inv i).tallies⟩,
      h.regs, h.ring, h.mem, h.hostMem, h.scratch, h.tallies, h.banks, h.jobs, fun hf => (not_apart hE hf).elim⟩

/-- One that sets the event log's ring. -/
theorem frame_ring {e : Nat} {s0 s : State} (h : Frame e s0 s) {g : List LogRec}  {x_now x_phase x_pwrok x_strapMg x_strapHb
    x_sagHeld x_poison x_badReads x_timers x_out x_free x_nextId x_avs x_gradients x_perst x_ef x_unitInReset x_parked x_boots
    x_authDigests x_rootDigest x_identity x_chain x_sealSecret x_openSerial x_grants x_fmSessions x_meas x_challenge
    x_ownerAccepted x_spdm x_ide x_heldGen x_queues x_turns x_manifest x_ctxs x_closed x_ghosts x_moored x_mcStreams x_tops
    x_credits x_xfers x_windows x_revokes x_stale x_regions x_transit x_outq x_sending x_marked x_notices x_told x_arbs x_links
    x_lanes x_walkCache x_txCache x_invals x_fns x_vfEnable x_vfLeaving x_flash x_logRates x_lostPending x_images x_running
    x_mgLost x_mgCmds x_cmds x_eids x_sensAt x_live x_routeWait x_recvs x_msgs x_stamps x_colls x_servo x_firings x_trig
    x_whlCount x_ferries x_threads x_imem x_lines x_lkWord x_raised x_snaps x_checkFailed} (hE : Sub (bit .log) e := by
      exact sub_step (by assumption) (by decide)) :
    Frame e s0 (State.mk s.pending x_now s.variant x_phase x_pwrok x_strapMg x_strapHb x_sagHeld s.regs s.mem x_poison s.hostMem
        x_badReads s.scratch s.tallies x_timers x_out x_free x_nextId x_avs x_gradients x_perst x_ef x_unitInReset x_parked x_boots
        x_authDigests x_rootDigest x_identity x_chain x_sealSecret x_openSerial x_grants x_fmSessions x_meas x_challenge
        x_ownerAccepted x_spdm x_ide x_heldGen s.jobs x_queues x_turns x_manifest x_ctxs x_closed x_ghosts x_moored x_mcStreams
        x_tops x_credits x_xfers x_windows x_revokes x_stale x_regions s.banks x_transit x_outq x_sending x_marked x_notices x_told
        x_arbs x_links x_lanes x_walkCache x_txCache x_invals x_fns x_vfEnable x_vfLeaving g x_flash x_logRates x_lostPending
        x_images x_running x_mgLost x_mgCmds x_cmds x_eids x_sensAt x_live x_routeWait x_recvs x_msgs x_stamps x_colls x_servo
        x_firings x_trig x_whlCount x_ferries x_threads x_imem x_lines s.locks x_lkWord x_raised x_snaps x_checkFailed) :=
  ⟨h.pending, h.variant, fun i => ⟨(h.inv i).mem, (h.inv i).hostMem, (h.inv i).scratch, (h.inv i).regs, (h.inv i).tallies⟩,
      h.regs, fun hf => (not_apart hE hf).elim, h.mem, h.hostMem, h.scratch, h.tallies, h.banks, h.jobs, h.locks⟩

/-- A record update that sets register fields: cut to their width, and those of other parts as they were. -/
theorem frame_regs {e : Nat} {s0 s : State} (h : Frame e s0 s) {g : Tab (Fld × Nat) Nat}
    (hg : (∀ c ∈ s.regs.cells, c.2 < 2 ^ c.1.1.row.width) → ∀ c ∈ g.cells, c.2 < 2 ^ c.1.1.row.width)
    (hs : ∀ f i, e &&& bit f.part = 0 → g.look (f, i) = s.regs.look (f, i)) {x_now x_phase x_pwrok x_strapMg x_strapHb x_sagHeld
        x_poison x_badReads x_timers x_out x_free x_nextId x_avs x_gradients x_perst x_ef x_unitInReset x_parked x_boots
        x_authDigests x_rootDigest x_identity x_chain x_sealSecret x_openSerial x_grants x_fmSessions x_meas x_challenge
        x_ownerAccepted x_spdm x_ide x_heldGen x_queues x_turns x_manifest x_ctxs x_closed x_ghosts x_moored x_mcStreams x_tops
        x_credits x_xfers x_windows x_revokes x_stale x_regions x_transit x_outq x_sending x_marked x_notices x_told x_arbs x_links
        x_lanes x_walkCache x_txCache x_invals x_fns x_vfEnable x_vfLeaving x_flash x_logRates x_lostPending x_images x_running
        x_mgLost x_mgCmds x_cmds x_eids x_sensAt x_live x_routeWait x_recvs x_msgs x_stamps x_colls x_servo x_firings x_trig
        x_whlCount x_ferries x_threads x_imem x_lines x_lkWord x_raised x_snaps x_checkFailed} :
    Frame e s0 (State.mk s.pending x_now s.variant x_phase x_pwrok x_strapMg x_strapHb x_sagHeld g s.mem x_poison s.hostMem
        x_badReads s.scratch s.tallies x_timers x_out x_free x_nextId x_avs x_gradients x_perst x_ef x_unitInReset x_parked x_boots
        x_authDigests x_rootDigest x_identity x_chain x_sealSecret x_openSerial x_grants x_fmSessions x_meas x_challenge
        x_ownerAccepted x_spdm x_ide x_heldGen s.jobs x_queues x_turns x_manifest x_ctxs x_closed x_ghosts x_moored x_mcStreams
        x_tops x_credits x_xfers x_windows x_revokes x_stale x_regions s.banks x_transit x_outq x_sending x_marked x_notices x_told
        x_arbs x_links x_lanes x_walkCache x_txCache x_invals x_fns x_vfEnable x_vfLeaving s.ring x_flash x_logRates x_lostPending
        x_images x_running x_mgLost x_mgCmds x_cmds x_eids x_sensAt x_live x_routeWait x_recvs x_msgs x_stamps x_colls x_servo
        x_firings x_trig x_whlCount x_ferries x_threads x_imem x_lines s.locks x_lkWord x_raised x_snaps x_checkFailed) :=
  ⟨h.pending, h.variant, fun i => ⟨(h.inv i).mem, (h.inv i).hostMem, (h.inv i).scratch, hg (h.inv i).regs, (h.inv i).tallies⟩,
      fun f i hf => (congrArg (fun o : Option Nat => o.getD (f.resetAt s.variant i)) (hs f i hf)).trans (h.regs f i hf), h.ring,
      h.mem, h.hostMem, h.scratch, h.tallies, h.banks, h.jobs, h.locks⟩

/-- A fold of operations. -/
theorem frame_foldl {α : Type} {e : Nat} {s0 : State} {f : State → α → State} {l : List α} {s : State} (h : Frame e s0 s)
    (hf : ∀ x a, Frame e s0 x → Frame e s0 (f x a)) : Frame e s0 (l.foldl f s) := by
  induction l generalizing s with
  | nil => exact h
  | cons a r ih => exact ih (hf _ _ h)

/-- A choice between two values of any type. -/
theorem frame_ite {e : Nat} {s0 a b : State} {c : Prop} [Decidable c] (ha : Frame e s0 a) (hb : Frame e s0 b) :
    Frame e s0 (if c then a else b) := by
  split <;> assumption

end Sys2Proof.Laws
end

