-- ==== Sys2Proof/Laws/FrOps.lean ====
section
/-! SUPPORT. The frame of every operation of Machine/Ops.lean (`Laws.Frame`). -/

namespace Sys2Proof.Laws

open Sys2Proof.Machine

set_option linter.all false
set_option Elab.async false

theorem wr_fr {E : Nat} {s0 s : State} (h : Frame E s0 s) {f : Fld} {i : Nat} {v : Nat} (hE : Sub (bit f.part) E := by
      first
      | assumption
      | exact sub_step (by assumption) (by decide)
      | exact sub_step (sub_step (a := 0xfffff) (by assumption) (by decide)) (part_sub _)
      | (repeat' first | exact sub_zero | refine sub_flds ?_ ?_ | refine sub_fldb ?_ ?_ | exact sub_step (by assumption) (by decide))) :
    Frame E s0 (State.wr s f i v) := by
  unfold State.wr
  refine frame_regs h (fun hr => ?_) fun g j hg => look_put_ne _ _ fun q => ?_
  · exact put_all (P := fun c : (Fld × Nat) × Nat => c.2 < 2 ^ c.1.1.row.width) _ _ _ (Nat.mod_lt _ (Nat.two_pow_pos _)) hr
  · cases q; exact not_apart hE hg

theorem incSat_fr {E : Nat} {s0 s : State} (h : Frame E s0 s) {f : Fld} {i : Nat} {n : Nat} (hE : Sub (bit f.part) E := by
      first
      | assumption
      | exact sub_step (by assumption) (by decide)
      | exact sub_step (sub_step (a := 0xfffff) (by assumption) (by decide)) (part_sub _)
      | (repeat' first | exact sub_zero | refine sub_flds ?_ ?_ | refine sub_fldb ?_ ?_ | exact sub_step (by assumption) (by decide))) :
    Frame E s0 (State.incSat s f i n) := by
  simp (disch := (
    unfold FrameOf
    unfold State.incSat
    try dsimp only
    repeat' first
      | (with_reducible assumption) | ((with_reducible refine sub_step (by assumption) ?_); first | rfl | decide)
      | (with_reducible apply wr_fr) | (split) | (intro _) | (refine frame_fst ?_ (by assumption)) | (dsimp only)
      | (with_reducible apply frame_any))) only [framed]

theorem incWrap_fr {E : Nat} {s0 s : State} (h : Frame E s0 s) {f : Fld} {i : Nat} {n : Nat} (hE : Sub (bit f.part) E := by
      first
      | assumption
      | exact sub_step (by assumption) (by decide)
      | exact sub_step (sub_step (a := 0xfffff) (by assumption) (by decide)) (part_sub _)
      | (repeat' first | exact sub_zero | refine sub_flds ?_ ?_ | refine sub_fldb ?_ ?_ | exact sub_step (by assumption) (by decide))) :
    Frame E s0 (State.incWrap s f i n) := by
  simp (disch := (
    unfold FrameOf
    unfold State.incWrap
    try dsimp only
    repeat' first
      | (with_reducible assumption) | ((with_reducible refine sub_step (by assumption) ?_); first | rfl | decide)
      | (with_reducible apply wr_fr) | (split) | (intro _) | (refine frame_fst ?_ (by assumption)) | (dsimp only)
      | (with_reducible apply frame_any))) only [framed]

theorem setFlag_fr {E : Nat} {s0 s : State} (h : Frame E s0 s) {f : Fld} {i : Nat} {b : Bool} (hE : Sub (bit f.part) E := by
      first
      | assumption
      | exact sub_step (by assumption) (by decide)
      | exact sub_step (sub_step (a := 0xfffff) (by assumption) (by decide)) (part_sub _)
      | (repeat' first | exact sub_zero | refine sub_flds ?_ ?_ | refine sub_fldb ?_ ?_ | exact sub_step (by assumption) (by decide))) :
    Frame E s0 (State.setFlag s f i b) := by
  simp (disch := (
    unfold FrameOf
    unfold State.setFlag
    try dsimp only
    repeat' first
      | (with_reducible assumption) | ((with_reducible refine sub_step (by assumption) ?_); first | rfl | decide)
      | (with_reducible apply wr_fr) | (split) | (intro _) | (refine frame_fst ?_ (by assumption)) | (dsimp only)
      | (with_reducible apply frame_any))) only [framed]

theorem wrAll_fr {E : Nat} {s0 s : State} (h : Frame E s0 s) {i : Nat} {y0 : List (Fld × Nat)} (hE : Sub (flds y0) E := by
      first
      | assumption
      | exact sub_step (by assumption) (by decide)
      | exact sub_step (sub_step (a := 0xfffff) (by assumption) (by decide)) (part_sub _)
      | (repeat' first | exact sub_zero | refine sub_flds ?_ ?_ | refine sub_fldb ?_ ?_ | exact sub_step (by assumption) (by decide))) :
    Frame E s0 (State.wrAll s i y0) := by
  induction y0 generalizing s with
  | nil => exact h
  | cons a r ih => exact ih (wr_fr h (hE := sub_left hE)) (sub_right hE)

theorem resetFields_fr {E : Nat} {s0 s : State} (h : Frame E s0 s) {keep : Fld → Nat → Bool} (hE : Sub (0xfffff) E := by
      first
      | assumption
      | exact sub_step (by assumption) (by decide)
      | exact sub_step (sub_step (a := 0xfffff) (by assumption) (by decide)) (part_sub _)
      | (repeat' first | exact sub_zero | refine sub_flds ?_ ?_ | refine sub_fldb ?_ ?_ | exact sub_step (by assumption) (by decide))) :
    Frame E s0 (State.resetFields s keep) := by
  exact frame_regs h (fun hr => keep_all (P := fun c : (Fld × Nat) × Nat => c.2 < 2 ^ c.1.1.row.width) _ _ hr)
    fun g j hg => (not_apart (sub_step hE (part_sub g)) hg).elim

theorem emit_fr {E : Nat} {s0 s : State} (h : Frame E s0 s) {o : Out} :
    Frame E s0 (State.emit s o) := by
  simp (disch := (
    unfold FrameOf
    unfold State.emit
    try dsimp only
    repeat' first
      | (with_reducible assumption) | (split) | (intro _) | (refine frame_fst ?_ (by assumption)) | (dsimp only)
      | (with_reducible apply frame_any))) only [framed]

theorem emits_fr {E : Nat} {s0 s : State} (h : Frame E s0 s) {os : List Out} :
    Frame E s0 (State.emits s os) := by
  simp (disch := (
    unfold FrameOf
    unfold State.emits
    try dsimp only
    repeat' first
      | (with_reducible assumption) | (split) | (intro _) | (refine frame_fst ?_ (by assumption)) | (dsimp only)
      | (with_reducible apply frame_any))) only [framed]

theorem freeNext_fr {E : Nat} {s0 s : State} (h : Frame E s0 s)  :
    Frame E s0 (State.freeNext s) := by
  simp (disch := (
    unfold FrameOf
    unfold State.freeNext
    try dsimp only
    repeat' first
      | (with_reducible assumption) | (split) | (intro _) | (refine frame_fst ?_ (by assumption)) | (dsimp only)
      | (with_reducible apply frame_any))) only [framed]

theorem idNext_fr {E : Nat} {s0 s : State} (h : Frame E s0 s)  :
    Frame E s0 (State.idNext s) := by
  simp (disch := (
    unfold FrameOf
    unfold State.idNext
    try dsimp only
    repeat' first
      | (with_reducible assumption) | (split) | (intro _) | (refine frame_fst ?_ (by assumption)) | (dsimp only)
      | (with_reducible apply frame_any))) only [framed]

theorem arm_fr {E : Nat} {s0 s : State} (h : Frame E s0 s) {k : TimerKey} {due : Nat} :
    Frame E s0 (State.arm s k due) := by
  simp (disch := (
    unfold FrameOf
    unfold State.arm
    try dsimp only
    repeat' first
      | (with_reducible assumption) | (split) | (intro _) | (refine frame_fst ?_ (by assumption)) | (dsimp only)
      | (with_reducible apply frame_any))) only [framed]

theorem armIn_fr {E : Nat} {s0 s : State} (h : Frame E s0 s) {k : TimerKey} {ticks : Nat} :
    Frame E s0 (State.armIn s k ticks) := by
  simp (disch := (
    unfold FrameOf
    unfold State.armIn
    try dsimp only
    repeat' first
      | (with_reducible assumption) | (with_reducible apply arm_fr) | (split) | (intro _)
      | (refine frame_fst ?_ (by assumption)) | (dsimp only) | (with_reducible apply frame_any))) only [framed]

theorem disarm_fr {E : Nat} {s0 s : State} (h : Frame E s0 s) {k : TimerKey} :
    Frame E s0 (State.disarm s k) := by
  simp (disch := (
    unfold FrameOf
    unfold State.disarm
    try dsimp only
    repeat' first
      | (with_reducible assumption) | (split) | (intro _) | (refine frame_fst ?_ (by assumption)) | (dsimp only)
      | (with_reducible apply frame_any))) only [framed]

theorem disarmAll_fr {E : Nat} {s0 s : State} (h : Frame E s0 s) {p : TimerKey → Bool} :
    Frame E s0 (State.disarmAll s p) := by
  simp (disch := (
    unfold FrameOf
    unfold State.disarmAll
    try dsimp only
    repeat' first
      | (with_reducible assumption) | (split) | (intro _) | (refine frame_fst ?_ (by assumption)) | (dsimp only)
      | (with_reducible apply frame_any))) only [framed]

theorem raise_fr {E : Nat} {s0 s : State} (h : Frame E s0 s) {src : Nat} :
    Frame E s0 (State.raise s src) := by
  simp (disch := (
    unfold FrameOf
    unfold State.raise
    try dsimp only
    repeat' first
      | (with_reducible assumption) | (split) | (intro _) | (refine frame_fst ?_ (by assumption)) | (dsimp only)
      | (with_reducible apply frame_any))) only [framed]

theorem setTally_fr {E : Nat} {s0 s : State} (h : Frame E s0 s) {n : Nat} {v : Nat} (hE : Sub 0x800000 E := by first | assumption | exact sub_step (by assumption) (by decide)) :
    Frame E s0 (State.setTally s n v) := by
  unfold State.setTally
  exact frame_tallies h fun hr => put_all (P := fun c : Nat × Nat => c.2 < 2 ^ 64) _ _ _ (Nat.mod_lt _ (Nat.two_pow_pos _)) hr

theorem addTally_fr {E : Nat} {s0 s : State} (h : Frame E s0 s) {n : Nat} {v : Nat} (hE : Sub 0x800000 E := by first | assumption | exact sub_step (by assumption) (by decide)) :
    Frame E s0 (State.addTally s n v) := by
  simp (disch := (
    unfold FrameOf
    unfold State.addTally
    try dsimp only
    repeat' first
      | (with_reducible assumption) | ((with_reducible refine sub_step (by assumption) ?_); first | rfl | decide)
      | (with_reducible apply setTally_fr) | (split) | (intro _) | (refine frame_fst ?_ (by assumption)) | (dsimp only)
      | (with_reducible apply frame_any))) only [framed]

theorem bumpField_fr {E : Nat} {s0 s : State} (h : Frame E s0 s) {t : TallyField} (hE : Sub 0x800000 E := by first | assumption | exact sub_step (by assumption) (by decide)) :
    Frame E s0 (State.bumpField s t) := by
  simp (disch := (
    unfold FrameOf
    unfold State.bumpField
    try dsimp only
    repeat' first
      | (with_reducible assumption) | ((with_reducible refine sub_step (by assumption) ?_); first | rfl | decide)
      | (with_reducible apply addTally_fr) | (split) | (intro _) | (refine frame_fst ?_ (by assumption)) | (dsimp only)
      | (with_reducible apply frame_any))) only [framed]

theorem addCount_fr {E : Nat} {s0 s : State} (h : Frame E s0 s) {i : Nat} {w : Nat} (hE : Sub 0x20000 E := by first | assumption | exact sub_step (by assumption) (by decide)) :
    Frame E s0 (State.addCount s i w) := by
  simp (disch := (
    unfold FrameOf
    unfold State.addCount
    try dsimp only
    repeat' first
      | (with_reducible assumption) | ((with_reducible refine sub_step (by assumption) ?_); first | rfl | decide)
      | (with_reducible apply wr_fr) | (split) | (intro _) | (refine frame_fst ?_ (by assumption)) | (dsimp only)
      | (with_reducible apply frame_any))) only [framed]

theorem countOver_fr {E : Nat} {s0 s : State} (h : Frame E s0 s) {u : Nat} {ev : Nat} {sub : Nat} {w : Nat} {y0 : List Nat} (hE : Sub 0x20000 E := by first | assumption | exact sub_step (by assumption) (by decide)) :
    Frame E s0 (State.countOver s u ev sub w y0) := by
  simp (disch := (
    unfold FrameOf
    induction y0 generalizing s u ev sub w with
    | nil =>
      unfold State.countOver
      try dsimp only
      repeat' first
        | (with_reducible assumption) | ((with_reducible refine sub_step (by assumption) ?_); first | rfl | decide)
        | (with_reducible apply addCount_fr) | (with_reducible apply ih) | (split) | (intro _)
        | (refine frame_fst ?_ (by assumption)) | (dsimp only) | (with_reducible apply frame_any)
    | cons a r ih =>
      unfold State.countOver
      try dsimp only
      repeat' first
        | (with_reducible assumption) | ((with_reducible refine sub_step (by assumption) ?_); first | rfl | decide)
        | (with_reducible apply addCount_fr) | (with_reducible apply ih) | (split) | (intro _)
        | (refine frame_fst ?_ (by assumption)) | (dsimp only) | (with_reducible apply frame_any))) only [framed]

theorem count_fr {E : Nat} {s0 s : State} (h : Frame E s0 s) {u : Nat} {ev : Nat} {sub : Nat} {w : Nat} (hE : Sub 0x20000 E := by first | assumption | exact sub_step (by assumption) (by decide)) :
    Frame E s0 (State.count s u ev sub w) := by
  simp (disch := (
    unfold FrameOf
    unfold State.count
    try dsimp only
    repeat' first
      | (with_reducible assumption) | ((with_reducible refine sub_step (by assumption) ?_); first | rfl | decide)
      | (with_reducible apply countOver_fr) | (split) | (intro _) | (refine frame_fst ?_ (by assumption)) | (dsimp only)
      | (with_reducible apply frame_any))) only [framed]

theorem incOpen_fr {E : Nat} {s0 s : State} (h : Frame E s0 s) {f : Fld} {i : Nat} (hE : Sub (bit f.part) E := by
      first
      | assumption
      | exact sub_step (by assumption) (by decide)
      | exact sub_step (sub_step (a := 0xfffff) (by assumption) (by decide)) (part_sub _)
      | (repeat' first | exact sub_zero | refine sub_flds ?_ ?_ | refine sub_fldb ?_ ?_ | exact sub_step (by assumption) (by decide))) :
    Frame E s0 (State.incOpen s f i) := by
  simp (disch := (
    unfold FrameOf
    unfold State.incOpen
    try dsimp only
    repeat' first
      | (with_reducible assumption) | ((with_reducible refine sub_step (by assumption) ?_); first | rfl | decide)
      | (with_reducible apply freeNext_fr) | (with_reducible apply wr_fr) | (split) | (intro _)
      | (refine frame_fst ?_ (by assumption)) | (dsimp only) | (with_reducible apply frame_any))) only [framed]

theorem placeRec_fr {E : Nat} {s0 s : State} (h : Frame E s0 s) {sev : Nat} {block : Nat} {code : LogCode} {unit : Nat} {rep : Nat} {data : List Nat} (hE : Sub 0x8000 E := by first | assumption | exact sub_step (by assumption) (by decide)) :
    Frame E s0 (State.placeRec s sev block code unit rep data) := by
  simp (disch := (
    unfold FrameOf
    unfold State.placeRec
    try dsimp only
    repeat' first
      | (with_reducible assumption) | ((with_reducible refine sub_step (by assumption) ?_); first | rfl | decide)
      | (with_reducible apply wr_fr) | (split) | (intro _) | (refine frame_fst ?_ (by assumption)) | (dsimp only)
      | (with_reducible apply frame_any) | (with_reducible apply frame_ring))) only [framed]

theorem placeLost_fr {E : Nat} {s0 s : State} (h : Frame E s0 s) (hE : Sub 0x8000 E := by first | assumption | exact sub_step (by assumption) (by decide)) :
    Frame E s0 (State.placeLost s) := by
  simp (disch := (
    unfold FrameOf
    unfold State.placeLost
    try dsimp only
    repeat' first
      | (with_reducible assumption) | ((with_reducible refine sub_step (by assumption) ?_); first | rfl | decide)
      | (with_reducible apply placeRec_fr) | (split) | (intro _) | (refine frame_fst ?_ (by assumption)) | (dsimp only)
      | (with_reducible apply frame_any))) only [framed]

theorem logRec_fr {E : Nat} {s0 s : State} (h : Frame E s0 s) {sev : Nat} {block : Nat} {code : LogCode} {unit : Nat} {data : List Nat} (hE : Sub 0x8000 E := by first | assumption | exact sub_step (by assumption) (by decide)) :
    Frame E s0 (State.logRec s sev block code unit data) := by
  simp (disch := (
    unfold FrameOf
    unfold State.logRec
    try dsimp only
    repeat' first
      | (with_reducible assumption) | ((with_reducible refine sub_step (by assumption) ?_); first | rfl | decide)
      | (with_reducible apply incSat_fr) | (with_reducible apply placeLost_fr) | (with_reducible apply placeRec_fr) | (split)
      | (intro _) | (refine frame_fst ?_ (by assumption)) | (dsimp only) | (with_reducible apply frame_any))) only [framed]

theorem logViolation_fr {E : Nat} {s0 s : State} (h : Frame E s0 s) {addr : Nat} (hE : Sub 0x8000 E := by first | assumption | exact sub_step (by assumption) (by decide)) :
    Frame E s0 (State.logViolation s addr) := by
  simp (disch := (
    unfold FrameOf
    unfold State.logViolation
    try dsimp only
    repeat' first
      | (with_reducible assumption) | ((with_reducible refine sub_step (by assumption) ?_); first | rfl | decide)
      | (with_reducible apply logRec_fr) | (split) | (intro _) | (refine frame_fst ?_ (by assumption)) | (dsimp only)
      | (with_reducible apply frame_any))) only [framed]

theorem logRejected_fr {E : Nat} {s0 s : State} (h : Frame E s0 s) {addr : Nat} (hE : Sub 0x8000 E := by first | assumption | exact sub_step (by assumption) (by decide)) :
    Frame E s0 (State.logRejected s addr) := by
  simp (disch := (
    unfold FrameOf
    unfold State.logRejected
    try dsimp only
    repeat' first
      | (with_reducible assumption) | ((with_reducible refine sub_step (by assumption) ?_); first | rfl | decide)
      | (with_reducible apply logRec_fr) | (split) | (intro _) | (refine frame_fst ?_ (by assumption)) | (dsimp only)
      | (with_reducible apply frame_any))) only [framed]

theorem updJob_fr {E : Nat} {s0 s : State} (h : Frame E s0 s) {j : Nat} {f : Job → Job} (hE : Sub 0x2000000 E := by first | assumption | exact sub_step (by assumption) (by decide)) :
    Frame E s0 (State.updJob s j f) := by
  simp (disch := (
    unfold FrameOf
    unfold State.updJob
    try dsimp only
    repeat' first
      | (with_reducible assumption) | ((with_reducible refine sub_step (by assumption) ?_); first | rfl | decide) | (split)
      | (intro _) | (refine frame_fst ?_ (by assumption)) | (dsimp only) | (with_reducible apply frame_any)
      | (with_reducible apply frame_jobs))) only [framed]

theorem putByte_fr {E : Nat} {s0 s : State} (h : Frame E s0 s) {addr : Nat} {b : Byte} (hE : Sub 0x900000 E := by first | assumption | exact sub_step (by assumption) (by decide)) :
    Frame E s0 (State.putByte s addr b) := by
  unfold State.putByte
  dsimp only
  split
  · exact setTally_fr h
  · exact frame_mem h fun hm => memPut_wf _ _ hm

theorem putBytes_fr {E : Nat} {s0 s : State} (h : Frame E s0 s) {addr : Nat} {y0 : List Byte} (hE : Sub 0x900000 E := by first | assumption | exact sub_step (by assumption) (by decide)) :
    Frame E s0 (State.putBytes s addr y0) := by
  simp (disch := (
    unfold FrameOf
    induction y0 generalizing s addr with
    | nil =>
      unfold State.putBytes
      try dsimp only
      repeat' first
        | (with_reducible assumption) | ((with_reducible refine sub_step (by assumption) ?_); first | rfl | decide)
        | (with_reducible apply putByte_fr) | (with_reducible apply ih) | (split) | (intro _)
        | (refine frame_fst ?_ (by assumption)) | (dsimp only) | (with_reducible apply frame_any)
    | cons a r ih =>
      unfold State.putBytes
      try dsimp only
      repeat' first
        | (with_reducible assumption) | ((with_reducible refine sub_step (by assumption) ?_); first | rfl | decide)
        | (with_reducible apply putByte_fr) | (with_reducible apply ih) | (split) | (intro _)
        | (refine frame_fst ?_ (by assumption)) | (dsimp only) | (with_reducible apply frame_any))) only [framed]

theorem writeLoc_fr {E : Nat} {s0 s : State} (h : Frame E s0 s) {l : Loc} {bs : List Byte} {rlx : Bool} (hE : Sub 0xb00000 E := by first | assumption | exact sub_step (by assumption) (by decide)) :
    Frame E s0 (State.writeLoc s l bs rlx) := by
  unfold State.writeLoc
  split
  · exact frame_ite h (emit_fr (frame_hostMem h fun hm => memWrite_wf _ _ hm))
  · exact putBytes_fr h

theorem writeSegs_fr {E : Nat} {s0 s : State} (h : Frame E s0 s) {bs : List Byte} {rlx : Bool} {y0 : List (Loc × Nat)} (hE : Sub 0xb00000 E := by first | assumption | exact sub_step (by assumption) (by decide)) :
    Frame E s0 (State.writeSegs s bs rlx y0) := by
  simp (disch := (
    unfold FrameOf
    induction y0 generalizing s bs rlx with
    | nil =>
      unfold State.writeSegs
      try dsimp only
      repeat' first
        | (with_reducible assumption) | ((with_reducible refine sub_step (by assumption) ?_); first | rfl | decide)
        | (with_reducible apply writeLoc_fr) | (with_reducible apply ih) | (split) | (intro _)
        | (refine frame_fst ?_ (by assumption)) | (dsimp only) | (with_reducible apply frame_any)
    | cons a r ih =>
      unfold State.writeSegs
      try dsimp only
      repeat' first
        | (with_reducible assumption) | ((with_reducible refine sub_step (by assumption) ?_); first | rfl | decide)
        | (with_reducible apply writeLoc_fr) | (with_reducible apply ih) | (split) | (intro _)
        | (refine frame_fst ?_ (by assumption)) | (dsimp only) | (with_reducible apply frame_any))) only [framed]

end Sys2Proof.Laws
end

