-- ==== Sys2Proof/Laws/FrHostOps.lean ====
section
/-! SUPPORT. The frame of every operation of Machine/HostOps.lean (`Laws.Frame`). -/

namespace Sys2Proof.Laws

open Sys2Proof.Machine

set_option linter.all false
set_option Elab.async false

theorem updFn_fr {E : Nat} {s0 s : State} (h : Frame E s0 s) {f : Func} {g : FnSt → FnSt} :
    Frame E s0 (State.updFn s f g) := by
  simp (disch := (
    unfold FrameOf
    unfold State.updFn
    try dsimp only
    repeat' first
      | (with_reducible assumption) | (split) | (intro _) | (refine frame_fst ?_ (by assumption)) | (dsimp only)
      | (with_reducible apply frame_any))) only [framed]

theorem msix_fr {E : Nat} {s0 s : State} (h : Frame E s0 s) {f : Func} {vec : Nat} :
    Frame E s0 (State.msix s f vec) := by
  simp (disch := (
    unfold FrameOf
    unfold State.msix
    try dsimp only
    repeat' first
      | (with_reducible assumption) | (with_reducible apply emit_fr) | (with_reducible apply updFn_fr) | (split) | (intro _)
      | (refine frame_fst ?_ (by assumption)) | (dsimp only) | (with_reducible apply frame_any))) only [framed]

theorem askSegs_fr {E : Nat} {s0 s : State} (h : Frame E s0 s) {write : Bool} {y0 : List (Loc × Nat)} (hE : Sub 0x20000 E := by first | assumption | exact sub_step (by assumption) (by decide)) :
    Frame E s0 (State.askSegs s write y0) := by
  induction y0 generalizing s with
  | nil => exact h
  | cons a r ih =>
    rcases a with ⟨⟨f, a⟩ | a, n⟩
    · unfold State.askSegs
      dsimp only
      split
      · exact ih (count_fr h)
      · exact ih (emit_fr (count_fr h))
    · exact ih (count_fr h)

theorem startXfer_fr {E : Nat} {s0 s : State} (h : Frame E s0 s) {kind : XferKind} {write : Bool} {segs : List (Loc × Nat)} {bytes : List Byte} {rlx : Bool} (hE : Sub 0x20000 E := by first | assumption | exact sub_step (by assumption) (by decide)) :
    Frame E s0 (State.startXfer s kind write segs bytes rlx) := by
  simp (disch := (
    unfold FrameOf
    unfold State.startXfer
    try dsimp only
    repeat' first
      | (with_reducible assumption) | ((with_reducible refine sub_step (by assumption) ?_); first | rfl | decide)
      | (with_reducible apply armIn_fr) | (with_reducible apply askSegs_fr) | (with_reducible apply idNext_fr) | (split)
      | (intro _) | (refine frame_fst ?_ (by assumption)) | (dsimp only) | (with_reducible apply frame_any))) only [framed]

theorem startFlush_fr {E : Nat} {s0 s : State} (h : Frame E s0 s) {kind : XferKind} {f : Func} (hE : Sub 0x20000 E := by first | assumption | exact sub_step (by assumption) (by decide)) :
    Frame E s0 (State.startFlush s kind f) := by
  simp (disch := (
    unfold FrameOf
    unfold State.startFlush
    try dsimp only
    repeat' first
      | (with_reducible assumption) | ((with_reducible refine sub_step (by assumption) ?_); first | rfl | decide)
      | (with_reducible apply armIn_fr) | (with_reducible apply count_fr) | (with_reducible apply emit_fr)
      | (with_reducible apply idNext_fr) | (split) | (intro _) | (refine frame_fst ?_ (by assumption)) | (dsimp only)
      | (with_reducible apply frame_any))) only [framed]

theorem endXfer_fr {E : Nat} {s0 s : State} (h : Frame E s0 s) {id : Nat} :
    Frame E s0 (State.endXfer s id) := by
  simp (disch := (
    unfold FrameOf
    unfold State.endXfer
    try dsimp only
    repeat' first
      | (with_reducible assumption) | (with_reducible apply disarm_fr) | (split) | (intro _)
      | (refine frame_fst ?_ (by assumption)) | (dsimp only) | (with_reducible apply frame_any))) only [framed]

theorem see_fr {E : Nat} {s0 s : State} (h : Frame E s0 s) {seen : List (Nat × Option Byte)} (hE : Sub 0x200000 E := by first | assumption | exact sub_step (by assumption) (by decide)) :
    Frame E s0 (State.see s seen) := by
  exact frame_hostMem h fun hm => memMerge_wf _ hm

end Sys2Proof.Laws
end

