-- ==== Sys2Proof/Laws/FrTranslate.lean ====
section
/-! SUPPORT. The frame of every operation of Machine/Translate.lean (`Laws.Frame`). -/

namespace Sys2Proof.Laws

open Sys2Proof.Machine

set_option linter.all false
set_option Elab.async false

theorem walkFrom_fr {E : Nat} {s0 s : State} (h : Frame E s0 s) {a : Nat} {addr : Nat} {wfunc : Func} {y0 : Nat} {y1 : Bool} {y2 : Nat} (hE : Sub 0x20000 E := by first | assumption | exact sub_step (by assumption) (by decide)) :
    Frame E s0 (State.walkFrom s a addr wfunc y0 y1 y2).1 := by
  simp (disch := (
    unfold FrameOf
    induction y0 generalizing s a addr wfunc y1 y2 with
    | zero =>
      unfold State.walkFrom
      try dsimp only
      repeat' first
        | (with_reducible assumption) | ((with_reducible refine sub_step (by assumption) ?_); first | rfl | decide)
        | (with_reducible apply askSegs_fr) | (with_reducible apply count_fr) | (with_reducible apply raise_fr)
        | (with_reducible apply ih) | (split) | (intro _) | (refine frame_fst ?_ (by assumption)) | (dsimp only)
        | (with_reducible apply frame_any)
    | succ n ih =>
      unfold State.walkFrom
      try dsimp only
      repeat' first
        | (with_reducible assumption) | ((with_reducible refine sub_step (by assumption) ?_); first | rfl | decide)
        | (with_reducible apply askSegs_fr) | (with_reducible apply count_fr) | (with_reducible apply raise_fr)
        | (with_reducible apply ih) | (split) | (intro _) | (refine frame_fst ?_ (by assumption)) | (dsimp only)
        | (with_reducible apply frame_any))) only [framed]

theorem walk_fr {E : Nat} {s0 s : State} (h : Frame E s0 s) {a : Nat} {addr : Nat} (hE : Sub 0x20000 E := by first | assumption | exact sub_step (by assumption) (by decide)) :
    Frame E s0 (State.walk s a addr).1 := by
  simp (disch := (
    unfold FrameOf
    unfold State.walk
    try dsimp only
    repeat' first
      | (with_reducible assumption) | ((with_reducible refine sub_step (by assumption) ?_); first | rfl | decide)
      | (with_reducible apply count_fr) | (with_reducible apply walkFrom_fr) | (split) | (intro _)
      | (refine frame_fst ?_ (by assumption)) | (dsimp only) | (with_reducible apply frame_any))) only [framed]

theorem txFault_fr {E : Nat} {s0 s : State} (h : Frame E s0 s) {asid : Nat} {addr : Nat} {cause : Nat} {level : Nat} {memError : Bool} (hE : Sub 0x28000 E := by first | assumption | exact sub_step (by assumption) (by decide)) :
    Frame E s0 (State.txFault s asid addr cause level memError) := by
  simp (disch := (
    unfold FrameOf
    unfold State.txFault
    try dsimp only
    repeat' first
      | (with_reducible assumption) | ((with_reducible refine sub_step (by assumption) ?_); first | rfl | decide)
      | (with_reducible apply count_fr) | (with_reducible apply logRec_fr) | (split) | (intro _)
      | (refine frame_fst ?_ (by assumption)) | (dsimp only) | (with_reducible apply frame_any))) only [framed]

theorem translate_fr {E : Nat} {s0 s : State} (h : Frame E s0 s) {a : Nat} {addr : Nat} {n : Nat} {f : Func} {needR : Bool} {needW : Bool} (hE : Sub 0x28000 E := by first | assumption | exact sub_step (by assumption) (by decide)) :
    Frame E s0 (State.translate s a addr n f needR needW).1 := by
  simp (disch := (
    unfold FrameOf
    unfold State.translate
    try dsimp only
    repeat' first
      | (with_reducible assumption) | ((with_reducible refine sub_step (by assumption) ?_); first | rfl | decide)
      | (with_reducible apply count_fr) | (with_reducible apply txFault_fr) | (with_reducible apply walk_fr) | (split)
      | (intro _) | (refine frame_fst ?_ (by assumption)) | (dsimp only) | (with_reducible apply frame_any))) only [framed]

theorem translatePieces_fr {E : Nat} {s0 s : State} (h : Frame E s0 s) {a : Nat} {f : Func} {needR : Bool} {needW : Bool} {y0 : List (Nat × Nat)} (hE : Sub 0x28000 E := by first | assumption | exact sub_step (by assumption) (by decide)) :
    Frame E s0 (State.translatePieces s a f needR needW y0).1 := by
  simp (disch := (
    unfold FrameOf
    induction y0 generalizing s a f needR needW with
    | nil =>
      unfold State.translatePieces
      try dsimp only
      repeat' first
        | (with_reducible assumption) | ((with_reducible refine sub_step (by assumption) ?_); first | rfl | decide)
        | (with_reducible apply translate_fr) | (with_reducible apply ih) | (split) | (intro _)
        | (refine frame_fst ?_ (by assumption)) | (dsimp only) | (with_reducible apply frame_any)
    | cons a r ih =>
      unfold State.translatePieces
      try dsimp only
      repeat' first
        | (with_reducible assumption) | ((with_reducible refine sub_step (by assumption) ?_); first | rfl | decide)
        | (with_reducible apply translate_fr) | (with_reducible apply ih) | (split) | (intro _)
        | (refine frame_fst ?_ (by assumption)) | (dsimp only) | (with_reducible apply frame_any))) only [framed]

theorem translateRange_fr {E : Nat} {s0 s : State} (h : Frame E s0 s) {asid : Nat} {addr : Nat} {n : Nat} {f : Func} {needR : Bool} {needW : Bool} (hE : Sub 0x28000 E := by first | assumption | exact sub_step (by assumption) (by decide)) :
    Frame E s0 (State.translateRange s asid addr n f needR needW).1 := by
  simp (disch := (
    unfold FrameOf
    unfold State.translateRange
    try dsimp only
    repeat' first
      | (with_reducible assumption) | ((with_reducible refine sub_step (by assumption) ?_); first | rfl | decide)
      | (with_reducible apply translatePieces_fr) | (with_reducible apply txFault_fr) | (split) | (intro _)
      | (refine frame_fst ?_ (by assumption)) | (dsimp only) | (with_reducible apply frame_any))) only [framed]

theorem flushSlot_fr {E : Nat} {s0 s : State} (h : Frame E s0 s) {a : Nat} :
    Frame E s0 (State.flushSlot s a) := by
  simp (disch := (
    unfold FrameOf
    unfold State.flushSlot
    try dsimp only
    repeat' first
      | (with_reducible assumption) | (split) | (intro _) | (refine frame_fst ?_ (by assumption)) | (dsimp only)
      | (with_reducible apply frame_any))) only [framed]

end Sys2Proof.Laws
end

