-- ==== Sys2Proof/Laws/FrQueueOps.lean ====
section
/-! SUPPORT. The frame of every operation of Machine/QueueOps.lean (`Laws.Frame`). -/

namespace Sys2Proof.Laws

open Sys2Proof.Machine

set_option linter.all false
set_option Elab.async false

theorem updQ_fr {E : Nat} {s0 s : State} (h : Frame E s0 s) {q : Nat} {f : QSt → QSt} :
    Frame E s0 (State.updQ s q f) := by
  simp (disch := (
    unfold FrameOf
    unfold State.updQ
    try dsimp only
    repeat' first
      | (with_reducible assumption) | (split) | (intro _) | (refine frame_fst ?_ (by assumption)) | (dsimp only)
      | (with_reducible apply frame_any))) only [framed]

theorem forEach_fr {E : Nat} {s0 s : State} (h : Frame E s0 s) {α : Type} {f : State → α → State} {y0 : List α} (h_f : ∀ z0 z1, Frame E s0 z0 → Frame E s0 (f z0 z1)) :
    Frame E s0 (forEach f y0 s) := by
  simp (disch := (
    unfold FrameOf
    induction y0 generalizing s  with
    | nil =>
      unfold forEach
      try dsimp only
      repeat' first
        | (with_reducible assumption) | (with_reducible apply h_f) | (with_reducible apply ih) | (split) | (intro _)
        | (refine frame_fst ?_ (by assumption)) | (dsimp only) | (with_reducible apply frame_any)
    | cons a r ih =>
      unfold forEach
      try dsimp only
      repeat' first
        | (with_reducible assumption) | (with_reducible apply h_f) | (with_reducible apply ih) | (split) | (intro _)
        | (refine frame_fst ?_ (by assumption)) | (dsimp only) | (with_reducible apply frame_any))) only [framed]

theorem writeHead_fr {E : Nat} {s0 s : State} (h : Frame E s0 s) {q : Nat} (hE : Sub 0xb28000 E := by first | assumption | exact sub_step (by assumption) (by decide)) :
    Frame E s0 (State.writeHead s q) := by
  simp (disch := (
    unfold FrameOf
    unfold State.writeHead
    try dsimp only
    repeat' first
      | (with_reducible assumption) | ((with_reducible refine sub_step (by assumption) ?_); first | rfl | decide)
      | (with_reducible apply askSegs_fr) | (with_reducible apply count_fr) | (with_reducible apply logRec_fr)
      | (with_reducible apply writeLoc_fr) | (split) | (intro _) | (refine frame_fst ?_ (by assumption)) | (dsimp only)
      | (with_reducible apply frame_any))) only [framed]

theorem publish_fr {E : Nat} {s0 s : State} (h : Frame E s0 s) {q : Nat} {err : Bool} (hE : Sub 0xb28002 E := by first | assumption | exact sub_step (by assumption) (by decide)) :
    Frame E s0 (State.publish s q err) := by
  simp (disch := (
    unfold FrameOf
    unfold State.publish
    try dsimp only
    repeat' first
      | (with_reducible assumption) | ((with_reducible refine sub_step (by assumption) ?_); first | rfl | decide)
      | (with_reducible apply disarm_fr) | (with_reducible apply msix_fr) | (with_reducible apply updFn_fr)
      | (with_reducible apply updQ_fr) | (with_reducible apply wr_fr) | (with_reducible apply writeHead_fr) | (split)
      | (intro _) | (refine frame_fst ?_ (by assumption)) | (dsimp only) | (with_reducible apply frame_any))) only [framed]

theorem publishCheck_fr {E : Nat} {s0 s : State} (h : Frame E s0 s) {q : Nat} (hE : Sub 0xb28002 E := by first | assumption | exact sub_step (by assumption) (by decide)) :
    Frame E s0 (State.publishCheck s q) := by
  simp (disch := (
    unfold FrameOf
    unfold State.publishCheck
    try dsimp only
    repeat' first
      | (with_reducible assumption) | ((with_reducible refine sub_step (by assumption) ?_); first | rfl | decide)
      | (with_reducible apply armIn_fr) | (with_reducible apply publish_fr) | (split) | (intro _)
      | (refine frame_fst ?_ (by assumption)) | (dsimp only) | (with_reducible apply frame_any))) only [framed]

theorem advanceHead_fr {E : Nat} {s0 s : State} (h : Frame E s0 s) {q : Nat} (hE : Sub 0xb28002 E := by first | assumption | exact sub_step (by assumption) (by decide)) :
    Frame E s0 (State.advanceHead s q) := by
  simp (disch := (
    unfold FrameOf
    unfold State.advanceHead
    try dsimp only
    repeat' first
      | (with_reducible assumption) | ((with_reducible refine sub_step (by assumption) ?_); first | rfl | decide)
      | (with_reducible apply publishCheck_fr) | (with_reducible apply updQ_fr) | (with_reducible apply wr_fr) | (split)
      | (intro _) | (refine frame_fst ?_ (by assumption)) | (dsimp only) | (with_reducible apply frame_any))) only [framed]

theorem closeLoops_fr {E : Nat} {s0 s : State} (h : Frame E s0 s) {q : Nat} {y0 : List LoopRec} (hE : Sub 0x800000 E := by first | assumption | exact sub_step (by assumption) (by decide)) :
    Frame E s0 (State.closeLoops s q y0) := by
  simp (disch := (
    unfold FrameOf
    induction y0 generalizing s q with
    | nil =>
      unfold State.closeLoops
      try dsimp only
      repeat' first
        | (with_reducible assumption) | ((with_reducible refine sub_step (by assumption) ?_); first | rfl | decide)
        | (with_reducible apply bumpField_fr) | (with_reducible apply updQ_fr) | (with_reducible apply ih) | (split) | (intro _)
        | (refine frame_fst ?_ (by assumption)) | (dsimp only) | (with_reducible apply frame_any)
    | cons a r ih =>
      unfold State.closeLoops
      try dsimp only
      repeat' first
        | (with_reducible assumption) | ((with_reducible refine sub_step (by assumption) ?_); first | rfl | decide)
        | (with_reducible apply bumpField_fr) | (with_reducible apply updQ_fr) | (with_reducible apply ih) | (split) | (intro _)
        | (refine frame_fst ?_ (by assumption)) | (dsimp only) | (with_reducible apply frame_any))) only [framed]

theorem endExec_fr {E : Nat} {s0 s : State} (h : Frame E s0 s) {q : Nat} {e : Exec} (hE : Sub 0xb28002 E := by first | assumption | exact sub_step (by assumption) (by decide)) :
    Frame E s0 (State.endExec s q e) := by
  simp (disch := (
    unfold FrameOf
    unfold State.endExec
    try dsimp only
    repeat' first
      | (with_reducible assumption) | ((with_reducible refine sub_step (by assumption) ?_); first | rfl | decide)
      | (with_reducible apply advanceHead_fr) | (with_reducible apply closeLoops_fr) | (with_reducible apply updQ_fr) | (split)
      | (intro _) | (refine frame_fst ?_ (by assumption)) | (dsimp only) | (with_reducible apply frame_any))) only [framed]

theorem finishExec_fr {E : Nat} {s0 s : State} (h : Frame E s0 s) {q : Nat} {e : Exec} (hE : Sub 0xb28002 E := by first | assumption | exact sub_step (by assumption) (by decide)) :
    Frame E s0 (State.finishExec s q e) := by
  simp (disch := (
    unfold FrameOf
    unfold State.finishExec
    try dsimp only
    repeat' first
      | (with_reducible assumption) | ((with_reducible refine sub_step (by assumption) ?_); first | rfl | decide)
      | (with_reducible apply bumpField_fr) | (with_reducible apply endExec_fr) | (split) | (intro _)
      | (refine frame_fst ?_ (by assumption)) | (dsimp only) | (with_reducible apply frame_any))) only [framed]

theorem stopRunning_fr {E : Nat} {s0 s : State} (h : Frame E s0 s) {q : Nat} {st : Nat} (hE : Sub 0x2 E := by first | assumption | exact sub_step (by assumption) (by decide)) :
    Frame E s0 (State.stopRunning s q st) := by
  simp (disch := (
    unfold FrameOf
    unfold State.stopRunning
    try dsimp only
    repeat' first
      | (with_reducible assumption) | ((with_reducible refine sub_step (by assumption) ?_); first | rfl | decide)
      | (with_reducible apply disarm_fr) | (with_reducible apply updQ_fr) | (with_reducible apply wr_fr) | (split) | (intro _)
      | (refine frame_fst ?_ (by assumption)) | (dsimp only) | (with_reducible apply frame_any))) only [framed]

theorem checkDrained_fr {E : Nat} {s0 s : State} (h : Frame E s0 s) {q : Nat} (hE : Sub 0xb28002 E := by first | assumption | exact sub_step (by assumption) (by decide)) :
    Frame E s0 (State.checkDrained s q) := by
  simp (disch := (
    unfold FrameOf
    unfold State.checkDrained
    try dsimp only
    repeat' first
      | (with_reducible assumption) | ((with_reducible refine sub_step (by assumption) ?_); first | rfl | decide)
      | (with_reducible apply publish_fr) | (with_reducible apply wr_fr) | (split) | (intro _)
      | (refine frame_fst ?_ (by assumption)) | (dsimp only) | (with_reducible apply frame_any))) only [framed]

theorem haltQueue_fr {E : Nat} {s0 s : State} (h : Frame E s0 s) {q : Nat} {reason : Nat} (hE : Sub 0xb28002 E := by first | assumption | exact sub_step (by assumption) (by decide)) :
    Frame E s0 (State.haltQueue s q reason) := by
  simp (disch := (
    unfold FrameOf
    unfold State.haltQueue
    try dsimp only
    repeat' first
      | (with_reducible assumption) | ((with_reducible refine sub_step (by assumption) ?_); first | rfl | decide)
      | (with_reducible apply checkDrained_fr) | (with_reducible apply publish_fr) | (with_reducible apply stopRunning_fr)
      | (with_reducible apply wr_fr) | (split) | (intro _) | (refine frame_fst ?_ (by assumption)) | (dsimp only)
      | (with_reducible apply frame_any))) only [framed]

theorem finishReady_fr {E : Nat} {s0 s : State} (h : Frame E s0 s) {q : Nat} {e : Exec} (hE : Sub 0xb28002 E := by first | assumption | exact sub_step (by assumption) (by decide)) :
    Frame E s0 (State.finishReady s q e) := by
  simp (disch := (
    unfold FrameOf
    unfold State.finishReady
    try dsimp only
    repeat' first
      | (with_reducible assumption) | ((with_reducible refine sub_step (by assumption) ?_); first | rfl | decide)
      | (with_reducible apply addTally_fr) | (with_reducible apply bumpField_fr) | (with_reducible apply endExec_fr)
      | (with_reducible apply finishExec_fr) | (with_reducible apply haltQueue_fr) | (with_reducible apply updQ_fr) | (split)
      | (intro _) | (refine frame_fst ?_ (by assumption)) | (dsimp only) | (with_reducible apply frame_any))) only [framed]

theorem settleN_fr {E : Nat} {s0 s : State} (h : Frame E s0 s) {q : Nat} {y0 : Nat} (hE : Sub 0xb28002 E := by first | assumption | exact sub_step (by assumption) (by decide)) :
    Frame E s0 (State.settleN s q y0) := by
  simp (disch := (
    unfold FrameOf
    induction y0 generalizing s q with
    | zero =>
      unfold State.settleN
      try dsimp only
      repeat' first
        | (with_reducible assumption) | ((with_reducible refine sub_step (by assumption) ?_); first | rfl | decide)
        | (with_reducible apply finishReady_fr) | (with_reducible apply updQ_fr) | (with_reducible apply ih) | (split) | (intro _)
        | (refine frame_fst ?_ (by assumption)) | (dsimp only) | (with_reducible apply frame_any)
    | succ n ih =>
      unfold State.settleN
      try dsimp only
      repeat' first
        | (with_reducible assumption) | ((with_reducible refine sub_step (by assumption) ?_); first | rfl | decide)
        | (with_reducible apply finishReady_fr) | (with_reducible apply updQ_fr) | (with_reducible apply ih) | (split) | (intro _)
        | (refine frame_fst ?_ (by assumption)) | (dsimp only) | (with_reducible apply frame_any))) only [framed]

theorem settle_fr {E : Nat} {s0 s : State} (h : Frame E s0 s) {q : Nat} (hE : Sub 0xb28002 E := by first | assumption | exact sub_step (by assumption) (by decide)) :
    Frame E s0 (State.settle s q) := by
  simp (disch := (
    unfold FrameOf
    unfold State.settle
    try dsimp only
    repeat' first
      | (with_reducible assumption) | ((with_reducible refine sub_step (by assumption) ?_); first | rfl | decide)
      | (with_reducible apply checkDrained_fr) | (with_reducible apply settleN_fr) | (split) | (intro _)
      | (refine frame_fst ?_ (by assumption)) | (dsimp only) | (with_reducible apply frame_any))) only [framed]

theorem completeExec_fr {E : Nat} {s0 s : State} (h : Frame E s0 s) {q : Nat} {i : Nat} {iter : Nat} (hE : Sub 0xb28002 E := by first | assumption | exact sub_step (by assumption) (by decide)) :
    Frame E s0 (State.completeExec s q i iter) := by
  simp (disch := (
    unfold FrameOf
    unfold State.completeExec
    try dsimp only
    repeat' first
      | (with_reducible assumption) | ((with_reducible refine sub_step (by assumption) ?_); first | rfl | decide)
      | (with_reducible apply finishExec_fr) | (with_reducible apply settle_fr) | (split) | (intro _)
      | (refine frame_fst ?_ (by assumption)) | (dsimp only) | (with_reducible apply frame_any))) only [framed]

theorem cancelExec_fr {E : Nat} {s0 s : State} (h : Frame E s0 s) {q : Nat} {i : Nat} {iter : Nat} (hE : Sub 0xb28002 E := by first | assumption | exact sub_step (by assumption) (by decide)) :
    Frame E s0 (State.cancelExec s q i iter) := by
  simp (disch := (
    unfold FrameOf
    unfold State.cancelExec
    try dsimp only
    repeat' first
      | (with_reducible assumption) | ((with_reducible refine sub_step (by assumption) ?_); first | rfl | decide)
      | (with_reducible apply endExec_fr) | (with_reducible apply settle_fr) | (split) | (intro _)
      | (refine frame_fst ?_ (by assumption)) | (dsimp only) | (with_reducible apply frame_any))) only [framed]

theorem latch_fr {E : Nat} {s0 s : State} (h : Frame E s0 s) {q : Nat} {r : FailRec} {cause : Nat} (hE : Sub 0x2 E := by first | assumption | exact sub_step (by assumption) (by decide)) :
    Frame E s0 (State.latch s q r cause) := by
  simp (disch := (
    unfold FrameOf
    unfold State.latch
    try dsimp only
    repeat' first
      | (with_reducible assumption) | ((with_reducible refine sub_step (by assumption) ?_); first | rfl | decide)
      | (with_reducible apply updQ_fr) | (with_reducible apply wr_fr) | (split) | (intro _)
      | (refine frame_fst ?_ (by assumption)) | (dsimp only) | (with_reducible apply frame_any))) only [framed]

theorem failQueue_fr {E : Nat} {s0 s : State} (h : Frame E s0 s) {q : Nat} {r : FailRec} {cause : Nat} (hE : Sub 0xb28002 E := by first | assumption | exact sub_step (by assumption) (by decide)) :
    Frame E s0 (State.failQueue s q r cause) := by
  simp (disch := (
    unfold FrameOf
    unfold State.failQueue
    try dsimp only
    repeat' first
      | (with_reducible assumption) | ((with_reducible refine sub_step (by assumption) ?_); first | rfl | decide)
      | (with_reducible apply count_fr) | (with_reducible apply latch_fr) | (with_reducible apply logRec_fr)
      | (with_reducible apply settle_fr) | (with_reducible apply stopRunning_fr) | (split) | (intro _)
      | (refine frame_fst ?_ (by assumption)) | (dsimp only) | (with_reducible apply frame_any))) only [framed]

theorem failExec_fr {E : Nat} {s0 s : State} (h : Frame E s0 s) {q : Nat} {i : Nat} {iter : Nat} {cause : Nat} (hE : Sub 0xb28002 E := by first | assumption | exact sub_step (by assumption) (by decide)) :
    Frame E s0 (State.failExec s q i iter cause) := by
  simp (disch := (
    unfold FrameOf
    unfold State.failExec
    try dsimp only
    repeat' first
      | (with_reducible assumption) | ((with_reducible refine sub_step (by assumption) ?_); first | rfl | decide)
      | (with_reducible apply failQueue_fr) | (with_reducible apply updQ_fr) | (split) | (intro _)
      | (refine frame_fst ?_ (by assumption)) | (dsimp only) | (with_reducible apply frame_any))) only [framed]

theorem stopJobQueues_fr {E : Nat} {s0 s : State} (h : Frame E s0 s) {j : Nat} {cause : Nat} {halted : Bool} (hE : Sub 0xb28002 E := by first | assumption | exact sub_step (by assumption) (by decide)) :
    Frame E s0 (State.stopJobQueues s j cause halted) := by
  simp (disch := (
    unfold FrameOf
    unfold State.stopJobQueues
    try dsimp only
    repeat' first
      | (with_reducible assumption) | ((with_reducible refine sub_step (by assumption) ?_); first | rfl | decide)
      | (with_reducible apply failQueue_fr) | (with_reducible apply forEach_fr) | (with_reducible apply haltQueue_fr) | (split)
      | (intro _) | (refine frame_fst ?_ (by assumption)) | (dsimp only) | (with_reducible apply frame_any))) only [framed]

theorem disableJobQueues_fr {E : Nat} {s0 s : State} (h : Frame E s0 s) {j : Nat} (hE : Sub 0x2 E := by first | assumption | exact sub_step (by assumption) (by decide)) :
    Frame E s0 (State.disableJobQueues s j) := by
  simp (disch := (
    unfold FrameOf
    unfold State.disableJobQueues
    try dsimp only
    repeat' first
      | (with_reducible assumption) | ((with_reducible refine sub_step (by assumption) ?_); first | rfl | decide)
      | (with_reducible apply disarm_fr) | (with_reducible apply forEach_fr) | (with_reducible apply updQ_fr)
      | (with_reducible apply wr_fr) | (split) | (intro _) | (refine frame_fst ?_ (by assumption)) | (dsimp only)
      | (with_reducible apply frame_any))) only [framed]

theorem skipFailed_fr {E : Nat} {s0 s : State} (h : Frame E s0 s) {q : Nat} :
    Frame E s0 (State.skipFailed s q) := by
  simp (disch := (
    unfold FrameOf
    unfold State.skipFailed
    try dsimp only
    repeat' first
      | (with_reducible assumption) | (with_reducible apply updQ_fr) | (split) | (intro _)
      | (refine frame_fst ?_ (by assumption)) | (dsimp only) | (with_reducible apply frame_any))) only [framed]

theorem resumeQueue_fr {E : Nat} {s0 s : State} (h : Frame E s0 s) {q : Nat} {skip : Bool} (hE : Sub 0xb28002 E := by first | assumption | exact sub_step (by assumption) (by decide)) :
    Frame E s0 (State.resumeQueue s q skip) := by
  simp (disch := (
    unfold FrameOf
    unfold State.resumeQueue
    try dsimp only
    repeat' first
      | (with_reducible assumption) | ((with_reducible refine sub_step (by assumption) ?_); first | rfl | decide)
      | (with_reducible refine sub_flds ?_ ?_) | (with_reducible exact sub_zero) | (with_reducible apply advanceHead_fr)
      | (with_reducible apply closeLoops_fr) | (with_reducible apply settle_fr) | (with_reducible apply skipFailed_fr)
      | (with_reducible apply updQ_fr) | (with_reducible apply wrAll_fr) | (split) | (intro _)
      | (refine frame_fst ?_ (by assumption)) | (dsimp only) | (with_reducible apply frame_any))) only [framed]

end Sys2Proof.Laws
end

