-- ==== Sys2Proof/Laws/FrTransportOps.lean ====
section
/-! SUPPORT. The frame of every operation of Machine/TransportOps.lean (`Laws.Frame`). -/

namespace Sys2Proof.Laws

open Sys2Proof.Machine

set_option linter.all false
set_option Elab.async false

theorem updCtx_fr {E : Nat} {s0 s : State} (h : Frame E s0 s) {c : Nat} {f : Ctx → Ctx} :
    Frame E s0 (State.updCtx s c f) := by
  simp (disch := (
    unfold FrameOf
    unfold State.updCtx
    try dsimp only
    repeat' first
      | (with_reducible assumption) | (split) | (intro _) | (refine frame_fst ?_ (by assumption)) | (dsimp only)
      | (with_reducible apply frame_any))) only [framed]

theorem updTx_fr {E : Nat} {s0 s : State} (h : Frame E s0 s) {c : Nat} {st : Nat} {f : SendStream → SendStream} :
    Frame E s0 (State.updTx s c st f) := by
  simp (disch := (
    unfold FrameOf
    unfold State.updTx
    try dsimp only
    repeat' first
      | (with_reducible assumption) | (with_reducible apply updCtx_fr) | (split) | (intro _)
      | (refine frame_fst ?_ (by assumption)) | (dsimp only) | (with_reducible apply frame_any))) only [framed]

theorem updRx_fr {E : Nat} {s0 s : State} (h : Frame E s0 s) {c : Nat} {st : Nat} {f : RecvStream → RecvStream} :
    Frame E s0 (State.updRx s c st f) := by
  simp (disch := (
    unfold FrameOf
    unfold State.updRx
    try dsimp only
    repeat' first
      | (with_reducible assumption) | (with_reducible apply updCtx_fr) | (split) | (intro _)
      | (refine frame_fst ?_ (by assumption)) | (dsimp only) | (with_reducible apply frame_any))) only [framed]

theorem evictOne_fr {E : Nat} {s0 s : State} (h : Frame E s0 s)  :
    Frame E s0 (State.evictOne s) := by
  simp (disch := (
    unfold FrameOf
    unfold State.evictOne
    try dsimp only
    repeat' first
      | (with_reducible assumption) | (with_reducible apply updCtx_fr) | (with_reducible apply frame_foldl) | (split)
      | (intro _) | (refine frame_fst ?_ (by assumption)) | (dsimp only) | (with_reducible apply frame_any))) only [framed]

theorem fetchCtx_fr {E : Nat} {s0 s : State} (h : Frame E s0 s) {c : Nat} (hE : Sub 0x20000 E := by first | assumption | exact sub_step (by assumption) (by decide)) :
    Frame E s0 (State.fetchCtx s c) := by
  simp (disch := (
    unfold FrameOf
    unfold State.fetchCtx
    try dsimp only
    repeat' first
      | (with_reducible assumption) | ((with_reducible refine sub_step (by assumption) ?_); first | rfl | decide)
      | (with_reducible apply count_fr) | (with_reducible apply evictOne_fr) | (with_reducible apply updCtx_fr) | (split)
      | (intro _) | (refine frame_fst ?_ (by assumption)) | (dsimp only) | (with_reducible apply frame_any))) only [framed]

theorem atCtx_fr {E : Nat} {s0 s : State} (h : Frame E s0 s) {c : Nat} {k : TimerKey} {f : State → State} (h_f : ∀ z0, Frame E s0 z0 → Frame E s0 (f z0)) (hE : Sub 0x20000 E := by first | assumption | exact sub_step (by assumption) (by decide)) :
    Frame E s0 (State.atCtx s c k f) := by
  simp (disch := (
    unfold FrameOf
    unfold State.atCtx
    try dsimp only
    repeat' first
      | (with_reducible assumption) | ((with_reducible refine sub_step (by assumption) ?_); first | rfl | decide)
      | (with_reducible apply arm_fr) | (with_reducible apply fetchCtx_fr) | (with_reducible apply h_f) | (split) | (intro _)
      | (refine frame_fst ?_ (by assumption)) | (dsimp only) | (with_reducible apply frame_any))) only [framed]

theorem newCtx_fr {E : Nat} {s0 s : State} (h : Frame E s0 s) {slot : Nat} {job : Nat} {loc : Nat} {rem : Nat} {session : Nat} {coll : Bool} :
    Frame E s0 (State.newCtx s slot job loc rem session coll) := by
  simp (disch := (
    unfold FrameOf
    unfold State.newCtx
    try dsimp only
    repeat' first
      | (with_reducible assumption) | (with_reducible apply armIn_fr) | (with_reducible apply evictOne_fr) | (split) | (intro _)
      | (refine frame_fst ?_ (by assumption)) | (dsimp only) | (with_reducible apply frame_any))) only [framed]

theorem watch_fr {E : Nat} {s0 s : State} (h : Frame E s0 s) {c : Nat} :
    Frame E s0 (State.watch s c) := by
  simp (disch := (
    unfold FrameOf
    unfold State.watch
    try dsimp only
    repeat' first
      | (with_reducible assumption) | (with_reducible apply armIn_fr) | (with_reducible apply disarm_fr) | (split) | (intro _)
      | (refine frame_fst ?_ (by assumption)) | (dsimp only) | (with_reducible apply frame_any))) only [framed]

theorem progress_fr {E : Nat} {s0 s : State} (h : Frame E s0 s) {c : Nat} :
    Frame E s0 (State.progress s c) := by
  simp (disch := (
    unfold FrameOf
    unfold State.progress
    try dsimp only
    repeat' first
      | (with_reducible assumption) | (with_reducible apply disarm_fr) | (with_reducible apply updCtx_fr)
      | (with_reducible apply watch_fr) | (split) | (intro _) | (refine frame_fst ?_ (by assumption)) | (dsimp only)
      | (with_reducible apply frame_any))) only [framed]

theorem touch_fr {E : Nat} {s0 s : State} (h : Frame E s0 s) {c : Nat} :
    Frame E s0 (State.touch s c) := by
  simp (disch := (
    unfold FrameOf
    unfold State.touch
    try dsimp only
    repeat' first
      | (with_reducible assumption) | (with_reducible apply arm_fr) | (with_reducible apply updCtx_fr) | (split) | (intro _)
      | (refine frame_fst ?_ (by assumption)) | (dsimp only) | (with_reducible apply frame_any))) only [framed]

theorem emitSealed_fr {E : Nat} {s0 s : State} (h : Frame E s0 s) {j : Nat} {p : Packet} (hE : Sub 0x20000 E := by first | assumption | exact sub_step (by assumption) (by decide)) :
    Frame E s0 (State.emitSealed s j p) := by
  simp (disch := (
    unfold FrameOf
    unfold State.emitSealed
    try dsimp only
    repeat' first
      | (with_reducible assumption) | ((with_reducible refine sub_step (by assumption) ?_); first | rfl | decide)
      | (with_reducible apply count_fr) | (with_reducible apply emit_fr) | (split) | (intro _)
      | (refine frame_fst ?_ (by assumption)) | (dsimp only) | (with_reducible apply frame_any))) only [framed]

theorem sendCtl_fr {E : Nat} {s0 s : State} (h : Frame E s0 s) {c : Nat} {ty : Nat} {st : Nat} {body : Body} (hE : Sub 0x20000 E := by first | assumption | exact sub_step (by assumption) (by decide)) :
    Frame E s0 (State.sendCtl s c ty st body) := by
  simp (disch := (
    unfold FrameOf
    unfold State.sendCtl
    try dsimp only
    repeat' first
      | (with_reducible assumption) | ((with_reducible refine sub_step (by assumption) ?_); first | rfl | decide)
      | (with_reducible apply emitSealed_fr) | (with_reducible apply updCtx_fr) | (split) | (intro _)
      | (refine frame_fst ?_ (by assumption)) | (dsimp only) | (with_reducible apply frame_any))) only [framed]

theorem queuePkt_fr {E : Nat} {s0 s : State} (h : Frame E s0 s) {c : Nat} {p : Packet} (hE : Sub 0x20000 E := by first | assumption | exact sub_step (by assumption) (by decide)) :
    Frame E s0 (State.queuePkt s c p) := by
  simp (disch := (
    unfold FrameOf
    unfold State.queuePkt
    try dsimp only
    repeat' first
      | (with_reducible assumption) | ((with_reducible refine sub_step (by assumption) ?_); first | rfl | decide)
      | (with_reducible apply fetchCtx_fr) | (with_reducible apply updTx_fr) | (with_reducible apply watch_fr) | (split)
      | (intro _) | (refine frame_fst ?_ (by assumption)) | (dsimp only) | (with_reducible apply frame_any))) only [framed]

theorem nackBusy_fr {E : Nat} {s0 s : State} (h : Frame E s0 s) {p : Packet} {row : Nat} {retry : Nat} (hE : Sub 0x20000 E := by first | assumption | exact sub_step (by assumption) (by decide)) :
    Frame E s0 (State.nackBusy s p row retry) := by
  simp (disch := (
    unfold FrameOf
    unfold State.nackBusy
    try dsimp only
    repeat' first
      | (with_reducible assumption) | ((with_reducible refine sub_step (by assumption) ?_); first | rfl | decide)
      | (with_reducible apply count_fr) | (with_reducible apply emit_fr) | (split) | (intro _)
      | (refine frame_fst ?_ (by assumption)) | (dsimp only) | (with_reducible apply frame_any))) only [framed]

theorem sendAck_fr {E : Nat} {s0 s : State} (h : Frame E s0 s) {c : Nat} {st : Nat} (hE : Sub 0x20000 E := by first | assumption | exact sub_step (by assumption) (by decide)) :
    Frame E s0 (State.sendAck s c st) := by
  simp (disch := (
    unfold FrameOf
    unfold State.sendAck
    try dsimp only
    repeat' first
      | (with_reducible assumption) | ((with_reducible refine sub_step (by assumption) ?_); first | rfl | decide)
      | (with_reducible apply disarm_fr) | (with_reducible apply sendCtl_fr) | (with_reducible apply updRx_fr) | (split)
      | (intro _) | (refine frame_fst ?_ (by assumption)) | (dsimp only) | (with_reducible apply frame_any))) only [framed]

theorem dupAck_fr {E : Nat} {s0 s : State} (h : Frame E s0 s) {c : Nat} {st : Nat} {p : Packet} (hE : Sub 0x20000 E := by first | assumption | exact sub_step (by assumption) (by decide)) :
    Frame E s0 (State.dupAck s c st p) := by
  simp (disch := (
    unfold FrameOf
    unfold State.dupAck
    try dsimp only
    repeat' first
      | (with_reducible assumption) | ((with_reducible refine sub_step (by assumption) ?_); first | rfl | decide)
      | (with_reducible apply count_fr) | (with_reducible apply sendAck_fr) | (with_reducible apply updRx_fr) | (split)
      | (intro _) | (refine frame_fst ?_ (by assumption)) | (dsimp only) | (with_reducible apply frame_any))) only [framed]

theorem admitPkt_fr {E : Nat} {s0 s : State} (h : Frame E s0 s) {c : Nat} {p : Packet} (hE : Sub 0x20000 E := by first | assumption | exact sub_step (by assumption) (by decide)) :
    Frame E s0 (State.admitPkt s c p) := by
  simp (disch := (
    unfold FrameOf
    unfold State.admitPkt
    try dsimp only
    repeat' first
      | (with_reducible assumption) | ((with_reducible refine sub_step (by assumption) ?_); first | rfl | decide)
      | (with_reducible apply armIn_fr) | (with_reducible apply count_fr) | (with_reducible apply sendAck_fr)
      | (with_reducible apply touch_fr) | (with_reducible apply updCtx_fr) | (split) | (intro _)
      | (refine frame_fst ?_ (by assumption)) | (dsimp only) | (with_reducible apply frame_any))) only [framed]

theorem grantLoop_fr {E : Nat} {s0 s : State} (h : Frame E s0 s) {y0 : List Credit} (hE : Sub 0x20000 E := by first | assumption | exact sub_step (by assumption) (by decide)) :
    Frame E s0 (State.grantLoop s y0) := by
  simp (disch := (
    unfold FrameOf
    induction y0 generalizing s  with
    | nil =>
      unfold State.grantLoop
      try dsimp only
      repeat' first
        | (with_reducible assumption) | ((with_reducible refine sub_step (by assumption) ?_); first | rfl | decide)
        | (with_reducible apply sendAck_fr) | (with_reducible apply updRx_fr) | (with_reducible apply ih) | (split) | (intro _)
        | (refine frame_fst ?_ (by assumption)) | (dsimp only) | (with_reducible apply frame_any)
    | cons a r ih =>
      unfold State.grantLoop
      try dsimp only
      repeat' first
        | (with_reducible assumption) | ((with_reducible refine sub_step (by assumption) ?_); first | rfl | decide)
        | (with_reducible apply sendAck_fr) | (with_reducible apply updRx_fr) | (with_reducible apply ih) | (split) | (intro _)
        | (refine frame_fst ?_ (by assumption)) | (dsimp only) | (with_reducible apply frame_any))) only [framed]

theorem grant_fr {E : Nat} {s0 s : State} (h : Frame E s0 s) (hE : Sub 0x20000 E := by first | assumption | exact sub_step (by assumption) (by decide)) :
    Frame E s0 (State.grant s) := by
  simp (disch := (
    unfold FrameOf
    unfold State.grant
    try dsimp only
    repeat' first
      | (with_reducible assumption) | ((with_reducible refine sub_step (by assumption) ?_); first | rfl | decide)
      | (with_reducible apply grantLoop_fr) | (split) | (intro _) | (refine frame_fst ?_ (by assumption)) | (dsimp only)
      | (with_reducible apply frame_any))) only [framed]

theorem endCredit_fr {E : Nat} {s0 s : State} (h : Frame E s0 s) {c : Nat} {st : Nat} {mtag : Nat} (hE : Sub 0x20000 E := by first | assumption | exact sub_step (by assumption) (by decide)) :
    Frame E s0 (State.endCredit s c st mtag) := by
  simp (disch := (
    unfold FrameOf
    unfold State.endCredit
    try dsimp only
    repeat' first
      | (with_reducible assumption) | ((with_reducible refine sub_step (by assumption) ?_); first | rfl | decide)
      | (with_reducible apply grant_fr) | (split) | (intro _) | (refine frame_fst ?_ (by assumption)) | (dsimp only)
      | (with_reducible apply frame_any))) only [framed]

theorem authFailed_fr {E : Nat} {s0 s : State} (h : Frame E s0 s) {p : Packet} (hE : Sub 0x28000 E := by first | assumption | exact sub_step (by assumption) (by decide)) :
    Frame E s0 (State.authFailed s p) := by
  simp (disch := (
    unfold FrameOf
    unfold State.authFailed
    try dsimp only
    repeat' first
      | (with_reducible assumption) | ((with_reducible refine sub_step (by assumption) ?_); first | rfl | decide)
      | (with_reducible apply count_fr) | (with_reducible apply logRec_fr) | (split) | (intro _)
      | (refine frame_fst ?_ (by assumption)) | (dsimp only) | (with_reducible apply frame_any))) only [framed]

theorem noteEpoch_fr {E : Nat} {s0 s : State} (h : Frame E s0 s) {c : Nat} {p : Packet} :
    Frame E s0 (State.noteEpoch s c p) := by
  simp (disch := (
    unfold FrameOf
    unfold State.noteEpoch
    try dsimp only
    repeat' first
      | (with_reducible assumption) | (with_reducible apply armIn_fr) | (with_reducible apply updCtx_fr) | (split) | (intro _)
      | (refine frame_fst ?_ (by assumption)) | (dsimp only) | (with_reducible apply frame_any))) only [framed]

theorem eraseEpoch_fr {E : Nat} {s0 s : State} (h : Frame E s0 s) {c : Nat} :
    Frame E s0 (State.eraseEpoch s c) := by
  simp (disch := (
    unfold FrameOf
    unfold State.eraseEpoch
    try dsimp only
    repeat' first
      | (with_reducible assumption) | (with_reducible apply updCtx_fr) | (split) | (intro _)
      | (refine frame_fst ?_ (by assumption)) | (dsimp only) | (with_reducible apply frame_any))) only [framed]

theorem moor_fr {E : Nat} {s0 s : State} (h : Frame E s0 s) {p : Packet} (hE : Sub 0x20000 E := by first | assumption | exact sub_step (by assumption) (by decide)) :
    Frame E s0 (State.moor s p) := by
  simp (disch := (
    unfold FrameOf
    unfold State.moor
    try dsimp only
    repeat' first
      | (with_reducible assumption) | ((with_reducible refine sub_step (by assumption) ?_); first | rfl | decide)
      | (with_reducible apply count_fr) | (with_reducible apply nackBusy_fr) | (split) | (intro _)
      | (refine frame_fst ?_ (by assumption)) | (dsimp only) | (with_reducible apply frame_any))) only [framed]

theorem rxHead_fr {E : Nat} {s0 s : State} (h : Frame E s0 s) {p : Packet} (hE : Sub 0x28000 E := by first | assumption | exact sub_step (by assumption) (by decide)) :
    Frame E s0 (State.rxHead s p).1 := by
  simp (disch := (
    unfold FrameOf
    unfold State.rxHead
    try dsimp only
    repeat' first
      | (with_reducible assumption) | ((with_reducible refine sub_step (by assumption) ?_); first | rfl | decide)
      | (with_reducible apply authFailed_fr) | (with_reducible apply count_fr) | (with_reducible apply nackBusy_fr) | (split)
      | (intro _) | (refine frame_fst ?_ (by assumption)) | (dsimp only) | (with_reducible apply frame_any))) only [framed]

theorem readBody_fr {E : Nat} {s0 s : State} (h : Frame E s0 s) {j : Nat} {p : Packet} {text : List Byte} (hE : Sub 0x20000 E := by first | assumption | exact sub_step (by assumption) (by decide)) :
    Frame E s0 (State.readBody s j p text).1 := by
  simp (disch := (
    unfold FrameOf
    unfold State.readBody
    try dsimp only
    repeat' first
      | (with_reducible assumption) | ((with_reducible refine sub_step (by assumption) ?_); first | rfl | decide)
      | (with_reducible apply count_fr) | (split) | (intro _) | (refine frame_fst ?_ (by assumption)) | (dsimp only)
      | (with_reducible apply frame_any))) only [framed]

theorem rxAuth_fr {E : Nat} {s0 s : State} (h : Frame E s0 s) {p : Packet} (hE : Sub 0x28000 E := by first | assumption | exact sub_step (by assumption) (by decide)) :
    Frame E s0 (State.rxAuth s p).1 := by
  simp (disch := (
    unfold FrameOf
    unfold State.rxAuth
    try dsimp only
    repeat' first
      | (with_reducible assumption) | ((with_reducible refine sub_step (by assumption) ?_); first | rfl | decide)
      | (with_reducible apply authFailed_fr) | (with_reducible apply readBody_fr) | (with_reducible apply rxHead_fr) | (split)
      | (intro _) | (refine frame_fst ?_ (by assumption)) | (dsimp only) | (with_reducible apply frame_any))) only [framed]

theorem reopen_fr {E : Nat} {s0 s : State} (h : Frame E s0 s) {c : Nat} {session : Nat} :
    Frame E s0 (State.reopen s c session) := by
  simp (disch := (
    unfold FrameOf
    unfold State.reopen
    try dsimp only
    repeat' first
      | (with_reducible assumption) | (with_reducible apply updCtx_fr) | (split) | (intro _)
      | (refine frame_fst ?_ (by assumption)) | (dsimp only) | (with_reducible apply frame_any))) only [framed]

theorem adopt_fr {E : Nat} {s0 s : State} (h : Frame E s0 s) {c : Nat} {session : Nat} :
    Frame E s0 (State.adopt s c session) := by
  simp (disch := (
    unfold FrameOf
    unfold State.adopt
    try dsimp only
    repeat' first
      | (with_reducible assumption) | (with_reducible apply updCtx_fr) | (split) | (intro _)
      | (refine frame_fst ?_ (by assumption)) | (dsimp only) | (with_reducible apply frame_any))) only [framed]

theorem noCtxRec_fr {E : Nat} {s0 s : State} (h : Frame E s0 s) {p : Packet} (hE : Sub 0x28000 E := by first | assumption | exact sub_step (by assumption) (by decide)) :
    Frame E s0 (State.noCtxRec s p) := by
  simp (disch := (
    unfold FrameOf
    unfold State.noCtxRec
    try dsimp only
    repeat' first
      | (with_reducible assumption) | ((with_reducible refine sub_step (by assumption) ?_); first | rfl | decide)
      | (with_reducible apply count_fr) | (with_reducible apply logRec_fr) | (split) | (intro _)
      | (refine frame_fst ?_ (by assumption)) | (dsimp only) | (with_reducible apply frame_any))) only [framed]

end Sys2Proof.Laws
end

