-- ==== Sys2Proof/Laws/FrControl.lean ====
section
/-! SUPPORT. The frame of every operation of Machine/Control.lean (`Laws.Frame`). -/

namespace Sys2Proof.Laws

open Sys2Proof.Machine

set_option linter.all false
set_option Elab.async false

theorem toNext_fr {E : Nat} {s0 s : State} (h : Frame E s0 s) {q : Nat} {y0 : Nat} (hE : Sub 0x2 E := by first | assumption | exact sub_step (by assumption) (by decide)) :
    Frame E s0 (State.toNext s q y0) := by
  simp (disch := (
    unfold FrameOf
    induction y0 generalizing s q with
    | zero =>
      unfold State.toNext
      try dsimp only
      repeat' first
        | (with_reducible assumption) | ((with_reducible refine sub_step (by assumption) ?_); first | rfl | decide)
        | (with_reducible apply updQ_fr) | (with_reducible apply wr_fr) | (with_reducible apply ih) | (split) | (intro _)
        | (refine frame_fst ?_ (by assumption)) | (dsimp only) | (with_reducible apply frame_any)
    | succ n ih =>
      unfold State.toNext
      try dsimp only
      repeat' first
        | (with_reducible assumption) | ((with_reducible refine sub_step (by assumption) ?_); first | rfl | decide)
        | (with_reducible apply updQ_fr) | (with_reducible apply wr_fr) | (with_reducible apply ih) | (split) | (intro _)
        | (refine frame_fst ?_ (by assumption)) | (dsimp only) | (with_reducible apply frame_any))) only [framed]

theorem passDoneEntries_fr {E : Nat} {s0 s : State} (h : Frame E s0 s) {q : Nat} (hE : Sub 0x2 E := by first | assumption | exact sub_step (by assumption) (by decide)) :
    Frame E s0 (State.passDoneEntries s q) := by
  simp (disch := (
    unfold FrameOf
    unfold State.passDoneEntries
    try dsimp only
    repeat' first
      | (with_reducible assumption) | ((with_reducible refine sub_step (by assumption) ?_); first | rfl | decide)
      | (with_reducible apply toNext_fr) | (split) | (intro _) | (refine frame_fst ?_ (by assumption)) | (dsimp only)
      | (with_reducible apply frame_any))) only [framed]

theorem tookTurn_fr {E : Nat} {s0 s : State} (h : Frame E s0 s) {q : Nat} :
    Frame E s0 (State.tookTurn s q) := by
  simp (disch := (
    unfold FrameOf
    unfold State.tookTurn
    try dsimp only
    repeat' first
      | (with_reducible assumption) | (split) | (intro _) | (refine frame_fst ?_ (by assumption)) | (dsimp only)
      | (with_reducible apply frame_any))) only [framed]

theorem noteStart_fr {E : Nat} {s0 s : State} (h : Frame E s0 s) {q : Nat} {i : Nat} {n : Nat} (hE : Sub 0x20002 E := by first | assumption | exact sub_step (by assumption) (by decide)) :
    Frame E s0 (State.noteStart s q i n) := by
  simp (disch := (
    unfold FrameOf
    unfold State.noteStart
    try dsimp only
    repeat' first
      | (with_reducible assumption) | ((with_reducible refine sub_step (by assumption) ?_); first | rfl | decide)
      | (with_reducible apply count_fr) | (with_reducible apply tookTurn_fr) | (with_reducible apply updQ_fr)
      | (with_reducible apply wr_fr) | (split) | (intro _) | (refine frame_fst ?_ (by assumption)) | (dsimp only)
      | (with_reducible apply frame_any))) only [framed]

theorem startPriv_fr {E : Nat} {s0 s : State} (h : Frame E s0 s) {src : CmdSrc} {op : PrivOp} {p : Priv} (hE : Sub 0x20002 E := by first | assumption | exact sub_step (by assumption) (by decide)) :
    ∀ t, State.startPriv s src op p = some t → Frame E s0 t := by
  intro t ht
  unfold State.startPriv at ht
  dsimp only at ht
  split at ht
  · split at ht
    · injection ht with ht; subst ht
      exact updQ_fr (noteStart_fr (passDoneEntries_fr h))
    · cases ht
  · split at ht
    · injection ht with ht; subst ht
      exact frame_any h
    · cases ht
  · injection ht with ht; subst ht; exact frame_any h

theorem mgDiscard_fr {E : Nat} {s0 s : State} (h : Frame E s0 s)  :
    Frame E s0 (State.mgDiscard s) := by
  simp (disch := (
    unfold FrameOf
    unfold State.mgDiscard
    try dsimp only
    repeat' first
      | (with_reducible assumption) | (split) | (intro _) | (refine frame_fst ?_ (by assumption)) | (dsimp only)
      | (with_reducible apply frame_any))) only [framed]

theorem mgTake_fr {E : Nat} {s0 s : State} (h : Frame E s0 s) {f : State → State} (h_f : ∀ z0, Frame E s0 z0 → Frame E s0 (f z0)) :
    Frame E s0 (State.mgTake s f) := by
  simp (disch := (
    unfold FrameOf
    unfold State.mgTake
    try dsimp only
    repeat' first
      | (with_reducible assumption) | (with_reducible apply mgDiscard_fr) | (with_reducible apply h_f) | (split) | (intro _)
      | (refine frame_fst ?_ (by assumption)) | (dsimp only) | (with_reducible apply frame_any))) only [framed]

theorem sendAuth_fr {E : Nat} {s0 s : State} (h : Frame E s0 s) {session : Nat} {p : Packet} :
    Frame E s0 (State.sendAuth s session p) := by
  simp (disch := (
    unfold FrameOf
    unfold State.sendAuth
    try dsimp only
    repeat' first
      | (with_reducible assumption) | (with_reducible apply emit_fr) | (split) | (intro _)
      | (refine frame_fst ?_ (by assumption)) | (dsimp only) | (with_reducible apply frame_any))) only [framed]

theorem endPriv_fr {E : Nat} {s0 s : State} (h : Frame E s0 s) {r : Requester} {cause : Nat} (hE : Sub 0xb28002 E := by first | assumption | exact sub_step (by assumption) (by decide)) :
    Frame E s0 (State.endPriv s r cause) := by
  simp (disch := (
    unfold FrameOf
    unfold State.endPriv
    try dsimp only
    repeat' first
      | (with_reducible assumption) | ((with_reducible refine sub_step (by assumption) ?_); first | rfl | decide)
      | (with_reducible apply bumpField_fr) | (with_reducible apply completeExec_fr) | (with_reducible apply emit_fr)
      | (with_reducible apply failExec_fr) | (with_reducible apply sendAuth_fr) | (split) | (intro _)
      | (refine frame_fst ?_ (by assumption)) | (dsimp only) | (with_reducible apply frame_any))) only [framed]

theorem runPriv_fr {E : Nat} {s0 s : State} (h : Frame E s0 s) {src : CmdSrc} {op : PrivOp} {p : Priv} {x : PrivData} {body : State → State × Option Nat} (h_body : ∀ z0, Frame E s0 z0 → Frame E s0 (body z0).1) (hE : Sub 0xb28002 E := by first | assumption | exact sub_step (by assumption) (by decide)) :
    Frame E s0 (State.runPriv s src op p x body) := by
  simp (disch := (
    unfold FrameOf
    unfold State.runPriv
    try dsimp only
    repeat' first
      | (with_reducible assumption) | ((with_reducible refine sub_step (by assumption) ?_); first | rfl | decide)
      | (with_reducible apply authFailed_fr) | (with_reducible apply endPriv_fr) | (with_reducible apply logRec_fr)
      | (with_reducible apply see_fr) | (refine (startPriv_fr ?_) _ (by assumption)) | (with_reducible apply h_body) | (split)
      | (intro _) | (refine frame_fst ?_ (by assumption)) | (dsimp only) | (with_reducible apply frame_any))) only [framed]

theorem checkToken_fr {E : Nat} {s0 s : State} (h : Frame E s0 s) {o : Offer} {kind : Nat} {job : Nat} {here : Bool} {fresh : Nat → Bool} (hE : Sub 0x28000 E := by first | assumption | exact sub_step (by assumption) (by decide)) :
    Frame E s0 (State.checkToken s o kind job here fresh).1 := by
  simp (disch := (
    unfold FrameOf
    unfold State.checkToken
    try dsimp only
    repeat' first
      | (with_reducible assumption) | ((with_reducible refine sub_step (by assumption) ?_); first | rfl | decide)
      | (with_reducible apply authFailed_fr) | (with_reducible apply count_fr) | (with_reducible apply logRec_fr) | (split)
      | (intro _) | (refine frame_fst ?_ (by assumption)) | (dsimp only) | (with_reducible apply frame_any))) only [framed]

theorem jobToken_fr {E : Nat} {s0 s : State} (h : Frame E s0 s) {o : Offer} {kind : Nat} {j : Nat} (hE : Sub 0x2028000 E := by first | assumption | exact sub_step (by assumption) (by decide)) :
    Frame E s0 (State.jobToken s o kind j).1 := by
  simp (disch := (
    unfold FrameOf
    unfold State.jobToken
    try dsimp only
    repeat' first
      | (with_reducible assumption) | ((with_reducible refine sub_step (by assumption) ?_); first | rfl | decide)
      | (with_reducible apply checkToken_fr) | (with_reducible apply updJob_fr) | (split) | (intro _)
      | (refine frame_fst ?_ (by assumption)) | (dsimp only) | (with_reducible apply frame_any))) only [framed]

theorem grantToken_fr {E : Nat} {s0 s : State} (h : Frame E s0 s) {o : Offer} {kind : Nat} {job : Nat} (hE : Sub 0x28000 E := by first | assumption | exact sub_step (by assumption) (by decide)) :
    Frame E s0 (State.grantToken s o kind job).1 := by
  simp (disch := (
    unfold FrameOf
    unfold State.grantToken
    try dsimp only
    repeat' first
      | (with_reducible assumption) | ((with_reducible refine sub_step (by assumption) ?_); first | rfl | decide)
      | (with_reducible apply checkToken_fr) | (split) | (intro _) | (refine frame_fst ?_ (by assumption)) | (dsimp only)
      | (with_reducible apply frame_any))) only [framed]

theorem useCred_fr {E : Nat} {s0 s : State} (h : Frame E s0 s) {c : Cred} :
    Frame E s0 (State.useCred s c) := by
  simp (disch := (
    unfold FrameOf
    unfold State.useCred
    try dsimp only
    repeat' first
      | (with_reducible assumption) | (split) | (intro _) | (refine frame_fst ?_ (by assumption)) | (dsimp only)
      | (with_reducible apply frame_any))) only [framed]

theorem checkCred_fr {E : Nat} {s0 s : State} (h : Frame E s0 s) {c : Cred} {covered : List Byte} (hE : Sub 0x28000 E := by first | assumption | exact sub_step (by assumption) (by decide)) :
    Frame E s0 (State.checkCred s c covered).1 := by
  simp (disch := (
    unfold FrameOf
    unfold State.checkCred
    try dsimp only
    repeat' first
      | (with_reducible assumption) | ((with_reducible refine sub_step (by assumption) ?_); first | rfl | decide)
      | (with_reducible apply authFailed_fr) | (with_reducible apply logRec_fr) | (with_reducible apply useCred_fr) | (split)
      | (intro _) | (refine frame_fst ?_ (by assumption)) | (dsimp only) | (with_reducible apply frame_any))) only [framed]

theorem checkTrailer_fr {E : Nat} {s0 s : State} (h : Frame E s0 s) {src : CmdSrc} {op : PrivOp} {p : Priv} {x : PrivData} (hE : Sub 0x28000 E := by first | assumption | exact sub_step (by assumption) (by decide)) :
    Frame E s0 (State.checkTrailer s src op p x).1 := by
  simp (disch := (
    unfold FrameOf
    unfold State.checkTrailer
    try dsimp only
    repeat' first
      | (with_reducible assumption) | ((with_reducible refine sub_step (by assumption) ?_); first | rfl | decide)
      | (with_reducible apply authFailed_fr) | (with_reducible apply checkCred_fr) | (with_reducible apply logRec_fr) | (split)
      | (intro _) | (refine frame_fst ?_ (by assumption)) | (dsimp only) | (with_reducible apply frame_any))) only [framed]

end Sys2Proof.Laws
end

