-- ==== Sys2Proof/Laws/FrLockOps.lean ====
section
/-! SUPPORT. The frame of every operation of Machine/LockOps.lean (`Laws.Frame`). -/

namespace Sys2Proof.Laws

open Sys2Proof.Machine

set_option linter.all false
set_option Elab.async false

theorem updThread_fr {E : Nat} {s0 s : State} (h : Frame E s0 s) {f : Nat} {t : Nat} {g : Thread → Thread} :
    Frame E s0 (State.updThread s f t g) := by
  simp (disch := (
    unfold FrameOf
    unfold State.updThread
    try dsimp only
    repeat' first
      | (with_reducible assumption) | (split) | (intro _) | (refine frame_fst ?_ (by assumption)) | (dsimp only)
      | (with_reducible apply frame_any))) only [framed]

theorem updInv_fr {E : Nat} {s0 s : State} (h : Frame E s0 s) {f : Nat} {t : Nat} {g : Invoc → Invoc} :
    Frame E s0 (State.updInv s f t g) := by
  simp (disch := (
    unfold FrameOf
    unfold State.updInv
    try dsimp only
    repeat' first
      | (with_reducible assumption) | (with_reducible apply updThread_fr) | (split) | (intro _)
      | (refine frame_fst ?_ (by assumption)) | (dsimp only) | (with_reducible apply frame_any))) only [framed]

theorem updFerry_fr {E : Nat} {s0 s : State} (h : Frame E s0 s) {f : Nat} {g : Ferry → Ferry} :
    Frame E s0 (State.updFerry s f g) := by
  simp (disch := (
    unfold FrameOf
    unfold State.updFerry
    try dsimp only
    repeat' first
      | (with_reducible assumption) | (split) | (intro _) | (refine frame_fst ?_ (by assumption)) | (dsimp only)
      | (with_reducible apply frame_any))) only [framed]

theorem postEvent_fr {E : Nat} {s0 s : State} (h : Frame E s0 s) {f : Nat} {t : Nat} {e : Nat × Nat × Nat} :
    Frame E s0 (State.postEvent s f t e) := by
  simp (disch := (
    unfold FrameOf
    unfold State.postEvent
    try dsimp only
    repeat' first
      | (with_reducible assumption) | (with_reducible apply disarm_fr) | (with_reducible apply updInv_fr)
      | (with_reducible apply updThread_fr) | (split) | (intro _) | (refine frame_fst ?_ (by assumption)) | (dsimp only)
      | (with_reducible apply frame_any))) only [framed]

theorem updLock_fr {E : Nat} {s0 s : State} (h : Frame E s0 s) {n : Nat} {g : Lock → Lock} (hE : Sub 0x4000000 E := by first | assumption | exact sub_step (by assumption) (by decide)) :
    Frame E s0 (State.updLock s n g) := by
  simp (disch := (
    unfold FrameOf
    unfold State.updLock
    try dsimp only
    repeat' first
      | (with_reducible assumption) | ((with_reducible refine sub_step (by assumption) ?_); first | rfl | decide) | (split)
      | (intro _) | (refine frame_fst ?_ (by assumption)) | (dsimp only) | (with_reducible apply frame_any)
      | (with_reducible apply frame_locks))) only [framed]

theorem grantLock_fr {E : Nat} {s0 s : State} (h : Frame E s0 s) {n : Nat} {ident : Nat} (hE : Sub 0x4020000 E := by first | assumption | exact sub_step (by assumption) (by decide)) :
    Frame E s0 (State.grantLock s n ident) := by
  simp (disch := (
    unfold FrameOf
    unfold State.grantLock
    try dsimp only
    repeat' first
      | (with_reducible assumption) | ((with_reducible refine sub_step (by assumption) ?_); first | rfl | decide)
      | (with_reducible apply count_fr) | (with_reducible apply updInv_fr) | (with_reducible apply updLock_fr) | (split)
      | (intro _) | (refine frame_fst ?_ (by assumption)) | (dsimp only) | (with_reducible apply frame_any))) only [framed]

theorem releaseLock_fr {E : Nat} {s0 s : State} (h : Frame E s0 s) {n : Nat} {orphan : Bool} (hE : Sub 0x4020000 E := by first | assumption | exact sub_step (by assumption) (by decide)) :
    Frame E s0 (State.releaseLock s n orphan) := by
  simp (disch := (
    unfold FrameOf
    unfold State.releaseLock
    try dsimp only
    repeat' first
      | (with_reducible assumption) | ((with_reducible refine sub_step (by assumption) ?_); first | rfl | decide)
      | (with_reducible apply count_fr) | (with_reducible apply grantLock_fr) | (with_reducible apply updLock_fr) | (split)
      | (intro _) | (refine frame_fst ?_ (by assumption)) | (dsimp only) | (with_reducible apply frame_any))) only [framed]

theorem acquireLock_fr {E : Nat} {s0 s : State} (h : Frame E s0 s) {n : Nat} {ident : Nat} (hE : Sub 0x4020000 E := by first | assumption | exact sub_step (by assumption) (by decide)) :
    Frame E s0 (State.acquireLock s n ident).1 := by
  simp (disch := (
    unfold FrameOf
    unfold State.acquireLock
    try dsimp only
    repeat' first
      | (with_reducible assumption) | ((with_reducible refine sub_step (by assumption) ?_); first | rfl | decide)
      | (with_reducible apply count_fr) | (with_reducible apply grantLock_fr) | (with_reducible apply updLock_fr) | (split)
      | (intro _) | (refine frame_fst ?_ (by assumption)) | (dsimp only) | (with_reducible apply frame_any))) only [framed]

theorem dropLocks_fr {E : Nat} {s0 s : State} (h : Frame E s0 s) {ident : Nat} (hE : Sub 0x4020000 E := by first | assumption | exact sub_step (by assumption) (by decide)) :
    Frame E s0 (State.dropLocks s ident) := by
  simp (disch := (
    unfold FrameOf
    unfold State.dropLocks
    try dsimp only
    repeat' first
      | (with_reducible assumption) | ((with_reducible refine sub_step (by assumption) ?_); first | rfl | decide)
      | (with_reducible apply forEach_fr) | (with_reducible apply releaseLock_fr) | (split) | (intro _)
      | (refine frame_fst ?_ (by assumption)) | (dsimp only) | (with_reducible apply frame_any)
      | (with_reducible apply frame_locks))) only [framed]

theorem freeGroup_fr {E : Nat} {s0 s : State} (h : Frame E s0 s) {g : Nat} (hE : Sub 0x4000000 E := by first | assumption | exact sub_step (by assumption) (by decide)) :
    Frame E s0 (State.freeGroup s g) := by
  simp (disch := (
    unfold FrameOf
    unfold State.freeGroup
    try dsimp only
    repeat' first
      | (with_reducible assumption) | ((with_reducible refine sub_step (by assumption) ?_); first | rfl | decide) | (split)
      | (intro _) | (refine frame_fst ?_ (by assumption)) | (dsimp only) | (with_reducible apply frame_any)
      | (with_reducible apply frame_locks))) only [framed]

theorem freeLocksOfJob_fr {E : Nat} {s0 s : State} (h : Frame E s0 s) {j : Nat} (hE : Sub 0x4000000 E := by first | assumption | exact sub_step (by assumption) (by decide)) :
    Frame E s0 (State.freeLocksOfJob s j) := by
  simp (disch := (
    unfold FrameOf
    unfold State.freeLocksOfJob
    try dsimp only
    repeat' first
      | (with_reducible assumption) | ((with_reducible refine sub_step (by assumption) ?_); first | rfl | decide)
      | (with_reducible apply forEach_fr) | (with_reducible apply freeGroup_fr) | (split) | (intro _)
      | (refine frame_fst ?_ (by assumption)) | (dsimp only) | (with_reducible apply frame_any))) only [framed]

end Sys2Proof.Laws
end

