-- ==== Sys2Proof/Laws/FrThreadOps.lean ====
section
/-! SUPPORT. The frame of every operation of Machine/ThreadOps.lean (`Laws.Frame`). -/

namespace Sys2Proof.Laws

open Sys2Proof.Machine

set_option linter.all false
set_option Elab.async false

theorem queueStatus_fr {E : Nat} {s0 s : State} (h : Frame E s0 s) {c : Nat} {e : StatusEntry} (hE : Sub 0x20000 E := by first | assumption | exact sub_step (by assumption) (by decide)) :
    Frame E s0 (State.queueStatus s c e) := by
  simp (disch := (
    unfold FrameOf
    unfold State.queueStatus
    try dsimp only
    repeat' first
      | (with_reducible assumption) | ((with_reducible refine sub_step (by assumption) ?_); first | rfl | decide)
      | (with_reducible apply queuePkt_fr) | (with_reducible apply updTx_fr) | (split) | (intro _)
      | (refine frame_fst ?_ (by assumption)) | (dsimp only) | (with_reducible apply frame_any))) only [framed]

theorem updTop_fr {E : Nat} {s0 s : State} (h : Frame E s0 s) {c : Nat} {m : Nat} {f : TOp → TOp} :
    Frame E s0 (State.updTop s c m f) := by
  simp (disch := (
    unfold FrameOf
    unfold State.updTop
    try dsimp only
    repeat' first
      | (with_reducible assumption) | (split) | (intro _) | (refine frame_fst ?_ (by assumption)) | (dsimp only)
      | (with_reducible apply frame_any))) only [framed]

theorem topFail_fr {E : Nat} {s0 s : State} (h : Frame E s0 s) {c : Nat} {m : Nat} {off : Nat} {cause : Nat} :
    Frame E s0 (State.topFail s c m off cause) := by
  simp (disch := (
    unfold FrameOf
    unfold State.topFail
    try dsimp only
    repeat' first
      | (with_reducible assumption) | (with_reducible apply updTop_fr) | (split) | (intro _)
      | (refine frame_fst ?_ (by assumption)) | (dsimp only) | (with_reducible apply frame_any))) only [framed]

theorem sendStatus_fr {E : Nat} {s0 s : State} (h : Frame E s0 s) {c : Nat} {m : Nat} {cause : Nat} {value : Nat} (hE : Sub 0x20000 E := by first | assumption | exact sub_step (by assumption) (by decide)) :
    Frame E s0 (State.sendStatus s c m cause value) := by
  simp (disch := (
    unfold FrameOf
    unfold State.sendStatus
    try dsimp only
    repeat' first
      | (with_reducible assumption) | ((with_reducible refine sub_step (by assumption) ?_); first | rfl | decide)
      | (with_reducible apply endCredit_fr) | (with_reducible apply newCtx_fr) | (with_reducible apply queueStatus_fr)
      | (with_reducible apply updTop_fr) | (split) | (intro _) | (refine frame_fst ?_ (by assumption)) | (dsimp only)
      | (with_reducible apply frame_any))) only [framed]

theorem queueResp_fr {E : Nat} {s0 s : State} (h : Frame E s0 s) {c : Nat} {m : Nat} {off : Nat} {bytes : List Byte} {last : Bool} {creq : Bool} (hE : Sub 0x20000 E := by first | assumption | exact sub_step (by assumption) (by decide)) :
    Frame E s0 (State.queueResp s c m off bytes last creq) := by
  simp (disch := (
    unfold FrameOf
    unfold State.queueResp
    try dsimp only
    repeat' first
      | (with_reducible assumption) | ((with_reducible refine sub_step (by assumption) ?_); first | rfl | decide)
      | (with_reducible apply queuePkt_fr) | (split) | (intro _) | (refine frame_fst ?_ (by assumption)) | (dsimp only)
      | (with_reducible apply frame_any))) only [framed]

theorem clearJobImage_fr {E : Nat} {s0 s : State} (h : Frame E s0 s) {f : Nat} (hE : Sub 0x400400 E := by first | assumption | exact sub_step (by assumption) (by decide)) :
    Frame E s0 (State.clearJobImage s f) := by
  unfold State.clearJobImage
  dsimp only
  exact frame_scratch (updFerry_fr (wrAll_fr h)) fun hm => filter_wf _ hm

theorem jobImageCheck_fr {E : Nat} {s0 s : State} (h : Frame E s0 s) {f : Nat} (hE : Sub 0x400400 E := by first | assumption | exact sub_step (by assumption) (by decide)) :
    Frame E s0 (State.jobImageCheck s f) := by
  simp (disch := (
    unfold FrameOf
    unfold State.jobImageCheck
    try dsimp only
    repeat' first
      | (with_reducible assumption) | ((with_reducible refine sub_step (by assumption) ?_); first | rfl | decide)
      | (with_reducible apply clearJobImage_fr) | (split) | (intro _) | (refine frame_fst ?_ (by assumption)) | (dsimp only)
      | (with_reducible apply frame_any))) only [framed]

theorem endKind_fr {E : Nat} {s0 s : State} (h : Frame E s0 s) {k : EvKind} {replied : Bool} {how : EndHow} (hE : Sub 0xb28002 E := by first | assumption | exact sub_step (by assumption) (by decide)) :
    Frame E s0 (State.endKind s k replied how) := by
  simp (disch := (
    unfold FrameOf
    unfold State.endKind
    try dsimp only
    repeat' first
      | (with_reducible assumption) | ((with_reducible refine sub_step (by assumption) ?_); first | rfl | decide)
      | (with_reducible apply completeExec_fr) | (with_reducible apply failExec_fr) | (with_reducible apply sendStatus_fr)
      | (split) | (intro _) | (refine frame_fst ?_ (by assumption)) | (dsimp only) | (with_reducible apply frame_any))) only [framed]

theorem endInvoc_fr {E : Nat} {s0 s : State} (h : Frame E s0 s) {f : Nat} {t : Nat} {how : EndHow} (hE : Sub 0x4f28402 E := by first | assumption | exact sub_step (by assumption) (by decide)) :
    Frame E s0 (State.endInvoc s f t how) := by
  simp (disch := (
    unfold FrameOf
    unfold State.endInvoc
    try dsimp only
    repeat' first
      | (with_reducible assumption) | ((with_reducible refine sub_step (by assumption) ?_); first | rfl | decide)
      | (with_reducible apply disarmAll_fr) | (with_reducible apply dropLocks_fr) | (with_reducible apply endKind_fr)
      | (with_reducible apply jobImageCheck_fr) | (with_reducible apply updThread_fr) | (split) | (intro _)
      | (refine frame_fst ?_ (by assumption)) | (dsimp only) | (with_reducible apply frame_any))) only [framed]

theorem haltFerryQueues_fr {E : Nat} {s0 s : State} (h : Frame E s0 s) {f : Nat} (hE : Sub 0xb28002 E := by first | assumption | exact sub_step (by assumption) (by decide)) :
    Frame E s0 (State.haltFerryQueues s f) := by
  simp (disch := (
    unfold FrameOf
    unfold State.haltFerryQueues
    try dsimp only
    repeat' first
      | (with_reducible assumption) | ((with_reducible refine sub_step (by assumption) ?_); first | rfl | decide)
      | (with_reducible apply forEach_fr) | (with_reducible apply haltQueue_fr) | (split) | (intro _)
      | (refine frame_fst ?_ (by assumption)) | (dsimp only) | (with_reducible apply frame_any))) only [framed]

theorem ferryFailed_fr {E : Nat} {s0 s : State} (h : Frame E s0 s) {f : Nat} (hE : Sub 0xb28402 E := by first | assumption | exact sub_step (by assumption) (by decide)) :
    Frame E s0 (State.ferryFailed s f) := by
  simp (disch := (
    unfold FrameOf
    unfold State.ferryFailed
    try dsimp only
    repeat' first
      | (with_reducible assumption) | ((with_reducible refine sub_step (by assumption) ?_); first | rfl | decide)
      | (with_reducible apply haltFerryQueues_fr) | (with_reducible apply raise_fr) | (with_reducible apply wr_fr) | (split)
      | (intro _) | (refine frame_fst ?_ (by assumption)) | (dsimp only) | (with_reducible apply frame_any))) only [framed]

theorem threadFault_fr {E : Nat} {s0 s : State} (h : Frame E s0 s) {f : Nat} {t : Nat} {cause : Nat} (hE : Sub 0x4f28402 E := by first | assumption | exact sub_step (by assumption) (by decide)) :
    Frame E s0 (State.threadFault s f t cause) := by
  simp (disch := (
    unfold FrameOf
    unfold State.threadFault
    try dsimp only
    repeat' first
      | (with_reducible assumption) | ((with_reducible refine sub_step (by assumption) ?_); first | rfl | decide)
      | (with_reducible refine sub_flds ?_ ?_) | (with_reducible exact sub_zero) | (with_reducible apply count_fr)
      | (with_reducible apply endInvoc_fr) | (with_reducible apply ferryFailed_fr) | (with_reducible apply incSat_fr)
      | (with_reducible apply logRec_fr) | (with_reducible apply wrAll_fr) | (split) | (intro _)
      | (refine frame_fst ?_ (by assumption)) | (dsimp only) | (with_reducible apply frame_any))) only [framed]

theorem dropEvent_fr {E : Nat} {s0 s : State} (h : Frame E s0 s) {f : Nat} {e : DEvent} (hE : Sub 0xb28002 E := by first | assumption | exact sub_step (by assumption) (by decide)) :
    Frame E s0 (State.dropEvent s f e) := by
  simp (disch := (
    unfold FrameOf
    unfold State.dropEvent
    try dsimp only
    repeat' first
      | (with_reducible assumption) | ((with_reducible refine sub_step (by assumption) ?_); first | rfl | decide)
      | (with_reducible apply count_fr) | (with_reducible apply failExec_fr) | (with_reducible apply sendStatus_fr) | (split)
      | (intro _) | (refine frame_fst ?_ (by assumption)) | (dsimp only) | (with_reducible apply frame_any))) only [framed]

theorem jobLeftFerry_fr {E : Nat} {s0 s : State} (h : Frame E s0 s) {j : Nat} {f : Nat} (hE : Sub 0x4f28402 E := by first | assumption | exact sub_step (by assumption) (by decide)) :
    Frame E s0 (State.jobLeftFerry s j f) := by
  simp (disch := (
    unfold FrameOf
    unfold State.jobLeftFerry
    try dsimp only
    repeat' first
      | (with_reducible assumption) | ((with_reducible refine sub_step (by assumption) ?_); first | rfl | decide)
      | (with_reducible apply dropEvent_fr) | (with_reducible apply forEach_fr) | (with_reducible apply jobImageCheck_fr)
      | (with_reducible apply threadFault_fr) | (with_reducible apply updFerry_fr) | (split) | (intro _)
      | (refine frame_fst ?_ (by assumption)) | (dsimp only) | (with_reducible apply frame_any))) only [framed]

theorem jobLeftOpen_fr {E : Nat} {s0 s : State} (h : Frame E s0 s) {j : Nat} (hE : Sub 0x4f28402 E := by first | assumption | exact sub_step (by assumption) (by decide)) :
    Frame E s0 (State.jobLeftOpen s j) := by
  simp (disch := (
    unfold FrameOf
    unfold State.jobLeftOpen
    try dsimp only
    repeat' first
      | (with_reducible assumption) | ((with_reducible refine sub_step (by assumption) ?_); first | rfl | decide)
      | (with_reducible apply forEach_fr) | (with_reducible apply jobLeftFerry_fr) | (split) | (intro _)
      | (refine frame_fst ?_ (by assumption)) | (dsimp only) | (with_reducible apply frame_any))) only [framed]

theorem lineMove_fr {E : Nat} {s0 s : State} (h : Frame E s0 s) {addr : Nat} {port : Nat} (hE : Sub 0x20000 E := by first | assumption | exact sub_step (by assumption) (by decide)) :
    Frame E s0 (State.lineMove s addr port) := by
  simp (disch := (
    unfold FrameOf
    unfold State.lineMove
    try dsimp only
    repeat' first
      | (with_reducible assumption) | ((with_reducible refine sub_step (by assumption) ?_); first | rfl | decide)
      | (with_reducible apply count_fr) | (split) | (intro _) | (refine frame_fst ?_ (by assumption)) | (dsimp only)
      | (with_reducible apply frame_any))) only [framed]

theorem agentMoves_fr {E : Nat} {s0 s : State} (h : Frame E s0 s) {addr : Nat} {n : Nat} (hE : Sub 0x20000 E := by first | assumption | exact sub_step (by assumption) (by decide)) :
    Frame E s0 (State.agentMoves s addr n) := by
  simp (disch := (
    unfold FrameOf
    unfold State.agentMoves
    try dsimp only
    repeat' first
      | (with_reducible assumption) | ((with_reducible refine sub_step (by assumption) ?_); first | rfl | decide)
      | (with_reducible apply lineMove_fr) | (with_reducible apply frame_foldl) | (split) | (intro _)
      | (refine frame_fst ?_ (by assumption)) | (dsimp only) | (with_reducible apply frame_any))) only [framed]

theorem writeLocal_fr {E : Nat} {s0 s : State} (h : Frame E s0 s) {f : Nat} {addr : Nat} {bs : List Byte} (hE : Sub 0x520000 E := by first | assumption | exact sub_step (by assumption) (by decide)) :
    Frame E s0 (State.writeLocal s f addr bs) := by
  unfold State.writeLocal
  split
  · exact h
  · split
    · exact frame_scratch h fun hm => memWrite_wf _ _ hm
    · exact frame_mem (agentMoves_fr h) fun hm => memWrite_wf _ _ hm

theorem endingCheck_fr {E : Nat} {s0 s : State} (h : Frame E s0 s) {f : Nat} {t : Nat} (hE : Sub 0x4f28402 E := by first | assumption | exact sub_step (by assumption) (by decide)) :
    Frame E s0 (State.endingCheck s f t) := by
  simp (disch := (
    unfold FrameOf
    unfold State.endingCheck
    try dsimp only
    repeat' first
      | (with_reducible assumption) | ((with_reducible refine sub_step (by assumption) ?_); first | rfl | decide)
      | (with_reducible apply endInvoc_fr) | (split) | (intro _) | (refine frame_fst ?_ (by assumption)) | (dsimp only)
      | (with_reducible apply frame_any))) only [framed]

theorem unitDone_fr {E : Nat} {s0 s : State} (h : Frame E s0 s) {f : Nat} {t : Nat} {op : Nat} {code : Nat} {cause : Nat} {value : Nat} (hE : Sub 0x4f28402 E := by first | assumption | exact sub_step (by assumption) (by decide)) :
    Frame E s0 (State.unitDone s f t op code cause value) := by
  simp (disch := (
    unfold FrameOf
    unfold State.unitDone
    try dsimp only
    repeat' first
      | (with_reducible assumption) | ((with_reducible refine sub_step (by assumption) ?_); first | rfl | decide)
      | (with_reducible apply bumpField_fr) | (with_reducible apply endingCheck_fr) | (with_reducible apply postEvent_fr)
      | (with_reducible apply updInv_fr) | (with_reducible apply updThread_fr) | (split) | (intro _)
      | (refine frame_fst ?_ (by assumption)) | (dsimp only) | (with_reducible apply frame_any))) only [framed]

theorem pushEvent_fr {E : Nat} {s0 s : State} (h : Frame E s0 s) {f : Nat} {e : DEvent} :
    Frame E s0 (State.pushEvent s f e) := by
  simp (disch := (
    unfold FrameOf
    unfold State.pushEvent
    try dsimp only
    repeat' first
      | (with_reducible assumption) | (with_reducible apply updFerry_fr) | (split) | (intro _)
      | (refine frame_fst ?_ (by assumption)) | (dsimp only) | (with_reducible apply frame_any))) only [framed]

end Sys2Proof.Laws
end

