-- ==== Sys2Proof/Laws/FrManifestOps.lean ====
section
/-! SUPPORT. The frame of every operation of Machine/ManifestOps.lean (`Laws.Frame`). -/

namespace Sys2Proof.Laws

open Sys2Proof.Machine

set_option linter.all false
set_option Elab.async false

theorem updM_fr {E : Nat} {s0 s : State} (h : Frame E s0 s) {m : Nat} {f : MEntry → MEntry} :
    Frame E s0 (State.updM s m f) := by
  simp (disch := (
    unfold FrameOf
    unfold State.updM
    try dsimp only
    repeat' first
      | (with_reducible assumption) | (split) | (intro _) | (refine frame_fst ?_ (by assumption)) | (dsimp only)
      | (with_reducible apply frame_any))) only [framed]

theorem keepTops_fr {E : Nat} {s0 s : State} (h : Frame E s0 s) {c : Nat} {f : Nat → TOp → Bool} :
    Frame E s0 (State.keepTops s c f) := by
  simp (disch := (
    unfold FrameOf
    unfold State.keepTops
    try dsimp only
    repeat' first
      | (with_reducible assumption) | (split) | (intro _) | (refine frame_fst ?_ (by assumption)) | (dsimp only)
      | (with_reducible apply frame_any))) only [framed]

theorem retire_fr {E : Nat} {s0 s : State} (h : Frame E s0 s) {m : Nat} (hE : Sub 0x20000 E := by first | assumption | exact sub_step (by assumption) (by decide)) :
    Frame E s0 (State.retire s m) := by
  simp (disch := (
    unfold FrameOf
    unfold State.retire
    try dsimp only
    repeat' first
      | (with_reducible assumption) | ((with_reducible refine sub_step (by assumption) ?_); first | rfl | decide)
      | (with_reducible apply count_fr) | (with_reducible apply endCredit_fr) | (with_reducible apply watch_fr) | (split)
      | (intro _) | (refine frame_fst ?_ (by assumption)) | (dsimp only) | (with_reducible apply frame_any))) only [framed]

theorem sendClose_fr {E : Nat} {s0 s : State} (h : Frame E s0 s) {c : Nat} (hE : Sub 0x20000 E := by first | assumption | exact sub_step (by assumption) (by decide)) :
    Frame E s0 (State.sendClose s c) := by
  simp (disch := (
    unfold FrameOf
    unfold State.sendClose
    try dsimp only
    repeat' first
      | (with_reducible assumption) | ((with_reducible refine sub_step (by assumption) ?_); first | rfl | decide)
      | (with_reducible apply armIn_fr) | (with_reducible apply sendCtl_fr) | (split) | (intro _)
      | (refine frame_fst ?_ (by assumption)) | (dsimp only) | (with_reducible apply frame_any))) only [framed]

theorem startClose_fr {E : Nat} {s0 s : State} (h : Frame E s0 s) {c : Nat} {job : Bool} (hE : Sub 0x20000 E := by first | assumption | exact sub_step (by assumption) (by decide)) :
    Frame E s0 (State.startClose s c job) := by
  simp (disch := (
    unfold FrameOf
    unfold State.startClose
    try dsimp only
    repeat' first
      | (with_reducible assumption) | ((with_reducible refine sub_step (by assumption) ?_); first | rfl | decide)
      | (with_reducible apply armIn_fr) | (with_reducible apply disarm_fr) | (with_reducible apply sendClose_fr)
      | (with_reducible apply updCtx_fr) | (split) | (intro _) | (refine frame_fst ?_ (by assumption)) | (dsimp only)
      | (with_reducible apply frame_any))) only [framed]

theorem lowWater_fr {E : Nat} {s0 s : State} (h : Frame E s0 s) (hE : Sub 0x20000 E := by first | assumption | exact sub_step (by assumption) (by decide)) :
    Frame E s0 (State.lowWater s) := by
  simp (disch := (
    unfold FrameOf
    unfold State.lowWater
    try dsimp only
    repeat' first
      | (with_reducible assumption) | ((with_reducible refine sub_step (by assumption) ?_); first | rfl | decide)
      | (with_reducible apply forEach_fr) | (with_reducible apply startClose_fr) | (split) | (intro _)
      | (refine frame_fst ?_ (by assumption)) | (dsimp only) | (with_reducible apply frame_any))) only [framed]

theorem openFor_fr {E : Nat} {s0 s : State} (h : Frame E s0 s) {slot : Nat} {loc : Nat} {rem : Nat} {coll : Bool} (hE : Sub 0x20000 E := by first | assumption | exact sub_step (by assumption) (by decide)) :
    Frame E s0 (State.openFor s slot loc rem coll).1 := by
  simp (disch := (
    unfold FrameOf
    unfold State.openFor
    try dsimp only
    repeat' first
      | (with_reducible assumption) | ((with_reducible refine sub_step (by assumption) ?_); first | rfl | decide)
      | (with_reducible apply fetchCtx_fr) | (with_reducible apply lowWater_fr) | (with_reducible apply newCtx_fr) | (split)
      | (intro _) | (refine frame_fst ?_ (by assumption)) | (dsimp only) | (with_reducible apply frame_any))) only [framed]

theorem takeEntry_fr {E : Nat} {s0 s : State} (h : Frame E s0 s) {e : MEntry} (hE : Sub 0x20000 E := by first | assumption | exact sub_step (by assumption) (by decide)) :
    Frame E s0 (State.takeEntry s e).1 := by
  simp (disch := (
    unfold FrameOf
    unfold State.takeEntry
    try dsimp only
    repeat' first
      | (with_reducible assumption) | ((with_reducible refine sub_step (by assumption) ?_); first | rfl | decide)
      | (with_reducible apply count_fr) | (split) | (intro _) | (refine frame_fst ?_ (by assumption)) | (dsimp only)
      | (with_reducible apply frame_any))) only [framed]

end Sys2Proof.Laws
end

