-- ==== Sys2Proof/Laws/FrMatchOps.lean ====
section
/-! SUPPORT. The frame of every operation of Machine/MatchOps.lean (`Laws.Frame`). -/

namespace Sys2Proof.Laws

open Sys2Proof.Machine

set_option linter.all false
set_option Elab.async false

theorem nextStamp_fr {E : Nat} {s0 s : State} (h : Frame E s0 s) {c : Nat} :
    Frame E s0 (State.nextStamp s c).1 := by
  simp (disch := (
    unfold FrameOf
    unfold State.nextStamp
    try dsimp only
    repeat' first
      | (with_reducible assumption) | (split) | (intro _) | (refine frame_fst ?_ (by assumption)) | (dsimp only)
      | (with_reducible apply frame_any))) only [framed]

theorem levelStamps_fr {E : Nat} {s0 s : State} (h : Frame E s0 s)  :
    Frame E s0 (State.levelStamps s) := by
  simp (disch := (
    unfold FrameOf
    unfold State.levelStamps
    try dsimp only
    repeat' first
      | (with_reducible assumption) | (with_reducible apply frame_foldl) | (split) | (intro _)
      | (refine frame_fst ?_ (by assumption)) | (dsimp only) | (with_reducible apply frame_any))) only [framed]

theorem storeUnits_fr {E : Nat} {s0 s : State} (h : Frame E s0 s) {us : List Nat} {off : Nat} {y0 : List Byte} (hE : Sub 0x900000 E := by first | assumption | exact sub_step (by assumption) (by decide)) :
    Frame E s0 (State.storeUnits s us off y0) := by
  induction y0 generalizing s off with
  | nil => exact h
  | cons b r ih => exact ih (putByte_fr h)

theorem spillOver_fr {E : Nat} {s0 s : State} (h : Frame E s0 s) {c : Nat} {y0 : Nat} (hE : Sub 0x20000 E := by first | assumption | exact sub_step (by assumption) (by decide)) :
    Frame E s0 (State.spillOver s c y0) := by
  induction y0 generalizing s with
  | zero => exact h
  | succ n ih =>
    unfold State.spillOver
    split
    · exact h
    · split
      · exact h
      · exact ih (count_fr (frame_any h))

theorem catchersMoved_fr {E : Nat} {s0 s : State} (h : Frame E s0 s) (hE : Sub 0x20000 E := by first | assumption | exact sub_step (by assumption) (by decide)) :
    Frame E s0 (State.catchersMoved s) := by
  simp (disch := (
    unfold FrameOf
    unfold State.catchersMoved
    try dsimp only
    repeat' first
      | (with_reducible assumption) | ((with_reducible refine sub_step (by assumption) ?_); first | rfl | decide)
      | (with_reducible apply forEach_fr) | (with_reducible apply levelStamps_fr) | (with_reducible apply spillOver_fr)
      | (split) | (intro _) | (refine frame_fst ?_ (by assumption)) | (dsimp only) | (with_reducible apply frame_any))) only [framed]

theorem placeEntry_fr {E : Nat} {s0 s : State} (h : Frame E s0 s) {c : Nat} (hE : Sub 0x20000 E := by first | assumption | exact sub_step (by assumption) (by decide)) :
    Frame E s0 (State.placeEntry s c).1 := by
  simp (disch := (
    unfold FrameOf
    unfold State.placeEntry
    try dsimp only
    repeat' first
      | (with_reducible assumption) | ((with_reducible refine sub_step (by assumption) ?_); first | rfl | decide)
      | (with_reducible apply count_fr) | (split) | (intro _) | (refine frame_fst ?_ (by assumption)) | (dsimp only)
      | (with_reducible apply frame_any))) only [framed]

theorem updRecv_fr {E : Nat} {s0 s : State} (h : Frame E s0 s) {i : Nat} {f : Recv → Recv} :
    Frame E s0 (State.updRecv s i f) := by
  simp (disch := (
    unfold FrameOf
    unfold State.updRecv
    try dsimp only
    repeat' first
      | (with_reducible assumption) | (split) | (intro _) | (refine frame_fst ?_ (by assumption)) | (dsimp only)
      | (with_reducible apply frame_any))) only [framed]

theorem updMsg_fr {E : Nat} {s0 s : State} (h : Frame E s0 s) {i : Nat} {f : Msg → Msg} :
    Frame E s0 (State.updMsg s i f) := by
  simp (disch := (
    unfold FrameOf
    unfold State.updMsg
    try dsimp only
    repeat' first
      | (with_reducible assumption) | (split) | (intro _) | (refine frame_fst ?_ (by assumption)) | (dsimp only)
      | (with_reducible apply frame_any))) only [framed]

theorem recvWrite_fr {E : Nat} {s0 s : State} (h : Frame E s0 s) {i : Nat} {off : Nat} {bytes : List Byte} {kind : XferKind} (hE : Sub 0x28000 E := by first | assumption | exact sub_step (by assumption) (by decide)) :
    Frame E s0 (State.recvWrite s i off bytes kind).1 := by
  simp (disch := (
    unfold FrameOf
    unfold State.recvWrite
    try dsimp only
    repeat' first
      | (with_reducible assumption) | ((with_reducible refine sub_step (by assumption) ?_); first | rfl | decide)
      | (with_reducible apply startXfer_fr) | (with_reducible apply translateRange_fr) | (with_reducible apply updRecv_fr)
      | (split) | (intro _) | (refine frame_fst ?_ (by assumption)) | (dsimp only) | (with_reducible apply frame_any))) only [framed]

theorem recvGone_fr {E : Nat} {s0 s : State} (h : Frame E s0 s) {i : Nat} {r : Recv} :
    Frame E s0 (State.recvGone s i r) := by
  simp (disch := (
    unfold FrameOf
    unfold State.recvGone
    try dsimp only
    repeat' first
      | (with_reducible assumption) | (with_reducible apply updMsg_fr) | (split) | (intro _)
      | (refine frame_fst ?_ (by assumption)) | (dsimp only) | (with_reducible apply frame_any))) only [framed]

theorem recvEnd_fr {E : Nat} {s0 s : State} (h : Frame E s0 s) {i : Nat} {cause : Nat} (hE : Sub 0x4f28402 E := by first | assumption | exact sub_step (by assumption) (by decide)) :
    Frame E s0 (State.recvEnd s i cause) := by
  simp (disch := (
    unfold FrameOf
    unfold State.recvEnd
    try dsimp only
    repeat' first
      | (with_reducible assumption) | ((with_reducible refine sub_step (by assumption) ?_); first | rfl | decide)
      | (with_reducible apply completeExec_fr) | (with_reducible apply failExec_fr) | (with_reducible apply recvGone_fr)
      | (with_reducible apply unitDone_fr) | (split) | (intro _) | (refine frame_fst ?_ (by assumption)) | (dsimp only)
      | (with_reducible apply frame_any))) only [framed]

theorem recvCancelled_fr {E : Nat} {s0 s : State} (h : Frame E s0 s) {i : Nat} (hE : Sub 0x4f28402 E := by first | assumption | exact sub_step (by assumption) (by decide)) :
    Frame E s0 (State.recvCancelled s i) := by
  simp (disch := (
    unfold FrameOf
    unfold State.recvCancelled
    try dsimp only
    repeat' first
      | (with_reducible assumption) | ((with_reducible refine sub_step (by assumption) ?_); first | rfl | decide)
      | (with_reducible apply cancelExec_fr) | (with_reducible apply recvGone_fr) | (with_reducible apply unitDone_fr) | (split)
      | (intro _) | (refine frame_fst ?_ (by assumption)) | (dsimp only) | (with_reducible apply frame_any))) only [framed]

theorem recvNext_fr {E : Nat} {s0 s : State} (h : Frame E s0 s) {i : Nat} (hE : Sub 0x4f28402 E := by first | assumption | exact sub_step (by assumption) (by decide)) :
    Frame E s0 (State.recvNext s i) := by
  simp (disch := (
    unfold FrameOf
    unfold State.recvNext
    try dsimp only
    repeat' first
      | (with_reducible assumption) | ((with_reducible refine sub_step (by assumption) ?_); first | rfl | decide)
      | (with_reducible apply recvEnd_fr) | (with_reducible apply startFlush_fr) | (with_reducible apply startXfer_fr)
      | (with_reducible apply translateRange_fr) | (with_reducible apply updRecv_fr) | (split) | (intro _)
      | (refine frame_fst ?_ (by assumption)) | (dsimp only) | (with_reducible apply frame_any))) only [framed]

theorem recvCheck_fr {E : Nat} {s0 s : State} (h : Frame E s0 s) {i : Nat} (hE : Sub 0x4f28402 E := by first | assumption | exact sub_step (by assumption) (by decide)) :
    Frame E s0 (State.recvCheck s i) := by
  simp (disch := (
    unfold FrameOf
    unfold State.recvCheck
    try dsimp only
    repeat' first
      | (with_reducible assumption) | ((with_reducible refine sub_step (by assumption) ?_); first | rfl | decide)
      | (with_reducible apply recvNext_fr) | (with_reducible apply updRecv_fr) | (split) | (intro _)
      | (refine frame_fst ?_ (by assumption)) | (dsimp only) | (with_reducible apply frame_any))) only [framed]

theorem tryPull_fr {E : Nat} {s0 s : State} (h : Frame E s0 s) {i : Nat} (hE : Sub 0x20000 E := by first | assumption | exact sub_step (by assumption) (by decide)) :
    Frame E s0 (State.tryPull s i) := by
  simp (disch := (
    unfold FrameOf
    unfold State.tryPull
    try dsimp only
    repeat' first
      | (with_reducible assumption) | ((with_reducible refine sub_step (by assumption) ?_); first | rfl | decide)
      | (with_reducible apply openFor_fr) | (with_reducible apply queuePkt_fr) | (with_reducible apply takeEntry_fr)
      | (with_reducible apply updRecv_fr) | (split) | (intro _) | (refine frame_fst ?_ (by assumption)) | (dsimp only)
      | (with_reducible apply frame_any))) only [framed]

theorem retryPulls_fr {E : Nat} {s0 s : State} (h : Frame E s0 s) (hE : Sub 0x20000 E := by first | assumption | exact sub_step (by assumption) (by decide)) :
    Frame E s0 (State.retryPulls s) := by
  simp (disch := (
    unfold FrameOf
    unfold State.retryPulls
    try dsimp only
    repeat' first
      | (with_reducible assumption) | ((with_reducible refine sub_step (by assumption) ?_); first | rfl | decide)
      | (with_reducible apply forEach_fr) | (with_reducible apply tryPull_fr) | (split) | (intro _)
      | (refine frame_fst ?_ (by assumption)) | (dsimp only) | (with_reducible apply frame_any))) only [framed]

theorem pullEnded_fr {E : Nat} {s0 s : State} (h : Frame E s0 s) {i : Nat} {cause : Nat} (hE : Sub 0x4f28402 E := by first | assumption | exact sub_step (by assumption) (by decide)) :
    Frame E s0 (State.pullEnded s i cause) := by
  simp (disch := (
    unfold FrameOf
    unfold State.pullEnded
    try dsimp only
    repeat' first
      | (with_reducible assumption) | ((with_reducible refine sub_step (by assumption) ?_); first | rfl | decide)
      | (with_reducible apply recvCheck_fr) | (with_reducible apply updRecv_fr) | (split) | (intro _)
      | (refine frame_fst ?_ (by assumption)) | (dsimp only) | (with_reducible apply frame_any))) only [framed]

theorem copied_fr {E : Nat} {s0 s : State} (h : Frame E s0 s) {m : Nat} :
    Frame E s0 (State.copied s m) := by
  simp (disch := (
    unfold FrameOf
    unfold State.copied
    try dsimp only
    repeat' first
      | (with_reducible assumption) | (with_reducible apply updMsg_fr) | (split) | (intro _)
      | (refine frame_fst ?_ (by assumption)) | (dsimp only) | (with_reducible apply frame_any))) only [framed]

theorem pairUp_fr {E : Nat} {s0 s : State} (h : Frame E s0 s) {i : Nat} {m : Nat} (hE : Sub 0x4f28402 E := by first | assumption | exact sub_step (by assumption) (by decide)) :
    Frame E s0 (State.pairUp s i m) := by
  simp (disch := (
    unfold FrameOf
    unfold State.pairUp
    try dsimp only
    repeat' first
      | (with_reducible assumption) | ((with_reducible refine sub_step (by assumption) ?_); first | rfl | decide)
      | (with_reducible apply copied_fr) | (with_reducible apply recvCheck_fr) | (with_reducible apply recvWrite_fr)
      | (with_reducible apply tryPull_fr) | (with_reducible apply updMsg_fr) | (with_reducible apply updRecv_fr) | (split)
      | (intro _) | (refine frame_fst ?_ (by assumption)) | (dsimp only) | (with_reducible apply frame_any))) only [framed]

theorem postRecv_fr {E : Nat} {s0 s : State} (h : Frame E s0 s) {c : Nat} {r : Recv} (hE : Sub 0x4f28402 E := by first | assumption | exact sub_step (by assumption) (by decide)) :
    Frame E s0 (State.postRecv s c r) := by
  simp (disch := (
    unfold FrameOf
    unfold State.postRecv
    try dsimp only
    repeat' first
      | (with_reducible assumption) | ((with_reducible refine sub_step (by assumption) ?_); first | rfl | decide)
      | (with_reducible apply count_fr) | (with_reducible apply idNext_fr) | (with_reducible apply nextStamp_fr)
      | (with_reducible apply pairUp_fr) | (with_reducible apply placeEntry_fr) | (split) | (intro _)
      | (refine frame_fst ?_ (by assumption)) | (dsimp only) | (with_reducible apply frame_any))) only [framed]

theorem present_fr {E : Nat} {s0 s : State} (h : Frame E s0 s) {c : Nat} {x : Ctx} {m : Nat} {rdv : Bool} {comm : Nat} {rank : Nat} {length : Nat} {tag : Nat} {handle : Nat} (hE : Sub 0x4f28402 E := by first | assumption | exact sub_step (by assumption) (by decide)) :
    ∀ t, State.present s c x m rdv comm rank length tag handle = some t → Frame E s0 t.1 := by
  intro t ht
  unfold State.present at ht
  extract_lets p id msg units at ht
  clear_value units msg id p
  split at ht
  · cases ht
  · rename_i k _
    split at ht
    · have w := nextStamp_fr (c := k) (count_fr (u := catcherUnit k) (ev := 2) (sub := 0) (w := 1) (idNext_fr h))
      split at ht
      rename_i e
      rw [e] at w
      injection ht with ht
      subst ht
      exact pairUp_fr (frame_any w)
    · split at ht
      · have w := nextStamp_fr (c := k) (count_fr (u := catcherUnit k) (ev := 3) (sub := 0) (w := 1)
          (count_fr (u := catcherUnit k) (ev := 2) (sub := 0) (w := 1) (idNext_fr h)))
        split at ht
        rename_i e
        rw [e] at w
        have v := placeEntry_fr (c := k) w
        split at ht
        rename_i e2
        rw [e2] at v
        injection ht with ht
        subst ht
        exact frame_any v
      · cases ht

theorem msgData_fr {E : Nat} {s0 s : State} (h : Frame E s0 s) {c : Nat} {mtag : Nat} {id : Nat} {off : Nat} {bytes : List Byte} (hE : Sub 0x928000 E := by first | assumption | exact sub_step (by assumption) (by decide)) :
    Frame E s0 (State.msgData s c mtag id off bytes).1 := by
  simp (disch := (
    unfold FrameOf
    unfold State.msgData
    try dsimp only
    repeat' first
      | (with_reducible assumption) | ((with_reducible refine sub_step (by assumption) ?_); first | rfl | decide)
      | (with_reducible apply recvWrite_fr) | (with_reducible apply storeUnits_fr) | (with_reducible apply updMsg_fr) | (split)
      | (intro _) | (refine frame_fst ?_ (by assumption)) | (dsimp only) | (with_reducible apply frame_any))) only [framed]

theorem msgLast_fr {E : Nat} {s0 s : State} (h : Frame E s0 s) {id : Nat} (hE : Sub 0x4f28402 E := by first | assumption | exact sub_step (by assumption) (by decide)) :
    Frame E s0 (State.msgLast s id) := by
  simp (disch := (
    unfold FrameOf
    unfold State.msgLast
    try dsimp only
    repeat' first
      | (with_reducible assumption) | ((with_reducible refine sub_step (by assumption) ?_); first | rfl | decide)
      | (with_reducible apply copied_fr) | (with_reducible apply recvCheck_fr) | (with_reducible apply updMsg_fr) | (split)
      | (intro _) | (refine frame_fst ?_ (by assumption)) | (dsimp only) | (with_reducible apply frame_any))) only [framed]

theorem msgCut_fr {E : Nat} {s0 s : State} (h : Frame E s0 s) {id : Nat} {cause : Option Nat} (hE : Sub 0x4f28402 E := by first | assumption | exact sub_step (by assumption) (by decide)) :
    Frame E s0 (State.msgCut s id cause) := by
  simp (disch := (
    unfold FrameOf
    unfold State.msgCut
    try dsimp only
    repeat' first
      | (with_reducible assumption) | ((with_reducible refine sub_step (by assumption) ?_); first | rfl | decide)
      | (with_reducible apply copied_fr) | (with_reducible apply recvCheck_fr) | (with_reducible apply updMsg_fr)
      | (with_reducible apply updRecv_fr) | (split) | (intro _) | (refine frame_fst ?_ (by assumption)) | (dsimp only)
      | (with_reducible apply frame_any))) only [framed]

theorem msgsCtxGone_fr {E : Nat} {s0 s : State} (h : Frame E s0 s) {c : Nat} {cause : Nat} (hE : Sub 0x4f28402 E := by first | assumption | exact sub_step (by assumption) (by decide)) :
    Frame E s0 (State.msgsCtxGone s c cause) := by
  simp (disch := (
    unfold FrameOf
    unfold State.msgsCtxGone
    try dsimp only
    repeat' first
      | (with_reducible assumption) | ((with_reducible refine sub_step (by assumption) ?_); first | rfl | decide)
      | (with_reducible apply forEach_fr) | (with_reducible apply msgCut_fr) | (split) | (intro _)
      | (refine frame_fst ?_ (by assumption)) | (dsimp only) | (with_reducible apply frame_any))) only [framed]

theorem freeMatchOfJob_fr {E : Nat} {s0 s : State} (h : Frame E s0 s) {j : Nat} :
    Frame E s0 (State.freeMatchOfJob s j) := by
  simp (disch := (
    unfold FrameOf
    unfold State.freeMatchOfJob
    try dsimp only
    repeat' first
      | (with_reducible assumption) | (split) | (intro _) | (refine frame_fst ?_ (by assumption)) | (dsimp only)
      | (with_reducible apply frame_any))) only [framed]

end Sys2Proof.Laws
end

