-- ==== Sys2Proof/Laws/FrCollOps.lean ====
section
/-! SUPPORT. The frame of every operation of Machine/CollOps.lean (`Laws.Frame`). -/

namespace Sys2Proof.Laws

open Sys2Proof.Machine

set_option linter.all false
set_option Elab.async false

theorem updColl_fr {E : Nat} {s0 s : State} (h : Frame E s0 s) {c : Nat} {f : CollCtx → CollCtx} :
    Frame E s0 (State.updColl s c f) := by
  simp (disch := (
    unfold FrameOf
    unfold State.updColl
    try dsimp only
    repeat' first
      | (with_reducible assumption) | (split) | (intro _) | (refine frame_fst ?_ (by assumption)) | (dsimp only)
      | (with_reducible apply frame_any))) only [framed]

theorem updInst_fr {E : Nat} {s0 s : State} (h : Frame E s0 s) {c : Nat} {n : Nat} {f : CollInst → CollInst} :
    Frame E s0 (State.updInst s c n f) := by
  simp (disch := (
    unfold FrameOf
    unfold State.updInst
    try dsimp only
    repeat' first
      | (with_reducible assumption) | (with_reducible apply updColl_fr) | (split) | (intro _)
      | (refine frame_fst ?_ (by assumption)) | (dsimp only) | (with_reducible apply frame_any))) only [framed]

theorem countHuddle_fr {E : Nat} {s0 s : State} (h : Frame E s0 s) {c : Nat} {inst : Nat} {seg : Nat} {ev : Nat} {w : Nat} (hE : Sub 0x20000 E := by first | assumption | exact sub_step (by assumption) (by decide)) :
    Frame E s0 (State.countHuddle s c inst seg ev w) := by
  simp (disch := (
    unfold FrameOf
    unfold State.countHuddle
    try dsimp only
    repeat' first
      | (with_reducible assumption) | ((with_reducible refine sub_step (by assumption) ?_); first | rfl | decide)
      | (with_reducible apply count_fr) | (split) | (intro _) | (refine frame_fst ?_ (by assumption)) | (dsimp only)
      | (with_reducible apply frame_any))) only [framed]

theorem edgeCtx_fr {E : Nat} {s0 s : State} (h : Frame E s0 s) {slot : Nat} {node : Nat} (hE : Sub 0x20000 E := by first | assumption | exact sub_step (by assumption) (by decide)) :
    Frame E s0 (State.edgeCtx s slot node).1 := by
  simp (disch := (
    unfold FrameOf
    unfold State.edgeCtx
    try dsimp only
    repeat' first
      | (with_reducible assumption) | ((with_reducible refine sub_step (by assumption) ?_); first | rfl | decide)
      | (with_reducible apply openFor_fr) | (split) | (intro _) | (refine frame_fst ?_ (by assumption)) | (dsimp only)
      | (with_reducible apply frame_any))) only [framed]

theorem collTransmit_fr {E : Nat} {s0 s : State} (h : Frame E s0 s) {c : Nat} {node : Nat} {t : Nat} {h' : CollHdr} {d : CollData} (hE : Sub 0x20000 E := by first | assumption | exact sub_step (by assumption) (by decide)) :
    Frame E s0 (State.collTransmit s c node t h' d) := by
  simp (disch := (
    unfold FrameOf
    unfold State.collTransmit
    try dsimp only
    repeat' first
      | (with_reducible assumption) | ((with_reducible refine sub_step (by assumption) ?_); first | rfl | decide)
      | (with_reducible apply countHuddle_fr) | (with_reducible apply queuePkt_fr) | (with_reducible apply updColl_fr) | (split)
      | (intro _) | (refine frame_fst ?_ (by assumption)) | (dsimp only) | (with_reducible apply frame_any))) only [framed]

theorem collFlushList_fr {E : Nat} {s0 s : State} (h : Frame E s0 s) {c : Nat} {stuck : List Nat} {y0 : List (Nat × CollHdr × CollData)} (hE : Sub 0x20000 E := by first | assumption | exact sub_step (by assumption) (by decide)) :
    Frame E s0 (State.collFlushList s c stuck y0) := by
  simp (disch := (
    unfold FrameOf
    induction y0 generalizing s c stuck with
    | nil =>
      unfold State.collFlushList
      try dsimp only
      repeat' first
        | (with_reducible assumption) | ((with_reducible refine sub_step (by assumption) ?_); first | rfl | decide)
        | (with_reducible apply collTransmit_fr) | (with_reducible apply edgeCtx_fr) | (with_reducible apply updColl_fr)
        | (with_reducible apply ih) | (split) | (intro _) | (refine frame_fst ?_ (by assumption)) | (dsimp only)
        | (with_reducible apply frame_any)
    | cons a r ih =>
      unfold State.collFlushList
      try dsimp only
      repeat' first
        | (with_reducible assumption) | ((with_reducible refine sub_step (by assumption) ?_); first | rfl | decide)
        | (with_reducible apply collTransmit_fr) | (with_reducible apply edgeCtx_fr) | (with_reducible apply updColl_fr)
        | (with_reducible apply ih) | (split) | (intro _) | (refine frame_fst ?_ (by assumption)) | (dsimp only)
        | (with_reducible apply frame_any))) only [framed]

theorem collFlush_fr {E : Nat} {s0 s : State} (h : Frame E s0 s) {c : Nat} (hE : Sub 0x20000 E := by first | assumption | exact sub_step (by assumption) (by decide)) :
    Frame E s0 (State.collFlush s c) := by
  simp (disch := (
    unfold FrameOf
    unfold State.collFlush
    try dsimp only
    repeat' first
      | (with_reducible assumption) | ((with_reducible refine sub_step (by assumption) ?_); first | rfl | decide)
      | (with_reducible apply collFlushList_fr) | (split) | (intro _) | (refine frame_fst ?_ (by assumption)) | (dsimp only)
      | (with_reducible apply frame_any))) only [framed]

theorem collPush_fr {E : Nat} {s0 s : State} (h : Frame E s0 s) {c : Nat} {ps : List (Nat × CollHdr × CollData)} :
    Frame E s0 (State.collPush s c ps) := by
  simp (disch := (
    unfold FrameOf
    unfold State.collPush
    try dsimp only
    repeat' first
      | (with_reducible assumption) | (with_reducible apply updColl_fr) | (split) | (intro _)
      | (refine frame_fst ?_ (by assumption)) | (dsimp only) | (with_reducible apply frame_any))) only [framed]

theorem collTell_fr {E : Nat} {s0 s : State} (h : Frame E s0 s) {c : Nat} {node : Nat} {h' : CollHdr} (hE : Sub 0x20000 E := by first | assumption | exact sub_step (by assumption) (by decide)) :
    Frame E s0 (State.collTell s c node h') := by
  simp (disch := (
    unfold FrameOf
    unfold State.collTell
    try dsimp only
    repeat' first
      | (with_reducible assumption) | ((with_reducible refine sub_step (by assumption) ?_); first | rfl | decide)
      | (with_reducible apply collFlush_fr) | (with_reducible apply collPush_fr) | (split) | (intro _)
      | (refine frame_fst ?_ (by assumption)) | (dsimp only) | (with_reducible apply frame_any))) only [framed]

theorem collLand_fr {E : Nat} {s0 s : State} (h : Frame E s0 s) {c : Nat} {node : Nat} {psn : Nat} {h' : CollHdr} {d : CollData} (hE : Sub 0x920000 E := by first | assumption | exact sub_step (by assumption) (by decide)) :
    Frame E s0 (State.collLand s c node psn h' d) := by
  simp (disch := (
    unfold FrameOf
    unfold State.collLand
    try dsimp only
    repeat' first
      | (with_reducible assumption) | ((with_reducible refine sub_step (by assumption) ?_); first | rfl | decide)
      | (with_reducible apply askSegs_fr) | (with_reducible apply putBytes_fr) | (with_reducible apply updColl_fr) | (split)
      | (intro _) | (refine frame_fst ?_ (by assumption)) | (dsimp only) | (with_reducible apply frame_any))) only [framed]

theorem freeSlotOf_fr {E : Nat} {s0 s : State} (h : Frame E s0 s) {c : Nat} {node : Nat} {psn : Nat} :
    Frame E s0 (State.freeSlotOf s c node psn) := by
  simp (disch := (
    unfold FrameOf
    unfold State.freeSlotOf
    try dsimp only
    repeat' first
      | (with_reducible assumption) | (with_reducible apply updColl_fr) | (split) | (intro _)
      | (refine frame_fst ?_ (by assumption)) | (dsimp only) | (with_reducible apply frame_any))) only [framed]

theorem collStore_fr {E : Nat} {s0 s : State} (h : Frame E s0 s) {slot : Nat} {node : Nat} {psn : Nat} {h' : CollHdr} {d : CollData} (hE : Sub 0x920000 E := by first | assumption | exact sub_step (by assumption) (by decide)) :
    Frame E s0 (State.collStore s slot node psn h' d).1 := by
  simp (disch := (
    unfold FrameOf
    unfold State.collStore
    try dsimp only
    repeat' first
      | (with_reducible assumption) | ((with_reducible refine sub_step (by assumption) ?_); first | rfl | decide)
      | (with_reducible apply collLand_fr) | (split) | (intro _) | (refine frame_fst ?_ (by assumption)) | (dsimp only)
      | (with_reducible apply frame_any))) only [framed]

theorem armRejoin_fr {E : Nat} {s0 s : State} (h : Frame E s0 s) {c : Nat} :
    Frame E s0 (State.armRejoin s c) := by
  simp (disch := (
    unfold FrameOf
    unfold State.armRejoin
    try dsimp only
    repeat' first
      | (with_reducible assumption) | (with_reducible apply arm_fr) | (with_reducible apply disarm_fr)
      | (with_reducible apply frame_foldl) | (split) | (intro _) | (refine frame_fst ?_ (by assumption)) | (dsimp only)
      | (with_reducible apply frame_any))) only [framed]

theorem rejoinOver_fr {E : Nat} {s0 s : State} (h : Frame E s0 s) {c : Nat} {n : Nat} :
    Frame E s0 (State.rejoinOver s c n) := by
  simp (disch := (
    unfold FrameOf
    unfold State.rejoinOver
    try dsimp only
    repeat' first
      | (with_reducible assumption) | (with_reducible apply armRejoin_fr) | (with_reducible apply updInst_fr) | (split)
      | (intro _) | (refine frame_fst ?_ (by assumption)) | (dsimp only) | (with_reducible apply frame_any))) only [framed]

theorem collFail_fr {E : Nat} {s0 s : State} (h : Frame E s0 s) {c : Nat} {k : Nat} {cause : Nat} {src : Option Nat} (hE : Sub 0xb28022 E := by first | assumption | exact sub_step (by assumption) (by decide)) :
    Frame E s0 (State.collFail s c k cause src) := by
  simp (disch := (
    unfold FrameOf
    unfold State.collFail
    try dsimp only
    repeat' first
      | (with_reducible assumption) | ((with_reducible refine sub_step (by assumption) ?_); first | rfl | decide)
      | (with_reducible apply armRejoin_fr) | (with_reducible apply collFlush_fr) | (with_reducible apply disarmAll_fr)
      | (with_reducible apply failExec_fr) | (with_reducible apply forEach_fr) | (with_reducible apply freeSlotOf_fr)
      | (with_reducible apply updColl_fr) | (with_reducible apply wr_fr) | (split) | (intro _)
      | (refine frame_fst ?_ (by assumption)) | (dsimp only) | (with_reducible apply frame_any))) only [framed]

theorem collMemFail_fr {E : Nat} {s0 s : State} (h : Frame E s0 s) {c : Nat} {n : Nat} {cause : Nat} (hE : Sub 0xb28022 E := by first | assumption | exact sub_step (by assumption) (by decide)) :
    Frame E s0 (State.collMemFail s c n cause) := by
  simp (disch := (
    unfold FrameOf
    unfold State.collMemFail
    try dsimp only
    repeat' first
      | (with_reducible assumption) | ((with_reducible refine sub_step (by assumption) ?_); first | rfl | decide)
      | (with_reducible apply collFail_fr) | (with_reducible apply failExec_fr) | (split) | (intro _)
      | (refine frame_fst ?_ (by assumption)) | (dsimp only) | (with_reducible apply frame_any))) only [framed]

theorem collCtxFailed_fr {E : Nat} {s0 s : State} (h : Frame E s0 s) {t : Nat} (hE : Sub 0xb28022 E := by first | assumption | exact sub_step (by assumption) (by decide)) :
    Frame E s0 (State.collCtxFailed s t) := by
  simp (disch := (
    unfold FrameOf
    unfold State.collCtxFailed
    try dsimp only
    repeat' first
      | (with_reducible assumption) | ((with_reducible refine sub_step (by assumption) ?_); first | rfl | decide)
      | (with_reducible apply collFail_fr) | (with_reducible apply forEach_fr) | (split) | (intro _)
      | (refine frame_fst ?_ (by assumption)) | (dsimp only) | (with_reducible apply frame_any))) only [framed]

theorem collEnd_fr {E : Nat} {s0 s : State} (h : Frame E s0 s) {c : Nat} {n : Nat} (hE : Sub 0xb28022 E := by first | assumption | exact sub_step (by assumption) (by decide)) :
    Frame E s0 (State.collEnd s c n) := by
  simp (disch := (
    unfold FrameOf
    unfold State.collEnd
    try dsimp only
    repeat' first
      | (with_reducible assumption) | ((with_reducible refine sub_step (by assumption) ?_); first | rfl | decide)
      | (with_reducible apply armRejoin_fr) | (with_reducible apply completeExec_fr) | (with_reducible apply disarm_fr)
      | (with_reducible apply updColl_fr) | (with_reducible apply wr_fr) | (split) | (intro _)
      | (refine frame_fst ?_ (by assumption)) | (dsimp only) | (with_reducible apply frame_any))) only [framed]

theorem collCheck_fr {E : Nat} {s0 s : State} (h : Frame E s0 s) {c : Nat} {n : Nat} (hE : Sub 0xb28022 E := by first | assumption | exact sub_step (by assumption) (by decide)) :
    Frame E s0 (State.collCheck s c n) := by
  simp (disch := (
    unfold FrameOf
    unfold State.collCheck
    try dsimp only
    repeat' first
      | (with_reducible assumption) | ((with_reducible refine sub_step (by assumption) ?_); first | rfl | decide)
      | (with_reducible apply collEnd_fr) | (with_reducible apply collFlush_fr) | (with_reducible apply startFlush_fr)
      | (with_reducible apply updInst_fr) | (split) | (intro _) | (refine frame_fst ?_ (by assumption)) | (dsimp only)
      | (with_reducible apply frame_any))) only [framed]

theorem collDst_fr {E : Nat} {s0 s : State} (h : Frame E s0 s) {c : Nat} {n : Nat} {elem : Nat} {vals : List Nat} (hE : Sub 0xb28022 E := by first | assumption | exact sub_step (by assumption) (by decide)) :
    Frame E s0 (State.collDst s c n elem vals) := by
  simp (disch := (
    unfold FrameOf
    unfold State.collDst
    try dsimp only
    repeat' first
      | (with_reducible assumption) | ((with_reducible refine sub_step (by assumption) ?_); first | rfl | decide)
      | (with_reducible apply collMemFail_fr) | (with_reducible apply startXfer_fr) | (with_reducible apply translateRange_fr)
      | (with_reducible apply updInst_fr) | (split) | (intro _) | (refine frame_fst ?_ (by assumption)) | (dsimp only)
      | (with_reducible apply frame_any))) only [framed]

theorem collFeed_fr {E : Nat} {s0 s : State} (h : Frame E s0 s) {c : Nat} {n : Nat} (hE : Sub 0x20000 E := by first | assumption | exact sub_step (by assumption) (by decide)) :
    Frame E s0 (State.collFeed s c n) := by
  simp (disch := (
    unfold FrameOf
    unfold State.collFeed
    try dsimp only
    repeat' first
      | (with_reducible assumption) | ((with_reducible refine sub_step (by assumption) ?_); first | rfl | decide)
      | (with_reducible apply collFlush_fr) | (with_reducible apply collPush_fr) | (with_reducible apply forEach_fr)
      | (with_reducible apply updInst_fr) | (split) | (intro _) | (refine frame_fst ?_ (by assumption)) | (dsimp only)
      | (with_reducible apply frame_any))) only [framed]

theorem collForwardTo_fr {E : Nat} {s0 s : State} (h : Frame E s0 s) {c : Nat} {n : Nat} {ix : Nat} {node : Nat} (hE : Sub 0xb28022 E := by first | assumption | exact sub_step (by assumption) (by decide)) :
    Frame E s0 (State.collForwardTo s c n ix node) := by
  simp (disch := (
    unfold FrameOf
    unfold State.collForwardTo
    try dsimp only
    repeat' first
      | (with_reducible assumption) | ((with_reducible refine sub_step (by assumption) ?_); first | rfl | decide)
      | (with_reducible apply collMemFail_fr) | (with_reducible apply startXfer_fr) | (with_reducible apply translateRange_fr)
      | (with_reducible apply updInst_fr) | (split) | (intro _) | (refine frame_fst ?_ (by assumption)) | (dsimp only)
      | (with_reducible apply frame_any))) only [framed]

theorem collForward_fr {E : Nat} {s0 s : State} (h : Frame E s0 s) {c : Nat} {n : Nat} (hE : Sub 0xb28022 E := by first | assumption | exact sub_step (by assumption) (by decide)) :
    Frame E s0 (State.collForward s c n) := by
  simp (disch := (
    unfold FrameOf
    unfold State.collForward
    try dsimp only
    repeat' first
      | (with_reducible assumption) | ((with_reducible refine sub_step (by assumption) ?_); first | rfl | decide)
      | (with_reducible apply collForwardTo_fr) | (with_reducible apply forEach_fr) | (split) | (intro _)
      | (refine frame_fst ?_ (by assumption)) | (dsimp only) | (with_reducible apply frame_any))) only [framed]

theorem collFwdOver_fr {E : Nat} {s0 s : State} (h : Frame E s0 s) {c : Nat} {n : Nat} {node : Nat} {elem : Nat} {bytes : List Byte} (hE : Sub 0xb28022 E := by first | assumption | exact sub_step (by assumption) (by decide)) :
    Frame E s0 (State.collFwdOver s c n node elem bytes) := by
  simp (disch := (
    unfold FrameOf
    unfold State.collFwdOver
    try dsimp only
    repeat' first
      | (with_reducible assumption) | ((with_reducible refine sub_step (by assumption) ?_); first | rfl | decide)
      | (with_reducible apply collFlush_fr) | (with_reducible apply collForward_fr) | (with_reducible apply collPush_fr)
      | (with_reducible apply count_fr) | (with_reducible apply updColl_fr) | (with_reducible apply updInst_fr) | (split)
      | (intro _) | (refine frame_fst ?_ (by assumption)) | (dsimp only) | (with_reducible apply frame_any))) only [framed]

theorem collResult_fr {E : Nat} {s0 s : State} (h : Frame E s0 s) {c : Nat} {n : Nat} {elem : Nat} {vals : List Nat} (hE : Sub 0xb28022 E := by first | assumption | exact sub_step (by assumption) (by decide)) :
    Frame E s0 (State.collResult s c n elem vals) := by
  simp (disch := (
    unfold FrameOf
    unfold State.collResult
    try dsimp only
    repeat' first
      | (with_reducible assumption) | ((with_reducible refine sub_step (by assumption) ?_); first | rfl | decide)
      | (with_reducible apply askSegs_fr) | (with_reducible apply collCheck_fr) | (with_reducible apply collDst_fr)
      | (with_reducible apply collFeed_fr) | (with_reducible apply putBytes_fr) | (with_reducible apply updColl_fr)
      | (with_reducible apply updInst_fr) | (split) | (intro _) | (refine frame_fst ?_ (by assumption)) | (dsimp only)
      | (with_reducible apply frame_any))) only [framed]

theorem collGive_fr {E : Nat} {s0 s : State} (h : Frame E s0 s) {c : Nat} {n : Nat} {vals : List Nat} (hE : Sub 0xb28022 E := by first | assumption | exact sub_step (by assumption) (by decide)) :
    Frame E s0 (State.collGive s c n vals) := by
  simp (disch := (
    unfold FrameOf
    unfold State.collGive
    try dsimp only
    repeat' first
      | (with_reducible assumption) | ((with_reducible refine sub_step (by assumption) ?_); first | rfl | decide)
      | (with_reducible apply collResult_fr) | (with_reducible apply updInst_fr) | (split) | (intro _)
      | (refine frame_fst ?_ (by assumption)) | (dsimp only) | (with_reducible apply frame_any))) only [framed]

theorem collSendDone_fr {E : Nat} {s0 s : State} (h : Frame E s0 s) {c : Nat} {n : Nat} (hE : Sub 0xb28022 E := by first | assumption | exact sub_step (by assumption) (by decide)) :
    Frame E s0 (State.collSendDone s c n) := by
  simp (disch := (
    unfold FrameOf
    unfold State.collSendDone
    try dsimp only
    repeat' first
      | (with_reducible assumption) | ((with_reducible refine sub_step (by assumption) ?_); first | rfl | decide)
      | (with_reducible apply collCheck_fr) | (with_reducible apply collFlush_fr) | (with_reducible apply collPush_fr)
      | (with_reducible apply updInst_fr) | (split) | (intro _) | (refine frame_fst ?_ (by assumption)) | (dsimp only)
      | (with_reducible apply frame_any))) only [framed]

theorem collUpDone_fr {E : Nat} {s0 s : State} (h : Frame E s0 s) {c : Nat} {n : Nat} :
    Frame E s0 (State.collUpDone s c n) := by
  simp (disch := (
    unfold FrameOf
    unfold State.collUpDone
    try dsimp only
    repeat' first
      | (with_reducible assumption) | (with_reducible apply updColl_fr) | (split) | (intro _)
      | (refine frame_fst ?_ (by assumption)) | (dsimp only) | (with_reducible apply frame_any))) only [framed]

theorem collAdvanceN_fr {E : Nat} {s0 s : State} (h : Frame E s0 s) {c : Nat} {n : Nat} {y0 : Nat} (hE : Sub 0xb28022 E := by first | assumption | exact sub_step (by assumption) (by decide)) :
    Frame E s0 (State.collAdvanceN s c n y0) := by
  simp (disch := (
    unfold FrameOf
    induction y0 generalizing s c n with
    | zero =>
      unfold State.collAdvanceN
      try dsimp only
      repeat' first
        | (with_reducible assumption) | ((with_reducible refine sub_step (by assumption) ?_); first | rfl | decide)
        | (with_reducible apply collFlush_fr) | (with_reducible apply collGive_fr) | (with_reducible apply collPush_fr)
        | (with_reducible apply collSendDone_fr) | (with_reducible apply collUpDone_fr) | (with_reducible apply countHuddle_fr)
        | (with_reducible apply updInst_fr) | (with_reducible apply ih) | (split) | (intro _)
        | (refine frame_fst ?_ (by assumption)) | (dsimp only) | (with_reducible apply frame_any)
    | succ n ih =>
      unfold State.collAdvanceN
      try dsimp only
      repeat' first
        | (with_reducible assumption) | ((with_reducible refine sub_step (by assumption) ?_); first | rfl | decide)
        | (with_reducible apply collFlush_fr) | (with_reducible apply collGive_fr) | (with_reducible apply collPush_fr)
        | (with_reducible apply collSendDone_fr) | (with_reducible apply collUpDone_fr) | (with_reducible apply countHuddle_fr)
        | (with_reducible apply updInst_fr) | (with_reducible apply ih) | (split) | (intro _)
        | (refine frame_fst ?_ (by assumption)) | (dsimp only) | (with_reducible apply frame_any))) only [framed]

theorem collAdvance_fr {E : Nat} {s0 s : State} (h : Frame E s0 s) {c : Nat} {n : Nat} (hE : Sub 0xb28022 E := by first | assumption | exact sub_step (by assumption) (by decide)) :
    Frame E s0 (State.collAdvance s c n) := by
  simp (disch := (
    unfold FrameOf
    unfold State.collAdvance
    try dsimp only
    repeat' first
      | (with_reducible assumption) | ((with_reducible refine sub_step (by assumption) ?_); first | rfl | decide)
      | (with_reducible apply collAdvanceN_fr) | (with_reducible apply collGive_fr) | (with_reducible apply collSendDone_fr)
      | (with_reducible apply collTell_fr) | (with_reducible apply collUpDone_fr) | (with_reducible apply updColl_fr)
      | (with_reducible apply updInst_fr) | (split) | (intro _) | (refine frame_fst ?_ (by assumption)) | (dsimp only)
      | (with_reducible apply frame_any))) only [framed]

theorem collReadSrc_fr {E : Nat} {s0 s : State} (h : Frame E s0 s) {c : Nat} {n : Nat} {m : CollCmd} {q : Nat} {bytes : Nat} (hE : Sub 0xb28022 E := by first | assumption | exact sub_step (by assumption) (by decide)) :
    Frame E s0 (State.collReadSrc s c n m q bytes) := by
  simp (disch := (
    unfold FrameOf
    unfold State.collReadSrc
    try dsimp only
    repeat' first
      | (with_reducible assumption) | ((with_reducible refine sub_step (by assumption) ?_); first | rfl | decide)
      | (with_reducible apply collMemFail_fr) | (with_reducible apply startXfer_fr) | (with_reducible apply translateRange_fr)
      | (split) | (intro _) | (refine frame_fst ?_ (by assumption)) | (dsimp only) | (with_reducible apply frame_any))) only [framed]

theorem collBegin_fr {E : Nat} {s0 s : State} (h : Frame E s0 s) {c : Nat} {n : Nat} (hE : Sub 0xb28022 E := by first | assumption | exact sub_step (by assumption) (by decide)) :
    Frame E s0 (State.collBegin s c n) := by
  simp (disch := (
    unfold FrameOf
    unfold State.collBegin
    try dsimp only
    repeat' first
      | (with_reducible assumption) | ((with_reducible refine sub_step (by assumption) ?_); first | rfl | decide)
      | (with_reducible apply armIn_fr) | (with_reducible apply collAdvance_fr) | (with_reducible apply collReadSrc_fr)
      | (with_reducible apply updInst_fr) | (split) | (intro _) | (refine frame_fst ?_ (by assumption)) | (dsimp only)
      | (with_reducible apply frame_any))) only [framed]

theorem countInput_fr {E : Nat} {s0 s : State} (h : Frame E s0 s) {c : Nat} {n : Nat} {m : CollCmd} {len : Nat} (hE : Sub 0x20000 E := by first | assumption | exact sub_step (by assumption) (by decide)) :
    Frame E s0 (State.countInput s c n m len) := by
  simp (disch := (
    unfold FrameOf
    unfold State.countInput
    try dsimp only
    repeat' first
      | (with_reducible assumption) | ((with_reducible refine sub_step (by assumption) ?_); first | rfl | decide)
      | (with_reducible apply countHuddle_fr) | (with_reducible apply forEach_fr) | (split) | (intro _)
      | (refine frame_fst ?_ (by assumption)) | (dsimp only) | (with_reducible apply frame_any))) only [framed]

theorem collSrcIn_fr {E : Nat} {s0 s : State} (h : Frame E s0 s) {c : Nat} {n : Nat} {bytes : List Byte} (hE : Sub 0xb28022 E := by first | assumption | exact sub_step (by assumption) (by decide)) :
    Frame E s0 (State.collSrcIn s c n bytes) := by
  simp (disch := (
    unfold FrameOf
    unfold State.collSrcIn
    try dsimp only
    repeat' first
      | (with_reducible assumption) | ((with_reducible refine sub_step (by assumption) ?_); first | rfl | decide)
      | (with_reducible apply collAdvance_fr) | (with_reducible apply collGive_fr) | (with_reducible apply countInput_fr)
      | (with_reducible apply updInst_fr) | (split) | (intro _) | (refine frame_fst ?_ (by assumption)) | (dsimp only)
      | (with_reducible apply frame_any))) only [framed]

theorem collResultIn_fr {E : Nat} {s0 s : State} (h : Frame E s0 s) {c : Nat} {v : CollInst} {h' : CollHdr} {vals : List Nat} (hE : Sub 0xb28022 E := by first | assumption | exact sub_step (by assumption) (by decide)) :
    Frame E s0 (State.collResultIn s c v h' vals) := by
  simp (disch := (
    unfold FrameOf
    unfold State.collResultIn
    try dsimp only
    repeat' first
      | (with_reducible assumption) | ((with_reducible refine sub_step (by assumption) ?_); first | rfl | decide)
      | (with_reducible apply collResult_fr) | (with_reducible apply rejoinOver_fr) | (with_reducible apply updInst_fr)
      | (split) | (intro _) | (refine frame_fst ?_ (by assumption)) | (dsimp only) | (with_reducible apply frame_any))) only [framed]

theorem collDoneIn_fr {E : Nat} {s0 s : State} (h : Frame E s0 s) {c : Nat} {v : CollInst} (hE : Sub 0xb28022 E := by first | assumption | exact sub_step (by assumption) (by decide)) :
    Frame E s0 (State.collDoneIn s c v) := by
  simp (disch := (
    unfold FrameOf
    unfold State.collDoneIn
    try dsimp only
    repeat' first
      | (with_reducible assumption) | ((with_reducible refine sub_step (by assumption) ?_); first | rfl | decide)
      | (with_reducible apply collCheck_fr) | (with_reducible apply collSendDone_fr) | (with_reducible apply rejoinOver_fr)
      | (with_reducible apply updInst_fr) | (split) | (intro _) | (refine frame_fst ?_ (by assumption)) | (dsimp only)
      | (with_reducible apply frame_any))) only [framed]

theorem collPacket_fr {E : Nat} {s0 s : State} (h : Frame E s0 s) {c : Nat} {node : Nat} {psn : Nat} {x : CollCtx} {v : CollInst} {h' : CollHdr} (hE : Sub 0xb28022 E := by first | assumption | exact sub_step (by assumption) (by decide)) :
    Frame E s0 (State.collPacket s c node psn x v h') := by
  simp (disch := (
    unfold FrameOf
    unfold State.collPacket
    try dsimp only
    repeat' first
      | (with_reducible assumption) | ((with_reducible refine sub_step (by assumption) ?_); first | rfl | decide)
      | (with_reducible apply collAdvance_fr) | (with_reducible apply collDoneIn_fr) | (with_reducible apply collFail_fr)
      | (with_reducible apply collFeed_fr) | (with_reducible apply collForward_fr) | (with_reducible apply collResultIn_fr)
      | (with_reducible apply countHuddle_fr) | (with_reducible apply freeSlotOf_fr) | (with_reducible apply raise_fr)
      | (with_reducible apply updInst_fr) | (split) | (intro _) | (refine frame_fst ?_ (by assumption)) | (dsimp only)
      | (with_reducible apply frame_any))) only [framed]

theorem collReplay_fr {E : Nat} {s0 s : State} (h : Frame E s0 s) {c : Nat} {n : Nat} {node : Nat} {x : CollCtx} {m : CollCmd} (hE : Sub 0xb28022 E := by first | assumption | exact sub_step (by assumption) (by decide)) :
    Frame E s0 (State.collReplay s c n node x m) := by
  simp (disch := (
    unfold FrameOf
    unfold State.collReplay
    try dsimp only
    repeat' first
      | (with_reducible assumption) | ((with_reducible refine sub_step (by assumption) ?_); first | rfl | decide)
      | (with_reducible apply collFail_fr) | (with_reducible apply collFlush_fr) | (with_reducible apply collPush_fr)
      | (with_reducible apply collTell_fr) | (with_reducible apply countHuddle_fr) | (with_reducible apply raise_fr) | (split)
      | (intro _) | (refine frame_fst ?_ (by assumption)) | (dsimp only) | (with_reducible apply frame_any))) only [framed]

theorem collRejoin_fr {E : Nat} {s0 s : State} (h : Frame E s0 s) {c : Nat} {node : Nat} {x : CollCtx} {h' : CollHdr} (hE : Sub 0xb28022 E := by first | assumption | exact sub_step (by assumption) (by decide)) :
    Frame E s0 (State.collRejoin s c node x h') := by
  simp (disch := (
    unfold FrameOf
    unfold State.collRejoin
    try dsimp only
    repeat' first
      | (with_reducible assumption) | ((with_reducible refine sub_step (by assumption) ?_); first | rfl | decide)
      | (with_reducible apply collFail_fr) | (with_reducible apply collReplay_fr) | (with_reducible apply collTell_fr)
      | (with_reducible apply countHuddle_fr) | (with_reducible apply updColl_fr) | (split) | (intro _)
      | (refine frame_fst ?_ (by assumption)) | (dsimp only) | (with_reducible apply frame_any))) only [framed]

theorem collRelay_fr {E : Nat} {s0 s : State} (h : Frame E s0 s) {c : Nat} {node : Nat} {psn : Nat} {x : CollCtx} {h' : CollHdr} (hE : Sub 0x20000 E := by first | assumption | exact sub_step (by assumption) (by decide)) :
    Frame E s0 (State.collRelay s c node psn x h') := by
  simp (disch := (
    unfold FrameOf
    unfold State.collRelay
    try dsimp only
    repeat' first
      | (with_reducible assumption) | ((with_reducible refine sub_step (by assumption) ?_); first | rfl | decide)
      | (with_reducible apply collFlush_fr) | (with_reducible apply collPush_fr) | (split) | (intro _)
      | (refine frame_fst ?_ (by assumption)) | (dsimp only) | (with_reducible apply frame_any))) only [framed]

theorem noteRerun_fr {E : Nat} {s0 s : State} (h : Frame E s0 s) {c : Nat} {n : Nat} :
    Frame E s0 (State.noteRerun s c n) := by
  simp (disch := (
    unfold FrameOf
    unfold State.noteRerun
    try dsimp only
    repeat' first
      | (with_reducible assumption) | (with_reducible apply updColl_fr) | (split) | (intro _)
      | (refine frame_fst ?_ (by assumption)) | (dsimp only) | (with_reducible apply frame_any))) only [framed]

theorem collRerun_fr {E : Nat} {s0 s : State} (h : Frame E s0 s) {c : Nat} {x : CollCtx} {h' : CollHdr} (hE : Sub 0xb28022 E := by first | assumption | exact sub_step (by assumption) (by decide)) :
    Frame E s0 (State.collRerun s c x h') := by
  simp (disch := (
    unfold FrameOf
    unfold State.collRerun
    try dsimp only
    repeat' first
      | (with_reducible assumption) | ((with_reducible refine sub_step (by assumption) ?_); first | rfl | decide)
      | (with_reducible apply collBegin_fr) | (with_reducible apply collFail_fr) | (with_reducible apply noteRerun_fr)
      | (with_reducible apply rejoinOver_fr) | (split) | (intro _) | (refine frame_fst ?_ (by assumption)) | (dsimp only)
      | (with_reducible apply frame_any))) only [framed]

theorem collLate_fr {E : Nat} {s0 s : State} (h : Frame E s0 s) {c : Nat} {node : Nat} {psn : Nat} {x : CollCtx} {h' : CollHdr} (hE : Sub 0xb28022 E := by first | assumption | exact sub_step (by assumption) (by decide)) :
    Frame E s0 (State.collLate s c node psn x h') := by
  simp (disch := (
    unfold FrameOf
    unfold State.collLate
    try dsimp only
    repeat' first
      | (with_reducible assumption) | ((with_reducible refine sub_step (by assumption) ?_); first | rfl | decide)
      | (with_reducible apply collFail_fr) | (with_reducible apply countHuddle_fr) | (with_reducible apply freeSlotOf_fr)
      | (split) | (intro _) | (refine frame_fst ?_ (by assumption)) | (dsimp only) | (with_reducible apply frame_any))) only [framed]

theorem collDispatch_fr {E : Nat} {s0 s : State} (h : Frame E s0 s) {c : Nat} {node : Nat} {psn : Nat} {h' : CollHdr} (hE : Sub 0xb28022 E := by first | assumption | exact sub_step (by assumption) (by decide)) :
    Frame E s0 (State.collDispatch s c node psn h') := by
  simp (disch := (
    unfold FrameOf
    unfold State.collDispatch
    try dsimp only
    repeat' first
      | (with_reducible assumption) | ((with_reducible refine sub_step (by assumption) ?_); first | rfl | decide)
      | (with_reducible apply collLate_fr) | (with_reducible apply collPacket_fr) | (with_reducible apply collRejoin_fr)
      | (with_reducible apply collRerun_fr) | (with_reducible apply updColl_fr) | (split) | (intro _)
      | (refine frame_fst ?_ (by assumption)) | (dsimp only) | (with_reducible apply frame_any))) only [framed]

theorem collGo_fr {E : Nat} {s0 s : State} (h : Frame E s0 s) {c : Nat} (hE : Sub 0xb28022 E := by first | assumption | exact sub_step (by assumption) (by decide)) :
    Frame E s0 (State.collGo s c) := by
  simp (disch := (
    unfold FrameOf
    unfold State.collGo
    try dsimp only
    repeat' first
      | (with_reducible assumption) | ((with_reducible refine sub_step (by assumption) ?_); first | rfl | decide)
      | (with_reducible apply collFlush_fr) | (with_reducible apply collForward_fr) | (with_reducible apply forEach_fr)
      | (split) | (intro _) | (refine frame_fst ?_ (by assumption)) | (dsimp only) | (with_reducible apply frame_any))) only [framed]

theorem collOwn_fr {E : Nat} {s0 s : State} (h : Frame E s0 s) {c : Nat} {node : Nat} {psn : Nat} {h' : CollHdr} {d : CollData} (hE : Sub 0xb28022 E := by first | assumption | exact sub_step (by assumption) (by decide)) :
    Frame E s0 (State.collOwn s c node psn h' d) := by
  simp (disch := (
    unfold FrameOf
    unfold State.collOwn
    try dsimp only
    repeat' first
      | (with_reducible assumption) | ((with_reducible refine sub_step (by assumption) ?_); first | rfl | decide)
      | (with_reducible apply collDispatch_fr) | (with_reducible apply collLand_fr) | (with_reducible apply collRelay_fr)
      | (with_reducible apply countHuddle_fr) | (with_reducible apply freeSlotOf_fr) | (split) | (intro _)
      | (refine frame_fst ?_ (by assumption)) | (dsimp only) | (with_reducible apply frame_any))) only [framed]

theorem collTake_fr {E : Nat} {s0 s : State} (h : Frame E s0 s) {slot : Nat} {node : Nat} {psn : Nat} {h' : CollHdr} {d : CollData} (hE : Sub 0xb28022 E := by first | assumption | exact sub_step (by assumption) (by decide)) :
    Frame E s0 (State.collTake s slot node psn h' d) := by
  simp (disch := (
    unfold FrameOf
    unfold State.collTake
    try dsimp only
    repeat' first
      | (with_reducible assumption) | ((with_reducible refine sub_step (by assumption) ?_); first | rfl | decide)
      | (with_reducible apply collFail_fr) | (with_reducible apply collGo_fr) | (with_reducible apply collOwn_fr)
      | (with_reducible apply countHuddle_fr) | (with_reducible apply updColl_fr) | (split) | (intro _)
      | (refine frame_fst ?_ (by assumption)) | (dsimp only) | (with_reducible apply frame_any))) only [framed]

theorem collRootRejoin_fr {E : Nat} {s0 s : State} (h : Frame E s0 s) {c : Nat} {n : Nat} {x : CollCtx} {m : CollCmd} (hE : Sub 0xb28022 E := by first | assumption | exact sub_step (by assumption) (by decide)) :
    Frame E s0 (State.collRootRejoin s c n x m) := by
  simp (disch := (
    unfold FrameOf
    unfold State.collRootRejoin
    try dsimp only
    repeat' first
      | (with_reducible assumption) | ((with_reducible refine sub_step (by assumption) ?_); first | rfl | decide)
      | (with_reducible apply collCheck_fr) | (with_reducible apply collDst_fr) | (with_reducible apply collFail_fr)
      | (with_reducible apply raise_fr) | (with_reducible apply updInst_fr) | (split) | (intro _)
      | (refine frame_fst ?_ (by assumption)) | (dsimp only) | (with_reducible apply frame_any))) only [framed]

theorem collBuf_fr {E : Nat} {s0 s : State} (h : Frame E s0 s) {q : Nat} {addr : Nat} {bytes : Nat} {use : Bool} {wr : Bool} (hE : Sub 0x28000 E := by first | assumption | exact sub_step (by assumption) (by decide)) :
    Frame E s0 (State.collBuf s q addr bytes use wr).1 := by
  simp (disch := (
    unfold FrameOf
    unfold State.collBuf
    try dsimp only
    repeat' first
      | (with_reducible assumption) | ((with_reducible refine sub_step (by assumption) ?_); first | rfl | decide)
      | (with_reducible apply translateRange_fr) | (with_reducible apply wr_fr) | (split) | (intro _)
      | (refine frame_fst ?_ (by assumption)) | (dsimp only) | (with_reducible apply frame_any))) only [framed]

theorem collReenter_fr {E : Nat} {s0 s : State} (h : Frame E s0 s) {c : Nat} {x : CollCtx} {v : CollInst} (hE : Sub 0xb28022 E := by first | assumption | exact sub_step (by assumption) (by decide)) :
    Frame E s0 (State.collReenter s c x v) := by
  simp (disch := (
    unfold FrameOf
    unfold State.collReenter
    try dsimp only
    repeat' first
      | (with_reducible assumption) | ((with_reducible refine sub_step (by assumption) ?_); first | rfl | decide)
      | (with_reducible apply armIn_fr) | (with_reducible apply armRejoin_fr) | (with_reducible apply collBegin_fr)
      | (with_reducible apply collRootRejoin_fr) | (with_reducible apply collTell_fr) | (with_reducible apply updColl_fr)
      | (with_reducible apply updInst_fr) | (split) | (intro _) | (refine frame_fst ?_ (by assumption)) | (dsimp only)
      | (with_reducible apply frame_any))) only [framed]

theorem collEnter_fr {E : Nat} {s0 s : State} (h : Frame E s0 s) {c : Nat} {n : Nat} (hE : Sub 0xb28022 E := by first | assumption | exact sub_step (by assumption) (by decide)) :
    Frame E s0 (State.collEnter s c n) := by
  simp (disch := (
    unfold FrameOf
    unfold State.collEnter
    try dsimp only
    repeat' first
      | (with_reducible assumption) | ((with_reducible refine sub_step (by assumption) ?_); first | rfl | decide)
      | (with_reducible apply collBegin_fr) | (with_reducible apply collReenter_fr) | (with_reducible apply updInst_fr)
      | (split) | (intro _) | (refine frame_fst ?_ (by assumption)) | (dsimp only) | (with_reducible apply frame_any))) only [framed]

theorem collJoin_fr {E : Nat} {s0 s : State} (h : Frame E s0 s) {q : Nat} {i : Nat} {iter : Nat} {x : CollCtx} {m : CollCmd} {note : State → State} (h_note : ∀ z0, Frame E s0 z0 → Frame E s0 (note z0)) (hE : Sub 0xb28022 E := by first | assumption | exact sub_step (by assumption) (by decide)) :
    Frame E s0 (State.collJoin s q i iter x m note) := by
  simp (disch := (
    unfold FrameOf
    unfold State.collJoin
    try dsimp only
    repeat' first
      | (with_reducible assumption) | ((with_reducible refine sub_step (by assumption) ?_); first | rfl | decide)
      | (with_reducible refine sub_flds ?_ ?_) | (with_reducible exact sub_zero) | (with_reducible apply collDispatch_fr)
      | (with_reducible apply collEnter_fr) | (with_reducible apply forEach_fr) | (with_reducible apply updColl_fr)
      | (with_reducible apply wrAll_fr) | (with_reducible apply h_note) | (split) | (intro _)
      | (refine frame_fst ?_ (by assumption)) | (dsimp only) | (with_reducible apply frame_any))) only [framed]

theorem collStart_fr {E : Nat} {s0 s : State} (h : Frame E s0 s) {q : Nat} {i : Nat} {iter : Nat} {m : CollCmd} {note : State → State} (h_note : ∀ z0, Frame E s0 z0 → Frame E s0 (note z0)) (hE : Sub 0xb28022 E := by first | assumption | exact sub_step (by assumption) (by decide)) :
    Frame E s0 (State.collStart s q i iter m note).1 := by
  simp (disch := (
    unfold FrameOf
    unfold State.collStart
    try dsimp only
    repeat' first
      | (with_reducible assumption) | ((with_reducible refine sub_step (by assumption) ?_); first | rfl | decide)
      | (with_reducible apply collBuf_fr) | (with_reducible apply collJoin_fr) | (with_reducible apply h_note) | (split)
      | (intro _) | (refine frame_fst ?_ (by assumption)) | (dsimp only) | (with_reducible apply frame_any))) only [framed]

theorem collWhistle_fr {E : Nat} {s0 s : State} (h : Frame E s0 s) {slot : Nat} {line : Nat} (hE : Sub 0xb28022 E := by first | assumption | exact sub_step (by assumption) (by decide)) :
    Frame E s0 (State.collWhistle s slot line) := by
  simp (disch := (
    unfold FrameOf
    unfold State.collWhistle
    try dsimp only
    repeat' first
      | (with_reducible assumption) | ((with_reducible refine sub_step (by assumption) ?_); first | rfl | decide)
      | (with_reducible apply collEnter_fr) | (with_reducible apply forEach_fr) | (split) | (intro _)
      | (refine frame_fst ?_ (by assumption)) | (dsimp only) | (with_reducible apply frame_any))) only [framed]

theorem collAcked_fr {E : Nat} {s0 s : State} (h : Frame E s0 s) {t : Nat} (hE : Sub 0xb28022 E := by first | assumption | exact sub_step (by assumption) (by decide)) :
    Frame E s0 (State.collAcked s t) := by
  simp (disch := (
    unfold FrameOf
    unfold State.collAcked
    try dsimp only
    repeat' first
      | (with_reducible assumption) | ((with_reducible refine sub_step (by assumption) ?_); first | rfl | decide)
      | (with_reducible apply collCheck_fr) | (with_reducible apply forEach_fr) | (split) | (intro _)
      | (refine frame_fst ?_ (by assumption)) | (dsimp only) | (with_reducible apply frame_any))) only [framed]

theorem freeCollOfJob_fr {E : Nat} {s0 s : State} (h : Frame E s0 s) {j : Nat} (hE : Sub 0x20 E := by first | assumption | exact sub_step (by assumption) (by decide)) :
    Frame E s0 (State.freeCollOfJob s j) := by
  simp (disch := (
    unfold FrameOf
    unfold State.freeCollOfJob
    try dsimp only
    repeat' first
      | (with_reducible assumption) | ((with_reducible refine sub_step (by assumption) ?_); first | rfl | decide)
      | (with_reducible refine sub_flds ?_ ?_) | (with_reducible exact sub_zero) | (with_reducible apply disarmAll_fr)
      | (with_reducible apply forEach_fr) | (with_reducible apply wrAll_fr) | (split) | (intro _)
      | (refine frame_fst ?_ (by assumption)) | (dsimp only) | (with_reducible apply frame_any))) only [framed]

end Sys2Proof.Laws
end

