-- ==== Sys2Proof/Laws/FrJobOps.lean ====
section
/-! SUPPORT. The frame of every operation of Machine/JobOps.lean (`Laws.Frame`). -/

namespace Sys2Proof.Laws

open Sys2Proof.Machine

set_option linter.all false
set_option Elab.async false

theorem tellOwner_fr {E : Nat} {s0 s : State} (h : Frame E s0 s) {e : MEntry} {r : OpEnd} (hE : Sub 0x4f28402 E := by first | assumption | exact sub_step (by assumption) (by decide)) :
    Frame E s0 (State.tellOwner s e r) := by
  simp (disch := (
    unfold FrameOf
    unfold State.tellOwner
    try dsimp only
    repeat' first
      | (with_reducible assumption) | ((with_reducible refine sub_step (by assumption) ?_); first | rfl | decide)
      | (with_reducible apply cancelExec_fr) | (with_reducible apply completeExec_fr) | (with_reducible apply failExec_fr)
      | (with_reducible apply pullEnded_fr) | (with_reducible apply recvCancelled_fr) | (with_reducible apply unitDone_fr)
      | (split) | (intro _) | (refine frame_fst ?_ (by assumption)) | (dsimp only) | (with_reducible apply frame_any))) only [framed]

theorem endOp_fr {E : Nat} {s0 s : State} (h : Frame E s0 s) {m : Nat} {r : OpEnd} (hE : Sub 0x4f28402 E := by first | assumption | exact sub_step (by assumption) (by decide)) :
    Frame E s0 (State.endOp s m r) := by
  simp (disch := (
    unfold FrameOf
    unfold State.endOp
    try dsimp only
    repeat' first
      | (with_reducible assumption) | ((with_reducible refine sub_step (by assumption) ?_); first | rfl | decide)
      | (with_reducible apply retire_fr) | (with_reducible apply retryPulls_fr) | (with_reducible apply tellOwner_fr) | (split)
      | (intro _) | (refine frame_fst ?_ (by assumption)) | (dsimp only) | (with_reducible apply frame_any))) only [framed]

theorem keepHeld_fr {E : Nat} {s0 s : State} (h : Frame E s0 s) {c : Nat} {x : Ctx} :
    Frame E s0 (State.keepHeld s c x) := by
  simp (disch := (
    unfold FrameOf
    unfold State.keepHeld
    try dsimp only
    repeat' first
      | (with_reducible assumption) | (split) | (intro _) | (refine frame_fst ?_ (by assumption)) | (dsimp only)
      | (with_reducible apply frame_any))) only [framed]

theorem quietCtx_fr {E : Nat} {s0 s : State} (h : Frame E s0 s) {c : Nat} {failed : Bool} (hE : Sub 0x4f28402 E := by first | assumption | exact sub_step (by assumption) (by decide)) :
    Frame E s0 (State.quietCtx s c failed) := by
  simp (disch := (
    unfold FrameOf
    unfold State.quietCtx
    try dsimp only
    repeat' first
      | (with_reducible assumption) | ((with_reducible refine sub_step (by assumption) ?_); first | rfl | decide)
      | (with_reducible apply armIn_fr) | (with_reducible apply disarmAll_fr) | (with_reducible apply keepHeld_fr)
      | (with_reducible apply keepTops_fr) | (with_reducible apply msgsCtxGone_fr) | (with_reducible apply updCtx_fr) | (split)
      | (intro _) | (refine frame_fst ?_ (by assumption)) | (dsimp only) | (with_reducible apply frame_any))) only [framed]

theorem freeCtx_fr {E : Nat} {s0 s : State} (h : Frame E s0 s) {c : Nat} :
    Frame E s0 (State.freeCtx s c) := by
  simp (disch := (
    unfold FrameOf
    unfold State.freeCtx
    try dsimp only
    repeat' first
      | (with_reducible assumption) | (split) | (intro _) | (refine frame_fst ?_ (by assumption)) | (dsimp only)
      | (with_reducible apply frame_any))) only [framed]

theorem failOps_fr {E : Nat} {s0 s : State} (h : Frame E s0 s) {c : Nat} {cause : Nat} (hE : Sub 0x4f28402 E := by first | assumption | exact sub_step (by assumption) (by decide)) :
    Frame E s0 (State.failOps s c cause) := by
  simp (disch := (
    unfold FrameOf
    unfold State.failOps
    try dsimp only
    repeat' first
      | (with_reducible assumption) | ((with_reducible refine sub_step (by assumption) ?_); first | rfl | decide)
      | (with_reducible apply endOp_fr) | (with_reducible apply forEach_fr) | (split) | (intro _)
      | (refine frame_fst ?_ (by assumption)) | (dsimp only) | (with_reducible apply frame_any))) only [framed]

theorem failCtx_fr {E : Nat} {s0 s : State} (h : Frame E s0 s) {c : Nat} (hE : Sub 0x4f28422 E := by first | assumption | exact sub_step (by assumption) (by decide)) :
    Frame E s0 (State.failCtx s c) := by
  simp (disch := (
    unfold FrameOf
    unfold State.failCtx
    try dsimp only
    repeat' first
      | (with_reducible assumption) | ((with_reducible refine sub_step (by assumption) ?_); first | rfl | decide)
      | (with_reducible apply collCtxFailed_fr) | (with_reducible apply count_fr) | (with_reducible apply failOps_fr)
      | (with_reducible apply logRec_fr) | (with_reducible apply quietCtx_fr) | (split) | (intro _)
      | (refine frame_fst ?_ (by assumption)) | (dsimp only) | (with_reducible apply frame_any))) only [framed]

theorem evictRegion_fr {E : Nat} {s0 s : State} (h : Frame E s0 s) {key : Nat} :
    Frame E s0 (State.evictRegion s key) := by
  simp (disch := (
    unfold FrameOf
    unfold State.evictRegion
    try dsimp only
    repeat' first
      | (with_reducible assumption) | (with_reducible apply freeNext_fr) | (split) | (intro _)
      | (refine frame_fst ?_ (by assumption)) | (dsimp only) | (with_reducible apply frame_any))) only [framed]

theorem endRegion_fr {E : Nat} {s0 s : State} (h : Frame E s0 s) {key : Nat} :
    Frame E s0 (State.endRegion s key) := by
  simp (disch := (
    unfold FrameOf
    unfold State.endRegion
    try dsimp only
    repeat' first
      | (with_reducible assumption) | (with_reducible apply armIn_fr) | (split) | (intro _)
      | (refine frame_fst ?_ (by assumption)) | (dsimp only) | (with_reducible apply frame_any))) only [framed]

theorem dropMemory_fr {E : Nat} {s0 s : State} (h : Frame E s0 s) {j : Nat} (hE : Sub 0xb28002 E := by first | assumption | exact sub_step (by assumption) (by decide)) :
    Frame E s0 (State.dropMemory s j) := by
  simp (disch := (
    unfold FrameOf
    unfold State.dropMemory
    try dsimp only
    repeat' first
      | (with_reducible assumption) | ((with_reducible refine sub_step (by assumption) ?_); first | rfl | decide)
      | (with_reducible apply disarmAll_fr) | (with_reducible apply endPriv_fr) | (with_reducible apply endRegion_fr)
      | (with_reducible apply forEach_fr) | (split) | (intro _) | (refine frame_fst ?_ (by assumption)) | (dsimp only)
      | (with_reducible apply frame_any))) only [framed]

theorem zeroiseJob_fr {E : Nat} {s0 s : State} (h : Frame E s0 s) {j : Nat} (hE : Sub 0x2000001 E := by first | assumption | exact sub_step (by assumption) (by decide)) :
    Frame E s0 (State.zeroiseJob s j) := by
  simp (disch := (
    unfold FrameOf
    unfold State.zeroiseJob
    try dsimp only
    repeat' first
      | (with_reducible assumption) | ((with_reducible refine sub_step (by assumption) ?_); first | rfl | decide)
      | (with_reducible apply setFlag_fr) | (with_reducible apply updJob_fr) | (split) | (intro _)
      | (refine frame_fst ?_ (by assumption)) | (dsimp only) | (with_reducible apply frame_any))) only [framed]

theorem freeVfs_fr {E : Nat} {s0 s : State} (h : Frame E s0 s) {j : Nat} (hE : Sub 0x2000 E := by first | assumption | exact sub_step (by assumption) (by decide)) :
    Frame E s0 (State.freeVfs s j) := by
  simp (disch := (
    unfold FrameOf
    unfold State.freeVfs
    try dsimp only
    repeat' first
      | (with_reducible assumption) | ((with_reducible refine sub_step (by assumption) ?_); first | rfl | decide)
      | (with_reducible apply forEach_fr) | (with_reducible apply wr_fr) | (split) | (intro _)
      | (refine frame_fst ?_ (by assumption)) | (dsimp only) | (with_reducible apply frame_any))) only [framed]

theorem unlockAsids_fr {E : Nat} {s0 s : State} (h : Frame E s0 s) {j : Nat} (hE : Sub 0x1000 E := by first | assumption | exact sub_step (by assumption) (by decide)) :
    Frame E s0 (State.unlockAsids s j) := by
  simp (disch := (
    unfold FrameOf
    unfold State.unlockAsids
    try dsimp only
    repeat' first
      | (with_reducible assumption) | ((with_reducible refine sub_step (by assumption) ?_); first | rfl | decide)
      | (with_reducible apply forEach_fr) | (with_reducible apply wr_fr) | (split) | (intro _)
      | (refine frame_fst ?_ (by assumption)) | (dsimp only) | (with_reducible apply frame_any))) only [framed]

theorem freeJob_fr {E : Nat} {s0 s : State} (h : Frame E s0 s) {j : Nat} (hE : Sub 0x600303b E := by first | assumption | exact sub_step (by assumption) (by decide)) :
    Frame E s0 (State.freeJob s j) := by
  simp (disch := (
    unfold FrameOf
    unfold State.freeJob
    try dsimp only
    repeat' first
      | (with_reducible assumption) | ((with_reducible refine sub_step (by assumption) ?_); first | rfl | decide)
      | (with_reducible refine sub_flds ?_ ?_) | (with_reducible exact sub_zero) | (with_reducible apply disableJobQueues_fr)
      | (with_reducible apply disarmAll_fr) | (with_reducible apply freeCollOfJob_fr) | (with_reducible apply freeLocksOfJob_fr)
      | (with_reducible apply freeMatchOfJob_fr) | (with_reducible apply freeVfs_fr) | (with_reducible apply unlockAsids_fr)
      | (with_reducible apply wrAll_fr) | (split) | (intro _) | (refine frame_fst ?_ (by assumption)) | (dsimp only)
      | (with_reducible apply frame_any) | (with_reducible apply frame_jobs))) only [framed]

theorem closeProgress_fr {E : Nat} {s0 s : State} (h : Frame E s0 s) {j : Nat} (hE : Sub 0x6b2b03b E := by first | assumption | exact sub_step (by assumption) (by decide)) :
    Frame E s0 (State.closeProgress s j) := by
  simp (disch := (
    unfold FrameOf
    unfold State.closeProgress
    try dsimp only
    repeat' first
      | (with_reducible assumption) | ((with_reducible refine sub_step (by assumption) ?_); first | rfl | decide)
      | (with_reducible apply dropMemory_fr) | (with_reducible apply endPriv_fr) | (with_reducible apply forEach_fr)
      | (with_reducible apply freeJob_fr) | (with_reducible apply startClose_fr) | (with_reducible apply zeroiseJob_fr)
      | (split) | (intro _) | (refine frame_fst ?_ (by assumption)) | (dsimp only) | (with_reducible apply frame_any))) only [framed]

theorem beginClose_fr {E : Nat} {s0 s : State} (h : Frame E s0 s) {j : Nat} {src : Option Requester} (hE : Sub 0x6f28403 E := by first | assumption | exact sub_step (by assumption) (by decide)) :
    Frame E s0 (State.beginClose s j src) := by
  simp (disch := (
    unfold FrameOf
    unfold State.beginClose
    try dsimp only
    repeat' first
      | (with_reducible assumption) | ((with_reducible refine sub_step (by assumption) ?_); first | rfl | decide)
      | (with_reducible apply armIn_fr) | (with_reducible apply disarmAll_fr) | (with_reducible apply endPriv_fr)
      | (with_reducible apply jobLeftOpen_fr) | (with_reducible apply updJob_fr) | (with_reducible apply wr_fr) | (split)
      | (intro _) | (refine frame_fst ?_ (by assumption)) | (dsimp only) | (with_reducible apply frame_any))) only [framed]

theorem zeroiseStop_fr {E : Nat} {s0 s : State} (h : Frame E s0 s) {j : Nat} (hE : Sub 0x6f2b43b E := by first | assumption | exact sub_step (by assumption) (by decide)) :
    Frame E s0 (State.zeroiseStop s j) := by
  simp (disch := (
    unfold FrameOf
    unfold State.zeroiseStop
    try dsimp only
    repeat' first
      | (with_reducible assumption) | ((with_reducible refine sub_step (by assumption) ?_); first | rfl | decide)
      | (with_reducible apply beginClose_fr) | (with_reducible apply closeProgress_fr) | (with_reducible apply stopJobQueues_fr)
      | (with_reducible apply zeroiseJob_fr) | (split) | (intro _) | (refine frame_fst ?_ (by assumption)) | (dsimp only)
      | (with_reducible apply frame_any))) only [framed]

theorem zeroiseAll_fr {E : Nat} {s0 s : State} (h : Frame E s0 s) (hE : Sub 0x6f2b43b E := by first | assumption | exact sub_step (by assumption) (by decide)) :
    Frame E s0 (State.zeroiseAll s) := by
  simp (disch := (
    unfold FrameOf
    unfold State.zeroiseAll
    try dsimp only
    repeat' first
      | (with_reducible assumption) | ((with_reducible refine sub_step (by assumption) ?_); first | rfl | decide)
      | (with_reducible apply forEach_fr) | (with_reducible apply zeroiseStop_fr) | (split) | (intro _)
      | (refine frame_fst ?_ (by assumption)) | (dsimp only) | (with_reducible apply frame_any))) only [framed]

theorem endOpClose_fr {E : Nat} {s0 s : State} (h : Frame E s0 s) {m : Nat} {r : OpEnd} (hE : Sub 0x6f2b43b E := by first | assumption | exact sub_step (by assumption) (by decide)) :
    Frame E s0 (State.endOpClose s m r) := by
  simp (disch := (
    unfold FrameOf
    unfold State.endOpClose
    try dsimp only
    repeat' first
      | (with_reducible assumption) | ((with_reducible refine sub_step (by assumption) ?_); first | rfl | decide)
      | (with_reducible apply closeProgress_fr) | (with_reducible apply endOp_fr) | (split) | (intro _)
      | (refine frame_fst ?_ (by assumption)) | (dsimp only) | (with_reducible apply frame_any))) only [framed]

theorem failCtxClose_fr {E : Nat} {s0 s : State} (h : Frame E s0 s) {c : Nat} (hE : Sub 0x6f2b43b E := by first | assumption | exact sub_step (by assumption) (by decide)) :
    Frame E s0 (State.failCtxClose s c) := by
  simp (disch := (
    unfold FrameOf
    unfold State.failCtxClose
    try dsimp only
    repeat' first
      | (with_reducible assumption) | ((with_reducible refine sub_step (by assumption) ?_); first | rfl | decide)
      | (with_reducible apply closeProgress_fr) | (with_reducible apply failCtx_fr) | (split) | (intro _)
      | (refine frame_fst ?_ (by assumption)) | (dsimp only) | (with_reducible apply frame_any))) only [framed]

theorem quietClose_fr {E : Nat} {s0 s : State} (h : Frame E s0 s) {c : Nat} (hE : Sub 0x6f2b43b E := by first | assumption | exact sub_step (by assumption) (by decide)) :
    Frame E s0 (State.quietClose s c) := by
  simp (disch := (
    unfold FrameOf
    unfold State.quietClose
    try dsimp only
    repeat' first
      | (with_reducible assumption) | ((with_reducible refine sub_step (by assumption) ?_); first | rfl | decide)
      | (with_reducible apply closeProgress_fr) | (with_reducible apply quietCtx_fr) | (split) | (intro _)
      | (refine frame_fst ?_ (by assumption)) | (dsimp only) | (with_reducible apply frame_any))) only [framed]

end Sys2Proof.Laws
end

