-- ==== Sys2Proof/Laws/FrRouteOps.lean ====
section
/-! SUPPORT. The frame of every operation of Machine/RouteOps.lean (`Laws.Frame`). -/

namespace Sys2Proof.Laws

open Sys2Proof.Machine

set_option linter.all false
set_option Elab.async false

theorem updLink_fr {E : Nat} {s0 s : State} (h : Frame E s0 s) {p : Nat} {f : Link → Link} :
    Frame E s0 (State.updLink s p f) := by
  simp (disch := (
    unfold FrameOf
    unfold State.updLink
    try dsimp only
    repeat' first
      | (with_reducible assumption) | (split) | (intro _) | (refine frame_fst ?_ (by assumption)) | (dsimp only)
      | (with_reducible apply frame_any))) only [framed]

theorem updTransit_fr {E : Nat} {s0 s : State} (h : Frame E s0 s) {id : Nat} {f : Transit → Transit} :
    Frame E s0 (State.updTransit s id f) := by
  simp (disch := (
    unfold FrameOf
    unfold State.updTransit
    try dsimp only
    repeat' first
      | (with_reducible assumption) | (split) | (intro _) | (refine frame_fst ?_ (by assumption)) | (dsimp only)
      | (with_reducible apply frame_any))) only [framed]

theorem dropCount_fr {E : Nat} {s0 s : State} (h : Frame E s0 s) {inPort : Nat} {sub : Nat} (hE : Sub 0x20000 E := by first | assumption | exact sub_step (by assumption) (by decide)) :
    Frame E s0 (State.dropCount s inPort sub) := by
  simp (disch := (
    unfold FrameOf
    unfold State.dropCount
    try dsimp only
    repeat' first
      | (with_reducible assumption) | ((with_reducible refine sub_step (by assumption) ?_); first | rfl | decide)
      | (with_reducible apply count_fr) | (split) | (intro _) | (refine frame_fst ?_ (by assumption)) | (dsimp only)
      | (with_reducible apply frame_any))) only [framed]

theorem settleTransit_fr {E : Nat} {s0 s : State} (h : Frame E s0 s) {id : Nat} :
    Frame E s0 (State.settleTransit s id) := by
  simp (disch := (
    unfold FrameOf
    unfold State.settleTransit
    try dsimp only
    repeat' first
      | (with_reducible assumption) | (with_reducible apply updLink_fr) | (with_reducible apply updTransit_fr)
      | (with_reducible apply frame_foldl) | (split) | (intro _) | (refine frame_fst ?_ (by assumption)) | (dsimp only)
      | (with_reducible apply frame_any))) only [framed]

theorem endGrant_fr {E : Nat} {s0 s : State} (h : Frame E s0 s) {out : Nat} {ticks : Nat} :
    Frame E s0 (State.endGrant s out ticks) := by
  simp (disch := (
    unfold FrameOf
    unfold State.endGrant
    try dsimp only
    repeat' first
      | (with_reducible assumption) | (split) | (intro _) | (refine frame_fst ?_ (by assumption)) | (dsimp only)
      | (with_reducible apply frame_any))) only [framed]

theorem unqueue_fr {E : Nat} {s0 s : State} (h : Frame E s0 s) {out : Nat} {v : Nat} {id : Nat} :
    Frame E s0 (State.unqueue s out v id) := by
  simp (disch := (
    unfold FrameOf
    unfold State.unqueue
    try dsimp only
    repeat' first
      | (with_reducible assumption) | (split) | (intro _) | (refine frame_fst ?_ (by assumption)) | (dsimp only)
      | (with_reducible apply frame_any))) only [framed]

theorem endLeg_fr {E : Nat} {s0 s : State} (h : Frame E s0 s) {id : Nat} {l : Leg} :
    Frame E s0 (State.endLeg s id l) := by
  simp (disch := (
    unfold FrameOf
    unfold State.endLeg
    try dsimp only
    repeat' first
      | (with_reducible assumption) | (with_reducible apply endGrant_fr) | (with_reducible apply settleTransit_fr)
      | (with_reducible apply unqueue_fr) | (with_reducible apply updTransit_fr) | (split) | (intro _)
      | (refine frame_fst ?_ (by assumption)) | (dsimp only) | (with_reducible apply frame_any))) only [framed]

theorem dropLeg_fr {E : Nat} {s0 s : State} (h : Frame E s0 s) {id : Nat} {l : Leg} {sub : Nat} (hE : Sub 0x20000 E := by first | assumption | exact sub_step (by assumption) (by decide)) :
    Frame E s0 (State.dropLeg s id l sub) := by
  simp (disch := (
    unfold FrameOf
    unfold State.dropLeg
    try dsimp only
    repeat' first
      | (with_reducible assumption) | ((with_reducible refine sub_step (by assumption) ?_); first | rfl | decide)
      | (with_reducible apply dropCount_fr) | (with_reducible apply endLeg_fr) | (split) | (intro _)
      | (refine frame_fst ?_ (by assumption)) | (dsimp only) | (with_reducible apply frame_any))) only [framed]

theorem joinQueue_fr {E : Nat} {s0 s : State} (h : Frame E s0 s) {id : Nat} {l : Leg} (hE : Sub 0x20000 E := by first | assumption | exact sub_step (by assumption) (by decide)) :
    Frame E s0 (State.joinQueue s id l) := by
  simp (disch := (
    unfold FrameOf
    unfold State.joinQueue
    try dsimp only
    repeat' first
      | (with_reducible assumption) | ((with_reducible refine sub_step (by assumption) ?_); first | rfl | decide)
      | (with_reducible apply count_fr) | (with_reducible apply updTransit_fr) | (split) | (intro _)
      | (refine frame_fst ?_ (by assumption)) | (dsimp only) | (with_reducible apply frame_any))) only [framed]

theorem ejectWhole_fr {E : Nat} {s0 s : State} (h : Frame E s0 s) {id : Nat} :
    Frame E s0 (State.ejectWhole s id) := by
  simp (disch := (
    unfold FrameOf
    unfold State.ejectWhole
    try dsimp only
    repeat' first
      | (with_reducible assumption) | (with_reducible apply emit_fr) | (with_reducible apply settleTransit_fr)
      | (with_reducible apply updTransit_fr) | (split) | (intro _) | (refine frame_fst ?_ (by assumption)) | (dsimp only)
      | (with_reducible apply frame_any))) only [framed]

theorem eject_fr {E : Nat} {s0 s : State} (h : Frame E s0 s) {id : Nat} {port : Option Nat} (hE : Sub 0x20000 E := by first | assumption | exact sub_step (by assumption) (by decide)) :
    Frame E s0 (State.eject s id port) := by
  simp (disch := (
    unfold FrameOf
    unfold State.eject
    try dsimp only
    repeat' first
      | (with_reducible assumption) | ((with_reducible refine sub_step (by assumption) ?_); first | rfl | decide)
      | (with_reducible apply count_fr) | (with_reducible apply ejectWhole_fr) | (with_reducible apply freeNext_fr)
      | (with_reducible apply updTransit_fr) | (split) | (intro _) | (refine frame_fst ?_ (by assumption)) | (dsimp only)
      | (with_reducible apply frame_any))) only [framed]

theorem decideUnicast_fr {E : Nat} {s0 s : State} (h : Frame E s0 s) {id : Nat} {i1 : Nat} {i2 : Nat} (hE : Sub 0x20000 E := by first | assumption | exact sub_step (by assumption) (by decide)) :
    Frame E s0 (State.decideUnicast s id i1 i2) := by
  simp (disch := (
    unfold FrameOf
    unfold State.decideUnicast
    try dsimp only
    repeat' first
      | (with_reducible assumption) | ((with_reducible refine sub_step (by assumption) ?_); first | rfl | decide)
      | (with_reducible apply dropCount_fr) | (with_reducible apply eject_fr) | (with_reducible apply joinQueue_fr)
      | (with_reducible apply settleTransit_fr) | (with_reducible apply updTransit_fr) | (split) | (intro _)
      | (refine frame_fst ?_ (by assumption)) | (dsimp only) | (with_reducible apply frame_any))) only [framed]

theorem replicate_fr {E : Nat} {s0 s : State} (h : Frame E s0 s) {id : Nat} (hE : Sub 0x20000 E := by first | assumption | exact sub_step (by assumption) (by decide)) :
    Frame E s0 (State.replicate s id) := by
  simp (disch := (
    unfold FrameOf
    unfold State.replicate
    try dsimp only
    repeat' first
      | (with_reducible assumption) | ((with_reducible refine sub_step (by assumption) ?_); first | rfl | decide)
      | (with_reducible apply dropCount_fr) | (with_reducible apply eject_fr) | (with_reducible apply joinQueue_fr)
      | (with_reducible apply settleTransit_fr) | (with_reducible apply updTransit_fr) | (with_reducible apply frame_foldl)
      | (split) | (intro _) | (refine frame_fst ?_ (by assumption)) | (dsimp only) | (with_reducible apply frame_any))) only [framed]

theorem decideHeader_fr {E : Nat} {s0 s : State} (h : Frame E s0 s) {id : Nat} {i1 : Nat} {i2 : Nat} (hE : Sub 0x20000 E := by first | assumption | exact sub_step (by assumption) (by decide)) :
    Frame E s0 (State.decideHeader s id i1 i2) := by
  simp (disch := (
    unfold FrameOf
    unfold State.decideHeader
    try dsimp only
    repeat' first
      | (with_reducible assumption) | ((with_reducible refine sub_step (by assumption) ?_); first | rfl | decide)
      | (with_reducible apply decideUnicast_fr) | (with_reducible apply dropCount_fr) | (with_reducible apply replicate_fr)
      | (with_reducible apply settleTransit_fr) | (with_reducible apply updTransit_fr) | (split) | (intro _)
      | (refine frame_fst ?_ (by assumption)) | (dsimp only) | (with_reducible apply frame_any))) only [framed]

theorem updLeg_fr {E : Nat} {s0 s : State} (h : Frame E s0 s) {id : Nat} {out : Nat} {f : Leg → Leg} :
    Frame E s0 (State.updLeg s id out f) := by
  simp (disch := (
    unfold FrameOf
    unfold State.updLeg
    try dsimp only
    repeat' first
      | (with_reducible assumption) | (with_reducible apply updTransit_fr) | (split) | (intro _)
      | (refine frame_fst ?_ (by assumption)) | (dsimp only) | (with_reducible apply frame_any))) only [framed]

theorem giveHints_fr {E : Nat} {s0 s : State} (h : Frame E s0 s) {out : Nat} {owner : Nat} {asks : List Nat} (hE : Sub 0x20000 E := by first | assumption | exact sub_step (by assumption) (by decide)) :
    Frame E s0 (State.giveHints s out owner asks) := by
  simp (disch := (
    unfold FrameOf
    unfold State.giveHints
    try dsimp only
    repeat' first
      | (with_reducible assumption) | ((with_reducible refine sub_step (by assumption) ?_); first | rfl | decide)
      | (with_reducible apply count_fr) | (with_reducible apply frame_foldl) | (split) | (intro _)
      | (refine frame_fst ?_ (by assumption)) | (dsimp only) | (with_reducible apply frame_any))) only [framed]

theorem startLeg_fr {E : Nat} {s0 s : State} (h : Frame E s0 s) {out : Nat} {v : Nat} {id : Nat} {t : Transit} {l : Leg} (hE : Sub 0x20000 E := by first | assumption | exact sub_step (by assumption) (by decide)) :
    Frame E s0 (State.startLeg s out v id t l) := by
  simp (disch := (
    unfold FrameOf
    unfold State.startLeg
    try dsimp only
    repeat' first
      | (with_reducible assumption) | ((with_reducible refine sub_step (by assumption) ?_); first | rfl | decide)
      | (with_reducible apply count_fr) | (with_reducible apply giveHints_fr) | (with_reducible apply updLeg_fr)
      | (with_reducible apply updLink_fr) | (split) | (intro _) | (refine frame_fst ?_ (by assumption)) | (dsimp only)
      | (with_reducible apply frame_any))) only [framed]

theorem cutThrough_fr {E : Nat} {s0 s : State} (h : Frame E s0 s) {out : Nat} {v : Nat} (hE : Sub 0x20000 E := by first | assumption | exact sub_step (by assumption) (by decide)) :
    Frame E s0 (State.cutThrough s out v) := by
  simp (disch := (
    unfold FrameOf
    unfold State.cutThrough
    try dsimp only
    repeat' first
      | (with_reducible assumption) | ((with_reducible refine sub_step (by assumption) ?_); first | rfl | decide)
      | (with_reducible apply dropLeg_fr) | (with_reducible apply startLeg_fr) | (split) | (intro _)
      | (refine frame_fst ?_ (by assumption)) | (dsimp only) | (with_reducible apply frame_any))) only [framed]

theorem enterCrossing_fr {E : Nat} {s0 s : State} (h : Frame E s0 s) {inPort : Nat} {inVc : Nat} {raw : List Byte} {whole : Bool} :
    Frame E s0 (State.enterCrossing s inPort inVc raw whole).1 := by
  simp (disch := (
    unfold FrameOf
    unfold State.enterCrossing
    try dsimp only
    repeat' first
      | (with_reducible assumption) | (with_reducible apply idNext_fr) | (split) | (intro _)
      | (refine frame_fst ?_ (by assumption)) | (dsimp only) | (with_reducible apply frame_any))) only [framed]

theorem reroute_fr {E : Nat} {s0 s : State} (h : Frame E s0 s) {p : Nat} {retrain : Bool} (hE : Sub 0x20000 E := by first | assumption | exact sub_step (by assumption) (by decide)) :
    Frame E s0 (State.reroute s p retrain) := by
  simp (disch := (
    unfold FrameOf
    unfold State.reroute
    try dsimp only
    repeat' first
      | (with_reducible assumption) | ((with_reducible refine sub_step (by assumption) ?_); first | rfl | decide)
      | (with_reducible apply decideUnicast_fr) | (with_reducible apply dropLeg_fr) | (with_reducible apply freeNext_fr)
      | (with_reducible apply unqueue_fr) | (with_reducible apply updTransit_fr) | (with_reducible apply frame_foldl) | (split)
      | (intro _) | (refine frame_fst ?_ (by assumption)) | (dsimp only) | (with_reducible apply frame_any))) only [framed]

end Sys2Proof.Laws
end

