-- ==== Sys2Proof/Laws/FrLinkOps.lean ====
section
/-! SUPPORT. The frame of every operation of Machine/LinkOps.lean (`Laws.Frame`). -/

namespace Sys2Proof.Laws

open Sys2Proof.Machine

set_option linter.all false
set_option Elab.async false

theorem updLane_fr {E : Nat} {s0 s : State} (h : Frame E s0 s) {l : Nat} {f : Lane → Lane} :
    Frame E s0 (State.updLane s l f) := by
  simp (disch := (
    unfold FrameOf
    unfold State.updLane
    try dsimp only
    repeat' first
      | (with_reducible assumption) | (split) | (intro _) | (refine frame_fst ?_ (by assumption)) | (dsimp only)
      | (with_reducible apply frame_any))) only [framed]

theorem setTaps_fr {E : Nat} {s0 s : State} (h : Frame E s0 s) {l : Nat} {ts : List Int} (hE : Sub 0x80 E := by first | assumption | exact sub_step (by assumption) (by decide)) :
    Frame E s0 (State.setTaps s l ts) := by
  have sub : ∀ l : List (Fld × Int), (∀ x ∈ l, x.1 ∈ tapFlds) → Sub (flds (l.map fun x => (x.1, wrapInt 8 x.2))) E := by
    intro l
    induction l with
    | nil => intro _; exact sub_zero
    | cons a r ih =>
      intro hl
      refine sub_flds ?_ (ih fun x hx => hl x (List.mem_cons_of_mem _ hx))
      have ha := hl a List.mem_cons_self
      have : ∀ f ∈ tapFlds, bit f.part &&& 0x80 = bit f.part := by decide
      exact sub_step hE (this _ ha)
  exact wrAll_fr h (hE := sub _ fun x hx => (List.of_mem_zip hx).1)

theorem sendFrame_fr {E : Nat} {s0 s : State} (h : Frame E s0 s) {l : Nat} :
    Frame E s0 (State.sendFrame s l) := by
  simp (disch := (
    unfold FrameOf
    unfold State.sendFrame
    try dsimp only
    repeat' first
      | (with_reducible assumption) | (with_reducible apply emit_fr) | (split) | (intro _)
      | (refine frame_fst ?_ (by assumption)) | (dsimp only) | (with_reducible apply frame_any))) only [framed]

theorem laneRequest_fr {E : Nat} {s0 s : State} (h : Frame E s0 s) {l : Nat} {r : LaneReq} :
    Frame E s0 (State.laneRequest s l r) := by
  simp (disch := (
    unfold FrameOf
    unfold State.laneRequest
    try dsimp only
    repeat' first
      | (with_reducible assumption) | (with_reducible apply armIn_fr) | (with_reducible apply sendFrame_fr)
      | (with_reducible apply updLane_fr) | (split) | (intro _) | (refine frame_fst ?_ (by assumption)) | (dsimp only)
      | (with_reducible apply frame_any))) only [framed]

theorem laneFull_fr {E : Nat} {s0 s : State} (h : Frame E s0 s) {l : Nat} (hE : Sub 0x80 E := by first | assumption | exact sub_step (by assumption) (by decide)) :
    Frame E s0 (State.laneFull s l) := by
  simp (disch := (
    unfold FrameOf
    unfold State.laneFull
    try dsimp only
    repeat' first
      | (with_reducible assumption) | ((with_reducible refine sub_step (by assumption) ?_); first | rfl | decide)
      | (with_reducible apply armIn_fr) | (with_reducible apply disarm_fr) | (with_reducible apply sendFrame_fr)
      | (with_reducible apply setTaps_fr) | (with_reducible apply updLane_fr) | (with_reducible apply wr_fr) | (split)
      | (intro _) | (refine frame_fst ?_ (by assumption)) | (dsimp only) | (with_reducible apply frame_any))) only [framed]

theorem laneFast_fr {E : Nat} {s0 s : State} (h : Frame E s0 s) {l : Nat} (hE : Sub 0x80 E := by first | assumption | exact sub_step (by assumption) (by decide)) :
    Frame E s0 (State.laneFast s l) := by
  simp (disch := (
    unfold FrameOf
    unfold State.laneFast
    try dsimp only
    repeat' first
      | (with_reducible assumption) | ((with_reducible refine sub_step (by assumption) ?_); first | rfl | decide)
      | (with_reducible apply armIn_fr) | (with_reducible apply disarm_fr) | (with_reducible apply laneRequest_fr)
      | (with_reducible apply updLane_fr) | (with_reducible apply wr_fr) | (split) | (intro _)
      | (refine frame_fst ?_ (by assumption)) | (dsimp only) | (with_reducible apply frame_any))) only [framed]

theorem laneTrain_fr {E : Nat} {s0 s : State} (h : Frame E s0 s) {l : Nat} {place : Nat} {rate : Nat} {full : Bool} (hE : Sub 0x80 E := by first | assumption | exact sub_step (by assumption) (by decide)) :
    Frame E s0 (State.laneTrain s l place rate full) := by
  simp (disch := (
    unfold FrameOf
    unfold State.laneTrain
    try dsimp only
    repeat' first
      | (with_reducible assumption) | ((with_reducible refine sub_step (by assumption) ?_); first | rfl | decide)
      | (with_reducible refine sub_flds ?_ ?_) | (with_reducible exact sub_zero) | (with_reducible apply laneFast_fr)
      | (with_reducible apply laneFull_fr) | (with_reducible apply wrAll_fr) | (split) | (intro _)
      | (refine frame_fst ?_ (by assumption)) | (dsimp only) | (with_reducible apply frame_any))) only [framed]

theorem laneStop_fr {E : Nat} {s0 s : State} (h : Frame E s0 s) {l : Nat} :
    Frame E s0 (State.laneStop s l) := by
  simp (disch := (
    unfold FrameOf
    unfold State.laneStop
    try dsimp only
    repeat' first
      | (with_reducible assumption) | (with_reducible apply disarm_fr) | (with_reducible apply updLane_fr) | (split) | (intro _)
      | (refine frame_fst ?_ (by assumption)) | (dsimp only) | (with_reducible apply frame_any))) only [framed]

theorem trainLanes_fr {E : Nat} {s0 s : State} (h : Frame E s0 s) {p : Nat} {rate : Nat} {full : Nat → Bool} {ls : List Nat} (hE : Sub 0x80 E := by first | assumption | exact sub_step (by assumption) (by decide)) :
    Frame E s0 (State.trainLanes s p rate full ls) := by
  simp (disch := (
    unfold FrameOf
    unfold State.trainLanes
    try dsimp only
    repeat' first
      | (with_reducible assumption) | ((with_reducible refine sub_step (by assumption) ?_); first | rfl | decide)
      | (with_reducible apply laneTrain_fr) | (with_reducible apply frame_foldl) | (split) | (intro _)
      | (refine frame_fst ?_ (by assumption)) | (dsimp only) | (with_reducible apply frame_any))) only [framed]

theorem lanesDone_fr {E : Nat} {s0 s : State} (h : Frame E s0 s) {p : Nat} (hE : Sub 0xc0 E := by first | assumption | exact sub_step (by assumption) (by decide)) :
    Frame E s0 (State.lanesDone s p) := by
  simp (disch := (
    unfold FrameOf
    unfold State.lanesDone
    try dsimp only
    repeat' first
      | (with_reducible assumption) | ((with_reducible refine sub_step (by assumption) ?_); first | rfl | decide)
      | (with_reducible refine sub_flds ?_ ?_) | (with_reducible exact sub_zero) | (with_reducible apply updLink_fr)
      | (with_reducible apply wr_fr) | (with_reducible apply wrAll_fr) | (with_reducible apply frame_foldl) | (split)
      | (intro _) | (refine frame_fst ?_ (by assumption)) | (dsimp only) | (with_reducible apply frame_any))) only [framed]

theorem putFlit_fr {E : Nat} {s0 s : State} (h : Frame E s0 s) {p : Nat} {f : Flit} :
    Frame E s0 (State.putFlit s p f) := by
  simp (disch := (
    unfold FrameOf
    unfold State.putFlit
    try dsimp only
    repeat' first
      | (with_reducible assumption) | (with_reducible apply emit_fr) | (with_reducible apply updLink_fr) | (split) | (intro _)
      | (refine frame_fst ?_ (by assumption)) | (dsimp only) | (with_reducible apply frame_any))) only [framed]

theorem sendFlit_fr {E : Nat} {s0 s : State} (h : Frame E s0 s) {p : Nat} {fseq : Nat} {pay : FlitPay} :
    Frame E s0 (State.sendFlit s p fseq pay) := by
  simp (disch := (
    unfold FrameOf
    unfold State.sendFlit
    try dsimp only
    repeat' first
      | (with_reducible assumption) | (with_reducible apply armIn_fr) | (with_reducible apply putFlit_fr)
      | (with_reducible apply updLink_fr) | (split) | (intro _) | (refine frame_fst ?_ (by assumption)) | (dsimp only)
      | (with_reducible apply frame_any))) only [framed]

theorem sendUnseq_fr {E : Nat} {s0 s : State} (h : Frame E s0 s) {p : Nat} {pay : FlitPay} :
    Frame E s0 (State.sendUnseq s p pay) := by
  simp (disch := (
    unfold FrameOf
    unfold State.sendUnseq
    try dsimp only
    repeat' first
      | (with_reducible assumption) | (with_reducible apply sendFlit_fr) | (split) | (intro _)
      | (refine frame_fst ?_ (by assumption)) | (dsimp only) | (with_reducible apply frame_any))) only [framed]

theorem sendSeq_fr {E : Nat} {s0 s : State} (h : Frame E s0 s) {p : Nat} {pay : FlitPay} (hE : Sub 0x40 E := by first | assumption | exact sub_step (by assumption) (by decide)) :
    Frame E s0 (State.sendSeq s p pay) := by
  simp (disch := (
    unfold FrameOf
    unfold State.sendSeq
    try dsimp only
    repeat' first
      | (with_reducible assumption) | ((with_reducible refine sub_step (by assumption) ?_); first | rfl | decide)
      | (with_reducible apply armIn_fr) | (with_reducible apply sendFlit_fr) | (with_reducible apply updLink_fr)
      | (with_reducible apply wr_fr) | (split) | (intro _) | (refine frame_fst ?_ (by assumption)) | (dsimp only)
      | (with_reducible apply frame_any))) only [framed]

theorem fillFlit_fr {E : Nat} {s0 s : State} (h : Frame E s0 s) {p : Nat} {v : Nat} {y0 : List Nat} {y1 : Nat} (hE : Sub 0x20000 E := by first | assumption | exact sub_step (by assumption) (by decide)) :
    Frame E s0 (State.fillFlit s p v y0 y1).1 := by
  simp (disch := (
    unfold FrameOf
    induction y0 generalizing s p v y1 with
    | nil =>
      unfold State.fillFlit
      try dsimp only
      repeat' first
        | (with_reducible assumption) | ((with_reducible refine sub_step (by assumption) ?_); first | rfl | decide)
        | (with_reducible apply count_fr) | (with_reducible apply endLeg_fr) | (with_reducible apply settleTransit_fr)
        | (with_reducible apply updLeg_fr) | (with_reducible apply ih) | (split) | (intro _)
        | (refine frame_fst ?_ (by assumption)) | (dsimp only) | (with_reducible apply frame_any)
    | cons a r ih =>
      unfold State.fillFlit
      try dsimp only
      repeat' first
        | (with_reducible assumption) | ((with_reducible refine sub_step (by assumption) ?_); first | rfl | decide)
        | (with_reducible apply count_fr) | (with_reducible apply endLeg_fr) | (with_reducible apply settleTransit_fr)
        | (with_reducible apply updLeg_fr) | (with_reducible apply ih) | (split) | (intro _)
        | (refine frame_fst ?_ (by assumption)) | (dsimp only) | (with_reducible apply frame_any))) only [framed]

theorem sendData_fr {E : Nat} {s0 s : State} (h : Frame E s0 s) {p : Nat} {y0 : List Nat} (hE : Sub 0x20040 E := by first | assumption | exact sub_step (by assumption) (by decide)) :
    ∀ t, State.sendData s p y0 = some t → Frame E s0 t := by
  induction y0 generalizing s with
  | nil => intro t ht; cases ht
  | cons v r ih =>
    intro t ht
    unfold State.sendData at ht
    extract_lets k at ht
    clear_value k
    split at ht
    · injection ht with ht; subst ht; exact sendSeq_fr (count_fr (updLink_fr h))
    · have w := fillFlit_fr (p := p) (v := v) (y0 := s.sendQ p v) (y1 := 0) h
      split at ht
      rename_i e
      rw [e] at w
      split at ht
      · exact ih h t ht
      · injection ht with ht; subst ht; exact sendSeq_fr w

theorem transmit_fr {E : Nat} {s0 s : State} (h : Frame E s0 s) {p : Nat} (hE : Sub 0x20040 E := by first | assumption | exact sub_step (by assumption) (by decide)) :
    Frame E s0 (State.transmit s p) := by
  unfold State.transmit
  extract_lets k st s2 s3 src full
  have h2 : Frame E s0 s2 := sendUnseq_fr h
  have h3 : Frame E s0 s3 := updLink_fr h2
  clear_value full s3 src s2 st k
  split
  · split
    · extract_lets s1
      replace h : Frame E s0 s1 := sendUnseq_fr (updLink_fr h)
      clear_value s1
      exact armIn_fr h
    · exact h
  · split
    · exact frame_ite (updLink_fr h3) (armIn_fr h3)
    · split
      · exact h
      · split
        · exact sendUnseq_fr (frame_any h)
        · split
          · extract_lets s1
            replace h : Frame E s0 s1 := sendFlit_fr (updLink_fr h)
            clear_value s1
            exact frame_ite (armIn_fr h) h
          · split
            · exact frame_ite (sendUnseq_fr h) (sendSeq_fr (updLink_fr h))
            · split
              · rename_i e
                split at e
                · cases e
                · exact (sendData_fr h) _ e
              · exact sendUnseq_fr h

theorem abortTransit_fr {E : Nat} {s0 s : State} (h : Frame E s0 s) {id : Nat} :
    Frame E s0 (State.abortTransit s id) := by
  simp (disch := (
    unfold FrameOf
    unfold State.abortTransit
    try dsimp only
    repeat' first
      | (with_reducible assumption) | (with_reducible apply unqueue_fr) | (with_reducible apply updLink_fr)
      | (with_reducible apply frame_foldl) | (split) | (intro _) | (refine frame_fst ?_ (by assumption)) | (dsimp only)
      | (with_reducible apply frame_any))) only [framed]

theorem cutOutput_fr {E : Nat} {s0 s : State} (h : Frame E s0 s) {p : Nat} :
    Frame E s0 (State.cutOutput s p) := by
  simp (disch := (
    unfold FrameOf
    unfold State.cutOutput
    try dsimp only
    repeat' first
      | (with_reducible assumption) | (with_reducible apply endLeg_fr) | (with_reducible apply frame_foldl) | (split)
      | (intro _) | (refine frame_fst ?_ (by assumption)) | (dsimp only) | (with_reducible apply frame_any))) only [framed]

theorem tellNeighbours_fr {E : Nat} {s0 s : State} (h : Frame E s0 s) {p : Nat} {up : Bool} :
    Frame E s0 (State.tellNeighbours s p up) := by
  simp (disch := (
    unfold FrameOf
    unfold State.tellNeighbours
    try dsimp only
    repeat' first
      | (with_reducible assumption) | (with_reducible apply updLink_fr) | (with_reducible apply frame_foldl) | (split)
      | (intro _) | (refine frame_fst ?_ (by assumption)) | (dsimp only) | (with_reducible apply frame_any))) only [framed]

theorem noticeDown_fr {E : Nat} {s0 s : State} (h : Frame E s0 s) {p : Nat} :
    Frame E s0 (State.noticeDown s p) := by
  simp (disch := (
    unfold FrameOf
    unfold State.noticeDown
    try dsimp only
    repeat' first
      | (with_reducible assumption) | (with_reducible apply tellNeighbours_fr) | (split) | (intro _)
      | (refine frame_fst ?_ (by assumption)) | (dsimp only) | (with_reducible apply frame_any))) only [framed]

theorem noticeUp_fr {E : Nat} {s0 s : State} (h : Frame E s0 s) {p : Nat} :
    Frame E s0 (State.noticeUp s p) := by
  simp (disch := (
    unfold FrameOf
    unfold State.noticeUp
    try dsimp only
    repeat' first
      | (with_reducible assumption) | (with_reducible apply tellNeighbours_fr) | (split) | (intro _)
      | (refine frame_fst ?_ (by assumption)) | (dsimp only) | (with_reducible apply frame_any))) only [framed]

theorem freshStart_fr {E : Nat} {s0 s : State} (h : Frame E s0 s) {p : Nat} (hE : Sub 0x40 E := by first | assumption | exact sub_step (by assumption) (by decide)) :
    Frame E s0 (State.freshStart s p) := by
  simp (disch := (
    unfold FrameOf
    unfold State.freshStart
    try dsimp only
    repeat' first
      | (with_reducible assumption) | ((with_reducible refine sub_step (by assumption) ?_); first | rfl | decide)
      | (with_reducible refine sub_flds ?_ ?_) | (with_reducible exact sub_zero) | (with_reducible apply disarmAll_fr)
      | (with_reducible apply freeNext_fr) | (with_reducible apply wrAll_fr) | (split) | (intro _)
      | (refine frame_fst ?_ (by assumption)) | (dsimp only) | (with_reducible apply frame_any))) only [framed]

theorem startPort_fr {E : Nat} {s0 s : State} (h : Frame E s0 s) {p : Nat} {full : Nat → Bool} (hE : Sub 0xc0 E := by first | assumption | exact sub_step (by assumption) (by decide)) :
    Frame E s0 (State.startPort s p full) := by
  simp (disch := (
    unfold FrameOf
    unfold State.startPort
    try dsimp only
    repeat' first
      | (with_reducible assumption) | ((with_reducible refine sub_step (by assumption) ?_); first | rfl | decide)
      | (with_reducible apply freshStart_fr) | (with_reducible apply trainLanes_fr) | (split) | (intro _)
      | (refine frame_fst ?_ (by assumption)) | (dsimp only) | (with_reducible apply frame_any))) only [framed]

theorem flushPort_fr {E : Nat} {s0 s : State} (h : Frame E s0 s) {p : Nat} (hE : Sub 0x20040 E := by first | assumption | exact sub_step (by assumption) (by decide)) :
    Frame E s0 (State.flushPort s p) := by
  simp (disch := (
    unfold FrameOf
    unfold State.flushPort
    try dsimp only
    repeat' first
      | (with_reducible assumption) | ((with_reducible refine sub_step (by assumption) ?_); first | rfl | decide)
      | (with_reducible apply abortTransit_fr) | (with_reducible apply count_fr) | (with_reducible apply cutOutput_fr)
      | (with_reducible apply freshStart_fr) | (with_reducible apply frame_foldl) | (split) | (intro _)
      | (refine frame_fst ?_ (by assumption)) | (dsimp only) | (with_reducible apply frame_any))) only [framed]

theorem helloAgain_fr {E : Nat} {s0 s : State} (h : Frame E s0 s) {p : Nat} :
    Frame E s0 (State.helloAgain s p) := by
  simp (disch := (
    unfold FrameOf
    unfold State.helloAgain
    try dsimp only
    repeat' first
      | (with_reducible assumption) | (with_reducible apply updLink_fr) | (split) | (intro _)
      | (refine frame_fst ?_ (by assumption)) | (dsimp only) | (with_reducible apply frame_any))) only [framed]

theorem declareDown_fr {E : Nat} {s0 s : State} (h : Frame E s0 s) {p : Nat} {cause : Nat} (hE : Sub 0x280c0 E := by first | assumption | exact sub_step (by assumption) (by decide)) :
    Frame E s0 (State.declareDown s p cause) := by
  unfold State.declareDown
  extract_lets s1 s2 s3 s4 s5 s6 s7
  have h1 := wrAll_fr (i := p) (y0 := [(.LL_PORT_STATE_STATE, psHold), (.LL_PORT_STATE_DOWN_CAUSE, cause)]) h
  have h2 : Frame E s0 s2 := disarmAll_fr h1
  have h3 : Frame E s0 s3 := emit_fr (armIn_fr h2)
  have h4 : Frame E s0 s4 := updLink_fr h3
  have h5 : Frame E s0 s5 := reroute_fr (logRec_fr h4)
  have h6 : Frame E s0 s6 := noticeDown_fr h5
  have h7 : Frame E s0 s7 := frame_ite (arm_fr h6) h6
  exact trainLanes_fr h7

theorem goUp_fr {E : Nat} {s0 s : State} (h : Frame E s0 s) {p : Nat} (hE : Sub 0x40 E := by first | assumption | exact sub_step (by assumption) (by decide)) :
    Frame E s0 (State.goUp s p) := by
  simp (disch := (
    unfold FrameOf
    unfold State.goUp
    try dsimp only
    repeat' first
      | (with_reducible assumption) | ((with_reducible refine sub_step (by assumption) ?_); first | rfl | decide)
      | (with_reducible refine sub_flds ?_ ?_) | (with_reducible exact sub_zero) | (with_reducible apply armIn_fr)
      | (with_reducible apply disarm_fr) | (with_reducible apply freeNext_fr) | (with_reducible apply noticeUp_fr)
      | (with_reducible apply updLink_fr) | (with_reducible apply wrAll_fr) | (split) | (intro _)
      | (refine frame_fst ?_ (by assumption)) | (dsimp only) | (with_reducible apply frame_any))) only [framed]

theorem disablePort_fr {E : Nat} {s0 s : State} (h : Frame E s0 s) {p : Nat} (hE : Sub 0x20040 E := by first | assumption | exact sub_step (by assumption) (by decide)) :
    Frame E s0 (State.disablePort s p) := by
  simp (disch := (
    unfold FrameOf
    unfold State.disablePort
    try dsimp only
    repeat' first
      | (with_reducible assumption) | ((with_reducible refine sub_step (by assumption) ?_); first | rfl | decide)
      | (with_reducible refine sub_flds ?_ ?_) | (with_reducible exact sub_zero) | (with_reducible apply arm_fr)
      | (with_reducible apply disarmAll_fr) | (with_reducible apply flushPort_fr) | (with_reducible apply laneStop_fr)
      | (with_reducible apply noticeDown_fr) | (with_reducible apply reroute_fr) | (with_reducible apply updLink_fr)
      | (with_reducible apply wrAll_fr) | (with_reducible apply frame_foldl) | (split) | (intro _)
      | (refine frame_fst ?_ (by assumption)) | (dsimp only) | (with_reducible apply frame_any))) only [framed]

theorem clearEn_fr {E : Nat} {s0 s : State} (h : Frame E s0 s) {p : Nat} (hE : Sub 0x20040 E := by first | assumption | exact sub_step (by assumption) (by decide)) :
    Frame E s0 (State.clearEn s p) := by
  simp (disch := (
    unfold FrameOf
    unfold State.clearEn
    try dsimp only
    repeat' first
      | (with_reducible assumption) | ((with_reducible refine sub_step (by assumption) ?_); first | rfl | decide)
      | (with_reducible apply armIn_fr) | (with_reducible apply disablePort_fr) | (with_reducible apply reroute_fr)
      | (with_reducible apply updLink_fr) | (split) | (intro _) | (refine frame_fst ?_ (by assumption)) | (dsimp only)
      | (with_reducible apply frame_any))) only [framed]

theorem holdPeer_fr {E : Nat} {s0 s : State} (h : Frame E s0 s) {p : Nat} (hE : Sub 0x8040 E := by first | assumption | exact sub_step (by assumption) (by decide)) :
    Frame E s0 (State.holdPeer s p) := by
  simp (disch := (
    unfold FrameOf
    unfold State.holdPeer
    try dsimp only
    repeat' first
      | (with_reducible assumption) | ((with_reducible refine sub_step (by assumption) ?_); first | rfl | decide)
      | (with_reducible apply logRec_fr) | (with_reducible apply updLink_fr) | (with_reducible apply wr_fr) | (split)
      | (intro _) | (refine frame_fst ?_ (by assumption)) | (dsimp only) | (with_reducible apply frame_any))) only [framed]

theorem ackFlits_fr {E : Nat} {s0 s : State} (h : Frame E s0 s) {p : Nat} {ack : Nat} (hE : Sub 0x20040 E := by first | assumption | exact sub_step (by assumption) (by decide)) :
    Frame E s0 (State.ackFlits s p ack) := by
  simp (disch := (
    unfold FrameOf
    unfold State.ackFlits
    try dsimp only
    repeat' first
      | (with_reducible assumption) | ((with_reducible refine sub_step (by assumption) ?_); first | rfl | decide)
      | (with_reducible refine sub_flds ?_ ?_) | (with_reducible exact sub_zero) | (with_reducible apply armIn_fr)
      | (with_reducible apply disablePort_fr) | (with_reducible apply disarm_fr) | (with_reducible apply updLink_fr)
      | (with_reducible apply wrAll_fr) | (split) | (intro _) | (refine frame_fst ?_ (by assumption)) | (dsimp only)
      | (with_reducible apply frame_any))) only [framed]

theorem startReplay_fr {E : Nat} {s0 s : State} (h : Frame E s0 s) {p : Nat} (hE : Sub 0x280c0 E := by first | assumption | exact sub_step (by assumption) (by decide)) :
    Frame E s0 (State.startReplay s p) := by
  simp (disch := (
    unfold FrameOf
    unfold State.startReplay
    try dsimp only
    repeat' first
      | (with_reducible assumption) | ((with_reducible refine sub_step (by assumption) ?_); first | rfl | decide)
      | (with_reducible apply armIn_fr) | (with_reducible apply count_fr) | (with_reducible apply declareDown_fr)
      | (with_reducible apply incSat_fr) | (with_reducible apply updLink_fr) | (split) | (intro _)
      | (refine frame_fst ?_ (by assumption)) | (dsimp only) | (with_reducible apply frame_any))) only [framed]

theorem flitHeader_fr {E : Nat} {s0 s : State} (h : Frame E s0 s) {p : Nat} {f : Flit} (hE : Sub 0x280c0 E := by first | assumption | exact sub_step (by assumption) (by decide)) :
    Frame E s0 (State.flitHeader s p f) := by
  simp (disch := (
    unfold FrameOf
    unfold State.flitHeader
    try dsimp only
    repeat' first
      | (with_reducible assumption) | ((with_reducible refine sub_step (by assumption) ?_); first | rfl | decide)
      | (with_reducible apply ackFlits_fr) | (with_reducible apply startReplay_fr) | (with_reducible apply updLink_fr) | (split)
      | (intro _) | (refine frame_fst ?_ (by assumption)) | (dsimp only) | (with_reducible apply frame_any))) only [framed]

theorem flitLost_fr {E : Nat} {s0 s : State} (h : Frame E s0 s) {p : Nat} :
    Frame E s0 (State.flitLost s p) := by
  simp (disch := (
    unfold FrameOf
    unfold State.flitLost
    try dsimp only
    repeat' first
      | (with_reducible assumption) | (with_reducible apply updLink_fr) | (split) | (intro _)
      | (refine frame_fst ?_ (by assumption)) | (dsimp only) | (with_reducible apply frame_any))) only [framed]

theorem unseqHeader_fr {E : Nat} {s0 s : State} (h : Frame E s0 s) {p : Nat} {f : Flit} (hE : Sub 0x280c0 E := by first | assumption | exact sub_step (by assumption) (by decide)) :
    Frame E s0 (State.unseqHeader s p f) := by
  simp (disch := (
    unfold FrameOf
    unfold State.unseqHeader
    try dsimp only
    repeat' first
      | (with_reducible assumption) | ((with_reducible refine sub_step (by assumption) ?_); first | rfl | decide)
      | (with_reducible apply flitHeader_fr) | (with_reducible apply flitLost_fr) | (split) | (intro _)
      | (refine frame_fst ?_ (by assumption)) | (dsimp only) | (with_reducible apply frame_any))) only [framed]

theorem flitTaken_fr {E : Nat} {s0 s : State} (h : Frame E s0 s) {p : Nat} (hE : Sub 0x40 E := by first | assumption | exact sub_step (by assumption) (by decide)) :
    Frame E s0 (State.flitTaken s p) := by
  simp (disch := (
    unfold FrameOf
    unfold State.flitTaken
    try dsimp only
    repeat' first
      | (with_reducible assumption) | ((with_reducible refine sub_step (by assumption) ?_); first | rfl | decide)
      | (with_reducible apply disarm_fr) | (with_reducible apply updLink_fr) | (with_reducible apply wr_fr) | (split)
      | (intro _) | (refine frame_fst ?_ (by assumption)) | (dsimp only) | (with_reducible apply frame_any))) only [framed]

end Sys2Proof.Laws
end

