-- ==== Sys2Proof/Laws/FrLinkRx.lean ====
section
/-! SUPPORT. The frame of every operation of Machine/LinkRx.lean (`Laws.Frame`). -/

namespace Sys2Proof.Laws

open Sys2Proof.Machine

set_option linter.all false
set_option Elab.async false

theorem countUnits_fr {E : Nat} {s0 s : State} (h : Frame E s0 s) {p : Nat} {id : Nat} (hE : Sub 0x20000 E := by first | assumption | exact sub_step (by assumption) (by decide)) :
    Frame E s0 (State.countUnits s p id) := by
  simp (disch := (
    unfold FrameOf
    unfold State.countUnits
    try dsimp only
    repeat' first
      | (with_reducible assumption) | ((with_reducible refine sub_step (by assumption) ?_); first | rfl | decide)
      | (with_reducible apply count_fr) | (with_reducible apply updTransit_fr) | (split) | (intro _)
      | (refine frame_fst ?_ (by assumption)) | (dsimp only) | (with_reducible apply frame_any))) only [framed]

theorem takeData_fr {E : Nat} {s0 s : State} (h : Frame E s0 s) {p : Nat} {vc : Nat} {bs : List Byte} {y0 : List Nat} {y1 : List Nat} (hE : Sub 0x20000 E := by first | assumption | exact sub_step (by assumption) (by decide)) :
    Frame E s0 (State.takeData s p vc bs y0 y1) := by
  induction y0 generalizing s y1 with
  | nil => exact h
  | cons g r ih =>
    unfold State.takeData
    extract_lets whole e
    split
    rename_i s1 id q
    have k : Frame E s0 s1 := frame_fst (enterCrossing_fr h) q
    extract_lets s2 s3
    have k1 : Frame E s0 s2 := count_fr k
    have k2 : Frame E s0 s3 := frame_ite k1 (updLink_fr k1)
    exact ih (countUnits_fr k2)

theorem continueOpen_fr {E : Nat} {s0 s : State} (h : Frame E s0 s) {p : Nat} {vc : Nat} {id : Nat} {bs : List Byte} {es : List Nat} (hE : Sub 0x20000 E := by first | assumption | exact sub_step (by assumption) (by decide)) :
    Frame E s0 (State.continueOpen s p vc id bs es) := by
  simp (disch := (
    unfold FrameOf
    unfold State.continueOpen
    try dsimp only
    repeat' first
      | (with_reducible assumption) | ((with_reducible refine sub_step (by assumption) ?_); first | rfl | decide)
      | (with_reducible apply countUnits_fr) | (with_reducible apply ejectWhole_fr) | (with_reducible apply settleTransit_fr)
      | (with_reducible apply updLink_fr) | (with_reducible apply updTransit_fr) | (split) | (intro _)
      | (refine frame_fst ?_ (by assumption)) | (dsimp only) | (with_reducible apply frame_any))) only [framed]

theorem deliverData_fr {E : Nat} {s0 s : State} (h : Frame E s0 s) {p : Nat} {vc : Nat} {abort : Bool} {starts : List Nat} {ends : List Nat} {bs : List Byte} (hE : Sub 0x20000 E := by first | assumption | exact sub_step (by assumption) (by decide)) :
    Frame E s0 (State.deliverData s p vc abort starts ends bs) := by
  simp (disch := (
    unfold FrameOf
    unfold State.deliverData
    try dsimp only
    repeat' first
      | (with_reducible assumption) | ((with_reducible refine sub_step (by assumption) ?_); first | rfl | decide)
      | (with_reducible apply abortTransit_fr) | (with_reducible apply continueOpen_fr) | (with_reducible apply takeData_fr)
      | (with_reducible apply updLink_fr) | (split) | (intro _) | (refine frame_fst ?_ (by assumption)) | (dsimp only)
      | (with_reducible apply frame_any))) only [framed]

theorem flitIn_fr {E : Nat} {s0 s : State} (h : Frame E s0 s) {p : Nat} {f : Flit} (hE : Sub 0x280c0 E := by first | assumption | exact sub_step (by assumption) (by decide)) :
    Frame E s0 (State.flitIn s p f) := by
  simp (disch := (
    unfold FrameOf
    unfold State.flitIn
    try dsimp only
    repeat' first
      | (with_reducible assumption) | ((with_reducible refine sub_step (by assumption) ?_); first | rfl | decide)
      | (with_reducible apply count_fr) | (with_reducible apply deliverData_fr) | (with_reducible apply flitHeader_fr)
      | (with_reducible apply flitLost_fr) | (with_reducible apply flitTaken_fr) | (with_reducible apply updLink_fr) | (split)
      | (intro _) | (refine frame_fst ?_ (by assumption)) | (dsimp only) | (with_reducible apply frame_any))) only [framed]

theorem halfTaken_fr {E : Nat} {s0 s : State} (h : Frame E s0 s) {p : Nat} {c : CodeHalf} {next : Nat} {fixed : Option Nat} (hE : Sub 0x20080 E := by first | assumption | exact sub_step (by assumption) (by decide)) :
    Frame E s0 (State.halfTaken s p c next fixed) := by
  simp (disch := (
    unfold FrameOf
    unfold State.halfTaken
    try dsimp only
    repeat' first
      | (with_reducible assumption) | ((with_reducible refine sub_step (by assumption) ?_); first | rfl | decide)
      | (with_reducible apply count_fr) | (with_reducible apply incWrap_fr) | (with_reducible apply updLink_fr) | (split)
      | (intro _) | (refine frame_fst ?_ (by assumption)) | (dsimp only) | (with_reducible apply frame_any))) only [framed]

theorem onFlit_fr {E : Nat} {s0 s : State} (h : Frame E s0 s) {p : Nat} {c : CodeHalf} {ok : Flit → Bool} {run : State → Flit → State} (h_run : ∀ z0 z1, Frame E s0 z0 → Frame E s0 (run z0 z1)) (hE : Sub 0x20080 E := by first | assumption | exact sub_step (by assumption) (by decide)) :
    Frame E s0 (State.onFlit s p c ok run) := by
  simp (disch := (
    unfold FrameOf
    unfold State.onFlit
    try dsimp only
    repeat' first
      | (with_reducible assumption) | ((with_reducible refine sub_step (by assumption) ?_); first | rfl | decide)
      | (with_reducible apply halfTaken_fr) | (with_reducible apply h_run) | (split) | (intro _)
      | (refine frame_fst ?_ (by assumption)) | (dsimp only) | (with_reducible apply frame_any))) only [framed]

theorem onBadFlit_fr {E : Nat} {s0 s : State} (h : Frame E s0 s) {p : Nat} {c : CodeHalf} (hE : Sub 0x20080 E := by first | assumption | exact sub_step (by assumption) (by decide)) :
    Frame E s0 (State.onBadFlit s p c) := by
  simp (disch := (
    unfold FrameOf
    unfold State.onBadFlit
    try dsimp only
    repeat' first
      | (with_reducible assumption) | ((with_reducible refine sub_step (by assumption) ?_); first | rfl | decide)
      | (with_reducible apply count_fr) | (with_reducible apply flitLost_fr) | (with_reducible apply halfTaken_fr) | (split)
      | (intro _) | (refine frame_fst ?_ (by assumption)) | (dsimp only) | (with_reducible apply frame_any))) only [framed]

theorem takeHeld_fr {E : Nat} {s0 s : State} (h : Frame E s0 s) {p : Nat} {h' : Hello} :
    Frame E s0 (State.takeHeld s p h') := by
  simp (disch := (
    unfold FrameOf
    unfold State.takeHeld
    try dsimp only
    repeat' first
      | (with_reducible assumption) | (with_reducible apply updLink_fr) | (split) | (intro _)
      | (refine frame_fst ?_ (by assumption)) | (dsimp only) | (with_reducible apply frame_any))) only [framed]

theorem helloTraining_fr {E : Nat} {s0 s : State} (h : Frame E s0 s) {p : Nat} {h' : Hello} (hE : Sub 0x8040 E := by first | assumption | exact sub_step (by assumption) (by decide)) :
    Frame E s0 (State.helloTraining s p h') := by
  simp (disch := (
    unfold FrameOf
    unfold State.helloTraining
    try dsimp only
    repeat' first
      | (with_reducible assumption) | ((with_reducible refine sub_step (by assumption) ?_); first | rfl | decide)
      | (with_reducible apply goUp_fr) | (with_reducible apply holdPeer_fr) | (with_reducible apply takeHeld_fr)
      | (with_reducible apply updLink_fr) | (split) | (intro _) | (refine frame_fst ?_ (by assumption)) | (dsimp only)
      | (with_reducible apply frame_any))) only [framed]

theorem helloResume_fr {E : Nat} {s0 s : State} (h : Frame E s0 s) {p : Nat} {h' : Hello} (hE : Sub 0x20040 E := by first | assumption | exact sub_step (by assumption) (by decide)) :
    Frame E s0 (State.helloResume s p h') := by
  simp (disch := (
    unfold FrameOf
    unfold State.helloResume
    try dsimp only
    repeat' first
      | (with_reducible assumption) | ((with_reducible refine sub_step (by assumption) ?_); first | rfl | decide)
      | (with_reducible apply ackFlits_fr) | (with_reducible apply goUp_fr) | (with_reducible apply updLink_fr) | (split)
      | (intro _) | (refine frame_fst ?_ (by assumption)) | (dsimp only) | (with_reducible apply frame_any))) only [framed]

theorem helloFlush_fr {E : Nat} {s0 s : State} (h : Frame E s0 s) {p : Nat} {h' : Hello} (hE : Sub 0x28040 E := by first | assumption | exact sub_step (by assumption) (by decide)) :
    Frame E s0 (State.helloFlush s p h') := by
  simp (disch := (
    unfold FrameOf
    unfold State.helloFlush
    try dsimp only
    repeat' first
      | (with_reducible assumption) | ((with_reducible refine sub_step (by assumption) ?_); first | rfl | decide)
      | (with_reducible apply flushPort_fr) | (with_reducible apply helloAgain_fr) | (with_reducible apply helloTraining_fr)
      | (with_reducible apply noticeDown_fr) | (with_reducible apply reroute_fr) | (split) | (intro _)
      | (refine frame_fst ?_ (by assumption)) | (dsimp only) | (with_reducible apply frame_any))) only [framed]

theorem helloIn_fr {E : Nat} {s0 s : State} (h : Frame E s0 s) {p : Nat} {h' : Hello} (hE : Sub 0x28040 E := by first | assumption | exact sub_step (by assumption) (by decide)) :
    Frame E s0 (State.helloIn s p h') := by
  simp (disch := (
    unfold FrameOf
    unfold State.helloIn
    try dsimp only
    repeat' first
      | (with_reducible assumption) | ((with_reducible refine sub_step (by assumption) ?_); first | rfl | decide)
      | (with_reducible refine sub_flds ?_ ?_) | (with_reducible exact sub_zero) | (with_reducible apply helloFlush_fr)
      | (with_reducible apply helloResume_fr) | (with_reducible apply helloTraining_fr) | (with_reducible apply wrAll_fr)
      | (split) | (intro _) | (refine frame_fst ?_ (by assumption)) | (dsimp only) | (with_reducible apply frame_any))) only [framed]

theorem askRetrain_fr {E : Nat} {s0 s : State} (h : Frame E s0 s) {p : Nat} {w : Nat} {r : Nat} {reason : Nat} :
    Frame E s0 (State.askRetrain s p w r reason) := by
  simp (disch := (
    unfold FrameOf
    unfold State.askRetrain
    try dsimp only
    repeat' first
      | (with_reducible assumption) | (with_reducible apply updLink_fr) | (split) | (intro _)
      | (refine frame_fst ?_ (by assumption)) | (dsimp only) | (with_reducible apply frame_any))) only [framed]

theorem recalAsk_fr {E : Nat} {s0 s : State} (h : Frame E s0 s) {l : Nat} (hE : Sub 0x8000 E := by first | assumption | exact sub_step (by assumption) (by decide)) :
    Frame E s0 (State.recalAsk s l) := by
  simp (disch := (
    unfold FrameOf
    unfold State.recalAsk
    try dsimp only
    repeat' first
      | (with_reducible assumption) | ((with_reducible refine sub_step (by assumption) ?_); first | rfl | decide)
      | (with_reducible apply askRetrain_fr) | (with_reducible apply logRec_fr) | (with_reducible apply updLane_fr)
      | (with_reducible apply updLink_fr) | (split) | (intro _) | (refine frame_fst ?_ (by assumption)) | (dsimp only)
      | (with_reducible apply frame_any))) only [framed]

theorem enterRetrain_fr {E : Nat} {s0 s : State} (h : Frame E s0 s) {p : Nat} {w : Nat} {r : Nat} {reason : Nat} (hE : Sub 0x200c0 E := by first | assumption | exact sub_step (by assumption) (by decide)) :
    Frame E s0 (State.enterRetrain s p w r reason) := by
  simp (disch := (
    unfold FrameOf
    unfold State.enterRetrain
    try dsimp only
    repeat' first
      | (with_reducible assumption) | ((with_reducible refine sub_step (by assumption) ?_); first | rfl | decide)
      | (with_reducible apply armIn_fr) | (with_reducible apply disarmAll_fr) | (with_reducible apply laneStop_fr)
      | (with_reducible apply reroute_fr) | (with_reducible apply trainLanes_fr) | (with_reducible apply updLink_fr)
      | (with_reducible apply wr_fr) | (with_reducible apply frame_foldl) | (split) | (intro _)
      | (refine frame_fst ?_ (by assumption)) | (dsimp only) | (with_reducible apply frame_any))) only [framed]

theorem trainIn_fr {E : Nat} {s0 s : State} (h : Frame E s0 s) {p : Nat} {t : Train} (hE : Sub 0x200c0 E := by first | assumption | exact sub_step (by assumption) (by decide)) :
    Frame E s0 (State.trainIn s p t) := by
  simp (disch := (
    unfold FrameOf
    unfold State.trainIn
    try dsimp only
    repeat' first
      | (with_reducible assumption) | ((with_reducible refine sub_step (by assumption) ?_); first | rfl | decide)
      | (with_reducible apply enterRetrain_fr) | (with_reducible apply sendUnseq_fr) | (with_reducible apply updLink_fr)
      | (split) | (intro _) | (refine frame_fst ?_ (by assumption)) | (dsimp only) | (with_reducible apply frame_any))) only [framed]

theorem laneApply_fr {E : Nat} {s0 s : State} (h : Frame E s0 s) {l : Nat} {f : TrainFrame} (hE : Sub 0x80 E := by first | assumption | exact sub_step (by assumption) (by decide)) :
    Frame E s0 (State.laneApply s l f) := by
  simp (disch := (
    unfold FrameOf
    unfold State.laneApply
    try dsimp only
    repeat' first
      | (with_reducible assumption) | ((with_reducible refine sub_step (by assumption) ?_); first | rfl | decide)
      | (with_reducible apply setTaps_fr) | (with_reducible apply updLane_fr) | (split) | (intro _)
      | (refine frame_fst ?_ (by assumption)) | (dsimp only) | (with_reducible apply frame_any))) only [framed]

theorem laneAdapt_fr {E : Nat} {s0 s : State} (h : Frame E s0 s) {l : Nat} :
    Frame E s0 (State.laneAdapt s l) := by
  simp (disch := (
    unfold FrameOf
    unfold State.laneAdapt
    try dsimp only
    repeat' first
      | (with_reducible assumption) | (with_reducible apply freeNext_fr) | (with_reducible apply laneRequest_fr)
      | (with_reducible apply updLane_fr) | (split) | (intro _) | (refine frame_fst ?_ (by assumption)) | (dsimp only)
      | (with_reducible apply frame_any))) only [framed]

theorem laneFinish_fr {E : Nat} {s0 s : State} (h : Frame E s0 s) {l : Nat} (hE : Sub 0xc0 E := by first | assumption | exact sub_step (by assumption) (by decide)) :
    Frame E s0 (State.laneFinish s l) := by
  simp (disch := (
    unfold FrameOf
    unfold State.laneFinish
    try dsimp only
    repeat' first
      | (with_reducible assumption) | ((with_reducible refine sub_step (by assumption) ?_); first | rfl | decide)
      | (with_reducible refine sub_flds ?_ ?_) | (with_reducible exact sub_zero) | (with_reducible apply askRetrain_fr)
      | (with_reducible apply disarm_fr) | (with_reducible apply lanesDone_fr) | (with_reducible apply sendFrame_fr)
      | (with_reducible apply updLane_fr) | (with_reducible apply updLink_fr) | (with_reducible apply wrAll_fr)
      | (with_reducible apply frame_foldl) | (split) | (intro _) | (refine frame_fst ?_ (by assumption)) | (dsimp only)
      | (with_reducible apply frame_any))) only [framed]

theorem frameIn_fr {E : Nat} {s0 s : State} (h : Frame E s0 s) {l : Nat} {f : TrainFrame} (hE : Sub 0xc0 E := by first | assumption | exact sub_step (by assumption) (by decide)) :
    Frame E s0 (State.frameIn s l f) := by
  simp (disch := (
    unfold FrameOf
    unfold State.frameIn
    try dsimp only
    repeat' first
      | (with_reducible assumption) | ((with_reducible refine sub_step (by assumption) ?_); first | rfl | decide)
      | (with_reducible apply disarm_fr) | (with_reducible apply laneAdapt_fr) | (with_reducible apply laneApply_fr)
      | (with_reducible apply laneFinish_fr) | (with_reducible apply laneFull_fr) | (with_reducible apply sendFrame_fr)
      | (with_reducible apply updLane_fr) | (with_reducible apply wr_fr) | (split) | (intro _)
      | (refine frame_fst ?_ (by assumption)) | (dsimp only) | (with_reducible apply frame_any))) only [framed]

theorem recalNext_fr {E : Nat} {s0 s : State} (h : Frame E s0 s) {p : Nat} (hE : Sub 0x80 E := by first | assumption | exact sub_step (by assumption) (by decide)) :
    Frame E s0 (State.recalNext s p) := by
  simp (disch := (
    unfold FrameOf
    unfold State.recalNext
    try dsimp only
    repeat' first
      | (with_reducible assumption) | ((with_reducible refine sub_step (by assumption) ?_); first | rfl | decide)
      | (with_reducible apply trainLanes_fr) | (with_reducible apply updLink_fr) | (split) | (intro _)
      | (refine frame_fst ?_ (by assumption)) | (dsimp only) | (with_reducible apply frame_any))) only [framed]

end Sys2Proof.Laws
end

