-- ==== Sys2Proof/Laws/FrTimeOps.lean ====
section
/-! SUPPORT. The frame of every operation of Machine/TimeOps.lean (`Laws.Frame`). -/

namespace Sys2Proof.Laws

open Sys2Proof.Machine

set_option linter.all false
set_option Elab.async false

theorem adoptCand_fr {E : Nat} {s0 s : State} (h : Frame E s0 s) {c : Nat × Nat} {own : Bool} (hE : Sub 0x200 E := by first | assumption | exact sub_step (by assumption) (by decide)) :
    Frame E s0 (State.adoptCand s c own) := by
  simp (disch := (
    unfold FrameOf
    unfold State.adoptCand
    try dsimp only
    repeat' first
      | (with_reducible assumption) | ((with_reducible refine sub_step (by assumption) ?_); first | rfl | decide)
      | (with_reducible refine sub_flds ?_ ?_) | (with_reducible exact sub_zero) | (with_reducible apply armIn_fr)
      | (with_reducible apply disarm_fr) | (with_reducible apply wrAll_fr) | (split) | (intro _)
      | (refine frame_fst ?_ (by assumption)) | (dsimp only) | (with_reducible apply frame_any))) only [framed]

theorem chooseTime_fr {E : Nat} {s0 s : State} (h : Frame E s0 s) (hE : Sub 0x200 E := by first | assumption | exact sub_step (by assumption) (by decide)) :
    Frame E s0 (State.chooseTime s) := by
  simp (disch := (
    unfold FrameOf
    unfold State.chooseTime
    try dsimp only
    repeat' first
      | (with_reducible assumption) | ((with_reducible refine sub_step (by assumption) ?_); first | rfl | decide)
      | (with_reducible apply adoptCand_fr) | (split) | (intro _) | (refine frame_fst ?_ (by assumption)) | (dsimp only)
      | (with_reducible apply frame_any))) only [framed]

theorem timeStart_fr {E : Nat} {s0 s : State} (h : Frame E s0 s) (hE : Sub 0x200 E := by first | assumption | exact sub_step (by assumption) (by decide)) :
    Frame E s0 (State.timeStart s) := by
  simp (disch := (
    unfold FrameOf
    unfold State.timeStart
    try dsimp only
    repeat' first
      | (with_reducible assumption) | ((with_reducible refine sub_step (by assumption) ?_); first | rfl | decide)
      | (with_reducible apply chooseTime_fr) | (split) | (intro _) | (refine frame_fst ?_ (by assumption)) | (dsimp only)
      | (with_reducible apply frame_any))) only [framed]

theorem timeConfig_fr {E : Nat} {s0 s : State} (h : Frame E s0 s) (hE : Sub 0x200 E := by first | assumption | exact sub_step (by assumption) (by decide)) :
    Frame E s0 (State.timeConfig s) := by
  simp (disch := (
    unfold FrameOf
    unfold State.timeConfig
    try dsimp only
    repeat' first
      | (with_reducible assumption) | ((with_reducible refine sub_step (by assumption) ?_); first | rfl | decide)
      | (with_reducible apply chooseTime_fr) | (with_reducible apply disarm_fr) | (split) | (intro _)
      | (refine frame_fst ?_ (by assumption)) | (dsimp only) | (with_reducible apply frame_any))) only [framed]

theorem loseParent_fr {E : Nat} {s0 s : State} (h : Frame E s0 s) (hE : Sub 0x200 E := by first | assumption | exact sub_step (by assumption) (by decide)) :
    Frame E s0 (State.loseParent s) := by
  simp (disch := (
    unfold FrameOf
    unfold State.loseParent
    try dsimp only
    repeat' first
      | (with_reducible assumption) | ((with_reducible refine sub_step (by assumption) ?_); first | rfl | decide)
      | (with_reducible refine sub_flds ?_ ?_) | (with_reducible exact sub_zero) | (with_reducible apply adoptCand_fr)
      | (with_reducible apply armIn_fr) | (with_reducible apply disarm_fr) | (with_reducible apply wrAll_fr) | (split)
      | (intro _) | (refine frame_fst ?_ (by assumption)) | (dsimp only) | (with_reducible apply frame_any))) only [framed]

theorem takeOffset_fr {E : Nat} {s0 s : State} (h : Frame E s0 s) {off : Int} (hE : Sub 0x8200 E := by first | assumption | exact sub_step (by assumption) (by decide)) :
    Frame E s0 (State.takeOffset s off) := by
  simp (disch := (
    unfold FrameOf
    unfold State.takeOffset
    try dsimp only
    repeat' first
      | (with_reducible assumption) | ((with_reducible refine sub_step (by assumption) ?_); first | rfl | decide)
      | (with_reducible apply logRec_fr) | (with_reducible apply raise_fr) | (with_reducible apply wr_fr) | (split) | (intro _)
      | (refine frame_fst ?_ (by assumption)) | (dsimp only) | (with_reducible apply frame_any))) only [framed]

theorem timeIn_fr {E : Nat} {s0 s : State} (h : Frame E s0 s) {p : Nat} {t : TimeFlit} (hE : Sub 0x28200 E := by first | assumption | exact sub_step (by assumption) (by decide)) :
    Frame E s0 (State.timeIn s p t) := by
  simp (disch := (
    unfold FrameOf
    unfold State.timeIn
    try dsimp only
    repeat' first
      | (with_reducible assumption) | ((with_reducible refine sub_step (by assumption) ?_); first | rfl | decide)
      | (with_reducible apply armIn_fr) | (with_reducible apply chooseTime_fr) | (with_reducible apply count_fr)
      | (with_reducible apply takeOffset_fr) | (split) | (intro _) | (refine frame_fst ?_ (by assumption)) | (dsimp only)
      | (with_reducible apply frame_any))) only [framed]

theorem whistleEvents_fr {E : Nat} {s0 s : State} (h : Frame E s0 s) {slot : Nat} {line : Nat} {t : Nat} (hE : Sub 0x20000 E := by first | assumption | exact sub_step (by assumption) (by decide)) :
    Frame E s0 (State.whistleEvents s slot line t) := by
  simp (disch := (
    unfold FrameOf
    unfold State.whistleEvents
    try dsimp only
    repeat' first
      | (with_reducible assumption) | ((with_reducible refine sub_step (by assumption) ?_); first | rfl | decide)
      | (with_reducible apply count_fr) | (with_reducible apply forEach_fr) | (with_reducible apply pushEvent_fr) | (split)
      | (intro _) | (refine frame_fst ?_ (by assumption)) | (dsimp only) | (with_reducible apply frame_any))) only [framed]

theorem whistleDone_fr {E : Nat} {s0 s : State} (h : Frame E s0 s) {slot : Nat} {line : Nat} {t : Nat} (hE : Sub 0xb28002 E := by first | assumption | exact sub_step (by assumption) (by decide)) :
    Frame E s0 (State.whistleDone s slot line t) := by
  simp (disch := (
    unfold FrameOf
    unfold State.whistleDone
    try dsimp only
    repeat' first
      | (with_reducible assumption) | ((with_reducible refine sub_step (by assumption) ?_); first | rfl | decide)
      | (with_reducible apply completeExec_fr) | (with_reducible apply forEach_fr) | (split) | (intro _)
      | (refine frame_fst ?_ (by assumption)) | (dsimp only) | (with_reducible apply frame_any))) only [framed]

theorem fireJob_fr {E : Nat} {s0 s : State} (h : Frame E s0 s) {job : Nat} {line : Nat} {t : Nat} (hE : Sub 0xb28022 E := by first | assumption | exact sub_step (by assumption) (by decide)) :
    Frame E s0 (State.fireJob s job line t) := by
  simp (disch := (
    unfold FrameOf
    unfold State.fireJob
    try dsimp only
    repeat' first
      | (with_reducible assumption) | ((with_reducible refine sub_step (by assumption) ?_); first | rfl | decide)
      | (with_reducible apply addTally_fr) | (with_reducible apply collWhistle_fr) | (with_reducible apply whistleDone_fr)
      | (with_reducible apply whistleEvents_fr) | (split) | (intro _) | (refine frame_fst ?_ (by assumption)) | (dsimp only)
      | (with_reducible apply frame_any))) only [framed]

theorem trigLine_fr {E : Nat} {s0 s : State} (h : Frame E s0 s) {line : Nat} :
    Frame E s0 (State.trigLine s line) := by
  simp (disch := (
    unfold FrameOf
    unfold State.trigLine
    try dsimp only
    repeat' first
      | (with_reducible assumption) | (with_reducible apply emit_fr) | (with_reducible apply forEach_fr) | (split) | (intro _)
      | (refine frame_fst ?_ (by assumption)) | (dsimp only) | (with_reducible apply frame_any))) only [framed]

theorem fireLine_fr {E : Nat} {s0 s : State} (h : Frame E s0 s) {line : Nat} {x : Firing} {late : Bool} (hE : Sub 0xb28222 E := by first | assumption | exact sub_step (by assumption) (by decide)) :
    Frame E s0 (State.fireLine s line x late) := by
  simp (disch := (
    unfold FrameOf
    unfold State.fireLine
    try dsimp only
    repeat' first
      | (with_reducible assumption) | ((with_reducible refine sub_step (by assumption) ?_); first | rfl | decide)
      | (with_reducible apply count_fr) | (with_reducible apply fireJob_fr) | (with_reducible apply incOpen_fr)
      | (with_reducible apply incSat_fr) | (with_reducible apply trigLine_fr) | (split) | (intro _)
      | (refine frame_fst ?_ (by assumption)) | (dsimp only) | (with_reducible apply frame_any))) only [framed]

theorem whistleFail_fr {E : Nat} {s0 s : State} (h : Frame E s0 s) {slot : Nat} {line : Nat} {t : Nat} (hE : Sub 0xb28002 E := by first | assumption | exact sub_step (by assumption) (by decide)) :
    Frame E s0 (State.whistleFail s slot line t) := by
  simp (disch := (
    unfold FrameOf
    unfold State.whistleFail
    try dsimp only
    repeat' first
      | (with_reducible assumption) | ((with_reducible refine sub_step (by assumption) ?_); first | rfl | decide)
      | (with_reducible apply failExec_fr) | (with_reducible apply forEach_fr) | (split) | (intro _)
      | (refine frame_fst ?_ (by assumption)) | (dsimp only) | (with_reducible apply frame_any))) only [framed]

theorem schedule_fr {E : Nat} {s0 s : State} (h : Frame E s0 s) {line : Nat} {x : Firing} (hE : Sub 0xb28222 E := by first | assumption | exact sub_step (by assumption) (by decide)) :
    Frame E s0 (State.schedule s line x).1 := by
  simp (disch := (
    unfold FrameOf
    unfold State.schedule
    try dsimp only
    repeat' first
      | (with_reducible assumption) | ((with_reducible refine sub_step (by assumption) ?_); first | rfl | decide)
      | (with_reducible apply fireLine_fr) | (with_reducible apply incOpen_fr) | (with_reducible apply logRec_fr)
      | (with_reducible apply wr_fr) | (split) | (intro _) | (refine frame_fst ?_ (by assumption)) | (dsimp only)
      | (with_reducible apply frame_any))) only [framed]

theorem sendWhistle_fr {E : Nat} {s0 s : State} (h : Frame E s0 s) {w : Schedule} {nodes : List Nat} :
    Frame E s0 (State.sendWhistle s w nodes) := by
  simp (disch := (
    unfold FrameOf
    unfold State.sendWhistle
    try dsimp only
    repeat' first
      | (with_reducible assumption) | (with_reducible apply emits_fr) | (split) | (intro _)
      | (refine frame_fst ?_ (by assumption)) | (dsimp only) | (with_reducible apply frame_any))) only [framed]

end Sys2Proof.Laws
end

