-- ==== Sys2Proof/Laws/FrFaultOps.lean ====
section
/-! SUPPORT. The frame of every operation of Machine/FaultOps.lean (`Laws.Frame`). -/

namespace Sys2Proof.Laws

open Sys2Proof.Machine

set_option linter.all false
set_option Elab.async false

theorem failHuddle_fr {E : Nat} {s0 s : State} (h : Frame E s0 s) {h' : Nat} (hE : Sub 0xb28022 E := by first | assumption | exact sub_step (by assumption) (by decide)) :
    Frame E s0 (State.failHuddle s h') := by
  simp (disch := (
    unfold FrameOf
    unfold State.failHuddle
    try dsimp only
    repeat' first
      | (with_reducible assumption) | ((with_reducible refine sub_step (by assumption) ?_); first | rfl | decide)
      | (with_reducible apply collFail_fr) | (with_reducible apply forEach_fr) | (split) | (intro _)
      | (refine frame_fst ?_ (by assumption)) | (dsimp only) | (with_reducible apply frame_any))) only [framed]

theorem isolate_fr {E : Nat} {s0 s : State} (h : Frame E s0 s) {n : Nat} (hE : Sub 0xb384e2 E := by first | assumption | exact sub_step (by assumption) (by decide)) :
    Frame E s0 (State.isolate s n) := by
  simp (disch := (
    unfold FrameOf
    unfold State.isolate
    try dsimp only
    repeat' first
      | (with_reducible assumption) | ((with_reducible refine sub_step (by assumption) ?_); first | rfl | decide)
      | (with_reducible apply catchersMoved_fr) | (with_reducible apply disablePort_fr) | (with_reducible apply failHuddle_fr)
      | (with_reducible apply haltFerryQueues_fr) | (with_reducible apply setFlag_fr) | (with_reducible apply wr_fr)
      | (with_reducible apply frame_foldl) | (split) | (intro _) | (refine frame_fst ?_ (by assumption)) | (dsimp only)
      | (with_reducible apply frame_any))) only [framed]

theorem enterFatal_fr {E : Nat} {s0 s : State} (h : Frame E s0 s) {n : Nat} (hE : Sub 0x6f3b43b E := by first | assumption | exact sub_step (by assumption) (by decide)) :
    Frame E s0 (State.enterFatal s n) := by
  simp (disch := (
    unfold FrameOf
    unfold State.enterFatal
    try dsimp only
    repeat' first
      | (with_reducible assumption) | ((with_reducible refine sub_step (by assumption) ?_); first | rfl | decide)
      | (with_reducible refine sub_flds ?_ ?_) | (with_reducible exact sub_zero) | (with_reducible apply emit_fr)
      | (with_reducible apply emits_fr) | (with_reducible apply logRec_fr) | (with_reducible apply wrAll_fr)
      | (with_reducible apply zeroiseAll_fr) | (split) | (intro _) | (refine frame_fst ?_ (by assumption)) | (dsimp only)
      | (with_reducible apply frame_any))) only [framed]

theorem faultVec_fr {E : Nat} {s0 s : State} (h : Frame E s0 s)  :
    Frame E s0 (State.faultVec s) := by
  simp (disch := (
    unfold FrameOf
    unfold State.faultVec
    try dsimp only
    repeat' first
      | (with_reducible assumption) | (with_reducible apply msix_fr) | (split) | (intro _)
      | (refine frame_fst ?_ (by assumption)) | (dsimp only) | (with_reducible apply frame_any))) only [framed]

theorem faultAssert_fr {E : Nat} {s0 s : State} (h : Frame E s0 s) {n : Nat} {forced : Bool} (hE : Sub 0x6f3b4fb E := by first | assumption | exact sub_step (by assumption) (by decide)) :
    Frame E s0 (State.faultAssert s n forced) := by
  simp (disch := (
    unfold FrameOf
    unfold State.faultAssert
    try dsimp only
    repeat' first
      | (with_reducible assumption) | ((with_reducible refine sub_step (by assumption) ?_); first | rfl | decide)
      | (with_reducible apply enterFatal_fr) | (with_reducible apply faultVec_fr) | (with_reducible apply incSat_fr)
      | (with_reducible apply isolate_fr) | (with_reducible apply logRec_fr) | (with_reducible apply setFlag_fr)
      | (with_reducible apply wr_fr) | (split) | (intro _) | (refine frame_fst ?_ (by assumption)) | (dsimp only)
      | (with_reducible apply frame_any))) only [framed]

theorem collectN_fr {E : Nat} {s0 s : State} (h : Frame E s0 s) {y0 : Nat} (hE : Sub 0x6f3b4fb E := by first | assumption | exact sub_step (by assumption) (by decide)) :
    Frame E s0 (State.collectN s y0) := by
  simp (disch := (
    unfold FrameOf
    induction y0 generalizing s  with
    | zero =>
      unfold State.collectN
      try dsimp only
      repeat' first
        | (with_reducible assumption) | ((with_reducible refine sub_step (by assumption) ?_); first | rfl | decide)
        | (with_reducible apply faultAssert_fr) | (with_reducible apply ih) | (with_reducible apply frame_foldl) | (split)
        | (intro _) | (refine frame_fst ?_ (by assumption)) | (dsimp only) | (with_reducible apply frame_any)
    | succ n ih =>
      unfold State.collectN
      try dsimp only
      repeat' first
        | (with_reducible assumption) | ((with_reducible refine sub_step (by assumption) ?_); first | rfl | decide)
        | (with_reducible apply faultAssert_fr) | (with_reducible apply ih) | (with_reducible apply frame_foldl) | (split)
        | (intro _) | (refine frame_fst ?_ (by assumption)) | (dsimp only) | (with_reducible apply frame_any))) only [framed]

theorem collected_fr {E : Nat} {s0 s : State} (h : Frame E s0 s) (hE : Sub 0x6f3b4fb E := by first | assumption | exact sub_step (by assumption) (by decide)) :
    Frame E s0 (State.collected s) := by
  simp (disch := (
    unfold FrameOf
    unfold State.collected
    try dsimp only
    repeat' first
      | (with_reducible assumption) | ((with_reducible refine sub_step (by assumption) ?_); first | rfl | decide)
      | (with_reducible apply collectN_fr) | (split) | (intro _) | (refine frame_fst ?_ (by assumption)) | (dsimp only)
      | (with_reducible apply frame_any))) only [framed]

theorem fin_fr {E : Nat} {s0 s : State} (h : Frame E s0 s)  :
    OFrame E s0 (State.fin s) := by
  exact ⟨s, .inr rfl, h⟩

theorem whenUp_fr {E : Nat} {s0 s : State} (h : Frame E s0 s) {f : State → State} (h_f : ∀ z0, Frame E s0 z0 → Frame E s0 (f z0)) :
    OFrame E s0 (State.whenUp s f) := by
  simp (disch := (
    unfold OFrameOf
    unfold State.whenUp
    try dsimp only
    repeat' first
      | (with_reducible apply OFrame.next) | (with_reducible assumption) | (with_reducible apply fin_fr)
      | (with_reducible apply h_f) | (split) | (intro _) | (refine frame_fst ?_ (by assumption)) | (dsimp only)
      | (with_reducible apply frame_any))) only [oframed]

theorem whenLive_fr {E : Nat} {s0 s : State} (h : Frame E s0 s) {f : State → State} (h_f : ∀ z0, Frame E s0 z0 → Frame E s0 (f z0)) :
    OFrame E s0 (State.whenLive s f) := by
  simp (disch := (
    unfold OFrameOf
    unfold State.whenLive
    try dsimp only
    repeat' first
      | (with_reducible apply OFrame.next) | (with_reducible assumption) | (with_reducible apply fin_fr)
      | (with_reducible apply h_f) | (split) | (intro _) | (refine frame_fst ?_ (by assumption)) | (dsimp only)
      | (with_reducible apply frame_any))) only [oframed]

theorem whenRef_fr {E : Nat} {s0 s : State} (h : Frame E s0 s) {f : State → State} (h_f : ∀ z0, Frame E s0 z0 → Frame E s0 (f z0)) :
    OFrame E s0 (State.whenRef s f) := by
  simp (disch := (
    unfold OFrameOf
    unfold State.whenRef
    try dsimp only
    repeat' first
      | (with_reducible apply OFrame.next) | (with_reducible assumption) | (with_reducible apply fin_fr)
      | (with_reducible apply h_f) | (split) | (intro _) | (refine frame_fst ?_ (by assumption)) | (dsimp only)
      | (with_reducible apply frame_any))) only [oframed]

theorem whenDue_fr {E : Nat} {s0 s : State} (h : Frame E s0 s) {k : TimerKey} {f : State → State} (h_f : ∀ z0, Frame E s0 z0 → Frame E s0 (f z0)) (hE : Sub 0x20000 E := by first | assumption | exact sub_step (by assumption) (by decide)) :
    OFrame E s0 (State.whenDue s k f) := by
  simp (disch := (
    unfold OFrameOf
    unfold State.whenDue
    try dsimp only
    repeat' first
      | (with_reducible apply OFrame.next) | (with_reducible assumption)
      | ((with_reducible refine sub_step (by assumption) ?_); first | rfl | decide) | (with_reducible apply disarm_fr)
      | (with_reducible apply fin_fr) | (with_reducible apply setNow_fr) | (with_reducible apply h_f) | (split) | (intro _)
      | (refine frame_fst ?_ (by assumption)) | (dsimp only) | (with_reducible apply frame_any))) only [oframed]

end Sys2Proof.Laws
end

