-- ==== Sys2Proof/Laws/FrFieldOps.lean ====
section
/-! SUPPORT. The frame of every operation of Machine/FieldOps.lean (`Laws.Frame`). -/

namespace Sys2Proof.Laws

open Sys2Proof.Machine

set_option linter.all false
set_option Elab.async false

theorem setFields_fr {E : Nat} {s0 s : State} (h : Frame E s0 s) {i : Nat} {w : Nat} {fs : List Fld} (hE : Sub (fldl fs) E := by
      first
      | assumption
      | exact sub_step (by assumption) (by decide)
      | exact sub_step (sub_step (a := 0xfffff) (by assumption) (by decide)) (part_sub _)
      | (repeat' first | exact sub_zero | refine sub_flds ?_ ?_ | refine sub_fldb ?_ ?_ | exact sub_step (by assumption) (by decide))) :
    Frame E s0 (State.setFields s i w fs) := by
  unfold State.setFields
  exact wrAll_fr h (hE := (flds_map fs fun f => f.of w) ▸ hE)

theorem setBounded_fr {E : Nat} {s0 s : State} (h : Frame E s0 s) {i : Nat} {w : Nat} {y0 : List (Fld × Nat × Nat)} (hE : Sub (fldb y0) E := by
      first
      | assumption
      | exact sub_step (by assumption) (by decide)
      | exact sub_step (sub_step (a := 0xfffff) (by assumption) (by decide)) (part_sub _)
      | (repeat' first | exact sub_zero | refine sub_flds ?_ ?_ | refine sub_fldb ?_ ?_ | exact sub_step (by assumption) (by decide))) :
    Frame E s0 (State.setBounded s i w y0) := by
  induction y0 generalizing s with
  | nil => exact h
  | cons a r ih => exact ih (frame_ite (wr_fr h (hE := sub_left hE)) h) (sub_right hE)

theorem setRanged_fr {E : Nat} {s0 s : State} (h : Frame E s0 s) {i : Nat} {w : Nat} {y0 : List (Fld × Nat × Nat)} (hE : Sub (fldb y0) E := by
      first
      | assumption
      | exact sub_step (by assumption) (by decide)
      | exact sub_step (sub_step (a := 0xfffff) (by assumption) (by decide)) (part_sub _)
      | (repeat' first | exact sub_zero | refine sub_flds ?_ ?_ | refine sub_fldb ?_ ?_ | exact sub_step (by assumption) (by decide))) :
    Frame E s0 (State.setRanged s i w y0) := by
  induction y0 generalizing s with
  | nil => exact h
  | cons a r ih => exact ih (frame_ite (wr_fr h (hE := sub_left hE)) (freeNext_fr (wr_fr h (hE := sub_left hE)))) (sub_right hE)

end Sys2Proof.Laws
end

