-- ==== Sys2Proof/Laws/FrRegRead.lean ====
section
/-! SUPPORT. The frame of every operation of Machine/RegRead.lean (`Laws.Frame`). -/

namespace Sys2Proof.Laws

open Sys2Proof.Machine

set_option linter.all false
set_option Elab.async false

theorem readEffect_fr {E : Nat} {s0 s : State} (h : Frame E s0 s) {i : Nat} {f : Fld} (hE : Sub (bit f.part) E := by
      first
      | assumption
      | exact sub_step (by assumption) (by decide)
      | exact sub_step (sub_step (a := 0xfffff) (by assumption) (by decide)) (part_sub _)
      | (repeat' first | exact sub_zero | refine sub_flds ?_ ?_ | refine sub_fldb ?_ ?_ | exact sub_step (by assumption) (by decide))) :
    Frame E s0 (State.readEffect s i f) := by
  simp (disch := (
    unfold FrameOf
    unfold State.readEffect
    try dsimp only
    repeat' first
      | (with_reducible assumption) | ((with_reducible refine sub_step (by assumption) ?_); first | rfl | decide)
      | (with_reducible apply freeNext_fr) | (with_reducible apply wr_fr) | (split) | (intro _)
      | (refine frame_fst ?_ (by assumption)) | (dsimp only) | (with_reducible apply frame_any))) only [framed]

theorem readFields_fr {E : Nat} {s0 s : State} (h : Frame E s0 s) {i : Nat} {y0 : List Fld} (hE : Sub (fldl y0) E := by
      first
      | assumption
      | exact sub_step (by assumption) (by decide)
      | exact sub_step (sub_step (a := 0xfffff) (by assumption) (by decide)) (part_sub _)
      | (repeat' first | exact sub_zero | refine sub_flds ?_ ?_ | refine sub_fldb ?_ ?_ | exact sub_step (by assumption) (by decide))) :
    Frame E s0 (State.readFields s i y0).1 := by
  induction y0 generalizing s with
  | nil => exact h
  | cons a r ih =>
    unfold State.readFields
    extract_lets v
    have k := ih (s := s.readEffect i a) (readEffect_fr h (hE := sub_left hE)) (sub_right hE)
    clear_value v
    split
    rename_i q
    rw [q] at k
    exact k

theorem readReg_fr {E : Nat} {s0 s : State} (h : Frame E s0 s) {r : Reg} {i : Nat} (hE : Sub (fldl r.fields) E := by
      first
      | assumption
      | exact sub_step (by assumption) (by decide)
      | exact sub_step (sub_step (a := 0xfffff) (by assumption) (by decide)) (part_sub _)
      | (repeat' first | exact sub_zero | refine sub_flds ?_ ?_ | refine sub_fldb ?_ ?_ | exact sub_step (by assumption) (by decide))) :
    Frame E s0 (State.readReg s r i).1 := by
  simp (disch := (
    unfold FrameOf
    unfold State.readReg
    try dsimp only
    repeat' first
      | (with_reducible assumption) | ((with_reducible refine sub_step (by assumption) ?_); first | rfl | decide)
      | (with_reducible apply readFields_fr) | (split) | (intro _) | (refine frame_fst ?_ (by assumption)) | (dsimp only)
      | (with_reducible apply frame_any))) only [framed]

theorem readOut_fr {E : Nat} {s0 s : State} (h : Frame E s0 s) {r : Reg} {i : Nat} (hE : Sub (fldl r.fields) E := by
      first
      | assumption
      | exact sub_step (by assumption) (by decide)
      | exact sub_step (sub_step (a := 0xfffff) (by assumption) (by decide)) (part_sub _)
      | (repeat' first | exact sub_zero | refine sub_flds ?_ ?_ | refine sub_fldb ?_ ?_ | exact sub_step (by assumption) (by decide))) :
    Frame E s0 (State.readOut s r i) := by
  simp (disch := (
    unfold FrameOf
    unfold State.readOut
    try dsimp only
    repeat' first
      | (with_reducible assumption) | ((with_reducible refine sub_step (by assumption) ?_); first | rfl | decide)
      | (with_reducible apply emit_fr) | (with_reducible apply readReg_fr) | (split) | (intro _)
      | (refine frame_fst ?_ (by assumption)) | (dsimp only) | (with_reducible apply frame_any))) only [framed]

end Sys2Proof.Laws
end

