-- ==== Sys2Proof/Laws/FrRevokeOps.lean ====
section
/-! SUPPORT. The frame of every operation of Machine/RevokeOps.lean (`Laws.Frame`). -/

namespace Sys2Proof.Laws

open Sys2Proof.Machine

set_option linter.all false
set_option Elab.async false

theorem revokeSend_fr {E : Nat} {s0 s : State} (h : Frame E s0 s) {slot : Nat} {node : Nat} {kind : Nat} {w : Nat} {origin : Nat} {serial : Nat} (hE : Sub 0x20000 E := by first | assumption | exact sub_step (by assumption) (by decide)) :
    Frame E s0 (State.revokeSend s slot node kind w origin serial) := by
  simp (disch := (
    unfold FrameOf
    unfold State.revokeSend
    try dsimp only
    repeat' first
      | (with_reducible assumption) | ((with_reducible refine sub_step (by assumption) ?_); first | rfl | decide)
      | (with_reducible apply edgeCtx_fr) | (with_reducible apply queuePkt_fr) | (split) | (intro _)
      | (refine frame_fst ?_ (by assumption)) | (dsimp only) | (with_reducible apply frame_any))) only [framed]

theorem revokeArm_fr {E : Nat} {s0 s : State} (h : Frame E s0 s) {slot : Nat} {w : Nat} {origin : Nat} {serial : Nat} :
    Frame E s0 (State.revokeArm s slot w origin serial) := by
  simp (disch := (
    unfold FrameOf
    unfold State.revokeArm
    try dsimp only
    repeat' first
      | (with_reducible assumption) | (with_reducible apply arm_fr) | (with_reducible apply disarm_fr)
      | (with_reducible apply frame_foldl) | (split) | (intro _) | (refine frame_fst ?_ (by assumption)) | (dsimp only)
      | (with_reducible apply frame_any))) only [framed]

theorem updRevoke_fr {E : Nat} {s0 s : State} (h : Frame E s0 s) {p : Revoke → Bool} {f : Revoke → Revoke} :
    Frame E s0 (State.updRevoke s p f) := by
  simp (disch := (
    unfold FrameOf
    unfold State.updRevoke
    try dsimp only
    repeat' first
      | (with_reducible assumption) | (split) | (intro _) | (refine frame_fst ?_ (by assumption)) | (dsimp only)
      | (with_reducible apply frame_any))) only [framed]

theorem revokeEnd_fr {E : Nat} {s0 s : State} (h : Frame E s0 s) {slot : Nat} {w : Nat} {st : WinState} {cause : Nat} (hE : Sub 0xb28002 E := by first | assumption | exact sub_step (by assumption) (by decide)) :
    Frame E s0 (State.revokeEnd s slot w st cause) := by
  simp (disch := (
    unfold FrameOf
    unfold State.revokeEnd
    try dsimp only
    repeat' first
      | (with_reducible assumption) | ((with_reducible refine sub_step (by assumption) ?_); first | rfl | decide)
      | (with_reducible apply disarm_fr) | (with_reducible apply endPriv_fr) | (with_reducible apply revokeArm_fr) | (split)
      | (intro _) | (refine frame_fst ?_ (by assumption)) | (dsimp only) | (with_reducible apply frame_any))) only [framed]

theorem barWindow_fr {E : Nat} {s0 s : State} (h : Frame E s0 s) {slot : Nat} {w : Nat} :
    Frame E s0 (State.barWindow s slot w) := by
  simp (disch := (
    unfold FrameOf
    unfold State.barWindow
    try dsimp only
    repeat' first
      | (with_reducible assumption) | (with_reducible apply forEach_fr) | (with_reducible apply topFail_fr)
      | (with_reducible apply updRx_fr) | (split) | (intro _) | (refine frame_fst ?_ (by assumption)) | (dsimp only)
      | (with_reducible apply frame_any))) only [framed]

theorem revokeClose_fr {E : Nat} {s0 s : State} (h : Frame E s0 s) {slot : Nat} {w : Nat} (hE : Sub 0xb28002 E := by first | assumption | exact sub_step (by assumption) (by decide)) :
    Frame E s0 (State.revokeClose s slot w) := by
  simp (disch := (
    unfold FrameOf
    unfold State.revokeClose
    try dsimp only
    repeat' first
      | (with_reducible assumption) | ((with_reducible refine sub_step (by assumption) ?_); first | rfl | decide)
      | (with_reducible apply revokeEnd_fr) | (split) | (intro _) | (refine frame_fst ?_ (by assumption)) | (dsimp only)
      | (with_reducible apply frame_any))) only [framed]

theorem revokeDone_fr {E : Nat} {s0 s : State} (h : Frame E s0 s) {slot : Nat} {w : Nat} {serial : Nat} (hE : Sub 0xb28002 E := by first | assumption | exact sub_step (by assumption) (by decide)) :
    Frame E s0 (State.revokeDone s slot w serial) := by
  simp (disch := (
    unfold FrameOf
    unfold State.revokeDone
    try dsimp only
    repeat' first
      | (with_reducible assumption) | ((with_reducible refine sub_step (by assumption) ?_); first | rfl | decide)
      | (with_reducible apply barWindow_fr) | (with_reducible apply revokeClose_fr) | (split) | (intro _)
      | (refine frame_fst ?_ (by assumption)) | (dsimp only) | (with_reducible apply frame_any))) only [framed]

theorem revokeAnswer_fr {E : Nat} {s0 s : State} (h : Frame E s0 s) {r : Revoke} {node : Nat} (hE : Sub 0xb28002 E := by first | assumption | exact sub_step (by assumption) (by decide)) :
    Frame E s0 (State.revokeAnswer s r node) := by
  simp (disch := (
    unfold FrameOf
    unfold State.revokeAnswer
    try dsimp only
    repeat' first
      | (with_reducible assumption) | ((with_reducible refine sub_step (by assumption) ?_); first | rfl | decide)
      | (with_reducible apply revokeDone_fr) | (with_reducible apply revokeSend_fr) | (split) | (intro _)
      | (refine frame_fst ?_ (by assumption)) | (dsimp only) | (with_reducible apply frame_any))) only [framed]

theorem revokeSettle_fr {E : Nat} {s0 s : State} (h : Frame E s0 s) (hE : Sub 0xb28002 E := by first | assumption | exact sub_step (by assumption) (by decide)) :
    Frame E s0 (State.revokeSettle s) := by
  simp (disch := (
    unfold FrameOf
    unfold State.revokeSettle
    try dsimp only
    repeat' first
      | (with_reducible assumption) | ((with_reducible refine sub_step (by assumption) ?_); first | rfl | decide)
      | (with_reducible apply forEach_fr) | (with_reducible apply revokeAnswer_fr) | (with_reducible apply revokeClose_fr)
      | (with_reducible apply updRevoke_fr) | (split) | (intro _) | (refine frame_fst ?_ (by assumption)) | (dsimp only)
      | (with_reducible apply frame_any))) only [framed]

theorem revokeBegin_fr {E : Nat} {s0 s : State} (h : Frame E s0 s) {slot : Nat} {w : Nat} {origin : Nat} {serial : Nat} {root : Bool} {parents : List Nat} (hE : Sub 0xb28002 E := by first | assumption | exact sub_step (by assumption) (by decide)) :
    Frame E s0 (State.revokeBegin s slot w origin serial root parents) := by
  simp (disch := (
    unfold FrameOf
    unfold State.revokeBegin
    try dsimp only
    repeat' first
      | (with_reducible assumption) | ((with_reducible refine sub_step (by assumption) ?_); first | rfl | decide)
      | (with_reducible apply forEach_fr) | (with_reducible apply revokeArm_fr) | (with_reducible apply revokeSend_fr)
      | (with_reducible apply revokeSettle_fr) | (split) | (intro _) | (refine frame_fst ?_ (by assumption)) | (dsimp only)
      | (with_reducible apply frame_any))) only [framed]

theorem revokeStart_fr {E : Nat} {s0 s : State} (h : Frame E s0 s) {slot : Nat} {w : Nat} {serial : Nat} {src : Requester} (hE : Sub 0xb28002 E := by first | assumption | exact sub_step (by assumption) (by decide)) :
    Frame E s0 (State.revokeStart s slot w serial src) := by
  simp (disch := (
    unfold FrameOf
    unfold State.revokeStart
    try dsimp only
    repeat' first
      | (with_reducible assumption) | ((with_reducible refine sub_step (by assumption) ?_); first | rfl | decide)
      | (with_reducible apply armIn_fr) | (with_reducible apply revokeArm_fr) | (with_reducible apply revokeBegin_fr)
      | (with_reducible apply revokeSend_fr) | (split) | (intro _) | (refine frame_fst ?_ (by assumption)) | (dsimp only)
      | (with_reducible apply frame_any))) only [framed]

theorem revokeIn_fr {E : Nat} {s0 s : State} (h : Frame E s0 s) {slot : Nat} {node : Nat} {w : Nat} {origin : Nat} {serial : Nat} (hE : Sub 0xb28002 E := by first | assumption | exact sub_step (by assumption) (by decide)) :
    Frame E s0 (State.revokeIn s slot node w origin serial) := by
  simp (disch := (
    unfold FrameOf
    unfold State.revokeIn
    try dsimp only
    repeat' first
      | (with_reducible assumption) | ((with_reducible refine sub_step (by assumption) ?_); first | rfl | decide)
      | (with_reducible apply revokeAnswer_fr) | (with_reducible apply revokeBegin_fr) | (with_reducible apply updRevoke_fr)
      | (split) | (intro _) | (refine frame_fst ?_ (by assumption)) | (dsimp only) | (with_reducible apply frame_any))) only [framed]

theorem confirmIn_fr {E : Nat} {s0 s : State} (h : Frame E s0 s) {slot : Nat} {node : Nat} {w : Nat} {origin : Nat} {serial : Nat} (hE : Sub 0xb28002 E := by first | assumption | exact sub_step (by assumption) (by decide)) :
    Frame E s0 (State.confirmIn s slot node w origin serial) := by
  simp (disch := (
    unfold FrameOf
    unfold State.confirmIn
    try dsimp only
    repeat' first
      | (with_reducible assumption) | ((with_reducible refine sub_step (by assumption) ?_); first | rfl | decide)
      | (with_reducible apply revokeArm_fr) | (with_reducible apply revokeSettle_fr) | (with_reducible apply updRevoke_fr)
      | (split) | (intro _) | (refine frame_fst ?_ (by assumption)) | (dsimp only) | (with_reducible apply frame_any))) only [framed]

theorem revokeAgain_fr {E : Nat} {s0 s : State} (h : Frame E s0 s) {r : Revoke} (hE : Sub 0x20000 E := by first | assumption | exact sub_step (by assumption) (by decide)) :
    Frame E s0 (State.revokeAgain s r) := by
  simp (disch := (
    unfold FrameOf
    unfold State.revokeAgain
    try dsimp only
    repeat' first
      | (with_reducible assumption) | ((with_reducible refine sub_step (by assumption) ?_); first | rfl | decide)
      | (with_reducible apply forEach_fr) | (with_reducible apply revokeSend_fr) | (with_reducible apply updRevoke_fr) | (split)
      | (intro _) | (refine frame_fst ?_ (by assumption)) | (dsimp only) | (with_reducible apply frame_any))) only [framed]

theorem revokeDue_fr {E : Nat} {s0 s : State} (h : Frame E s0 s) {slot : Nat} {w : Nat} {origin : Nat} {serial : Nat} (hE : Sub 0x20000 E := by first | assumption | exact sub_step (by assumption) (by decide)) :
    Frame E s0 (State.revokeDue s slot w origin serial) := by
  simp (disch := (
    unfold FrameOf
    unfold State.revokeDue
    try dsimp only
    repeat' first
      | (with_reducible assumption) | ((with_reducible refine sub_step (by assumption) ?_); first | rfl | decide)
      | (with_reducible apply forEach_fr) | (with_reducible apply revokeAgain_fr) | (with_reducible apply revokeArm_fr)
      | (split) | (intro _) | (refine frame_fst ?_ (by assumption)) | (dsimp only) | (with_reducible apply frame_any))) only [framed]

theorem revokeExpire_fr {E : Nat} {s0 s : State} (h : Frame E s0 s) {slot : Nat} {w : Nat} (hE : Sub 0xb28002 E := by first | assumption | exact sub_step (by assumption) (by decide)) :
    Frame E s0 (State.revokeExpire s slot w) := by
  simp (disch := (
    unfold FrameOf
    unfold State.revokeExpire
    try dsimp only
    repeat' first
      | (with_reducible assumption) | ((with_reducible refine sub_step (by assumption) ?_); first | rfl | decide)
      | (with_reducible apply revokeEnd_fr) | (split) | (intro _) | (refine frame_fst ?_ (by assumption)) | (dsimp only)
      | (with_reducible apply frame_any))) only [framed]

theorem revokeMsg_fr {E : Nat} {s0 s : State} (h : Frame E s0 s) {c : Nat} {kind : Nat} {w : Nat} {origin : Nat} {serial : Nat} (hE : Sub 0xb28002 E := by first | assumption | exact sub_step (by assumption) (by decide)) :
    Frame E s0 (State.revokeMsg s c kind w origin serial) := by
  simp (disch := (
    unfold FrameOf
    unfold State.revokeMsg
    try dsimp only
    repeat' first
      | (with_reducible assumption) | ((with_reducible refine sub_step (by assumption) ?_); first | rfl | decide)
      | (with_reducible apply confirmIn_fr) | (with_reducible apply revokeDone_fr) | (with_reducible apply revokeIn_fr)
      | (split) | (intro _) | (refine frame_fst ?_ (by assumption)) | (dsimp only) | (with_reducible apply frame_any))) only [framed]

end Sys2Proof.Laws
end

