-- ==== Sys2Proof/Laws/FrXferReq.lean ====
section
/-! SUPPORT. The frame of every operation of Machine/XferReq.lean (`Laws.Frame`). -/

namespace Sys2Proof.Laws

open Sys2Proof.Machine

set_option linter.all false
set_option Elab.async false

theorem queueData_fr {E : Nat} {s0 s : State} (h : Frame E s0 s) {m : Nat} {off : Nat} {bytes : List Byte} {last : Bool} (hE : Sub 0x20000 E := by first | assumption | exact sub_step (by assumption) (by decide)) :
    Frame E s0 (State.queueData s m off bytes last) := by
  simp (disch := (
    unfold FrameOf
    unfold State.queueData
    try dsimp only
    repeat' first
      | (with_reducible assumption) | ((with_reducible refine sub_step (by assumption) ?_); first | rfl | decide)
      | (with_reducible apply queuePkt_fr) | (with_reducible apply updM_fr) | (split) | (intro _)
      | (refine frame_fst ?_ (by assumption)) | (dsimp only) | (with_reducible apply frame_any))) only [framed]

theorem queueAbort_fr {E : Nat} {s0 s : State} (h : Frame E s0 s) {m : Nat} {off : Nat} (hE : Sub 0x20000 E := by first | assumption | exact sub_step (by assumption) (by decide)) :
    Frame E s0 (State.queueAbort s m off) := by
  simp (disch := (
    unfold FrameOf
    unfold State.queueAbort
    try dsimp only
    repeat' first
      | (with_reducible assumption) | ((with_reducible refine sub_step (by assumption) ?_); first | rfl | decide)
      | (with_reducible apply queuePkt_fr) | (with_reducible apply updM_fr) | (split) | (intro _)
      | (refine frame_fst ?_ (by assumption)) | (dsimp only) | (with_reducible apply frame_any))) only [framed]

theorem dropWaiting_fr {E : Nat} {s0 s : State} (h : Frame E s0 s) {c : Nat} {m : Nat} :
    Frame E s0 (State.dropWaiting s c m) := by
  simp (disch := (
    unfold FrameOf
    unfold State.dropWaiting
    try dsimp only
    repeat' first
      | (with_reducible assumption) | (with_reducible apply updTx_fr) | (split) | (intro _)
      | (refine frame_fst ?_ (by assumption)) | (dsimp only) | (with_reducible apply frame_any))) only [framed]

theorem dropData_fr {E : Nat} {s0 s : State} (h : Frame E s0 s) {c : Nat} {m : Nat} :
    Frame E s0 (State.dropData s c m) := by
  simp (disch := (
    unfold FrameOf
    unfold State.dropData
    try dsimp only
    repeat' first
      | (with_reducible assumption) | (with_reducible apply dropWaiting_fr) | (with_reducible apply updTx_fr) | (split)
      | (intro _) | (refine frame_fst ?_ (by assumption)) | (dsimp only) | (with_reducible apply frame_any))) only [framed]

theorem dropSent_fr {E : Nat} {s0 s : State} (h : Frame E s0 s) {c : Nat} {m : Nat} :
    Frame E s0 (State.dropSent s c m) := by
  simp (disch := (
    unfold FrameOf
    unfold State.dropSent
    try dsimp only
    repeat' first
      | (with_reducible assumption) | (with_reducible apply updTx_fr) | (split) | (intro _)
      | (refine frame_fst ?_ (by assumption)) | (dsimp only) | (with_reducible apply frame_any))) only [framed]

theorem endEarly_fr {E : Nat} {s0 s : State} (h : Frame E s0 s) {m : Nat} {r : OpEnd} (hE : Sub 0x6f2b43b E := by first | assumption | exact sub_step (by assumption) (by decide)) :
    Frame E s0 (State.endEarly s m r) := by
  simp (disch := (
    unfold FrameOf
    unfold State.endEarly
    try dsimp only
    repeat' first
      | (with_reducible assumption) | ((with_reducible refine sub_step (by assumption) ?_); first | rfl | decide)
      | (with_reducible apply endOpClose_fr) | (split) | (intro _) | (refine frame_fst ?_ (by assumption)) | (dsimp only)
      | (with_reducible apply frame_any))) only [framed]

theorem opCheck_fr {E : Nat} {s0 s : State} (h : Frame E s0 s) {m : Nat} (hE : Sub 0x6f2b43b E := by first | assumption | exact sub_step (by assumption) (by decide)) :
    Frame E s0 (State.opCheck s m) := by
  simp (disch := (
    unfold FrameOf
    unfold State.opCheck
    try dsimp only
    repeat' first
      | (with_reducible assumption) | ((with_reducible refine sub_step (by assumption) ?_); first | rfl | decide)
      | (with_reducible apply endOpClose_fr) | (with_reducible apply startFlush_fr) | (with_reducible apply startXfer_fr)
      | (with_reducible apply translateRange_fr) | (with_reducible apply updM_fr) | (split) | (intro _)
      | (refine frame_fst ?_ (by assumption)) | (dsimp only) | (with_reducible apply frame_any))) only [framed]

theorem opFail_fr {E : Nat} {s0 s : State} (h : Frame E s0 s) {m : Nat} {cause : Nat} (hE : Sub 0x6f2b43b E := by first | assumption | exact sub_step (by assumption) (by decide)) :
    Frame E s0 (State.opFail s m cause) := by
  simp (disch := (
    unfold FrameOf
    unfold State.opFail
    try dsimp only
    repeat' first
      | (with_reducible assumption) | ((with_reducible refine sub_step (by assumption) ?_); first | rfl | decide)
      | (with_reducible apply dropData_fr) | (with_reducible apply dropWaiting_fr) | (with_reducible apply endEarly_fr)
      | (with_reducible apply endOpClose_fr) | (with_reducible apply opCheck_fr) | (with_reducible apply queueAbort_fr)
      | (with_reducible apply updM_fr) | (split) | (intro _) | (refine frame_fst ?_ (by assumption)) | (dsimp only)
      | (with_reducible apply frame_any))) only [framed]

theorem readSource_fr {E : Nat} {s0 s : State} (h : Frame E s0 s) {m : Nat} {off : Nat} {n : Nat} {re : Option Nat} (hE : Sub 0x28000 E := by first | assumption | exact sub_step (by assumption) (by decide)) :
    Frame E s0 (State.readSource s m off n re).1 := by
  simp (disch := (
    unfold FrameOf
    unfold State.readSource
    try dsimp only
    repeat' first
      | (with_reducible assumption) | ((with_reducible refine sub_step (by assumption) ?_); first | rfl | decide)
      | (with_reducible apply startXfer_fr) | (with_reducible apply translateRange_fr) | (with_reducible apply updM_fr)
      | (split) | (intro _) | (refine frame_fst ?_ (by assumption)) | (dsimp only) | (with_reducible apply frame_any))) only [framed]

theorem pumpEntry_fr {E : Nat} {s0 s : State} (h : Frame E s0 s) {m : Nat} (hE : Sub 0x6f2b43b E := by first | assumption | exact sub_step (by assumption) (by decide)) :
    Frame E s0 (State.pumpEntry s m) := by
  simp (disch := (
    unfold FrameOf
    unfold State.pumpEntry
    try dsimp only
    repeat' first
      | (with_reducible assumption) | ((with_reducible refine sub_step (by assumption) ?_); first | rfl | decide)
      | (with_reducible apply grant_fr) | (with_reducible apply opFail_fr) | (with_reducible apply queueData_fr)
      | (with_reducible apply readSource_fr) | (split) | (intro _) | (refine frame_fst ?_ (by assumption)) | (dsimp only)
      | (with_reducible apply frame_any))) only [framed]

theorem pumpCtx_fr {E : Nat} {s0 s : State} (h : Frame E s0 s) {c : Nat} (hE : Sub 0x6f2b43b E := by first | assumption | exact sub_step (by assumption) (by decide)) :
    Frame E s0 (State.pumpCtx s c) := by
  simp (disch := (
    unfold FrameOf
    unfold State.pumpCtx
    try dsimp only
    repeat' first
      | (with_reducible assumption) | ((with_reducible refine sub_step (by assumption) ?_); first | rfl | decide)
      | (with_reducible apply forEach_fr) | (with_reducible apply pumpEntry_fr) | (split) | (intro _)
      | (refine frame_fst ?_ (by assumption)) | (dsimp only) | (with_reducible apply frame_any))) only [framed]

theorem resend_fr {E : Nat} {s0 s : State} (h : Frame E s0 s) {c : Nat} {st : Nat} {psn : Nat} {f : Packet → Packet} :
    Frame E s0 (State.resend s c st psn f) := by
  simp (disch := (
    unfold FrameOf
    unfold State.resend
    try dsimp only
    repeat' first
      | (with_reducible assumption) | (with_reducible apply updTx_fr) | (split) | (intro _)
      | (refine frame_fst ?_ (by assumption)) | (dsimp only) | (with_reducible apply frame_any))) only [framed]

theorem sourceIn_fr {E : Nat} {s0 s : State} (h : Frame E s0 s) {m : Nat} {off : Nat} {n : Nat} {re : Option Nat} {ok : Bool} {bytes : List Byte} (hE : Sub 0x6f2b43b E := by first | assumption | exact sub_step (by assumption) (by decide)) :
    Frame E s0 (State.sourceIn s m off n re ok bytes) := by
  simp (disch := (
    unfold FrameOf
    unfold State.sourceIn
    try dsimp only
    repeat' first
      | (with_reducible assumption) | ((with_reducible refine sub_step (by assumption) ?_); first | rfl | decide)
      | (with_reducible apply dropData_fr) | (with_reducible apply opCheck_fr) | (with_reducible apply opFail_fr)
      | (with_reducible apply pumpCtx_fr) | (with_reducible apply queueData_fr) | (with_reducible apply resend_fr)
      | (with_reducible apply updM_fr) | (split) | (intro _) | (refine frame_fst ?_ (by assumption)) | (dsimp only)
      | (with_reducible apply frame_any))) only [framed]

theorem retransmitData_fr {E : Nat} {s0 s : State} (h : Frame E s0 s) {c : Nat} {psn : Nat} {p : Packet} (hE : Sub 0x28000 E := by first | assumption | exact sub_step (by assumption) (by decide)) :
    Frame E s0 (State.retransmitData s c psn p) := by
  simp (disch := (
    unfold FrameOf
    unfold State.retransmitData
    try dsimp only
    repeat' first
      | (with_reducible assumption) | ((with_reducible refine sub_step (by assumption) ?_); first | rfl | decide)
      | (with_reducible apply dropData_fr) | (with_reducible apply readSource_fr) | (with_reducible apply resend_fr)
      | (with_reducible apply updM_fr) | (split) | (intro _) | (refine frame_fst ?_ (by assumption)) | (dsimp only)
      | (with_reducible apply frame_any))) only [framed]

theorem fillCredit_fr {E : Nat} {s0 s : State} (h : Frame E s0 s) {c : Nat} {st : Nat} {m : Nat} {n : Nat} (hE : Sub 0x20000 E := by first | assumption | exact sub_step (by assumption) (by decide)) :
    Frame E s0 (State.fillCredit s c st m n) := by
  simp (disch := (
    unfold FrameOf
    unfold State.fillCredit
    try dsimp only
    repeat' first
      | (with_reducible assumption) | ((with_reducible refine sub_step (by assumption) ?_); first | rfl | decide)
      | (with_reducible apply grant_fr) | (split) | (intro _) | (refine frame_fst ?_ (by assumption)) | (dsimp only)
      | (with_reducible apply frame_any))) only [framed]

theorem openCredit_fr {E : Nat} {s0 s : State} (h : Frame E s0 s) {c : Nat} {st : Nat} {m : Nat} {total : Nat} {before : Nat} {creq : Bool} (hE : Sub 0x20000 E := by first | assumption | exact sub_step (by assumption) (by decide)) :
    Frame E s0 (State.openCredit s c st m total before creq) := by
  simp (disch := (
    unfold FrameOf
    unfold State.openCredit
    try dsimp only
    repeat' first
      | (with_reducible assumption) | ((with_reducible refine sub_step (by assumption) ?_); first | rfl | decide)
      | (with_reducible apply grant_fr) | (split) | (intro _) | (refine frame_fst ?_ (by assumption)) | (dsimp only)
      | (with_reducible apply frame_any))) only [framed]

theorem landed_fr {E : Nat} {s0 s : State} (h : Frame E s0 s) {m : Nat} {n : Nat} {fail : Option Nat} :
    Frame E s0 (State.landed s m n fail) := by
  simp (disch := (
    unfold FrameOf
    unfold State.landed
    try dsimp only
    repeat' first
      | (with_reducible assumption) | (with_reducible apply updM_fr) | (split) | (intro _)
      | (refine frame_fst ?_ (by assumption)) | (dsimp only) | (with_reducible apply frame_any))) only [framed]

theorem landIn_fr {E : Nat} {s0 s : State} (h : Frame E s0 s) {c : Nat} {p : Packet} {bytes : List Byte} (hE : Sub 0x528000 E := by first | assumption | exact sub_step (by assumption) (by decide)) :
    Frame E s0 (State.landIn s c p bytes) := by
  simp (disch := (
    unfold FrameOf
    unfold State.landIn
    try dsimp only
    repeat' first
      | (with_reducible assumption) | ((with_reducible refine sub_step (by assumption) ?_); first | rfl | decide)
      | (with_reducible apply fillCredit_fr) | (with_reducible apply landed_fr) | (with_reducible apply openCredit_fr)
      | (with_reducible apply startXfer_fr) | (with_reducible apply translateRange_fr) | (with_reducible apply updM_fr)
      | (with_reducible apply writeLocal_fr) | (split) | (intro _) | (refine frame_fst ?_ (by assumption)) | (dsimp only)
      | (with_reducible apply frame_any))) only [framed]

theorem landOver_fr {E : Nat} {s0 s : State} (h : Frame E s0 s) {m : Nat} {n : Nat} {ok : Bool} (hE : Sub 0x6f2b43b E := by first | assumption | exact sub_step (by assumption) (by decide)) :
    Frame E s0 (State.landOver s m n ok) := by
  simp (disch := (
    unfold FrameOf
    unfold State.landOver
    try dsimp only
    repeat' first
      | (with_reducible assumption) | ((with_reducible refine sub_step (by assumption) ?_); first | rfl | decide)
      | (with_reducible apply landed_fr) | (with_reducible apply opCheck_fr) | (with_reducible apply updM_fr) | (split)
      | (intro _) | (refine frame_fst ?_ (by assumption)) | (dsimp only) | (with_reducible apply frame_any))) only [framed]

theorem resultOver_fr {E : Nat} {s0 s : State} (h : Frame E s0 s) {m : Nat} {ok : Bool} (hE : Sub 0x6f2b43b E := by first | assumption | exact sub_step (by assumption) (by decide)) :
    Frame E s0 (State.resultOver s m ok) := by
  simp (disch := (
    unfold FrameOf
    unfold State.resultOver
    try dsimp only
    repeat' first
      | (with_reducible assumption) | ((with_reducible refine sub_step (by assumption) ?_); first | rfl | decide)
      | (with_reducible apply opCheck_fr) | (with_reducible apply updM_fr) | (split) | (intro _)
      | (refine frame_fst ?_ (by assumption)) | (dsimp only) | (with_reducible apply frame_any))) only [framed]

theorem flushMOver_fr {E : Nat} {s0 s : State} (h : Frame E s0 s) {m : Nat} (hE : Sub 0x6f2b43b E := by first | assumption | exact sub_step (by assumption) (by decide)) :
    Frame E s0 (State.flushMOver s m) := by
  simp (disch := (
    unfold FrameOf
    unfold State.flushMOver
    try dsimp only
    repeat' first
      | (with_reducible assumption) | ((with_reducible refine sub_step (by assumption) ?_); first | rfl | decide)
      | (with_reducible apply opCheck_fr) | (with_reducible apply updM_fr) | (split) | (intro _)
      | (refine frame_fst ?_ (by assumption)) | (dsimp only) | (with_reducible apply frame_any))) only [framed]

theorem statusIn_fr {E : Nat} {s0 s : State} (h : Frame E s0 s) {c : Nat} {e : StatusEntry} (hE : Sub 0x6f2b43b E := by first | assumption | exact sub_step (by assumption) (by decide)) :
    Frame E s0 (State.statusIn s c e) := by
  simp (disch := (
    unfold FrameOf
    unfold State.statusIn
    try dsimp only
    repeat' first
      | (with_reducible assumption) | ((with_reducible refine sub_step (by assumption) ?_); first | rfl | decide)
      | (with_reducible apply dropSent_fr) | (with_reducible apply opCheck_fr) | (with_reducible apply updM_fr) | (split)
      | (intro _) | (refine frame_fst ?_ (by assumption)) | (dsimp only) | (with_reducible apply frame_any))) only [framed]

theorem opCancel_fr {E : Nat} {s0 s : State} (h : Frame E s0 s) {m : Nat} (hE : Sub 0x6f2b43b E := by first | assumption | exact sub_step (by assumption) (by decide)) :
    Frame E s0 (State.opCancel s m).1 := by
  simp (disch := (
    unfold FrameOf
    unfold State.opCancel
    try dsimp only
    repeat' first
      | (with_reducible assumption) | ((with_reducible refine sub_step (by assumption) ?_); first | rfl | decide)
      | (with_reducible apply dropWaiting_fr) | (with_reducible apply endOpClose_fr) | (with_reducible apply opCheck_fr)
      | (with_reducible apply queueAbort_fr) | (with_reducible apply updM_fr) | (split) | (intro _)
      | (refine frame_fst ?_ (by assumption)) | (dsimp only) | (with_reducible apply frame_any))) only [framed]

theorem opRetire_fr {E : Nat} {s0 s : State} (h : Frame E s0 s) {m : Nat} (hE : Sub 0x6f2b43b E := by first | assumption | exact sub_step (by assumption) (by decide)) :
    Frame E s0 (State.opRetire s m) := by
  simp (disch := (
    unfold FrameOf
    unfold State.opRetire
    try dsimp only
    repeat' first
      | (with_reducible assumption) | ((with_reducible refine sub_step (by assumption) ?_); first | rfl | decide)
      | (with_reducible apply dropWaiting_fr) | (with_reducible apply endEarly_fr) | (with_reducible apply endOpClose_fr)
      | (with_reducible apply queueAbort_fr) | (split) | (intro _) | (refine frame_fst ?_ (by assumption)) | (dsimp only)
      | (with_reducible apply frame_any))) only [framed]

end Sys2Proof.Laws
end

