-- ==== Sys2Proof/Laws/FrXferTgt.lean ====
section
/-! SUPPORT. The frame of every operation of Machine/XferTgt.lean (`Laws.Frame`). -/

namespace Sys2Proof.Laws

open Sys2Proof.Machine

set_option linter.all false
set_option Elab.async false

theorem tgtSegs_fr {E : Nat} {s0 s : State} (h : Frame E s0 s) {d : Descr} {win : Bool} {key : Nat} {off : Nat} {n : Nat} {needR : Bool} {needW : Bool} (hE : Sub 0x28000 E := by first | assumption | exact sub_step (by assumption) (by decide)) :
    Frame E s0 (State.tgtSegs s d win key off n needR needW).1 := by
  simp (disch := (
    unfold FrameOf
    unfold State.tgtSegs
    try dsimp only
    repeat' first
      | (with_reducible assumption) | ((with_reducible refine sub_step (by assumption) ?_); first | rfl | decide)
      | (with_reducible apply translateRange_fr) | (split) | (intro _) | (refine frame_fst ?_ (by assumption)) | (dsimp only)
      | (with_reducible apply frame_any))) only [framed]

theorem topCheck_fr {E : Nat} {s0 s : State} (h : Frame E s0 s) {c : Nat} {m : Nat} (hE : Sub 0x820000 E := by first | assumption | exact sub_step (by assumption) (by decide)) :
    Frame E s0 (State.topCheck s c m) := by
  simp (disch := (
    unfold FrameOf
    unfold State.topCheck
    try dsimp only
    repeat' first
      | (with_reducible assumption) | ((with_reducible refine sub_step (by assumption) ?_); first | rfl | decide)
      | (with_reducible apply bumpField_fr) | (with_reducible apply sendStatus_fr) | (with_reducible apply startFlush_fr)
      | (with_reducible apply updTop_fr) | (split) | (intro _) | (refine frame_fst ?_ (by assumption)) | (dsimp only)
      | (with_reducible apply frame_any))) only [framed]

theorem tgtPlace_fr {E : Nat} {s0 s : State} (h : Frame E s0 s) {c : Nat} {p : Packet} {slot : Nat} {blk : OpBlock} {bytes : List Byte} (hE : Sub 0x28000 E := by first | assumption | exact sub_step (by assumption) (by decide)) :
    Frame E s0 (State.tgtPlace s c p slot blk bytes) := by
  simp (disch := (
    unfold FrameOf
    unfold State.tgtPlace
    try dsimp only
    repeat' first
      | (with_reducible assumption) | ((with_reducible refine sub_step (by assumption) ?_); first | rfl | decide)
      | (with_reducible apply startXfer_fr) | (with_reducible apply tgtSegs_fr) | (with_reducible apply topFail_fr)
      | (with_reducible apply updTop_fr) | (split) | (intro _) | (refine frame_fst ?_ (by assumption)) | (dsimp only)
      | (with_reducible apply frame_any))) only [framed]

theorem placeOver_fr {E : Nat} {s0 s : State} (h : Frame E s0 s) {c : Nat} {m : Nat} {off : Nat} {ok : Bool} (hE : Sub 0x820000 E := by first | assumption | exact sub_step (by assumption) (by decide)) :
    Frame E s0 (State.placeOver s c m off ok) := by
  simp (disch := (
    unfold FrameOf
    unfold State.placeOver
    try dsimp only
    repeat' first
      | (with_reducible assumption) | ((with_reducible refine sub_step (by assumption) ?_); first | rfl | decide)
      | (with_reducible apply topCheck_fr) | (with_reducible apply topFail_fr) | (with_reducible apply updTop_fr) | (split)
      | (intro _) | (refine frame_fst ?_ (by assumption)) | (dsimp only) | (with_reducible apply frame_any))) only [framed]

theorem askAtomic_fr {E : Nat} {s0 s : State} (h : Frame E s0 s) {c : Nat} {m : Nat} {tries : Nat} {expect : Option Nat} {seg : Loc × Nat} {blk : OpBlock} {bytes : List Byte} (hE : Sub 0x20000 E := by first | assumption | exact sub_step (by assumption) (by decide)) :
    Frame E s0 (State.askAtomic s c m tries expect seg blk bytes) := by
  simp (disch := (
    unfold FrameOf
    unfold State.askAtomic
    try dsimp only
    repeat' first
      | (with_reducible assumption) | ((with_reducible refine sub_step (by assumption) ?_); first | rfl | decide)
      | (with_reducible apply armIn_fr) | (with_reducible apply count_fr) | (with_reducible apply emit_fr)
      | (with_reducible apply idNext_fr) | (split) | (intro _) | (refine frame_fst ?_ (by assumption)) | (dsimp only)
      | (with_reducible apply frame_any))) only [framed]

theorem tgtAtomic_fr {E : Nat} {s0 s : State} (h : Frame E s0 s) {c : Nat} {p : Packet} {slot : Nat} {blk : OpBlock} {bytes : List Byte} (hE : Sub 0x28000 E := by first | assumption | exact sub_step (by assumption) (by decide)) :
    Frame E s0 (State.tgtAtomic s c p slot blk bytes) := by
  simp (disch := (
    unfold FrameOf
    unfold State.tgtAtomic
    try dsimp only
    repeat' first
      | (with_reducible assumption) | ((with_reducible refine sub_step (by assumption) ?_); first | rfl | decide)
      | (with_reducible apply askAtomic_fr) | (with_reducible apply count_fr) | (with_reducible apply idNext_fr)
      | (with_reducible apply tgtSegs_fr) | (with_reducible apply topFail_fr) | (with_reducible apply updTop_fr) | (split)
      | (intro _) | (refine frame_fst ?_ (by assumption)) | (dsimp only) | (with_reducible apply frame_any))) only [framed]

theorem memAtomicOver_fr {E : Nat} {s0 s : State} (h : Frame E s0 s) {c : Nat} {m : Nat} {segs : List (Loc × Nat)} {bytes : List Byte} {ok : Bool} (hE : Sub 0xb20000 E := by first | assumption | exact sub_step (by assumption) (by decide)) :
    Frame E s0 (State.memAtomicOver s c m segs bytes ok) := by
  simp (disch := (
    unfold FrameOf
    unfold State.memAtomicOver
    try dsimp only
    repeat' first
      | (with_reducible assumption) | ((with_reducible refine sub_step (by assumption) ?_); first | rfl | decide)
      | (with_reducible apply topCheck_fr) | (with_reducible apply topFail_fr) | (with_reducible apply updTop_fr)
      | (with_reducible apply writeLoc_fr) | (split) | (intro _) | (refine frame_fst ?_ (by assumption)) | (dsimp only)
      | (with_reducible apply frame_any))) only [framed]

theorem atomicOver_fr {E : Nat} {s0 s : State} (h : Frame E s0 s) {id : Nat} {c : Nat} {m : Nat} {tries : Nat} {expect : Option Nat} {segs : List (Loc × Nat)} {bytes : List Byte} {mismatch : Bool} {old : Nat} (hE : Sub 0x4f28402 E := by first | assumption | exact sub_step (by assumption) (by decide)) :
    Frame E s0 (State.atomicOver s id c m tries expect segs bytes mismatch old) := by
  unfold State.atomicOver
  extract_lets s1
  replace h : Frame E s0 s1 := endXfer_fr h
  clear_value s1
  split
  · rename_i t l n r _
    split
    · rename_i length _ operand _
      extract_lets w old1 endOp put
      have ho : ∀ z, Frame E s0 z → Frame E s0 (endOp z) := fun z k => topCheck_fr (updTop_fr k)
      have hp : ∀ z v, Frame E s0 z → Frame E s0 (put z v) := by
        intro z v k
        subst put
        dsimp only
        split
        · exact frame_hostMem k fun hm => memWrite_wf _ _ hm
        · exact k
      clear_value put endOp old1 w
      refine frame_ite (ho _ (hp _ _ h)) ?_
      split
      · exact askAtomic_fr h
      · refine frame_ite (ho _ (hp _ _ h)) ?_
        exact frame_ite (topCheck_fr (topFail_fr (updTop_fr h))) (askAtomic_fr h)
    · exact h
  · exact h

theorem pullFail_fr {E : Nat} {s0 s : State} (h : Frame E s0 s) {t : TOp} {cause : Nat} :
    Frame E s0 (State.pullFail s t cause) := by
  simp (disch := (
    unfold FrameOf
    unfold State.pullFail
    try dsimp only
    repeat' first
      | (with_reducible assumption) | (with_reducible apply updM_fr) | (split) | (intro _)
      | (refine frame_fst ?_ (by assumption)) | (dsimp only) | (with_reducible apply frame_any))) only [framed]

theorem serveSegs_fr {E : Nat} {s0 s : State} (h : Frame E s0 s) {t : TOp} {off : Nat} {n : Nat} (hE : Sub 0x28000 E := by first | assumption | exact sub_step (by assumption) (by decide)) :
    Frame E s0 (State.serveSegs s t off n).1 := by
  simp (disch := (
    unfold FrameOf
    unfold State.serveSegs
    try dsimp only
    repeat' first
      | (with_reducible assumption) | ((with_reducible refine sub_step (by assumption) ?_); first | rfl | decide)
      | (with_reducible apply tgtSegs_fr) | (with_reducible apply translateRange_fr) | (split) | (intro _)
      | (refine frame_fst ?_ (by assumption)) | (dsimp only) | (with_reducible apply frame_any))) only [framed]

theorem topServe_fr {E : Nat} {s0 s : State} (h : Frame E s0 s) {c : Nat} {m : Nat} (hE : Sub 0x828000 E := by first | assumption | exact sub_step (by assumption) (by decide)) :
    Frame E s0 (State.topServe s c m) := by
  simp (disch := (
    unfold FrameOf
    unfold State.topServe
    try dsimp only
    repeat' first
      | (with_reducible assumption) | ((with_reducible refine sub_step (by assumption) ?_); first | rfl | decide)
      | (with_reducible apply grant_fr) | (with_reducible apply pullFail_fr) | (with_reducible apply serveSegs_fr)
      | (with_reducible apply startXfer_fr) | (with_reducible apply topCheck_fr) | (with_reducible apply topFail_fr)
      | (with_reducible apply updTop_fr) | (split) | (intro _) | (refine frame_fst ?_ (by assumption)) | (dsimp only)
      | (with_reducible apply frame_any))) only [framed]

theorem serveOver_fr {E : Nat} {s0 s : State} (h : Frame E s0 s) {c : Nat} {m : Nat} {off : Nat} {n : Nat} {re : Option Nat} {ok : Bool} {bytes : List Byte} (hE : Sub 0x828000 E := by first | assumption | exact sub_step (by assumption) (by decide)) :
    Frame E s0 (State.serveOver s c m off n re ok bytes) := by
  simp (disch := (
    unfold FrameOf
    unfold State.serveOver
    try dsimp only
    repeat' first
      | (with_reducible assumption) | ((with_reducible refine sub_step (by assumption) ?_); first | rfl | decide)
      | (with_reducible apply bumpField_fr) | (with_reducible apply fin_fr) | (with_reducible apply pullFail_fr)
      | (with_reducible apply queueResp_fr) | (with_reducible apply resend_fr) | (with_reducible apply topCheck_fr)
      | (with_reducible apply topFail_fr) | (with_reducible apply topServe_fr) | (with_reducible apply updTop_fr) | (split)
      | (intro _) | (refine frame_fst ?_ (by assumption)) | (dsimp only) | (with_reducible apply frame_any))) only [framed]

theorem tgtGet_fr {E : Nat} {s0 s : State} (h : Frame E s0 s) {c : Nat} {p : Packet} {slot : Nat} {blk : OpBlock} (hE : Sub 0x828000 E := by first | assumption | exact sub_step (by assumption) (by decide)) :
    Frame E s0 (State.tgtGet s c p slot blk) := by
  simp (disch := (
    unfold FrameOf
    unfold State.tgtGet
    try dsimp only
    repeat' first
      | (with_reducible assumption) | ((with_reducible refine sub_step (by assumption) ?_); first | rfl | decide)
      | (with_reducible apply topFail_fr) | (with_reducible apply topServe_fr) | (with_reducible apply updTop_fr) | (split)
      | (intro _) | (refine frame_fst ?_ (by assumption)) | (dsimp only) | (with_reducible apply frame_any))) only [framed]

theorem tgtPull_fr {E : Nat} {s0 s : State} (h : Frame E s0 s) {c : Nat} {p : Packet} {slot : Nat} {length : Nat} {handle : Nat} (hE : Sub 0x828000 E := by first | assumption | exact sub_step (by assumption) (by decide)) :
    Frame E s0 (State.tgtPull s c p slot length handle) := by
  simp (disch := (
    unfold FrameOf
    unfold State.tgtPull
    try dsimp only
    repeat' first
      | (with_reducible assumption) | ((with_reducible refine sub_step (by assumption) ?_); first | rfl | decide)
      | (with_reducible apply pullFail_fr) | (with_reducible apply topFail_fr) | (with_reducible apply topServe_fr)
      | (with_reducible apply translateRange_fr) | (with_reducible apply updM_fr) | (with_reducible apply updTop_fr)
      | (with_reducible apply watch_fr) | (split) | (intro _) | (refine frame_fst ?_ (by assumption)) | (dsimp only)
      | (with_reducible apply frame_any))) only [framed]

theorem retransmitResp_fr {E : Nat} {s0 s : State} (h : Frame E s0 s) {c : Nat} {psn : Nat} {p : Packet} (hE : Sub 0x28000 E := by first | assumption | exact sub_step (by assumption) (by decide)) :
    Frame E s0 (State.retransmitResp s c psn p) := by
  simp (disch := (
    unfold FrameOf
    unfold State.retransmitResp
    try dsimp only
    repeat' first
      | (with_reducible assumption) | ((with_reducible refine sub_step (by assumption) ?_); first | rfl | decide)
      | (with_reducible apply resend_fr) | (with_reducible apply serveSegs_fr) | (with_reducible apply startXfer_fr) | (split)
      | (intro _) | (refine frame_fst ?_ (by assumption)) | (dsimp only) | (with_reducible apply frame_any))) only [framed]

theorem releaseSlot_fr {E : Nat} {s0 s : State} (h : Frame E s0 s) {c : Nat} {m : Nat} (hE : Sub 0x6f2b43b E := by first | assumption | exact sub_step (by assumption) (by decide)) :
    Frame E s0 (State.releaseSlot s c m) := by
  simp (disch := (
    unfold FrameOf
    unfold State.releaseSlot
    try dsimp only
    repeat' first
      | (with_reducible assumption) | ((with_reducible refine sub_step (by assumption) ?_); first | rfl | decide)
      | (with_reducible apply opCheck_fr) | (with_reducible apply updM_fr) | (split) | (intro _)
      | (refine frame_fst ?_ (by assumption)) | (dsimp only) | (with_reducible apply frame_any))) only [framed]

theorem releaseReads_fr {E : Nat} {s0 s : State} (h : Frame E s0 s) {c : Nat} (hE : Sub 0x6f2b43b E := by first | assumption | exact sub_step (by assumption) (by decide)) :
    Frame E s0 (State.releaseReads s c) := by
  simp (disch := (
    unfold FrameOf
    unfold State.releaseReads
    try dsimp only
    repeat' first
      | (with_reducible assumption) | ((with_reducible refine sub_step (by assumption) ?_); first | rfl | decide)
      | (with_reducible apply forEach_fr) | (with_reducible apply releaseSlot_fr) | (split) | (intro _)
      | (refine frame_fst ?_ (by assumption)) | (dsimp only) | (with_reducible apply frame_any))) only [framed]

theorem unstore_fr {E : Nat} {s0 s : State} (h : Frame E s0 s) {c : Nat} {st : Nat} {psn : Nat} :
    Frame E s0 (State.unstore s c st psn) := by
  simp (disch := (
    unfold FrameOf
    unfold State.unstore
    try dsimp only
    repeat' first
      | (with_reducible assumption) | (with_reducible apply updRx_fr) | (split) | (intro _)
      | (refine frame_fst ?_ (by assumption)) | (dsimp only) | (with_reducible apply frame_any))) only [framed]

theorem seqLast_fr {E : Nat} {s0 s : State} (h : Frame E s0 s) {c : Nat} {m : Nat} (hE : Sub 0x828000 E := by first | assumption | exact sub_step (by assumption) (by decide)) :
    Frame E s0 (State.seqLast s c m) := by
  simp (disch := (
    unfold FrameOf
    unfold State.seqLast
    try dsimp only
    repeat' first
      | (with_reducible assumption) | ((with_reducible refine sub_step (by assumption) ?_); first | rfl | decide)
      | (with_reducible apply topCheck_fr) | (with_reducible apply topServe_fr) | (with_reducible apply updTop_fr) | (split)
      | (intro _) | (refine frame_fst ?_ (by assumption)) | (dsimp only) | (with_reducible apply frame_any))) only [framed]

theorem seqAbort_fr {E : Nat} {s0 s : State} (h : Frame E s0 s) {c : Nat} {p : Packet} (hE : Sub 0x4f28402 E := by first | assumption | exact sub_step (by assumption) (by decide)) :
    Frame E s0 (State.seqAbort s c p) := by
  simp (disch := (
    unfold FrameOf
    unfold State.seqAbort
    try dsimp only
    repeat' first
      | (with_reducible assumption) | ((with_reducible refine sub_step (by assumption) ?_); first | rfl | decide)
      | (with_reducible apply endCredit_fr) | (with_reducible apply msgCut_fr) | (with_reducible apply seqLast_fr)
      | (with_reducible apply updTop_fr) | (split) | (intro _) | (refine frame_fst ?_ (by assumption)) | (dsimp only)
      | (with_reducible apply frame_any))) only [framed]

theorem tgtRun_fr {E : Nat} {s0 s : State} (h : Frame E s0 s) {c : Nat} {p : Packet} {slot : Nat} {blk : OpBlock} {bytes : List Byte} (hE : Sub 0x828000 E := by first | assumption | exact sub_step (by assumption) (by decide)) :
    Frame E s0 (State.tgtRun s c p slot blk bytes) := by
  simp (disch := (
    unfold FrameOf
    unfold State.tgtRun
    try dsimp only
    repeat' first
      | (with_reducible assumption) | ((with_reducible refine sub_step (by assumption) ?_); first | rfl | decide)
      | (with_reducible apply tgtAtomic_fr) | (with_reducible apply tgtGet_fr) | (with_reducible apply tgtPlace_fr)
      | (with_reducible apply tgtPull_fr) | (split) | (intro _) | (refine frame_fst ?_ (by assumption)) | (dsimp only)
      | (with_reducible apply frame_any))) only [framed]

theorem sendPlacing_fr {E : Nat} {s0 s : State} (h : Frame E s0 s) {c : Nat} {m : Nat} {id : Nat} :
    Frame E s0 (State.sendPlacing s c m id) := by
  simp (disch := (
    unfold FrameOf
    unfold State.sendPlacing
    try dsimp only
    repeat' first
      | (with_reducible assumption) | (with_reducible apply updTop_fr) | (split) | (intro _)
      | (refine frame_fst ?_ (by assumption)) | (dsimp only) | (with_reducible apply frame_any))) only [framed]

theorem seqSend_fr {E : Nat} {s0 s : State} (h : Frame E s0 s) {c : Nat} {x : Ctx} {p : Packet} {rdv : Bool} {comm : Nat} {rank : Nat} {length : Nat} {tag : Nat} {handle : Nat} {bytes : List Byte} (hE : Sub 0x4f28402 E := by first | assumption | exact sub_step (by assumption) (by decide)) :
    ∀ t, State.seqSend s c x p rdv comm rank length tag handle bytes = some t → Frame E s0 t := by
  intro t ht
  unfold State.seqSend at ht
  split at ht
  · injection ht with ht; subst ht; exact h
  · rename_i tp _
    extract_lets first at ht
    have hf : ∀ u, first = some u → Frame E s0 u := by
      intro u hu
      subst first
      split at hu
      · injection hu with hu; subst hu; exact h
      · split at hu
        · injection hu with hu; subst hu; exact topFail_fr h
        · obtain ⟨r, hr, rfl⟩ := Option.map_eq_some_iff.mp hu
          exact updTop_fr ((present_fr h) _ hr)
    clear_value first
    obtain ⟨u, hu, rfl⟩ := Option.map_eq_some_iff.mp ht
    have k := hf u hu
    extract_lets u2
    have k2 : Frame E s0 u2 := by
      subst u2
      split
      · exact k
      · rename_i id _
        extract_lets u3
        have k3 : Frame E s0 u3 := by
          subst u3
          have w := msgData_fr (c := c) (mtag := p.mtag) (id := id) (off := p.offset) (bytes := bytes) k
          split
          · rename_i e; rw [e] at w; exact topFail_fr w
          · rename_i e; rw [e] at w; exact updTop_fr w
          · rename_i e; rw [e] at w; exact w
        clear_value u3
        exact frame_ite (msgLast_fr k3) k3
    clear_value u2
    exact frame_ite (seqLast_fr k2) k2

theorem seqHmsg_fr {E : Nat} {s0 s : State} (h : Frame E s0 s) {c : Nat} {x : Ctx} {p : Packet} {handler : Nat} {ferry : Nat} {length : Nat} {rlen : Nat} {bytes : List Byte} (hE : Sub 0x828000 E := by first | assumption | exact sub_step (by assumption) (by decide)) :
    ∀ t, State.seqHmsg s c x p handler ferry length rlen bytes = some t → Frame E s0 t := by
  intro t ht
  unfold State.seqHmsg at ht
  extract_lets k e at ht
  clear_value e k
  split at ht
  · injection ht with ht; subst ht; exact seqLast_fr (topFail_fr h)
  · split at ht
    · cases ht
    · injection ht with ht
      subst ht
      exact seqLast_fr (pushEvent_fr h)

theorem noteKept_fr {E : Nat} {s0 s : State} (h : Frame E s0 s) {c : Nat} {x : Ctx} {p : Packet} :
    Frame E s0 (State.noteKept s c x p) := by
  simp (disch := (
    unfold FrameOf
    unfold State.noteKept
    try dsimp only
    repeat' first
      | (with_reducible assumption) | (with_reducible apply updTop_fr) | (split) | (intro _)
      | (refine frame_fst ?_ (by assumption)) | (dsimp only) | (with_reducible apply frame_any))) only [framed]

theorem noteHeld_fr {E : Nat} {s0 s : State} (h : Frame E s0 s) {c : Nat} {x : Ctx} {p : Packet} {comm : Nat} (hE : Sub 0x20000 E := by first | assumption | exact sub_step (by assumption) (by decide)) :
    Frame E s0 (State.noteHeld s c x p comm) := by
  simp (disch := (
    unfold FrameOf
    unfold State.noteHeld
    try dsimp only
    repeat' first
      | (with_reducible assumption) | ((with_reducible refine sub_step (by assumption) ?_); first | rfl | decide)
      | (with_reducible apply count_fr) | (with_reducible apply updTop_fr) | (split) | (intro _)
      | (refine frame_fst ?_ (by assumption)) | (dsimp only) | (with_reducible apply frame_any))) only [framed]

theorem seqWalk_fr {E : Nat} {s0 s : State} (h : Frame E s0 s) {c : Nat} {x : Ctx} {blocked : Bool} {waits : Bool} {y0 : List Packet} (hE : Sub 0x4f28402 E := by first | assumption | exact sub_step (by assumption) (by decide)) :
    Frame E s0 (State.seqWalk s c x blocked waits y0) := by
  simp (disch := (
    unfold FrameOf
    induction y0 generalizing s c x blocked waits with
    | nil =>
      unfold State.seqWalk
      try dsimp only
      repeat' first
        | (with_reducible assumption) | ((with_reducible refine sub_step (by assumption) ?_); first | rfl | decide)
        | (with_reducible apply noteHeld_fr) | (with_reducible apply noteKept_fr) | (with_reducible apply seqAbort_fr)
        | (refine (seqHmsg_fr ?_) _ (by assumption)) | (with_reducible apply seqLast_fr)
        | (refine (seqSend_fr ?_) _ (by assumption)) | (with_reducible apply tgtRun_fr) | (with_reducible apply unstore_fr)
        | (with_reducible apply ih) | (split) | (intro _) | (refine frame_fst ?_ (by assumption)) | (dsimp only)
        | (with_reducible apply frame_any)
    | cons a r ih =>
      unfold State.seqWalk
      try dsimp only
      repeat' first
        | (with_reducible assumption) | ((with_reducible refine sub_step (by assumption) ?_); first | rfl | decide)
        | (with_reducible apply noteHeld_fr) | (with_reducible apply noteKept_fr) | (with_reducible apply seqAbort_fr)
        | (refine (seqHmsg_fr ?_) _ (by assumption)) | (with_reducible apply seqLast_fr)
        | (refine (seqSend_fr ?_) _ (by assumption)) | (with_reducible apply tgtRun_fr) | (with_reducible apply unstore_fr)
        | (with_reducible apply ih) | (split) | (intro _) | (refine frame_fst ?_ (by assumption)) | (dsimp only)
        | (with_reducible apply frame_any))) only [framed]

theorem seqPass_fr {E : Nat} {s0 s : State} (h : Frame E s0 s) {c : Nat} (hE : Sub 0x4f28402 E := by first | assumption | exact sub_step (by assumption) (by decide)) :
    Frame E s0 (State.seqPass s c) := by
  simp (disch := (
    unfold FrameOf
    unfold State.seqPass
    try dsimp only
    repeat' first
      | (with_reducible assumption) | ((with_reducible refine sub_step (by assumption) ?_); first | rfl | decide)
      | (with_reducible apply seqWalk_fr) | (split) | (intro _) | (refine frame_fst ?_ (by assumption)) | (dsimp only)
      | (with_reducible apply frame_any))) only [framed]

theorem parkTop_fr {E : Nat} {s0 s : State} (h : Frame E s0 s) {c : Nat} {m : Nat} :
    Frame E s0 (State.parkTop s c m) := by
  simp (disch := (
    unfold FrameOf
    unfold State.parkTop
    try dsimp only
    repeat' first
      | (with_reducible assumption) | (with_reducible apply resend_fr) | (with_reducible apply updTx_fr) | (split) | (intro _)
      | (refine frame_fst ?_ (by assumption)) | (dsimp only) | (with_reducible apply frame_any))) only [framed]

theorem topOpen_fr {E : Nat} {s0 s : State} (h : Frame E s0 s) {c : Nat} {x : Ctx} {p : Packet} {blk : OpBlock} :
    Frame E s0 (State.topOpen s c x p blk) := by
  simp (disch := (
    unfold FrameOf
    unfold State.topOpen
    try dsimp only
    repeat' first
      | (with_reducible assumption) | (with_reducible apply parkTop_fr) | (split) | (intro _)
      | (refine frame_fst ?_ (by assumption)) | (dsimp only) | (with_reducible apply frame_any))) only [framed]

theorem ackLast_fr {E : Nat} {s0 s : State} (h : Frame E s0 s) {c : Nat} {st : Nat} {old : Nat} (hE : Sub 0x20000 E := by first | assumption | exact sub_step (by assumption) (by decide)) :
    Frame E s0 (State.ackLast s c st old) := by
  simp (disch := (
    unfold FrameOf
    unfold State.ackLast
    try dsimp only
    repeat' first
      | (with_reducible assumption) | ((with_reducible refine sub_step (by assumption) ?_); first | rfl | decide)
      | (with_reducible apply sendAck_fr) | (split) | (intro _) | (refine frame_fst ?_ (by assumption)) | (dsimp only)
      | (with_reducible apply frame_any))) only [framed]

theorem store_fr {E : Nat} {s0 s : State} (h : Frame E s0 s) {c : Nat} {st : Nat} {p : Packet} :
    Frame E s0 (State.store s c st p) := by
  simp (disch := (
    unfold FrameOf
    unfold State.store
    try dsimp only
    repeat' first
      | (with_reducible assumption) | (with_reducible apply updRx_fr) | (split) | (intro _)
      | (refine frame_fst ?_ (by assumption)) | (dsimp only) | (with_reducible apply frame_any))) only [framed]

theorem dataOpen_fr {E : Nat} {s0 s : State} (h : Frame E s0 s) {c : Nat} {x : Ctx} {p : Packet} {blk : OpBlock} {bytes : List Byte} (hE : Sub 0x20000 E := by first | assumption | exact sub_step (by assumption) (by decide)) :
    Frame E s0 (State.dataOpen s c x p blk bytes) := by
  simp (disch := (
    unfold FrameOf
    unfold State.dataOpen
    try dsimp only
    repeat' first
      | (with_reducible assumption) | ((with_reducible refine sub_step (by assumption) ?_); first | rfl | decide)
      | (with_reducible apply admitPkt_fr) | (with_reducible apply fillCredit_fr) | (with_reducible apply openCredit_fr)
      | (with_reducible apply topOpen_fr) | (with_reducible apply updTop_fr) | (split) | (intro _)
      | (refine frame_fst ?_ (by assumption)) | (dsimp only) | (with_reducible apply frame_any))) only [framed]

theorem dataPut_fr {E : Nat} {s0 s : State} (h : Frame E s0 s) {c : Nat} {p : Packet} {slot : Nat} {blk : OpBlock} {bytes : List Byte} {dead : Bool} (hE : Sub 0x828000 E := by first | assumption | exact sub_step (by assumption) (by decide)) :
    Frame E s0 (State.dataPut s c p slot blk bytes dead) := by
  simp (disch := (
    unfold FrameOf
    unfold State.dataPut
    try dsimp only
    repeat' first
      | (with_reducible assumption) | ((with_reducible refine sub_step (by assumption) ?_); first | rfl | decide)
      | (with_reducible apply store_fr) | (with_reducible apply tgtRun_fr) | (split) | (intro _)
      | (refine frame_fst ?_ (by assumption)) | (dsimp only) | (with_reducible apply frame_any))) only [framed]

theorem dataAt_fr {E : Nat} {s0 s : State} (h : Frame E s0 s) {c : Nat} {x : Ctx} {p : Packet} {blk : OpBlock} {bytes : List Byte} {y0 : PsnCase} (hE : Sub 0x4f28402 E := by first | assumption | exact sub_step (by assumption) (by decide)) :
    Frame E s0 (State.dataAt s c x p blk bytes y0) := by
  cases y0 with
  | duplicate => exact dupAck_fr h
  | beyond => exact count_fr h
  | new =>
    unfold State.dataAt
    refine frame_ite (moor_fr h) ?_
    generalize s.busyRow x p blk bytes = b
    cases b with
    | some row => exact nackBusy_fr h
    | none => exact seqPass_fr (ackLast_fr (dataPut_fr (dataOpen_fr h)))

theorem dataIn_fr {E : Nat} {s0 s : State} (h : Frame E s0 s) {c : Nat} {p : Packet} {blk : OpBlock} {bytes : List Byte} (hE : Sub 0x4f28402 E := by first | assumption | exact sub_step (by assumption) (by decide)) :
    Frame E s0 (State.dataIn s c p blk bytes) := by
  simp (disch := (
    unfold FrameOf
    unfold State.dataIn
    try dsimp only
    repeat' first
      | (with_reducible assumption) | ((with_reducible refine sub_step (by assumption) ?_); first | rfl | decide)
      | (with_reducible apply dataAt_fr) | (split) | (intro _) | (refine frame_fst ?_ (by assumption)) | (dsimp only)
      | (with_reducible apply frame_any))) only [framed]

theorem settleAll_fr {E : Nat} {s0 s : State} (h : Frame E s0 s) (hE : Sub 0x6f2b43b E := by first | assumption | exact sub_step (by assumption) (by decide)) :
    Frame E s0 (State.settleAll s) := by
  simp (disch := (
    unfold FrameOf
    unfold State.settleAll
    try dsimp only
    repeat' first
      | (with_reducible assumption) | ((with_reducible refine sub_step (by assumption) ?_); first | rfl | decide)
      | (with_reducible apply collFlush_fr) | (with_reducible apply forEach_fr) | (with_reducible apply lowWater_fr)
      | (with_reducible apply pumpEntry_fr) | (with_reducible apply retryPulls_fr) | (with_reducible apply revokeSettle_fr)
      | (with_reducible apply seqPass_fr) | (with_reducible apply store_fr) | (with_reducible apply topCheck_fr) | (split)
      | (intro _) | (refine frame_fst ?_ (by assumption)) | (dsimp only) | (with_reducible apply frame_any))) only [framed]

end Sys2Proof.Laws
end

