-- ==== Sys2Proof/Laws/FrRxOps.lean ====
section
/-! SUPPORT. The frame of every operation of Machine/RxOps.lean (`Laws.Frame`). -/

namespace Sys2Proof.Laws

open Sys2Proof.Machine

set_option linter.all false
set_option Elab.async false

theorem armRto_fr {E : Nat} {s0 s : State} (h : Frame E s0 s) {c : Nat} {st : Nat} :
    Frame E s0 (State.armRto s c st) := by
  simp (disch := (
    unfold FrameOf
    unfold State.armRto
    try dsimp only
    repeat' first
      | (with_reducible assumption) | (with_reducible apply arm_fr) | (with_reducible apply disarm_fr) | (split) | (intro _)
      | (refine frame_fst ?_ (by assumption)) | (dsimp only) | (with_reducible apply frame_any))) only [framed]

theorem inject_fr {E : Nat} {s0 s : State} (h : Frame E s0 s) {c : Nat} {st : Nat} (hE : Sub 0x20000 E := by first | assumption | exact sub_step (by assumption) (by decide)) :
    Frame E s0 (State.inject s c st) := by
  simp (disch := (
    unfold FrameOf
    unfold State.inject
    try dsimp only
    repeat' first
      | (with_reducible assumption) | ((with_reducible refine sub_step (by assumption) ?_); first | rfl | decide)
      | (with_reducible apply armRto_fr) | (with_reducible apply count_fr) | (with_reducible apply emitSealed_fr)
      | (with_reducible apply fetchCtx_fr) | (with_reducible apply resend_fr) | (with_reducible apply touch_fr)
      | (with_reducible apply updCtx_fr) | (with_reducible apply updM_fr) | (with_reducible apply watch_fr) | (split)
      | (intro _) | (refine frame_fst ?_ (by assumption)) | (dsimp only) | (with_reducible apply frame_any))) only [framed]

theorem retransmit_fr {E : Nat} {s0 s : State} (h : Frame E s0 s) {c : Nat} {st : Nat} {u : Sent} (hE : Sub 0x28000 E := by first | assumption | exact sub_step (by assumption) (by decide)) :
    Frame E s0 (State.retransmit s c st u) := by
  simp (disch := (
    unfold FrameOf
    unfold State.retransmit
    try dsimp only
    repeat' first
      | (with_reducible assumption) | ((with_reducible refine sub_step (by assumption) ?_); first | rfl | decide)
      | (with_reducible apply resend_fr) | (with_reducible apply retransmitData_fr) | (with_reducible apply retransmitResp_fr)
      | (with_reducible apply updTx_fr) | (split) | (intro _) | (refine frame_fst ?_ (by assumption)) | (dsimp only)
      | (with_reducible apply frame_any))) only [framed]

theorem retransmitAll_fr {E : Nat} {s0 s : State} (h : Frame E s0 s) {c : Nat} {st : Nat} {p : Sent → Bool} (hE : Sub 0x28000 E := by first | assumption | exact sub_step (by assumption) (by decide)) :
    Frame E s0 (State.retransmitAll s c st p) := by
  simp (disch := (
    unfold FrameOf
    unfold State.retransmitAll
    try dsimp only
    repeat' first
      | (with_reducible assumption) | ((with_reducible refine sub_step (by assumption) ?_); first | rfl | decide)
      | (with_reducible apply forEach_fr) | (with_reducible apply retransmit_fr) | (split) | (intro _)
      | (refine frame_fst ?_ (by assumption)) | (dsimp only) | (with_reducible apply frame_any))) only [framed]

theorem takeGrant_fr {E : Nat} {s0 s : State} (h : Frame E s0 s) {c : Nat} {st : Nat} {tag : Nat} {g : Nat} (hE : Sub 0x6f2b43b E := by first | assumption | exact sub_step (by assumption) (by decide)) :
    Frame E s0 (State.takeGrant s c st tag g) := by
  simp (disch := (
    unfold FrameOf
    unfold State.takeGrant
    try dsimp only
    repeat' first
      | (with_reducible assumption) | ((with_reducible refine sub_step (by assumption) ?_); first | rfl | decide)
      | (with_reducible apply grant_fr) | (with_reducible apply pumpEntry_fr) | (with_reducible apply topServe_fr)
      | (with_reducible apply updM_fr) | (with_reducible apply updTop_fr) | (split) | (intro _)
      | (refine frame_fst ?_ (by assumption)) | (dsimp only) | (with_reducible apply frame_any))) only [framed]

theorem ackIn_fr {E : Nat} {s0 s : State} (h : Frame E s0 s) {c : Nat} {p : Packet} {a : AckBody} (hE : Sub 0x6f2b43b E := by first | assumption | exact sub_step (by assumption) (by decide)) :
    Frame E s0 (State.ackIn s c p a) := by
  unfold State.ackIn
  cases s.ctxs.look c with
  | none => exact h
  | some x =>
    dsimp -zeta only
    extract_lets st t gone moved r t1 t2 t3 t4 fast again t5 s1 s2 s3 s4 s5 s6 s7 s8 s9
    have h1 : Frame E s0 s1 := updCtx_fr h
    have h2 : Frame E s0 s2 := forEach_fr h1 fun z a k => disarm_fr k
    have h3 : Frame E s0 s3 := progress_fr (armRto_fr h2)
    have h4 : Frame E s0 s4 := retransmitAll_fr h3
    have h5 : Frame E s0 s5 := by
      subst s5
      clear_value s4
      cases a.grantTag with
      | some tag => exact takeGrant_fr h4
      | none => exact h4
    have h6 : Frame E s0 s6 := forEach_fr h5 fun z a k => opCheck_fr k
    have h7 : Frame E s0 s7 := frame_ite (releaseReads_fr h6) h6
    have h8 : Frame E s0 s8 := frame_ite (collAcked_fr h7) h7
    have h9 : Frame E s0 s9 := settleAll_fr h8
    clear_value s9
    cases s9.ctxs.look c with
    | some x => exact frame_ite (startClose_fr h9) h9
    | none => exact h9

theorem nackIn_fr {E : Nat} {s0 s : State} (h : Frame E s0 s) {c : Nat} {p : Packet} :
    Frame E s0 (State.nackIn s c p) := by
  simp (disch := (
    unfold FrameOf
    unfold State.nackIn
    try dsimp only
    repeat' first
      | (with_reducible assumption) | (with_reducible apply arm_fr) | (with_reducible apply progress_fr)
      | (with_reducible apply resend_fr) | (with_reducible apply updTx_fr) | (split) | (intro _)
      | (refine frame_fst ?_ (by assumption)) | (dsimp only) | (with_reducible apply frame_any))) only [framed]

theorem nackRetry_fr {E : Nat} {s0 s : State} (h : Frame E s0 s) {c : Nat} {st : Nat} {psn : Nat} (hE : Sub 0x28000 E := by first | assumption | exact sub_step (by assumption) (by decide)) :
    Frame E s0 (State.nackRetry s c st psn) := by
  simp (disch := (
    unfold FrameOf
    unfold State.nackRetry
    try dsimp only
    repeat' first
      | (with_reducible assumption) | ((with_reducible refine sub_step (by assumption) ?_); first | rfl | decide)
      | (with_reducible apply retransmitAll_fr) | (split) | (intro _) | (refine frame_fst ?_ (by assumption)) | (dsimp only)
      | (with_reducible apply frame_any))) only [framed]

theorem rtoOver_fr {E : Nat} {s0 s : State} (h : Frame E s0 s) {c : Nat} {st : Nat} (hE : Sub 0x28000 E := by first | assumption | exact sub_step (by assumption) (by decide)) :
    Frame E s0 (State.rtoOver s c st) := by
  simp (disch := (
    unfold FrameOf
    unfold State.rtoOver
    try dsimp only
    repeat' first
      | (with_reducible assumption) | ((with_reducible refine sub_step (by assumption) ?_); first | rfl | decide)
      | (with_reducible apply armIn_fr) | (with_reducible apply count_fr) | (with_reducible apply retransmitAll_fr)
      | (with_reducible apply sendClose_fr) | (with_reducible apply updTx_fr) | (split) | (intro _)
      | (refine frame_fst ?_ (by assumption)) | (dsimp only) | (with_reducible apply frame_any))) only [framed]

theorem respPass_fr {E : Nat} {s0 s : State} (h : Frame E s0 s) {c : Nat} (hE : Sub 0x6f2b43b E := by first | assumption | exact sub_step (by assumption) (by decide)) :
    Frame E s0 (State.respPass s c) := by
  simp (disch := (
    unfold FrameOf
    unfold State.respPass
    try dsimp only
    repeat' first
      | (with_reducible assumption) | ((with_reducible refine sub_step (by assumption) ?_); first | rfl | decide)
      | (with_reducible apply forEach_fr) | (with_reducible apply statusIn_fr) | (with_reducible apply unstore_fr) | (split)
      | (intro _) | (refine frame_fst ?_ (by assumption)) | (dsimp only) | (with_reducible apply frame_any))) only [framed]

theorem respAt_fr {E : Nat} {s0 s : State} (h : Frame E s0 s) {c : Nat} {x : Ctx} {p : Packet} {y0 : PsnCase} (hE : Sub 0x6f2b43b E := by first | assumption | exact sub_step (by assumption) (by decide)) :
    Frame E s0 (State.respAt s c x p y0) := by
  cases y0 with
  | duplicate => exact dupAck_fr h
  | beyond => exact count_fr h
  | new =>
    unfold State.respAt
    refine frame_ite (nackBusy_fr h) ?_
    extract_lets s1 s2
    have h1 : Frame E s0 s1 := progress_fr (admitPkt_fr h)
    have h2 : Frame E s0 s2 := by
      subst s2
      clear_value s1
      split
      · rename_i bytes _
        extract_lets s3
        have k : Frame E s0 s3 := landIn_fr h1
        clear_value s3
        exact frame_ite (store_fr k) k
      · exact store_fr h1
    clear_value s2
    exact respPass_fr (ackLast_fr h2)

theorem respIn_fr {E : Nat} {s0 s : State} (h : Frame E s0 s) {c : Nat} {p : Packet} (hE : Sub 0x6f2b43b E := by first | assumption | exact sub_step (by assumption) (by decide)) :
    Frame E s0 (State.respIn s c p) := by
  simp (disch := (
    unfold FrameOf
    unfold State.respIn
    try dsimp only
    repeat' first
      | (with_reducible assumption) | ((with_reducible refine sub_step (by assumption) ?_); first | rfl | decide)
      | (with_reducible apply respAt_fr) | (split) | (intro _) | (refine frame_fst ?_ (by assumption)) | (dsimp only)
      | (with_reducible apply frame_any))) only [framed]

theorem collPass_fr {E : Nat} {s0 s : State} (h : Frame E s0 s) {c : Nat} (hE : Sub 0xb28022 E := by first | assumption | exact sub_step (by assumption) (by decide)) :
    Frame E s0 (State.collPass s c) := by
  simp (disch := (
    unfold FrameOf
    unfold State.collPass
    try dsimp only
    repeat' first
      | (with_reducible assumption) | ((with_reducible refine sub_step (by assumption) ?_); first | rfl | decide)
      | (with_reducible apply collTake_fr) | (with_reducible apply forEach_fr) | (with_reducible apply unstore_fr) | (split)
      | (intro _) | (refine frame_fst ?_ (by assumption)) | (dsimp only) | (with_reducible apply frame_any))) only [framed]

theorem collAt_fr {E : Nat} {s0 s : State} (h : Frame E s0 s) {c : Nat} {x : Ctx} {p : Packet} {y0 : PsnCase} (hE : Sub 0xb28022 E := by first | assumption | exact sub_step (by assumption) (by decide)) :
    Frame E s0 (State.collAt s c x p y0) := by
  cases y0 with
  | duplicate => exact dupAck_fr h
  | beyond => exact count_fr h
  | new =>
    unfold State.collAt
    extract_lets s1
    have h1 : Frame E s0 s1 := admitPkt_fr h
    clear_value s1
    generalize p.body = b
    cases b
    all_goals dsimp only
    all_goals first
      | with_reducible exact collPass_fr (revokeMsg_fr (ackLast_fr h1))
      | with_reducible exact collPass_fr (ackLast_fr (store_fr h1))
      | with_reducible exact collPass_fr (ackLast_fr (store_fr (collStore_fr h1)))

theorem collIn_fr {E : Nat} {s0 s : State} (h : Frame E s0 s) {c : Nat} {p : Packet} (hE : Sub 0xb28022 E := by first | assumption | exact sub_step (by assumption) (by decide)) :
    Frame E s0 (State.collIn s c p) := by
  simp (disch := (
    unfold FrameOf
    unfold State.collIn
    try dsimp only
    repeat' first
      | (with_reducible assumption) | ((with_reducible refine sub_step (by assumption) ?_); first | rfl | decide)
      | (with_reducible apply collAt_fr) | (split) | (intro _) | (refine frame_fst ?_ (by assumption)) | (dsimp only)
      | (with_reducible apply frame_any))) only [framed]

theorem closeReqIn_fr {E : Nat} {s0 s : State} (h : Frame E s0 s) {c : Nat} {q : Nat} {r : Nat} (hE : Sub 0x6f2b43b E := by first | assumption | exact sub_step (by assumption) (by decide)) :
    Frame E s0 (State.closeReqIn s c q r) := by
  simp (disch := (
    unfold FrameOf
    unfold State.closeReqIn
    try dsimp only
    repeat' first
      | (with_reducible assumption) | ((with_reducible refine sub_step (by assumption) ?_); first | rfl | decide)
      | (with_reducible apply quietClose_fr) | (with_reducible apply sendCtl_fr) | (split) | (intro _)
      | (refine frame_fst ?_ (by assumption)) | (dsimp only) | (with_reducible apply frame_any))) only [framed]

theorem closeAckIn_fr {E : Nat} {s0 s : State} (h : Frame E s0 s) {c : Nat} (hE : Sub 0x6f2b43b E := by first | assumption | exact sub_step (by assumption) (by decide)) :
    Frame E s0 (State.closeAckIn s c) := by
  simp (disch := (
    unfold FrameOf
    unfold State.closeAckIn
    try dsimp only
    repeat' first
      | (with_reducible assumption) | ((with_reducible refine sub_step (by assumption) ?_); first | rfl | decide)
      | (with_reducible apply quietClose_fr) | (split) | (intro _) | (refine frame_fst ?_ (by assumption)) | (dsimp only)
      | (with_reducible apply frame_any))) only [framed]

theorem closeRefuseIn_fr {E : Nat} {s0 s : State} (h : Frame E s0 s) {c : Nat} :
    Frame E s0 (State.closeRefuseIn s c) := by
  simp (disch := (
    unfold FrameOf
    unfold State.closeRefuseIn
    try dsimp only
    repeat' first
      | (with_reducible assumption) | (with_reducible apply arm_fr) | (with_reducible apply armIn_fr)
      | (with_reducible apply disarm_fr) | (with_reducible apply progress_fr) | (with_reducible apply updCtx_fr) | (split)
      | (intro _) | (refine frame_fst ?_ (by assumption)) | (dsimp only) | (with_reducible apply frame_any))) only [framed]

theorem closeNoCtx_fr {E : Nat} {s0 s : State} (h : Frame E s0 s) {j : Nat} {p : Packet} (hE : Sub 0x20000 E := by first | assumption | exact sub_step (by assumption) (by decide)) :
    Frame E s0 (State.closeNoCtx s j p) := by
  simp (disch := (
    unfold FrameOf
    unfold State.closeNoCtx
    try dsimp only
    repeat' first
      | (with_reducible assumption) | ((with_reducible refine sub_step (by assumption) ?_); first | rfl | decide)
      | (with_reducible apply emitSealed_fr) | (split) | (intro _) | (refine frame_fst ?_ (by assumption)) | (dsimp only)
      | (with_reducible apply frame_any))) only [framed]

theorem closeAnswer_fr {E : Nat} {s0 s : State} (h : Frame E s0 s) {j : Nat} {p : Packet} {quiet : Option Nat} (hE : Sub 0x28000 E := by first | assumption | exact sub_step (by assumption) (by decide)) :
    Frame E s0 (State.closeAnswer s j p quiet) := by
  simp (disch := (
    unfold FrameOf
    unfold State.closeAnswer
    try dsimp only
    repeat' first
      | (with_reducible assumption) | ((with_reducible refine sub_step (by assumption) ?_); first | rfl | decide)
      | (with_reducible apply closeNoCtx_fr) | (with_reducible apply count_fr) | (with_reducible apply noCtxRec_fr)
      | (with_reducible apply sendCtl_fr) | (split) | (intro _) | (refine frame_fst ?_ (by assumption)) | (dsimp only)
      | (with_reducible apply frame_any))) only [framed]

theorem peerReopened_fr {E : Nat} {s0 s : State} (h : Frame E s0 s) {c : Nat} (hE : Sub 0x4f28422 E := by first | assumption | exact sub_step (by assumption) (by decide)) :
    Frame E s0 (State.peerReopened s c) := by
  simp (disch := (
    unfold FrameOf
    unfold State.peerReopened
    try dsimp only
    repeat' first
      | (with_reducible assumption) | ((with_reducible refine sub_step (by assumption) ?_); first | rfl | decide)
      | (with_reducible apply collCtxFailed_fr) | (with_reducible apply disarm_fr) | (with_reducible apply disarmAll_fr)
      | (with_reducible apply failOps_fr) | (with_reducible apply keepTops_fr) | (with_reducible apply msgsCtxGone_fr)
      | (with_reducible apply nackRetry_fr) | (split) | (intro _) | (refine frame_fst ?_ (by assumption)) | (dsimp only)
      | (with_reducible apply frame_any))) only [framed]

theorem rxGo_fr {E : Nat} {s0 s : State} (h : Frame E s0 s) {c : Nat} {p : Packet} (hE : Sub 0x6f2b43b E := by first | assumption | exact sub_step (by assumption) (by decide)) :
    Frame E s0 (State.rxGo s c p) := by
  simp (disch := (
    unfold FrameOf
    unfold State.rxGo
    try dsimp only
    repeat' first
      | (with_reducible assumption) | ((with_reducible refine sub_step (by assumption) ?_); first | rfl | decide)
      | (with_reducible apply ackIn_fr) | (with_reducible apply closeAckIn_fr) | (with_reducible apply closeRefuseIn_fr)
      | (with_reducible apply closeReqIn_fr) | (with_reducible apply collIn_fr) | (with_reducible apply dataIn_fr)
      | (with_reducible apply nackIn_fr) | (with_reducible apply respIn_fr) | (split) | (intro _)
      | (refine frame_fst ?_ (by assumption)) | (dsimp only) | (with_reducible apply frame_any))) only [framed]

theorem rxFrom5_fr {E : Nat} {s0 s : State} (h : Frame E s0 s) {p : Packet} {j : Nat} (hE : Sub 0x6f2b43b E := by first | assumption | exact sub_step (by assumption) (by decide)) :
    Frame E s0 (State.rxFrom5 s p j) := by
  unfold State.rxFrom5
  generalize e : s.rxCtx p j State.peerReopened = r
  unfold State.rxCtx at e
  repeat' split at e
  all_goals subst e
  all_goals dsimp only
  all_goals first
    | with_reducible exact h
    | with_reducible exact closeAnswer_fr h
    | with_reducible exact noCtxRec_fr h
    | with_reducible exact lowWater_fr (nackBusy_fr h)
    | with_reducible exact nackBusy_fr h
    | with_reducible exact rxGo_fr (newCtx_fr h)
    | with_reducible exact count_fr h
    | with_reducible exact fetchCtx_fr (moor_fr h)
    | with_reducible exact rxGo_fr (adopt_fr h)
    | with_reducible exact rxGo_fr (reopen_fr (peerReopened_fr h))
    | with_reducible exact rxGo_fr (noteEpoch_fr h)
    | with_reducible exact rxGo_fr (frame_ite h (noteEpoch_fr h))
    | with_reducible exact rxGo_fr h

theorem rxPacket_fr {E : Nat} {s0 s : State} (h : Frame E s0 s) {p : Packet} (hE : Sub 0x6f2b43b E := by first | assumption | exact sub_step (by assumption) (by decide)) :
    Frame E s0 (State.rxPacket s p) := by
  simp (disch := (
    unfold FrameOf
    unfold State.rxPacket
    try dsimp only
    repeat' first
      | (with_reducible assumption) | ((with_reducible refine sub_step (by assumption) ?_); first | rfl | decide)
      | (with_reducible apply rxAuth_fr) | (with_reducible apply rxFrom5_fr) | (with_reducible apply settleAll_fr) | (split)
      | (intro _) | (refine frame_fst ?_ (by assumption)) | (dsimp only) | (with_reducible apply frame_any))) only [framed]

theorem unmoor_fr {E : Nat} {s0 s : State} (h : Frame E s0 s) {f : Packet → Bool} (hE : Sub 0x6f2b43b E := by first | assumption | exact sub_step (by assumption) (by decide)) :
    Frame E s0 (State.unmoor s f) := by
  simp (disch := (
    unfold FrameOf
    unfold State.unmoor
    try dsimp only
    repeat' first
      | (with_reducible assumption) | ((with_reducible refine sub_step (by assumption) ?_); first | rfl | decide)
      | (with_reducible apply forEach_fr) | (with_reducible apply rxFrom5_fr) | (split) | (intro _)
      | (refine frame_fst ?_ (by assumption)) | (dsimp only) | (with_reducible apply frame_any))) only [framed]

theorem ctxFetched_fr {E : Nat} {s0 s : State} (h : Frame E s0 s) {c : Nat} {ok : Bool} (hE : Sub 0x6f2b43b E := by first | assumption | exact sub_step (by assumption) (by decide)) :
    Frame E s0 (State.ctxFetched s c ok) := by
  simp (disch := (
    unfold FrameOf
    unfold State.ctxFetched
    try dsimp only
    repeat' first
      | (with_reducible assumption) | ((with_reducible refine sub_step (by assumption) ?_); first | rfl | decide)
      | (with_reducible apply armRto_fr) | (with_reducible apply count_fr) | (with_reducible apply failCtxClose_fr)
      | (with_reducible apply forEach_fr) | (with_reducible apply raise_fr) | (with_reducible apply settleAll_fr)
      | (with_reducible apply unmoor_fr) | (with_reducible apply updCtx_fr) | (split) | (intro _)
      | (refine frame_fst ?_ (by assumption)) | (dsimp only) | (with_reducible apply frame_any))) only [framed]

end Sys2Proof.Laws
end

