-- ==== Sys2Proof/Laws/FrTransport.lean ====
section
/-! SUPPORT. The frame of every operation of Machine/Transport.lean (`Laws.Frame`). -/

namespace Sys2Proof.Laws

open Sys2Proof.Machine

set_option linter.all false
set_option Elab.async false

theorem whenCtx_fr {E : Nat} {s0 s : State} (h : Frame E s0 s) {c : Nat} {k : TimerKey} {f : State → State} (h_f : ∀ z0, Frame E s0 z0 → Frame E s0 (f z0)) (hE : Sub 0x20000 E := by first | assumption | exact sub_step (by assumption) (by decide)) :
    OFrame E s0 (State.whenCtx s c k f) := by
  simp (disch := (
    unfold OFrameOf
    unfold State.whenCtx
    try dsimp only
    repeat' first
      | (with_reducible apply OFrame.next) | (with_reducible assumption)
      | ((with_reducible refine sub_step (by assumption) ?_); first | rfl | decide) | (with_reducible apply atCtx_fr)
      | (with_reducible apply whenDue_fr) | (with_reducible apply h_f) | (split) | (intro _)
      | (refine frame_fst ?_ (by assumption)) | (dsimp only) | (with_reducible apply frame_any))) only [oframed]

theorem execStreamInject_fr {E : Nat} {s0 s : State} (h : Frame E s0 s) {ctx : Nat} {stream : Nat} (hE : Sub 0x20000 E := by first | assumption | exact sub_step (by assumption) (by decide)) :
    OFrame E s0 (execStreamInject ctx stream s) := by
  simp (disch := (
    unfold OFrameOf
    unfold execStreamInject
    try dsimp only
    repeat' first
      | (with_reducible apply OFrame.next) | (with_reducible assumption)
      | ((with_reducible refine sub_step (by assumption) ?_); first | rfl | decide) | (with_reducible apply inject_fr)
      | (with_reducible apply whenLive_fr) | (split) | (intro _) | (refine frame_fst ?_ (by assumption)) | (dsimp only)
      | (with_reducible apply frame_any))) only [oframed]

theorem execDataReceive_fr {E : Nat} {s0 s : State} (h : Frame E s0 s) {pkt : Packet} (hE : Sub 0x6f2b43b E := by first | assumption | exact sub_step (by assumption) (by decide)) :
    OFrame E s0 (execDataReceive pkt s) := by
  simp (disch := (
    unfold OFrameOf
    unfold execDataReceive
    try dsimp only
    repeat' first
      | (with_reducible apply OFrame.next) | (with_reducible assumption)
      | ((with_reducible refine sub_step (by assumption) ?_); first | rfl | decide) | (with_reducible apply rxPacket_fr)
      | (with_reducible apply whenLive_fr) | (split) | (intro _) | (refine frame_fst ?_ (by assumption)) | (dsimp only)
      | (with_reducible apply frame_any))) only [oframed]

theorem mcDrop_fr {E : Nat} {s0 s : State} (h : Frame E s0 s) {pkt : Packet} (hE : Sub 0x20000 E := by first | assumption | exact sub_step (by assumption) (by decide)) :
    Frame E s0 (State.mcDrop s pkt) := by
  simp (disch := (
    unfold FrameOf
    unfold State.mcDrop
    try dsimp only
    repeat' first
      | (with_reducible assumption) | ((with_reducible refine sub_step (by assumption) ?_); first | rfl | decide)
      | (with_reducible apply count_fr) | (split) | (intro _) | (refine frame_fst ?_ (by assumption)) | (dsimp only)
      | (with_reducible apply frame_any))) only [framed]

theorem mcAuth_fr {E : Nat} {s0 s : State} (h : Frame E s0 s) {pkt : Packet} (hE : Sub 0x28000 E := by first | assumption | exact sub_step (by assumption) (by decide)) :
    Frame E s0 (State.mcAuth s pkt).1 := by
  simp (disch := (
    unfold FrameOf
    unfold State.mcAuth
    try dsimp only
    repeat' first
      | (with_reducible assumption) | ((with_reducible refine sub_step (by assumption) ?_); first | rfl | decide)
      | (with_reducible apply authFailed_fr) | (with_reducible apply count_fr) | (with_reducible apply readBody_fr) | (split)
      | (intro _) | (refine frame_fst ?_ (by assumption)) | (dsimp only) | (with_reducible apply frame_any))) only [framed]

theorem mcTake_fr {E : Nat} {s0 s : State} (h : Frame E s0 s) {j : Nat} {pkt : Packet} {handler : Nat} {ferry : Nat} {length : Nat} {rlen : Nat} {bytes : List Byte} (hE : Sub 0x20000 E := by first | assumption | exact sub_step (by assumption) (by decide)) :
    Frame E s0 (State.mcTake s j pkt handler ferry length rlen bytes) := by
  simp (disch := (
    unfold FrameOf
    unfold State.mcTake
    try dsimp only
    repeat' first
      | (with_reducible assumption) | ((with_reducible refine sub_step (by assumption) ?_); first | rfl | decide)
      | (with_reducible apply count_fr) | (with_reducible apply mcDrop_fr) | (with_reducible apply pushEvent_fr) | (split)
      | (intro _) | (refine frame_fst ?_ (by assumption)) | (dsimp only) | (with_reducible apply frame_any))) only [framed]

theorem execMulticastDataReceive_fr {E : Nat} {s0 s : State} (h : Frame E s0 s) {pkt : Packet} (hE : Sub 0x28000 E := by first | assumption | exact sub_step (by assumption) (by decide)) :
    OFrame E s0 (execMulticastDataReceive pkt s) := by
  simp (disch := (
    unfold OFrameOf
    unfold execMulticastDataReceive
    try dsimp only
    repeat' first
      | (with_reducible apply OFrame.next) | (with_reducible assumption)
      | ((with_reducible refine sub_step (by assumption) ?_); first | rfl | decide) | (with_reducible apply count_fr)
      | (with_reducible apply mcAuth_fr) | (with_reducible apply mcTake_fr) | (with_reducible apply whenLive_fr) | (split)
      | (intro _) | (refine frame_fst ?_ (by assumption)) | (dsimp only) | (with_reducible apply frame_any))) only [oframed]

theorem execAckReceive_fr {E : Nat} {s0 s : State} (h : Frame E s0 s) {pkt : Packet} (hE : Sub 0x6f2b43b E := by first | assumption | exact sub_step (by assumption) (by decide)) :
    OFrame E s0 (execAckReceive pkt s) := by
  simp (disch := (
    unfold OFrameOf
    unfold execAckReceive
    try dsimp only
    repeat' first
      | (with_reducible apply OFrame.next) | (with_reducible assumption)
      | ((with_reducible refine sub_step (by assumption) ?_); first | rfl | decide) | (with_reducible apply rxPacket_fr)
      | (with_reducible apply whenLive_fr) | (split) | (intro _) | (refine frame_fst ?_ (by assumption)) | (dsimp only)
      | (with_reducible apply frame_any))) only [oframed]

theorem execNackBusyReceive_fr {E : Nat} {s0 s : State} (h : Frame E s0 s) {pkt : Packet} (hE : Sub 0x6f2b43b E := by first | assumption | exact sub_step (by assumption) (by decide)) :
    OFrame E s0 (execNackBusyReceive pkt s) := by
  simp (disch := (
    unfold OFrameOf
    unfold execNackBusyReceive
    try dsimp only
    repeat' first
      | (with_reducible apply OFrame.next) | (with_reducible assumption)
      | ((with_reducible refine sub_step (by assumption) ?_); first | rfl | decide) | (with_reducible apply rxPacket_fr)
      | (with_reducible apply whenLive_fr) | (split) | (intro _) | (refine frame_fst ?_ (by assumption)) | (dsimp only)
      | (with_reducible apply frame_any))) only [oframed]

theorem execNackRetryExpiry_fr {E : Nat} {s0 s : State} (h : Frame E s0 s) {ctx : Nat} {stream : Nat} {psn : Nat} (hE : Sub 0x28000 E := by first | assumption | exact sub_step (by assumption) (by decide)) :
    OFrame E s0 (execNackRetryExpiry ctx stream psn s) := by
  simp (disch := (
    unfold OFrameOf
    unfold execNackRetryExpiry
    try dsimp only
    repeat' first
      | (with_reducible apply OFrame.next) | (with_reducible assumption)
      | ((with_reducible refine sub_step (by assumption) ?_); first | rfl | decide) | (with_reducible apply nackRetry_fr)
      | (with_reducible apply whenCtx_fr) | (split) | (intro _) | (refine frame_fst ?_ (by assumption)) | (dsimp only)
      | (with_reducible apply frame_any))) only [oframed]

theorem execRespDataReceive_fr {E : Nat} {s0 s : State} (h : Frame E s0 s) {pkt : Packet} (hE : Sub 0x6f2b43b E := by first | assumption | exact sub_step (by assumption) (by decide)) :
    OFrame E s0 (execRespDataReceive pkt s) := by
  simp (disch := (
    unfold OFrameOf
    unfold execRespDataReceive
    try dsimp only
    repeat' first
      | (with_reducible apply OFrame.next) | (with_reducible assumption)
      | ((with_reducible refine sub_step (by assumption) ?_); first | rfl | decide) | (with_reducible apply rxPacket_fr)
      | (with_reducible apply whenLive_fr) | (split) | (intro _) | (refine frame_fst ?_ (by assumption)) | (dsimp only)
      | (with_reducible apply frame_any))) only [oframed]

theorem execRespStatusReceive_fr {E : Nat} {s0 s : State} (h : Frame E s0 s) {pkt : Packet} (hE : Sub 0x6f2b43b E := by first | assumption | exact sub_step (by assumption) (by decide)) :
    OFrame E s0 (execRespStatusReceive pkt s) := by
  simp (disch := (
    unfold OFrameOf
    unfold execRespStatusReceive
    try dsimp only
    repeat' first
      | (with_reducible apply OFrame.next) | (with_reducible assumption)
      | ((with_reducible refine sub_step (by assumption) ?_); first | rfl | decide) | (with_reducible apply rxPacket_fr)
      | (with_reducible apply whenLive_fr) | (split) | (intro _) | (refine frame_fst ?_ (by assumption)) | (dsimp only)
      | (with_reducible apply frame_any))) only [oframed]

theorem execAckDelayExpiry_fr {E : Nat} {s0 s : State} (h : Frame E s0 s) {ctx : Nat} {stream : Nat} (hE : Sub 0x20000 E := by first | assumption | exact sub_step (by assumption) (by decide)) :
    OFrame E s0 (execAckDelayExpiry ctx stream s) := by
  simp (disch := (
    unfold OFrameOf
    unfold execAckDelayExpiry
    try dsimp only
    repeat' first
      | (with_reducible apply OFrame.next) | (with_reducible assumption)
      | ((with_reducible refine sub_step (by assumption) ?_); first | rfl | decide) | (with_reducible apply sendAck_fr)
      | (with_reducible apply whenCtx_fr) | (split) | (intro _) | (refine frame_fst ?_ (by assumption)) | (dsimp only)
      | (with_reducible apply frame_any))) only [oframed]

theorem execRtoExpiry_fr {E : Nat} {s0 s : State} (h : Frame E s0 s) {ctx : Nat} {stream : Nat} (hE : Sub 0x28000 E := by first | assumption | exact sub_step (by assumption) (by decide)) :
    OFrame E s0 (execRtoExpiry ctx stream s) := by
  simp (disch := (
    unfold OFrameOf
    unfold execRtoExpiry
    try dsimp only
    repeat' first
      | (with_reducible apply OFrame.next) | (with_reducible assumption)
      | ((with_reducible refine sub_step (by assumption) ?_); first | rfl | decide) | (with_reducible apply rtoOver_fr)
      | (with_reducible apply whenCtx_fr) | (split) | (intro _) | (refine frame_fst ?_ (by assumption)) | (dsimp only)
      | (with_reducible apply frame_any))) only [oframed]

theorem execContextFail_fr {E : Nat} {s0 s : State} (h : Frame E s0 s) {ctx : Nat} (hE : Sub 0x6f2b43b E := by first | assumption | exact sub_step (by assumption) (by decide)) :
    OFrame E s0 (execContextFail ctx s) := by
  simp (disch := (
    unfold OFrameOf
    unfold execContextFail
    try dsimp only
    repeat' first
      | (with_reducible apply OFrame.next) | (with_reducible assumption)
      | ((with_reducible refine sub_step (by assumption) ?_); first | rfl | decide) | (with_reducible apply failCtxClose_fr)
      | (with_reducible apply settleAll_fr) | (with_reducible apply whenCtx_fr) | (split) | (intro _)
      | (refine frame_fst ?_ (by assumption)) | (dsimp only) | (with_reducible apply frame_any))) only [oframed]

theorem execIdleCloseStart_fr {E : Nat} {s0 s : State} (h : Frame E s0 s) {ctx : Nat} (hE : Sub 0x20000 E := by first | assumption | exact sub_step (by assumption) (by decide)) :
    OFrame E s0 (execIdleCloseStart ctx s) := by
  simp (disch := (
    unfold OFrameOf
    unfold execIdleCloseStart
    try dsimp only
    repeat' first
      | (with_reducible apply OFrame.next) | (with_reducible assumption)
      | ((with_reducible refine sub_step (by assumption) ?_); first | rfl | decide) | (with_reducible apply startClose_fr)
      | (with_reducible apply touch_fr) | (with_reducible apply whenCtx_fr) | (split) | (intro _)
      | (refine frame_fst ?_ (by assumption)) | (dsimp only) | (with_reducible apply frame_any))) only [oframed]

theorem execCloseReqReceive_fr {E : Nat} {s0 s : State} (h : Frame E s0 s) {pkt : Packet} (hE : Sub 0x6f2b43b E := by first | assumption | exact sub_step (by assumption) (by decide)) :
    OFrame E s0 (execCloseReqReceive pkt s) := by
  simp (disch := (
    unfold OFrameOf
    unfold execCloseReqReceive
    try dsimp only
    repeat' first
      | (with_reducible apply OFrame.next) | (with_reducible assumption)
      | ((with_reducible refine sub_step (by assumption) ?_); first | rfl | decide) | (with_reducible apply rxPacket_fr)
      | (with_reducible apply whenLive_fr) | (split) | (intro _) | (refine frame_fst ?_ (by assumption)) | (dsimp only)
      | (with_reducible apply frame_any))) only [oframed]

theorem execCloseAckReceive_fr {E : Nat} {s0 s : State} (h : Frame E s0 s) {pkt : Packet} (hE : Sub 0x6f2b43b E := by first | assumption | exact sub_step (by assumption) (by decide)) :
    OFrame E s0 (execCloseAckReceive pkt s) := by
  simp (disch := (
    unfold OFrameOf
    unfold execCloseAckReceive
    try dsimp only
    repeat' first
      | (with_reducible apply OFrame.next) | (with_reducible assumption)
      | ((with_reducible refine sub_step (by assumption) ?_); first | rfl | decide) | (with_reducible apply rxPacket_fr)
      | (with_reducible apply whenLive_fr) | (split) | (intro _) | (refine frame_fst ?_ (by assumption)) | (dsimp only)
      | (with_reducible apply frame_any))) only [oframed]

theorem execCloseRefuseReceive_fr {E : Nat} {s0 s : State} (h : Frame E s0 s) {pkt : Packet} (hE : Sub 0x6f2b43b E := by first | assumption | exact sub_step (by assumption) (by decide)) :
    OFrame E s0 (execCloseRefuseReceive pkt s) := by
  simp (disch := (
    unfold OFrameOf
    unfold execCloseRefuseReceive
    try dsimp only
    repeat' first
      | (with_reducible apply OFrame.next) | (with_reducible assumption)
      | ((with_reducible refine sub_step (by assumption) ?_); first | rfl | decide) | (with_reducible apply rxPacket_fr)
      | (with_reducible apply whenLive_fr) | (split) | (intro _) | (refine frame_fst ?_ (by assumption)) | (dsimp only)
      | (with_reducible apply frame_any))) only [oframed]

theorem execJobCloseQuietTimeout_fr {E : Nat} {s0 s : State} (h : Frame E s0 s) {ctx : Nat} (hE : Sub 0x6f2b43b E := by first | assumption | exact sub_step (by assumption) (by decide)) :
    OFrame E s0 (execJobCloseQuietTimeout ctx s) := by
  simp (disch := (
    unfold OFrameOf
    unfold execJobCloseQuietTimeout
    try dsimp only
    repeat' first
      | (with_reducible apply OFrame.next) | (with_reducible assumption)
      | ((with_reducible refine sub_step (by assumption) ?_); first | rfl | decide) | (with_reducible apply quietClose_fr)
      | (with_reducible apply settleAll_fr) | (with_reducible apply whenCtx_fr) | (split) | (intro _)
      | (refine frame_fst ?_ (by assumption)) | (dsimp only) | (with_reducible apply frame_any))) only [oframed]

theorem execQuietExpiry_fr {E : Nat} {s0 s : State} (h : Frame E s0 s) {ctx : Nat} (hE : Sub 0x6f2b43b E := by first | assumption | exact sub_step (by assumption) (by decide)) :
    OFrame E s0 (execQuietExpiry ctx s) := by
  simp (disch := (
    unfold OFrameOf
    unfold execQuietExpiry
    try dsimp only
    repeat' first
      | (with_reducible apply OFrame.next) | (with_reducible assumption)
      | ((with_reducible refine sub_step (by assumption) ?_); first | rfl | decide) | (with_reducible apply freeCtx_fr)
      | (with_reducible apply settleAll_fr) | (with_reducible apply whenCtx_fr) | (split) | (intro _)
      | (refine frame_fst ?_ (by assumption)) | (dsimp only) | (with_reducible apply frame_any))) only [oframed]

theorem execContextFetchComplete_fr {E : Nat} {s0 s : State} (h : Frame E s0 s) {ctx : Nat} {ok : Bool} (hE : Sub 0x6f2b43b E := by first | assumption | exact sub_step (by assumption) (by decide)) :
    OFrame E s0 (execContextFetchComplete ctx ok s) := by
  simp (disch := (
    unfold OFrameOf
    unfold execContextFetchComplete
    try dsimp only
    repeat' first
      | (with_reducible apply OFrame.next) | (with_reducible assumption)
      | ((with_reducible refine sub_step (by assumption) ?_); first | rfl | decide) | (with_reducible apply ctxFetched_fr)
      | (with_reducible apply whenUp_fr) | (split) | (intro _) | (refine frame_fst ?_ (by assumption)) | (dsimp only)
      | (with_reducible apply frame_any))) only [oframed]

theorem execRegionEntryFetchComplete_fr {E : Nat} {s0 s : State} (h : Frame E s0 s) {key : Nat} (hE : Sub 0x6f2b43b E := by first | assumption | exact sub_step (by assumption) (by decide)) :
    OFrame E s0 (execRegionEntryFetchComplete key s) := by
  simp (disch := (
    unfold OFrameOf
    unfold execRegionEntryFetchComplete
    try dsimp only
    repeat' first
      | (with_reducible apply OFrame.next) | (with_reducible assumption)
      | ((with_reducible refine sub_step (by assumption) ?_); first | rfl | decide) | (with_reducible apply evictRegion_fr)
      | (with_reducible apply settleAll_fr) | (with_reducible apply unmoor_fr) | (with_reducible apply whenUp_fr) | (split)
      | (intro _) | (refine frame_fst ?_ (by assumption)) | (dsimp only) | (with_reducible apply frame_any))) only [oframed]

theorem writeTpRto_fr {E : Nat} {s0 s : State} (h : Frame E s0 s) {v : Nat} (hE : Sub 0x8004 E := by first | assumption | exact sub_step (by assumption) (by decide)) :
    Frame E s0 (State.writeTpRto s v) := by
  simp (disch := (
    unfold FrameOf
    unfold State.writeTpRto
    try dsimp only
    repeat' first
      | (with_reducible assumption) | ((with_reducible refine sub_step (by assumption) ?_); first | rfl | decide)
      | (with_reducible refine sub_fldb ?_ ?_) | (with_reducible exact sub_zero) | (with_reducible apply logRejected_fr)
      | (with_reducible apply setBounded_fr) | (with_reducible apply setFields_fr) | (split) | (intro _)
      | (refine frame_fst ?_ (by assumption)) | (dsimp only) | (with_reducible apply frame_any))) only [framed]

theorem writeTpRate_fr {E : Nat} {s0 s : State} (h : Frame E s0 s) {v : Nat} (hE : Sub 0x8004 E := by first | assumption | exact sub_step (by assumption) (by decide)) :
    Frame E s0 (State.writeTpRate s v) := by
  simp (disch := (
    unfold FrameOf
    unfold State.writeTpRate
    try dsimp only
    repeat' first
      | (with_reducible assumption) | ((with_reducible refine sub_step (by assumption) ?_); first | rfl | decide)
      | (with_reducible refine sub_fldb ?_ ?_) | (with_reducible exact sub_zero) | (with_reducible apply logRejected_fr)
      | (with_reducible apply setBounded_fr) | (with_reducible apply setFields_fr) | (split) | (intro _)
      | (refine frame_fst ?_ (by assumption)) | (dsimp only) | (with_reducible apply frame_any))) only [framed]

theorem writeTp_fr {E : Nat} {s0 s : State} (h : Frame E s0 s) {reg : Nat} {v : Nat} (hE : Sub 0x8004 E := by first | assumption | exact sub_step (by assumption) (by decide)) :
    Frame E s0 (State.writeTp s reg v) := by
  simp (disch := (
    unfold FrameOf
    unfold State.writeTp
    try dsimp only
    repeat' first
      | (with_reducible assumption) | ((with_reducible refine sub_step (by assumption) ?_); first | rfl | decide)
      | (with_reducible refine sub_fldb ?_ ?_) | (with_reducible exact sub_zero) | (with_reducible apply setBounded_fr)
      | (with_reducible apply setFields_fr) | (with_reducible apply writeTpRate_fr) | (with_reducible apply writeTpRto_fr)
      | (split) | (intro _) | (refine frame_fst ?_ (by assumption)) | (dsimp only) | (with_reducible apply frame_any))) only [framed]

theorem execTpCfgWrite_fr {E : Nat} {s0 s : State} (h : Frame E s0 s) {reg : Nat} {v : Nat} (hE : Sub 0x28004 E := by first | assumption | exact sub_step (by assumption) (by decide)) :
    OFrame E s0 (execTpCfgWrite reg v s) := by
  simp (disch := (
    unfold OFrameOf
    unfold execTpCfgWrite
    try dsimp only
    repeat' first
      | (with_reducible apply OFrame.next) | (with_reducible assumption)
      | ((with_reducible refine sub_step (by assumption) ?_); first | rfl | decide) | (with_reducible apply grant_fr)
      | (with_reducible apply whenUp_fr) | (with_reducible apply writeTp_fr) | (split) | (intro _)
      | (refine frame_fst ?_ (by assumption)) | (dsimp only) | (with_reducible apply frame_any))) only [oframed]

theorem writeMfQuota_fr {E : Nat} {s0 s : State} (h : Frame E s0 s) {slot : Nat} {v : Nat} (hE : Sub 0x8 E := by first | assumption | exact sub_step (by assumption) (by decide)) :
    Frame E s0 (State.writeMfQuota s slot v) := by
  simp (disch := (
    unfold FrameOf
    unfold State.writeMfQuota
    try dsimp only
    repeat' first
      | (with_reducible assumption) | ((with_reducible refine sub_step (by assumption) ?_); first | rfl | decide)
      | (with_reducible refine sub_fldb ?_ ?_) | (with_reducible exact sub_zero) | (with_reducible apply setBounded_fr)
      | (split) | (intro _) | (refine frame_fst ?_ (by assumption)) | (dsimp only) | (with_reducible apply frame_any))) only [framed]

theorem execMfQuotaWrite_fr {E : Nat} {s0 s : State} (h : Frame E s0 s) {slot : Nat} {v : Nat} (hE : Sub 0x8 E := by first | assumption | exact sub_step (by assumption) (by decide)) :
    OFrame E s0 (execMfQuotaWrite slot v s) := by
  simp (disch := (
    unfold OFrameOf
    unfold execMfQuotaWrite
    try dsimp only
    repeat' first
      | (with_reducible apply OFrame.next) | (with_reducible assumption)
      | ((with_reducible refine sub_step (by assumption) ?_); first | rfl | decide) | (with_reducible apply whenUp_fr)
      | (with_reducible apply writeMfQuota_fr) | (split) | (intro _) | (refine frame_fst ?_ (by assumption)) | (dsimp only)
      | (with_reducible apply frame_any))) only [oframed]

theorem execRevokeReceive_fr {E : Nat} {s0 s : State} (h : Frame E s0 s) {pkt : Packet} (hE : Sub 0x6f2b43b E := by first | assumption | exact sub_step (by assumption) (by decide)) :
    OFrame E s0 (execRevokeReceive pkt s) := by
  simp (disch := (
    unfold OFrameOf
    unfold execRevokeReceive
    try dsimp only
    repeat' first
      | (with_reducible apply OFrame.next) | (with_reducible assumption)
      | ((with_reducible refine sub_step (by assumption) ?_); first | rfl | decide) | (with_reducible apply rxPacket_fr)
      | (with_reducible apply whenLive_fr) | (split) | (intro _) | (refine frame_fst ?_ (by assumption)) | (dsimp only)
      | (with_reducible apply frame_any))) only [oframed]

theorem execConfirmReceive_fr {E : Nat} {s0 s : State} (h : Frame E s0 s) {pkt : Packet} (hE : Sub 0x6f2b43b E := by first | assumption | exact sub_step (by assumption) (by decide)) :
    OFrame E s0 (execConfirmReceive pkt s) := by
  simp (disch := (
    unfold OFrameOf
    unfold execConfirmReceive
    try dsimp only
    repeat' first
      | (with_reducible apply OFrame.next) | (with_reducible assumption)
      | ((with_reducible refine sub_step (by assumption) ?_); first | rfl | decide) | (with_reducible apply rxPacket_fr)
      | (with_reducible apply whenLive_fr) | (split) | (intro _) | (refine frame_fst ?_ (by assumption)) | (dsimp only)
      | (with_reducible apply frame_any))) only [oframed]

theorem execRevokeDoneReceive_fr {E : Nat} {s0 s : State} (h : Frame E s0 s) {pkt : Packet} (hE : Sub 0x6f2b43b E := by first | assumption | exact sub_step (by assumption) (by decide)) :
    OFrame E s0 (execRevokeDoneReceive pkt s) := by
  simp (disch := (
    unfold OFrameOf
    unfold execRevokeDoneReceive
    try dsimp only
    repeat' first
      | (with_reducible apply OFrame.next) | (with_reducible assumption)
      | ((with_reducible refine sub_step (by assumption) ?_); first | rfl | decide) | (with_reducible apply rxPacket_fr)
      | (with_reducible apply whenLive_fr) | (split) | (intro _) | (refine frame_fst ?_ (by assumption)) | (dsimp only)
      | (with_reducible apply frame_any))) only [oframed]

theorem execRevokeRepeat_fr {E : Nat} {s0 s : State} (h : Frame E s0 s) {slot : Nat} {window : Nat} {origin : Nat} {serial : Nat} (hE : Sub 0x20000 E := by first | assumption | exact sub_step (by assumption) (by decide)) :
    OFrame E s0 (execRevokeRepeat slot window origin serial s) := by
  simp (disch := (
    unfold OFrameOf
    unfold execRevokeRepeat
    try dsimp only
    repeat' first
      | (with_reducible apply OFrame.next) | (with_reducible assumption)
      | ((with_reducible refine sub_step (by assumption) ?_); first | rfl | decide) | (with_reducible apply revokeDue_fr)
      | (with_reducible apply whenDue_fr) | (split) | (intro _) | (refine frame_fst ?_ (by assumption)) | (dsimp only)
      | (with_reducible apply frame_any))) only [oframed]

theorem execRevokeFailTime_fr {E : Nat} {s0 s : State} (h : Frame E s0 s) {slot : Nat} {window : Nat} (hE : Sub 0xb28002 E := by first | assumption | exact sub_step (by assumption) (by decide)) :
    OFrame E s0 (execRevokeFailTime slot window s) := by
  simp (disch := (
    unfold OFrameOf
    unfold execRevokeFailTime
    try dsimp only
    repeat' first
      | (with_reducible apply OFrame.next) | (with_reducible assumption)
      | ((with_reducible refine sub_step (by assumption) ?_); first | rfl | decide) | (with_reducible apply revokeExpire_fr)
      | (with_reducible apply whenDue_fr) | (split) | (intro _) | (refine frame_fst ?_ (by assumption)) | (dsimp only)
      | (with_reducible apply frame_any))) only [oframed]

theorem execRegionDeregisterComplete_fr {E : Nat} {s0 s : State} (h : Frame E s0 s) {key : Nat} (hE : Sub 0xb28002 E := by first | assumption | exact sub_step (by assumption) (by decide)) :
    OFrame E s0 (execRegionDeregisterComplete key s) := by
  simp (disch := (
    unfold OFrameOf
    unfold execRegionDeregisterComplete
    try dsimp only
    repeat' first
      | (with_reducible apply OFrame.next) | (with_reducible assumption)
      | ((with_reducible refine sub_step (by assumption) ?_); first | rfl | decide) | (with_reducible apply endPriv_fr)
      | (with_reducible apply endRegion_fr) | (with_reducible apply whenUp_fr) | (split) | (intro _)
      | (refine frame_fst ?_ (by assumption)) | (dsimp only) | (with_reducible apply frame_any))) only [oframed]

theorem execRegionQuarantineEnd_fr {E : Nat} {s0 s : State} (h : Frame E s0 s) {key : Nat} (hE : Sub 0x20000 E := by first | assumption | exact sub_step (by assumption) (by decide)) :
    OFrame E s0 (execRegionQuarantineEnd key s) := by
  simp (disch := (
    unfold OFrameOf
    unfold execRegionQuarantineEnd
    try dsimp only
    repeat' first
      | (with_reducible apply OFrame.next) | (with_reducible assumption)
      | ((with_reducible refine sub_step (by assumption) ?_); first | rfl | decide) | (with_reducible apply whenDue_fr)
      | (split) | (intro _) | (refine frame_fst ?_ (by assumption)) | (dsimp only) | (with_reducible apply frame_any))) only [oframed]

end Sys2Proof.Laws
end

