-- ==== Sys2Proof/Laws/FrCollectives.lean ====
section
/-! SUPPORT. The frame of every operation of Machine/Collectives.lean (`Laws.Frame`). -/

namespace Sys2Proof.Laws

open Sys2Proof.Machine

set_option linter.all false
set_option Elab.async false

theorem collArrives_fr {E : Nat} {s0 s : State} (h : Frame E s0 s) {p : Packet} {kind : Nat} (hE : Sub 0x6f2b43b E := by first | assumption | exact sub_step (by assumption) (by decide)) :
    Frame E s0 (State.collArrives s p kind) := by
  simp (disch := (
    unfold FrameOf
    unfold State.collArrives
    try dsimp only
    repeat' first
      | (with_reducible assumption) | ((with_reducible refine sub_step (by assumption) ?_); first | rfl | decide)
      | (with_reducible apply rxPacket_fr) | (split) | (intro _) | (refine frame_fst ?_ (by assumption)) | (dsimp only)
      | (with_reducible apply frame_any))) only [framed]

theorem execJoinReceive_fr {E : Nat} {s0 s : State} (h : Frame E s0 s) {pkt : Packet} (hE : Sub 0x6f2b43b E := by first | assumption | exact sub_step (by assumption) (by decide)) :
    OFrame E s0 (execJoinReceive pkt s) := by
  simp (disch := (
    unfold OFrameOf
    unfold execJoinReceive
    try dsimp only
    repeat' first
      | (with_reducible apply OFrame.next) | (with_reducible assumption)
      | ((with_reducible refine sub_step (by assumption) ?_); first | rfl | decide) | (with_reducible apply collArrives_fr)
      | (with_reducible apply whenLive_fr) | (split) | (intro _) | (refine frame_fst ?_ (by assumption)) | (dsimp only)
      | (with_reducible apply frame_any))) only [oframed]

theorem execPartReceive_fr {E : Nat} {s0 s : State} (h : Frame E s0 s) {pkt : Packet} (hE : Sub 0x6f2b43b E := by first | assumption | exact sub_step (by assumption) (by decide)) :
    OFrame E s0 (execPartReceive pkt s) := by
  simp (disch := (
    unfold OFrameOf
    unfold execPartReceive
    try dsimp only
    repeat' first
      | (with_reducible apply OFrame.next) | (with_reducible assumption)
      | ((with_reducible refine sub_step (by assumption) ?_); first | rfl | decide) | (with_reducible apply collArrives_fr)
      | (with_reducible apply whenLive_fr) | (split) | (intro _) | (refine frame_fst ?_ (by assumption)) | (dsimp only)
      | (with_reducible apply frame_any))) only [oframed]

theorem execEscapeReceive_fr {E : Nat} {s0 s : State} (h : Frame E s0 s) {pkt : Packet} (hE : Sub 0x6f2b43b E := by first | assumption | exact sub_step (by assumption) (by decide)) :
    OFrame E s0 (execEscapeReceive pkt s) := by
  simp (disch := (
    unfold OFrameOf
    unfold execEscapeReceive
    try dsimp only
    repeat' first
      | (with_reducible apply OFrame.next) | (with_reducible assumption)
      | ((with_reducible refine sub_step (by assumption) ?_); first | rfl | decide) | (with_reducible apply collArrives_fr)
      | (with_reducible apply whenLive_fr) | (split) | (intro _) | (refine frame_fst ?_ (by assumption)) | (dsimp only)
      | (with_reducible apply frame_any))) only [oframed]

theorem execResultReceive_fr {E : Nat} {s0 s : State} (h : Frame E s0 s) {pkt : Packet} (hE : Sub 0x6f2b43b E := by first | assumption | exact sub_step (by assumption) (by decide)) :
    OFrame E s0 (execResultReceive pkt s) := by
  simp (disch := (
    unfold OFrameOf
    unfold execResultReceive
    try dsimp only
    repeat' first
      | (with_reducible apply OFrame.next) | (with_reducible assumption)
      | ((with_reducible refine sub_step (by assumption) ?_); first | rfl | decide) | (with_reducible apply collArrives_fr)
      | (with_reducible apply whenLive_fr) | (split) | (intro _) | (refine frame_fst ?_ (by assumption)) | (dsimp only)
      | (with_reducible apply frame_any))) only [oframed]

theorem execCollDoneReceive_fr {E : Nat} {s0 s : State} (h : Frame E s0 s) {pkt : Packet} (hE : Sub 0x6f2b43b E := by first | assumption | exact sub_step (by assumption) (by decide)) :
    OFrame E s0 (execCollDoneReceive pkt s) := by
  simp (disch := (
    unfold OFrameOf
    unfold execCollDoneReceive
    try dsimp only
    repeat' first
      | (with_reducible apply OFrame.next) | (with_reducible assumption)
      | ((with_reducible refine sub_step (by assumption) ?_); first | rfl | decide) | (with_reducible apply collArrives_fr)
      | (with_reducible apply whenLive_fr) | (split) | (intro _) | (refine frame_fst ?_ (by assumption)) | (dsimp only)
      | (with_reducible apply frame_any))) only [oframed]

theorem execCollFailReceive_fr {E : Nat} {s0 s : State} (h : Frame E s0 s) {pkt : Packet} (hE : Sub 0x6f2b43b E := by first | assumption | exact sub_step (by assumption) (by decide)) :
    OFrame E s0 (execCollFailReceive pkt s) := by
  simp (disch := (
    unfold OFrameOf
    unfold execCollFailReceive
    try dsimp only
    repeat' first
      | (with_reducible apply OFrame.next) | (with_reducible assumption)
      | ((with_reducible refine sub_step (by assumption) ?_); first | rfl | decide) | (with_reducible apply collArrives_fr)
      | (with_reducible apply whenLive_fr) | (split) | (intro _) | (refine frame_fst ?_ (by assumption)) | (dsimp only)
      | (with_reducible apply frame_any))) only [oframed]

theorem execCollTimeout_fr {E : Nat} {s0 s : State} (h : Frame E s0 s) {ctx : Nat} {inst : Nat} (hE : Sub 0x6f2b43b E := by first | assumption | exact sub_step (by assumption) (by decide)) :
    OFrame E s0 (execCollTimeout ctx inst s) := by
  simp (disch := (
    unfold OFrameOf
    unfold execCollTimeout
    try dsimp only
    repeat' first
      | (with_reducible apply OFrame.next) | (with_reducible assumption)
      | ((with_reducible refine sub_step (by assumption) ?_); first | rfl | decide) | (with_reducible apply collFail_fr)
      | (with_reducible apply settleAll_fr) | (with_reducible apply whenDue_fr) | (split) | (intro _)
      | (refine frame_fst ?_ (by assumption)) | (dsimp only) | (with_reducible apply frame_any))) only [oframed]

theorem execRejoinReceive_fr {E : Nat} {s0 s : State} (h : Frame E s0 s) {pkt : Packet} (hE : Sub 0x6f2b43b E := by first | assumption | exact sub_step (by assumption) (by decide)) :
    OFrame E s0 (execRejoinReceive pkt s) := by
  simp (disch := (
    unfold OFrameOf
    unfold execRejoinReceive
    try dsimp only
    repeat' first
      | (with_reducible apply OFrame.next) | (with_reducible assumption)
      | ((with_reducible refine sub_step (by assumption) ?_); first | rfl | decide) | (with_reducible apply collArrives_fr)
      | (with_reducible apply whenLive_fr) | (split) | (intro _) | (refine frame_fst ?_ (by assumption)) | (dsimp only)
      | (with_reducible apply frame_any))) only [oframed]

theorem execRerunReceive_fr {E : Nat} {s0 s : State} (h : Frame E s0 s) {pkt : Packet} (hE : Sub 0x6f2b43b E := by first | assumption | exact sub_step (by assumption) (by decide)) :
    OFrame E s0 (execRerunReceive pkt s) := by
  simp (disch := (
    unfold OFrameOf
    unfold execRerunReceive
    try dsimp only
    repeat' first
      | (with_reducible apply OFrame.next) | (with_reducible assumption)
      | ((with_reducible refine sub_step (by assumption) ?_); first | rfl | decide) | (with_reducible apply collArrives_fr)
      | (with_reducible apply whenLive_fr) | (split) | (intro _) | (refine frame_fst ?_ (by assumption)) | (dsimp only)
      | (with_reducible apply frame_any))) only [oframed]

theorem rejoinAgain_fr {E : Nat} {s0 s : State} (h : Frame E s0 s) {c : Nat} (hE : Sub 0x20000 E := by first | assumption | exact sub_step (by assumption) (by decide)) :
    Frame E s0 (State.rejoinAgain s c) := by
  simp (disch := (
    unfold FrameOf
    unfold State.rejoinAgain
    try dsimp only
    repeat' first
      | (with_reducible assumption) | ((with_reducible refine sub_step (by assumption) ?_); first | rfl | decide)
      | (with_reducible apply armRejoin_fr) | (with_reducible apply collTell_fr) | (with_reducible apply forEach_fr)
      | (with_reducible apply updInst_fr) | (split) | (intro _) | (refine frame_fst ?_ (by assumption)) | (dsimp only)
      | (with_reducible apply frame_any))) only [framed]

theorem execRejoinRepeat_fr {E : Nat} {s0 s : State} (h : Frame E s0 s) {ctx : Nat} (hE : Sub 0x20000 E := by first | assumption | exact sub_step (by assumption) (by decide)) :
    OFrame E s0 (execRejoinRepeat ctx s) := by
  simp (disch := (
    unfold OFrameOf
    unfold execRejoinRepeat
    try dsimp only
    repeat' first
      | (with_reducible apply OFrame.next) | (with_reducible assumption)
      | ((with_reducible refine sub_step (by assumption) ?_); first | rfl | decide) | (with_reducible apply rejoinAgain_fr)
      | (with_reducible apply whenDue_fr) | (split) | (intro _) | (refine frame_fst ?_ (by assumption)) | (dsimp only)
      | (with_reducible apply frame_any))) only [oframed]

theorem execCollCreditReceive_fr {E : Nat} {s0 s : State} (h : Frame E s0 s) {pkt : Packet} (hE : Sub 0x6f2b43b E := by first | assumption | exact sub_step (by assumption) (by decide)) :
    OFrame E s0 (execCollCreditReceive pkt s) := by
  simp (disch := (
    unfold OFrameOf
    unfold execCollCreditReceive
    try dsimp only
    repeat' first
      | (with_reducible apply OFrame.next) | (with_reducible assumption)
      | ((with_reducible refine sub_step (by assumption) ?_); first | rfl | decide) | (with_reducible apply collArrives_fr)
      | (with_reducible apply whenLive_fr) | (split) | (intro _) | (refine frame_fst ?_ (by assumption)) | (dsimp only)
      | (with_reducible apply frame_any))) only [oframed]

theorem creditReturn_fr {E : Nat} {s0 s : State} (h : Frame E s0 s) {c : Nat} {node : Nat} (hE : Sub 0x20000 E := by first | assumption | exact sub_step (by assumption) (by decide)) :
    Frame E s0 (State.creditReturn s c node) := by
  simp (disch := (
    unfold FrameOf
    unfold State.creditReturn
    try dsimp only
    repeat' first
      | (with_reducible assumption) | ((with_reducible refine sub_step (by assumption) ?_); first | rfl | decide)
      | (with_reducible apply collTell_fr) | (split) | (intro _) | (refine frame_fst ?_ (by assumption)) | (dsimp only)
      | (with_reducible apply frame_any))) only [framed]

theorem execCollCreditReturn_fr {E : Nat} {s0 s : State} (h : Frame E s0 s) {ctx : Nat} {child : Nat} (hE : Sub 0x20000 E := by first | assumption | exact sub_step (by assumption) (by decide)) :
    OFrame E s0 (execCollCreditReturn ctx child s) := by
  simp (disch := (
    unfold OFrameOf
    unfold execCollCreditReturn
    try dsimp only
    repeat' first
      | (with_reducible apply OFrame.next) | (with_reducible assumption)
      | ((with_reducible refine sub_step (by assumption) ?_); first | rfl | decide) | (with_reducible apply creditReturn_fr)
      | (with_reducible apply whenLive_fr) | (split) | (intro _) | (refine frame_fst ?_ (by assumption)) | (dsimp only)
      | (with_reducible apply frame_any))) only [oframed]

theorem writeLandpool_fr {E : Nat} {s0 s : State} (h : Frame E s0 s) {v : Nat} (hE : Sub 0x8020 E := by first | assumption | exact sub_step (by assumption) (by decide)) :
    Frame E s0 (State.writeLandpool s v) := by
  simp (disch := (
    unfold FrameOf
    unfold State.writeLandpool
    try dsimp only
    repeat' first
      | (with_reducible assumption) | ((with_reducible refine sub_step (by assumption) ?_); first | rfl | decide)
      | (with_reducible apply logRejected_fr) | (with_reducible apply setFields_fr) | (split) | (intro _)
      | (refine frame_fst ?_ (by assumption)) | (dsimp only) | (with_reducible apply frame_any))) only [framed]

theorem execHdRegWrite_fr {E : Nat} {s0 s : State} (h : Frame E s0 s) {v : Nat} (hE : Sub 0x8020 E := by first | assumption | exact sub_step (by assumption) (by decide)) :
    OFrame E s0 (execHdRegWrite v s) := by
  simp (disch := (
    unfold OFrameOf
    unfold execHdRegWrite
    try dsimp only
    repeat' first
      | (with_reducible apply OFrame.next) | (with_reducible assumption)
      | ((with_reducible refine sub_step (by assumption) ?_); first | rfl | decide) | (with_reducible apply whenUp_fr)
      | (with_reducible apply writeLandpool_fr) | (split) | (intro _) | (refine frame_fst ?_ (by assumption)) | (dsimp only)
      | (with_reducible apply frame_any))) only [oframed]

theorem refillEntry_fr {E : Nat} {s0 s : State} (h : Frame E s0 s) {c : Nat} {n : Nat} (hE : Sub 0x20000 E := by first | assumption | exact sub_step (by assumption) (by decide)) :
    Frame E s0 (State.refillEntry s c n) := by
  simp (disch := (
    unfold FrameOf
    unfold State.refillEntry
    try dsimp only
    repeat' first
      | (with_reducible assumption) | ((with_reducible refine sub_step (by assumption) ?_); first | rfl | decide)
      | (with_reducible apply count_fr) | (with_reducible apply updMsg_fr) | (with_reducible apply updRecv_fr) | (split)
      | (intro _) | (refine frame_fst ?_ (by assumption)) | (dsimp only) | (with_reducible apply frame_any))) only [framed]

theorem loseEntry_fr {E : Nat} {s0 s : State} (h : Frame E s0 s) {c : Nat} {n : Nat} (hE : Sub 0x4f28402 E := by first | assumption | exact sub_step (by assumption) (by decide)) :
    Frame E s0 (State.loseEntry s c n) := by
  simp (disch := (
    unfold FrameOf
    unfold State.loseEntry
    try dsimp only
    repeat' first
      | (with_reducible assumption) | ((with_reducible refine sub_step (by assumption) ?_); first | rfl | decide)
      | (with_reducible apply count_fr) | (with_reducible apply raise_fr) | (with_reducible apply recvEnd_fr) | (split)
      | (intro _) | (refine frame_fst ?_ (by assumption)) | (dsimp only) | (with_reducible apply frame_any))) only [framed]

theorem execSpillRefill_fr {E : Nat} {s0 s : State} (h : Frame E s0 s) {c : Nat} {ok : Bool} (hE : Sub 0x6f2b43b E := by first | assumption | exact sub_step (by assumption) (by decide)) :
    OFrame E s0 (execSpillRefill c ok s) := by
  simp (disch := (
    unfold OFrameOf
    unfold execSpillRefill
    try dsimp only
    repeat' first
      | (with_reducible apply OFrame.next) | (with_reducible assumption)
      | ((with_reducible refine sub_step (by assumption) ?_); first | rfl | decide) | (with_reducible apply loseEntry_fr)
      | (with_reducible apply refillEntry_fr) | (with_reducible apply settleAll_fr) | (with_reducible apply whenUp_fr) | (split)
      | (intro _) | (refine frame_fst ?_ (by assumption)) | (dsimp only) | (with_reducible apply frame_any))) only [oframed]

theorem writeUxpool_fr {E : Nat} {s0 s : State} (h : Frame E s0 s) {v : Nat} (hE : Sub 0x8010 E := by first | assumption | exact sub_step (by assumption) (by decide)) :
    Frame E s0 (State.writeUxpool s v) := by
  simp (disch := (
    unfold FrameOf
    unfold State.writeUxpool
    try dsimp only
    repeat' first
      | (with_reducible assumption) | ((with_reducible refine sub_step (by assumption) ?_); first | rfl | decide)
      | (with_reducible apply logRejected_fr) | (with_reducible apply setFields_fr) | (split) | (intro _)
      | (refine frame_fst ?_ (by assumption)) | (dsimp only) | (with_reducible apply frame_any))) only [framed]

theorem writeMatchQuota_fr {E : Nat} {s0 s : State} (h : Frame E s0 s) {slot : Nat} {v : Nat} (hE : Sub 0x10 E := by first | assumption | exact sub_step (by assumption) (by decide)) :
    Frame E s0 (State.writeMatchQuota s slot v) := by
  simp (disch := (
    unfold FrameOf
    unfold State.writeMatchQuota
    try dsimp only
    repeat' first
      | (with_reducible assumption) | ((with_reducible refine sub_step (by assumption) ?_); first | rfl | decide)
      | (with_reducible refine sub_fldb ?_ ?_) | (with_reducible exact sub_zero) | (with_reducible apply setBounded_fr)
      | (with_reducible apply setFields_fr) | (split) | (intro _) | (refine frame_fst ?_ (by assumption)) | (dsimp only)
      | (with_reducible apply frame_any))) only [framed]

theorem writeCatcher_fr {E : Nat} {s0 s : State} (h : Frame E s0 s) {reg : Nat} {slot : Nat} {v : Nat} (hE : Sub 0x8010 E := by first | assumption | exact sub_step (by assumption) (by decide)) :
    Frame E s0 (State.writeCatcher s reg slot v) := by
  simp (disch := (
    unfold FrameOf
    unfold State.writeCatcher
    try dsimp only
    repeat' first
      | (with_reducible assumption) | ((with_reducible refine sub_step (by assumption) ?_); first | rfl | decide)
      | (with_reducible refine sub_fldb ?_ ?_) | (with_reducible exact sub_zero) | (with_reducible apply setBounded_fr)
      | (with_reducible apply writeMatchQuota_fr) | (with_reducible apply writeUxpool_fr) | (split) | (intro _)
      | (refine frame_fst ?_ (by assumption)) | (dsimp only) | (with_reducible apply frame_any))) only [framed]

theorem execCatcherRegWrite_fr {E : Nat} {s0 s : State} (h : Frame E s0 s) {reg : Nat} {slot : Nat} {v : Nat} (hE : Sub 0x6f2b43b E := by first | assumption | exact sub_step (by assumption) (by decide)) :
    OFrame E s0 (execCatcherRegWrite reg slot v s) := by
  simp (disch := (
    unfold OFrameOf
    unfold execCatcherRegWrite
    try dsimp only
    repeat' first
      | (with_reducible apply OFrame.next) | (with_reducible assumption)
      | ((with_reducible refine sub_step (by assumption) ?_); first | rfl | decide) | (with_reducible apply settleAll_fr)
      | (with_reducible apply whenUp_fr) | (with_reducible apply writeCatcher_fr) | (split) | (intro _)
      | (refine frame_fst ?_ (by assumption)) | (dsimp only) | (with_reducible apply frame_any))) only [oframed]

end Sys2Proof.Laws
end

