-- ==== Sys2Proof/Laws/FrRingOps.lean ====
section
/-! SUPPORT. The frame of every operation of Machine/RingOps.lean (`Laws.Frame`). -/

namespace Sys2Proof.Laws

open Sys2Proof.Machine

set_option linter.all false
set_option Elab.async false

theorem dbForeign_fr {E : Nat} {s0 s : State} (h : Frame E s0 s) {q : Nat} (hE : Sub 0x2000 E := by first | assumption | exact sub_step (by assumption) (by decide)) :
    Frame E s0 (State.dbForeign s q) := by
  simp (disch := (
    unfold FrameOf
    unfold State.dbForeign
    try dsimp only
    repeat' first
      | (with_reducible assumption) | ((with_reducible refine sub_step (by assumption) ?_); first | rfl | decide)
      | (with_reducible apply incSat_fr) | (split) | (intro _) | (refine frame_fst ?_ (by assumption)) | (dsimp only)
      | (with_reducible apply frame_any))) only [framed]

theorem takeDoorbell_fr {E : Nat} {s0 s : State} (h : Frame E s0 s) {q : Nat} {d : Nat} (hE : Sub 0xb28002 E := by first | assumption | exact sub_step (by assumption) (by decide)) :
    Frame E s0 (State.takeDoorbell s q d) := by
  simp (disch := (
    unfold FrameOf
    unfold State.takeDoorbell
    try dsimp only
    repeat' first
      | (with_reducible assumption) | ((with_reducible refine sub_step (by assumption) ?_); first | rfl | decide)
      | (with_reducible apply count_fr) | (with_reducible apply failQueue_fr) | (with_reducible apply incSat_fr)
      | (with_reducible apply wr_fr) | (split) | (intro _) | (refine frame_fst ?_ (by assumption)) | (dsimp only)
      | (with_reducible apply frame_any))) only [framed]

end Sys2Proof.Laws
end

