-- ==== Sys2Proof/Laws/FrWharf.lean ====
section
/-! SUPPORT. The frame of every operation of Machine/Wharf.lean (`Laws.Frame`). -/

namespace Sys2Proof.Laws

open Sys2Proof.Machine

set_option linter.all false
set_option Elab.async false

theorem lineRoom_fr {E : Nat} {s0 s : State} (h : Frame E s0 s) {line : Nat} (hE : Sub 0x20000 E := by first | assumption | exact sub_step (by assumption) (by decide)) :
    Frame E s0 (State.lineRoom s line) := by
  simp (disch := (
    unfold FrameOf
    unfold State.lineRoom
    try dsimp only
    repeat' first
      | (with_reducible assumption) | ((with_reducible refine sub_step (by assumption) ?_); first | rfl | decide)
      | (with_reducible apply count_fr) | (split) | (intro _) | (refine frame_fst ?_ (by assumption)) | (dsimp only)
      | (with_reducible apply frame_any))) only [framed]

theorem putLine_fr {E : Nat} {s0 s : State} (h : Frame E s0 s) {l : Line} :
    Frame E s0 (State.putLine s l) := by
  simp (disch := (
    unfold FrameOf
    unfold State.putLine
    try dsimp only
    repeat' first
      | (with_reducible assumption) | (split) | (intro _) | (refine frame_fst ?_ (by assumption)) | (dsimp only)
      | (with_reducible apply frame_any))) only [framed]

theorem lineRead_fr {E : Nat} {s0 s : State} (h : Frame E s0 s) {f : Nat} {addr : Nat} (hE : Sub 0x20000 E := by first | assumption | exact sub_step (by assumption) (by decide)) :
    Frame E s0 (State.lineRead s f addr) := by
  simp (disch := (
    unfold FrameOf
    unfold State.lineRead
    try dsimp only
    repeat' first
      | (with_reducible assumption) | ((with_reducible refine sub_step (by assumption) ?_); first | rfl | decide)
      | (with_reducible apply lineMove_fr) | (with_reducible apply lineRoom_fr) | (with_reducible apply putLine_fr) | (split)
      | (intro _) | (refine frame_fst ?_ (by assumption)) | (dsimp only) | (with_reducible apply frame_any))) only [framed]

theorem lineOwn_fr {E : Nat} {s0 s : State} (h : Frame E s0 s) {f : Nat} {addr : Nat} (hE : Sub 0x20000 E := by first | assumption | exact sub_step (by assumption) (by decide)) :
    Frame E s0 (State.lineOwn s f addr) := by
  simp (disch := (
    unfold FrameOf
    unfold State.lineOwn
    try dsimp only
    repeat' first
      | (with_reducible assumption) | ((with_reducible refine sub_step (by assumption) ?_); first | rfl | decide)
      | (with_reducible apply lineMove_fr) | (with_reducible apply lineRoom_fr) | (with_reducible apply putLine_fr) | (split)
      | (intro _) | (refine frame_fst ?_ (by assumption)) | (dsimp only) | (with_reducible apply frame_any))) only [framed]

theorem lineEvict_fr {E : Nat} {s0 s : State} (h : Frame E s0 s) {f : Nat} {addr : Nat} :
    Frame E s0 (State.lineEvict s f addr) := by
  simp (disch := (
    unfold FrameOf
    unfold State.lineEvict
    try dsimp only
    repeat' first
      | (with_reducible assumption) | (with_reducible apply putLine_fr) | (split) | (intro _)
      | (refine frame_fst ?_ (by assumption)) | (dsimp only) | (with_reducible apply frame_any))) only [framed]

theorem linePoison_fr {E : Nat} {s0 s : State} (h : Frame E s0 s) {addr : Nat} (hE : Sub 0x20000 E := by first | assumption | exact sub_step (by assumption) (by decide)) :
    Frame E s0 (State.linePoison s addr) := by
  simp (disch := (
    unfold FrameOf
    unfold State.linePoison
    try dsimp only
    repeat' first
      | (with_reducible assumption) | ((with_reducible refine sub_step (by assumption) ?_); first | rfl | decide)
      | (with_reducible apply count_fr) | (with_reducible apply raise_fr) | (split) | (intro _)
      | (refine frame_fst ?_ (by assumption)) | (dsimp only) | (with_reducible apply frame_any))) only [framed]

theorem execFerryRead_fr {E : Nat} {s0 s : State} (h : Frame E s0 s) {f : Nat} {addr : Nat} (hE : Sub 0x20000 E := by first | assumption | exact sub_step (by assumption) (by decide)) :
    OFrame E s0 (execFerryRead f addr s) := by
  simp (disch := (
    unfold OFrameOf
    unfold execFerryRead
    try dsimp only
    repeat' first
      | (with_reducible apply OFrame.next) | (with_reducible assumption)
      | ((with_reducible refine sub_step (by assumption) ?_); first | rfl | decide) | (with_reducible apply lineRead_fr)
      | (with_reducible apply whenUp_fr) | (split) | (intro _) | (refine frame_fst ?_ (by assumption)) | (dsimp only)
      | (with_reducible apply frame_any))) only [oframed]

theorem execFerryOwn_fr {E : Nat} {s0 s : State} (h : Frame E s0 s) {f : Nat} {addr : Nat} (hE : Sub 0x20000 E := by first | assumption | exact sub_step (by assumption) (by decide)) :
    OFrame E s0 (execFerryOwn f addr s) := by
  simp (disch := (
    unfold OFrameOf
    unfold execFerryOwn
    try dsimp only
    repeat' first
      | (with_reducible apply OFrame.next) | (with_reducible assumption)
      | ((with_reducible refine sub_step (by assumption) ?_); first | rfl | decide) | (with_reducible apply lineOwn_fr)
      | (with_reducible apply whenUp_fr) | (split) | (intro _) | (refine frame_fst ?_ (by assumption)) | (dsimp only)
      | (with_reducible apply frame_any))) only [oframed]

theorem execFerryUpgrade_fr {E : Nat} {s0 s : State} (h : Frame E s0 s) {f : Nat} {addr : Nat} (hE : Sub 0x20000 E := by first | assumption | exact sub_step (by assumption) (by decide)) :
    OFrame E s0 (execFerryUpgrade f addr s) := by
  simp (disch := (
    unfold OFrameOf
    unfold execFerryUpgrade
    try dsimp only
    repeat' first
      | (with_reducible apply OFrame.next) | (with_reducible assumption)
      | ((with_reducible refine sub_step (by assumption) ?_); first | rfl | decide) | (with_reducible apply lineOwn_fr)
      | (with_reducible apply whenUp_fr) | (split) | (intro _) | (refine frame_fst ?_ (by assumption)) | (dsimp only)
      | (with_reducible apply frame_any))) only [oframed]

theorem execAgentRead_fr {E : Nat} {s0 s : State} (h : Frame E s0 s) {addr : Nat} (hE : Sub 0x20000 E := by first | assumption | exact sub_step (by assumption) (by decide)) :
    OFrame E s0 (execAgentRead addr s) := by
  simp (disch := (
    unfold OFrameOf
    unfold execAgentRead
    try dsimp only
    repeat' first
      | (with_reducible apply OFrame.next) | (with_reducible assumption)
      | ((with_reducible refine sub_step (by assumption) ?_); first | rfl | decide) | (with_reducible apply agentMoves_fr)
      | (with_reducible apply emit_fr) | (with_reducible apply whenUp_fr) | (split) | (intro _)
      | (refine frame_fst ?_ (by assumption)) | (dsimp only) | (with_reducible apply frame_any))) only [oframed]

theorem execAgentWrite_fr {E : Nat} {s0 s : State} (h : Frame E s0 s) {addr : Nat} {bytes : List Byte} (hE : Sub 0x520000 E := by first | assumption | exact sub_step (by assumption) (by decide)) :
    OFrame E s0 (execAgentWrite addr bytes s) := by
  simp (disch := (
    unfold OFrameOf
    unfold execAgentWrite
    try dsimp only
    repeat' first
      | (with_reducible apply OFrame.next) | (with_reducible assumption)
      | ((with_reducible refine sub_step (by assumption) ?_); first | rfl | decide) | (with_reducible apply whenUp_fr)
      | (with_reducible apply writeLocal_fr) | (split) | (intro _) | (refine frame_fst ?_ (by assumption)) | (dsimp only)
      | (with_reducible apply frame_any))) only [oframed]

theorem execAgentAtomic_fr {E : Nat} {s0 s : State} (h : Frame E s0 s) {addr : Nat} {aop : Nat} {operand : Nat} {compare : Nat} {size64 : Bool} (hE : Sub 0x520000 E := by first | assumption | exact sub_step (by assumption) (by decide)) :
    OFrame E s0 (execAgentAtomic addr aop operand compare size64 s) := by
  simp (disch := (
    unfold OFrameOf
    unfold execAgentAtomic
    try dsimp only
    repeat' first
      | (with_reducible apply OFrame.next) | (with_reducible assumption)
      | ((with_reducible refine sub_step (by assumption) ?_); first | rfl | decide) | (with_reducible apply agentMoves_fr)
      | (with_reducible apply emit_fr) | (with_reducible apply whenUp_fr) | (with_reducible apply writeLocal_fr) | (split)
      | (intro _) | (refine frame_fst ?_ (by assumption)) | (dsimp only) | (with_reducible apply frame_any))) only [oframed]

theorem execFerryEviction_fr {E : Nat} {s0 s : State} (h : Frame E s0 s) {f : Nat} {addr : Nat} (hE : Sub 0x20000 E := by first | assumption | exact sub_step (by assumption) (by decide)) :
    OFrame E s0 (execFerryEviction f addr s) := by
  simp (disch := (
    unfold OFrameOf
    unfold execFerryEviction
    try dsimp only
    repeat' first
      | (with_reducible apply OFrame.next) | (with_reducible assumption)
      | ((with_reducible refine sub_step (by assumption) ?_); first | rfl | decide) | (with_reducible apply count_fr)
      | (with_reducible apply lineEvict_fr) | (with_reducible apply whenUp_fr) | (split) | (intro _)
      | (refine frame_fst ?_ (by assumption)) | (dsimp only) | (with_reducible apply frame_any))) only [oframed]

theorem execPoisonTimeout_fr {E : Nat} {s0 s : State} (h : Frame E s0 s) {addr : Nat} (hE : Sub 0x20000 E := by first | assumption | exact sub_step (by assumption) (by decide)) :
    OFrame E s0 (execPoisonTimeout addr s) := by
  simp (disch := (
    unfold OFrameOf
    unfold execPoisonTimeout
    try dsimp only
    repeat' first
      | (with_reducible apply OFrame.next) | (with_reducible assumption)
      | ((with_reducible refine sub_step (by assumption) ?_); first | rfl | decide) | (with_reducible apply linePoison_fr)
      | (with_reducible apply whenUp_fr) | (split) | (intro _) | (refine frame_fst ?_ (by assumption)) | (dsimp only)
      | (with_reducible apply frame_any))) only [oframed]

theorem lockWrite_fr {E : Nat} {s0 s : State} (h : Frame E s0 s) {n : Nat} {ident : Nat} {writer : Nat} {act : State → State} (h_act : ∀ z0, Frame E s0 z0 → Frame E s0 (act z0)) (hE : Sub 0x28000 E := by first | assumption | exact sub_step (by assumption) (by decide)) :
    Frame E s0 (State.lockWrite s n ident writer act) := by
  simp (disch := (
    unfold FrameOf
    unfold State.lockWrite
    try dsimp only
    repeat' first
      | (with_reducible assumption) | ((with_reducible refine sub_step (by assumption) ?_); first | rfl | decide)
      | (with_reducible apply count_fr) | (with_reducible apply logViolation_fr) | (with_reducible apply h_act) | (split)
      | (intro _) | (refine frame_fst ?_ (by assumption)) | (dsimp only) | (with_reducible apply frame_any))) only [framed]

theorem execLkAcquire_fr {E : Nat} {s0 s : State} (h : Frame E s0 s) {n : Nat} {ident : Nat} {writer : Nat} (hE : Sub 0x4028000 E := by first | assumption | exact sub_step (by assumption) (by decide)) :
    OFrame E s0 (execLkAcquire n ident writer s) := by
  simp (disch := (
    unfold OFrameOf
    unfold execLkAcquire
    try dsimp only
    repeat' first
      | (with_reducible apply OFrame.next) | (with_reducible assumption)
      | ((with_reducible refine sub_step (by assumption) ?_); first | rfl | decide) | (with_reducible apply acquireLock_fr)
      | (with_reducible apply lockWrite_fr) | (with_reducible apply whenUp_fr) | (split) | (intro _)
      | (refine frame_fst ?_ (by assumption)) | (dsimp only) | (with_reducible apply frame_any))) only [oframed]

theorem lockHostRelease_fr {E : Nat} {s0 s : State} (h : Frame E s0 s) {n : Nat} {ident : Nat} (hE : Sub 0x4020000 E := by first | assumption | exact sub_step (by assumption) (by decide)) :
    Frame E s0 (State.lockHostRelease s n ident) := by
  simp (disch := (
    unfold FrameOf
    unfold State.lockHostRelease
    try dsimp only
    repeat' first
      | (with_reducible assumption) | ((with_reducible refine sub_step (by assumption) ?_); first | rfl | decide)
      | (with_reducible apply releaseLock_fr) | (split) | (intro _) | (refine frame_fst ?_ (by assumption)) | (dsimp only)
      | (with_reducible apply frame_any))) only [framed]

theorem execLkRelease_fr {E : Nat} {s0 s : State} (h : Frame E s0 s) {n : Nat} {ident : Nat} {writer : Nat} (hE : Sub 0x4028000 E := by first | assumption | exact sub_step (by assumption) (by decide)) :
    OFrame E s0 (execLkRelease n ident writer s) := by
  simp (disch := (
    unfold OFrameOf
    unfold execLkRelease
    try dsimp only
    repeat' first
      | (with_reducible apply OFrame.next) | (with_reducible assumption)
      | ((with_reducible refine sub_step (by assumption) ?_); first | rfl | decide) | (with_reducible apply lockHostRelease_fr)
      | (with_reducible apply lockWrite_fr) | (with_reducible apply whenUp_fr) | (split) | (intro _)
      | (refine frame_fst ?_ (by assumption)) | (dsimp only) | (with_reducible apply frame_any))) only [oframed]

theorem lockClear_fr {E : Nat} {s0 s : State} (h : Frame E s0 s) {n : Nat} {ident : Nat} (hE : Sub 0x4000000 E := by first | assumption | exact sub_step (by assumption) (by decide)) :
    Frame E s0 (State.lockClear s n ident) := by
  simp (disch := (
    unfold FrameOf
    unfold State.lockClear
    try dsimp only
    repeat' first
      | (with_reducible assumption) | ((with_reducible refine sub_step (by assumption) ?_); first | rfl | decide)
      | (with_reducible apply updLock_fr) | (split) | (intro _) | (refine frame_fst ?_ (by assumption)) | (dsimp only)
      | (with_reducible apply frame_any))) only [framed]

theorem execLkClearOrphan_fr {E : Nat} {s0 s : State} (h : Frame E s0 s) {n : Nat} {ident : Nat} {writer : Nat} (hE : Sub 0x4028000 E := by first | assumption | exact sub_step (by assumption) (by decide)) :
    OFrame E s0 (execLkClearOrphan n ident writer s) := by
  simp (disch := (
    unfold OFrameOf
    unfold execLkClearOrphan
    try dsimp only
    repeat' first
      | (with_reducible apply OFrame.next) | (with_reducible assumption)
      | ((with_reducible refine sub_step (by assumption) ?_); first | rfl | decide) | (with_reducible apply lockClear_fr)
      | (with_reducible apply lockWrite_fr) | (with_reducible apply whenUp_fr) | (split) | (intro _)
      | (refine frame_fst ?_ (by assumption)) | (dsimp only) | (with_reducible apply frame_any))) only [oframed]

theorem execLkWithdraw_fr {E : Nat} {s0 s : State} (h : Frame E s0 s) {n : Nat} {ident : Nat} {writer : Nat} (hE : Sub 0x4028000 E := by first | assumption | exact sub_step (by assumption) (by decide)) :
    OFrame E s0 (execLkWithdraw n ident writer s) := by
  simp (disch := (
    unfold OFrameOf
    unfold execLkWithdraw
    try dsimp only
    repeat' first
      | (with_reducible apply OFrame.next) | (with_reducible assumption)
      | ((with_reducible refine sub_step (by assumption) ?_); first | rfl | decide) | (with_reducible apply lockWrite_fr)
      | (with_reducible apply updLock_fr) | (with_reducible apply whenUp_fr) | (split) | (intro _)
      | (refine frame_fst ?_ (by assumption)) | (dsimp only) | (with_reducible apply frame_any))) only [oframed]

theorem writeLockGroup_fr {E : Nat} {s0 s : State} (h : Frame E s0 s) {g : Nat} {ferries : Bool} {v : Nat} (hE : Sub 0x8800 E := by first | assumption | exact sub_step (by assumption) (by decide)) :
    Frame E s0 (State.writeLockGroup s g ferries v) := by
  simp (disch := (
    unfold FrameOf
    unfold State.writeLockGroup
    try dsimp only
    repeat' first
      | (with_reducible assumption) | ((with_reducible refine sub_step (by assumption) ?_); first | rfl | decide)
      | (with_reducible apply logRejected_fr) | (with_reducible apply setFields_fr) | (split) | (intro _)
      | (refine frame_fst ?_ (by assumption)) | (dsimp only) | (with_reducible apply frame_any))) only [framed]

theorem execLkGroupWrite_fr {E : Nat} {s0 s : State} (h : Frame E s0 s) {g : Nat} {ferries : Bool} {v : Nat} (hE : Sub 0x8800 E := by first | assumption | exact sub_step (by assumption) (by decide)) :
    OFrame E s0 (execLkGroupWrite g ferries v s) := by
  simp (disch := (
    unfold OFrameOf
    unfold execLkGroupWrite
    try dsimp only
    repeat' first
      | (with_reducible apply OFrame.next) | (with_reducible assumption)
      | ((with_reducible refine sub_step (by assumption) ?_); first | rfl | decide) | (with_reducible apply whenUp_fr)
      | (with_reducible apply writeLockGroup_fr) | (split) | (intro _) | (refine frame_fst ?_ (by assumption)) | (dsimp only)
      | (with_reducible apply frame_any))) only [oframed]

theorem writeLockCfg_fr {E : Nat} {s0 s : State} (h : Frame E s0 s) {v : Nat} (hE : Sub 0x800 E := by first | assumption | exact sub_step (by assumption) (by decide)) :
    Frame E s0 (State.writeLockCfg s v) := by
  simp (disch := (
    unfold FrameOf
    unfold State.writeLockCfg
    try dsimp only
    repeat' first
      | (with_reducible assumption) | ((with_reducible refine sub_step (by assumption) ?_); first | rfl | decide)
      | (with_reducible apply setFields_fr) | (split) | (intro _) | (refine frame_fst ?_ (by assumption)) | (dsimp only)
      | (with_reducible apply frame_any))) only [framed]

theorem execLkCfgWrite_fr {E : Nat} {s0 s : State} (h : Frame E s0 s) {v : Nat} (hE : Sub 0x800 E := by first | assumption | exact sub_step (by assumption) (by decide)) :
    OFrame E s0 (execLkCfgWrite v s) := by
  simp (disch := (
    unfold OFrameOf
    unfold execLkCfgWrite
    try dsimp only
    repeat' first
      | (with_reducible apply OFrame.next) | (with_reducible assumption)
      | ((with_reducible refine sub_step (by assumption) ?_); first | rfl | decide) | (with_reducible apply whenUp_fr)
      | (with_reducible apply writeLockCfg_fr) | (split) | (intro _) | (refine frame_fst ?_ (by assumption)) | (dsimp only)
      | (with_reducible apply frame_any))) only [oframed]

theorem wordLock_fr {E : Nat} {s0 s : State} (h : Frame E s0 s) {writer : Nat} {addr : Nat} {want : Nat} {new : Nat} (hE : Sub 0x528000 E := by first | assumption | exact sub_step (by assumption) (by decide)) :
    Frame E s0 (State.wordLock s writer addr want new) := by
  simp (disch := (
    unfold FrameOf
    unfold State.wordLock
    try dsimp only
    repeat' first
      | (with_reducible assumption) | ((with_reducible refine sub_step (by assumption) ?_); first | rfl | decide)
      | (with_reducible apply logViolation_fr) | (with_reducible apply writeLocal_fr) | (split) | (intro _)
      | (refine frame_fst ?_ (by assumption)) | (dsimp only) | (with_reducible apply frame_any))) only [framed]

theorem execLkWordAcquire_fr {E : Nat} {s0 s : State} (h : Frame E s0 s) {writer : Nat} {addr : Nat} (hE : Sub 0x528000 E := by first | assumption | exact sub_step (by assumption) (by decide)) :
    OFrame E s0 (execLkWordAcquire writer addr s) := by
  simp (disch := (
    unfold OFrameOf
    unfold execLkWordAcquire
    try dsimp only
    repeat' first
      | (with_reducible apply OFrame.next) | (with_reducible assumption)
      | ((with_reducible refine sub_step (by assumption) ?_); first | rfl | decide) | (with_reducible apply whenUp_fr)
      | (with_reducible apply wordLock_fr) | (split) | (intro _) | (refine frame_fst ?_ (by assumption)) | (dsimp only)
      | (with_reducible apply frame_any))) only [oframed]

theorem execLkWordRelease_fr {E : Nat} {s0 s : State} (h : Frame E s0 s) {writer : Nat} {addr : Nat} (hE : Sub 0x528000 E := by first | assumption | exact sub_step (by assumption) (by decide)) :
    OFrame E s0 (execLkWordRelease writer addr s) := by
  simp (disch := (
    unfold OFrameOf
    unfold execLkWordRelease
    try dsimp only
    repeat' first
      | (with_reducible apply OFrame.next) | (with_reducible assumption)
      | ((with_reducible refine sub_step (by assumption) ?_); first | rfl | decide) | (with_reducible apply whenUp_fr)
      | (with_reducible apply wordLock_fr) | (split) | (intro _) | (refine frame_fst ?_ (by assumption)) | (dsimp only)
      | (with_reducible apply frame_any))) only [oframed]

end Sys2Proof.Laws
end

