-- ==== Sys2Proof/Laws/FrEngineOps.lean ====
section
/-! SUPPORT. The frame of every operation of Machine/EngineOps.lean (`Laws.Frame`). -/

namespace Sys2Proof.Laws

open Sys2Proof.Machine

set_option linter.all false
set_option Elab.async false

theorem slot_fr {E : Nat} {s0 s : State} (h : Frame E s0 s) {f : Nat} {k : Nat} (hE : Sub 0x400 E := by first | assumption | exact sub_step (by assumption) (by decide)) :
    Frame E s0 (State.slot s f k) := by
  simp (disch := (
    unfold FrameOf
    unfold State.slot
    try dsimp only
    repeat' first
      | (with_reducible assumption) | ((with_reducible refine sub_step (by assumption) ?_); first | rfl | decide)
      | (with_reducible apply incWrap_fr) | (split) | (intro _) | (refine frame_fst ?_ (by assumption)) | (dsimp only)
      | (with_reducible apply frame_any))) only [framed]

theorem engineFault_fr {E : Nat} {s0 s : State} (h : Frame E s0 s) {f : Nat} {t : Nat} {cause : Nat} (hE : Sub 0x4f28402 E := by first | assumption | exact sub_step (by assumption) (by decide)) :
    Frame E s0 (State.engineFault s f t cause) := by
  simp (disch := (
    unfold FrameOf
    unfold State.engineFault
    try dsimp only
    repeat' first
      | (with_reducible assumption) | ((with_reducible refine sub_step (by assumption) ?_); first | rfl | decide)
      | (with_reducible apply slot_fr) | (with_reducible apply threadFault_fr) | (split) | (intro _)
      | (refine frame_fst ?_ (by assumption)) | (dsimp only) | (with_reducible apply frame_any))) only [framed]

theorem retireInstr_fr {E : Nat} {s0 s : State} (h : Frame E s0 s) {f : Nat} {t : Nat} {g : Invoc → Invoc} (hE : Sub 0x400 E := by first | assumption | exact sub_step (by assumption) (by decide)) :
    Frame E s0 (State.retireInstr s f t g) := by
  simp (disch := (
    unfold FrameOf
    unfold State.retireInstr
    try dsimp only
    repeat' first
      | (with_reducible assumption) | ((with_reducible refine sub_step (by assumption) ?_); first | rfl | decide)
      | (with_reducible apply slot_fr) | (with_reducible apply updInv_fr) | (split) | (intro _)
      | (refine frame_fst ?_ (by assumption)) | (dsimp only) | (with_reducible apply frame_any))) only [framed]

theorem jump_fr {E : Nat} {s0 s : State} (h : Frame E s0 s) {f : Nat} {t : Nat} {target : Int} {g : Invoc → Invoc} (hE : Sub 0x4f28402 E := by first | assumption | exact sub_step (by assumption) (by decide)) :
    Frame E s0 (State.jump s f t target g) := by
  simp (disch := (
    unfold FrameOf
    unfold State.jump
    try dsimp only
    repeat' first
      | (with_reducible assumption) | ((with_reducible refine sub_step (by assumption) ?_); first | rfl | decide)
      | (with_reducible apply engineFault_fr) | (with_reducible apply slot_fr) | (with_reducible apply updInv_fr) | (split)
      | (intro _) | (refine frame_fst ?_ (by assumption)) | (dsimp only) | (with_reducible apply frame_any))) only [framed]

theorem tookSlot_fr {E : Nat} {s0 s : State} (h : Frame E s0 s) {f : Nat} {t : Nat} :
    Frame E s0 (State.tookSlot s f t) := by
  simp (disch := (
    unfold FrameOf
    unfold State.tookSlot
    try dsimp only
    repeat' first
      | (with_reducible assumption) | (with_reducible apply updFerry_fr) | (with_reducible apply updThread_fr)
      | (with_reducible apply frame_foldl) | (split) | (intro _) | (refine frame_fst ?_ (by assumption)) | (dsimp only)
      | (with_reducible apply frame_any))) only [framed]

theorem issue_fr {E : Nat} {s0 s : State} (h : Frame E s0 s) {f : Nat} {t : Nat} {fields : List (Nat × Nat)} {exe : State → Invoc → State} (h_exe : ∀ z0 z1, Frame E s0 z0 → Frame E s0 (exe z0 z1)) (hE : Sub 0x4f28402 E := by first | assumption | exact sub_step (by assumption) (by decide)) :
    Frame E s0 (State.issue s f t fields exe) := by
  simp (disch := (
    unfold FrameOf
    unfold State.issue
    try dsimp only
    repeat' first
      | (with_reducible assumption) | ((with_reducible refine sub_step (by assumption) ?_); first | rfl | decide)
      | (with_reducible apply engineFault_fr) | (with_reducible apply tookSlot_fr) | (with_reducible apply h_exe) | (split)
      | (intro _) | (refine frame_fst ?_ (by assumption)) | (dsimp only) | (with_reducible apply frame_any))) only [framed]

theorem issueA_fr {E : Nat} {s0 s : State} (h : Frame E s0 s) {f : Nat} {t : Nat} {op : Nat} {rd : Nat} {ra : Nat} {rb : Nat} {pg : Nat} {gn : Bool} {fn : Nat} {exe : State → Invoc → State} (h_exe : ∀ z0 z1, Frame E s0 z0 → Frame E s0 (exe z0 z1)) (hE : Sub 0x4f28402 E := by first | assumption | exact sub_step (by assumption) (by decide)) :
    Frame E s0 (State.issueA s f t op rd ra rb pg gn fn exe) := by
  simp (disch := (
    unfold FrameOf
    unfold State.issueA
    try dsimp only
    repeat' first
      | (with_reducible assumption) | ((with_reducible refine sub_step (by assumption) ?_); first | rfl | decide)
      | (with_reducible apply issue_fr) | (with_reducible apply slot_fr) | (with_reducible apply updInv_fr)
      | (with_reducible apply h_exe) | (split) | (intro _) | (refine frame_fst ?_ (by assumption)) | (dsimp only)
      | (with_reducible apply frame_any))) only [framed]

theorem touchLine_fr {E : Nat} {s0 s : State} (h : Frame E s0 s) {f : Nat} {addr : Nat} {own : Bool} (hE : Sub 0x20000 E := by first | assumption | exact sub_step (by assumption) (by decide)) :
    Frame E s0 (State.touchLine s f addr own) := by
  simp (disch := (
    unfold FrameOf
    unfold State.touchLine
    try dsimp only
    repeat' first
      | (with_reducible assumption) | ((with_reducible refine sub_step (by assumption) ?_); first | rfl | decide)
      | (with_reducible apply lineOwn_fr) | (with_reducible apply lineRead_fr) | (split) | (intro _)
      | (refine frame_fst ?_ (by assumption)) | (dsimp only) | (with_reducible apply frame_any))) only [framed]

theorem storeLocal_fr {E : Nat} {s0 s : State} (h : Frame E s0 s) {f : Nat} {addr : Nat} {bs : List Byte} (hE : Sub 0x500000 E := by first | assumption | exact sub_step (by assumption) (by decide)) :
    Frame E s0 (State.storeLocal s f addr bs) := by
  unfold State.storeLocal
  split
  · exact frame_scratch h fun hm => memWrite_wf _ _ hm
  · exact frame_mem h fun hm => memWrite_wf _ _ hm

theorem loadInstr_fr {E : Nat} {s0 s : State} (h : Frame E s0 s) {f : Nat} {t : Nat} {v : Invoc} {rd : Nat} {ra : Nat} {sz : Nat} {off : Nat} {signed : Bool} (hE : Sub 0x4f28402 E := by first | assumption | exact sub_step (by assumption) (by decide)) :
    Frame E s0 (State.loadInstr s f t v rd ra sz off signed) := by
  simp (disch := (
    unfold FrameOf
    unfold State.loadInstr
    try dsimp only
    repeat' first
      | (with_reducible assumption) | ((with_reducible refine sub_step (by assumption) ?_); first | rfl | decide)
      | (with_reducible apply engineFault_fr) | (with_reducible apply retireInstr_fr) | (with_reducible apply touchLine_fr)
      | (split) | (intro _) | (refine frame_fst ?_ (by assumption)) | (dsimp only) | (with_reducible apply frame_any))) only [framed]

theorem storeInstr_fr {E : Nat} {s0 s : State} (h : Frame E s0 s) {f : Nat} {t : Nat} {v : Invoc} {rs : Nat} {ra : Nat} {sz : Nat} {off : Nat} (hE : Sub 0x4f28402 E := by first | assumption | exact sub_step (by assumption) (by decide)) :
    Frame E s0 (State.storeInstr s f t v rs ra sz off) := by
  simp (disch := (
    unfold FrameOf
    unfold State.storeInstr
    try dsimp only
    repeat' first
      | (with_reducible assumption) | ((with_reducible refine sub_step (by assumption) ?_); first | rfl | decide)
      | (with_reducible apply engineFault_fr) | (with_reducible apply retireInstr_fr) | (with_reducible apply storeLocal_fr)
      | (with_reducible apply touchLine_fr) | (split) | (intro _) | (refine frame_fst ?_ (by assumption)) | (dsimp only)
      | (with_reducible apply frame_any))) only [framed]

theorem amoInstr_fr {E : Nat} {s0 s : State} (h : Frame E s0 s) {f : Nat} {t : Nat} {v : Invoc} {rd : Nat} {ra : Nat} {rb : Nat} {fn : Nat} (hE : Sub 0x4f28402 E := by first | assumption | exact sub_step (by assumption) (by decide)) :
    Frame E s0 (State.amoInstr s f t v rd ra rb fn) := by
  simp (disch := (
    unfold FrameOf
    unfold State.amoInstr
    try dsimp only
    repeat' first
      | (with_reducible assumption) | ((with_reducible refine sub_step (by assumption) ?_); first | rfl | decide)
      | (with_reducible apply engineFault_fr) | (with_reducible apply retireInstr_fr) | (with_reducible apply storeLocal_fr)
      | (with_reducible apply touchLine_fr) | (split) | (intro _) | (refine frame_fst ?_ (by assumption)) | (dsimp only)
      | (with_reducible apply frame_any))) only [framed]

theorem doneInstr_fr {E : Nat} {s0 s : State} (h : Frame E s0 s) {f : Nat} {t : Nat} {status : Nat} (hE : Sub 0x4f28402 E := by first | assumption | exact sub_step (by assumption) (by decide)) :
    Frame E s0 (State.doneInstr s f t status) := by
  simp (disch := (
    unfold FrameOf
    unfold State.doneInstr
    try dsimp only
    repeat' first
      | (with_reducible assumption) | ((with_reducible refine sub_step (by assumption) ?_); first | rfl | decide)
      | (with_reducible apply disarmAll_fr) | (with_reducible apply endingCheck_fr) | (with_reducible apply retireInstr_fr)
      | (with_reducible apply updThread_fr) | (split) | (intro _) | (refine frame_fst ?_ (by assumption)) | (dsimp only)
      | (with_reducible apply frame_any))) only [framed]

end Sys2Proof.Laws
end

