-- ==== Sys2Proof/Laws/FrEngine.lean ====
section
/-! SUPPORT. The frame of every operation of Machine/Engine.lean (`Laws.Frame`). -/

namespace Sys2Proof.Laws

open Sys2Proof.Machine

set_option linter.all false
set_option Elab.async false

theorem execAlu_fr {E : Nat} {s0 s : State} (h : Frame E s0 s) {f : Nat} {t : Nat} {rd : Nat} {ra : Nat} {rb : Nat} {pg : Nat} {gn : Bool} {fn : Nat} (hE : Sub 0x4f28402 E := by first | assumption | exact sub_step (by assumption) (by decide)) :
    OFrame E s0 (execAlu f t rd ra rb pg gn fn s) := by
  simp (disch := (
    unfold OFrameOf
    unfold execAlu
    try dsimp only
    repeat' first
      | (with_reducible apply OFrame.next) | (with_reducible assumption)
      | ((with_reducible refine sub_step (by assumption) ?_); first | rfl | decide) | (with_reducible apply issueA_fr)
      | (with_reducible apply retireInstr_fr) | (with_reducible apply whenUp_fr) | (split) | (intro _)
      | (refine frame_fst ?_ (by assumption)) | (dsimp only) | (with_reducible apply frame_any))) only [oframed]

theorem execCmp_fr {E : Nat} {s0 s : State} (h : Frame E s0 s) {f : Nat} {t : Nat} {rd : Nat} {ra : Nat} {rb : Nat} {pg : Nat} {gn : Bool} {fn : Nat} (hE : Sub 0x4f28402 E := by first | assumption | exact sub_step (by assumption) (by decide)) :
    OFrame E s0 (execCmp f t rd ra rb pg gn fn s) := by
  simp (disch := (
    unfold OFrameOf
    unfold execCmp
    try dsimp only
    repeat' first
      | (with_reducible apply OFrame.next) | (with_reducible assumption)
      | ((with_reducible refine sub_step (by assumption) ?_); first | rfl | decide) | (with_reducible apply issueA_fr)
      | (with_reducible apply retireInstr_fr) | (with_reducible apply whenUp_fr) | (split) | (intro _)
      | (refine frame_fst ?_ (by assumption)) | (dsimp only) | (with_reducible apply frame_any))) only [oframed]

theorem execPred_fr {E : Nat} {s0 s : State} (h : Frame E s0 s) {f : Nat} {t : Nat} {rd : Nat} {ra : Nat} {rb : Nat} {pg : Nat} {gn : Bool} {fn : Nat} (hE : Sub 0x4f28402 E := by first | assumption | exact sub_step (by assumption) (by decide)) :
    OFrame E s0 (execPred f t rd ra rb pg gn fn s) := by
  simp (disch := (
    unfold OFrameOf
    unfold execPred
    try dsimp only
    repeat' first
      | (with_reducible apply OFrame.next) | (with_reducible assumption)
      | ((with_reducible refine sub_step (by assumption) ?_); first | rfl | decide) | (with_reducible apply issueA_fr)
      | (with_reducible apply retireInstr_fr) | (with_reducible apply whenUp_fr) | (split) | (intro _)
      | (refine frame_fst ?_ (by assumption)) | (dsimp only) | (with_reducible apply frame_any))) only [oframed]

theorem execAmo_fr {E : Nat} {s0 s : State} (h : Frame E s0 s) {f : Nat} {t : Nat} {rd : Nat} {ra : Nat} {rb : Nat} {pg : Nat} {gn : Bool} {fn : Nat} (hE : Sub 0x4f28402 E := by first | assumption | exact sub_step (by assumption) (by decide)) :
    OFrame E s0 (execAmo f t rd ra rb pg gn fn s) := by
  simp (disch := (
    unfold OFrameOf
    unfold execAmo
    try dsimp only
    repeat' first
      | (with_reducible apply OFrame.next) | (with_reducible assumption)
      | ((with_reducible refine sub_step (by assumption) ?_); first | rfl | decide) | (with_reducible apply amoInstr_fr)
      | (with_reducible apply issueA_fr) | (with_reducible apply whenUp_fr) | (split) | (intro _)
      | (refine frame_fst ?_ (by assumption)) | (dsimp only) | (with_reducible apply frame_any))) only [oframed]

theorem execSysFence_fr {E : Nat} {s0 s : State} (h : Frame E s0 s) {f : Nat} {t : Nat} {rd : Nat} {ra : Nat} {rb : Nat} {pg : Nat} {gn : Bool} (hE : Sub 0x4f28402 E := by first | assumption | exact sub_step (by assumption) (by decide)) :
    OFrame E s0 (execSysFence f t rd ra rb pg gn s) := by
  simp (disch := (
    unfold OFrameOf
    unfold execSysFence
    try dsimp only
    repeat' first
      | (with_reducible apply OFrame.next) | (with_reducible assumption)
      | ((with_reducible refine sub_step (by assumption) ?_); first | rfl | decide) | (with_reducible apply issueA_fr)
      | (with_reducible apply retireInstr_fr) | (with_reducible apply whenUp_fr) | (split) | (intro _)
      | (refine frame_fst ?_ (by assumption)) | (dsimp only) | (with_reducible apply frame_any))) only [oframed]

theorem execSysYield_fr {E : Nat} {s0 s : State} (h : Frame E s0 s) {f : Nat} {t : Nat} {rd : Nat} {ra : Nat} {rb : Nat} {pg : Nat} {gn : Bool} (hE : Sub 0x4f28402 E := by first | assumption | exact sub_step (by assumption) (by decide)) :
    OFrame E s0 (execSysYield f t rd ra rb pg gn s) := by
  simp (disch := (
    unfold OFrameOf
    unfold execSysYield
    try dsimp only
    repeat' first
      | (with_reducible apply OFrame.next) | (with_reducible assumption)
      | ((with_reducible refine sub_step (by assumption) ?_); first | rfl | decide) | (with_reducible apply issueA_fr)
      | (with_reducible apply retireInstr_fr) | (with_reducible apply whenUp_fr) | (split) | (intro _)
      | (refine frame_fst ?_ (by assumption)) | (dsimp only) | (with_reducible apply frame_any))) only [oframed]

theorem execSysDone_fr {E : Nat} {s0 s : State} (h : Frame E s0 s) {f : Nat} {t : Nat} {rd : Nat} {ra : Nat} {rb : Nat} {pg : Nat} {gn : Bool} (hE : Sub 0x6f2b43b E := by first | assumption | exact sub_step (by assumption) (by decide)) :
    OFrame E s0 (execSysDone f t rd ra rb pg gn s) := by
  simp (disch := (
    unfold OFrameOf
    unfold execSysDone
    try dsimp only
    repeat' first
      | (with_reducible apply OFrame.next) | (with_reducible assumption)
      | ((with_reducible refine sub_step (by assumption) ?_); first | rfl | decide) | (with_reducible apply doneInstr_fr)
      | (with_reducible apply issueA_fr) | (with_reducible apply settleAll_fr) | (with_reducible apply whenUp_fr) | (split)
      | (intro _) | (refine frame_fst ?_ (by assumption)) | (dsimp only) | (with_reducible apply frame_any))) only [oframed]

theorem execSysNow_fr {E : Nat} {s0 s : State} (h : Frame E s0 s) {f : Nat} {t : Nat} {rd : Nat} {ra : Nat} {rb : Nat} {pg : Nat} {gn : Bool} (hE : Sub 0x4f28402 E := by first | assumption | exact sub_step (by assumption) (by decide)) :
    OFrame E s0 (execSysNow f t rd ra rb pg gn s) := by
  simp (disch := (
    unfold OFrameOf
    unfold execSysNow
    try dsimp only
    repeat' first
      | (with_reducible apply OFrame.next) | (with_reducible assumption)
      | ((with_reducible refine sub_step (by assumption) ?_); first | rfl | decide) | (with_reducible apply issueA_fr)
      | (with_reducible apply retireInstr_fr) | (with_reducible apply whenUp_fr) | (split) | (intro _)
      | (refine frame_fst ?_ (by assumption)) | (dsimp only) | (with_reducible apply frame_any))) only [oframed]

theorem execSysSelf_fr {E : Nat} {s0 s : State} (h : Frame E s0 s) {f : Nat} {t : Nat} {rd : Nat} {ra : Nat} {rb : Nat} {pg : Nat} {gn : Bool} (hE : Sub 0x4f28402 E := by first | assumption | exact sub_step (by assumption) (by decide)) :
    OFrame E s0 (execSysSelf f t rd ra rb pg gn s) := by
  simp (disch := (
    unfold OFrameOf
    unfold execSysSelf
    try dsimp only
    repeat' first
      | (with_reducible apply OFrame.next) | (with_reducible assumption)
      | ((with_reducible refine sub_step (by assumption) ?_); first | rfl | decide) | (with_reducible apply issueA_fr)
      | (with_reducible apply retireInstr_fr) | (with_reducible apply whenUp_fr) | (split) | (intro _)
      | (refine frame_fst ?_ (by assumption)) | (dsimp only) | (with_reducible apply frame_any))) only [oframed]

theorem execSysBreak_fr {E : Nat} {s0 s : State} (h : Frame E s0 s) {f : Nat} {t : Nat} {rd : Nat} {ra : Nat} {rb : Nat} {pg : Nat} {gn : Bool} (hE : Sub 0x6f2b43b E := by first | assumption | exact sub_step (by assumption) (by decide)) :
    OFrame E s0 (execSysBreak f t rd ra rb pg gn s) := by
  simp (disch := (
    unfold OFrameOf
    unfold execSysBreak
    try dsimp only
    repeat' first
      | (with_reducible apply OFrame.next) | (with_reducible assumption)
      | ((with_reducible refine sub_step (by assumption) ?_); first | rfl | decide) | (with_reducible apply engineFault_fr)
      | (with_reducible apply issueA_fr) | (with_reducible apply settleAll_fr) | (with_reducible apply whenUp_fr) | (split)
      | (intro _) | (refine frame_fst ?_ (by assumption)) | (dsimp only) | (with_reducible apply frame_any))) only [oframed]

theorem execJr_fr {E : Nat} {s0 s : State} (h : Frame E s0 s) {f : Nat} {t : Nat} {rd : Nat} {ra : Nat} {rb : Nat} {pg : Nat} {gn : Bool} {fn : Nat} (hE : Sub 0x4f28402 E := by first | assumption | exact sub_step (by assumption) (by decide)) :
    OFrame E s0 (execJr f t rd ra rb pg gn fn s) := by
  simp (disch := (
    unfold OFrameOf
    unfold execJr
    try dsimp only
    repeat' first
      | (with_reducible apply OFrame.next) | (with_reducible assumption)
      | ((with_reducible refine sub_step (by assumption) ?_); first | rfl | decide) | (with_reducible apply issueA_fr)
      | (with_reducible apply jump_fr) | (with_reducible apply whenUp_fr) | (split) | (intro _)
      | (refine frame_fst ?_ (by assumption)) | (dsimp only) | (with_reducible apply frame_any))) only [oframed]

theorem execAddi_fr {E : Nat} {s0 s : State} (h : Frame E s0 s) {f : Nat} {t : Nat} {rd : Nat} {ra : Nat} {imm : Nat} (hE : Sub 0x4f28402 E := by first | assumption | exact sub_step (by assumption) (by decide)) :
    OFrame E s0 (execAddi f t rd ra imm s) := by
  simp (disch := (
    unfold OFrameOf
    unfold execAddi
    try dsimp only
    repeat' first
      | (with_reducible apply OFrame.next) | (with_reducible assumption)
      | ((with_reducible refine sub_step (by assumption) ?_); first | rfl | decide) | (with_reducible apply issue_fr)
      | (with_reducible apply retireInstr_fr) | (with_reducible apply whenUp_fr) | (split) | (intro _)
      | (refine frame_fst ?_ (by assumption)) | (dsimp only) | (with_reducible apply frame_any))) only [oframed]

theorem execAndi_fr {E : Nat} {s0 s : State} (h : Frame E s0 s) {f : Nat} {t : Nat} {rd : Nat} {ra : Nat} {imm : Nat} (hE : Sub 0x4f28402 E := by first | assumption | exact sub_step (by assumption) (by decide)) :
    OFrame E s0 (execAndi f t rd ra imm s) := by
  simp (disch := (
    unfold OFrameOf
    unfold execAndi
    try dsimp only
    repeat' first
      | (with_reducible apply OFrame.next) | (with_reducible assumption)
      | ((with_reducible refine sub_step (by assumption) ?_); first | rfl | decide) | (with_reducible apply issue_fr)
      | (with_reducible apply retireInstr_fr) | (with_reducible apply whenUp_fr) | (split) | (intro _)
      | (refine frame_fst ?_ (by assumption)) | (dsimp only) | (with_reducible apply frame_any))) only [oframed]

theorem execOri_fr {E : Nat} {s0 s : State} (h : Frame E s0 s) {f : Nat} {t : Nat} {rd : Nat} {ra : Nat} {imm : Nat} (hE : Sub 0x4f28402 E := by first | assumption | exact sub_step (by assumption) (by decide)) :
    OFrame E s0 (execOri f t rd ra imm s) := by
  simp (disch := (
    unfold OFrameOf
    unfold execOri
    try dsimp only
    repeat' first
      | (with_reducible apply OFrame.next) | (with_reducible assumption)
      | ((with_reducible refine sub_step (by assumption) ?_); first | rfl | decide) | (with_reducible apply issue_fr)
      | (with_reducible apply retireInstr_fr) | (with_reducible apply whenUp_fr) | (split) | (intro _)
      | (refine frame_fst ?_ (by assumption)) | (dsimp only) | (with_reducible apply frame_any))) only [oframed]

theorem execXori_fr {E : Nat} {s0 s : State} (h : Frame E s0 s) {f : Nat} {t : Nat} {rd : Nat} {ra : Nat} {imm : Nat} (hE : Sub 0x4f28402 E := by first | assumption | exact sub_step (by assumption) (by decide)) :
    OFrame E s0 (execXori f t rd ra imm s) := by
  simp (disch := (
    unfold OFrameOf
    unfold execXori
    try dsimp only
    repeat' first
      | (with_reducible apply OFrame.next) | (with_reducible assumption)
      | ((with_reducible refine sub_step (by assumption) ?_); first | rfl | decide) | (with_reducible apply issue_fr)
      | (with_reducible apply retireInstr_fr) | (with_reducible apply whenUp_fr) | (split) | (intro _)
      | (refine frame_fst ?_ (by assumption)) | (dsimp only) | (with_reducible apply frame_any))) only [oframed]

theorem execMovi_fr {E : Nat} {s0 s : State} (h : Frame E s0 s) {f : Nat} {t : Nat} {rd : Nat} {ra : Nat} {imm : Nat} (hE : Sub 0x4f28402 E := by first | assumption | exact sub_step (by assumption) (by decide)) :
    OFrame E s0 (execMovi f t rd ra imm s) := by
  simp (disch := (
    unfold OFrameOf
    unfold execMovi
    try dsimp only
    repeat' first
      | (with_reducible apply OFrame.next) | (with_reducible assumption)
      | ((with_reducible refine sub_step (by assumption) ?_); first | rfl | decide) | (with_reducible apply issue_fr)
      | (with_reducible apply retireInstr_fr) | (with_reducible apply whenUp_fr) | (split) | (intro _)
      | (refine frame_fst ?_ (by assumption)) | (dsimp only) | (with_reducible apply frame_any))) only [oframed]

theorem execMovk_fr {E : Nat} {s0 s : State} (h : Frame E s0 s) {f : Nat} {t : Nat} {rd : Nat} {ra : Nat} {imm : Nat} (hE : Sub 0x4f28402 E := by first | assumption | exact sub_step (by assumption) (by decide)) :
    OFrame E s0 (execMovk f t rd ra imm s) := by
  simp (disch := (
    unfold OFrameOf
    unfold execMovk
    try dsimp only
    repeat' first
      | (with_reducible apply OFrame.next) | (with_reducible assumption)
      | ((with_reducible refine sub_step (by assumption) ?_); first | rfl | decide) | (with_reducible apply issue_fr)
      | (with_reducible apply retireInstr_fr) | (with_reducible apply whenUp_fr) | (split) | (intro _)
      | (refine frame_fst ?_ (by assumption)) | (dsimp only) | (with_reducible apply frame_any))) only [oframed]

theorem execCmpi_fr {E : Nat} {s0 s : State} (h : Frame E s0 s) {f : Nat} {t : Nat} {rd : Nat} {ra : Nat} {imm : Nat} (hE : Sub 0x4f28402 E := by first | assumption | exact sub_step (by assumption) (by decide)) :
    OFrame E s0 (execCmpi f t rd ra imm s) := by
  simp (disch := (
    unfold OFrameOf
    unfold execCmpi
    try dsimp only
    repeat' first
      | (with_reducible apply OFrame.next) | (with_reducible assumption)
      | ((with_reducible refine sub_step (by assumption) ?_); first | rfl | decide) | (with_reducible apply issue_fr)
      | (with_reducible apply retireInstr_fr) | (with_reducible apply whenUp_fr) | (split) | (intro _)
      | (refine frame_fst ?_ (by assumption)) | (dsimp only) | (with_reducible apply frame_any))) only [oframed]

theorem execShi_fr {E : Nat} {s0 s : State} (h : Frame E s0 s) {f : Nat} {t : Nat} {rd : Nat} {ra : Nat} {imm : Nat} (hE : Sub 0x4f28402 E := by first | assumption | exact sub_step (by assumption) (by decide)) :
    OFrame E s0 (execShi f t rd ra imm s) := by
  simp (disch := (
    unfold OFrameOf
    unfold execShi
    try dsimp only
    repeat' first
      | (with_reducible apply OFrame.next) | (with_reducible assumption)
      | ((with_reducible refine sub_step (by assumption) ?_); first | rfl | decide) | (with_reducible apply issue_fr)
      | (with_reducible apply retireInstr_fr) | (with_reducible apply whenUp_fr) | (split) | (intro _)
      | (refine frame_fst ?_ (by assumption)) | (dsimp only) | (with_reducible apply frame_any))) only [oframed]

theorem execLd_fr {E : Nat} {s0 s : State} (h : Frame E s0 s) {f : Nat} {t : Nat} {rd : Nat} {ra : Nat} {sz : Nat} {mo : Nat} {off : Nat} (hE : Sub 0x4f28402 E := by first | assumption | exact sub_step (by assumption) (by decide)) :
    OFrame E s0 (execLd f t rd ra sz mo off s) := by
  simp (disch := (
    unfold OFrameOf
    unfold execLd
    try dsimp only
    repeat' first
      | (with_reducible apply OFrame.next) | (with_reducible assumption)
      | ((with_reducible refine sub_step (by assumption) ?_); first | rfl | decide) | (with_reducible apply issue_fr)
      | (with_reducible apply loadInstr_fr) | (with_reducible apply whenUp_fr) | (split) | (intro _)
      | (refine frame_fst ?_ (by assumption)) | (dsimp only) | (with_reducible apply frame_any))) only [oframed]

theorem execLds_fr {E : Nat} {s0 s : State} (h : Frame E s0 s) {f : Nat} {t : Nat} {rd : Nat} {ra : Nat} {sz : Nat} {mo : Nat} {off : Nat} (hE : Sub 0x4f28402 E := by first | assumption | exact sub_step (by assumption) (by decide)) :
    OFrame E s0 (execLds f t rd ra sz mo off s) := by
  simp (disch := (
    unfold OFrameOf
    unfold execLds
    try dsimp only
    repeat' first
      | (with_reducible apply OFrame.next) | (with_reducible assumption)
      | ((with_reducible refine sub_step (by assumption) ?_); first | rfl | decide) | (with_reducible apply issue_fr)
      | (with_reducible apply loadInstr_fr) | (with_reducible apply whenUp_fr) | (split) | (intro _)
      | (refine frame_fst ?_ (by assumption)) | (dsimp only) | (with_reducible apply frame_any))) only [oframed]

theorem execSt_fr {E : Nat} {s0 s : State} (h : Frame E s0 s) {f : Nat} {t : Nat} {rs : Nat} {ra : Nat} {sz : Nat} {mo : Nat} {off : Nat} (hE : Sub 0x4f28402 E := by first | assumption | exact sub_step (by assumption) (by decide)) :
    OFrame E s0 (execSt f t rs ra sz mo off s) := by
  simp (disch := (
    unfold OFrameOf
    unfold execSt
    try dsimp only
    repeat' first
      | (with_reducible apply OFrame.next) | (with_reducible assumption)
      | ((with_reducible refine sub_step (by assumption) ?_); first | rfl | decide) | (with_reducible apply issue_fr)
      | (with_reducible apply storeInstr_fr) | (with_reducible apply whenUp_fr) | (split) | (intro _)
      | (refine frame_fst ?_ (by assumption)) | (dsimp only) | (with_reducible apply frame_any))) only [oframed]

theorem execBr_fr {E : Nat} {s0 s : State} (h : Frame E s0 s) {f : Nat} {t : Nat} {p : Nat} {n : Bool} {rsv : Nat} {off : Nat} (hE : Sub 0x4f28402 E := by first | assumption | exact sub_step (by assumption) (by decide)) :
    OFrame E s0 (execBr f t p n rsv off s) := by
  simp (disch := (
    unfold OFrameOf
    unfold execBr
    try dsimp only
    repeat' first
      | (with_reducible apply OFrame.next) | (with_reducible assumption)
      | ((with_reducible refine sub_step (by assumption) ?_); first | rfl | decide) | (with_reducible apply issue_fr)
      | (with_reducible apply jump_fr) | (with_reducible apply retireInstr_fr) | (with_reducible apply whenUp_fr) | (split)
      | (intro _) | (refine frame_fst ?_ (by assumption)) | (dsimp only) | (with_reducible apply frame_any))) only [oframed]

theorem execBrl_fr {E : Nat} {s0 s : State} (h : Frame E s0 s) {f : Nat} {t : Nat} {p : Nat} {n : Bool} {rsv : Nat} {off : Nat} (hE : Sub 0x4f28402 E := by first | assumption | exact sub_step (by assumption) (by decide)) :
    OFrame E s0 (execBrl f t p n rsv off s) := by
  simp (disch := (
    unfold OFrameOf
    unfold execBrl
    try dsimp only
    repeat' first
      | (with_reducible apply OFrame.next) | (with_reducible assumption)
      | ((with_reducible refine sub_step (by assumption) ?_); first | rfl | decide) | (with_reducible apply issue_fr)
      | (with_reducible apply jump_fr) | (with_reducible apply retireInstr_fr) | (with_reducible apply whenUp_fr) | (split)
      | (intro _) | (refine frame_fst ?_ (by assumption)) | (dsimp only) | (with_reducible apply frame_any))) only [oframed]

end Sys2Proof.Laws
end

