-- ==== Sys2Proof/Laws/FrUnitOps.lean ====
section
/-! SUPPORT. The frame of every operation of Machine/UnitOps.lean (`Laws.Frame`). -/

namespace Sys2Proof.Laws

open Sys2Proof.Machine

set_option linter.all false
set_option Elab.async false

theorem issueUnit_fr {E : Nat} {s0 s : State} (h : Frame E s0 s) {f : Nat} {t : Nat} {rd : Nat} {rs : Nat} {ra : Nat} {unit : Nat} {fn : Nat} {w : Bool} {exe : State → Invoc → State} (h_exe : ∀ z0 z1, Frame E s0 z0 → Frame E s0 (exe z0 z1)) (hE : Sub 0x4f28402 E := by first | assumption | exact sub_step (by assumption) (by decide)) :
    Frame E s0 (State.issueUnit s f t rd rs ra unit fn w exe) := by
  simp (disch := (
    unfold FrameOf
    unfold State.issueUnit
    try dsimp only
    repeat' first
      | (with_reducible assumption) | ((with_reducible refine sub_step (by assumption) ?_); first | rfl | decide)
      | (with_reducible apply issue_fr) | (with_reducible apply h_exe) | (split) | (intro _)
      | (refine frame_fst ?_ (by assumption)) | (dsimp only) | (with_reducible apply frame_any))) only [framed]

theorem unitRet_fr {E : Nat} {s0 s : State} (h : Frame E s0 s) {f : Nat} {t : Nat} {rd : Nat} {x : Nat} (hE : Sub 0x20400 E := by first | assumption | exact sub_step (by assumption) (by decide)) :
    Frame E s0 (State.unitRet s f t rd x) := by
  simp (disch := (
    unfold FrameOf
    unfold State.unitRet
    try dsimp only
    repeat' first
      | (with_reducible assumption) | ((with_reducible refine sub_step (by assumption) ?_); first | rfl | decide)
      | (with_reducible apply count_fr) | (with_reducible apply retireInstr_fr) | (split) | (intro _)
      | (refine frame_fst ?_ (by assumption)) | (dsimp only) | (with_reducible apply frame_any))) only [framed]

theorem acceptOp_fr {E : Nat} {s0 s : State} (h : Frame E s0 s) {f : Nat} {t : Nat} {rd : Nat} {unit : Nat} {fn : Nat} {w : Bool} {addr : Nat} {d : List Byte} {writes : Bool} (hE : Sub 0x20400 E := by first | assumption | exact sub_step (by assumption) (by decide)) :
    Frame E s0 (State.acceptOp s f t rd unit fn w addr d writes).1 := by
  simp (disch := (
    unfold FrameOf
    unfold State.acceptOp
    try dsimp only
    repeat' first
      | (with_reducible assumption) | ((with_reducible refine sub_step (by assumption) ?_); first | rfl | decide)
      | (with_reducible apply count_fr) | (with_reducible apply idNext_fr) | (with_reducible apply retireInstr_fr)
      | (with_reducible apply updThread_fr) | (split) | (intro _) | (refine frame_fst ?_ (by assumption)) | (dsimp only)
      | (with_reducible apply frame_any))) only [framed]

theorem descOp_fr {E : Nat} {s0 s : State} (h : Frame E s0 s) {f : Nat} {t : Nat} {rd : Nat} {rs : Nat} {unit : Nat} {fn : Nat} {w : Bool} {writes : List Byte → Bool} {ok : List Byte → Bool} {stops : List Byte → Option Nat} {waits : State → List Byte → Bool} {v : Invoc} {run : State → Nat → List Byte → State} (h_run : ∀ z0 z1 z2, Frame E s0 z0 → Frame E s0 (run z0 z1 z2)) (hE : Sub 0x4f28402 E := by first | assumption | exact sub_step (by assumption) (by decide)) :
    Frame E s0 (State.descOp s f t rd rs unit fn w writes ok stops waits v run) := by
  simp (disch := (
    unfold FrameOf
    unfold State.descOp
    try dsimp only
    repeat' first
      | (with_reducible assumption) | ((with_reducible refine sub_step (by assumption) ?_); first | rfl | decide)
      | (with_reducible apply acceptOp_fr) | (with_reducible apply agentMoves_fr) | (with_reducible apply engineFault_fr)
      | (with_reducible apply slot_fr) | (with_reducible apply unitDone_fr) | (with_reducible apply updInv_fr)
      | (with_reducible apply h_run) | (split) | (intro _) | (refine frame_fst ?_ (by assumption)) | (dsimp only)
      | (with_reducible apply frame_any))) only [framed]

theorem runRequest_fr {E : Nat} {s0 s : State} (h : Frame E s0 s) {f : Nat} {t : Nat} {v : Invoc} {op : Nat} {d : List Byte} (hE : Sub 0x6f2b43b E := by first | assumption | exact sub_step (by assumption) (by decide)) :
    Frame E s0 (State.runRequest s f t v op d) := by
  simp (disch := (
    unfold FrameOf
    unfold State.runRequest
    try dsimp only
    repeat' first
      | (with_reducible assumption) | ((with_reducible refine sub_step (by assumption) ?_); first | rfl | decide)
      | (with_reducible apply agentMoves_fr) | (with_reducible apply openFor_fr) | (with_reducible apply pumpEntry_fr)
      | (with_reducible apply slot_fr) | (with_reducible apply takeEntry_fr) | (with_reducible apply unitDone_fr) | (split)
      | (intro _) | (refine frame_fst ?_ (by assumption)) | (dsimp only) | (with_reducible apply frame_any))) only [framed]

theorem runReply_fr {E : Nat} {s0 s : State} (h : Frame E s0 s) {f : Nat} {t : Nat} {v : Invoc} {op : Nat} {d : List Byte} (hE : Sub 0x4f28402 E := by first | assumption | exact sub_step (by assumption) (by decide)) :
    Frame E s0 (State.runReply s f t v op d) := by
  simp (disch := (
    unfold FrameOf
    unfold State.runReply
    try dsimp only
    repeat' first
      | (with_reducible assumption) | ((with_reducible refine sub_step (by assumption) ?_); first | rfl | decide)
      | (with_reducible apply agentMoves_fr) | (with_reducible apply queueResp_fr) | (with_reducible apply sendStatus_fr)
      | (with_reducible apply unitDone_fr) | (with_reducible apply updInv_fr) | (split) | (intro _)
      | (refine frame_fst ?_ (by assumption)) | (dsimp only) | (with_reducible apply frame_any))) only [framed]

theorem mcastSend_fr {E : Nat} {s0 s : State} (h : Frame E s0 s) {j : Nat} {src : Nat} {dest : Nat} {blk : OpBlock} {bytes : List Byte} (hE : Sub 0x20000 E := by first | assumption | exact sub_step (by assumption) (by decide)) :
    Frame E s0 (State.mcastSend s j src dest blk bytes) := by
  simp (disch := (
    unfold FrameOf
    unfold State.mcastSend
    try dsimp only
    repeat' first
      | (with_reducible assumption) | ((with_reducible refine sub_step (by assumption) ?_); first | rfl | decide)
      | (with_reducible apply emitSealed_fr) | (split) | (intro _) | (refine frame_fst ?_ (by assumption)) | (dsimp only)
      | (with_reducible apply frame_any))) only [framed]

theorem runMcast_fr {E : Nat} {s0 s : State} (h : Frame E s0 s) {f : Nat} {t : Nat} {v : Invoc} {op : Nat} {d : List Byte} (hE : Sub 0x4f28402 E := by first | assumption | exact sub_step (by assumption) (by decide)) :
    Frame E s0 (State.runMcast s f t v op d) := by
  simp (disch := (
    unfold FrameOf
    unfold State.runMcast
    try dsimp only
    repeat' first
      | (with_reducible assumption) | ((with_reducible refine sub_step (by assumption) ?_); first | rfl | decide)
      | (with_reducible apply agentMoves_fr) | (with_reducible apply mcastSend_fr) | (with_reducible apply slot_fr)
      | (with_reducible apply unitDone_fr) | (split) | (intro _) | (refine frame_fst ?_ (by assumption)) | (dsimp only)
      | (with_reducible apply frame_any))) only [framed]

theorem matchRecv_fr {E : Nat} {s0 s : State} (h : Frame E s0 s) {f : Nat} {t : Nat} {v : Invoc} {op : Nat} {p : Space} {d : List Byte} (hE : Sub 0x28000 E := by first | assumption | exact sub_step (by assumption) (by decide)) :
    Frame E s0 (State.matchRecv s f t v op p d).1 := by
  simp (disch := (
    unfold FrameOf
    unfold State.matchRecv
    try dsimp only
    repeat' first
      | (with_reducible assumption) | ((with_reducible refine sub_step (by assumption) ?_); first | rfl | decide)
      | (with_reducible apply translateRange_fr) | (split) | (intro _) | (refine frame_fst ?_ (by assumption)) | (dsimp only)
      | (with_reducible apply frame_any))) only [framed]

theorem runPost_fr {E : Nat} {s0 s : State} (h : Frame E s0 s) {f : Nat} {t : Nat} {v : Invoc} {op : Nat} {d : List Byte} (hE : Sub 0x6f2b43b E := by first | assumption | exact sub_step (by assumption) (by decide)) :
    Frame E s0 (State.runPost s f t v op d) := by
  simp (disch := (
    unfold FrameOf
    unfold State.runPost
    try dsimp only
    repeat' first
      | (with_reducible assumption) | ((with_reducible refine sub_step (by assumption) ?_); first | rfl | decide)
      | (with_reducible apply matchRecv_fr) | (with_reducible apply postRecv_fr) | (with_reducible apply settleAll_fr)
      | (with_reducible apply slot_fr) | (with_reducible apply unitDone_fr) | (split) | (intro _)
      | (refine frame_fst ?_ (by assumption)) | (dsimp only) | (with_reducible apply frame_any))) only [framed]

theorem runProbe_fr {E : Nat} {s0 s : State} (h : Frame E s0 s) {f : Nat} {t : Nat} {v : Invoc} {op : Nat} {d : List Byte} {claim : Bool} (hE : Sub 0x4f28402 E := by first | assumption | exact sub_step (by assumption) (by decide)) :
    Frame E s0 (State.runProbe s f t v op d claim) := by
  simp (disch := (
    unfold FrameOf
    unfold State.runProbe
    try dsimp only
    repeat' first
      | (with_reducible assumption) | ((with_reducible refine sub_step (by assumption) ?_); first | rfl | decide)
      | (with_reducible apply slot_fr) | (with_reducible apply unitDone_fr) | (with_reducible apply updMsg_fr)
      | (with_reducible apply writeLocal_fr) | (split) | (intro _) | (refine frame_fst ?_ (by assumption)) | (dsimp only)
      | (with_reducible apply frame_any))) only [framed]

theorem runDeliver_fr {E : Nat} {s0 s : State} (h : Frame E s0 s) {f : Nat} {t : Nat} {v : Invoc} {op : Nat} {d : List Byte} (hE : Sub 0x6f2b43b E := by first | assumption | exact sub_step (by assumption) (by decide)) :
    Frame E s0 (State.runDeliver s f t v op d) := by
  simp (disch := (
    unfold FrameOf
    unfold State.runDeliver
    try dsimp only
    repeat' first
      | (with_reducible assumption) | ((with_reducible refine sub_step (by assumption) ?_); first | rfl | decide)
      | (with_reducible apply idNext_fr) | (with_reducible apply matchRecv_fr) | (with_reducible apply pairUp_fr)
      | (with_reducible apply settleAll_fr) | (with_reducible apply slot_fr) | (with_reducible apply unitDone_fr) | (split)
      | (intro _) | (refine frame_fst ?_ (by assumption)) | (dsimp only) | (with_reducible apply frame_any))) only [framed]

theorem moveSide_fr {E : Nat} {s0 s : State} (h : Frame E s0 s) {f : Nat} {v : Invoc} {space : Nat} {asid : Nat} {addr : Nat} {n : Nat} {wr : Bool} (hE : Sub 0x28400 E := by first | assumption | exact sub_step (by assumption) (by decide)) :
    Frame E s0 (State.moveSide s f v space asid addr n wr).1 := by
  simp (disch := (
    unfold FrameOf
    unfold State.moveSide
    try dsimp only
    repeat' first
      | (with_reducible assumption) | ((with_reducible refine sub_step (by assumption) ?_); first | rfl | decide)
      | (with_reducible apply slot_fr) | (with_reducible apply translateRange_fr) | (with_reducible apply wr_fr) | (split)
      | (intro _) | (refine frame_fst ?_ (by assumption)) | (dsimp only) | (with_reducible apply frame_any))) only [framed]

theorem updOp_fr {E : Nat} {s0 s : State} (h : Frame E s0 s) {f : Nat} {t : Nat} {op : Nat} {g : UnitOp → UnitOp} :
    Frame E s0 (State.updOp s f t op g) := by
  simp (disch := (
    unfold FrameOf
    unfold State.updOp
    try dsimp only
    repeat' first
      | (with_reducible assumption) | (with_reducible apply updThread_fr) | (split) | (intro _)
      | (refine frame_fst ?_ (by assumption)) | (dsimp only) | (with_reducible apply frame_any))) only [framed]

theorem moveWrite_fr {E : Nat} {s0 s : State} (h : Frame E s0 s) {f : Nat} {t : Nat} {op : Nat} {bytes : List Byte} (hE : Sub 0x4f28402 E := by first | assumption | exact sub_step (by assumption) (by decide)) :
    Frame E s0 (State.moveWrite s f t op bytes) := by
  simp (disch := (
    unfold FrameOf
    unfold State.moveWrite
    try dsimp only
    repeat' first
      | (with_reducible assumption) | ((with_reducible refine sub_step (by assumption) ?_); first | rfl | decide)
      | (with_reducible apply startXfer_fr) | (with_reducible apply unitDone_fr) | (with_reducible apply writeLocal_fr)
      | (split) | (intro _) | (refine frame_fst ?_ (by assumption)) | (dsimp only) | (with_reducible apply frame_any))) only [framed]

theorem runMove_fr {E : Nat} {s0 s : State} (h : Frame E s0 s) {f : Nat} {t : Nat} {v : Invoc} {op : Nat} {d : List Byte} {fill : Bool} (hE : Sub 0x4f28402 E := by first | assumption | exact sub_step (by assumption) (by decide)) :
    Frame E s0 (State.runMove s f t v op d fill) := by
  simp (disch := (
    unfold FrameOf
    unfold State.runMove
    try dsimp only
    repeat' first
      | (with_reducible assumption) | ((with_reducible refine sub_step (by assumption) ?_); first | rfl | decide)
      | (with_reducible apply agentMoves_fr) | (with_reducible apply moveSide_fr) | (with_reducible apply moveWrite_fr)
      | (with_reducible apply startXfer_fr) | (with_reducible apply unitDone_fr) | (with_reducible apply updOp_fr) | (split)
      | (intro _) | (refine frame_fst ?_ (by assumption)) | (dsimp only) | (with_reducible apply frame_any))) only [framed]

theorem moveOver_fr {E : Nat} {s0 s : State} (h : Frame E s0 s) {f : Nat} {t : Nat} {op : Nat} {write : Bool} {ok : Bool} {segs : List (Loc × Nat)} {bytes : List Byte} (hE : Sub 0x4f28402 E := by first | assumption | exact sub_step (by assumption) (by decide)) :
    Frame E s0 (State.moveOver s f t op write ok segs bytes) := by
  simp (disch := (
    unfold FrameOf
    unfold State.moveOver
    try dsimp only
    repeat' first
      | (with_reducible assumption) | ((with_reducible refine sub_step (by assumption) ?_); first | rfl | decide)
      | (with_reducible apply moveWrite_fr) | (with_reducible apply startFlush_fr) | (with_reducible apply unitDone_fr)
      | (split) | (intro _) | (refine frame_fst ?_ (by assumption)) | (dsimp only) | (with_reducible apply frame_any))) only [framed]

theorem runTallyAdd_fr {E : Nat} {s0 s : State} (h : Frame E s0 s) {f : Nat} {t : Nat} {rd : Nat} {v : Invoc} {n : Nat} {x : Nat} (hE : Sub 0x820400 E := by first | assumption | exact sub_step (by assumption) (by decide)) :
    Frame E s0 (State.runTallyAdd s f t rd v n x) := by
  simp (disch := (
    unfold FrameOf
    unfold State.runTallyAdd
    try dsimp only
    repeat' first
      | (with_reducible assumption) | ((with_reducible refine sub_step (by assumption) ?_); first | rfl | decide)
      | (with_reducible apply addTally_fr) | (with_reducible apply unitRet_fr) | (split) | (intro _)
      | (refine frame_fst ?_ (by assumption)) | (dsimp only) | (with_reducible apply frame_any))) only [framed]

theorem runTallyRead_fr {E : Nat} {s0 s : State} (h : Frame E s0 s) {f : Nat} {t : Nat} {rd : Nat} {v : Invoc} {n : Nat} (hE : Sub 0x20400 E := by first | assumption | exact sub_step (by assumption) (by decide)) :
    Frame E s0 (State.runTallyRead s f t rd v n) := by
  simp (disch := (
    unfold FrameOf
    unfold State.runTallyRead
    try dsimp only
    repeat' first
      | (with_reducible assumption) | ((with_reducible refine sub_step (by assumption) ?_); first | rfl | decide)
      | (with_reducible apply unitRet_fr) | (split) | (intro _) | (refine frame_fst ?_ (by assumption)) | (dsimp only)
      | (with_reducible apply frame_any))) only [framed]

theorem runTallyWait_fr {E : Nat} {s0 s : State} (h : Frame E s0 s) {f : Nat} {t : Nat} {rd : Nat} {v : Invoc} {w : Bool} {n : Nat} {x : Nat} (hE : Sub 0x4f28402 E := by first | assumption | exact sub_step (by assumption) (by decide)) :
    Frame E s0 (State.runTallyWait s f t rd v w n x) := by
  simp (disch := (
    unfold FrameOf
    unfold State.runTallyWait
    try dsimp only
    repeat' first
      | (with_reducible assumption) | ((with_reducible refine sub_step (by assumption) ?_); first | rfl | decide)
      | (with_reducible apply count_fr) | (with_reducible apply engineFault_fr) | (with_reducible apply retireInstr_fr)
      | (with_reducible apply unitRet_fr) | (split) | (intro _) | (refine frame_fst ?_ (by assumption)) | (dsimp only)
      | (with_reducible apply frame_any))) only [framed]

theorem tallyWake_fr {E : Nat} {s0 s : State} (h : Frame E s0 s) {f : Nat} {t : Nat} :
    Frame E s0 (State.tallyWake s f t) := by
  simp (disch := (
    unfold FrameOf
    unfold State.tallyWake
    try dsimp only
    repeat' first
      | (with_reducible assumption) | (with_reducible apply updInv_fr) | (split) | (intro _)
      | (refine frame_fst ?_ (by assumption)) | (dsimp only) | (with_reducible apply frame_any))) only [framed]

theorem runLockAcquire_fr {E : Nat} {s0 s : State} (h : Frame E s0 s) {f : Nat} {t : Nat} {rd : Nat} {v : Invoc} {w : Bool} {n : Nat} (hE : Sub 0x4f28402 E := by first | assumption | exact sub_step (by assumption) (by decide)) :
    Frame E s0 (State.runLockAcquire s f t rd v w n) := by
  simp (disch := (
    unfold FrameOf
    unfold State.runLockAcquire
    try dsimp only
    repeat' first
      | (with_reducible assumption) | ((with_reducible refine sub_step (by assumption) ?_); first | rfl | decide)
      | (with_reducible apply acquireLock_fr) | (with_reducible apply count_fr) | (with_reducible apply engineFault_fr)
      | (with_reducible apply retireInstr_fr) | (with_reducible apply unitRet_fr) | (split) | (intro _)
      | (refine frame_fst ?_ (by assumption)) | (dsimp only) | (with_reducible apply frame_any))) only [framed]

theorem runLockTry_fr {E : Nat} {s0 s : State} (h : Frame E s0 s) {f : Nat} {t : Nat} {rd : Nat} {v : Invoc} {n : Nat} (hE : Sub 0x4020400 E := by first | assumption | exact sub_step (by assumption) (by decide)) :
    Frame E s0 (State.runLockTry s f t rd v n) := by
  simp (disch := (
    unfold FrameOf
    unfold State.runLockTry
    try dsimp only
    repeat' first
      | (with_reducible assumption) | ((with_reducible refine sub_step (by assumption) ?_); first | rfl | decide)
      | (with_reducible apply grantLock_fr) | (with_reducible apply unitRet_fr) | (split) | (intro _)
      | (refine frame_fst ?_ (by assumption)) | (dsimp only) | (with_reducible apply frame_any))) only [framed]

theorem runLockRelease_fr {E : Nat} {s0 s : State} (h : Frame E s0 s) {f : Nat} {t : Nat} {rd : Nat} {v : Invoc} {n : Nat} (hE : Sub 0x4020400 E := by first | assumption | exact sub_step (by assumption) (by decide)) :
    Frame E s0 (State.runLockRelease s f t rd v n) := by
  simp (disch := (
    unfold FrameOf
    unfold State.runLockRelease
    try dsimp only
    repeat' first
      | (with_reducible assumption) | ((with_reducible refine sub_step (by assumption) ?_); first | rfl | decide)
      | (with_reducible apply releaseLock_fr) | (with_reducible apply unitRet_fr) | (split) | (intro _)
      | (refine frame_fst ?_ (by assumption)) | (dsimp only) | (with_reducible apply frame_any))) only [framed]

theorem runEventWait_fr {E : Nat} {s0 s : State} (h : Frame E s0 s) {f : Nat} {t : Nat} {rd : Nat} {w : Bool} {timeout : Nat} (hE : Sub 0x4f28402 E := by first | assumption | exact sub_step (by assumption) (by decide)) :
    Frame E s0 (State.runEventWait s f t rd w timeout) := by
  simp (disch := (
    unfold FrameOf
    unfold State.runEventWait
    try dsimp only
    repeat' first
      | (with_reducible assumption) | ((with_reducible refine sub_step (by assumption) ?_); first | rfl | decide)
      | (with_reducible apply armIn_fr) | (with_reducible apply count_fr) | (with_reducible apply engineFault_fr)
      | (with_reducible apply retireInstr_fr) | (with_reducible apply unitRet_fr) | (with_reducible apply updThread_fr)
      | (split) | (intro _) | (refine frame_fst ?_ (by assumption)) | (dsimp only) | (with_reducible apply frame_any))) only [framed]

theorem runEventPost_fr {E : Nat} {s0 s : State} (h : Frame E s0 s) {f : Nat} {t : Nat} {rd : Nat} {v : Invoc} {target : Nat} {x : Nat} (hE : Sub 0x20400 E := by first | assumption | exact sub_step (by assumption) (by decide)) :
    Frame E s0 (State.runEventPost s f t rd v target x) := by
  simp (disch := (
    unfold FrameOf
    unfold State.runEventPost
    try dsimp only
    repeat' first
      | (with_reducible assumption) | ((with_reducible refine sub_step (by assumption) ?_); first | rfl | decide)
      | (with_reducible apply count_fr) | (with_reducible apply pushEvent_fr) | (with_reducible apply slot_fr)
      | (with_reducible apply unitRet_fr) | (split) | (intro _) | (refine frame_fst ?_ (by assumption)) | (dsimp only)
      | (with_reducible apply frame_any))) only [framed]

theorem runTimerArm_fr {E : Nat} {s0 s : State} (h : Frame E s0 s) {f : Nat} {t : Nat} {rd : Nat} {due : Nat} {tag : Nat} (hE : Sub 0x20400 E := by first | assumption | exact sub_step (by assumption) (by decide)) :
    Frame E s0 (State.runTimerArm s f t rd due tag) := by
  simp (disch := (
    unfold FrameOf
    unfold State.runTimerArm
    try dsimp only
    repeat' first
      | (with_reducible assumption) | ((with_reducible refine sub_step (by assumption) ?_); first | rfl | decide)
      | (with_reducible apply arm_fr) | (with_reducible apply freeNext_fr) | (with_reducible apply unitRet_fr)
      | (with_reducible apply updThread_fr) | (split) | (intro _) | (refine frame_fst ?_ (by assumption)) | (dsimp only)
      | (with_reducible apply frame_any))) only [framed]

theorem runTimerCancel_fr {E : Nat} {s0 s : State} (h : Frame E s0 s) {f : Nat} {t : Nat} {rd : Nat} {k : Nat} (hE : Sub 0x20400 E := by first | assumption | exact sub_step (by assumption) (by decide)) :
    Frame E s0 (State.runTimerCancel s f t rd k) := by
  simp (disch := (
    unfold FrameOf
    unfold State.runTimerCancel
    try dsimp only
    repeat' first
      | (with_reducible assumption) | ((with_reducible refine sub_step (by assumption) ?_); first | rfl | decide)
      | (with_reducible apply disarm_fr) | (with_reducible apply unitRet_fr) | (with_reducible apply updThread_fr) | (split)
      | (intro _) | (refine frame_fst ?_ (by assumption)) | (dsimp only) | (with_reducible apply frame_any))) only [framed]

theorem runRing_fr {E : Nat} {s0 s : State} (h : Frame E s0 s) {f : Nat} {t : Nat} {rd : Nat} {v : Invoc} {q : Nat} {x : Nat} (hE : Sub 0x4f2a402 E := by first | assumption | exact sub_step (by assumption) (by decide)) :
    Frame E s0 (State.runRing s f t rd v q x) := by
  simp (disch := (
    unfold FrameOf
    unfold State.runRing
    try dsimp only
    repeat' first
      | (with_reducible assumption) | ((with_reducible refine sub_step (by assumption) ?_); first | rfl | decide)
      | (with_reducible apply dbForeign_fr) | (with_reducible apply engineFault_fr) | (with_reducible apply takeDoorbell_fr)
      | (with_reducible apply unitRet_fr) | (split) | (intro _) | (refine frame_fst ?_ (by assumption)) | (dsimp only)
      | (with_reducible apply frame_any))) only [framed]

theorem writeSlots_fr {E : Nat} {s0 s : State} (h : Frame E s0 s) {q : Nat} {i : Nat} {y0 : Nat} {y1 : List Byte} (hE : Sub 0x920000 E := by first | assumption | exact sub_step (by assumption) (by decide)) :
    Frame E s0 (State.writeSlots s q i y0 y1) := by
  simp (disch := (
    unfold FrameOf
    induction y0 generalizing s q i y1 with
    | zero =>
      unfold State.writeSlots
      try dsimp only
      repeat' first
        | (with_reducible assumption) | ((with_reducible refine sub_step (by assumption) ?_); first | rfl | decide)
        | (with_reducible apply askSegs_fr) | (with_reducible apply putBytes_fr) | (with_reducible apply ih) | (split) | (intro _)
        | (refine frame_fst ?_ (by assumption)) | (dsimp only) | (with_reducible apply frame_any)
    | succ n ih =>
      unfold State.writeSlots
      try dsimp only
      repeat' first
        | (with_reducible assumption) | ((with_reducible refine sub_step (by assumption) ?_); first | rfl | decide)
        | (with_reducible apply askSegs_fr) | (with_reducible apply putBytes_fr) | (with_reducible apply ih) | (split) | (intro _)
        | (refine frame_fst ?_ (by assumption)) | (dsimp only) | (with_reducible apply frame_any))) only [framed]

theorem runEnqueue_fr {E : Nat} {s0 s : State} (h : Frame E s0 s) {f : Nat} {t : Nat} {v : Invoc} {op : Nat} {d : List Byte} (hE : Sub 0x4f28402 E := by first | assumption | exact sub_step (by assumption) (by decide)) :
    Frame E s0 (State.runEnqueue s f t v op d) := by
  simp (disch := (
    unfold FrameOf
    unfold State.runEnqueue
    try dsimp only
    repeat' first
      | (with_reducible assumption) | ((with_reducible refine sub_step (by assumption) ?_); first | rfl | decide)
      | (with_reducible apply agentMoves_fr) | (with_reducible apply takeDoorbell_fr) | (with_reducible apply unitDone_fr)
      | (with_reducible apply writeSlots_fr) | (split) | (intro _) | (refine frame_fst ?_ (by assumption)) | (dsimp only)
      | (with_reducible apply frame_any))) only [framed]

end Sys2Proof.Laws
end

