-- ==== Sys2Proof/Laws/FrFerries.lean ====
section
/-! SUPPORT. The frame of every operation of Machine/Ferries.lean (`Laws.Frame`). -/

namespace Sys2Proof.Laws

open Sys2Proof.Machine

set_option linter.all false
set_option Elab.async false

theorem dispatchEvent_fr {E : Nat} {s0 s : State} (h : Frame E s0 s) {f : Nat} {t : Nat} {e : DEvent} {h' : HEntry} (hE : Sub 0x520400 E := by first | assumption | exact sub_step (by assumption) (by decide)) :
    Frame E s0 (State.dispatchEvent s f t e h') := by
  simp (disch := (
    unfold FrameOf
    unfold State.dispatchEvent
    try dsimp only
    repeat' first
      | (with_reducible assumption) | ((with_reducible refine sub_step (by assumption) ?_); first | rfl | decide)
      | (with_reducible apply armIn_fr) | (with_reducible apply count_fr) | (with_reducible apply slot_fr)
      | (with_reducible apply updFerry_fr) | (with_reducible apply updThread_fr) | (with_reducible apply writeLocal_fr)
      | (with_reducible apply frame_foldl) | (split) | (intro _) | (refine frame_fst ?_ (by assumption)) | (dsimp only)
      | (with_reducible apply frame_any))) only [framed]

theorem execHandlerDispatch_fr {E : Nat} {s0 s : State} (h : Frame E s0 s) {f : Nat} (hE : Sub 0x6f2b43b E := by first | assumption | exact sub_step (by assumption) (by decide)) :
    OFrame E s0 (execHandlerDispatch f s) := by
  simp (disch := (
    unfold OFrameOf
    unfold execHandlerDispatch
    try dsimp only
    repeat' first
      | (with_reducible apply OFrame.next) | (with_reducible assumption)
      | ((with_reducible refine sub_step (by assumption) ?_); first | rfl | decide) | (with_reducible apply dispatchEvent_fr)
      | (with_reducible apply settleAll_fr) | (with_reducible apply whenLive_fr) | (split) | (intro _)
      | (refine frame_fst ?_ (by assumption)) | (dsimp only) | (with_reducible apply frame_any))) only [oframed]

theorem execBudgetExpiry_fr {E : Nat} {s0 s : State} (h : Frame E s0 s) {f : Nat} {t : Nat} (hE : Sub 0x6f2b43b E := by first | assumption | exact sub_step (by assumption) (by decide)) :
    OFrame E s0 (execBudgetExpiry f t s) := by
  simp (disch := (
    unfold OFrameOf
    unfold execBudgetExpiry
    try dsimp only
    repeat' first
      | (with_reducible apply OFrame.next) | (with_reducible assumption)
      | ((with_reducible refine sub_step (by assumption) ?_); first | rfl | decide) | (with_reducible apply settleAll_fr)
      | (with_reducible apply threadFault_fr) | (with_reducible apply whenDue_fr) | (split) | (intro _)
      | (refine frame_fst ?_ (by assumption)) | (dsimp only) | (with_reducible apply frame_any))) only [oframed]

theorem execUnitOpComplete_fr {E : Nat} {s0 s : State} (h : Frame E s0 s) {f : Nat} {t : Nat} {_op : Nat} {_result : Nat} :
    OFrame E s0 (execUnitOpComplete f t _op _result s) := by
  simp (disch := (
    unfold OFrameOf
    unfold execUnitOpComplete
    try dsimp only
    repeat' first
      | (with_reducible apply OFrame.next) | (with_reducible assumption) | (with_reducible apply tallyWake_fr)
      | (with_reducible apply whenUp_fr) | (split) | (intro _) | (refine frame_fst ?_ (by assumption)) | (dsimp only)
      | (with_reducible apply frame_any))) only [oframed]

theorem execTimerFire_fr {E : Nat} {s0 s : State} (h : Frame E s0 s) {f : Nat} {t : Nat} {k : Nat} (hE : Sub 0x20000 E := by first | assumption | exact sub_step (by assumption) (by decide)) :
    OFrame E s0 (execTimerFire f t k s) := by
  simp (disch := (
    unfold OFrameOf
    unfold execTimerFire
    try dsimp only
    repeat' first
      | (with_reducible apply OFrame.next) | (with_reducible assumption)
      | ((with_reducible refine sub_step (by assumption) ?_); first | rfl | decide) | (with_reducible apply postEvent_fr)
      | (with_reducible apply updThread_fr) | (with_reducible apply whenDue_fr) | (split) | (intro _)
      | (refine frame_fst ?_ (by assumption)) | (dsimp only) | (with_reducible apply frame_any))) only [oframed]

theorem execEventWaitTimeout_fr {E : Nat} {s0 s : State} (h : Frame E s0 s) {f : Nat} {t : Nat} (hE : Sub 0x20000 E := by first | assumption | exact sub_step (by assumption) (by decide)) :
    OFrame E s0 (execEventWaitTimeout f t s) := by
  simp (disch := (
    unfold OFrameOf
    unfold execEventWaitTimeout
    try dsimp only
    repeat' first
      | (with_reducible apply OFrame.next) | (with_reducible assumption)
      | ((with_reducible refine sub_step (by assumption) ?_); first | rfl | decide) | (with_reducible apply postEvent_fr)
      | (with_reducible apply whenDue_fr) | (split) | (intro _) | (refine frame_fst ?_ (by assumption)) | (dsimp only)
      | (with_reducible apply frame_any))) only [oframed]

theorem writeFxCfg_fr {E : Nat} {s0 s : State} (h : Frame E s0 s) {f : Nat} {v : Nat} (hE : Sub 0x400 E := by first | assumption | exact sub_step (by assumption) (by decide)) :
    Frame E s0 (State.writeFxCfg s f v) := by
  simp (disch := (
    unfold FrameOf
    unfold State.writeFxCfg
    try dsimp only
    repeat' first
      | (with_reducible assumption) | ((with_reducible refine sub_step (by assumption) ?_); first | rfl | decide)
      | (with_reducible refine sub_fldb ?_ ?_) | (with_reducible exact sub_zero) | (with_reducible apply setBounded_fr)
      | (split) | (intro _) | (refine frame_fst ?_ (by assumption)) | (dsimp only) | (with_reducible apply frame_any))) only [framed]

theorem execFxCfgWrite_fr {E : Nat} {s0 s : State} (h : Frame E s0 s) {f : Nat} {v : Nat} (hE : Sub 0x400 E := by first | assumption | exact sub_step (by assumption) (by decide)) :
    OFrame E s0 (execFxCfgWrite f v s) := by
  simp (disch := (
    unfold OFrameOf
    unfold execFxCfgWrite
    try dsimp only
    repeat' first
      | (with_reducible apply OFrame.next) | (with_reducible assumption)
      | ((with_reducible refine sub_step (by assumption) ?_); first | rfl | decide) | (with_reducible apply whenUp_fr)
      | (with_reducible apply writeFxCfg_fr) | (split) | (intro _) | (refine frame_fst ?_ (by assumption)) | (dsimp only)
      | (with_reducible apply frame_any))) only [oframed]

theorem execFxFaultRead_fr {E : Nat} {s0 s : State} (h : Frame E s0 s) {f : Nat} {t : Nat} (hE : Sub 0x400 E := by first | assumption | exact sub_step (by assumption) (by decide)) :
    OFrame E s0 (execFxFaultRead f t s) := by
  simp (disch := (
    unfold OFrameOf
    unfold execFxFaultRead
    try dsimp only
    repeat' first
      | (with_reducible apply OFrame.next) | (with_reducible assumption)
      | ((with_reducible refine sub_step (by assumption) ?_); first | rfl | decide) | (with_reducible apply readOut_fr)
      | (with_reducible apply whenUp_fr) | (split) | (intro _) | (refine frame_fst ?_ (by assumption)) | (dsimp only)
      | (with_reducible apply frame_any))) only [oframed]

end Sys2Proof.Laws
end

