-- ==== Sys2Proof/Laws/FrUnits.lean ====
section
/-! SUPPORT. The frame of every operation of Machine/Units.lean (`Laws.Frame`). -/

namespace Sys2Proof.Laws

open Sys2Proof.Machine

set_option linter.all false
set_option Elab.async false

theorem execSendRequest_fr {E : Nat} {s0 s : State} (h : Frame E s0 s) {f : Nat} {t : Nat} {rd : Nat} {rs : Nat} {ra : Nat} {w : Bool} (hE : Sub 0x6f2b43b E := by first | assumption | exact sub_step (by assumption) (by decide)) :
    OFrame E s0 (execSendRequest f t rd rs ra w s) := by
  simp (disch := (
    unfold OFrameOf
    unfold execSendRequest
    try dsimp only
    repeat' first
      | (with_reducible apply OFrame.next) | (with_reducible assumption)
      | ((with_reducible refine sub_step (by assumption) ?_); first | rfl | decide) | (with_reducible apply descOp_fr)
      | (with_reducible apply issueUnit_fr) | (with_reducible apply runRequest_fr) | (with_reducible apply whenUp_fr) | (split)
      | (intro _) | (refine frame_fst ?_ (by assumption)) | (dsimp only) | (with_reducible apply frame_any))) only [oframed]

theorem execSendReply_fr {E : Nat} {s0 s : State} (h : Frame E s0 s) {f : Nat} {t : Nat} {rd : Nat} {rs : Nat} {ra : Nat} {w : Bool} (hE : Sub 0x4f28402 E := by first | assumption | exact sub_step (by assumption) (by decide)) :
    OFrame E s0 (execSendReply f t rd rs ra w s) := by
  simp (disch := (
    unfold OFrameOf
    unfold execSendReply
    try dsimp only
    repeat' first
      | (with_reducible apply OFrame.next) | (with_reducible assumption)
      | ((with_reducible refine sub_step (by assumption) ?_); first | rfl | decide) | (with_reducible apply descOp_fr)
      | (with_reducible apply issueUnit_fr) | (with_reducible apply runReply_fr) | (with_reducible apply whenUp_fr) | (split)
      | (intro _) | (refine frame_fst ?_ (by assumption)) | (dsimp only) | (with_reducible apply frame_any))) only [oframed]

theorem execSendMcast_fr {E : Nat} {s0 s : State} (h : Frame E s0 s) {f : Nat} {t : Nat} {rd : Nat} {rs : Nat} {ra : Nat} {w : Bool} (hE : Sub 0x4f28402 E := by first | assumption | exact sub_step (by assumption) (by decide)) :
    OFrame E s0 (execSendMcast f t rd rs ra w s) := by
  simp (disch := (
    unfold OFrameOf
    unfold execSendMcast
    try dsimp only
    repeat' first
      | (with_reducible apply OFrame.next) | (with_reducible assumption)
      | ((with_reducible refine sub_step (by assumption) ?_); first | rfl | decide) | (with_reducible apply descOp_fr)
      | (with_reducible apply issueUnit_fr) | (with_reducible apply runMcast_fr) | (with_reducible apply whenUp_fr) | (split)
      | (intro _) | (refine frame_fst ?_ (by assumption)) | (dsimp only) | (with_reducible apply frame_any))) only [oframed]

theorem execMatchPost_fr {E : Nat} {s0 s : State} (h : Frame E s0 s) {f : Nat} {t : Nat} {rd : Nat} {rs : Nat} {ra : Nat} {w : Bool} (hE : Sub 0x6f2b43b E := by first | assumption | exact sub_step (by assumption) (by decide)) :
    OFrame E s0 (execMatchPost f t rd rs ra w s) := by
  simp (disch := (
    unfold OFrameOf
    unfold execMatchPost
    try dsimp only
    repeat' first
      | (with_reducible apply OFrame.next) | (with_reducible assumption)
      | ((with_reducible refine sub_step (by assumption) ?_); first | rfl | decide) | (with_reducible apply descOp_fr)
      | (with_reducible apply issueUnit_fr) | (with_reducible apply runPost_fr) | (with_reducible apply whenUp_fr) | (split)
      | (intro _) | (refine frame_fst ?_ (by assumption)) | (dsimp only) | (with_reducible apply frame_any))) only [oframed]

theorem execMatchProbe_fr {E : Nat} {s0 s : State} (h : Frame E s0 s) {f : Nat} {t : Nat} {rd : Nat} {rs : Nat} {ra : Nat} {w : Bool} (hE : Sub 0x4f28402 E := by first | assumption | exact sub_step (by assumption) (by decide)) :
    OFrame E s0 (execMatchProbe f t rd rs ra w s) := by
  simp (disch := (
    unfold OFrameOf
    unfold execMatchProbe
    try dsimp only
    repeat' first
      | (with_reducible apply OFrame.next) | (with_reducible assumption)
      | ((with_reducible refine sub_step (by assumption) ?_); first | rfl | decide) | (with_reducible apply descOp_fr)
      | (with_reducible apply issueUnit_fr) | (with_reducible apply runProbe_fr) | (with_reducible apply whenUp_fr) | (split)
      | (intro _) | (refine frame_fst ?_ (by assumption)) | (dsimp only) | (with_reducible apply frame_any))) only [oframed]

theorem execMatchClaim_fr {E : Nat} {s0 s : State} (h : Frame E s0 s) {f : Nat} {t : Nat} {rd : Nat} {rs : Nat} {ra : Nat} {w : Bool} (hE : Sub 0x4f28402 E := by first | assumption | exact sub_step (by assumption) (by decide)) :
    OFrame E s0 (execMatchClaim f t rd rs ra w s) := by
  simp (disch := (
    unfold OFrameOf
    unfold execMatchClaim
    try dsimp only
    repeat' first
      | (with_reducible apply OFrame.next) | (with_reducible assumption)
      | ((with_reducible refine sub_step (by assumption) ?_); first | rfl | decide) | (with_reducible apply descOp_fr)
      | (with_reducible apply issueUnit_fr) | (with_reducible apply runProbe_fr) | (with_reducible apply whenUp_fr) | (split)
      | (intro _) | (refine frame_fst ?_ (by assumption)) | (dsimp only) | (with_reducible apply frame_any))) only [oframed]

theorem execMatchDeliver_fr {E : Nat} {s0 s : State} (h : Frame E s0 s) {f : Nat} {t : Nat} {rd : Nat} {rs : Nat} {ra : Nat} {w : Bool} (hE : Sub 0x6f2b43b E := by first | assumption | exact sub_step (by assumption) (by decide)) :
    OFrame E s0 (execMatchDeliver f t rd rs ra w s) := by
  simp (disch := (
    unfold OFrameOf
    unfold execMatchDeliver
    try dsimp only
    repeat' first
      | (with_reducible apply OFrame.next) | (with_reducible assumption)
      | ((with_reducible refine sub_step (by assumption) ?_); first | rfl | decide) | (with_reducible apply descOp_fr)
      | (with_reducible apply issueUnit_fr) | (with_reducible apply runDeliver_fr) | (with_reducible apply whenUp_fr) | (split)
      | (intro _) | (refine frame_fst ?_ (by assumption)) | (dsimp only) | (with_reducible apply frame_any))) only [oframed]

theorem execMoveCopy_fr {E : Nat} {s0 s : State} (h : Frame E s0 s) {f : Nat} {t : Nat} {rd : Nat} {rs : Nat} {ra : Nat} {w : Bool} (hE : Sub 0x4f28402 E := by first | assumption | exact sub_step (by assumption) (by decide)) :
    OFrame E s0 (execMoveCopy f t rd rs ra w s) := by
  simp (disch := (
    unfold OFrameOf
    unfold execMoveCopy
    try dsimp only
    repeat' first
      | (with_reducible apply OFrame.next) | (with_reducible assumption)
      | ((with_reducible refine sub_step (by assumption) ?_); first | rfl | decide) | (with_reducible apply descOp_fr)
      | (with_reducible apply issueUnit_fr) | (with_reducible apply runMove_fr) | (with_reducible apply whenUp_fr) | (split)
      | (intro _) | (refine frame_fst ?_ (by assumption)) | (dsimp only) | (with_reducible apply frame_any))) only [oframed]

theorem execMoveFill_fr {E : Nat} {s0 s : State} (h : Frame E s0 s) {f : Nat} {t : Nat} {rd : Nat} {rs : Nat} {ra : Nat} {w : Bool} (hE : Sub 0x4f28402 E := by first | assumption | exact sub_step (by assumption) (by decide)) :
    OFrame E s0 (execMoveFill f t rd rs ra w s) := by
  simp (disch := (
    unfold OFrameOf
    unfold execMoveFill
    try dsimp only
    repeat' first
      | (with_reducible apply OFrame.next) | (with_reducible assumption)
      | ((with_reducible refine sub_step (by assumption) ?_); first | rfl | decide) | (with_reducible apply descOp_fr)
      | (with_reducible apply issueUnit_fr) | (with_reducible apply runMove_fr) | (with_reducible apply whenUp_fr) | (split)
      | (intro _) | (refine frame_fst ?_ (by assumption)) | (dsimp only) | (with_reducible apply frame_any))) only [oframed]

theorem execTallyUnitAdd_fr {E : Nat} {s0 s : State} (h : Frame E s0 s) {f : Nat} {t : Nat} {rd : Nat} {rs : Nat} {ra : Nat} {w : Bool} (hE : Sub 0x4f28402 E := by first | assumption | exact sub_step (by assumption) (by decide)) :
    OFrame E s0 (execTallyUnitAdd f t rd rs ra w s) := by
  simp (disch := (
    unfold OFrameOf
    unfold execTallyUnitAdd
    try dsimp only
    repeat' first
      | (with_reducible apply OFrame.next) | (with_reducible assumption)
      | ((with_reducible refine sub_step (by assumption) ?_); first | rfl | decide) | (with_reducible apply issueUnit_fr)
      | (with_reducible apply runTallyAdd_fr) | (with_reducible apply whenUp_fr) | (split) | (intro _)
      | (refine frame_fst ?_ (by assumption)) | (dsimp only) | (with_reducible apply frame_any))) only [oframed]

theorem execTallyRead_fr {E : Nat} {s0 s : State} (h : Frame E s0 s) {f : Nat} {t : Nat} {rd : Nat} {rs : Nat} {ra : Nat} {w : Bool} (hE : Sub 0x4f28402 E := by first | assumption | exact sub_step (by assumption) (by decide)) :
    OFrame E s0 (execTallyRead f t rd rs ra w s) := by
  simp (disch := (
    unfold OFrameOf
    unfold execTallyRead
    try dsimp only
    repeat' first
      | (with_reducible apply OFrame.next) | (with_reducible assumption)
      | ((with_reducible refine sub_step (by assumption) ?_); first | rfl | decide) | (with_reducible apply issueUnit_fr)
      | (with_reducible apply runTallyRead_fr) | (with_reducible apply whenUp_fr) | (split) | (intro _)
      | (refine frame_fst ?_ (by assumption)) | (dsimp only) | (with_reducible apply frame_any))) only [oframed]

theorem execTallyWait_fr {E : Nat} {s0 s : State} (h : Frame E s0 s) {f : Nat} {t : Nat} {rd : Nat} {rs : Nat} {ra : Nat} {w : Bool} (hE : Sub 0x4f28402 E := by first | assumption | exact sub_step (by assumption) (by decide)) :
    OFrame E s0 (execTallyWait f t rd rs ra w s) := by
  simp (disch := (
    unfold OFrameOf
    unfold execTallyWait
    try dsimp only
    repeat' first
      | (with_reducible apply OFrame.next) | (with_reducible assumption)
      | ((with_reducible refine sub_step (by assumption) ?_); first | rfl | decide) | (with_reducible apply issueUnit_fr)
      | (with_reducible apply runTallyWait_fr) | (with_reducible apply whenUp_fr) | (split) | (intro _)
      | (refine frame_fst ?_ (by assumption)) | (dsimp only) | (with_reducible apply frame_any))) only [oframed]

theorem execLockAcquire_fr {E : Nat} {s0 s : State} (h : Frame E s0 s) {f : Nat} {t : Nat} {rd : Nat} {rs : Nat} {ra : Nat} {w : Bool} (hE : Sub 0x4f28402 E := by first | assumption | exact sub_step (by assumption) (by decide)) :
    OFrame E s0 (execLockAcquire f t rd rs ra w s) := by
  simp (disch := (
    unfold OFrameOf
    unfold execLockAcquire
    try dsimp only
    repeat' first
      | (with_reducible apply OFrame.next) | (with_reducible assumption)
      | ((with_reducible refine sub_step (by assumption) ?_); first | rfl | decide) | (with_reducible apply issueUnit_fr)
      | (with_reducible apply runLockAcquire_fr) | (with_reducible apply whenUp_fr) | (split) | (intro _)
      | (refine frame_fst ?_ (by assumption)) | (dsimp only) | (with_reducible apply frame_any))) only [oframed]

theorem execLockTry_fr {E : Nat} {s0 s : State} (h : Frame E s0 s) {f : Nat} {t : Nat} {rd : Nat} {rs : Nat} {ra : Nat} {w : Bool} (hE : Sub 0x4f28402 E := by first | assumption | exact sub_step (by assumption) (by decide)) :
    OFrame E s0 (execLockTry f t rd rs ra w s) := by
  simp (disch := (
    unfold OFrameOf
    unfold execLockTry
    try dsimp only
    repeat' first
      | (with_reducible apply OFrame.next) | (with_reducible assumption)
      | ((with_reducible refine sub_step (by assumption) ?_); first | rfl | decide) | (with_reducible apply issueUnit_fr)
      | (with_reducible apply runLockTry_fr) | (with_reducible apply whenUp_fr) | (split) | (intro _)
      | (refine frame_fst ?_ (by assumption)) | (dsimp only) | (with_reducible apply frame_any))) only [oframed]

theorem execLockRelease_fr {E : Nat} {s0 s : State} (h : Frame E s0 s) {f : Nat} {t : Nat} {rd : Nat} {rs : Nat} {ra : Nat} {w : Bool} (hE : Sub 0x4f28402 E := by first | assumption | exact sub_step (by assumption) (by decide)) :
    OFrame E s0 (execLockRelease f t rd rs ra w s) := by
  simp (disch := (
    unfold OFrameOf
    unfold execLockRelease
    try dsimp only
    repeat' first
      | (with_reducible apply OFrame.next) | (with_reducible assumption)
      | ((with_reducible refine sub_step (by assumption) ?_); first | rfl | decide) | (with_reducible apply issueUnit_fr)
      | (with_reducible apply runLockRelease_fr) | (with_reducible apply whenUp_fr) | (split) | (intro _)
      | (refine frame_fst ?_ (by assumption)) | (dsimp only) | (with_reducible apply frame_any))) only [oframed]

theorem execEventWait_fr {E : Nat} {s0 s : State} (h : Frame E s0 s) {f : Nat} {t : Nat} {rd : Nat} {rs : Nat} {ra : Nat} {w : Bool} (hE : Sub 0x4f28402 E := by first | assumption | exact sub_step (by assumption) (by decide)) :
    OFrame E s0 (execEventWait f t rd rs ra w s) := by
  simp (disch := (
    unfold OFrameOf
    unfold execEventWait
    try dsimp only
    repeat' first
      | (with_reducible apply OFrame.next) | (with_reducible assumption)
      | ((with_reducible refine sub_step (by assumption) ?_); first | rfl | decide) | (with_reducible apply issueUnit_fr)
      | (with_reducible apply runEventWait_fr) | (with_reducible apply whenUp_fr) | (split) | (intro _)
      | (refine frame_fst ?_ (by assumption)) | (dsimp only) | (with_reducible apply frame_any))) only [oframed]

theorem execEventPost_fr {E : Nat} {s0 s : State} (h : Frame E s0 s) {f : Nat} {t : Nat} {rd : Nat} {rs : Nat} {ra : Nat} {w : Bool} (hE : Sub 0x4f28402 E := by first | assumption | exact sub_step (by assumption) (by decide)) :
    OFrame E s0 (execEventPost f t rd rs ra w s) := by
  simp (disch := (
    unfold OFrameOf
    unfold execEventPost
    try dsimp only
    repeat' first
      | (with_reducible apply OFrame.next) | (with_reducible assumption)
      | ((with_reducible refine sub_step (by assumption) ?_); first | rfl | decide) | (with_reducible apply issueUnit_fr)
      | (with_reducible apply runEventPost_fr) | (with_reducible apply whenUp_fr) | (split) | (intro _)
      | (refine frame_fst ?_ (by assumption)) | (dsimp only) | (with_reducible apply frame_any))) only [oframed]

theorem execTimerArm_fr {E : Nat} {s0 s : State} (h : Frame E s0 s) {f : Nat} {t : Nat} {rd : Nat} {rs : Nat} {ra : Nat} {w : Bool} (hE : Sub 0x4f28402 E := by first | assumption | exact sub_step (by assumption) (by decide)) :
    OFrame E s0 (execTimerArm f t rd rs ra w s) := by
  simp (disch := (
    unfold OFrameOf
    unfold execTimerArm
    try dsimp only
    repeat' first
      | (with_reducible apply OFrame.next) | (with_reducible assumption)
      | ((with_reducible refine sub_step (by assumption) ?_); first | rfl | decide) | (with_reducible apply issueUnit_fr)
      | (with_reducible apply runTimerArm_fr) | (with_reducible apply whenUp_fr) | (split) | (intro _)
      | (refine frame_fst ?_ (by assumption)) | (dsimp only) | (with_reducible apply frame_any))) only [oframed]

theorem execTimerCancel_fr {E : Nat} {s0 s : State} (h : Frame E s0 s) {f : Nat} {t : Nat} {rd : Nat} {rs : Nat} {ra : Nat} {w : Bool} (hE : Sub 0x4f28402 E := by first | assumption | exact sub_step (by assumption) (by decide)) :
    OFrame E s0 (execTimerCancel f t rd rs ra w s) := by
  simp (disch := (
    unfold OFrameOf
    unfold execTimerCancel
    try dsimp only
    repeat' first
      | (with_reducible apply OFrame.next) | (with_reducible assumption)
      | ((with_reducible refine sub_step (by assumption) ?_); first | rfl | decide) | (with_reducible apply issueUnit_fr)
      | (with_reducible apply runTimerCancel_fr) | (with_reducible apply whenUp_fr) | (split) | (intro _)
      | (refine frame_fst ?_ (by assumption)) | (dsimp only) | (with_reducible apply frame_any))) only [oframed]

theorem execDoorbellRing_fr {E : Nat} {s0 s : State} (h : Frame E s0 s) {f : Nat} {t : Nat} {rd : Nat} {rs : Nat} {ra : Nat} {w : Bool} (hE : Sub 0x4f2a402 E := by first | assumption | exact sub_step (by assumption) (by decide)) :
    OFrame E s0 (execDoorbellRing f t rd rs ra w s) := by
  simp (disch := (
    unfold OFrameOf
    unfold execDoorbellRing
    try dsimp only
    repeat' first
      | (with_reducible apply OFrame.next) | (with_reducible assumption)
      | ((with_reducible refine sub_step (by assumption) ?_); first | rfl | decide) | (with_reducible apply issueUnit_fr)
      | (with_reducible apply runRing_fr) | (with_reducible apply whenUp_fr) | (split) | (intro _)
      | (refine frame_fst ?_ (by assumption)) | (dsimp only) | (with_reducible apply frame_any))) only [oframed]

theorem execEnqueue_fr {E : Nat} {s0 s : State} (h : Frame E s0 s) {f : Nat} {t : Nat} {rd : Nat} {rs : Nat} {ra : Nat} {w : Bool} (hE : Sub 0x4f28402 E := by first | assumption | exact sub_step (by assumption) (by decide)) :
    OFrame E s0 (execEnqueue f t rd rs ra w s) := by
  simp (disch := (
    unfold OFrameOf
    unfold execEnqueue
    try dsimp only
    repeat' first
      | (with_reducible apply OFrame.next) | (with_reducible assumption)
      | ((with_reducible refine sub_step (by assumption) ?_); first | rfl | decide) | (with_reducible apply descOp_fr)
      | (with_reducible apply issueUnit_fr) | (with_reducible apply runEnqueue_fr) | (with_reducible apply whenUp_fr) | (split)
      | (intro _) | (refine frame_fst ?_ (by assumption)) | (dsimp only) | (with_reducible apply frame_any))) only [oframed]

end Sys2Proof.Laws
end

