-- ==== Sys2Proof/Laws/FrCommandOps.lean ====
section
/-! SUPPORT. The frame of every operation of Machine/CommandOps.lean (`Laws.Frame`). -/

namespace Sys2Proof.Laws

open Sys2Proof.Machine

set_option linter.all false
set_option Elab.async false

theorem markStart_fr {E : Nat} {s0 s : State} (h : Frame E s0 s) {q : Nat} {i : Nat} {slots : Nat} (hE : Sub 0x20002 E := by first | assumption | exact sub_step (by assumption) (by decide)) :
    Frame E s0 (State.markStart s q i slots) := by
  simp (disch := (
    unfold FrameOf
    unfold State.markStart
    try dsimp only
    repeat' first
      | (with_reducible assumption) | ((with_reducible refine sub_step (by assumption) ?_); first | rfl | decide)
      | (with_reducible apply noteStart_fr) | (with_reducible apply updQ_fr) | (split) | (intro _)
      | (refine frame_fst ?_ (by assumption)) | (dsimp only) | (with_reducible apply frame_any))) only [framed]

theorem beginExec_fr {E : Nat} {s0 s : State} (h : Frame E s0 s) {q : Nat} {i : Nat} {iter : Nat} {slots : Nat} {c : Cmd} (hE : Sub 0x20002 E := by first | assumption | exact sub_step (by assumption) (by decide)) :
    Frame E s0 (State.beginExec s q i iter slots c) := by
  simp (disch := (
    unfold FrameOf
    unfold State.beginExec
    try dsimp only
    repeat' first
      | (with_reducible assumption) | ((with_reducible refine sub_step (by assumption) ?_); first | rfl | decide)
      | (with_reducible apply markStart_fr) | (with_reducible apply updQ_fr) | (split) | (intro _)
      | (refine frame_fst ?_ (by assumption)) | (dsimp only) | (with_reducible apply frame_any))) only [framed]

theorem startFail_fr {E : Nat} {s0 s : State} (h : Frame E s0 s) {q : Nat} {i : Nat} {iter : Nat} {slots : Nat} {d : Option Nat} {cause : Nat} (hE : Sub 0xb28002 E := by first | assumption | exact sub_step (by assumption) (by decide)) :
    Frame E s0 (State.startFail s q i iter slots d cause) := by
  simp (disch := (
    unfold FrameOf
    unfold State.startFail
    try dsimp only
    repeat' first
      | (with_reducible assumption) | ((with_reducible refine sub_step (by assumption) ?_); first | rfl | decide)
      | (with_reducible apply failQueue_fr) | (with_reducible apply markStart_fr) | (split) | (intro _)
      | (refine frame_fst ?_ (by assumption)) | (dsimp only) | (with_reducible apply frame_any))) only [framed]

theorem startOp_fr {E : Nat} {s0 s : State} (h : Frame E s0 s) {q : Nat} {dest : Nat} {land : Nat} {note : State → State} {pre : State → State × Option Nat} {mk : Nat → Nat → MEntry} (h_note : ∀ z0, Frame E s0 z0 → Frame E s0 (note z0)) (h_pre : ∀ z0, Frame E s0 z0 → Frame E s0 (pre z0).1) (hE : Sub 0x6f2b43b E := by first | assumption | exact sub_step (by assumption) (by decide)) :
    Frame E s0 (State.startOp s q dest land note pre mk).1 := by
  simp (disch := (
    unfold FrameOf
    unfold State.startOp
    try dsimp only
    repeat' first
      | (with_reducible assumption) | ((with_reducible refine sub_step (by assumption) ?_); first | rfl | decide)
      | (with_reducible apply openFor_fr) | (with_reducible apply pumpEntry_fr) | (with_reducible apply slot_fr)
      | (with_reducible apply takeEntry_fr) | (with_reducible apply h_note) | (with_reducible apply h_pre) | (split) | (intro _)
      | (refine frame_fst ?_ (by assumption)) | (dsimp only) | (with_reducible apply frame_any))) only [framed]

theorem preRange_fr {E : Nat} {s0 s : State} (h : Frame E s0 s) {q : Nat} {addr : Nat} {n : Nat} {wr : Bool} (hE : Sub 0x28000 E := by first | assumption | exact sub_step (by assumption) (by decide)) :
    Frame E s0 (State.preRange q addr n wr s).1 := by
  simp (disch := (
    unfold FrameOf
    unfold State.preRange
    try dsimp only
    repeat' first
      | (with_reducible assumption) | ((with_reducible refine sub_step (by assumption) ?_); first | rfl | decide)
      | (with_reducible apply translateRange_fr) | (with_reducible apply wr_fr) | (split) | (intro _)
      | (refine frame_fst ?_ (by assumption)) | (dsimp only) | (with_reducible apply frame_any))) only [framed]

theorem preNone_fr {E : Nat} {s0 s : State} (h : Frame E s0 s)  :
    Frame E s0 (State.preNone s).1 := by
  simp (disch := (
    unfold FrameOf
    unfold State.preNone
    try dsimp only
    repeat' first
      | (with_reducible assumption) | (split) | (intro _) | (refine frame_fst ?_ (by assumption)) | (dsimp only)
      | (with_reducible apply frame_any))) only [framed]

theorem startPut_fr {E : Nat} {s0 s : State} (h : Frame E s0 s) {q : Nat} {i : Nat} {iter : Nat} {c : XferCmd} {note : State → State} (h_note : ∀ z0, Frame E s0 z0 → Frame E s0 (note z0)) (hE : Sub 0x6f2b43b E := by first | assumption | exact sub_step (by assumption) (by decide)) :
    Frame E s0 (State.startPut s q i iter c note).1 := by
  simp (disch := (
    unfold FrameOf
    unfold State.startPut
    try dsimp only
    repeat' first
      | (with_reducible assumption) | ((with_reducible refine sub_step (by assumption) ?_); first | rfl | decide)
      | (with_reducible apply preNone_fr) | (with_reducible apply startOp_fr) | (with_reducible apply h_note) | (split)
      | (intro _) | (refine frame_fst ?_ (by assumption)) | (dsimp only) | (with_reducible apply frame_any))) only [framed]

theorem startPuti_fr {E : Nat} {s0 s : State} (h : Frame E s0 s) {q : Nat} {i : Nat} {iter : Nat} {c : PutiCmd} {note : State → State} (h_note : ∀ z0, Frame E s0 z0 → Frame E s0 (note z0)) (hE : Sub 0x6f2b43b E := by first | assumption | exact sub_step (by assumption) (by decide)) :
    Frame E s0 (State.startPuti s q i iter c note).1 := by
  simp (disch := (
    unfold FrameOf
    unfold State.startPuti
    try dsimp only
    repeat' first
      | (with_reducible assumption) | ((with_reducible refine sub_step (by assumption) ?_); first | rfl | decide)
      | (with_reducible apply preNone_fr) | (with_reducible apply startOp_fr) | (with_reducible apply h_note) | (split)
      | (intro _) | (refine frame_fst ?_ (by assumption)) | (dsimp only) | (with_reducible apply frame_any))) only [framed]

theorem startGet_fr {E : Nat} {s0 s : State} (h : Frame E s0 s) {q : Nat} {i : Nat} {iter : Nat} {c : XferCmd} {note : State → State} (h_note : ∀ z0, Frame E s0 z0 → Frame E s0 (note z0)) (hE : Sub 0x6f2b43b E := by first | assumption | exact sub_step (by assumption) (by decide)) :
    Frame E s0 (State.startGet s q i iter c note).1 := by
  simp (disch := (
    unfold FrameOf
    unfold State.startGet
    try dsimp only
    repeat' first
      | (with_reducible assumption) | ((with_reducible refine sub_step (by assumption) ?_); first | rfl | decide)
      | (with_reducible apply preRange_fr) | (with_reducible apply startOp_fr) | (with_reducible apply h_note) | (split)
      | (intro _) | (refine frame_fst ?_ (by assumption)) | (dsimp only) | (with_reducible apply frame_any))) only [framed]

theorem startAtomic_fr {E : Nat} {s0 s : State} (h : Frame E s0 s) {q : Nat} {i : Nat} {iter : Nat} {c : AtomicCmd} {note : State → State} (h_note : ∀ z0, Frame E s0 z0 → Frame E s0 (note z0)) (hE : Sub 0x6f2b43b E := by first | assumption | exact sub_step (by assumption) (by decide)) :
    Frame E s0 (State.startAtomic s q i iter c note).1 := by
  simp (disch := (
    unfold FrameOf
    unfold State.startAtomic
    try dsimp only
    repeat' first
      | (with_reducible assumption) | ((with_reducible refine sub_step (by assumption) ?_); first | rfl | decide)
      | (with_reducible apply preNone_fr) | (with_reducible apply preRange_fr) | (with_reducible apply startOp_fr)
      | (with_reducible apply h_note) | (split) | (intro _) | (refine frame_fst ?_ (by assumption)) | (dsimp only)
      | (with_reducible apply frame_any))) only [framed]

theorem startSend_fr {E : Nat} {s0 s : State} (h : Frame E s0 s) {q : Nat} {i : Nat} {iter : Nat} {c : SendCmd} {draw : Nat} {note : State → State} (h_note : ∀ z0, Frame E s0 z0 → Frame E s0 (note z0)) (hE : Sub 0x6f2b43b E := by first | assumption | exact sub_step (by assumption) (by decide)) :
    Frame E s0 (State.startSend s q i iter c draw note).1 := by
  simp (disch := (
    unfold FrameOf
    unfold State.startSend
    try dsimp only
    repeat' first
      | (with_reducible assumption) | ((with_reducible refine sub_step (by assumption) ?_); first | rfl | decide)
      | (with_reducible apply preNone_fr) | (with_reducible apply preRange_fr) | (with_reducible apply startOp_fr)
      | (with_reducible apply h_note) | (split) | (intro _) | (refine frame_fst ?_ (by assumption)) | (dsimp only)
      | (with_reducible apply frame_any))) only [framed]

theorem startPostrecv_fr {E : Nat} {s0 s : State} (h : Frame E s0 s) {q : Nat} {i : Nat} {iter : Nat} {c : RecvCmd} {note : State → State} (h_note : ∀ z0, Frame E s0 z0 → Frame E s0 (note z0)) (hE : Sub 0x4f28402 E := by first | assumption | exact sub_step (by assumption) (by decide)) :
    Frame E s0 (State.startPostrecv s q i iter c note).1 := by
  simp (disch := (
    unfold FrameOf
    unfold State.startPostrecv
    try dsimp only
    repeat' first
      | (with_reducible assumption) | ((with_reducible refine sub_step (by assumption) ?_); first | rfl | decide)
      | (with_reducible apply postRecv_fr) | (with_reducible apply preRange_fr) | (with_reducible apply slot_fr)
      | (with_reducible apply h_note) | (split) | (intro _) | (refine frame_fst ?_ (by assumption)) | (dsimp only)
      | (with_reducible apply frame_any))) only [framed]

theorem startWhistle_fr {E : Nat} {s0 s : State} (h : Frame E s0 s) {q : Nat} {c : WhistleCmd} {note : State → State} (h_note : ∀ z0, Frame E s0 z0 → Frame E s0 (note z0)) (hE : Sub 0xb28222 E := by first | assumption | exact sub_step (by assumption) (by decide)) :
    Frame E s0 (State.startWhistle s q c note).1 := by
  simp (disch := (
    unfold FrameOf
    unfold State.startWhistle
    try dsimp only
    repeat' first
      | (with_reducible assumption) | ((with_reducible refine sub_step (by assumption) ?_); first | rfl | decide)
      | (with_reducible apply schedule_fr) | (with_reducible apply sendWhistle_fr) | (with_reducible apply h_note) | (split)
      | (intro _) | (refine frame_fst ?_ (by assumption)) | (dsimp only) | (with_reducible apply frame_any))) only [framed]

theorem startCall_fr {E : Nat} {s0 s : State} (h : Frame E s0 s) {q : Nat} {i : Nat} {iter : Nat} {c : CallCmd} {note : State → State} (h_note : ∀ z0, Frame E s0 z0 → Frame E s0 (note z0)) (hE : Sub 0x400 E := by first | assumption | exact sub_step (by assumption) (by decide)) :
    Frame E s0 (State.startCall s q i iter c note).1 := by
  simp (disch := (
    unfold FrameOf
    unfold State.startCall
    try dsimp only
    repeat' first
      | (with_reducible assumption) | ((with_reducible refine sub_step (by assumption) ?_); first | rfl | decide)
      | (with_reducible apply pushEvent_fr) | (with_reducible apply slot_fr) | (with_reducible apply h_note) | (split)
      | (intro _) | (refine frame_fst ?_ (by assumption)) | (dsimp only) | (with_reducible apply frame_any))) only [framed]

theorem startWait_fr {E : Nat} {s0 s : State} (h : Frame E s0 s) {q : Nat} {i : Nat} {iter : Nat} {c : WaitCmd} {note : State → State} (h_note : ∀ z0, Frame E s0 z0 → Frame E s0 (note z0)) (hE : Sub 0x2 E := by first | assumption | exact sub_step (by assumption) (by decide)) :
    Frame E s0 (State.startWait s q i iter c note).1 := by
  simp (disch := (
    unfold FrameOf
    unfold State.startWait
    try dsimp only
    repeat' first
      | (with_reducible assumption) | ((with_reducible refine sub_step (by assumption) ?_); first | rfl | decide)
      | (with_reducible apply armIn_fr) | (with_reducible apply updQ_fr) | (with_reducible apply wr_fr)
      | (with_reducible apply h_note) | (split) | (intro _) | (refine frame_fst ?_ (by assumption)) | (dsimp only)
      | (with_reducible apply frame_any))) only [framed]

theorem skipAhead_fr {E : Nat} {s0 s : State} (h : Frame E s0 s) {q : Nat} {i : Nat} {iter : Nat} {skip : Nat} {body : Bool} (hE : Sub 0x2 E := by first | assumption | exact sub_step (by assumption) (by decide)) :
    Frame E s0 (State.skipAhead s q i iter skip body) := by
  simp (disch := (
    unfold FrameOf
    unfold State.skipAhead
    try dsimp only
    repeat' first
      | (with_reducible assumption) | ((with_reducible refine sub_step (by assumption) ?_); first | rfl | decide)
      | (with_reducible apply updQ_fr) | (with_reducible apply wr_fr) | (split) | (intro _)
      | (refine frame_fst ?_ (by assumption)) | (dsimp only) | (with_reducible apply frame_any))) only [framed]

theorem startSkip_fr {E : Nat} {s0 s : State} (h : Frame E s0 s) {q : Nat} {i : Nat} {iter : Nat} {c : SkipCmd} {note : State → State} (h_note : ∀ z0, Frame E s0 z0 → Frame E s0 (note z0)) (hE : Sub 0x2 E := by first | assumption | exact sub_step (by assumption) (by decide)) :
    Frame E s0 (State.startSkip s q i iter c note).1 := by
  simp (disch := (
    unfold FrameOf
    unfold State.startSkip
    try dsimp only
    repeat' first
      | (with_reducible assumption) | ((with_reducible refine sub_step (by assumption) ?_); first | rfl | decide)
      | (with_reducible apply skipAhead_fr) | (with_reducible apply h_note) | (split) | (intro _)
      | (refine frame_fst ?_ (by assumption)) | (dsimp only) | (with_reducible apply frame_any))) only [framed]

theorem startLoop_fr {E : Nat} {s0 s : State} (h : Frame E s0 s) {q : Nat} {i : Nat} {c : LoopCmd} {body : List (Nat × Nat)} (hE : Sub 0x20002 E := by first | assumption | exact sub_step (by assumption) (by decide)) :
    Frame E s0 (State.startLoop s q i c body) := by
  simp (disch := (
    unfold FrameOf
    unfold State.startLoop
    try dsimp only
    repeat' first
      | (with_reducible assumption) | ((with_reducible refine sub_step (by assumption) ?_); first | rfl | decide)
      | (with_reducible apply markStart_fr) | (with_reducible apply updQ_fr) | (split) | (intro _)
      | (refine frame_fst ?_ (by assumption)) | (dsimp only) | (with_reducible apply frame_any))) only [framed]

theorem startCancel_fr {E : Nat} {s0 s : State} (h : Frame E s0 s) {q : Nat} {i : Nat} {c : CancelCmd} {note : State → State} (h_note : ∀ z0, Frame E s0 z0 → Frame E s0 (note z0)) :
    Frame E s0 (State.startCancel s q i c note).1 := by
  unfold State.startCancel
  extract_lets x late es o
  clear_value o es late x
  split
  · exact h
  · split
    · exact h
    · dsimp only
      exact updQ_fr (h_note _ h)

theorem startTallyAdd_fr {E : Nat} {s0 s : State} (h : Frame E s0 s) {c : TallyAddCmd} {note : State → State} (h_note : ∀ z0, Frame E s0 z0 → Frame E s0 (note z0)) (hE : Sub 0x800000 E := by first | assumption | exact sub_step (by assumption) (by decide)) :
    Frame E s0 (State.startTallyAdd s c note).1 := by
  simp (disch := (
    unfold FrameOf
    unfold State.startTallyAdd
    try dsimp only
    repeat' first
      | (with_reducible assumption) | ((with_reducible refine sub_step (by assumption) ?_); first | rfl | decide)
      | (with_reducible apply addTally_fr) | (with_reducible apply h_note) | (split) | (intro _)
      | (refine frame_fst ?_ (by assumption)) | (dsimp only) | (with_reducible apply frame_any))) only [framed]

theorem runLoop_fr {E : Nat} {s0 s : State} (h : Frame E s0 s) {q : Nat} {i : Nat} {c : LoopCmd} (hE : Sub 0x20002 E := by first | assumption | exact sub_step (by assumption) (by decide)) :
    Frame E s0 (State.runLoop s q i c).1 := by
  unfold State.runLoop
  generalize s.loopBody q i c = o
  cases o with
  | some b => exact startLoop_fr h
  | none => exact h

theorem runCmd_fr {E : Nat} {s0 s : State} (h : Frame E s0 s) {q : Nat} {i : Nat} {iter : Nat} {c : Cmd} {draw : Nat} {note : State → State} (h_note : ∀ z0, Frame E s0 z0 → Frame E s0 (note z0)) (hE : Sub 0x6f2b63b E := by first | assumption | exact sub_step (by assumption) (by decide)) :
    Frame E s0 (State.runCmd s q i iter c draw note).1 := by
  cases c with
  | nop _ => exact h_note _ h
  | endCmd _ => exact h_note _ h
  | fence _ => exact h_note _ h
  | cancel c => show Frame E s0 (State.startCancel s q i c note).1; exact startCancel_fr h h_note
  | put c => show Frame E s0 (State.startPut s q i iter c note).1; exact startPut_fr h h_note
  | puti c => show Frame E s0 (State.startPuti s q i iter c note).1; exact startPuti_fr h h_note
  | get c => show Frame E s0 (State.startGet s q i iter c note).1; exact startGet_fr h h_note
  | atomic c => show Frame E s0 (State.startAtomic s q i iter c note).1; exact startAtomic_fr h h_note
  | send c => show Frame E s0 (State.startSend s q i iter c draw note).1; exact startSend_fr h h_note
  | postrecv c => show Frame E s0 (State.startPostrecv s q i iter c note).1; exact startPostrecv_fr h h_note
  | tallyAdd c => show Frame E s0 (State.startTallyAdd s c note).1; exact startTallyAdd_fr h h_note
  | wait c => show Frame E s0 (State.startWait s q i iter c note).1; exact startWait_fr h h_note
  | whistle c => show Frame E s0 (State.startWhistle s q c note).1; exact startWhistle_fr h h_note
  | collective c => show Frame E s0 (State.collStart s q i iter c note).1; exact collStart_fr h h_note
  | skipIf c => show Frame E s0 (State.startSkip s q i iter c note).1; exact startSkip_fr h h_note
  | call c => show Frame E s0 (State.startCall s q i iter c note).1; exact startCall_fr h h_note
  | priv _ _ => exact h
  | loop c => show Frame E s0 (State.runLoop s q i c).1; exact runLoop_fr h

theorem holdQueue_fr {E : Nat} {s0 s : State} (h : Frame E s0 s) {q : Nat} {w : HoldWhy} :
    Frame E s0 (State.holdQueue s q w) := by
  simp (disch := (
    unfold FrameOf
    unfold State.holdQueue
    try dsimp only
    repeat' first
      | (with_reducible assumption) | (with_reducible apply updQ_fr) | (split) | (intro _)
      | (refine frame_fst ?_ (by assumption)) | (dsimp only) | (with_reducible apply frame_any))) only [framed]

theorem startAt_fr {E : Nat} {s0 s : State} (h : Frame E s0 s) {q : Nat} {slots : Nat} {c : Cmd} {draw : Nat} (hE : Sub 0x6f2b63b E := by first | assumption | exact sub_step (by assumption) (by decide)) :
    Frame E s0 (State.startAt s q slots c draw) := by
  unfold State.startAt
  extract_lets i iter cause
  generalize s.iterated q c = c?
  generalize (s.q q).fenced c = b1
  generalize s.bodyWaits q c = b2
  clear_value cause iter i
  have k := fun c1 => runCmd_fr (q := q) (i := i) (iter := iter) (c := c1) (draw := draw) h fun z hz =>
    beginExec_fr (q := q) (i := i) (iter := iter) (slots := slots) (c := c1) hz
  refine frame_ite (holdQueue_fr h) (frame_ite (holdQueue_fr h) (frame_ite (startFail_fr h) ?_))
  split
  · exact startFail_fr h
  · refine frame_ite (startFail_fr h) ?_
    split
    · rename_i e; exact holdQueue_fr (frame_fst (k _) e)
    · rename_i e; exact startFail_fr (frame_fst (k _) e)
    · rename_i e; exact settleAll_fr (settle_fr (frame_fst (k _) e))
    · rename_i e; exact settleAll_fr (completeExec_fr (frame_fst (k _) e))

theorem startUser_fr {E : Nat} {s0 s : State} (h : Frame E s0 s) {q : Nat} {slots : Nat} {c : Cmd} {draw : Nat} (hE : Sub 0x6f2b63b E := by first | assumption | exact sub_step (by assumption) (by decide)) :
    Frame E s0 (State.startUser s q slots c draw) := by
  unfold State.startUser
  extract_lets s1
  have h1 : Frame E s0 s1 := passDoneEntries_fr h
  split
  · exact startAt_fr h1
  · exact h

end Sys2Proof.Laws
end

