-- ==== Sys2Proof/Laws/FrCommands.lean ====
section
/-! SUPPORT. The frame of every operation of Machine/Commands.lean (`Laws.Frame`). -/

namespace Sys2Proof.Laws

open Sys2Proof.Machine

set_option linter.all false
set_option Elab.async false

theorem execNop_fr {E : Nat} {s0 s : State} (h : Frame E s0 s) {q : Nat} {ltally : TallyField} (hE : Sub 0x6f2b63b E := by first | assumption | exact sub_step (by assumption) (by decide)) :
    OFrame E s0 (execNop q ltally s) := by
  simp (disch := (
    unfold OFrameOf
    unfold execNop
    try dsimp only
    repeat' first
      | (with_reducible apply OFrame.next) | (with_reducible assumption)
      | ((with_reducible refine sub_step (by assumption) ?_); first | rfl | decide) | (with_reducible apply startUser_fr)
      | (with_reducible apply whenLive_fr) | (split) | (intro _) | (refine frame_fst ?_ (by assumption)) | (dsimp only)
      | (with_reducible apply frame_any))) only [oframed]

theorem execEndCmd_fr {E : Nat} {s0 s : State} (h : Frame E s0 s) {q : Nat} {ltally : TallyField} (hE : Sub 0x6f2b63b E := by first | assumption | exact sub_step (by assumption) (by decide)) :
    OFrame E s0 (execEndCmd q ltally s) := by
  simp (disch := (
    unfold OFrameOf
    unfold execEndCmd
    try dsimp only
    repeat' first
      | (with_reducible apply OFrame.next) | (with_reducible assumption)
      | ((with_reducible refine sub_step (by assumption) ?_); first | rfl | decide) | (with_reducible apply startUser_fr)
      | (with_reducible apply whenLive_fr) | (split) | (intro _) | (refine frame_fst ?_ (by assumption)) | (dsimp only)
      | (with_reducible apply frame_any))) only [oframed]

theorem execFence_fr {E : Nat} {s0 s : State} (h : Frame E s0 s) {q : Nat} {c : FenceCmd} (hE : Sub 0x6f2b63b E := by first | assumption | exact sub_step (by assumption) (by decide)) :
    OFrame E s0 (execFence q c s) := by
  simp (disch := (
    unfold OFrameOf
    unfold execFence
    try dsimp only
    repeat' first
      | (with_reducible apply OFrame.next) | (with_reducible assumption)
      | ((with_reducible refine sub_step (by assumption) ?_); first | rfl | decide) | (with_reducible apply startUser_fr)
      | (with_reducible apply whenLive_fr) | (split) | (intro _) | (refine frame_fst ?_ (by assumption)) | (dsimp only)
      | (with_reducible apply frame_any))) only [oframed]

theorem execCancel_fr {E : Nat} {s0 s : State} (h : Frame E s0 s) {q : Nat} {c : CancelCmd} (hE : Sub 0x6f2b63b E := by first | assumption | exact sub_step (by assumption) (by decide)) :
    OFrame E s0 (execCancel q c s) := by
  simp (disch := (
    unfold OFrameOf
    unfold execCancel
    try dsimp only
    repeat' first
      | (with_reducible apply OFrame.next) | (with_reducible assumption)
      | ((with_reducible refine sub_step (by assumption) ?_); first | rfl | decide) | (with_reducible apply startUser_fr)
      | (with_reducible apply whenLive_fr) | (split) | (intro _) | (refine frame_fst ?_ (by assumption)) | (dsimp only)
      | (with_reducible apply frame_any))) only [oframed]

theorem cancelOne_fr {E : Nat} {s0 s : State} (h : Frame E s0 s) {q : Nat} {e : Exec} (hE : Sub 0x6f2b43b E := by first | assumption | exact sub_step (by assumption) (by decide)) :
    Frame E s0 (State.cancelOne s q e).1 := by
  simp (disch := (
    unfold FrameOf
    unfold State.cancelOne
    try dsimp only
    repeat' first
      | (with_reducible assumption) | ((with_reducible refine sub_step (by assumption) ?_); first | rfl | decide)
      | (with_reducible apply cancelExec_fr) | (with_reducible apply count_fr) | (with_reducible apply opCancel_fr) | (split)
      | (intro _) | (refine frame_fst ?_ (by assumption)) | (dsimp only) | (with_reducible apply frame_any))) only [framed]

theorem cancelEach_fr {E : Nat} {s0 s : State} (h : Frame E s0 s) {q : Nat} {y0 : List Exec} (hE : Sub 0x6f2b43b E := by first | assumption | exact sub_step (by assumption) (by decide)) :
    Frame E s0 (State.cancelEach s q y0).1 := by
  simp (disch := (
    unfold FrameOf
    induction y0 generalizing s q with
    | nil =>
      unfold State.cancelEach
      try dsimp only
      repeat' first
        | (with_reducible assumption) | ((with_reducible refine sub_step (by assumption) ?_); first | rfl | decide)
        | (with_reducible apply cancelOne_fr) | (with_reducible apply ih) | (split) | (intro _)
        | (refine frame_fst ?_ (by assumption)) | (dsimp only) | (with_reducible apply frame_any)
    | cons a r ih =>
      unfold State.cancelEach
      try dsimp only
      repeat' first
        | (with_reducible assumption) | ((with_reducible refine sub_step (by assumption) ?_); first | rfl | decide)
        | (with_reducible apply cancelOne_fr) | (with_reducible apply ih) | (split) | (intro _)
        | (refine frame_fst ?_ (by assumption)) | (dsimp only) | (with_reducible apply frame_any))) only [framed]

theorem execCancelDecision_fr {E : Nat} {s0 s : State} (h : Frame E s0 s) {q : Nat} {index : Nat} (hE : Sub 0x6f2b43b E := by first | assumption | exact sub_step (by assumption) (by decide)) :
    OFrame E s0 (execCancelDecision q index s) := by
  simp (disch := (
    unfold OFrameOf
    unfold execCancelDecision
    try dsimp only
    repeat' first
      | (with_reducible apply OFrame.next) | (with_reducible assumption)
      | ((with_reducible refine sub_step (by assumption) ?_); first | rfl | decide) | (with_reducible apply cancelEach_fr)
      | (with_reducible apply settle_fr) | (with_reducible apply settleAll_fr) | (with_reducible apply updQ_fr)
      | (with_reducible apply whenLive_fr) | (split) | (intro _) | (refine frame_fst ?_ (by assumption)) | (dsimp only)
      | (with_reducible apply frame_any))) only [oframed]

theorem execPut_fr {E : Nat} {s0 s : State} (h : Frame E s0 s) {q : Nat} {c : XferCmd} (hE : Sub 0x6f2b63b E := by first | assumption | exact sub_step (by assumption) (by decide)) :
    OFrame E s0 (execPut q c s) := by
  simp (disch := (
    unfold OFrameOf
    unfold execPut
    try dsimp only
    repeat' first
      | (with_reducible apply OFrame.next) | (with_reducible assumption)
      | ((with_reducible refine sub_step (by assumption) ?_); first | rfl | decide) | (with_reducible apply startUser_fr)
      | (with_reducible apply whenLive_fr) | (split) | (intro _) | (refine frame_fst ?_ (by assumption)) | (dsimp only)
      | (with_reducible apply frame_any))) only [oframed]

theorem execPuti_fr {E : Nat} {s0 s : State} (h : Frame E s0 s) {q : Nat} {c : PutiCmd} (hE : Sub 0x6f2b63b E := by first | assumption | exact sub_step (by assumption) (by decide)) :
    OFrame E s0 (execPuti q c s) := by
  simp (disch := (
    unfold OFrameOf
    unfold execPuti
    try dsimp only
    repeat' first
      | (with_reducible apply OFrame.next) | (with_reducible assumption)
      | ((with_reducible refine sub_step (by assumption) ?_); first | rfl | decide) | (with_reducible apply startUser_fr)
      | (with_reducible apply whenLive_fr) | (split) | (intro _) | (refine frame_fst ?_ (by assumption)) | (dsimp only)
      | (with_reducible apply frame_any))) only [oframed]

theorem execGet_fr {E : Nat} {s0 s : State} (h : Frame E s0 s) {q : Nat} {c : XferCmd} (hE : Sub 0x6f2b63b E := by first | assumption | exact sub_step (by assumption) (by decide)) :
    OFrame E s0 (execGet q c s) := by
  simp (disch := (
    unfold OFrameOf
    unfold execGet
    try dsimp only
    repeat' first
      | (with_reducible apply OFrame.next) | (with_reducible assumption)
      | ((with_reducible refine sub_step (by assumption) ?_); first | rfl | decide) | (with_reducible apply startUser_fr)
      | (with_reducible apply whenLive_fr) | (split) | (intro _) | (refine frame_fst ?_ (by assumption)) | (dsimp only)
      | (with_reducible apply frame_any))) only [oframed]

theorem execAtomic_fr {E : Nat} {s0 s : State} (h : Frame E s0 s) {q : Nat} {c : AtomicCmd} (hE : Sub 0x6f2b63b E := by first | assumption | exact sub_step (by assumption) (by decide)) :
    OFrame E s0 (execAtomic q c s) := by
  simp (disch := (
    unfold OFrameOf
    unfold execAtomic
    try dsimp only
    repeat' first
      | (with_reducible apply OFrame.next) | (with_reducible assumption)
      | ((with_reducible refine sub_step (by assumption) ?_); first | rfl | decide) | (with_reducible apply startUser_fr)
      | (with_reducible apply whenLive_fr) | (split) | (intro _) | (refine frame_fst ?_ (by assumption)) | (dsimp only)
      | (with_reducible apply frame_any))) only [oframed]

theorem execSend_fr {E : Nat} {s0 s : State} (h : Frame E s0 s) {q : Nat} {c : SendCmd} {draw : Nat} (hE : Sub 0x6f2b63b E := by first | assumption | exact sub_step (by assumption) (by decide)) :
    OFrame E s0 (execSend q c draw s) := by
  simp (disch := (
    unfold OFrameOf
    unfold execSend
    try dsimp only
    repeat' first
      | (with_reducible apply OFrame.next) | (with_reducible assumption)
      | ((with_reducible refine sub_step (by assumption) ?_); first | rfl | decide) | (with_reducible apply startUser_fr)
      | (with_reducible apply whenLive_fr) | (split) | (intro _) | (refine frame_fst ?_ (by assumption)) | (dsimp only)
      | (with_reducible apply frame_any))) only [oframed]

theorem execPostrecv_fr {E : Nat} {s0 s : State} (h : Frame E s0 s) {q : Nat} {c : RecvCmd} (hE : Sub 0x6f2b63b E := by first | assumption | exact sub_step (by assumption) (by decide)) :
    OFrame E s0 (execPostrecv q c s) := by
  simp (disch := (
    unfold OFrameOf
    unfold execPostrecv
    try dsimp only
    repeat' first
      | (with_reducible apply OFrame.next) | (with_reducible assumption)
      | ((with_reducible refine sub_step (by assumption) ?_); first | rfl | decide) | (with_reducible apply startUser_fr)
      | (with_reducible apply whenLive_fr) | (split) | (intro _) | (refine frame_fst ?_ (by assumption)) | (dsimp only)
      | (with_reducible apply frame_any))) only [oframed]

theorem execTallyAdd_fr {E : Nat} {s0 s : State} (h : Frame E s0 s) {q : Nat} {c : TallyAddCmd} (hE : Sub 0x6f2b63b E := by first | assumption | exact sub_step (by assumption) (by decide)) :
    OFrame E s0 (execTallyAdd q c s) := by
  simp (disch := (
    unfold OFrameOf
    unfold execTallyAdd
    try dsimp only
    repeat' first
      | (with_reducible apply OFrame.next) | (with_reducible assumption)
      | ((with_reducible refine sub_step (by assumption) ?_); first | rfl | decide) | (with_reducible apply startUser_fr)
      | (with_reducible apply whenLive_fr) | (split) | (intro _) | (refine frame_fst ?_ (by assumption)) | (dsimp only)
      | (with_reducible apply frame_any))) only [oframed]

theorem execWaitTally_fr {E : Nat} {s0 s : State} (h : Frame E s0 s) {q : Nat} {toStop : Bool} {ltally : TallyField} {totally : TallyField} {tally : Nat} {timeout : Nat} {value : Nat} (hE : Sub 0x6f2b63b E := by first | assumption | exact sub_step (by assumption) (by decide)) :
    OFrame E s0 (execWaitTally q toStop ltally totally tally timeout value s) := by
  simp (disch := (
    unfold OFrameOf
    unfold execWaitTally
    try dsimp only
    repeat' first
      | (with_reducible apply OFrame.next) | (with_reducible assumption)
      | ((with_reducible refine sub_step (by assumption) ?_); first | rfl | decide) | (with_reducible apply startUser_fr)
      | (with_reducible apply whenLive_fr) | (split) | (intro _) | (refine frame_fst ?_ (by assumption)) | (dsimp only)
      | (with_reducible apply frame_any))) only [oframed]

theorem execWaitHead_fr {E : Nat} {s0 s : State} (h : Frame E s0 s) {q : Nat} {toStop : Bool} {ltally : TallyField} {totally : TallyField} {queue : Nat} {timeout : Nat} {index : Nat} (hE : Sub 0x6f2b63b E := by first | assumption | exact sub_step (by assumption) (by decide)) :
    OFrame E s0 (execWaitHead q toStop ltally totally queue timeout index s) := by
  simp (disch := (
    unfold OFrameOf
    unfold execWaitHead
    try dsimp only
    repeat' first
      | (with_reducible apply OFrame.next) | (with_reducible assumption)
      | ((with_reducible refine sub_step (by assumption) ?_); first | rfl | decide) | (with_reducible apply startUser_fr)
      | (with_reducible apply whenLive_fr) | (split) | (intro _) | (refine frame_fst ?_ (by assumption)) | (dsimp only)
      | (with_reducible apply frame_any))) only [oframed]

theorem execWaitTime_fr {E : Nat} {s0 s : State} (h : Frame E s0 s) {q : Nat} {ltally : TallyField} {t : Nat} (hE : Sub 0x6f2b63b E := by first | assumption | exact sub_step (by assumption) (by decide)) :
    OFrame E s0 (execWaitTime q ltally t s) := by
  simp (disch := (
    unfold OFrameOf
    unfold execWaitTime
    try dsimp only
    repeat' first
      | (with_reducible apply OFrame.next) | (with_reducible assumption)
      | ((with_reducible refine sub_step (by assumption) ?_); first | rfl | decide) | (with_reducible apply startUser_fr)
      | (with_reducible apply whenLive_fr) | (split) | (intro _) | (refine frame_fst ?_ (by assumption)) | (dsimp only)
      | (with_reducible apply frame_any))) only [oframed]

theorem execWhistle_fr {E : Nat} {s0 s : State} (h : Frame E s0 s) {q : Nat} {c : WhistleCmd} (hE : Sub 0x6f2b63b E := by first | assumption | exact sub_step (by assumption) (by decide)) :
    OFrame E s0 (execWhistle q c s) := by
  simp (disch := (
    unfold OFrameOf
    unfold execWhistle
    try dsimp only
    repeat' first
      | (with_reducible apply OFrame.next) | (with_reducible assumption)
      | ((with_reducible refine sub_step (by assumption) ?_); first | rfl | decide) | (with_reducible apply startUser_fr)
      | (with_reducible apply whenLive_fr) | (split) | (intro _) | (refine frame_fst ?_ (by assumption)) | (dsimp only)
      | (with_reducible apply frame_any))) only [oframed]

theorem execCollective_fr {E : Nat} {s0 s : State} (h : Frame E s0 s) {q : Nat} {c : CollCmd} (hE : Sub 0x6f2b63b E := by first | assumption | exact sub_step (by assumption) (by decide)) :
    OFrame E s0 (execCollective q c s) := by
  simp (disch := (
    unfold OFrameOf
    unfold execCollective
    try dsimp only
    repeat' first
      | (with_reducible apply OFrame.next) | (with_reducible assumption)
      | ((with_reducible refine sub_step (by assumption) ?_); first | rfl | decide) | (with_reducible apply startUser_fr)
      | (with_reducible apply whenLive_fr) | (split) | (intro _) | (refine frame_fst ?_ (by assumption)) | (dsimp only)
      | (with_reducible apply frame_any))) only [oframed]

theorem execLoop_fr {E : Nat} {s0 s : State} (h : Frame E s0 s) {q : Nat} {c : LoopCmd} (hE : Sub 0x6f2b63b E := by first | assumption | exact sub_step (by assumption) (by decide)) :
    OFrame E s0 (execLoop q c s) := by
  simp (disch := (
    unfold OFrameOf
    unfold execLoop
    try dsimp only
    repeat' first
      | (with_reducible apply OFrame.next) | (with_reducible assumption)
      | ((with_reducible refine sub_step (by assumption) ?_); first | rfl | decide) | (with_reducible apply startUser_fr)
      | (with_reducible apply whenLive_fr) | (split) | (intro _) | (refine frame_fst ?_ (by assumption)) | (dsimp only)
      | (with_reducible apply frame_any))) only [oframed]

theorem execSkipIf_fr {E : Nat} {s0 s : State} (h : Frame E s0 s) {q : Nat} {c : SkipCmd} (hE : Sub 0x6f2b63b E := by first | assumption | exact sub_step (by assumption) (by decide)) :
    OFrame E s0 (execSkipIf q c s) := by
  simp (disch := (
    unfold OFrameOf
    unfold execSkipIf
    try dsimp only
    repeat' first
      | (with_reducible apply OFrame.next) | (with_reducible assumption)
      | ((with_reducible refine sub_step (by assumption) ?_); first | rfl | decide) | (with_reducible apply startUser_fr)
      | (with_reducible apply whenLive_fr) | (split) | (intro _) | (refine frame_fst ?_ (by assumption)) | (dsimp only)
      | (with_reducible apply frame_any))) only [oframed]

theorem execCall_fr {E : Nat} {s0 s : State} (h : Frame E s0 s) {q : Nat} {c : CallCmd} (hE : Sub 0x6f2b63b E := by first | assumption | exact sub_step (by assumption) (by decide)) :
    OFrame E s0 (execCall q c s) := by
  simp (disch := (
    unfold OFrameOf
    unfold execCall
    try dsimp only
    repeat' first
      | (with_reducible apply OFrame.next) | (with_reducible assumption)
      | ((with_reducible refine sub_step (by assumption) ?_); first | rfl | decide) | (with_reducible apply startUser_fr)
      | (with_reducible apply whenLive_fr) | (split) | (intro _) | (refine frame_fst ?_ (by assumption)) | (dsimp only)
      | (with_reducible apply frame_any))) only [oframed]

end Sys2Proof.Laws
end

