-- ==== Sys2Proof/Laws/FrCounters.lean ====
section
/-! SUPPORT. The frame of every operation of Machine/Counters.lean (`Laws.Frame`). -/

namespace Sys2Proof.Laws

open Sys2Proof.Machine

set_option linter.all false
set_option Elab.async false

theorem w1c_fr {E : Nat} {s0 s : State} (h : Frame E s0 s) {f : Fld} {i : Nat} {w : Nat} (hE : Sub (bit f.part) E := by
      first
      | assumption
      | exact sub_step (by assumption) (by decide)
      | exact sub_step (sub_step (a := 0xfffff) (by assumption) (by decide)) (part_sub _)
      | (repeat' first | exact sub_zero | refine sub_flds ?_ ?_ | refine sub_fldb ?_ ?_ | exact sub_step (by assumption) (by decide))) :
    Frame E s0 (State.w1c s f i w) := by
  simp (disch := (
    unfold FrameOf
    unfold State.w1c
    try dsimp only
    repeat' first
      | (with_reducible assumption) | ((with_reducible refine sub_step (by assumption) ?_); first | rfl | decide)
      | (with_reducible apply wr_fr) | (split) | (intro _) | (refine frame_fst ?_ (by assumption)) | (dsimp only)
      | (with_reducible apply frame_any))) only [framed]

theorem writeEcSel_fr {E : Nat} {s0 s : State} (h : Frame E s0 s) {u : Nat} {k : Nat} {w : Nat} (hE : Sub 0x28000 E := by first | assumption | exact sub_step (by assumption) (by decide)) :
    Frame E s0 (State.writeEcSel s u k w) := by
  simp (disch := (
    unfold FrameOf
    unfold State.writeEcSel
    try dsimp only
    repeat' first
      | (with_reducible assumption) | ((with_reducible refine sub_step (by assumption) ?_); first | rfl | decide)
      | (with_reducible apply logRejected_fr) | (with_reducible apply setFields_fr) | (with_reducible apply w1c_fr)
      | (with_reducible apply wr_fr) | (split) | (intro _) | (refine frame_fst ?_ (by assumption)) | (dsimp only)
      | (with_reducible apply frame_any))) only [framed]

theorem execEcSelWrite_fr {E : Nat} {s0 s : State} (h : Frame E s0 s) {u : Nat} {k : Nat} {v : Nat} (hE : Sub 0x28000 E := by first | assumption | exact sub_step (by assumption) (by decide)) :
    OFrame E s0 (execEcSelWrite u k v s) := by
  simp (disch := (
    unfold OFrameOf
    unfold execEcSelWrite
    try dsimp only
    repeat' first
      | (with_reducible apply OFrame.next) | (with_reducible assumption)
      | ((with_reducible refine sub_step (by assumption) ?_); first | rfl | decide) | (with_reducible apply whenUp_fr)
      | (with_reducible apply writeEcSel_fr) | (split) | (intro _) | (refine frame_fst ?_ (by assumption)) | (dsimp only)
      | (with_reducible apply frame_any))) only [oframed]

theorem writeEcCnt_fr {E : Nat} {s0 s : State} (h : Frame E s0 s) {u : Nat} {k : Nat} {w : Nat} (hE : Sub 0x20000 E := by first | assumption | exact sub_step (by assumption) (by decide)) :
    Frame E s0 (State.writeEcCnt s u k w) := by
  simp (disch := (
    unfold FrameOf
    unfold State.writeEcCnt
    try dsimp only
    repeat' first
      | (with_reducible assumption) | ((with_reducible refine sub_step (by assumption) ?_); first | rfl | decide)
      | (with_reducible apply setFields_fr) | (split) | (intro _) | (refine frame_fst ?_ (by assumption)) | (dsimp only)
      | (with_reducible apply frame_any))) only [framed]

theorem execEcCntWrite_fr {E : Nat} {s0 s : State} (h : Frame E s0 s) {u : Nat} {k : Nat} {v : Nat} (hE : Sub 0x20000 E := by first | assumption | exact sub_step (by assumption) (by decide)) :
    OFrame E s0 (execEcCntWrite u k v s) := by
  simp (disch := (
    unfold OFrameOf
    unfold execEcCntWrite
    try dsimp only
    repeat' first
      | (with_reducible apply OFrame.next) | (with_reducible assumption)
      | ((with_reducible refine sub_step (by assumption) ?_); first | rfl | decide) | (with_reducible apply whenUp_fr)
      | (with_reducible apply writeEcCnt_fr) | (split) | (intro _) | (refine frame_fst ?_ (by assumption)) | (dsimp only)
      | (with_reducible apply frame_any))) only [oframed]

theorem zeroBins_fr {E : Nat} {s0 s : State} (h : Frame E s0 s) {p : Nat} (hE : Sub 0x20000 E := by first | assumption | exact sub_step (by assumption) (by decide)) :
    Frame E s0 (State.zeroBins s p) := by
  simp (disch := (
    unfold FrameOf
    unfold State.zeroBins
    try dsimp only
    repeat' first
      | (with_reducible assumption) | ((with_reducible refine sub_step (by assumption) ?_); first | rfl | decide)
      | (with_reducible apply wr_fr) | (with_reducible apply frame_foldl) | (split) | (intro _)
      | (refine frame_fst ?_ (by assumption)) | (dsimp only) | (with_reducible apply frame_any))) only [framed]

theorem writeHistCfg_fr {E : Nat} {s0 s : State} (h : Frame E s0 s) {p : Nat} {w : Nat} (hE : Sub 0x20000 E := by first | assumption | exact sub_step (by assumption) (by decide)) :
    Frame E s0 (State.writeHistCfg s p w) := by
  simp (disch := (
    unfold FrameOf
    unfold State.writeHistCfg
    try dsimp only
    repeat' first
      | (with_reducible assumption) | ((with_reducible refine sub_step (by assumption) ?_); first | rfl | decide)
      | (with_reducible apply wr_fr) | (with_reducible apply zeroBins_fr) | (split) | (intro _)
      | (refine frame_fst ?_ (by assumption)) | (dsimp only) | (with_reducible apply frame_any))) only [framed]

theorem execEcHistCfgWrite_fr {E : Nat} {s0 s : State} (h : Frame E s0 s) {p : Nat} {v : Nat} (hE : Sub 0x20000 E := by first | assumption | exact sub_step (by assumption) (by decide)) :
    OFrame E s0 (execEcHistCfgWrite p v s) := by
  simp (disch := (
    unfold OFrameOf
    unfold execEcHistCfgWrite
    try dsimp only
    repeat' first
      | (with_reducible apply OFrame.next) | (with_reducible assumption)
      | ((with_reducible refine sub_step (by assumption) ?_); first | rfl | decide) | (with_reducible apply whenUp_fr)
      | (with_reducible apply writeHistCfg_fr) | (split) | (intro _) | (refine frame_fst ?_ (by assumption)) | (dsimp only)
      | (with_reducible apply frame_any))) only [oframed]

theorem sampleHist_fr {E : Nat} {s0 s : State} (h : Frame E s0 s) {p : Nat} (hE : Sub 0x20000 E := by first | assumption | exact sub_step (by assumption) (by decide)) :
    Frame E s0 (State.sampleHist s p) := by
  simp (disch := (
    unfold FrameOf
    unfold State.sampleHist
    try dsimp only
    repeat' first
      | (with_reducible assumption) | ((with_reducible refine sub_step (by assumption) ?_); first | rfl | decide)
      | (with_reducible apply wr_fr) | (split) | (intro _) | (refine frame_fst ?_ (by assumption)) | (dsimp only)
      | (with_reducible apply frame_any))) only [framed]

theorem execHistogramSample_fr {E : Nat} {s0 s : State} (h : Frame E s0 s) {p : Nat} (hE : Sub 0x20000 E := by first | assumption | exact sub_step (by assumption) (by decide)) :
    OFrame E s0 (execHistogramSample p s) := by
  simp (disch := (
    unfold OFrameOf
    unfold execHistogramSample
    try dsimp only
    repeat' first
      | (with_reducible apply OFrame.next) | (with_reducible assumption)
      | ((with_reducible refine sub_step (by assumption) ?_); first | rfl | decide) | (with_reducible apply sampleHist_fr)
      | (with_reducible apply whenUp_fr) | (split) | (intro _) | (refine frame_fst ?_ (by assumption)) | (dsimp only)
      | (with_reducible apply frame_any))) only [oframed]

theorem copySnap_fr {E : Nat} {s0 s : State} (h : Frame E s0 s) (hE : Sub 0x20000 E := by first | assumption | exact sub_step (by assumption) (by decide)) :
    Frame E s0 (State.copySnap s) := by
  simp (disch := (
    unfold FrameOf
    unfold State.copySnap
    try dsimp only
    repeat' first
      | (with_reducible assumption) | ((with_reducible refine sub_step (by assumption) ?_); first | rfl | decide)
      | (with_reducible refine sub_flds ?_ ?_) | (with_reducible exact sub_zero) | (with_reducible apply wrAll_fr)
      | (with_reducible apply frame_foldl) | (split) | (intro _) | (refine frame_fst ?_ (by assumption)) | (dsimp only)
      | (with_reducible apply frame_any))) only [framed]

theorem clearCounters_fr {E : Nat} {s0 s : State} (h : Frame E s0 s) (hE : Sub 0x20000 E := by first | assumption | exact sub_step (by assumption) (by decide)) :
    Frame E s0 (State.clearCounters s) := by
  simp (disch := (
    unfold FrameOf
    unfold State.clearCounters
    try dsimp only
    repeat' first
      | (with_reducible assumption) | ((with_reducible refine sub_step (by assumption) ?_); first | rfl | decide)
      | (with_reducible apply wr_fr) | (with_reducible apply zeroBins_fr) | (with_reducible apply frame_foldl) | (split)
      | (intro _) | (refine frame_fst ?_ (by assumption)) | (dsimp only) | (with_reducible apply frame_any))) only [framed]

theorem capture_fr {E : Nat} {s0 s : State} (h : Frame E s0 s) (hE : Sub 0x20000 E := by first | assumption | exact sub_step (by assumption) (by decide)) :
    Frame E s0 (State.capture s) := by
  simp (disch := (
    unfold FrameOf
    unfold State.capture
    try dsimp only
    repeat' first
      | (with_reducible assumption) | ((with_reducible refine sub_step (by assumption) ?_); first | rfl | decide)
      | (with_reducible apply clearCounters_fr) | (with_reducible apply copySnap_fr) | (with_reducible apply disarm_fr)
      | (with_reducible apply setNow_fr) | (with_reducible apply wr_fr) | (with_reducible apply frame_foldl) | (split)
      | (intro _) | (refine frame_fst ?_ (by assumption)) | (dsimp only) | (with_reducible apply frame_any))) only [framed]

theorem execSnapshotCapture_fr {E : Nat} {s0 s : State} (h : Frame E s0 s) (hE : Sub 0x20000 E := by first | assumption | exact sub_step (by assumption) (by decide)) :
    OFrame E s0 (execSnapshotCapture s) := by
  simp (disch := (
    unfold OFrameOf
    unfold execSnapshotCapture
    try dsimp only
    repeat' first
      | (with_reducible apply OFrame.next) | (with_reducible assumption)
      | ((with_reducible refine sub_step (by assumption) ?_); first | rfl | decide) | (with_reducible apply capture_fr)
      | (with_reducible apply whenLive_fr) | (split) | (intro _) | (refine frame_fst ?_ (by assumption)) | (dsimp only)
      | (with_reducible apply frame_any))) only [oframed]

theorem writeSnap_fr {E : Nat} {s0 s : State} (h : Frame E s0 s) {n : Snap} {ok : Bool} (hE : Sub 0xb20000 E := by first | assumption | exact sub_step (by assumption) (by decide)) :
    ∀ t, State.writeSnap s n ok = some t → Frame E s0 t.1 := by
  intro t ht
  unfold State.writeSnap at ht
  extract_lets addr at ht
  clear_value addr
  have k : ∀ {u : State} {b : Bool}, Frame E s0 u → some (u, b) = some t → Frame E s0 t.1 := fun hu e => by
    injection e with e; subst e; exact hu
  split at ht
  · exact k h ht
  · split at ht
    · split at ht
      · exact k (count_fr (writeLoc_fr h)) ht
      · exact k h ht
    · split at ht
      · cases ht
      · exact k h ht
      · split at ht
        · exact k (count_fr h) ht
        · exact k (emit_fr (count_fr (writeLoc_fr (count_fr h)))) ht

theorem completeSnap_fr {E : Nat} {s0 s : State} (h : Frame E s0 s) {k : Nat} {ok : Bool} (hE : Sub 0xb28002 E := by first | assumption | exact sub_step (by assumption) (by decide)) :
    Frame E s0 (State.completeSnap s k ok) := by
  unfold State.completeSnap
  split
  · exact h
  · rename_i n _
    refine frame_ite h ?_
    split
    · exact h
    · rename_i s1 d e
      replace h : Frame E s0 s1 := (writeSnap_fr h) _ e
      extract_lets s2
      replace h : Frame E s0 s2 := frame_ite (wr_fr h) h
      clear_value s2
      exact endPriv_fr (frame_any h)

theorem execSnapshotComplete_fr {E : Nat} {s0 s : State} (h : Frame E s0 s) {k : Nat} {ok : Bool} (hE : Sub 0xb28002 E := by first | assumption | exact sub_step (by assumption) (by decide)) :
    OFrame E s0 (execSnapshotComplete k ok s) := by
  simp (disch := (
    unfold OFrameOf
    unfold execSnapshotComplete
    try dsimp only
    repeat' first
      | (with_reducible apply OFrame.next) | (with_reducible assumption)
      | ((with_reducible refine sub_step (by assumption) ?_); first | rfl | decide) | (with_reducible apply completeSnap_fr)
      | (with_reducible apply whenLive_fr) | (split) | (intro _) | (refine frame_fst ?_ (by assumption)) | (dsimp only)
      | (with_reducible apply frame_any))) only [oframed]

end Sys2Proof.Laws
end

