-- ==== Sys2Proof/Laws/FrMoverOps.lean ====
section
/-! SUPPORT. The frame of every operation of Machine/MoverOps.lean (`Laws.Frame`). -/

namespace Sys2Proof.Laws

open Sys2Proof.Machine

set_option linter.all false
set_option Elab.async false

theorem recvWriteOver_fr {E : Nat} {s0 s : State} (h : Frame E s0 s) {i : Nat} {off : Nat} {n : Nat} {ok : Bool} (hE : Sub 0x4f28402 E := by first | assumption | exact sub_step (by assumption) (by decide)) :
    Frame E s0 (State.recvWriteOver s i off n ok) := by
  simp (disch := (
    unfold FrameOf
    unfold State.recvWriteOver
    try dsimp only
    repeat' first
      | (with_reducible assumption) | ((with_reducible refine sub_step (by assumption) ?_); first | rfl | decide)
      | (with_reducible apply recvCheck_fr) | (with_reducible apply topCheck_fr) | (with_reducible apply topFail_fr)
      | (with_reducible apply updRecv_fr) | (with_reducible apply updTop_fr) | (split) | (intro _)
      | (refine frame_fst ?_ (by assumption)) | (dsimp only) | (with_reducible apply frame_any))) only [framed]

theorem copyOver_fr {E : Nat} {s0 s : State} (h : Frame E s0 s) {i : Nat} {n : Nat} {ok : Bool} (hE : Sub 0x4f28402 E := by first | assumption | exact sub_step (by assumption) (by decide)) :
    Frame E s0 (State.copyOver s i n ok) := by
  simp (disch := (
    unfold FrameOf
    unfold State.copyOver
    try dsimp only
    repeat' first
      | (with_reducible assumption) | ((with_reducible refine sub_step (by assumption) ?_); first | rfl | decide)
      | (with_reducible apply copied_fr) | (with_reducible apply recvCheck_fr) | (with_reducible apply updRecv_fr) | (split)
      | (intro _) | (refine frame_fst ?_ (by assumption)) | (dsimp only) | (with_reducible apply frame_any))) only [framed]

theorem collDstOver_fr {E : Nat} {s0 s : State} (h : Frame E s0 s) {c : Nat} {n : Nat} {elem : Nat} {bytes : Nat} {ok : Bool} (hE : Sub 0xb28022 E := by first | assumption | exact sub_step (by assumption) (by decide)) :
    Frame E s0 (State.collDstOver s c n elem bytes ok) := by
  simp (disch := (
    unfold FrameOf
    unfold State.collDstOver
    try dsimp only
    repeat' first
      | (with_reducible assumption) | ((with_reducible refine sub_step (by assumption) ?_); first | rfl | decide)
      | (with_reducible apply collCheck_fr) | (with_reducible apply collForward_fr) | (with_reducible apply collMemFail_fr)
      | (with_reducible apply updInst_fr) | (split) | (intro _) | (refine frame_fst ?_ (by assumption)) | (dsimp only)
      | (with_reducible apply frame_any))) only [framed]

theorem kindOver_fr {E : Nat} {s0 s : State} (h : Frame E s0 s) {x : Xfer} {ok : Bool} {bytes : List Byte} (hE : Sub 0x6f2b43b E := by first | assumption | exact sub_step (by assumption) (by decide)) :
    Frame E s0 (State.kindOver s x ok bytes) := by
  simp (disch := (
    unfold FrameOf
    unfold State.kindOver
    try dsimp only
    repeat' first
      | (with_reducible assumption) | ((with_reducible refine sub_step (by assumption) ?_); first | rfl | decide)
      | (with_reducible apply collDst_fr) | (with_reducible apply collDstOver_fr) | (with_reducible apply collEnd_fr)
      | (with_reducible apply collFlush_fr) | (with_reducible apply collFwdOver_fr) | (with_reducible apply collMemFail_fr)
      | (with_reducible apply collSrcIn_fr) | (with_reducible apply copyOver_fr) | (with_reducible apply flushMOver_fr)
      | (with_reducible apply landOver_fr) | (with_reducible apply memAtomicOver_fr) | (with_reducible apply moveOver_fr)
      | (with_reducible apply placeOver_fr) | (with_reducible apply recvEnd_fr) | (with_reducible apply recvNext_fr)
      | (with_reducible apply recvWriteOver_fr) | (with_reducible apply resultOver_fr) | (with_reducible apply serveOver_fr)
      | (with_reducible apply sourceIn_fr) | (with_reducible apply topCheck_fr) | (with_reducible apply topFail_fr)
      | (with_reducible apply unitDone_fr) | (with_reducible apply updM_fr) | (with_reducible apply updTop_fr) | (split)
      | (intro _) | (refine frame_fst ?_ (by assumption)) | (dsimp only) | (with_reducible apply frame_any))) only [framed]

theorem xferFail_fr {E : Nat} {s0 s : State} (h : Frame E s0 s) {id : Nat} (hE : Sub 0x6f2b43b E := by first | assumption | exact sub_step (by assumption) (by decide)) :
    Frame E s0 (State.xferFail s id) := by
  simp (disch := (
    unfold FrameOf
    unfold State.xferFail
    try dsimp only
    repeat' first
      | (with_reducible assumption) | ((with_reducible refine sub_step (by assumption) ?_); first | rfl | decide)
      | (with_reducible apply endXfer_fr) | (with_reducible apply kindOver_fr) | (split) | (intro _)
      | (refine frame_fst ?_ (by assumption)) | (dsimp only) | (with_reducible apply frame_any))) only [framed]

theorem memAtomicEnd_fr {E : Nat} {s0 s : State} (h : Frame E s0 s) {id : Nat} {x : Xfer} {ok : Bool} (hE : Sub 0x6f2b43b E := by first | assumption | exact sub_step (by assumption) (by decide)) :
    Frame E s0 (State.memAtomicEnd s id x ok) := by
  simp (disch := (
    unfold FrameOf
    unfold State.memAtomicEnd
    try dsimp only
    repeat' first
      | (with_reducible assumption) | ((with_reducible refine sub_step (by assumption) ?_); first | rfl | decide)
      | (with_reducible apply count_fr) | (with_reducible apply endXfer_fr) | (with_reducible apply kindOver_fr)
      | (with_reducible apply raise_fr) | (split) | (intro _) | (refine frame_fst ?_ (by assumption)) | (dsimp only)
      | (with_reducible apply frame_any))) only [framed]

theorem xferDone_fr {E : Nat} {s0 s : State} (h : Frame E s0 s) {id : Nat} {x : Xfer} (hE : Sub 0x6f2b43b E := by first | assumption | exact sub_step (by assumption) (by decide)) :
    Frame E s0 (State.xferDone s id x) := by
  simp (disch := (
    unfold FrameOf
    unfold State.xferDone
    try dsimp only
    repeat' first
      | (with_reducible assumption) | ((with_reducible refine sub_step (by assumption) ?_); first | rfl | decide)
      | (with_reducible apply count_fr) | (with_reducible apply endXfer_fr) | (with_reducible apply kindOver_fr)
      | (with_reducible apply writeSegs_fr) | (split) | (intro _) | (refine frame_fst ?_ (by assumption)) | (dsimp only)
      | (with_reducible apply frame_any))) only [framed]

theorem execMoverTransferComplete_fr {E : Nat} {s0 s : State} (h : Frame E s0 s) {id : Nat} {ok : Bool} {seen : List (Nat × Option Byte)} (hE : Sub 0x6f2b43b E := by first | assumption | exact sub_step (by assumption) (by decide)) :
    OFrame E s0 (execMoverTransferComplete id ok seen s) := by
  simp (disch := (
    unfold OFrameOf
    unfold execMoverTransferComplete
    try dsimp only
    repeat' first
      | (with_reducible apply OFrame.next) | (with_reducible assumption)
      | ((with_reducible refine sub_step (by assumption) ?_); first | rfl | decide) | (with_reducible apply memAtomicEnd_fr)
      | (with_reducible apply see_fr) | (with_reducible apply settleAll_fr) | (with_reducible apply whenLive_fr)
      | (with_reducible apply xferDone_fr) | (with_reducible apply xferFail_fr) | (split) | (intro _)
      | (refine frame_fst ?_ (by assumption)) | (dsimp only) | (with_reducible apply frame_any))) only [oframed]

theorem execFlushReadComplete_fr {E : Nat} {s0 s : State} (h : Frame E s0 s) {id : Nat} (hE : Sub 0x6f2b43b E := by first | assumption | exact sub_step (by assumption) (by decide)) :
    OFrame E s0 (execFlushReadComplete id s) := by
  simp (disch := (
    unfold OFrameOf
    unfold execFlushReadComplete
    try dsimp only
    repeat' first
      | (with_reducible apply OFrame.next) | (with_reducible assumption)
      | ((with_reducible refine sub_step (by assumption) ?_); first | rfl | decide) | (with_reducible apply endXfer_fr)
      | (with_reducible apply kindOver_fr) | (with_reducible apply settleAll_fr) | (with_reducible apply whenLive_fr) | (split)
      | (intro _) | (refine frame_fst ?_ (by assumption)) | (dsimp only) | (with_reducible apply frame_any))) only [oframed]

theorem execHostAtomicComplete_fr {E : Nat} {s0 s : State} (h : Frame E s0 s) {id : Nat} {mismatch : Bool} {old : Nat} (hE : Sub 0x6f2b43b E := by first | assumption | exact sub_step (by assumption) (by decide)) :
    OFrame E s0 (execHostAtomicComplete id mismatch old s) := by
  simp (disch := (
    unfold OFrameOf
    unfold execHostAtomicComplete
    try dsimp only
    repeat' first
      | (with_reducible apply OFrame.next) | (with_reducible assumption)
      | ((with_reducible refine sub_step (by assumption) ?_); first | rfl | decide) | (with_reducible apply atomicOver_fr)
      | (with_reducible apply settleAll_fr) | (with_reducible apply whenLive_fr) | (split) | (intro _)
      | (refine frame_fst ?_ (by assumption)) | (dsimp only) | (with_reducible apply frame_any))) only [oframed]

theorem execUnexpectedCopyComplete_fr {E : Nat} {s0 s : State} (h : Frame E s0 s) {id : Nat} (hE : Sub 0x6f2b43b E := by first | assumption | exact sub_step (by assumption) (by decide)) :
    OFrame E s0 (execUnexpectedCopyComplete id s) := by
  simp (disch := (
    unfold OFrameOf
    unfold execUnexpectedCopyComplete
    try dsimp only
    repeat' first
      | (with_reducible apply OFrame.next) | (with_reducible assumption)
      | ((with_reducible refine sub_step (by assumption) ?_); first | rfl | decide) | (with_reducible apply settleAll_fr)
      | (with_reducible apply whenLive_fr) | (with_reducible apply xferDone_fr) | (split) | (intro _)
      | (refine frame_fst ?_ (by assumption)) | (dsimp only) | (with_reducible apply frame_any))) only [oframed]

end Sys2Proof.Laws
end

