-- ==== Sys2Proof/Laws/FrRegAccess.lean ====
section
/-! SUPPORT. The frame of every operation of Machine/RegAccess.lean (`Laws.Frame`). -/

namespace Sys2Proof.Laws

open Sys2Proof.Machine

set_option linter.all false
set_option Elab.async false

theorem answer_fr {E : Nat} {s0 s : State} (h : Frame E s0 s) {f : Option Func} {v : Nat} :
    Frame E s0 (State.answer s f v) := by
  simp (disch := (
    unfold FrameOf
    unfold State.answer
    try dsimp only
    repeat' first
      | (with_reducible assumption) | (with_reducible apply emit_fr) | (split) | (intro _)
      | (refine frame_fst ?_ (by assumption)) | (dsimp only) | (with_reducible apply frame_any))) only [framed]

theorem readFor_fr {E : Nat} {s0 s : State} (h : Frame E s0 s) {f : Option Func} {r : Reg} {i : Nat} (hE : Sub (fldl r.fields) E := by
      first
      | assumption
      | exact sub_step (by assumption) (by decide)
      | exact sub_step (sub_step (a := 0xfffff) (by assumption) (by decide)) (part_sub _)
      | (repeat' first | exact sub_zero | refine sub_flds ?_ ?_ | refine sub_fldb ?_ ?_ | exact sub_step (by assumption) (by decide))) :
    Frame E s0 (State.readFor s f r i) := by
  simp (disch := (
    unfold FrameOf
    unfold State.readFor
    try dsimp only
    repeat' first
      | (with_reducible assumption) | ((with_reducible refine sub_step (by assumption) ?_); first | rfl | decide)
      | (with_reducible apply answer_fr) | (with_reducible apply readReg_fr) | (split) | (intro _)
      | (refine frame_fst ?_ (by assumption)) | (dsimp only) | (with_reducible apply frame_any))) only [framed]

theorem regForeign_fr {E : Nat} {s0 s : State} (h : Frame E s0 s) {f : Func} (hE : Sub 0x2000 E := by first | assumption | exact sub_step (by assumption) (by decide)) :
    Frame E s0 (State.regForeign s f) := by
  simp (disch := (
    unfold FrameOf
    unfold State.regForeign
    try dsimp only
    repeat' first
      | (with_reducible assumption) | ((with_reducible refine sub_step (by assumption) ?_); first | rfl | decide)
      | (with_reducible apply incOpen_fr) | (split) | (intro _) | (refine frame_fst ?_ (by assumption)) | (dsimp only)
      | (with_reducible apply frame_any))) only [framed]

theorem queueAccess_fr {E : Nat} {s0 s : State} (h : Frame E s0 s) {q : Nat} {f : Option Func} {act : State → State} (h_act : ∀ z0, Frame E s0 z0 → Frame E s0 (act z0)) (hE : Sub 0x2000 E := by first | assumption | exact sub_step (by assumption) (by decide)) :
    Frame E s0 (State.queueAccess s q f act) := by
  simp (disch := (
    unfold FrameOf
    unfold State.queueAccess
    try dsimp only
    repeat' first
      | (with_reducible assumption) | ((with_reducible refine sub_step (by assumption) ?_); first | rfl | decide)
      | (with_reducible apply regForeign_fr) | (with_reducible apply h_act) | (split) | (intro _)
      | (refine frame_fst ?_ (by assumption)) | (dsimp only) | (with_reducible apply frame_any))) only [framed]

end Sys2Proof.Laws
end

