-- ==== Sys2Proof/Laws/FrQueues.lean ====
section
/-! SUPPORT. The frame of every operation of Machine/Queues.lean (`Laws.Frame`). -/

namespace Sys2Proof.Laws

open Sys2Proof.Machine

set_option linter.all false
set_option Elab.async false

theorem execDoorbell_fr {E : Nat} {s0 s : State} (h : Frame E s0 s) {f : Func} {q : Nat} {off : Nat} {size : Nat} {value : Nat} (hE : Sub 0xb2a002 E := by first | assumption | exact sub_step (by assumption) (by decide)) :
    OFrame E s0 (execDoorbell f q off size value s) := by
  simp (disch := (
    unfold OFrameOf
    unfold execDoorbell
    try dsimp only
    repeat' first
      | (with_reducible apply OFrame.next) | (with_reducible assumption)
      | ((with_reducible refine sub_step (by assumption) ?_); first | rfl | decide) | (with_reducible apply dbForeign_fr)
      | (with_reducible apply takeDoorbell_fr) | (with_reducible apply whenLive_fr) | (split) | (intro _)
      | (refine frame_fst ?_ (by assumption)) | (dsimp only) | (with_reducible apply frame_any))) only [oframed]

theorem execRingFetch_fr {E : Nat} {s0 s : State} (h : Frame E s0 s) {q : Nat} {count : Nat} (hE : Sub 0x20002 E := by first | assumption | exact sub_step (by assumption) (by decide)) :
    OFrame E s0 (execRingFetch q count s) := by
  simp (disch := (
    unfold OFrameOf
    unfold execRingFetch
    try dsimp only
    repeat' first
      | (with_reducible apply OFrame.next) | (with_reducible assumption)
      | ((with_reducible refine sub_step (by assumption) ?_); first | rfl | decide) | (with_reducible apply askSegs_fr)
      | (with_reducible apply count_fr) | (with_reducible apply updQ_fr) | (with_reducible apply whenLive_fr)
      | (with_reducible apply wr_fr) | (split) | (intro _) | (refine frame_fst ?_ (by assumption)) | (dsimp only)
      | (with_reducible apply frame_any))) only [oframed]

theorem execRingReadComplete_fr {E : Nat} {s0 s : State} (h : Frame E s0 s) {q : Nat} {ok : Bool} {seen : List (Nat × Option Byte)} (hE : Sub 0xb28002 E := by first | assumption | exact sub_step (by assumption) (by decide)) :
    OFrame E s0 (execRingReadComplete q ok seen s) := by
  simp (disch := (
    unfold OFrameOf
    unfold execRingReadComplete
    try dsimp only
    repeat' first
      | (with_reducible apply OFrame.next) | (with_reducible assumption)
      | ((with_reducible refine sub_step (by assumption) ?_); first | rfl | decide) | (with_reducible apply failQueue_fr)
      | (with_reducible apply see_fr) | (with_reducible apply updQ_fr) | (with_reducible apply whenLive_fr) | (split)
      | (intro _) | (refine frame_fst ?_ (by assumption)) | (dsimp only) | (with_reducible apply frame_any))) only [oframed]

theorem execCoalTimeExpiry_fr {E : Nat} {s0 s : State} (h : Frame E s0 s) {q : Nat} (hE : Sub 0xb28002 E := by first | assumption | exact sub_step (by assumption) (by decide)) :
    OFrame E s0 (execCoalTimeExpiry q s) := by
  simp (disch := (
    unfold OFrameOf
    unfold execCoalTimeExpiry
    try dsimp only
    repeat' first
      | (with_reducible apply OFrame.next) | (with_reducible assumption)
      | ((with_reducible refine sub_step (by assumption) ?_); first | rfl | decide) | (with_reducible apply publish_fr)
      | (with_reducible apply whenDue_fr) | (split) | (intro _) | (refine frame_fst ?_ (by assumption)) | (dsimp only)
      | (with_reducible apply frame_any))) only [oframed]

theorem execHeadWordWriteFailure_fr {E : Nat} {s0 s : State} (h : Frame E s0 s) {q : Nat} (hE : Sub 0x8000 E := by first | assumption | exact sub_step (by assumption) (by decide)) :
    OFrame E s0 (execHeadWordWriteFailure q s) := by
  simp (disch := (
    unfold OFrameOf
    unfold execHeadWordWriteFailure
    try dsimp only
    repeat' first
      | (with_reducible apply OFrame.next) | (with_reducible assumption)
      | ((with_reducible refine sub_step (by assumption) ?_); first | rfl | decide) | (with_reducible apply logRec_fr)
      | (with_reducible apply whenUp_fr) | (split) | (intro _) | (refine frame_fst ?_ (by assumption)) | (dsimp only)
      | (with_reducible apply frame_any))) only [oframed]

theorem endWait_fr {E : Nat} {s0 s : State} (h : Frame E s0 s) {q : Nat} {w : WaitRec} {totally : Option TallyField} (hE : Sub 0x6f2b43b E := by first | assumption | exact sub_step (by assumption) (by decide)) :
    Frame E s0 (State.endWait s q w totally) := by
  simp (disch := (
    unfold FrameOf
    unfold State.endWait
    try dsimp only
    repeat' first
      | (with_reducible assumption) | ((with_reducible refine sub_step (by assumption) ?_); first | rfl | decide)
      | (with_reducible apply beginExec_fr) | (with_reducible apply bumpField_fr) | (with_reducible apply cancelExec_fr)
      | (with_reducible apply completeExec_fr) | (with_reducible apply disarm_fr) | (with_reducible apply settleAll_fr)
      | (with_reducible apply updQ_fr) | (with_reducible apply wr_fr) | (split) | (intro _)
      | (refine frame_fst ?_ (by assumption)) | (dsimp only) | (with_reducible apply frame_any))) only [framed]

theorem execWaitConditionMet_fr {E : Nat} {s0 s : State} (h : Frame E s0 s) {q : Nat} (hE : Sub 0x6f2b43b E := by first | assumption | exact sub_step (by assumption) (by decide)) :
    OFrame E s0 (execWaitConditionMet q s) := by
  simp (disch := (
    unfold OFrameOf
    unfold execWaitConditionMet
    try dsimp only
    repeat' first
      | (with_reducible apply OFrame.next) | (with_reducible assumption)
      | ((with_reducible refine sub_step (by assumption) ?_); first | rfl | decide) | (with_reducible apply endWait_fr)
      | (with_reducible apply whenLive_fr) | (split) | (intro _) | (refine frame_fst ?_ (by assumption)) | (dsimp only)
      | (with_reducible apply frame_any))) only [oframed]

theorem execWaitTimeoutExpiry_fr {E : Nat} {s0 s : State} (h : Frame E s0 s) {q : Nat} (hE : Sub 0x6f2b43b E := by first | assumption | exact sub_step (by assumption) (by decide)) :
    OFrame E s0 (execWaitTimeoutExpiry q s) := by
  simp (disch := (
    unfold OFrameOf
    unfold execWaitTimeoutExpiry
    try dsimp only
    repeat' first
      | (with_reducible apply OFrame.next) | (with_reducible assumption)
      | ((with_reducible refine sub_step (by assumption) ?_); first | rfl | decide) | (with_reducible apply endWait_fr)
      | (with_reducible apply failQueue_fr) | (with_reducible apply whenDue_fr) | (split) | (intro _)
      | (refine frame_fst ?_ (by assumption)) | (dsimp only) | (with_reducible apply frame_any))) only [oframed]

theorem runQueue_fr {E : Nat} {s0 s : State} (h : Frame E s0 s) {q : Nat} {f : Option Func} (hE : Sub 0xb28002 E := by first | assumption | exact sub_step (by assumption) (by decide)) :
    Frame E s0 (State.runQueue s q f) := by
  simp (disch := (
    unfold FrameOf
    unfold State.runQueue
    try dsimp only
    repeat' first
      | (with_reducible assumption) | ((with_reducible refine sub_step (by assumption) ?_); first | rfl | decide)
      | (with_reducible apply askSegs_fr) | (with_reducible apply checkDrained_fr) | (with_reducible apply publish_fr)
      | (with_reducible apply wr_fr) | (split) | (intro _) | (refine frame_fst ?_ (by assumption)) | (dsimp only)
      | (with_reducible apply frame_any))) only [framed]

theorem execCmdRun_fr {E : Nat} {s0 s : State} (h : Frame E s0 s) {q : Nat} {f : Option Func} (hE : Sub 0xb2a002 E := by first | assumption | exact sub_step (by assumption) (by decide)) :
    OFrame E s0 (execCmdRun q f s) := by
  simp (disch := (
    unfold OFrameOf
    unfold execCmdRun
    try dsimp only
    repeat' first
      | (with_reducible apply OFrame.next) | (with_reducible assumption)
      | ((with_reducible refine sub_step (by assumption) ?_); first | rfl | decide) | (with_reducible apply queueAccess_fr)
      | (with_reducible apply runQueue_fr) | (with_reducible apply whenLive_fr) | (split) | (intro _)
      | (refine frame_fst ?_ (by assumption)) | (dsimp only) | (with_reducible apply frame_any))) only [oframed]

theorem haltCmd_fr {E : Nat} {s0 s : State} (h : Frame E s0 s) {q : Nat} (hE : Sub 0xb28002 E := by first | assumption | exact sub_step (by assumption) (by decide)) :
    Frame E s0 (State.haltCmd s q) := by
  simp (disch := (
    unfold FrameOf
    unfold State.haltCmd
    try dsimp only
    repeat' first
      | (with_reducible assumption) | ((with_reducible refine sub_step (by assumption) ?_); first | rfl | decide)
      | (with_reducible apply haltQueue_fr) | (split) | (intro _) | (refine frame_fst ?_ (by assumption)) | (dsimp only)
      | (with_reducible apply frame_any))) only [framed]

theorem execCmdHalt_fr {E : Nat} {s0 s : State} (h : Frame E s0 s) {q : Nat} {f : Option Func} (hE : Sub 0xb2a002 E := by first | assumption | exact sub_step (by assumption) (by decide)) :
    OFrame E s0 (execCmdHalt q f s) := by
  simp (disch := (
    unfold OFrameOf
    unfold execCmdHalt
    try dsimp only
    repeat' first
      | (with_reducible apply OFrame.next) | (with_reducible assumption)
      | ((with_reducible refine sub_step (by assumption) ?_); first | rfl | decide) | (with_reducible apply haltCmd_fr)
      | (with_reducible apply queueAccess_fr) | (with_reducible apply whenUp_fr) | (split) | (intro _)
      | (refine frame_fst ?_ (by assumption)) | (dsimp only) | (with_reducible apply frame_any))) only [oframed]

theorem cmdResume_fr {E : Nat} {s0 s : State} (h : Frame E s0 s) {q : Nat} {skip : Bool} (hE : Sub 0xb28002 E := by first | assumption | exact sub_step (by assumption) (by decide)) :
    Frame E s0 (State.cmdResume s q skip) := by
  simp (disch := (
    unfold FrameOf
    unfold State.cmdResume
    try dsimp only
    repeat' first
      | (with_reducible assumption) | ((with_reducible refine sub_step (by assumption) ?_); first | rfl | decide)
      | (with_reducible apply resumeQueue_fr) | (with_reducible apply updQ_fr) | (split) | (intro _)
      | (refine frame_fst ?_ (by assumption)) | (dsimp only) | (with_reducible apply frame_any))) only [framed]

theorem execCmdResume_fr {E : Nat} {s0 s : State} (h : Frame E s0 s) {q : Nat} {f : Option Func} (hE : Sub 0xb2a002 E := by first | assumption | exact sub_step (by assumption) (by decide)) :
    OFrame E s0 (execCmdResume q f s) := by
  simp (disch := (
    unfold OFrameOf
    unfold execCmdResume
    try dsimp only
    repeat' first
      | (with_reducible apply OFrame.next) | (with_reducible assumption)
      | ((with_reducible refine sub_step (by assumption) ?_); first | rfl | decide) | (with_reducible apply cmdResume_fr)
      | (with_reducible apply queueAccess_fr) | (with_reducible apply whenLive_fr) | (split) | (intro _)
      | (refine frame_fst ?_ (by assumption)) | (dsimp only) | (with_reducible apply frame_any))) only [oframed]

theorem execCmdResumeSkip_fr {E : Nat} {s0 s : State} (h : Frame E s0 s) {q : Nat} {f : Option Func} (hE : Sub 0xb2a002 E := by first | assumption | exact sub_step (by assumption) (by decide)) :
    OFrame E s0 (execCmdResumeSkip q f s) := by
  simp (disch := (
    unfold OFrameOf
    unfold execCmdResumeSkip
    try dsimp only
    repeat' first
      | (with_reducible apply OFrame.next) | (with_reducible assumption)
      | ((with_reducible refine sub_step (by assumption) ?_); first | rfl | decide) | (with_reducible apply cmdResume_fr)
      | (with_reducible apply queueAccess_fr) | (with_reducible apply whenLive_fr) | (split) | (intro _)
      | (refine frame_fst ?_ (by assumption)) | (dsimp only) | (with_reducible apply frame_any))) only [oframed]

theorem execHeldResumeApply_fr {E : Nat} {s0 s : State} (h : Frame E s0 s) {q : Nat} (hE : Sub 0xb28002 E := by first | assumption | exact sub_step (by assumption) (by decide)) :
    OFrame E s0 (execHeldResumeApply q s) := by
  simp (disch := (
    unfold OFrameOf
    unfold execHeldResumeApply
    try dsimp only
    repeat' first
      | (with_reducible apply OFrame.next) | (with_reducible assumption)
      | ((with_reducible refine sub_step (by assumption) ?_); first | rfl | decide) | (with_reducible apply resumeQueue_fr)
      | (with_reducible apply whenLive_fr) | (split) | (intro _) | (refine frame_fst ?_ (by assumption)) | (dsimp only)
      | (with_reducible apply frame_any))) only [oframed]

theorem writeNotify_fr {E : Nat} {s0 s : State} (h : Frame E s0 s) {q : Nat} {v : Nat} (hE : Sub 0x2 E := by first | assumption | exact sub_step (by assumption) (by decide)) :
    Frame E s0 (State.writeNotify s q v) := by
  simp (disch := (
    unfold FrameOf
    unfold State.writeNotify
    try dsimp only
    repeat' first
      | (with_reducible assumption) | ((with_reducible refine sub_step (by assumption) ?_); first | rfl | decide)
      | (with_reducible refine sub_fldb ?_ ?_) | (with_reducible exact sub_zero) | (with_reducible apply setBounded_fr)
      | (with_reducible apply setFields_fr) | (split) | (intro _) | (refine frame_fst ?_ (by assumption)) | (dsimp only)
      | (with_reducible apply frame_any))) only [framed]

theorem execQuNotifyWrite_fr {E : Nat} {s0 s : State} (h : Frame E s0 s) {q : Nat} {f : Option Func} {v : Nat} (hE : Sub 0x2002 E := by first | assumption | exact sub_step (by assumption) (by decide)) :
    OFrame E s0 (execQuNotifyWrite q f v s) := by
  simp (disch := (
    unfold OFrameOf
    unfold execQuNotifyWrite
    try dsimp only
    repeat' first
      | (with_reducible apply OFrame.next) | (with_reducible assumption)
      | ((with_reducible refine sub_step (by assumption) ?_); first | rfl | decide) | (with_reducible apply queueAccess_fr)
      | (with_reducible apply whenUp_fr) | (with_reducible apply writeNotify_fr) | (split) | (intro _)
      | (refine frame_fst ?_ (by assumption)) | (dsimp only) | (with_reducible apply frame_any))) only [oframed]

theorem writeQueue0_fr {E : Nat} {s0 s : State} (h : Frame E s0 s) {headaddr : Bool} {cfg : Bool} {v : Nat} (hE : Sub 0x8002 E := by first | assumption | exact sub_step (by assumption) (by decide)) :
    Frame E s0 (State.writeQueue0 s headaddr cfg v) := by
  simp (disch := (
    unfold FrameOf
    unfold State.writeQueue0
    try dsimp only
    repeat' first
      | (with_reducible assumption) | ((with_reducible refine sub_step (by assumption) ?_); first | rfl | decide)
      | (with_reducible refine sub_flds ?_ ?_) | (with_reducible exact sub_zero) | (with_reducible apply logRejected_fr)
      | (with_reducible apply setFields_fr) | (with_reducible apply updQ_fr) | (with_reducible apply wrAll_fr) | (split)
      | (intro _) | (refine frame_fst ?_ (by assumption)) | (dsimp only) | (with_reducible apply frame_any))) only [framed]

theorem execQueue0ConfigWrite_fr {E : Nat} {s0 s : State} (h : Frame E s0 s) {headaddr : Bool} {cfg : Bool} {f : Option Func} {v : Nat} (hE : Sub 0xa002 E := by first | assumption | exact sub_step (by assumption) (by decide)) :
    OFrame E s0 (execQueue0ConfigWrite headaddr cfg f v s) := by
  simp (disch := (
    unfold OFrameOf
    unfold execQueue0ConfigWrite
    try dsimp only
    repeat' first
      | (with_reducible apply OFrame.next) | (with_reducible assumption)
      | ((with_reducible refine sub_step (by assumption) ?_); first | rfl | decide) | (with_reducible apply queueAccess_fr)
      | (with_reducible apply whenUp_fr) | (with_reducible apply writeQueue0_fr) | (split) | (intro _)
      | (refine frame_fst ?_ (by assumption)) | (dsimp only) | (with_reducible apply frame_any))) only [oframed]

theorem execQuPiRead_fr {E : Nat} {s0 s : State} (h : Frame E s0 s) {q : Nat} {f : Option Func} (hE : Sub 0x2002 E := by first | assumption | exact sub_step (by assumption) (by decide)) :
    OFrame E s0 (execQuPiRead q f s) := by
  simp (disch := (
    unfold OFrameOf
    unfold execQuPiRead
    try dsimp only
    repeat' first
      | (with_reducible apply OFrame.next) | (with_reducible assumption)
      | ((with_reducible refine sub_step (by assumption) ?_); first | rfl | decide) | (with_reducible apply answer_fr)
      | (with_reducible apply readFor_fr) | (with_reducible apply regForeign_fr) | (with_reducible apply whenUp_fr) | (split)
      | (intro _) | (refine frame_fst ?_ (by assumption)) | (dsimp only) | (with_reducible apply frame_any))) only [oframed]

theorem writeCmd_fr {E : Nat} {s0 s : State} (h : Frame E s0 s) {q : Nat} {f : Option Func} {v : Nat} (hE : Sub 0xb28002 E := by first | assumption | exact sub_step (by assumption) (by decide)) :
    Frame E s0 (State.writeCmd s q f v) := by
  simp (disch := (
    unfold FrameOf
    unfold State.writeCmd
    try dsimp only
    repeat' first
      | (with_reducible assumption) | ((with_reducible refine sub_step (by assumption) ?_); first | rfl | decide)
      | (with_reducible apply cmdResume_fr) | (with_reducible apply haltCmd_fr) | (with_reducible apply runQueue_fr) | (split)
      | (intro _) | (refine frame_fst ?_ (by assumption)) | (dsimp only) | (with_reducible apply frame_any))) only [framed]

theorem writeQueueReg_fr {E : Nat} {s0 s : State} (h : Frame E s0 s) {q : Nat} {reg : Nat} {f : Option Func} {v : Nat} (hE : Sub 0xb28002 E := by first | assumption | exact sub_step (by assumption) (by decide)) :
    Frame E s0 (State.writeQueueReg s q reg f v) := by
  simp (disch := (
    unfold FrameOf
    unfold State.writeQueueReg
    try dsimp only
    repeat' first
      | (with_reducible assumption) | ((with_reducible refine sub_step (by assumption) ?_); first | rfl | decide)
      | (with_reducible apply writeCmd_fr) | (with_reducible apply writeNotify_fr) | (with_reducible apply writeQueue0_fr)
      | (split) | (intro _) | (refine frame_fst ?_ (by assumption)) | (dsimp only) | (with_reducible apply frame_any))) only [framed]

theorem execQueueApertureAccess_fr {E : Nat} {s0 s : State} (h : Frame E s0 s) {f : Func} {q : Nat} {reg : Nat} {wr : Option Nat} (hE : Sub 0xb2a002 E := by first | assumption | exact sub_step (by assumption) (by decide)) :
    OFrame E s0 (execQueueApertureAccess f q reg wr s) := by
  simp (disch := (
    unfold OFrameOf
    unfold execQueueApertureAccess
    try dsimp only
    repeat' first
      | (with_reducible apply OFrame.next) | (with_reducible assumption)
      | ((with_reducible refine sub_step (by assumption) ?_); first | rfl | decide) | (with_reducible apply answer_fr)
      | (with_reducible apply queueAccess_fr) | (with_reducible apply readFor_fr) | (with_reducible apply regForeign_fr)
      | (with_reducible apply whenUp_fr) | (with_reducible apply wr_fr) | (with_reducible apply writeQueueReg_fr)
      | (exact sub_step (sub_step (a := 2) (by assumption) (by decide)) ((by decide : ∀ r ∈ queueRegs, fldl r.fields &&& 2 = fldl r.fields) _ (List.mem_of_getElem? (by assumption))))
      | (split) | (intro _) | (refine frame_fst ?_ (by assumption)) | (dsimp only) | (with_reducible apply frame_any))) only [oframed]

theorem execTallyArrayWrite_fr {E : Nat} {s0 s : State} (h : Frame E s0 s) {n : Nat} {v : Nat} (hE : Sub 0x800000 E := by first | assumption | exact sub_step (by assumption) (by decide)) :
    OFrame E s0 (execTallyArrayWrite n v s) := by
  simp (disch := (
    unfold OFrameOf
    unfold execTallyArrayWrite
    try dsimp only
    repeat' first
      | (with_reducible apply OFrame.next) | (with_reducible assumption)
      | ((with_reducible refine sub_step (by assumption) ?_); first | rfl | decide) | (with_reducible apply setTally_fr)
      | (with_reducible apply whenUp_fr) | (split) | (intro _) | (refine frame_fst ?_ (by assumption)) | (dsimp only)
      | (with_reducible apply frame_any))) only [oframed]

end Sys2Proof.Laws
end

