-- ==== Sys2Proof/Laws/FrHostFns.lean ====
section
/-! SUPPORT. The frame of every operation of Machine/HostFns.lean (`Laws.Frame`). -/

namespace Sys2Proof.Laws

open Sys2Proof.Machine

set_option linter.all false
set_option Elab.async false

theorem entryLost_fr {E : Nat} {s0 s : State} (h : Frame E s0 s) {m : Nat} (hE : Sub 0x6f2b43b E := by first | assumption | exact sub_step (by assumption) (by decide)) :
    Frame E s0 (State.entryLost s m) := by
  simp (disch := (
    unfold FrameOf
    unfold State.entryLost
    try dsimp only
    repeat' first
      | (with_reducible assumption) | ((with_reducible refine sub_step (by assumption) ?_); first | rfl | decide)
      | (with_reducible apply opFail_fr) | (with_reducible apply updM_fr) | (split) | (intro _)
      | (refine frame_fst ?_ (by assumption)) | (dsimp only) | (with_reducible apply frame_any))) only [framed]

theorem dropFunc_fr {E : Nat} {s0 s : State} (h : Frame E s0 s) {f : Func} {st : Nat} {reason : Nat} (hE : Sub 0x6f2b43b E := by first | assumption | exact sub_step (by assumption) (by decide)) :
    Frame E s0 (State.dropFunc s f st reason) := by
  simp (disch := (
    unfold FrameOf
    unfold State.dropFunc
    try dsimp only
    repeat' first
      | (with_reducible assumption) | ((with_reducible refine sub_step (by assumption) ?_); first | rfl | decide)
      | (with_reducible apply collMemFail_fr) | (with_reducible apply entryLost_fr) | (with_reducible apply failExec_fr)
      | (with_reducible apply forEach_fr) | (with_reducible apply haltQueue_fr) | (with_reducible apply recvEnd_fr)
      | (with_reducible apply settleAll_fr) | (with_reducible apply topCheck_fr) | (with_reducible apply topFail_fr)
      | (with_reducible apply updTop_fr) | (with_reducible apply wr_fr) | (with_reducible apply xferFail_fr) | (split)
      | (intro _) | (refine frame_fst ?_ (by assumption)) | (dsimp only) | (with_reducible apply frame_any))) only [framed]

theorem clearBme_fr {E : Nat} {s0 s : State} (h : Frame E s0 s) {f : Func} {d3 : Bool} (hE : Sub 0x6f2b43b E := by first | assumption | exact sub_step (by assumption) (by decide)) :
    Frame E s0 (State.clearBme s f d3) := by
  simp (disch := (
    unfold FrameOf
    unfold State.clearBme
    try dsimp only
    repeat' first
      | (with_reducible assumption) | ((with_reducible refine sub_step (by assumption) ?_); first | rfl | decide)
      | (with_reducible apply armIn_fr) | (with_reducible apply dropFunc_fr) | (with_reducible apply updFn_fr) | (split)
      | (intro _) | (refine frame_fst ?_ (by assumption)) | (dsimp only) | (with_reducible apply frame_any))) only [framed]

theorem execBmeClear_fr {E : Nat} {s0 s : State} (h : Frame E s0 s) {f : Func} (hE : Sub 0x6f2b43b E := by first | assumption | exact sub_step (by assumption) (by decide)) :
    OFrame E s0 (execBmeClear f s) := by
  simp (disch := (
    unfold OFrameOf
    unfold execBmeClear
    try dsimp only
    repeat' first
      | (with_reducible apply OFrame.next) | (with_reducible assumption)
      | ((with_reducible refine sub_step (by assumption) ?_); first | rfl | decide) | (with_reducible apply clearBme_fr)
      | (with_reducible apply whenUp_fr) | (split) | (intro _) | (refine frame_fst ?_ (by assumption)) | (dsimp only)
      | (with_reducible apply frame_any))) only [oframed]

theorem execD3hotEntry_fr {E : Nat} {s0 s : State} (h : Frame E s0 s) {f : Func} (hE : Sub 0x6f2b43b E := by first | assumption | exact sub_step (by assumption) (by decide)) :
    OFrame E s0 (execD3hotEntry f s) := by
  simp (disch := (
    unfold OFrameOf
    unfold execD3hotEntry
    try dsimp only
    repeat' first
      | (with_reducible apply OFrame.next) | (with_reducible assumption)
      | ((with_reducible refine sub_step (by assumption) ?_); first | rfl | decide) | (with_reducible apply clearBme_fr)
      | (with_reducible apply whenUp_fr) | (split) | (intro _) | (refine frame_fst ?_ (by assumption)) | (dsimp only)
      | (with_reducible apply frame_any))) only [oframed]

theorem fnNormal_fr {E : Nat} {s0 s : State} (h : Frame E s0 s) {f : Func} (hE : Sub 0xb2a000 E := by first | assumption | exact sub_step (by assumption) (by decide)) :
    Frame E s0 (State.fnNormal s f) := by
  simp (disch := (
    unfold FrameOf
    unfold State.fnNormal
    try dsimp only
    repeat' first
      | (with_reducible assumption) | ((with_reducible refine sub_step (by assumption) ?_); first | rfl | decide)
      | (with_reducible apply disarm_fr) | (with_reducible apply forEach_fr) | (with_reducible apply msix_fr)
      | (with_reducible apply updFn_fr) | (with_reducible apply wr_fr) | (with_reducible apply writeHead_fr) | (split)
      | (intro _) | (refine frame_fst ?_ (by assumption)) | (dsimp only) | (with_reducible apply frame_any))) only [framed]

theorem execBmeSet_fr {E : Nat} {s0 s : State} (h : Frame E s0 s) {f : Func} (hE : Sub 0xb2a000 E := by first | assumption | exact sub_step (by assumption) (by decide)) :
    OFrame E s0 (execBmeSet f s) := by
  simp (disch := (
    unfold OFrameOf
    unfold execBmeSet
    try dsimp only
    repeat' first
      | (with_reducible apply OFrame.next) | (with_reducible assumption)
      | ((with_reducible refine sub_step (by assumption) ?_); first | rfl | decide) | (with_reducible apply fnNormal_fr)
      | (with_reducible apply updFn_fr) | (with_reducible apply whenUp_fr) | (split) | (intro _)
      | (refine frame_fst ?_ (by assumption)) | (dsimp only) | (with_reducible apply frame_any))) only [oframed]

theorem execQuiesceExpiry_fr {E : Nat} {s0 s : State} (h : Frame E s0 s) {f : Func} (hE : Sub 0x22000 E := by first | assumption | exact sub_step (by assumption) (by decide)) :
    OFrame E s0 (execQuiesceExpiry f s) := by
  simp (disch := (
    unfold OFrameOf
    unfold execQuiesceExpiry
    try dsimp only
    repeat' first
      | (with_reducible apply OFrame.next) | (with_reducible assumption)
      | ((with_reducible refine sub_step (by assumption) ?_); first | rfl | decide) | (with_reducible apply disarm_fr)
      | (with_reducible apply fin_fr) | (with_reducible apply setNow_fr) | (with_reducible apply wr_fr) | (split) | (intro _)
      | (refine frame_fst ?_ (by assumption)) | (dsimp only) | (with_reducible apply frame_any))) only [oframed]

theorem flrOne_fr {E : Nat} {s0 s : State} (h : Frame E s0 s) {f : Func} (hE : Sub 0x6f2b43b E := by first | assumption | exact sub_step (by assumption) (by decide)) :
    Frame E s0 (State.flrOne s f) := by
  simp (disch := (
    unfold FrameOf
    unfold State.flrOne
    try dsimp only
    repeat' first
      | (with_reducible assumption) | ((with_reducible refine sub_step (by assumption) ?_); first | rfl | decide)
      | (with_reducible refine sub_flds ?_ ?_) | (with_reducible exact sub_zero) | (with_reducible apply armIn_fr)
      | (with_reducible apply dropFunc_fr) | (with_reducible apply dropLocks_fr) | (with_reducible apply wrAll_fr) | (split)
      | (intro _) | (refine frame_fst ?_ (by assumption)) | (dsimp only) | (with_reducible apply frame_any))) only [framed]

theorem clearVfs_fr {E : Nat} {s0 s : State} (h : Frame E s0 s) {p : Nat} (hE : Sub 0x6f2b43b E := by first | assumption | exact sub_step (by assumption) (by decide)) :
    Frame E s0 (State.clearVfs s p) := by
  simp (disch := (
    unfold FrameOf
    unfold State.clearVfs
    try dsimp only
    repeat' first
      | (with_reducible assumption) | ((with_reducible refine sub_step (by assumption) ?_); first | rfl | decide)
      | (with_reducible apply flrOne_fr) | (with_reducible apply forEach_fr) | (split) | (intro _)
      | (refine frame_fst ?_ (by assumption)) | (dsimp only) | (with_reducible apply frame_any))) only [framed]

theorem flrFunc_fr {E : Nat} {s0 s : State} (h : Frame E s0 s) {f : Func} (hE : Sub 0x6f2b43b E := by first | assumption | exact sub_step (by assumption) (by decide)) :
    Frame E s0 (State.flrFunc s f) := by
  simp (disch := (
    unfold FrameOf
    unfold State.flrFunc
    try dsimp only
    repeat' first
      | (with_reducible assumption) | ((with_reducible refine sub_step (by assumption) ?_); first | rfl | decide)
      | (with_reducible apply clearVfs_fr) | (with_reducible apply flrOne_fr) | (split) | (intro _)
      | (refine frame_fst ?_ (by assumption)) | (dsimp only) | (with_reducible apply frame_any))) only [framed]

theorem execFlr_fr {E : Nat} {s0 s : State} (h : Frame E s0 s) {f : Func} (hE : Sub 0x6f2b43b E := by first | assumption | exact sub_step (by assumption) (by decide)) :
    OFrame E s0 (execFlr f s) := by
  simp (disch := (
    unfold OFrameOf
    unfold execFlr
    try dsimp only
    repeat' first
      | (with_reducible apply OFrame.next) | (with_reducible assumption)
      | ((with_reducible refine sub_step (by assumption) ?_); first | rfl | decide) | (with_reducible apply flrFunc_fr)
      | (with_reducible apply whenUp_fr) | (split) | (intro _) | (refine frame_fst ?_ (by assumption)) | (dsimp only)
      | (with_reducible apply frame_any))) only [oframed]

theorem execFlrComplete_fr {E : Nat} {s0 s : State} (h : Frame E s0 s) {f : Func} (hE : Sub 0x6f2b43b E := by first | assumption | exact sub_step (by assumption) (by decide)) :
    OFrame E s0 (execFlrComplete f s) := by
  simp (disch := (
    unfold OFrameOf
    unfold execFlrComplete
    try dsimp only
    repeat' first
      | (with_reducible apply OFrame.next) | (with_reducible assumption)
      | ((with_reducible refine sub_step (by assumption) ?_); first | rfl | decide) | (with_reducible apply disarm_fr)
      | (with_reducible apply settleAll_fr) | (with_reducible apply whenDue_fr) | (with_reducible apply wr_fr) | (split)
      | (intro _) | (refine frame_fst ?_ (by assumption)) | (dsimp only) | (with_reducible apply frame_any))) only [oframed]

theorem execVfEnableClear_fr {E : Nat} {s0 s : State} (h : Frame E s0 s) {p : Nat} (hE : Sub 0x6f2b43b E := by first | assumption | exact sub_step (by assumption) (by decide)) :
    OFrame E s0 (execVfEnableClear p s) := by
  simp (disch := (
    unfold OFrameOf
    unfold execVfEnableClear
    try dsimp only
    repeat' first
      | (with_reducible apply OFrame.next) | (with_reducible assumption)
      | ((with_reducible refine sub_step (by assumption) ?_); first | rfl | decide) | (with_reducible apply clearVfs_fr)
      | (with_reducible apply whenUp_fr) | (split) | (intro _) | (refine frame_fst ?_ (by assumption)) | (dsimp only)
      | (with_reducible apply frame_any))) only [oframed]

theorem execVfEnableSet_fr {E : Nat} {s0 s : State} (h : Frame E s0 s) {p : Nat} {numVfs : Nat} (hE : Sub 0x2000 E := by first | assumption | exact sub_step (by assumption) (by decide)) :
    OFrame E s0 (execVfEnableSet p numVfs s) := by
  simp (disch := (
    unfold OFrameOf
    unfold execVfEnableSet
    try dsimp only
    repeat' first
      | (with_reducible apply OFrame.next) | (with_reducible assumption)
      | ((with_reducible refine sub_step (by assumption) ?_); first | rfl | decide) | (with_reducible apply whenUp_fr)
      | (with_reducible apply wr_fr) | (split) | (intro _) | (refine frame_fst ?_ (by assumption)) | (dsimp only)
      | (with_reducible apply frame_any))) only [oframed]

theorem unmaskVec_fr {E : Nat} {s0 s : State} (h : Frame E s0 s) {f : Func} {vec : Nat} :
    Frame E s0 (State.unmaskVec s f vec) := by
  simp (disch := (
    unfold FrameOf
    unfold State.unmaskVec
    try dsimp only
    repeat' first
      | (with_reducible assumption) | (with_reducible apply msix_fr) | (with_reducible apply updFn_fr) | (split) | (intro _)
      | (refine frame_fst ?_ (by assumption)) | (dsimp only) | (with_reducible apply frame_any))) only [framed]

theorem execMsixUnmask_fr {E : Nat} {s0 s : State} (h : Frame E s0 s) {f : Func} {vec : Nat} :
    OFrame E s0 (execMsixUnmask f vec s) := by
  simp (disch := (
    unfold OFrameOf
    unfold execMsixUnmask
    try dsimp only
    repeat' first
      | (with_reducible apply OFrame.next) | (with_reducible assumption) | (with_reducible apply unmaskVec_fr)
      | (with_reducible apply whenUp_fr) | (split) | (intro _) | (refine frame_fst ?_ (by assumption)) | (dsimp only)
      | (with_reducible apply frame_any))) only [oframed]

end Sys2Proof.Laws
end

