-- ==== Sys2Proof/Laws/FrSensors.lean ====
section
/-! SUPPORT. The frame of every operation of Machine/Sensors.lean (`Laws.Frame`). -/

namespace Sys2Proof.Laws

open Sys2Proof.Machine

set_option linter.all false
set_option Elab.async false

theorem sensorJudge_fr {E : Nat} {s0 s : State} (h : Frame E s0 s) {i : Nat} {v : Nat} (hE : Sub 0xc000 E := by first | assumption | exact sub_step (by assumption) (by decide)) :
    Frame E s0 (State.sensorJudge s i v) := by
  simp (disch := (
    unfold FrameOf
    unfold State.sensorJudge
    try dsimp only
    repeat' first
      | (with_reducible assumption) | ((with_reducible refine sub_step (by assumption) ?_); first | rfl | decide)
      | (with_reducible apply logRec_fr) | (with_reducible apply raise_fr) | (with_reducible apply setFlag_fr) | (split)
      | (intro _) | (refine frame_fst ?_ (by assumption)) | (dsimp only) | (with_reducible apply frame_any))) only [framed]

theorem sensorTake_fr {E : Nat} {s0 s : State} (h : Frame E s0 s) {i : Nat} {v : Nat} (hE : Sub 0x4c000 E := by first | assumption | exact sub_step (by assumption) (by decide)) :
    Frame E s0 (State.sensorTake s i v) := by
  simp (disch := (
    unfold FrameOf
    unfold State.sensorTake
    try dsimp only
    repeat' first
      | (with_reducible assumption) | ((with_reducible refine sub_step (by assumption) ?_); first | rfl | decide)
      | (with_reducible refine sub_flds ?_ ?_) | (with_reducible exact sub_zero) | (with_reducible apply sensorJudge_fr)
      | (with_reducible apply wr_fr) | (with_reducible apply wrAll_fr) | (split) | (intro _)
      | (refine frame_fst ?_ (by assumption)) | (dsimp only) | (with_reducible apply frame_any))) only [framed]

theorem execSensorReading_fr {E : Nat} {s0 s : State} (h : Frame E s0 s) {i : Nat} {v : Nat} (hE : Sub 0x4c000 E := by first | assumption | exact sub_step (by assumption) (by decide)) :
    OFrame E s0 (execSensorReading i v s) := by
  simp (disch := (
    unfold OFrameOf
    unfold execSensorReading
    try dsimp only
    repeat' first
      | (with_reducible apply OFrame.next) | (with_reducible assumption)
      | ((with_reducible refine sub_step (by assumption) ?_); first | rfl | decide) | (with_reducible apply sensorTake_fr)
      | (with_reducible apply whenRef_fr) | (split) | (intro _) | (refine frame_fst ?_ (by assumption)) | (dsimp only)
      | (with_reducible apply frame_any))) only [oframed]

theorem execSensorFail_fr {E : Nat} {s0 s : State} (h : Frame E s0 s) {i : Nat} (hE : Sub 0x24000 E := by first | assumption | exact sub_step (by assumption) (by decide)) :
    OFrame E s0 (execSensorFail i s) := by
  simp (disch := (
    unfold OFrameOf
    unfold execSensorFail
    try dsimp only
    repeat' first
      | (with_reducible apply OFrame.next) | (with_reducible assumption)
      | ((with_reducible refine sub_step (by assumption) ?_); first | rfl | decide) | (with_reducible apply setNow_fr)
      | (with_reducible apply whenRef_fr) | (with_reducible apply wr_fr) | (split) | (intro _)
      | (refine frame_fst ?_ (by assumption)) | (dsimp only) | (with_reducible apply frame_any))) only [oframed]

theorem writeSensThr_fr {E : Nat} {s0 s : State} (h : Frame E s0 s) {i : Nat} {v : Nat} (hE : Sub 0xc000 E := by first | assumption | exact sub_step (by assumption) (by decide)) :
    Frame E s0 (State.writeSensThr s i v) := by
  simp (disch := (
    unfold FrameOf
    unfold State.writeSensThr
    try dsimp only
    repeat' first
      | (with_reducible assumption) | ((with_reducible refine sub_step (by assumption) ?_); first | rfl | decide)
      | (with_reducible apply logRejected_fr) | (with_reducible apply sensorJudge_fr) | (with_reducible apply setFields_fr)
      | (split) | (intro _) | (refine frame_fst ?_ (by assumption)) | (dsimp only) | (with_reducible apply frame_any))) only [framed]

theorem execMgSensThrWrite_fr {E : Nat} {s0 s : State} (h : Frame E s0 s) {i : Nat} {v : Nat} (hE : Sub 0xc000 E := by first | assumption | exact sub_step (by assumption) (by decide)) :
    OFrame E s0 (execMgSensThrWrite i v s) := by
  simp (disch := (
    unfold OFrameOf
    unfold execMgSensThrWrite
    try dsimp only
    repeat' first
      | (with_reducible apply OFrame.next) | (with_reducible assumption)
      | ((with_reducible refine sub_step (by assumption) ?_); first | rfl | decide) | (with_reducible apply whenRef_fr)
      | (with_reducible apply writeSensThr_fr) | (split) | (intro _) | (refine frame_fst ?_ (by assumption)) | (dsimp only)
      | (with_reducible apply frame_any))) only [oframed]

theorem setMargin_fr {E : Nat} {s0 s : State} (h : Frame E s0 s) (hE : Sub 0x40000 E := by first | assumption | exact sub_step (by assumption) (by decide)) :
    Frame E s0 (State.setMargin s) := by
  simp (disch := (
    unfold FrameOf
    unfold State.setMargin
    try dsimp only
    repeat' first
      | (with_reducible assumption) | ((with_reducible refine sub_step (by assumption) ?_); first | rfl | decide)
      | (with_reducible apply freeNext_fr) | (with_reducible apply wr_fr) | (split) | (intro _)
      | (refine frame_fst ?_ (by assumption)) | (dsimp only) | (with_reducible apply frame_any))) only [framed]

theorem askVolt_fr {E : Nat} {s0 s : State} (h : Frame E s0 s) {mv : Nat} (hE : Sub 0x40000 E := by first | assumption | exact sub_step (by assumption) (by decide)) :
    Frame E s0 (State.askVolt s mv) := by
  simp (disch := (
    unfold FrameOf
    unfold State.askVolt
    try dsimp only
    repeat' first
      | (with_reducible assumption) | ((with_reducible refine sub_step (by assumption) ?_); first | rfl | decide)
      | (with_reducible apply armIn_fr) | (with_reducible apply emit_fr) | (with_reducible apply setMargin_fr)
      | (with_reducible apply wr_fr) | (split) | (intro _) | (refine frame_fst ?_ (by assumption)) | (dsimp only)
      | (with_reducible apply frame_any))) only [framed]

theorem judgeShort_fr {E : Nat} {s0 s : State} (h : Frame E s0 s) {reading : Nat} (hE : Sub 0x48000 E := by first | assumption | exact sub_step (by assumption) (by decide)) :
    Frame E s0 (State.judgeShort s reading) := by
  simp (disch := (
    unfold FrameOf
    unfold State.judgeShort
    try dsimp only
    repeat' first
      | (with_reducible assumption) | ((with_reducible refine sub_step (by assumption) ?_); first | rfl | decide)
      | (with_reducible apply logRec_fr) | (with_reducible apply wr_fr) | (split) | (intro _)
      | (refine frame_fst ?_ (by assumption)) | (dsimp only) | (with_reducible apply frame_any))) only [framed]

theorem paceEval_fr {E : Nat} {s0 s : State} (h : Frame E s0 s) {readings : List (Nat × Nat)} (hE : Sub 0x4c000 E := by first | assumption | exact sub_step (by assumption) (by decide)) :
    Frame E s0 (State.paceEval s readings) := by
  simp (disch := (
    unfold FrameOf
    unfold State.paceEval
    try dsimp only
    repeat' first
      | (with_reducible assumption) | ((with_reducible refine sub_step (by assumption) ?_); first | rfl | decide)
      | (with_reducible refine sub_flds ?_ ?_) | (with_reducible exact sub_zero) | (with_reducible apply askVolt_fr)
      | (with_reducible apply freeNext_fr) | (with_reducible apply judgeShort_fr) | (with_reducible apply sensorTake_fr)
      | (with_reducible apply setMargin_fr) | (with_reducible apply wrAll_fr) | (with_reducible apply frame_foldl) | (split)
      | (intro _) | (refine frame_fst ?_ (by assumption)) | (dsimp only) | (with_reducible apply frame_any))) only [framed]

theorem paceNext_fr {E : Nat} {s0 s : State} (h : Frame E s0 s)  :
    Frame E s0 (State.paceNext s) := by
  simp (disch := (
    unfold FrameOf
    unfold State.paceNext
    try dsimp only
    repeat' first
      | (with_reducible assumption) | (with_reducible apply armIn_fr) | (split) | (intro _)
      | (refine frame_fst ?_ (by assumption)) | (dsimp only) | (with_reducible apply frame_any))) only [framed]

theorem execPaceEvaluation_fr {E : Nat} {s0 s : State} (h : Frame E s0 s) {readings : List (Nat × Nat)} (hE : Sub 0x6c000 E := by first | assumption | exact sub_step (by assumption) (by decide)) :
    OFrame E s0 (execPaceEvaluation readings s) := by
  simp (disch := (
    unfold OFrameOf
    unfold execPaceEvaluation
    try dsimp only
    repeat' first
      | (with_reducible apply OFrame.next) | (with_reducible assumption)
      | ((with_reducible refine sub_step (by assumption) ?_); first | rfl | decide) | (with_reducible apply disarm_fr)
      | (with_reducible apply paceEval_fr) | (with_reducible apply paceNext_fr) | (with_reducible apply setNow_fr)
      | (with_reducible apply whenRef_fr) | (split) | (intro _) | (refine frame_fst ?_ (by assumption)) | (dsimp only)
      | (with_reducible apply frame_any))) only [oframed]

theorem execAvsAck_fr {E : Nat} {s0 s : State} (h : Frame E s0 s)  :
    OFrame E s0 (execAvsAck s) := by
  simp (disch := (
    unfold OFrameOf
    unfold execAvsAck
    try dsimp only
    repeat' first
      | (with_reducible apply OFrame.next) | (with_reducible assumption) | (with_reducible apply disarm_fr)
      | (with_reducible apply paceNext_fr) | (with_reducible apply whenRef_fr) | (split) | (intro _)
      | (refine frame_fst ?_ (by assumption)) | (dsimp only) | (with_reducible apply frame_any))) only [oframed]

theorem execAvsTimeout_fr {E : Nat} {s0 s : State} (h : Frame E s0 s) (hE : Sub 0x60000 E := by first | assumption | exact sub_step (by assumption) (by decide)) :
    OFrame E s0 (execAvsTimeout s) := by
  simp (disch := (
    unfold OFrameOf
    unfold execAvsTimeout
    try dsimp only
    repeat' first
      | (with_reducible apply OFrame.next) | (with_reducible assumption)
      | ((with_reducible refine sub_step (by assumption) ?_); first | rfl | decide) | (with_reducible apply armIn_fr)
      | (with_reducible apply emit_fr) | (with_reducible apply paceNext_fr) | (with_reducible apply raise_fr)
      | (with_reducible apply whenDue_fr) | (with_reducible apply wr_fr) | (split) | (intro _)
      | (refine frame_fst ?_ (by assumption)) | (dsimp only) | (with_reducible apply frame_any))) only [oframed]

theorem execAvsFailClear_fr {E : Nat} {s0 s : State} (h : Frame E s0 s) (hE : Sub 0x40000 E := by first | assumption | exact sub_step (by assumption) (by decide)) :
    OFrame E s0 (execAvsFailClear s) := by
  simp (disch := (
    unfold OFrameOf
    unfold execAvsFailClear
    try dsimp only
    repeat' first
      | (with_reducible apply OFrame.next) | (with_reducible assumption)
      | ((with_reducible refine sub_step (by assumption) ?_); first | rfl | decide) | (with_reducible apply whenRef_fr)
      | (with_reducible apply wr_fr) | (split) | (intro _) | (refine frame_fst ?_ (by assumption)) | (dsimp only)
      | (with_reducible apply frame_any))) only [oframed]

theorem writePaceCtl_fr {E : Nat} {s0 s : State} (h : Frame E s0 s) {v : Nat} (hE : Sub 0x48000 E := by first | assumption | exact sub_step (by assumption) (by decide)) :
    Frame E s0 (State.writePaceCtl s v) := by
  simp (disch := (
    unfold FrameOf
    unfold State.writePaceCtl
    try dsimp only
    repeat' first
      | (with_reducible assumption) | ((with_reducible refine sub_step (by assumption) ?_); first | rfl | decide)
      | (with_reducible apply logRejected_fr) | (with_reducible apply setFields_fr) | (split) | (intro _)
      | (refine frame_fst ?_ (by assumption)) | (dsimp only) | (with_reducible apply frame_any))) only [framed]

theorem execPwPaceCtlWrite_fr {E : Nat} {s0 s : State} (h : Frame E s0 s) {v : Nat} (hE : Sub 0x48000 E := by first | assumption | exact sub_step (by assumption) (by decide)) :
    OFrame E s0 (execPwPaceCtlWrite v s) := by
  simp (disch := (
    unfold OFrameOf
    unfold execPwPaceCtlWrite
    try dsimp only
    repeat' first
      | (with_reducible apply OFrame.next) | (with_reducible assumption)
      | ((with_reducible refine sub_step (by assumption) ?_); first | rfl | decide) | (with_reducible apply whenRef_fr)
      | (with_reducible apply writePaceCtl_fr) | (split) | (intro _) | (refine frame_fst ?_ (by assumption)) | (dsimp only)
      | (with_reducible apply frame_any))) only [oframed]

theorem execPaceGradientWarning_fr {E : Nat} {s0 s : State} (h : Frame E s0 s) {region : Nat} (hE : Sub 0x8000 E := by first | assumption | exact sub_step (by assumption) (by decide)) :
    OFrame E s0 (execPaceGradientWarning region s) := by
  simp (disch := (
    unfold OFrameOf
    unfold execPaceGradientWarning
    try dsimp only
    repeat' first
      | (with_reducible apply OFrame.next) | (with_reducible assumption)
      | ((with_reducible refine sub_step (by assumption) ?_); first | rfl | decide) | (with_reducible apply logRec_fr)
      | (with_reducible apply whenRef_fr) | (split) | (intro _) | (refine frame_fst ?_ (by assumption)) | (dsimp only)
      | (with_reducible apply frame_any))) only [oframed]

theorem execPaceGradientFault_fr {E : Nat} {s0 s : State} (h : Frame E s0 s) {region : Nat} :
    OFrame E s0 (execPaceGradientFault region s) := by
  simp (disch := (
    unfold OFrameOf
    unfold execPaceGradientFault
    try dsimp only
    repeat' first
      | (with_reducible apply OFrame.next) | (with_reducible assumption) | (with_reducible apply raise_fr)
      | (with_reducible apply whenRef_fr) | (split) | (intro _) | (refine frame_fst ?_ (by assumption)) | (dsimp only)
      | (with_reducible apply frame_any))) only [oframed]

end Sys2Proof.Laws
end

