-- ==== Sys2Proof/Laws/FrEfuseOps.lean ====
section
/-! SUPPORT. The frame of every operation of Machine/EfuseOps.lean (`Laws.Frame`). -/

namespace Sys2Proof.Laws

open Sys2Proof.Machine

set_option linter.all false
set_option Elab.async false

theorem slotVec_fr {E : Nat} {s0 s : State} (h : Frame E s0 s)  :
    Frame E s0 (State.slotVec s) := by
  simp (disch := (
    unfold FrameOf
    unfold State.slotVec
    try dsimp only
    repeat' first
      | (with_reducible assumption) | (with_reducible apply msix_fr) | (split) | (intro _)
      | (refine frame_fst ?_ (by assumption)) | (dsimp only) | (with_reducible apply frame_any))) only [framed]

theorem slotEvent_fr {E : Nat} {s0 s : State} (h : Frame E s0 s)  :
    Frame E s0 (State.slotEvent s) := by
  simp (disch := (
    unfold FrameOf
    unfold State.slotEvent
    try dsimp only
    repeat' first
      | (with_reducible assumption) | (with_reducible apply slotVec_fr) | (split) | (intro _)
      | (refine frame_fst ?_ (by assumption)) | (dsimp only) | (with_reducible apply frame_any))) only [framed]

theorem slotLinkDown_fr {E : Nat} {s0 s : State} (h : Frame E s0 s) (hE : Sub 0x6f2b43b E := by first | assumption | exact sub_step (by assumption) (by decide)) :
    Frame E s0 (State.slotLinkDown s) := by
  simp (disch := (
    unfold FrameOf
    unfold State.slotLinkDown
    try dsimp only
    repeat' first
      | (with_reducible assumption) | ((with_reducible refine sub_step (by assumption) ?_); first | rfl | decide)
      | (with_reducible refine sub_flds ?_ ?_) | (with_reducible exact sub_zero) | (with_reducible apply forEach_fr)
      | (with_reducible apply settleAll_fr) | (with_reducible apply slotEvent_fr) | (with_reducible apply wrAll_fr)
      | (with_reducible apply xferFail_fr) | (split) | (intro _) | (refine frame_fst ?_ (by assumption)) | (dsimp only)
      | (with_reducible apply frame_any))) only [framed]

theorem startSettle_fr {E : Nat} {s0 s : State} (h : Frame E s0 s) (hE : Sub 0xb2a002 E := by first | assumption | exact sub_step (by assumption) (by decide)) :
    Frame E s0 (State.startSettle s) := by
  simp (disch := (
    unfold FrameOf
    unfold State.startSettle
    try dsimp only
    repeat' first
      | (with_reducible assumption) | ((with_reducible refine sub_step (by assumption) ?_); first | rfl | decide)
      | (with_reducible apply armIn_fr) | (with_reducible apply settle_fr) | (with_reducible apply slotEvent_fr)
      | (with_reducible apply wr_fr) | (split) | (intro _) | (refine frame_fst ?_ (by assumption)) | (dsimp only)
      | (with_reducible apply frame_any))) only [framed]

theorem freeze_fr {E : Nat} {s0 s : State} (h : Frame E s0 s) {cause : Nat} (hE : Sub 0x6f2b43b E := by first | assumption | exact sub_step (by assumption) (by decide)) :
    Frame E s0 (State.freeze s cause) := by
  simp (disch := (
    unfold FrameOf
    unfold State.freeze
    try dsimp only
    repeat' first
      | (with_reducible assumption) | ((with_reducible refine sub_step (by assumption) ?_); first | rfl | decide)
      | (with_reducible refine sub_flds ?_ ?_) | (with_reducible exact sub_zero) | (with_reducible apply slotLinkDown_fr)
      | (with_reducible apply slotVec_fr) | (with_reducible apply wrAll_fr) | (split) | (intro _)
      | (refine frame_fst ?_ (by assumption)) | (dsimp only) | (with_reducible apply frame_any))) only [framed]

theorem slotError_fr {E : Nat} {s0 s : State} (h : Frame E s0 s) {cause : Nat} (hE : Sub 0x6f2b43b E := by first | assumption | exact sub_step (by assumption) (by decide)) :
    Frame E s0 (State.slotError s cause) := by
  simp (disch := (
    unfold FrameOf
    unfold State.slotError
    try dsimp only
    repeat' first
      | (with_reducible assumption) | ((with_reducible refine sub_step (by assumption) ?_); first | rfl | decide)
      | (with_reducible apply emit_fr) | (with_reducible apply freeze_fr) | (with_reducible apply logRec_fr) | (split)
      | (intro _) | (refine frame_fst ?_ (by assumption)) | (dsimp only) | (with_reducible apply frame_any))) only [framed]

theorem updEf_fr {E : Nat} {s0 s : State} (h : Frame E s0 s) {c : Nat} {f : EfSt → EfSt} :
    Frame E s0 (State.updEf s c f) := by
  simp (disch := (
    unfold FrameOf
    unfold State.updEf
    try dsimp only
    repeat' first
      | (with_reducible assumption) | (split) | (intro _) | (refine frame_fst ?_ (by assumption)) | (dsimp only)
      | (with_reducible apply frame_any))) only [framed]

theorem efPgClear_fr {E : Nat} {s0 s : State} (h : Frame E s0 s) {c : Nat} (hE : Sub 0x80000 E := by first | assumption | exact sub_step (by assumption) (by decide)) :
    Frame E s0 (State.efPgClear s c) := by
  simp (disch := (
    unfold FrameOf
    unfold State.efPgClear
    try dsimp only
    repeat' first
      | (with_reducible assumption) | ((with_reducible refine sub_step (by assumption) ?_); first | rfl | decide)
      | (with_reducible apply emit_fr) | (with_reducible apply wr_fr) | (split) | (intro _)
      | (refine frame_fst ?_ (by assumption)) | (dsimp only) | (with_reducible apply frame_any))) only [framed]

theorem efStart_fr {E : Nat} {s0 s : State} (h : Frame E s0 s) {c : Nat} (hE : Sub 0x80000 E := by first | assumption | exact sub_step (by assumption) (by decide)) :
    Frame E s0 (State.efStart s c) := by
  simp (disch := (
    unfold FrameOf
    unfold State.efStart
    try dsimp only
    repeat' first
      | (with_reducible assumption) | ((with_reducible refine sub_step (by assumption) ?_); first | rfl | decide)
      | (with_reducible refine sub_flds ?_ ?_) | (with_reducible exact sub_zero) | (with_reducible apply emit_fr)
      | (with_reducible apply updEf_fr) | (with_reducible apply wrAll_fr) | (split) | (intro _)
      | (refine frame_fst ?_ (by assumption)) | (dsimp only) | (with_reducible apply frame_any))) only [framed]

theorem efLeave_fr {E : Nat} {s0 s : State} (h : Frame E s0 s) {c : Nat} {st : Nat} (hE : Sub 0x80000 E := by first | assumption | exact sub_step (by assumption) (by decide)) :
    Frame E s0 (State.efLeave s c st) := by
  simp (disch := (
    unfold FrameOf
    unfold State.efLeave
    try dsimp only
    repeat' first
      | (with_reducible assumption) | ((with_reducible refine sub_step (by assumption) ?_); first | rfl | decide)
      | (with_reducible refine sub_flds ?_ ?_) | (with_reducible exact sub_zero) | (with_reducible apply disarm_fr)
      | (with_reducible apply efPgClear_fr) | (with_reducible apply emit_fr) | (with_reducible apply wrAll_fr) | (split)
      | (intro _) | (refine frame_fst ?_ (by assumption)) | (dsimp only) | (with_reducible apply frame_any))) only [framed]

theorem efStop_fr {E : Nat} {s0 s : State} (h : Frame E s0 s) {c : Nat} (hE : Sub 0x80000 E := by first | assumption | exact sub_step (by assumption) (by decide)) :
    Frame E s0 (State.efStop s c) := by
  simp (disch := (
    unfold FrameOf
    unfold State.efStop
    try dsimp only
    repeat' first
      | (with_reducible assumption) | ((with_reducible refine sub_step (by assumption) ?_); first | rfl | decide)
      | (with_reducible apply efLeave_fr) | (split) | (intro _) | (refine frame_fst ?_ (by assumption)) | (dsimp only)
      | (with_reducible apply frame_any))) only [framed]

theorem slotOff_fr {E : Nat} {s0 s : State} (h : Frame E s0 s) (hE : Sub 0x6fab43b E := by first | assumption | exact sub_step (by assumption) (by decide)) :
    Frame E s0 (State.slotOff s) := by
  simp (disch := (
    unfold FrameOf
    unfold State.slotOff
    try dsimp only
    repeat' first
      | (with_reducible assumption) | ((with_reducible refine sub_step (by assumption) ?_); first | rfl | decide)
      | (with_reducible apply disarm_fr) | (with_reducible apply efStop_fr) | (with_reducible apply emit_fr)
      | (with_reducible apply slotLinkDown_fr) | (with_reducible apply startSettle_fr) | (with_reducible apply wr_fr) | (split)
      | (intro _) | (refine frame_fst ?_ (by assumption)) | (dsimp only) | (with_reducible apply frame_any))) only [framed]

theorem efTrip_fr {E : Nat} {s0 s : State} (h : Frame E s0 s) {c : Nat} {cause : Nat} (hE : Sub 0x6fab43b E := by first | assumption | exact sub_step (by assumption) (by decide)) :
    Frame E s0 (State.efTrip s c cause) := by
  simp (disch := (
    unfold FrameOf
    unfold State.efTrip
    try dsimp only
    repeat' first
      | (with_reducible assumption) | ((with_reducible refine sub_step (by assumption) ?_); first | rfl | decide)
      | (with_reducible refine sub_flds ?_ ?_) | (with_reducible exact sub_zero) | (with_reducible apply disarm_fr)
      | (with_reducible apply efLeave_fr) | (with_reducible apply emit_fr) | (with_reducible apply raise_fr)
      | (with_reducible apply slotEvent_fr) | (with_reducible apply slotLinkDown_fr) | (with_reducible apply startSettle_fr)
      | (with_reducible apply wr_fr) | (with_reducible apply wrAll_fr) | (split) | (intro _)
      | (refine frame_fst ?_ (by assumption)) | (dsimp only) | (with_reducible apply frame_any))) only [framed]

theorem efRegulate_fr {E : Nat} {s0 s : State} (h : Frame E s0 s) {c : Nat} {on : Bool} (hE : Sub 0x80000 E := by first | assumption | exact sub_step (by assumption) (by decide)) :
    Frame E s0 (State.efRegulate s c on) := by
  simp (disch := (
    unfold FrameOf
    unfold State.efRegulate
    try dsimp only
    repeat' first
      | (with_reducible assumption) | ((with_reducible refine sub_step (by assumption) ?_); first | rfl | decide)
      | (with_reducible apply armIn_fr) | (with_reducible apply disarm_fr) | (with_reducible apply updEf_fr)
      | (with_reducible apply wr_fr) | (split) | (intro _) | (refine frame_fst ?_ (by assumption)) | (dsimp only)
      | (with_reducible apply frame_any))) only [framed]

theorem efUpdate_fr {E : Nat} {s0 s : State} (h : Frame E s0 s) {c : Nat} {vin : Nat} {vout : Nat} {iout : Nat} {diode : Nat} (hE : Sub 0xcc000 E := by first | assumption | exact sub_step (by assumption) (by decide)) :
    Frame E s0 (State.efUpdate s c vin vout iout diode) := by
  simp (disch := (
    unfold FrameOf
    unfold State.efUpdate
    try dsimp only
    repeat' first
      | (with_reducible assumption) | ((with_reducible refine sub_step (by assumption) ?_); first | rfl | decide)
      | (with_reducible refine sub_flds ?_ ?_) | (with_reducible exact sub_zero) | (with_reducible apply freeNext_fr)
      | (with_reducible apply sensorTake_fr) | (with_reducible apply updEf_fr) | (with_reducible apply wr_fr)
      | (with_reducible apply wrAll_fr) | (split) | (intro _) | (refine frame_fst ?_ (by assumption)) | (dsimp only)
      | (with_reducible apply frame_any))) only [framed]

end Sys2Proof.Laws
end

