-- ==== Sys2Proof/Laws/FrFaults.lean ====
section
/-! SUPPORT. The frame of every operation of Machine/Faults.lean (`Laws.Frame`). -/

namespace Sys2Proof.Laws

open Sys2Proof.Machine

set_option linter.all false
set_option Elab.async false

theorem execFaultAssertion_fr {E : Nat} {s0 s : State} (h : Frame E s0 s) {src : Nat} (hE : Sub 0x6f3b4fb E := by first | assumption | exact sub_step (by assumption) (by decide)) :
    OFrame E s0 (execFaultAssertion src s) := by
  simp (disch := (
    unfold OFrameOf
    unfold execFaultAssertion
    try dsimp only
    repeat' first
      | (with_reducible apply OFrame.next) | (with_reducible assumption)
      | ((with_reducible refine sub_step (by assumption) ?_); first | rfl | decide) | (with_reducible apply faultAssert_fr)
      | (with_reducible apply whenRef_fr) | (split) | (intro _) | (refine frame_fst ?_ (by assumption)) | (dsimp only)
      | (with_reducible apply frame_any))) only [oframed]

theorem wireAssert_fr {E : Nat} {s0 s : State} (h : Frame E s0 s) {src : Nat} {forced : Bool} (hE : Sub 0x6f3b4fb E := by first | assumption | exact sub_step (by assumption) (by decide)) :
    Frame E s0 (State.wireAssert s src forced) := by
  simp (disch := (
    unfold FrameOf
    unfold State.wireAssert
    try dsimp only
    repeat' first
      | (with_reducible assumption) | ((with_reducible refine sub_step (by assumption) ?_); first | rfl | decide)
      | (with_reducible apply faultAssert_fr) | (with_reducible apply wr_fr) | (split) | (intro _)
      | (refine frame_fst ?_ (by assumption)) | (dsimp only) | (with_reducible apply frame_any))) only [framed]

theorem execWireFault_fr {E : Nat} {s0 s : State} (h : Frame E s0 s) {src : Nat} (hE : Sub 0x6f3b4fb E := by first | assumption | exact sub_step (by assumption) (by decide)) :
    OFrame E s0 (execWireFault src s) := by
  simp (disch := (
    unfold OFrameOf
    unfold execWireFault
    try dsimp only
    repeat' first
      | (with_reducible apply OFrame.next) | (with_reducible assumption)
      | ((with_reducible refine sub_step (by assumption) ?_); first | rfl | decide) | (with_reducible apply whenRef_fr)
      | (with_reducible apply wireAssert_fr) | (split) | (intro _) | (refine frame_fst ?_ (by assumption)) | (dsimp only)
      | (with_reducible apply frame_any))) only [oframed]

theorem forceSrc_fr {E : Nat} {s0 s : State} (h : Frame E s0 s) {src : Nat} {act : State → State} (h_act : ∀ z0, Frame E s0 z0 → Frame E s0 (act z0)) (hE : Sub 0x8000 E := by first | assumption | exact sub_step (by assumption) (by decide)) :
    Frame E s0 (State.forceSrc s src act) := by
  simp (disch := (
    unfold FrameOf
    unfold State.forceSrc
    try dsimp only
    repeat' first
      | (with_reducible assumption) | ((with_reducible refine sub_step (by assumption) ?_); first | rfl | decide)
      | (with_reducible apply logRejected_fr) | (with_reducible apply h_act) | (split) | (intro _)
      | (refine frame_fst ?_ (by assumption)) | (dsimp only) | (with_reducible apply frame_any))) only [framed]

theorem execFtForceAssert_fr {E : Nat} {s0 s : State} (h : Frame E s0 s) {src : Nat} (hE : Sub 0x6f3b4fb E := by first | assumption | exact sub_step (by assumption) (by decide)) :
    OFrame E s0 (execFtForceAssert src s) := by
  simp (disch := (
    unfold OFrameOf
    unfold execFtForceAssert
    try dsimp only
    repeat' first
      | (with_reducible apply OFrame.next) | (with_reducible assumption)
      | ((with_reducible refine sub_step (by assumption) ?_); first | rfl | decide) | (with_reducible apply faultAssert_fr)
      | (with_reducible apply forceSrc_fr) | (with_reducible apply whenRef_fr) | (split) | (intro _)
      | (refine frame_fst ?_ (by assumption)) | (dsimp only) | (with_reducible apply frame_any))) only [oframed]

theorem execFtForceWire_fr {E : Nat} {s0 s : State} (h : Frame E s0 s) {src : Nat} (hE : Sub 0x6f3b4fb E := by first | assumption | exact sub_step (by assumption) (by decide)) :
    OFrame E s0 (execFtForceWire src s) := by
  simp (disch := (
    unfold OFrameOf
    unfold execFtForceWire
    try dsimp only
    repeat' first
      | (with_reducible apply OFrame.next) | (with_reducible assumption)
      | ((with_reducible refine sub_step (by assumption) ?_); first | rfl | decide) | (with_reducible apply forceSrc_fr)
      | (with_reducible apply whenRef_fr) | (with_reducible apply wireAssert_fr) | (split) | (intro _)
      | (refine frame_fst ?_ (by assumption)) | (dsimp only) | (with_reducible apply frame_any))) only [oframed]

theorem setReact_fr {E : Nat} {s0 s : State} (h : Frame E s0 s) {src : Nat} {r : Nat} (hE : Sub 0x10000 E := by first | assumption | exact sub_step (by assumption) (by decide)) :
    Frame E s0 (State.setReact s src r) := by
  simp (disch := (
    unfold FrameOf
    unfold State.setReact
    try dsimp only
    repeat' first
      | (with_reducible assumption) | ((with_reducible refine sub_step (by assumption) ?_); first | rfl | decide)
      | (with_reducible apply wr_fr) | (split) | (intro _) | (refine frame_fst ?_ (by assumption)) | (dsimp only)
      | (with_reducible apply frame_any))) only [framed]

theorem writeFtSrc_fr {E : Nat} {s0 s : State} (h : Frame E s0 s) {src : Nat} {w : Nat} (hE : Sub 0x6f3b4fb E := by first | assumption | exact sub_step (by assumption) (by decide)) :
    Frame E s0 (State.writeFtSrc s src w) := by
  simp (disch := (
    unfold FrameOf
    unfold State.writeFtSrc
    try dsimp only
    repeat' first
      | (with_reducible assumption) | ((with_reducible refine sub_step (by assumption) ?_); first | rfl | decide)
      | (with_reducible apply faultAssert_fr) | (with_reducible apply forceSrc_fr) | (with_reducible apply setReact_fr)
      | (with_reducible apply w1c_fr) | (with_reducible apply wireAssert_fr) | (split) | (intro _)
      | (refine frame_fst ?_ (by assumption)) | (dsimp only) | (with_reducible apply frame_any))) only [framed]

theorem execFtReactWrite_fr {E : Nat} {s0 s : State} (h : Frame E s0 s) {src : Nat} {v : Nat} (hE : Sub 0x6f3b4fb E := by first | assumption | exact sub_step (by assumption) (by decide)) :
    OFrame E s0 (execFtReactWrite src v s) := by
  simp (disch := (
    unfold OFrameOf
    unfold execFtReactWrite
    try dsimp only
    repeat' first
      | (with_reducible apply OFrame.next) | (with_reducible assumption)
      | ((with_reducible refine sub_step (by assumption) ?_); first | rfl | decide) | (with_reducible apply whenRef_fr)
      | (with_reducible apply writeFtSrc_fr) | (split) | (intro _) | (refine frame_fst ?_ (by assumption)) | (dsimp only)
      | (with_reducible apply frame_any))) only [oframed]

theorem execFtSrcRead_fr {E : Nat} {s0 s : State} (h : Frame E s0 s) {src : Nat} (hE : Sub 0x10000 E := by first | assumption | exact sub_step (by assumption) (by decide)) :
    OFrame E s0 (execFtSrcRead src s) := by
  simp (disch := (
    unfold OFrameOf
    unfold execFtSrcRead
    try dsimp only
    repeat' first
      | (with_reducible apply OFrame.next) | (with_reducible assumption)
      | ((with_reducible refine sub_step (by assumption) ?_); first | rfl | decide) | (with_reducible apply readOut_fr)
      | (with_reducible apply whenRef_fr) | (split) | (intro _) | (refine frame_fst ?_ (by assumption)) | (dsimp only)
      | (with_reducible apply frame_any))) only [oframed]

theorem execFatalEntry_fr {E : Nat} {s0 s : State} (h : Frame E s0 s) {src : Nat} (hE : Sub 0x6f3b43b E := by first | assumption | exact sub_step (by assumption) (by decide)) :
    OFrame E s0 (execFatalEntry src s) := by
  simp (disch := (
    unfold OFrameOf
    unfold execFatalEntry
    try dsimp only
    repeat' first
      | (with_reducible apply OFrame.next) | (with_reducible assumption)
      | ((with_reducible refine sub_step (by assumption) ?_); first | rfl | decide) | (with_reducible apply enterFatal_fr)
      | (with_reducible apply whenUp_fr) | (split) | (intro _) | (refine frame_fst ?_ (by assumption)) | (dsimp only)
      | (with_reducible apply frame_any))) only [oframed]

theorem execCollectorSelfCheckFail_fr {E : Nat} {s0 s : State} (h : Frame E s0 s)  :
    OFrame E s0 (execCollectorSelfCheckFail s) := by
  simp (disch := (
    unfold OFrameOf
    unfold execCollectorSelfCheckFail
    try dsimp only
    repeat' first
      | (with_reducible apply OFrame.next) | (with_reducible assumption) | (with_reducible apply emit_fr)
      | (with_reducible apply whenRef_fr) | (split) | (intro _) | (refine frame_fst ?_ (by assumption)) | (dsimp only)
      | (with_reducible apply frame_any))) only [oframed]

end Sys2Proof.Laws
end

