-- ==== Sys2Proof/Laws/FrIdle.lean ====
section
/-! SUPPORT. The frame of every operation of Machine/Idle.lean (`Laws.Frame`). -/

namespace Sys2Proof.Laws

open Sys2Proof.Machine

set_option linter.all false
set_option Elab.async false

theorem tick_fr {E : Nat} {s0 s : State} (h : Frame E s0 s) (hE : Sub 0x20000 E := by first | assumption | exact sub_step (by assumption) (by decide)) :
    Frame E s0 (State.tick s) := by
  simp (disch := (
    unfold FrameOf
    unfold State.tick
    try dsimp only
    repeat' first
      | (with_reducible assumption) | ((with_reducible refine sub_step (by assumption) ?_); first | rfl | decide)
      | (with_reducible apply setNow_fr) | (split) | (intro _) | (refine frame_fst ?_ (by assumption)) | (dsimp only)
      | (with_reducible apply frame_any))) only [framed]

end Sys2Proof.Laws
end

