-- ==== Sys2Proof/Laws/FrKeyOps.lean ====
section
/-! SUPPORT. The frame of every operation of Machine/KeyOps.lean (`Laws.Frame`). -/

namespace Sys2Proof.Laws

open Sys2Proof.Machine

set_option linter.all false
set_option Elab.async false

theorem privRow_fr {E : Nat} {s0 s : State} (h : Frame E s0 s) {src : CmdSrc} {op : PrivOp} {p : Priv} {x : PrivData} {body : State → State × Option Nat} (h_body : ∀ z0, Frame E s0 z0 → Frame E s0 (body z0).1) (hE : Sub 0xb28002 E := by first | assumption | exact sub_step (by assumption) (by decide)) :
    OFrame E s0 (State.privRow s src op p x body) := by
  simp (disch := (
    unfold OFrameOf
    unfold State.privRow
    try dsimp only
    repeat' first
      | (with_reducible apply OFrame.next) | (with_reducible assumption)
      | ((with_reducible refine sub_step (by assumption) ?_); first | rfl | decide) | (with_reducible apply mgTake_fr)
      | (with_reducible apply runPriv_fr) | (with_reducible apply whenUp_fr) | (with_reducible apply h_body) | (split)
      | (intro _) | (refine frame_fst ?_ (by assumption)) | (dsimp only) | (with_reducible apply frame_any))) only [oframed]

theorem extendMeas_fr {E : Nat} {s0 s : State} (h : Frame E s0 s) {slot : Nat} {digest : List Byte} (hE : Sub 0x400 E := by first | assumption | exact sub_step (by assumption) (by decide)) :
    Frame E s0 (State.extendMeas s slot digest) := by
  simp (disch := (
    unfold FrameOf
    unfold State.extendMeas
    try dsimp only
    repeat' first
      | (with_reducible assumption) | ((with_reducible refine sub_step (by assumption) ?_); first | rfl | decide)
      | (with_reducible apply slot_fr) | (split) | (intro _) | (refine frame_fst ?_ (by assumption)) | (dsimp only)
      | (with_reducible apply frame_any))) only [framed]

theorem sendMg_fr {E : Nat} {s0 s : State} (h : Frame E s0 s) {node : Nat} {ty : Nat} {m : MgBody} :
    Frame E s0 (State.sendMg s node ty m) := by
  simp (disch := (
    unfold FrameOf
    unfold State.sendMg
    try dsimp only
    repeat' first
      | (with_reducible assumption) | (with_reducible apply emit_fr) | (split) | (intro _)
      | (refine frame_fst ?_ (by assumption)) | (dsimp only) | (with_reducible apply frame_any))) only [framed]

theorem sealOut_fr {E : Nat} {s0 s : State} (h : Frame E s0 s) {j : Nat} (hE : Sub 0xb20000 E := by first | assumption | exact sub_step (by assumption) (by decide)) :
    Frame E s0 (State.sealOut s j) := by
  simp (disch := (
    unfold FrameOf
    unfold State.sealOut
    try dsimp only
    repeat' first
      | (with_reducible assumption) | ((with_reducible refine sub_step (by assumption) ?_); first | rfl | decide)
      | (with_reducible apply askSegs_fr) | (with_reducible apply freeNext_fr) | (with_reducible apply writeLoc_fr) | (split)
      | (intro _) | (refine frame_fst ?_ (by assumption)) | (dsimp only) | (with_reducible apply frame_any))) only [framed]

theorem takeSlot_fr {E : Nat} {s0 s : State} (h : Frame E s0 s) {j : Nat} {jobId : Nat} {b : JobBlock} {t : Token} {p : Priv} {src : CmdSrc} (hE : Sub 0x2b21001 E := by first | assumption | exact sub_step (by assumption) (by decide)) :
    Frame E s0 (State.takeSlot s j jobId b t p src) := by
  simp (disch := (
    unfold FrameOf
    unfold State.takeSlot
    try dsimp only
    repeat' first
      | (with_reducible assumption) | ((with_reducible refine sub_step (by assumption) ?_); first | rfl | decide)
      | (with_reducible refine sub_flds ?_ ?_) | (with_reducible exact sub_zero) | (with_reducible apply forEach_fr)
      | (with_reducible apply sealOut_fr) | (with_reducible apply wr_fr) | (with_reducible apply wrAll_fr) | (split) | (intro _)
      | (refine frame_fst ?_ (by assumption)) | (dsimp only) | (with_reducible apply frame_any)
      | (with_reducible apply frame_jobs))) only [framed]

theorem genTimers_fr {E : Nat} {s0 s : State} (h : Frame E s0 s) {j : Nat} :
    Frame E s0 (State.genTimers s j) := by
  simp (disch := (
    unfold FrameOf
    unfold State.genTimers
    try dsimp only
    repeat' first
      | (with_reducible assumption) | (with_reducible apply arm_fr) | (split) | (intro _)
      | (refine frame_fst ?_ (by assumption)) | (dsimp only) | (with_reducible apply frame_any))) only [framed]

theorem installKey_fr {E : Nat} {s0 s : State} (h : Frame E s0 s) {j : Nat} {gen : Nat} {start : Nat} {key : Nat} (hE : Sub 0x2b28003 E := by first | assumption | exact sub_step (by assumption) (by decide)) :
    Frame E s0 (State.installKey s j gen start key) := by
  simp (disch := (
    unfold FrameOf
    unfold State.installKey
    try dsimp only
    repeat' first
      | (with_reducible assumption) | ((with_reducible refine sub_step (by assumption) ?_); first | rfl | decide)
      | (with_reducible apply disarmAll_fr) | (with_reducible apply endPriv_fr) | (with_reducible apply genTimers_fr)
      | (with_reducible apply sealOut_fr) | (with_reducible apply updJob_fr) | (with_reducible apply wr_fr) | (split)
      | (intro _) | (refine frame_fst ?_ (by assumption)) | (dsimp only) | (with_reducible apply frame_any))) only [framed]

theorem askKey_fr {E : Nat} {s0 s : State} (h : Frame E s0 s) {j : Nat} {pos : Nat} {want : Option Nat} (hE : Sub 0x2000000 E := by first | assumption | exact sub_step (by assumption) (by decide)) :
    Frame E s0 (State.askKey s j pos want) := by
  simp (disch := (
    unfold FrameOf
    unfold State.askKey
    try dsimp only
    repeat' first
      | (with_reducible assumption) | ((with_reducible refine sub_step (by assumption) ?_); first | rfl | decide)
      | (with_reducible apply freeNext_fr) | (with_reducible apply sendMg_fr) | (with_reducible apply updJob_fr) | (split)
      | (intro _) | (refine frame_fst ?_ (by assumption)) | (dsimp only) | (with_reducible apply frame_any))) only [framed]

theorem sendKeyReq_fr {E : Nat} {s0 s : State} (h : Frame E s0 s) {j : Nat} (hE : Sub 0x2000000 E := by first | assumption | exact sub_step (by assumption) (by decide)) :
    Frame E s0 (State.sendKeyReq s j) := by
  simp (disch := (
    unfold FrameOf
    unfold State.sendKeyReq
    try dsimp only
    repeat' first
      | (with_reducible assumption) | ((with_reducible refine sub_step (by assumption) ?_); first | rfl | decide)
      | (with_reducible apply armIn_fr) | (with_reducible apply askKey_fr) | (split) | (intro _)
      | (refine frame_fst ?_ (by assumption)) | (dsimp only) | (with_reducible apply frame_any))) only [framed]

theorem bodyJobOpen_fr {E : Nat} {s0 s : State} (h : Frame E s0 s) {src : CmdSrc} {p : Priv} {x : PrivData} (hE : Sub 0x2b29003 E := by first | assumption | exact sub_step (by assumption) (by decide)) :
    Frame E s0 (State.bodyJobOpen s src p x).1 := by
  simp (disch := (
    unfold FrameOf
    unfold State.bodyJobOpen
    try dsimp only
    repeat' first
      | (with_reducible assumption) | ((with_reducible refine sub_step (by assumption) ?_); first | rfl | decide)
      | (with_reducible apply arm_fr) | (with_reducible apply checkToken_fr) | (with_reducible apply freeNext_fr)
      | (with_reducible apply installKey_fr) | (with_reducible apply sealOut_fr) | (with_reducible apply sendKeyReq_fr)
      | (with_reducible apply takeSlot_fr) | (split) | (intro _) | (refine frame_fst ?_ (by assumption)) | (dsimp only)
      | (with_reducible apply frame_any))) only [framed]

theorem noteGen_fr {E : Nat} {s0 s : State} (h : Frame E s0 s) {jobId : Nat} {gen : Nat} :
    Frame E s0 (State.noteGen s jobId gen) := by
  simp (disch := (
    unfold FrameOf
    unfold State.noteGen
    try dsimp only
    repeat' first
      | (with_reducible assumption) | (split) | (intro _) | (refine frame_fst ?_ (by assumption)) | (dsimp only)
      | (with_reducible apply frame_any))) only [framed]

theorem installBlob_fr {E : Nat} {s0 s : State} (h : Frame E s0 s) {src : CmdSrc} {p : Priv} {t : Token} {bs : List Byte} {b : JobBlock} (hE : Sub 0x2b29003 E := by first | assumption | exact sub_step (by assumption) (by decide)) :
    Frame E s0 (State.installBlob s src p t bs b).1 := by
  simp (disch := (
    unfold FrameOf
    unfold State.installBlob
    try dsimp only
    repeat' first
      | (with_reducible assumption) | ((with_reducible refine sub_step (by assumption) ?_); first | rfl | decide)
      | (with_reducible apply installKey_fr) | (with_reducible apply noteGen_fr) | (with_reducible apply takeSlot_fr)
      | (with_reducible apply wr_fr) | (split) | (intro _) | (refine frame_fst ?_ (by assumption)) | (dsimp only)
      | (with_reducible apply frame_any))) only [framed]

theorem bodyKeyInstall_fr {E : Nat} {s0 s : State} (h : Frame E s0 s) {src : CmdSrc} {p : Priv} {x : PrivData} (hE : Sub 0x2b29003 E := by first | assumption | exact sub_step (by assumption) (by decide)) :
    Frame E s0 (State.bodyKeyInstall s src p x).1 := by
  simp (disch := (
    unfold FrameOf
    unfold State.bodyKeyInstall
    try dsimp only
    repeat' first
      | (with_reducible assumption) | ((with_reducible refine sub_step (by assumption) ?_); first | rfl | decide)
      | (with_reducible apply checkToken_fr) | (with_reducible apply installBlob_fr) | (with_reducible apply sealOut_fr)
      | (split) | (intro _) | (refine frame_fst ?_ (by assumption)) | (dsimp only) | (with_reducible apply frame_any))) only [framed]

theorem bodyJobClose_fr {E : Nat} {s0 s : State} (h : Frame E s0 s) {src : CmdSrc} {p : Priv} {x : PrivData} (hE : Sub 0x6f2b43b E := by first | assumption | exact sub_step (by assumption) (by decide)) :
    Frame E s0 (State.bodyJobClose s src p x).1 := by
  simp (disch := (
    unfold FrameOf
    unfold State.bodyJobClose
    try dsimp only
    repeat' first
      | (with_reducible assumption) | ((with_reducible refine sub_step (by assumption) ?_); first | rfl | decide)
      | (with_reducible apply beginClose_fr) | (with_reducible apply checkToken_fr) | (with_reducible apply closeProgress_fr)
      | (with_reducible apply forEach_fr) | (with_reducible apply haltQueue_fr) | (with_reducible apply jobToken_fr)
      | (with_reducible apply settleAll_fr) | (split) | (intro _) | (refine frame_fst ?_ (by assumption)) | (dsimp only)
      | (with_reducible apply frame_any))) only [framed]

theorem answerKey_fr {E : Nat} {s0 s : State} (h : Frame E s0 s) {j : Nat} {node : Nat} {gen : Nat} {key : Nat} {m : KeyMsg} (hE : Sub 0x20000 E := by first | assumption | exact sub_step (by assumption) (by decide)) :
    Frame E s0 (State.answerKey s j node gen key m) := by
  simp (disch := (
    unfold FrameOf
    unfold State.answerKey
    try dsimp only
    repeat' first
      | (with_reducible assumption) | ((with_reducible refine sub_step (by assumption) ?_); first | rfl | decide)
      | (with_reducible apply count_fr) | (with_reducible apply freeNext_fr) | (with_reducible apply sendMg_fr) | (split)
      | (intro _) | (refine frame_fst ?_ (by assumption)) | (dsimp only) | (with_reducible apply frame_any))) only [framed]

theorem keyReqIn_fr {E : Nat} {s0 s : State} (h : Frame E s0 s) {jobId : Nat} {node : Nat} {serial : Nat} {m : KeyMsg} (hE : Sub 0x20000 E := by first | assumption | exact sub_step (by assumption) (by decide)) :
    Frame E s0 (State.keyReqIn s jobId node serial m) := by
  simp (disch := (
    unfold FrameOf
    unfold State.keyReqIn
    try dsimp only
    repeat' first
      | (with_reducible assumption) | ((with_reducible refine sub_step (by assumption) ?_); first | rfl | decide)
      | (with_reducible apply answerKey_fr) | (with_reducible apply count_fr) | (with_reducible apply sendMg_fr) | (split)
      | (intro _) | (refine frame_fst ?_ (by assumption)) | (dsimp only) | (with_reducible apply frame_any))) only [framed]

theorem keyUnanswered_fr {E : Nat} {s0 s : State} (h : Frame E s0 s) {j : Nat} (hE : Sub 0x2000000 E := by first | assumption | exact sub_step (by assumption) (by decide)) :
    Frame E s0 (State.keyUnanswered s j) := by
  simp (disch := (
    unfold FrameOf
    unfold State.keyUnanswered
    try dsimp only
    repeat' first
      | (with_reducible assumption) | ((with_reducible refine sub_step (by assumption) ?_); first | rfl | decide)
      | (with_reducible apply sendKeyReq_fr) | (with_reducible apply updJob_fr) | (split) | (intro _)
      | (refine frame_fst ?_ (by assumption)) | (dsimp only) | (with_reducible apply frame_any))) only [framed]

theorem distribute_fr {E : Nat} {s0 s : State} (h : Frame E s0 s) {j : Nat} {kids : List Nat} (hE : Sub 0x20000 E := by first | assumption | exact sub_step (by assumption) (by decide)) :
    Frame E s0 (State.distribute s j kids) := by
  simp (disch := (
    unfold FrameOf
    unfold State.distribute
    try dsimp only
    repeat' first
      | (with_reducible assumption) | ((with_reducible refine sub_step (by assumption) ?_); first | rfl | decide)
      | (with_reducible apply count_fr) | (with_reducible apply forEach_fr) | (with_reducible apply freeNext_fr)
      | (with_reducible apply sendMg_fr) | (split) | (intro _) | (refine frame_fst ?_ (by assumption)) | (dsimp only)
      | (with_reducible apply frame_any))) only [framed]

theorem takeSwitch_fr {E : Nat} {s0 s : State} (h : Frame E s0 s) {j : Nat} {t : Nat} (hE : Sub 0x2000000 E := by first | assumption | exact sub_step (by assumption) (by decide)) :
    Frame E s0 (State.takeSwitch s j t) := by
  simp (disch := (
    unfold FrameOf
    unfold State.takeSwitch
    try dsimp only
    repeat' first
      | (with_reducible assumption) | ((with_reducible refine sub_step (by assumption) ?_); first | rfl | decide)
      | (with_reducible apply arm_fr) | (with_reducible apply disarm_fr) | (with_reducible apply emits_fr)
      | (with_reducible apply updJob_fr) | (split) | (intro _) | (refine frame_fst ?_ (by assumption)) | (dsimp only)
      | (with_reducible apply frame_any))) only [framed]

theorem sendConfirm_fr {E : Nat} {s0 s : State} (h : Frame E s0 s) {j : Nat} :
    Frame E s0 (State.sendConfirm s j) := by
  simp (disch := (
    unfold FrameOf
    unfold State.sendConfirm
    try dsimp only
    repeat' first
      | (with_reducible assumption) | (with_reducible apply emit_fr) | (split) | (intro _)
      | (refine frame_fst ?_ (by assumption)) | (dsimp only) | (with_reducible apply frame_any))) only [framed]

theorem confirmGen_fr {E : Nat} {s0 s : State} (h : Frame E s0 s) {j : Nat} (hE : Sub 0x2000000 E := by first | assumption | exact sub_step (by assumption) (by decide)) :
    Frame E s0 (State.confirmGen s j) := by
  simp (disch := (
    unfold FrameOf
    unfold State.confirmGen
    try dsimp only
    repeat' first
      | (with_reducible assumption) | ((with_reducible refine sub_step (by assumption) ?_); first | rfl | decide)
      | (with_reducible apply sendConfirm_fr) | (with_reducible apply takeSwitch_fr) | (with_reducible apply updJob_fr)
      | (split) | (intro _) | (refine frame_fst ?_ (by assumption)) | (dsimp only) | (with_reducible apply frame_any))) only [framed]

theorem holdNext_fr {E : Nat} {s0 s : State} (h : Frame E s0 s) {j : Nat} {gen : Nat} {key : Nat} (hE : Sub 0x2020001 E := by first | assumption | exact sub_step (by assumption) (by decide)) :
    Frame E s0 (State.holdNext s j gen key) := by
  simp (disch := (
    unfold FrameOf
    unfold State.holdNext
    try dsimp only
    repeat' first
      | (with_reducible assumption) | ((with_reducible refine sub_step (by assumption) ?_); first | rfl | decide)
      | (with_reducible apply confirmGen_fr) | (with_reducible apply distribute_fr) | (with_reducible apply noteGen_fr)
      | (with_reducible apply setFlag_fr) | (with_reducible apply updJob_fr) | (split) | (intro _)
      | (refine frame_fst ?_ (by assumption)) | (dsimp only) | (with_reducible apply frame_any))) only [framed]

theorem noticeIn_fr {E : Nat} {s0 s : State} (h : Frame E s0 s) {j : Nat} {gen : Nat} (hE : Sub 0x2020000 E := by first | assumption | exact sub_step (by assumption) (by decide)) :
    Frame E s0 (State.noticeIn s j gen) := by
  simp (disch := (
    unfold FrameOf
    unfold State.noticeIn
    try dsimp only
    repeat' first
      | (with_reducible assumption) | ((with_reducible refine sub_step (by assumption) ?_); first | rfl | decide)
      | (with_reducible apply askKey_fr) | (with_reducible apply distribute_fr) | (with_reducible apply sendConfirm_fr)
      | (split) | (intro _) | (refine frame_fst ?_ (by assumption)) | (dsimp only) | (with_reducible apply frame_any))) only [framed]

theorem keyRespIn_fr {E : Nat} {s0 s : State} (h : Frame E s0 s) {jobId : Nat} {gen : Nat} {m : KeyMsg} (hE : Sub 0x2b28003 E := by first | assumption | exact sub_step (by assumption) (by decide)) :
    Frame E s0 (State.keyRespIn s jobId gen m) := by
  simp (disch := (
    unfold FrameOf
    unfold State.keyRespIn
    try dsimp only
    repeat' first
      | (with_reducible assumption) | ((with_reducible refine sub_step (by assumption) ?_); first | rfl | decide)
      | (with_reducible apply count_fr) | (with_reducible apply holdNext_fr) | (with_reducible apply installKey_fr)
      | (with_reducible apply noteGen_fr) | (with_reducible apply noticeIn_fr) | (split) | (intro _)
      | (refine frame_fst ?_ (by assumption)) | (dsimp only) | (with_reducible apply frame_any))) only [framed]

theorem switchGen_fr {E : Nat} {s0 s : State} (h : Frame E s0 s) {j : Nat} (hE : Sub 0x2b20401 E := by first | assumption | exact sub_step (by assumption) (by decide)) :
    Frame E s0 (State.switchGen s j) := by
  simp (disch := (
    unfold FrameOf
    unfold State.switchGen
    try dsimp only
    repeat' first
      | (with_reducible assumption) | ((with_reducible refine sub_step (by assumption) ?_); first | rfl | decide)
      | (with_reducible apply armIn_fr) | (with_reducible apply genTimers_fr) | (with_reducible apply sealOut_fr)
      | (with_reducible apply slot_fr) | (with_reducible apply updJob_fr) | (with_reducible apply wr_fr) | (split) | (intro _)
      | (refine frame_fst ?_ (by assumption)) | (dsimp only) | (with_reducible apply frame_any))) only [framed]

theorem newLeader_fr {E : Nat} {s0 s : State} (h : Frame E s0 s) {j : Nat} {pos : Nat} (hE : Sub 0x2000001 E := by first | assumption | exact sub_step (by assumption) (by decide)) :
    Frame E s0 (State.newLeader s j pos) := by
  simp (disch := (
    unfold FrameOf
    unfold State.newLeader
    try dsimp only
    repeat' first
      | (with_reducible assumption) | ((with_reducible refine sub_step (by assumption) ?_); first | rfl | decide)
      | (with_reducible apply arm_fr) | (with_reducible apply confirmGen_fr) | (with_reducible apply genTimers_fr)
      | (with_reducible apply sendConfirm_fr) | (with_reducible apply takeSwitch_fr) | (with_reducible apply updJob_fr)
      | (with_reducible apply wr_fr) | (split) | (intro _) | (refine frame_fst ?_ (by assumption)) | (dsimp only)
      | (with_reducible apply frame_any))) only [framed]

theorem unlock_fr {E : Nat} {s0 s : State} (h : Frame E s0 s) {bs : List Byte} (hE : Sub 0x6f2b43b E := by first | assumption | exact sub_step (by assumption) (by decide)) :
    Frame E s0 (State.unlock s bs) := by
  simp (disch := (
    unfold FrameOf
    unfold State.unlock
    try dsimp only
    repeat' first
      | (with_reducible assumption) | ((with_reducible refine sub_step (by assumption) ?_); first | rfl | decide)
      | (with_reducible apply authFailed_fr) | (with_reducible apply disarm_fr) | (with_reducible apply grantToken_fr)
      | (with_reducible apply logRec_fr) | (with_reducible apply settleAll_fr) | (with_reducible apply wr_fr)
      | (with_reducible apply zeroiseAll_fr) | (split) | (intro _) | (refine frame_fst ?_ (by assumption)) | (dsimp only)
      | (with_reducible apply frame_any))) only [framed]

theorem endSession_fr {E : Nat} {s0 s : State} (h : Frame E s0 s) {id : Nat} :
    Frame E s0 (State.endSession s id) := by
  simp (disch := (
    unfold FrameOf
    unfold State.endSession
    try dsimp only
    repeat' first
      | (with_reducible assumption) | (with_reducible apply disarm_fr) | (split) | (intro _)
      | (refine frame_fst ?_ (by assumption)) | (dsimp only) | (with_reducible apply frame_any))) only [framed]

theorem openFm_fr {E : Nat} {s0 s : State} (h : Frame E s0 s) {t : Token} {x : Spdm} :
    Frame E s0 (State.openFm s t x) := by
  simp (disch := (
    unfold FrameOf
    unfold State.openFm
    try dsimp only
    repeat' first
      | (with_reducible assumption) | (with_reducible apply arm_fr) | (with_reducible apply endSession_fr) | (split) | (intro _)
      | (refine frame_fst ?_ (by assumption)) | (dsimp only) | (with_reducible apply frame_any))) only [framed]

theorem finishSession_fr {E : Nat} {s0 s : State} (h : Frame E s0 s) {x : Spdm} {auth : Option FmAuth} (hE : Sub 0x28000 E := by first | assumption | exact sub_step (by assumption) (by decide)) :
    Frame E s0 (State.finishSession s x auth).1 := by
  simp (disch := (
    unfold FrameOf
    unfold State.finishSession
    try dsimp only
    repeat' first
      | (with_reducible assumption) | ((with_reducible refine sub_step (by assumption) ?_); first | rfl | decide)
      | (with_reducible apply count_fr) | (with_reducible apply grantToken_fr) | (with_reducible apply openFm_fr) | (split)
      | (intro _) | (refine frame_fst ?_ (by assumption)) | (dsimp only) | (with_reducible apply frame_any))) only [framed]

theorem setIde_fr {E : Nat} {s0 s : State} (h : Frame E s0 s) {port : Nat} {stream : Nat} {x : IdeStream} (hE : Sub 0x2000 E := by first | assumption | exact sub_step (by assumption) (by decide)) :
    Frame E s0 (State.setIde s port stream x) := by
  simp (disch := (
    unfold FrameOf
    unfold State.setIde
    try dsimp only
    repeat' first
      | (with_reducible assumption) | ((with_reducible refine sub_step (by assumption) ?_); first | rfl | decide)
      | (with_reducible apply setFlag_fr) | (split) | (intro _) | (refine frame_fst ?_ (by assumption)) | (dsimp only)
      | (with_reducible apply frame_any))) only [framed]

theorem ideIn_fr {E : Nat} {s0 s : State} (h : Frame E s0 s) {x : Spdm} {stream : Nat} {f : IdeStream → Option IdeStream} (hE : Sub 0x2000 E := by first | assumption | exact sub_step (by assumption) (by decide)) :
    Frame E s0 (State.ideIn s x stream f).1 := by
  simp (disch := (
    unfold FrameOf
    unfold State.ideIn
    try dsimp only
    repeat' first
      | (with_reducible assumption) | ((with_reducible refine sub_step (by assumption) ?_); first | rfl | decide)
      | (with_reducible apply setIde_fr) | (split) | (intro _) | (refine frame_fst ?_ (by assumption)) | (dsimp only)
      | (with_reducible apply frame_any))) only [framed]

theorem spdmAnswer_fr {E : Nat} {s0 s : State} (h : Frame E s0 s) {via : SpdmVia} {r : SpdmReq} (hE : Sub 0x2a000 E := by first | assumption | exact sub_step (by assumption) (by decide)) :
    Frame E s0 (State.spdmAnswer s via r).1 := by
  simp (disch := (
    unfold FrameOf
    unfold State.spdmAnswer
    try dsimp only
    repeat' first
      | (with_reducible assumption) | ((with_reducible refine sub_step (by assumption) ?_); first | rfl | decide)
      | (with_reducible apply count_fr) | (with_reducible apply endSession_fr) | (with_reducible apply finishSession_fr)
      | (with_reducible apply freeNext_fr) | (with_reducible apply ideIn_fr) | (split) | (intro _)
      | (refine frame_fst ?_ (by assumption)) | (dsimp only) | (with_reducible apply frame_any))) only [framed]

theorem spdmIn_fr {E : Nat} {s0 s : State} (h : Frame E s0 s) {via : SpdmVia} {r : SpdmReq} (hE : Sub 0x2a000 E := by first | assumption | exact sub_step (by assumption) (by decide)) :
    Frame E s0 (State.spdmIn s via r) := by
  simp (disch := (
    unfold FrameOf
    unfold State.spdmIn
    try dsimp only
    repeat' first
      | (with_reducible assumption) | ((with_reducible refine sub_step (by assumption) ?_); first | rfl | decide)
      | (with_reducible apply emit_fr) | (with_reducible apply spdmAnswer_fr) | (split) | (intro _)
      | (refine frame_fst ?_ (by assumption)) | (dsimp only) | (with_reducible apply frame_any))) only [framed]

end Sys2Proof.Laws
end

