-- ==== Sys2Proof/Laws/FrKeys.lean ====
section
/-! SUPPORT. The frame of every operation of Machine/Keys.lean (`Laws.Frame`). -/

namespace Sys2Proof.Laws

open Sys2Proof.Machine

set_option linter.all false
set_option Elab.async false

theorem execJobOpen_fr {E : Nat} {s0 s : State} (h : Frame E s0 s) {src : CmdSrc} {p : Priv} {x : PrivData} (hE : Sub 0x2b29003 E := by first | assumption | exact sub_step (by assumption) (by decide)) :
    OFrame E s0 (execJobOpen src p x s) := by
  simp (disch := (
    unfold OFrameOf
    unfold execJobOpen
    try dsimp only
    repeat' first
      | (with_reducible apply OFrame.next) | (with_reducible assumption)
      | ((with_reducible refine sub_step (by assumption) ?_); first | rfl | decide) | (with_reducible apply bodyJobOpen_fr)
      | (with_reducible apply privRow_fr) | (split) | (intro _) | (refine frame_fst ?_ (by assumption)) | (dsimp only)
      | (with_reducible apply frame_any))) only [oframed]

theorem execKeyReqReceive_fr {E : Nat} {s0 s : State} (h : Frame E s0 s) {jobId : Nat} {node : Nat} {serial : Nat} {m : KeyMsg} (hE : Sub 0x20000 E := by first | assumption | exact sub_step (by assumption) (by decide)) :
    OFrame E s0 (execKeyReqReceive jobId node serial m s) := by
  simp (disch := (
    unfold OFrameOf
    unfold execKeyReqReceive
    try dsimp only
    repeat' first
      | (with_reducible apply OFrame.next) | (with_reducible assumption)
      | ((with_reducible refine sub_step (by assumption) ?_); first | rfl | decide) | (with_reducible apply keyReqIn_fr)
      | (with_reducible apply mgTake_fr) | (with_reducible apply whenUp_fr) | (split) | (intro _)
      | (refine frame_fst ?_ (by assumption)) | (dsimp only) | (with_reducible apply frame_any))) only [oframed]

theorem execKeyRespReceive_fr {E : Nat} {s0 s : State} (h : Frame E s0 s) {jobId : Nat} {gen : Nat} {m : KeyMsg} (hE : Sub 0x2b28003 E := by first | assumption | exact sub_step (by assumption) (by decide)) :
    OFrame E s0 (execKeyRespReceive jobId gen m s) := by
  simp (disch := (
    unfold OFrameOf
    unfold execKeyRespReceive
    try dsimp only
    repeat' first
      | (with_reducible apply OFrame.next) | (with_reducible assumption)
      | ((with_reducible refine sub_step (by assumption) ?_); first | rfl | decide) | (with_reducible apply keyRespIn_fr)
      | (with_reducible apply mgTake_fr) | (with_reducible apply whenUp_fr) | (split) | (intro _)
      | (refine frame_fst ?_ (by assumption)) | (dsimp only) | (with_reducible apply frame_any))) only [oframed]

theorem execNotYetReceive_fr {E : Nat} {s0 s : State} (h : Frame E s0 s) {jobId : Nat} (hE : Sub 0x2000000 E := by first | assumption | exact sub_step (by assumption) (by decide)) :
    OFrame E s0 (execNotYetReceive jobId s) := by
  simp (disch := (
    unfold OFrameOf
    unfold execNotYetReceive
    try dsimp only
    repeat' first
      | (with_reducible apply OFrame.next) | (with_reducible assumption)
      | ((with_reducible refine sub_step (by assumption) ?_); first | rfl | decide) | (with_reducible apply armIn_fr)
      | (with_reducible apply disarm_fr) | (with_reducible apply mgTake_fr) | (with_reducible apply updJob_fr)
      | (with_reducible apply whenUp_fr) | (split) | (intro _) | (refine frame_fst ?_ (by assumption)) | (dsimp only)
      | (with_reducible apply frame_any))) only [oframed]

theorem execKeyReqRetry_fr {E : Nat} {s0 s : State} (h : Frame E s0 s) {slot : Nat} (hE : Sub 0x2020400 E := by first | assumption | exact sub_step (by assumption) (by decide)) :
    OFrame E s0 (execKeyReqRetry slot s) := by
  simp (disch := (
    unfold OFrameOf
    unfold execKeyReqRetry
    try dsimp only
    repeat' first
      | (with_reducible apply OFrame.next) | (with_reducible assumption)
      | ((with_reducible refine sub_step (by assumption) ?_); first | rfl | decide) | (with_reducible apply sendKeyReq_fr)
      | (with_reducible apply slot_fr) | (with_reducible apply whenDue_fr) | (split) | (intro _)
      | (refine frame_fst ?_ (by assumption)) | (dsimp only) | (with_reducible apply frame_any))) only [oframed]

theorem execKeyReqUnanswered_fr {E : Nat} {s0 s : State} (h : Frame E s0 s) {slot : Nat} (hE : Sub 0x2020400 E := by first | assumption | exact sub_step (by assumption) (by decide)) :
    OFrame E s0 (execKeyReqUnanswered slot s) := by
  simp (disch := (
    unfold OFrameOf
    unfold execKeyReqUnanswered
    try dsimp only
    repeat' first
      | (with_reducible apply OFrame.next) | (with_reducible assumption)
      | ((with_reducible refine sub_step (by assumption) ?_); first | rfl | decide) | (with_reducible apply keyUnanswered_fr)
      | (with_reducible apply slot_fr) | (with_reducible apply whenDue_fr) | (split) | (intro _)
      | (refine frame_fst ?_ (by assumption)) | (dsimp only) | (with_reducible apply frame_any))) only [oframed]

theorem execKeyFailDeadline_fr {E : Nat} {s0 s : State} (h : Frame E s0 s) {slot : Nat} (hE : Sub 0x6b2b43b E := by first | assumption | exact sub_step (by assumption) (by decide)) :
    OFrame E s0 (execKeyFailDeadline slot s) := by
  simp (disch := (
    unfold OFrameOf
    unfold execKeyFailDeadline
    try dsimp only
    repeat' first
      | (with_reducible apply OFrame.next) | (with_reducible assumption)
      | ((with_reducible refine sub_step (by assumption) ?_); first | rfl | decide) | (with_reducible apply endPriv_fr)
      | (with_reducible apply freeJob_fr) | (with_reducible apply logRec_fr) | (with_reducible apply slot_fr)
      | (with_reducible apply whenDue_fr) | (split) | (intro _) | (refine frame_fst ?_ (by assumption)) | (dsimp only)
      | (with_reducible apply frame_any))) only [oframed]

theorem execKeyInstall_fr {E : Nat} {s0 s : State} (h : Frame E s0 s) {src : CmdSrc} {p : Priv} {x : PrivData} (hE : Sub 0x2b29003 E := by first | assumption | exact sub_step (by assumption) (by decide)) :
    OFrame E s0 (execKeyInstall src p x s) := by
  simp (disch := (
    unfold OFrameOf
    unfold execKeyInstall
    try dsimp only
    repeat' first
      | (with_reducible apply OFrame.next) | (with_reducible assumption)
      | ((with_reducible refine sub_step (by assumption) ?_); first | rfl | decide) | (with_reducible apply bodyKeyInstall_fr)
      | (with_reducible apply privRow_fr) | (split) | (intro _) | (refine frame_fst ?_ (by assumption)) | (dsimp only)
      | (with_reducible apply frame_any))) only [oframed]

theorem execRenewalStart_fr {E : Nat} {s0 s : State} (h : Frame E s0 s) {slot : Nat} (hE : Sub 0x2020401 E := by first | assumption | exact sub_step (by assumption) (by decide)) :
    OFrame E s0 (execRenewalStart slot s) := by
  simp (disch := (
    unfold OFrameOf
    unfold execRenewalStart
    try dsimp only
    repeat' first
      | (with_reducible apply OFrame.next) | (with_reducible assumption)
      | ((with_reducible refine sub_step (by assumption) ?_); first | rfl | decide) | (with_reducible apply armIn_fr)
      | (with_reducible apply freeNext_fr) | (with_reducible apply holdNext_fr) | (with_reducible apply slot_fr)
      | (with_reducible apply whenDue_fr) | (split) | (intro _) | (refine frame_fst ?_ (by assumption)) | (dsimp only)
      | (with_reducible apply frame_any))) only [oframed]

theorem execRenewalConfirmReceive_fr {E : Nat} {s0 s : State} (h : Frame E s0 s) {slot : Nat} {child : Nat} (hE : Sub 0x2000400 E := by first | assumption | exact sub_step (by assumption) (by decide)) :
    OFrame E s0 (execRenewalConfirmReceive slot child s) := by
  simp (disch := (
    unfold OFrameOf
    unfold execRenewalConfirmReceive
    try dsimp only
    repeat' first
      | (with_reducible apply OFrame.next) | (with_reducible assumption)
      | ((with_reducible refine sub_step (by assumption) ?_); first | rfl | decide) | (with_reducible apply confirmGen_fr)
      | (with_reducible apply slot_fr) | (with_reducible apply updJob_fr) | (with_reducible apply whenUp_fr) | (split)
      | (intro _) | (refine frame_fst ?_ (by assumption)) | (dsimp only) | (with_reducible apply frame_any))) only [oframed]

theorem execSwitchReceive_fr {E : Nat} {s0 s : State} (h : Frame E s0 s) {slot : Nat} {t : Nat} (hE : Sub 0x2000400 E := by first | assumption | exact sub_step (by assumption) (by decide)) :
    OFrame E s0 (execSwitchReceive slot t s) := by
  simp (disch := (
    unfold OFrameOf
    unfold execSwitchReceive
    try dsimp only
    repeat' first
      | (with_reducible apply OFrame.next) | (with_reducible assumption)
      | ((with_reducible refine sub_step (by assumption) ?_); first | rfl | decide) | (with_reducible apply slot_fr)
      | (with_reducible apply takeSwitch_fr) | (with_reducible apply whenUp_fr) | (split) | (intro _)
      | (refine frame_fst ?_ (by assumption)) | (dsimp only) | (with_reducible apply frame_any))) only [oframed]

theorem execGenerationSwitch_fr {E : Nat} {s0 s : State} (h : Frame E s0 s) {slot : Nat} (hE : Sub 0x2b20401 E := by first | assumption | exact sub_step (by assumption) (by decide)) :
    OFrame E s0 (execGenerationSwitch slot s) := by
  simp (disch := (
    unfold OFrameOf
    unfold execGenerationSwitch
    try dsimp only
    repeat' first
      | (with_reducible apply OFrame.next) | (with_reducible assumption)
      | ((with_reducible refine sub_step (by assumption) ?_); first | rfl | decide) | (with_reducible apply slot_fr)
      | (with_reducible apply switchGen_fr) | (with_reducible apply whenDue_fr) | (split) | (intro _)
      | (refine frame_fst ?_ (by assumption)) | (dsimp only) | (with_reducible apply frame_any))) only [oframed]

theorem execOldGenerationErase_fr {E : Nat} {s0 s : State} (h : Frame E s0 s) {slot : Nat} (hE : Sub 0x2020401 E := by first | assumption | exact sub_step (by assumption) (by decide)) :
    OFrame E s0 (execOldGenerationErase slot s) := by
  simp (disch := (
    unfold OFrameOf
    unfold execOldGenerationErase
    try dsimp only
    repeat' first
      | (with_reducible apply OFrame.next) | (with_reducible assumption)
      | ((with_reducible refine sub_step (by assumption) ?_); first | rfl | decide) | (with_reducible apply setFlag_fr)
      | (with_reducible apply slot_fr) | (with_reducible apply updJob_fr) | (with_reducible apply whenDue_fr) | (split)
      | (intro _) | (refine frame_fst ?_ (by assumption)) | (dsimp only) | (with_reducible apply frame_any))) only [oframed]

theorem execRenewalRepeat_fr {E : Nat} {s0 s : State} (h : Frame E s0 s) {slot : Nat} (hE : Sub 0x20400 E := by first | assumption | exact sub_step (by assumption) (by decide)) :
    OFrame E s0 (execRenewalRepeat slot s) := by
  simp (disch := (
    unfold OFrameOf
    unfold execRenewalRepeat
    try dsimp only
    repeat' first
      | (with_reducible apply OFrame.next) | (with_reducible assumption)
      | ((with_reducible refine sub_step (by assumption) ?_); first | rfl | decide) | (with_reducible apply armIn_fr)
      | (with_reducible apply distribute_fr) | (with_reducible apply slot_fr) | (with_reducible apply whenDue_fr) | (split)
      | (intro _) | (refine frame_fst ?_ (by assumption)) | (dsimp only) | (with_reducible apply frame_any))) only [oframed]

theorem execGenerationExpiry_fr {E : Nat} {s0 s : State} (h : Frame E s0 s) {slot : Nat} (hE : Sub 0x6f2b43b E := by first | assumption | exact sub_step (by assumption) (by decide)) :
    OFrame E s0 (execGenerationExpiry slot s) := by
  simp (disch := (
    unfold OFrameOf
    unfold execGenerationExpiry
    try dsimp only
    repeat' first
      | (with_reducible apply OFrame.next) | (with_reducible assumption)
      | ((with_reducible refine sub_step (by assumption) ?_); first | rfl | decide) | (with_reducible apply logRec_fr)
      | (with_reducible apply settleAll_fr) | (with_reducible apply slot_fr) | (with_reducible apply stopJobQueues_fr)
      | (with_reducible apply whenDue_fr) | (with_reducible apply zeroiseStop_fr) | (split) | (intro _)
      | (refine frame_fst ?_ (by assumption)) | (dsimp only) | (with_reducible apply frame_any))) only [oframed]

theorem execKeyLeaderTakeover_fr {E : Nat} {s0 s : State} (h : Frame E s0 s) {slot : Nat} {position : Nat} (hE : Sub 0x2000401 E := by first | assumption | exact sub_step (by assumption) (by decide)) :
    OFrame E s0 (execKeyLeaderTakeover slot position s) := by
  simp (disch := (
    unfold OFrameOf
    unfold execKeyLeaderTakeover
    try dsimp only
    repeat' first
      | (with_reducible apply OFrame.next) | (with_reducible assumption)
      | ((with_reducible refine sub_step (by assumption) ?_); first | rfl | decide) | (with_reducible apply newLeader_fr)
      | (with_reducible apply slot_fr) | (with_reducible apply whenUp_fr) | (split) | (intro _)
      | (refine frame_fst ?_ (by assumption)) | (dsimp only) | (with_reducible apply frame_any))) only [oframed]

theorem execJobClose_fr {E : Nat} {s0 s : State} (h : Frame E s0 s) {src : CmdSrc} {p : Priv} {x : PrivData} (hE : Sub 0x6f2b43b E := by first | assumption | exact sub_step (by assumption) (by decide)) :
    OFrame E s0 (execJobClose src p x s) := by
  simp (disch := (
    unfold OFrameOf
    unfold execJobClose
    try dsimp only
    repeat' first
      | (with_reducible apply OFrame.next) | (with_reducible assumption)
      | ((with_reducible refine sub_step (by assumption) ?_); first | rfl | decide) | (with_reducible apply bodyJobClose_fr)
      | (with_reducible apply privRow_fr) | (split) | (intro _) | (refine frame_fst ?_ (by assumption)) | (dsimp only)
      | (with_reducible apply frame_any))) only [oframed]

theorem execJobCloseManifestTimeout_fr {E : Nat} {s0 s : State} (h : Frame E s0 s) {slot : Nat} (hE : Sub 0x6f2b43b E := by first | assumption | exact sub_step (by assumption) (by decide)) :
    OFrame E s0 (execJobCloseManifestTimeout slot s) := by
  simp (disch := (
    unfold OFrameOf
    unfold execJobCloseManifestTimeout
    try dsimp only
    repeat' first
      | (with_reducible apply OFrame.next) | (with_reducible assumption)
      | ((with_reducible refine sub_step (by assumption) ?_); first | rfl | decide) | (with_reducible apply closeProgress_fr)
      | (with_reducible apply forEach_fr) | (with_reducible apply opRetire_fr) | (with_reducible apply settleAll_fr)
      | (with_reducible apply slot_fr) | (with_reducible apply whenDue_fr) | (split) | (intro _)
      | (refine frame_fst ?_ (by assumption)) | (dsimp only) | (with_reducible apply frame_any))) only [oframed]

theorem execEpochKeyErase_fr {E : Nat} {s0 s : State} (h : Frame E s0 s) {ctx : Nat} (hE : Sub 0x20000 E := by first | assumption | exact sub_step (by assumption) (by decide)) :
    OFrame E s0 (execEpochKeyErase ctx s) := by
  simp (disch := (
    unfold OFrameOf
    unfold execEpochKeyErase
    try dsimp only
    repeat' first
      | (with_reducible apply OFrame.next) | (with_reducible assumption)
      | ((with_reducible refine sub_step (by assumption) ?_); first | rfl | decide) | (with_reducible apply eraseEpoch_fr)
      | (with_reducible apply whenDue_fr) | (split) | (intro _) | (refine frame_fst ?_ (by assumption)) | (dsimp only)
      | (with_reducible apply frame_any))) only [oframed]

theorem execDebugChallengeRead_fr {E : Nat} {s0 s : State} (h : Frame E s0 s) {draw : Nat} :
    OFrame E s0 (execDebugChallengeRead draw s) := by
  simp (disch := (
    unfold OFrameOf
    unfold execDebugChallengeRead
    try dsimp only
    repeat' first
      | (with_reducible apply OFrame.next) | (with_reducible assumption) | (with_reducible apply armIn_fr)
      | (with_reducible apply emit_fr) | (with_reducible apply whenUp_fr) | (split) | (intro _)
      | (refine frame_fst ?_ (by assumption)) | (dsimp only) | (with_reducible apply frame_any))) only [oframed]

theorem execDebugUnlock_fr {E : Nat} {s0 s : State} (h : Frame E s0 s) {t : List Byte} (hE : Sub 0x6f2b43b E := by first | assumption | exact sub_step (by assumption) (by decide)) :
    OFrame E s0 (execDebugUnlock t s) := by
  simp (disch := (
    unfold OFrameOf
    unfold execDebugUnlock
    try dsimp only
    repeat' first
      | (with_reducible apply OFrame.next) | (with_reducible assumption)
      | ((with_reducible refine sub_step (by assumption) ?_); first | rfl | decide) | (with_reducible apply disarm_fr)
      | (with_reducible apply unlock_fr) | (with_reducible apply whenUp_fr) | (split) | (intro _)
      | (refine frame_fst ?_ (by assumption)) | (dsimp only) | (with_reducible apply frame_any))) only [oframed]

theorem execSpdmMessage_fr {E : Nat} {s0 s : State} (h : Frame E s0 s) {via : SpdmVia} {r : SpdmReq} (hE : Sub 0x2a000 E := by first | assumption | exact sub_step (by assumption) (by decide)) :
    OFrame E s0 (execSpdmMessage via r s) := by
  simp (disch := (
    unfold OFrameOf
    unfold execSpdmMessage
    try dsimp only
    repeat' first
      | (with_reducible apply OFrame.next) | (with_reducible assumption)
      | ((with_reducible refine sub_step (by assumption) ?_); first | rfl | decide) | (with_reducible apply mgDiscard_fr)
      | (with_reducible apply mgTake_fr) | (with_reducible apply spdmIn_fr) | (with_reducible apply whenRef_fr) | (split)
      | (intro _) | (refine frame_fst ?_ (by assumption)) | (dsimp only) | (with_reducible apply frame_any))) only [oframed]

theorem execFmSessionExpiry_fr {E : Nat} {s0 s : State} (h : Frame E s0 s) {id : Nat} (hE : Sub 0x20000 E := by first | assumption | exact sub_step (by assumption) (by decide)) :
    OFrame E s0 (execFmSessionExpiry id s) := by
  simp (disch := (
    unfold OFrameOf
    unfold execFmSessionExpiry
    try dsimp only
    repeat' first
      | (with_reducible apply OFrame.next) | (with_reducible assumption)
      | ((with_reducible refine sub_step (by assumption) ?_); first | rfl | decide) | (with_reducible apply endSession_fr)
      | (with_reducible apply whenDue_fr) | (split) | (intro _) | (refine frame_fst ?_ (by assumption)) | (dsimp only)
      | (with_reducible apply frame_any))) only [oframed]

end Sys2Proof.Laws
end

