-- ==== Sys2Proof/Laws/FrMemoryCmds.lean ====
section
/-! SUPPORT. The frame of every operation of Machine/MemoryCmds.lean (`Laws.Frame`). -/

namespace Sys2Proof.Laws

open Sys2Proof.Machine

set_option linter.all false
set_option Elab.async false

theorem slotToken_fr {E : Nat} {s0 s : State} (h : Frame E s0 s) {slot : Nat} {kind : Nat} {o : Offer} (hE : Sub 0x2028400 E := by first | assumption | exact sub_step (by assumption) (by decide)) :
    Frame E s0 (State.slotToken s slot kind o).1 := by
  simp (disch := (
    unfold FrameOf
    unfold State.slotToken
    try dsimp only
    repeat' first
      | (with_reducible assumption) | ((with_reducible refine sub_step (by assumption) ?_); first | rfl | decide)
      | (with_reducible apply jobToken_fr) | (with_reducible apply slot_fr) | (split) | (intro _)
      | (refine frame_fst ?_ (by assumption)) | (dsimp only) | (with_reducible apply frame_any))) only [framed]

theorem bodyWindowOpen_fr {E : Nat} {s0 s : State} (h : Frame E s0 s) {src : CmdSrc} {p : Priv} {x : PrivData} (hE : Sub 0x2028400 E := by first | assumption | exact sub_step (by assumption) (by decide)) :
    Frame E s0 (State.bodyWindowOpen s src p x).1 := by
  simp (disch := (
    unfold FrameOf
    unfold State.bodyWindowOpen
    try dsimp only
    repeat' first
      | (with_reducible assumption) | ((with_reducible refine sub_step (by assumption) ?_); first | rfl | decide)
      | (with_reducible apply slotToken_fr) | (split) | (intro _) | (refine frame_fst ?_ (by assumption)) | (dsimp only)
      | (with_reducible apply frame_any))) only [framed]

theorem bodyWindowRevoke_fr {E : Nat} {s0 s : State} (h : Frame E s0 s) {src : CmdSrc} {p : Priv} {x : PrivData} (hE : Sub 0x2b28402 E := by first | assumption | exact sub_step (by assumption) (by decide)) :
    Frame E s0 (State.bodyWindowRevoke s src p x).1 := by
  simp (disch := (
    unfold FrameOf
    unfold State.bodyWindowRevoke
    try dsimp only
    repeat' first
      | (with_reducible assumption) | ((with_reducible refine sub_step (by assumption) ?_); first | rfl | decide)
      | (with_reducible apply revokeStart_fr) | (with_reducible apply slotToken_fr) | (split) | (intro _)
      | (refine frame_fst ?_ (by assumption)) | (dsimp only) | (with_reducible apply frame_any))) only [framed]

theorem leafAt_fr {E : Nat} {s0 s : State} (h : Frame E s0 s) {a : Nat} {addr : Nat} (hE : Sub 0x20000 E := by first | assumption | exact sub_step (by assumption) (by decide)) :
    Frame E s0 (State.leafAt s a addr).1 := by
  simp (disch := (
    unfold FrameOf
    unfold State.leafAt
    try dsimp only
    repeat' first
      | (with_reducible assumption) | ((with_reducible refine sub_step (by assumption) ?_); first | rfl | decide)
      | (with_reducible apply count_fr) | (with_reducible apply walk_fr) | (split) | (intro _)
      | (refine frame_fst ?_ (by assumption)) | (dsimp only) | (with_reducible apply frame_any))) only [framed]

theorem regionWalk_fr {E : Nat} {s0 s : State} (h : Frame E s0 s) {a : Nat} {d : Descr} {y0 : Nat} {y1 : Nat} {y2 : List (Nat × Leaf)} (hE : Sub 0x28000 E := by first | assumption | exact sub_step (by assumption) (by decide)) :
    Frame E s0 (State.regionWalk s a d y0 y1 y2).1 := by
  simp (disch := (
    unfold FrameOf
    induction y0 generalizing s a d y1 y2 with
    | zero =>
      unfold State.regionWalk
      try dsimp only
      repeat' first
        | (with_reducible assumption) | ((with_reducible refine sub_step (by assumption) ?_); first | rfl | decide)
        | (with_reducible apply count_fr) | (with_reducible apply leafAt_fr) | (with_reducible apply txFault_fr)
        | (with_reducible apply ih) | (split) | (intro _) | (refine frame_fst ?_ (by assumption)) | (dsimp only)
        | (with_reducible apply frame_any)
    | succ n ih =>
      unfold State.regionWalk
      try dsimp only
      repeat' first
        | (with_reducible assumption) | ((with_reducible refine sub_step (by assumption) ?_); first | rfl | decide)
        | (with_reducible apply count_fr) | (with_reducible apply leafAt_fr) | (with_reducible apply txFault_fr)
        | (with_reducible apply ih) | (split) | (intro _) | (refine frame_fst ?_ (by assumption)) | (dsimp only)
        | (with_reducible apply frame_any))) only [framed]

theorem holdRegion_fr {E : Nat} {s0 s : State} (h : Frame E s0 s) {d : Descr} (hE : Sub 0x28000 E := by first | assumption | exact sub_step (by assumption) (by decide)) :
    Frame E s0 (State.holdRegion s d).1 := by
  simp (disch := (
    unfold FrameOf
    unfold State.holdRegion
    try dsimp only
    repeat' first
      | (with_reducible assumption) | ((with_reducible refine sub_step (by assumption) ?_); first | rfl | decide)
      | (with_reducible apply regionWalk_fr) | (with_reducible apply txFault_fr) | (split) | (intro _)
      | (refine frame_fst ?_ (by assumption)) | (dsimp only) | (with_reducible apply frame_any))) only [framed]

theorem bodyRegionRegister_fr {E : Nat} {s0 s : State} (h : Frame E s0 s) {src : CmdSrc} {p : Priv} {x : PrivData} (hE : Sub 0x2028400 E := by first | assumption | exact sub_step (by assumption) (by decide)) :
    Frame E s0 (State.bodyRegionRegister s src p x).1 := by
  simp (disch := (
    unfold FrameOf
    unfold State.bodyRegionRegister
    try dsimp only
    repeat' first
      | (with_reducible assumption) | ((with_reducible refine sub_step (by assumption) ?_); first | rfl | decide)
      | (with_reducible apply evictRegion_fr) | (with_reducible apply freeNext_fr) | (with_reducible apply holdRegion_fr)
      | (with_reducible apply slot_fr) | (with_reducible apply slotToken_fr) | (split) | (intro _)
      | (refine frame_fst ?_ (by assumption)) | (dsimp only) | (with_reducible apply frame_any))) only [framed]

theorem bodyRegionDeregister_fr {E : Nat} {s0 s : State} (h : Frame E s0 s) {src : CmdSrc} {p : Priv} {x : PrivData} (hE : Sub 0x2028400 E := by first | assumption | exact sub_step (by assumption) (by decide)) :
    Frame E s0 (State.bodyRegionDeregister s src p x).1 := by
  simp (disch := (
    unfold FrameOf
    unfold State.bodyRegionDeregister
    try dsimp only
    repeat' first
      | (with_reducible assumption) | ((with_reducible refine sub_step (by assumption) ?_); first | rfl | decide)
      | (with_reducible apply slot_fr) | (with_reducible apply slotToken_fr) | (split) | (intro _)
      | (refine frame_fst ?_ (by assumption)) | (dsimp only) | (with_reducible apply frame_any))) only [framed]

theorem treeBuilt_fr {E : Nat} {s0 s : State} (h : Frame E s0 s) {slot : Nat} {c : Nat} {b : TreeBlock} (hE : Sub 0x420 E := by first | assumption | exact sub_step (by assumption) (by decide)) :
    Frame E s0 (State.treeBuilt s slot c b) := by
  simp (disch := (
    unfold FrameOf
    unfold State.treeBuilt
    try dsimp only
    repeat' first
      | (with_reducible assumption) | ((with_reducible refine sub_step (by assumption) ?_); first | rfl | decide)
      | (with_reducible refine sub_flds ?_ ?_) | (with_reducible exact sub_zero) | (with_reducible apply disarmAll_fr)
      | (with_reducible apply slot_fr) | (with_reducible apply wrAll_fr) | (with_reducible apply frame_foldl) | (split)
      | (intro _) | (refine frame_fst ?_ (by assumption)) | (dsimp only) | (with_reducible apply frame_any))) only [framed]

theorem bodyTreeBuild_fr {E : Nat} {s0 s : State} (h : Frame E s0 s) {src : CmdSrc} {p : Priv} {x : PrivData} (hE : Sub 0x2028420 E := by first | assumption | exact sub_step (by assumption) (by decide)) :
    Frame E s0 (State.bodyTreeBuild s src p x).1 := by
  simp (disch := (
    unfold FrameOf
    unfold State.bodyTreeBuild
    try dsimp only
    repeat' first
      | (with_reducible assumption) | ((with_reducible refine sub_step (by assumption) ?_); first | rfl | decide)
      | (with_reducible apply slotToken_fr) | (with_reducible apply treeBuilt_fr) | (split) | (intro _)
      | (refine frame_fst ?_ (by assumption)) | (dsimp only) | (with_reducible apply frame_any))) only [framed]

theorem execWindowOpen_fr {E : Nat} {s0 s : State} (h : Frame E s0 s) {src : CmdSrc} {p : Priv} {x : PrivData} (hE : Sub 0x2b28402 E := by first | assumption | exact sub_step (by assumption) (by decide)) :
    OFrame E s0 (execWindowOpen src p x s) := by
  simp (disch := (
    unfold OFrameOf
    unfold execWindowOpen
    try dsimp only
    repeat' first
      | (with_reducible apply OFrame.next) | (with_reducible assumption)
      | ((with_reducible refine sub_step (by assumption) ?_); first | rfl | decide) | (with_reducible apply bodyWindowOpen_fr)
      | (with_reducible apply privRow_fr) | (split) | (intro _) | (refine frame_fst ?_ (by assumption)) | (dsimp only)
      | (with_reducible apply frame_any))) only [oframed]

theorem execWindowRevoke_fr {E : Nat} {s0 s : State} (h : Frame E s0 s) {src : CmdSrc} {p : Priv} {x : PrivData} (hE : Sub 0x2b28402 E := by first | assumption | exact sub_step (by assumption) (by decide)) :
    OFrame E s0 (execWindowRevoke src p x s) := by
  simp (disch := (
    unfold OFrameOf
    unfold execWindowRevoke
    try dsimp only
    repeat' first
      | (with_reducible apply OFrame.next) | (with_reducible assumption)
      | ((with_reducible refine sub_step (by assumption) ?_); first | rfl | decide) | (with_reducible apply bodyWindowRevoke_fr)
      | (with_reducible apply privRow_fr) | (split) | (intro _) | (refine frame_fst ?_ (by assumption)) | (dsimp only)
      | (with_reducible apply frame_any))) only [oframed]

theorem execRegionRegister_fr {E : Nat} {s0 s : State} (h : Frame E s0 s) {src : CmdSrc} {p : Priv} {x : PrivData} (hE : Sub 0x2b28402 E := by first | assumption | exact sub_step (by assumption) (by decide)) :
    OFrame E s0 (execRegionRegister src p x s) := by
  simp (disch := (
    unfold OFrameOf
    unfold execRegionRegister
    try dsimp only
    repeat' first
      | (with_reducible apply OFrame.next) | (with_reducible assumption)
      | ((with_reducible refine sub_step (by assumption) ?_); first | rfl | decide)
      | (with_reducible apply bodyRegionRegister_fr) | (with_reducible apply privRow_fr) | (split) | (intro _)
      | (refine frame_fst ?_ (by assumption)) | (dsimp only) | (with_reducible apply frame_any))) only [oframed]

theorem execRegionDeregister_fr {E : Nat} {s0 s : State} (h : Frame E s0 s) {src : CmdSrc} {p : Priv} {x : PrivData} (hE : Sub 0x2b28402 E := by first | assumption | exact sub_step (by assumption) (by decide)) :
    OFrame E s0 (execRegionDeregister src p x s) := by
  simp (disch := (
    unfold OFrameOf
    unfold execRegionDeregister
    try dsimp only
    repeat' first
      | (with_reducible apply OFrame.next) | (with_reducible assumption)
      | ((with_reducible refine sub_step (by assumption) ?_); first | rfl | decide)
      | (with_reducible apply bodyRegionDeregister_fr) | (with_reducible apply privRow_fr) | (split) | (intro _)
      | (refine frame_fst ?_ (by assumption)) | (dsimp only) | (with_reducible apply frame_any))) only [oframed]

theorem execTreeBuild_fr {E : Nat} {s0 s : State} (h : Frame E s0 s) {src : CmdSrc} {p : Priv} {x : PrivData} (hE : Sub 0x2b28422 E := by first | assumption | exact sub_step (by assumption) (by decide)) :
    OFrame E s0 (execTreeBuild src p x s) := by
  simp (disch := (
    unfold OFrameOf
    unfold execTreeBuild
    try dsimp only
    repeat' first
      | (with_reducible apply OFrame.next) | (with_reducible assumption)
      | ((with_reducible refine sub_step (by assumption) ?_); first | rfl | decide) | (with_reducible apply bodyTreeBuild_fr)
      | (with_reducible apply privRow_fr) | (split) | (intro _) | (refine frame_fst ?_ (by assumption)) | (dsimp only)
      | (with_reducible apply frame_any))) only [oframed]

end Sys2Proof.Laws
end

