-- ==== Sys2Proof/Laws/FrRouteCmds.lean ====
section
/-! SUPPORT. The frame of every operation of Machine/RouteCmds.lean (`Laws.Frame`). -/

namespace Sys2Proof.Laws

open Sys2Proof.Machine

set_option linter.all false
set_option Elab.async false

theorem putEntries_fr {E : Nat} {s0 s : State} (h : Frame E s0 s) {bank : Nat} {table : Nat} {y0 : Nat} {y1 : List Nat} (hE : Sub 0x1000000 E := by first | assumption | exact sub_step (by assumption) (by decide)) :
    Frame E s0 (State.putEntries s bank table y0 y1) := by
  induction y1 generalizing s y0 with
  | nil => exact h
  | cons a r ih => exact ih (frame_banks h)

theorem applyLane_fr {E : Nat} {s0 s : State} (h : Frame E s0 s) {l : Nat} {old : Nat} {new : Nat} (hE : Sub 0x80 E := by first | assumption | exact sub_step (by assumption) (by decide)) :
    Frame E s0 (State.applyLane s l old new) := by
  simp (disch := (
    unfold FrameOf
    unfold State.applyLane
    try dsimp only
    repeat' first
      | (with_reducible assumption) | ((with_reducible refine sub_step (by assumption) ?_); first | rfl | decide)
      | (with_reducible apply wr_fr) | (split) | (intro _) | (refine frame_fst ?_ (by assumption)) | (dsimp only)
      | (with_reducible apply frame_any))) only [framed]

theorem recheckPeer_fr {E : Nat} {s0 s : State} (h : Frame E s0 s) {p : Nat} (hE : Sub 0x28040 E := by first | assumption | exact sub_step (by assumption) (by decide)) :
    Frame E s0 (State.recheckPeer s p) := by
  simp (disch := (
    unfold FrameOf
    unfold State.recheckPeer
    try dsimp only
    repeat' first
      | (with_reducible assumption) | ((with_reducible refine sub_step (by assumption) ?_); first | rfl | decide)
      | (with_reducible apply flushPort_fr) | (with_reducible apply helloAgain_fr) | (with_reducible apply holdPeer_fr)
      | (with_reducible apply noticeDown_fr) | (with_reducible apply reroute_fr) | (with_reducible apply updLink_fr) | (split)
      | (intro _) | (refine frame_fst ?_ (by assumption)) | (dsimp only) | (with_reducible apply frame_any))) only [framed]

theorem repairLanes_fr {E : Nat} {s0 s : State} (h : Frame E s0 s) {ls : List Nat} {repair : Bool} (hE : Sub 0x80 E := by first | assumption | exact sub_step (by assumption) (by decide)) :
    Frame E s0 (State.repairLanes s ls repair) := by
  simp (disch := (
    unfold FrameOf
    unfold State.repairLanes
    try dsimp only
    repeat' first
      | (with_reducible assumption) | ((with_reducible refine sub_step (by assumption) ?_); first | rfl | decide)
      | (with_reducible apply wr_fr) | (with_reducible apply frame_foldl) | (split) | (intro _)
      | (refine frame_fst ?_ (by assumption)) | (dsimp only) | (with_reducible apply frame_any))) only [framed]

theorem applyPort_fr {E : Nat} {s0 s : State} (h : Frame E s0 s) {p : Nat} {old : Nat} {new : Nat} {repair : Bool} (hE : Sub 0x280c0 E := by first | assumption | exact sub_step (by assumption) (by decide)) :
    Frame E s0 (State.applyPort s p old new repair) := by
  simp (disch := (
    unfold FrameOf
    unfold State.applyPort
    try dsimp only
    repeat' first
      | (with_reducible assumption) | ((with_reducible refine sub_step (by assumption) ?_); first | rfl | decide)
      | (with_reducible apply askRetrain_fr) | (with_reducible apply clearEn_fr) | (with_reducible apply laneStop_fr)
      | (with_reducible apply recheckPeer_fr) | (with_reducible apply repairLanes_fr) | (with_reducible apply startPort_fr)
      | (with_reducible apply frame_foldl) | (split) | (intro _) | (refine frame_fst ?_ (by assumption)) | (dsimp only)
      | (with_reducible apply frame_any))) only [framed]

theorem applyBank_fr {E : Nat} {s0 s : State} (h : Frame E s0 s) {old : Nat} {new : Nat} (hE : Sub 0x280c0 E := by first | assumption | exact sub_step (by assumption) (by decide)) :
    Frame E s0 (State.applyBank s old new) := by
  simp (disch := (
    unfold FrameOf
    unfold State.applyBank
    try dsimp only
    repeat' first
      | (with_reducible assumption) | ((with_reducible refine sub_step (by assumption) ?_); first | rfl | decide)
      | (with_reducible refine sub_flds ?_ ?_) | (with_reducible exact sub_zero) | (with_reducible apply applyLane_fr)
      | (with_reducible apply applyPort_fr) | (with_reducible apply recalAsk_fr) | (with_reducible apply wrAll_fr)
      | (with_reducible apply frame_foldl) | (split) | (intro _) | (refine frame_fst ?_ (by assumption)) | (dsimp only)
      | (with_reducible apply frame_any))) only [framed]

theorem copyBank_fr {E : Nat} {s0 s : State} (h : Frame E s0 s) {a : Nat} {b : Nat} (hE : Sub 0x1000000 E := by first | assumption | exact sub_step (by assumption) (by decide)) :
    Frame E s0 (State.copyBank s a b) := by
  simp (disch := (
    unfold FrameOf
    unfold State.copyBank
    try dsimp only
    repeat' first
      | (with_reducible assumption) | ((with_reducible refine sub_step (by assumption) ?_); first | rfl | decide) | (split)
      | (intro _) | (refine frame_fst ?_ (by assumption)) | (dsimp only) | (with_reducible apply frame_any)
      | (with_reducible apply frame_banks))) only [framed]

theorem routeRun_fr {E : Nat} {s0 s : State} (h : Frame E s0 s) {j : RouteJob} (hE : Sub 0x10285c0 E := by first | assumption | exact sub_step (by assumption) (by decide)) :
    Frame E s0 (State.routeRun s j).1 := by
  unfold State.routeRun
  split
  · exact putEntries_fr h
  · extract_lets new old k s1 s2 s3
    have h1 : Frame E s0 s1 := incWrap_fr (wr_fr h)
    have h2 : Frame E s0 s2 := applyBank_fr h1
    have h3 : Frame E s0 s3 := frame_ite (copyBank_fr h2) h2
    clear_value s3 s2 s1 k old new
    split
    · exact h
    · split
      · exact h
      · exact extendMeas_fr h3

theorem routeStart_fr {E : Nat} {s0 s : State} (h : Frame E s0 s) {r : CmdSrc × TallyField} {j : RouteJob} (hE : Sub 0x10285c0 E := by first | assumption | exact sub_step (by assumption) (by decide)) :
    Frame E s0 (State.routeStart s r j).1 := by
  simp (disch := (
    unfold FrameOf
    unfold State.routeStart
    try dsimp only
    repeat' first
      | (with_reducible assumption) | ((with_reducible refine sub_step (by assumption) ?_); first | rfl | decide)
      | (with_reducible apply routeRun_fr) | (split) | (intro _) | (refine frame_fst ?_ (by assumption)) | (dsimp only)
      | (with_reducible apply frame_any))) only [framed]

theorem routeGo_fr {E : Nat} {s0 s : State} (h : Frame E s0 s) {y0 : List ((CmdSrc × TallyField) × RouteJob)} (hE : Sub 0x1b285c2 E := by first | assumption | exact sub_step (by assumption) (by decide)) :
    Frame E s0 (State.routeGo s y0) := by
  simp (disch := (
    unfold FrameOf
    induction y0 generalizing s  with
    | nil =>
      unfold State.routeGo
      try dsimp only
      repeat' first
        | (with_reducible assumption) | ((with_reducible refine sub_step (by assumption) ?_); first | rfl | decide)
        | (with_reducible apply endPriv_fr) | (with_reducible apply routeRun_fr) | (with_reducible apply ih) | (split) | (intro _)
        | (refine frame_fst ?_ (by assumption)) | (dsimp only) | (with_reducible apply frame_any)
    | cons a r ih =>
      unfold State.routeGo
      try dsimp only
      repeat' first
        | (with_reducible assumption) | ((with_reducible refine sub_step (by assumption) ?_); first | rfl | decide)
        | (with_reducible apply endPriv_fr) | (with_reducible apply routeRun_fr) | (with_reducible apply ih) | (split) | (intro _)
        | (refine frame_fst ?_ (by assumption)) | (dsimp only) | (with_reducible apply frame_any))) only [framed]

theorem bodyRouteWrite_fr {E : Nat} {s0 s : State} (h : Frame E s0 s) {src : CmdSrc} {p : Priv} {x : PrivData} (hE : Sub 0x10285c0 E := by first | assumption | exact sub_step (by assumption) (by decide)) :
    Frame E s0 (State.bodyRouteWrite s src p x).1 := by
  simp (disch := (
    unfold FrameOf
    unfold State.bodyRouteWrite
    try dsimp only
    repeat' first
      | (with_reducible assumption) | ((with_reducible refine sub_step (by assumption) ?_); first | rfl | decide)
      | (with_reducible apply checkTrailer_fr) | (with_reducible apply routeStart_fr) | (split) | (intro _)
      | (refine frame_fst ?_ (by assumption)) | (dsimp only) | (with_reducible apply frame_any))) only [framed]

theorem bodyRouteCommit_fr {E : Nat} {s0 s : State} (h : Frame E s0 s) {src : CmdSrc} {p : Priv} {x : PrivData} (hE : Sub 0x10285c0 E := by first | assumption | exact sub_step (by assumption) (by decide)) :
    Frame E s0 (State.bodyRouteCommit s src p x).1 := by
  simp (disch := (
    unfold FrameOf
    unfold State.bodyRouteCommit
    try dsimp only
    repeat' first
      | (with_reducible assumption) | ((with_reducible refine sub_step (by assumption) ?_); first | rfl | decide)
      | (with_reducible apply checkTrailer_fr) | (with_reducible apply routeStart_fr) | (split) | (intro _)
      | (refine frame_fst ?_ (by assumption)) | (dsimp only) | (with_reducible apply frame_any))) only [framed]

theorem execRouteWrite_fr {E : Nat} {s0 s : State} (h : Frame E s0 s) {src : CmdSrc} {p : Priv} {x : PrivData} (hE : Sub 0x1b285c2 E := by first | assumption | exact sub_step (by assumption) (by decide)) :
    OFrame E s0 (execRouteWrite src p x s) := by
  simp (disch := (
    unfold OFrameOf
    unfold execRouteWrite
    try dsimp only
    repeat' first
      | (with_reducible apply OFrame.next) | (with_reducible assumption)
      | ((with_reducible refine sub_step (by assumption) ?_); first | rfl | decide) | (with_reducible apply bodyRouteWrite_fr)
      | (with_reducible apply privRow_fr) | (split) | (intro _) | (refine frame_fst ?_ (by assumption)) | (dsimp only)
      | (with_reducible apply frame_any))) only [oframed]

theorem execRouteCommit_fr {E : Nat} {s0 s : State} (h : Frame E s0 s) {src : CmdSrc} {p : Priv} {x : PrivData} (hE : Sub 0x1b285c2 E := by first | assumption | exact sub_step (by assumption) (by decide)) :
    OFrame E s0 (execRouteCommit src p x s) := by
  simp (disch := (
    unfold OFrameOf
    unfold execRouteCommit
    try dsimp only
    repeat' first
      | (with_reducible apply OFrame.next) | (with_reducible assumption)
      | ((with_reducible refine sub_step (by assumption) ?_); first | rfl | decide) | (with_reducible apply bodyRouteCommit_fr)
      | (with_reducible apply privRow_fr) | (split) | (intro _) | (refine frame_fst ?_ (by assumption)) | (dsimp only)
      | (with_reducible apply frame_any))) only [oframed]

end Sys2Proof.Laws
end

