-- ==== Sys2Proof/Laws/FrUnitCmds.lean ====
section
/-! SUPPORT. The frame of every operation of Machine/UnitCmds.lean (`Laws.Frame`). -/

namespace Sys2Proof.Laws

open Sys2Proof.Machine

set_option linter.all false
set_option Elab.async false

theorem putCode_fr {E : Nat} {s0 s : State} (h : Frame E s0 s) {f : Nat} {y0 : Nat} {y1 : List Nat} :
    Frame E s0 (State.putCode s f y0 y1) := by
  induction y1 generalizing s y0 with
  | nil => exact h
  | cons a r ih => exact ih (frame_any h)

theorem loadImage_fr {E : Nat} {s0 s : State} (h : Frame E s0 s) {f : Nat} {b : ImageBlock} (hE : Sub 0x400400 E := by first | assumption | exact sub_step (by assumption) (by decide)) :
    Frame E s0 (State.loadImage s f b) := by
  unfold State.loadImage
  extract_lets src s1 s2 s3
  have h1 : Frame E s0 s1 := by
    subst s1
    split
    · exact clearJobImage_fr h
    · exact frame_any (updFerry_fr h)
  have h2 : Frame E s0 s2 := putCode_fr h1
  clear_value s2
  exact frame_ite (wrAll_fr (updFerry_fr h2)) (wr_fr (updFerry_fr h2))

theorem imageToken_fr {E : Nat} {s0 s : State} (h : Frame E s0 s) {o : Offer} (hE : Sub 0x2028000 E := by first | assumption | exact sub_step (by assumption) (by decide)) :
    Frame E s0 (State.imageToken s o).1 := by
  simp (disch := (
    unfold FrameOf
    unfold State.imageToken
    try dsimp only
    repeat' first
      | (with_reducible assumption) | ((with_reducible refine sub_step (by assumption) ?_); first | rfl | decide)
      | (with_reducible apply grantToken_fr) | (with_reducible apply jobToken_fr) | (split) | (intro _)
      | (refine frame_fst ?_ (by assumption)) | (dsimp only) | (with_reducible apply frame_any))) only [framed]

theorem loadChecked_fr {E : Nat} {s0 s : State} (h : Frame E s0 s) {f : Nat} {bs : List Byte} {t : Token} (hE : Sub 0x428400 E := by first | assumption | exact sub_step (by assumption) (by decide)) :
    Frame E s0 (State.loadChecked s f bs t).1 := by
  simp (disch := (
    unfold FrameOf
    unfold State.loadChecked
    try dsimp only
    repeat' first
      | (with_reducible assumption) | ((with_reducible refine sub_step (by assumption) ?_); first | rfl | decide)
      | (with_reducible apply authFailed_fr) | (with_reducible apply extendMeas_fr) | (with_reducible apply loadImage_fr)
      | (with_reducible apply logRec_fr) | (split) | (intro _) | (refine frame_fst ?_ (by assumption)) | (dsimp only)
      | (with_reducible apply frame_any))) only [framed]

theorem bodyLoadProgram_fr {E : Nat} {s0 s : State} (h : Frame E s0 s) {src : CmdSrc} {p : Priv} {x : PrivData} (hE : Sub 0x2428400 E := by first | assumption | exact sub_step (by assumption) (by decide)) :
    Frame E s0 (State.bodyLoadProgram s src p x).1 := by
  simp (disch := (
    unfold FrameOf
    unfold State.bodyLoadProgram
    try dsimp only
    repeat' first
      | (with_reducible assumption) | ((with_reducible refine sub_step (by assumption) ?_); first | rfl | decide)
      | (with_reducible apply imageToken_fr) | (with_reducible apply loadChecked_fr) | (split) | (intro _)
      | (refine frame_fst ?_ (by assumption)) | (dsimp only) | (with_reducible apply frame_any))) only [framed]

theorem bodyFerryDrain_fr {E : Nat} {s0 s : State} (h : Frame E s0 s) {src : CmdSrc} {p : Priv} {x : PrivData} (hE : Sub 0xb28402 E := by first | assumption | exact sub_step (by assumption) (by decide)) :
    Frame E s0 (State.bodyFerryDrain s src p x).1 := by
  simp (disch := (
    unfold FrameOf
    unfold State.bodyFerryDrain
    try dsimp only
    repeat' first
      | (with_reducible assumption) | ((with_reducible refine sub_step (by assumption) ?_); first | rfl | decide)
      | (with_reducible apply haltFerryQueues_fr) | (with_reducible apply updFerry_fr) | (with_reducible apply wr_fr) | (split)
      | (intro _) | (refine frame_fst ?_ (by assumption)) | (dsimp only) | (with_reducible apply frame_any))) only [framed]

theorem drainOver_fr {E : Nat} {s0 s : State} (h : Frame E s0 s) {f : Nat} (hE : Sub 0xb28402 E := by first | assumption | exact sub_step (by assumption) (by decide)) :
    Frame E s0 (State.drainOver s f) := by
  simp (disch := (
    unfold FrameOf
    unfold State.drainOver
    try dsimp only
    repeat' first
      | (with_reducible assumption) | ((with_reducible refine sub_step (by assumption) ?_); first | rfl | decide)
      | (with_reducible apply endPriv_fr) | (with_reducible apply updFerry_fr) | (with_reducible apply wr_fr) | (split)
      | (intro _) | (refine frame_fst ?_ (by assumption)) | (dsimp only) | (with_reducible apply frame_any))) only [framed]

theorem rerunQueue_fr {E : Nat} {s0 s : State} (h : Frame E s0 s) {q : Nat} (hE : Sub 0xb28002 E := by first | assumption | exact sub_step (by assumption) (by decide)) :
    Frame E s0 (State.rerunQueue s q) := by
  simp (disch := (
    unfold FrameOf
    unfold State.rerunQueue
    try dsimp only
    repeat' first
      | (with_reducible assumption) | ((with_reducible refine sub_step (by assumption) ?_); first | rfl | decide)
      | (with_reducible apply checkDrained_fr) | (with_reducible apply publish_fr) | (with_reducible apply wr_fr) | (split)
      | (intro _) | (refine frame_fst ?_ (by assumption)) | (dsimp only) | (with_reducible apply frame_any))) only [framed]

theorem runFerry_fr {E : Nat} {s0 s : State} (h : Frame E s0 s) {f : Nat} (hE : Sub 0xb28402 E := by first | assumption | exact sub_step (by assumption) (by decide)) :
    Frame E s0 (State.runFerry s f) := by
  simp (disch := (
    unfold FrameOf
    unfold State.runFerry
    try dsimp only
    repeat' first
      | (with_reducible assumption) | ((with_reducible refine sub_step (by assumption) ?_); first | rfl | decide)
      | (with_reducible apply forEach_fr) | (with_reducible apply rerunQueue_fr) | (with_reducible apply wr_fr) | (split)
      | (intro _) | (refine frame_fst ?_ (by assumption)) | (dsimp only) | (with_reducible apply frame_any))) only [framed]

theorem bodyFerryResume_fr {E : Nat} {s0 s : State} (h : Frame E s0 s) {src : CmdSrc} {p : Priv} {x : PrivData} (hE : Sub 0xb28402 E := by first | assumption | exact sub_step (by assumption) (by decide)) :
    Frame E s0 (State.bodyFerryResume s src p x).1 := by
  simp (disch := (
    unfold FrameOf
    unfold State.bodyFerryResume
    try dsimp only
    repeat' first
      | (with_reducible assumption) | ((with_reducible refine sub_step (by assumption) ?_); first | rfl | decide)
      | (with_reducible apply runFerry_fr) | (split) | (intro _) | (refine frame_fst ?_ (by assumption)) | (dsimp only)
      | (with_reducible apply frame_any))) only [framed]

theorem bindQueue_fr {E : Nat} {s0 s : State} (h : Frame E s0 s) {q : Nat} {b : BindBlock} (hE : Sub 0x2402 E := by first | assumption | exact sub_step (by assumption) (by decide)) :
    Frame E s0 (State.bindQueue s q b) := by
  simp (disch := (
    unfold FrameOf
    unfold State.bindQueue
    try dsimp only
    repeat' first
      | (with_reducible assumption) | ((with_reducible refine sub_step (by assumption) ?_); first | rfl | decide)
      | (with_reducible refine sub_flds ?_ ?_) | (with_reducible exact sub_zero) | (with_reducible apply disarm_fr)
      | (with_reducible apply setFields_fr) | (with_reducible apply slot_fr) | (with_reducible apply updQ_fr)
      | (with_reducible apply wr_fr) | (with_reducible apply wrAll_fr) | (split) | (intro _)
      | (refine frame_fst ?_ (by assumption)) | (dsimp only) | (with_reducible apply frame_any))) only [framed]

theorem bodyQueueBind_fr {E : Nat} {s0 s : State} (h : Frame E s0 s) {src : CmdSrc} {p : Priv} {x : PrivData} (hE : Sub 0x202a402 E := by first | assumption | exact sub_step (by assumption) (by decide)) :
    Frame E s0 (State.bodyQueueBind s src p x).1 := by
  simp (disch := (
    unfold FrameOf
    unfold State.bodyQueueBind
    try dsimp only
    repeat' first
      | (with_reducible assumption) | ((with_reducible refine sub_step (by assumption) ?_); first | rfl | decide)
      | (with_reducible apply bindQueue_fr) | (with_reducible apply jobToken_fr) | (with_reducible apply slot_fr) | (split)
      | (intro _) | (refine frame_fst ?_ (by assumption)) | (dsimp only) | (with_reducible apply frame_any))) only [framed]

theorem flushTx_fr {E : Nat} {s0 s : State} (h : Frame E s0 s) {slot : Option Nat} {levels : Nat} {base : Nat} {stop : Nat} (hE : Sub 0x400 E := by first | assumption | exact sub_step (by assumption) (by decide)) :
    Frame E s0 (State.flushTx s slot levels base stop).1 := by
  simp (disch := (
    unfold FrameOf
    unfold State.flushTx
    try dsimp only
    repeat' first
      | (with_reducible assumption) | ((with_reducible refine sub_step (by assumption) ?_); first | rfl | decide)
      | (with_reducible apply slot_fr) | (split) | (intro _) | (refine frame_fst ?_ (by assumption)) | (dsimp only)
      | (with_reducible apply frame_any))) only [framed]

theorem invalFlush_fr {E : Nat} {s0 s : State} (h : Frame E s0 s) {i : Inval} (hE : Sub 0x20000 E := by first | assumption | exact sub_step (by assumption) (by decide)) :
    Frame E s0 (State.invalFlush s i).1 := by
  have k : ∀ (l : List Func) (a : State × Inval), Frame E s0 a.1 → Frame E s0 (l.foldl
      (fun a f => (a.1.startFlush .invalFlush f, ⟨a.2.src, a.1.nextId :: a.2.waitFor, a.2.flush⟩)) a).1 := by
    intro l
    induction l with
    | nil => exact fun a k => k
    | cons f r ih => exact fun a k => ih _ (startFlush_fr k)
  exact k _ _ h

theorem bodyInvalidate_fr {E : Nat} {s0 s : State} (h : Frame E s0 s) {src : CmdSrc} {p : Priv} {x : PrivData} (hE : Sub 0x20400 E := by first | assumption | exact sub_step (by assumption) (by decide)) :
    Frame E s0 (State.bodyInvalidate s src p x).1 := by
  simp (disch := (
    unfold FrameOf
    unfold State.bodyInvalidate
    try dsimp only
    repeat' first
      | (with_reducible assumption) | ((with_reducible refine sub_step (by assumption) ?_); first | rfl | decide)
      | (with_reducible apply flushTx_fr) | (with_reducible apply invalFlush_fr) | (with_reducible apply slot_fr) | (split)
      | (intro _) | (refine frame_fst ?_ (by assumption)) | (dsimp only) | (with_reducible apply frame_any))) only [framed]

theorem invalOver_fr {E : Nat} {s0 s : State} (h : Frame E s0 s) (hE : Sub 0xb28002 E := by first | assumption | exact sub_step (by assumption) (by decide)) :
    Frame E s0 (State.invalOver s) := by
  simp (disch := (
    unfold FrameOf
    unfold State.invalOver
    try dsimp only
    repeat' first
      | (with_reducible assumption) | ((with_reducible refine sub_step (by assumption) ?_); first | rfl | decide)
      | (with_reducible apply count_fr) | (with_reducible apply endPriv_fr) | (with_reducible apply invalFlush_fr) | (split)
      | (intro _) | (refine frame_fst ?_ (by assumption)) | (dsimp only) | (with_reducible apply frame_any))) only [framed]

theorem bodySnapshot_fr {E : Nat} {s0 s : State} (h : Frame E s0 s) {src : CmdSrc} {p : Priv} {x : PrivData} :
    Frame E s0 (State.bodySnapshot s src p x).1 := by
  simp (disch := (
    unfold FrameOf
    unfold State.bodySnapshot
    try dsimp only
    repeat' first
      | (with_reducible assumption) | (with_reducible apply arm_fr) | (split) | (intro _)
      | (refine frame_fst ?_ (by assumption)) | (dsimp only) | (with_reducible apply frame_any))) only [framed]

theorem privBody_fr {E : Nat} {s0 s : State} (h : Frame E s0 s) {op : PrivOp} {src : CmdSrc} {p : Priv} {x : PrivData} (hE : Sub 0x7f2b5fb E := by first | assumption | exact sub_step (by assumption) (by decide)) :
    Frame E s0 (State.privBody s op src p x).1 := by
  simp (disch := (
    unfold FrameOf
    unfold State.privBody
    try dsimp only
    repeat' first
      | (with_reducible assumption) | ((with_reducible refine sub_step (by assumption) ?_); first | rfl | decide)
      | (with_reducible apply bodyFerryDrain_fr) | (with_reducible apply bodyFerryResume_fr)
      | (with_reducible apply bodyInvalidate_fr) | (with_reducible apply bodyJobClose_fr)
      | (with_reducible apply bodyJobOpen_fr) | (with_reducible apply bodyKeyInstall_fr)
      | (with_reducible apply bodyLoadProgram_fr) | (with_reducible apply bodyQueueBind_fr)
      | (with_reducible apply bodyRegionDeregister_fr) | (with_reducible apply bodyRegionRegister_fr)
      | (with_reducible apply bodyRouteCommit_fr) | (with_reducible apply bodyRouteWrite_fr)
      | (with_reducible apply bodySnapshot_fr) | (with_reducible apply bodyTreeBuild_fr)
      | (with_reducible apply bodyWindowOpen_fr) | (with_reducible apply bodyWindowRevoke_fr) | (split) | (intro _)
      | (refine frame_fst ?_ (by assumption)) | (dsimp only) | (with_reducible apply frame_any))) only [framed]

theorem execLoadProgram_fr {E : Nat} {s0 s : State} (h : Frame E s0 s) {src : CmdSrc} {p : Priv} {x : PrivData} (hE : Sub 0x2f28402 E := by first | assumption | exact sub_step (by assumption) (by decide)) :
    OFrame E s0 (execLoadProgram src p x s) := by
  simp (disch := (
    unfold OFrameOf
    unfold execLoadProgram
    try dsimp only
    repeat' first
      | (with_reducible apply OFrame.next) | (with_reducible assumption)
      | ((with_reducible refine sub_step (by assumption) ?_); first | rfl | decide) | (with_reducible apply bodyLoadProgram_fr)
      | (with_reducible apply privRow_fr) | (split) | (intro _) | (refine frame_fst ?_ (by assumption)) | (dsimp only)
      | (with_reducible apply frame_any))) only [oframed]

theorem execFerryDrain_fr {E : Nat} {s0 s : State} (h : Frame E s0 s) {src : CmdSrc} {p : Priv} {x : PrivData} (hE : Sub 0xb28402 E := by first | assumption | exact sub_step (by assumption) (by decide)) :
    OFrame E s0 (execFerryDrain src p x s) := by
  simp (disch := (
    unfold OFrameOf
    unfold execFerryDrain
    try dsimp only
    repeat' first
      | (with_reducible apply OFrame.next) | (with_reducible assumption)
      | ((with_reducible refine sub_step (by assumption) ?_); first | rfl | decide) | (with_reducible apply bodyFerryDrain_fr)
      | (with_reducible apply privRow_fr) | (split) | (intro _) | (refine frame_fst ?_ (by assumption)) | (dsimp only)
      | (with_reducible apply frame_any))) only [oframed]

theorem execFerryDrainComplete_fr {E : Nat} {s0 s : State} (h : Frame E s0 s) {f : Nat} (hE : Sub 0xb28402 E := by first | assumption | exact sub_step (by assumption) (by decide)) :
    OFrame E s0 (execFerryDrainComplete f s) := by
  simp (disch := (
    unfold OFrameOf
    unfold execFerryDrainComplete
    try dsimp only
    repeat' first
      | (with_reducible apply OFrame.next) | (with_reducible assumption)
      | ((with_reducible refine sub_step (by assumption) ?_); first | rfl | decide) | (with_reducible apply drainOver_fr)
      | (with_reducible apply whenUp_fr) | (split) | (intro _) | (refine frame_fst ?_ (by assumption)) | (dsimp only)
      | (with_reducible apply frame_any))) only [oframed]

theorem execFerryResume_fr {E : Nat} {s0 s : State} (h : Frame E s0 s) {src : CmdSrc} {p : Priv} {x : PrivData} (hE : Sub 0xb28402 E := by first | assumption | exact sub_step (by assumption) (by decide)) :
    OFrame E s0 (execFerryResume src p x s) := by
  simp (disch := (
    unfold OFrameOf
    unfold execFerryResume
    try dsimp only
    repeat' first
      | (with_reducible apply OFrame.next) | (with_reducible assumption)
      | ((with_reducible refine sub_step (by assumption) ?_); first | rfl | decide) | (with_reducible apply bodyFerryResume_fr)
      | (with_reducible apply privRow_fr) | (split) | (intro _) | (refine frame_fst ?_ (by assumption)) | (dsimp only)
      | (with_reducible apply frame_any))) only [oframed]

theorem execQueueBind_fr {E : Nat} {s0 s : State} (h : Frame E s0 s) {src : CmdSrc} {p : Priv} {x : PrivData} (hE : Sub 0x2b2a402 E := by first | assumption | exact sub_step (by assumption) (by decide)) :
    OFrame E s0 (execQueueBind src p x s) := by
  simp (disch := (
    unfold OFrameOf
    unfold execQueueBind
    try dsimp only
    repeat' first
      | (with_reducible apply OFrame.next) | (with_reducible assumption)
      | ((with_reducible refine sub_step (by assumption) ?_); first | rfl | decide) | (with_reducible apply bodyQueueBind_fr)
      | (with_reducible apply privRow_fr) | (split) | (intro _) | (refine frame_fst ?_ (by assumption)) | (dsimp only)
      | (with_reducible apply frame_any))) only [oframed]

theorem execInvalidate_fr {E : Nat} {s0 s : State} (h : Frame E s0 s) {src : CmdSrc} {p : Priv} {x : PrivData} (hE : Sub 0xb28402 E := by first | assumption | exact sub_step (by assumption) (by decide)) :
    OFrame E s0 (execInvalidate src p x s) := by
  simp (disch := (
    unfold OFrameOf
    unfold execInvalidate
    try dsimp only
    repeat' first
      | (with_reducible apply OFrame.next) | (with_reducible assumption)
      | ((with_reducible refine sub_step (by assumption) ?_); first | rfl | decide) | (with_reducible apply bodyInvalidate_fr)
      | (with_reducible apply privRow_fr) | (split) | (intro _) | (refine frame_fst ?_ (by assumption)) | (dsimp only)
      | (with_reducible apply frame_any))) only [oframed]

theorem execInvalidateComplete_fr {E : Nat} {s0 s : State} (h : Frame E s0 s) (hE : Sub 0xb28002 E := by first | assumption | exact sub_step (by assumption) (by decide)) :
    OFrame E s0 (execInvalidateComplete s) := by
  simp (disch := (
    unfold OFrameOf
    unfold execInvalidateComplete
    try dsimp only
    repeat' first
      | (with_reducible apply OFrame.next) | (with_reducible assumption)
      | ((with_reducible refine sub_step (by assumption) ?_); first | rfl | decide) | (with_reducible apply invalOver_fr)
      | (with_reducible apply whenUp_fr) | (split) | (intro _) | (refine frame_fst ?_ (by assumption)) | (dsimp only)
      | (with_reducible apply frame_any))) only [oframed]

theorem execSnapshot_fr {E : Nat} {s0 s : State} (h : Frame E s0 s) {src : CmdSrc} {p : Priv} {x : PrivData} (hE : Sub 0xb28002 E := by first | assumption | exact sub_step (by assumption) (by decide)) :
    OFrame E s0 (execSnapshot src p x s) := by
  simp (disch := (
    unfold OFrameOf
    unfold execSnapshot
    try dsimp only
    repeat' first
      | (with_reducible apply OFrame.next) | (with_reducible assumption)
      | ((with_reducible refine sub_step (by assumption) ?_); first | rfl | decide) | (with_reducible apply bodySnapshot_fr)
      | (with_reducible apply privRow_fr) | (split) | (intro _) | (refine frame_fst ?_ (by assumption)) | (dsimp only)
      | (with_reducible apply frame_any))) only [oframed]

end Sys2Proof.Laws
end

