-- ==== Sys2Proof/Laws/FrImages.lean ====
section
/-! SUPPORT. The frame of every operation of Machine/Images.lean (`Laws.Frame`). -/

namespace Sys2Proof.Laws

open Sys2Proof.Machine

set_option linter.all false
set_option Elab.async false

theorem placeSlot_fr {E : Nat} {s0 s : State} (h : Frame E s0 s) {t : Nat} {k : Nat} {m : ImgSlot} (hE : Sub 0x4000 E := by first | assumption | exact sub_step (by assumption) (by decide)) :
    Frame E s0 (State.placeSlot s t k m) := by
  simp (disch := (
    unfold FrameOf
    unfold State.placeSlot
    try dsimp only
    repeat' first
      | (with_reducible assumption) | ((with_reducible refine sub_step (by assumption) ?_); first | rfl | decide)
      | (with_reducible apply setFlag_fr) | (with_reducible apply wr_fr) | (split) | (intro _)
      | (refine frame_fst ?_ (by assumption)) | (dsimp only) | (with_reducible apply frame_any))) only [framed]

theorem bootSelect_fr {E : Nat} {s0 s : State} (h : Frame E s0 s) {t : Nat} (hE : Sub 0xc000 E := by first | assumption | exact sub_step (by assumption) (by decide)) :
    Frame E s0 (State.bootSelect s t) := by
  simp (disch := (
    unfold FrameOf
    unfold State.bootSelect
    try dsimp only
    repeat' first
      | (with_reducible assumption) | ((with_reducible refine sub_step (by assumption) ?_); first | rfl | decide)
      | (with_reducible apply logRec_fr) | (with_reducible apply raise_fr) | (with_reducible apply setFlag_fr)
      | (with_reducible apply wr_fr) | (split) | (intro _) | (refine frame_fst ?_ (by assumption)) | (dsimp only)
      | (with_reducible apply frame_any))) only [framed]

theorem runActive_fr {E : Nat} {s0 s : State} (h : Frame E s0 s) {t : Nat} {u : Nat} :
    Frame E s0 (State.runActive s t u) := by
  simp (disch := (
    unfold FrameOf
    unfold State.runActive
    try dsimp only
    repeat' first
      | (with_reducible assumption) | (split) | (intro _) | (refine frame_fst ?_ (by assumption)) | (dsimp only)
      | (with_reducible apply frame_any))) only [framed]

theorem firstRun_fr {E : Nat} {s0 s : State} (h : Frame E s0 s) {t : Nat} (hE : Sub 0x400 E := by first | assumption | exact sub_step (by assumption) (by decide)) :
    Frame E s0 (State.firstRun s t) := by
  simp (disch := (
    unfold FrameOf
    unfold State.firstRun
    try dsimp only
    repeat' first
      | (with_reducible assumption) | ((with_reducible refine sub_step (by assumption) ?_); first | rfl | decide)
      | (with_reducible apply extendMeas_fr) | (split) | (intro _) | (refine frame_fst ?_ (by assumption)) | (dsimp only)
      | (with_reducible apply frame_any))) only [framed]

theorem beginStep_fr {E : Nat} {s0 s : State} (h : Frame E s0 s) {t : Nat} {u : Nat} (hE : Sub 0xb28402 E := by first | assumption | exact sub_step (by assumption) (by decide)) :
    Frame E s0 (State.beginStep s t u).1 := by
  simp (disch := (
    unfold FrameOf
    unfold State.beginStep
    try dsimp only
    repeat' first
      | (with_reducible assumption) | ((with_reducible refine sub_step (by assumption) ?_); first | rfl | decide)
      | (with_reducible apply askRetrain_fr) | (with_reducible apply catchersMoved_fr)
      | (with_reducible apply haltFerryQueues_fr) | (with_reducible apply wr_fr) | (with_reducible apply frame_foldl) | (split)
      | (intro _) | (refine frame_fst ?_ (by assumption)) | (dsimp only) | (with_reducible apply frame_any))) only [framed]

theorem liveBegin_fr {E : Nat} {s0 s : State} (h : Frame E s0 s) (hE : Sub 0xb28402 E := by first | assumption | exact sub_step (by assumption) (by decide)) :
    Frame E s0 (State.liveBegin s) := by
  simp (disch := (
    unfold FrameOf
    unfold State.liveBegin
    try dsimp only
    repeat' first
      | (with_reducible assumption) | ((with_reducible refine sub_step (by assumption) ?_); first | rfl | decide)
      | (with_reducible apply beginStep_fr) | (split) | (intro _) | (refine frame_fst ?_ (by assumption)) | (dsimp only)
      | (with_reducible apply frame_any))) only [framed]

theorem liveStart_fr {E : Nat} {s0 s : State} (h : Frame E s0 s) {t : Nat} {us : List Nat} {y0 : List Nat} (hE : Sub 0xb2c402 E := by first | assumption | exact sub_step (by assumption) (by decide)) :
    Frame E s0 (State.liveStart s t us y0) := by
  simp (disch := (
    unfold FrameOf
    induction y0 generalizing s t us with
    | nil =>
      unfold State.liveStart
      try dsimp only
      repeat' first
        | (with_reducible assumption) | ((with_reducible refine sub_step (by assumption) ?_); first | rfl | decide)
        | (with_reducible refine sub_flds ?_ ?_) | (with_reducible exact sub_zero) | (with_reducible apply liveBegin_fr)
        | (with_reducible apply wrAll_fr) | (with_reducible apply ih) | (split) | (intro _)
        | (refine frame_fst ?_ (by assumption)) | (dsimp only) | (with_reducible apply frame_any)
    | cons a r ih =>
      unfold State.liveStart
      try dsimp only
      repeat' first
        | (with_reducible assumption) | ((with_reducible refine sub_step (by assumption) ?_); first | rfl | decide)
        | (with_reducible refine sub_flds ?_ ?_) | (with_reducible exact sub_zero) | (with_reducible apply liveBegin_fr)
        | (with_reducible apply wrAll_fr) | (with_reducible apply ih) | (split) | (intro _)
        | (refine frame_fst ?_ (by assumption)) | (dsimp only) | (with_reducible apply frame_any))) only [framed]

theorem takeImage_fr {E : Nat} {s0 s : State} (h : Frame E s0 s) {t : Nat} {u : Nat} (hE : Sub 0xf28402 E := by first | assumption | exact sub_step (by assumption) (by decide)) :
    Frame E s0 (State.takeImage s t u) := by
  simp (disch := (
    unfold FrameOf
    unfold State.takeImage
    try dsimp only
    repeat' first
      | (with_reducible assumption) | ((with_reducible refine sub_step (by assumption) ?_); first | rfl | decide)
      | (with_reducible apply catchersMoved_fr) | (with_reducible apply firstRun_fr) | (with_reducible apply loadImage_fr)
      | (with_reducible apply runActive_fr) | (with_reducible apply runFerry_fr) | (split) | (intro _)
      | (refine frame_fst ?_ (by assumption)) | (dsimp only) | (with_reducible apply frame_any))) only [framed]

theorem liveNext_fr {E : Nat} {s0 s : State} (h : Frame E s0 s) {ok : Bool} (hE : Sub 0x1f2c5c2 E := by first | assumption | exact sub_step (by assumption) (by decide)) :
    Frame E s0 (State.liveNext s ok) := by
  simp (disch := (
    unfold FrameOf
    unfold State.liveNext
    try dsimp only
    repeat' first
      | (with_reducible assumption) | ((with_reducible refine sub_step (by assumption) ?_); first | rfl | decide)
      | (with_reducible apply liveBegin_fr) | (with_reducible apply liveStart_fr) | (with_reducible apply logRec_fr)
      | (with_reducible apply routeGo_fr) | (with_reducible apply takeImage_fr) | (split) | (intro _)
      | (refine frame_fst ?_ (by assumption)) | (dsimp only) | (with_reducible apply frame_any))) only [framed]

theorem execLiveUpdateUnit_fr {E : Nat} {s0 s : State} (h : Frame E s0 s) {ok : Bool} (hE : Sub 0x1f2c5c2 E := by first | assumption | exact sub_step (by assumption) (by decide)) :
    OFrame E s0 (execLiveUpdateUnit ok s) := by
  simp (disch := (
    unfold OFrameOf
    unfold execLiveUpdateUnit
    try dsimp only
    repeat' first
      | (with_reducible apply OFrame.next) | (with_reducible assumption)
      | ((with_reducible refine sub_step (by assumption) ?_); first | rfl | decide) | (with_reducible apply liveNext_fr)
      | (with_reducible apply whenUp_fr) | (split) | (intro _) | (refine frame_fst ?_ (by assumption)) | (dsimp only)
      | (with_reducible apply frame_any))) only [oframed]

theorem iamelReset_fr {E : Nat} {s0 s : State} (h : Frame E s0 s) (hE : Sub 0x4000 E := by first | assumption | exact sub_step (by assumption) (by decide)) :
    Frame E s0 (State.iamelReset s) := by
  simp (disch := (
    unfold FrameOf
    unfold State.iamelReset
    try dsimp only
    repeat' first
      | (with_reducible assumption) | ((with_reducible refine sub_step (by assumption) ?_); first | rfl | decide)
      | (with_reducible apply disarm_fr) | (with_reducible apply incSat_fr) | (with_reducible apply wr_fr) | (split) | (intro _)
      | (refine frame_fst ?_ (by assumption)) | (dsimp only) | (with_reducible apply frame_any))) only [framed]

theorem trialFails_fr {E : Nat} {s0 s : State} (h : Frame E s0 s) (hE : Sub 0xc000 E := by first | assumption | exact sub_step (by assumption) (by decide)) :
    Frame E s0 (State.trialFails s) := by
  simp (disch := (
    unfold FrameOf
    unfold State.trialFails
    try dsimp only
    repeat' first
      | (with_reducible assumption) | ((with_reducible refine sub_step (by assumption) ?_); first | rfl | decide)
      | (with_reducible apply logRec_fr) | (with_reducible apply wr_fr) | (split) | (intro _)
      | (refine frame_fst ?_ (by assumption)) | (dsimp only) | (with_reducible apply frame_any))) only [framed]

theorem iamelStart_fr {E : Nat} {s0 s : State} (h : Frame E s0 s) (hE : Sub 0x4400 E := by first | assumption | exact sub_step (by assumption) (by decide)) :
    Frame E s0 (State.iamelStart s) := by
  simp (disch := (
    unfold FrameOf
    unfold State.iamelStart
    try dsimp only
    repeat' first
      | (with_reducible assumption) | ((with_reducible refine sub_step (by assumption) ?_); first | rfl | decide)
      | (with_reducible apply armIn_fr) | (with_reducible apply firstRun_fr) | (with_reducible apply runActive_fr)
      | (with_reducible apply wr_fr) | (split) | (intro _) | (refine frame_fst ?_ (by assumption)) | (dsimp only)
      | (with_reducible apply frame_any))) only [framed]

theorem iamelBoot_fr {E : Nat} {s0 s : State} (h : Frame E s0 s) (hE : Sub 0xc400 E := by first | assumption | exact sub_step (by assumption) (by decide)) :
    Frame E s0 (State.iamelBoot s) := by
  simp (disch := (
    unfold FrameOf
    unfold State.iamelBoot
    try dsimp only
    repeat' first
      | (with_reducible assumption) | ((with_reducible refine sub_step (by assumption) ?_); first | rfl | decide)
      | (with_reducible apply bootSelect_fr) | (with_reducible apply iamelStart_fr) | (with_reducible apply frame_foldl)
      | (split) | (intro _) | (refine frame_fst ?_ (by assumption)) | (dsimp only) | (with_reducible apply frame_any))) only [framed]

theorem iamelBack_fr {E : Nat} {s0 s : State} (h : Frame E s0 s) (hE : Sub 0x1f2c5c2 E := by first | assumption | exact sub_step (by assumption) (by decide)) :
    Frame E s0 (State.iamelBack s) := by
  unfold State.iamelBack
  extract_lets s1
  replace h : Frame E s0 s1 := iamelBoot_fr h
  clear_value s1
  split
  · exact h
  · extract_lets s2 us s3
    have h2 : Frame E s0 s2 := frame_ite (takeImage_fr h) h
    have h3 : Frame E s0 s3 := by
      clear_value s2
      exact liveStart_fr (frame_any h2)
    exact routeGo_fr h3

theorem execMgmtResetComplete_fr {E : Nat} {s0 s : State} (h : Frame E s0 s) (hE : Sub 0x1f2c5c2 E := by first | assumption | exact sub_step (by assumption) (by decide)) :
    OFrame E s0 (execMgmtResetComplete s) := by
  unfold execMgmtResetComplete
  exact whenRef_fr h fun z k => frame_ite k (iamelBack_fr k)

theorem mgmtReset_fr {E : Nat} {s0 s : State} (h : Frame E s0 s) (hE : Sub 0x4000 E := by first | assumption | exact sub_step (by assumption) (by decide)) :
    Frame E s0 (State.mgmtReset s) := by
  simp (disch := (
    unfold FrameOf
    unfold State.mgmtReset
    try dsimp only
    repeat' first
      | (with_reducible assumption) | ((with_reducible refine sub_step (by assumption) ?_); first | rfl | decide)
      | (with_reducible apply iamelReset_fr) | (split) | (intro _) | (refine frame_fst ?_ (by assumption)) | (dsimp only)
      | (with_reducible apply frame_any))) only [framed]

theorem execPwResetMgmt_fr {E : Nat} {s0 s : State} (h : Frame E s0 s) (hE : Sub 0x4000 E := by first | assumption | exact sub_step (by assumption) (by decide)) :
    OFrame E s0 (execPwResetMgmt s) := by
  simp (disch := (
    unfold OFrameOf
    unfold execPwResetMgmt
    try dsimp only
    repeat' first
      | (with_reducible apply OFrame.next) | (with_reducible assumption)
      | ((with_reducible refine sub_step (by assumption) ?_); first | rfl | decide) | (with_reducible apply mgmtReset_fr)
      | (with_reducible apply whenRef_fr) | (split) | (intro _) | (refine frame_fst ?_ (by assumption)) | (dsimp only)
      | (with_reducible apply frame_any))) only [oframed]

theorem execIamelWatchdogReset_fr {E : Nat} {s0 s : State} (h : Frame E s0 s) (hE : Sub 0xc000 E := by first | assumption | exact sub_step (by assumption) (by decide)) :
    OFrame E s0 (execIamelWatchdogReset s) := by
  simp (disch := (
    unfold OFrameOf
    unfold execIamelWatchdogReset
    try dsimp only
    repeat' first
      | (with_reducible apply OFrame.next) | (with_reducible assumption)
      | ((with_reducible refine sub_step (by assumption) ?_); first | rfl | decide) | (with_reducible apply mgmtReset_fr)
      | (with_reducible apply raise_fr) | (with_reducible apply trialFails_fr) | (with_reducible apply whenRef_fr) | (split)
      | (intro _) | (refine frame_fst ?_ (by assumption)) | (dsimp only) | (with_reducible apply frame_any))) only [oframed]

theorem confirmTrial_fr {E : Nat} {s0 s : State} (h : Frame E s0 s) (hE : Sub 0x4000 E := by first | assumption | exact sub_step (by assumption) (by decide)) :
    Frame E s0 (State.confirmTrial s) := by
  simp (disch := (
    unfold FrameOf
    unfold State.confirmTrial
    try dsimp only
    repeat' first
      | (with_reducible assumption) | ((with_reducible refine sub_step (by assumption) ?_); first | rfl | decide)
      | (with_reducible apply disarm_fr) | (with_reducible apply wr_fr) | (split) | (intro _)
      | (refine frame_fst ?_ (by assumption)) | (dsimp only) | (with_reducible apply frame_any))) only [framed]

theorem execTrialConfirm_fr {E : Nat} {s0 s : State} (h : Frame E s0 s) (hE : Sub 0x4000 E := by first | assumption | exact sub_step (by assumption) (by decide)) :
    OFrame E s0 (execTrialConfirm s) := by
  simp (disch := (
    unfold OFrameOf
    unfold execTrialConfirm
    try dsimp only
    repeat' first
      | (with_reducible apply OFrame.next) | (with_reducible assumption)
      | ((with_reducible refine sub_step (by assumption) ?_); first | rfl | decide) | (with_reducible apply confirmTrial_fr)
      | (with_reducible apply whenRef_fr) | (split) | (intro _) | (refine frame_fst ?_ (by assumption)) | (dsimp only)
      | (with_reducible apply frame_any))) only [oframed]

theorem updateComponent_fr {E : Nat} {s0 s : State} (h : Frame E s0 s) {t : Nat} {bs : List Byte} (hE : Sub 0x4000 E := by first | assumption | exact sub_step (by assumption) (by decide)) :
    Frame E s0 (State.updateComponent s t bs) := by
  simp (disch := (
    unfold FrameOf
    unfold State.updateComponent
    try dsimp only
    repeat' first
      | (with_reducible assumption) | ((with_reducible refine sub_step (by assumption) ?_); first | rfl | decide)
      | (with_reducible apply emit_fr) | (with_reducible apply placeSlot_fr) | (split) | (intro _)
      | (refine frame_fst ?_ (by assumption)) | (dsimp only) | (with_reducible apply frame_any))) only [framed]

theorem execPldmUpdateComponent_fr {E : Nat} {s0 s : State} (h : Frame E s0 s) {t : Nat} {container : List Byte} (hE : Sub 0x4000 E := by first | assumption | exact sub_step (by assumption) (by decide)) :
    OFrame E s0 (execPldmUpdateComponent t container s) := by
  simp (disch := (
    unfold OFrameOf
    unfold execPldmUpdateComponent
    try dsimp only
    repeat' first
      | (with_reducible apply OFrame.next) | (with_reducible assumption)
      | ((with_reducible refine sub_step (by assumption) ?_); first | rfl | decide) | (with_reducible apply updateComponent_fr)
      | (with_reducible apply whenRef_fr) | (split) | (intro _) | (refine frame_fst ?_ (by assumption)) | (dsimp only)
      | (with_reducible apply frame_any))) only [oframed]

theorem activate_fr {E : Nat} {s0 s : State} (h : Frame E s0 s) {t : Nat} (hE : Sub 0x4000 E := by first | assumption | exact sub_step (by assumption) (by decide)) :
    Frame E s0 (State.activate s t) := by
  simp (disch := (
    unfold FrameOf
    unfold State.activate
    try dsimp only
    repeat' first
      | (with_reducible assumption) | ((with_reducible refine sub_step (by assumption) ?_); first | rfl | decide)
      | (with_reducible apply wr_fr) | (split) | (intro _) | (refine frame_fst ?_ (by assumption)) | (dsimp only)
      | (with_reducible apply frame_any))) only [framed]

theorem activateAll_fr {E : Nat} {s0 s : State} (h : Frame E s0 s) {ts : List Nat} (hE : Sub 0xb2c402 E := by first | assumption | exact sub_step (by assumption) (by decide)) :
    Frame E s0 (State.activateAll s ts) := by
  simp (disch := (
    unfold FrameOf
    unfold State.activateAll
    try dsimp only
    repeat' first
      | (with_reducible assumption) | ((with_reducible refine sub_step (by assumption) ?_); first | rfl | decide)
      | (with_reducible apply activate_fr) | (with_reducible apply emit_fr) | (with_reducible apply iamelReset_fr)
      | (with_reducible apply liveStart_fr) | (with_reducible apply frame_foldl) | (split) | (intro _)
      | (refine frame_fst ?_ (by assumption)) | (dsimp only) | (with_reducible apply frame_any))) only [framed]

theorem execActivateFirmware_fr {E : Nat} {s0 s : State} (h : Frame E s0 s) {ts : List Nat} (hE : Sub 0xb2c402 E := by first | assumption | exact sub_step (by assumption) (by decide)) :
    OFrame E s0 (execActivateFirmware ts s) := by
  simp (disch := (
    unfold OFrameOf
    unfold execActivateFirmware
    try dsimp only
    repeat' first
      | (with_reducible apply OFrame.next) | (with_reducible assumption)
      | ((with_reducible refine sub_step (by assumption) ?_); first | rfl | decide) | (with_reducible apply activateAll_fr)
      | (with_reducible apply whenUp_fr) | (split) | (intro _) | (refine frame_fst ?_ (by assumption)) | (dsimp only)
      | (with_reducible apply frame_any))) only [oframed]

theorem commitFloor_fr {E : Nat} {s0 s : State} (h : Frame E s0 s) {req : Nat} {t : Nat} {v : Nat} {sigR : List Byte} {sigS : List Byte} (hE : Sub 0x1 E := by first | assumption | exact sub_step (by assumption) (by decide)) :
    Frame E s0 (State.commitFloor s req t v sigR sigS) := by
  simp (disch := (
    unfold FrameOf
    unfold State.commitFloor
    try dsimp only
    repeat' first
      | (with_reducible assumption) | ((with_reducible refine sub_step (by assumption) ?_); first | rfl | decide)
      | (with_reducible apply emit_fr) | (with_reducible apply freeNext_fr) | (with_reducible apply wr_fr) | (split) | (intro _)
      | (refine frame_fst ?_ (by assumption)) | (dsimp only) | (with_reducible apply frame_any))) only [framed]

theorem execCommit_fr {E : Nat} {s0 s : State} (h : Frame E s0 s) {req : Nat} {t : Nat} {v : Nat} {sigR : List Byte} {sigS : List Byte} (hE : Sub 0x1 E := by first | assumption | exact sub_step (by assumption) (by decide)) :
    OFrame E s0 (execCommit req t v sigR sigS s) := by
  simp (disch := (
    unfold OFrameOf
    unfold execCommit
    try dsimp only
    repeat' first
      | (with_reducible apply OFrame.next) | (with_reducible assumption)
      | ((with_reducible refine sub_step (by assumption) ?_); first | rfl | decide) | (with_reducible apply commitFloor_fr)
      | (with_reducible apply whenRef_fr) | (split) | (intro _) | (refine frame_fst ?_ (by assumption)) | (dsimp only)
      | (with_reducible apply frame_any))) only [oframed]

end Sys2Proof.Laws
end

