-- ==== Sys2Proof/Laws/FrLanes.lean ====
section
/-! SUPPORT. The frame of every operation of Machine/Lanes.lean (`Laws.Frame`). -/

namespace Sys2Proof.Laws

open Sys2Proof.Machine

set_option linter.all false
set_option Elab.async false

theorem execTrainingFrameReceive_fr {E : Nat} {s0 s : State} (h : Frame E s0 s) {l : Nat} {w : Nat} (hE : Sub 0xc0 E := by first | assumption | exact sub_step (by assumption) (by decide)) :
    OFrame E s0 (execTrainingFrameReceive l w s) := by
  simp (disch := (
    unfold OFrameOf
    unfold execTrainingFrameReceive
    try dsimp only
    repeat' first
      | (with_reducible apply OFrame.next) | (with_reducible assumption)
      | ((with_reducible refine sub_step (by assumption) ?_); first | rfl | decide) | (with_reducible apply frameIn_fr)
      | (with_reducible apply whenUp_fr) | (split) | (intro _) | (refine frame_fst ?_ (by assumption)) | (dsimp only)
      | (with_reducible apply frame_any))) only [oframed]

theorem execLaneRequestRepeat_fr {E : Nat} {s0 s : State} (h : Frame E s0 s) {l : Nat} (hE : Sub 0x20000 E := by first | assumption | exact sub_step (by assumption) (by decide)) :
    OFrame E s0 (execLaneRequestRepeat l s) := by
  simp (disch := (
    unfold OFrameOf
    unfold execLaneRequestRepeat
    try dsimp only
    repeat' first
      | (with_reducible apply OFrame.next) | (with_reducible assumption)
      | ((with_reducible refine sub_step (by assumption) ?_); first | rfl | decide) | (with_reducible apply armIn_fr)
      | (with_reducible apply sendFrame_fr) | (with_reducible apply whenDue_fr) | (split) | (intro _)
      | (refine frame_fst ?_ (by assumption)) | (dsimp only) | (with_reducible apply frame_any))) only [oframed]

theorem execFastPathTimeout_fr {E : Nat} {s0 s : State} (h : Frame E s0 s) {l : Nat} (hE : Sub 0x20080 E := by first | assumption | exact sub_step (by assumption) (by decide)) :
    OFrame E s0 (execFastPathTimeout l s) := by
  simp (disch := (
    unfold OFrameOf
    unfold execFastPathTimeout
    try dsimp only
    repeat' first
      | (with_reducible apply OFrame.next) | (with_reducible assumption)
      | ((with_reducible refine sub_step (by assumption) ?_); first | rfl | decide) | (with_reducible apply laneFull_fr)
      | (with_reducible apply whenDue_fr) | (split) | (intro _) | (refine frame_fst ?_ (by assumption)) | (dsimp only)
      | (with_reducible apply frame_any))) only [oframed]

theorem laneAgain_fr {E : Nat} {s0 s : State} (h : Frame E s0 s) {l : Nat} (hE : Sub 0xc0 E := by first | assumption | exact sub_step (by assumption) (by decide)) :
    Frame E s0 (State.laneAgain s l) := by
  simp (disch := (
    unfold FrameOf
    unfold State.laneAgain
    try dsimp only
    repeat' first
      | (with_reducible assumption) | ((with_reducible refine sub_step (by assumption) ?_); first | rfl | decide)
      | (with_reducible apply incSat_fr) | (with_reducible apply laneFull_fr) | (with_reducible apply laneStop_fr)
      | (with_reducible apply lanesDone_fr) | (with_reducible apply updLink_fr) | (with_reducible apply wr_fr) | (split)
      | (intro _) | (refine frame_fst ?_ (by assumption)) | (dsimp only) | (with_reducible apply frame_any))) only [framed]

theorem execFullTrainingRestart_fr {E : Nat} {s0 s : State} (h : Frame E s0 s) {l : Nat} (hE : Sub 0x200c0 E := by first | assumption | exact sub_step (by assumption) (by decide)) :
    OFrame E s0 (execFullTrainingRestart l s) := by
  simp (disch := (
    unfold OFrameOf
    unfold execFullTrainingRestart
    try dsimp only
    repeat' first
      | (with_reducible apply OFrame.next) | (with_reducible assumption)
      | ((with_reducible refine sub_step (by assumption) ?_); first | rfl | decide) | (with_reducible apply laneAgain_fr)
      | (with_reducible apply whenDue_fr) | (split) | (intro _) | (refine frame_fst ?_ (by assumption)) | (dsimp only)
      | (with_reducible apply frame_any))) only [oframed]

theorem execRecalRequest_fr {E : Nat} {s0 s : State} (h : Frame E s0 s) {l : Nat} (hE : Sub 0x8000 E := by first | assumption | exact sub_step (by assumption) (by decide)) :
    OFrame E s0 (execRecalRequest l s) := by
  simp (disch := (
    unfold OFrameOf
    unfold execRecalRequest
    try dsimp only
    repeat' first
      | (with_reducible apply OFrame.next) | (with_reducible assumption)
      | ((with_reducible refine sub_step (by assumption) ?_); first | rfl | decide) | (with_reducible apply recalAsk_fr)
      | (with_reducible apply whenLive_fr) | (split) | (intro _) | (refine frame_fst ?_ (by assumption)) | (dsimp only)
      | (with_reducible apply frame_any))) only [oframed]

theorem narrow_fr {E : Nat} {s0 s : State} (h : Frame E s0 s) {p : Nat} {lost : List Nat} (hE : Sub 0x80c0 E := by first | assumption | exact sub_step (by assumption) (by decide)) :
    Frame E s0 (State.narrow s p lost) := by
  simp (disch := (
    unfold FrameOf
    unfold State.narrow
    try dsimp only
    repeat' first
      | (with_reducible assumption) | ((with_reducible refine sub_step (by assumption) ?_); first | rfl | decide)
      | (with_reducible apply askRetrain_fr) | (with_reducible apply laneStop_fr) | (with_reducible apply lanesDone_fr)
      | (with_reducible apply logRec_fr) | (with_reducible apply updLink_fr) | (with_reducible apply wr_fr)
      | (with_reducible apply frame_foldl) | (split) | (intro _) | (refine frame_fst ?_ (by assumption)) | (dsimp only)
      | (with_reducible apply frame_any))) only [framed]

theorem execLaneFailureNarrow_fr {E : Nat} {s0 s : State} (h : Frame E s0 s) {p : Nat} {lost : List Nat} (hE : Sub 0x80c0 E := by first | assumption | exact sub_step (by assumption) (by decide)) :
    OFrame E s0 (execLaneFailureNarrow p lost s) := by
  simp (disch := (
    unfold OFrameOf
    unfold execLaneFailureNarrow
    try dsimp only
    repeat' first
      | (with_reducible apply OFrame.next) | (with_reducible assumption)
      | ((with_reducible refine sub_step (by assumption) ?_); first | rfl | decide) | (with_reducible apply narrow_fr)
      | (with_reducible apply whenLive_fr) | (split) | (intro _) | (refine frame_fst ?_ (by assumption)) | (dsimp only)
      | (with_reducible apply frame_any))) only [oframed]

theorem execLnLaneSerRead_fr {E : Nat} {s0 s : State} (h : Frame E s0 s) {l : Nat} (hE : Sub 0x80 E := by first | assumption | exact sub_step (by assumption) (by decide)) :
    OFrame E s0 (execLnLaneSerRead l s) := by
  simp (disch := (
    unfold OFrameOf
    unfold execLnLaneSerRead
    try dsimp only
    repeat' first
      | (with_reducible apply OFrame.next) | (with_reducible assumption)
      | ((with_reducible refine sub_step (by assumption) ?_); first | rfl | decide) | (with_reducible apply readOut_fr)
      | (with_reducible apply whenUp_fr) | (split) | (intro _) | (refine frame_fst ?_ (by assumption)) | (dsimp only)
      | (with_reducible apply frame_any))) only [oframed]

theorem execLnLanePrbsRead_fr {E : Nat} {s0 s : State} (h : Frame E s0 s) {l : Nat} (hE : Sub 0x80 E := by first | assumption | exact sub_step (by assumption) (by decide)) :
    OFrame E s0 (execLnLanePrbsRead l s) := by
  simp (disch := (
    unfold OFrameOf
    unfold execLnLanePrbsRead
    try dsimp only
    repeat' first
      | (with_reducible apply OFrame.next) | (with_reducible assumption)
      | ((with_reducible refine sub_step (by assumption) ?_); first | rfl | decide) | (with_reducible apply readOut_fr)
      | (with_reducible apply whenUp_fr) | (split) | (intro _) | (refine frame_fst ?_ (by assumption)) | (dsimp only)
      | (with_reducible apply frame_any))) only [oframed]

theorem execPrbsCheckerLock_fr {E : Nat} {s0 s : State} (h : Frame E s0 s) {l : Nat} (hE : Sub 0x80 E := by first | assumption | exact sub_step (by assumption) (by decide)) :
    OFrame E s0 (execPrbsCheckerLock l s) := by
  simp (disch := (
    unfold OFrameOf
    unfold execPrbsCheckerLock
    try dsimp only
    repeat' first
      | (with_reducible apply OFrame.next) | (with_reducible assumption)
      | ((with_reducible refine sub_step (by assumption) ?_); first | rfl | decide) | (with_reducible apply whenUp_fr)
      | (with_reducible apply wr_fr) | (split) | (intro _) | (refine frame_fst ?_ (by assumption)) | (dsimp only)
      | (with_reducible apply frame_any))) only [oframed]

end Sys2Proof.Laws
end

