-- ==== Sys2Proof/Laws/FrLinks.lean ====
section
/-! SUPPORT. The frame of every operation of Machine/Links.lean (`Laws.Frame`). -/

namespace Sys2Proof.Laws

open Sys2Proof.Machine

set_option linter.all false
set_option Elab.async false

theorem execFlitTransmit_fr {E : Nat} {s0 s : State} (h : Frame E s0 s) {p : Nat} (hE : Sub 0x20040 E := by first | assumption | exact sub_step (by assumption) (by decide)) :
    OFrame E s0 (execFlitTransmit p s) := by
  simp (disch := (
    unfold OFrameOf
    unfold execFlitTransmit
    try dsimp only
    repeat' first
      | (with_reducible apply OFrame.next) | (with_reducible assumption)
      | ((with_reducible refine sub_step (by assumption) ?_); first | rfl | decide) | (with_reducible apply transmit_fr)
      | (with_reducible apply whenLive_fr) | (split) | (intro _) | (refine frame_fst ?_ (by assumption)) | (dsimp only)
      | (with_reducible apply frame_any))) only [oframed]

theorem execDataFlitReceive_fr {E : Nat} {s0 s : State} (h : Frame E s0 s) {p : Nat} {c : CodeHalf} (hE : Sub 0x280c0 E := by first | assumption | exact sub_step (by assumption) (by decide)) :
    OFrame E s0 (execDataFlitReceive p c s) := by
  simp (disch := (
    unfold OFrameOf
    unfold execDataFlitReceive
    try dsimp only
    repeat' first
      | (with_reducible apply OFrame.next) | (with_reducible assumption)
      | ((with_reducible refine sub_step (by assumption) ?_); first | rfl | decide) | (with_reducible apply flitIn_fr)
      | (with_reducible apply onBadFlit_fr) | (with_reducible apply onFlit_fr) | (with_reducible apply whenLive_fr) | (split)
      | (intro _) | (refine frame_fst ?_ (by assumption)) | (dsimp only) | (with_reducible apply frame_any))) only [oframed]

theorem execCreditFlitReceive_fr {E : Nat} {s0 s : State} (h : Frame E s0 s) {p : Nat} {c : CodeHalf} (hE : Sub 0x280c0 E := by first | assumption | exact sub_step (by assumption) (by decide)) :
    OFrame E s0 (execCreditFlitReceive p c s) := by
  simp (disch := (
    unfold OFrameOf
    unfold execCreditFlitReceive
    try dsimp only
    repeat' first
      | (with_reducible apply OFrame.next) | (with_reducible assumption)
      | ((with_reducible refine sub_step (by assumption) ?_); first | rfl | decide) | (with_reducible apply flitIn_fr)
      | (with_reducible apply onFlit_fr) | (with_reducible apply whenLive_fr) | (split) | (intro _)
      | (refine frame_fst ?_ (by assumption)) | (dsimp only) | (with_reducible apply frame_any))) only [oframed]

theorem execReplayTimeout_fr {E : Nat} {s0 s : State} (h : Frame E s0 s) {p : Nat} (hE : Sub 0x280c0 E := by first | assumption | exact sub_step (by assumption) (by decide)) :
    OFrame E s0 (execReplayTimeout p s) := by
  simp (disch := (
    unfold OFrameOf
    unfold execReplayTimeout
    try dsimp only
    repeat' first
      | (with_reducible apply OFrame.next) | (with_reducible assumption)
      | ((with_reducible refine sub_step (by assumption) ?_); first | rfl | decide) | (with_reducible apply startReplay_fr)
      | (with_reducible apply whenDue_fr) | (split) | (intro _) | (refine frame_fst ?_ (by assumption)) | (dsimp only)
      | (with_reducible apply frame_any))) only [oframed]

theorem execNackRepeatTimeout_fr {E : Nat} {s0 s : State} (h : Frame E s0 s) {p : Nat} (hE : Sub 0x20000 E := by first | assumption | exact sub_step (by assumption) (by decide)) :
    OFrame E s0 (execNackRepeatTimeout p s) := by
  simp (disch := (
    unfold OFrameOf
    unfold execNackRepeatTimeout
    try dsimp only
    repeat' first
      | (with_reducible apply OFrame.next) | (with_reducible assumption)
      | ((with_reducible refine sub_step (by assumption) ?_); first | rfl | decide) | (with_reducible apply updLink_fr)
      | (with_reducible apply whenDue_fr) | (split) | (intro _) | (refine frame_fst ?_ (by assumption)) | (dsimp only)
      | (with_reducible apply frame_any))) only [oframed]

theorem execFecLockGain_fr {E : Nat} {s0 s : State} (h : Frame E s0 s) {l : Nat} (hE : Sub 0x80 E := by first | assumption | exact sub_step (by assumption) (by decide)) :
    OFrame E s0 (execFecLockGain l s) := by
  simp (disch := (
    unfold OFrameOf
    unfold execFecLockGain
    try dsimp only
    repeat' first
      | (with_reducible apply OFrame.next) | (with_reducible assumption)
      | ((with_reducible refine sub_step (by assumption) ?_); first | rfl | decide) | (with_reducible apply updLink_fr)
      | (with_reducible apply whenUp_fr) | (with_reducible apply wr_fr) | (split) | (intro _)
      | (refine frame_fst ?_ (by assumption)) | (dsimp only) | (with_reducible apply frame_any))) only [oframed]

theorem execFecLockLoss_fr {E : Nat} {s0 s : State} (h : Frame E s0 s) {l : Nat} (hE : Sub 0x20080 E := by first | assumption | exact sub_step (by assumption) (by decide)) :
    OFrame E s0 (execFecLockLoss l s) := by
  simp (disch := (
    unfold OFrameOf
    unfold execFecLockLoss
    try dsimp only
    repeat' first
      | (with_reducible apply OFrame.next) | (with_reducible assumption)
      | ((with_reducible refine sub_step (by assumption) ?_); first | rfl | decide) | (with_reducible apply count_fr)
      | (with_reducible apply updLink_fr) | (with_reducible apply whenUp_fr) | (with_reducible apply wr_fr) | (split)
      | (intro _) | (refine frame_fst ?_ (by assumption)) | (dsimp only) | (with_reducible apply frame_any))) only [oframed]

theorem execPortDown_fr {E : Nat} {s0 s : State} (h : Frame E s0 s) {p : Nat} {cause : Nat} (hE : Sub 0x280c0 E := by first | assumption | exact sub_step (by assumption) (by decide)) :
    OFrame E s0 (execPortDown p cause s) := by
  simp (disch := (
    unfold OFrameOf
    unfold execPortDown
    try dsimp only
    repeat' first
      | (with_reducible apply OFrame.next) | (with_reducible assumption)
      | ((with_reducible refine sub_step (by assumption) ?_); first | rfl | decide) | (with_reducible apply declareDown_fr)
      | (with_reducible apply setNow_fr) | (with_reducible apply whenUp_fr) | (split) | (intro _)
      | (refine frame_fst ?_ (by assumption)) | (dsimp only) | (with_reducible apply frame_any))) only [oframed]

theorem execHelloReceive_fr {E : Nat} {s0 s : State} (h : Frame E s0 s) {p : Nat} {c : CodeHalf} (hE : Sub 0x280c0 E := by first | assumption | exact sub_step (by assumption) (by decide)) :
    OFrame E s0 (execHelloReceive p c s) := by
  simp (disch := (
    unfold OFrameOf
    unfold execHelloReceive
    try dsimp only
    repeat' first
      | (with_reducible apply OFrame.next) | (with_reducible assumption)
      | ((with_reducible refine sub_step (by assumption) ?_); first | rfl | decide) | (with_reducible apply helloIn_fr)
      | (with_reducible apply onFlit_fr) | (with_reducible apply recalNext_fr) | (with_reducible apply unseqHeader_fr)
      | (with_reducible apply whenLive_fr) | (split) | (intro _) | (refine frame_fst ?_ (by assumption)) | (dsimp only)
      | (with_reducible apply frame_any))) only [oframed]

theorem execHelloRepeat_fr {E : Nat} {s0 s : State} (h : Frame E s0 s) {p : Nat} (hE : Sub 0x20000 E := by first | assumption | exact sub_step (by assumption) (by decide)) :
    OFrame E s0 (execHelloRepeat p s) := by
  simp (disch := (
    unfold OFrameOf
    unfold execHelloRepeat
    try dsimp only
    repeat' first
      | (with_reducible apply OFrame.next) | (with_reducible assumption)
      | ((with_reducible refine sub_step (by assumption) ?_); first | rfl | decide) | (with_reducible apply updLink_fr)
      | (with_reducible apply whenDue_fr) | (split) | (intro _) | (refine frame_fst ?_ (by assumption)) | (dsimp only)
      | (with_reducible apply frame_any))) only [oframed]

theorem execHoldExpiry_fr {E : Nat} {s0 s : State} (h : Frame E s0 s) {p : Nat} (hE : Sub 0x20040 E := by first | assumption | exact sub_step (by assumption) (by decide)) :
    OFrame E s0 (execHoldExpiry p s) := by
  simp (disch := (
    unfold OFrameOf
    unfold execHoldExpiry
    try dsimp only
    repeat' first
      | (with_reducible apply OFrame.next) | (with_reducible assumption)
      | ((with_reducible refine sub_step (by assumption) ?_); first | rfl | decide) | (with_reducible apply flushPort_fr)
      | (with_reducible apply helloAgain_fr) | (with_reducible apply whenDue_fr) | (split) | (intro _)
      | (refine frame_fst ?_ (by assumption)) | (dsimp only) | (with_reducible apply frame_any))) only [oframed]

theorem execTrainFlitReceive_fr {E : Nat} {s0 s : State} (h : Frame E s0 s) {p : Nat} {c : CodeHalf} (hE : Sub 0x280c0 E := by first | assumption | exact sub_step (by assumption) (by decide)) :
    OFrame E s0 (execTrainFlitReceive p c s) := by
  simp (disch := (
    unfold OFrameOf
    unfold execTrainFlitReceive
    try dsimp only
    repeat' first
      | (with_reducible apply OFrame.next) | (with_reducible assumption)
      | ((with_reducible refine sub_step (by assumption) ?_); first | rfl | decide) | (with_reducible apply onFlit_fr)
      | (with_reducible apply trainIn_fr) | (with_reducible apply unseqHeader_fr) | (with_reducible apply whenLive_fr) | (split)
      | (intro _) | (refine frame_fst ?_ (by assumption)) | (dsimp only) | (with_reducible apply frame_any))) only [oframed]

theorem execTrainReqRepeat_fr {E : Nat} {s0 s : State} (h : Frame E s0 s) {p : Nat} (hE : Sub 0x20000 E := by first | assumption | exact sub_step (by assumption) (by decide)) :
    OFrame E s0 (execTrainReqRepeat p s) := by
  simp (disch := (
    unfold OFrameOf
    unfold execTrainReqRepeat
    try dsimp only
    repeat' first
      | (with_reducible apply OFrame.next) | (with_reducible assumption)
      | ((with_reducible refine sub_step (by assumption) ?_); first | rfl | decide) | (with_reducible apply updLink_fr)
      | (with_reducible apply whenDue_fr) | (split) | (intro _) | (refine frame_fst ?_ (by assumption)) | (dsimp only)
      | (with_reducible apply frame_any))) only [oframed]

theorem execRetrainLimitExpiry_fr {E : Nat} {s0 s : State} (h : Frame E s0 s) {p : Nat} (hE : Sub 0x280c0 E := by first | assumption | exact sub_step (by assumption) (by decide)) :
    OFrame E s0 (execRetrainLimitExpiry p s) := by
  simp (disch := (
    unfold OFrameOf
    unfold execRetrainLimitExpiry
    try dsimp only
    repeat' first
      | (with_reducible apply OFrame.next) | (with_reducible assumption)
      | ((with_reducible refine sub_step (by assumption) ?_); first | rfl | decide) | (with_reducible apply declareDown_fr)
      | (with_reducible apply whenDue_fr) | (split) | (intro _) | (refine frame_fst ?_ (by assumption)) | (dsimp only)
      | (with_reducible apply frame_any))) only [oframed]

theorem execPortDisableDrainEnd_fr {E : Nat} {s0 s : State} (h : Frame E s0 s) {p : Nat} (hE : Sub 0x20040 E := by first | assumption | exact sub_step (by assumption) (by decide)) :
    OFrame E s0 (execPortDisableDrainEnd p s) := by
  simp (disch := (
    unfold OFrameOf
    unfold execPortDisableDrainEnd
    try dsimp only
    repeat' first
      | (with_reducible apply OFrame.next) | (with_reducible assumption)
      | ((with_reducible refine sub_step (by assumption) ?_); first | rfl | decide) | (with_reducible apply disablePort_fr)
      | (with_reducible apply whenDue_fr) | (split) | (intro _) | (refine frame_fst ?_ (by assumption)) | (dsimp only)
      | (with_reducible apply frame_any))) only [oframed]

end Sys2Proof.Laws
end

