-- ==== Sys2Proof/Laws/FrMachineTime.lean ====
section
/-! SUPPORT. The frame of every operation of Machine/MachineTime.lean (`Laws.Frame`). -/

namespace Sys2Proof.Laws

open Sys2Proof.Machine

set_option linter.all false
set_option Elab.async false

theorem execTimeFlitReceive_fr {E : Nat} {s0 s : State} (h : Frame E s0 s) {p : Nat} {c : CodeHalf} (hE : Sub 0x282c0 E := by first | assumption | exact sub_step (by assumption) (by decide)) :
    OFrame E s0 (execTimeFlitReceive p c s) := by
  simp (disch := (
    unfold OFrameOf
    unfold execTimeFlitReceive
    try dsimp only
    repeat' first
      | (with_reducible apply OFrame.next) | (with_reducible assumption)
      | ((with_reducible refine sub_step (by assumption) ?_); first | rfl | decide) | (with_reducible apply onFlit_fr)
      | (with_reducible apply timeIn_fr) | (with_reducible apply unseqHeader_fr) | (with_reducible apply whenLive_fr) | (split)
      | (intro _) | (refine frame_fst ?_ (by assumption)) | (dsimp only) | (with_reducible apply frame_any))) only [oframed]

theorem execPpsEdge_fr {E : Nat} {s0 s : State} (h : Frame E s0 s) (hE : Sub 0x8200 E := by first | assumption | exact sub_step (by assumption) (by decide)) :
    OFrame E s0 (execPpsEdge s) := by
  simp (disch := (
    unfold OFrameOf
    unfold execPpsEdge
    try dsimp only
    repeat' first
      | (with_reducible apply OFrame.next) | (with_reducible assumption)
      | ((with_reducible refine sub_step (by assumption) ?_); first | rfl | decide) | (with_reducible apply armIn_fr)
      | (with_reducible apply chooseTime_fr) | (with_reducible apply fin_fr) | (with_reducible apply takeOffset_fr) | (split)
      | (intro _) | (refine frame_fst ?_ (by assumption)) | (dsimp only) | (with_reducible apply frame_any))) only [oframed]

theorem execExtReferenceLoss_fr {E : Nat} {s0 s : State} (h : Frame E s0 s) (hE : Sub 0x20200 E := by first | assumption | exact sub_step (by assumption) (by decide)) :
    OFrame E s0 (execExtReferenceLoss s) := by
  simp (disch := (
    unfold OFrameOf
    unfold execExtReferenceLoss
    try dsimp only
    repeat' first
      | (with_reducible apply OFrame.next) | (with_reducible assumption)
      | ((with_reducible refine sub_step (by assumption) ?_); first | rfl | decide) | (with_reducible apply chooseTime_fr)
      | (with_reducible apply whenDue_fr) | (split) | (intro _) | (refine frame_fst ?_ (by assumption)) | (dsimp only)
      | (with_reducible apply frame_any))) only [oframed]

theorem execParentLoss_fr {E : Nat} {s0 s : State} (h : Frame E s0 s) (hE : Sub 0x20200 E := by first | assumption | exact sub_step (by assumption) (by decide)) :
    OFrame E s0 (execParentLoss s) := by
  simp (disch := (
    unfold OFrameOf
    unfold execParentLoss
    try dsimp only
    repeat' first
      | (with_reducible apply OFrame.next) | (with_reducible assumption)
      | ((with_reducible refine sub_step (by assumption) ?_); first | rfl | decide) | (with_reducible apply loseParent_fr)
      | (with_reducible apply whenDue_fr) | (split) | (intro _) | (refine frame_fst ?_ (by assumption)) | (dsimp only)
      | (with_reducible apply frame_any))) only [oframed]

theorem execHoldoverExpiry_fr {E : Nat} {s0 s : State} (h : Frame E s0 s) (hE : Sub 0x20200 E := by first | assumption | exact sub_step (by assumption) (by decide)) :
    OFrame E s0 (execHoldoverExpiry s) := by
  simp (disch := (
    unfold OFrameOf
    unfold execHoldoverExpiry
    try dsimp only
    repeat' first
      | (with_reducible apply OFrame.next) | (with_reducible assumption)
      | ((with_reducible refine sub_step (by assumption) ?_); first | rfl | decide) | (with_reducible refine sub_flds ?_ ?_)
      | (with_reducible exact sub_zero) | (with_reducible apply chooseTime_fr) | (with_reducible apply whenDue_fr)
      | (with_reducible apply wrAll_fr) | (split) | (intro _) | (refine frame_fst ?_ (by assumption)) | (dsimp only)
      | (with_reducible apply frame_any))) only [oframed]

theorem whistleJob_fr {E : Nat} {s0 s : State} (h : Frame E s0 s) {w : Schedule} {node : Nat} {counter : Nat} (hE : Sub 0xb28222 E := by first | assumption | exact sub_step (by assumption) (by decide)) :
    Frame E s0 (State.whistleJob s w node counter) := by
  simp (disch := (
    unfold FrameOf
    unfold State.whistleJob
    try dsimp only
    repeat' first
      | (with_reducible assumption) | ((with_reducible refine sub_step (by assumption) ?_); first | rfl | decide)
      | (with_reducible apply schedule_fr) | (with_reducible apply sendWhistle_fr) | (with_reducible apply whistleFail_fr)
      | (split) | (intro _) | (refine frame_fst ?_ (by assumption)) | (dsimp only) | (with_reducible apply frame_any))) only [framed]

theorem execWhistlePacketReceive_fr {E : Nat} {s0 s : State} (h : Frame E s0 s) {pkt : Packet} (hE : Sub 0xb28222 E := by first | assumption | exact sub_step (by assumption) (by decide)) :
    OFrame E s0 (execWhistlePacketReceive pkt s) := by
  simp (disch := (
    unfold OFrameOf
    unfold execWhistlePacketReceive
    try dsimp only
    repeat' first
      | (with_reducible apply OFrame.next) | (with_reducible assumption)
      | ((with_reducible refine sub_step (by assumption) ?_); first | rfl | decide) | (with_reducible apply checkCred_fr)
      | (with_reducible apply logRec_fr) | (with_reducible apply mgDiscard_fr) | (with_reducible apply mgTake_fr)
      | (with_reducible apply schedule_fr) | (with_reducible apply whenLive_fr) | (with_reducible apply whistleJob_fr) | (split)
      | (intro _) | (refine frame_fst ?_ (by assumption)) | (dsimp only) | (with_reducible apply frame_any))) only [oframed]

theorem execWhistleFire_fr {E : Nat} {s0 s : State} (h : Frame E s0 s) {line : Nat} (hE : Sub 0xb28222 E := by first | assumption | exact sub_step (by assumption) (by decide)) :
    OFrame E s0 (execWhistleFire line s) := by
  simp (disch := (
    unfold OFrameOf
    unfold execWhistleFire
    try dsimp only
    repeat' first
      | (with_reducible apply OFrame.next) | (with_reducible assumption)
      | ((with_reducible refine sub_step (by assumption) ?_); first | rfl | decide) | (with_reducible apply fin_fr)
      | (with_reducible apply fireLine_fr) | (with_reducible apply setNow_fr) | (with_reducible apply wr_fr) | (split)
      | (intro _) | (refine frame_fst ?_ (by assumption)) | (dsimp only) | (with_reducible apply frame_any))) only [oframed]

theorem execTrigCaptureEdge_fr {E : Nat} {s0 s : State} (h : Frame E s0 s) {k : Nat} {rising : Bool} (hE : Sub 0x200 E := by first | assumption | exact sub_step (by assumption) (by decide)) :
    OFrame E s0 (execTrigCaptureEdge k rising s) := by
  simp (disch := (
    unfold OFrameOf
    unfold execTrigCaptureEdge
    try dsimp only
    repeat' first
      | (with_reducible apply OFrame.next) | (with_reducible assumption)
      | ((with_reducible refine sub_step (by assumption) ?_); first | rfl | decide) | (with_reducible apply incSat_fr)
      | (with_reducible apply whenUp_fr) | (split) | (intro _) | (refine frame_fst ?_ (by assumption)) | (dsimp only)
      | (with_reducible apply frame_any))) only [oframed]

theorem execTrigOutputFire_fr {E : Nat} {s0 s : State} (h : Frame E s0 s) {k : Nat} (hE : Sub 0x20000 E := by first | assumption | exact sub_step (by assumption) (by decide)) :
    OFrame E s0 (execTrigOutputFire k s) := by
  simp (disch := (
    unfold OFrameOf
    unfold execTrigOutputFire
    try dsimp only
    repeat' first
      | (with_reducible apply OFrame.next) | (with_reducible assumption)
      | ((with_reducible refine sub_step (by assumption) ?_); first | rfl | decide) | (with_reducible apply emit_fr)
      | (with_reducible apply setNow_fr) | (with_reducible apply whenUp_fr) | (split) | (intro _)
      | (refine frame_fst ?_ (by assumption)) | (dsimp only) | (with_reducible apply frame_any))) only [oframed]

theorem writeTrigCfg_fr {E : Nat} {s0 s : State} (h : Frame E s0 s) {k : Nat} {v : Nat} (hE : Sub 0x200 E := by first | assumption | exact sub_step (by assumption) (by decide)) :
    Frame E s0 (State.writeTrigCfg s k v) := by
  simp (disch := (
    unfold FrameOf
    unfold State.writeTrigCfg
    try dsimp only
    repeat' first
      | (with_reducible assumption) | ((with_reducible refine sub_step (by assumption) ?_); first | rfl | decide)
      | (with_reducible refine sub_fldb ?_ ?_) | (with_reducible exact sub_zero) | (with_reducible apply setFields_fr)
      | (with_reducible apply setRanged_fr) | (split) | (intro _) | (refine frame_fst ?_ (by assumption)) | (dsimp only)
      | (with_reducible apply frame_any))) only [framed]

theorem execMtTrigCfgWrite_fr {E : Nat} {s0 s : State} (h : Frame E s0 s) {k : Nat} {v : Nat} (hE : Sub 0x200 E := by first | assumption | exact sub_step (by assumption) (by decide)) :
    OFrame E s0 (execMtTrigCfgWrite k v s) := by
  simp (disch := (
    unfold OFrameOf
    unfold execMtTrigCfgWrite
    try dsimp only
    repeat' first
      | (with_reducible apply OFrame.next) | (with_reducible assumption)
      | ((with_reducible refine sub_step (by assumption) ?_); first | rfl | decide) | (with_reducible apply whenUp_fr)
      | (with_reducible apply writeTrigCfg_fr) | (split) | (intro _) | (refine frame_fst ?_ (by assumption)) | (dsimp only)
      | (with_reducible apply frame_any))) only [oframed]

theorem execMtTrigCapRead_fr {E : Nat} {s0 s : State} (h : Frame E s0 s) {k : Nat} (hE : Sub 0x200 E := by first | assumption | exact sub_step (by assumption) (by decide)) :
    OFrame E s0 (execMtTrigCapRead k s) := by
  simp (disch := (
    unfold OFrameOf
    unfold execMtTrigCapRead
    try dsimp only
    repeat' first
      | (with_reducible apply OFrame.next) | (with_reducible assumption)
      | ((with_reducible refine sub_step (by assumption) ?_); first | rfl | decide) | (with_reducible apply readOut_fr)
      | (with_reducible apply whenUp_fr) | (split) | (intro _) | (refine frame_fst ?_ (by assumption)) | (dsimp only)
      | (with_reducible apply frame_any))) only [oframed]

theorem execMtTrigStatRead_fr {E : Nat} {s0 s : State} (h : Frame E s0 s) {k : Nat} (hE : Sub 0x200 E := by first | assumption | exact sub_step (by assumption) (by decide)) :
    OFrame E s0 (execMtTrigStatRead k s) := by
  simp (disch := (
    unfold OFrameOf
    unfold execMtTrigStatRead
    try dsimp only
    repeat' first
      | (with_reducible apply OFrame.next) | (with_reducible assumption)
      | ((with_reducible refine sub_step (by assumption) ?_); first | rfl | decide) | (with_reducible apply readOut_fr)
      | (with_reducible apply whenUp_fr) | (split) | (intro _) | (refine frame_fst ?_ (by assumption)) | (dsimp only)
      | (with_reducible apply frame_any))) only [oframed]

theorem execMtLineRead_fr {E : Nat} {s0 s : State} (h : Frame E s0 s) {w : Nat} (hE : Sub 0x200 E := by first | assumption | exact sub_step (by assumption) (by decide)) :
    OFrame E s0 (execMtLineRead w s) := by
  simp (disch := (
    unfold OFrameOf
    unfold execMtLineRead
    try dsimp only
    repeat' first
      | (with_reducible apply OFrame.next) | (with_reducible assumption)
      | ((with_reducible refine sub_step (by assumption) ?_); first | rfl | decide) | (with_reducible apply readOut_fr)
      | (with_reducible apply whenUp_fr) | (split) | (intro _) | (refine frame_fst ?_ (by assumption)) | (dsimp only)
      | (with_reducible apply frame_any))) only [oframed]

end Sys2Proof.Laws
end

