-- ==== Sys2Proof/Laws/FrMgmt.lean ====
section
/-! SUPPORT. The frame of every operation of Machine/Mgmt.lean (`Laws.Frame`). -/

namespace Sys2Proof.Laws

open Sys2Proof.Machine

set_option linter.all false
set_option Elab.async false

theorem welrirel_fr {E : Nat} {s0 s : State} (h : Frame E s0 s) {req : Nat} {msg : List Byte} (hE : Sub 0x7f2b5fb E := by first | assumption | exact sub_step (by assumption) (by decide)) :
    Frame E s0 (State.welrirel s req msg) := by
  simp (disch := (
    unfold FrameOf
    unfold State.welrirel
    try dsimp only
    repeat' first
      | (with_reducible assumption) | ((with_reducible refine sub_step (by assumption) ?_); first | rfl | decide)
      | (with_reducible apply emit_fr) | (with_reducible apply privBody_fr) | (with_reducible apply runPriv_fr) | (split)
      | (intro _) | (refine frame_fst ?_ (by assumption)) | (dsimp only) | (with_reducible apply frame_any))) only [framed]

theorem execWelrirelCmd_fr {E : Nat} {s0 s : State} (h : Frame E s0 s) {msg : List Byte} (hE : Sub 0x7f2b5fb E := by first | assumption | exact sub_step (by assumption) (by decide)) :
    OFrame E s0 (execWelrirelCmd msg s) := by
  simp (disch := (
    unfold OFrameOf
    unfold execWelrirelCmd
    try dsimp only
    repeat' first
      | (with_reducible apply OFrame.next) | (with_reducible assumption)
      | ((with_reducible refine sub_step (by assumption) ?_); first | rfl | decide) | (with_reducible apply emit_fr)
      | (with_reducible apply welrirel_fr) | (with_reducible apply whenRef_fr) | (split) | (intro _)
      | (refine frame_fst ?_ (by assumption)) | (dsimp only) | (with_reducible apply frame_any))) only [oframed]

theorem enrol_fr {E : Nat} {s0 s : State} (h : Frame E s0 s) {req : Nat} {slot0 : Bool} {key : List Byte} {token : List Byte} (hE : Sub 0x28001 E := by first | assumption | exact sub_step (by assumption) (by decide)) :
    Frame E s0 (State.enrol s req slot0 key token) := by
  simp (disch := (
    unfold FrameOf
    unfold State.enrol
    try dsimp only
    repeat' first
      | (with_reducible assumption) | ((with_reducible refine sub_step (by assumption) ?_); first | rfl | decide)
      | (with_reducible apply emit_fr) | (with_reducible apply freeNext_fr) | (with_reducible apply grantToken_fr)
      | (with_reducible apply wr_fr) | (split) | (intro _) | (refine frame_fst ?_ (by assumption)) | (dsimp only)
      | (with_reducible apply frame_any))) only [framed]

theorem execEnrol_fr {E : Nat} {s0 s : State} (h : Frame E s0 s) {req : Nat} {slot0 : Bool} {key : List Byte} {token : List Byte} (hE : Sub 0x28001 E := by first | assumption | exact sub_step (by assumption) (by decide)) :
    OFrame E s0 (execEnrol req slot0 key token s) := by
  simp (disch := (
    unfold OFrameOf
    unfold execEnrol
    try dsimp only
    repeat' first
      | (with_reducible apply OFrame.next) | (with_reducible assumption)
      | ((with_reducible refine sub_step (by assumption) ?_); first | rfl | decide) | (with_reducible apply enrol_fr)
      | (with_reducible apply whenRef_fr) | (split) | (intro _) | (refine frame_fst ?_ (by assumption)) | (dsimp only)
      | (with_reducible apply frame_any))) only [oframed]

theorem logRead_fr {E : Nat} {s0 s : State} (h : Frame E s0 s) {req : Nat} {first : Nat} {count : Nat} {flash : Bool} (hE : Sub 0x20000 E := by first | assumption | exact sub_step (by assumption) (by decide)) :
    Frame E s0 (State.logRead s req first count flash) := by
  simp (disch := (
    unfold FrameOf
    unfold State.logRead
    try dsimp only
    repeat' first
      | (with_reducible assumption) | ((with_reducible refine sub_step (by assumption) ?_); first | rfl | decide)
      | (with_reducible apply count_fr) | (with_reducible apply emit_fr) | (split) | (intro _)
      | (refine frame_fst ?_ (by assumption)) | (dsimp only) | (with_reducible apply frame_any))) only [framed]

theorem execLogRead_fr {E : Nat} {s0 s : State} (h : Frame E s0 s) {req : Nat} {first : Nat} {count : Nat} {flash : Bool} (hE : Sub 0x20000 E := by first | assumption | exact sub_step (by assumption) (by decide)) :
    OFrame E s0 (execLogRead req first count flash s) := by
  simp (disch := (
    unfold OFrameOf
    unfold execLogRead
    try dsimp only
    repeat' first
      | (with_reducible apply OFrame.next) | (with_reducible assumption)
      | ((with_reducible refine sub_step (by assumption) ?_); first | rfl | decide) | (with_reducible apply count_fr)
      | (with_reducible apply logRead_fr) | (with_reducible apply whenRef_fr) | (split) | (intro _)
      | (refine frame_fst ?_ (by assumption)) | (dsimp only) | (with_reducible apply frame_any))) only [oframed]

theorem flashCopy_fr {E : Nat} {s0 s : State} (h : Frame E s0 s) (hE : Sub 0x8000 E := by first | assumption | exact sub_step (by assumption) (by decide)) :
    Frame E s0 (State.flashCopy s) := by
  simp (disch := (
    unfold FrameOf
    unfold State.flashCopy
    try dsimp only
    repeat' first
      | (with_reducible assumption) | ((with_reducible refine sub_step (by assumption) ?_); first | rfl | decide)
      | (with_reducible apply placeLost_fr) | (with_reducible apply wr_fr) | (split) | (intro _)
      | (refine frame_fst ?_ (by assumption)) | (dsimp only) | (with_reducible apply frame_any))) only [framed]

theorem execLogFlashCopy_fr {E : Nat} {s0 s : State} (h : Frame E s0 s) (hE : Sub 0x8000 E := by first | assumption | exact sub_step (by assumption) (by decide)) :
    OFrame E s0 (execLogFlashCopy s) := by
  simp (disch := (
    unfold OFrameOf
    unfold execLogFlashCopy
    try dsimp only
    repeat' first
      | (with_reducible apply OFrame.next) | (with_reducible assumption)
      | ((with_reducible refine sub_step (by assumption) ?_); first | rfl | decide) | (with_reducible apply flashCopy_fr)
      | (with_reducible apply whenRef_fr) | (split) | (intro _) | (refine frame_fst ?_ (by assumption)) | (dsimp only)
      | (with_reducible apply frame_any))) only [oframed]

theorem execMgLogLostRead_fr {E : Nat} {s0 s : State} (h : Frame E s0 s) (hE : Sub 0x8000 E := by first | assumption | exact sub_step (by assumption) (by decide)) :
    OFrame E s0 (execMgLogLostRead s) := by
  simp (disch := (
    unfold OFrameOf
    unfold execMgLogLostRead
    try dsimp only
    repeat' first
      | (with_reducible apply OFrame.next) | (with_reducible assumption)
      | ((with_reducible refine sub_step (by assumption) ?_); first | rfl | decide) | (with_reducible apply readOut_fr)
      | (with_reducible apply whenRef_fr) | (split) | (intro _) | (refine frame_fst ?_ (by assumption)) | (dsimp only)
      | (with_reducible apply frame_any))) only [oframed]

theorem eidAnswer_fr {E : Nat} {s0 s : State} (h : Frame E s0 s) {smbus : Nat} :
    Frame E s0 (State.eidAnswer s smbus) := by
  simp (disch := (
    unfold FrameOf
    unfold State.eidAnswer
    try dsimp only
    repeat' first
      | (with_reducible assumption) | (with_reducible apply emit_fr) | (split) | (intro _)
      | (refine frame_fst ?_ (by assumption)) | (dsimp only) | (with_reducible apply frame_any))) only [framed]

theorem mctpIn_fr {E : Nat} {s0 s : State} (h : Frame E s0 s) {smbus : Nat} {r : MctpReq} :
    Frame E s0 (State.mctpIn s smbus r) := by
  simp (disch := (
    unfold FrameOf
    unfold State.mctpIn
    try dsimp only
    repeat' first
      | (with_reducible assumption) | (with_reducible apply eidAnswer_fr) | (with_reducible apply emit_fr)
      | (with_reducible apply freeNext_fr) | (split) | (intro _) | (refine frame_fst ?_ (by assumption)) | (dsimp only)
      | (with_reducible apply frame_any))) only [framed]

theorem execMctpControl_fr {E : Nat} {s0 s : State} (h : Frame E s0 s) {smbus : Nat} {r : MctpReq} :
    OFrame E s0 (execMctpControl smbus r s) := by
  simp (disch := (
    unfold OFrameOf
    unfold execMctpControl
    try dsimp only
    repeat' first
      | (with_reducible apply OFrame.next) | (with_reducible assumption) | (with_reducible apply mctpIn_fr)
      | (with_reducible apply whenRef_fr) | (split) | (intro _) | (refine frame_fst ?_ (by assumption)) | (dsimp only)
      | (with_reducible apply frame_any))) only [oframed]

theorem mgCommand_fr {E : Nat} {s0 s : State} (h : Frame E s0 s) {pkt : Packet} {c : Cred} {msg : List Byte} (hE : Sub 0x7f2b5fb E := by first | assumption | exact sub_step (by assumption) (by decide)) :
    Frame E s0 (State.mgCommand s pkt c msg) := by
  simp (disch := (
    unfold FrameOf
    unfold State.mgCommand
    try dsimp only
    repeat' first
      | (with_reducible assumption) | ((with_reducible refine sub_step (by assumption) ?_); first | rfl | decide)
      | (with_reducible apply checkCred_fr) | (with_reducible apply endPriv_fr) | (with_reducible apply privBody_fr)
      | (with_reducible apply runPriv_fr) | (split) | (intro _) | (refine frame_fst ?_ (by assumption)) | (dsimp only)
      | (with_reducible apply frame_any))) only [framed]

theorem execMgCmdReceive_fr {E : Nat} {s0 s : State} (h : Frame E s0 s) {pkt : Packet} (hE : Sub 0x7f2b5fb E := by first | assumption | exact sub_step (by assumption) (by decide)) :
    OFrame E s0 (execMgCmdReceive pkt s) := by
  simp (disch := (
    unfold OFrameOf
    unfold execMgCmdReceive
    try dsimp only
    repeat' first
      | (with_reducible apply OFrame.next) | (with_reducible assumption)
      | ((with_reducible refine sub_step (by assumption) ?_); first | rfl | decide) | (with_reducible apply mgCommand_fr)
      | (with_reducible apply mgDiscard_fr) | (with_reducible apply mgTake_fr) | (with_reducible apply whenLive_fr) | (split)
      | (intro _) | (refine frame_fst ?_ (by assumption)) | (dsimp only) | (with_reducible apply frame_any))) only [oframed]

theorem execMgStatusReceive_fr {E : Nat} {s0 s : State} (h : Frame E s0 s) {pkt : Packet} (hE : Sub 0x28000 E := by first | assumption | exact sub_step (by assumption) (by decide)) :
    OFrame E s0 (execMgStatusReceive pkt s) := by
  simp (disch := (
    unfold OFrameOf
    unfold execMgStatusReceive
    try dsimp only
    repeat' first
      | (with_reducible apply OFrame.next) | (with_reducible assumption)
      | ((with_reducible refine sub_step (by assumption) ?_); first | rfl | decide) | (with_reducible apply checkCred_fr)
      | (with_reducible apply mgDiscard_fr) | (with_reducible apply mgTake_fr) | (with_reducible apply whenLive_fr) | (split)
      | (intro _) | (refine frame_fst ?_ (by assumption)) | (dsimp only) | (with_reducible apply frame_any))) only [oframed]

theorem telemetry_fr {E : Nat} {s0 s : State} (h : Frame E s0 s) {pkt : Packet} {c : Cred} {op : Nat} {first : Nat} {count : Nat} (hE : Sub 0x28000 E := by first | assumption | exact sub_step (by assumption) (by decide)) :
    Frame E s0 (State.telemetry s pkt c op first count) := by
  simp (disch := (
    unfold FrameOf
    unfold State.telemetry
    try dsimp only
    repeat' first
      | (with_reducible assumption) | ((with_reducible refine sub_step (by assumption) ?_); first | rfl | decide)
      | (with_reducible apply checkCred_fr) | (with_reducible apply count_fr) | (with_reducible apply mgDiscard_fr)
      | (with_reducible apply sendAuth_fr) | (split) | (intro _) | (refine frame_fst ?_ (by assumption)) | (dsimp only)
      | (with_reducible apply frame_any))) only [framed]

theorem execTelemetryRequest_fr {E : Nat} {s0 s : State} (h : Frame E s0 s) {pkt : Packet} (hE : Sub 0x28000 E := by first | assumption | exact sub_step (by assumption) (by decide)) :
    OFrame E s0 (execTelemetryRequest pkt s) := by
  simp (disch := (
    unfold OFrameOf
    unfold execTelemetryRequest
    try dsimp only
    repeat' first
      | (with_reducible apply OFrame.next) | (with_reducible assumption)
      | ((with_reducible refine sub_step (by assumption) ?_); first | rfl | decide) | (with_reducible apply count_fr)
      | (with_reducible apply mgDiscard_fr) | (with_reducible apply mgTake_fr) | (with_reducible apply telemetry_fr)
      | (with_reducible apply whenLive_fr) | (split) | (intro _) | (refine frame_fst ?_ (by assumption)) | (dsimp only)
      | (with_reducible apply frame_any))) only [oframed]

end Sys2Proof.Laws
end

