-- ==== Sys2Proof/Laws/FrSlot.lean ====
section
/-! SUPPORT. The frame of every operation of Machine/Slot.lean (`Laws.Frame`). -/

namespace Sys2Proof.Laws

open Sys2Proof.Machine

set_option linter.all false
set_option Elab.async false

theorem writeEfCtl_fr {E : Nat} {s0 s : State} (h : Frame E s0 s) {c : Nat} {on : Bool} (hE : Sub 0x80000 E := by first | assumption | exact sub_step (by assumption) (by decide)) :
    Frame E s0 (State.writeEfCtl s c on) := by
  simp (disch := (
    unfold FrameOf
    unfold State.writeEfCtl
    try dsimp only
    repeat' first
      | (with_reducible assumption) | ((with_reducible refine sub_step (by assumption) ?_); first | rfl | decide)
      | (with_reducible apply efStart_fr) | (with_reducible apply efStop_fr) | (with_reducible apply wr_fr) | (split)
      | (intro _) | (refine frame_fst ?_ (by assumption)) | (dsimp only) | (with_reducible apply frame_any))) only [framed]

theorem execEfCommandOn_fr {E : Nat} {s0 s : State} (h : Frame E s0 s) {c : Nat} (hE : Sub 0x80000 E := by first | assumption | exact sub_step (by assumption) (by decide)) :
    OFrame E s0 (execEfCommandOn c s) := by
  simp (disch := (
    unfold OFrameOf
    unfold execEfCommandOn
    try dsimp only
    repeat' first
      | (with_reducible apply OFrame.next) | (with_reducible assumption)
      | ((with_reducible refine sub_step (by assumption) ?_); first | rfl | decide) | (with_reducible apply whenRef_fr)
      | (with_reducible apply writeEfCtl_fr) | (split) | (intro _) | (refine frame_fst ?_ (by assumption)) | (dsimp only)
      | (with_reducible apply frame_any))) only [oframed]

theorem execEfCommandOff_fr {E : Nat} {s0 s : State} (h : Frame E s0 s) {c : Nat} (hE : Sub 0x80000 E := by first | assumption | exact sub_step (by assumption) (by decide)) :
    OFrame E s0 (execEfCommandOff c s) := by
  simp (disch := (
    unfold OFrameOf
    unfold execEfCommandOff
    try dsimp only
    repeat' first
      | (with_reducible apply OFrame.next) | (with_reducible assumption)
      | ((with_reducible refine sub_step (by assumption) ?_); first | rfl | decide) | (with_reducible apply whenRef_fr)
      | (with_reducible apply writeEfCtl_fr) | (split) | (intro _) | (refine frame_fst ?_ (by assumption)) | (dsimp only)
      | (with_reducible apply frame_any))) only [oframed]

theorem execEfGateAbove8v_fr {E : Nat} {s0 s : State} (h : Frame E s0 s) {c : Nat} (hE : Sub 0x80000 E := by first | assumption | exact sub_step (by assumption) (by decide)) :
    OFrame E s0 (execEfGateAbove8v c s) := by
  simp (disch := (
    unfold OFrameOf
    unfold execEfGateAbove8v
    try dsimp only
    repeat' first
      | (with_reducible apply OFrame.next) | (with_reducible assumption)
      | ((with_reducible refine sub_step (by assumption) ?_); first | rfl | decide) | (with_reducible refine sub_flds ?_ ?_)
      | (with_reducible exact sub_zero) | (with_reducible apply armIn_fr) | (with_reducible apply emit_fr)
      | (with_reducible apply whenRef_fr) | (with_reducible apply wrAll_fr) | (split) | (intro _)
      | (refine frame_fst ?_ (by assumption)) | (dsimp only) | (with_reducible apply frame_any))) only [oframed]

theorem execEfGateBelow7v5_fr {E : Nat} {s0 s : State} (h : Frame E s0 s) {c : Nat} (hE : Sub 0x80000 E := by first | assumption | exact sub_step (by assumption) (by decide)) :
    OFrame E s0 (execEfGateBelow7v5 c s) := by
  simp (disch := (
    unfold OFrameOf
    unfold execEfGateBelow7v5
    try dsimp only
    repeat' first
      | (with_reducible apply OFrame.next) | (with_reducible assumption)
      | ((with_reducible refine sub_step (by assumption) ?_); first | rfl | decide) | (with_reducible apply efPgClear_fr)
      | (with_reducible apply whenRef_fr) | (split) | (intro _) | (refine frame_fst ?_ (by assumption)) | (dsimp only)
      | (with_reducible apply frame_any))) only [oframed]

theorem execEfFastTrip_fr {E : Nat} {s0 s : State} (h : Frame E s0 s) {c : Nat} (hE : Sub 0x6fab43b E := by first | assumption | exact sub_step (by assumption) (by decide)) :
    OFrame E s0 (execEfFastTrip c s) := by
  simp (disch := (
    unfold OFrameOf
    unfold execEfFastTrip
    try dsimp only
    repeat' first
      | (with_reducible apply OFrame.next) | (with_reducible assumption)
      | ((with_reducible refine sub_step (by assumption) ?_); first | rfl | decide) | (with_reducible apply efTrip_fr)
      | (with_reducible apply whenRef_fr) | (split) | (intro _) | (refine frame_fst ?_ (by assumption)) | (dsimp only)
      | (with_reducible apply frame_any))) only [oframed]

theorem execEfTimerTrip_fr {E : Nat} {s0 s : State} (h : Frame E s0 s) {c : Nat} (hE : Sub 0x6fab43b E := by first | assumption | exact sub_step (by assumption) (by decide)) :
    OFrame E s0 (execEfTimerTrip c s) := by
  simp (disch := (
    unfold OFrameOf
    unfold execEfTimerTrip
    try dsimp only
    repeat' first
      | (with_reducible apply OFrame.next) | (with_reducible assumption)
      | ((with_reducible refine sub_step (by assumption) ?_); first | rfl | decide) | (with_reducible apply efTrip_fr)
      | (with_reducible apply whenDue_fr) | (split) | (intro _) | (refine frame_fst ?_ (by assumption)) | (dsimp only)
      | (with_reducible apply frame_any))) only [oframed]

theorem execEfFetOtTrip_fr {E : Nat} {s0 s : State} (h : Frame E s0 s) {c : Nat} (hE : Sub 0x6fab43b E := by first | assumption | exact sub_step (by assumption) (by decide)) :
    OFrame E s0 (execEfFetOtTrip c s) := by
  simp (disch := (
    unfold OFrameOf
    unfold execEfFetOtTrip
    try dsimp only
    repeat' first
      | (with_reducible apply OFrame.next) | (with_reducible assumption)
      | ((with_reducible refine sub_step (by assumption) ?_); first | rfl | decide) | (with_reducible apply efTrip_fr)
      | (with_reducible apply whenRef_fr) | (split) | (intro _) | (refine frame_fst ?_ (by assumption)) | (dsimp only)
      | (with_reducible apply frame_any))) only [oframed]

theorem execEfFetFail_fr {E : Nat} {s0 s : State} (h : Frame E s0 s) {c : Nat} (hE : Sub 0x80000 E := by first | assumption | exact sub_step (by assumption) (by decide)) :
    OFrame E s0 (execEfFetFail c s) := by
  simp (disch := (
    unfold OFrameOf
    unfold execEfFetFail
    try dsimp only
    repeat' first
      | (with_reducible apply OFrame.next) | (with_reducible assumption)
      | ((with_reducible refine sub_step (by assumption) ?_); first | rfl | decide) | (with_reducible apply raise_fr)
      | (with_reducible apply whenRef_fr) | (with_reducible apply wr_fr) | (split) | (intro _)
      | (refine frame_fst ?_ (by assumption)) | (dsimp only) | (with_reducible apply frame_any))) only [oframed]

theorem execEfModelUpdate_fr {E : Nat} {s0 s : State} (h : Frame E s0 s) {c : Nat} {vin : Nat} {vout : Nat} {iout : Nat} {diode : Nat} (hE : Sub 0xcc000 E := by first | assumption | exact sub_step (by assumption) (by decide)) :
    OFrame E s0 (execEfModelUpdate c vin vout iout diode s) := by
  simp (disch := (
    unfold OFrameOf
    unfold execEfModelUpdate
    try dsimp only
    repeat' first
      | (with_reducible apply OFrame.next) | (with_reducible assumption)
      | ((with_reducible refine sub_step (by assumption) ?_); first | rfl | decide) | (with_reducible apply efUpdate_fr)
      | (with_reducible apply whenRef_fr) | (split) | (intro _) | (refine frame_fst ?_ (by assumption)) | (dsimp only)
      | (with_reducible apply frame_any))) only [oframed]

theorem execEfRegulation_fr {E : Nat} {s0 s : State} (h : Frame E s0 s) {c : Nat} {on : Bool} (hE : Sub 0x80000 E := by first | assumption | exact sub_step (by assumption) (by decide)) :
    OFrame E s0 (execEfRegulation c on s) := by
  simp (disch := (
    unfold OFrameOf
    unfold execEfRegulation
    try dsimp only
    repeat' first
      | (with_reducible apply OFrame.next) | (with_reducible assumption)
      | ((with_reducible refine sub_step (by assumption) ?_); first | rfl | decide) | (with_reducible apply efRegulate_fr)
      | (with_reducible apply whenRef_fr) | (split) | (intro _) | (refine frame_fst ?_ (by assumption)) | (dsimp only)
      | (with_reducible apply frame_any))) only [oframed]

theorem slotPwrOn_fr {E : Nat} {s0 s : State} (h : Frame E s0 s) (hE : Sub 0x82000 E := by first | assumption | exact sub_step (by assumption) (by decide)) :
    Frame E s0 (State.slotPwrOn s) := by
  simp (disch := (
    unfold FrameOf
    unfold State.slotPwrOn
    try dsimp only
    repeat' first
      | (with_reducible assumption) | ((with_reducible refine sub_step (by assumption) ?_); first | rfl | decide)
      | (with_reducible apply efStart_fr) | (with_reducible apply wr_fr) | (split) | (intro _)
      | (refine frame_fst ?_ (by assumption)) | (dsimp only) | (with_reducible apply frame_any))) only [framed]

theorem execSlotPwrOn_fr {E : Nat} {s0 s : State} (h : Frame E s0 s) (hE : Sub 0x82000 E := by first | assumption | exact sub_step (by assumption) (by decide)) :
    OFrame E s0 (execSlotPwrOn s) := by
  simp (disch := (
    unfold OFrameOf
    unfold execSlotPwrOn
    try dsimp only
    repeat' first
      | (with_reducible apply OFrame.next) | (with_reducible assumption)
      | ((with_reducible refine sub_step (by assumption) ?_); first | rfl | decide) | (with_reducible apply slotPwrOn_fr)
      | (with_reducible apply whenUp_fr) | (split) | (intro _) | (refine frame_fst ?_ (by assumption)) | (dsimp only)
      | (with_reducible apply frame_any))) only [oframed]

theorem slotPwrOff_fr {E : Nat} {s0 s : State} (h : Frame E s0 s) (hE : Sub 0x6fab43b E := by first | assumption | exact sub_step (by assumption) (by decide)) :
    Frame E s0 (State.slotPwrOff s) := by
  simp (disch := (
    unfold FrameOf
    unfold State.slotPwrOff
    try dsimp only
    repeat' first
      | (with_reducible assumption) | ((with_reducible refine sub_step (by assumption) ?_); first | rfl | decide)
      | (with_reducible apply slotOff_fr) | (with_reducible apply wr_fr) | (split) | (intro _)
      | (refine frame_fst ?_ (by assumption)) | (dsimp only) | (with_reducible apply frame_any))) only [framed]

theorem execSlotPwrOff_fr {E : Nat} {s0 s : State} (h : Frame E s0 s) (hE : Sub 0x6fab43b E := by first | assumption | exact sub_step (by assumption) (by decide)) :
    OFrame E s0 (execSlotPwrOff s) := by
  simp (disch := (
    unfold OFrameOf
    unfold execSlotPwrOff
    try dsimp only
    repeat' first
      | (with_reducible apply OFrame.next) | (with_reducible assumption)
      | ((with_reducible refine sub_step (by assumption) ?_); first | rfl | decide) | (with_reducible apply slotPwrOff_fr)
      | (with_reducible apply whenUp_fr) | (split) | (intro _) | (refine frame_fst ?_ (by assumption)) | (dsimp only)
      | (with_reducible apply frame_any))) only [oframed]

theorem execSlotPerstRelease_fr {E : Nat} {s0 s : State} (h : Frame E s0 s) (hE : Sub 0x20000 E := by first | assumption | exact sub_step (by assumption) (by decide)) :
    OFrame E s0 (execSlotPerstRelease s) := by
  simp (disch := (
    unfold OFrameOf
    unfold execSlotPerstRelease
    try dsimp only
    repeat' first
      | (with_reducible apply OFrame.next) | (with_reducible assumption)
      | ((with_reducible refine sub_step (by assumption) ?_); first | rfl | decide) | (with_reducible apply emit_fr)
      | (with_reducible apply whenDue_fr) | (split) | (intro _) | (refine frame_fst ?_ (by assumption)) | (dsimp only)
      | (with_reducible apply frame_any))) only [oframed]

theorem execSettleExpiry_fr {E : Nat} {s0 s : State} (h : Frame E s0 s) (hE : Sub 0xb2a002 E := by first | assumption | exact sub_step (by assumption) (by decide)) :
    OFrame E s0 (execSettleExpiry s) := by
  simp (disch := (
    unfold OFrameOf
    unfold execSettleExpiry
    try dsimp only
    repeat' first
      | (with_reducible apply OFrame.next) | (with_reducible assumption)
      | ((with_reducible refine sub_step (by assumption) ?_); first | rfl | decide) | (with_reducible apply settle_fr)
      | (with_reducible apply slotEvent_fr) | (with_reducible apply whenDue_fr) | (with_reducible apply wr_fr) | (split)
      | (intro _) | (refine frame_fst ?_ (by assumption)) | (dsimp only) | (with_reducible apply frame_any))) only [oframed]

theorem execPresenceChange_fr {E : Nat} {s0 s : State} (h : Frame E s0 s) {present : Bool} (hE : Sub 0x6fab43b E := by first | assumption | exact sub_step (by assumption) (by decide)) :
    OFrame E s0 (execPresenceChange present s) := by
  unfold execPresenceChange
  refine whenUp_fr h ?_
  intro z k
  refine frame_ite k ?_
  extract_lets s1 s2
  have k1 : Frame E s0 s1 := wr_fr (setFlag_fr k)
  have k2 : Frame E s0 s2 := slotEvent_fr (frame_ite (incWrap_fr k1) k1)
  exact frame_ite (slotOff_fr k2) k2

theorem execAttentionButton_fr {E : Nat} {s0 s : State} (h : Frame E s0 s) (hE : Sub 0x2000 E := by first | assumption | exact sub_step (by assumption) (by decide)) :
    OFrame E s0 (execAttentionButton s) := by
  simp (disch := (
    unfold OFrameOf
    unfold execAttentionButton
    try dsimp only
    repeat' first
      | (with_reducible apply OFrame.next) | (with_reducible assumption)
      | ((with_reducible refine sub_step (by assumption) ?_); first | rfl | decide) | (with_reducible apply slotEvent_fr)
      | (with_reducible apply whenUp_fr) | (with_reducible apply wr_fr) | (split) | (intro _)
      | (refine frame_fst ?_ (by assumption)) | (dsimp only) | (with_reducible apply frame_any))) only [oframed]

theorem execContainmentFreeze_fr {E : Nat} {s0 s : State} (h : Frame E s0 s) {cause : Nat} (hE : Sub 0x6f2b43b E := by first | assumption | exact sub_step (by assumption) (by decide)) :
    OFrame E s0 (execContainmentFreeze cause s) := by
  simp (disch := (
    unfold OFrameOf
    unfold execContainmentFreeze
    try dsimp only
    repeat' first
      | (with_reducible apply OFrame.next) | (with_reducible assumption)
      | ((with_reducible refine sub_step (by assumption) ?_); first | rfl | decide) | (with_reducible apply slotError_fr)
      | (with_reducible apply whenUp_fr) | (split) | (intro _) | (refine frame_fst ?_ (by assumption)) | (dsimp only)
      | (with_reducible apply frame_any))) only [oframed]

theorem slotRelease_fr {E : Nat} {s0 s : State} (h : Frame E s0 s) (hE : Sub 0x2000 E := by first | assumption | exact sub_step (by assumption) (by decide)) :
    Frame E s0 (State.slotRelease s) := by
  simp (disch := (
    unfold FrameOf
    unfold State.slotRelease
    try dsimp only
    repeat' first
      | (with_reducible assumption) | ((with_reducible refine sub_step (by assumption) ?_); first | rfl | decide)
      | (with_reducible apply wr_fr) | (split) | (intro _) | (refine frame_fst ?_ (by assumption)) | (dsimp only)
      | (with_reducible apply frame_any))) only [framed]

theorem execContainmentRelease_fr {E : Nat} {s0 s : State} (h : Frame E s0 s) (hE : Sub 0x2000 E := by first | assumption | exact sub_step (by assumption) (by decide)) :
    OFrame E s0 (execContainmentRelease s) := by
  simp (disch := (
    unfold OFrameOf
    unfold execContainmentRelease
    try dsimp only
    repeat' first
      | (with_reducible apply OFrame.next) | (with_reducible assumption)
      | ((with_reducible refine sub_step (by assumption) ?_); first | rfl | decide) | (with_reducible apply slotRelease_fr)
      | (with_reducible apply whenUp_fr) | (split) | (intro _) | (refine frame_fst ?_ (by assumption)) | (dsimp only)
      | (with_reducible apply frame_any))) only [oframed]

theorem attachedUr_fr {E : Nat} {s0 s : State} (h : Frame E s0 s) (hE : Sub 0x20000 E := by first | assumption | exact sub_step (by assumption) (by decide)) :
    Frame E s0 (State.attachedUr s) := by
  simp (disch := (
    unfold FrameOf
    unfold State.attachedUr
    try dsimp only
    repeat' first
      | (with_reducible assumption) | ((with_reducible refine sub_step (by assumption) ?_); first | rfl | decide)
      | (with_reducible apply count_fr) | (with_reducible apply emit_fr) | (split) | (intro _)
      | (refine frame_fst ?_ (by assumption)) | (dsimp only) | (with_reducible apply frame_any))) only [framed]

theorem execAttachedMsiWrite_fr {E : Nat} {s0 s : State} (h : Frame E s0 s) {addr : Nat} {data : Nat} (hE : Sub 0x20000 E := by first | assumption | exact sub_step (by assumption) (by decide)) :
    OFrame E s0 (execAttachedMsiWrite addr data s) := by
  simp (disch := (
    unfold OFrameOf
    unfold execAttachedMsiWrite
    try dsimp only
    repeat' first
      | (with_reducible apply OFrame.next) | (with_reducible assumption)
      | ((with_reducible refine sub_step (by assumption) ?_); first | rfl | decide) | (with_reducible apply attachedUr_fr)
      | (with_reducible apply count_fr) | (with_reducible apply msix_fr) | (with_reducible apply whenLive_fr) | (split)
      | (intro _) | (refine frame_fst ?_ (by assumption)) | (dsimp only) | (with_reducible apply frame_any))) only [oframed]

theorem execAttachedRequest_fr {E : Nat} {s0 s : State} (h : Frame E s0 s) (hE : Sub 0x20000 E := by first | assumption | exact sub_step (by assumption) (by decide)) :
    OFrame E s0 (execAttachedRequest s) := by
  simp (disch := (
    unfold OFrameOf
    unfold execAttachedRequest
    try dsimp only
    repeat' first
      | (with_reducible apply OFrame.next) | (with_reducible assumption)
      | ((with_reducible refine sub_step (by assumption) ?_); first | rfl | decide) | (with_reducible apply attachedUr_fr)
      | (with_reducible apply whenLive_fr) | (split) | (intro _) | (refine frame_fst ?_ (by assumption)) | (dsimp only)
      | (with_reducible apply frame_any))) only [oframed]

theorem portLink_fr {E : Nat} {s0 s : State} (h : Frame E s0 s) {p : Nat} {up : Nat} {speed : Nat} {width : Nat} {flit : Bool} (hE : Sub 0x2000 E := by first | assumption | exact sub_step (by assumption) (by decide)) :
    Frame E s0 (State.portLink s p up speed width flit) := by
  simp (disch := (
    unfold FrameOf
    unfold State.portLink
    try dsimp only
    repeat' first
      | (with_reducible assumption) | ((with_reducible refine sub_step (by assumption) ?_); first | rfl | decide)
      | (with_reducible refine sub_flds ?_ ?_) | (with_reducible exact sub_zero) | (with_reducible apply wr_fr)
      | (with_reducible apply wrAll_fr) | (split) | (intro _) | (refine frame_fst ?_ (by assumption)) | (dsimp only)
      | (with_reducible apply frame_any))) only [framed]

theorem execPcieLinkDown_fr {E : Nat} {s0 s : State} (h : Frame E s0 s) {p : Nat} (hE : Sub 0x6f2b43b E := by first | assumption | exact sub_step (by assumption) (by decide)) :
    OFrame E s0 (execPcieLinkDown p s) := by
  simp (disch := (
    unfold OFrameOf
    unfold execPcieLinkDown
    try dsimp only
    repeat' first
      | (with_reducible apply OFrame.next) | (with_reducible assumption)
      | ((with_reducible refine sub_step (by assumption) ?_); first | rfl | decide) | (with_reducible apply flrFunc_fr)
      | (with_reducible apply freeze_fr) | (with_reducible apply portLink_fr) | (with_reducible apply slotLinkDown_fr)
      | (with_reducible apply whenUp_fr) | (split) | (intro _) | (refine frame_fst ?_ (by assumption)) | (dsimp only)
      | (with_reducible apply frame_any))) only [oframed]

theorem execPcieLinkUp_fr {E : Nat} {s0 s : State} (h : Frame E s0 s) {p : Nat} {speed : Nat} {width : Nat} {flitMode : Bool} (hE : Sub 0x2000 E := by first | assumption | exact sub_step (by assumption) (by decide)) :
    OFrame E s0 (execPcieLinkUp p speed width flitMode s) := by
  simp (disch := (
    unfold OFrameOf
    unfold execPcieLinkUp
    try dsimp only
    repeat' first
      | (with_reducible apply OFrame.next) | (with_reducible assumption)
      | ((with_reducible refine sub_step (by assumption) ?_); first | rfl | decide) | (with_reducible apply portLink_fr)
      | (with_reducible apply slotEvent_fr) | (with_reducible apply whenUp_fr) | (with_reducible apply wr_fr) | (split)
      | (intro _) | (refine frame_fst ?_ (by assumption)) | (dsimp only) | (with_reducible apply frame_any))) only [oframed]

theorem execCompletionTimeout_fr {E : Nat} {s0 s : State} (h : Frame E s0 s) {id : Nat} (hE : Sub 0x6f2b43b E := by first | assumption | exact sub_step (by assumption) (by decide)) :
    OFrame E s0 (execCompletionTimeout id s) := by
  simp (disch := (
    unfold OFrameOf
    unfold execCompletionTimeout
    try dsimp only
    repeat' first
      | (with_reducible apply OFrame.next) | (with_reducible assumption)
      | ((with_reducible refine sub_step (by assumption) ?_); first | rfl | decide) | (with_reducible apply count_fr)
      | (with_reducible apply settleAll_fr) | (with_reducible apply slotError_fr) | (with_reducible apply whenDue_fr)
      | (with_reducible apply xferFail_fr) | (split) | (intro _) | (refine frame_fst ?_ (by assumption)) | (dsimp only)
      | (with_reducible apply frame_any))) only [oframed]

end Sys2Proof.Laws
end

