-- ==== Sys2Proof/Laws/FrPower.lean ====
section
/-! SUPPORT. The frame of every operation of Machine/Power.lean (`Laws.Frame`). -/

namespace Sys2Proof.Laws

open Sys2Proof.Machine

set_option linter.all false
set_option Elab.async false

theorem coreReset_fr {E : Nat} {s0 s : State} (h : Frame E s0 s) {warm : Bool} (hE : Sub 0x7ffffff E := by first | assumption | exact sub_step (by assumption) (by decide)) :
    Frame E s0 (State.coreReset s warm) := by
  unfold State.coreReset
  extract_lets s1 s2 s3 t u
  have h1 : Frame E s0 s1 := frame_ite (slotOff_fr h) h
  have h2 : Frame E s0 s2 := frame_ite (emit_fr h1) h1
  have h3 : Frame E s0 s3 := frame_ite h2 (emit_fr h2)
  have ht : Frame E s0 t := by
    clear_value s3
    exact Frame.ofAll h3.pending h3.variant (fun i => ⟨rfl, (h3.inv i).hostMem, rfl,
      keep_all (P := fun c : (Fld × Nat) × Nat => c.2 < 2 ^ c.1.1.row.width) _ _ (h3.inv i).regs, fun c hc => by cases hc⟩) hE
  have hu : Frame E s0 u := wrAll_fr ht
  clear_value u
  exact frame_ite (wr_fr hu) hu

theorem releaseMain_fr {E : Nat} {s0 s : State} (h : Frame E s0 s) (hE : Sub 0x2000 E := by first | assumption | exact sub_step (by assumption) (by decide)) :
    Frame E s0 (State.releaseMain s) := by
  simp (disch := (
    unfold FrameOf
    unfold State.releaseMain
    try dsimp only
    repeat' first
      | (with_reducible assumption) | ((with_reducible refine sub_step (by assumption) ?_); first | rfl | decide)
      | (with_reducible apply armIn_fr) | (with_reducible apply wr_fr) | (split) | (intro _)
      | (refine frame_fst ?_ (by assumption)) | (dsimp only) | (with_reducible apply frame_any))) only [framed]

theorem loadType_fr {E : Nat} {s0 s : State} (h : Frame E s0 s) {t : Nat} (hE : Sub 0x404400 E := by first | assumption | exact sub_step (by assumption) (by decide)) :
    Frame E s0 (State.loadType s t) := by
  simp (disch := (
    unfold FrameOf
    unfold State.loadType
    try dsimp only
    repeat' first
      | (with_reducible assumption) | ((with_reducible refine sub_step (by assumption) ?_); first | rfl | decide)
      | (with_reducible apply loadImage_fr) | (with_reducible apply runActive_fr) | (with_reducible apply wr_fr)
      | (with_reducible apply frame_foldl) | (split) | (intro _) | (refine frame_fst ?_ (by assumption)) | (dsimp only)
      | (with_reducible apply frame_any))) only [framed]

theorem mainUp_fr {E : Nat} {s0 s : State} (h : Frame E s0 s) (hE : Sub 0x4046c0 E := by first | assumption | exact sub_step (by assumption) (by decide)) :
    Frame E s0 (State.mainUp s) := by
  simp (disch := (
    unfold FrameOf
    unfold State.mainUp
    try dsimp only
    repeat' first
      | (with_reducible assumption) | ((with_reducible refine sub_step (by assumption) ?_); first | rfl | decide)
      | (with_reducible apply emit_fr) | (with_reducible apply loadType_fr) | (with_reducible apply startPort_fr)
      | (with_reducible apply timeStart_fr) | (with_reducible apply frame_foldl) | (split) | (intro _)
      | (refine frame_fst ?_ (by assumption)) | (dsimp only) | (with_reducible apply frame_any))) only [framed]

theorem execMainResetComplete_fr {E : Nat} {s0 s : State} (h : Frame E s0 s) (hE : Sub 0x4246c0 E := by first | assumption | exact sub_step (by assumption) (by decide)) :
    OFrame E s0 (execMainResetComplete s) := by
  simp (disch := (
    unfold OFrameOf
    unfold execMainResetComplete
    try dsimp only
    repeat' first
      | (with_reducible apply OFrame.next) | (with_reducible assumption)
      | ((with_reducible refine sub_step (by assumption) ?_); first | rfl | decide) | (with_reducible apply mainUp_fr)
      | (with_reducible apply whenDue_fr) | (split) | (intro _) | (refine frame_fst ?_ (by assumption)) | (dsimp only)
      | (with_reducible apply frame_any))) only [oframed]

theorem auxReset_fr {E : Nat} {s0 s : State} (h : Frame E s0 s) (hE : Sub 0x7ffffff E := by first | assumption | exact sub_step (by assumption) (by decide)) :
    Frame E s0 (State.auxReset s) := by
  unfold State.auxReset
  extract_lets kept t
  have k : Frame E s0 t := Frame.ofAll h.pending h.variant (fun i => ⟨rfl, (h.inv i).hostMem, rfl,
    keep_all (P := fun c : (Fld × Nat) × Nat => c.2 < 2 ^ c.1.1.row.width) _ _ (h.inv i).regs, fun c hc => by cases hc⟩) hE
  clear_value t
  exact armIn_fr (wr_fr k)

theorem execAuxPowerOnReset_fr {E : Nat} {s0 s : State} (h : Frame E s0 s) (hE : Sub 0x7ffffff E := by first | assumption | exact sub_step (by assumption) (by decide)) :
    OFrame E s0 (execAuxPowerOnReset s) := by
  simp (disch := (
    unfold OFrameOf
    unfold execAuxPowerOnReset
    try dsimp only
    repeat' first
      | (with_reducible apply OFrame.next) | (with_reducible assumption)
      | ((with_reducible refine sub_step (by assumption) ?_); first | rfl | decide)
      | (with_reducible refine sub_step (sub_step (a := 0xfffff) (by assumption) (by decide)) ?_; first | exact part_sub _ | exact fldl_sub _)
      | (with_reducible apply auxReset_fr) | (split) | (intro _) | (refine frame_fst ?_ (by assumption)) | (dsimp only)
      | (with_reducible apply frame_any))) only [oframed]

theorem auxRelease_fr {E : Nat} {s0 s : State} (h : Frame E s0 s) {mgAddr : Nat} {efaAuto : Nat} (hE : Sub 0x8e400 E := by first | assumption | exact sub_step (by assumption) (by decide)) :
    Frame E s0 (State.auxRelease s mgAddr efaAuto) := by
  unfold State.auxRelease
  extract_lets s1 s2 s3 s4
  have h1 : Frame E s0 s1 := frame_any h
  have h2 : Frame E s0 s2 := iamelBoot_fr h1
  have h3 : Frame E s0 s3 := by
    clear_value s2
    exact frame_ite (frame_any h2) h2
  have h4 : Frame E s0 s4 := frame_ite (efStart_fr (wr_fr h3)) h3
  exact releaseMain_fr h4

theorem execAuxResetRelease_fr {E : Nat} {s0 s : State} (h : Frame E s0 s) {mgAddr : Nat} {efaAuto : Nat} (hE : Sub 0xae400 E := by first | assumption | exact sub_step (by assumption) (by decide)) :
    OFrame E s0 (execAuxResetRelease mgAddr efaAuto s) := by
  unfold execAuxResetRelease
  exact whenDue_fr h fun z k => frame_ite (auxRelease_fr k) k

theorem mainReset_fr {E : Nat} {s0 s : State} (h : Frame E s0 s) {last : Nat} (hE : Sub 0x7ffffff E := by first | assumption | exact sub_step (by assumption) (by decide)) :
    Frame E s0 (State.mainReset s last) := by
  unfold State.mainReset
  exact frame_ite (frame_any (disarm_fr h)) (wr_fr (frame_any (coreReset_fr h)))

theorem warmReset_fr {E : Nat} {s0 s : State} (h : Frame E s0 s) {last : Nat} {low : Nat} (hE : Sub 0x7ffffff E := by first | assumption | exact sub_step (by assumption) (by decide)) :
    Frame E s0 (State.warmReset s last low) := by
  unfold State.warmReset
  have k := coreReset_fr (warm := true) h
  generalize s.coreReset true = u at k ⊢
  exact frame_ite h (armIn_fr (incWrap_fr (wr_fr (frame_any k))))

theorem execPwrokMainAssert_fr {E : Nat} {s0 s : State} (h : Frame E s0 s) {hbMode : Nat} (hE : Sub 0x2000 E := by first | assumption | exact sub_step (by assumption) (by decide)) :
    OFrame E s0 (execPwrokMainAssert hbMode s) := by
  simp (disch := (
    unfold OFrameOf
    unfold execPwrokMainAssert
    try dsimp only
    repeat' first
      | (with_reducible apply OFrame.next) | (with_reducible assumption)
      | ((with_reducible refine sub_step (by assumption) ?_); first | rfl | decide) | (with_reducible apply fin_fr)
      | (with_reducible apply releaseMain_fr) | (split) | (intro _) | (refine frame_fst ?_ (by assumption)) | (dsimp only)
      | (with_reducible apply frame_any))) only [oframed]

theorem execPwrokMainDeassert_fr {E : Nat} {s0 s : State} (h : Frame E s0 s) (hE : Sub 0x7ffffff E := by first | assumption | exact sub_step (by assumption) (by decide)) :
    OFrame E s0 (execPwrokMainDeassert s) := by
  simp (disch := (
    unfold OFrameOf
    unfold execPwrokMainDeassert
    try dsimp only
    repeat' first
      | (with_reducible apply OFrame.next) | (with_reducible assumption)
      | ((with_reducible refine sub_step (by assumption) ?_); first | rfl | decide)
      | (with_reducible refine sub_step (sub_step (a := 0xfffff) (by assumption) (by decide)) ?_; first | exact part_sub _ | exact fldl_sub _)
      | (with_reducible apply fin_fr) | (with_reducible apply mainReset_fr) | (split) | (intro _)
      | (refine frame_fst ?_ (by assumption)) | (dsimp only) | (with_reducible apply frame_any))) only [oframed]

theorem execResetNAssert_fr {E : Nat} {s0 s : State} (h : Frame E s0 s) {lowNs : Nat} {acts : Bool} (hE : Sub 0x7ffffff E := by first | assumption | exact sub_step (by assumption) (by decide)) :
    OFrame E s0 (execResetNAssert lowNs acts s) := by
  simp (disch := (
    unfold OFrameOf
    unfold execResetNAssert
    try dsimp only
    repeat' first
      | (with_reducible apply OFrame.next) | (with_reducible assumption)
      | ((with_reducible refine sub_step (by assumption) ?_); first | rfl | decide)
      | (with_reducible refine sub_step (sub_step (a := 0xfffff) (by assumption) (by decide)) ?_; first | exact part_sub _ | exact fldl_sub _)
      | (with_reducible apply warmReset_fr) | (with_reducible apply whenRef_fr) | (split) | (intro _)
      | (refine frame_fst ?_ (by assumption)) | (dsimp only) | (with_reducible apply frame_any))) only [oframed]

theorem execPwResetWarm_fr {E : Nat} {s0 s : State} (h : Frame E s0 s) (hE : Sub 0x7ffffff E := by first | assumption | exact sub_step (by assumption) (by decide)) :
    OFrame E s0 (execPwResetWarm s) := by
  simp (disch := (
    unfold OFrameOf
    unfold execPwResetWarm
    try dsimp only
    repeat' first
      | (with_reducible apply OFrame.next) | (with_reducible assumption)
      | ((with_reducible refine sub_step (by assumption) ?_); first | rfl | decide)
      | (with_reducible refine sub_step (sub_step (a := 0xfffff) (by assumption) (by decide)) ?_; first | exact part_sub _ | exact fldl_sub _)
      | (with_reducible apply warmReset_fr) | (with_reducible apply whenRef_fr) | (split) | (intro _)
      | (refine frame_fst ?_ (by assumption)) | (dsimp only) | (with_reducible apply frame_any))) only [oframed]

theorem sagWarn_fr {E : Nat} {s0 s : State} (h : Frame E s0 s) {x : Supply} (hE : Sub 0x40000 E := by first | assumption | exact sub_step (by assumption) (by decide)) :
    Frame E s0 (State.sagWarn s x) := by
  simp (disch := (
    unfold FrameOf
    unfold State.sagWarn
    try dsimp only
    repeat' first
      | (with_reducible assumption) | ((with_reducible refine sub_step (by assumption) ?_); first | rfl | decide)
      | (with_reducible apply emit_fr) | (with_reducible apply msix_fr) | (with_reducible apply raise_fr)
      | (with_reducible apply wr_fr) | (exact sub_step (by assumption) (by cases x <;> decide)) | (split) | (intro _)
      | (refine frame_fst ?_ (by assumption)) | (dsimp only) | (with_reducible apply frame_any))) only [framed]

theorem execSagWarning_fr {E : Nat} {s0 s : State} (h : Frame E s0 s) {x : Supply} (hE : Sub 0x40000 E := by first | assumption | exact sub_step (by assumption) (by decide)) :
    OFrame E s0 (execSagWarning x s) := by
  simp (disch := (
    unfold OFrameOf
    unfold execSagWarning
    try dsimp only
    repeat' first
      | (with_reducible apply OFrame.next) | (with_reducible assumption)
      | ((with_reducible refine sub_step (by assumption) ?_); first | rfl | decide) | (with_reducible apply sagWarn_fr)
      | (with_reducible apply whenRef_fr) | (split) | (intro _) | (refine frame_fst ?_ (by assumption)) | (dsimp only)
      | (with_reducible apply frame_any))) only [oframed]

theorem sagRelease_fr {E : Nat} {s0 s : State} (h : Frame E s0 s) {x : Supply} (hE : Sub 0x42000 E := by first | assumption | exact sub_step (by assumption) (by decide)) :
    Frame E s0 (State.sagRelease s x) := by
  simp (disch := (
    unfold FrameOf
    unfold State.sagRelease
    try dsimp only
    repeat' first
      | (with_reducible assumption) | ((with_reducible refine sub_step (by assumption) ?_); first | rfl | decide)
      | (with_reducible apply emit_fr) | (with_reducible apply releaseMain_fr) | (with_reducible apply sagWarn_fr)
      | (with_reducible apply wr_fr) | (exact sub_step (by assumption) (by cases x <;> decide)) | (split) | (intro _)
      | (refine frame_fst ?_ (by assumption)) | (dsimp only) | (with_reducible apply frame_any))) only [framed]

theorem execSagWarningRelease_fr {E : Nat} {s0 s : State} (h : Frame E s0 s) {x : Supply} (hE : Sub 0x42000 E := by first | assumption | exact sub_step (by assumption) (by decide)) :
    OFrame E s0 (execSagWarningRelease x s) := by
  simp (disch := (
    unfold OFrameOf
    unfold execSagWarningRelease
    try dsimp only
    repeat' first
      | (with_reducible apply OFrame.next) | (with_reducible assumption)
      | ((with_reducible refine sub_step (by assumption) ?_); first | rfl | decide) | (with_reducible apply sagRelease_fr)
      | (with_reducible apply whenRef_fr) | (split) | (intro _) | (refine frame_fst ?_ (by assumption)) | (dsimp only)
      | (with_reducible apply frame_any))) only [oframed]

theorem execSagReset_fr {E : Nat} {s0 s : State} (h : Frame E s0 s) {x : Supply} (hE : Sub 0x7ffffff E := by first | assumption | exact sub_step (by assumption) (by decide)) :
    OFrame E s0 (execSagReset x s) := by
  simp (disch := (
    unfold OFrameOf
    unfold execSagReset
    try dsimp only
    repeat' first
      | (with_reducible apply OFrame.next) | (with_reducible assumption)
      | ((with_reducible refine sub_step (by assumption) ?_); first | rfl | decide)
      | (with_reducible refine sub_step (sub_step (a := 0xfffff) (by assumption) (by decide)) ?_; first | exact part_sub _ | exact fldl_sub _)
      | (with_reducible apply mainReset_fr) | (with_reducible apply whenRef_fr) | (split) | (intro _)
      | (refine frame_fst ?_ (by assumption)) | (dsimp only) | (with_reducible apply frame_any))) only [oframed]

theorem execGlitchDetect_fr {E : Nat} {s0 s : State} (h : Frame E s0 s) (hE : Sub 0x6f2b43b E := by first | assumption | exact sub_step (by assumption) (by decide)) :
    OFrame E s0 (execGlitchDetect s) := by
  simp (disch := (
    unfold OFrameOf
    unfold execGlitchDetect
    try dsimp only
    repeat' first
      | (with_reducible apply OFrame.next) | (with_reducible assumption)
      | ((with_reducible refine sub_step (by assumption) ?_); first | rfl | decide) | (with_reducible apply raise_fr)
      | (with_reducible apply whenRef_fr) | (with_reducible apply wr_fr) | (with_reducible apply zeroiseAll_fr) | (split)
      | (intro _) | (refine frame_fst ?_ (by assumption)) | (dsimp only) | (with_reducible apply frame_any))) only [oframed]

theorem park_fr {E : Nat} {s0 s : State} (h : Frame E s0 s) (hE : Sub 0xb68482 E := by first | assumption | exact sub_step (by assumption) (by decide)) :
    Frame E s0 (State.park s) := by
  simp (disch := (
    unfold FrameOf
    unfold State.park
    try dsimp only
    repeat' first
      | (with_reducible assumption) | ((with_reducible refine sub_step (by assumption) ?_); first | rfl | decide)
      | (with_reducible refine sub_flds ?_ ?_) | (with_reducible exact sub_zero) | (with_reducible apply haltFerryQueues_fr)
      | (with_reducible apply wr_fr) | (with_reducible apply wrAll_fr) | (with_reducible apply frame_foldl) | (split)
      | (intro _) | (refine frame_fst ?_ (by assumption)) | (dsimp only) | (with_reducible apply frame_any))) only [framed]

theorem unpark_fr {E : Nat} {s0 s : State} (h : Frame E s0 s) (hE : Sub 0xb684c2 E := by first | assumption | exact sub_step (by assumption) (by decide)) :
    Frame E s0 (State.unpark s) := by
  simp (disch := (
    unfold FrameOf
    unfold State.unpark
    try dsimp only
    repeat' first
      | (with_reducible assumption) | ((with_reducible refine sub_step (by assumption) ?_); first | rfl | decide)
      | (with_reducible refine sub_flds ?_ ?_) | (with_reducible exact sub_zero) | (with_reducible apply runFerry_fr)
      | (with_reducible apply startPort_fr) | (with_reducible apply wr_fr) | (with_reducible apply wrAll_fr)
      | (with_reducible apply frame_foldl) | (split) | (intro _) | (refine frame_fst ?_ (by assumption)) | (dsimp only)
      | (with_reducible apply frame_any))) only [framed]

theorem writePwCtl_fr {E : Nat} {s0 s : State} (h : Frame E s0 s) {w : Nat} (hE : Sub 0xb684c2 E := by first | assumption | exact sub_step (by assumption) (by decide)) :
    Frame E s0 (State.writePwCtl s w) := by
  simp (disch := (
    unfold FrameOf
    unfold State.writePwCtl
    try dsimp only
    repeat' first
      | (with_reducible assumption) | ((with_reducible refine sub_step (by assumption) ?_); first | rfl | decide)
      | (with_reducible apply logRejected_fr) | (with_reducible apply park_fr) | (with_reducible apply setFields_fr)
      | (with_reducible apply unpark_fr) | (split) | (intro _) | (refine frame_fst ?_ (by assumption)) | (dsimp only)
      | (with_reducible apply frame_any))) only [framed]

theorem execParkEnter_fr {E : Nat} {s0 s : State} (h : Frame E s0 s) (hE : Sub 0xb68482 E := by first | assumption | exact sub_step (by assumption) (by decide)) :
    OFrame E s0 (execParkEnter s) := by
  simp (disch := (
    unfold OFrameOf
    unfold execParkEnter
    try dsimp only
    repeat' first
      | (with_reducible apply OFrame.next) | (with_reducible assumption)
      | ((with_reducible refine sub_step (by assumption) ?_); first | rfl | decide) | (with_reducible apply logRejected_fr)
      | (with_reducible apply park_fr) | (with_reducible apply whenUp_fr) | (split) | (intro _)
      | (refine frame_fst ?_ (by assumption)) | (dsimp only) | (with_reducible apply frame_any))) only [oframed]

theorem execParkExit_fr {E : Nat} {s0 s : State} (h : Frame E s0 s) (hE : Sub 0xb684c2 E := by first | assumption | exact sub_step (by assumption) (by decide)) :
    OFrame E s0 (execParkExit s) := by
  simp (disch := (
    unfold OFrameOf
    unfold execParkExit
    try dsimp only
    repeat' first
      | (with_reducible apply OFrame.next) | (with_reducible assumption)
      | ((with_reducible refine sub_step (by assumption) ?_); first | rfl | decide) | (with_reducible apply unpark_fr)
      | (with_reducible apply whenUp_fr) | (split) | (intro _) | (refine frame_fst ?_ (by assumption)) | (dsimp only)
      | (with_reducible apply frame_any))) only [oframed]

end Sys2Proof.Laws
end

