-- ==== Sys2Proof/Laws/FrQueueTurn.lean ====
section
/-! SUPPORT. The frame of every operation of Machine/QueueTurn.lean (`Laws.Frame`). -/

namespace Sys2Proof.Laws

open Sys2Proof.Machine

set_option linter.all false
set_option Elab.async false

theorem startEntry_fr {E : Nat} {s0 s : State} (h : Frame E s0 s) {q : Nat} {n : Nat} {c : Cmd} {x : PrivData} {draw : Nat} (hE : Sub 0x7f2b7fb E := by first | assumption | exact sub_step (by assumption) (by decide)) :
    Frame E s0 (State.startEntry s q n c x draw) := by
  simp (disch := (
    unfold FrameOf
    unfold State.startEntry
    try dsimp only
    repeat' first
      | (with_reducible assumption) | ((with_reducible refine sub_step (by assumption) ?_); first | rfl | decide)
      | (with_reducible apply holdQueue_fr) | (with_reducible apply privBody_fr) | (with_reducible apply runPriv_fr)
      | (with_reducible apply settleAll_fr) | (with_reducible apply startAt_fr) | (with_reducible apply startFail_fr) | (split)
      | (intro _) | (refine frame_fst ?_ (by assumption)) | (dsimp only) | (with_reducible apply frame_any))) only [framed]

theorem turnAt_fr {E : Nat} {s0 s : State} (h : Frame E s0 s) {q : Nat} {i : Nat} {bs : List Byte} {x : PrivData} {draw : Nat} (hE : Sub 0x7f2b7fb E := by first | assumption | exact sub_step (by assumption) (by decide)) :
    Frame E s0 (State.turnAt s q i bs x draw) := by
  simp (disch := (
    unfold FrameOf
    unfold State.turnAt
    try dsimp only
    repeat' first
      | (with_reducible assumption) | ((with_reducible refine sub_step (by assumption) ?_); first | rfl | decide)
      | (with_reducible apply holdQueue_fr) | (with_reducible apply startEntry_fr) | (with_reducible apply startFail_fr)
      | (split) | (intro _) | (refine frame_fst ?_ (by assumption)) | (dsimp only) | (with_reducible apply frame_any))) only [framed]

theorem queueTurn_fr {E : Nat} {s0 s : State} (h : Frame E s0 s) {q : Nat} {x : PrivData} {draw : Nat} (hE : Sub 0x7f2b7fb E := by first | assumption | exact sub_step (by assumption) (by decide)) :
    Frame E s0 (State.queueTurn s q x draw) := by
  simp (disch := (
    unfold FrameOf
    unfold State.queueTurn
    try dsimp only
    repeat' first
      | (with_reducible assumption) | ((with_reducible refine sub_step (by assumption) ?_); first | rfl | decide)
      | (with_reducible apply passDoneEntries_fr) | (with_reducible apply turnAt_fr) | (split) | (intro _)
      | (refine frame_fst ?_ (by assumption)) | (dsimp only) | (with_reducible apply frame_any))) only [framed]

theorem execQueueStartTurn_fr {E : Nat} {s0 s : State} (h : Frame E s0 s) {q : Nat} {x : PrivData} {draw : Nat} (hE : Sub 0x7f2b7fb E := by first | assumption | exact sub_step (by assumption) (by decide)) :
    OFrame E s0 (execQueueStartTurn q x draw s) := by
  simp (disch := (
    unfold OFrameOf
    unfold execQueueStartTurn
    try dsimp only
    repeat' first
      | (with_reducible apply OFrame.next) | (with_reducible assumption)
      | ((with_reducible refine sub_step (by assumption) ?_); first | rfl | decide) | (with_reducible apply queueTurn_fr)
      | (with_reducible apply whenLive_fr) | (split) | (intro _) | (refine frame_fst ?_ (by assumption)) | (dsimp only)
      | (with_reducible apply frame_any))) only [oframed]

theorem execHeldCommandResume_fr {E : Nat} {s0 s : State} (h : Frame E s0 s) {q : Nat} {x : PrivData} {draw : Nat} (hE : Sub 0x7f2b7fb E := by first | assumption | exact sub_step (by assumption) (by decide)) :
    OFrame E s0 (execHeldCommandResume q x draw s) := by
  simp (disch := (
    unfold OFrameOf
    unfold execHeldCommandResume
    try dsimp only
    repeat' first
      | (with_reducible apply OFrame.next) | (with_reducible assumption)
      | ((with_reducible refine sub_step (by assumption) ?_); first | rfl | decide) | (with_reducible apply queueTurn_fr)
      | (with_reducible apply whenLive_fr) | (split) | (intro _) | (refine frame_fst ?_ (by assumption)) | (dsimp only)
      | (with_reducible apply frame_any))) only [oframed]

end Sys2Proof.Laws
end

