-- ==== Sys2Proof/Laws/FrTxRegs.lean ====
section
/-! SUPPORT. The frame of every operation of Machine/TxRegs.lean (`Laws.Frame`). -/

namespace Sys2Proof.Laws

open Sys2Proof.Machine

set_option linter.all false
set_option Elab.async false

theorem writeAsid_fr {E : Nat} {s0 s : State} (h : Frame E s0 s) {a : Nat} {v : Nat} (hE : Sub 0x9000 E := by first | assumption | exact sub_step (by assumption) (by decide)) :
    Frame E s0 (State.writeAsid s a v) := by
  simp (disch := (
    unfold FrameOf
    unfold State.writeAsid
    try dsimp only
    repeat' first
      | (with_reducible assumption) | ((with_reducible refine sub_step (by assumption) ?_); first | rfl | decide)
      | (with_reducible apply flushSlot_fr) | (with_reducible apply logRejected_fr) | (with_reducible apply setFields_fr)
      | (split) | (intro _) | (refine frame_fst ?_ (by assumption)) | (dsimp only) | (with_reducible apply frame_any))) only [framed]

theorem writeTxSlot_fr {E : Nat} {s0 s : State} (h : Frame E s0 s) {a : Nat} {reg : Nat} {v : Nat} (hE : Sub 0x9000 E := by first | assumption | exact sub_step (by assumption) (by decide)) :
    Frame E s0 (State.writeTxSlot s a reg v) := by
  simp (disch := (
    unfold FrameOf
    unfold State.writeTxSlot
    try dsimp only
    repeat' first
      | (with_reducible assumption) | ((with_reducible refine sub_step (by assumption) ?_); first | rfl | decide)
      | (with_reducible apply setFields_fr) | (with_reducible apply writeAsid_fr) | (split) | (intro _)
      | (refine frame_fst ?_ (by assumption)) | (dsimp only) | (with_reducible apply frame_any))) only [framed]

theorem execTxAsidWrite_fr {E : Nat} {s0 s : State} (h : Frame E s0 s) {a : Nat} {reg : Nat} {v : Nat} (hE : Sub 0x9000 E := by first | assumption | exact sub_step (by assumption) (by decide)) :
    OFrame E s0 (execTxAsidWrite a reg v s) := by
  simp (disch := (
    unfold OFrameOf
    unfold execTxAsidWrite
    try dsimp only
    repeat' first
      | (with_reducible apply OFrame.next) | (with_reducible assumption)
      | ((with_reducible refine sub_step (by assumption) ?_); first | rfl | decide) | (with_reducible apply whenUp_fr)
      | (with_reducible apply writeTxSlot_fr) | (split) | (intro _) | (refine frame_fst ?_ (by assumption)) | (dsimp only)
      | (with_reducible apply frame_any))) only [oframed]

theorem writeTxSpan_fr {E : Nat} {s0 s : State} (h : Frame E s0 s) {a : Nat} {sp : Nat} {reg : Nat} {v : Nat} (hE : Sub 0x1000 E := by first | assumption | exact sub_step (by assumption) (by decide)) :
    Frame E s0 (State.writeTxSpan s a sp reg v) := by
  simp (disch := (
    unfold FrameOf
    unfold State.writeTxSpan
    try dsimp only
    repeat' first
      | (with_reducible assumption) | ((with_reducible refine sub_step (by assumption) ?_); first | rfl | decide)
      | (with_reducible apply setFields_fr) | (with_reducible apply wr_fr) | (split) | (intro _)
      | (refine frame_fst ?_ (by assumption)) | (dsimp only) | (with_reducible apply frame_any))) only [framed]

theorem execTxSpanBaseWrite_fr {E : Nat} {s0 s : State} (h : Frame E s0 s) {a : Nat} {sp : Nat} {reg : Nat} {v : Nat} (hE : Sub 0x1000 E := by first | assumption | exact sub_step (by assumption) (by decide)) :
    OFrame E s0 (execTxSpanBaseWrite a sp reg v s) := by
  simp (disch := (
    unfold OFrameOf
    unfold execTxSpanBaseWrite
    try dsimp only
    repeat' first
      | (with_reducible apply OFrame.next) | (with_reducible assumption)
      | ((with_reducible refine sub_step (by assumption) ?_); first | rfl | decide) | (with_reducible apply whenUp_fr)
      | (with_reducible apply writeTxSpan_fr) | (split) | (intro _) | (refine frame_fst ?_ (by assumption)) | (dsimp only)
      | (with_reducible apply frame_any))) only [oframed]

end Sys2Proof.Laws
end

