-- ==== Sys2Proof/Laws/FrUnitReset.lean ====
section
/-! SUPPORT. The frame of every operation of Machine/UnitReset.lean (`Laws.Frame`). -/

namespace Sys2Proof.Laws

open Sys2Proof.Machine

set_option linter.all false
set_option Elab.async false

theorem resetIgnored_fr {E : Nat} {s0 s : State} (h : Frame E s0 s) {kind : Nat} {i : Nat} (hE : Sub 0x8000 E := by first | assumption | exact sub_step (by assumption) (by decide)) :
    Frame E s0 (State.resetIgnored s kind i) := by
  simp (disch := (
    unfold FrameOf
    unfold State.resetIgnored
    try dsimp only
    repeat' first
      | (with_reducible assumption) | ((with_reducible refine sub_step (by assumption) ?_); first | rfl | decide)
      | (with_reducible apply logRec_fr) | (split) | (intro _) | (refine frame_fst ?_ (by assumption)) | (dsimp only)
      | (with_reducible apply frame_any))) only [framed]

theorem dropCache_fr {E : Nat} {s0 s : State} (h : Frame E s0 s) {f : Nat} :
    Frame E s0 (State.dropCache s f) := by
  simp (disch := (
    unfold FrameOf
    unfold State.dropCache
    try dsimp only
    repeat' first
      | (with_reducible assumption) | (with_reducible apply lineEvict_fr) | (with_reducible apply frame_foldl) | (split)
      | (intro _) | (refine frame_fst ?_ (by assumption)) | (dsimp only) | (with_reducible apply frame_any))) only [framed]

theorem resetThread_fr {E : Nat} {s0 s : State} (h : Frame E s0 s) {f : Nat} {t : Nat} (hE : Sub 0x4f28402 E := by first | assumption | exact sub_step (by assumption) (by decide)) :
    Frame E s0 (State.resetThread s f t) := by
  simp (disch := (
    unfold FrameOf
    unfold State.resetThread
    try dsimp only
    repeat' first
      | (with_reducible assumption) | ((with_reducible refine sub_step (by assumption) ?_); first | rfl | decide)
      | (with_reducible refine sub_flds ?_ ?_) | (with_reducible exact sub_zero) | (with_reducible apply count_fr)
      | (with_reducible apply endInvoc_fr) | (with_reducible apply incSat_fr) | (with_reducible apply logRec_fr)
      | (with_reducible apply slot_fr) | (with_reducible apply threadFault_fr) | (with_reducible apply wrAll_fr) | (split)
      | (intro _) | (refine frame_fst ?_ (by assumption)) | (dsimp only) | (with_reducible apply frame_any))) only [framed]

theorem resetFerry_fr {E : Nat} {s0 s : State} (h : Frame E s0 s) {f : Nat} (hE : Sub 0x4f28402 E := by first | assumption | exact sub_step (by assumption) (by decide)) :
    Frame E s0 (State.resetFerry s f) := by
  simp (disch := (
    unfold FrameOf
    unfold State.resetFerry
    try dsimp only
    repeat' first
      | (with_reducible assumption) | ((with_reducible refine sub_step (by assumption) ?_); first | rfl | decide)
      | (with_reducible apply dropCache_fr) | (with_reducible apply endPriv_fr) | (with_reducible apply haltFerryQueues_fr)
      | (with_reducible apply resetThread_fr) | (with_reducible apply updFerry_fr) | (with_reducible apply wr_fr)
      | (with_reducible apply frame_foldl) | (split) | (intro _) | (refine frame_fst ?_ (by assumption)) | (dsimp only)
      | (with_reducible apply frame_any))) only [framed]

theorem resetPort_fr {E : Nat} {s0 s : State} (h : Frame E s0 s) {p : Nat} {full : Nat → Bool} (hE : Sub 0x200c0 E := by first | assumption | exact sub_step (by assumption) (by decide)) :
    Frame E s0 (State.resetPort s p full) := by
  simp (disch := (
    unfold FrameOf
    unfold State.resetPort
    try dsimp only
    repeat' first
      | (with_reducible assumption) | ((with_reducible refine sub_step (by assumption) ?_); first | rfl | decide)
      | (with_reducible apply disablePort_fr) | (with_reducible apply startPort_fr) | (with_reducible apply wr_fr) | (split)
      | (intro _) | (refine frame_fst ?_ (by assumption)) | (dsimp only) | (with_reducible apply frame_any))) only [framed]

theorem resetQuad_fr {E : Nat} {s0 s : State} (h : Frame E s0 s) {q : Nat} (hE : Sub 0x200c0 E := by first | assumption | exact sub_step (by assumption) (by decide)) :
    Frame E s0 (State.resetQuad s q) := by
  simp (disch := (
    unfold FrameOf
    unfold State.resetQuad
    try dsimp only
    repeat' first
      | (with_reducible assumption) | ((with_reducible refine sub_step (by assumption) ?_); first | rfl | decide)
      | (with_reducible apply resetPort_fr) | (with_reducible apply wr_fr) | (with_reducible apply frame_foldl) | (split)
      | (intro _) | (refine frame_fst ?_ (by assumption)) | (dsimp only) | (with_reducible apply frame_any))) only [framed]

theorem rstEffect_fr {E : Nat} {s0 s : State} (h : Frame E s0 s) {kind : Nat} {i : Nat} (hE : Sub 0x4f284e2 E := by first | assumption | exact sub_step (by assumption) (by decide)) :
    Frame E s0 (State.rstEffect s kind i) := by
  simp (disch := (
    unfold FrameOf
    unfold State.rstEffect
    try dsimp only
    repeat' first
      | (with_reducible assumption) | ((with_reducible refine sub_step (by assumption) ?_); first | rfl | decide)
      | (with_reducible apply catchersMoved_fr) | (with_reducible apply failHuddle_fr) | (with_reducible apply resetFerry_fr)
      | (with_reducible apply resetPort_fr) | (with_reducible apply resetQuad_fr) | (split) | (intro _)
      | (refine frame_fst ?_ (by assumption)) | (dsimp only) | (with_reducible apply frame_any))) only [framed]

theorem unitReset_fr {E : Nat} {s0 s : State} (h : Frame E s0 s) {kind : Nat} {i : Nat} (hE : Sub 0x4f284e2 E := by first | assumption | exact sub_step (by assumption) (by decide)) :
    Frame E s0 (State.unitReset s kind i) := by
  simp (disch := (
    unfold FrameOf
    unfold State.unitReset
    try dsimp only
    repeat' first
      | (with_reducible assumption) | ((with_reducible refine sub_step (by assumption) ?_); first | rfl | decide)
      | (with_reducible apply logRejected_fr) | (with_reducible apply resetIgnored_fr) | (with_reducible apply rstEffect_fr)
      | (split) | (intro _) | (refine frame_fst ?_ (by assumption)) | (dsimp only) | (with_reducible apply frame_any))) only [framed]

theorem unitResetOver_fr {E : Nat} {s0 s : State} (h : Frame E s0 s) (hE : Sub 0x30000 E := by first | assumption | exact sub_step (by assumption) (by decide)) :
    Frame E s0 (State.unitResetOver s) := by
  simp (disch := (
    unfold FrameOf
    unfold State.unitResetOver
    try dsimp only
    repeat' first
      | (with_reducible assumption) | ((with_reducible refine sub_step (by assumption) ?_); first | rfl | decide)
      | (with_reducible apply catchersMoved_fr) | (with_reducible apply setFlag_fr) | (split) | (intro _)
      | (refine frame_fst ?_ (by assumption)) | (dsimp only) | (with_reducible apply frame_any))) only [framed]

theorem execUnitResetFerry_fr {E : Nat} {s0 s : State} (h : Frame E s0 s) {f : Nat} (hE : Sub 0x6f2b4fb E := by first | assumption | exact sub_step (by assumption) (by decide)) :
    OFrame E s0 (execUnitResetFerry f s) := by
  simp (disch := (
    unfold OFrameOf
    unfold execUnitResetFerry
    try dsimp only
    repeat' first
      | (with_reducible apply OFrame.next) | (with_reducible assumption)
      | ((with_reducible refine sub_step (by assumption) ?_); first | rfl | decide) | (with_reducible apply settleAll_fr)
      | (with_reducible apply unitReset_fr) | (with_reducible apply whenUp_fr) | (split) | (intro _)
      | (refine frame_fst ?_ (by assumption)) | (dsimp only) | (with_reducible apply frame_any))) only [oframed]

theorem execUnitResetPort_fr {E : Nat} {s0 s : State} (h : Frame E s0 s) {p : Nat} (hE : Sub 0x4f284e2 E := by first | assumption | exact sub_step (by assumption) (by decide)) :
    OFrame E s0 (execUnitResetPort p s) := by
  simp (disch := (
    unfold OFrameOf
    unfold execUnitResetPort
    try dsimp only
    repeat' first
      | (with_reducible apply OFrame.next) | (with_reducible assumption)
      | ((with_reducible refine sub_step (by assumption) ?_); first | rfl | decide) | (with_reducible apply unitReset_fr)
      | (with_reducible apply whenUp_fr) | (split) | (intro _) | (refine frame_fst ?_ (by assumption)) | (dsimp only)
      | (with_reducible apply frame_any))) only [oframed]

theorem execUnitResetLaneQuad_fr {E : Nat} {s0 s : State} (h : Frame E s0 s) {q : Nat} (hE : Sub 0x4f284e2 E := by first | assumption | exact sub_step (by assumption) (by decide)) :
    OFrame E s0 (execUnitResetLaneQuad q s) := by
  simp (disch := (
    unfold OFrameOf
    unfold execUnitResetLaneQuad
    try dsimp only
    repeat' first
      | (with_reducible apply OFrame.next) | (with_reducible assumption)
      | ((with_reducible refine sub_step (by assumption) ?_); first | rfl | decide) | (with_reducible apply unitReset_fr)
      | (with_reducible apply whenUp_fr) | (split) | (intro _) | (refine frame_fst ?_ (by assumption)) | (dsimp only)
      | (with_reducible apply frame_any))) only [oframed]

theorem execUnitResetHuddle_fr {E : Nat} {s0 s : State} (h : Frame E s0 s) {h' : Nat} (hE : Sub 0x6f2b4fb E := by first | assumption | exact sub_step (by assumption) (by decide)) :
    OFrame E s0 (execUnitResetHuddle h' s) := by
  simp (disch := (
    unfold OFrameOf
    unfold execUnitResetHuddle
    try dsimp only
    repeat' first
      | (with_reducible apply OFrame.next) | (with_reducible assumption)
      | ((with_reducible refine sub_step (by assumption) ?_); first | rfl | decide) | (with_reducible apply settleAll_fr)
      | (with_reducible apply unitReset_fr) | (with_reducible apply whenUp_fr) | (split) | (intro _)
      | (refine frame_fst ?_ (by assumption)) | (dsimp only) | (with_reducible apply frame_any))) only [oframed]

theorem execUnitResetCatcher_fr {E : Nat} {s0 s : State} (h : Frame E s0 s) {c : Nat} (hE : Sub 0x4f284e2 E := by first | assumption | exact sub_step (by assumption) (by decide)) :
    OFrame E s0 (execUnitResetCatcher c s) := by
  simp (disch := (
    unfold OFrameOf
    unfold execUnitResetCatcher
    try dsimp only
    repeat' first
      | (with_reducible apply OFrame.next) | (with_reducible assumption)
      | ((with_reducible refine sub_step (by assumption) ?_); first | rfl | decide) | (with_reducible apply unitReset_fr)
      | (with_reducible apply whenUp_fr) | (split) | (intro _) | (refine frame_fst ?_ (by assumption)) | (dsimp only)
      | (with_reducible apply frame_any))) only [oframed]

theorem execUnitResetComplete_fr {E : Nat} {s0 s : State} (h : Frame E s0 s) (hE : Sub 0x30000 E := by first | assumption | exact sub_step (by assumption) (by decide)) :
    OFrame E s0 (execUnitResetComplete s) := by
  simp (disch := (
    unfold OFrameOf
    unfold execUnitResetComplete
    try dsimp only
    repeat' first
      | (with_reducible apply OFrame.next) | (with_reducible assumption)
      | ((with_reducible refine sub_step (by assumption) ?_); first | rfl | decide) | (with_reducible apply unitResetOver_fr)
      | (with_reducible apply whenUp_fr) | (split) | (intro _) | (refine frame_fst ?_ (by assumption)) | (dsimp only)
      | (with_reducible apply frame_any))) only [oframed]

theorem unitGoes_fr {E : Nat} {s0 s : State} (h : Frame E s0 s) {r : Nat} {k : Nat} (hE : Sub 0x20040 E := by first | assumption | exact sub_step (by assumption) (by decide)) :
    Frame E s0 (State.unitGoes s r k) := by
  simp (disch := (
    unfold FrameOf
    unfold State.unitGoes
    try dsimp only
    repeat' first
      | (with_reducible assumption) | ((with_reducible refine sub_step (by assumption) ?_); first | rfl | decide)
      | (with_reducible apply clearEn_fr) | (with_reducible apply dropCache_fr) | (with_reducible apply laneStop_fr) | (split)
      | (intro _) | (refine frame_fst ?_ (by assumption)) | (dsimp only) | (with_reducible apply frame_any))) only [framed]

theorem unitReturns_fr {E : Nat} {s0 s : State} (h : Frame E s0 s) {r : Nat} {k : Nat} (hE : Sub 0x304c0 E := by first | assumption | exact sub_step (by assumption) (by decide)) :
    Frame E s0 (State.unitReturns s r k) := by
  simp (disch := (
    unfold FrameOf
    unfold State.unitReturns
    try dsimp only
    repeat' first
      | (with_reducible assumption) | ((with_reducible refine sub_step (by assumption) ?_); first | rfl | decide)
      | (with_reducible apply resetPort_fr) | (with_reducible apply setFlag_fr) | (with_reducible apply wr_fr) | (split)
      | (intro _) | (refine frame_fst ?_ (by assumption)) | (dsimp only) | (with_reducible apply frame_any))) only [framed]

theorem writePwEn_fr {E : Nat} {s0 s : State} (h : Frame E s0 s) {r : Nat} {w : Nat} (hE : Sub 0x784c0 E := by first | assumption | exact sub_step (by assumption) (by decide)) :
    Frame E s0 (State.writePwEn s r w) := by
  simp (disch := (
    unfold FrameOf
    unfold State.writePwEn
    try dsimp only
    repeat' first
      | (with_reducible assumption) | ((with_reducible refine sub_step (by assumption) ?_); first | rfl | decide)
      | (with_reducible apply catchersMoved_fr) | (with_reducible apply logRec_fr) | (with_reducible apply unitGoes_fr)
      | (with_reducible apply unitReturns_fr) | (with_reducible apply wr_fr) | (with_reducible apply frame_foldl) | (split)
      | (intro _) | (refine frame_fst ?_ (by assumption)) | (dsimp only) | (with_reducible apply frame_any))) only [framed]

theorem execPwEnWrite_fr {E : Nat} {s0 s : State} (h : Frame E s0 s) {r : Nat} {mask : Nat} (hE : Sub 0x784c0 E := by first | assumption | exact sub_step (by assumption) (by decide)) :
    OFrame E s0 (execPwEnWrite r mask s) := by
  simp (disch := (
    unfold OFrameOf
    unfold execPwEnWrite
    try dsimp only
    repeat' first
      | (with_reducible apply OFrame.next) | (with_reducible assumption)
      | ((with_reducible refine sub_step (by assumption) ?_); first | rfl | decide) | (with_reducible apply whenUp_fr)
      | (with_reducible apply writePwEn_fr) | (split) | (intro _) | (refine frame_fst ?_ (by assumption)) | (dsimp only)
      | (with_reducible apply frame_any))) only [oframed]

end Sys2Proof.Laws
end

