-- ==== Sys2Proof/Laws/FrRegWrite.lean ====
section
/-! SUPPORT. The frame of every operation of Machine/RegWrite.lean (`Laws.Frame`). -/

namespace Sys2Proof.Laws

open Sys2Proof.Machine

set_option linter.all false
set_option Elab.async false

theorem guard_fr {E : Nat} {s0 s : State} (h : Frame E s0 s) {f : Option Func} {r : Reg} {i : Nat} {fs : List Fld} (hE : Sub 0x8000 E := by first | assumption | exact sub_step (by assumption) (by decide)) :
    Frame E s0 (State.guard s f r i fs) := by
  simp (disch := (
    unfold FrameOf
    unfold State.guard
    try dsimp only
    repeat' first
      | (with_reducible assumption) | ((with_reducible refine sub_step (by assumption) ?_); first | rfl | decide)
      | (with_reducible apply logViolation_fr) | (split) | (intro _) | (refine frame_fst ?_ (by assumption)) | (dsimp only)
      | (with_reducible apply frame_any))) only [framed]

theorem readPart_fr {E : Nat} {s0 s : State} (h : Frame E s0 s) {f : Option Func} {r : Reg} {i : Nat} {fs : List Fld} (hE : Sub 0xfffff E := by first | assumption | exact sub_step (by assumption) (by decide)) :
    Frame E s0 (State.readPart s f r i fs).1 := by
  simp (disch := (
    unfold FrameOf
    unfold State.readPart
    try dsimp only
    repeat' first
      | (with_reducible assumption) | ((with_reducible refine sub_step (by assumption) ?_); first | rfl | decide)
      | (with_reducible refine sub_step (sub_step (a := 0xfffff) (by assumption) (by decide)) ?_; first | exact part_sub _ | exact fldl_sub _)
      | (with_reducible apply guard_fr) | (with_reducible apply logViolation_fr) | (with_reducible apply readFields_fr)
      | (split) | (intro _) | (refine frame_fst ?_ (by assumption)) | (dsimp only) | (with_reducible apply frame_any))) only [framed]

theorem readWord_fr {E : Nat} {s0 s : State} (h : Frame E s0 s) {f : Option Func} {r : Reg} {i : Nat} {part : Option Bool} (hE : Sub 0xfffff E := by first | assumption | exact sub_step (by assumption) (by decide)) :
    Frame E s0 (State.readWord s f r i part).1 := by
  simp (disch := (
    unfold FrameOf
    unfold State.readWord
    try dsimp only
    repeat' first
      | (with_reducible assumption) | ((with_reducible refine sub_step (by assumption) ?_); first | rfl | decide)
      | (with_reducible refine sub_step (sub_step (a := 0xfffff) (by assumption) (by decide)) ?_; first | exact part_sub _ | exact fldl_sub _)
      | (with_reducible apply readPart_fr) | (split) | (intro _) | (refine frame_fst ?_ (by assumption)) | (dsimp only)
      | (with_reducible apply frame_any))) only [framed]

theorem writeWin_fr {E : Nat} {s0 s : State} (h : Frame E s0 s) {tgt : Bool} {i : Nat} {v : Nat} (hE : Sub 0xa000 E := by first | assumption | exact sub_step (by assumption) (by decide)) :
    Frame E s0 (State.writeWin s tgt i v) := by
  simp (disch := (
    unfold FrameOf
    unfold State.writeWin
    try dsimp only
    repeat' first
      | (with_reducible assumption) | ((with_reducible refine sub_step (by assumption) ?_); first | rfl | decide)
      | (with_reducible refine sub_fldb ?_ ?_) | (with_reducible exact sub_zero) | (with_reducible apply logRejected_fr)
      | (with_reducible apply setBounded_fr) | (with_reducible apply setFields_fr) | (split) | (intro _)
      | (refine frame_fst ?_ (by assumption)) | (dsimp only) | (with_reducible apply frame_any))) only [framed]

theorem writeVf_fr {E : Nat} {s0 s : State} (h : Frame E s0 s) {i : Nat} {v : Nat} (hE : Sub 0xa000 E := by first | assumption | exact sub_step (by assumption) (by decide)) :
    Frame E s0 (State.writeVf s i v) := by
  simp (disch := (
    unfold FrameOf
    unfold State.writeVf
    try dsimp only
    repeat' first
      | (with_reducible assumption) | ((with_reducible refine sub_step (by assumption) ?_); first | rfl | decide)
      | (with_reducible apply logRejected_fr) | (with_reducible apply wr_fr) | (split) | (intro _)
      | (refine frame_fst ?_ (by assumption)) | (dsimp only) | (with_reducible apply frame_any))) only [framed]

theorem writeLock_fr {E : Nat} {s0 s : State} (h : Frame E s0 s) {n : Nat} {f : Option Func} {v : Nat} (hE : Sub 0x4028800 E := by first | assumption | exact sub_step (by assumption) (by decide)) :
    Frame E s0 (State.writeLock s n f v) := by
  simp (disch := (
    unfold FrameOf
    unfold State.writeLock
    try dsimp only
    repeat' first
      | (with_reducible assumption) | ((with_reducible refine sub_step (by assumption) ?_); first | rfl | decide)
      | (with_reducible apply acquireLock_fr) | (with_reducible apply lockClear_fr) | (with_reducible apply lockHostRelease_fr)
      | (with_reducible apply lockWrite_fr) | (with_reducible apply updLock_fr) | (split) | (intro _)
      | (refine frame_fst ?_ (by assumption)) | (dsimp only) | (with_reducible apply frame_any))) only [framed]

theorem writeLkWord_fr {E : Nat} {s0 s : State} (h : Frame E s0 s) {f : Option Func} {v : Nat} (hE : Sub 0x528800 E := by first | assumption | exact sub_step (by assumption) (by decide)) :
    Frame E s0 (State.writeLkWord s f v) := by
  simp (disch := (
    unfold FrameOf
    unfold State.writeLkWord
    try dsimp only
    repeat' first
      | (with_reducible assumption) | ((with_reducible refine sub_step (by assumption) ?_); first | rfl | decide)
      | (with_reducible apply logViolation_fr) | (with_reducible apply wordLock_fr) | (split) | (intro _)
      | (refine frame_fst ?_ (by assumption)) | (dsimp only) | (with_reducible apply frame_any))) only [framed]

theorem writeOpen_fr {E : Nat} {s0 s : State} (h : Frame E s0 s) {f : Option Func} {r : Reg} {i : Nat} {v : Nat} (hE : Sub 0x4fff803 E := by first | assumption | exact sub_step (by assumption) (by decide)) :
    Frame E s0 (State.writeOpen s f r i v) := by
  simp (disch := (
    unfold FrameOf
    unfold State.writeOpen
    try dsimp only
    repeat' first
      | (with_reducible assumption) | ((with_reducible refine sub_step (by assumption) ?_); first | rfl | decide)
      | (with_reducible apply confirmTrial_fr) | (with_reducible apply setFields_fr) | (with_reducible apply slotRelease_fr)
      | (with_reducible apply w1c_fr) | (with_reducible apply writeLkWord_fr) | (with_reducible apply writeLock_fr)
      | (with_reducible apply writeQueueReg_fr) | (with_reducible apply writeTxSlot_fr) | (with_reducible apply writeTxSpan_fr)
      | (split) | (intro _) | (refine frame_fst ?_ (by assumption)) | (dsimp only) | (with_reducible apply frame_any))) only [framed]

theorem writeSlotCtl_fr {E : Nat} {s0 s : State} (h : Frame E s0 s) {v : Nat} (hE : Sub 0x6fab43b E := by first | assumption | exact sub_step (by assumption) (by decide)) :
    Frame E s0 (State.writeSlotCtl s v) := by
  simp (disch := (
    unfold FrameOf
    unfold State.writeSlotCtl
    try dsimp only
    repeat' first
      | (with_reducible assumption) | ((with_reducible refine sub_step (by assumption) ?_); first | rfl | decide)
      | (with_reducible refine sub_fldb ?_ ?_) | (with_reducible exact sub_zero) | (with_reducible apply emit_fr)
      | (with_reducible apply setFields_fr) | (with_reducible apply setRanged_fr) | (with_reducible apply slotPwrOff_fr)
      | (with_reducible apply slotPwrOn_fr) | (split) | (intro _) | (refine frame_fst ?_ (by assumption)) | (dsimp only)
      | (with_reducible apply frame_any))) only [framed]

theorem writeEfCfg_fr {E : Nat} {s0 s : State} (h : Frame E s0 s) {c : Nat} {v : Nat} (hE : Sub 0x80000 E := by first | assumption | exact sub_step (by assumption) (by decide)) :
    Frame E s0 (State.writeEfCfg s c v) := by
  simp (disch := (
    unfold FrameOf
    unfold State.writeEfCfg
    try dsimp only
    repeat' first
      | (with_reducible assumption) | ((with_reducible refine sub_step (by assumption) ?_); first | rfl | decide)
      | (with_reducible refine sub_fldb ?_ ?_) | (with_reducible exact sub_zero) | (with_reducible apply setFields_fr)
      | (with_reducible apply setRanged_fr) | (split) | (intro _) | (refine frame_fst ?_ (by assumption)) | (dsimp only)
      | (with_reducible apply frame_any))) only [framed]

theorem writeReset_fr {E : Nat} {s0 s : State} (h : Frame E s0 s) {v : Nat} (hE : Sub 0x7ffffff E := by first | assumption | exact sub_step (by assumption) (by decide)) :
    Frame E s0 (State.writeReset s v) := by
  simp (disch := (
    unfold FrameOf
    unfold State.writeReset
    try dsimp only
    repeat' first
      | (with_reducible assumption) | ((with_reducible refine sub_step (by assumption) ?_); first | rfl | decide)
      | (with_reducible refine sub_step (sub_step (a := 0xfffff) (by assumption) (by decide)) ?_; first | exact part_sub _ | exact fldl_sub _)
      | (with_reducible apply mgmtReset_fr) | (with_reducible apply warmReset_fr) | (split) | (intro _)
      | (refine frame_fst ?_ (by assumption)) | (dsimp only) | (with_reducible apply frame_any))) only [framed]

theorem writePriv_fr {E : Nat} {s0 s : State} (h : Frame E s0 s) {r : Reg} {i : Nat} {v : Nat} (hE : Sub 0x7ffffff E := by first | assumption | exact sub_step (by assumption) (by decide)) :
    Frame E s0 (State.writePriv s r i v) := by
  simp (disch := (
    unfold FrameOf
    unfold State.writePriv
    try dsimp only
    repeat' first
      | (with_reducible assumption) | ((with_reducible refine sub_step (by assumption) ?_); first | rfl | decide)
      | (with_reducible refine sub_fldb ?_ ?_) | (with_reducible exact sub_zero)
      | (with_reducible refine sub_step (sub_step (a := 0xfffff) (by assumption) (by decide)) ?_; first | exact part_sub _ | exact fldl_sub _)
      | (with_reducible apply grant_fr) | (with_reducible apply setFields_fr) | (with_reducible apply setRanged_fr)
      | (with_reducible apply settleAll_fr) | (with_reducible apply timeConfig_fr) | (with_reducible apply unitReset_fr)
      | (with_reducible apply w1c_fr) | (with_reducible apply writeCatcher_fr) | (with_reducible apply writeEcCnt_fr)
      | (with_reducible apply writeEcSel_fr) | (with_reducible apply writeEfCfg_fr) | (with_reducible apply writeEfCtl_fr)
      | (with_reducible apply writeFtSrc_fr) | (with_reducible apply writeFxCfg_fr) | (with_reducible apply writeHistCfg_fr)
      | (with_reducible apply writeLandpool_fr) | (with_reducible apply writeLockCfg_fr)
      | (with_reducible apply writeLockGroup_fr) | (with_reducible apply writeMfQuota_fr)
      | (with_reducible apply writePaceCtl_fr) | (with_reducible apply writePwCtl_fr) | (with_reducible apply writePwEn_fr)
      | (with_reducible apply writeReset_fr) | (with_reducible apply writeSensThr_fr) | (with_reducible apply writeSlotCtl_fr)
      | (with_reducible apply writeTp_fr) | (with_reducible apply writeTrigCfg_fr) | (with_reducible apply writeVf_fr)
      | (with_reducible apply writeWin_fr) | (split) | (intro _) | (refine frame_fst ?_ (by assumption)) | (dsimp only)
      | (with_reducible apply frame_any))) only [framed]

theorem writeWord_fr {E : Nat} {s0 s : State} (h : Frame E s0 s) {f : Option Func} {r : Reg} {i : Nat} {part : Option Bool} {v : Nat} (hE : Sub 0x7ffffff E := by first | assumption | exact sub_step (by assumption) (by decide)) :
    Frame E s0 (State.writeWord s f r i part v) := by
  simp (disch := (
    unfold FrameOf
    unfold State.writeWord
    try dsimp only
    repeat' first
      | (with_reducible assumption) | ((with_reducible refine sub_step (by assumption) ?_); first | rfl | decide)
      | (with_reducible refine sub_step (sub_step (a := 0xfffff) (by assumption) (by decide)) ?_; first | exact part_sub _ | exact fldl_sub _)
      | (with_reducible apply guard_fr) | (with_reducible apply writeOpen_fr) | (with_reducible apply writePriv_fr) | (split)
      | (intro _) | (refine frame_fst ?_ (by assumption)) | (dsimp only) | (with_reducible apply frame_any))) only [framed]

theorem readAddr_fr {E : Nat} {s0 s : State} (h : Frame E s0 s) {addr : Nat} (hE : Sub 0xfffff E := by first | assumption | exact sub_step (by assumption) (by decide)) :
    Frame E s0 (State.readAddr s addr).1 := by
  simp (disch := (
    unfold FrameOf
    unfold State.readAddr
    try dsimp only
    repeat' first
      | (with_reducible assumption) | ((with_reducible refine sub_step (by assumption) ?_); first | rfl | decide)
      | (with_reducible refine sub_step (sub_step (a := 0xfffff) (by assumption) (by decide)) ?_; first | exact part_sub _ | exact fldl_sub _)
      | (with_reducible apply agentMoves_fr) | (with_reducible apply logViolation_fr) | (with_reducible apply readWord_fr)
      | (split) | (intro _) | (refine frame_fst ?_ (by assumption)) | (dsimp only) | (with_reducible apply frame_any))) only [framed]

theorem writeAddr_fr {E : Nat} {s0 s : State} (h : Frame E s0 s) {addr : Nat} {v : Nat} (hE : Sub 0x7ffffff E := by first | assumption | exact sub_step (by assumption) (by decide)) :
    Frame E s0 (State.writeAddr s addr v) := by
  simp (disch := (
    unfold FrameOf
    unfold State.writeAddr
    try dsimp only
    repeat' first
      | (with_reducible assumption) | ((with_reducible refine sub_step (by assumption) ?_); first | rfl | decide)
      | (with_reducible refine sub_step (sub_step (a := 0xfffff) (by assumption) (by decide)) ?_; first | exact part_sub _ | exact fldl_sub _)
      | (with_reducible apply logViolation_fr) | (with_reducible apply writeLocal_fr) | (with_reducible apply writeWord_fr)
      | (split) | (intro _) | (refine frame_fst ?_ (by assumption)) | (dsimp only) | (with_reducible apply frame_any))) only [framed]

theorem ctlViolation_fr {E : Nat} {s0 s : State} (h : Frame E s0 s) (hE : Sub 0xa000 E := by first | assumption | exact sub_step (by assumption) (by decide)) :
    Frame E s0 (State.ctlViolation s) := by
  simp (disch := (
    unfold FrameOf
    unfold State.ctlViolation
    try dsimp only
    repeat' first
      | (with_reducible assumption) | ((with_reducible refine sub_step (by assumption) ?_); first | rfl | decide)
      | (with_reducible apply logViolation_fr) | (with_reducible apply wr_fr) | (split) | (intro _)
      | (refine frame_fst ?_ (by assumption)) | (dsimp only) | (with_reducible apply frame_any))) only [framed]

theorem ctlRead_fr {E : Nat} {s0 s : State} (h : Frame E s0 s) {len : Nat} (hE : Sub 0xfffff E := by first | assumption | exact sub_step (by assumption) (by decide)) :
    Frame E s0 (State.ctlRead s len).1 := by
  simp (disch := (
    unfold FrameOf
    unfold State.ctlRead
    try dsimp only
    repeat' first
      | (with_reducible assumption) | ((with_reducible refine sub_step (by assumption) ?_); first | rfl | decide)
      | (with_reducible refine sub_step (sub_step (a := 0xfffff) (by assumption) (by decide)) ?_; first | exact part_sub _ | exact fldl_sub _)
      | (with_reducible apply ctlViolation_fr) | (with_reducible apply readAddr_fr) | (split) | (intro _)
      | (refine frame_fst ?_ (by assumption)) | (dsimp only) | (with_reducible apply frame_any))) only [framed]

theorem ctlWrite_fr {E : Nat} {s0 s : State} (h : Frame E s0 s) {len : Nat} {v : Nat} (hE : Sub 0x7ffffff E := by first | assumption | exact sub_step (by assumption) (by decide)) :
    Frame E s0 (State.ctlWrite s len v) := by
  simp (disch := (
    unfold FrameOf
    unfold State.ctlWrite
    try dsimp only
    repeat' first
      | (with_reducible assumption) | ((with_reducible refine sub_step (by assumption) ?_); first | rfl | decide)
      | (with_reducible refine sub_step (sub_step (a := 0xfffff) (by assumption) (by decide)) ?_; first | exact part_sub _ | exact fldl_sub _)
      | (with_reducible apply ctlViolation_fr) | (with_reducible apply writeAddr_fr) | (split) | (intro _)
      | (refine frame_fst ?_ (by assumption)) | (dsimp only) | (with_reducible apply frame_any))) only [framed]

theorem setVecDword_fr {E : Nat} {s0 s : State} (h : Frame E s0 s) {f : Func} {d : Nat} {v : Nat} :
    Frame E s0 (State.setVecDword s f d v) := by
  simp (disch := (
    unfold FrameOf
    unfold State.setVecDword
    try dsimp only
    repeat' first
      | (with_reducible assumption) | (with_reducible apply unmaskVec_fr) | (with_reducible apply updFn_fr) | (split)
      | (intro _) | (refine frame_fst ?_ (by assumption)) | (dsimp only) | (with_reducible apply frame_any))) only [framed]

theorem bar0Read_fr {E : Nat} {s0 s : State} (h : Frame E s0 s) {f : Func} {off : Nat} {len : Nat} (hE : Sub 0xfffff E := by first | assumption | exact sub_step (by assumption) (by decide)) :
    Frame E s0 (State.bar0Read s f off len).1 := by
  simp (disch := (
    unfold FrameOf
    unfold State.bar0Read
    try dsimp only
    repeat' first
      | (with_reducible assumption) | ((with_reducible refine sub_step (by assumption) ?_); first | rfl | decide)
      | (with_reducible refine sub_step (sub_step (a := 0xfffff) (by assumption) (by decide)) ?_; first | exact part_sub _ | exact fldl_sub _)
      | (with_reducible apply ctlRead_fr) | (with_reducible apply readWord_fr) | (with_reducible apply regForeign_fr) | (split)
      | (intro _) | (refine frame_fst ?_ (by assumption)) | (dsimp only) | (with_reducible apply frame_any))) only [framed]

theorem bar0Write_fr {E : Nat} {s0 s : State} (h : Frame E s0 s) {f : Func} {off : Nat} {len : Nat} {v : Nat} (hE : Sub 0x7ffffff E := by first | assumption | exact sub_step (by assumption) (by decide)) :
    Frame E s0 (State.bar0Write s f off len v) := by
  simp (disch := (
    unfold FrameOf
    unfold State.bar0Write
    try dsimp only
    repeat' first
      | (with_reducible assumption) | ((with_reducible refine sub_step (by assumption) ?_); first | rfl | decide)
      | (with_reducible refine sub_step (sub_step (a := 0xfffff) (by assumption) (by decide)) ?_; first | exact part_sub _ | exact fldl_sub _)
      | (with_reducible apply ctlWrite_fr) | (with_reducible apply regForeign_fr) | (with_reducible apply setFields_fr)
      | (with_reducible apply setVecDword_fr) | (with_reducible apply w1c_fr) | (with_reducible apply writeWord_fr) | (split)
      | (intro _) | (refine frame_fst ?_ (by assumption)) | (dsimp only) | (with_reducible apply frame_any))) only [framed]

theorem bar2Write_fr {E : Nat} {s0 s : State} (h : Frame E s0 s) {f : Func} {off : Nat} {len : Nat} {v : Nat} (hE : Sub 0xb2a002 E := by first | assumption | exact sub_step (by assumption) (by decide)) :
    Frame E s0 (State.bar2Write s f off len v) := by
  simp (disch := (
    unfold FrameOf
    unfold State.bar2Write
    try dsimp only
    repeat' first
      | (with_reducible assumption) | ((with_reducible refine sub_step (by assumption) ?_); first | rfl | decide)
      | (with_reducible apply dbForeign_fr) | (with_reducible apply takeDoorbell_fr) | (split) | (intro _)
      | (refine frame_fst ?_ (by assumption)) | (dsimp only) | (with_reducible apply frame_any))) only [framed]

theorem urReply_fr {E : Nat} {s0 s : State} (h : Frame E s0 s) {f : Func} (hE : Sub 0x20000 E := by first | assumption | exact sub_step (by assumption) (by decide)) :
    Frame E s0 (State.urReply s f) := by
  simp (disch := (
    unfold FrameOf
    unfold State.urReply
    try dsimp only
    repeat' first
      | (with_reducible assumption) | ((with_reducible refine sub_step (by assumption) ?_); first | rfl | decide)
      | (with_reducible apply count_fr) | (with_reducible apply emit_fr) | (split) | (intro _)
      | (refine frame_fst ?_ (by assumption)) | (dsimp only) | (with_reducible apply frame_any))) only [framed]

theorem barAccess_fr {E : Nat} {s0 s : State} (h : Frame E s0 s) {f : Func} {wr : Option Nat} {rd : State → State × Nat} {put : State → Nat → State} (h_rd : ∀ z0, Frame E s0 z0 → Frame E s0 (rd z0).1) (h_put : ∀ z0 z1, Frame E s0 z0 → Frame E s0 (put z0 z1)) (hE : Sub 0x20000 E := by first | assumption | exact sub_step (by assumption) (by decide)) :
    Frame E s0 (State.barAccess s f wr rd put) := by
  simp (disch := (
    unfold FrameOf
    unfold State.barAccess
    try dsimp only
    repeat' first
      | (with_reducible assumption) | ((with_reducible refine sub_step (by assumption) ?_); first | rfl | decide)
      | (with_reducible apply answer_fr) | (with_reducible apply urReply_fr) | (with_reducible apply wr_fr)
      | (with_reducible apply h_rd) | (with_reducible apply h_put) | (split) | (intro _) | (refine frame_fst ?_ (by assumption))
      | (dsimp only) | (with_reducible apply frame_any))) only [framed]

theorem execRegisterWrite_fr {E : Nat} {s0 s : State} (h : Frame E s0 s) {p : RegPath} (hE : Sub 0x7ffffff E := by first | assumption | exact sub_step (by assumption) (by decide)) :
    OFrame E s0 (execRegisterWrite p s) := by
  simp (disch := (
    unfold OFrameOf
    unfold execRegisterWrite
    try dsimp only
    repeat' first
      | (with_reducible apply OFrame.next) | (with_reducible assumption)
      | ((with_reducible refine sub_step (by assumption) ?_); first | rfl | decide)
      | (with_reducible refine sub_step (sub_step (a := 0xfffff) (by assumption) (by decide)) ?_; first | exact part_sub _ | exact fldl_sub _)
      | (with_reducible apply bar0Read_fr) | (with_reducible apply bar0Write_fr) | (with_reducible apply bar2Write_fr)
      | (with_reducible apply barAccess_fr) | (with_reducible apply emit_fr) | (with_reducible apply readAddr_fr)
      | (with_reducible apply whenRef_fr) | (with_reducible apply whenUp_fr) | (with_reducible apply wr_fr)
      | (with_reducible apply writeAddr_fr) | (split) | (intro _) | (refine frame_fst ?_ (by assumption)) | (dsimp only)
      | (with_reducible apply frame_any))) only [oframed]

theorem execHiCtlDataRead_fr {E : Nat} {s0 s : State} (h : Frame E s0 s) {len : Nat} (hE : Sub 0xfffff E := by first | assumption | exact sub_step (by assumption) (by decide)) :
    OFrame E s0 (execHiCtlDataRead len s) := by
  simp (disch := (
    unfold OFrameOf
    unfold execHiCtlDataRead
    try dsimp only
    repeat' first
      | (with_reducible apply OFrame.next) | (with_reducible assumption)
      | ((with_reducible refine sub_step (by assumption) ?_); first | rfl | decide)
      | (with_reducible refine sub_step (sub_step (a := 0xfffff) (by assumption) (by decide)) ?_; first | exact part_sub _ | exact fldl_sub _)
      | (with_reducible apply answer_fr) | (with_reducible apply ctlRead_fr) | (with_reducible apply whenUp_fr) | (split)
      | (intro _) | (refine frame_fst ?_ (by assumption)) | (dsimp only) | (with_reducible apply frame_any))) only [oframed]

theorem execHiCtlDataWrite_fr {E : Nat} {s0 s : State} (h : Frame E s0 s) {len : Nat} {v : Nat} (hE : Sub 0x7ffffff E := by first | assumption | exact sub_step (by assumption) (by decide)) :
    OFrame E s0 (execHiCtlDataWrite len v s) := by
  simp (disch := (
    unfold OFrameOf
    unfold execHiCtlDataWrite
    try dsimp only
    repeat' first
      | (with_reducible apply OFrame.next) | (with_reducible assumption)
      | ((with_reducible refine sub_step (by assumption) ?_); first | rfl | decide)
      | (with_reducible refine sub_step (sub_step (a := 0xfffff) (by assumption) (by decide)) ?_; first | exact part_sub _ | exact fldl_sub _)
      | (with_reducible apply ctlWrite_fr) | (with_reducible apply whenUp_fr) | (split) | (intro _)
      | (refine frame_fst ?_ (by assumption)) | (dsimp only) | (with_reducible apply frame_any))) only [oframed]

theorem execHiWinWrite_fr {E : Nat} {s0 s : State} (h : Frame E s0 s) {tgt : Bool} {p : Nat} {w : Nat} {v : Nat} (hE : Sub 0xa000 E := by first | assumption | exact sub_step (by assumption) (by decide)) :
    OFrame E s0 (execHiWinWrite tgt p w v s) := by
  simp (disch := (
    unfold OFrameOf
    unfold execHiWinWrite
    try dsimp only
    repeat' first
      | (with_reducible apply OFrame.next) | (with_reducible assumption)
      | ((with_reducible refine sub_step (by assumption) ?_); first | rfl | decide) | (with_reducible apply whenUp_fr)
      | (with_reducible apply writeWin_fr) | (split) | (intro _) | (refine frame_fst ?_ (by assumption)) | (dsimp only)
      | (with_reducible apply frame_any))) only [oframed]

theorem execHiVfWrite_fr {E : Nat} {s0 s : State} (h : Frame E s0 s) {p : Nat} {vf : Nat} {v : Nat} (hE : Sub 0xa000 E := by first | assumption | exact sub_step (by assumption) (by decide)) :
    OFrame E s0 (execHiVfWrite p vf v s) := by
  simp (disch := (
    unfold OFrameOf
    unfold execHiVfWrite
    try dsimp only
    repeat' first
      | (with_reducible apply OFrame.next) | (with_reducible assumption)
      | ((with_reducible refine sub_step (by assumption) ?_); first | rfl | decide) | (with_reducible apply whenUp_fr)
      | (with_reducible apply writeVf_fr) | (split) | (intro _) | (refine frame_fst ?_ (by assumption)) | (dsimp only)
      | (with_reducible apply frame_any))) only [oframed]

theorem execHiFnStatRead_fr {E : Nat} {s0 s : State} (h : Frame E s0 s) {f : Func} (hE : Sub 0x2000 E := by first | assumption | exact sub_step (by assumption) (by decide)) :
    OFrame E s0 (execHiFnStatRead f s) := by
  simp (disch := (
    unfold OFrameOf
    unfold execHiFnStatRead
    try dsimp only
    repeat' first
      | (with_reducible apply OFrame.next) | (with_reducible assumption)
      | ((with_reducible refine sub_step (by assumption) ?_); first | rfl | decide) | (with_reducible apply readFor_fr)
      | (with_reducible apply whenUp_fr) | (split) | (intro _) | (refine frame_fst ?_ (by assumption)) | (dsimp only)
      | (with_reducible apply frame_any))) only [oframed]

theorem winMiss_fr {E : Nat} {s0 s : State} (h : Frame E s0 s) {f : Func} {op : BarOp} (hE : Sub 0x22000 E := by first | assumption | exact sub_step (by assumption) (by decide)) :
    Frame E s0 (State.winMiss s f op) := by
  simp (disch := (
    unfold FrameOf
    unfold State.winMiss
    try dsimp only
    repeat' first
      | (with_reducible assumption) | ((with_reducible refine sub_step (by assumption) ?_); first | rfl | decide)
      | (with_reducible apply incOpen_fr) | (with_reducible apply urReply_fr) | (split) | (intro _)
      | (refine frame_fst ?_ (by assumption)) | (dsimp only) | (with_reducible apply frame_any))) only [framed]

theorem winDrop_fr {E : Nat} {s0 s : State} (h : Frame E s0 s) {addr : Nat} {len : Nat} (hE : Sub 0x8000 E := by first | assumption | exact sub_step (by assumption) (by decide)) :
    Frame E s0 (State.winDrop s addr len) := by
  simp (disch := (
    unfold FrameOf
    unfold State.winDrop
    try dsimp only
    repeat' first
      | (with_reducible assumption) | ((with_reducible refine sub_step (by assumption) ?_); first | rfl | decide)
      | (with_reducible apply logViolation_fr) | (split) | (intro _) | (refine frame_fst ?_ (by assumption)) | (dsimp only)
      | (with_reducible apply frame_any))) only [framed]

theorem winRegs_fr {E : Nat} {s0 s : State} (h : Frame E s0 s) {f : Func} {addr : Nat} {len : Nat} {op : BarOp} (hE : Sub 0x7ffffff E := by first | assumption | exact sub_step (by assumption) (by decide)) :
    Frame E s0 (State.winRegs s f addr len op) := by
  simp (disch := (
    unfold FrameOf
    unfold State.winRegs
    try dsimp only
    repeat' first
      | (with_reducible assumption) | ((with_reducible refine sub_step (by assumption) ?_); first | rfl | decide)
      | (with_reducible refine sub_step (sub_step (a := 0xfffff) (by assumption) (by decide)) ?_; first | exact part_sub _ | exact fldl_sub _)
      | (with_reducible apply agentMoves_fr) | (with_reducible apply answer_fr) | (with_reducible apply emit_fr)
      | (with_reducible apply logViolation_fr) | (with_reducible apply readWord_fr) | (with_reducible apply urReply_fr)
      | (with_reducible apply winDrop_fr) | (with_reducible apply writeLocal_fr) | (with_reducible apply writeWord_fr) | (split)
      | (intro _) | (refine frame_fst ?_ (by assumption)) | (dsimp only) | (with_reducible apply frame_any))) only [framed]

theorem winPackage_fr {E : Nat} {s0 s : State} (h : Frame E s0 s) {f : Func} {addr : Nat} {len : Nat} {op : BarOp} {bad : Bool} (hE : Sub 0xb20000 E := by first | assumption | exact sub_step (by assumption) (by decide)) :
    Frame E s0 (State.winPackage s f addr len op bad) := by
  simp (disch := (
    unfold FrameOf
    unfold State.winPackage
    try dsimp only
    repeat' first
      | (with_reducible assumption) | ((with_reducible refine sub_step (by assumption) ?_); first | rfl | decide)
      | (with_reducible apply answer_fr) | (with_reducible apply count_fr) | (with_reducible apply emit_fr)
      | (with_reducible apply raise_fr) | (with_reducible apply urReply_fr) | (with_reducible apply writeLoc_fr) | (split)
      | (intro _) | (refine frame_fst ?_ (by assumption)) | (dsimp only) | (with_reducible apply frame_any))) only [framed]

theorem bar4_fr {E : Nat} {s0 s : State} (h : Frame E s0 s) {f : Func} {off : Nat} {len : Nat} {op : BarOp} {bad : Bool} (hE : Sub 0x7ffffff E := by first | assumption | exact sub_step (by assumption) (by decide)) :
    Frame E s0 (State.bar4 s f off len op bad) := by
  simp (disch := (
    unfold FrameOf
    unfold State.bar4
    try dsimp only
    repeat' first
      | (with_reducible assumption) | ((with_reducible refine sub_step (by assumption) ?_); first | rfl | decide)
      | (with_reducible refine sub_step (sub_step (a := 0xfffff) (by assumption) (by decide)) ?_; first | exact part_sub _ | exact fldl_sub _)
      | (with_reducible apply winMiss_fr) | (with_reducible apply winPackage_fr) | (with_reducible apply winRegs_fr) | (split)
      | (intro _) | (refine frame_fst ?_ (by assumption)) | (dsimp only) | (with_reducible apply frame_any))) only [framed]

theorem execBar4Access_fr {E : Nat} {s0 s : State} (h : Frame E s0 s) {f : Func} {off : Nat} {len : Nat} {op : BarOp} {bad : Bool} (hE : Sub 0x7ffffff E := by first | assumption | exact sub_step (by assumption) (by decide)) :
    OFrame E s0 (execBar4Access f off len op bad s) := by
  simp (disch := (
    unfold OFrameOf
    unfold execBar4Access
    try dsimp only
    repeat' first
      | (with_reducible apply OFrame.next) | (with_reducible assumption)
      | ((with_reducible refine sub_step (by assumption) ?_); first | rfl | decide)
      | (with_reducible refine sub_step (sub_step (a := 0xfffff) (by assumption) (by decide)) ?_; first | exact part_sub _ | exact fldl_sub _)
      | (with_reducible apply bar4_fr) | (with_reducible apply urReply_fr) | (with_reducible apply whenUp_fr) | (split)
      | (intro _) | (refine frame_fst ?_ (by assumption)) | (dsimp only) | (with_reducible apply frame_any))) only [oframed]

end Sys2Proof.Laws
end

