-- ==== Sys2Proof/Laws/FrRouting.lean ====
section
/-! SUPPORT. The frame of every operation of Machine/Routing.lean (`Laws.Frame`). -/

namespace Sys2Proof.Laws

open Sys2Proof.Machine

set_option linter.all false
set_option Elab.async false

theorem execRouterHeaderArrival_fr {E : Nat} {s0 s : State} (h : Frame E s0 s) {inPort : Nat} {pkt : Packet} {i1 : Nat} {i2 : Nat} (hE : Sub 0x20000 E := by first | assumption | exact sub_step (by assumption) (by decide)) :
    OFrame E s0 (execRouterHeaderArrival inPort pkt i1 i2 s) := by
  simp (disch := (
    unfold OFrameOf
    unfold execRouterHeaderArrival
    try dsimp only
    repeat' first
      | (with_reducible apply OFrame.next) | (with_reducible assumption)
      | ((with_reducible refine sub_step (by assumption) ?_); first | rfl | decide) | (with_reducible apply count_fr)
      | (with_reducible apply decideHeader_fr) | (with_reducible apply enterCrossing_fr) | (with_reducible apply whenLive_fr)
      | (split) | (intro _) | (refine frame_fst ?_ (by assumption)) | (dsimp only) | (with_reducible apply frame_any))) only [oframed]

theorem execCutThroughStart_fr {E : Nat} {s0 s : State} (h : Frame E s0 s) {out : Nat} {vc : Nat} (hE : Sub 0x20000 E := by first | assumption | exact sub_step (by assumption) (by decide)) :
    OFrame E s0 (execCutThroughStart out vc s) := by
  simp (disch := (
    unfold OFrameOf
    unfold execCutThroughStart
    try dsimp only
    repeat' first
      | (with_reducible apply OFrame.next) | (with_reducible assumption)
      | ((with_reducible refine sub_step (by assumption) ?_); first | rfl | decide) | (with_reducible apply cutThrough_fr)
      | (with_reducible apply whenLive_fr) | (split) | (intro _) | (refine frame_fst ?_ (by assumption)) | (dsimp only)
      | (with_reducible apply frame_any))) only [oframed]

theorem mgDrop_fr {E : Nat} {s0 s : State} (h : Frame E s0 s) {out : Nat} {vc : Nat} (hE : Sub 0x20000 E := by first | assumption | exact sub_step (by assumption) (by decide)) :
    Frame E s0 (State.mgDrop s out vc) := by
  simp (disch := (
    unfold FrameOf
    unfold State.mgDrop
    try dsimp only
    repeat' first
      | (with_reducible assumption) | ((with_reducible refine sub_step (by assumption) ?_); first | rfl | decide)
      | (with_reducible apply dropLeg_fr) | (with_reducible apply setNow_fr) | (split) | (intro _)
      | (refine frame_fst ?_ (by assumption)) | (dsimp only) | (with_reducible apply frame_any))) only [framed]

theorem execMgDropExpiry_fr {E : Nat} {s0 s : State} (h : Frame E s0 s) {out : Nat} {vc : Nat} (hE : Sub 0x20000 E := by first | assumption | exact sub_step (by assumption) (by decide)) :
    OFrame E s0 (execMgDropExpiry out vc s) := by
  simp (disch := (
    unfold OFrameOf
    unfold execMgDropExpiry
    try dsimp only
    repeat' first
      | (with_reducible apply OFrame.next) | (with_reducible assumption)
      | ((with_reducible refine sub_step (by assumption) ?_); first | rfl | decide) | (with_reducible apply mgDrop_fr)
      | (with_reducible apply whenLive_fr) | (split) | (intro _) | (refine frame_fst ?_ (by assumption)) | (dsimp only)
      | (with_reducible apply frame_any))) only [oframed]

theorem execNoticeReceive_fr {E : Nat} {s0 s : State} (h : Frame E s0 s) {p : Nat} {n : Notice} :
    OFrame E s0 (execNoticeReceive p n s) := by
  simp (disch := (
    unfold OFrameOf
    unfold execNoticeReceive
    try dsimp only
    repeat' first
      | (with_reducible apply OFrame.next) | (with_reducible assumption) | (with_reducible apply updLink_fr)
      | (with_reducible apply whenLive_fr) | (split) | (intro _) | (refine frame_fst ?_ (by assumption)) | (dsimp only)
      | (with_reducible apply frame_any))) only [oframed]

end Sys2Proof.Laws
end

