-- ==== Sys2Proof/Laws/Memory.lean ====
section
/-! SUPPORT. Reading a memory after bytes were written to it: outside them as before, inside them what was written. -/

namespace Sys2Proof.Laws

open Sys2Proof.Machine

theorem memGet_memPut_ne {k j : Nat} (v : Byte) (h : j ≠ k) : ∀ m : Memory, memGet (memPut k v m) j = memGet m j
  | [] => by
    unfold memPut
    split
    · rfl
    · simp [memGet, Ne.symm h]
  | (a, w) :: r => by
    rw [memPut_cons]
    split
    · split
      · rfl
      · simp [memGet, Ne.symm h]
    · split
      · rename_i hk
        subst hk
        split
        · simp [memGet, Ne.symm h]
        · simp [memGet, Ne.symm h]
      · simp only [memGet]
        rw [memGet_memPut_ne v h r]

/-- Outside the bytes written a memory reads as before. -/
theorem memGet_memWrite_out (bs : List Byte) : ∀ (m : Memory) (a b : Nat), (b < a ∨ a + bs.length ≤ b) →
    memGet (memWrite m a bs) b = memGet m b := by
  induction bs with
  | nil => intro m a b _; rfl
  | cons v bs ih =>
    intro m a b h
    simp only [List.length_cons] at h
    rw [memWrite, ih _ _ _ (by omega), memGet_memPut_ne v (by omega)]

theorem memRead_memPut_lt {k a : Nat} (v : Byte) (m : Memory) (h : k < a) : ∀ n, memRead (memPut k v m) a n = memRead m a n := by
  intro n
  induction n generalizing a with
  | zero => rfl
  | succ n ih => rw [memRead, memRead, ih (by omega), memGet_memPut_ne v (by omega)]

/-- The bytes written read back. -/
theorem memRead_memWrite (bs : List Byte) : ∀ {m : Memory} (a : Nat), m.wf = true → memRead (memWrite m a bs) a bs.length = bs := by
  induction bs with
  | nil => intro m a _; rfl
  | cons v bs ih =>
    intro m a h
    simp only [List.length_cons, memRead, memWrite]
    rw [ih (a + 1) (memPut_wf a v h), memGet_memWrite_out bs _ _ _ (by omega), memGet_memPut a v h]
    simp

/-- Reading bytes that lie outside those written. -/
theorem memRead_memWrite_out (bs : List Byte) (m : Memory) (a : Nat) : ∀ (n b : Nat), (b + n ≤ a ∨ a + bs.length ≤ b) →
    memRead (memWrite m a bs) b n = memRead m b n := by
  intro n
  induction n with
  | zero => intro b _; rfl
  | succ n ih =>
    intro b h
    rw [memRead, memRead, ih (b + 1) (by omega), memGet_memWrite_out bs m a b (by omega)]

end Sys2Proof.Laws
end

