-- ==== Sys2Proof/Laws/PerInstr.lean ====
section
/-! SUPPORT. One statement per command, as syntax: a well-formed command names a queue that exists (R102). -/

namespace Sys2Proof.Laws.QueueOperand

/-- The queue that a well-formed command names is one of the 65,536. -/
def Statement (i : Instr) : Prop := i.wf = true → ∀ q, i.queue = some q → q < 65536

theorem first {q k : Nat} {b : Bool} (h : (queueOk q && b) = true) (e : some q = some k) : k < 65536 := by
  cases e
  simp only [queueOk, Bool.and_eq_true, decide_eq_true_eq] at h
  exact h.1

theorem only {q k : Nat} (h : queueOk q = true) (e : some q = some k) : k < 65536 := by
  cases e
  exact of_decide_eq_true h

theorem noQueue {k : Nat} (e : (none : Option Nat) = some k) : k < 65536 := by cases e

theorem auxPowerOnReset : Statement .auxPowerOnReset := fun _ _ e => noQueue e
theorem auxResetRelease (mgAddr : Nat) (efaAuto : Nat) : Statement (.auxResetRelease mgAddr efaAuto) := fun _ _ e => noQueue e
theorem pwrokMainAssert (hbMode : Nat) : Statement (.pwrokMainAssert hbMode) := fun _ _ e => noQueue e
theorem mainResetComplete : Statement .mainResetComplete := fun _ _ e => noQueue e
theorem pwrokMainDeassert : Statement .pwrokMainDeassert := fun _ _ e => noQueue e
theorem resetNAssert (lowNs : Nat) (acts : Bool) : Statement (.resetNAssert lowNs acts) := fun _ _ e => noQueue e
theorem pwResetWarm : Statement .pwResetWarm := fun _ _ e => noQueue e
theorem pwResetMgmt : Statement .pwResetMgmt := fun _ _ e => noQueue e
theorem iamelWatchdogReset : Statement .iamelWatchdogReset := fun _ _ e => noQueue e
theorem trialConfirm : Statement .trialConfirm := fun _ _ e => noQueue e
theorem unitResetFerry (f : Nat) : Statement (.unitResetFerry f) := fun _ _ e => noQueue e
theorem unitResetPort (p : Nat) : Statement (.unitResetPort p) := fun _ _ e => noQueue e
theorem unitResetLaneQuad (q : Nat) : Statement (.unitResetLaneQuad q) := fun _ _ e => noQueue e
theorem unitResetHuddle (h : Nat) : Statement (.unitResetHuddle h) := fun _ _ e => noQueue e
theorem unitResetCatcher (c : Nat) : Statement (.unitResetCatcher c) := fun _ _ e => noQueue e
theorem unitResetComplete : Statement .unitResetComplete := fun _ _ e => noQueue e
theorem pwEnWrite (r : Nat) (mask : Nat) : Statement (.pwEnWrite r mask) := fun _ _ e => noQueue e
theorem parkEnter : Statement .parkEnter := fun _ _ e => noQueue e
theorem parkExit : Statement .parkExit := fun _ _ e => noQueue e
theorem sagWarning (x : Supply) : Statement (.sagWarning x) := fun _ _ e => noQueue e
theorem sagWarningRelease (x : Supply) : Statement (.sagWarningRelease x) := fun _ _ e => noQueue e
theorem sagReset (x : Supply) : Statement (.sagReset x) := fun _ _ e => noQueue e
theorem glitchDetect : Statement .glitchDetect := fun _ _ e => noQueue e
theorem efCommandOn (c : Nat) : Statement (.efCommandOn c) := fun _ _ e => noQueue e
theorem efCommandOff (c : Nat) : Statement (.efCommandOff c) := fun _ _ e => noQueue e
theorem efGateAbove8v (c : Nat) : Statement (.efGateAbove8v c) := fun _ _ e => noQueue e
theorem efGateBelow7v5 (c : Nat) : Statement (.efGateBelow7v5 c) := fun _ _ e => noQueue e
theorem efFastTrip (c : Nat) : Statement (.efFastTrip c) := fun _ _ e => noQueue e
theorem efTimerTrip (c : Nat) : Statement (.efTimerTrip c) := fun _ _ e => noQueue e
theorem efFetOtTrip (c : Nat) : Statement (.efFetOtTrip c) := fun _ _ e => noQueue e
theorem efFetFail (c : Nat) : Statement (.efFetFail c) := fun _ _ e => noQueue e
theorem efModelUpdate (c : Nat) (vin : Nat) (vout : Nat) (iout : Nat) (diode : Nat) : Statement (.efModelUpdate c vin vout iout diode) := fun _ _ e => noQueue e
theorem paceEvaluation (readings : List (Nat × Nat)) : Statement (.paceEvaluation readings) := fun _ _ e => noQueue e
theorem avsAck : Statement .avsAck := fun _ _ e => noQueue e
theorem avsTimeout : Statement .avsTimeout := fun _ _ e => noQueue e
theorem avsFailClear : Statement .avsFailClear := fun _ _ e => noQueue e
theorem pwPaceCtlWrite (v : Nat) : Statement (.pwPaceCtlWrite v) := fun _ _ e => noQueue e
theorem paceGradientWarning (region : Nat) : Statement (.paceGradientWarning region) := fun _ _ e => noQueue e
theorem paceGradientFault (region : Nat) : Statement (.paceGradientFault region) := fun _ _ e => noQueue e
theorem jobOpen (src : CmdSrc) (p : Priv) (x : PrivData) : Statement (.jobOpen src p x) := fun _ _ e => noQueue e
theorem keyReqReceive (jobId : Nat) (node : Nat) (serial : Nat) (m : KeyMsg) : Statement (.keyReqReceive jobId node serial m) := fun _ _ e => noQueue e
theorem keyRespReceive (jobId : Nat) (gen : Nat) (m : KeyMsg) : Statement (.keyRespReceive jobId gen m) := fun _ _ e => noQueue e
theorem notYetReceive (jobId : Nat) : Statement (.notYetReceive jobId) := fun _ _ e => noQueue e
theorem keyReqRetry (slot : Nat) : Statement (.keyReqRetry slot) := fun _ _ e => noQueue e
theorem keyReqUnanswered (slot : Nat) : Statement (.keyReqUnanswered slot) := fun _ _ e => noQueue e
theorem keyFailDeadline (slot : Nat) : Statement (.keyFailDeadline slot) := fun _ _ e => noQueue e
theorem keyInstall (src : CmdSrc) (p : Priv) (x : PrivData) : Statement (.keyInstall src p x) := fun _ _ e => noQueue e
theorem renewalStart (slot : Nat) : Statement (.renewalStart slot) := fun _ _ e => noQueue e
theorem renewalConfirmReceive (slot : Nat) (child : Nat) : Statement (.renewalConfirmReceive slot child) := fun _ _ e => noQueue e
theorem switchReceive (slot : Nat) (t : Nat) : Statement (.switchReceive slot t) := fun _ _ e => noQueue e
theorem generationSwitch (slot : Nat) : Statement (.generationSwitch slot) := fun _ _ e => noQueue e
theorem oldGenerationErase (slot : Nat) : Statement (.oldGenerationErase slot) := fun _ _ e => noQueue e
theorem renewalRepeat (slot : Nat) : Statement (.renewalRepeat slot) := fun _ _ e => noQueue e
theorem generationExpiry (slot : Nat) : Statement (.generationExpiry slot) := fun _ _ e => noQueue e
theorem keyLeaderTakeover (slot : Nat) (position : Nat) : Statement (.keyLeaderTakeover slot position) := fun _ _ e => noQueue e
theorem jobClose (src : CmdSrc) (p : Priv) (x : PrivData) : Statement (.jobClose src p x) := fun _ _ e => noQueue e
theorem jobCloseManifestTimeout (slot : Nat) : Statement (.jobCloseManifestTimeout slot) := fun _ _ e => noQueue e
theorem epochKeyErase (ctx : Nat) : Statement (.epochKeyErase ctx) := fun _ _ e => noQueue e
theorem debugChallengeRead (draw : Nat) : Statement (.debugChallengeRead draw) := fun _ _ e => noQueue e
theorem debugUnlock (t : List Byte) : Statement (.debugUnlock t) := fun _ _ e => noQueue e
theorem spdmMessage (via : SpdmVia) (r : SpdmReq) : Statement (.spdmMessage via r) := fun _ _ e => noQueue e
theorem fmSessionExpiry (id : Nat) : Statement (.fmSessionExpiry id) := fun _ _ e => noQueue e
theorem doorbell (f : Func) (q : Nat) (off : Nat) (size : Nat) (value : Nat) : Statement (.doorbell f q off size value) := fun h _ e => first h e
theorem ringFetch (q : Nat) (count : Nat) : Statement (.ringFetch q count) := fun h _ e => only h e
theorem ringReadComplete (q : Nat) (ok : Bool) (seen : List (Nat × Option Byte)) : Statement (.ringReadComplete q ok seen) := fun h _ e => only h e
theorem queueStartTurn (q : Nat) (x : PrivData) (draw : Nat) : Statement (.queueStartTurn q x draw) := fun h _ e => only h e
theorem heldCommandResume (q : Nat) (x : PrivData) (draw : Nat) : Statement (.heldCommandResume q x draw) := fun h _ e => only h e
theorem coalTimeExpiry (q : Nat) : Statement (.coalTimeExpiry q) := fun h _ e => only h e
theorem headWordWriteFailure (q : Nat) : Statement (.headWordWriteFailure q) := fun h _ e => only h e
theorem waitConditionMet (q : Nat) : Statement (.waitConditionMet q) := fun h _ e => only h e
theorem waitTimeoutExpiry (q : Nat) : Statement (.waitTimeoutExpiry q) := fun h _ e => only h e
theorem cmdRun (q : Nat) (f : Option Func) : Statement (.cmdRun q f) := fun h _ e => first h e
theorem cmdHalt (q : Nat) (f : Option Func) : Statement (.cmdHalt q f) := fun h _ e => first h e
theorem cmdResume (q : Nat) (f : Option Func) : Statement (.cmdResume q f) := fun h _ e => first h e
theorem cmdResumeSkip (q : Nat) (f : Option Func) : Statement (.cmdResumeSkip q f) := fun h _ e => first h e
theorem heldResumeApply (q : Nat) : Statement (.heldResumeApply q) := fun h _ e => only h e
theorem quNotifyWrite (q : Nat) (f : Option Func) (v : Nat) : Statement (.quNotifyWrite q f v) := fun h _ e => first h e
theorem queue0ConfigWrite (headaddr : Bool) (cfg : Bool) (f : Option Func) (v : Nat) : Statement (.queue0ConfigWrite headaddr cfg f v) := fun _ _ e => noQueue e
theorem quPiRead (q : Nat) (f : Option Func) : Statement (.quPiRead q f) := fun h _ e => first h e
theorem queueApertureAccess (f : Func) (q : Nat) (reg : Nat) (wr : Option Nat) : Statement (.queueApertureAccess f q reg wr) := fun h _ e => first h e
theorem tallyArrayWrite (n : Nat) (v : Nat) : Statement (.tallyArrayWrite n v) := fun _ _ e => noQueue e
theorem nop (q : Nat) (ltally : TallyField) : Statement (.nop q ltally) := fun h _ e => first h e
theorem endCmd (q : Nat) (ltally : TallyField) : Statement (.endCmd q ltally) := fun h _ e => first h e
theorem fence (q : Nat) (c : FenceCmd) : Statement (.fence q c) := fun h _ e => first h e
theorem cancel (q : Nat) (c : CancelCmd) : Statement (.cancel q c) := fun h _ e => first h e
theorem cancelDecision (q : Nat) (index : Nat) : Statement (.cancelDecision q index) := fun h _ e => only h e
theorem put (q : Nat) (c : XferCmd) : Statement (.put q c) := fun h _ e => first h e
theorem puti (q : Nat) (c : PutiCmd) : Statement (.puti q c) := fun h _ e => first h e
theorem get (q : Nat) (c : XferCmd) : Statement (.get q c) := fun h _ e => first h e
theorem atomic (q : Nat) (c : AtomicCmd) : Statement (.atomic q c) := fun h _ e => first h e
theorem send (q : Nat) (c : SendCmd) (draw : Nat) : Statement (.send q c draw) := fun h _ e => first h e
theorem postrecv (q : Nat) (c : RecvCmd) : Statement (.postrecv q c) := fun h _ e => first h e
theorem tallyAdd (q : Nat) (c : TallyAddCmd) : Statement (.tallyAdd q c) := fun h _ e => first h e
theorem waitTally (q : Nat) (toStop : Bool) (ltally : TallyField) (totally : TallyField) (tally : Nat) (timeout : Nat) (value : Nat) : Statement (.waitTally q toStop ltally totally tally timeout value) := fun h _ e => first h e
theorem waitHead (q : Nat) (toStop : Bool) (ltally : TallyField) (totally : TallyField) (queue : Nat) (timeout : Nat) (index : Nat) : Statement (.waitHead q toStop ltally totally queue timeout index) := fun h _ e => first h e
theorem waitTime (q : Nat) (ltally : TallyField) (t : Nat) : Statement (.waitTime q ltally t) := fun h _ e => first h e
theorem whistle (q : Nat) (c : WhistleCmd) : Statement (.whistle q c) := fun h _ e => first h e
theorem collective (q : Nat) (c : CollCmd) : Statement (.collective q c) := fun h _ e => first h e
theorem loop (q : Nat) (c : LoopCmd) : Statement (.loop q c) := fun h _ e => first h e
theorem skipIf (q : Nat) (c : SkipCmd) : Statement (.skipIf q c) := fun h _ e => first h e
theorem call (q : Nat) (c : CallCmd) : Statement (.call q c) := fun h _ e => first h e
theorem windowOpen (src : CmdSrc) (p : Priv) (x : PrivData) : Statement (.windowOpen src p x) := fun _ _ e => noQueue e
theorem windowRevoke (src : CmdSrc) (p : Priv) (x : PrivData) : Statement (.windowRevoke src p x) := fun _ _ e => noQueue e
theorem regionRegister (src : CmdSrc) (p : Priv) (x : PrivData) : Statement (.regionRegister src p x) := fun _ _ e => noQueue e
theorem regionDeregister (src : CmdSrc) (p : Priv) (x : PrivData) : Statement (.regionDeregister src p x) := fun _ _ e => noQueue e
theorem regionDeregisterComplete (key : Nat) : Statement (.regionDeregisterComplete key) := fun _ _ e => noQueue e
theorem regionQuarantineEnd (key : Nat) : Statement (.regionQuarantineEnd key) := fun _ _ e => noQueue e
theorem treeBuild (src : CmdSrc) (p : Priv) (x : PrivData) : Statement (.treeBuild src p x) := fun _ _ e => noQueue e
theorem routeWrite (src : CmdSrc) (p : Priv) (x : PrivData) : Statement (.routeWrite src p x) := fun _ _ e => noQueue e
theorem routeCommit (src : CmdSrc) (p : Priv) (x : PrivData) : Statement (.routeCommit src p x) := fun _ _ e => noQueue e
theorem loadProgram (src : CmdSrc) (p : Priv) (x : PrivData) : Statement (.loadProgram src p x) := fun _ _ e => noQueue e
theorem ferryDrain (src : CmdSrc) (p : Priv) (x : PrivData) : Statement (.ferryDrain src p x) := fun _ _ e => noQueue e
theorem ferryDrainComplete (f : Nat) : Statement (.ferryDrainComplete f) := fun _ _ e => noQueue e
theorem ferryResume (src : CmdSrc) (p : Priv) (x : PrivData) : Statement (.ferryResume src p x) := fun _ _ e => noQueue e
theorem queueBind (src : CmdSrc) (p : Priv) (x : PrivData) : Statement (.queueBind src p x) := fun _ _ e => noQueue e
theorem invalidate (src : CmdSrc) (p : Priv) (x : PrivData) : Statement (.invalidate src p x) := fun _ _ e => noQueue e
theorem invalidateComplete : Statement .invalidateComplete := fun _ _ e => noQueue e
theorem snapshot (src : CmdSrc) (p : Priv) (x : PrivData) : Statement (.snapshot src p x) := fun _ _ e => noQueue e
theorem streamInject (ctx : Nat) (stream : Nat) : Statement (.streamInject ctx stream) := fun _ _ e => noQueue e
theorem dataReceive (pkt : Packet) : Statement (.dataReceive pkt) := fun _ _ e => noQueue e
theorem multicastDataReceive (pkt : Packet) : Statement (.multicastDataReceive pkt) := fun _ _ e => noQueue e
theorem ackReceive (pkt : Packet) : Statement (.ackReceive pkt) := fun _ _ e => noQueue e
theorem nackBusyReceive (pkt : Packet) : Statement (.nackBusyReceive pkt) := fun _ _ e => noQueue e
theorem nackRetryExpiry (ctx : Nat) (stream : Nat) (psn : Nat) : Statement (.nackRetryExpiry ctx stream psn) := fun _ _ e => noQueue e
theorem respDataReceive (pkt : Packet) : Statement (.respDataReceive pkt) := fun _ _ e => noQueue e
theorem respStatusReceive (pkt : Packet) : Statement (.respStatusReceive pkt) := fun _ _ e => noQueue e
theorem ackDelayExpiry (ctx : Nat) (stream : Nat) : Statement (.ackDelayExpiry ctx stream) := fun _ _ e => noQueue e
theorem rtoExpiry (ctx : Nat) (stream : Nat) : Statement (.rtoExpiry ctx stream) := fun _ _ e => noQueue e
theorem contextFail (ctx : Nat) : Statement (.contextFail ctx) := fun _ _ e => noQueue e
theorem idleCloseStart (ctx : Nat) : Statement (.idleCloseStart ctx) := fun _ _ e => noQueue e
theorem closeReqReceive (pkt : Packet) : Statement (.closeReqReceive pkt) := fun _ _ e => noQueue e
theorem closeAckReceive (pkt : Packet) : Statement (.closeAckReceive pkt) := fun _ _ e => noQueue e
theorem closeRefuseReceive (pkt : Packet) : Statement (.closeRefuseReceive pkt) := fun _ _ e => noQueue e
theorem jobCloseQuietTimeout (ctx : Nat) : Statement (.jobCloseQuietTimeout ctx) := fun _ _ e => noQueue e
theorem quietExpiry (ctx : Nat) : Statement (.quietExpiry ctx) := fun _ _ e => noQueue e
theorem contextFetchComplete (ctx : Nat) (ok : Bool) : Statement (.contextFetchComplete ctx ok) := fun _ _ e => noQueue e
theorem tpCfgWrite (reg : Nat) (v : Nat) : Statement (.tpCfgWrite reg v) := fun _ _ e => noQueue e
theorem mfQuotaWrite (slot : Nat) (v : Nat) : Statement (.mfQuotaWrite slot v) := fun _ _ e => noQueue e
theorem moverTransferComplete (id : Nat) (ok : Bool) (seen : List (Nat × Option Byte)) : Statement (.moverTransferComplete id ok seen) := fun _ _ e => noQueue e
theorem flushReadComplete (id : Nat) : Statement (.flushReadComplete id) := fun _ _ e => noQueue e
theorem hostAtomicComplete (id : Nat) (mismatch : Bool) (old : Nat) : Statement (.hostAtomicComplete id mismatch old) := fun _ _ e => noQueue e
theorem revokeReceive (pkt : Packet) : Statement (.revokeReceive pkt) := fun _ _ e => noQueue e
theorem confirmReceive (pkt : Packet) : Statement (.confirmReceive pkt) := fun _ _ e => noQueue e
theorem revokeDoneReceive (pkt : Packet) : Statement (.revokeDoneReceive pkt) := fun _ _ e => noQueue e
theorem revokeRepeat (slot : Nat) (window : Nat) (origin : Nat) (serial : Nat) : Statement (.revokeRepeat slot window origin serial) := fun _ _ e => noQueue e
theorem revokeFailTime (slot : Nat) (window : Nat) : Statement (.revokeFailTime slot window) := fun _ _ e => noQueue e
theorem unexpectedCopyComplete (id : Nat) : Statement (.unexpectedCopyComplete id) := fun _ _ e => noQueue e
theorem spillRefill (c : Nat) (ok : Bool) : Statement (.spillRefill c ok) := fun _ _ e => noQueue e
theorem catcherRegWrite (reg : Nat) (slot : Nat) (v : Nat) : Statement (.catcherRegWrite reg slot v) := fun _ _ e => noQueue e
theorem joinReceive (pkt : Packet) : Statement (.joinReceive pkt) := fun _ _ e => noQueue e
theorem partReceive (pkt : Packet) : Statement (.partReceive pkt) := fun _ _ e => noQueue e
theorem escapeReceive (pkt : Packet) : Statement (.escapeReceive pkt) := fun _ _ e => noQueue e
theorem resultReceive (pkt : Packet) : Statement (.resultReceive pkt) := fun _ _ e => noQueue e
theorem collDoneReceive (pkt : Packet) : Statement (.collDoneReceive pkt) := fun _ _ e => noQueue e
theorem collFailReceive (pkt : Packet) : Statement (.collFailReceive pkt) := fun _ _ e => noQueue e
theorem collTimeout (ctx : Nat) (inst : Nat) : Statement (.collTimeout ctx inst) := fun _ _ e => noQueue e
theorem rejoinReceive (pkt : Packet) : Statement (.rejoinReceive pkt) := fun _ _ e => noQueue e
theorem rerunReceive (pkt : Packet) : Statement (.rerunReceive pkt) := fun _ _ e => noQueue e
theorem rejoinRepeat (ctx : Nat) : Statement (.rejoinRepeat ctx) := fun _ _ e => noQueue e
theorem collCreditReceive (pkt : Packet) : Statement (.collCreditReceive pkt) := fun _ _ e => noQueue e
theorem collCreditReturn (ctx : Nat) (child : Nat) : Statement (.collCreditReturn ctx child) := fun _ _ e => noQueue e
theorem hdRegWrite (v : Nat) : Statement (.hdRegWrite v) := fun _ _ e => noQueue e
theorem routerHeaderArrival (inPort : Nat) (pkt : Packet) (i1 : Nat) (i2 : Nat) : Statement (.routerHeaderArrival inPort pkt i1 i2) := fun _ _ e => noQueue e
theorem cutThroughStart (out : Nat) (vc : Nat) : Statement (.cutThroughStart out vc) := fun _ _ e => noQueue e
theorem mgDropExpiry (out : Nat) (vc : Nat) : Statement (.mgDropExpiry out vc) := fun _ _ e => noQueue e
theorem mgCmdReceive (pkt : Packet) : Statement (.mgCmdReceive pkt) := fun _ _ e => noQueue e
theorem mgStatusReceive (pkt : Packet) : Statement (.mgStatusReceive pkt) := fun _ _ e => noQueue e
theorem telemetryRequest (pkt : Packet) : Statement (.telemetryRequest pkt) := fun _ _ e => noQueue e
theorem noticeReceive (p : Nat) (n : Notice) : Statement (.noticeReceive p n) := fun _ _ e => noQueue e
theorem flitTransmit (p : Nat) : Statement (.flitTransmit p) := fun _ _ e => noQueue e
theorem dataFlitReceive (p : Nat) (c : CodeHalf) : Statement (.dataFlitReceive p c) := fun _ _ e => noQueue e
theorem creditFlitReceive (p : Nat) (c : CodeHalf) : Statement (.creditFlitReceive p c) := fun _ _ e => noQueue e
theorem replayTimeout (p : Nat) : Statement (.replayTimeout p) := fun _ _ e => noQueue e
theorem nackRepeatTimeout (p : Nat) : Statement (.nackRepeatTimeout p) := fun _ _ e => noQueue e
theorem fecLockGain (l : Nat) : Statement (.fecLockGain l) := fun _ _ e => noQueue e
theorem fecLockLoss (l : Nat) : Statement (.fecLockLoss l) := fun _ _ e => noQueue e
theorem portDown (p : Nat) (cause : Nat) : Statement (.portDown p cause) := fun _ _ e => noQueue e
theorem helloReceive (p : Nat) (c : CodeHalf) : Statement (.helloReceive p c) := fun _ _ e => noQueue e
theorem helloRepeat (p : Nat) : Statement (.helloRepeat p) := fun _ _ e => noQueue e
theorem holdExpiry (p : Nat) : Statement (.holdExpiry p) := fun _ _ e => noQueue e
theorem trainFlitReceive (p : Nat) (c : CodeHalf) : Statement (.trainFlitReceive p c) := fun _ _ e => noQueue e
theorem trainReqRepeat (p : Nat) : Statement (.trainReqRepeat p) := fun _ _ e => noQueue e
theorem retrainLimitExpiry (p : Nat) : Statement (.retrainLimitExpiry p) := fun _ _ e => noQueue e
theorem portDisableDrainEnd (p : Nat) : Statement (.portDisableDrainEnd p) := fun _ _ e => noQueue e
theorem trainingFrameReceive (l : Nat) (w : Nat) : Statement (.trainingFrameReceive l w) := fun _ _ e => noQueue e
theorem laneRequestRepeat (l : Nat) : Statement (.laneRequestRepeat l) := fun _ _ e => noQueue e
theorem fastPathTimeout (l : Nat) : Statement (.fastPathTimeout l) := fun _ _ e => noQueue e
theorem fullTrainingRestart (l : Nat) : Statement (.fullTrainingRestart l) := fun _ _ e => noQueue e
theorem recalRequest (l : Nat) : Statement (.recalRequest l) := fun _ _ e => noQueue e
theorem laneFailureNarrow (p : Nat) (lost : List Nat) : Statement (.laneFailureNarrow p lost) := fun _ _ e => noQueue e
theorem lnLaneSerRead (l : Nat) : Statement (.lnLaneSerRead l) := fun _ _ e => noQueue e
theorem lnLanePrbsRead (l : Nat) : Statement (.lnLanePrbsRead l) := fun _ _ e => noQueue e
theorem timeFlitReceive (p : Nat) (c : CodeHalf) : Statement (.timeFlitReceive p c) := fun _ _ e => noQueue e
theorem ppsEdge : Statement .ppsEdge := fun _ _ e => noQueue e
theorem extReferenceLoss : Statement .extReferenceLoss := fun _ _ e => noQueue e
theorem parentLoss : Statement .parentLoss := fun _ _ e => noQueue e
theorem holdoverExpiry : Statement .holdoverExpiry := fun _ _ e => noQueue e
theorem whistlePacketReceive (pkt : Packet) : Statement (.whistlePacketReceive pkt) := fun _ _ e => noQueue e
theorem whistleFire (line : Nat) : Statement (.whistleFire line) := fun _ _ e => noQueue e
theorem trigCaptureEdge (k : Nat) (rising : Bool) : Statement (.trigCaptureEdge k rising) := fun _ _ e => noQueue e
theorem trigOutputFire (k : Nat) : Statement (.trigOutputFire k) := fun _ _ e => noQueue e
theorem mtTrigCfgWrite (k : Nat) (v : Nat) : Statement (.mtTrigCfgWrite k v) := fun _ _ e => noQueue e
theorem mtTrigCapRead (k : Nat) : Statement (.mtTrigCapRead k) := fun _ _ e => noQueue e
theorem mtTrigStatRead (k : Nat) : Statement (.mtTrigStatRead k) := fun _ _ e => noQueue e
theorem mtLineRead (w : Nat) : Statement (.mtLineRead w) := fun _ _ e => noQueue e
theorem handlerDispatch (f : Nat) : Statement (.handlerDispatch f) := fun _ _ e => noQueue e
theorem budgetExpiry (f : Nat) (t : Nat) : Statement (.budgetExpiry f t) := fun _ _ e => noQueue e
theorem unitOpComplete (f : Nat) (t : Nat) (op : Nat) (result : Nat) : Statement (.unitOpComplete f t op result) := fun _ _ e => noQueue e
theorem timerFire (f : Nat) (t : Nat) (k : Nat) : Statement (.timerFire f t k) := fun _ _ e => noQueue e
theorem eventWaitTimeout (f : Nat) (t : Nat) : Statement (.eventWaitTimeout f t) := fun _ _ e => noQueue e
theorem fxCfgWrite (f : Nat) (v : Nat) : Statement (.fxCfgWrite f v) := fun _ _ e => noQueue e
theorem fxFaultRead (f : Nat) (t : Nat) : Statement (.fxFaultRead f t) := fun _ _ e => noQueue e
theorem alu (f : Nat) (t : Nat) (rd : Nat) (ra : Nat) (rb : Nat) (pg : Nat) (gn : Bool) (fn : Nat) : Statement (.alu f t rd ra rb pg gn fn) := fun _ _ e => noQueue e
theorem cmp (f : Nat) (t : Nat) (rd : Nat) (ra : Nat) (rb : Nat) (pg : Nat) (gn : Bool) (fn : Nat) : Statement (.cmp f t rd ra rb pg gn fn) := fun _ _ e => noQueue e
theorem pred (f : Nat) (t : Nat) (rd : Nat) (ra : Nat) (rb : Nat) (pg : Nat) (gn : Bool) (fn : Nat) : Statement (.pred f t rd ra rb pg gn fn) := fun _ _ e => noQueue e
theorem amo (f : Nat) (t : Nat) (rd : Nat) (ra : Nat) (rb : Nat) (pg : Nat) (gn : Bool) (fn : Nat) : Statement (.amo f t rd ra rb pg gn fn) := fun _ _ e => noQueue e
theorem sysFence (f : Nat) (t : Nat) (rd : Nat) (ra : Nat) (rb : Nat) (pg : Nat) (gn : Bool) : Statement (.sysFence f t rd ra rb pg gn) := fun _ _ e => noQueue e
theorem sysYield (f : Nat) (t : Nat) (rd : Nat) (ra : Nat) (rb : Nat) (pg : Nat) (gn : Bool) : Statement (.sysYield f t rd ra rb pg gn) := fun _ _ e => noQueue e
theorem sysDone (f : Nat) (t : Nat) (rd : Nat) (ra : Nat) (rb : Nat) (pg : Nat) (gn : Bool) : Statement (.sysDone f t rd ra rb pg gn) := fun _ _ e => noQueue e
theorem sysNow (f : Nat) (t : Nat) (rd : Nat) (ra : Nat) (rb : Nat) (pg : Nat) (gn : Bool) : Statement (.sysNow f t rd ra rb pg gn) := fun _ _ e => noQueue e
theorem sysSelf (f : Nat) (t : Nat) (rd : Nat) (ra : Nat) (rb : Nat) (pg : Nat) (gn : Bool) : Statement (.sysSelf f t rd ra rb pg gn) := fun _ _ e => noQueue e
theorem sysBreak (f : Nat) (t : Nat) (rd : Nat) (ra : Nat) (rb : Nat) (pg : Nat) (gn : Bool) : Statement (.sysBreak f t rd ra rb pg gn) := fun _ _ e => noQueue e
theorem jr (f : Nat) (t : Nat) (rd : Nat) (ra : Nat) (rb : Nat) (pg : Nat) (gn : Bool) (fn : Nat) : Statement (.jr f t rd ra rb pg gn fn) := fun _ _ e => noQueue e
theorem addi (f : Nat) (t : Nat) (rd : Nat) (ra : Nat) (imm : Nat) : Statement (.addi f t rd ra imm) := fun _ _ e => noQueue e
theorem andi (f : Nat) (t : Nat) (rd : Nat) (ra : Nat) (imm : Nat) : Statement (.andi f t rd ra imm) := fun _ _ e => noQueue e
theorem ori (f : Nat) (t : Nat) (rd : Nat) (ra : Nat) (imm : Nat) : Statement (.ori f t rd ra imm) := fun _ _ e => noQueue e
theorem xori (f : Nat) (t : Nat) (rd : Nat) (ra : Nat) (imm : Nat) : Statement (.xori f t rd ra imm) := fun _ _ e => noQueue e
theorem movi (f : Nat) (t : Nat) (rd : Nat) (ra : Nat) (imm : Nat) : Statement (.movi f t rd ra imm) := fun _ _ e => noQueue e
theorem movk (f : Nat) (t : Nat) (rd : Nat) (ra : Nat) (imm : Nat) : Statement (.movk f t rd ra imm) := fun _ _ e => noQueue e
theorem cmpi (f : Nat) (t : Nat) (rd : Nat) (ra : Nat) (imm : Nat) : Statement (.cmpi f t rd ra imm) := fun _ _ e => noQueue e
theorem shi (f : Nat) (t : Nat) (rd : Nat) (ra : Nat) (imm : Nat) : Statement (.shi f t rd ra imm) := fun _ _ e => noQueue e
theorem ld (f : Nat) (t : Nat) (rd : Nat) (ra : Nat) (sz : Nat) (mo : Nat) (off : Nat) : Statement (.ld f t rd ra sz mo off) := fun _ _ e => noQueue e
theorem lds (f : Nat) (t : Nat) (rd : Nat) (ra : Nat) (sz : Nat) (mo : Nat) (off : Nat) : Statement (.lds f t rd ra sz mo off) := fun _ _ e => noQueue e
theorem st (f : Nat) (t : Nat) (rs : Nat) (ra : Nat) (sz : Nat) (mo : Nat) (off : Nat) : Statement (.st f t rs ra sz mo off) := fun _ _ e => noQueue e
theorem br (f : Nat) (t : Nat) (p : Nat) (n : Bool) (rsv : Nat) (off : Nat) : Statement (.br f t p n rsv off) := fun _ _ e => noQueue e
theorem brl (f : Nat) (t : Nat) (p : Nat) (n : Bool) (rsv : Nat) (off : Nat) : Statement (.brl f t p n rsv off) := fun _ _ e => noQueue e
theorem sendRequest (f : Nat) (t : Nat) (rd : Nat) (rs : Nat) (ra : Nat) (w : Bool) : Statement (.sendRequest f t rd rs ra w) := fun _ _ e => noQueue e
theorem sendReply (f : Nat) (t : Nat) (rd : Nat) (rs : Nat) (ra : Nat) (w : Bool) : Statement (.sendReply f t rd rs ra w) := fun _ _ e => noQueue e
theorem sendMcast (f : Nat) (t : Nat) (rd : Nat) (rs : Nat) (ra : Nat) (w : Bool) : Statement (.sendMcast f t rd rs ra w) := fun _ _ e => noQueue e
theorem matchPost (f : Nat) (t : Nat) (rd : Nat) (rs : Nat) (ra : Nat) (w : Bool) : Statement (.matchPost f t rd rs ra w) := fun _ _ e => noQueue e
theorem matchProbe (f : Nat) (t : Nat) (rd : Nat) (rs : Nat) (ra : Nat) (w : Bool) : Statement (.matchProbe f t rd rs ra w) := fun _ _ e => noQueue e
theorem matchClaim (f : Nat) (t : Nat) (rd : Nat) (rs : Nat) (ra : Nat) (w : Bool) : Statement (.matchClaim f t rd rs ra w) := fun _ _ e => noQueue e
theorem matchDeliver (f : Nat) (t : Nat) (rd : Nat) (rs : Nat) (ra : Nat) (w : Bool) : Statement (.matchDeliver f t rd rs ra w) := fun _ _ e => noQueue e
theorem moveCopy (f : Nat) (t : Nat) (rd : Nat) (rs : Nat) (ra : Nat) (w : Bool) : Statement (.moveCopy f t rd rs ra w) := fun _ _ e => noQueue e
theorem moveFill (f : Nat) (t : Nat) (rd : Nat) (rs : Nat) (ra : Nat) (w : Bool) : Statement (.moveFill f t rd rs ra w) := fun _ _ e => noQueue e
theorem tallyUnitAdd (f : Nat) (t : Nat) (rd : Nat) (rs : Nat) (ra : Nat) (w : Bool) : Statement (.tallyUnitAdd f t rd rs ra w) := fun _ _ e => noQueue e
theorem tallyRead (f : Nat) (t : Nat) (rd : Nat) (rs : Nat) (ra : Nat) (w : Bool) : Statement (.tallyRead f t rd rs ra w) := fun _ _ e => noQueue e
theorem tallyWait (f : Nat) (t : Nat) (rd : Nat) (rs : Nat) (ra : Nat) (w : Bool) : Statement (.tallyWait f t rd rs ra w) := fun _ _ e => noQueue e
theorem lockAcquire (f : Nat) (t : Nat) (rd : Nat) (rs : Nat) (ra : Nat) (w : Bool) : Statement (.lockAcquire f t rd rs ra w) := fun _ _ e => noQueue e
theorem lockTry (f : Nat) (t : Nat) (rd : Nat) (rs : Nat) (ra : Nat) (w : Bool) : Statement (.lockTry f t rd rs ra w) := fun _ _ e => noQueue e
theorem lockRelease (f : Nat) (t : Nat) (rd : Nat) (rs : Nat) (ra : Nat) (w : Bool) : Statement (.lockRelease f t rd rs ra w) := fun _ _ e => noQueue e
theorem eventWait (f : Nat) (t : Nat) (rd : Nat) (rs : Nat) (ra : Nat) (w : Bool) : Statement (.eventWait f t rd rs ra w) := fun _ _ e => noQueue e
theorem eventPost (f : Nat) (t : Nat) (rd : Nat) (rs : Nat) (ra : Nat) (w : Bool) : Statement (.eventPost f t rd rs ra w) := fun _ _ e => noQueue e
theorem timerArm (f : Nat) (t : Nat) (rd : Nat) (rs : Nat) (ra : Nat) (w : Bool) : Statement (.timerArm f t rd rs ra w) := fun _ _ e => noQueue e
theorem timerCancel (f : Nat) (t : Nat) (rd : Nat) (rs : Nat) (ra : Nat) (w : Bool) : Statement (.timerCancel f t rd rs ra w) := fun _ _ e => noQueue e
theorem doorbellRing (f : Nat) (t : Nat) (rd : Nat) (rs : Nat) (ra : Nat) (w : Bool) : Statement (.doorbellRing f t rd rs ra w) := fun _ _ e => noQueue e
theorem enqueue (f : Nat) (t : Nat) (rd : Nat) (rs : Nat) (ra : Nat) (w : Bool) : Statement (.enqueue f t rd rs ra w) := fun _ _ e => noQueue e
theorem ferryRead (f : Nat) (addr : Nat) : Statement (.ferryRead f addr) := fun _ _ e => noQueue e
theorem ferryOwn (f : Nat) (addr : Nat) : Statement (.ferryOwn f addr) := fun _ _ e => noQueue e
theorem ferryUpgrade (f : Nat) (addr : Nat) : Statement (.ferryUpgrade f addr) := fun _ _ e => noQueue e
theorem agentRead (addr : Nat) : Statement (.agentRead addr) := fun _ _ e => noQueue e
theorem agentWrite (addr : Nat) (bytes : List Byte) : Statement (.agentWrite addr bytes) := fun _ _ e => noQueue e
theorem agentAtomic (addr : Nat) (aop : Nat) (operand : Nat) (compare : Nat) (size64 : Bool) : Statement (.agentAtomic addr aop operand compare size64) := fun _ _ e => noQueue e
theorem ferryEviction (f : Nat) (addr : Nat) : Statement (.ferryEviction f addr) := fun _ _ e => noQueue e
theorem poisonTimeout (addr : Nat) : Statement (.poisonTimeout addr) := fun _ _ e => noQueue e
theorem lkAcquire (n : Nat) (ident : Nat) (writer : Nat) : Statement (.lkAcquire n ident writer) := fun _ _ e => noQueue e
theorem lkRelease (n : Nat) (ident : Nat) (writer : Nat) : Statement (.lkRelease n ident writer) := fun _ _ e => noQueue e
theorem lkClearOrphan (n : Nat) (ident : Nat) (writer : Nat) : Statement (.lkClearOrphan n ident writer) := fun _ _ e => noQueue e
theorem lkWithdraw (n : Nat) (ident : Nat) (writer : Nat) : Statement (.lkWithdraw n ident writer) := fun _ _ e => noQueue e
theorem lkGroupWrite (g : Nat) (ferries : Bool) (v : Nat) : Statement (.lkGroupWrite g ferries v) := fun _ _ e => noQueue e
theorem lkCfgWrite (v : Nat) : Statement (.lkCfgWrite v) := fun _ _ e => noQueue e
theorem lkWordAcquire (writer : Nat) (addr : Nat) : Statement (.lkWordAcquire writer addr) := fun _ _ e => noQueue e
theorem lkWordRelease (writer : Nat) (addr : Nat) : Statement (.lkWordRelease writer addr) := fun _ _ e => noQueue e
theorem txAsidWrite (a : Nat) (reg : Nat) (v : Nat) : Statement (.txAsidWrite a reg v) := fun _ _ e => noQueue e
theorem txSpanBaseWrite (a : Nat) (sp : Nat) (reg : Nat) (v : Nat) : Statement (.txSpanBaseWrite a sp reg v) := fun _ _ e => noQueue e
theorem bmeClear (f : Func) : Statement (.bmeClear f) := fun _ _ e => noQueue e
theorem bmeSet (f : Func) : Statement (.bmeSet f) := fun _ _ e => noQueue e
theorem quiesceExpiry (f : Func) : Statement (.quiesceExpiry f) := fun _ _ e => noQueue e
theorem d3hotEntry (f : Func) : Statement (.d3hotEntry f) := fun _ _ e => noQueue e
theorem flr (f : Func) : Statement (.flr f) := fun _ _ e => noQueue e
theorem flrComplete (f : Func) : Statement (.flrComplete f) := fun _ _ e => noQueue e
theorem vfEnableClear (p : Nat) : Statement (.vfEnableClear p) := fun _ _ e => noQueue e
theorem pcieLinkDown (p : Nat) : Statement (.pcieLinkDown p) := fun _ _ e => noQueue e
theorem completionTimeout (id : Nat) : Statement (.completionTimeout id) := fun _ _ e => noQueue e
theorem bar4Access (f : Func) (off : Nat) (len : Nat) (op : BarOp) (bad : Bool) : Statement (.bar4Access f off len op bad) := fun _ _ e => noQueue e
theorem hiCtlDataRead (len : Nat) : Statement (.hiCtlDataRead len) := fun _ _ e => noQueue e
theorem hiCtlDataWrite (len : Nat) (v : Nat) : Statement (.hiCtlDataWrite len v) := fun _ _ e => noQueue e
theorem hiWinWrite (tgt : Bool) (p : Nat) (w : Nat) (v : Nat) : Statement (.hiWinWrite tgt p w v) := fun _ _ e => noQueue e
theorem hiVfWrite (p : Nat) (vf : Nat) (v : Nat) : Statement (.hiVfWrite p vf v) := fun _ _ e => noQueue e
theorem hiFnStatRead (f : Func) : Statement (.hiFnStatRead f) := fun _ _ e => noQueue e
theorem msixUnmask (f : Func) (vec : Nat) : Statement (.msixUnmask f vec) := fun _ _ e => noQueue e
theorem slotPwrOn : Statement .slotPwrOn := fun _ _ e => noQueue e
theorem slotPwrOff : Statement .slotPwrOff := fun _ _ e => noQueue e
theorem slotPerstRelease : Statement .slotPerstRelease := fun _ _ e => noQueue e
theorem settleExpiry : Statement .settleExpiry := fun _ _ e => noQueue e
theorem presenceChange (present : Bool) : Statement (.presenceChange present) := fun _ _ e => noQueue e
theorem attentionButton : Statement .attentionButton := fun _ _ e => noQueue e
theorem containmentFreeze (cause : Nat) : Statement (.containmentFreeze cause) := fun _ _ e => noQueue e
theorem containmentRelease : Statement .containmentRelease := fun _ _ e => noQueue e
theorem attachedMsiWrite (addr : Nat) (data : Nat) : Statement (.attachedMsiWrite addr data) := fun _ _ e => noQueue e
theorem attachedRequest : Statement .attachedRequest := fun _ _ e => noQueue e
theorem welrirelCmd (msg : List Byte) : Statement (.welrirelCmd msg) := fun _ _ e => noQueue e
theorem enrol (req : Nat) (slot0 : Bool) (key : List Byte) (token : List Byte) : Statement (.enrol req slot0 key token) := fun _ _ e => noQueue e
theorem logRead (req : Nat) (first : Nat) (count : Nat) (flash : Bool) : Statement (.logRead req first count flash) := fun _ _ e => noQueue e
theorem commit (req : Nat) (t : Nat) (v : Nat) (sigR : List Byte) (sigS : List Byte) : Statement (.commit req t v sigR sigS) := fun _ _ e => noQueue e
theorem mctpControl (smbus : Nat) (r : MctpReq) : Statement (.mctpControl smbus r) := fun _ _ e => noQueue e
theorem pldmUpdateComponent (t : Nat) (container : List Byte) : Statement (.pldmUpdateComponent t container) := fun _ _ e => noQueue e
theorem activateFirmware (ts : List Nat) : Statement (.activateFirmware ts) := fun _ _ e => noQueue e
theorem liveUpdateUnit (ok : Bool) : Statement (.liveUpdateUnit ok) := fun _ _ e => noQueue e
theorem logFlashCopy : Statement .logFlashCopy := fun _ _ e => noQueue e
theorem mgLogLostRead : Statement .mgLogLostRead := fun _ _ e => noQueue e
theorem sensorReading (i : Nat) (v : Nat) : Statement (.sensorReading i v) := fun _ _ e => noQueue e
theorem sensorFail (i : Nat) : Statement (.sensorFail i) := fun _ _ e => noQueue e
theorem mgSensThrWrite (i : Nat) (v : Nat) : Statement (.mgSensThrWrite i v) := fun _ _ e => noQueue e
theorem faultAssertion (src : Nat) : Statement (.faultAssertion src) := fun _ _ e => noQueue e
theorem wireFault (src : Nat) : Statement (.wireFault src) := fun _ _ e => noQueue e
theorem ftForceAssert (src : Nat) : Statement (.ftForceAssert src) := fun _ _ e => noQueue e
theorem ftForceWire (src : Nat) : Statement (.ftForceWire src) := fun _ _ e => noQueue e
theorem ftReactWrite (src : Nat) (v : Nat) : Statement (.ftReactWrite src v) := fun _ _ e => noQueue e
theorem ftSrcRead (src : Nat) : Statement (.ftSrcRead src) := fun _ _ e => noQueue e
theorem fatalEntry (src : Nat) : Statement (.fatalEntry src) := fun _ _ e => noQueue e
theorem collectorSelfCheckFail : Statement .collectorSelfCheckFail := fun _ _ e => noQueue e
theorem ecSelWrite (u : Nat) (k : Nat) (v : Nat) : Statement (.ecSelWrite u k v) := fun _ _ e => noQueue e
theorem ecCntWrite (u : Nat) (k : Nat) (v : Nat) : Statement (.ecCntWrite u k v) := fun _ _ e => noQueue e
theorem ecHistCfgWrite (p : Nat) (v : Nat) : Statement (.ecHistCfgWrite p v) := fun _ _ e => noQueue e
theorem histogramSample (p : Nat) : Statement (.histogramSample p) := fun _ _ e => noQueue e
theorem snapshotCapture : Statement .snapshotCapture := fun _ _ e => noQueue e
theorem snapshotComplete (k : Nat) (ok : Bool) : Statement (.snapshotComplete k ok) := fun _ _ e => noQueue e
theorem registerWrite (p : RegPath) : Statement (.registerWrite p) := fun _ _ e => noQueue e
theorem mgmtResetComplete : Statement .mgmtResetComplete := fun _ _ e => noQueue e
theorem regionEntryFetchComplete (key : Nat) : Statement (.regionEntryFetchComplete key) := fun _ _ e => noQueue e
theorem efRegulation (c : Nat) (on : Bool) : Statement (.efRegulation c on) := fun _ _ e => noQueue e
theorem prbsCheckerLock (l : Nat) : Statement (.prbsCheckerLock l) := fun _ _ e => noQueue e
theorem vfEnableSet (p : Nat) (numVfs : Nat) : Statement (.vfEnableSet p numVfs) := fun _ _ e => noQueue e
theorem pcieLinkUp (p : Nat) (speed : Nat) (width : Nat) (flitMode : Bool) : Statement (.pcieLinkUp p speed width flitMode) := fun _ _ e => noQueue e

end Sys2Proof.Laws.QueueOperand
end

