-- ==== Sys2Proof/Tests/Slice0.lean ====
section
/-! SUPPORT. Tests of the model: ill-formed commands, encodings that the manual writes out, results of single commands, and a witness for the
hypotheses of every statement. -/

namespace Sys2Proof.Tests

open Sys2Proof Sys2Proof.Machine Sys2Proof.Claims

-- one thread checks the tests: many at once would take the stacks of many
set_option Elab.async false

/-! ## Small states -/

/-- A state with some register fields set. -/
def put (s : State) (l : List (Fld × Nat × Nat)) : State := l.foldl (fun s x => s.wr x.1 x.2.1 x.2.2) s

/-! ### Keys, certificates and sealed bytes -/

/-- The digest of the root's public key. -/
def rootDigest : List Byte := leBytes 48 0x15b93dc4be54d2e34ee3178d8c2d1087badfe557320a4ea25fc8e377f7f68d15d736bb82e53c7ce863bce565599d75d7
/-- The public key of the authority, whose private key is 5. -/
def keyA : List Byte := leBytes 97 0x3a71c1e6ab14441833fbe80a6d687731eb1a90b63365988ce8ded55477444b28c5e7000ae937580f2df94074c796a68fbc846d83c3dbbc0ae697a21c4a2f8837b08365e5cb61664fc58ff9bf1de508f267e425a05eac3c5777c751c2a224de1104

/-- Its digest. -/
def keyADigest : List Byte := leBytes 48 0x1c8c48d9f31351e059911988a8991b0e81a946de223dd22600e51891898af39906499b7ebcfd4565ac19fb8c851aadb6

/-- The certificate of the root. -/
def certRoot : Cert := ⟨leBytes 97 0x8cef12c5da4c66649e8fa732de4ed8305622bd1dd02cc9d9299779ed67d8611a4790168cdbef52ba881be46190c97594e1d0b68fb4050f04b2ebb9556f52058b501c7bfa9dcc582dfa5feafb97e96fadfedf4e23bf8e9ff28847ce65731d3c2804, 0, 0, leBytes 48 0x5daaca2126c918df515d519dbe1eeb09cd800ca9debb81e0881faa5027cf1d0c59e4e3770ab8051cfd82f46e2c43133f, leBytes 48 0xad9826db846f0293fd25646ce0e53763a9fa88f3cc1beefe61775e17f2c0d909e8a467bb61831bb11468de47fa1e1066⟩

/-- The certificate of the product. -/
def certProduct : Cert := ⟨leBytes 97 0x34f9f0d308a433173165e1848d5bc40416441537614f86994c774f645253c9b275154fc1a6dde61bc2b1f8b34c6a7609dfc5354e85f03709e530ff02727d312130385762f241bd1ca55d0f7fbbbc3ec3d3152d6fd2e06f22b2d264d0ace17b6204, 0, 0, leBytes 48 0x5daaca2126c918df515d519dbe1eeb09cd800ca9debb81e0881faa5027cf1d0c59e4e3770ab8051cfd82f46e2c43133f, leBytes 48 0x99d2cece83815f0236b467d48a614145c1192a9396e86ae3fbd87147d864c5ec556d8b60e5419658a3a64204bb6cff1d⟩

/-- The certificate of device 78. -/
def certDevice : Cert := ⟨leBytes 97 0xd20a2b02a4bf6a6f8d70d1cde9e1ad6b19ec0eecc2301cbdd41c526ddc4a55220efdb83dba8853836a10d4005736d2dc7dc822d869b2e9e6ecd503f4d658325afb116f25733c0c900a1958be7f22bf453438faa697421175bee096a58e77921604, 78, 1, leBytes 48 0x5daaca2126c918df515d519dbe1eeb09cd800ca9debb81e0881faa5027cf1d0c59e4e3770ab8051cfd82f46e2c43133f, leBytes 48 0x13b938aefce43f7b102bfe3708039db22de77af81294b535a76c2cd5a92c09e7337c382c0556fe31a4ec3af7c0e8ee05⟩

/-- A key message of device 78 with a job key, wrapped to the ephemeral key 9. -/
def keyResp : KeyMsg := ⟨none, 0, leBytes 97 0xdd213ab76a4f7897d988822495816d29a805b7c378df02c5313c180c551901f7ddecf0b53d08d9229f27c1e72ab788a9fb586618132dcba91af97b50ab858eedcc381229295c1d93889e9bb7902d374f86de4fefd6298d67ec7ed63b56c569a604, [certRoot, certProduct, certDevice], List.replicate 7 (leBytes 48 0), leBytes 48 0xb419305b4068a5192fa8ca348c94f94c57354f6ad1f872a668eb90cf0e823cdb236f6d5365be8b625aefb3f3b00954cf,
  leBytes 48 0x5daaca2126c918df515d519dbe1eeb09cd800ca9debb81e0881faa5027cf1d0c59e4e3770ab8051cfd82f46e2c43133f, leBytes 48 0x536bd125a7e06b19af208fee727b64b1ee419de70b0507f14f0fb8097dc410d3fcc65168b7c8f7a311e2d2599b2c9cd9⟩

/-- One with no key. -/
def keyNote : KeyMsg := ⟨none, 0, leBytes 97 0xdd213ab76a4f7897d988822495816d29a805b7c378df02c5313c180c551901f7ddecf0b53d08d9229f27c1e72ab788a9fb586618132dcba91af97b50ab858eedcc381229295c1d93889e9bb7902d374f86de4fefd6298d67ec7ed63b56c569a604, [certRoot, certProduct, certDevice], List.replicate 7 (leBytes 48 0), [],
  leBytes 48 0x5daaca2126c918df515d519dbe1eeb09cd800ca9debb81e0881faa5027cf1d0c59e4e3770ab8051cfd82f46e2c43133f, leBytes 48 0xc3298c4571a897e46f80609d3ba89c3ac048436658c4e9024a8f5ab086e3d8920571da3593fde71ea710129c55942bfc⟩

/-- A key to enrol. -/
def newKey : List Byte := leBytes 97 0x67ed70b2021c9f5469a5bb37be8773eddca42a79cf630eabf309bc8a915dc46d6156ab8181a2e831162ea66998e2caca35183ec631d6efe120513a7e59a189159dfcdc51adc85da5aca04c0bbd09e797eb1d3277d9aac8c19892ac52cd51821304

/-- A token that enrols it. -/
def enrolToken : List Byte := leBytes 273 0x3a71c1e6ab14441833fbe80a6d687731eb1a90b63365988ce8ded55477444b28c5e7000ae937580f2df94074c796a68fbc846d83c3dbbc0ae697a21c4a2f8837b08365e5cb61664fc58ff9bf1de508f267e425a05eac3c5777c751c2a224de11048bdbe4a2d29c0b682b5e2a85de346fff1ad7aded03340fc71010d6a2b6bd2f8c778a0aa197c1dc9060d0b58d6df5eed25daaca2126c918df515d519dbe1eeb09cd800ca9debb81e0881faa5027cf1d0c59e4e3770ab8051cfd82f46e2c43133fb0b28354a5ed2075140592fd110f78de6afa0fc7f0961808ff6cdb9f74a90bff757f72a9b3149b56db063bc58cab6478000000000100000000000000ee6b280000000000000000050000000000b00111

/-- The signature of a COMMIT of type 5, version 9, by the product key. -/
def commitR : List Byte := leBytes 48 0x5daaca2126c918df515d519dbe1eeb09cd800ca9debb81e0881faa5027cf1d0c59e4e3770ab8051cfd82f46e2c43133f

/-- Its other half. -/
def commitS : List Byte := leBytes 48 0xbb72e873c24375d97908570e4a876fe1c331e986adcb9accdfa5960c1d7cfa4aadda1eb8db9b115b86e054b0752d3cb

/-- A container of an empty image of type 5. -/
def box : List Byte := leBytes 160 0x30000000000090105

/-- A message with the block and the token of jobOpen. -/
def mJobOpen : List Byte := leBytes 425 0x3a71c1e6ab14441833fbe80a6d687731eb1a90b63365988ce8ded55477444b28c5e7000ae937580f2df94074c796a68fbc846d83c3dbbc0ae697a21c4a2f8837b08365e5cb61664fc58ff9bf1de508f267e425a05eac3c5777c751c2a224de1104fdc8346f3545ae70280a7f0bb8211eb6865bacb6cfcdaf8f2ae874fbec40208f4d2db18ade5f3a9e0a5e946d9fb6d4cd5daaca2126c918df515d519dbe1eeb09cd800ca9debb81e0881faa5027cf1d0c59e4e3770ab8051cfd82f46e2c43133f803c950d62df5fa16271ffe79f174ac66145a2528f144fb77f236f0120ecc98351f00d9028a983cafd0ce3fcad50ca13000000000100000000000000ee6b280000000000000000050000000800b00101000000000000000600000000000000000000000000000000000000000000000000000000000000000000000000000000000000000000000000000000000000000000000000000000000000000000004d000000000000000000000000000000000000000000000000000000000000000000000000000000000000000000000000000000000000000000000001000000400001010000000001

/-- A message with the block and the token of keyInstall. -/
def mKeyInstall : List Byte := leBytes 569 0x3a71c1e6ab14441833fbe80a6d687731eb1a90b63365988ce8ded55477444b28c5e7000ae937580f2df94074c796a68fbc846d83c3dbbc0ae697a21c4a2f8837b08365e5cb61664fc58ff9bf1de508f267e425a05eac3c5777c751c2a224de1104f30da2d1fcd56caca58ccf819579d6e824a5a20039ee28afb30946c15017575704c0d430e73ec71f36961f53a38d56895daaca2126c918df515d519dbe1eeb09cd800ca9debb81e0881faa5027cf1d0c59e4e3770ab8051cfd82f46e2c43133fbc598605d766ed2f78a5301094e93380e8d80787fa7ac532486ceb132886d67d449f6e18d5cf92ee9b41503af461181d000000000100000000000000ee6b280000000000000000050000000800b00103000000000000000600000000000000000000000000000000000000000000000000000000000000000000000000000000000000000000000000000000000000000000000000000000000000000000004d00000000000000000000000000000000000000000000000000000000000000000000000000000000000000000000000000000000000000000000000100000040000101000000000100000000a0b1528441711aea20c56e3bead872f030cad3cc338a5fde1a91fc4f415e062bd73027767180c925ca443b1cbe9d523c0000000000000000000000005d9d7995794e465925661ab972971ff0a529eae39fe6720e75637a3daa762c1c8fa02b85ed86e6ac2b719839823aeebb000000000000000000000000000003e8000000000000004d0000000800000001

/-- A message with the block and the token of jobClose. -/
def mJobClose : List Byte := leBytes 277 0x3a71c1e6ab14441833fbe80a6d687731eb1a90b63365988ce8ded55477444b28c5e7000ae937580f2df94074c796a68fbc846d83c3dbbc0ae697a21c4a2f8837b08365e5cb61664fc58ff9bf1de508f267e425a05eac3c5777c751c2a224de1104f013e7a039638a11cb5c7b0e838d15a0b052377083a782e454098cf2366e916646c41f42fb68a8cc08eed27e454777be5daaca2126c918df515d519dbe1eeb09cd800ca9debb81e0881faa5027cf1d0c59e4e3770ab8051cfd82f46e2c43133fc40afbe30c07d83c00388a87bd7bff22fa7772b6886450625d36b6845680874d69e1dbe7774ed3ea6b7d091526fae59d000000000100000000000000ee6b280000000000000000050000000700b0010200000000

/-- A message with the block and the token of windowOpen. -/
def mWindowOpen : List Byte := leBytes 305 0x3a71c1e6ab14441833fbe80a6d687731eb1a90b63365988ce8ded55477444b28c5e7000ae937580f2df94074c796a68fbc846d83c3dbbc0ae697a21c4a2f8837b08365e5cb61664fc58ff9bf1de508f267e425a05eac3c5777c751c2a224de1104a48857619832868781765fa80ba2dbae6b384f67a69d5a8f2e554cb2e84ff8c4bbc2899fafc21a14da36c4927e6cfd465daaca2126c918df515d519dbe1eeb09cd800ca9debb81e0881faa5027cf1d0c59e4e3770ab8051cfd82f46e2c43133f2e0c39019475c898cef10718f5e66d0b81db7f32845c468f33867da37c79dbf169c0c798135f8440b92a18db0af19951000000000100000000000000ee6b280000000000000000050000000700b001040000000000000000000000030000000500000000000010000000000000000000

/-- A message with the block and the token of windowRevoke. -/
def mWindowRevoke : List Byte := leBytes 277 0x3a71c1e6ab14441833fbe80a6d687731eb1a90b63365988ce8ded55477444b28c5e7000ae937580f2df94074c796a68fbc846d83c3dbbc0ae697a21c4a2f8837b08365e5cb61664fc58ff9bf1de508f267e425a05eac3c5777c751c2a224de11049992108b4f0278e12a43f37fcd986dba39de6dcbc564746fc8fde5de8ec1a2195af1718193642464cb38a61dcb6c4d0c5daaca2126c918df515d519dbe1eeb09cd800ca9debb81e0881faa5027cf1d0c59e4e3770ab8051cfd82f46e2c43133fe114a2c56e7c7a385559c411ec37aa8eb88fd4d35e0dd90d356f02c8d7a124d7c131ceba3acfe003917cba363d0898e8000000000100000000000000ee6b280000000000000000050000000700b0010400000000

/-- A message with the block and the token of regionRegister. -/
def mRegionRegister : List Byte := leBytes 305 0x3a71c1e6ab14441833fbe80a6d687731eb1a90b63365988ce8ded55477444b28c5e7000ae937580f2df94074c796a68fbc846d83c3dbbc0ae697a21c4a2f8837b08365e5cb61664fc58ff9bf1de508f267e425a05eac3c5777c751c2a224de1104862d1a2bf13cc12e08f2fea31cd99fa82f3ca3a41afc903767fbd3da346659a8eb7bf8ddf11321237d50e1d0bd6361a05daaca2126c918df515d519dbe1eeb09cd800ca9debb81e0881faa5027cf1d0c59e4e3770ab8051cfd82f46e2c43133f1c62e81bdd0e3dca32f790320710d44b01152b501b1e4a1482457bb7d4dd16b3b4c89746814bfa9300726d8ba230dead000000000100000000000000ee6b280000000000000000050000000700b001050000000000000000000000030000000500000000000010000000000000000000

/-- A message with the block and the token of regionDeregister. -/
def mRegionDeregister : List Byte := leBytes 277 0x3a71c1e6ab14441833fbe80a6d687731eb1a90b63365988ce8ded55477444b28c5e7000ae937580f2df94074c796a68fbc846d83c3dbbc0ae697a21c4a2f8837b08365e5cb61664fc58ff9bf1de508f267e425a05eac3c5777c751c2a224de1104c364bb8cc9a0f2cd6123c820d89a3ad9b6488447042bbe2ac3a0611d91de8ac8b84ec6ed3896c793ddfe230f159e6d5b5daaca2126c918df515d519dbe1eeb09cd800ca9debb81e0881faa5027cf1d0c59e4e3770ab8051cfd82f46e2c43133ffcebafcf4f6d67ce6783f527d0c03c06bbe568e34bcd804918d924ec82935dd6e714307b0bb4bf06f6f3d59a6d8600e1000000000100000000000000ee6b280000000000000000050000000700b0010500000000

/-- A message with the block and the token of treeBuild. -/
def mTreeBuild : List Byte := leBytes 337 0x3a71c1e6ab14441833fbe80a6d687731eb1a90b63365988ce8ded55477444b28c5e7000ae937580f2df94074c796a68fbc846d83c3dbbc0ae697a21c4a2f8837b08365e5cb61664fc58ff9bf1de508f267e425a05eac3c5777c751c2a224de1104bb84d77f8ebac1a2f6768e5ad8690bac0a45dcaff729cfe03f8bcc1ca5832186774dbdad566d8a862be744658aadf6635daaca2126c918df515d519dbe1eeb09cd800ca9debb81e0881faa5027cf1d0c59e4e3770ab8051cfd82f46e2c43133faf92361b34cdf16f4b0af8f2a39aa4782571f6835fd2584bd0bc23dd5eff07abdc47bd363e085080534895184430b523000000000100000000000000ee6b280000000000000000050000000700b001060000000000000000000000000000000000000010000000000000000000000040000003e800020000000000000000000000000000000000018000000000000000

/-- A message with the block of routeWrite. -/
def mRouteWrite : List Byte := leBytes 8 0x60

/-- The credential trailer of routeWrite. -/
def tRouteWrite : List Byte := leBytes 32 0x8b8575fdfb6a4ecd232c60990941486e00000000000000000000000100000003

/-- The credential trailer of routeCommit. -/
def tRouteCommit : List Byte := leBytes 32 0xd7cb8ec3dc9ef063655a3760897d197500000000000000000000000100000003

/-- A message with the block and the token of loadProgram. -/
def mLoadProgram : List Byte := leBytes 357 0x3a71c1e6ab14441833fbe80a6d687731eb1a90b63365988ce8ded55477444b28c5e7000ae937580f2df94074c796a68fbc846d83c3dbbc0ae697a21c4a2f8837b08365e5cb61664fc58ff9bf1de508f267e425a05eac3c5777c751c2a224de1104d402c0cf5c5636c01fc053a85223e87dc68936729120ed9ff9c30d138439c712e00f7e94caf0a94bbb7dfb8dbb1d945f5daaca2126c918df515d519dbe1eeb09cd800ca9debb81e0881faa5027cf1d0c59e4e3770ab8051cfd82f46e2c43133f76c1db960258fc7757319802b0c80cf7d7777faaacdf9f74939d02e6cd3c96dd91d9a69c54623560611d5a60d7db598b000000000100000000000000ee6b280000000000000000050000000700b00108000000000000000000000001000000000000008000000000000000000000000000000000000000000000000000000000000000000000000000000000000000000000000000010000000000050000000101000101

/-- A message with the block of loadProgram. -/
def mSystem : List Byte := leBytes 180 0x9c6d48a87c63bfd46455fcb110d7eb4ac88edd9c867c1937a0ea29b93e0f759beeaa4cf57e5ae219df2039fb2e7327835daaca2126c918df515d519dbe1eeb09cd800ca9debb81e0881faa5027cf1d0c59e4e3770ab8051cfd82f46e2c43133f000000000000000000000000000000000000000000000000000000000000000000000000000000000000000000000000000000000000000000000000000000000000000000000000000000000000000101000100

/-- A message with the block and the token of queueBind. -/
def mQueueBind : List Byte := leBytes 305 0x3a71c1e6ab14441833fbe80a6d687731eb1a90b63365988ce8ded55477444b28c5e7000ae937580f2df94074c796a68fbc846d83c3dbbc0ae697a21c4a2f8837b08365e5cb61664fc58ff9bf1de508f267e425a05eac3c5777c751c2a224de1104442a56a718940070d17920161c21ffe4def47ef0456aa2a9745441419befdc18ae685ad2c23c69ed9b5a130dd68dff8d5daaca2126c918df515d519dbe1eeb09cd800ca9debb81e0881faa5027cf1d0c59e4e3770ab8051cfd82f46e2c43133ffb62530442584317cc1f72cc02c1e0d4c5ef7a1182a552cab0cb04c718f56f10c4198d8e23631c0089e4736f7dc57776000000000100000000000000ee6b280000000000000000050000000700b0010700000ffe00000600000000050000000000000000000000000000000000000000

/-- A message with the block of invalidate. -/
def mInvalidate : List Byte := leBytes 16 0x0

/-- A message with the block of snapshot. -/
def mSnapshot : List Byte := leBytes 16 0x137fffc8c10000000000001f40

/-- A sealed multicast HMSG. -/
def sHmsg : List Byte := leBytes 49 0xec0221cab4170abb14e9b13a1f4bfe971913681a5027a03031debe6094534059296adaa1b6c4946a2482cdae077276f27c

/-- A sealed PUT. -/
def sPut : List Byte := leBytes 49 0xc102205e0afff43c647d903d748f1c51d9132cbbed09a4ce5eed1c40a7dd319cc4afe76627318aa3197dd610ba16014c16

/-- A sealed ACK. -/
def sAck : List Byte := leBytes 64 0x8925b0b922ec092fd61970c23a7e0a5d62534c8a59531786ea08f95b1fde7fd8132cbbed09a4ce5eed1c40a7dd319cc4afe76626318aa2197dd610ba16014c1e

/-- A sealed RESP-DATA. -/
def sResp : List Byte := leBytes 17 0x900b806172ad9969e35dc063d9b805671f

/-- A sealed RESP-STATUS. -/
def sStatus : List Byte := leBytes 32 0x77771a73a1d0f967ee8e357a84e9061afe76626318aa2197dd610ba16014c1e

/-- A sealed CLOSE-REQ. -/
def sCloseReq : List Byte := leBytes 32 0x69636fa1e11db100b3c79909e416c73cafe76626318aa2197dd610ba16014c1e

/-- A sealed CLOSE-ACK. -/
def sCloseAck : List Byte := leBytes 32 0xccf931078656492dcb9c9cce2f057a1cafe76626318aa2197dd610ba16014c1e

/-- A sealed CLOSE-REFUSE. -/
def sCloseRefuse : List Byte := leBytes 32 0xb73ca874b0a6a0eca31c869b5c7e49ffafe76626318aa2197dd610ba16014c1e

/-- A sealed revocation message. -/
def sRevoke1 : List Byte := leBytes 32 0x4832a290ea714a26caa07558f9aec543afe76626318aa2187dd610ba1601b3ff

/-- A sealed revocation message. -/
def sRevoke2 : List Byte := leBytes 32 0x8fe7d6c50461fe33e5d04397448fdd4cafe76626318aa2187dd610ba1601b3fc

/-- A sealed revocation message. -/
def sRevoke3 : List Byte := leBytes 32 0x32abfaf65e916d3f00ff51d22f90d549afe76626318aa2187dd610ba1601b3fd

/-- A sealed COLL packet (Join). -/
def sJoin : List Byte := leBytes 48 0x3621a2f1b56e02568f027a15f2023472132cbbed09a4ce5eed1c40a7dd319cc4afe76627318aa2197dd010be16024c1f

/-- A sealed COLL packet (Part). -/
def sPart : List Byte := leBytes 48 0x3b40cb5b0a8227c702e2665684df111c132cbbed09a4ce5eed1c40a7dd319cc4afe76627318aa2197dd010be16024c1c

/-- A sealed COLL packet (Escape). -/
def sEscape : List Byte := leBytes 48 0xc060ec3d9fd9c4b779426d97a994f239132cbbed09a4ce5eed1c40a7dd319cc4afe76627318aa2197dd010be16024c1d

/-- A sealed COLL packet (Result). -/
def sResult : List Byte := leBytes 48 0x2182190f755b6ce519235fd068655ac0132cbbed09a4ce5eed1c40a7dd319cc4afe76627318aa2197dd010be16024c1a

/-- A sealed COLL packet (Done). -/
def sDone : List Byte := leBytes 48 0xdaa23e69e0008f9562835411452eb9e5132cbbed09a4ce5eed1c40a7dd319cc4afe76627318aa2197dd010be16024c1b

/-- A sealed COLL packet (Fail). -/
def sFail : List Byte := leBytes 48 0xfe4b3bd6f0934a91c1e9a799daa4f4a0132cbbed09a4ce5eed1c40a7dd319cc4afe76627318aa2197dd031be16024c18

/-- A sealed COLL packet (Rejoin). -/
def sRejoin : List Byte := leBytes 48 0x2ce370a5cab7497494c343931eb87fae132cbbed09a4ce5eed1c40a7dd319cc4afe76627318aa2197dd010be16024c19

/-- A sealed COLL packet (Rerun). -/
def sRerun : List Byte := leBytes 48 0x1406bca68be9fba12fa12cdcb110cdba132cbbed09a4ce5eed1c40a7dd319cc4afe76627318aa2197dd010be16024c16

/-- A sealed COLL packet (Credit). -/
def sCredit : List Byte := leBytes 48 0xef269bc01eb218d15401271d9c5b2e9f132cbbed09a4ce5eed1c40a7dd319cc4afe76627318aa2197dd010be16024c17

/-- The tag of a job WHISTLE. -/
def tagWhistle : List Byte := leBytes 16 0xb17a2fe54f1c2285087a24e0b39a9723

/-- The tag of a WHISTLE of a fabric manager. -/
def tagWhistleFm : List Byte := leBytes 16 0x9f88eba2fe19199a498c883572053f2

/-- A CMD that drains ferry 0. -/
def cmdDrain : List Byte := leBytes 36 0x8b00000901

/-- Its entry. -/
def entryDrain : List Byte := leBytes 32 0x8b

/-- The tag of an MG-CMD. -/
def tagCmd : List Byte := leBytes 16 0x495af4ec74faeee78e8122397283cf82

/-- The tag of an MG-STATUS. -/
def tagStatus : List Byte := leBytes 16 0x87b43f05f2223567b05e002252e83db1

/-- The tag of a TELEMETRY request. -/
def tagTelemetry : List Byte := leBytes 16 0x28ceaeb9205715e8d01e8d087da29f26

/-- Job slot 0 is OPEN for job 7 with ASID 5 and the tallies 0 to 63; its ASID slot maps the first 16 MiB to package memory; ferry 0 runs the
job; queue 3 is bound to it, RUNNING, with 16 entries announced; the device's serial is 77, and it is the job's one member. -/
def up : State :=
  let s := put State.reset
    [(.GLB_SERIAL_SERIAL, 0, 77), (.GLB_JOB_STATE, 0, jobOpened), (.GLB_JOB_JOB_ID, 0, 7), (.GLB_SEC_STATE_AUTH_SLOT, 0, 1),
      (.TX_ASID_VALID, 0, 1), (.TX_ASID_ASID, 0, 5), (.TX_PKG_FIRST, 0, 0), (.TX_PKG_LAST, 0, 0xFFFF),
      (.TX_ASID_VALID, 1, 1), (.TX_ASID_ASID, 1, 6), (.TX_PKG_FIRST, 1, 0x10000), (.TX_PKG_LAST, 1, 0x1FFFF),
      (.TX_SPAN_BASE_VALID, 0, 1), (.TX_SPAN_BASE_R, 0, 1), (.TX_SPAN_BASE_W, 0, 1), (.TX_SPAN_BASE_LOC, 0, 1),
      (.TX_SPAN_LIMIT_LIMIT, 0, 0xFFF), (.TX_SPAN_TGT_TARGET, 0, 0x10_0100_0),
      (.FX_STATUS_STATE, 0, fxRunning), (.FX_STATUS_JOB_LOADED, 0, 1), (.FX_JOBSEG_ASID, 0, 5),
      (.QU_STATE_STATE, 3, qRunning), (.QU_PI_PI, 3, 16), (.QU_CFG_ASID, 3, 5), (.QU_CFG_SIZE_LOG2, 3, 6), (.QU_CFG_LOC, 3, 1)]
  let b : Job := {
    members := [(0, 77)], asids := [5], tallyCount := 64, whistleMask := 1, notAfter := sec 100, keys := ⟨[(0, 12)]⟩ }
  let h : HEntry := ⟨true, true, 1, 0xFFFF, 0, 1000⟩
  let q : QSt := { noJob := false, ep := 2 }
  { s with
    jobs := s.jobs.put 0 b, queues := s.queues.put 3 q, ferries := s.ferries.put 0 { entries := ⟨[(0x80, h)]⟩ }
    authDigests := [[], keyADigest], rootDigest := rootDigest, chain := [certRoot, certProduct, certDevice], sealSecret := 13 }

/-- A timer that is due at time 5. -/
def due (s : State) (k : TimerKey) : State := s.arm k 5

theorem pair {α β : Type} {p : α × β} {b : β} (h : p.2 = b) : p = (p.1, b) := Prod.ext rfl h

theorem pairSome {α β : Type} {p : α × Option β} (h : p.2.isSome = true) : p = (p.1, some (p.2.get h)) :=
  Prod.ext rfl (Option.some_get h).symm

theorem pairInr {α β γ : Type} {p : α × Sum β γ} (h : p.2.isRight = true) : p = (p.1, .inr (p.2.getRight h)) := by
  obtain ⟨a, b⟩ := p
  cases b with
  | inl x => cases h
  | inr x => rfl

theorem starts {s : State} {q n : Nat} {c d : Cmd} (h : s.phase = .running ∧ s.fatal = false ∧ (s.q q).passOne = none ∧
    s.canStart q n = true ∧ s.entryCause q c (s.bodyOk q c) = 0 ∧ s.iterated q c = some d ∧ s.cmdAligned d = true ∧
    (s.q q).fenced c = false ∧ s.bodyWaits q c = false ∧ s.turnOf q = true) : Starts s q n c d :=
  ⟨h.1, h.2.1, h.2.2.1, h.2.2.2.1, h.2.2.2.2.1, h.2.2.2.2.2.1, h.2.2.2.2.2.2.1, h.2.2.2.2.2.2.2.1, h.2.2.2.2.2.2.2.2.1,
    h.2.2.2.2.2.2.2.2.2⟩

theorem takes {s : State} {q dest land x : Nat} {u : State} (h : s.canTake (s.rd .QU_CFG_JOB_SLOT q) = true ∧ land ≤ s.landFree ∧
    s.openFor (s.rd .QU_CFG_JOB_SLOT q) (s.endpoint (s.q q).ep) dest false = (u, some x)) : Takes s q dest land u x :=
  ⟨h.1, h.2.1, h.2.2⟩

/-- Bytes from fields, as (offset, value). -/
def blk (n : Nat) (l : List (Nat × Nat)) : List Byte := leBytes n (l.foldl (fun a x => a + x.2 * 256 ^ x.1) 0)

/-- An invocation of the job with some registers. -/
def inv0 (g : List (Nat × Nat)) : Invoc := { slot := some 0, entry := 0x80, prio := 1, kind := .work, asid := 5, pc := 6144, g := ⟨g⟩ }

/-- Thread 1 of ferry 0 runs an invocation at an instruction. -/
def run (l : List (Nat × Nat)) (v : Invoc) : State :=
  { up.updThread 0 1 fun _ => { inv := some v } with imem := ⟨[((0, v.pc), (wordOf l).getD 0)]⟩ }

/-- The same, with bytes in scratch at 0x2000. -/
def runDesc (l : List (Nat × Nat)) (v : Invoc) (d : List Byte) : State := { run l v with scratch := memWrite [] 0x2000 d }

theorem issues {s : State} {f t : Nat} {l : List (Nat × Nat)} {v : Invoc} (h : s.phase = .running ∧ (s.thread f t).inv = some v ∧
    s.ferryOn f = true ∧ s.issuer f = some t ∧ v.inRegion v.pc = true ∧ wordOf l = some ((s.imem.look (f, v.pc)).getD 0) ∧
    wordDefined ((s.imem.look (f, v.pc)).getD 0) = true) : Issues s (s.tookSlot f t) f t l v :=
  ⟨h.1, h.2.1, h.2.2.1, h.2.2.2.1, rfl, h.2.2.2.2.1, h.2.2.2.2.2.1, h.2.2.2.2.2.2⟩

theorem accepts {s : State} {f t rd rs unit fn : Nat} {w : Bool} {writes ok : List Byte → Bool} {v : Invoc} {d : List Byte}
    (h : s.localOk f (v.reg rs) 64 v.slot.isSome = true ∧ v.reg rs % 64 = 0 ∧
      (!isScratch (v.reg rs) && s.poisoned (v.reg rs) 64) = false ∧ (s.thread f t).ops.length < 16 ∧ d = s.readLocal f (v.reg rs) 64 ∧
      (descHead d && ok d) = true ∧
      (tfEn (leAt d 1 3) && !((s.agentMoves (v.reg rs) 64).acceptOp f t rd unit fn w (v.reg rs) d (writes d)).1.invTally v (tfNum (leAt d 1 3))) = false) :
    Accepts s f t rd rs unit fn w writes ok v d ((s.agentMoves (v.reg rs) 64).acceptOp f t rd unit fn w (v.reg rs) d (writes d)).1
      ((s.agentMoves (v.reg rs) 64).acceptOp f t rd unit fn w (v.reg rs) d (writes d)).2 :=
  ⟨h.1, h.2.1, h.2.2.1, h.2.2.2.1, h.2.2.2.2.1, h.2.2.2.2.2.1, rfl, h.2.2.2.2.2.2⟩

/-- A collective context of one member, and a state that holds it as context 6. -/
def coll0 : CollCtx := {
  slot := 0, root := 0, parent := none, members := 1, pos := 0, first := 0, last := 0, children := [], land := 2, timeout := 1000,
  maxBytes := 64, build := 0, retain := 0 }
def upColl : State := { up with colls := ⟨[(6, coll0)]⟩ }

theorem catcher {s : State} {p : Space} (h : s.catchersIn.isEmpty = false) : (s.catcherOf p).isSome = true := by
  have hl : 0 < s.catchersIn.length := by
    cases e : s.catchersIn with
    | nil => rw [e] at h; cases h
    | cons a r => simp
  simp only [State.catcherOf, h, Bool.false_eq_true, if_false]
  rw [List.getElem?_eq_getElem (Nat.mod_lt _ hl)]
  rfl

theorem postNow {s : State} {v : Invoc} {d : List Byte} {j : Nat} (hj : v.slot = some j) (h : s.canMatch j = true)
    (hc : s.catchersIn.isEmpty = false) : s.postWaits v d = false := by
  have := catcher (s := s) (p := ⟨j, mdEp d, mdComm d⟩) hc
  simp only [State.postWaits, hj, h]
  cases e : s.catcherOf ⟨j, mdEp d, mdComm d⟩ with
  | none => rw [e] at this; cases this
  | some k => rfl

theorem ready {s : State} {q : Nat} {c : Cmd} {bs : List Byte} (h : s.phase = .running ∧ s.fatal = false ∧ s.qState q = qRunning ∧
    s.served q = true ∧ (s.q q).passOne = none ∧ s.slotsAhead q ≠ 0 ∧ idxLe (s.q q).cursor (s.rd .QU_PI_PI q) = true ∧
    s.canStart q 1 = true ∧ (s.q q).fencedAll = false ∧ (s.q q).fetched.look (s.q q).cursor = some bs ∧
    opcodeSlots (leAt bs 0 1) (leAt bs 1 1) = some 1 ∧ s.opcodeCause q (leAt bs 0 1) = 0 ∧ decodeEntry (bs ++ []) = some c) :
    Ready s q 1 [] c :=
  ⟨h.1, h.2.1, h.2.2.1, h.2.2.2.1, h.2.2.2.2.1, h.2.2.2.2.2.1, h.2.2.2.2.2.2.1, h.2.2.2.2.2.2.2.1, h.2.2.2.2.2.2.2.2.1,
    ⟨bs, h.2.2.2.2.2.2.2.2.2.1, h.2.2.2.2.2.2.2.2.2.2.1, h.2.2.2.2.2.2.2.2.2.2.2.1, rfl, h.2.2.2.2.2.2.2.2.2.2.2.2⟩⟩

theorem runs {s : State} {r : Nat} {op : PrivOp} {p : Priv} {m t : List Byte} (h : s.phase = .running ∧ s.cmds.length < 8) (ha : privArgsOk op p = true) :
    Runs s (.iamel r) op p ⟨[], m, t, true⟩ { s with cmds := s.cmds ++ [r] } :=
  ⟨h.1, Or.inr ⟨r, rfl⟩, Or.inr (fun _ _ _ => by simp), by
    show State.startPriv { s with hostMem := s.hostMem } _ _ _ = _
    simp only [State.startPriv, h.2, if_true], ha⟩

/-! ## Tokens and credentials that verify -/

theorem tokenPass {s : State} {o : Offer} {kind job : Nat} {here : Bool} {fresh : Nat → Bool}
    (h : s.tokenCause o kind job here (fresh o.1.serial) = 0) : s.checkToken o kind job here fresh = (s.count uSecurity 4, 0) := by
  simp [State.checkToken, h]

theorem opens {u : State} {kind : Nat} {p : Priv} {b : JobBlock} {o : Offer} {j : Nat}
    (h : u.tokenCause o kind p.arg (u.memberHere b.members) (decide (u.openSerial < o.1.serial)) = 0)
    (hv : let v : State := { u.count uSecurity 4 with openSerial := o.1.serial }
      v.flag .PW_STATUS_PARKED = false ∧ v.openCause p.arg b = 0 ∧ v.freeSlot = some j) :
    Opens u kind p b o { u.count uSecurity 4 with openSerial := o.1.serial } j :=
  ⟨⟨_, tokenPass h, rfl⟩, hv.1, hv.2.1, hv.2.2⟩

theorem jobPass {s : State} {o : Offer} {kind j : Nat}
    (h : s.tokenCause o kind (s.rd .GLB_JOB_JOB_ID j) (s.memberHere (s.job j).members) (decide ((s.job j).serial < o.1.serial)) = 0) :
    s.jobToken o kind j = ((s.count uSecurity 4).updJob j fun b => { b with serial := o.1.serial }, 0) := by
  simp only [State.jobToken, tokenPass (fresh := fun n => decide ((s.job j).serial < n)) h]

theorem slotPass {s : State} {o : Offer} {kind j : Nat} (h1 : j < 256) (h2 : s.jobState j = jobOpened)
    (h : s.tokenCause o kind (s.rd .GLB_JOB_JOB_ID j) (s.memberHere (s.job j).members) (decide ((s.job j).serial < o.1.serial)) = 0) :
    s.slotToken j kind o = ((s.count uSecurity 4).updJob j fun b => { b with serial := o.1.serial }, 0) := by
  simp only [State.slotToken]
  rw [if_neg (by rintro (h | h) <;> omega), jobPass h]

theorem grantPass {s : State} {o : Offer} {kind job : Nat}
    (h : s.tokenCause o kind job false (!s.grants.contains o.1.serial) = 0) :
    s.grantToken o kind job = ({ s.count uSecurity 4 with grants := o.1.serial :: (s.count uSecurity 4).grants }, 0) := by
  simp only [State.grantToken, tokenPass (fresh := fun n => !s.grants.contains n) h]

theorem imagePass {s : State} {o : Offer} {j : Nat} (h1 : s.slotOf o.1.jobId = some j)
    (h : s.tokenCause o 0x08 (s.rd .GLB_JOB_JOB_ID j) (s.memberHere (s.job j).members) (decide ((s.job j).serial < o.1.serial)) = 0) :
    s.imageToken o = ((s.count uSecurity 4).updJob j fun b => { b with serial := o.1.serial }, 0) := by
  simp only [State.imageToken, h1, jobPass h]

theorem trailerPass {s : State} {r : Nat} {op : PrivOp} {p : Priv} {x : PrivData} {c : Cred} (h1 : decodeTrailer x.trailer = some c)
    (h : s.credOk c (Priv.bytes op p p.token ++ s.blockOf (.iamel r) p x) = true) : s.checkTrailer (.iamel r) op p x = (s.useCred c, 0) := by
  simp only [State.checkTrailer, h1, State.checkCred, h, if_true]

theorem chain_ok : chainLeaf rootDigest [certRoot, certProduct, certDevice] = some certDevice := by decide +kernel

theorem keyResp_signed : signedBy certDevice.key (KeyMsg.body keyResp) keyResp.sigR keyResp.sigS = true := by decide +kernel
theorem keyNote_signed : signedBy certDevice.key (KeyMsg.body keyNote) keyNote.sigR keyNote.sigS = true := by decide +kernel

theorem keyMsg_ok {s : State} {b : Job} {m : KeyMsg} (hr : s.rootDigest = rootDigest) (hc : m.chain = [certRoot, certProduct, certDevice])
    (h : (signedBy certDevice.key (KeyMsg.body m) m.sigR m.sigS && b.accepts m.summary) = true) : s.keyMsgOk b m 78 = true := by
  simp only [State.keyMsgOk, hr, hc, chain_ok, decide_true, Bool.true_and, h, show certDevice.serial = 78 from rfl]

theorem keyResp_ok {s : State} {b : Job} (hr : s.rootDigest = rootDigest) (h : b.accepts keyResp.summary = true) : s.keyMsgOk b keyResp 78 = true :=
  keyMsg_ok hr rfl (by rw [h, Bool.and_true]; exact keyResp_signed)

theorem keyNote_ok {s : State} {b : Job} (hr : s.rootDigest = rootDigest) (h : b.accepts keyNote.summary = true) : s.keyMsgOk b keyNote 78 = true :=
  keyMsg_ok hr rfl (by rw [h, Bool.and_true]; exact keyNote_signed)

/-- The context of job 7 between endpoint 2 of this device and endpoint 2 of node 1. -/
def cx : Nat := ctxKey 7 2 0x1002
def ctx0 : Ctx := {
  slot := 0, job := 7, loc := 2, rem := 0x1002, session := 4, opening := false, fresh := false, snd := ⟨[(0, { rate := 4000 }), (1, {})]⟩,
  rcv := ⟨[(0, {}), (1, {}), (2, {})]⟩ }
def upCtx : State := { up with ctxs := ⟨[(cx, ctx0)]⟩ }

/-- A packet of that context to this device, sealed. -/
def spkt (ptype : Nat) (bs : List Byte) : Packet := {
  ptype := ptype, cls := (typeClass ptype).getD 0, stream := if ptype = 2 then 2 else if ptype = 3 ∨ ptype = 4 then 1 else 0
  dest := 2, src := 0x1002, job := 7, session := 4, length := bs.length - 16, body := .sealed bs }

/-- The key of those packets (R60). -/
def ctxK : Nat := 0x3d3e9fa2816caff6c18c057093cb58b3c4e50923daaeca72706c86c7467ed223
theorem ctxK_eq : hkdf384 (toBe 32 12) (Packet.keyInfo (spkt 1 [])) = ctxK := by decide +kernel

theorem sealedOpens {s : State} {t : Nat} {bs : List Byte} {b : Body} (hj : (s.job 0).keyOf 0 = some 12)
    (ho : ((gcmOpen ctxK (Packet.nonce (spkt t bs)) (Packet.aad (spkt t bs)) (natsOf bs)).map bytesOfNats).bind (decodeBody t) = some b) :
    (s.opened 0 (spkt t bs)).bind (decodeBody t) = some b := by
  have hi : Packet.keyInfo (spkt t bs) = Packet.keyInfo (spkt 1 []) := by simp only [Packet.keyInfo, spkt]
  have hk : Packet.key (spkt t bs) 12 = ctxK := by unfold Packet.key; rw [hi, ctxK_eq]
  have hg : (spkt t bs).gen = 0 := rfl
  have hb : (spkt t bs).body = .sealed bs := rfl
  simp only [State.opened, hg, hj, Option.bind, Packet.decrypt, hb, hk]
  exact ho

/-- The state and the context that the checks after the decryption lead to. -/
def rxState (r : Rx) : State := match r with | .go t _ => t | .stop t => t | .full t => t | .noCtx t _ => t
def rxCtxNo (r : Rx) : Option Nat := match r with | .go _ c => some c | _ => none
def rxS (s : State) (p : Packet) : State := rxState ((s.count uSecurity 2).rxCtx p 0 State.peerReopened)
def rxC (s : State) (p : Packet) : Option Nat := rxCtxNo ((s.count uSecurity 2).rxCtx p 0 State.peerReopened)

/-- The context they lead to. -/
def rxCtxOf (s : State) (p : Packet) (c : Nat) : Ctx := ((rxS s p).ctxs.look c).getD ctx0

theorem rx_go {s : State} {p : Packet} {c : Nat} (h : rxC s p = some c) :
    (s.count uSecurity 2).rxCtx p 0 State.peerReopened = .go (rxS s p) c := by
  unfold rxC at h
  unfold rxS
  generalize (s.count uSecurity 2).rxCtx p 0 State.peerReopened = r at *
  cases r <;> simp only [rxCtxNo, Option.some.injEq, reduceCtorEq] at h
  subst h
  rfl

theorem rxHead_pass {s : State} {p : Packet} {j : Nat} (h : (s.rxHead p).2 = some j) : s.rxHead p = (s, some j) := by
  simp only [State.rxHead] at h ⊢
  split
  · rename_i e; rw [if_pos e] at h; cases h
  · rename_i e
    rw [if_neg e] at h
    split
    · rename_i e; rw [if_pos e] at h; cases h
    · rename_i e
      rw [if_neg e] at h
      split <;> rename_i e <;> rw [e] at h
      · cases h
      · split
        · rename_i e; simp only [e, if_true] at h; split at h <;> cases h
        · rename_i e; simp only [e, if_false] at h; cases h; rfl

theorem arrives {s : State} {p : Packet} {b : Body} {c : Nat} {x : Ctx} (ho : (s.opened 0 p).bind (decodeBody p.ptype) = some b)
    (h : s.phase = .running ∧ s.fatal = false ∧ (s.rxHead p).2 = some 0 ∧ p.ptype ≠ tyNackBusy ∧
      s.keyFits 0 p ((s.ctxOf p.job p.dest p.src).bind s.ctxs.look) = true ∧
      rxC s { p with body := b } = some c ∧ (rxS s { p with body := b }).ctxs.look c = some x) :
    Arrives s p { p with body := b } (rxS s { p with body := b }) c x := by
  obtain ⟨h1, h2, h3, h4, h5, h6, h7⟩ := h
  cases e : s.opened 0 p with
  | none => rw [e] at ho; cases ho
  | some t =>
    rw [e] at ho
    refine ⟨h1, h2, ⟨s.count uSecurity 2, 0, ?_, ?_⟩, h7⟩
    · simp only [State.rxAuth, rxHead_pass h3, h4, if_false, h5, Bool.not_true, Bool.false_eq_true, e, State.readBody,
        show decodeBody p.ptype t = some b from ho]
    · exact rx_go h6

/-- A multicast packet to group 1, and its key. -/
def mpkt (bs : List Byte) : Packet := { spkt 1 bs with dest := 0xF8000001 }
def groupK : Nat := 0x3ab576ba5d10b10641703bace28829174f3e3a0fdf1a7d32b9feb6215a3391b0
theorem groupK_eq : hkdf384 (toBe 32 12) (Packet.keyInfo (mpkt [])) = groupK := by decide +kernel

theorem groupOpens {s : State} {bs : List Byte} {b : Body} (hj : (s.job 0).keyOf 0 = some 12)
    (ho : ((gcmOpen groupK (Packet.nonce (mpkt bs)) (Packet.aad (mpkt bs)) (natsOf bs)).map bytesOfNats).bind (decodeBody 1) = some b) :
    (s.opened 0 (mpkt bs)).bind (decodeBody 1) = some b := by
  have hi : Packet.keyInfo (mpkt bs) = Packet.keyInfo (mpkt []) := by simp only [Packet.keyInfo, mpkt, spkt]
  have hk : Packet.key (mpkt bs) 12 = groupK := by unfold Packet.key; rw [hi, groupK_eq]
  have hg : (mpkt bs).gen = 0 := rfl
  have hb : (mpkt bs).body = .sealed bs := rfl
  simp only [State.opened, hg, hj, Option.bind, Packet.decrypt, hb, hk]
  exact ho

theorem groupPass {s : State} {p : Packet} {b : Body} (ho : (s.opened 0 p).bind (decodeBody p.ptype) = some b)
    (h : Packet.headOk p = true ∧ dist32 p.ts s.now ≤ 2000000 ∧ s.slotOf p.job = some 0 ∧ s.jobState 0 ≠ jobKeying) :
    s.mcAuth p = (s.count uSecurity 2, some (0, { p with body := b })) := by
  obtain ⟨h1, h2, h3, h4⟩ := h
  cases e : s.opened 0 p with
  | none => rw [e] at ho; cases ho
  | some t =>
    rw [e] at ho
    simp only [State.mcAuth, h1, Nat.not_lt.2 h2, h3, h4, if_false, Bool.not_true, Bool.false_eq_true, e, State.readBody,
      show decodeBody p.ptype t = some b from ho]

/-- A NACK-BUSY, which no key seals (R149). -/
def nackPkt (bs : List Byte) : Packet := { spkt 0x09 bs with cls := 1, length := 0, mtag := 40, body := .none }

theorem cached_now {s : State} {c : Nat} (h : (s.ctxs.look c).all (·.cached) = true) : Cached s c := by
  intro x e
  rw [e] at h
  exact h

theorem arrivesNack {s : State} {p : Packet} {c : Nat} {x : Ctx} {v : State} (hv : v = rxState (s.rxCtx p 0 State.peerReopened)) (h : s.phase = .running ∧ s.fatal = false ∧ (s.rxHead p).2 = some 0 ∧
    p.ptype = tyNackBusy ∧ (match s.rxCtx p 0 State.peerReopened with | .go t d => decide (d = c) && decide (t.ctxs.look c = some x) | _ => false) = true) :
    Arrives s p p v c x := by
  obtain ⟨h1, h2, h3, h4, h5⟩ := h
  split at h5 <;> rename_i e
  · simp only [Bool.and_eq_true, decide_eq_true_eq] at h5
    obtain ⟨rfl, h6⟩ := h5
    subst hv
    rw [e]
    exact ⟨h1, h2, ⟨s, 0, by simp only [State.rxAuth, rxHead_pass h3, h4, if_true], e⟩, h6⟩
  · cases h5

/-- A header of a COLL packet of a kind. -/
def collHead (kind : Nat) : CollHdr := ⟨kind, false, false, false, 3, 0, 4, if kind = 6 then 0x21 else 0, 6, 0, 1, 0, 0, 0, 0, 0, 0⟩

/-- An MG packet to this device. -/
def mgPkt (ty ses ctr : Nat) (tag : List Byte) (m : MgBody) : Packet :=
  let p : Packet := { spkt ty [] with cls := 3, body := .mg none true ses ctr tag m }
  { p with length := (Packet.mgPayload p).length }

/-- Flits, two in each of three codewords; the second of the last fails its CRC. -/
def flit (pay : FlitPay) : Flit := ⟨0, 0, false, 0, 0, 0, pay⟩
def flitData : Flit := flit (.data 0 false 0 0 (List.replicate 304 0))
def flitCredit : Flit := flit (.credit [1, 0, 0, 0, 0, 0, 0, 0])
def flitHello : Flit := flit (.hello ⟨78, 3, 2, 1, true, false, 9, 0, 0, 96, [0, 0, 0, 0, 0, 0, 0, 0]⟩)
def flitTrain : Flit := flit (.train ⟨false, 2, 1, 0, 78, 3⟩)
def flitTime : Flit := flit (.time ⟨8, 4, 2, 78, 9, 0, true, false, false⟩)

def cwA : Nat := 0xe14bd8981e9e7e040abebb671757076414a297a6f2211a5e9ccbb27b77b6659bc18260e4eb8000007413c2ec000000000000000000000000000000000000000000000000000000000000000000000000000000000000000000000000000000000000000000000000000000000000000000000000000000000000000000000000000000000000000000000000000000000000000000000000000000000000000000000000000000000000000000000000000000000000000000000000000000000000000000000000000000000000000000000000000000000000000000000000000000000000000000000000000000000000000000000000000000000000000000000000000000000000000000000000000000000000000000000000000000000000000000000000000000000000000000000000000000000000000000000000000000000000000000000000000000000000000000000000000000010000000000000000000000081524e41e00000000000000000000000000000000000000000000000000000000000000000000000000000000000000000000000000000000000000000000000000000000000000000000000000000000000000000000000000000000000000000000000000000000000000000000000000000000000000000000000000000000000000000000000000000000000000000000000000000000000000000000000000000000000000000000000000000000000000000000000000000000000000000000000000000000000000000000000000000000000000000000000000000000000000000000000000000000000000000000000000000000000000000000000000000000000000000000000000000000000000000000000000000000000000000000000000000000000000000000000000000000000000000000000000000001
def cwB : Nat := 0x847006318f7804e9fa515e4a9015853b2018a44f697c360247a3f03c7f872594b6ea38cb3a000004891b0a500000000000000000000000000000000000000000000000000000000000000000000000000000000000000000000000000000000000000000000000000000000000000000000000000000000000000000000000000000000000000000000000000000000000000000000000000000000000000000000000000000000000000000000000000000000000000000000000000000000000000000000000000000000000000000000000000000000000000000000000000000000000000000000000000000000000000000000000000000000000000000000000000000000000000000000000000000000000000000000000000000000000000000000000000000000000000000000000000000000000000000000000000000000000000000000000000000003000000000000004e0001020100000000000000000000000bd1dc96920000000000000000000000000000000000000000000000000000000000000000000000000000000000000000000000000000000000000000000000000000000000000000000000000000000000000000000000000000000000000000000000000000000000000000000000000000000000000000000000000000000000000000000000000000000000000000000000000000000000000000000000000000000000000000000000000000000000000000000000000000000000000000000000000000000000000000000000000000000000000000000000000000000000000000000000000000000000000000000000000000000000000000000000000000000000000000000000000000000000000000000000000000000000000060000000000000000900010603000000000000004e00000000000000000000000c
def cwC : Nat := 0x77c6692e4fcb829e0110c64fa5365957acbc3c3e27fcd5492074f9d666b5385ad1b54b6e7ee000000000000000000000000000000000000000000000000000000000000000000000000000000000000000000000000000000000000000000000000000000000000000000000000000000000000000000000000000000000000000000000000000000000000000000000000000000000000000000000000000000000000000000000000000000000000000000000000000000000000000000000000000000000000000000000000000000000000000000000000000000000000000000000000000000000000000000000000000000000000000000000000000000000000000000000000000000000000000000000000000000000000000000000000000000000000000000000000000000000000000000000000000000000000000000000000000000000000000000000000000000000000000000000000000000000000000000000082104be0000000000000000000000000000000000000000000000000000000000000000000000000000000000000000000000000000000000000000000000000000000000000000000000000000000000000000000000000000000000000000000000000000000000000000000000000000000000000000000000000000000000000000000000000000000000000000000000000000000000000000000000000000000000000000000000000000000000000000000000000000000000000000000000000000000000000000000000000000000000000000000000000000000000000000000000000000000000000000000000000000000000000000000000000000000000000000000000000000000000010009000000000000004e00000000000000020000000000000004000000000000000800000000000000000000000a
theorem cwA_right : rsDecode cwA = some (cwA % 2 ^ 5140, 0) := by decide +kernel
theorem cwB_right : rsDecode cwB = some (cwB % 2 ^ 5140, 0) := by decide +kernel
theorem cwC_right : rsDecode cwC = some (cwC % 2 ^ 5140, 0) := by decide +kernel

/-- Port 71 is up on one lane, its lane 71. -/
def upLink : State := { put up [(.LL_PORT_STATE_STATE, 71, psUp)] with links := ⟨[(71, { group := [71] })]⟩ }

/-- The CRC-32 byte by byte, in a form that the kernel evaluates without depth. -/
def crcRun : List Byte → Nat → Nat
  | [], c => c
  | b :: r, c => if crcByte c b.toNat = 0 then crcRun r 0 else crcRun r (crcByte c b.toNat)

theorem crcRun_eq (bs : List Byte) : ∀ c, crcRun bs c = bs.foldl (fun c b => crcByte c b.toNat) c := by
  induction bs with
  | nil => intro c; rfl
  | cons b r ih =>
    intro c
    simp only [crcRun, List.foldl_cons]
    split <;> rename_i e
    · rw [ih, e]
    · rw [ih]

theorem crc32_run (bs : List Byte) : crc32 bs = crcRun bs 0xFFFFFFFF ^^^ 0xFFFFFFFF := by rw [crcRun_eq]; rfl

theorem flit_ok {w : Nat} {f : Flit} {y : FlitPay} (hc : crcRun ((leBytes 320 w).take 316) 0xFFFFFFFF ^^^ 0xFFFFFFFF = leAt (leBytes 320 w) 316 4)
    (hy : decodePay (bitsOf (leAt (leBytes 320 w) 0 12) 0 4) (bitsOf (leAt (leBytes 320 w) 0 12) 52 44) (((leBytes 320 w).drop 12).take 304) = some y)
    (hf : f = (let h := leAt (leBytes 320 w) 0 12
      ⟨bitsOf h 4 12, bitsOf h 16 12, bitOf h 28, bitsOf h 29 3, bitsOf h 32 16, bitsOf h 48 4, y⟩)) : decodeFlit w = .ok f := by
  simp only [decodeFlit, crc32_run, hc, hy, hf, ne_eq, not_true_eq_false, if_false]

theorem flit_bad {w : Nat} (hc : crcRun ((leBytes 320 w).take 316) 0xFFFFFFFF ^^^ 0xFFFFFFFF ≠ leAt (leBytes 320 w) 316 4) : decodeFlit w = .bad := by
  simp only [decodeFlit, crc32_run, hc, ne_eq, not_false_eq_true, if_true]

theorem flitIn {s : State} {p m k n : Nat} {c : CodeHalf} {f : Flit} (hd : rsDecode c.word = some (m, k))
    (h : s.phase = .running ∧ s.fatal = false ∧ s.linkRuns p = true ∧ s.cwPlace p c m = some n ∧ (s.link p).cwIn = none)
    (hf : decodeFlit (m / 2 ^ (2560 * bit01 c.second) % 2 ^ 2560) = .ok f) : FlitIn s p c f (s.halfTaken p c ((n + 1) % 512) (some k)) :=
  ⟨h.1, h.2.1, h.2.2.1, _, _, by
    simp only [State.takeHalf, hd, h.2.2.2.1, h.2.2.2.2, hf, Option.any_none, Bool.false_eq_true, if_false], rfl⟩

theorem flitBad {s : State} {p m k n : Nat} {c : CodeHalf} (hd : rsDecode c.word = some (m, k))
    (h : s.cwPlace p c m = some n ∧ (s.link p).cwIn = none)
    (hf : decodeFlit (m / 2 ^ (2560 * bit01 c.second) % 2 ^ 2560) = .bad) :
    s.takeHalf p c = some ((n + 1) % 512, some k, .bad) := by
  simp only [State.takeHalf, hd, h.1, h.2, hf, Option.any_none, Bool.false_eq_true, if_false]

/-- What the blocks above decode to. -/
def jobB : JobBlock := ⟨0, [(0, 77)], [(0, 0)], [6], 64, 1, 0, 0, 0⟩
def treeB : TreeBlock := ⟨0, none, 1, 0, 0, 0, false, 2, 1000, 64, 0, 0x1000000000, []⟩
def imgJ : ImageBlock := ⟨true, 0, 5, 0, 0, 1, 0, List.replicate 16 0, [⟨0x80, 0, 0, 0, 1⟩], [0]⟩
def imgS : ImageBlock := ⟨false, 0, 0, 0, 0, 0, 0, List.replicate 16 0, [⟨0, 0, 0, 0, 0⟩], [0]⟩
def bindB : BindBlock := ⟨0, 0, 0, 5, 0, 0, 0, 6, 0, false, 4094, false⟩

/-- A fabric-manager session 3 is open, and bank 1 names a machine of one node. -/
def upFm : State := {
  up with
  fmSessions := [⟨3, sec 100, 0, none, 11⟩]
  banks := ⟨[((1, 0, 0), 1), ((1, 0, 32), 1), ((1, 0, 64), 1), ((1, 0, 96), 1)]⟩ }


/-- A device with one catcher, which holds a spilled message. -/
def spill : State := {
  put up [(.PW_EN_MASK, 3, 0x1FF)] with
  msgs := ⟨[(8, { space := ⟨0, 2, 0⟩, rem := 9, rank := 0, tag := 0, sent := 64, rdv := false, handle := 0, ctx := 4, mtag := 5, stamp := 0, entry := true, chip := false })]⟩ }

theorem spill_catcher (p : Space) : spill.catcherOf p = some 0 := by
  have h : spill.catchersIn = [0] := by decide +kernel
  simp only [State.catcherOf, h, List.length_singleton, Nat.mod_one]
  rfl

theorem spilled : spill.phase = .running ∧ lowest (spill.spilledRecvs 0 ++ spill.spilledMsgs 0) = some 8 := by
  simp only [State.spilledRecvs, State.spilledMsgs, spill_catcher]
  decide +kernel

theorem shaped {s : State} (h : s.mem.wf = true ∧ s.hostMem.wf = true ∧ s.scratch.wf = true ∧
    (∀ c ∈ s.regs.cells, c.2 < 2 ^ c.1.1.row.width) ∧ ∀ c ∈ s.tallies.cells, c.2 < 2 ^ 64) : s.Inv :=
  ⟨h.1, h.2.1, h.2.2.1, h.2.2.2.1, h.2.2.2.2⟩

/-- Lock 3 is held, and two wait for it. -/
def locked : State := { up with locks := ⟨[(3, { owner := some 5, waiters := [6, 7] })]⟩ }

theorem locked_held : NoIdleWaiter locked := by
  intro n h
  by_cases e : n = 3
  · subst e
    exact absurd h (by decide +kernel)
  · have k : locked.lock n = {} := by
      simp only [State.lock, locked, Tab.look, lookList, if_neg (Ne.symm e), Option.getD_none]
    rw [k]

/-! ## Ill-formed commands, which the checks refuse -/

/-- A tally field with a reserved bit, with a number and no EN, of 25 bits; without EN where a name is required (R110, R126). -/
theorem test_tallyFields_refused :
    tallyFieldOk (2 ^ 23 + 2 ^ 18) = false ∧ tallyFieldOk 1 = false ∧ tallyFieldOk (2 ^ 24) = false ∧ tallyFieldReq 0 = false := by decide

/-- Addresses of 49 bits, words of 33 and 65 bits. -/
theorem test_widths_refused : addr48 (2 ^ 48) = false ∧ word32 (2 ^ 32) = false ∧ word64 (2 ^ 64) = false := by decide

theorem test_put_refused : XferCmd.ok ⟨false, false, 1, 0, 0, 0, 0, 0, 0⟩ = false ∧
    XferCmd.ok ⟨false, false, 0, 1, 0, 0, 0, 0, 0⟩ = false ∧ XferCmd.ok ⟨false, false, 0, 0, 2 ^ 32, 0, 0, 0, 0⟩ = false ∧
    XferCmd.ok ⟨false, false, 0, 0, 0, 0, 2 ^ 48, 0, 0⟩ = false ∧ XferCmd.ok ⟨false, false, 0, 0, 0, 0, 0, 2 ^ 48, 0⟩ = false := by decide

/-- PUTI carries 1 to 16 bytes (R117). -/
theorem test_puti_refused : PutiCmd.ok ⟨false, false, 0, 0, 0, []⟩ = false ∧
    PutiCmd.ok ⟨false, false, 0, 0, 0, List.replicate 17 0⟩ = false := by decide

/-- AOP 8; a 64-bit operand without SIZE64; SIGNED on ADD; SWAP without FETCH; COMPARE without CAS; RESULT without FETCH (R119). -/
theorem test_atomic_refused : AtomicCmd.ok ⟨false, false, true, true, false, 0, 8, 0, 0, 0, 0, 0, 0⟩ = false ∧
    AtomicCmd.ok ⟨false, false, true, false, false, 0, 0, 0, 0, 0, 2 ^ 32, 0, 0⟩ = false ∧
    AtomicCmd.ok ⟨false, false, true, true, true, 0, 0, 0, 0, 0, 0, 0, 0⟩ = false ∧
    AtomicCmd.ok ⟨false, false, false, true, false, 0, 1, 0, 0, 0, 0, 0, 0⟩ = false ∧
    AtomicCmd.ok ⟨false, false, true, true, false, 0, 0, 0, 0, 0, 0, 1, 0⟩ = false ∧
    AtomicCmd.ok ⟨false, false, false, true, false, 0, 0, 0, 0, 0, 0, 0, 64⟩ = false := by decide

theorem test_messages_refused : SendCmd.ok ⟨false, false, false, 0, 0, 0, 0, 0, 2 ^ 32, 0⟩ = false ∧
    RecvCmd.ok ⟨false, true, false, 0, 0, 1, 0, 0, 0, 0⟩ = false ∧ RecvCmd.ok ⟨false, false, true, 0, 0, 0, 0, 0, 1, 0⟩ = false ∧
    CallCmd.ok ⟨0, 256, 0, 0, 0⟩ = false := by decide

/-- FENCE with DEST and scope all; CANCEL and TALLY-ADD with bad tally fields; waits on a tally, a queue and a time out of range (R125 to R128). -/
theorem test_control_refused : FenceCmd.ok ⟨false, 0, 1⟩ = false ∧ CancelCmd.ok ⟨0, 0, 1, 0, 0⟩ = false ∧
    TallyAddCmd.ok ⟨false, 0, 0, 1⟩ = false ∧ WaitCmd.ok ⟨.tally, false, 0, 0, 2 ^ 18, 0, 0⟩ = false ∧
    WaitCmd.ok ⟨.head, false, 0, 0, 2 ^ 16, 0, 0⟩ = false ∧ WaitCmd.ok ⟨.time, true, 0, 0, 0, 0, 0⟩ = false ∧
    WhistleCmd.ok ⟨false, 0, 16, 0⟩ = false ∧ LoopCmd.ok ⟨0, 0, 1, 0, 0⟩ = false ∧ LoopCmd.ok ⟨0, 1, 0, 0, 0⟩ = false ∧
    LoopCmd.ok ⟨0, 1, 1, 2 ^ 31, 0⟩ = false ∧ SkipCmd.ok ⟨0, 2 ^ 23, 4, 1, 0⟩ = false ∧ SkipCmd.ok ⟨0, 2 ^ 23, 0, 0, 0⟩ = false := by decide

/-- A barrier with a COUNT; a broadcast with an OPERATOR; AND of fp32; FIXED min; CTX 4096; LINE without ONWHISTLE (R130, R131). -/
theorem test_collective_refused : CollCmd.ok ⟨false, false, false, 0, 0, 0, 0, 0, 0, 1, 0, 0⟩ = false ∧
    CollCmd.ok ⟨false, false, false, 0, 1, 1, 0, 0, 0, 1, 0, 0⟩ = false ∧ CollCmd.ok ⟨false, false, false, 0, 3, 3, 6, 0, 0, 1, 0, 0⟩ = false ∧
    CollCmd.ok ⟨false, true, false, 0, 3, 1, 6, 0, 0, 1, 0, 0⟩ = false ∧ CollCmd.ok ⟨false, false, false, 0, 3, 0, 6, 4096, 0, 1, 0, 0⟩ = false ∧
    CollCmd.ok ⟨false, false, false, 0, 3, 0, 6, 0, 1, 1, 0, 0⟩ = false := by decide

theorem test_privileged_refused : Priv.ok ⟨false, 0, 2 ^ 24, 0, 0, 0, 0⟩ = false ∧ Cmd.ok (.priv .jobOpen ⟨false, 1, 0, 0, 0, 0, 0⟩) = false ∧
    Cmd.ok (.nop 1) = false := by decide

/-- Queue 65,536; function 253; ferry 64; thread 16; a 41-bit address. -/
theorem test_units_refused : queueOk 65536 = false ∧ funcOk 253 = false ∧ funcOk 512 = false ∧ pathOk (some 255) = false ∧
    threadOk 64 0 = false ∧ threadOk 0 16 = false ∧ RegPath.ok (.internal (2 ^ 40) 0) = false ∧ RegPath.ok (.bar0 253 0 8 none) = false ∧
    RegPath.ok (.bar2 0 0 8 (some (2 ^ 64))) = false := by decide

theorem test_commands_refused : Instr.wf (.nop 65536 0) = false ∧ Instr.wf (.nop 0 1) = false ∧
    Instr.wf (.addi 0 0 0 0 65536) = false ∧ Instr.wf (.alu 0 0 32 0 0 0 false 0) = false ∧ Instr.wf (.br 0 0 8 false 0 0) = false ∧
    Instr.wf (.ld 0 0 0 0 0 0 4096) = false ∧ Instr.wf (.lkAcquire 4096 0 0) = false ∧ Instr.wf (.unitResetPort 72) = false ∧
    Instr.wf (.hiVfWrite 0 0 0) = false ∧ Instr.wf (.ecSelWrite 295 0 0) = false ∧ Instr.wf (.mgSensThrWrite 147 0) = false := by decide

/-! ## Encodings that the manual writes out (chapter 14, the CALL handler; the defined words) -/

theorem test_word_movi : wordOf (fmtB 0x0C 8 0 0) = some 0x31000000 := by decide
theorem test_word_movk : wordOf (fmtB 0x0D 8 1 0x0080) = some 0x35010080 ∧ wordOf (fmtB 0x0D 8 2 0x0003) = some 0x35020003 := by decide
theorem test_word_amo : wordOf (fmtA 0x03 9 8 1 0 false 6) = some 0x0D280806 := by decide
theorem test_word_done : wordOf (fmtA 0x04 0 0 0 0 false 2) = some 0x10000002 := by decide
theorem test_words_defined : wordDefined 0x31000000 = true ∧ wordDefined 0x35010080 = true ∧ wordDefined 0x0D280806 = true ∧
    wordDefined 0x10000002 = true ∧ wordDefined (0x3F * 2 ^ 26) = false := by decide

/-! ## Addresses that the manual works out -/

/-- Queue 4,660 has its registers at 0x01_0004_8D00 (chapter 1); lock 1,000 at 0x02_000F_8140, its group at 0x02_0003_C000 (chapter 15). -/
theorem test_register_addresses : (regAt 0x0100048D00).map (·.2) = some 4660 ∧ regAt 0x02000F8140 = some (.LK_LOCK, 1000) ∧
    regAt 0x020003C000 = some (.LK_GROUP, 3) := by decide +kernel

/-- F17 thread 5 is identity 0x0115, virtual function 7 of HA 0x4007, and lock 1,000 lies in group 3 (chapter 15). -/
theorem test_lock_identities : identThread 17 5 = 0x0115 ∧ identHost 7 = 0x4007 ∧ lockGroup 1000 = 3 := by decide

/-! ## Results that the manual works out -/

/-- The CALL handler's address register: MOVI 0, then MOVK 1 and MOVK 2 give 0x03_0080_0000 (chapter 14). -/
theorem test_movk_builds_address : (match exec (.movk 0 1 8 2 3) (run (fmtB 0x0D 8 2 3) (inv0 [(8, 0x800000)])) with
    | .next t => ((t.thread 0 1).inv.map fun v => v.reg 8) | _ => none) = some 0x0300800000 := by decide +kernel

/-- MULH, SRA, MIN against MINU, CLZ of 0, and a rotation of the bytes (R370). -/
theorem test_alu : aluOp 0x09 (2 ^ 64 - 1) 2 = 1 ∧ aluOp 0x07 (2 ^ 63) 4 = 0xF800000000000000 ∧ aluOp 0x0A (2 ^ 64 - 1) 0 = 2 ^ 64 - 1 ∧
    aluOp 0x0C (2 ^ 64 - 1) 0 = 0 ∧ aluOp 0x0E 0 0 = 64 ∧ aluOp 0x10 0x0102 0 = 0x0201000000000000 := by decide +kernel

/-- ADDI sign-extends its immediate, and g0 stays 0 (R361, R370). -/
theorem test_addi_signed : (match exec (.addi 0 1 3 1 65535) (run (fmtB 0x08 3 1 65535) (inv0 [(1, 5)])) with
    | .next t => ((t.thread 0 1).inv.map fun v => (v.reg 3, v.reg 0, v.pc)) | _ => none) = some (4, 0, 6145) := by decide +kernel

/-- A doorbell of 0x10 on a 64-entry ring whose indexes stand at 0xFFFF_FFF0 is accepted (chapter 4). -/
theorem test_doorbell_wraps :
    let s := put up [(.QU_PI_PI, 3, 0xFFFFFFF0), (.QU_CI_CI, 3, 0xFFFFFFF0), (.QU_HEAD_HEAD, 3, 0xFFFFFFF0)]
    (match exec (.doorbell 0 3 0 4 0x10) s with | .next t => t.rd .QU_PI_PI 3 | _ => 0) = 0x10 := by decide +kernel

/-- The controller's signal at HOPS 4, OWD 9,920 ticks, NPKT 8, NMARK 2 is 173/256, and 150 Gb/s becomes 99.3 Gb/s (chapter 6, R180). -/
theorem test_congestion : State.reset.ccSignal { cum := 0, sack := [], npkt := 8, nmark := 2, hops := 4, owd := 9920, echoTs := 0, grantTag := none, grant := 0 } = 173 ∧
    (State.reset.ccStep { rate := 1500 } 173).rate = 993 := by decide +kernel

/-- SRTT 1.2 µs and RTTVAR 0.1 µs give RTO 4 µs (chapter 6). -/
theorem test_rto_minimum : State.reset.rtoOf { srtt := some 4800, rttvar := 400 } = us 4 := by decide +kernel

/-- R 2^25, A 1.0, C 1.0 and B −2^25 sum exactly to 2.0 (chapter 9). -/
theorem test_exact_sum : partRound 6 (partAdd (partAdd (toPartial 6 0x4C000000) (partAdd (toPartial 6 0x3F800000) (toPartial 6 0x3F800000)))
    (toPartial 6 0xCC000000)) = 0x40000000 := by decide +kernel

/-- At EXP 80 an element of 2.0 is windowed with W = 2^70, and one of 2^−100 is escaped (chapter 9). -/
theorem test_windows : (toPartial 6 0x40000000).s = 2 ^ 150 ∧ windowed 80 (toPartial 6 0x40000000) = true ∧ (2 : Int) ^ 150 / 2 ^ 80 = 2 ^ 70 ∧
    windowed 80 (toPartial 6 0x0D800000) = false := by decide +kernel

/-- Position 100 gets its key from position 1, and position 4,095 from 63 (chapter 3). -/
theorem test_key_tree : (100 - 1) / 64 = 1 ∧ underPos 3 4095 63 = true ∧ underPos 3 4095 62 = false := by decide

/-- Node (2, 5, 11, 17) is 568,482 and (9, 5, 3, 0) is 3,241 (chapter 1): their coordinates. -/
theorem test_coordinates : (List.range 4).map (coordOf 568482) = [2, 5, 11, 17] ∧ (List.range 4).map (coordOf 3241) = [9, 5, 3, 0] := by decide

/-- 1,048,576 ticks are 262,144 ns (chapter 0). -/
theorem test_ticks : us 262144 = 1000 * 1048576 := by decide

/-- A parent at a = 1,000,000, b = 1,001,210, c = 1,004,000, d = 1,004,790 is 210 ticks ahead (chapter 13). -/
theorem test_servo_offset : (((1001210 : Int) - 1000000) + (1004000 - 1004790)) / 2 = 210 := by decide

/-- NOP completes: the head passes its slot, and its LTALLY counts (R87, R125). -/
theorem test_nop : (match exec (.nop 3 (2 ^ 23 + 5)) up with | .next t => (t.rd .QU_HEAD_HEAD 3, t.tally 5) | _ => (0, 0)) = (1, 1) := by
  decide +kernel

/-- TALLY-ADD wraps modulo 2^64 (R105, R126). -/
theorem test_tallyAdd_wraps : (match exec (.tallyAdd 3 ⟨false, 0, 2 ^ 23 + 5, 3⟩) { up with tallies := ⟨[(5, 2 ^ 64 - 1)]⟩ } with
    | .next t => t.tally 5 | _ => 0) = 2 := by decide +kernel

/-- A second ACQUIRE of a held lock waits; the release hands it over (R404). -/
theorem test_lock_handed_over : let s := put up [(.LK_GROUP_BOUND, 0, 1)]
    let t := ((s.acquireLock 9 5).1.acquireLock 9 6).1
    ((t.lock 9).owner, (t.lock 9).waiters, ((t.releaseLock 9 false).lock 9).owner) = (some 5, [6], some 6) := by decide +kernel

/-- A threshold write with WARN above CRIT is rejected whole and recorded (R464). -/
theorem test_threshold_rejected : (match exec (.mgSensThrWrite 0 (10 * 2 ^ 32 + 20 * 2 ^ 16)) up with
    | .next t => (t.rd .MG_SENS_THR_WARN 0, t.rd .MG_SENS_THR_CRIT 0, t.ring.length) | _ => (0, 0, 0)) = (0x7FFF, 0x7FFF, 1) := by decide +kernel

/-- CRC-32 of the nine digits, its well-known check value (R453). -/
theorem test_crc32 : crc32 [0x31, 0x32, 0x33, 0x34, 0x35, 0x36, 0x37, 0x38, 0x39] = 0xCBF43926 := by decide +kernel

/-- SHA-384 of abc (FIPS 180-4), AES-256-GCM of nothing under the zero key (the first case of its 256-bit set), and the signature of the message
sample under P-384 with SHA-384 (RFC 6979). -/
theorem test_sha384 :
    sha384 [0x61, 0x62, 0x63] = 0xcb00753f45a35e8bb5a03d699ac65007272c32ab0eded1631a8b605a43ff5bed8086072ba1e7cc2358baeca134c825a7 := by decide +kernel
theorem test_gcm : ofBe (gcmSeal 0 (List.replicate 12 0) [] []) = 0x530f8afbc74536b9a963b4f1c4cb738b := by decide +kernel
theorem test_ecdsa : signedBy
    (leBytes 97 0x2047263325fd4473fed4e03a1c238b28b19d1c3f4ba84cf5b9dff96793a508678921c6c09aefa84e24577d2db7d9158013bc80545154a26460865590eaf0f8de640c306b28e5aa062ee092aec48b9adaa57f429f02188656a4194e5b414e3aec04)
    (leBytes 6 0x656c706d6173)
    (leBytes 48 0x46befa801edd366ef9ac442e1548a6813c13ad95eac4643da79fce660614883f6b9191c6566e73d4aab8eca592bbed94)
    (leBytes 48 0xc88a62381ac7827b9e676e7845c129a34fa9a3d051633b20264562190a740e138f130326db40fea1ce78f115eb4aef99) = true := by decide +kernel

/-- Nothing decodes from bits: no row of the table gives any. -/
theorem test_decodeTableWord : decodeTableWord 32 0x31000000 = none := rfl

/-- An empty queue idles. -/
theorem test_idle : (match step State.reset with | .next t => t.pending | _ => [.mainResetComplete]) = [] := by decide +kernel

/-! ## Witnesses: states and operands that meet the hypotheses of the statements, clause by clause -/

theorem witness_controlCommandsComplete :
    (∃ s : State, ∃ q t, Starts s q 1 (.nop t) (.nop t)) ∧
    (∃ s : State, ∃ q t, Starts s q 1 (.endCmd t) (.endCmd t)) ∧
    (∃ s : State, ∃ q c, Starts s q 1 (.fence c) (.fence c)) ∧
    (∃ s : State, ∃ q c, Starts s q 1 (.tallyAdd c) (.tallyAdd c) ∧ c.after = false) ∧
    (∃ s : State, ∃ q c, Starts s q 1 (.tallyAdd c) (.tallyAdd c) ∧ c.after = true) ∧
    (∃ s : State, ∃ q c, Starts s q 1 (.cancel c) (.cancel c) ∧ idxBefore c.index (index s q) = true ∧
      (s.q q).secondSlot c.index = false ∧ ((s.q q).started.all fun e => decide (e.index ≠ c.index) || cancellable e.cmd) = true ∧
      ((s.q q).loops.all fun l => decide (l.index ≠ c.index)) = true) ∧
    (∃ s : State, ∃ q stop lt tt n tmo v, (let w : WaitCmd := ⟨.tally, stop, lt, tt, n, tmo, v⟩; Starts s q 1 (.wait w) (.wait w))) ∧
    (∃ s : State, ∃ q stop lt tt n tmo v, (let w : WaitCmd := ⟨.head, stop, lt, tt, n, tmo, v⟩; Starts s q 1 (.wait w) (.wait w) ∧
      s.waitQueueOk q (n % 65536) = true)) ∧
    (∃ s : State, ∃ q lt v, (let w : WaitCmd := ⟨.time, false, lt, 0, 0, 0, v⟩; Starts s q 1 (.wait w) (.wait w))) ∧
    (∃ s : State, ∃ q c body, Starts s q 1 (.loop c) (.loop c) ∧ s.loopBody q (index s q) c = some (body, true)) ∧
    (∃ s : State, ∃ q c, Starts s q 1 (.skipIf c) (.skipIf c) ∧ 1 + c.skip ≤ s.slotsAhead q ∧
      skipCond c.cond (s.tally (tfNum c.tally)) c.value = false) ∧
    (∃ s : State, ∃ q c, Starts s q 1 (.skipIf c) (.skipIf c) ∧ 1 + c.skip ≤ s.slotsAhead q ∧
      skipCond c.cond (s.tally (tfNum c.tally)) c.value = true) :=
  ⟨⟨up, 3, 0, starts (by decide +kernel)⟩,
  ⟨up, 3, 0, starts (by decide +kernel)⟩,
  ⟨up, 3, ⟨false, 0, 0⟩, starts (by decide +kernel)⟩,
  ⟨up, 3, ⟨false, 0, 2 ^ 23 + 63, 1⟩, starts (by decide +kernel), by decide +kernel⟩,
  ⟨up, 3, ⟨true, 0, 2 ^ 23 + 63, 1⟩, starts (by decide +kernel), by decide +kernel⟩,
  ⟨up.updQ 3 fun x => { x with cursor := 2 }, 3, ⟨0, 1, 0, 0, 0⟩, starts (by decide +kernel), by decide +kernel⟩,
  ⟨up, 3, false, 0, 0, 63, 0, 0, starts (by decide +kernel)⟩,
  (let s := put (up.updQ 4 fun x => { x with noJob := false }) [(.QU_STATE_STATE, 4, qRunning)]; ⟨s, 3, false, 0, 0, 4, 0, 0,
    starts (by decide +kernel), by decide +kernel⟩),
  ⟨up, 3, 0, 0, starts (by decide +kernel)⟩,
  (let s := up.updQ 3 fun x => { x with fetched := ⟨[(1, blk 32 [])]⟩ }; ⟨s, 3, ⟨0, 1, 2, 0, 0⟩, [(1, 1)], starts (by decide +kernel),
    by decide +kernel⟩),
  ⟨up, 3, ⟨0, 2 ^ 23, 1, 1, 0⟩, starts (by decide +kernel), by decide +kernel⟩,
  ⟨up, 3, ⟨0, 2 ^ 23, 0, 1, 0⟩, starts (by decide +kernel), by decide +kernel⟩⟩

theorem witness_oneSidedCommandsComplete :
    (∃ s : State, ∃ q c d u x, Starts s q 1 (.put c) (.put d) ∧ Takes s q d.dest 0 u x) ∧
    (∃ s : State, ∃ q c d u x, Starts s q 1 (.puti c) (.puti d) ∧ Takes s q d.dest 0 u x) ∧
    (∃ s : State, ∃ q c d u x v, Starts s q 1 (.get c) (.get d) ∧ Takes s q d.dest (landUnits d.length) u x ∧
      State.preRange q d.laddr (min d.length 65536) true u = (v, none)) ∧
    (∃ s : State, ∃ q c d u x, Starts s q 1 (.atomic c) (.atomic d) ∧ c.fetch = false ∧ d.fetch = false ∧ Takes s q d.dest 0 u x) ∧
    (∃ s : State, ∃ q c d u x v, (let n := if d.size64 then 8 else 4; Starts s q 2 (.atomic c) (.atomic d) ∧ c.fetch = true ∧
      d.fetch = true ∧ Takes s q d.dest (landUnits n) u x ∧ State.preRange q d.result n true u = (v, none))) :=
  ⟨⟨up, 3, ⟨false, false, 0, 0, 0x1002, 256, 0, 0, 64⟩, ⟨false, false, 0, 0, 0x1002, 256, 0, 0, 64⟩, _, _, starts (by decide +kernel),
    takes ⟨by decide +kernel, by decide +kernel, pairSome (by decide +kernel)⟩⟩,
  ⟨up, 3, ⟨false, false, 0x1002, 256, 0, [1]⟩, ⟨false, false, 0x1002, 256, 0, [1]⟩, _, _, starts (by decide +kernel),
    takes ⟨by decide +kernel, by decide +kernel, pairSome (by decide +kernel)⟩⟩,
  ⟨up, 3, ⟨false, false, 0, 0, 0x1002, 256, 0, 0, 64⟩, ⟨false, false, 0, 0, 0x1002, 256, 0, 0, 64⟩, _, _, _, starts (by decide +kernel),
    takes ⟨by decide +kernel, by decide +kernel, pairSome (by decide +kernel)⟩, pair (by decide +kernel)⟩,
  ⟨up, 3, ⟨false, false, false, true, false, 0, 0, 0x1002, 256, 0, 1, 0, 0⟩, ⟨false, false, false, true, false, 0, 0, 0x1002, 256, 0, 1,
    0, 0⟩, _, _, starts (by decide +kernel), by decide +kernel, by decide +kernel, takes ⟨by decide +kernel, by decide +kernel,
    pairSome (by decide +kernel)⟩⟩,
  ⟨up, 3, ⟨false, false, true, true, false, 0, 0, 0x1002, 256, 0, 1, 0, 0⟩, ⟨false, false, true, true, false, 0, 0, 0x1002, 256, 0, 1, 0,
    0⟩, _, _, _, starts (by decide +kernel), by decide +kernel, by decide +kernel, takes ⟨by decide +kernel, by decide +kernel,
    pairSome (by decide +kernel)⟩, pair (by decide +kernel)⟩⟩

theorem witness_messageCommandsComplete :
    (∃ s : State, ∃ q c d u x, Starts s q 2 (.send c) (.send d) ∧ d.rdv = false ∧ d.length ≤ s.rd .CT_CFG_EAGER_KIB * 1024 ∧
      Takes s q d.dest 0 u x) ∧
    (∃ s : State, ∃ q c d u x v, Starts s q 2 (.send c) (.send d) ∧ ((d.rdv = true ∨ s.rd .CT_CFG_EAGER_KIB * 1024 < d.length)) ∧
      Takes s q d.dest 0 u x ∧ State.preRange q d.src d.length false u = (v, none)) ∧
    (∃ s : State, ∃ q c d k u v, Starts s q 2 (.postrecv c) (.postrecv d) ∧ (let p : Space := ⟨s.rd .QU_CFG_JOB_SLOT q, (s.q q).ep,
      d.comm⟩; s.catcherOf p = some k ∧ s.canMatch (s.rd .QU_CFG_JOB_SLOT q) = true ∧ State.preRange q d.buf d.length true s = (u, none) ∧
      (if d.status = 0 then (u, none) else State.preRange q d.status 32 true u) = (v, none))) ∧
    (∃ s : State, ∃ q c, Starts s q 1 (.whistle c) (.whistle c) ∧ (let b := s.job (s.rd .QU_CFG_JOB_SLOT q);
      (let id := s.rd .GLB_JOB_JOB_ID (s.rd .QU_CFG_JOB_SLOT q); bitOf b.whistleMask c.line = true ∧ s.now + us 10 ≤ c.time ∧
      s.lineFull c.line ⟨c.time, some id⟩ = false))) ∧
    (∃ s : State, ∃ q c d x u v, Starts s q 1 (.collective c) (.collective d) ∧ (let size := dtSize d.dtype; s.colls.look d.ctx = some x ∧
      x.slot = s.rd .QU_CFG_JOB_SLOT q ∧ x.vecLen d * size ≤ x.maxBytes ∧ s.rd .HD_CTX_STATE d.ctx ≠ hcFailed ∧
      (x.insts.filter fun i => !i.done).length < 2 ∧ s.collBuf q d.src (x.vecLen d * size) (x.usesSrc d) false = (u, none) ∧
      u.collBuf q d.dst (((x.ownRange d).2 - (x.ownRange d).1) * size) (x.usesDst d) true = (v, none))) ∧
    (∃ s : State, ∃ q c h, Starts s q 1 (.call c) (.call c) ∧ (let f := s.rd .QU_CFG_FERRY q; (let slot := s.rd .QU_CFG_JOB_SLOT q;
      s.servesJob f slot = true ∧ (s.ferry f).entries.look c.handler = some h ∧ h.callable = true ∧ 0x80 ≤ c.handler ∧
      s.dispatchRoom f = true))) :=
  ⟨⟨up, 3, ⟨false, false, false, 0, 0x1002, 0, 0, 64, 0, 0⟩, ⟨false, false, false, 0, 0x1002, 0, 0, 64, 0, 0⟩, _, _,
    starts (by decide +kernel), by decide +kernel, by decide +kernel, takes ⟨by decide +kernel, by decide +kernel,
    pairSome (by decide +kernel)⟩⟩,
  ⟨up, 3, ⟨false, false, true, 0, 0x1002, 0, 0, 64, 0, 0⟩, ⟨false, false, true, 0, 0x1002, 0, 0, 64, 0, 0⟩, _, _, _,
    starts (by decide +kernel), Or.inl rfl, takes ⟨by decide +kernel, by decide +kernel, pairSome (by decide +kernel)⟩,
    pair (by decide +kernel)⟩,
  ⟨up, 3, ⟨false, true, true, 0, 0, 0, 0, 64, 0, 0⟩, ⟨false, true, true, 0, 0, 0, 0, 64, 0, 0⟩, _, _, _, starts (by decide +kernel),
    (Option.some_get (catcher (by decide +kernel))).symm, by decide +kernel, pair (by decide +kernel), if_pos rfl⟩,
  ⟨up, 3, ⟨false, 0, 0, us 10⟩, starts (by decide +kernel), by decide +kernel⟩,
  ⟨upColl, 3, ⟨false, false, false, 0, 3, 0, 0, 6, 0, 1, 0, 64⟩, ⟨false, false, false, 0, 3, 0, 0, 6, 0, 1, 0, 64⟩, coll0, _, _,
    starts (by decide +kernel), by decide +kernel, by decide +kernel, by decide +kernel, by decide +kernel, by decide +kernel,
    pair (by decide +kernel), pair (by decide +kernel)⟩,
  ⟨up, 3, ⟨0, 0x80, 1, 2, 3⟩, _, starts (by decide +kernel), by decide +kernel, rfl, by decide +kernel⟩⟩

theorem witness_registerInstructionsComplete :
    (∃ s : State, ∃ s' f t rd ra rb pg gn fn v, Issues s s' f t (fmtA 0x00 rd ra rb pg gn fn) v ∧ v.prd pg ≠ gn) ∧
    (∃ s : State, ∃ s' f t rd ra rb pg gn fn v, Issues s s' f t (fmtA 0x01 rd ra rb pg gn fn) v ∧ v.prd pg ≠ gn) ∧
    (∃ s : State, ∃ s' f t rd ra rb pg gn fn v, Issues s s' f t (fmtA 0x02 rd ra rb pg gn fn) v ∧ v.prd pg ≠ gn) ∧
    (∃ s : State, ∃ s' f t rd ra rb pg gn v, Issues s s' f t (fmtA 0x04 rd ra rb pg gn 0) v ∧ v.prd pg ≠ gn) ∧
    (∃ s : State, ∃ s' f t rd ra rb pg gn v, Issues s s' f t (fmtA 0x04 rd ra rb pg gn 1) v ∧ v.prd pg ≠ gn) ∧
    (∃ s : State, ∃ s' f t rd ra rb pg gn v, Issues s s' f t (fmtA 0x04 rd ra rb pg gn 3) v ∧ v.prd pg ≠ gn) ∧
    (∃ s : State, ∃ s' f t rd ra rb pg gn v, Issues s s' f t (fmtA 0x04 rd ra rb pg gn 4) v ∧ v.prd pg ≠ gn) ∧
    (∃ s : State, ∃ s' f t rd ra imm v, Issues s s' f t (fmtB 0x08 rd ra imm) v) ∧
    (∃ s : State, ∃ s' f t rd ra imm v, Issues s s' f t (fmtB 0x09 rd ra imm) v) ∧
    (∃ s : State, ∃ s' f t rd ra imm v, Issues s s' f t (fmtB 0x0A rd ra imm) v) ∧
    (∃ s : State, ∃ s' f t rd ra imm v, Issues s s' f t (fmtB 0x0B rd ra imm) v) ∧
    (∃ s : State, ∃ s' f t rd ra imm v, Issues s s' f t (fmtB 0x0C rd ra imm) v) ∧
    (∃ s : State, ∃ s' f t rd k imm v, Issues s s' f t (fmtB 0x0D rd k imm) v) ∧
    (∃ s : State, ∃ s' f t rd ra imm v, Issues s s' f t (fmtB 0x0E rd ra imm) v) ∧
    (∃ s : State, ∃ s' f t rd ra imm v, Issues s s' f t (fmtB 0x0F rd ra imm) v) :=
  ⟨⟨run (fmtA 0x00 3 1 2 0 false 0) (inv0 []), _, 0, 1, 3, 1, 2, 0, false, 0, inv0 [], issues (by decide +kernel), by decide +kernel⟩,
  ⟨run (fmtA 0x01 3 1 2 0 false 0) (inv0 []), _, 0, 1, 3, 1, 2, 0, false, 0, inv0 [], issues (by decide +kernel), by decide +kernel⟩,
  ⟨run (fmtA 0x02 3 1 2 0 false 0) (inv0 []), _, 0, 1, 3, 1, 2, 0, false, 0, inv0 [], issues (by decide +kernel), by decide +kernel⟩,
  ⟨run (fmtA 0x04 3 1 2 0 false 0) (inv0 []), _, 0, 1, 3, 1, 2, 0, false, inv0 [], issues (by decide +kernel), by decide +kernel⟩,
  ⟨run (fmtA 0x04 3 1 2 0 false 1) (inv0 []), _, 0, 1, 3, 1, 2, 0, false, inv0 [], issues (by decide +kernel), by decide +kernel⟩,
  ⟨run (fmtA 0x04 3 1 2 0 false 3) (inv0 []), _, 0, 1, 3, 1, 2, 0, false, inv0 [], issues (by decide +kernel), by decide +kernel⟩,
  ⟨run (fmtA 0x04 3 1 2 0 false 4) (inv0 []), _, 0, 1, 3, 1, 2, 0, false, inv0 [], issues (by decide +kernel), by decide +kernel⟩,
  ⟨run (fmtB 0x08 3 1 65535) (inv0 []), _, 0, 1, 3, 1, 65535, inv0 [], issues (by decide +kernel)⟩,
  ⟨run (fmtB 0x09 3 1 65535) (inv0 []), _, 0, 1, 3, 1, 65535, inv0 [], issues (by decide +kernel)⟩,
  ⟨run (fmtB 0x0A 3 1 65535) (inv0 []), _, 0, 1, 3, 1, 65535, inv0 [], issues (by decide +kernel)⟩,
  ⟨run (fmtB 0x0B 3 1 65535) (inv0 []), _, 0, 1, 3, 1, 65535, inv0 [], issues (by decide +kernel)⟩,
  ⟨run (fmtB 0x0C 3 0 65535) (inv0 []), _, 0, 1, 3, 0, 65535, inv0 [], issues (by decide +kernel)⟩,
  ⟨run (fmtB 0x0D 3 3 65535) (inv0 []), _, 0, 1, 3, 3, 65535, inv0 [], issues (by decide +kernel)⟩,
  ⟨run (fmtB 0x0E 3 1 65535) (inv0 []), _, 0, 1, 3, 1, 65535, inv0 [], issues (by decide +kernel)⟩,
  ⟨run (fmtB 0x0F 3 1 63) (inv0 []), _, 0, 1, 3, 1, 63, inv0 [], issues (by decide +kernel)⟩⟩

theorem witness_memoryInstructionsComplete :
    (∃ s : State, ∃ s' f t rd ra rb pg gn fn v, Issues s s' f t (fmtA 0x03 rd ra rb pg gn fn) v ∧ v.prd pg ≠ gn ∧
      (let n := if bitOf fn 2 then 8 else 4; (let old := leNat (s'.readLocal f (v.reg ra) n);
      s'.accessFault f v (v.reg ra) n true = none))) ∧
    (∃ s : State, ∃ s' f t rd ra sz mo off v, Issues s s' f t (fmtC 0x10 rd ra sz mo off) v ∧ (let a := offAddr (v.reg ra) off;
      s'.accessFault f v a (2 ^ sz) true = none)) ∧
    (∃ s : State, ∃ s' f t rd ra sz mo off v, Issues s s' f t (fmtC 0x11 rd ra sz mo off) v ∧ (let a := offAddr (v.reg ra) off;
      s'.accessFault f v a (2 ^ sz) true = none)) ∧
    (∃ s : State, ∃ s' f t rs ra sz mo off v, Issues s s' f t (fmtC 0x12 rs ra sz mo off) v ∧ (let a := offAddr (v.reg ra) off;
      s'.accessFault f v a (2 ^ sz) false = none)) :=
  ⟨⟨run (fmtA 0x03 3 1 2 0 false 4) (inv0 [(1, 0x3FF8)]), _, 0, 1, 3, 1, 2, 0, false, 4, inv0 [(1, 0x3FF8)], issues (by decide +kernel),
    by decide +kernel, by decide +kernel⟩,
  ⟨run (fmtC 0x10 3 1 3 0 0) (inv0 [(1, 0x3FF8)]), _, 0, 1, 3, 1, 3, 0, 0, inv0 [(1, 0x3FF8)], issues (by decide +kernel),
    by decide +kernel⟩,
  ⟨run (fmtC 0x11 3 1 3 0 0) (inv0 [(1, 0x3FF8)]), _, 0, 1, 3, 1, 3, 0, 0, inv0 [(1, 0x3FF8)], issues (by decide +kernel),
    by decide +kernel⟩,
  ⟨run (fmtC 0x12 3 1 3 0 0) (inv0 [(1, 0x3FF8)]), _, 0, 1, 3, 1, 3, 0, 0, inv0 [(1, 0x3FF8)], issues (by decide +kernel),
    by decide +kernel⟩⟩

theorem witness_controlInstructionsComplete :
    (∃ s : State, ∃ s' f t p n rsv off v, Issues s s' f t (fmtD 0x18 p n rsv off) v ∧ v.prd p = n) ∧
    (∃ s : State, ∃ s' f t p n rsv off v k, Issues s s' f t (fmtD 0x18 p n rsv off) v ∧ v.prd p ≠ n ∧
      (v.pc : Int) + signedOf 20 off = (k : Nat) ∧ v.inRegion k = true) ∧
    (∃ s : State, ∃ s' f t p n rsv off v, Issues s s' f t (fmtD 0x19 p n rsv off) v ∧ v.prd p = n) ∧
    (∃ s : State, ∃ s' f t p n rsv off v k, Issues s s' f t (fmtD 0x19 p n rsv off) v ∧ v.prd p ≠ n ∧
      (v.pc : Int) + signedOf 20 off = (k : Nat) ∧ v.inRegion k = true) ∧
    (∃ s : State, ∃ s' f t rd ra rb pg gn fn v, Issues s s' f t (fmtA 0x05 rd ra rb pg gn fn) v ∧ v.prd pg ≠ gn ∧
      v.inRegion (v.reg ra % 16384) = true) ∧
    (∃ s : State, ∃ s' f t rd ra rb pg gn v, Issues s s' f t (fmtA 0x04 rd ra rb pg gn 5) v ∧ v.prd pg ≠ gn) ∧
    (∃ s : State, ∃ s' f t rd ra rb pg gn v, Issues s s' f t (fmtA 0x04 rd ra rb pg gn 2) v ∧ v.prd pg ≠ gn) :=
  ⟨⟨run (fmtD 0x18 0 true 0 2) (inv0 []), _, 0, 1, 0, true, 0, 2, inv0 [], issues (by decide +kernel), by decide +kernel⟩,
  ⟨run (fmtD 0x18 0 false 0 2) (inv0 []), _, 0, 1, 0, false, 0, 2, inv0 [], 6146, issues (by decide +kernel), by decide +kernel⟩,
  ⟨run (fmtD 0x19 0 true 0 2) (inv0 []), _, 0, 1, 0, true, 0, 2, inv0 [], issues (by decide +kernel), by decide +kernel⟩,
  ⟨run (fmtD 0x19 0 false 0 2) (inv0 []), _, 0, 1, 0, false, 0, 2, inv0 [], 6146, issues (by decide +kernel), by decide +kernel⟩,
  ⟨run (fmtA 0x05 3 1 0 0 false 0) (inv0 [(1, 16383)]), _, 0, 1, 3, 1, 0, 0, false, 0, inv0 [(1, 16383)], issues (by decide +kernel),
    by decide +kernel⟩,
  ⟨run (fmtA 0x04 3 1 2 0 false 5) (inv0 []), _, 0, 1, 3, 1, 2, 0, false, inv0 [], issues (by decide +kernel), by decide +kernel⟩,
  ⟨run (fmtA 0x04 3 1 2 0 false 2) (inv0 []), _, 0, 1, 3, 1, 2, 0, false, inv0 [], issues (by decide +kernel), by decide +kernel⟩⟩

theorem witness_guardedOffInstructionsGoOn :
    ∃ c s s' f t fields pg gn v, guardOf c = some (f, t, fields, pg, gn) ∧ Issues s s' f t fields v ∧ v.prd pg = gn :=
  ⟨.alu 0 1 3 1 2 0 true 0, run (fmtA 0x00 3 1 2 0 true 0) (inv0 []), _, 0, 1, _, 0, true, inv0 [], rfl, issues (by decide +kernel),
    by decide +kernel⟩

theorem witness_registerUnitOperationsComplete :
    (∃ s : State, ∃ s' f t rd rs ra w v, IssuesUnit s s' f t rd rs ra 3 0 w v ∧ v.reg rs < 262144 ∧ s'.invTally v (v.reg rs) = true) ∧
    (∃ s : State, ∃ s' f t rd rs ra w v, IssuesUnit s s' f t rd rs ra 3 1 w v ∧ v.reg rs < 262144 ∧ s'.invTally v (v.reg rs) = true) ∧
    (∃ s : State, ∃ s' f t rd rs ra v, IssuesUnit s s' f t rd rs ra 3 2 true v ∧ v.reg rs < 262144 ∧ s'.invTally v (v.reg rs) = true) ∧
    (∃ s : State, ∃ s' f t rd rs ra v u, IssuesUnit s s' f t rd rs ra 4 0 true v ∧ v.reg rs < 4096 ∧ s'.invLock f v (v.reg rs) = true ∧
      s'.acquireLock (v.reg rs) (identThread f t) = (u, .held)) ∧
    (∃ s : State, ∃ s' f t rd rs ra v u, IssuesUnit s s' f t rd rs ra 4 0 true v ∧ v.reg rs < 4096 ∧ s'.invLock f v (v.reg rs) = true ∧
      s'.acquireLock (v.reg rs) (identThread f t) = (u, .queued)) ∧
    (∃ s : State, ∃ s' f t rd rs ra w v, IssuesUnit s s' f t rd rs ra 4 1 w v ∧ v.reg rs < 4096 ∧ s'.invLock f v (v.reg rs) = true ∧
      (s'.lock (v.reg rs)).owner = none) ∧
    (∃ s : State, ∃ s' f t rd rs ra w v, IssuesUnit s s' f t rd rs ra 4 2 w v ∧ v.reg rs < 4096 ∧ s'.invLock f v (v.reg rs) = true ∧
      (s'.lock (v.reg rs)).owner = some (identThread f t)) ∧
    (∃ s : State, ∃ s' f t rd rs ra v e r, IssuesUnit s s' f t rd rs ra 5 0 true v ∧ (s'.thread f t).events = e :: r) ∧
    (∃ s : State, ∃ s' f t rd rs ra v, IssuesUnit s s' f t rd rs ra 5 0 true v ∧ (s'.thread f t).events = []) ∧
    (∃ s : State, ∃ s' f t rd rs ra w v j h, IssuesUnit s s' f t rd rs ra 5 1 w v ∧ v.slot = some j ∧ (let g := v.reg rs % 64;
      (let entry := bitsOf (v.reg rs) 8 8; s'.ferryOn g = true ∧ s'.servesJob g j = true ∧ (s'.ferry g).entries.look entry = some h ∧
      h.callable = true ∧ 0x80 ≤ entry ∧ s'.dispatchRoom g = true))) ∧
    (∃ s : State, ∃ s' f t rd rs ra w v k, IssuesUnit s s' f t rd rs ra 6 0 w v ∧
      ((List.range 4).find? fun k => ((s'.thread f t).timers.look k).isNone) = some k) ∧
    (∃ s : State, ∃ s' f t rd rs ra w v tag, IssuesUnit s s' f t rd rs ra 6 1 w v ∧ (s'.thread f t).timers.look (v.reg rs) = some tag) ∧
    (∃ s : State, ∃ s' f t rd rs ra w v, IssuesUnit s s' f t rd rs ra 7 0 w v ∧ s'.writesOut f t = false ∧
      ((v.fromNet = false ∨ s'.flag .QU_CFG_LOC (v.reg rs) = true)) ∧ v.reg rs < 65536 ∧ s'.invQueue v (v.reg rs) = true) :=
  ⟨⟨run (fmtE 3 1 2 3 0 true) (inv0 [(1, 63)]), _, 0, 1, 3, 1, 2, true, inv0 [(1, 63)], issues (by decide +kernel), by decide +kernel⟩,
  ⟨run (fmtE 3 1 2 3 1 true) (inv0 [(1, 63)]), _, 0, 1, 3, 1, 2, true, inv0 [(1, 63)], issues (by decide +kernel), by decide +kernel⟩,
  ⟨run (fmtE 3 1 2 3 2 true) (inv0 [(1, 63), (2, 1)]), _, 0, 1, 3, 1, 2, inv0 [(1, 63), (2, 1)], issues (by decide +kernel),
    by decide +kernel⟩,
  ⟨put (run (fmtE 3 1 2 4 0 true) (inv0 [(1, 4095)])) [(.LK_GROUP_BOUND, 15, 1), (.LK_GROUP_FERRIES_FERRIES, 15, 1)], _, 0, 1, 3, 1, 2,
    inv0 [(1, 4095)], _, issues (by decide +kernel), by decide +kernel, by decide +kernel, pair (by decide +kernel)⟩,
  ⟨(put (run (fmtE 3 1 2 4 0 true) (inv0 [(1, 4095)])) [(.LK_GROUP_BOUND, 15, 1), (.LK_GROUP_FERRIES_FERRIES, 15, 1)]).updLock 4095 fun l => { l with owner := some 5 },
    _, 0, 1, 3, 1, 2, inv0 [(1, 4095)], _, issues (by decide +kernel), by decide +kernel, by decide +kernel, pair (by decide +kernel)⟩,
  ⟨put (run (fmtE 3 1 2 4 1 true) (inv0 [(1, 4095)])) [(.LK_GROUP_BOUND, 15, 1), (.LK_GROUP_FERRIES_FERRIES, 15, 1)], _, 0, 1, 3, 1, 2,
    true, inv0 [(1, 4095)], issues (by decide +kernel), by decide +kernel⟩,
  ⟨(put (run (fmtE 3 1 2 4 2 true) (inv0 [(1, 4095)])) [(.LK_GROUP_BOUND, 15, 1), (.LK_GROUP_FERRIES_FERRIES, 15, 1)]).updLock 4095 fun l => { l with owner := some 1 },
    _, 0, 1, 3, 1, 2, true, inv0 [(1, 4095)], issues (by decide +kernel), by decide +kernel⟩,
  ⟨(run (fmtE 3 1 2 5 0 true) (inv0 [])).updThread 0 1 fun x => { x with events := [(2, 0, 9)] }, _, 0, 1, 3, 1, 2, inv0 [], _, _,
    issues (by decide +kernel), rfl⟩,
  ⟨run (fmtE 3 1 2 5 0 true) (inv0 []), _, 0, 1, 3, 1, 2, inv0 [], issues (by decide +kernel), by decide +kernel⟩,
  ⟨run (fmtE 3 1 2 5 1 true) (inv0 [(1, 0x8000)]), _, 0, 1, 3, 1, 2, true, inv0 [(1, 0x8000)], 0, _, issues (by decide +kernel),
    by decide +kernel, by decide +kernel, by decide +kernel, rfl, by decide +kernel⟩,
  ⟨run (fmtE 3 1 2 6 0 true) (inv0 [(1, 9)]), _, 0, 1, 3, 1, 2, true, inv0 [(1, 9)], 0, issues (by decide +kernel), by decide +kernel⟩,
  ⟨(run (fmtE 3 1 2 6 1 true) (inv0 [(1, 3)])).updThread 0 1 fun x => { x with timers := ⟨[(3, 8)]⟩ }, _, 0, 1, 3, 1, 2, true,
    inv0 [(1, 3)], 8, issues (by decide +kernel), by decide +kernel⟩,
  ⟨run (fmtE 3 1 2 7 0 true) (inv0 [(1, 3), (2, 17)]), _, 0, 1, 3, 1, 2, true, inv0 [(1, 3), (2, 17)], issues (by decide +kernel),
    by decide +kernel, Or.inl rfl, by decide +kernel⟩⟩

theorem witness_sendOperationsComplete :
    (∃ s : State, ∃ s' f t rd rs ra w v d u op j x c, IssuesUnit s s' f t rd rs ra 0 0 w v ∧
      Accepts s' f t rd rs 0 0 w writesNone (sendDescOk 0) v d u op ∧ v.fromNet = false ∧ v.slot = some j ∧
      s'.requestWaits f v d = false ∧ Sound u f v (sdSrc d) (sdLen d) ∧ u.rangeOk f v (sdRbuf d) (sdRlen d) = true ∧
      u.openFor j (u.ferryEp f) (sdDest d) false = (x, some c)) ∧
    (∃ s : State, ∃ s' f t rd rs ra w v d u op c m b, IssuesUnit s s' f t rd rs ra 0 1 w v ∧
      Accepts s' f t rd rs 0 1 w writesNone (sendDescOk 1) v d u op ∧ v.kind = .hmsg c m ∧ v.replied = false ∧
      Sound u f v (sdSrc d) (sdLen d) ∧ u.tops.look (c, m) = some b ∧ ((∀ a e g h r, b.blk = .hmsg a e g h r → sdLen d ≤ r)) ∧
      ((∃ a e g h r, b.blk = .hmsg a e g h r))) ∧
    (∃ s : State, ∃ s' f t rd rs ra w v d u op j, IssuesUnit s s' f t rd rs ra 0 2 w v ∧
      Accepts s' f t rd rs 0 2 w writesNone (sendDescOk 2) v d u op ∧ v.fromNet = false ∧ v.slot = some j ∧
      Sound u f v (sdSrc d) (sdLen d)) :=
  ⟨(let v := inv0 [(1, 0x2000)];  let d := blk 64 [(4, 0x1002), (8, 0x80), (12, 64), (16, 0x2100), (24, 64), (32, 0x2200)];
    ⟨runDesc (fmtE 3 1 2 0 0 true) v d, _, 0, 1, 3, 1, 2, true, v, d, _, _, 0, _, _, issues (by decide +kernel),
    accepts (by decide +kernel), rfl, rfl, by decide +kernel, ⟨by decide +kernel, by decide +kernel⟩, by decide +kernel,
    pairSome (by decide +kernel)⟩),
  (let v := { inv0 [(1, 0x2000)] with kind := .hmsg 4 5 };  let d := blk 64 [(12, 64), (16, 0x2100)];
    ⟨{ runDesc (fmtE 3 1 2 0 1 true) v d with tops := ⟨[((4, 5), { slot := 0, blk := .hmsg false 0x80 0 0 64 })]⟩ }, _, 0, 1, 3, 1, 2,
    true, v, d, _, _, 4, 5, { slot := 0, blk := .hmsg false 0x80 0 0 64 }, issues (by decide +kernel), accepts (by decide +kernel), rfl,
    rfl, ⟨by decide +kernel, by decide +kernel⟩, by decide +kernel, fun _ _ _ _ _ h => by cases h; decide +kernel, ⟨_, _, _, _, _, rfl⟩⟩),
  (let v := inv0 [(1, 0x2000)];  let d := blk 64 [(4, 0xF8000001), (8, 0x80), (12, 64), (16, 0x2100)]; ⟨runDesc (fmtE 3 1 2 0 2 true) v d,
    _, 0, 1, 3, 1, 2, true, v, d, _, _, 0, issues (by decide +kernel), accepts (by decide +kernel), rfl, rfl, ⟨by decide +kernel,
    by decide +kernel⟩⟩)⟩

theorem witness_matchOperationsComplete :
    (∃ s : State, ∃ s' f t rd rs ra w v d u op j k x r, IssuesUnit s s' f t rd rs ra 1 0 w v ∧
      Accepts s' f t rd rs 1 0 w writesMem matchDescOk v d u op ∧ v.fromNet = false ∧ v.slot = some j ∧ s'.postWaits v d = false ∧
      u.epOfJob j (mdEp d) = true ∧ u.catcherOf ⟨j, mdEp d, mdComm d⟩ = some k ∧ u.matchRecv f t v op ⟨j, mdEp d, mdComm d⟩ d = (x,
      .inr r)) ∧
    (∃ s : State, ∃ s' f t rd rs ra w v d u op j, IssuesUnit s s' f t rd rs ra 1 1 w v ∧
      Accepts s' f t rd rs 1 1 w writesNone matchDescOk v d u op ∧ v.slot = some j ∧ u.epOfJob j (mdEp d) = true ∧
      u.rangeOk f v (mdRecord d) 32 = true) ∧
    (∃ s : State, ∃ s' f t rd rs ra w v d u op j id, IssuesUnit s s' f t rd rs ra 1 2 w v ∧
      Accepts s' f t rd rs 1 2 w writesNone matchDescOk v d u op ∧ v.slot = some j ∧ u.epOfJob j (mdEp d) = true ∧
      u.rangeOk f v (mdRecord d) 32 = true ∧ u.findMsg ⟨j, mdEp d, mdComm d⟩ (mdAnySrc d) (mdAnyTag d) (mdRank d) (mdTag d) = some id) ∧
    (∃ s : State, ∃ s' f t rd rs ra w v d u op j m x r, IssuesUnit s s' f t rd rs ra 1 3 w v ∧
      Accepts s' f t rd rs 1 3 w writesMem matchDescOk v d u op ∧ v.fromNet = false ∧ v.slot = some j ∧
      (u.msgs.cells.find? fun m => decide (m.1 % 2 ^ 32 = mdClaim d) && m.2.claimed && m.2.recv.isNone && decide (m.2.space.slot = j)) = some m ∧
      u.matchRecv f t v op m.2.space d = (x, .inr r)) :=
  ⟨(let v := inv0 [(1, 0x2000)];  let d := blk 64 [(4, 2), (24, 64), (32, 64), (48, 0x2200)]; ⟨runDesc (fmtE 3 1 2 1 0 true) v d, _, 0, 1,
    3, 1, 2, true, v, d, _, _, 0, _, _, _, issues (by decide +kernel), accepts (by decide +kernel), rfl, rfl,
    postNow rfl (by decide +kernel) (by decide +kernel), by decide +kernel, (Option.some_get (catcher (by decide +kernel))).symm,
    pairInr (by decide +kernel)⟩),
  (let v := inv0 [(1, 0x2000)];  let d := blk 64 [(4, 2), (24, 64), (32, 64), (48, 0x2200)]; ⟨runDesc (fmtE 3 1 2 1 1 true) v d, _, 0, 1,
    3, 1, 2, true, v, d, _, _, 0, issues (by decide +kernel), accepts (by decide +kernel), by decide +kernel⟩),
  (let v := inv0 [(1, 0x2000)];  let d := blk 64 [(4, 2), (24, 64), (32, 64), (48, 0x2200)];
    ⟨{ runDesc (fmtE 3 1 2 1 2 true) v d with msgs := ⟨[(8, { space := ⟨0, 2, 0⟩, rem := 9, rank := 0, tag := 0, sent := 64, rdv := false, handle := 0, ctx := 4, mtag := 5, stamp := 0 })]⟩ },
    _, 0, 1, 3, 1, 2, true, v, d, _, _, 0, 8, issues (by decide +kernel), accepts (by decide +kernel), by decide +kernel⟩),
  (let v := inv0 [(1, 0x2000)];  let d := blk 64 [(4, 2), (24, 64), (32, 64), (48, 0x2200), (36, 8)];
    ⟨{ runDesc (fmtE 3 1 2 1 3 true) v d with msgs := ⟨[(8, { space := ⟨0, 2, 0⟩, rem := 9, rank := 0, tag := 0, sent := 64, rdv := false, handle := 0, ctx := 4, mtag := 5, stamp := 0, claimed := true })]⟩ },
    _, 0, 1, 3, 1, 2, true, v, d, _, _, 0, (8,
    { space := ⟨0, 2, 0⟩, rem := 9, rank := 0, tag := 0, sent := 64, rdv := false, handle := 0, ctx := 4, mtag := 5, stamp := 0, claimed := true }),
    _, _, issues (by decide +kernel), accepts (by decide +kernel), rfl, rfl, by decide +kernel, pairInr (by decide +kernel)⟩)⟩

theorem witness_moveOperationsComplete :
    (∃ s : State, ∃ s' f t rd rs ra w v d u op x dsts, IssuesUnit s s' f t rd rs ra 2 1 w v ∧
      Accepts s' f t rd rs 2 1 w moveWrites moveDescOk v d u op ∧
      u.moveSide f v (vdTo d) (if vdAsid d = 0 then v.asid else vdAsid d) (vdDst d) (vdLen d) true = (x, .inr dsts)) ∧
    (∃ s : State, ∃ s' f t rd rs ra w v d u op x dsts y src, IssuesUnit s s' f t rd rs ra 2 0 w v ∧
      Accepts s' f t rd rs 2 0 w moveWrites moveDescOk v d u op ∧ (let asid := if vdAsid d = 0 then v.asid else vdAsid d;
      u.moveSide f v (vdTo d) asid (vdDst d) (vdLen d) true = (x, .inr dsts) ∧
      (x.updOp f t op fun o => { o with dst := vdDst d, segs := dsts }).moveSide f v (vdFrom d) asid (vdSrc d) (vdLen d) false = (y,
      .inr src) ∧ (src.isEmpty = true → y.poisoned (vdSrc d) (vdLen d) = false))) ∧
    (∃ s : State, ∃ s' f t rd rs ra w v d u op, IssuesUnit s s' f t rd rs ra 7 1 w v ∧
      Accepts s' f t rd rs 7 1 w writesMem enqDescOk v d u op ∧ (let q := edQueue d; (let n := edCount d; (let pi := u.rd .QU_PI_PI q;
      s'.writesOut f t = false ∧ u.invQueue v q = true ∧ u.flag .QU_CFG_LOC q = true ∧ u.rangeOk f v (edSrc d) (32 * n) = true ∧
      dist32 (u.rd .QU_HEAD_HEAD q) (idxAdd pi n) ≤ u.ringSize q)))) :=
  ⟨(let v := inv0 [(1, 0x2000)];  let d := blk 64 [(16, 0x2200), (24, 64), (32, 0xAB)]; ⟨runDesc (fmtE 3 1 2 2 1 true) v d, _, 0, 1, 3, 1,
    2, true, v, d, _, _, _, _, issues (by decide +kernel), accepts (by decide +kernel), pairInr (by decide +kernel)⟩),
  (let v := inv0 [(1, 0x2000)];  let d := blk 64 [(8, 0x2100), (16, 0x2200), (24, 64)]; ⟨runDesc (fmtE 3 1 2 2 0 true) v d, _, 0, 1, 3, 1,
    2, true, v, d, _, _, _, _, _, _, issues (by decide +kernel), accepts (by decide +kernel), pairInr (by decide +kernel),
    pairInr (by decide +kernel), fun _ => by decide +kernel⟩),
  (let v := inv0 [(1, 0x2000)];  let d := blk 64 [(4, 3), (6, 1), (8, 0x2100)]; ⟨runDesc (fmtE 3 1 2 7 1 true) v d, _, 0, 1, 3, 1, 2,
    true, v, d, _, _, issues (by decide +kernel), accepts (by decide +kernel), by decide +kernel⟩)⟩

theorem witness_queueTurnsComplete :
    (∃ s : State, ∃ q n more c, Ready s q n more c ∧ s.turnOf q = true) ∧
    (∃ s : State, ∃ q n more c, Ready s q n more c ∧ (s.q q).held.isSome = true) ∧
    (∃ s : State, ∃ q n, s.phase = .running ∧ s.fatal = false ∧ s.qState q = qRunning ∧ s.fetchOk q (s.fetchFrom q) n = true) ∧
    (∃ s : State, ∃ q seen i n rest, s.phase = .running ∧ s.fatal = false ∧ (s.q q).reads = (i, n) :: rest ∧
      (let u := (s.updQ q fun x => { x with reads := rest }).see seen; u.segAccess [(u.ringLoc q i, 32 * n)] = .ok)) ∧
    (∃ s : State, ∃ f q size, s.phase = .running ∧ s.fatal = false ∧ ((size = 4 ∨ size = 8)) ∧ q < 65536 ∧ s.boundTo q f = true) ∧
    (∃ s : State, ∃ q i r u o, s.phase = .running ∧ s.fatal = false ∧
      ((s.q q).cancels.find? fun r => decide (r.index = i) && r.outcome.isNone) = some r ∧
      s.cancelEach q ((s.q q).started.filter fun e => decide (e.index = r.named)) = (u, o)) :=
  ⟨⟨up.updQ 3 fun x => { x with fetched := ⟨[(0, blk 32 [])]⟩ }, 3, 1, [], .nop 0, ready (bs := blk 32 []) (by decide +kernel),
    by decide +kernel⟩,
  ⟨up.updQ 3 fun x => { x with fetched := ⟨[(0, blk 32 [])]⟩, held := some .order }, 3, 1, [], .nop 0,
    ready (bs := blk 32 []) (by decide +kernel), by decide +kernel⟩,
  ⟨up, 3, 4, by decide +kernel⟩,
  ⟨up.updQ 3 fun x => { x with reads := [(0, 4)] }, 3, [], 0, 4, [], by decide +kernel, by decide +kernel, rfl, rfl⟩,
  ⟨up, 0, 3, 4, by decide +kernel, by decide +kernel, Or.inl rfl, by decide +kernel⟩,
  ⟨up.updQ 3 fun x => { x with cancels := [⟨5, 1, none, false⟩] }, 3, 5, _, _, _, by decide +kernel, by decide +kernel, rfl, rfl⟩⟩

theorem witness_queueEventsComplete :
    (∃ s : State, ∃ q d, s.timers.look (.coal q) = some d) ∧
    (∃ s : State, ∃ q, s.phase = .running ∧ s.flag .QU_HEADADDR_EN q = true) ∧
    (∃ s : State, ∃ q w, s.phase = .running ∧ s.fatal = false ∧ (s.q q).wait = some w ∧ s.qState q = qWait ∧ s.waitMet w.cmd = true) ∧
    (∃ s : State, ∃ q w d, s.timers.look (.wait q) = some d ∧ (let u := at_ s (.wait q) d; (u.q q).wait = some w ∧ u.qState q = qWait ∧
      u.fatal = false ∧ u.waitMet w.cmd = false)) :=
  ⟨⟨due up (.coal 3), 3, 5, by decide +kernel⟩,
  ⟨put up [(.QU_HEADADDR_EN, 3, 1)], 3, by decide +kernel⟩,
  ⟨put (up.updQ 3 fun x => { x with wait := some ⟨0, 0, ⟨.tally, false, 0, 0, 63, 0, 0⟩, 0⟩ }) [(.QU_STATE_STATE, 3, qWait)], 3, _,
    by decide +kernel, by decide +kernel, rfl, by decide +kernel⟩,
  ⟨put ((due up (.wait 3)).updQ 3 fun x => { x with wait := some ⟨0, 0, ⟨.tally, false, 0, 0, 63, 0, 1⟩, 0⟩ }) [(.QU_STATE_STATE, 3, qWait)],
    3, _, 5, by decide +kernel, rfl, by decide +kernel⟩⟩

theorem witness_queueControlsComplete :
    (∃ s : State, ∃ q f, Reaches s q f ∧ s.fatal = false ∧ s.qState q = qHalted ∧
      ((s.rd .QU_STATE_HALT_REASON q = 1 ∨ s.rd .QU_STATE_HALT_REASON q = 2)) ∧ s.rd .QU_STATE_CAUSE q = 0) ∧
    (∃ s : State, ∃ q f, Reaches s q f ∧ ((s.qState q = qRunning ∨ s.qState q = qWait))) ∧
    (∃ s : State, ∃ q f, Reaches s q f ∧ s.fatal = false ∧ s.qState q = qError) ∧
    (∃ s : State, ∃ q f, Reaches s q f ∧ s.fatal = false ∧ s.qState q = qError) ∧
    (∃ s : State, ∃ q skip, s.phase = .running ∧ s.fatal = false ∧ (s.q q).resume = some skip ∧ s.qState q = qError ∧
      s.flag .QU_STATE_DRAINED q = true) :=
  ⟨⟨put up [(.QU_STATE_STATE, 3, qHalted), (.QU_STATE_HALT_REASON, 3, 2)], 3, none, ⟨by decide +kernel, by decide +kernel,
    by decide +kernel⟩, by decide +kernel, by decide +kernel, Or.inr (by decide +kernel), by decide +kernel⟩,
  ⟨put up [(.QU_STATE_STATE, 3, qWait)], 3, none, ⟨by decide +kernel, by decide +kernel, by decide +kernel⟩, Or.inr (by decide +kernel)⟩,
  ⟨put up [(.QU_STATE_STATE, 3, qError)], 3, none, ⟨by decide +kernel, by decide +kernel, by decide +kernel⟩, by decide +kernel⟩,
  ⟨put up [(.QU_STATE_STATE, 3, qError)], 3, none, ⟨by decide +kernel, by decide +kernel, by decide +kernel⟩, by decide +kernel⟩,
  ⟨put (up.updQ 3 fun x => { x with resume := some true }) [(.QU_STATE_STATE, 3, qError), (.QU_STATE_DRAINED, 3, 1)], 3, true,
    by decide +kernel⟩⟩

theorem witness_queueRegistersComplete :
    (∃ s : State, ∃ q f, Reaches s q f) ∧
    (∃ s : State, ∃ f v, Reaches s 0 f ∧ Idle0 s ∧
      ringRangeOk (decide (Fld.of .QU_HEADADDR_LOC v = 1)) (Fld.of .QU_HEADADDR_ADDR v * 8) 8 = true) ∧
    (∃ s : State, ∃ f v, Reaches s 0 f ∧ Idle0 s ∧ 6 ≤ Fld.of .QU_CFG_SIZE_LOG2 v ∧ Fld.of .QU_CFG_SIZE_LOG2 v ≤ 16 ∧
      ringRangeOk (decide (Fld.of .QU_CFG_LOC v = 1)) (s.rd .QU_BASE_BASE 0 * 4096) (32 * 2 ^ Fld.of .QU_CFG_SIZE_LOG2 v) = true) ∧
    (∃ s : State, ∃ f v, Reaches s 0 f ∧ Idle0 s ∧ 6 ≤ s.rd .QU_CFG_SIZE_LOG2 0 ∧ s.rd .QU_CFG_SIZE_LOG2 0 ≤ 16 ∧
      ringRangeOk (decide (s.rd .QU_CFG_LOC 0 = 1)) (Fld.of .QU_BASE_BASE v * 4096) (32 * 2 ^ s.rd .QU_CFG_SIZE_LOG2 0) = true) ∧
    (∃ s : State, ∃ q f, Reaches s q f) ∧
    (∃ s : State, ∃ q f, ∃ k : Nat, ∃ r, Reaches s q (some f) ∧ queueRegs[k]? = some r) ∧
    (∃ s : State, ∃ q f, Reaches s q (some f)) ∧
    (∃ s : State, ∃ n, s.phase = .running ∧ n < 262144) :=
  ⟨⟨up, 65535, none, ⟨by decide +kernel, by decide +kernel, by decide +kernel⟩⟩,
  ⟨put up [(.QU_STATE_STATE, 0, qHalted), (.QU_STATE_DRAINED, 0, 1), (.QU_CFG_SIZE_LOG2, 0, 16), (.QU_CFG_LOC, 0, 1)], none,
    0x20001000000, ⟨by decide +kernel, by decide +kernel, by decide +kernel⟩, ⟨by decide +kernel, by decide +kernel⟩, by decide +kernel⟩,
  ⟨put up [(.QU_STATE_STATE, 0, qHalted), (.QU_STATE_DRAINED, 0, 1), (.QU_BASE_BASE, 0, 0x1001000)], none, 0x34000, ⟨by decide +kernel,
    by decide +kernel, by decide +kernel⟩, ⟨by decide +kernel, by decide +kernel⟩, by decide +kernel⟩,
  ⟨put up [(.QU_STATE_STATE, 0, qHalted), (.QU_STATE_DRAINED, 0, 1), (.QU_CFG_SIZE_LOG2, 0, 16), (.QU_CFG_LOC, 0, 1)], none, 0x1001000000,
    ⟨by decide +kernel, by decide +kernel, by decide +kernel⟩, ⟨by decide +kernel, by decide +kernel⟩, by decide +kernel⟩,
  ⟨up, 0, none, ⟨by decide +kernel, by decide +kernel, by decide +kernel⟩⟩,
  ⟨up, 3, 0, 0, _, ⟨by decide +kernel, by decide +kernel, by decide +kernel⟩, rfl⟩,
  ⟨up, 3, 0, ⟨by decide +kernel, by decide +kernel, by decide +kernel⟩⟩,
  ⟨up, 262143, by decide +kernel⟩⟩

theorem witness_ferryEventsComplete :
    (∃ s : State, ∃ f e t h, s.phase = .running ∧ s.fatal = false ∧ s.ferryOn f = true ∧ s.fxState f = fxRunning ∧
      s.nextEvent f = some e ∧ s.threadFor f e = some t ∧ (s.ferry f).entries.look e.entry = some h) ∧
    (∃ s : State, ∃ f t d, s.timers.look (.budget f t) = some d) ∧
    (∃ s : State, ∃ f t v rd n x, s.phase = .running ∧ (s.thread f t).inv = some v ∧ v.sleep = some (.tally rd n x) ∧
      reached (s.tally n) x = true) ∧
    (∃ s : State, ∃ f t k d tag, s.timers.look (.ferryTimer f t k) = some d ∧ (let u := at_ s (.ferryTimer f t k) d;
      (u.thread f t).timers.look k = some tag)) ∧
    (∃ s : State, ∃ f t d, s.timers.look (.eventWait f t) = some d) ∧
    (∃ s : State, ∃ f v, s.phase = .running ∧ s.ferryOn f = true ∧ v % 65536 ≠ 0) ∧
    (∃ s : State, ∃ f t, s.phase = .running ∧ f < 64 ∧ t < 16) :=
  ⟨⟨up.updFerry 0 fun x => { x with queue := [⟨.work, 0x80, 0, 5, [], []⟩] }, 0, _, _, _, by decide +kernel, by decide +kernel,
    by decide +kernel, by decide +kernel, rfl, rfl, rfl⟩,
  ⟨due up (.budget 0 1), 0, 1, 5, by decide +kernel⟩,
  ⟨run (fmtE 3 1 2 3 2 true) { inv0 [] with sleep := some (.tally 3 63 0) }, 0, 1, _, 3, 63, 0, by decide +kernel, rfl, rfl,
    by decide +kernel⟩,
  ⟨due (up.updThread 0 1 fun x => { x with timers := ⟨[(3, 8)]⟩ }) (.ferryTimer 0 1 3), 0, 1, 3, 5, 8, by decide +kernel,
    by decide +kernel⟩,
  ⟨due up (.eventWait 0 1), 0, 1, 5, by decide +kernel⟩,
  ⟨up, 0, 0x8000, by decide +kernel⟩,
  ⟨up, 63, 15, by decide +kernel⟩⟩

theorem witness_jobCommandsComplete :
    (∃ s : State, ∃ src p x u b v j, Runs s src .jobOpen p x u ∧ u.privPre src p x true true = 0 ∧
      decodeJobBlock (u.blockOf src p x) p.sealOut = some b ∧ (let o := u.offer src .jobOpen p x; Opens u 0x01 p b o v j)) ∧
    (∃ s : State, ∃ src p x u b v j key, Runs s src .keyInstall p x u ∧ u.privPre src p x true true = 0 ∧ (let bs := u.blockOf src p x;
      decodeJobBlock (bs.drop 144) p.sealOut = some b ∧ leAt bs 0 1 = 1 ∧ zeros bs 1 3 = true ∧ zeros bs 24 8 = true ∧
      zeros bs 140 4 = true ∧ (let o := u.offer src .keyInstall p x; Opens u 0x03 p b o v j ∧ (let blob := bs.take 144;
      blobOpen v.blobKey blob = some key ∧ v.blobOk blob p.arg = true)))) ∧
    (∃ s : State, ∃ src p x u j v, Runs s src .jobClose p x u ∧ u.privPre src p x true false false = 0 ∧ u.slotOf p.arg = some j ∧
      u.jobToken (u.offer src .jobClose p x) 0x02 j = (v, 0) ∧ v.jobState j ≠ jobClosing) :=
  ⟨⟨up, .iamel 1, ⟨false, 0, 8, 0, 152, 152, 0⟩, ⟨[], mJobOpen, [], true⟩, _, jobB, _, 1, runs (by decide +kernel) (by decide +kernel),
    by decide +kernel, by decide +kernel, opens (by decide +kernel) (by decide +kernel)⟩,
  ⟨up, .iamel 1, ⟨false, 0, 8, 0, 296, 296, 0⟩, ⟨[], mKeyInstall, [], true⟩, _, jobB, _, 1, 14,
    runs (by decide +kernel) (by decide +kernel), by decide +kernel, by decide +kernel, by decide +kernel, by decide +kernel,
    by decide +kernel, by decide +kernel, opens (by decide +kernel) (by decide +kernel), by decide +kernel⟩,
  ⟨up, .iamel 1, ⟨false, 0, 7, 0, 4, 0, 0⟩, ⟨[], mJobClose, [], true⟩, _, 0, _, runs (by decide +kernel) (by decide +kernel),
    by decide +kernel, by decide +kernel, jobPass (by decide +kernel), by decide +kernel⟩⟩

theorem witness_memoryCommandsComplete :
    (∃ s : State, ∃ src p x u d v, Runs s src .windowOpen p x u ∧ u.privPre src p x true = 0 ∧ decodeDescr (u.blockOf src p x) = some d ∧
      p.arg2 < 256 ∧ u.slotToken p.arg 0x04 (u.offer src .windowOpen p x) = (v, 0) ∧ v.rd .GLB_JOB_MODE p.arg ≠ 1 ∧
      (v.windows.look (p.arg, p.arg2)).all (fun w => decide (w.state = .closed)) = true ∧ (v.job p.arg).asids.contains d.asid = true) ∧
    (∃ s : State, ∃ src p x u v, Runs s src .windowRevoke p x u ∧ u.privPre src p x true false false = 0 ∧ p.arg2 < 256 ∧
      (let o := u.offer src .windowRevoke p x; u.slotToken p.arg 0x04 o = (v, 0) ∧ (v.windows.look (p.arg,
      p.arg2)).any (fun w => decide (w.state = .opened)) = true)) ∧
    (∃ s : State, ∃ src p x u b v w ls, Runs s src .regionRegister p x u ∧ u.privPre src p x true = 0 ∧
      decodeDescr (u.blockOf src p x) = some b ∧ u.slotToken p.arg 0x05 (u.offer src .regionRegister p x) = (v, 0) ∧
      v.rd .GLB_JOB_MODE p.arg ≠ 0 ∧ p.arg2 ≠ 0 ∧ (v.job p.arg).asids.contains (descrOf b).asid = true ∧ v.regions.look p.arg2 = none ∧
      v.armed (.quarantine p.arg2) = false ∧ v.regions.size < 1048576 ∧ v.holdRegion (descrOf b) = (w, .inr ls) ∧
      ls.length ≤ w.leavesFree) ∧
    (∃ s : State, ∃ src p x u v r, Runs s src .regionDeregister p x u ∧ u.privPre src p x true false false = 0 ∧
      u.slotToken p.arg 0x05 (u.offer src .regionDeregister p x) = (v, 0) ∧ p.arg2 ≠ 0 ∧ v.regions.look p.arg2 = some r ∧ r.live = true ∧
      r.slot = p.arg) ∧
    (∃ s : State, ∃ src p x u v b, Runs s src .treeBuild p x u ∧ u.privPre src p x true = 0 ∧
      u.slotToken p.arg 0x06 (u.offer src .treeBuild p x) = (v, 0) ∧ decodeTree (v.blockOf src p x) = some b ∧
      v.treeCause p.arg p.arg2 b = 0) :=
  ⟨⟨up, .iamel 1, ⟨false, 0, 0, 0, 32, 32, 255⟩, ⟨[], mWindowOpen, [], true⟩, _, ⟨0, 4096, 5, 0, 3, false⟩, _,
    runs (by decide +kernel) (by decide +kernel), by decide +kernel, by decide +kernel, by decide +kernel,
    slotPass (by decide +kernel) (by decide +kernel) (by decide +kernel), by decide +kernel⟩,
  ⟨{ up with windows := ⟨[((0, 255), { state := .opened, d := ⟨0, 64, 5, 0, 3, false⟩ })]⟩ }, .iamel 1, ⟨false, 0, 0, 0, 4, 0, 255⟩, ⟨[],
    mWindowRevoke, [], true⟩, _, _, runs (by decide +kernel) (by decide +kernel), by decide +kernel, by decide +kernel,
    slotPass (by decide +kernel) (by decide +kernel) (by decide +kernel), by decide +kernel⟩,
  ⟨put up [(.GLB_JOB_MODE, 0, 1)], .iamel 1, ⟨false, 0, 0, 0, 32, 32, 256⟩, ⟨[], mRegionRegister, [], true⟩, _, ⟨0, 4096, 5, 0, 3, false⟩,
    _, _, _, runs (by decide +kernel) (by decide +kernel), by decide +kernel, by decide +kernel,
    slotPass (by decide +kernel) (by decide +kernel) (by decide +kernel), by decide +kernel, by decide +kernel, by decide +kernel,
    by decide +kernel, by decide +kernel, by decide +kernel, pairInr (by decide +kernel), by decide +kernel⟩,
  ⟨{ put up [(.GLB_JOB_MODE, 0, 1)] with regions := ⟨[(256, { slot := 0, job := 7, d := ⟨0, 64, 5, 0, 3, false⟩, leaves := [], cached := true })]⟩ },
    .iamel 1, ⟨false, 0, 0, 0, 4, 0, 256⟩, ⟨[], mRegionDeregister, [], true⟩, _, _,
    { slot := 0, job := 7, d := ⟨0, 64, 5, 0, 3, false⟩, leaves := [], cached := true }, runs (by decide +kernel) (by decide +kernel),
    by decide +kernel, slotPass (by decide +kernel) (by decide +kernel) (by decide +kernel), by decide +kernel⟩,
  ⟨put up [(.HD_LANDPOOL_BASE, 0, 0x100000), (.HD_LANDPOOL_SLOTS, 0, 16)], .iamel 1, ⟨false, 0, 0, 0, 64, 64, 4095⟩, ⟨[], mTreeBuild, [],
    true⟩, _, _, treeB, runs (by decide +kernel) (by decide +kernel), by decide +kernel,
    slotPass (by decide +kernel) (by decide +kernel) (by decide +kernel), by decide +kernel⟩⟩

theorem witness_routeCommandsComplete :
    (∃ s : State, ∃ src p x u v vs, Runs s src .routeWrite p x u ∧ u.privPre src p x false = 0 ∧ u.checkTrailer src .routeWrite p x = (v,
      0) ∧ decodeTable p.arg (v.blockOf src p x) = some vs ∧ p.arg2 + vs.length ≤ tableCount p.arg ∧ v.routeWait = []) ∧
    (∃ s : State, ∃ src p x u v, Runs s src .routeCommit p x u ∧ u.privPre src p x false false false = 0 ∧
      u.checkTrailer src .routeCommit p x = (v, 0) ∧ v.routeWait = [] ∧ v.routeHeld (.commit p.arg) = false ∧ p.arg % 2 ≠ v.activeBank ∧
      v.bankCause (p.arg % 2) = 0) ∧
    (∃ s : State, ∃ src p x u v vs, Runs s src .routeWrite p x u ∧ u.privPre src p x false = 0 ∧ u.checkTrailer src .routeWrite p x = (v,
      0) ∧ decodeTable p.arg (v.blockOf src p x) = some vs ∧ p.arg2 + vs.length ≤ tableCount p.arg ∧ v.routeWait ≠ []) :=
  ⟨⟨upFm, .iamel 1, ⟨false, 0, 0, 0, 0, 8, 131⟩, ⟨[], mRouteWrite, tRouteWrite, true⟩, _, _, [96],
    runs (by decide +kernel) (by decide +kernel), by decide +kernel, trailerPass (c := ⟨3, 1,
    tRouteWrite.drop 16⟩) (by decide +kernel) (by decide +kernel), by decide +kernel⟩,
  ⟨upFm, .iamel 1, ⟨false, 0, 1, 0, 0, 0, 0⟩, ⟨[], [], tRouteCommit, true⟩, _, _, runs (by decide +kernel) (by decide +kernel),
    by decide +kernel, trailerPass (c := ⟨3, 1, tRouteCommit.drop 16⟩) (by decide +kernel) (by decide +kernel), by decide +kernel⟩,
  ⟨{ upFm with routeWait := [((.iamel 2, 0), .commit 1)] }, .iamel 1, ⟨false, 0, 0, 0, 0, 8, 131⟩, ⟨[], mRouteWrite, tRouteWrite, true⟩,
    _, _, [96], runs (by decide +kernel) (by decide +kernel), by decide +kernel, trailerPass (c := ⟨3, 1,
    tRouteWrite.drop 16⟩) (by decide +kernel) (by decide +kernel), by decide +kernel⟩⟩

theorem witness_unitCommandsComplete :
    (∃ s : State, ∃ src p x u b v, Runs s src .loadProgram p x u ∧ leAt (u.blockOf src p x) 0 1 = 1 ∧ u.privPre src p x true = 0 ∧
      u.ferryOn p.arg = true ∧ (let o := u.offer src .loadProgram p x; u.imageToken o = (v, 0) ∧
      decodeImage (u.blockOf src p x) = some b ∧ b.job = true ∧ v.ferryStill p.arg = true ∧ v.jobImageCause p.arg b o.1 = 0)) ∧
    (∃ s : State, ∃ src p x u b, Runs s src .loadProgram p x u ∧ (let bs := u.blockOf src p x; leAt bs 0 1 ≠ 1 ∧
      u.privPre src p x false = 0 ∧ u.ferryOn p.arg = true ∧ decodeImage bs = some b ∧ b.job = false ∧ u.ferryStill p.arg = true ∧
      u.productSigned (bs.take (bs.length - 96)) ((bs.drop (bs.length - 96)).take 48) (bs.drop (bs.length - 48)) = true ∧
      u.rd .GLB_ROLLBACK_FLOOR 5 ≤ b.secver)) ∧
    (∃ s : State, ∃ src p x u, Runs s src .ferryDrain p x u ∧ u.privPre src p x false false false = 0 ∧ u.ferryOn p.arg = true ∧
      u.fxState p.arg = fxRunning) ∧
    (∃ s : State, ∃ src p x u, Runs s src .ferryResume p x u ∧ u.privPre src p x false false false = 0 ∧ u.ferryOn p.arg = true ∧
      u.ferryStill p.arg = true) ∧
    (∃ s : State, ∃ src p x u b v, Runs s src .queueBind p x u ∧ u.privPre src p x (!bitOf (leAt (u.blockOf src p x) 30 1) 0) = 0 ∧
      decodeBind (u.blockOf src p x) = some b ∧ p.arg ≠ 0 ∧ p.arg < 65536 ∧ u.ferryOn b.ferry = true ∧ b.ep ≠ 0xFFF ∧
      ((b.noJob = true ∨ (u.jobState b.slot = jobOpened ∧ (u.job b.slot).asids.contains b.asid = true))) ∧ (if b.noJob then (u,
      0) else u.jobToken (u.offer src .queueBind p x) 0x07 b.slot) = (v, 0) ∧ bindAddrs b = 0 ∧
      v.bindFuncOk b.func p.arg b.noJob b.slot = true ∧ ((v.qState p.arg = qDisabled ∨ (v.qState p.arg = qHalted ∧
      v.flag .QU_STATE_DRAINED p.arg = true)))) ∧
    (∃ s : State, ∃ src p x u base n v wait, Runs s src .invalidate p x u ∧ u.privPre src p x false = 0 ∧
      decodeInval (u.blockOf src p x) = some (base, n) ∧ ((bitOf p.arg 16 = true ∨ (u.asidSlot (p.arg % 65536)).isSome = true)) ∧
      u.flushTx (if bitOf p.arg 16 then none else u.asidSlot (p.arg % 65536)) p.arg2 base (if n = 0 then 2 ^ 48 else base + n) = (v,
      wait)) ∧
    (∃ s : State, ∃ src p x u t d k, Runs s src .snapshot p x u ∧ u.privPre src p x false = 0 ∧ decodeSnap (u.blockOf src p x) = some (t,
      d) ∧ u.now + us 2 ≤ t ∧ (bitOf d 0 = true → 0x13_8000_0000 < d / 64 * 64 + 14112 → 0x13_FFFF_FFFF < d / 64 * 64) ∧
      ((List.range 4).find? fun k => (u.snaps.look k).isNone) = some k) :=
  ⟨⟨put up [(.FX_STATUS_STATE, 1, fxDrained), (.FX_JOBSEG_SEG_LEN, 0, 0)], .iamel 1, ⟨false, 0, 1, 0, 84, 84, 0⟩, ⟨[], mLoadProgram, [],
    true⟩, _, imgJ, _, runs (by decide +kernel) (by decide +kernel), by decide +kernel, by decide +kernel, by decide +kernel,
    imagePass (j := 0) (by decide +kernel) (by decide +kernel), by decide +kernel⟩,
  ⟨put up [(.FX_STATUS_STATE, 1, fxDrained)], .iamel 1, ⟨false, 0, 1, 0, 0, 180, 0⟩, ⟨[], mSystem, [], true⟩, _, imgS,
    runs (by decide +kernel) (by decide +kernel), by decide +kernel⟩,
  ⟨up, .iamel 1, ⟨false, 0, 0, 0, 0, 0, 0⟩, ⟨[], [], [], true⟩, _, runs (by decide +kernel) (by decide +kernel), by decide +kernel⟩,
  ⟨put up [(.FX_STATUS_STATE, 1, fxDrained)], .iamel 1, ⟨false, 0, 1, 0, 0, 0, 0⟩, ⟨[], [], [], true⟩, _,
    runs (by decide +kernel) (by decide +kernel), by decide +kernel⟩,
  ⟨up, .iamel 1, ⟨false, 0, 65535, 0, 32, 32, 0⟩, ⟨[], mQueueBind, [], true⟩, _, bindB, _, runs (by decide +kernel) (by decide +kernel),
    by decide +kernel, by decide +kernel, by decide +kernel, by decide +kernel, by decide +kernel, by decide +kernel,
    Or.inr ⟨by decide +kernel, by decide +kernel⟩, (if_neg (by decide +kernel)).trans (jobPass (by decide +kernel)), by decide +kernel,
    by decide +kernel, Or.inl (by decide +kernel)⟩,
  ⟨up, .iamel 1, ⟨false, 0, 65536, 0, 0, 16, 15⟩, ⟨[], mInvalidate, [], true⟩, _, 0, 0, _, _,
    runs (by decide +kernel) (by decide +kernel), by decide +kernel, by decide +kernel, Or.inl (by decide +kernel), rfl⟩,
  ⟨up, .iamel 1, ⟨false, 0, 0, 0, 0, 16, 0⟩, ⟨[], mSnapshot, [], true⟩, _, _, _, 0, runs (by decide +kernel) (by decide +kernel),
    by decide +kernel, rfl, by decide +kernel⟩⟩

theorem witness_keyExchangeCompletes :
    (∃ s : State, ∃ job, s.phase = .running ∧ s.mgRoom = true ∧ ((∀ j, s.slotOf job = some j → s.jobState j = jobKeying))) ∧
    (∃ s : State, ∃ job node serial j p m k, s.phase = .running ∧ s.mgRoom = true ∧ s.slotOf job = some j ∧ s.jobState j = jobOpened ∧
      ((s.job j).members.findIdx? fun m => decide (m = (node, serial))) = some p ∧ (s.job j).serves p = true ∧
      (s.count uSecurity 4 0 3).keyMsgOk (s.job j) m serial = true ∧ (s.job j).keys.look ((s.job j).answerGen m) = some k) ∧
    (∃ s : State, ∃ job j m kek k, s.phase = .running ∧ s.mgRoom = true ∧ s.slotOf job = some j ∧ s.jobState j = jobKeying ∧
      s.keyMsgOk (s.job j) m ((((s.job j).members[(s.job j).reqTo]?).getD (0, 0)).2) = true ∧ wrapKey (s.job j).eph m.eph = some kek ∧
      unwrapJobKey kek m.wrapped = some k) ∧
    (∃ s : State, ∃ job gen j m kek k, s.phase = .running ∧ s.mgRoom = true ∧ s.slotOf job = some j ∧ s.jobState j = jobOpened ∧
      s.keyMsgOk (s.job j) m ((((s.job j).members[(s.job j).above (s.job j).pos]?).getD (0, 0)).2) = true ∧ m.wrapped.isEmpty = false ∧
      (s.job j).gen < gen ∧ (s.job j).held.contains gen = false ∧ wrapKey (s.job j).eph m.eph = some kek ∧
      unwrapJobKey kek m.wrapped = some k) ∧
    (∃ s : State, ∃ job gen j m, s.phase = .running ∧ s.mgRoom = true ∧ s.slotOf job = some j ∧ s.jobState j = jobOpened ∧
      s.keyMsgOk (s.job j) m ((((s.job j).members[(s.job j).above (s.job j).pos]?).getD (0, 0)).2) = true ∧ m.wrapped.isEmpty = true ∧
      (s.job j).gen < gen ∧ (s.job j).held.contains gen = false) ∧
    (∃ s : State, ∃ job j, s.phase = .running ∧ s.mgRoom = true ∧ s.slotOf job = some j ∧ s.jobState j = jobKeying ∧
      s.armed (.keyReqUnanswered j) = true) ∧
    (∃ s : State, ∃ j d, s.timers.look (.keyReqRetry j) = some d) ∧
    (∃ s : State, ∃ j d, s.timers.look (.keyReqUnanswered j) = some d) ∧
    (∃ s : State, ∃ j d r, s.timers.look (.keyFail j) = some d ∧ (let u := at_ s (.keyFail j) d; (u.job j).openSrc = some r)) :=
  ⟨⟨up, 9, by decide +kernel, by decide +kernel, fun j h => by rw [show up.slotOf 9 = none by decide +kernel] at h; cases h⟩,
  ⟨up.updJob 0 fun b => { b with members := [(0, 77), (1, 78)] }, 7, 1, 78, 0, 1, keyNote, 12, by decide +kernel, by decide +kernel,
    by decide +kernel, by decide +kernel, by decide +kernel, by decide +kernel, keyNote_ok rfl (by decide +kernel), by decide +kernel⟩,
  ⟨put (up.updJob 0 fun b => { b with members := [(0, 77), (1, 78)], leaderPos := 1, reqTo := 1, eph := 9 }) [(.GLB_JOB_STATE, 0, jobKeying)],
    7, 0, keyResp, 0xcdb5e13d27081625396a1a49fe199cb5fb0203272669d3458f8dca2127d5f5bf, 13, by decide +kernel, by decide +kernel,
    by decide +kernel, by decide +kernel, keyResp_ok rfl (by decide +kernel), by decide +kernel⟩,
  ⟨up.updJob 0 fun b => { b with members := [(0, 77), (1, 78)], leaderPos := 1, reqTo := 1, eph := 9 }, 7, 1, 0, keyResp,
    0xcdb5e13d27081625396a1a49fe199cb5fb0203272669d3458f8dca2127d5f5bf, 13, by decide +kernel, by decide +kernel, by decide +kernel,
    by decide +kernel, keyResp_ok rfl (by decide +kernel), by decide +kernel⟩,
  ⟨up.updJob 0 fun b => { b with members := [(0, 77), (1, 78)], leaderPos := 1, reqTo := 1, eph := 9 }, 7, 1, 0, keyNote,
    by decide +kernel, by decide +kernel, by decide +kernel, by decide +kernel, keyNote_ok rfl (by decide +kernel), by decide +kernel⟩,
  ⟨due (put up [(.GLB_JOB_STATE, 0, jobKeying)]) (.keyReqUnanswered 0), 7, 0, by decide +kernel⟩,
  ⟨due up (.keyReqRetry 0), 0, 5, by decide +kernel⟩,
  ⟨due up (.keyReqUnanswered 0), 0, 5, by decide +kernel⟩,
  ⟨due (up.updJob 0 fun b => { b with openSrc := some (.iamel 1, 0) }) (.keyFail 0), 0, 5, _, by decide +kernel, rfl⟩⟩

theorem witness_renewalCompletes :
    (∃ s : State, ∃ j d, s.timers.look (.renewal j) = some d ∧ (let u := at_ s (.renewal j) d; u.jobState j = jobOpened ∧
      (u.job j).pos = (u.job j).leaderPos ∧ (u.job j).renewing = false)) ∧
    (∃ s : State, ∃ j, s.phase = .running ∧ s.jobState j = jobOpened) ∧
    (∃ s : State, ∃ j, s.phase = .running ∧ s.jobState j = jobOpened ∧ (s.job j).renewing = true ∧ (s.job j).switchAt = none) ∧
    (∃ s : State, ∃ j d, s.timers.look (.genSwitch j) = some d ∧ (let u := at_ s (.genSwitch j) d; u.jobState j = jobOpened ∧
      (u.job j).renewing = true)) ∧
    (∃ s : State, ∃ j d, s.timers.look (.oldGen j) = some d) ∧
    (∃ s : State, ∃ j d, s.timers.look (.renewalRepeat j) = some d ∧ (let u := at_ s (.renewalRepeat j) d; u.jobState j = jobOpened ∧
      (u.job j).switchAt = none ∧ (u.job j).renewing = true)) ∧
    (∃ s : State, ∃ j d, s.timers.look (.genExpiry j) = some d ∧ (let u := at_ s (.genExpiry j) d; u.jobState j = jobOpened)) ∧
    (∃ s : State, ∃ j k b, s.phase = .running ∧ s.jobs.look j = some b ∧ k < b.members.length) ∧
    (∃ s : State, ∃ j d, s.timers.look (.closeManifest j) = some d) ∧
    (∃ s : State, ∃ c d, s.timers.look (.epochErase c) = some d) :=
  ⟨⟨due up (.renewal 0), 0, 5, by decide +kernel, by decide +kernel⟩,
  ⟨up, 0, by decide +kernel⟩,
  ⟨up.updJob 0 fun b => { b with keys := ⟨[(0, 12), (1, 13)]⟩ }, 0, by decide +kernel⟩,
  ⟨due (up.updJob 0 fun b => { b with keys := ⟨[(0, 12), (1, 13)]⟩ }) (.genSwitch 0), 0, 5, by decide +kernel, by decide +kernel⟩,
  ⟨due up (.oldGen 0), 0, 5, by decide +kernel⟩,
  ⟨due (up.updJob 0 fun b => { b with keys := ⟨[(0, 12), (1, 13)]⟩ }) (.renewalRepeat 0), 0, 5, by decide +kernel, by decide +kernel⟩,
  ⟨due up (.genExpiry 0), 0, 5, by decide +kernel, by decide +kernel⟩,
  ⟨up, 0, 0, _, by decide +kernel, rfl, by decide +kernel⟩,
  ⟨due up (.closeManifest 0), 0, 5, by decide +kernel⟩,
  ⟨due up (.epochErase 1), 1, 5, by decide +kernel⟩⟩

theorem witness_trustEventsComplete :
    (∃ s : State, s.phase = .running) ∧
    (∃ s : State, ∃ d, s.phase = .running ∧ s.timers.look .challenge = some d ∧ s.now ≤ d) ∧
    (∃ s : State, ∃ via : SpdmVia, s.phase ≠ .auxHeld ∧ s.rd .MG_STATUS_STATE ≠ 3 ∧ ((s.mgRoom = true ∨ ∀ n, via ≠ .mg n))) ∧
    (∃ s : State, ∃ k d, s.timers.look (.fmSession k) = some d) ∧
    (∃ s : State, ∃ f r, s.phase = .running ∧ s.drained f = true ∧ (s.ferry f).drainSrc = some r) ∧
    (∃ s : State, ∃ i, s.phase = .running ∧ (s.invals.find? fun i => !s.invalWaits i) = some i) :=
  ⟨⟨up, by decide +kernel⟩,
  ⟨due up .challenge, 5, by decide +kernel⟩,
  ⟨up, SpdmVia.mctp, by decide +kernel, by decide +kernel, Or.inl (by decide +kernel)⟩,
  ⟨due up (.fmSession 3), 3, 5, by decide +kernel⟩,
  ⟨(put up [(.FX_STATUS_STATE, 0, fxDraining)]).updFerry 0 fun x => { x with drainSrc := some (.iamel 1, 0) }, 0, _, by decide +kernel,
    by decide +kernel, rfl⟩,
  ⟨{ up with invals := [⟨(.iamel 1, 0), [9], []⟩] }, _, by decide +kernel, rfl⟩⟩

theorem witness_packetArrivalsComplete :
    (∃ s : State, ∃ p r v c x blk bytes, Arrives s p r v c x ∧ p.ptype = tyData ∧ isMcast p.dest = false ∧ r.body = .data blk bytes ∧
      (x.rx 0).psnCase r.psn = .new ∧ v.regionAway x blk = false ∧ v.busyRow x r blk bytes = none) ∧
    (∃ s : State, ∃ p r u j h f n l bytes, s.phase = .running ∧ s.fatal = false ∧ isMcast p.dest = true ∧ s.mcAuth p = (u, some (j, r)) ∧
      r.body = .data (.hmsg true h f n l) bytes ∧ u.hmsgCause j h f n l = 0 ∧ u.hmsgRoom f = true) ∧
    (∃ s : State, ∃ p r v c x a, Arrives s p r v c x ∧ p.ptype = tyAck ∧ r.body = .ack a) ∧
    (∃ s : State, ∃ p r v c x, Arrives s p r v c x ∧ p.ptype = tyNackBusy ∧ p.body = .none ∧
      ((x.tx p.stream).una.any fun u => decide (u.pkt.psn = p.psn)) = true) ∧
    (∃ s : State, ∃ p r v c x bytes, Arrives s p r v c x ∧ p.ptype = tyRespData ∧ r.body = .resp bytes ∧ (x.rx 1).psnCase r.psn = .new ∧
      v.storeFull (x.rx 1) r false false = false) ∧
    (∃ s : State, ∃ p r v c x es, Arrives s p r v c x ∧ p.ptype = tyRespStatus ∧ r.body = .status es ∧ (x.rx 1).psnCase r.psn = .new ∧
      v.storeFull (x.rx 1) r true false = false) :=
  ⟨⟨upCtx, spkt 1 sPut, { spkt 1 sPut with body := .data (.oneSided 0x08 false false false false 0 0 256 1 0 0) [1] }, _, cx,
    rxCtxOf (upCtx) ({ spkt 1 sPut with body := .data (.oneSided 0x08 false false false false 0 0 256 1 0 0) [1] }) cx, _, _,
    arrives (sealedOpens (by decide +kernel) (by decide +kernel)) (by decide +kernel), by decide +kernel, by decide +kernel, rfl,
    by decide +kernel⟩,
  ⟨up, mpkt sHmsg, { mpkt sHmsg with body := .data (.hmsg true 0x80 0 1 0) [1] }, _, 0, 0x80, 0, 1, 0, [1], by decide +kernel,
    by decide +kernel, by decide +kernel, groupPass (groupOpens (by decide +kernel) (by decide +kernel)) (by decide +kernel), rfl,
    by decide +kernel⟩,
  ⟨upCtx, spkt 8 sAck, { spkt 8 sAck with body := .ack ⟨0, [], 0, 0, 0, 0, 0, none, 0⟩ }, _, cx,
    rxCtxOf (upCtx) ({ spkt 8 sAck with body := .ack ⟨0, [], 0, 0, 0, 0, 0, none, 0⟩ }) cx, _,
    arrives (sealedOpens (by decide +kernel) (by decide +kernel)) (by decide +kernel), by decide +kernel, rfl⟩,
  ⟨{ up with ctxs := ⟨[(cx, { ctx0 with snd := ⟨[(0, { una := [⟨{ spkt tyData [] with mtag := 3 }, 0, 0, false, false⟩] })]⟩ })]⟩ },
    nackPkt [], nackPkt [], _, cx, { ctx0 with snd := ⟨[(0, { una := [⟨{ spkt tyData [] with mtag := 3 }, 0, 0, false, false⟩] })]⟩ },
    arrivesNack rfl (by decide +kernel), by decide +kernel⟩,
  ⟨upCtx, spkt 3 sResp, { spkt 3 sResp with body := .resp [1] }, _, cx, rxCtxOf (upCtx) ({ spkt 3 sResp with body := .resp [1] }) cx, _,
    arrives (sealedOpens (by decide +kernel) (by decide +kernel)) (by decide +kernel), by decide +kernel, rfl, by decide +kernel⟩,
  ⟨upCtx, spkt 4 sStatus, { spkt 4 sStatus with body := .status [⟨0, 0, 0⟩] }, _, cx,
    rxCtxOf (upCtx) ({ spkt 4 sStatus with body := .status [⟨0, 0, 0⟩] }) cx, _,
    arrives (sealedOpens (by decide +kernel) (by decide +kernel)) (by decide +kernel), by decide +kernel, rfl, by decide +kernel⟩⟩

theorem witness_closesComplete :
    (∃ s : State, ∃ p r v c x q n, Arrives s p r v c x ∧ p.ptype = tyCloseReq ∧ r.body = .close q n) ∧
    (∃ s : State, ∃ p r v c x q n, Arrives s p r v c x ∧ p.ptype = tyCloseAck ∧ r.body = .close q n ∧ x.state = .closing) ∧
    (∃ s : State, ∃ p r v c x q n, Arrives s p r v c x ∧ p.ptype = tyCloseRefuse ∧ r.body = .close q n ∧ x.state = .closing ∧
      x.jobClose = false) ∧
    (∃ s : State, ∃ c d x, s.timers.look (.closeQuiet c) = some d ∧ (at_ s (.closeQuiet c) d).ctxs.look c = some x ∧ x.cached = true ∧
      x.state = .closing) ∧
    (∃ s : State, ∃ c d, s.timers.look (.quiet c) = some d ∧ (let u := at_ s (.quiet c) d; Cached u c)) ∧
    (∃ s : State, ∃ p r v c x w o n, Arrives s p r v c x ∧ p.ptype = tyColl ∧ r.body = .revoke 0xE1 w o n ∧
      (x.rx 2).psnCase r.psn = .new) ∧
    (∃ s : State, ∃ p r v c x w o n, Arrives s p r v c x ∧ p.ptype = tyColl ∧ r.body = .revoke 0xE2 w o n ∧
      (x.rx 2).psnCase r.psn = .new) ∧
    (∃ s : State, ∃ p r v c x w o n, Arrives s p r v c x ∧ p.ptype = tyColl ∧ r.body = .revoke 0xE3 w o n ∧ (x.rx 2).psnCase r.psn = .new) :=
  ⟨⟨upCtx, spkt 10 sCloseReq, { spkt 10 sCloseReq with body := .close 0 0 }, _, cx,
    rxCtxOf (upCtx) ({ spkt 10 sCloseReq with body := .close 0 0 }) cx, 0, 0,
    arrives (sealedOpens (by decide +kernel) (by decide +kernel)) (by decide +kernel), by decide +kernel, rfl⟩,
  ⟨{ up with ctxs := ⟨[(cx, { ctx0 with state := .closing })]⟩ }, spkt 11 sCloseAck, { spkt 11 sCloseAck with body := .close 0 0 }, _, cx,
    rxCtxOf ({ up with ctxs := ⟨[(cx, { ctx0 with state := .closing })]⟩ }) ({ spkt 11 sCloseAck with body := .close 0 0 }) cx, 0, 0,
    arrives (sealedOpens (by decide +kernel) (by decide +kernel)) (by decide +kernel), by decide +kernel, rfl, by decide +kernel⟩,
  ⟨{ up with ctxs := ⟨[(cx, { ctx0 with state := .closing })]⟩ }, spkt 12 sCloseRefuse, { spkt 12 sCloseRefuse with body := .close 0 0 },
    _, cx, rxCtxOf ({ up with ctxs := ⟨[(cx, { ctx0 with state := .closing })]⟩ }) ({ spkt 12 sCloseRefuse with body := .close 0 0 }) cx,
    0, 0, arrives (sealedOpens (by decide +kernel) (by decide +kernel)) (by decide +kernel), by decide +kernel, rfl, by decide +kernel⟩,
  ⟨due ({ up with ctxs := ⟨[(cx, { ctx0 with state := .closing })]⟩ }) (.closeQuiet cx), cx, 5, _, by decide +kernel, rfl, rfl,
    by decide +kernel⟩,
  ⟨due upCtx (.quiet cx), cx, 5, by decide +kernel, cached_now (by decide +kernel)⟩,
  ⟨upCtx, spkt 2 sRevoke1, { spkt 2 sRevoke1 with body := .revoke 0xE1 255 0 1 }, _, cx,
    rxCtxOf (upCtx) ({ spkt 2 sRevoke1 with body := .revoke 0xE1 255 0 1 }) cx, 255, 0, 1,
    arrives (sealedOpens (by decide +kernel) (by decide +kernel)) (by decide +kernel), by decide +kernel, rfl, by decide +kernel⟩,
  ⟨upCtx, spkt 2 sRevoke2, { spkt 2 sRevoke2 with body := .revoke 0xE2 255 0 1 }, _, cx,
    rxCtxOf (upCtx) ({ spkt 2 sRevoke2 with body := .revoke 0xE2 255 0 1 }) cx, 255, 0, 1,
    arrives (sealedOpens (by decide +kernel) (by decide +kernel)) (by decide +kernel), by decide +kernel, rfl, by decide +kernel⟩,
  ⟨upCtx, spkt 2 sRevoke3, { spkt 2 sRevoke3 with body := .revoke 0xE3 255 0 1 }, _, cx,
    rxCtxOf (upCtx) ({ spkt 2 sRevoke3 with body := .revoke 0xE3 255 0 1 }) cx, 255, 0, 1,
    arrives (sealedOpens (by decide +kernel) (by decide +kernel)) (by decide +kernel), by decide +kernel, rfl, by decide +kernel⟩⟩

theorem witness_transportEventsComplete :
    (∃ s : State, ∃ c st x p new, s.phase = .running ∧ s.fatal = false ∧ s.ctxs.look c = some x ∧ x.state ≠ .quiet ∧ x.cached = true ∧
      (s.job x.slot).held.contains (s.job x.slot).gen = true ∧ (x.tx st).pick = some (p, new) ∧ bucketCost p ≤ s.bucketNow (x.tx st)) ∧
    (∃ s : State, ∃ c st n d, s.timers.look (.nackRetry c st n) = some d ∧ (let u := at_ s (.nackRetry c st n) d; Cached u c)) ∧
    (∃ s : State, ∃ c st d x, s.timers.look (.ackDelay c st) = some d ∧ (at_ s (.ackDelay c st) d).ctxs.look c = some x ∧
      x.cached = true ∧ x.state ≠ .quiet) ∧
    (∃ s : State, ∃ c st d, s.timers.look (.rto c st) = some d ∧ (let u := at_ s (.rto c st) d; Cached u c)) ∧
    (∃ s : State, ∃ c st d x, s.timers.look (.rto c st) = some d ∧ (let u := at_ s (.rto c st) d; u.ctxs.look c = some x ∧
      x.cached = false)) ∧
    (∃ s : State, ∃ c d x, s.timers.look (.ctxFail c) = some d ∧ (let u := at_ s (.ctxFail c) d; u.ctxs.look c = some x ∧
      x.cached = true ∧ ((u.owesWork c = true ∨ x.state = .closing)))) ∧
    (∃ s : State, ∃ c d, s.timers.look (.idleClose c) = some d ∧ (let u := at_ s (.idleClose c) d; Cached u c ∧ u.ctxIdle c = true)) ∧
    (∃ s : State, ∃ c x, s.phase = .running ∧ s.ctxs.look c = some x ∧ x.fetching = true) ∧
    (∃ s : State, ∃ key r, s.phase = .running ∧ s.regions.look key = some r ∧ r.cached = false) ∧
    (∃ s : State, ∃ key, s.phase = .running ∧ s.regions.look key = none) ∧
    (∃ s : State, ∃ j w o n d, s.timers.look (.revokeRepeat j w o n) = some d) ∧
    (∃ s : State, ∃ j w d, s.timers.look (.revokeFail j w) = some d) ∧
    (∃ s : State, ∃ key r q, s.phase = .running ∧ s.regions.look key = some r ∧ r.live = false ∧ s.regionBusy key = false ∧
      r.src = some q) ∧
    (∃ s : State, ∃ key d, s.timers.look (.quarantine key) = some d) :=
  ⟨⟨{ up with ctxs := ⟨[(cx, { ctx0 with snd := ⟨[(0, { waiting := [spkt tyData []], bucket := 320 * 64 })]⟩ })]⟩ }, cx, 0,
    { ctx0 with snd := ⟨[(0, { waiting := [spkt tyData []], bucket := 320 * 64 })]⟩ }, spkt tyData [], true, by decide +kernel⟩,
  ⟨due upCtx (.nackRetry cx 0 1), cx, 0, 1, 5, by decide +kernel, cached_now (by decide +kernel)⟩,
  ⟨due upCtx (.ackDelay cx 0), cx, 0, 5, _, by decide +kernel, rfl, by decide +kernel⟩,
  ⟨due upCtx (.rto cx 0), cx, 0, 5, by decide +kernel, cached_now (by decide +kernel)⟩,
  ⟨due { up with ctxs := ⟨[(cx, { ctx0 with cached := false })]⟩ } (.rto cx 0), cx, 0, 5, _, by decide +kernel, rfl, rfl⟩,
  ⟨due ({ up with ctxs := ⟨[(cx, { ctx0 with state := .closing })]⟩ }) (.ctxFail cx), cx, 5, _, by decide +kernel, rfl, rfl, Or.inr rfl⟩,
  ⟨due upCtx (.idleClose cx), cx, 5, by decide +kernel, cached_now (by decide +kernel), by decide +kernel⟩,
  ⟨{ up with ctxs := ⟨[(cx, { ctx0 with cached := false, fetching := true })]⟩ }, cx, _, by decide +kernel, rfl, rfl⟩,
  ⟨{ up with regions := ⟨[(256, ⟨0, 7, ⟨0, 64, 5, 0, 3, false⟩, [], true, false, none⟩)]⟩ }, 256, ⟨0, 7, ⟨0, 64, 5, 0, 3, false⟩, [],
    true, false, none⟩, by decide +kernel⟩,
  ⟨up, 256, by decide +kernel⟩,
  ⟨due up (.revokeRepeat 0 1 0 1), 0, 1, 0, 1, 5, by decide +kernel⟩,
  ⟨due up (.revokeFail 0 1), 0, 1, 5, by decide +kernel⟩,
  ⟨{ up with regions := ⟨[(256, ⟨0, 7, ⟨0, 64, 5, 0, 3, false⟩, [], false, true, some (.iamel 1, 0)⟩)]⟩ }, 256, ⟨0, 7, ⟨0, 64, 5, 0, 3,
    false⟩, [], false, true, some (.iamel 1, 0)⟩, (.iamel 1, 0), by decide +kernel⟩,
  ⟨due up (.quarantine 256), 256, 5, by decide +kernel⟩⟩

theorem witness_transfersComplete :
    (∃ s : State, ∃ id x, s.phase = .running ∧ s.fatal = false ∧ s.xfers.look id = some x ∧ x.kind.isFlush = false ∧
      x.kind.isAtomic = false ∧ x.kind.isCopy = false ∧ x.kind.isMem = false) ∧
    (∃ s : State, ∃ id x, s.phase = .running ∧ s.fatal = false ∧ s.xfers.look id = some x ∧ x.kind.isFlush = false ∧
      x.kind.isAtomic = false ∧ x.kind.isCopy = false ∧ x.kind.isMem = true) ∧
    (∃ s : State, ∃ id x, s.phase = .running ∧ s.fatal = false ∧ s.xfers.look id = some x ∧ x.kind.isFlush = true) ∧
    (∃ s : State, ∃ id x c m n e, s.phase = .running ∧ s.fatal = false ∧ s.xfers.look id = some x ∧ x.kind = .hostAtomic c m n e) ∧
    (∃ s : State, ∃ id x, s.phase = .running ∧ s.fatal = false ∧ s.xfers.look id = some x ∧ x.kind.isCopy = true) ∧
    (∃ s : State, s.phase = .running) ∧
    (∃ s : State, ∃ j, s.phase = .running ∧ j < 256) :=
  ⟨⟨{ up with xfers := ⟨[(9, ⟨.place cx 1 0, true, [(.host 0 64, 8)], [], 0, false⟩)]⟩ }, 9, ⟨.place cx 1 0, true, [(.host 0 64, 8)], [],
    0, false⟩, by decide +kernel⟩,
  ⟨{ up with xfers := ⟨[(9, ⟨.memAtomic cx 1, true, [(.host 0 64, 8)], [], 0, false⟩)]⟩ }, 9, ⟨.memAtomic cx 1, true, [(.host 0 64, 8)],
    [], 0, false⟩, by decide +kernel⟩,
  ⟨{ up with xfers := ⟨[(9, ⟨.flushT cx 1, true, [(.host 0 64, 8)], [], 0, false⟩)]⟩ }, 9, ⟨.flushT cx 1, true, [(.host 0 64, 8)], [], 0,
    false⟩, by decide +kernel⟩,
  ⟨{ up with xfers := ⟨[(9, ⟨.hostAtomic cx 1 0 none, true, [(.host 0 64, 8)], [], 0, false⟩)]⟩ }, 9, ⟨.hostAtomic cx 1 0 none, true,
    [(.host 0 64, 8)], [], 0, false⟩, cx, 1, 0, none, by decide +kernel⟩,
  ⟨{ up with xfers := ⟨[(9, ⟨.unexpected 4, true, [(.host 0 64, 8)], [], 0, false⟩)]⟩ }, 9, ⟨.unexpected 4, true, [(.host 0 64, 8)], [],
    0, false⟩, by decide +kernel⟩,
  ⟨up, by decide +kernel⟩,
  ⟨up, 255, by decide +kernel⟩⟩

theorem witness_collectivePacketsComplete :
    (∃ s : State, ∃ p r v c x h d, CollNew s p r ckJoin v c x h d) ∧
    (∃ s : State, ∃ p r v c x h d, CollNew s p r ckPart v c x h d) ∧
    (∃ s : State, ∃ p r v c x h d, CollNew s p r ckEscape v c x h d) ∧
    (∃ s : State, ∃ p r v c x h d, CollNew s p r ckResult v c x h d) ∧
    (∃ s : State, ∃ p r v c x h d, CollNew s p r ckDone v c x h d) ∧
    (∃ s : State, ∃ p r v c x h d, CollNew s p r ckFail v c x h d) ∧
    (∃ s : State, ∃ p r v c x h d, CollNew s p r ckRejoin v c x h d) ∧
    (∃ s : State, ∃ p r v c x h d, CollNew s p r ckRerun v c x h d) ∧
    (∃ s : State, ∃ p r v c x h d, CollNew s p r ckCredit v c x h d) :=
  ⟨⟨upCtx, spkt 2 sJoin, { spkt 2 sJoin with body := .coll (collHead ckJoin) (.none) }, _, cx,
    rxCtxOf upCtx ({ spkt 2 sJoin with body := .coll (collHead ckJoin) (.none) }) cx, collHead ckJoin, .none,
    ⟨arrives (sealedOpens (by decide +kernel) (by decide +kernel)) (by decide +kernel), by decide +kernel, rfl, by decide +kernel,
    by decide +kernel⟩⟩,
  ⟨upCtx, spkt 2 sPart, { spkt 2 sPart with body := .coll (collHead ckPart) (.windows [] []) }, _, cx,
    rxCtxOf upCtx ({ spkt 2 sPart with body := .coll (collHead ckPart) (.windows [] []) }) cx, collHead ckPart, .windows [] [],
    ⟨arrives (sealedOpens (by decide +kernel) (by decide +kernel)) (by decide +kernel), by decide +kernel, rfl, by decide +kernel,
    by decide +kernel⟩⟩,
  ⟨upCtx, spkt 2 sEscape, { spkt 2 sEscape with body := .coll (collHead ckEscape) (.escapes []) }, _, cx,
    rxCtxOf upCtx ({ spkt 2 sEscape with body := .coll (collHead ckEscape) (.escapes []) }) cx, collHead ckEscape, .escapes [],
    ⟨arrives (sealedOpens (by decide +kernel) (by decide +kernel)) (by decide +kernel), by decide +kernel, rfl, by decide +kernel,
    by decide +kernel⟩⟩,
  ⟨upCtx, spkt 2 sResult, { spkt 2 sResult with body := .coll (collHead ckResult) (.values []) }, _, cx,
    rxCtxOf upCtx ({ spkt 2 sResult with body := .coll (collHead ckResult) (.values []) }) cx, collHead ckResult, .values [],
    ⟨arrives (sealedOpens (by decide +kernel) (by decide +kernel)) (by decide +kernel), by decide +kernel, rfl, by decide +kernel,
    by decide +kernel⟩⟩,
  ⟨upCtx, spkt 2 sDone, { spkt 2 sDone with body := .coll (collHead ckDone) (.none) }, _, cx,
    rxCtxOf upCtx ({ spkt 2 sDone with body := .coll (collHead ckDone) (.none) }) cx, collHead ckDone, .none,
    ⟨arrives (sealedOpens (by decide +kernel) (by decide +kernel)) (by decide +kernel), by decide +kernel, rfl, by decide +kernel,
    by decide +kernel⟩⟩,
  ⟨upCtx, spkt 2 sFail, { spkt 2 sFail with body := .coll (collHead ckFail) (.none) }, _, cx,
    rxCtxOf upCtx ({ spkt 2 sFail with body := .coll (collHead ckFail) (.none) }) cx, collHead ckFail, .none,
    ⟨arrives (sealedOpens (by decide +kernel) (by decide +kernel)) (by decide +kernel), by decide +kernel, rfl, by decide +kernel,
    by decide +kernel⟩⟩,
  ⟨upCtx, spkt 2 sRejoin, { spkt 2 sRejoin with body := .coll (collHead ckRejoin) (.none) }, _, cx,
    rxCtxOf upCtx ({ spkt 2 sRejoin with body := .coll (collHead ckRejoin) (.none) }) cx, collHead ckRejoin, .none,
    ⟨arrives (sealedOpens (by decide +kernel) (by decide +kernel)) (by decide +kernel), by decide +kernel, rfl, by decide +kernel,
    by decide +kernel⟩⟩,
  ⟨upCtx, spkt 2 sRerun, { spkt 2 sRerun with body := .coll (collHead ckRerun) (.none) }, _, cx,
    rxCtxOf upCtx ({ spkt 2 sRerun with body := .coll (collHead ckRerun) (.none) }) cx, collHead ckRerun, .none,
    ⟨arrives (sealedOpens (by decide +kernel) (by decide +kernel)) (by decide +kernel), by decide +kernel, rfl, by decide +kernel,
    by decide +kernel⟩⟩,
  ⟨upCtx, spkt 2 sCredit, { spkt 2 sCredit with body := .coll (collHead ckCredit) (.none) }, _, cx,
    rxCtxOf upCtx ({ spkt 2 sCredit with body := .coll (collHead ckCredit) (.none) }) cx, collHead ckCredit, .none,
    ⟨arrives (sealedOpens (by decide +kernel) (by decide +kernel)) (by decide +kernel), by decide +kernel, rfl, by decide +kernel,
    by decide +kernel⟩⟩⟩

theorem witness_collectiveEventsComplete :
    (∃ s : State, ∃ c i d, s.timers.look (.coll c i) = some d) ∧
    (∃ s : State, ∃ c d x p, s.timers.look (.rejoin c) = some d ∧ (let u := at_ s (.rejoin c) d; u.colls.look c = some x ∧
      x.parent = some p)) ∧
    (∃ s : State, ∃ c node x, s.phase = .running ∧ s.fatal = false ∧ s.colls.look c = some x ∧ (x.freed.look node).getD 0 ≠ 0) ∧
    (∃ s : State, s.phase = .running ∧ s.colls.size = 0) ∧
    (∃ s : State, ∃ c n, s.phase = .running ∧ lowest (s.spilledRecvs c ++ s.spilledMsgs c) = some n) ∧
    (∃ s : State, s.phase = .running) ∧
    (∃ s : State, s.phase = .running ∧ s.jobsActive = 0) ∧
    (∃ s : State, ∃ j, s.phase = .running ∧ j < 256) :=
  ⟨⟨due up (.coll 6 0), 6, 0, 5, by decide +kernel⟩,
  ⟨due { up with colls := ⟨[(6, { coll0 with parent := some 1, insts := [{ num := 0, q := 3, i := 0, iter := 0, cmd := ⟨false, false, false, 0, 3, 0, 0, 6, 0, 1, 0, 64⟩, rejoin := true }] })]⟩ } (.rejoin 6),
    6, 5, _, _, by decide +kernel, rfl, rfl⟩,
  ⟨{ up with colls := ⟨[(6, { coll0 with freed := ⟨[(1, 2)]⟩ })]⟩ }, 6, 1, { coll0 with freed := ⟨[(1, 2)]⟩ }, by decide +kernel⟩,
  ⟨State.reset, by decide +kernel⟩,
  ⟨spill, 0, 8, spilled⟩,
  ⟨up, by decide +kernel⟩,
  ⟨State.reset, by decide +kernel⟩,
  ⟨up, 0, by decide +kernel⟩⟩

theorem witness_counterRowsComplete :
    (∃ s : State, ∃ u k w, s.phase = .running ∧ u < 295 ∧ k < 4 ∧ s.unitOn u = true ∧
      selOk u (Fld.of .EC_SEL_MODE w) (Fld.of .EC_SEL_EVENT w) (Fld.of .EC_SEL_SUB w) = true) ∧
    (∃ s : State, ∃ u k, s.phase = .running ∧ u < 295 ∧ k < 4 ∧ s.unitOn u = true) ∧
    (∃ s : State, ∃ p w, s.phase = .running ∧ s.portOn p = true ∧ s.rd .EC_HIST_CFG_CLASS p ≠ Fld.of .EC_HIST_CFG_CLASS w) ∧
    (∃ s : State, ∃ p, s.phase = .running ∧ s.portOn p = true) ∧
    (∃ s : State, s.phase = .running ∧ s.fatal = false ∧ s.nextSnaps ≠ []) ∧
    (∃ s : State, ∃ k ok n t done, s.phase = .running ∧ s.fatal = false ∧ s.snaps.look k = some n ∧ n.captured = true ∧
      s.writeSnap n ok = some (t, done)) :=
  ⟨⟨up, 294, 3, 0, by decide +kernel⟩,
  ⟨up, 294, 3, by decide +kernel⟩,
  ⟨up, 71, 1, by decide +kernel⟩,
  ⟨up, 71, by decide +kernel⟩,
  ⟨{ up with snaps := ⟨[(0, ⟨(.iamel 1, 0), 9, 0, false, 0, []⟩)]⟩ }, by decide +kernel⟩,
  ⟨{ up with snaps := ⟨[(0, ⟨(.iamel 1, 0), 9, 0, true, 0, []⟩)]⟩ }, 0, true, ⟨(.iamel 1, 0), 9, 0, true, 0, []⟩, _, true,
    by decide +kernel, by decide +kernel, rfl, by decide +kernel, rfl⟩⟩

theorem witness_faultRowsComplete :
    (∃ s : State, ∃ n, s.phase ≠ .auxHeld ∧ srcKnown n = true ∧ s.srcOn n = true) ∧
    (∃ s : State, ∃ n, s.phase ≠ .auxHeld ∧ srcKnown n = true ∧ s.srcOn n = true ∧
      ((s.rd .FT_SRC_REACT n ≠ rcFatal ∨ s.jobsActive = 0))) ∧
    (∃ s : State, ∃ n w, s.phase ≠ .auxHeld ∧ srcKnown n = true ∧ Fld.of .FT_SRC_FORCE w = 0) ∧
    (∃ s : State, ∃ n, s.phase ≠ .auxHeld ∧ n < 512) ∧
    (∃ s : State, ∃ n, s.phase = .running ∧ srcKnown n = true ∧ s.srcOn n = true ∧ s.rd .FT_SRC_REACT n = rcFatal) ∧
    (∃ s : State, s.phase ≠ .auxHeld) :=
  ⟨⟨up, 249, by decide +kernel⟩,
  ⟨up, 402, by decide +kernel, by decide +kernel, by decide +kernel, Or.inl (by decide +kernel)⟩,
  ⟨up, 249, 0, by decide +kernel⟩,
  ⟨up, 511, by decide +kernel⟩,
  ⟨put up [(.FT_SRC_REACT, 249, 3)], 249, by decide +kernel⟩,
  ⟨up, by decide +kernel⟩⟩

theorem witness_wharfRowsComplete :
    (∃ s : State, ∃ f a, s.phase = .running ∧ s.ferryOn f = true ∧ s.inWharf a = true) ∧
    (∃ s : State, ∃ a, s.phase = .running ∧ s.inWharf a = true ∧ s.poisoned (lineOf a) 64 = false) ∧
    (∃ s : State, ∃ a, ∃ bytes : List Byte, s.phase = .running ∧ s.inWharf a = true ∧ s.inWharf (a + bytes.length - 1) = true) ∧
    (∃ s : State, ∃ a, ∃ big : Bool, s.phase = .running ∧ (let n := if big then 8 else 4; s.inWharf a = true ∧
      s.inWharf (a + n - 1) = true ∧ a % n = 0 ∧ s.poisoned a n = false)) ∧
    (∃ s : State, ∃ a l, s.phase = .running ∧ s.line a = some l) ∧
    (∃ s : State, ∃ a, s.phase = .running ∧ s.inWharf a = true) :=
  ⟨⟨up, 63, 0x0300000000, by decide +kernel⟩,
  ⟨up, 0x0300000000, by decide +kernel⟩,
  ⟨up, 0x0300000000, [1, 2], by decide +kernel⟩,
  ⟨up, 0x0300000000, true, by decide +kernel, by decide +kernel⟩,
  ⟨{ up with lines := [⟨0x0300000000, none, [], []⟩] }, 0x0300000000, ⟨0x0300000000, none, [], []⟩, by decide +kernel⟩,
  ⟨up, 0x0300000000, by decide +kernel⟩⟩

theorem witness_lockRowsComplete :
    (∃ s : State, ∃ n w, s.phase = .running ∧ n < 4096 ∧ s.lockHostOk n w = true) ∧
    (∃ s : State, ∃ g, s.phase = .running ∧ g < 16 ∧ s.groupFree g = true) ∧
    (∃ s : State, s.phase = .running ∧ s.jobsActive = 0) ∧
    (∃ s : State, ∃ a, s.phase = .running ∧ s.flag .LK_CFG_MAINT = true ∧ s.inWharf a = true ∧ a % 8 = 0) :=
  ⟨⟨up, 4095, 0x8000, by decide +kernel⟩,
  ⟨up, 15, by decide +kernel⟩,
  ⟨State.reset, by decide +kernel⟩,
  ⟨put up [(.LK_CFG_MAINT, 0, 1)], 0x0300000000, by decide +kernel⟩⟩

theorem witness_registerRowsComplete :
    (∃ s : State, ∃ a, s.phase = .running ∧ a < 4096 ∧ s.flag .TX_ASID_LOCKED a = false) ∧
    (∃ s : State, ∃ a sp, s.phase = .running ∧ a < 4096 ∧ sp < 8 ∧ s.flag .TX_ASID_LOCKED a = false ∧
      s.flag .TX_SPAN_BASE_VALID (8 * a + sp) = false) ∧
    (∃ s : State, ∃ a sp v, s.phase = .running ∧ a < 4096 ∧ sp < 8 ∧ s.flag .TX_ASID_LOCKED a = false ∧
      s.flag .TX_SPAN_BASE_VALID (8 * a + sp) = true ∧ Fld.of .TX_SPAN_BASE_VALID v = 0) ∧
    (∃ s : State, s.phase = .running ∧ s.ctlDiscards 8 = false) ∧
    (∃ s : State, ∃ p w, s.phase = .running ∧ p < 2 ∧ w < 16) ∧
    (∃ s : State, ∃ p vf v, s.phase = .running ∧ p < 2 ∧ 1 ≤ vf ∧ vf ≤ 252 ∧ Fld.of .HI_VF_QBASE v ≠ 0 ∧ Fld.of .HI_VF_QBASE v % 64 = 0 ∧
      s.boundQueues (fun k => decide (s.qFunc k = (253 * p + vf) / 253 * 256 + (253 * p + vf) % 253)) = []) ∧
    (∃ s : State, ∃ f, s.phase = .running ∧ s.fnExists f = true) ∧
    (∃ s : State, ∃ a, s.phase ≠ .auxHeld ∧ ((s.phase = .running ∨ refBlock a = true))) ∧
    (∃ s : State, ∃ f, s.phase = .running ∧ s.fnExists f = true) ∧
    (∃ s : State, ∃ f off len op i, s.phase = .running ∧ s.fnExists f = true ∧ len ≠ 0 ∧ barLenOk op len = true ∧
      off / 64 = (off + len - 1) / 64 ∧ off + len ≤ bar4Size f ∧ s.winFor f off len = some i ∧ s.winAllows i op = true) :=
  ⟨⟨up, 4095, by decide +kernel⟩,
  ⟨up, 4095, 7, by decide +kernel⟩,
  ⟨put up [(.TX_SPAN_BASE_VALID, 32767, 1)], 4095, 7, 0, by decide +kernel⟩,
  ⟨put up [(.HI_CTL_ADDR_ADDR, 0, 0x0300000000 / 8)], by decide +kernel⟩,
  ⟨up, 1, 15, by decide +kernel⟩,
  ⟨up, 1, 252, 64 * 2 ^ 48, by decide +kernel⟩,
  ⟨up, 0, by decide +kernel⟩,
  ⟨up, 0xE00000000, by decide +kernel⟩,
  ⟨up, 0, by decide +kernel⟩,
  ⟨put up [(.HI_WIN_TGT_EN, 0, 1), (.HI_WIN_BASE_R, 0, 1), (.HI_WIN_TGT_TARGET, 0, 0x30000)], 0, 65528, 8, .read, 0, by decide +kernel⟩⟩

theorem witness_routingComplete :
    (∃ s : State, ∃ inPort pkt id, s.phase = .running ∧ s.fatal = false ∧ inPort < 72 ∧ s.undecided inPort pkt = some id) ∧
    (∃ s : State, ∃ inPort pkt, s.phase = .running ∧ s.fatal = false ∧ 72 ≤ inPort ∧ inPort < 80 ∧ s.out.contains (.packet pkt) = true) ∧
    (∃ s : State, ∃ out v i id t l, s.phase = .running ∧ s.fatal = false ∧ out < 72 ∧ v < 8 ∧ s.portUp out = true ∧ s.unfit out v = none ∧
      (((s.asking out).find? fun a => decide (s.granted out = some a.1 ∧ a.2.1 = v)) = some (i, v, id)) ∧ s.transit.look id = some t ∧
      t.leg out = some l) ∧
    (∃ s : State, ∃ out v id l sub, s.phase = .running ∧ s.fatal = false ∧ out < 72 ∧ v < 8 ∧ s.portUp out = true ∧
      s.unfit out v = some (id, l, sub)) ∧
    (∃ s : State, ∃ out v id rest l, s.phase = .running ∧ s.fatal = false ∧ out < 72 ∧ 6 ≤ v ∧ v < 8 ∧ s.outQ out v = id :: rest ∧
      (s.transit.look id).bind (·.leg out) = some l) ∧
    (∃ s : State, ∃ p n r, s.phase = .running ∧ s.fatal = false ∧ (s.link p).noticesIn = n :: r) :=
  ⟨⟨{ up with transit := ⟨[(9, { inPort := 3, inVc := 0, raw := padSegs (Machine.Packet.wire (spkt tyData (List.replicate 16 0))), whole := false })]⟩ },
    3, spkt tyData (List.replicate 16 0), 9, by decide +kernel⟩,
  ⟨up.emit (.packet (spkt tyData (List.replicate 16 0))), 79, spkt tyData (List.replicate 16 0), by decide +kernel⟩,
  (let g : Leg := { out := 3, chan := 0, detour := false, mark := false };
     let t : Transit := { inPort := 0, inVc := 0, raw := padSegs (Machine.Packet.wire (spkt tyData (List.replicate 16 0))), whole := true, decided := true, legs := [g] };
    ⟨{ put up [(.LL_PORT_STATE_STATE, 3, psUp)] with transit := ⟨[(9, t)]⟩, outq := ⟨[((3, 0), [9])]⟩ }, 3, 0, 0, 9, t, g,
    by decide +kernel⟩),
  (let g : Leg := { out := 3, chan := 0, detour := false, mark := false };
     let t : Transit := { inPort := 0, inVc := 0, raw := padSegs (Machine.Packet.wire { spkt tyData (List.replicate 16 0) with hops := 8 }), whole := true, decided := true, legs := [g] };
    ⟨{ put up [(.LL_PORT_STATE_STATE, 3, psUp)] with transit := ⟨[(9, t)]⟩, outq := ⟨[((3, 0), [9])]⟩ }, 3, 0, 9, g, dropHops,
    by decide +kernel⟩),
  (let g : Leg := { out := 3, chan := 0, detour := false, mark := false };
     let t : Transit := { inPort := 0, inVc := 0, raw := padSegs (Machine.Packet.wire (spkt tyData (List.replicate 16 0))), whole := true, decided := true, legs := [g] };
    ⟨{ up with transit := ⟨[(9, t)]⟩, outq := ⟨[((3, 7), [9])]⟩ }, 3, 7, 9, [], g, by decide +kernel⟩),
  ⟨{ up with links := ⟨[(3, { noticesIn := [⟨1, 2, 3, true⟩] })]⟩ }, 3, ⟨1, 2, 3, true⟩, [], by decide +kernel⟩⟩

theorem witness_flitsComplete :
    (∃ s : State, ∃ p, s.phase = .running ∧ s.fatal = false ∧ s.linkRuns p = true) ∧
    (∃ s : State, ∃ p c f u, FlitIn s p c f u ∧ flitSeq f.pay = true ∧ u.portState p = psUp) ∧
    (∃ s : State, ∃ p c next fixed, s.phase = .running ∧ s.fatal = false ∧ s.linkRuns p = true ∧ s.takeHalf p c = some (next, fixed,
      .bad)) ∧
    (∃ s : State, ∃ p c f u cs, FlitIn s p c f u ∧ u.portState p = psUp ∧ f.pay = .credit cs) ∧
    (∃ s : State, ∃ p c f u h, FlitIn s p c f u ∧ f.pay = .hello h) ∧
    (∃ s : State, ∃ p c f u t, FlitIn s p c f u ∧ f.pay = .train t) ∧
    (∃ s : State, ∃ p c f u t, FlitIn s p c f u ∧ u.portState p = psUp ∧ f.pay = .time t) :=
  ⟨⟨put up [(.LL_PORT_STATE_STATE, 71, psUp)], 71, by decide +kernel⟩,
  ⟨upLink, 71, ⟨71, cwA, false⟩, flitData, _,
    flitIn cwA_right (n := 0) (by decide +kernel) (flit_ok (y := flitData.pay) (by decide +kernel) (by decide +kernel) (by decide +kernel)),
    by decide +kernel⟩,
  ⟨upLink, 71, ⟨71, cwC, true⟩, _, _, by decide +kernel, by decide +kernel, by decide +kernel,
    flitBad cwC_right (n := 1) (by decide +kernel) (flit_bad (by decide +kernel))⟩,
  ⟨upLink, 71, ⟨71, cwA, true⟩, flitCredit, _, [1, 0, 0, 0, 0, 0, 0, 0],
    flitIn cwA_right (n := 1) (by decide +kernel) (flit_ok (y := flitCredit.pay) (by decide +kernel) (by decide +kernel) (by decide +kernel)),
    by decide +kernel, rfl⟩,
  ⟨upLink, 71, ⟨71, cwB, false⟩, flitHello, _, _,
    flitIn cwB_right (n := 0) (by decide +kernel) (flit_ok (y := flitHello.pay) (by decide +kernel) (by decide +kernel) (by decide +kernel)),
    rfl⟩,
  ⟨upLink, 71, ⟨71, cwB, true⟩, flitTrain, _, _,
    flitIn cwB_right (n := 1) (by decide +kernel) (flit_ok (y := flitTrain.pay) (by decide +kernel) (by decide +kernel) (by decide +kernel)),
    rfl⟩,
  ⟨upLink, 71, ⟨71, cwC, false⟩, flitTime, _, _,
    flitIn cwC_right (n := 0) (by decide +kernel) (flit_ok (y := flitTime.pay) (by decide +kernel) (by decide +kernel) (by decide +kernel)),
    by decide +kernel, rfl⟩⟩

theorem witness_linkTimersComplete :
    (∃ s : State, ∃ p d, s.timers.look (.replay p) = some d ∧ (let u := at_ s (.replay p) d; u.portState p = psUp)) ∧
    (∃ s : State, ∃ p d, s.timers.look (.nackRepeat p) = some d ∧ (let u := at_ s (.nackRepeat p) d; u.portState p = psUp ∧
      (u.link p).nackSent = true)) ∧
    (∃ s : State, ∃ p d, s.timers.look (.hello p) = some d ∧ (let u := at_ s (.hello p) d; u.portState p ≠ psUp ∧
      u.portState p ≠ psDisabled)) ∧
    (∃ s : State, ∃ p d, s.timers.look (.hold p) = some d ∧ (let u := at_ s (.hold p) d; u.portState p = psHold)) ∧
    (∃ s : State, ∃ p d t, s.timers.look (.trainReq p) = some d ∧ (let u := at_ s (.trainReq p) d; u.portState p = psUp ∧
      (u.link p).trainReq = some t)) ∧
    (∃ s : State, ∃ p d, s.timers.look (.retrain p) = some d ∧ (let u := at_ s (.retrain p) d; u.portState p = psRetrain)) ∧
    (∃ s : State, ∃ p d, s.timers.look (.drain p) = some d ∧ (let u := at_ s (.drain p) d; (u.link p).disabling = true)) ∧
    (∃ s : State, ∃ p t, s.phase = .running ∧ (s.link p).lostAt = some t) ∧
    (∃ s : State, ∃ p, s.phase = .running ∧ s.portState p = psUp ∧ 8 ≤ s.rd .LL_PORT_STATE_RFAIL p) :=
  ⟨⟨due (put up [(.LL_PORT_STATE_STATE, 71, psUp)]) (.replay 71), 71, 5, by decide +kernel, by decide +kernel⟩,
  ⟨due ({ put up [(.LL_PORT_STATE_STATE, 71, psUp)] with links := ⟨[(71, { nackSent := true })]⟩ }) (.nackRepeat 71), 71, 5,
    by decide +kernel, by decide +kernel⟩,
  ⟨due (put up [(.LL_PORT_STATE_STATE, 71, psHold)]) (.hello 71), 71, 5, by decide +kernel, by decide +kernel⟩,
  ⟨due (put up [(.LL_PORT_STATE_STATE, 71, psHold)]) (.hold 71), 71, 5, by decide +kernel, by decide +kernel⟩,
  ⟨due ({ put up [(.LL_PORT_STATE_STATE, 71, psUp)] with links := ⟨[(71, { trainReq := some ⟨false, 2, 1, 0, 78, 3⟩ })]⟩ }) (.trainReq 71),
    71, 5, ⟨false, 2, 1, 0, 78, 3⟩, by decide +kernel, by decide +kernel⟩,
  ⟨due (put up [(.LL_PORT_STATE_STATE, 71, psRetrain)]) (.retrain 71), 71, 5, by decide +kernel, by decide +kernel⟩,
  ⟨due ({ put up [(.LL_PORT_STATE_STATE, 71, psUp)] with links := ⟨[(71, { disabling := true })]⟩ }) (.drain 71), 71, 5,
    by decide +kernel, by decide +kernel⟩,
  ⟨{ put up [(.LL_PORT_STATE_STATE, 71, psUp)] with links := ⟨[(71, { lostAt := some 3 })]⟩ }, 71, 3, by decide +kernel⟩,
  ⟨put (put up [(.LL_PORT_STATE_STATE, 71, psUp)]) [(.LL_PORT_STATE_RFAIL, 71, 8)], 71, by decide +kernel⟩⟩

theorem witness_lanesComplete :
    (∃ s : State, ∃ l, s.phase = .running ∧ s.laneOn l = true ∧ (s.lane l).training = false) ∧
    (∃ s : State, ∃ l, s.phase = .running ∧ s.laneOn l = true ∧ s.flag .LN_LANE_STATUS_LOCK l = true) ∧
    (∃ s : State, ∃ l w f, s.phase = .running ∧ s.laneOn l = true ∧ decodeFrame w = some f) ∧
    (∃ s : State, ∃ l d, s.timers.look (.laneReq l) = some d ∧ (let u := at_ s (.laneReq l) d; (u.lane l).training = true ∧
      (u.lane l).req.isSome = true)) ∧
    (∃ s : State, ∃ l d, s.timers.look (.fastPath l) = some d ∧ (let u := at_ s (.fastPath l) d; (u.lane l).training = true)) ∧
    (∃ s : State, ∃ l d, s.timers.look (.fullTrain l) = some d ∧ (let u := at_ s (.fullTrain l) d; (u.lane l).training = true ∧
      u.portOfLane l = none)) ∧
    (∃ s : State, ∃ l p, s.phase = .running ∧ s.fatal = false ∧ s.laneOn l = true ∧ s.portOfLane l = some p ∧ s.recalDue l = true ∧
      s.portState p = psUp ∧ (s.link p).group.contains l = true ∧ (s.link p).trainReq = none ∧ (s.link p).recal = none ∧
      (s.confLanes p).any (fun k => s.flag .LN_LANE_STATUS_FAILED k) = false ∧ 2000 ≤ s.rd .LL_TIMERS_RETRAIN_LIMIT ∧
      s.rd .LL_PORT_STATE_WIDTH p = 0) ∧
    (∃ s : State, ∃ p : Nat, ∃ lost : List Nat, s.phase = .running ∧ s.fatal = false ∧ s.portOn p = true ∧
      peNarrow (s.portEntry p) = true ∧ s.portState p = psUp ∧ s.rd .LL_PORT_STATE_WIDTH p ≠ 0 ∧
      (let ls := lost.filter fun l => (s.link p).group.contains l && !s.flag .LN_LANE_STATUS_LOCK l; ls ≠ [] ∧
      ((s.groups p (s.rd .LL_PORT_STATE_WIDTH p - 1)).any fun g => g.all fun l => (s.link p).group.contains l && s.flag .LN_LANE_STATUS_LOCK l) = true)) ∧
    (∃ s : State, ∃ l, s.phase = .running ∧ l < 72) ∧
    (∃ s : State, ∃ l, s.phase = .running ∧ s.laneOn l = true ∧ bitOf (s.laneEntry l) 18 = true ∧ s.portOfLane l = none) :=
  ⟨⟨up, 71, by decide +kernel⟩,
  ⟨put up [(.LN_LANE_STATUS_LOCK, 71, 1)], 71, by decide +kernel⟩,
  ⟨{ up with lanes := ⟨[(71, { training := true })]⟩ }, 71, 0x52dde4ef0000154000000e29, ⟨1, 2, true, 0, true, 3, 0, 0, true, false, 1, 5⟩,
    by decide +kernel⟩,
  ⟨due ({ up with lanes := ⟨[(71, { training := true, req := some ⟨1, 0, true, 0⟩ })]⟩ }) (.laneReq 71), 71, 5, by decide +kernel,
    by decide +kernel⟩,
  ⟨due ({ up with lanes := ⟨[(71, { training := true })]⟩ }) (.fastPath 71), 71, 5, by decide +kernel, by decide +kernel⟩,
  ⟨due ({ { up with lanes := ⟨[(71, { training := true })]⟩ } with banks := ⟨[((0, 2, 71), 0)]⟩ }) (.fullTrain 71), 71, 5,
    by decide +kernel, by decide +kernel⟩,
  ⟨{ put up [(.LL_PORT_STATE_STATE, 0, psUp), (.LL_PORT_STATE_WIDTH, 0, 0)] with banks := ⟨[((0, 2, 0), 16), ((0, 3, 0), 2 ^ 40)]⟩, links := ⟨[(0, { group := [0] })]⟩ },
    0, 0, by decide +kernel⟩,
  ⟨{ put up [(.LL_PORT_STATE_STATE, 0, psUp), (.LL_PORT_STATE_WIDTH, 0, 2), (.LN_LANE_STATUS_LOCK, 0, 1), (.LN_LANE_STATUS_LOCK, 1, 1)] with banks := ⟨[((0, 2, 0), 50)]⟩, links := ⟨[(0, { group := [0, 1, 2, 3] })]⟩ },
    0, [3], by decide +kernel, by decide +kernel, by decide +kernel, by decide +kernel, by decide +kernel, by decide +kernel,
    by decide +kernel⟩,
  ⟨up, 71, by decide +kernel⟩,
  ⟨{ up with banks := ⟨[((0, 2, 71), 0), ((0, 3, 71), 2 ^ 18)]⟩ }, 71, by decide +kernel⟩⟩

theorem witness_timeRowsComplete :
    (∃ s : State, s.phase ≠ .auxHeld ∧ s.flag .MT_CFG_EXT_EN = true ∧ s.servo.pps = none) ∧
    (∃ s : State, ∃ b, s.phase ≠ .auxHeld ∧ s.flag .MT_CFG_EXT_EN = true ∧ s.servo.pps = some b ∧ s.now ≤ b + sec 1 + us 1 ∧
      b + sec 1 ≤ s.now + us 1 ∧
      (let t := (State.armIn { s with servo := { s.servo with pps := some s.now, ext := true } } .extRef (sec 2)).chooseTime;
      (t.servo.self = true → ((ppsTarget s.now (s.rd .MT_CFG_EXT_OFFSET) : Int) - s.now).natAbs ≤ 4))) ∧
    (∃ s : State, ∃ d, s.timers.look .extRef = some d) ∧
    (∃ s : State, ∃ d, s.timers.look .parent = some d ∧ (let u := at_ s .parent d; u.rd .MT_STATUS_PARENT 0 ≠ 127)) ∧
    (∃ s : State, ∃ d, s.timers.look .holdover = some d ∧ (let u := at_ s .holdover d; u.rd .MT_STATUS_STATE 0 = mtHoldover)) ∧
    (∃ s : State, ∃ p mc ses ctr tag w, s.phase = .running ∧ s.fatal = false ∧ s.mgRoom = true ∧
      p.body = .mg mc true ses ctr tag (.whistle w) ∧ p.ptype = 0x46 ∧ Packet.mgOk p = true ∧ w.line < 16 ∧ bitOf ses 31 = true ∧
      w.byJob = true ∧ ses = 2 ^ 31 + w.jobId ∧ s.whistleOk p w.jobId = true) ∧
    (∃ s : State, ∃ p mc ses ctr tag w, s.phase = .running ∧ s.fatal = false ∧ s.mgRoom = true ∧
      p.body = .mg mc true ses ctr tag (.whistle w) ∧ p.ptype = 0x46 ∧ Packet.mgOk p = true ∧ w.line < 16 ∧ bitOf ses 31 = false ∧
      w.byJob = false ∧ s.credOk ⟨ses, ctr, tag⟩ (Packet.mgCovered p) = true) ∧
    (∃ s : State, ∃ line x, s.nextFiring line = some x) ∧
    (∃ s : State, ∃ k, s.phase = .running ∧ k < 4 ∧ s.rd .MT_TRIG_CFG_MODE k = 3) ∧
    (∃ s : State, ∃ k t, s.phase = .running ∧ k < 4 ∧ s.trigNext k = some t) ∧
    (∃ s : State, ∃ k, s.phase = .running ∧ k < 4) ∧
    (∃ s : State, ∃ k, s.phase = .running ∧ k < 4) ∧
    (∃ s : State, ∃ w, s.phase = .running ∧ w < 16) :=
  ⟨⟨put up [(.MT_CFG_EXT_EN, 0, 1)], by decide +kernel⟩,
  ⟨{ put up [(.MT_CFG_EXT_EN, 0, 1)] with servo := { up.servo with pps := some 0 }, now := sec 1 }, 0, by decide +kernel,
    by decide +kernel, by decide +kernel, by decide +kernel, by decide +kernel, by decide +kernel⟩,
  ⟨due up .extRef, 5, by decide +kernel⟩,
  ⟨due (put up [(.MT_STATUS_PARENT, 0, 3)]) .parent, 5, by decide +kernel, by decide +kernel⟩,
  ⟨due (put up [(.MT_STATUS_STATE, 0, mtHoldover)]) .holdover, 5, by decide +kernel, by decide +kernel⟩,
  ⟨up, mgPkt 0x46 (2 ^ 31 + 7) 1 tagWhistle (.whistle ⟨15, true, 7, 9, 0⟩), none, 2 ^ 31 + 7, 1, tagWhistle, ⟨15, true, 7, 9, 0⟩,
    by decide +kernel⟩,
  ⟨upFm, mgPkt 0x46 3 1 tagWhistleFm (.whistle ⟨15, false, 0, 9, 0⟩), none, 3, 1, tagWhistleFm, ⟨15, false, 0, 9, 0⟩, by decide +kernel⟩,
  ⟨{ up with firings := ⟨[(15, [⟨9, some 7⟩])]⟩ }, 15, ⟨9, some 7⟩, by decide +kernel⟩,
  ⟨put up [(.MT_TRIG_CFG_MODE, 3, 3)], 3, by decide +kernel⟩,
  ⟨put up [(.MT_TRIG_CFG_MODE, 3, 5), (.MT_TRIG_TIME_TIME, 3, 8)], 3, 8, by decide +kernel⟩,
  ⟨up, 3, by decide +kernel⟩,
  ⟨up, 3, by decide +kernel⟩,
  ⟨up, 15, by decide +kernel⟩⟩

theorem witness_managementComplete :
    (∃ s : State, ∃ msg op p tr, IamelOn s ∧ s.cmds.length < 8 ∧ s.phase = .running ∧ leAt msg 0 1 = 1 ∧ leAt msg 3 1 = 0 ∧
      msgEntry msg 4 = some (op, p, tr)) ∧
    (∃ s : State, IamelOn s ∧ 8 ≤ s.rd .GLB_SEC_STATE_AUTH_SLOT) ∧
    (∃ s : State, ∃ t key token, IamelOn s ∧ s.rd .GLB_SEC_STATE_AUTH_SLOT < 7 ∧ s.grantToken (decodeToken token,
      digestOf key) 0x11 0 = (t, 0)) ∧
    (∃ s : State, ∃ n, IamelOn s ∧ n ≠ 0 ∧ n ≤ 3) ∧
    (∃ s : State, IamelOn s) ∧
    (∃ s : State, s.phase ≠ .auxHeld) ∧
    (∃ s : State, ∃ bus, IamelOn s ∧ bus < 2) ∧
    (∃ s : State, ∃ pkt mc ses ctr tag msg op p tr, s.phase = .running ∧ s.fatal = false ∧ s.mgRoom = true ∧
      pkt.body = .mg mc true ses ctr tag (.cmd msg) ∧ pkt.ptype = 0x40 ∧ Packet.mgOk pkt = true ∧ s.credOk ⟨ses, ctr,
      tag⟩ (Packet.mgCovered pkt) = true ∧ msgEntry msg 0 = some (op, p, tr)) ∧
    (∃ s : State, ∃ pkt mc ses ctr tag a b c, s.phase = .running ∧ s.fatal = false ∧ s.mgRoom = true ∧
      pkt.body = .mg mc true ses ctr tag (.status a b c) ∧ pkt.ptype = 0x41 ∧ Packet.mgOk pkt = true ∧ s.credOk ⟨ses, ctr,
      tag⟩ (Packet.mgCovered pkt) = true) ∧
    (∃ s : State, ∃ pkt mc ses ctr tag op first n, s.phase = .running ∧ s.fatal = false ∧ s.mgRoom = true ∧
      pkt.body = .mg mc true ses ctr tag (.telemetry op first n) ∧ pkt.ptype = 0x47 ∧ Packet.mgOk pkt = true ∧ s.credOk ⟨ses, ctr,
      tag⟩ (Packet.mgCovered pkt) = true ∧ ((op = 1 ∨ op = 2)) ∧ 1 ≤ n ∧ n ≤ 64 ∧ first + n ≤ 295 ∧ s.iamelUp = true) :=
  ⟨⟨up, cmdDrain, .ferryDrain, ⟨false, 0, 0, 0, 0, 0, 0⟩, [], ⟨by decide +kernel, by decide +kernel⟩, by decide +kernel⟩,
  ⟨put up [(.GLB_SEC_STATE_AUTH_SLOT, 0, 15)], ⟨by decide +kernel, by decide +kernel⟩, by decide +kernel⟩,
  ⟨up, _, newKey, enrolToken, ⟨by decide +kernel, by decide +kernel⟩, by decide +kernel, grantPass (by decide +kernel)⟩,
  ⟨up, 3, ⟨by decide +kernel, by decide +kernel⟩, by decide +kernel⟩,
  ⟨up, ⟨by decide +kernel, by decide +kernel⟩⟩,
  ⟨up, by decide +kernel⟩,
  ⟨up, 1, ⟨by decide +kernel, by decide +kernel⟩, by decide +kernel⟩,
  ⟨upFm, mgPkt 0x40 3 1 tagCmd (.cmd entryDrain), none, 3, 1, tagCmd, entryDrain, .ferryDrain, ⟨false, 0, 0, 0, 0, 0, 0⟩, [],
    by decide +kernel⟩,
  ⟨upFm, mgPkt 0x41 3 1 tagStatus (.status 0 0 0), none, 3, 1, tagStatus, 0, 0, 0, by decide +kernel⟩,
  ⟨upFm, mgPkt 0x47 3 1 tagTelemetry (.telemetry 2 231 64), none, 3, 1, tagTelemetry, 2, 231, 64, by decide +kernel, by decide +kernel,
    by decide +kernel, by decide +kernel, by decide +kernel, by decide +kernel, by decide +kernel, Or.inr rfl, by decide +kernel⟩⟩

theorem witness_imagesComplete :
    (∃ s : State, IamelOn s ∧ s.phase = .running) ∧
    (∃ s : State, IamelOn s ∧ s.phase = .running) ∧
    (∃ s : State, s.phase ≠ .auxHeld ∧ s.rd .MG_STATUS_STATE = mgTrial) ∧
    (∃ s : State, ∃ t bs c, IamelOn s ∧ t < 6 ∧ decodeContainer bs = some c) ∧
    (∃ s : State, ∃ t, s.phase = .running ∧ s.iamelUp = true ∧ s.live = none ∧ t < 6 ∧ s.slotOk t (1 - s.activeSlot t) = true) ∧
    (∃ s : State, ∃ v, s.phase = .running ∧ s.iamelUp = true ∧ s.live = some v ∧ v.begun = true ∧ s.stepOver v.ptype v.unit = true) ∧
    (∃ s : State, s.phase ≠ .auxHeld ∧ s.iamelUp = false) ∧
    (∃ s : State, ∃ t v r g, IamelOn s ∧ s.productSigned (leBytes 1 t ++ leBytes 2 v) r g = true ∧ t < 6 ∧ v ≤ 256 ∧
      v ≤ (s.activeImg t).secver ∧ (s.runVers t).all (fun r => decide (v ≤ r)) = true) :=
  ⟨⟨up, ⟨by decide +kernel, by decide +kernel⟩, by decide +kernel⟩,
  ⟨up, ⟨by decide +kernel, by decide +kernel⟩, by decide +kernel⟩,
  ⟨put up [(.MG_STATUS_STATE, 0, mgTrial)], by decide +kernel⟩,
  ⟨up, 5, box, ⟨5, 9, 3, [], box.take 64, List.replicate 48 0, List.replicate 48 0⟩, ⟨by decide +kernel, by decide +kernel⟩,
    by decide +kernel⟩,
  ⟨{ up with images := ⟨[(5, { a := { secver := 9, ok := true }, b := { secver := 9, ok := true } })]⟩ }, 5, by decide +kernel⟩,
  ⟨{ up with live := some ⟨0, 0, true, [], []⟩ }, ⟨0, 0, true, [], []⟩, by decide +kernel⟩,
  ⟨put up [(.MG_STATUS_STATE, 0, mgResetting)], by decide +kernel⟩,
  ⟨{ up with images := ⟨[(5, { a := { secver := 9, ok := true }, b := { secver := 9, ok := true } })]⟩ }, 5, 9, commitR, commitS,
    ⟨by decide +kernel, by decide +kernel⟩, by decide +kernel⟩⟩

theorem witness_powerComplete :
    (∃ s : State, ∃ d, s.timers.look .auxRelease = some d ∧ (let u := at_ s .auxRelease d; u.phase = .auxHeld)) ∧
    (∃ s : State, s.phase = .mainHeld ∧ s.sagHeld = []) ∧
    (∃ s : State, ∃ d, s.timers.look .mainUp = some d ∧ (let u := at_ s .mainUp d; ((u.phase = .starting ∨ u.phase = .running)))) ∧
    (∃ s : State, s.phase = .running) ∧
    (∃ s : State, ∃ ns acts, s.phase = .running ∧ ((1000 ≤ ns ∨ (500 < ns ∧ acts = true)))) ∧
    (∃ s : State, s.phase = .running) ∧
    (∃ s : State, s.phase = .running ∧ s.flag .PW_STATUS_PARKED = false ∧ s.parkOk = true) ∧
    (∃ s : State, s.phase = .running ∧ s.flag .PW_STATUS_PARKED = true) ∧
    (∃ s : State, ∃ x, s.phase ≠ .auxHeld ∧ s.flag (sagFld x) = false) ∧
    (∃ s : State, s.phase ≠ .auxHeld) ∧
    (∃ s : State, s.phase ≠ .auxHeld) ∧
    (∃ s : State, s.phase ≠ .auxHeld) :=
  ⟨⟨due { up with phase := .auxHeld } .auxRelease, 5, by decide +kernel, by decide +kernel⟩,
  ⟨{ up with phase := .mainHeld }, by decide +kernel⟩,
  ⟨due { up with phase := .starting } .mainUp, 5, by decide +kernel, by decide +kernel⟩,
  ⟨up, by decide +kernel⟩,
  ⟨up, 501, true, by decide +kernel, Or.inr ⟨by decide +kernel, by decide +kernel⟩⟩,
  ⟨up, by decide +kernel⟩,
  ⟨{ State.reset with banks := ⟨(List.range 72).map fun p => ((0, 2, p), 0)⟩ }, by decide +kernel⟩,
  ⟨put up [(.PW_STATUS_PARKED, 0, 1)], by decide +kernel⟩,
  ⟨up, .core, by decide +kernel⟩,
  ⟨up, by decide +kernel⟩,
  ⟨up, by decide +kernel⟩,
  ⟨up, by decide +kernel⟩⟩

theorem witness_unitResetsComplete :
    (∃ s : State, ∃ f, s.phase = .running ∧ s.unitInReset = none ∧ s.ferryOn f = true) ∧
    (∃ s : State, ∃ p, s.phase = .running ∧ s.unitInReset = none ∧ s.portOn p = true) ∧
    (∃ s : State, ∃ q, s.phase = .running ∧ s.unitInReset = none ∧ s.rstUnitOn 3 q = true) ∧
    (∃ s : State, ∃ h, s.phase = .running ∧ s.unitInReset = none ∧ s.huddleOn h = true) ∧
    (∃ s : State, ∃ c, s.phase = .running ∧ s.unitInReset = none ∧ s.catcherOn c = true ∧
      (s.catchersOn.filter fun k => decide (k ≠ c)) ≠ []) ∧
    (∃ s : State, ∃ kind i, s.phase = .running ∧ s.unitInReset = some (kind, i)) ∧
    (∃ s : State, ∃ r w, s.phase = .running ∧ r ≠ 1 ∧ r ≤ 6 ∧ (let old := s.rd .PW_EN_MASK r;
      (let bits := (List.range 64).filter fun k => bitOf (fusedMask s.variant r) k;
      (let new := bits.foldl (fun n k => n + bitAt (bitOf w k) k) 0; (let gone := bits.filter fun k => bitOf old k && !bitOf new k;
      (let back := bits.filter fun k => !bitOf old k && bitOf new k; gone.all (fun k => s.mayClear r k new) = true)))))) :=
  ⟨⟨up, 63, by decide +kernel⟩,
  ⟨up, 71, by decide +kernel⟩,
  ⟨up, 17, by decide +kernel⟩,
  ⟨up, 7, by decide +kernel⟩,
  ⟨up, 3, by decide +kernel⟩,
  ⟨{ up with unitInReset := some (2, 3) }, 2, 3, by decide +kernel⟩,
  ⟨up, 2, 2 ^ 64 - 1, by decide +kernel, by decide +kernel, by decide +kernel, by decide +kernel⟩⟩

theorem witness_hostFunctionsComplete :
    (∃ s : State, ∃ f, s.phase = .running ∧ s.fnExists f = true ∧ s.fnState f ≠ 3 ∧ (((s.fn f).bme = true ∨ s.fnState f = 0))) ∧
    (∃ s : State, ∃ f, s.phase = .running ∧ s.fnExists f = true ∧ s.fnState f ≠ 3) ∧
    (∃ s : State, ∃ f d, s.timers.look (.quiesce f) = some d ∧ (s.setNow d).fnState f = 1) ∧
    (∃ s : State, ∃ f, s.phase = .running ∧ s.fnExists f = true ∧ s.fnState f ≠ 3) ∧
    (∃ s : State, ∃ f d, s.timers.look (.flr f) = some d ∧ (let u := at_ s (.flr f) d; u.vfLeaving.contains f = false)) ∧
    (∃ s : State, ∃ f d, s.timers.look (.flr f) = some d ∧ (let u := at_ s (.flr f) d;
      (let v : State := { u with vfLeaving := u.vfLeaving.filter fun g => decide (g ≠ f) }; u.vfLeaving.contains f = true ∧
      v.fnExists f = false))) ∧
    (∃ s : State, ∃ p, s.phase = .running ∧ s.vfEnable.contains p = true ∧ s.fnState (p * 256) ≠ 3) ∧
    (∃ s : State, ∃ p n, s.phase = .running ∧ p < 2 ∧ s.fnExists (p * 256) = true ∧ s.fnState (p * 256) ≠ 3 ∧ n ≤ 252) ∧
    (∃ s : State, ∃ f v, s.phase = .running ∧ s.fnExists f = true ∧ s.fnState f ≠ 3 ∧ v < vectorsOf f) :=
  ⟨⟨up, 256, by decide +kernel, by decide +kernel, by decide +kernel, Or.inr (by decide +kernel)⟩,
  ⟨up, 256, by decide +kernel⟩,
  ⟨due (put up [(.HI_FN_STATE_STATE, 0, 1)]) (.quiesce 0), 0, 5, by decide +kernel⟩,
  ⟨up, 256, by decide +kernel⟩,
  ⟨due up (.flr 256), 256, 5, by decide +kernel, by decide +kernel⟩,
  ⟨due { up with vfLeaving := [1] } (.flr 1), 1, 5, by decide +kernel, by decide +kernel⟩,
  ⟨{ up with vfEnable := [1] }, 1, by decide +kernel⟩,
  ⟨up, 1, 252, by decide +kernel⟩,
  ⟨up, 256, 2047, by decide +kernel⟩⟩

theorem witness_slotComplete :
    (∃ s : State, s.phase = .running ∧ s.slotOn = true ∧ s.flag .HI_SLOT_STATUS_SETTLE 0 = false ∧ s.flag .HI_SLOT_CTL_PWR_ON 0 = false ∧
      s.flag .EF_STATUS_FET_FAIL 1 = false) ∧
    (∃ s : State, s.phase = .running ∧ s.slotOn = true ∧ s.flag .HI_SLOT_CTL_PWR_ON 0 = true) ∧
    (∃ s : State, ∃ d, s.timers.look .perst = some d ∧ (let u := at_ s .perst d; u.slotOn = true ∧ u.flag .EF_STATUS_PG 1 = true)) ∧
    (∃ s : State, ∃ d, s.timers.look .settle = some d) ∧
    (∃ s : State, s.phase = .running ∧ s.slotOn = true ∧ s.flag .HI_SLOT_STATUS_PRESENCE 0 = false) ∧
    (∃ s : State, s.phase = .running ∧ s.slotOn = true ∧ s.flag .HI_SLOT_STATUS_PRESENCE 0 = true) ∧
    (∃ s : State, s.phase = .running ∧ s.slotOn = true) ∧
    (∃ s : State, ∃ cause, s.phase = .running ∧ s.slotOn = true ∧ 1 ≤ cause ∧ cause ≤ 4 ∧
      ((cause ≠ 4 ∨ s.flag .HI_SLOT_CTL_PWR_ON 0 = true))) ∧
    (∃ s : State, s.phase = .running ∧ s.slotOn = true) ∧
    (∃ s : State, ∃ data, s.phase = .running ∧ s.fatal = false ∧ s.slotOn = true ∧ s.flag .HI_SLOT_STATUS_DL_ACTIVE 0 = true ∧
      data < 64) ∧
    (∃ s : State, s.phase = .running ∧ s.fatal = false ∧ s.slotOn = true ∧ s.flag .HI_SLOT_STATUS_DL_ACTIVE 0 = true) ∧
    (∃ s : State, ∃ p, s.phase = .running ∧ p < 2 ∧ s.portMode p = 0) ∧
    (∃ s : State, ∃ p speed width, s.phase = .running ∧ p < 2 ∧ linkOk speed width = true ∧ s.portMode p = 0) ∧
    (∃ s : State, ∃ id d x, s.timers.look (.completion id) = some d ∧ (let u := at_ s (.completion id) d; u.xfers.look id = some x)) :=
  ⟨⟨put up [(.HI_PORT_MODE, 1, 1)], by decide +kernel⟩,
  ⟨put up [(.HI_PORT_MODE, 1, 1), (.HI_SLOT_CTL_PWR_ON, 0, 1)], by decide +kernel⟩,
  ⟨due (put up [(.HI_PORT_MODE, 1, 1), (.EF_STATUS_PG, 1, 1)]) .perst, 5, by decide +kernel, by decide +kernel⟩,
  ⟨due up .settle, 5, by decide +kernel⟩,
  ⟨put up [(.HI_PORT_MODE, 1, 1), (.HI_SLOT_STATUS_PRESENCE, 0, 0)], by decide +kernel⟩,
  ⟨put up [(.HI_PORT_MODE, 1, 1), (.HI_SLOT_STATUS_PRESENCE, 0, 1)], by decide +kernel⟩,
  ⟨put up [(.HI_PORT_MODE, 1, 1)], by decide +kernel⟩,
  ⟨put up [(.HI_PORT_MODE, 1, 1), (.HI_SLOT_CTL_PWR_ON, 0, 1)], 4, by decide +kernel, by decide +kernel, by decide +kernel,
    by decide +kernel, Or.inr (by decide +kernel)⟩,
  ⟨put up [(.HI_PORT_MODE, 1, 1)], by decide +kernel⟩,
  ⟨put up [(.HI_PORT_MODE, 1, 1), (.HI_SLOT_STATUS_DL_ACTIVE, 0, 1)], 63, by decide +kernel⟩,
  ⟨put up [(.HI_PORT_MODE, 1, 1), (.HI_SLOT_STATUS_DL_ACTIVE, 0, 1)], by decide +kernel⟩,
  ⟨up, 1, by decide +kernel⟩,
  ⟨up, 1, 6, 16, by decide +kernel⟩,
  ⟨due { up with xfers := ⟨[(9, ⟨.flushT cx 1, true, [(.host 0 64, 8)], [], 0, false⟩)]⟩ } (.completion 9), 9, 5, _, by decide +kernel,
    rfl⟩⟩

theorem witness_efuseComplete :
    (∃ s : State, ∃ c, s.phase ≠ .auxHeld ∧ s.efOwned c = true ∧ s.flag .EF_CTL_ON c = false ∧ s.flag .EF_STATUS_FET_FAIL c = false) ∧
    (∃ s : State, ∃ c, s.phase ≠ .auxHeld ∧ s.efOwned c = true ∧ s.flag .EF_CTL_ON c = true) ∧
    (∃ s : State, ∃ c, s.phase ≠ .auxHeld ∧ c < 2 ∧ s.efState c = efRamp) ∧
    (∃ s : State, ∃ c, s.phase ≠ .auxHeld ∧ c < 2) ∧
    (∃ s : State, ∃ c, s.phase ≠ .auxHeld ∧ c < 2 ∧ ((s.efState c = efRamp ∨ s.efState c = efOn))) ∧
    (∃ s : State, ∃ c d, s.timers.look (.efReg c) = some d ∧ c < 2) ∧
    (∃ s : State, ∃ c, s.phase ≠ .auxHeld ∧ c < 2 ∧ 10 * s.rd .EF_CFG_FET_TMAX c < s.rd .EF_STATUS_FET_T c) ∧
    (∃ s : State, ∃ c, s.phase ≠ .auxHeld ∧ c < 2 ∧ ((s.efState c = efOff ∨ s.efState c = efTripped)) ∧
      s.flag .EF_STATUS_FET_FAIL c = false) ∧
    (∃ s : State, ∃ c, s.phase ≠ .auxHeld ∧ c < 2) ∧
    (∃ s : State, ∃ c, s.phase ≠ .auxHeld ∧ c < 2) :=
  ⟨⟨up, 1, by decide +kernel⟩,
  ⟨put up [(.EF_CTL_ON, 1, 1)], 1, by decide +kernel⟩,
  ⟨put up [(.EF_STATUS_STATE, 1, efRamp)], 1, by decide +kernel⟩,
  ⟨up, 1, by decide +kernel⟩,
  ⟨put up [(.EF_STATUS_STATE, 1, efOn)], 1, by decide +kernel, by decide +kernel, Or.inr (by decide +kernel)⟩,
  ⟨due up (.efReg 1), 1, 5, by decide +kernel⟩,
  ⟨put up [(.EF_CFG_FET_TMAX, 1, 150), (.EF_STATUS_FET_T, 1, 1501)], 1, by decide +kernel⟩,
  ⟨put up [(.EF_STATUS_STATE, 1, efTripped)], 1, by decide +kernel, by decide +kernel, Or.inr (by decide +kernel), by decide +kernel⟩,
  ⟨up, 1, by decide +kernel⟩,
  ⟨up, 1, by decide +kernel⟩⟩

theorem witness_sensorsComplete :
    (∃ s : State, ∃ i, s.phase ≠ .auxHeld ∧ i < 147) ∧
    (∃ s : State, ∃ i, s.phase ≠ .auxHeld ∧ i < 147) ∧
    (∃ s : State, ∃ i v, s.phase ≠ .auxHeld ∧ i < 147 ∧ (let c := signedOf 16 (Fld.of .MG_SENS_THR_CRIT v);
      (let w := signedOf 16 (Fld.of .MG_SENS_THR_WARN v); (if Fld.of .MG_SENS_THR_LOW v = 1 then c ≤ w else w ≤ c)))) ∧
    (∃ s : State, s.phase ≠ .auxHeld ∧ s.timers.look .pace = none) ∧
    (∃ s : State, ∃ d, s.phase ≠ .auxHeld ∧ s.timers.look .pace = some d) ∧
    (∃ s : State, s.phase ≠ .auxHeld ∧ s.avs.isSome = true) ∧
    (∃ s : State, ∃ d a, s.timers.look .avs = some d ∧ (let u := at_ s .avs d; u.avs = some a)) ∧
    (∃ s : State, s.phase ≠ .auxHeld) ∧
    (∃ s : State, ∃ v : Nat, s.phase ≠ .auxHeld ∧ (let lo := Fld.of .PW_PACE_CTL_FLOOR_MV v; (let hi := Fld.of .PW_PACE_CTL_CEIL_MV v;
      (let fx := Fld.of .PW_PACE_CTL_FIXED_MV v; 660 ≤ lo ∧ 680 ≤ hi ∧ hi ≤ 900 ∧ lo ≤ fx ∧ fx ≤ hi)))) ∧
    (∃ s : State, ∃ r, s.phase ≠ .auxHeld ∧ r < 24) :=
  ⟨⟨up, 146, by decide +kernel⟩,
  ⟨up, 146, by decide +kernel⟩,
  ⟨up, 146, 0, by decide +kernel, by decide +kernel, by decide +kernel⟩,
  ⟨up, by decide +kernel⟩,
  ⟨due up .pace, 5, by decide +kernel⟩,
  ⟨{ up with avs := some ⟨700, 0⟩ }, by decide +kernel⟩,
  ⟨due { up with avs := some ⟨700, 0⟩ } .avs, 5, ⟨700, 0⟩, by decide +kernel, rfl⟩,
  ⟨up, by decide +kernel⟩,
  ⟨up, 660 * 2 ^ 48 + 850 * 2 ^ 36 + 850 * 2 ^ 24, by decide +kernel, by decide +kernel⟩,
  ⟨up, 23, by decide +kernel⟩⟩

theorem witness_stepTakesTheFrontCommand :
    ∃ s : State, s.pending = [] :=
  ⟨State.reset, rfl⟩

theorem witness_everyStepKeepsTheShape :
    ∃ s : State, ∃ t : State, s.Inv ∧ step s = .next t :=
  ⟨{ up with pending := [.nop 3 0] }, _, shaped (by decide +kernel), rfl⟩

theorem witness_instructionsKeepToTheirDestination :
    (∃ c, ∃ s s' : State, ∃ f t fields rd g v, writesReg c = some (f, t, fields, rd, g) ∧ Issues s s' f t fields v ∧ guardHolds v g) ∧
    (∃ c, ∃ s s' : State, ∃ f t fields rd g v, writesPrd c = some (f, t, fields, rd, g) ∧ Issues s s' f t fields v ∧ guardHolds v g) :=
  ⟨⟨.addi 0 1 3 1 65535, run (fmtB 0x08 3 1 65535) (inv0 []), _, _, _, _, 3, none, inv0 [], rfl, issues (by decide +kernel),
    fun _ _ h => by cases h⟩,
  ⟨.cmpi 0 1 3 1 65535, run (fmtB 0x0E 3 1 65535) (inv0 []), _, _, _, _, 3, none, inv0 [], rfl, issues (by decide +kernel),
    fun _ _ h => by cases h⟩⟩

theorem witness_storesKeepToTheirBytes :
    (∃ s s' : State, ∃ f t rs ra sz mo off v, s.Inv ∧ Issues s s' f t (fmtC 0x12 rs ra sz mo off) v ∧ (let a := offAddr (v.reg ra) off;
      (let bs := leBytes (2 ^ sz) (v.reg rs); s'.accessFault f v a (2 ^ sz) false = none))) ∧
    (∃ s : State, ∃ a, ∃ bs : List Byte, s.Inv ∧ s.phase = .running ∧ s.inWharf a = true ∧ s.inWharf (a + bs.length - 1) = true) ∧
    (∃ s : State, ∃ a, ∃ big : Bool, s.Inv ∧ s.phase = .running ∧ (let n := if big then 8 else 4; s.inWharf a = true ∧
      s.inWharf (a + n - 1) = true ∧ a % n = 0 ∧ s.poisoned a n = false)) ∧
    (∃ s : State, ∃ a, s.Inv ∧ s.phase = .running ∧ s.flag .LK_CFG_MAINT = true ∧ s.inWharf a = true ∧ a % 8 = 0) ∧
    (∃ s : State, ∃ a, s.Inv ∧ s.phase = .running ∧ s.flag .LK_CFG_MAINT = true ∧ s.inWharf a = true ∧ a % 8 = 0) :=
  ⟨⟨run (fmtC 0x12 3 1 3 0 0) (inv0 [(1, 0x3FF8)]), _, 0, 1, 3, 1, 3, 0, 0, inv0 [(1, 0x3FF8)], shaped (by decide +kernel),
    issues (by decide +kernel), by decide +kernel⟩,
  ⟨up, 0x0300000000, [1, 2], shaped (by decide +kernel), by decide +kernel⟩,
  ⟨up, 0x0300000000, true, shaped (by decide +kernel), by decide +kernel, by decide +kernel⟩,
  ⟨put up [(.LK_CFG_MAINT, 0, 1)], 0x0300000000, shaped (by decide +kernel), by decide +kernel⟩,
  ⟨put up [(.LK_CFG_MAINT, 0, 1)], 0x0300000000, shaped (by decide +kernel), by decide +kernel⟩⟩

theorem witness_notifyFieldOutOfRangeStays :
    ∃ s : State, ∃ q f, s.phase = .running ∧ q < 65536 ∧ s.reachesQueue q f = true :=
  ⟨up, 65535, none, by decide +kernel⟩

theorem witness_sensorThresholdsAreRejectedWhole :
    ∃ s : State, ∃ i v, s.phase ≠ .auxHeld ∧ i < 147 ∧
      (if Fld.of .MG_SENS_THR_LOW v = 1 then signedOf 16 (Fld.of .MG_SENS_THR_WARN v) < signedOf 16 (Fld.of .MG_SENS_THR_CRIT v) else signedOf 16 (Fld.of .MG_SENS_THR_CRIT v) < signedOf 16 (Fld.of .MG_SENS_THR_WARN v)) :=
  ⟨up, 146, 5 * 2 ^ 16, by decide +kernel⟩

theorem witness_spansNeverTakeEffectHalfWritten :
    (∃ s : State, ∃ a v, s.phase = .running ∧ a < 4096 ∧ s.flag .TX_ASID_LOCKED a = false ∧ s.flag .TX_ASID_VALID a = true ∧
      Fld.of .TX_ASID_VALID v = 0) ∧
    (∃ s : State, ∃ a sp reg v, s.phase = .running ∧ a < 4096 ∧ sp < 8 ∧ s.flag .TX_SPAN_BASE_VALID (8 * a + sp) = true ∧
      ((reg ≠ 0 ∨ Fld.of .TX_SPAN_BASE_VALID v ≠ 0))) ∧
    (∃ s : State, ∃ a sp v, s.phase = .running ∧ a < 4096 ∧ sp < 8 ∧ s.flag .TX_ASID_LOCKED a = false ∧
      s.flag .TX_SPAN_BASE_VALID (8 * a + sp) = true ∧ Fld.of .TX_SPAN_BASE_VALID v = 0) :=
  ⟨⟨put up [(.TX_ASID_VALID, 4095, 1)], 4095, 0, by decide +kernel⟩,
  ⟨put up [(.TX_SPAN_BASE_VALID, 32767, 1)], 4095, 7, 1, 0, by decide +kernel, by decide +kernel, by decide +kernel, by decide +kernel,
    Or.inl (by decide +kernel)⟩,
  ⟨put up [(.TX_SPAN_BASE_VALID, 32767, 1)], 4095, 7, 0, by decide +kernel⟩⟩

theorem witness_comparisonsHoldAcrossWraps :
    (∃ a b : Nat, a < 2 ^ 32 ∧ b < 2 ^ 32) ∧
    (∃ n : Nat, n < 2 ^ 18) ∧
    (∃ n : Nat, n < 65536) :=
  ⟨⟨2 ^ 32 - 1, 0, by decide +kernel⟩,
  ⟨2 ^ 18 - 1, by decide +kernel⟩,
  ⟨65535, by decide +kernel⟩⟩

theorem witness_countersAndTalliesWrap :
    (∃ s : State, ∃ u ev sub k, k < 4 ∧ s.unitOn u = true ∧ s.selects (4 * u + k) 1 ev sub = true) ∧
    (∃ s : State, ∃ u ev sub k, k < 4 ∧ s.selects (4 * u + k) 1 ev sub = false) :=
  ⟨⟨put up [(.EC_SEL_MODE, 1179, 1), (.EC_SEL_EVENT, 1179, 1)], 294, 1, 0, by decide +kernel⟩,
  ⟨up, 294, 1, 0, by decide +kernel⟩⟩

theorem witness_locksAreHandedOver :
    (∃ s : State, NoIdleWaiter s) ∧
    (∃ s : State, NoIdleWaiter s) ∧
    (∃ s : State, NoIdleWaiter s) ∧
    (∃ c, ∃ s t : State, NoIdleWaiter s ∧ s.raised = [] ∧ ((∃ n i w,
      c = .lkAcquire n i w ∨ c = .lkRelease n i w ∨ c = .lkClearOrphan n i w ∨ c = .lkWithdraw n i w)) ∧ exec c s = .next t) ∧
    (∃ s : State, ∃ n w r, (s.lock n).waiters = w :: r ∧ s.flag .LK_GROUP_PRIO_MODE (lockGroup n) = false) ∧
    (∃ s : State, ∃ n, (s.lock n).waiters ≠ []) ∧
    (∃ s : State, ∃ n ident o, (s.lock n).owner = some o ∧ o ≠ ident ∧ (s.lock n).waiters.contains ident = false ∧
      (s.lock n).waiters.length < 64) :=
  ⟨⟨locked, locked_held⟩,
  ⟨locked, locked_held⟩,
  ⟨locked, locked_held⟩,
  ⟨.lkAcquire 3 8 0, locked, _, locked_held, rfl, ⟨3, 8, 0, Or.inl rfl⟩, rfl⟩,
  ⟨locked, 3, 6, [7], by decide +kernel⟩,
  ⟨locked, 3, by decide +kernel⟩,
  ⟨locked, 3, 8, 5, by decide +kernel⟩⟩

end Sys2Proof.Tests
end

section
/-! The work queues: index and tally comparisons across wraps (R76, R106), and writes of register words field by field with the
bounds that QU_NOTIFY sets (R108). -/

namespace Sys2Proof.Proofs.WorkQueues

open Sys2Proof.Machine Sys2Proof.Laws

/-! ## Comparisons across wraps (R76, R106) -/

/-- The distance between two indices is their difference as R76 writes it, over the integers. -/
theorem dist32_eq_emod (a b : Nat) : (dist32 a b : Int) = ((b : Int) - a) % 2 ^ 32 := by
  unfold dist32
  omega

theorem dist32_idxAdd (a b k : Nat) : dist32 (idxAdd a k) (idxAdd b k) = dist32 a b := by
  unfold dist32 idxAdd
  omega

/-- Two indices in range are equal exactly when no distance lies between them. -/
theorem dist32_eq_zero_iff {a b : Nat} (ha : a < 2 ^ 32) (hb : b < 2 ^ 32) : dist32 a b = 0 ↔ a = b := by
  unfold dist32
  omega

theorem idxBefore_iff (a b : Nat) :
    idxBefore a b = true ↔ 1 ≤ ((b : Int) - a) % 2 ^ 32 ∧ ((b : Int) - a) % 2 ^ 32 ≤ 2 ^ 31 - 1 := by
  rw [← dist32_eq_emod, idxBefore, decide_eq_true_eq]
  omega

theorem idxBefore_idxAdd (a b k : Nat) : idxBefore (idxAdd a k) (idxAdd b k) = idxBefore a b := by
  unfold idxBefore
  rw [dist32_idxAdd]

theorem idxLe_iff {a b : Nat} (ha : a < 2 ^ 32) (hb : b < 2 ^ 32) : idxLe a b = true ↔ a = b ∨ idxBefore a b = true := by
  rw [← dist32_eq_zero_iff ha hb, idxLe, idxBefore, decide_eq_true_eq, decide_eq_true_eq]
  omega

theorem reached_iff (c t : Nat) : reached c t = true ↔ ((c : Int) - t) % 2 ^ 64 < 2 ^ 63 := by
  rw [reached, decide_eq_true_eq]
  omega

/-- Counting on by the same amount, and wrapping, changes no comparison: both sides have the same difference mod 2^64. -/
theorem reached_add_mod (c t k : Nat) : reached ((c + k) % 2 ^ 64) ((t + k) % 2 ^ 64) = reached c t := by
  have diff : (((c + k) % 2 ^ 64 : Nat) - ((t + k) % 2 ^ 64 : Nat) : Int) % 2 ^ 64 = ((c : Int) - t) % 2 ^ 64 := by omega
  rw [Bool.eq_iff_iff, reached_iff, reached_iff, diff]

theorem waitMet_tally (s : State) (stop : Bool) (lt tt : TallyField) {n : Nat} (tmo v : Nat) (hn : n < 2 ^ 18) :
    s.waitMet ⟨.tally, stop, lt, tt, n, tmo, v⟩ = reached (s.tally n) v := by
  simp only [State.waitMet, Nat.mod_eq_of_lt hn]

theorem waitMet_head (s : State) (stop : Bool) (lt tt : TallyField) {n : Nat} (tmo v : Nat) (hn : n < 65536) :
    s.waitMet ⟨.head, stop, lt, tt, n, tmo, v⟩ = idxLe v (s.rd .QU_HEAD_HEAD n) := by
  simp only [State.waitMet, Nat.mod_eq_of_lt hn]

/-- Settles O58: each comparison is the integer difference that R76 and R106 name, which no common wrap changes, and the conditions of
a wait and a skip are these comparisons. -/
theorem comparisonsHoldAcrossWraps : Obligations.comparisonsHoldAcrossWraps :=
  ⟨reached_iff, reached_add_mod, fun _ _ => idxLe_iff, idxBefore_iff, idxBefore_idxAdd,
    fun s stop lt tt _ tmo v => waitMet_tally s stop lt tt tmo v,
    fun s stop lt tt _ tmo v => waitMet_head s stop lt tt tmo v,
    fun _ _ => ⟨rfl, rfl⟩⟩

/-! ## Writing the fields of a register word (R9, R10) -/

/-- A field's own bits of a word fit the field. -/
theorem rd_wr_of (s : State) (f : Fld) (i w : Nat) : (s.wr f i (f.of w)).rd f i = f.of w := by
  rw [rd_wr_self]
  exact Nat.mod_mod _ _

theorem rd_wr_of_fld_ne (s : State) {f g : Fld} (i v : Nat) (h : g ≠ f) : (s.wr f i v).rd g i = s.rd g i :=
  rd_wr_ne s v fun e => h (congrArg Prod.fst e)

theorem setFields_cons (s : State) (i w : Nat) (f : Fld) (fs : List Fld) :
    s.setFields i w (f :: fs) = (s.wr f i (f.of w)).setFields i w fs := rfl

theorem rd_setFields_of_notMem (s : State) (i w : Nat) {g : Fld} {fs : List Fld} (h : g ∉ fs) :
    (s.setFields i w fs).rd g i = s.rd g i := by
  induction fs generalizing s with
  | nil => rfl
  | cons f fs ih =>
    obtain ⟨hf, hfs⟩ := List.ne_and_not_mem_of_not_mem_cons h
    rw [setFields_cons, ih _ hfs, rd_wr_of_fld_ne s i _ hf]

theorem rd_setFields_of_mem (s : State) (i w : Nat) {g : Fld} {fs : List Fld} (h : g ∈ fs) :
    (s.setFields i w fs).rd g i = g.of w := by
  induction fs generalizing s with
  | nil => cases h
  | cons f fs ih =>
    rw [setFields_cons]
    by_cases later : g ∈ fs
    · exact ih _ later
    · obtain rfl : g = f := (List.mem_cons.mp h).resolve_right later
      rw [rd_setFields_of_notMem _ i w later, rd_wr_of]

/-- One bounded field's part of a word's write: it takes its bits where they keep the bounds. -/
theorem setBounded_cons (s : State) (i w : Nat) (f : Fld) (lo hi : Nat) (bs : List (Fld × Nat × Nat)) :
    s.setBounded i w ((f, lo, hi) :: bs) =
      (if lo ≤ f.of w ∧ f.of w ≤ hi then s.wr f i (f.of w) else s).setBounded i w bs := rfl

theorem rd_setBounded_of_notMem (s : State) (i w : Nat) {g : Fld} {bs : List (Fld × Nat × Nat)} (h : g ∉ bs.map Prod.fst) :
    (s.setBounded i w bs).rd g i = s.rd g i := by
  induction bs generalizing s with
  | nil => rfl
  | cons b bs ih =>
    obtain ⟨f, lo, hi⟩ := b
    obtain ⟨hf, hbs⟩ := List.ne_and_not_mem_of_not_mem_cons h
    rw [setBounded_cons, ih _ hbs]
    split
    · exact rd_wr_of_fld_ne s i _ hf
    · rfl

/-- A bounded field that a word's write lists once takes its bits where they keep its bounds, and else keeps its value. -/
theorem rd_setBounded_of_mem (s : State) (i w : Nat) {g : Fld} {lo hi : Nat} {bs : List (Fld × Nat × Nat)}
    (once : (bs.map Prod.fst).Nodup) (h : (g, lo, hi) ∈ bs) :
    (s.setBounded i w bs).rd g i = if lo ≤ g.of w ∧ g.of w ≤ hi then g.of w else s.rd g i := by
  induction bs generalizing s with
  | nil => cases h
  | cons b bs ih =>
    obtain ⟨f, l, u⟩ := b
    obtain ⟨hf, hbs⟩ := List.nodup_cons.mp once
    rw [setBounded_cons]
    rcases List.mem_cons.mp h with e | later
    · cases e
      rw [rd_setBounded_of_notMem _ i w hf, apply_ite (State.rd · g i), rd_wr_of]
    · have ne : g ≠ f := fun e => hf (List.mem_map.mpr ⟨_, later, e⟩)
      rw [ih _ hbs later, apply_ite (State.rd · g i) (l ≤ f.of w ∧ f.of w ≤ u), rd_wr_of_fld_ne s i _ ne, ite_self]

/-! ## The write of QU_NOTIFY (R108) -/

/-- An entry point that reaches a queue acts on it (R431). -/
theorem queueAccess_eq {s : State} {q : Nat} {f : Option Func} {act : State → State} (hq : q < 65536) (h : s.reachesQueue q f = true) :
    s.queueAccess q f act = act s := by
  unfold State.queueAccess
  rw [if_neg (Nat.not_le.mpr hq), if_pos h]

theorem exec_quNotifyWrite {s : State} {q : Nat} {f : Option Func} (v : Nat) (up : s.phase = .running) (hq : q < 65536)
    (h : s.reachesQueue q f = true) : exec (.quNotifyWrite q f v) s = .next (s.writeNotify q v).collected :=
  calc exec (.quNotifyWrite q f v) s
    _ = s.whenUp fun s => s.queueAccess q f fun s => s.writeNotify q v := rfl
    _ = .next (s.queueAccess q f fun s => s.writeNotify q v).collected := whenUp_eq up
    _ = .next (s.writeNotify q v).collected := by rw [queueAccess_eq hq h]

/-- The fields of QU_NOTIFY that take whatever is written. -/
def notifyPlain : List Fld := [.QU_NOTIFY_ARM_INDEX, .QU_NOTIFY_ARMED, .QU_NOTIFY_MSIX_EN]

/-- The fields of QU_NOTIFY that have a range, on a function whose greatest vector is `top`. -/
def notifyBounded (top : Nat) : List (Fld × Nat × Nat) :=
  [(.QU_NOTIFY_VECTOR, 0, top), (.QU_NOTIFY_COAL_CNT, 1, 64), (.QU_NOTIFY_COAL_TIME, 1, 16)]

theorem writeNotify_eq (s : State) (q v : Nat) :
    s.writeNotify q v =
      (s.setFields q v notifyPlain).setBounded q v (notifyBounded (if s.qFunc q % 256 = 0 then 2047 else 63)) := rfl

theorem notifyBounded_fields (top : Nat) :
    (notifyBounded top).map Prod.fst = [.QU_NOTIFY_VECTOR, .QU_NOTIFY_COAL_CNT, .QU_NOTIFY_COAL_TIME] := rfl

theorem notifyBounded_nodup (top : Nat) : ((notifyBounded top).map Prod.fst).Nodup := by
  rw [notifyBounded_fields]
  decide

theorem notifyPlain_notBounded {g : Fld} (top : Nat) (h : g ∈ notifyPlain) : g ∉ (notifyBounded top).map Prod.fst := by
  rw [notifyBounded_fields]
  revert g
  decide

theorem rd_writeNotify_plain (s : State) (q v : Nat) {g : Fld} (h : g ∈ notifyPlain) : (s.writeNotify q v).rd g q = g.of v := by
  rw [writeNotify_eq, rd_setBounded_of_notMem _ q v (notifyPlain_notBounded _ h), rd_setFields_of_mem s q v h]

theorem rd_writeNotify_bounded (s : State) (q v : Nat) {g : Fld} {lo hi : Nat}
    (h : (g, lo, hi) ∈ notifyBounded (if s.qFunc q % 256 = 0 then 2047 else 63)) :
    (s.writeNotify q v).rd g q = if lo ≤ g.of v ∧ g.of v ≤ hi then g.of v else s.rd g q := by
  have notPlain : g ∉ notifyPlain := fun p => notifyPlain_notBounded _ p (List.mem_map_of_mem h)
  rw [writeNotify_eq, rd_setBounded_of_mem _ q v (notifyBounded_nodup _) h, rd_setFields_of_notMem s q v notPlain]

/-- Settles O55: the next state is that of `writeNotify`, whose bounded fields each take their bits or stay, by their own range alone. -/
theorem notifyFieldOutOfRangeStays : Obligations.notifyFieldOutOfRangeStays := by
  intro s q f v up hq reaches
  refine ⟨s.writeNotify q v, exec_quNotifyWrite v up hq reaches, ?armIndex, ?armed, ?msixEn, ?vector, ?coalCnt, ?coalTime⟩
  case armIndex => exact rd_writeNotify_plain s q v (by decide)
  case armed => exact rd_writeNotify_plain s q v (by decide)
  case msixEn => exact rd_writeNotify_plain s q v (by decide)
  case vector =>
    have h := rd_writeNotify_bounded s q v (g := .QU_NOTIFY_VECTOR) List.mem_cons_self
    simpa only [Nat.zero_le, true_and] using h
  case coalCnt => exact rd_writeNotify_bounded s q v (List.mem_cons_of_mem _ List.mem_cons_self)
  case coalTime => exact rd_writeNotify_bounded s q v (List.mem_cons_of_mem _ (List.mem_cons_of_mem _ List.mem_cons_self))

end Sys2Proof.Proofs.WorkQueues
end

section
/-! Translation: writes of the ASID slot and span registers, and the flush of a slot's cached entries (R414). -/

namespace Sys2Proof.Proofs.Translation

open Sys2Proof.Machine Sys2Proof.Laws Sys2Proof.Proofs.WorkQueues

/-! ## Flushing a slot -/

@[simp] theorem rd_flushSlot (s : State) (a : Nat) (f : Fld) (i : Nat) : (s.flushSlot a).rd f i = s.rd f i := rfl

theorem mem_txCache_flushSlot {s : State} {a : Nat} {e : TxEntry} :
    e ∈ (s.flushSlot a).txCache ↔ e ∈ s.txCache ∧ e.slot ≠ a := by
  simp only [State.flushSlot, List.mem_filter, decide_eq_true_eq]

theorem mem_walkCache_flushSlot {s : State} {a : Nat} {e : TxEntry} :
    e ∈ (s.flushSlot a).walkCache ↔ e ∈ s.walkCache ∧ e.slot ≠ a := by
  simp only [State.flushSlot, List.mem_filter, decide_eq_true_eq]

/-! ## The ASID slot register (R412 to R414) -/

/-- The fields of TX_ASID that a write sets. -/
def asidFields : List Fld := [.TX_ASID_ASID, .TX_ASID_VALID, .TX_ASID_WFUNC]

theorem exec_txAsidWrite {s : State} (a reg v : Nat) (up : s.phase = .running) :
    exec (.txAsidWrite a reg v) s = .next (s.writeTxSlot a reg v).collected :=
  calc exec (.txAsidWrite a reg v) s
    _ = s.whenUp fun s => s.writeTxSlot a reg v := rfl
    _ = .next (s.writeTxSlot a reg v).collected := whenUp_eq up

/-- TX_ASID of a slot that is not locked takes the write (R413). -/
theorem writeTxSlot_asid {s : State} {a : Nat} (v : Nat) (ha : a < 4096) (unlocked : s.flag .TX_ASID_LOCKED a = false) :
    s.writeTxSlot a 0 v = s.writeAsid a v := by
  have takes : ¬(4096 ≤ a ∨ s.flag .TX_ASID_LOCKED a = true) := by simp [ha, unlocked]
  rw [State.writeTxSlot, if_neg takes]

/-- A write without VALID is never rejected for its ASID; where the slot was VALID it flushes the slot. -/
theorem writeAsid_clearsValid {s : State} {a v : Nat} (valid : s.flag .TX_ASID_VALID a = true)
    (clears : Fld.of .TX_ASID_VALID v = 0) : s.writeAsid a v = (s.setFields a v asidFields).flushSlot a := by
  simp [State.writeAsid, valid, clears, asidFields]

/-! ## The span registers (R414) -/

theorem exec_txSpanBaseWrite {s : State} (a sp reg v : Nat) (up : s.phase = .running) :
    exec (.txSpanBaseWrite a sp reg v) s = .next (s.writeTxSpan a sp reg v).collected :=
  calc exec (.txSpanBaseWrite a sp reg v) s
    _ = s.whenUp fun s => s.writeTxSpan a sp reg v := rfl
    _ = .next (s.writeTxSpan a sp reg v).collected := whenUp_eq up

/-- Any other write to a VALID span is discarded, whether the slot is locked or not. -/
theorem writeTxSpan_discarded {s : State} {a sp reg v : Nat} (valid : s.flag .TX_SPAN_BASE_VALID (8 * a + sp) = true)
    (other : reg ≠ 0 ∨ Fld.of .TX_SPAN_BASE_VALID v ≠ 0) : s.writeTxSpan a sp reg v = s := by
  have notClearing : ¬(reg = 0 ∧ Fld.of .TX_SPAN_BASE_VALID v = 0) := fun h => other.elim (· h.1) (· h.2)
  simp only [State.writeTxSpan, if_pos valid, if_neg notClearing, ite_self]

/-- A write of TX_SPAN_BASE without VALID to a VALID span of a slot that is not locked writes VALID alone. -/
theorem writeTxSpan_clearsValid {s : State} {a sp v : Nat} (ha : a < 4096) (hsp : sp < 8)
    (unlocked : s.flag .TX_ASID_LOCKED a = false) (valid : s.flag .TX_SPAN_BASE_VALID (8 * a + sp) = true)
    (clears : Fld.of .TX_SPAN_BASE_VALID v = 0) :
    s.writeTxSpan a sp 0 v = s.wr .TX_SPAN_BASE_VALID (8 * a + sp) 0 := by
  have takes : ¬(4096 ≤ a ∨ 8 ≤ sp ∨ s.flag .TX_ASID_LOCKED a = true) := by simp [ha, hsp, unlocked]
  simp only [State.writeTxSpan, if_neg takes, if_pos valid, clears, and_self, if_true]

/-- Settles O57: the flush keeps no entry of the cleared slot in either cache; a VALID span's registers stay, but for VALID itself
where a write of TX_SPAN_BASE clears it. -/
theorem spansNeverTakeEffectHalfWritten : Obligations.spansNeverTakeEffectHalfWritten := by
  refine ⟨?flush, ?discard, ?clear⟩
  case flush =>
    intro s a v up ha unlocked valid clears
    have validCleared : ((s.setFields a v asidFields).flushSlot a).rd .TX_ASID_VALID a = 0 := by
      rw [rd_flushSlot, rd_setFields_of_mem s a v (by decide), clears]
    refine ⟨(s.setFields a v asidFields).flushSlot a, ?_, validCleared,
      fun _ he => (mem_txCache_flushSlot.mp he).2, fun _ he => (mem_walkCache_flushSlot.mp he).2⟩
    rw [exec_txAsidWrite a 0 v up, writeTxSlot_asid v ha unlocked, writeAsid_clearsValid valid clears]
  case discard =>
    intro s a sp reg v up _ _ valid other
    rw [exec_txSpanBaseWrite a sp reg v up, writeTxSpan_discarded valid other]
  case clear =>
    intro s a sp v up ha hsp unlocked valid clears
    refine ⟨s.wr .TX_SPAN_BASE_VALID (8 * a + sp) 0, ?_, rd_wr_self s _ _ 0, fun _ _ other => rd_wr_ne s 0 other⟩
    rw [exec_txSpanBaseWrite a sp 0 v up, writeTxSpan_clearsValid ha hsp unlocked valid clears]

end Sys2Proof.Proofs.Translation
end

section
/-! Management: a write of a sensor's thresholds that is rejected whole, and what its event-log record leaves alone (R464). -/

namespace Sys2Proof.Proofs.Management

open Sys2Proof.Machine Sys2Proof.Laws

/-- The record of a rejected write touches no register field outside the log's (R455). -/
theorem rd_logRejected_of_part_ne (s : State) (addr : Nat) {f : Fld} (k : Nat) (h : f.part ≠ .log) :
    (s.logRejected addr).rd f k = s.rd f k :=
  have logAlone : Frame (bit .log) s (s.logRejected addr) := logRejected_fr (Frame.refl _ s) rfl
  logAlone.regs f k (bit_and (Ne.symm h))

/-- MG_SENS_THR is a reference-domain register: it takes writes outside auxiliary reset. -/
theorem exec_mgSensThrWrite {s : State} {i : Nat} (v : Nat) (ref : s.phase ≠ .auxHeld) (hi : i < 147) :
    exec (.mgSensThrWrite i v) s = .next (s.writeSensThr i v).collected :=
  calc exec (.mgSensThrWrite i v) s
    _ = s.whenRef fun s => if i < 147 then s.writeSensThr i v else s := rfl
    _ = .next (if i < 147 then s.writeSensThr i v else s).collected := whenRef_eq ref
    _ = .next (s.writeSensThr i v).collected := by rw [if_pos hi]

/-- Where CRIT is nearer to normal than WARN, the write's only effect is its record: no threshold is set and no sensor judged. -/
theorem writeSensThr_rejected (s : State) (i : Nat) {v : Nat}
    (nearer : if Fld.of .MG_SENS_THR_LOW v = 1 then signedOf 16 (Fld.of .MG_SENS_THR_WARN v) < signedOf 16 (Fld.of .MG_SENS_THR_CRIT v)
      else signedOf 16 (Fld.of .MG_SENS_THR_CRIT v) < signedOf 16 (Fld.of .MG_SENS_THR_WARN v)) :
    s.writeSensThr i v = s.logRejected (sensThrAddr i) :=
  if_pos nearer

/-- Settles O56: the rejected write is its event-log record alone, and that record is framed by the log's own registers. -/
theorem sensorThresholdsAreRejectedWhole : Obligations.sensorThresholdsAreRejectedWhole := by
  intro s i v ref hi nearer
  refine ⟨?recorded, ?stays⟩
  case recorded => rw [exec_mgSensThrWrite v ref hi, writeSensThr_rejected s i nearer]
  case stays => exact fun f k notLog => rd_logRejected_of_part_ne s (sensThrAddr i) k notLog

end Sys2Proof.Proofs.Management
end

section
/-! Whole-machine rules: every command answers a next state and keeps to its parts, and every step keeps the shape. Each follows from one
lemma over the commands, which puts the frames of the meanings together (`exec_frame`). -/

namespace Sys2Proof.Proofs.WholeMachine

open Sys2Proof.Machine Sys2Proof.Laws Sys2Proof.Claims

/-- Every command keeps to its own parts: the frame of its meaning covers no part but those that `touches` names. -/
theorem exec_frame (c : Instr) (s : State) : OFrame (mask (touches c)) s (exec c s) := by
  cases c with dsimp only [touches]
  | auxPowerOnReset => exact execAuxPowerOnReset_fr (Frame.refl _ s) rfl
  | auxResetRelease => exact execAuxResetRelease_fr (Frame.refl _ s) rfl
  | pwrokMainAssert => exact execPwrokMainAssert_fr (Frame.refl _ s) rfl
  | mainResetComplete => exact execMainResetComplete_fr (Frame.refl _ s) rfl
  | pwrokMainDeassert => exact execPwrokMainDeassert_fr (Frame.refl _ s) rfl
  | resetNAssert => exact execResetNAssert_fr (Frame.refl _ s) rfl
  | pwResetWarm => exact execPwResetWarm_fr (Frame.refl _ s) rfl
  | pwResetMgmt => exact execPwResetMgmt_fr (Frame.refl _ s) rfl
  | iamelWatchdogReset => exact execIamelWatchdogReset_fr (Frame.refl _ s) rfl
  | trialConfirm => exact execTrialConfirm_fr (Frame.refl _ s) rfl
  | unitResetFerry => exact execUnitResetFerry_fr (Frame.refl _ s) rfl
  | unitResetPort => exact execUnitResetPort_fr (Frame.refl _ s) rfl
  | unitResetLaneQuad => exact execUnitResetLaneQuad_fr (Frame.refl _ s) rfl
  | unitResetHuddle => exact execUnitResetHuddle_fr (Frame.refl _ s) rfl
  | unitResetCatcher => exact execUnitResetCatcher_fr (Frame.refl _ s) rfl
  | unitResetComplete => exact execUnitResetComplete_fr (Frame.refl _ s) rfl
  | pwEnWrite => exact execPwEnWrite_fr (Frame.refl _ s) rfl
  | parkEnter => exact execParkEnter_fr (Frame.refl _ s) rfl
  | parkExit => exact execParkExit_fr (Frame.refl _ s) rfl
  | sagWarning => exact execSagWarning_fr (Frame.refl _ s) rfl
  | sagWarningRelease => exact execSagWarningRelease_fr (Frame.refl _ s) rfl
  | sagReset => exact execSagReset_fr (Frame.refl _ s) rfl
  | glitchDetect => exact execGlitchDetect_fr (Frame.refl _ s) rfl
  | efCommandOn => exact execEfCommandOn_fr (Frame.refl _ s) rfl
  | efCommandOff => exact execEfCommandOff_fr (Frame.refl _ s) rfl
  | efGateAbove8v => exact execEfGateAbove8v_fr (Frame.refl _ s) rfl
  | efGateBelow7v5 => exact execEfGateBelow7v5_fr (Frame.refl _ s) rfl
  | efFastTrip => exact execEfFastTrip_fr (Frame.refl _ s) rfl
  | efTimerTrip => exact execEfTimerTrip_fr (Frame.refl _ s) rfl
  | efFetOtTrip => exact execEfFetOtTrip_fr (Frame.refl _ s) rfl
  | efFetFail => exact execEfFetFail_fr (Frame.refl _ s) rfl
  | efModelUpdate => exact execEfModelUpdate_fr (Frame.refl _ s) rfl
  | paceEvaluation => exact execPaceEvaluation_fr (Frame.refl _ s) rfl
  | avsAck => exact execAvsAck_fr (Frame.refl _ s)
  | avsTimeout => exact execAvsTimeout_fr (Frame.refl _ s) rfl
  | avsFailClear => exact execAvsFailClear_fr (Frame.refl _ s) rfl
  | pwPaceCtlWrite => exact execPwPaceCtlWrite_fr (Frame.refl _ s) rfl
  | paceGradientWarning => exact execPaceGradientWarning_fr (Frame.refl _ s) rfl
  | paceGradientFault => exact execPaceGradientFault_fr (Frame.refl _ s)
  | jobOpen => exact execJobOpen_fr (Frame.refl _ s) rfl
  | keyReqReceive => exact execKeyReqReceive_fr (Frame.refl _ s) rfl
  | keyRespReceive => exact execKeyRespReceive_fr (Frame.refl _ s) rfl
  | notYetReceive => exact execNotYetReceive_fr (Frame.refl _ s) rfl
  | keyReqRetry => exact execKeyReqRetry_fr (Frame.refl _ s) rfl
  | keyReqUnanswered => exact execKeyReqUnanswered_fr (Frame.refl _ s) rfl
  | keyFailDeadline => exact execKeyFailDeadline_fr (Frame.refl _ s) rfl
  | keyInstall => exact execKeyInstall_fr (Frame.refl _ s) rfl
  | renewalStart => exact execRenewalStart_fr (Frame.refl _ s) rfl
  | renewalConfirmReceive => exact execRenewalConfirmReceive_fr (Frame.refl _ s) rfl
  | switchReceive => exact execSwitchReceive_fr (Frame.refl _ s) rfl
  | generationSwitch => exact execGenerationSwitch_fr (Frame.refl _ s) rfl
  | oldGenerationErase => exact execOldGenerationErase_fr (Frame.refl _ s) rfl
  | renewalRepeat => exact execRenewalRepeat_fr (Frame.refl _ s) rfl
  | generationExpiry => exact execGenerationExpiry_fr (Frame.refl _ s) rfl
  | keyLeaderTakeover => exact execKeyLeaderTakeover_fr (Frame.refl _ s) rfl
  | jobClose => exact execJobClose_fr (Frame.refl _ s) rfl
  | jobCloseManifestTimeout => exact execJobCloseManifestTimeout_fr (Frame.refl _ s) rfl
  | epochKeyErase => exact execEpochKeyErase_fr (Frame.refl _ s) rfl
  | debugChallengeRead => exact execDebugChallengeRead_fr (Frame.refl _ s)
  | debugUnlock => exact execDebugUnlock_fr (Frame.refl _ s) rfl
  | spdmMessage => exact execSpdmMessage_fr (Frame.refl _ s) rfl
  | fmSessionExpiry => exact execFmSessionExpiry_fr (Frame.refl _ s) rfl
  | doorbell => exact execDoorbell_fr (Frame.refl _ s) rfl
  | ringFetch => exact execRingFetch_fr (Frame.refl _ s) rfl
  | ringReadComplete => exact execRingReadComplete_fr (Frame.refl _ s) rfl
  | queueStartTurn => exact execQueueStartTurn_fr (Frame.refl _ s) rfl
  | heldCommandResume => exact execHeldCommandResume_fr (Frame.refl _ s) rfl
  | coalTimeExpiry => exact execCoalTimeExpiry_fr (Frame.refl _ s) rfl
  | headWordWriteFailure => exact execHeadWordWriteFailure_fr (Frame.refl _ s) rfl
  | waitConditionMet => exact execWaitConditionMet_fr (Frame.refl _ s) rfl
  | waitTimeoutExpiry => exact execWaitTimeoutExpiry_fr (Frame.refl _ s) rfl
  | cmdRun => exact execCmdRun_fr (Frame.refl _ s) rfl
  | cmdHalt => exact execCmdHalt_fr (Frame.refl _ s) rfl
  | cmdResume => exact execCmdResume_fr (Frame.refl _ s) rfl
  | cmdResumeSkip => exact execCmdResumeSkip_fr (Frame.refl _ s) rfl
  | heldResumeApply => exact execHeldResumeApply_fr (Frame.refl _ s) rfl
  | quNotifyWrite => exact execQuNotifyWrite_fr (Frame.refl _ s) rfl
  | queue0ConfigWrite => exact execQueue0ConfigWrite_fr (Frame.refl _ s) rfl
  | quPiRead => exact execQuPiRead_fr (Frame.refl _ s) rfl
  | queueApertureAccess => exact execQueueApertureAccess_fr (Frame.refl _ s) rfl
  | tallyArrayWrite => exact execTallyArrayWrite_fr (Frame.refl _ s) rfl
  | nop => exact execNop_fr (Frame.refl _ s) rfl
  | endCmd => exact execEndCmd_fr (Frame.refl _ s) rfl
  | fence => exact execFence_fr (Frame.refl _ s) rfl
  | cancel => exact execCancel_fr (Frame.refl _ s) rfl
  | cancelDecision => exact execCancelDecision_fr (Frame.refl _ s) rfl
  | put => exact execPut_fr (Frame.refl _ s) rfl
  | puti => exact execPuti_fr (Frame.refl _ s) rfl
  | get => exact execGet_fr (Frame.refl _ s) rfl
  | atomic => exact execAtomic_fr (Frame.refl _ s) rfl
  | send => exact execSend_fr (Frame.refl _ s) rfl
  | postrecv => exact execPostrecv_fr (Frame.refl _ s) rfl
  | tallyAdd => exact execTallyAdd_fr (Frame.refl _ s) rfl
  | waitTally => exact execWaitTally_fr (Frame.refl _ s) rfl
  | waitHead => exact execWaitHead_fr (Frame.refl _ s) rfl
  | waitTime => exact execWaitTime_fr (Frame.refl _ s) rfl
  | whistle => exact execWhistle_fr (Frame.refl _ s) rfl
  | collective => exact execCollective_fr (Frame.refl _ s) rfl
  | loop => exact execLoop_fr (Frame.refl _ s) rfl
  | skipIf => exact execSkipIf_fr (Frame.refl _ s) rfl
  | call => exact execCall_fr (Frame.refl _ s) rfl
  | windowOpen => exact execWindowOpen_fr (Frame.refl _ s) rfl
  | windowRevoke => exact execWindowRevoke_fr (Frame.refl _ s) rfl
  | regionRegister => exact execRegionRegister_fr (Frame.refl _ s) rfl
  | regionDeregister => exact execRegionDeregister_fr (Frame.refl _ s) rfl
  | regionDeregisterComplete => exact execRegionDeregisterComplete_fr (Frame.refl _ s) rfl
  | regionQuarantineEnd => exact execRegionQuarantineEnd_fr (Frame.refl _ s) rfl
  | treeBuild => exact execTreeBuild_fr (Frame.refl _ s) rfl
  | routeWrite => exact execRouteWrite_fr (Frame.refl _ s) rfl
  | routeCommit => exact execRouteCommit_fr (Frame.refl _ s) rfl
  | loadProgram => exact execLoadProgram_fr (Frame.refl _ s) rfl
  | ferryDrain => exact execFerryDrain_fr (Frame.refl _ s) rfl
  | ferryDrainComplete => exact execFerryDrainComplete_fr (Frame.refl _ s) rfl
  | ferryResume => exact execFerryResume_fr (Frame.refl _ s) rfl
  | queueBind => exact execQueueBind_fr (Frame.refl _ s) rfl
  | invalidate => exact execInvalidate_fr (Frame.refl _ s) rfl
  | invalidateComplete => exact execInvalidateComplete_fr (Frame.refl _ s) rfl
  | snapshot => exact execSnapshot_fr (Frame.refl _ s) rfl
  | streamInject => exact execStreamInject_fr (Frame.refl _ s) rfl
  | dataReceive => exact execDataReceive_fr (Frame.refl _ s) rfl
  | multicastDataReceive => exact execMulticastDataReceive_fr (Frame.refl _ s) rfl
  | ackReceive => exact execAckReceive_fr (Frame.refl _ s) rfl
  | nackBusyReceive => exact execNackBusyReceive_fr (Frame.refl _ s) rfl
  | nackRetryExpiry => exact execNackRetryExpiry_fr (Frame.refl _ s) rfl
  | respDataReceive => exact execRespDataReceive_fr (Frame.refl _ s) rfl
  | respStatusReceive => exact execRespStatusReceive_fr (Frame.refl _ s) rfl
  | ackDelayExpiry => exact execAckDelayExpiry_fr (Frame.refl _ s) rfl
  | rtoExpiry => exact execRtoExpiry_fr (Frame.refl _ s) rfl
  | contextFail => exact execContextFail_fr (Frame.refl _ s) rfl
  | idleCloseStart => exact execIdleCloseStart_fr (Frame.refl _ s) rfl
  | closeReqReceive => exact execCloseReqReceive_fr (Frame.refl _ s) rfl
  | closeAckReceive => exact execCloseAckReceive_fr (Frame.refl _ s) rfl
  | closeRefuseReceive => exact execCloseRefuseReceive_fr (Frame.refl _ s) rfl
  | jobCloseQuietTimeout => exact execJobCloseQuietTimeout_fr (Frame.refl _ s) rfl
  | quietExpiry => exact execQuietExpiry_fr (Frame.refl _ s) rfl
  | contextFetchComplete => exact execContextFetchComplete_fr (Frame.refl _ s) rfl
  | tpCfgWrite => exact execTpCfgWrite_fr (Frame.refl _ s) rfl
  | mfQuotaWrite => exact execMfQuotaWrite_fr (Frame.refl _ s) rfl
  | moverTransferComplete => exact execMoverTransferComplete_fr (Frame.refl _ s) rfl
  | flushReadComplete => exact execFlushReadComplete_fr (Frame.refl _ s) rfl
  | hostAtomicComplete => exact execHostAtomicComplete_fr (Frame.refl _ s) rfl
  | revokeReceive => exact execRevokeReceive_fr (Frame.refl _ s) rfl
  | confirmReceive => exact execConfirmReceive_fr (Frame.refl _ s) rfl
  | revokeDoneReceive => exact execRevokeDoneReceive_fr (Frame.refl _ s) rfl
  | revokeRepeat => exact execRevokeRepeat_fr (Frame.refl _ s) rfl
  | revokeFailTime => exact execRevokeFailTime_fr (Frame.refl _ s) rfl
  | unexpectedCopyComplete => exact execUnexpectedCopyComplete_fr (Frame.refl _ s) rfl
  | spillRefill => exact execSpillRefill_fr (Frame.refl _ s) rfl
  | catcherRegWrite => exact execCatcherRegWrite_fr (Frame.refl _ s) rfl
  | joinReceive => exact execJoinReceive_fr (Frame.refl _ s) rfl
  | partReceive => exact execPartReceive_fr (Frame.refl _ s) rfl
  | escapeReceive => exact execEscapeReceive_fr (Frame.refl _ s) rfl
  | resultReceive => exact execResultReceive_fr (Frame.refl _ s) rfl
  | collDoneReceive => exact execCollDoneReceive_fr (Frame.refl _ s) rfl
  | collFailReceive => exact execCollFailReceive_fr (Frame.refl _ s) rfl
  | collTimeout => exact execCollTimeout_fr (Frame.refl _ s) rfl
  | rejoinReceive => exact execRejoinReceive_fr (Frame.refl _ s) rfl
  | rerunReceive => exact execRerunReceive_fr (Frame.refl _ s) rfl
  | rejoinRepeat => exact execRejoinRepeat_fr (Frame.refl _ s) rfl
  | collCreditReceive => exact execCollCreditReceive_fr (Frame.refl _ s) rfl
  | collCreditReturn => exact execCollCreditReturn_fr (Frame.refl _ s) rfl
  | hdRegWrite => exact execHdRegWrite_fr (Frame.refl _ s) rfl
  | routerHeaderArrival => exact execRouterHeaderArrival_fr (Frame.refl _ s) rfl
  | cutThroughStart => exact execCutThroughStart_fr (Frame.refl _ s) rfl
  | mgDropExpiry => exact execMgDropExpiry_fr (Frame.refl _ s) rfl
  | mgCmdReceive => exact execMgCmdReceive_fr (Frame.refl _ s) rfl
  | mgStatusReceive => exact execMgStatusReceive_fr (Frame.refl _ s) rfl
  | telemetryRequest => exact execTelemetryRequest_fr (Frame.refl _ s) rfl
  | noticeReceive => exact execNoticeReceive_fr (Frame.refl _ s)
  | flitTransmit => exact execFlitTransmit_fr (Frame.refl _ s) rfl
  | dataFlitReceive => exact execDataFlitReceive_fr (Frame.refl _ s) rfl
  | creditFlitReceive => exact execCreditFlitReceive_fr (Frame.refl _ s) rfl
  | replayTimeout => exact execReplayTimeout_fr (Frame.refl _ s) rfl
  | nackRepeatTimeout => exact execNackRepeatTimeout_fr (Frame.refl _ s) rfl
  | fecLockGain => exact execFecLockGain_fr (Frame.refl _ s) rfl
  | fecLockLoss => exact execFecLockLoss_fr (Frame.refl _ s) rfl
  | portDown => exact execPortDown_fr (Frame.refl _ s) rfl
  | helloReceive => exact execHelloReceive_fr (Frame.refl _ s) rfl
  | helloRepeat => exact execHelloRepeat_fr (Frame.refl _ s) rfl
  | holdExpiry => exact execHoldExpiry_fr (Frame.refl _ s) rfl
  | trainFlitReceive => exact execTrainFlitReceive_fr (Frame.refl _ s) rfl
  | trainReqRepeat => exact execTrainReqRepeat_fr (Frame.refl _ s) rfl
  | retrainLimitExpiry => exact execRetrainLimitExpiry_fr (Frame.refl _ s) rfl
  | portDisableDrainEnd => exact execPortDisableDrainEnd_fr (Frame.refl _ s) rfl
  | trainingFrameReceive => exact execTrainingFrameReceive_fr (Frame.refl _ s) rfl
  | laneRequestRepeat => exact execLaneRequestRepeat_fr (Frame.refl _ s) rfl
  | fastPathTimeout => exact execFastPathTimeout_fr (Frame.refl _ s) rfl
  | fullTrainingRestart => exact execFullTrainingRestart_fr (Frame.refl _ s) rfl
  | recalRequest => exact execRecalRequest_fr (Frame.refl _ s) rfl
  | laneFailureNarrow => exact execLaneFailureNarrow_fr (Frame.refl _ s) rfl
  | lnLaneSerRead => exact execLnLaneSerRead_fr (Frame.refl _ s) rfl
  | lnLanePrbsRead => exact execLnLanePrbsRead_fr (Frame.refl _ s) rfl
  | timeFlitReceive => exact execTimeFlitReceive_fr (Frame.refl _ s) rfl
  | ppsEdge => exact execPpsEdge_fr (Frame.refl _ s) rfl
  | extReferenceLoss => exact execExtReferenceLoss_fr (Frame.refl _ s) rfl
  | parentLoss => exact execParentLoss_fr (Frame.refl _ s) rfl
  | holdoverExpiry => exact execHoldoverExpiry_fr (Frame.refl _ s) rfl
  | whistlePacketReceive => exact execWhistlePacketReceive_fr (Frame.refl _ s) rfl
  | whistleFire => exact execWhistleFire_fr (Frame.refl _ s) rfl
  | trigCaptureEdge => exact execTrigCaptureEdge_fr (Frame.refl _ s) rfl
  | trigOutputFire => exact execTrigOutputFire_fr (Frame.refl _ s) rfl
  | mtTrigCfgWrite => exact execMtTrigCfgWrite_fr (Frame.refl _ s) rfl
  | mtTrigCapRead => exact execMtTrigCapRead_fr (Frame.refl _ s) rfl
  | mtTrigStatRead => exact execMtTrigStatRead_fr (Frame.refl _ s) rfl
  | mtLineRead => exact execMtLineRead_fr (Frame.refl _ s) rfl
  | handlerDispatch => exact execHandlerDispatch_fr (Frame.refl _ s) rfl
  | budgetExpiry => exact execBudgetExpiry_fr (Frame.refl _ s) rfl
  | unitOpComplete f t op res => exact execUnitOpComplete_fr (_op := op) (_result := res) (Frame.refl _ s)
  | timerFire => exact execTimerFire_fr (Frame.refl _ s) rfl
  | eventWaitTimeout => exact execEventWaitTimeout_fr (Frame.refl _ s) rfl
  | fxCfgWrite => exact execFxCfgWrite_fr (Frame.refl _ s) rfl
  | fxFaultRead => exact execFxFaultRead_fr (Frame.refl _ s) rfl
  | alu => exact execAlu_fr (Frame.refl _ s) rfl
  | cmp => exact execCmp_fr (Frame.refl _ s) rfl
  | pred => exact execPred_fr (Frame.refl _ s) rfl
  | amo => exact execAmo_fr (Frame.refl _ s) rfl
  | sysFence => exact execSysFence_fr (Frame.refl _ s) rfl
  | sysYield => exact execSysYield_fr (Frame.refl _ s) rfl
  | sysDone => exact execSysDone_fr (Frame.refl _ s) rfl
  | sysNow => exact execSysNow_fr (Frame.refl _ s) rfl
  | sysSelf => exact execSysSelf_fr (Frame.refl _ s) rfl
  | sysBreak => exact execSysBreak_fr (Frame.refl _ s) rfl
  | jr => exact execJr_fr (Frame.refl _ s) rfl
  | addi => exact execAddi_fr (Frame.refl _ s) rfl
  | andi => exact execAndi_fr (Frame.refl _ s) rfl
  | ori => exact execOri_fr (Frame.refl _ s) rfl
  | xori => exact execXori_fr (Frame.refl _ s) rfl
  | movi => exact execMovi_fr (Frame.refl _ s) rfl
  | movk => exact execMovk_fr (Frame.refl _ s) rfl
  | cmpi => exact execCmpi_fr (Frame.refl _ s) rfl
  | shi => exact execShi_fr (Frame.refl _ s) rfl
  | ld => exact execLd_fr (Frame.refl _ s) rfl
  | lds => exact execLds_fr (Frame.refl _ s) rfl
  | st => exact execSt_fr (Frame.refl _ s) rfl
  | br => exact execBr_fr (Frame.refl _ s) rfl
  | brl => exact execBrl_fr (Frame.refl _ s) rfl
  | sendRequest => exact execSendRequest_fr (Frame.refl _ s) rfl
  | sendReply => exact execSendReply_fr (Frame.refl _ s) rfl
  | sendMcast => exact execSendMcast_fr (Frame.refl _ s) rfl
  | matchPost => exact execMatchPost_fr (Frame.refl _ s) rfl
  | matchProbe => exact execMatchProbe_fr (Frame.refl _ s) rfl
  | matchClaim => exact execMatchClaim_fr (Frame.refl _ s) rfl
  | matchDeliver => exact execMatchDeliver_fr (Frame.refl _ s) rfl
  | moveCopy => exact execMoveCopy_fr (Frame.refl _ s) rfl
  | moveFill => exact execMoveFill_fr (Frame.refl _ s) rfl
  | tallyUnitAdd => exact execTallyUnitAdd_fr (Frame.refl _ s) rfl
  | tallyRead => exact execTallyRead_fr (Frame.refl _ s) rfl
  | tallyWait => exact execTallyWait_fr (Frame.refl _ s) rfl
  | lockAcquire => exact execLockAcquire_fr (Frame.refl _ s) rfl
  | lockTry => exact execLockTry_fr (Frame.refl _ s) rfl
  | lockRelease => exact execLockRelease_fr (Frame.refl _ s) rfl
  | eventWait => exact execEventWait_fr (Frame.refl _ s) rfl
  | eventPost => exact execEventPost_fr (Frame.refl _ s) rfl
  | timerArm => exact execTimerArm_fr (Frame.refl _ s) rfl
  | timerCancel => exact execTimerCancel_fr (Frame.refl _ s) rfl
  | doorbellRing => exact execDoorbellRing_fr (Frame.refl _ s) rfl
  | enqueue => exact execEnqueue_fr (Frame.refl _ s) rfl
  | ferryRead => exact execFerryRead_fr (Frame.refl _ s) rfl
  | ferryOwn => exact execFerryOwn_fr (Frame.refl _ s) rfl
  | ferryUpgrade => exact execFerryUpgrade_fr (Frame.refl _ s) rfl
  | agentRead => exact execAgentRead_fr (Frame.refl _ s) rfl
  | agentWrite => exact execAgentWrite_fr (Frame.refl _ s) rfl
  | agentAtomic => exact execAgentAtomic_fr (Frame.refl _ s) rfl
  | ferryEviction => exact execFerryEviction_fr (Frame.refl _ s) rfl
  | poisonTimeout => exact execPoisonTimeout_fr (Frame.refl _ s) rfl
  | lkAcquire => exact execLkAcquire_fr (Frame.refl _ s) rfl
  | lkRelease => exact execLkRelease_fr (Frame.refl _ s) rfl
  | lkClearOrphan => exact execLkClearOrphan_fr (Frame.refl _ s) rfl
  | lkWithdraw => exact execLkWithdraw_fr (Frame.refl _ s) rfl
  | lkGroupWrite => exact execLkGroupWrite_fr (Frame.refl _ s) rfl
  | lkCfgWrite => exact execLkCfgWrite_fr (Frame.refl _ s) rfl
  | lkWordAcquire => exact execLkWordAcquire_fr (Frame.refl _ s) rfl
  | lkWordRelease => exact execLkWordRelease_fr (Frame.refl _ s) rfl
  | txAsidWrite => exact execTxAsidWrite_fr (Frame.refl _ s) rfl
  | txSpanBaseWrite => exact execTxSpanBaseWrite_fr (Frame.refl _ s) rfl
  | bmeClear => exact execBmeClear_fr (Frame.refl _ s) rfl
  | bmeSet => exact execBmeSet_fr (Frame.refl _ s) rfl
  | quiesceExpiry => exact execQuiesceExpiry_fr (Frame.refl _ s) rfl
  | d3hotEntry => exact execD3hotEntry_fr (Frame.refl _ s) rfl
  | flr => exact execFlr_fr (Frame.refl _ s) rfl
  | flrComplete => exact execFlrComplete_fr (Frame.refl _ s) rfl
  | vfEnableClear => exact execVfEnableClear_fr (Frame.refl _ s) rfl
  | pcieLinkDown => exact execPcieLinkDown_fr (Frame.refl _ s) rfl
  | completionTimeout => exact execCompletionTimeout_fr (Frame.refl _ s) rfl
  | bar4Access => exact execBar4Access_fr (Frame.refl _ s) rfl
  | hiCtlDataRead => exact execHiCtlDataRead_fr (Frame.refl _ s) rfl
  | hiCtlDataWrite => exact execHiCtlDataWrite_fr (Frame.refl _ s) rfl
  | hiWinWrite => exact execHiWinWrite_fr (Frame.refl _ s) rfl
  | hiVfWrite => exact execHiVfWrite_fr (Frame.refl _ s) rfl
  | hiFnStatRead => exact execHiFnStatRead_fr (Frame.refl _ s) rfl
  | msixUnmask => exact execMsixUnmask_fr (Frame.refl _ s)
  | slotPwrOn => exact execSlotPwrOn_fr (Frame.refl _ s) rfl
  | slotPwrOff => exact execSlotPwrOff_fr (Frame.refl _ s) rfl
  | slotPerstRelease => exact execSlotPerstRelease_fr (Frame.refl _ s) rfl
  | settleExpiry => exact execSettleExpiry_fr (Frame.refl _ s) rfl
  | presenceChange => exact execPresenceChange_fr (Frame.refl _ s) rfl
  | attentionButton => exact execAttentionButton_fr (Frame.refl _ s) rfl
  | containmentFreeze => exact execContainmentFreeze_fr (Frame.refl _ s) rfl
  | containmentRelease => exact execContainmentRelease_fr (Frame.refl _ s) rfl
  | attachedMsiWrite => exact execAttachedMsiWrite_fr (Frame.refl _ s) rfl
  | attachedRequest => exact execAttachedRequest_fr (Frame.refl _ s) rfl
  | welrirelCmd => exact execWelrirelCmd_fr (Frame.refl _ s) rfl
  | enrol => exact execEnrol_fr (Frame.refl _ s) rfl
  | logRead => exact execLogRead_fr (Frame.refl _ s) rfl
  | commit => exact execCommit_fr (Frame.refl _ s) rfl
  | mctpControl => exact execMctpControl_fr (Frame.refl _ s)
  | pldmUpdateComponent => exact execPldmUpdateComponent_fr (Frame.refl _ s) rfl
  | activateFirmware => exact execActivateFirmware_fr (Frame.refl _ s) rfl
  | liveUpdateUnit => exact execLiveUpdateUnit_fr (Frame.refl _ s) rfl
  | logFlashCopy => exact execLogFlashCopy_fr (Frame.refl _ s) rfl
  | mgLogLostRead => exact execMgLogLostRead_fr (Frame.refl _ s) rfl
  | sensorReading => exact execSensorReading_fr (Frame.refl _ s) rfl
  | sensorFail => exact execSensorFail_fr (Frame.refl _ s) rfl
  | mgSensThrWrite => exact execMgSensThrWrite_fr (Frame.refl _ s) rfl
  | faultAssertion => exact execFaultAssertion_fr (Frame.refl _ s) rfl
  | wireFault => exact execWireFault_fr (Frame.refl _ s) rfl
  | ftForceAssert => exact execFtForceAssert_fr (Frame.refl _ s) rfl
  | ftForceWire => exact execFtForceWire_fr (Frame.refl _ s) rfl
  | ftReactWrite => exact execFtReactWrite_fr (Frame.refl _ s) rfl
  | ftSrcRead => exact execFtSrcRead_fr (Frame.refl _ s) rfl
  | fatalEntry => exact execFatalEntry_fr (Frame.refl _ s) rfl
  | collectorSelfCheckFail => exact execCollectorSelfCheckFail_fr (Frame.refl _ s)
  | ecSelWrite => exact execEcSelWrite_fr (Frame.refl _ s) rfl
  | ecCntWrite => exact execEcCntWrite_fr (Frame.refl _ s) rfl
  | ecHistCfgWrite => exact execEcHistCfgWrite_fr (Frame.refl _ s) rfl
  | histogramSample => exact execHistogramSample_fr (Frame.refl _ s) rfl
  | snapshotCapture => exact execSnapshotCapture_fr (Frame.refl _ s) rfl
  | snapshotComplete => exact execSnapshotComplete_fr (Frame.refl _ s) rfl
  | registerWrite => exact execRegisterWrite_fr (Frame.refl _ s) rfl
  | mgmtResetComplete => exact execMgmtResetComplete_fr (Frame.refl _ s) rfl
  | regionEntryFetchComplete => exact execRegionEntryFetchComplete_fr (Frame.refl _ s) rfl
  | efRegulation => exact execEfRegulation_fr (Frame.refl _ s) rfl
  | prbsCheckerLock => exact execPrbsCheckerLock_fr (Frame.refl _ s) rfl
  | vfEnableSet => exact execVfEnableSet_fr (Frame.refl _ s) rfl
  | pcieLinkUp => exact execPcieLinkUp_fr (Frame.refl _ s) rfl

/-- The collector keeps the queue, the variant and the shape, whatever parts it touches. -/
theorem collected_keeps (s : State) : Frame 0x7ffffff s s.collected := collected_fr (Frame.refl _ s) rfl

/-- The collector changes a state only where the step raised a fault source. -/
theorem answers_of_next_or_collected {c : Instr} {s u : State} (h : exec c s = .next u ∨ exec c s = .next u.collected) :
    Answers c s u := by
  rcases h with h | h
  · exact .inl h
  · by_cases quiet : u.raised = []
    · exact .inl (by rw [h, collected_eq quiet])
    · exact .inr ⟨quiet, h⟩

/-- A command answers a next state that keeps the queue, the variant and the shape. -/
theorem exec_answers (c : Instr) (s : State) :
    ∃ t, exec c s = .next t ∧ t.pending = s.pending ∧ t.variant = s.variant ∧ (s.Inv → t.Inv) := by
  obtain ⟨u, answer, keeps⟩ := exec_frame c s
  rcases answer with h | h
  · exact ⟨u, h, keeps.pending, keeps.variant, keeps.inv⟩
  · have taken := collected_keeps u
    exact ⟨u.collected, h, taken.pending.trans keeps.pending, taken.variant.trans keeps.variant, fun i => taken.inv (keeps.inv i)⟩

/-- The shape does not depend on what waits in the queue. -/
theorem inv_dequeue {s : State} {rest : List Instr} (h : s.Inv) : State.Inv { s with pending := rest } :=
  ⟨h.mem, h.hostMem, h.scratch, h.regs, h.tallies⟩

/-- Settles O50: the frames answer for every command. -/
theorem everyCommandAnswers : Obligations.everyCommandAnswers := by
  intro c s
  obtain ⟨t, h, pending, variant, _⟩ := exec_answers c s
  exact ⟨t, h, pending, variant⟩

/-- Settles O51: an idle tick and every command keep the shape, and taking a command from the queue does not change it. -/
theorem everyStepKeepsTheShape : Obligations.everyStepKeepsTheShape := by
  intro s t shaped h
  unfold step at h
  split at h
  case h_1 =>
    cases h
    exact (tick_fr (Frame.refl 0x20000 s) rfl).inv shaped
  case h_2 c rest _ =>
    obtain ⟨u, hu, _, _, keeps⟩ := exec_answers c { s with pending := rest }
    cases hu.symm.trans h
    exact keeps (inv_dequeue shaped)

/-- Settles O52: the frame of a command over its parts, with the collector set apart. -/
theorem everyCommandKeepsToItsParts : Obligations.everyCommandKeepsToItsParts := by
  intro c s
  obtain ⟨u, answer, keeps⟩ := exec_frame c s
  exact ⟨u, answers_of_next_or_collected answer, keeps.leaves⟩

/-- Settles O48: `step` by its two cases. -/
theorem stepTakesTheFrontCommand : Obligations.stepTakesTheFrontCommand := by
  refine ⟨fun _ _ _ => rfl, fun s empty => ?_⟩
  unfold step
  rw [empty]

/-- Settles O49: after reset no register field, tally or byte is held, so that each reads as its reset value. -/
theorem resetIsWellShaped : Obligations.resetIsWellShaped :=
  ⟨⟨rfl, rfl, rfl, nofun, nofun⟩, rfl, fun _ => rfl, fun _ _ => rfl⟩

end Sys2Proof.Proofs.WholeMachine
end

section
/-! Engine code (R366 to R371): what an instruction that issues leads to, and what its effect leaves alone. -/

namespace Sys2Proof.Proofs.Engine

open Sys2Proof.Machine Sys2Proof.Laws Sys2Proof.Claims

/-! ## Operations that change no thread -/

/-- A state that differs in its registers alone. -/
def OnlyRegs (s t : State) : Prop := ∃ g, t = { s with regs := g }

theorem OnlyRegs.refl (s : State) : OnlyRegs s s := ⟨s.regs, rfl⟩

theorem OnlyRegs.trans {s t u : State} (h : OnlyRegs s t) (k : OnlyRegs t u) : OnlyRegs s u := by
  obtain ⟨_, rfl⟩ := h
  obtain ⟨g, rfl⟩ := k
  exact ⟨g, rfl⟩

theorem onlyRegs_wr (s : State) (f : Fld) (i v : Nat) : OnlyRegs s (s.wr f i v) := ⟨_, rfl⟩

theorem onlyRegs_addCount (s : State) (i w : Nat) : OnlyRegs s (s.addCount i w) := by
  unfold State.addCount
  dsimp only
  split
  · exact (onlyRegs_wr ..).trans (onlyRegs_wr ..)
  · exact onlyRegs_wr ..

theorem onlyRegs_countOver (u ev sub w : Nat) (ks : List Nat) : ∀ s : State, OnlyRegs s (s.countOver u ev sub w ks) := by
  induction ks with
  | nil => exact OnlyRegs.refl
  | cons k ks ih =>
    intro s
    refine OnlyRegs.trans ?_ (ih _)
    split
    · exact onlyRegs_addCount ..
    · exact OnlyRegs.refl s

/-- Counting an event changes counter registers alone. -/
theorem onlyRegs_count (s : State) (u ev sub w : Nat) : OnlyRegs s (s.count u ev sub w) := by
  unfold State.count
  split
  · exact onlyRegs_countOver ..
  · exact OnlyRegs.refl s

@[simp] theorem threads_count (s : State) (u ev sub w : Nat) : (s.count u ev sub w).threads = s.threads := by
  obtain ⟨g, h⟩ := onlyRegs_count s u ev sub w
  rw [h]

@[simp] theorem threads_lineMove (s : State) (addr port : Nat) : (s.lineMove addr port).threads = s.threads := threads_count ..

@[simp] theorem threads_lineRoom (s : State) (line : Nat) : (s.lineRoom line).threads = s.threads := by
  unfold State.lineRoom
  dsimp only
  split
  · rfl
  · split
    · exact threads_count ..
    · rfl

@[simp] theorem threads_lineRead (s : State) (f addr : Nat) : (s.lineRead f addr).threads = s.threads := by
  unfold State.lineRead
  split
  · split
    · rfl
    · exact threads_lineMove ..
  · exact (threads_lineMove ..).trans (threads_lineRoom ..)

@[simp] theorem threads_lineOwn (s : State) (f addr : Nat) : (s.lineOwn f addr).threads = s.threads := by
  unfold State.lineOwn
  split
  · split
    · rfl
    · split
      · rfl
      · dsimp only
        split
        · rfl
        · exact threads_lineMove ..
  · exact (threads_lineMove ..).trans (threads_lineRoom ..)

@[simp] theorem threads_touchLine (s : State) (f addr : Nat) (own : Bool) : (s.touchLine f addr own).threads = s.threads := by
  unfold State.touchLine
  split
  · rfl
  · split
    · exact threads_lineOwn ..
    · exact threads_lineRead ..

@[simp] theorem threads_storeLocal (s : State) (f addr : Nat) (bs : List Byte) : (s.storeLocal f addr bs).threads = s.threads := by
  unfold State.storeLocal
  split <;> rfl

/-- The threads of a state are read from its table of threads alone. -/
theorem thread_congr {s t : State} (h : t.threads = s.threads) (f k : Nat) : t.thread f k = s.thread f k := by
  unfold State.thread
  rw [h]

/-! ## Issue (R366, R369) -/

/-- The invocation is still there once its thread has taken the slot. -/
theorem inv_of_issues {s s' : State} {f t : Nat} {fields : List (Nat × Nat)} {v : Invoc} (h : Issues s s' f t fields v) :
    (s'.thread f t).inv = some v := by
  rw [h.took, inv_tookSlot, h.inv]

/-- What issues takes effect on the state in which its thread has taken the slot. -/
theorem issue_eq {s s' : State} {f t : Nat} {fields : List (Nat × Nat)} {v : Invoc} (h : Issues s s' f t fields v)
    (exe : State → Invoc → State) : s.issue f t fields exe = exe s' v := by
  obtain ⟨_, inv, on, turn, rfl, region, word, defined⟩ := h
  simp only [State.issue, inv, on, turn, region, word, defined, Bool.not_true, ne_eq, not_true_eq_false, decide_false, Bool.or_self,
    Bool.false_eq_true, if_false, if_true]

/-- A command that issues gives its instruction's effect. -/
theorem gives_of_issues {c : Instr} {s s' : State} {f t : Nat} {fields : List (Nat × Nat)} {v : Invoc} {exe : State → Invoc → State}
    (hc : exec c s = s.whenUp fun s => s.issue f t fields exe) (h : Issues s s' f t fields v) : Gives c s (exe s' v) := by
  unfold Gives
  rw [hc, whenUp_eq h.up, issue_eq h]

/-- One of format A whose guard holds gives its effect. -/
theorem gives_of_issuesA {c : Instr} {s s' : State} {f t op rd ra rb pg fn : Nat} {gn : Bool} {v : Invoc}
    {exe : State → Invoc → State} (hc : exec c s = s.whenUp fun s => s.issueA f t op rd ra rb pg gn fn exe)
    (h : Issues s s' f t (fmtA op rd ra rb pg gn fn) v) (guard : v.prd pg ≠ gn) : Gives c s (exe s' v) := by
  have effect := gives_of_issues hc h
  rwa [if_pos (bne_iff_ne.mpr guard)] at effect

/-- Changing the invocation of a running thread. -/
theorem updInv_eq {s : State} {f t : Nat} {v : Invoc} (h : (s.thread f t).inv = some v) (g : Invoc → Invoc) :
    s.updInv f t g = s.updThread f t fun x => { x with inv := some (g v) } := by
  simp only [State.updInv, State.updThread, h, Option.map_some]

/-- One of format A whose guard does not hold only goes on. -/
theorem gives_of_guardedOff {c : Instr} {s s' : State} {f t op rd ra rb pg fn : Nat} {gn : Bool} {v : Invoc}
    {exe : State → Invoc → State} (hc : exec c s = s.whenUp fun s => s.issueA f t op rd ra rb pg gn fn exe)
    (h : Issues s s' f t (fmtA op rd ra rb pg gn fn) v) (guard : v.prd pg = gn) :
    Gives c s ((s'.updThread f t fun x => { x with inv := some { v with pc := v.pc + 1 } }).slot f 1) := by
  have effect := gives_of_issues hc h
  rwa [if_neg (by simp [guard]), updInv_eq (inv_of_issues h)] at effect

/-- An instruction that retires puts its invocation in the thread and counts its slot. -/
theorem retireInstr_eq {s : State} {f t : Nat} {v : Invoc} (h : (s.thread f t).inv = some v) (g : Invoc → Invoc) :
    s.retireInstr f t g = retired s f t { g v with pc := v.pc + 1 } := by
  unfold State.retireInstr
  rw [updInv_eq h]
  rfl

/-- What an instruction that changes its invocation alone leads to. -/
theorem retires {s s' : State} {f t : Nat} {fields : List (Nat × Nat)} {v : Invoc} (h : Issues s s' f t fields v)
    (g : Invoc → Invoc) : s'.retireInstr f t g = retired s' f t { g v with pc := v.pc + 1 } := retireInstr_eq (inv_of_issues h) g

/-- An instruction of format B that writes a register. -/
theorem gives_wroteReg {c : Instr} {s s' : State} {f t rd : Nat} {fields : List (Nat × Nat)} {v : Invoc} {x : Invoc → Nat}
    (hc : exec c s = s.whenUp fun s => s.issue f t fields fun s _ => s.retireInstr f t fun v => v.setReg rd (x v))
    (h : Issues s s' f t fields v) : Gives c s (retired s' f t (wroteReg v rd (x v))) :=
  retires h (fun v => v.setReg rd (x v)) ▸ gives_of_issues hc h

/-- An instruction of format B that writes a predicate. -/
theorem gives_wrotePrd {c : Instr} {s s' : State} {f t rd : Nat} {fields : List (Nat × Nat)} {v : Invoc} {b : Invoc → Bool}
    (hc : exec c s = s.whenUp fun s => s.issue f t fields fun s _ => s.retireInstr f t fun v => v.setPrd rd (b v))
    (h : Issues s s' f t fields v) : Gives c s (retired s' f t (wrotePrd v rd (b v))) :=
  retires h (fun v => v.setPrd rd (b v)) ▸ gives_of_issues hc h

/-- An instruction of format A that writes a register. -/
theorem gives_wroteRegA {c : Instr} {s s' : State} {f t op rd ra rb pg fn : Nat} {gn : Bool} {v : Invoc} {x : State → Invoc → Nat}
    (hc : exec c s = s.whenUp fun s => s.issueA f t op rd ra rb pg gn fn fun s _ => s.retireInstr f t fun v => v.setReg rd (x s v))
    (h : Issues s s' f t (fmtA op rd ra rb pg gn fn) v) (guard : v.prd pg ≠ gn) :
    Gives c s (retired s' f t (wroteReg v rd (x s' v))) :=
  retires h (fun v => v.setReg rd (x s' v)) ▸ gives_of_issuesA hc h guard

/-- An instruction of format A that writes a predicate. -/
theorem gives_wrotePrdA {c : Instr} {s s' : State} {f t op rd ra rb pg fn : Nat} {gn : Bool} {v : Invoc} {b : Invoc → Bool}
    (hc : exec c s = s.whenUp fun s => s.issueA f t op rd ra rb pg gn fn fun s _ => s.retireInstr f t fun v => v.setPrd rd (b v))
    (h : Issues s s' f t (fmtA op rd ra rb pg gn fn) v) (guard : v.prd pg ≠ gn) :
    Gives c s (retired s' f t (wrotePrd v rd (b v))) :=
  retires h (fun v => v.setPrd rd (b v)) ▸ gives_of_issuesA hc h guard

/-- An instruction of format A that only retires. -/
theorem gives_wentOnA {c : Instr} {s s' : State} {f t op rd ra rb pg fn : Nat} {gn : Bool} {v : Invoc}
    (hc : exec c s = s.whenUp fun s => s.issueA f t op rd ra rb pg gn fn fun s _ => s.retireInstr f t id)
    (h : Issues s s' f t (fmtA op rd ra rb pg gn fn) v) (guard : v.prd pg ≠ gn) :
    Gives c s (retired s' f t { v with pc := v.pc + 1 }) :=
  retires h id ▸ gives_of_issuesA hc h guard

/-! ## Instructions that write one register or predicate -/

/-- Settles O4: each retires with its result in its destination. -/
theorem registerInstructionsComplete : Obligations.registerInstructionsComplete := by
  refine ⟨?alu, ?cmp, ?pred, ?fence, ?yield, ?now, ?self, ?addi, ?andi, ?ori, ?xori, ?movi, ?movk, ?cmpi, ?shi⟩
  case alu => exact fun _ _ _ _ _ ra rb _ _ fn _ issues guard =>
    gives_wroteRegA (x := fun _ v => aluOp fn (v.reg ra) (v.reg rb)) rfl issues guard
  case cmp => exact fun _ _ _ _ _ ra rb _ _ fn _ issues guard =>
    gives_wrotePrdA (b := fun v => cmpOp fn (v.reg ra) (v.reg rb)) rfl issues guard
  case pred => exact fun _ _ _ _ _ ra rb _ _ fn _ issues guard =>
    gives_wrotePrdA (b := fun v => predOp fn (v.prd ra) (v.prd rb)) rfl issues guard
  case fence => exact fun _ _ _ _ _ _ _ _ _ _ issues guard => gives_wentOnA rfl issues guard
  case yield => exact fun _ _ _ _ _ _ _ _ _ _ issues guard => gives_wentOnA rfl issues guard
  case now => exact fun _ _ _ _ _ _ _ _ _ _ issues guard => gives_wroteRegA (x := fun s _ => s.now) rfl issues guard
  case self => exact fun _ _ f t _ _ _ _ _ _ issues guard =>
    gives_wroteRegA (x := fun _ v => selfWord f t v.entry) rfl issues guard
  case addi => exact fun _ _ _ _ _ ra imm _ issues => gives_wroteReg (x := fun v => w64 (v.reg ra + sext64 16 imm)) rfl issues
  case andi => exact fun _ _ _ _ _ ra imm _ issues => gives_wroteReg (x := fun v => v.reg ra &&& imm) rfl issues
  case ori => exact fun _ _ _ _ _ ra imm _ issues => gives_wroteReg (x := fun v => v.reg ra ||| imm) rfl issues
  case xori => exact fun _ _ _ _ _ ra imm _ issues => gives_wroteReg (x := fun v => v.reg ra ^^^ imm) rfl issues
  case movi => exact fun _ _ _ _ _ _ imm _ issues => gives_wroteReg (x := fun _ => sext64 16 imm) rfl issues
  case movk => exact fun _ _ _ _ rd k imm _ issues => gives_wroteReg (x := fun v => movkValue (v.reg rd) k imm) rfl issues
  case cmpi => exact fun _ _ _ _ rd ra imm _ issues =>
    gives_wrotePrd (b := fun v => cmpOp (rd / 8) (v.reg ra) (sext64 16 imm)) rfl issues
  case shi => exact fun _ _ _ _ _ ra imm _ issues => gives_wroteReg (x := fun v => shiOp imm (v.reg ra)) rfl issues

/-- Settles O7: every instruction of format A issues through the same guard. -/
theorem guardedOffInstructionsGoOn : Obligations.guardedOffInstructionsGoOn := by
  intro c s s' f t fields pg gn v format issues guard
  unfold guardOf at format
  split at format
  case h_12 => cases format
  all_goals
    cases format
    exact gives_of_guardedOff rfl issues guard

/-! ## Loads, stores and AMO (R368, R370, R371) -/

/-- An operation that changes no thread keeps the invocation of an instruction that issues. -/
theorem retires_after {s s' u : State} {f t : Nat} {fields : List (Nat × Nat)} {v : Invoc} (h : Issues s s' f t fields v)
    (same : u.threads = s'.threads) (g : Invoc → Invoc) : u.retireInstr f t g = retired u f t { g v with pc := v.pc + 1 } :=
  retireInstr_eq (by rw [thread_congr same, inv_of_issues h]) g

/-- A load that does not fault. -/
theorem loadInstr_eq {s s' : State} {f t rd ra sz off : Nat} {fields : List (Nat × Nat)} {v : Invoc} (signed : Bool)
    (h : Issues s s' f t fields v) (allowed : s'.accessFault f v (offAddr (v.reg ra) off) (2 ^ sz) true = none) :
    let a := offAddr (v.reg ra) off
    let x := leNat (s'.readLocal f a (2 ^ sz))
    s'.loadInstr f t v rd ra sz off signed =
      retired (s'.touchLine f a false) f t (wroteReg v rd (if signed then sext64 (8 * 2 ^ sz) x else x)) := by
  simp only [State.loadInstr, allowed]
  exact retires_after h (threads_touchLine ..) _

/-- A store that does not fault. -/
theorem storeInstr_eq {s s' : State} {f t rs ra sz off : Nat} {fields : List (Nat × Nat)} {v : Invoc}
    (h : Issues s s' f t fields v) (allowed : s'.accessFault f v (offAddr (v.reg ra) off) (2 ^ sz) false = none) :
    let a := offAddr (v.reg ra) off
    s'.storeInstr f t v rs ra sz off =
      retired ((s'.touchLine f a true).storeLocal f a (leBytes (2 ^ sz) (v.reg rs))) f t { v with pc := v.pc + 1 } := by
  simp only [State.storeInstr, allowed]
  exact retires_after h ((threads_storeLocal ..).trans (threads_touchLine ..)) id

/-- An AMO that does not fault. -/
theorem amoInstr_eq {s s' : State} {f t rd ra rb fn : Nat} {fields : List (Nat × Nat)} {v : Invoc} (h : Issues s s' f t fields v) :
    let n := if bitOf fn 2 then 8 else 4
    let old := leNat (s'.readLocal f (v.reg ra) n)
    s'.accessFault f v (v.reg ra) n true = none →
    s'.amoInstr f t v rd ra rb fn =
      retired ((s'.touchLine f (v.reg ra) true).storeLocal f (v.reg ra)
        (leBytes n (amoOp (fn / 8) (8 * n) old (v.reg rb) (v.reg rd)))) f t (wroteReg v rd old) := by
  intro n old allowed
  simp only [State.amoInstr]
  rw [allowed]
  exact retires_after h ((threads_storeLocal ..).trans (threads_touchLine ..)) _

/-- Settles O5: each access that does not fault moves its bytes and retires. -/
theorem memoryInstructionsComplete : Obligations.memoryInstructionsComplete := by
  refine ⟨?amo, ?ld, ?lds, ?st⟩
  case amo =>
    intro s s' f t rd ra rb pg gn fn v issues guard n old allowed
    rw [← amoInstr_eq issues allowed]
    exact gives_of_issuesA (exe := fun s v => s.amoInstr f t v rd ra rb fn) rfl issues guard
  case ld =>
    intro s s' f t rd ra sz mo off v issues a allowed
    have effect := gives_of_issues (c := .ld f t rd ra sz mo off) (exe := fun s v => s.loadInstr f t v rd ra sz off false) rfl issues
    rwa [loadInstr_eq false issues allowed] at effect
  case lds =>
    intro s s' f t rd ra sz mo off v issues a allowed
    have effect := gives_of_issues (c := .lds f t rd ra sz mo off) (exe := fun s v => s.loadInstr f t v rd ra sz off true) rfl issues
    rwa [loadInstr_eq true issues allowed] at effect
  case st =>
    intro s s' f t rs ra sz mo off v issues a allowed
    have effect := gives_of_issues (c := .st f t rs ra sz mo off) (exe := fun s v => s.storeInstr f t v rs ra sz off) rfl issues
    rwa [storeInstr_eq issues allowed] at effect

/-! ## Branches, BREAK and DONE (R365, R370) -/

/-- A jump to an instruction of the region goes there and wastes the slot after it. -/
theorem jump_eq {s : State} {f t k : Nat} {v : Invoc} {target : Int} (inv : (s.thread f t).inv = some v) (at_k : target = (k : Nat))
    (region : v.inRegion k = true) (g : Invoc → Invoc) :
    s.jump f t target g = (retired s f t { g v with pc := k }).slot f 1 := by
  subst at_k
  simp only [State.jump, inv, Int.natCast_nonneg, Int.toNat_natCast, region, and_self, if_true, updInv_eq inv]
  rfl

/-- What a branch does once it is known whether it is taken. -/
theorem gives_branch {c : Instr} {s s' : State} {f t p off : Nat} {n : Bool} {fields : List (Nat × Nat)} {v : Invoc}
    {g : Invoc → Invoc}
    (hc : exec c s = s.whenUp fun s => s.issue f t fields fun s v =>
      if v.prd p != n then s.jump f t (v.pc + signedOf 20 off) g else s.retireInstr f t id)
    (h : Issues s s' f t fields v) :
    (v.prd p = n → Gives c s (retired s' f t { v with pc := v.pc + 1 })) ∧
    (∀ k : Nat, v.prd p ≠ n → (v.pc : Int) + signedOf 20 off = k → v.inRegion k = true →
      Gives c s ((retired s' f t { g v with pc := k }).slot f 1)) := by
  have effect := gives_of_issues hc h
  refine ⟨fun off => ?passed, fun k on at_k region => ?taken⟩
  case passed => rwa [if_neg (by simp [off]), retires h id] at effect
  case taken => rwa [if_pos (bne_iff_ne.mpr on), jump_eq (inv_of_issues h) at_k region] at effect

/-- Settles O6: branches and JR by their jump, BREAK and DONE as they issue. -/
theorem controlInstructionsComplete : Obligations.controlInstructionsComplete := by
  have br (f t p : Nat) (n : Bool) (rsv off : Nat) {s s' : State} {v : Invoc} (issues : Issues s s' f t (fmtD 0x18 p n rsv off) v) :=
    gives_branch (c := .br f t p n rsv off) (p := p) (n := n) (off := off) (g := id) rfl issues
  have brl (f t p : Nat) (n : Bool) (rsv off : Nat) {s s' : State} {v : Invoc} (issues : Issues s s' f t (fmtD 0x19 p n rsv off) v) :=
    gives_branch (c := .brl f t p n rsv off) (p := p) (n := n) (off := off) (g := fun v => v.setReg 31 (v.pc + 1)) rfl issues
  refine ⟨?br_passed, ?br_taken, ?brl_passed, ?brl_taken, ?jr, ?brk, ?done⟩
  case br_passed => exact fun s s' f t p n rsv off v issues => (br f t p n rsv off issues).1
  case br_taken => exact fun s s' f t p n rsv off v k issues => (br f t p n rsv off issues).2 k
  case brl_passed => exact fun s s' f t p n rsv off v issues => (brl f t p n rsv off issues).1
  case brl_taken => exact fun s s' f t p n rsv off v k issues => (brl f t p n rsv off issues).2 k
  case jr =>
    intro s s' f t rd ra rb pg gn fn v issues guard region
    have effect := gives_of_issuesA (c := .jr f t rd ra rb pg gn fn)
      (exe := fun s v => s.jump f t (v.reg ra % 16384) fun v => v.setReg rd (v.pc + 1)) rfl issues guard
    rwa [jump_eq (target := v.reg ra % 16384) (inv_of_issues issues) (k := v.reg ra % 16384) (by omega) region] at effect
  case brk =>
    exact fun s s' f t rd ra rb pg gn v issues guard =>
      gives_of_issuesA (exe := fun s _ => (s.engineFault f t tfBreak).settleAll) rfl issues guard
  case done =>
    exact fun s s' f t rd ra rb pg gn v issues guard =>
      gives_of_issuesA (exe := fun s v => (s.doneInstr f t (v.reg ra)).settleAll) rfl issues guard

/-! ## What an instruction leaves alone (R367) -/

/-- A write to another register, or to g0, leaves a register. -/
theorem reg_wroteReg (v : Invoc) {rd r : Nat} (x : Nat) (other : r ≠ rd ∨ r = 0) : (wroteReg v rd x).reg r = v.reg r := by
  show (v.setReg rd x).reg r = v.reg r
  unfold Invoc.setReg Invoc.reg
  by_cases zero : r = 0
  · rw [if_pos zero, if_pos zero]
  · rw [if_neg zero, if_neg zero]
    split
    · rfl
    · rw [look_put_ne _ _ (other.resolve_right zero)]

theorem prd_wroteReg (v : Invoc) (rd x p : Nat) : (wroteReg v rd x).prd p = v.prd p := by
  show (v.setReg rd x).prd p = v.prd p
  unfold Invoc.setReg
  split <;> rfl

/-- A write to another predicate, or to p0, leaves a predicate. -/
theorem prd_wrotePrd (v : Invoc) {rd p : Nat} (b : Bool) (other : p ≠ rd ∨ p = 0) : (wrotePrd v rd b).prd p = v.prd p := by
  show (v.setPrd rd b).prd p = v.prd p
  unfold Invoc.setPrd Invoc.prd
  by_cases zero : p = 0
  · rw [if_pos zero, if_pos zero]
  · rw [if_neg zero, if_neg zero]
    split
    · rfl
    · rw [look_put_ne _ _ (other.resolve_right zero)]

theorem reg_wrotePrd (v : Invoc) (rd : Nat) (b : Bool) (r : Nat) : (wrotePrd v rd b).reg r = v.reg r := by
  show (v.setPrd rd b).reg r = v.reg r
  unfold Invoc.setPrd
  split <;> rfl

/-- Two threads differ at most in their count of the slots in which they were passed over. -/
def SameButPassed (x y : Thread) : Prop := y = { x with passed := y.passed }

theorem SameButPassed.trans {x y z : Thread} (h : SameButPassed x y) (k : SameButPassed y z) : SameButPassed x z := by
  unfold SameButPassed at *
  rw [k, h]

/-- Taking an issue slot changes no thread but in its count of passed slots. -/
theorem thread_tookSlot (s : State) (f t g k : Nat) : SameButPassed (s.thread g k) ((s.tookSlot f t).thread g k) := by
  simp only [State.tookSlot]
  generalize (List.range 16).map _ = ts
  show SameButPassed _ ((List.foldl _ s ts).thread g k)
  induction ts generalizing s with
  | nil => rfl
  | cons u r ih =>
    rw [List.foldl_cons]
    refine SameButPassed.trans ?_ (ih _)
    split
    · rfl
    · by_cases e : (g, k) = (f, u.1)
      · cases e
        rw [thread_updThread_self]
        rfl
      · rw [thread_updThread_ne _ _ e]
        rfl

@[simp] theorem thread_slot (s : State) (f k g u : Nat) : (s.slot f k).thread g u = s.thread g u := thread_wr ..

theorem thread_retired_ne (s : State) {f t g k : Nat} (w : Invoc) (other : (g, k) ≠ (f, t)) :
    (retired s f t w).thread g k = s.thread g k := by
  rw [retired, thread_slot, thread_updThread_ne _ _ other]

@[simp] theorem thread_retired_self (s : State) (f t : Nat) (w : Invoc) : ((retired s f t w).thread f t).inv = some w := by
  rw [retired, thread_slot, thread_updThread_self]

/-- An instruction that retires leaves the other threads, and every part of the machine but the ferry registers. -/
theorem otherThreads_retired {s s' : State} {f t : Nat} {fields : List (Nat × Nat)} {v : Invoc} (h : Issues s s' f t fields v)
    (w : Invoc) : OtherThreads s (retired s' f t w) f t := by
  rw [h.took]
  refine ⟨fun g k other => ?_, ?_⟩
  · rw [thread_retired_ne _ w other]
    exact thread_tookSlot s f t g k
  · have took : Frame (mask [.fx]) s (s.tookSlot f t) := tookSlot_fr (Frame.refl _ s)
    have slot : Frame (mask [.fx]) s (retired (s.tookSlot f t) f t w) := slot_fr (updThread_fr took) rfl
    exact slot.leaves

/-- An instruction that writes one register retires with some value in it. -/
theorem gives_of_writesReg {c : Instr} {s s' : State} {f t rd : Nat} {fields : List (Nat × Nat)} {g : Option (Nat × Bool)} {v : Invoc}
    (writes : writesReg c = some (f, t, fields, rd, g)) (issues : Issues s s' f t fields v) (guard : guardHolds v g) :
    ∃ x, Gives c s (retired s' f t (wroteReg v rd x)) := by
  obtain ⟨alu, _, _, _, _, now, self, addi, andi, ori, xori, movi, movk, _, shi⟩ := registerInstructionsComplete
  unfold writesReg at writes
  split at writes <;> cases writes
  case h_1 => exact ⟨_, alu _ _ _ _ _ _ _ _ _ _ _ issues (guard _ _ rfl)⟩
  case h_2 => exact ⟨_, now _ _ _ _ _ _ _ _ _ _ issues (guard _ _ rfl)⟩
  case h_3 => exact ⟨_, self _ _ _ _ _ _ _ _ _ _ issues (guard _ _ rfl)⟩
  case h_4 => exact ⟨_, addi _ _ _ _ _ _ _ _ issues⟩
  case h_5 => exact ⟨_, andi _ _ _ _ _ _ _ _ issues⟩
  case h_6 => exact ⟨_, ori _ _ _ _ _ _ _ _ issues⟩
  case h_7 => exact ⟨_, xori _ _ _ _ _ _ _ _ issues⟩
  case h_8 => exact ⟨_, movi _ _ _ _ _ _ _ _ issues⟩
  case h_9 => exact ⟨_, movk _ _ _ _ _ _ _ _ issues⟩
  case h_10 => exact ⟨_, shi _ _ _ _ _ _ _ _ issues⟩

/-- An instruction that writes one predicate retires with some value in it. -/
theorem gives_of_writesPrd {c : Instr} {s s' : State} {f t rd : Nat} {fields : List (Nat × Nat)} {g : Option (Nat × Bool)} {v : Invoc}
    (writes : writesPrd c = some (f, t, fields, rd, g)) (issues : Issues s s' f t fields v) (guard : guardHolds v g) :
    ∃ b, Gives c s (retired s' f t (wrotePrd v rd b)) := by
  obtain ⟨_, cmp, pred, _, _, _, _, _, _, _, _, _, _, cmpi, _⟩ := registerInstructionsComplete
  unfold writesPrd at writes
  split at writes <;> cases writes
  case h_1 => exact ⟨_, cmp _ _ _ _ _ _ _ _ _ _ _ issues (guard _ _ rfl)⟩
  case h_2 => exact ⟨_, pred _ _ _ _ _ _ _ _ _ _ _ issues (guard _ _ rfl)⟩
  case h_3 => exact ⟨_, cmpi _ _ _ _ _ _ _ _ issues⟩

/-- Settles O53: what retires is the invocation with its one destination written, and nothing else of the machine but ferry registers. -/
theorem instructionsKeepToTheirDestination : Obligations.instructionsKeepToTheirDestination := by
  refine ⟨?register, ?predicate⟩
  case register =>
    intro c s s' f t fields rd g v writes issues guard
    obtain ⟨x, gives⟩ := gives_of_writesReg writes issues guard
    exact ⟨_, _, gives, thread_retired_self .., rfl, fun _ => reg_wroteReg v x, prd_wroteReg v rd x, otherThreads_retired issues _⟩
  case predicate =>
    intro c s s' f t fields rd g v writes issues guard
    obtain ⟨b, gives⟩ := gives_of_writesPrd writes issues guard
    exact ⟨_, _, gives, thread_retired_self .., rfl, fun _ => prd_wrotePrd v b, reg_wrotePrd v rd b, otherThreads_retired issues _⟩

end Sys2Proof.Proofs.Engine
end

section
/-! Stores to the wharf and to scratch: the bytes written read back, and every other byte reads as before (R370, R395, R409). -/

namespace Sys2Proof.Proofs.Stores

open Sys2Proof.Machine Sys2Proof.Laws Sys2Proof.Claims Sys2Proof.Proofs.Engine

/-! ## Bytes written -/

@[simp] theorem length_leBytes (n : Nat) : ∀ v, (leBytes n v).length = n := by
  induction n with
  | zero => exact fun _ => rfl
  | succ n ih => exact fun v => congrArg (· + 1) (ih (v / 256))

theorem sameOutside_memWrite (m : Memory) (a : Nat) (bs : List Byte) : SameOutside m (memWrite m a bs) a bs.length :=
  fun b out => memGet_memWrite_out bs m a b out

theorem bytesAt_memWrite {m : Memory} (wf : m.wf = true) (a : Nat) (bs : List Byte) : BytesAt (memWrite m a bs) a bs :=
  memRead_memWrite bs a wf

/-- Writing `n` bytes of a number changes those bytes alone. -/
theorem sameOutside_leBytes (m : Memory) (a n v : Nat) : SameOutside m (memWrite m a (leBytes n v)) a n := by
  have written := sameOutside_memWrite m a (leBytes n v)
  rwa [length_leBytes] at written

/-! ## A ferry's store -/

theorem storeLocal_of_scratch (s : State) (f : Nat) {a : Nat} (bs : List Byte) (local_ : isScratch a = true) :
    s.storeLocal f a bs = { s with scratch := memWrite s.scratch (65536 * f + a) bs } := if_pos local_

theorem storeLocal_of_wharf (s : State) (f : Nat) {a : Nat} (bs : List Byte) (wharf : isScratch a = false) :
    s.storeLocal f a bs = { s with mem := memWrite s.mem a bs } := if_neg (by simp [wharf])

/-- The slot and the directory's part of an access touch no memory and no tally. -/
theorem touchLine_frame (s : State) (f t a : Nat) (own : Bool) : Frame 0x20000 s ((s.tookSlot f t).touchLine f a own) :=
  touchLine_fr (tookSlot_fr (Frame.refl _ s)) rfl

/-! ## An agent's write -/

theorem isScratch_of_inWharf {s : State} {a : Nat} (h : s.inWharf a = true) : isScratch a = false := by
  have range := of_decide_eq_true h
  exact decide_eq_false (by omega)

theorem agentMoves_frame (s : State) (a n : Nat) : Frame 0x20000 s (s.agentMoves a n) := agentMoves_fr (Frame.refl _ s) rfl

/-- A hardware write outside scratch writes its bytes. -/
theorem mem_writeLocal (s : State) (f : Nat) {a : Nat} (bs : List Byte) (wharf : isScratch a = false) :
    (s.writeLocal f a bs).mem = memWrite s.mem a bs := by
  unfold State.writeLocal
  cases bs with
  | nil => rfl
  | cons b bs =>
    simp only [List.isEmpty_cons, Bool.false_eq_true, if_false, wharf]
    rw [(agentMoves_frame s a _).mem rfl]

theorem scratch_writeLocal (s : State) (f : Nat) {a : Nat} (bs : List Byte) (wharf : isScratch a = false) :
    (s.writeLocal f a bs).scratch = s.scratch := by
  unfold State.writeLocal
  split
  · rfl
  · simp only [wharf, Bool.false_eq_true, if_false]
    exact (agentMoves_frame s a _).scratch rfl

/-- What a hardware write in the wharf leaves: host memory, the tallies and scratch, and every byte but its own, which it puts there. -/
structure Wrote (s u : State) (a : Nat) (bs : List Byte) : Prop where
  hostMem : u.hostMem = s.hostMem
  tallies : u.tallies = s.tallies
  scratch : u.scratch = s.scratch
  outside : SameOutside s.mem u.mem a bs.length
  bytes : BytesAt u.mem a bs

theorem writeLocal_wrote {s : State} (f : Nat) {a : Nat} (bs : List Byte) (shaped : s.Inv) (wharf : s.inWharf a = true) :
    Wrote s (s.writeLocal f a bs) a bs := by
  have out := isScratch_of_inWharf wharf
  have keeps : Frame 0x520000 s (s.writeLocal f a bs) := writeLocal_fr (Frame.refl _ s) rfl
  refine ⟨keeps.hostMem rfl, keeps.tallies rfl, scratch_writeLocal s f bs out, ?_, ?_⟩ <;> rw [mem_writeLocal s f bs out]
  · exact sameOutside_memWrite s.mem a bs
  · exact bytesAt_memWrite shaped.mem a bs

/-- The state after an operation on a word lock (R409): the word holds the new value where it was the wanted one, else what it held. -/
def wordLocked (s : State) (a want new : Nat) : State :=
  let w := if memNat s.mem a 8 = want then new else memNat s.mem a 8
  let t := s.writeLocal 0 a (leBytes 8 w)
  { t with lkWord := t.lkWord.put identCtl w }

/-- The control path's operation on a word lock in maintenance mode. -/
theorem wordLock_eq {s : State} {a : Nat} (want new : Nat) (maint : s.flag .LK_CFG_MAINT = true) (wharf : s.inWharf a = true)
    (aligned : a % 8 = 0) : s.wordLock identCtl a want new = wordLocked s a want new := by
  simp only [State.wordLock, wordLocked, maint, wharf, aligned, Bool.not_true, ne_eq, not_true_eq_false, decide_false, Bool.or_self,
    Bool.false_eq_true, if_false]
  split <;> rfl

/-- A word lock's operation keeps to its word. -/
theorem wordLock_wrote {c : Instr} {s : State} {a want new : Nat}
    (hc : exec c s = s.whenUp fun s => s.wordLock identCtl a want new) (shaped : s.Inv) (up : s.phase = .running)
    (maint : s.flag .LK_CFG_MAINT = true) (wharf : s.inWharf a = true) (aligned : a % 8 = 0) :
    ∃ u : State, exec c s = .next u.collected ∧ u.hostMem = s.hostMem ∧ u.tallies = s.tallies ∧ u.scratch = s.scratch ∧
      SameOutside s.mem u.mem a 8 ∧ (memNat s.mem a 8 = want → BytesAt u.mem a (leBytes 8 new)) := by
  have wrote := writeLocal_wrote 0 (leBytes 8 (if memNat s.mem a 8 = want then new else memNat s.mem a 8)) shaped wharf
  refine ⟨wordLocked s a want new, by rw [hc, whenUp_eq up, wordLock_eq want new maint wharf aligned], wrote.hostMem, wrote.tallies, wrote.scratch, ?_, fun free => ?_⟩
  · have outside := wrote.outside
    rwa [length_leBytes] at outside
  · have bytes := wrote.bytes
    rw [if_pos free] at bytes
    unfold wordLocked
    rwa [if_pos free]

/-! ## The rule -/

/-- Settles O54: a ferry's store by `storeLocal`, an agent's by `writeLocal`, each by what a memory reads after a write. -/
theorem storesKeepToTheirBytes : Obligations.storesKeepToTheirBytes := by
  refine ⟨?st, ?agentWrite, ?agentAtomic, ?acquire, ?release⟩
  case st =>
    intro s s' f t rs ra sz mo off v shaped issues a bs allowed
    obtain ⟨_, _, _, st⟩ := memoryInstructionsComplete
    have gives := st s s' f t rs ra sz mo off v issues allowed
    rw [issues.took] at gives
    have line := touchLine_frame s f t a true
    have width : bs.length = 2 ^ sz := length_leBytes ..
    refine ⟨_, gives, ?_⟩
    cases place : isScratch a with
    | true =>
      rw [storeLocal_of_scratch _ f _ place]
      refine ⟨line.hostMem rfl, line.tallies rfl, fun _ => ⟨line.mem rfl, ?_, ?_⟩, nofun⟩
      · show SameOutside _ (memWrite _ _ bs) _ _
        rw [line.scratch rfl, ← width]
        exact sameOutside_memWrite _ _ bs
      · exact bytesAt_memWrite (line.inv shaped).scratch _ bs
    | false =>
      rw [storeLocal_of_wharf _ f _ place]
      refine ⟨line.hostMem rfl, line.tallies rfl, nofun, fun _ => ⟨line.scratch rfl, ?_, ?_⟩⟩
      · show SameOutside _ (memWrite _ _ bs) _ _
        rw [line.mem rfl, ← width]
        exact sameOutside_memWrite _ _ bs
      · exact bytesAt_memWrite (line.inv shaped).mem _ bs
  case agentWrite =>
    intro s a bs shaped up first last
    have wrote := writeLocal_wrote 0 bs shaped first
    refine ⟨s.writeLocal 0 a bs, ?_, wrote.hostMem, wrote.tallies, wrote.scratch, wrote.outside, wrote.bytes⟩
    have meaning : exec (.agentWrite a bs) s = s.whenUp fun s =>
      if s.inWharf a && s.inWharf (a + bs.length - 1) then s.writeLocal 0 a bs else s := rfl
    rw [meaning, whenUp_eq up, first, last]
    rfl
  case agentAtomic =>
    intro s a aop x y big shaped up n first last aligned clean
    have wrote := writeLocal_wrote 0 (leBytes n (atomicNew aop (8 * n) false (memNat s.mem a n) x y)) shaped first
    have outside := wrote.outside
    rw [length_leBytes] at outside
    refine ⟨(s.writeLocal 0 a (leBytes n (atomicNew aop (8 * n) false (memNat s.mem a n) x y))).emit (.value (memNat s.mem a n)),
      ?_, wrote.hostMem, wrote.tallies, wrote.scratch, outside, wrote.bytes⟩
    have meaning : exec (.agentAtomic a aop x y big) s = s.whenUp fun s =>
      if !(s.inWharf a && s.inWharf (a + n - 1)) || decide (a % n ≠ 0) then s
      else if s.poisoned a n then (s.agentMoves a 1).emit (.hostReply 0 none true)
      else (s.writeLocal 0 a (leBytes n (atomicNew aop (8 * n) false (memNat s.mem a n) x y))).emit (.value (memNat s.mem a n)) := rfl
    rw [meaning, whenUp_eq up, first, last, aligned, clean]
    rfl
  case acquire => exact fun s a shaped up maint wharf aligned => wordLock_wrote rfl shaped up maint wharf aligned
  case release => exact fun s a shaped up maint wharf aligned => wordLock_wrote rfl shaped up maint wharf aligned

end Sys2Proof.Proofs.Stores
end

section
/-! UNIT operations (R373 to R381): register operations, and descriptor operations that are accepted. -/

namespace Sys2Proof.Proofs.Units

open Sys2Proof.Machine Sys2Proof.Laws Sys2Proof.Claims Sys2Proof.Proofs.Engine

/-- A UNIT instruction that issues gives its operation's effect. -/
theorem gives_of_issuesUnit {c : Instr} {s s' : State} {f t rd rs ra unit fn : Nat} {w : Bool} {v : Invoc}
    {exe : State → Invoc → State} (hc : exec c s = s.whenUp fun s => s.issueUnit f t rd rs ra unit fn w exe)
    (h : IssuesUnit s s' f t rd rs ra unit fn w v) : Gives c s (exe s' v) := gives_of_issues hc h

/-! ## Register operations (R375, R381, R403, R404) -/

theorem runTallyAdd_eq {s : State} {f t rd n x : Nat} {v : Invoc} (known : n < 262144) (mine : s.invTally v n = true) :
    s.runTallyAdd f t rd v n x = (s.addTally n x).unitRet f t rd ruOk :=
  if_neg (by simp [mine, known])

theorem runTallyRead_eq {s : State} {f t rd n : Nat} {v : Invoc} (known : n < 262144) (mine : s.invTally v n = true) :
    s.runTallyRead f t rd v n = s.unitRet f t rd (ruWord ruOk 0 (s.tally n)) :=
  if_neg (by simp [mine, known])

theorem runTallyWait_eq {s : State} {f t rd n x : Nat} {v : Invoc} (known : n < 262144) (mine : s.invTally v n = true) :
    s.runTallyWait f t rd v true n x = if reached (s.tally n) x then s.unitRet f t rd ruOk
      else (s.count f 4).retireInstr f t fun v => { v with sleep := some (.tally rd n x) } :=
  (if_neg (by decide)).trans (if_neg (by simp [mine, known]))

/-- ACQUIRE of a lock that the invocation may use answers what `acquireLock` does. -/
theorem runLockAcquire_eq {s u : State} {f t rd n : Nat} {v : Invoc} {r : LockRes} (known : n < 4096) (mine : s.invLock f v n = true)
    (acquired : s.acquireLock n (identThread f t) = (u, r)) :
    s.runLockAcquire f t rd v true n = match r with
      | .held => u.unitRet f t rd (ruOk + orphanBit (s.lock n).orphaned)
      | .queued => (u.count f 4).retireInstr f t fun v => { v with sleep := some (.lock rd n) }
      | .busy => u.unitRet f t rd ruBusy := by
  simp only [State.runLockAcquire, mine, acquired, Nat.not_le.mpr known, Bool.not_true, Bool.false_eq_true, if_false]
  cases r <;> rfl

theorem runLockTry_eq {s : State} {f t rd n : Nat} {v : Invoc} (known : n < 4096) (mine : s.invLock f v n = true)
    (free : (s.lock n).owner = none) : s.runLockTry f t rd v n = (s.grantLock n (identThread f t)).unitRet f t rd ruOk := by
  simp only [State.runLockTry, mine, free, Nat.not_le.mpr known, Option.isSome_none, Bool.not_true, Bool.false_eq_true, if_false]

theorem runLockRelease_eq {s : State} {f t rd n : Nat} {v : Invoc} (known : n < 4096) (mine : s.invLock f v n = true)
    (owner : (s.lock n).owner = some (identThread f t)) : s.runLockRelease f t rd v n = (s.unitRet f t rd ruOk).releaseLock n false := by
  simp only [State.runLockRelease, mine, owner, Nat.not_le.mpr known, ne_eq, not_true_eq_false, decide_false, Bool.not_true,
    Bool.or_self, Bool.false_eq_true, if_false]

theorem runEventPost_eq {s : State} {f t rd target x j : Nat} {v : Invoc} {h : HEntry} (slot : v.slot = some j) :
    let g := target % 64
    let entry := bitsOf target 8 8
    s.ferryOn g = true → s.servesJob g j = true → (s.ferry g).entries.look entry = some h → h.callable = true → 0x80 ≤ entry →
    s.dispatchRoom g = true →
    s.runEventPost f t rd v target x = (s.pushEvent g {
      kind := .post, entry := entry, slot := j, asid := s.rd .FX_JOBSEG_ASID g,
      args := [(1, x), (2, selfWord f t v.entry)], payload := [] }).unitRet f t rd ruOk := by
  intro g entry on serves handler callable jobEntry room
  simp only [State.runEventPost, slot]
  rw [on, serves, handler, room, decide_eq_false (Nat.not_lt.mpr jobEntry)]
  simp only [callable]
  rfl

theorem runRing_eq {s : State} {f t rd q x : Nat} {v : Invoc} (quiet : s.writesOut f t = false)
    (origin : v.fromNet = false ∨ s.flag .QU_CFG_LOC q = true) (known : q < 65536) (mine : s.invQueue v q = true) :
    s.runRing f t rd v q x = (s.takeDoorbell q (x % 2 ^ 32)).unitRet f t rd ruOk := by
  have mayOriginate : (v.fromNet && !s.flag .QU_CFG_LOC q) = false := by
    rcases origin with h | h <;> simp [h]
  simp only [State.runRing, quiet, mayOriginate, mine, Nat.not_le.mpr known, Bool.not_true, Bool.false_eq_true, if_false]

/-- Settles O8: each register operation by its own equation. -/
theorem registerUnitOperationsComplete : Obligations.registerUnitOperationsComplete := by
  refine ⟨?add, ?read, ?wait, ?acquired, ?queued, ?try_, ?release, ?event, ?noEvent, ?post, ?arm, ?cancel, ?ring⟩
  case add =>
    intro s s' f t rd rs ra w v issues known mine
    rw [← runTallyAdd_eq known mine]
    exact gives_of_issuesUnit (exe := fun s v => s.runTallyAdd f t rd v (v.reg rs) (v.reg ra)) rfl issues
  case read =>
    intro s s' f t rd rs ra w v issues known mine
    rw [← runTallyRead_eq known mine]
    exact gives_of_issuesUnit (exe := fun s v => s.runTallyRead f t rd v (v.reg rs)) rfl issues
  case wait =>
    intro s s' f t rd rs ra v issues known mine
    rw [← runTallyWait_eq known mine]
    exact gives_of_issuesUnit (exe := fun s v => s.runTallyWait f t rd v true (v.reg rs) (v.reg ra)) rfl issues
  case acquired =>
    intro s s' f t rd rs ra v u issues known mine acquired
    have effect := gives_of_issuesUnit (c := .lockAcquire f t rd rs ra true) (exe := fun s v => s.runLockAcquire f t rd v true (v.reg rs))
      rfl issues
    rwa [runLockAcquire_eq known mine acquired] at effect
  case queued =>
    intro s s' f t rd rs ra v u issues known mine acquired
    have effect := gives_of_issuesUnit (c := .lockAcquire f t rd rs ra true) (exe := fun s v => s.runLockAcquire f t rd v true (v.reg rs))
      rfl issues
    rwa [runLockAcquire_eq known mine acquired] at effect
  case try_ =>
    intro s s' f t rd rs ra w v issues known mine free
    rw [← runLockTry_eq known mine free]
    exact gives_of_issuesUnit (exe := fun s v => s.runLockTry f t rd v (v.reg rs)) rfl issues
  case release =>
    intro s s' f t rd rs ra w v issues known mine owner
    rw [← runLockRelease_eq known mine owner]
    exact gives_of_issuesUnit (exe := fun s v => s.runLockRelease f t rd v (v.reg rs)) rfl issues
  case event =>
    intro s s' f t rd rs ra v e r issues waiting
    have effect := gives_of_issuesUnit (c := .eventWait f t rd rs ra true) (exe := fun s v => s.runEventWait f t rd true (v.reg ra)) rfl
      issues
    simpa only [State.runEventWait, waiting, Bool.not_true, Bool.false_eq_true, if_false] using effect
  case noEvent =>
    intro s s' f t rd rs ra v issues none_ u
    have effect := gives_of_issuesUnit (c := .eventWait f t rd rs ra true) (exe := fun s v => s.runEventWait f t rd true (v.reg ra)) rfl
      issues
    simpa only [State.runEventWait, none_, Bool.not_true, Bool.false_eq_true, if_false] using effect
  case post =>
    intro s s' f t rd rs ra w v j h issues slot g entry on serves handler callable jobEntry room
    rw [← runEventPost_eq slot on serves handler callable jobEntry room]
    exact gives_of_issuesUnit (exe := fun s v => s.runEventPost f t rd v (v.reg rs) (v.reg ra)) rfl issues
  case arm =>
    intro s s' f t rd rs ra w v k issues free
    have effect := gives_of_issuesUnit (c := .timerArm f t rd rs ra w) (exe := fun s v => s.runTimerArm f t rd (v.reg rs) (v.reg ra)) rfl
      issues
    simpa only [State.runTimerArm, free] using effect
  case cancel =>
    intro s s' f t rd rs ra w v tag issues armed
    have effect := gives_of_issuesUnit (c := .timerCancel f t rd rs ra w) (exe := fun s v => s.runTimerCancel f t rd (v.reg rs)) rfl issues
    simpa only [State.runTimerCancel, armed] using effect
  case ring =>
    intro s s' f t rd rs ra w v issues quiet origin known mine
    rw [← runRing_eq quiet origin known mine]
    exact gives_of_issuesUnit (exe := fun s v => s.runRing f t rd v (v.reg rs) (v.reg ra)) rfl issues

/-! ## Descriptor operations (R375, R376) -/

/-- An accepted operation runs, where nothing faults it and it need not wait. -/
theorem descOp_eq {s : State} {f t rd rs unit fn : Nat} {w : Bool} {writes ok : List Byte → Bool} {v : Invoc} {d : List Byte}
    {u : State} {op : Nat} {stops : List Byte → Option Nat} {waits : State → List Byte → Bool} {run : State → Nat → List Byte → State}
    (h : Accepts s f t rd rs unit fn w writes ok v d u op) (goes : stops d = none) (taken : waits s d = false) :
    s.descOp f t rd rs unit fn w writes ok stops waits v run = run u op d := by
  obtain ⟨allowed, aligned, clean, room, rfl, form, accepted, tally⟩ := h
  simp only [State.descOp, allowed, aligned, clean, Nat.not_le.mpr room, form, goes, taken, accepted, tally, ne_eq, not_true_eq_false,
    Bool.not_true, Bool.false_eq_true, if_false]

/-- A UNIT instruction whose descriptor operation is accepted gives what the operation does. -/
theorem gives_of_accepts {c : Instr} {s s' : State} {f t rd rs ra unit fn : Nat} {w : Bool} {writes ok : List Byte → Bool} {v : Invoc}
    {d : List Byte} {u : State} {op : Nat} {stops : Invoc → List Byte → Option Nat} {waits : Invoc → State → List Byte → Bool}
    {run : Invoc → State → Nat → List Byte → State}
    (hc : exec c s = s.whenUp fun s => s.issueUnit f t rd rs ra unit fn w fun s v =>
      s.descOp f t rd rs unit fn w writes ok (stops v) (waits v) v (run v))
    (issues : IssuesUnit s s' f t rd rs ra unit fn w v) (accepts : Accepts s' f t rd rs unit fn w writes ok v d u op)
    (goes : stops v d = none) (taken : waits v s' d = false) : Gives c s (run v u op d) := by
  rw [← descOp_eq (stops := stops v) (waits := waits v) (run := run v) accepts goes taken]
  exact gives_of_issuesUnit hc issues

theorem noOriginate_eq {v : Invoc} (d : List Byte) (h : v.fromNet = false) : v.noOriginate d = none := if_neg (by simp [h])

/-! ### SEND (R377, R378) -/

theorem runRequest_eq {u x : State} {f t op j c : Nat} {v : Invoc} {d : List Byte} (slot : v.slot = some j)
    (sound : Sound u f v (sdSrc d) (sdLen d)) (rbuf : u.rangeOk f v (sdRbuf d) (sdRlen d) = true)
    (ctx : u.openFor j (u.ferryEp f) (sdDest d) false = (x, some c)) :
    u.runRequest f t v op d = launched (x.agentMoves (sdSrc d) (sdLen d)) {
      queue := 0, index := 0, iter := 0, slot := j, ctx := c, blk := .hmsg false (sdHandler d) (sdFerry d) (sdLen d) (sdRlen d),
      total := sdRlen d, data := x.readLocal f (sdSrc d) (sdLen d), land := if sdRlen d = 0 then 0 else 1, owner := .unit f t op,
      laddr := sdRbuf d } := by
  obtain ⟨range, clean⟩ := sound
  simp only [State.runRequest, slot, range, rbuf, clean, ctx, Bool.not_true, Bool.or_self, Bool.false_eq_true, if_false]
  rfl

theorem runReply_eq {u : State} {f t op c m : Nat} {v : Invoc} {d : List Byte} {b : TOp} (kind : v.kind = .hmsg c m)
    (sound : Sound u f v (sdSrc d) (sdLen d)) (held : u.tops.look (c, m) = some b)
    (fits : ∀ a e g h r, b.blk = .hmsg a e g h r → sdLen d ≤ r) (hmsg : ∃ a e g h r, b.blk = .hmsg a e g h r) :
    let z := (u.agentMoves (sdSrc d) (sdLen d)).updInv f t fun v => { v with replied := true }
    let y := if sdLen d = 0 then z else z.queueResp c m 0 (z.readLocal f (sdSrc d) (sdLen d)) true false
    u.runReply f t v op d = (y.sendStatus c m (sdStatus d) (sdLen d)).unitDone f t op ruOk 0 0 := by
  obtain ⟨range, clean⟩ := sound
  obtain ⟨a, e, g, h, r, blk⟩ := hmsg
  have short : ¬ r < sdLen d := Nat.not_lt.mpr (fits a e g h r blk)
  simp only [State.runReply, kind, held, blk, range, clean, short, Bool.not_true, decide_false, Bool.or_self, Bool.false_eq_true, if_false]

theorem runMcast_eq {u : State} {f t op j : Nat} {v : Invoc} {d : List Byte} (slot : v.slot = some j)
    (sound : Sound u f v (sdSrc d) (sdLen d)) :
    u.runMcast f t v op d = ((u.agentMoves (sdSrc d) (sdLen d)).mcastSend j (u.ferryEp f) (sdDest d)
      (.hmsg true (sdHandler d) (sdFerry d) (sdLen d) (sdRlen d)) (u.readLocal f (sdSrc d) (sdLen d))).unitDone f t op ruOk 0 0 := by
  obtain ⟨range, clean⟩ := sound
  simp only [State.runMcast, slot, range, clean, Bool.not_true, Bool.false_eq_true, if_false]

/-- Settles O9: each accepted SEND operation by its own equation. -/
theorem sendOperationsComplete : Obligations.sendOperationsComplete := by
  refine ⟨?request, ?reply, ?mcast⟩
  case request =>
    intro s s' f t rd rs ra w v d u op j x c issues accepts origin slot taken sound rbuf ctx
    rw [← runRequest_eq slot sound rbuf ctx]
    exact gives_of_accepts (stops := fun v => v.noOriginate) (waits := fun v s d => s.requestWaits f v d)
      (run := fun v s op d => s.runRequest f t v op d) rfl issues accepts (noOriginate_eq d origin) taken
  case reply =>
    intro s s' f t rd rs ra w v d u op c m b issues accepts kind unreplied sound held fits hmsg z y
    rw [← runReply_eq kind sound held fits hmsg]
    refine gives_of_accepts (stops := replyStop) (waits := fun _ => noWait) (run := fun v s op d => s.runReply f t v op d) rfl issues
      accepts ?_ rfl
    simp only [replyStop, kind, unreplied, Bool.false_eq_true, if_false]
  case mcast =>
    intro s s' f t rd rs ra w v d u op j issues accepts origin slot sound
    rw [← runMcast_eq slot sound]
    exact gives_of_accepts (stops := fun v => v.noOriginate) (waits := fun _ => noWait) (run := fun v s op d => s.runMcast f t v op d) rfl
      issues accepts (noOriginate_eq d origin) rfl

/-! ### MATCH (R234, R235) -/

/-- Settles O10: POST by its posted receive, PROBE and CLAIM by what they find, DELIVER by the pair it makes. -/
theorem matchOperationsComplete : Obligations.matchOperationsComplete := by
  refine ⟨?post, ?probe, ?claim, ?deliver⟩
  case post =>
    intro s s' f t rd rs ra w v d u op j k x r issues accepts origin slot taken ep catcher recv
    have effect := gives_of_accepts (c := .matchPost f t rd rs ra w) (stops := fun v => v.noOriginate)
      (waits := fun v s d => s.postWaits v d) (run := fun v s op d => s.runPost f t v op d) rfl issues accepts (noOriginate_eq d origin) taken
    simpa only [State.runPost, slot, ep, catcher, recv, Bool.not_true, Bool.false_eq_true, if_false] using effect
  case probe =>
    intro s s' f t rd rs ra w v d u op j issues accepts slot ep range
    have effect := gives_of_accepts (c := .matchProbe f t rd rs ra w) (stops := fun _ => noStop) (waits := fun _ => noWait)
      (run := fun v s op d => s.runProbe f t v op d false) rfl issues accepts rfl rfl
    simp only [State.runProbe, slot, ep, range, Bool.not_true, Bool.false_eq_true, if_false] at effect
    cases found : u.findMsg ⟨j, mdEp d, mdComm d⟩ (mdAnySrc d) (mdAnyTag d) (mdRank d) (mdTag d) <;> rwa [found] at effect
  case claim =>
    intro s s' f t rd rs ra w v d u op j id issues accepts slot ep range found
    have effect := gives_of_accepts (c := .matchClaim f t rd rs ra w) (stops := fun _ => noStop) (waits := fun _ => noWait)
      (run := fun v s op d => s.runProbe f t v op d true) rfl issues accepts rfl rfl
    simpa only [State.runProbe, slot, ep, range, found, Bool.not_true, Bool.false_eq_true, if_false, if_true] using effect
  case deliver =>
    intro s s' f t rd rs ra w v d u op j m x r issues accepts origin slot found recv
    have effect := gives_of_accepts (c := .matchDeliver f t rd rs ra w) (stops := fun v => v.noOriginate) (waits := fun _ => noWait)
      (run := fun v s op d => s.runDeliver f t v op d) rfl issues accepts (noOriginate_eq d origin) rfl
    simp only [State.runDeliver, slot] at effect
    rw [found] at effect
    simpa only [recv] using effect

/-! ### MOVE and ENQUEUE (R375, R379) -/

/-- Settles O11: COPY and FILL by the sides of their move, ENQUEUE by its slots and its doorbell. -/
theorem moveOperationsComplete : Obligations.moveOperationsComplete := by
  refine ⟨?fill, ?copy, ?enqueue⟩
  case fill =>
    intro s s' f t rd rs ra w v d u op x dsts issues accepts dst
    have effect := gives_of_accepts (c := .moveFill f t rd rs ra w) (stops := fun _ => noStop) (waits := fun _ => noWait)
      (run := fun v s op d => s.runMove f t v op d true) rfl issues accepts rfl rfl
    simpa only [State.runMove, dst, if_true] using effect
  case copy =>
    intro s s' f t rd rs ra w v d u op x dsts y src issues accepts asid dst side clean
    have effect := gives_of_accepts (c := .moveCopy f t rd rs ra w) (stops := fun _ => noStop) (waits := fun _ => noWait)
      (run := fun v s op d => s.runMove f t v op d false) rfl issues accepts rfl rfl
    simp only [State.runMove, Bool.false_eq_true, if_false] at effect
    rw [dst] at effect
    dsimp only at effect
    rw [side] at effect
    cases local_ : src.isEmpty with
    | true =>
      simp only [local_, clean local_, Bool.false_eq_true, if_false, if_true] at effect ⊢
      exact effect
    | false =>
      simp only [local_, Bool.false_eq_true, if_false] at effect ⊢
      exact effect
  case enqueue =>
    intro s s' f t rd rs ra w v d u op issues accepts q n pi quiet mine loc range room
    have effect := gives_of_accepts (c := .enqueue f t rd rs ra w) (stops := fun _ => noStop) (waits := fun _ s _ => s.writesOut f t)
      (run := fun v s op d => s.runEnqueue f t v op d) rfl issues accepts rfl quiet
    have fits : ¬ u.ringSize q < dist32 (u.rd .QU_HEAD_HEAD q) (idxAdd pi n) := Nat.not_lt.mpr room
    simp only [State.runEnqueue] at effect
    rwa [mine, loc, range, if_neg (by decide), if_neg (by decide), if_neg (by decide), if_neg fits] at effect

end Sys2Proof.Proofs.Units
end

section
/-! Event counters and tallies: a counter takes the weight of what it selects, and both wrap (R105, R477, R479). -/

namespace Sys2Proof.Proofs.Counters

open Sys2Proof.Machine Sys2Proof.Laws Sys2Proof.Claims

/-! ## One counter -/

/-- Counting sets the counter itself before it sets OVF. -/
theorem addCount_eq (s : State) (i w : Nat) : s.addCount i w =
    if 2 ^ 48 ≤ s.rd .EC_CNT_COUNT i + w then (s.wr .EC_CNT_COUNT i (s.rd .EC_CNT_COUNT i + w)).wr .EC_SEL_OVF i 1
    else s.wr .EC_CNT_COUNT i (s.rd .EC_CNT_COUNT i + w) := rfl

/-- Counting touches the COUNT and the OVF of its own counter alone. -/
theorem rd_addCount_of_ne (s : State) {i w j : Nat} {f : Fld} (count : (f, j) ≠ (.EC_CNT_COUNT, i)) (ovf : (f, j) ≠ (.EC_SEL_OVF, i)) :
    (s.addCount i w).rd f j = s.rd f j := by
  rw [addCount_eq]
  split
  · rw [rd_wr_ne _ _ ovf, rd_wr_ne _ _ count]
  · rw [rd_wr_ne _ _ count]

theorem rd_addCount_count (s : State) (i w : Nat) :
    (s.addCount i w).rd .EC_CNT_COUNT i = (s.rd .EC_CNT_COUNT i + w) % 2 ^ 48 := by
  rw [addCount_eq]
  split
  · rw [rd_wr_ne _ _ (by simp), rd_wr_self]
    rfl
  · rw [rd_wr_self]
    rfl

theorem rd_addCount_ovf_of_wrap {s : State} {i w : Nat} (wraps : 2 ^ 48 ≤ s.rd .EC_CNT_COUNT i + w) :
    (s.addCount i w).rd .EC_SEL_OVF i = 1 := by
  rw [addCount_eq, if_pos wraps, rd_wr_self]
  rfl

theorem rd_addCount_ovf_of_fit {s : State} {i w : Nat} (fits : s.rd .EC_CNT_COUNT i + w < 2 ^ 48) :
    (s.addCount i w).rd .EC_SEL_OVF i = s.rd .EC_SEL_OVF i := by
  rw [addCount_eq, if_neg (Nat.not_le.mpr fits), rd_wr_ne _ _ (by simp)]

theorem selects_addCount (s : State) (i w j mode ev sub : Nat) : (s.addCount i w).selects j mode ev sub = s.selects j mode ev sub := by
  unfold State.selects
  rw [rd_addCount_of_ne s (f := .EC_SEL_MODE) (by simp) (by simp), rd_addCount_of_ne s (f := .EC_SEL_EVENT) (by simp) (by simp),
    rd_addCount_of_ne s (f := .EC_SEL_SUB) (by simp) (by simp)]

/-! ## The counters of a unit -/

/-- A counter that is not among those of a list, or that selects nothing, keeps its count. -/
theorem rd_countOver_of_keeps {u ev sub w k : Nat} (ks : List Nat) :
    ∀ s : State, (k ∉ ks ∨ s.selects (4 * u + k) 1 ev sub = false) →
      (s.countOver u ev sub w ks).rd .EC_CNT_COUNT (4 * u + k) = s.rd .EC_CNT_COUNT (4 * u + k) := by
  induction ks with
  | nil => exact fun _ _ => rfl
  | cons j ks ih =>
    intro s keeps
    show (State.countOver (if s.selects (4 * u + j) 1 ev sub then s.addCount (4 * u + j) w else s) u ev sub w ks).rd _ _ = _
    split
    case isTrue counts =>
      have other : k ≠ j := by
        rintro rfl
        rcases keeps with out | off
        · exact out List.mem_cons_self
        · rw [counts] at off
          cases off
      rw [ih _ (keeps.imp (fun out => fun h => out (List.mem_cons_of_mem _ h)) (by rw [selects_addCount]; exact id)),
        rd_addCount_of_ne s (by simpa using other) (by simp)]
    case isFalse => exact ih s (keeps.imp_left fun out => fun h => out (List.mem_cons_of_mem _ h))

/-- A counter of a list without repetitions that selects the event takes its weight once. -/
theorem rd_countOver_of_counts {u ev sub w k : Nat} (ks : List Nat) (once : ks.Nodup) (among : k ∈ ks) :
    ∀ s : State, s.selects (4 * u + k) 1 ev sub = true →
      (s.countOver u ev sub w ks).rd .EC_CNT_COUNT (4 * u + k) = (s.rd .EC_CNT_COUNT (4 * u + k) + w) % 2 ^ 48 := by
  induction ks with
  | nil => cases among
  | cons j ks ih =>
    intro s counts
    show (State.countOver (if s.selects (4 * u + j) 1 ev sub then s.addCount (4 * u + j) w else s) u ev sub w ks).rd _ _ = _
    obtain ⟨notLater, onceLater⟩ := List.nodup_cons.mp once
    by_cases here : k = j
    · subst here
      rw [if_pos counts, rd_countOver_of_keeps ks _ (.inl notLater), rd_addCount_count]
    · have later := ih onceLater ((List.mem_cons.mp among).resolve_left here)
      split
      · rw [later _ (by rw [selects_addCount, counts]), rd_addCount_of_ne s (by simpa using here) (by simp)]
      · exact later s counts

/-! ## The rule -/

/-- Settles O59: one counter by its two writes, the counters of a unit one by one, a tally by its table. -/
theorem countersAndTalliesWrap : Obligations.countersAndTalliesWrap := by
  refine ⟨?one, ?selected, ?unselected, ?tally⟩
  case one =>
    intro s i w
    refine ⟨rd_addCount_count s i w, fun wraps => ?_, fun set => ?_, rd_addCount_ovf_of_fit, fun k other => ?_⟩
    · exact decide_eq_true (rd_addCount_ovf_of_wrap wraps)
    · rcases Nat.lt_or_ge (s.rd .EC_CNT_COUNT i + w) (2 ^ 48) with fits | wraps
      · exact decide_eq_true ((rd_addCount_ovf_of_fit fits).trans (of_decide_eq_true set))
      · exact decide_eq_true (rd_addCount_ovf_of_wrap wraps)
    · exact ⟨rd_addCount_of_ne s (by simpa using other) (by simp), rd_addCount_of_ne s (by simp) (by simpa using other)⟩
  case selected =>
    intro s u ev sub w k few on counts
    unfold State.count
    rw [if_pos on]
    exact rd_countOver_of_counts [0, 1, 2, 3] (by decide) (by simp; omega) s counts
  case unselected =>
    intro s u ev sub w k few off
    unfold State.count
    split
    · exact rd_countOver_of_keeps [0, 1, 2, 3] s (.inr off)
    · rfl
  case tally => exact fun s n v => ⟨tally_setTally_self s n _, fun k other => tally_setTally_ne s _ other⟩

end Sys2Proof.Proofs.Counters
end

section
/-! The hardware locks (R401 to R409): what granting, releasing and acquiring a lock do to it, and that no lock is free while it has a
waiter. -/

namespace Sys2Proof.Proofs.Locks

open Sys2Proof.Machine Sys2Proof.Laws Sys2Proof.Claims Sys2Proof.Proofs.Engine

/-! ## One lock -/

/-- The locks of a state are read from its table of locks alone. -/
theorem lock_congr {s t : State} (h : t.locks = s.locks) (n : Nat) : t.lock n = s.lock n := by
  unfold State.lock
  rw [h]

@[simp] theorem locks_count (s : State) (u ev sub w : Nat) : (s.count u ev sub w).locks = s.locks := by
  obtain ⟨g, h⟩ := onlyRegs_count s u ev sub w
  rw [h]

@[simp] theorem raised_count (s : State) (u ev sub w : Nat) : (s.count u ev sub w).raised = s.raised := by
  obtain ⟨g, h⟩ := onlyRegs_count s u ev sub w
  rw [h]

@[simp] theorem lock_count (s : State) (u ev sub w n : Nat) : (s.count u ev sub w).lock n = s.lock n := lock_congr (locks_count ..) n

/-- What a lock holds once a requester became its owner. -/
def Lock.granted (l : Lock) (ident : Nat) : Lock := { l with owner := some ident, waiters := l.waiters.erase ident }

/-- Granting a lock changes the table of locks as one update does: waking the owner touches no lock. -/
theorem locks_grantLock (s : State) (n ident : Nat) : (s.grantLock n ident).locks = (s.updLock n fun l => Lock.granted l ident).locks := by
  unfold State.grantLock
  dsimp only
  split
  · exact locks_count ..
  · exact locks_count ..

theorem lock_grantLock_self (s : State) (n ident : Nat) : (s.grantLock n ident).lock n = Lock.granted (s.lock n) ident := by
  rw [lock_congr (locks_grantLock s n ident), lock_updLock_self]

theorem lock_grantLock_ne (s : State) {n k : Nat} (ident : Nat) (other : k ≠ n) : (s.grantLock n ident).lock k = s.lock k := by
  rw [lock_congr (locks_grantLock s n ident), lock_updLock_ne _ _ other]

theorem raised_grantLock (s : State) (n ident : Nat) : (s.grantLock n ident).raised = s.raised := by
  unfold State.grantLock
  dsimp only
  split
  · exact raised_count ..
  · exact raised_count ..

/-- A lock that its owner gives up, before it goes to a waiter. -/
def State.givenUp (s : State) (n : Nat) (orphan : Bool) : State :=
  let t := s.updLock n fun l => { l with owner := none, orphaned := l.orphaned || orphan }
  if orphan then t.count (lockUnit n) 3 else t

theorem lock_givenUp_self (s : State) (n : Nat) (orphan : Bool) :
    (State.givenUp s n orphan).lock n = { s.lock n with owner := none, orphaned := (s.lock n).orphaned || orphan } := by
  unfold State.givenUp
  dsimp only
  split
  · rw [lock_count, lock_updLock_self]
  · rw [lock_updLock_self]

theorem lock_givenUp_ne (s : State) {n k : Nat} (orphan : Bool) (other : k ≠ n) : (State.givenUp s n orphan).lock k = s.lock k := by
  unfold State.givenUp
  dsimp only
  split
  · rw [lock_count, lock_updLock_ne _ _ other]
  · rw [lock_updLock_ne _ _ other]

theorem raised_givenUp (s : State) (n : Nat) (orphan : Bool) : (State.givenUp s n orphan).raised = s.raised := by
  unfold State.givenUp
  dsimp only
  split
  · exact raised_count ..
  · rfl

/-- Giving up a lock changes no register field but those of the counters. -/
theorem flag_givenUp (s : State) (n : Nat) (orphan : Bool) {f : Fld} {i : Nat}
    (other : (bit .ec ||| bit .locks) &&& bit f.part = 0) :
    (State.givenUp s n orphan).flag f i = s.flag f i := by
  have keeps : Frame (bit .ec ||| bit .locks) s (State.givenUp s n orphan) := by
    have gone : Frame (bit .ec ||| bit .locks) s (s.updLock n fun l => { l with owner := none, orphaned := l.orphaned || orphan }) :=
      updLock_fr (Frame.refl _ s) rfl
    unfold State.givenUp
    dsimp only
    split
    · exact count_fr gone rfl
    · exact gone
  unfold State.flag
  rw [keeps.regs f i other]

/-- Releasing a lock gives it up and grants it to the next waiter, if there is one. -/
theorem releaseLock_eq (s : State) (n : Nat) (orphan : Bool) : s.releaseLock n orphan =
    match (State.givenUp s n orphan).nextWaiter n with
    | none => State.givenUp s n orphan
    | some w => ((State.givenUp s n orphan).count (lockUnit n) 2).grantLock n w := rfl

/-- No waiter comes next where none waits. -/
theorem nextWaiter_eq_none {s : State} {n : Nat} (h : s.nextWaiter n = none) : (s.lock n).waiters = [] := by
  unfold State.nextWaiter at h
  split at h
  case h_1 none_ => exact none_
  case h_2 => split at h <;> cases h

/-- The one that comes first by a fold of choices is one of those chosen from. -/
theorem foldl_choice_mem {p : Nat → Nat → Prop} [DecidableRel p] (r : List Nat) :
    ∀ w, r.foldl (fun a b => if p a b then b else a) w ∈ w :: r := by
  induction r with
  | nil => exact fun w => List.mem_cons_self
  | cons b r ih =>
    intro w
    rw [List.foldl_cons]
    by_cases later : p w b
    · rw [if_pos later]
      exact List.mem_cons_of_mem _ (ih b)
    · rw [if_neg later]
      rcases List.mem_cons.mp (ih w) with first | rest
      · rw [first]
        exact List.mem_cons_self
      · exact List.mem_cons_of_mem _ (List.mem_cons_of_mem _ rest)

/-- The next waiter is one of the waiters. -/
theorem nextWaiter_mem {s : State} {n w : Nat} (h : s.nextWaiter n = some w) : w ∈ (s.lock n).waiters := by
  unfold State.nextWaiter at h
  split at h
  case h_1 => cases h
  case h_2 v r waiting =>
    rw [waiting]
    split at h
    · cases h
      exact foldl_choice_mem r v
    · cases h
      exact List.mem_cons_self

/-- What a release does to its lock: a lock with no waiter is free, any other goes to one of its waiters. -/
theorem lock_releaseLock_self (s : State) (n : Nat) (orphan : Bool) :
    ((s.lock n).waiters = [] ∧ ((s.releaseLock n orphan).lock n).waiters = []) ∨
    ∃ w ∈ (s.lock n).waiters, (State.givenUp s n orphan).nextWaiter n = some w ∧ (s.releaseLock n orphan).lock n =
      { owner := some w, waiters := (s.lock n).waiters.erase w, orphaned := (s.lock n).orphaned || orphan } := by
  rw [releaseLock_eq]
  cases next : (State.givenUp s n orphan).nextWaiter n with
  | none =>
    have idle := nextWaiter_eq_none next
    refine .inl ⟨?_, idle⟩
    rwa [lock_givenUp_self] at idle
  | some w =>
    have waits := nextWaiter_mem next
    rw [lock_givenUp_self] at waits
    refine .inr ⟨w, waits, rfl, ?_⟩
    simp only [lock_grantLock_self, lock_count, lock_givenUp_self]
    rfl

theorem lock_releaseLock_ne (s : State) {n k : Nat} (orphan : Bool) (other : k ≠ n) : (s.releaseLock n orphan).lock k = s.lock k := by
  rw [releaseLock_eq]
  split
  · exact lock_givenUp_ne s orphan other
  · rw [lock_grantLock_ne _ _ other, lock_count, lock_givenUp_ne s orphan other]

theorem raised_releaseLock (s : State) (n : Nat) (orphan : Bool) : (s.releaseLock n orphan).raised = s.raised := by
  rw [releaseLock_eq]
  split
  · exact raised_givenUp ..
  · rw [raised_grantLock, raised_count, raised_givenUp]

/-! ## No free lock with a waiter (R404) -/

/-- A change of one lock that leaves it held, or without waiters, keeps the rule. -/
theorem noIdleWaiter_of_one {s t : State} {n : Nat} (h : NoIdleWaiter s) (others : ∀ k, k ≠ n → t.lock k = s.lock k)
    (here : (t.lock n).owner = none → (t.lock n).waiters = []) : NoIdleWaiter t := by
  intro k free
  by_cases e : k = n
  · subst e
    exact here free
  · rw [others k e] at free ⊢
    exact h k free

theorem noIdleWaiter_congr {s t : State} (h : NoIdleWaiter s) (same : t.locks = s.locks) : NoIdleWaiter t := by
  intro n free
  rw [lock_congr same] at free ⊢
  exact h n free

theorem noIdleWaiter_grantLock {s : State} (n ident : Nat) (h : NoIdleWaiter s) : NoIdleWaiter (s.grantLock n ident) :=
  noIdleWaiter_of_one h (fun _ => lock_grantLock_ne s ident) (by rw [lock_grantLock_self]; exact nofun)

theorem noIdleWaiter_releaseLock {s : State} (n : Nat) (orphan : Bool) (h : NoIdleWaiter s) : NoIdleWaiter (s.releaseLock n orphan) := by
  refine noIdleWaiter_of_one h (fun _ => lock_releaseLock_ne s orphan) fun free => ?_
  rcases lock_releaseLock_self s n orphan with ⟨_, idle⟩ | ⟨w, _, _, held⟩
  · exact idle
  · rw [held] at free
    cases free

/-- A lock that is held may take a waiter. -/
theorem noIdleWaiter_acquireLock {s : State} (n ident : Nat) (h : NoIdleWaiter s) : NoIdleWaiter (s.acquireLock n ident).1 := by
  unfold State.acquireLock
  dsimp only
  split
  case h_1 => exact noIdleWaiter_grantLock n ident h
  case h_2 o held =>
    split
    · exact h
    · split
      · exact h
      · split
        · exact noIdleWaiter_congr h (locks_count ..)
        · refine noIdleWaiter_of_one h (fun _ => lock_updLock_ne s _) fun free => ?_
          rw [lock_updLock_self] at free
          exact absurd (free.symm.trans held) nofun

/-- The look-up of a table whose values a function has changed. -/
theorem look_map {κ α : Type} [DecidableEq κ] (g : α → α) (cells : List (κ × α)) (k : κ) :
    (Tab.mk (cells.map fun c => (c.1, g c.2))).look k = ((Tab.mk cells).look k).map g := by
  simp only [Tab.look]
  induction cells with
  | nil => rfl
  | cons c r ih =>
    simp only [List.map_cons, lookList]
    split
    · rfl
    · exact ih

theorem forEach_keeps {α : Type} {P : State → Prop} {g : State → α → State} (step : ∀ s a, P s → P (g s a)) (l : List α) :
    ∀ s, P s → P (forEach g l s) := by
  induction l with
  | nil => exact fun _ h => h
  | cons a r ih => exact fun s h => ih _ (step s a h)

/-- The waiters of a lock once a requester's waits are withdrawn. -/
theorem noIdleWaiter_withdrawn {s : State} (ident : Nat) (h : NoIdleWaiter s) :
    NoIdleWaiter { s with locks := ⟨s.locks.cells.map fun c => (c.1, { c.2 with waiters := c.2.waiters.erase ident })⟩ } := by
  intro n free
  have idle := h n
  unfold State.lock at free idle ⊢
  dsimp only at free ⊢
  rw [look_map (fun l : Lock => { l with waiters := l.waiters.erase ident })] at free ⊢
  cases held : s.locks.look n with
  | none => rfl
  | some l =>
    rw [held] at free idle
    have none_ : l.waiters = [] := idle free
    show l.waiters.erase ident = []
    rw [none_]
    rfl

theorem noIdleWaiter_dropLocks {s : State} (ident : Nat) (h : NoIdleWaiter s) : NoIdleWaiter (s.dropLocks ident) :=
  forEach_keeps (fun _ n held => noIdleWaiter_releaseLock n true held) _ _ (noIdleWaiter_withdrawn ident h)

/-! ## The host's lock commands (R403, R404, R406) -/

theorem raised_placeRec (s : State) (sev block : Nat) (code : LogCode) (unit rep : Nat) (data : List Nat) :
    (s.placeRec sev block code unit rep data).raised = s.raised := rfl

theorem raised_placeLost (s : State) : s.placeLost.raised = s.raised := by
  unfold State.placeLost
  split <;> rfl

/-- Writing an event-log record raises no fault source. -/
theorem raised_logRec (s : State) (sev block : Nat) (code : LogCode) (unit : Nat) (data : List Nat) :
    (s.logRec sev block code unit data).raised = s.raised := by
  unfold State.logRec
  dsimp only
  split
  · rfl
  · split
    · rfl
    · split
      · exact raised_placeLost s
      · exact raised_placeLost s

/-- A state in which no lock is free while it has a waiter, and no fault source is raised. -/
structure Quiet (s : State) : Prop where
  idle : NoIdleWaiter s
  quiet : s.raised = []

theorem Quiet.of_eq {s t : State} (h : Quiet s) (locks : t.locks = s.locks) (raised : t.raised = s.raised) : Quiet t :=
  ⟨noIdleWaiter_congr h.idle locks, raised.trans h.quiet⟩

theorem Quiet.logViolation {s : State} (addr : Nat) (h : Quiet s) : Quiet (s.logViolation addr) :=
  have log : Frame (bit .log) s (s.logViolation addr) := logViolation_fr (Frame.refl _ s) rfl
  h.of_eq (log.locks rfl) (raised_logRec ..)

theorem Quiet.acquireLock {s : State} (n ident : Nat) (h : Quiet s) : Quiet (s.acquireLock n ident).1 := by
  refine ⟨noIdleWaiter_acquireLock n ident h.idle, ?_⟩
  unfold State.acquireLock
  dsimp only
  split
  · exact (raised_grantLock ..).trans h.quiet
  · split
    · exact h.quiet
    · split
      · exact h.quiet
      · split
        · exact (raised_count ..).trans h.quiet
        · exact h.quiet

theorem Quiet.lockHostRelease {s : State} (n ident : Nat) (h : Quiet s) : Quiet (s.lockHostRelease n ident) := by
  unfold State.lockHostRelease
  split
  · exact ⟨noIdleWaiter_releaseLock n false h.idle, (raised_releaseLock ..).trans h.quiet⟩
  · exact h

theorem Quiet.lockClear {s : State} (n ident : Nat) (h : Quiet s) : Quiet (s.lockClear n ident) := by
  unfold State.lockClear
  split
  · refine ⟨noIdleWaiter_of_one h.idle (fun _ => lock_updLock_ne s _) fun free => ?_, h.quiet⟩
    rw [lock_updLock_self] at free ⊢
    exact h.idle n free
  · exact h

theorem Quiet.withdraw {s : State} (n ident : Nat) (h : Quiet s) :
    Quiet (s.updLock n fun l => { l with waiters := l.waiters.erase ident }) := by
  refine ⟨noIdleWaiter_of_one h.idle (fun _ => lock_updLock_ne s _) fun free => ?_, h.quiet⟩
  rw [lock_updLock_self] at free ⊢
  show (s.lock n).waiters.erase ident = []
  rw [h.idle n free]
  rfl

/-- A write of a lock that a rule turns away is a record, counted or not; any other acts. -/
theorem Quiet.lockWrite {s : State} (n ident writer : Nat) {act : State → State} (acts : ∀ s, Quiet s → Quiet (act s)) (h : Quiet s) :
    Quiet (s.lockWrite n ident writer act) := by
  unfold State.lockWrite
  split
  · exact h
  · split
    · exact h.logViolation _
    · split
      · exact Quiet.logViolation _ (h.of_eq (locks_count ..) (raised_count ..))
      · exact acts s h

/-- A command that writes a lock keeps the rule: nothing is raised that the collector would take. -/
theorem noIdleWaiter_of_lockWrite {c : Instr} {s t : State} {n ident writer : Nat} {act : State → State}
    (hc : exec c s = s.whenUp fun s => s.lockWrite n ident writer act) (acts : ∀ s, Quiet s → Quiet (act s)) (h : Quiet s)
    (answer : exec c s = .next t) : NoIdleWaiter t := by
  rw [hc] at answer
  by_cases up : s.phase = .running
  · have after := h.lockWrite n ident writer acts
    rw [whenUp_eq up, collected_eq after.quiet] at answer
    cases answer
    exact after.idle
  · rw [whenUp_off up] at answer
    cases answer
    exact h.idle

/-- Settles O60: each operation changes its own lock, which it leaves held or without waiters. -/
theorem locksAreHandedOver : Obligations.locksAreHandedOver := by
  refine ⟨fun _ n ident => noIdleWaiter_acquireLock n ident, fun _ n orphan => noIdleWaiter_releaseLock n orphan,
    fun _ ident => noIdleWaiter_dropLocks ident, ?commands, ?first, ?handed, ?queued⟩
  case commands =>
    rintro c s t idle quiet ⟨n, i, w, rfl | rfl | rfl | rfl⟩ answer
    · exact noIdleWaiter_of_lockWrite rfl (fun _ => Quiet.acquireLock n i) ⟨idle, quiet⟩ answer
    · exact noIdleWaiter_of_lockWrite rfl (fun _ => Quiet.lockHostRelease n i) ⟨idle, quiet⟩ answer
    · exact noIdleWaiter_of_lockWrite rfl (fun _ => Quiet.lockClear n i) ⟨idle, quiet⟩ answer
    · exact noIdleWaiter_of_lockWrite rfl (fun _ => Quiet.withdraw n i) ⟨idle, quiet⟩ answer
  case first =>
    intro s n orphan w r waiting noPrio
    have next : (State.givenUp s n orphan).nextWaiter n = some w := by
      have flag : (State.givenUp s n orphan).flag .LK_GROUP_PRIO_MODE (lockGroup n) = false := by
        rw [flag_givenUp s n orphan rfl, noPrio]
      simp only [State.nextWaiter, lock_givenUp_self, waiting, flag, Bool.false_eq_true, if_false]
    rcases lock_releaseLock_self s n orphan with ⟨idle, _⟩ | ⟨w', _, next', held⟩
    · rw [waiting] at idle
      cases idle
    · cases next.symm.trans next'
      rw [held, waiting]
      exact ⟨rfl, List.erase_cons_head w r⟩
  case handed =>
    intro s n orphan waiting
    rcases lock_releaseLock_self s n orphan with ⟨idle, _⟩ | ⟨w, waits, _, held⟩
    · exact absurd idle waiting
    · exact ⟨w, waits, by rw [held], by rw [held], by rw [held], fun k => lock_releaseLock_ne s orphan⟩
  case queued =>
    intro s n ident o owner other fresh room
    have joins : s.acquireLock n ident = (s.updLock n fun l => { l with waiters := l.waiters ++ [ident] }, .queued) := by
      simp only [State.acquireLock, owner, other, fresh, Nat.not_le.mpr room, Bool.false_eq_true, if_false]
    rw [joins, lock_updLock_self]
    exact ⟨rfl, owner⟩

end Sys2Proof.Proofs.Locks
end

section
/-! Rows of the machine's commands: a command gives the state that its meaning's effect leads to, once the meaning's wrapper lets it. -/

namespace Sys2Proof.Proofs.Rows

open Sys2Proof.Machine Sys2Proof.Laws Sys2Proof.Claims

variable {s t : State} {f : State → State}

/-- A core-domain meaning while the device is up, by its effect. -/
theorem whenUp_gives (up : s.phase = .running) (effect : f s = t) : s.whenUp f = .next t.collected := by
  rw [whenUp_eq up, effect]

/-- A meaning that the fatal state stops, while the device is up and not fatal, by its effect. -/
theorem whenLive_gives (up : s.phase = .running) (live : s.fatal = false) (effect : f s = t) : s.whenLive f = .next t.collected := by
  rw [whenLive_eq up live, effect]

/-- A reference-domain meaning outside auxiliary reset, by its effect. -/
theorem whenRef_gives (ref : s.phase ≠ .auxHeld) (effect : f s = t) : s.whenRef f = .next t.collected := by
  rw [whenRef_eq ref, effect]

/-- A timed event whose timer runs, by its effect. -/
theorem whenDue_gives {k : TimerKey} {due : Nat} (runs : s.timers.look k = some due) (effect : f ((s.setNow due).disarm k) = t) :
    s.whenDue k f = .next t.collected := by
  rw [whenDue_eq runs, effect]

/-- The same, with a name for the state in which the event happens. -/
theorem whenDue_gives_at {k : TimerKey} {due : Nat} (u : State) (runs : s.timers.look k = some due) (happens : at_ s k due = u)
    (effect : f u = t) : s.whenDue k f = .next t.collected :=
  whenDue_gives runs (by rw [← effect, ← happens]; rfl)

end Sys2Proof.Proofs.Rows
end

section
/-! The wharf's directory, the agents' accesses to it and the hardware locks' host side (R395 to R409): each command under the
conditions of its rule. -/

namespace Sys2Proof.Proofs.Wharf

open Sys2Proof.Machine Sys2Proof.Laws Sys2Proof.Claims Sys2Proof.Proofs.Rows Sys2Proof.Proofs.Stores

/-- Settles O32: each row's guard holds under its hypotheses. -/
theorem wharfRowsComplete : Obligations.wharfRowsComplete := by
  refine ⟨?ferry, ?agentRead, ?agentWrite, ?agentAtomic, ?eviction, ?poison⟩
  case ferry =>
    intro s f a up on inside
    have guard : (s.ferryOn f && s.inWharf a) = true := by rw [on, inside]; rfl
    refine ⟨?read, ?own, ?upgrade⟩
    case read =>
      show execFerryRead f a s = _
      exact whenUp_gives up (if_pos guard)
    case own =>
      show execFerryOwn f a s = _
      exact whenUp_gives up (if_pos guard)
    case upgrade =>
      show execFerryUpgrade f a s = _
      exact whenUp_gives up (if_pos guard)
  case agentRead =>
    intro s a up inside clean
    show execAgentRead a s = _
    exact whenUp_gives up (by simp only [inside, clean, Bool.not_true, Bool.false_eq_true, if_false])
  case agentWrite =>
    intro s a bytes up first last
    show execAgentWrite a bytes s = _
    exact whenUp_gives up (if_pos (by rw [first, last]; rfl))
  case agentAtomic =>
    intro s a aop x y big up n first last aligned clean old
    show execAgentAtomic a aop x y big s = _
    refine whenUp_gives up ?_
    show (if (!(s.inWharf a && s.inWharf (a + n - 1)) || decide (a % n ≠ 0)) = true then s else _) = _
    rw [first, last, aligned, if_neg (by decide)]
    exact if_neg (by rw [clean]; decide)
  case eviction =>
    intro s f a l up entry
    show execFerryEviction f a s = _
    exact whenUp_gives up (by simp only [entry])
  case poison =>
    intro s a up inside
    show execPoisonTimeout a s = _
    exact whenUp_gives up (if_pos inside)

/-- A requester that may use a lock, under its own identity, has its command carried out. -/
theorem lockWrite_eq {s : State} {n w : Nat} (act : State → State) (known : n < 4096) (may : s.lockHostOk n w = true) :
    s.lockWrite n w w act = act s := by
  unfold State.lockWrite
  rw [if_neg (by omega), may, if_neg (by decide), if_neg (by simp)]

/-- Settles O33: the host's lock commands by `lockWrite_eq`, the word locks by `wordLock_eq`. -/
theorem lockRowsComplete : Obligations.lockRowsComplete := by
  refine ⟨?commands, ?group, ?cfg, ?word⟩
  case commands =>
    intro s n w up known may
    refine ⟨?acquire, ?release, ?clear, ?withdraw⟩
    case acquire =>
      show execLkAcquire n w w s = _
      exact whenUp_gives up (lockWrite_eq (fun s => (s.acquireLock n w).1) known may)
    case release =>
      show execLkRelease n w w s = _
      exact whenUp_gives up (lockWrite_eq (fun s => s.lockHostRelease n w) known may)
    case clear =>
      show execLkClearOrphan n w w s = _
      exact whenUp_gives up (lockWrite_eq (fun s => s.lockClear n w) known may)
    case withdraw =>
      show execLkWithdraw n w w s = _
      exact whenUp_gives up (lockWrite_eq (fun s => s.updLock n fun l => { l with waiters := l.waiters.erase w }) known may)
  case group =>
    intro s g v up known free
    have small : ¬ 16 ≤ g := by omega
    refine ⟨?ferries, ?config⟩
    case ferries =>
      show execLkGroupWrite g true v s = _
      exact whenUp_gives up (by simp only [State.writeLockGroup, small, free, Bool.not_true, Bool.false_eq_true, if_false, if_true])
    case config =>
      show execLkGroupWrite g false v s = _
      exact whenUp_gives up (by simp only [State.writeLockGroup, small, free, Bool.not_true, Bool.false_eq_true, if_false])
  case cfg =>
    intro s v up idle
    show execLkCfgWrite v s = _
    exact whenUp_gives up (if_pos idle)
  case word =>
    intro s a up maint inside aligned old next
    refine ⟨?acquire, ?release⟩
    case acquire =>
      show execLkWordAcquire identCtl a s = _
      exact whenUp_gives up (wordLock_eq 0 (0x1_0000 + identCtl) maint inside aligned)
    case release =>
      show execLkWordRelease identCtl a s = _
      exact whenUp_gives up (wordLock_eq (0x1_0000 + identCtl) 0 maint inside aligned)

end Sys2Proof.Proofs.Wharf
end

section
/-! The counters' registers, histograms and snapshots (R475 to R486) and the fault collector's rows (R466 to R474): each command under
the conditions of its rule. -/

namespace Sys2Proof.Proofs.Telemetry

open Sys2Proof.Machine Sys2Proof.Laws Sys2Proof.Claims Sys2Proof.Proofs.Rows

/-! ## Counters, histograms and snapshots -/

/-- A selection that is accepted, at a unit that is enabled (R476, R480). -/
theorem writeEcSel_eq {s : State} {u w : Nat} (k : Nat) (on : s.unitOn u = true)
    (accepted : selOk u (Fld.of .EC_SEL_MODE w) (Fld.of .EC_SEL_EVENT w) (Fld.of .EC_SEL_SUB w) = true) :
    s.writeEcSel u k w =
      let i := 4 * u + k
      let t := (s.setFields i w [.EC_SEL_USER_FN, .EC_SEL_USER_EN, .EC_SEL_MODE, .EC_SEL_SUB, .EC_SEL_EVENT]).w1c .EC_SEL_OVF i w
      if s.rd .EC_SEL_MODE i = Fld.of .EC_SEL_MODE w ∧ s.rd .EC_SEL_EVENT i = Fld.of .EC_SEL_EVENT w ∧
        s.rd .EC_SEL_SUB i = Fld.of .EC_SEL_SUB w then t else t.wr .EC_CNT_COUNT i 0 := by
  simp only [State.writeEcSel, on, accepted, Bool.not_true, Bool.false_eq_true, if_false, decide_eq_true_eq]

/-- The completion of a captured snapshot whose record was written, or lost (R486). -/
theorem completeSnap_eq {s t : State} {k : Nat} {ok done : Bool} {n : Snap} (known : s.snaps.look k = some n)
    (captured : n.captured = true) (wrote : s.writeSnap n ok = some (t, done)) :
    s.completeSnap k ok =
      let u := if idxBefore (t.rd .EC_SNAP_STATUS_SEQ) n.seq then t.wr .EC_SNAP_STATUS_SEQ 0 n.seq else t
      State.endPriv { u with snaps := u.snaps.del k } n.src (if done then 0 else cLocalMemory) := by
  simp only [State.completeSnap, known, captured, wrote, Bool.not_true, Bool.false_eq_true, if_false]

/-- Settles O30: each row by the effect of its write, sample, capture or completion. -/
theorem counterRowsComplete : Obligations.counterRowsComplete := by
  refine ⟨?sel, ?cnt, ?hist, ?sample, ?capture, ?complete⟩
  case sel =>
    intro s u k w up unit slot on accepted i t
    show execEcSelWrite u k w s = _
    exact whenUp_gives up ((if_pos ⟨unit, slot⟩).trans (writeEcSel_eq k on accepted))
  case cnt =>
    intro s u k w up unit slot on
    show execEcCntWrite u k w s = _
    exact whenUp_gives up ((if_pos ⟨unit, slot⟩).trans (if_pos on))
  case hist =>
    intro s p w up on changed
    show execEcHistCfgWrite p w s = _
    exact whenUp_gives up (if_neg (by simp [on, changed]))
  case sample =>
    intro s p up on i t
    show execHistogramSample p s = _
    exact whenUp_gives up (if_neg (by simp [on]))
  case capture =>
    intro s up live _
    show execSnapshotCapture s = _
    exact whenLive_gives up live rfl
  case complete =>
    intro s k ok n t done up live known captured wrote u
    show execSnapshotComplete k ok s = _
    exact whenLive_gives up live (completeSnap_eq known captured wrote)

/-! ## The fault collector -/

/-- A wire fault of an enabled source sets WIRE and is an assertion (R468). -/
theorem wireAssert_eq {s : State} {n : Nat} (forced : Bool) (known : srcKnown n = true) (on : s.srcOn n = true) :
    s.wireAssert n forced = (s.wr .FT_SRC_WIRE n 1).faultAssert n forced := if_pos (by rw [known, on]; rfl)

/-- A force is carried out where no job is active or the class is not fatal (R471). -/
theorem forceSrc_eq {s : State} {n : Nat} (act : State → State) (known : srcKnown n = true)
    (safe : s.rd .FT_SRC_REACT n ≠ rcFatal ∨ s.jobsActive = 0) : s.forceSrc n act = act s := by
  unfold State.forceSrc
  rw [known, if_neg (by decide), if_neg fun both => safe.elim (absurd both.1) both.2]

/-- Settles O31: each row by what the collector does with a source that exists and is enabled. -/
theorem faultRowsComplete : Obligations.faultRowsComplete := by
  refine ⟨?assertion, ?force, ?react, ?read, ?fatal, ?check⟩
  case assertion =>
    intro s n ref known on
    refine ⟨?wire, ?fault⟩
    case wire =>
      show execFaultAssertion n s = _
      exact whenRef_gives ref rfl
    case fault =>
      show execWireFault n s = _
      exact whenRef_gives ref (wireAssert_eq false known on)
  case force =>
    intro s n ref known on safe
    refine ⟨?assert, ?wire⟩
    case assert =>
      show execFtForceAssert n s = _
      exact whenRef_gives ref (forceSrc_eq (fun s => s.faultAssert n true) known safe)
    case wire =>
      show execFtForceWire n s = _
      exact whenRef_gives ref ((forceSrc_eq (fun s => s.wireAssert n true) known safe).trans (wireAssert_eq true known on))
  case react =>
    intro s n w ref known unforced
    show execFtReactWrite n w s = _
    exact whenRef_gives ref (by
      simp only [State.writeFtSrc, known, unforced, Bool.not_true, Bool.false_eq_true, if_false])
  case read =>
    intro s n ref small
    show execFtSrcRead n s = _
    exact whenRef_gives ref (if_pos small)
  case fatal =>
    intro s n up known on class_
    show execFatalEntry n s = _
    exact whenUp_gives up (if_pos (by rw [known, on, class_]; rfl))
  case check =>
    intro s ref
    show execCollectorSelfCheckFail s = _
    exact whenRef_gives ref rfl

end Sys2Proof.Proofs.Telemetry
end

section
/-! The work queues' turns, events, commands and registers, and the ferries' events (R79 to R108, R364 to R391, R431, R523): each command
under the conditions of its rule. -/

namespace Sys2Proof.Proofs.QueueRows

open Sys2Proof.Machine Sys2Proof.Laws Sys2Proof.Claims Sys2Proof.Proofs.Rows Sys2Proof.Proofs.Engine

variable {s : State} {q : Nat}

/-! ## Turns -/

/-- Passing over what is done stops at an entry that is not. -/
theorem toNext_here (here : (s.q q).passOne = none) (fuel : Nat) : s.toNext q fuel = s := by
  cases fuel with
  | zero => rfl
  | succ n => simp only [State.toNext, here]

/-- A queue whose entry at the cursor may start has it started (R85, R111). -/
theorem queueTurn_eq {n : Nat} {more : List Byte} {c : Cmd} (ready : Ready s q n more c) (x : PrivData) (draw : Nat) :
    s.queueTurn q x draw = s.startEntry q n c { x with trailer := more } draw := by
  obtain ⟨bs, fetched, slots, allowed, rest, decoded⟩ := ready.entry
  have turn : s.turnAt q (s.q q).cursor bs x draw = s.startEntry q n c { x with trailer := more } draw := by
    simp only [State.turnAt, ready.free, slots, ready.may, allowed, rest, decoded, Bool.not_true, Bool.false_eq_true, if_false, ne_eq,
      not_true_eq_false]
  rw [← turn]
  simp only [State.queueTurn, State.passDoneEntries, toNext_here ready.here, ready.running, ready.served, ready.ahead, ready.before, fetched,
    ne_eq, not_true_eq_false, Bool.not_true, Bool.false_eq_true, or_self, if_false]

/-- Settles O12: each row by its own effect; a queue's turn by `queueTurn_eq`. -/
theorem queueTurnsComplete : Obligations.queueTurnsComplete := by
  refine ⟨?turn, ?held, ?fetch, ?read, ?doorbell, ?cancel⟩
  case turn =>
    intro s q n more c x draw ready turn
    show execQueueStartTurn q x draw s = _
    exact whenLive_gives ready.up ready.live ((if_pos turn).trans (queueTurn_eq ready x draw))
  case held =>
    intro s q n more c x draw ready held
    show execHeldCommandResume q x draw s = _
    exact whenLive_gives ready.up ready.live ((if_pos held).trans (queueTurn_eq ready x draw))
  case fetch =>
    intro s q n up live running ok
    show execRingFetch q n s = _
    exact whenLive_gives up live (if_pos ⟨running, ok⟩)
  case read =>
    intro s q seen i n rest up live reads u ok
    show execRingReadComplete q true seen s = _
    refine whenLive_gives up live ?_
    simp only [reads]
    show (if u.qState q = qHalted ∧ u.segAccess [(u.ringLoc q i, 32 * n)] ≠ .ok then _
      else if (true && decide (u.segAccess [(u.ringLoc q i, 32 * n)] = .ok)) = true then _ else _) = _
    rw [if_neg fun halted => halted.2 ok, if_pos (by rw [ok]; rfl)]
  case doorbell =>
    intro s f q size v up live width known bound
    show execDoorbell f q 0 size v s = _
    refine whenLive_gives up live ?_
    rw [if_neg (by omega), if_pos bound]
  case cancel =>
    intro s q i r u o up live found each
    show execCancelDecision q i s = _
    refine whenLive_gives up live ?_
    simp only [found, each]
    rfl

/-- Settles O13: each row by its own effect. -/
theorem queueEventsComplete : Obligations.queueEventsComplete := by
  refine ⟨?coal, ?headWord, ?met, ?timeout⟩
  case coal =>
    intro s q d runs
    show execCoalTimeExpiry q s = _
    exact whenDue_gives runs rfl
  case headWord =>
    intro s q up on
    show execHeadWordWriteFailure q s = _
    exact whenUp_gives up (if_pos on)
  case met =>
    intro s q w up live waits state met
    show execWaitConditionMet q s = _
    exact whenLive_gives up live (by simp only [waits, state, met, and_self, if_true])
  case timeout =>
    intro s q w d runs u waits state live unmet
    show execWaitTimeoutExpiry q s = _
    refine whenDue_gives_at u runs rfl ?_
    simp only [waits, state, live, unmet, ne_eq, not_true_eq_false, Bool.false_eq_true, or_self, if_false]

/-! ## Commands written to QU_STATE -/

/-- An entry point that reaches a queue acts on it. -/
theorem queueAccess_eq {f : Option Func} (act : State → State) (reach : Reaches s q f) : s.queueAccess q f act = act s := by
  obtain ⟨_, known, reaches⟩ := reach
  unfold State.queueAccess
  rw [if_neg (by omega), if_pos reaches]

/-- HALT of a queue that is RUNNING or in WAIT (R92). -/
theorem haltQueue_eq (reason : Nat) (runs : s.qState q = qRunning ∨ s.qState q = qWait) :
    s.haltQueue q reason = ((s.stopRunning q qHalted).wr .QU_STATE_HALT_REASON q reason).checkDrained q := if_pos runs

/-- RUN of a queue that a command or its own END halted, with no failure latched (R92, R100). -/
theorem runQueue_eq (f : Option Func) (halted : s.qState q = qHalted)
    (reason : s.rd .QU_STATE_HALT_REASON q = 1 ∨ s.rd .QU_STATE_HALT_REASON q = 2) (clear : s.rd .QU_STATE_CAUSE q = 0) :
    s.runQueue q f = ((s.wr .QU_STATE_HALT_REASON q 0).wr .QU_STATE_STATE q qRunning).wr .QU_STATE_DRAINED q 0 := by
  have may : s.mayRun q f = true := if_pos reason
  have notAgain : ¬ (s.rd .QU_STATE_HALT_REASON q = 3 ∨ s.rd .QU_STATE_HALT_REASON q = 4) := by omega
  have kept : (s.wr .QU_STATE_HALT_REASON q 0).rd .QU_STATE_CAUSE q = 0 := by rw [rd_wr_ne _ _ (by simp)]; exact clear
  simp only [State.runQueue, halted, may, notAgain, kept, ne_eq, not_true_eq_false, Bool.not_true, Bool.false_eq_true, or_self, if_false,
    if_true]

/-- RESUME and RESUME_SKIP of a queue in ERROR (R98). -/
theorem cmdResume_eq (skip : Bool) (error : s.qState q = qError) : s.cmdResume q skip =
    if s.flag .QU_STATE_DRAINED q then s.resumeQueue q skip else s.updQ q fun x => { x with resume := some skip } :=
  if_neg (not_not_intro error)

/-- Settles O14: the entry point reaches the queue, and the queue is in the state that the command is for. -/
theorem queueControlsComplete : Obligations.queueControlsComplete := by
  refine ⟨?run, ?halt, ?resume, ?skip, ?held⟩
  case run =>
    intro s q f reach live halted reason clear
    show execCmdRun q f s = _
    exact whenLive_gives reach.1 live ((queueAccess_eq (fun s => s.runQueue q f) reach).trans (runQueue_eq f halted reason clear))
  case halt =>
    intro s q f reach runs
    show execCmdHalt q f s = _
    exact whenUp_gives reach.1
      ((queueAccess_eq (fun s => s.haltCmd q) reach).trans ((if_pos runs).trans (haltQueue_eq 1 runs)))
  case resume =>
    intro s q f reach live error
    show execCmdResume q f s = _
    exact whenLive_gives reach.1 live ((queueAccess_eq (fun s => s.cmdResume q false) reach).trans (cmdResume_eq false error))
  case skip =>
    intro s q f reach live error
    show execCmdResumeSkip q f s = _
    exact whenLive_gives reach.1 live ((queueAccess_eq (fun s => s.cmdResume q true) reach).trans (cmdResume_eq true error))
  case held =>
    intro s q skip up live resume error drained
    show execHeldResumeApply q s = _
    exact whenLive_gives up live (by simp only [resume, error, drained, and_self, if_true])

/-! ## Registers -/

/-- The control queue is HALTED and drained, as its configuration wants it. -/
theorem idle_of_idle0 (idle : Idle0 s) : (decide (s.qState 0 = qHalted) && s.flag .QU_STATE_DRAINED 0) = true := by
  obtain ⟨halted, drained⟩ := idle
  rw [halted, drained]
  rfl

/-- An accepted write of QU_HEADADDR[0] (R523). -/
theorem writeQueue0_headaddr {v : Nat} (idle : Idle0 s)
    (ok : ringRangeOk (decide (Fld.of .QU_HEADADDR_LOC v = 1)) (Fld.of .QU_HEADADDR_ADDR v * 8) 8 = true) :
    s.writeQueue0 true false v = s.setFields 0 v [.QU_HEADADDR_ADDR, .QU_HEADADDR_LOC, .QU_HEADADDR_EN] := by
  simp only [State.writeQueue0, idle_of_idle0 idle, ok, if_true, Bool.not_true, Bool.or_self, Bool.false_eq_true, if_false]

/-- An accepted write of QU_CFG[0] (R523). -/
theorem writeQueue0_cfg {v : Nat} (idle : Idle0 s) (least : 6 ≤ Fld.of .QU_CFG_SIZE_LOG2 v) (most : Fld.of .QU_CFG_SIZE_LOG2 v ≤ 16)
    (ok : ringRangeOk (decide (Fld.of .QU_CFG_LOC v = 1)) (s.rd .QU_BASE_BASE 0 * 4096) (32 * 2 ^ Fld.of .QU_CFG_SIZE_LOG2 v) = true) :
    s.writeQueue0 false true v = s.setFields 0 v [.QU_CFG_SIZE_LOG2, .QU_CFG_LOC] := by
  simp only [State.writeQueue0, idle_of_idle0 idle, least, most, ok, if_true, Bool.not_true, Bool.or_self, Bool.or_true, Bool.false_eq_true,
    if_false, and_self, decide_true, Bool.and_self]

/-- An accepted write of QU_BASE[0] starts the ring anew (R523). -/
theorem writeQueue0_base {v : Nat} (idle : Idle0 s) (least : 6 ≤ s.rd .QU_CFG_SIZE_LOG2 0) (most : s.rd .QU_CFG_SIZE_LOG2 0 ≤ 16)
    (ok : ringRangeOk (decide (s.rd .QU_CFG_LOC 0 = 1)) (Fld.of .QU_BASE_BASE v * 4096) (32 * 2 ^ s.rd .QU_CFG_SIZE_LOG2 0) = true) :
    s.writeQueue0 false false v =
      (((s.setFields 0 v [.QU_BASE_BASE]).wrAll 0 [(.QU_PI_PI, 0), (.QU_CI_CI, 0), (.QU_CI_LAST_STARTED, 0), (.QU_HEAD_HEAD, 0),
        (.QU_STATE_ERR_INDEX, 0), (.QU_STATE_CAUSE, 0), (.QU_STATE_ERR_MULTI, 0)]).updQ 0 fun x => { noJob := x.noJob, ep := x.ep }) := by
  simp only [State.writeQueue0, idle_of_idle0 idle, least, most, ok, Bool.not_true, Bool.or_self, Bool.false_eq_true,
    if_false, and_self, decide_true, Bool.and_self]

/-- Settles O15: the entry point reaches the queue; the control queue's configuration by the lemmas of its three registers. -/
theorem queueRegistersComplete : Obligations.queueRegistersComplete := by
  refine ⟨?notify, ?headaddr, ?cfg, ?base, ?piRead, ?apertureRead, ?apertureWrite, ?tally⟩
  case notify =>
    intro s q f v reach
    show execQuNotifyWrite q f v s = _
    exact whenUp_gives reach.1 (queueAccess_eq (fun s => s.writeNotify q v) reach)
  case headaddr =>
    intro s f v reach idle ok
    show execQueue0ConfigWrite true false f v s = _
    exact whenUp_gives reach.1
      ((queueAccess_eq (fun s => s.writeQueue0 true false v) reach).trans (writeQueue0_headaddr idle ok))
  case cfg =>
    intro s f v reach idle least most ok
    show execQueue0ConfigWrite false true f v s = _
    exact whenUp_gives reach.1
      ((queueAccess_eq (fun s => s.writeQueue0 false true v) reach).trans (writeQueue0_cfg idle least most ok))
  case base =>
    intro s f v reach idle least most ok
    show execQueue0ConfigWrite false false f v s = _
    exact whenUp_gives reach.1
      ((queueAccess_eq (fun s => s.writeQueue0 false false v) reach).trans (writeQueue0_base idle least most ok))
  case piRead =>
    intro s q f ⟨up, known, reaches⟩
    show execQuPiRead q f s = _
    refine whenUp_gives up ?_
    rw [if_neg (by omega), if_pos reaches]
  case apertureRead =>
    intro s q f k r ⟨up, known, reaches⟩ named
    have bound : s.boundTo q f = true := reaches
    show execQueueApertureAccess f q k none s = _
    refine whenUp_gives up ?_
    rw [if_neg (by omega)]
    simp only [bound, named, Bool.not_true, Bool.false_eq_true, if_false]
  case apertureWrite =>
    intro s q f k v reach
    show execQueueApertureAccess f q k (some v) s = _
    refine whenUp_gives reach.1 ?_
    rw [if_neg (by have := reach.2.1; omega)]
    exact queueAccess_eq (fun s => s.writeQueueReg q k (some f) v) reach
  case tally =>
    intro s n v up known
    show execTallyArrayWrite n v s = _
    exact whenUp_gives up (if_pos known)

/-! ## Ferries -/

/-- Settles O16: each row by its own effect. -/
theorem ferryEventsComplete : Obligations.ferryEventsComplete := by
  refine ⟨?dispatch, ?budget, ?wake, ?timer, ?wait, ?cfg, ?fault⟩
  case dispatch =>
    intro s f e t h up live on running next thread entry
    show execHandlerDispatch f s = _
    exact whenLive_gives up live (by
      simp only [on, running, next, thread, entry, Bool.not_true, ne_eq, not_true_eq_false, decide_false, Bool.or_self, Bool.false_eq_true,
        if_false])
  case budget =>
    intro s f t d runs
    show execBudgetExpiry f t s = _
    exact whenDue_gives runs rfl
  case wake =>
    intro s f t op res v rd n x up runs sleeps enough
    show execUnitOpComplete f t op res s = _
    refine whenUp_gives up ?_
    simp only [State.tallyWake, runs, sleeps, enough, if_true, State.updInv, State.updThread, Option.map_some]
  case timer =>
    intro s f t k d tag runs u armed
    show execTimerFire f t k s = _
    refine whenDue_gives_at u runs rfl ?_
    simp only [armed]
  case wait =>
    intro s f t d runs
    show execEventWaitTimeout f t s = _
    exact whenDue_gives runs rfl
  case cfg =>
    intro s f v up on nonzero
    have field : Fld.of .FX_CFG_JOB_THREADS v = v % 65536 := by
      show v / 2 ^ 0 % 2 ^ 16 = _
      rw [Nat.pow_zero, Nat.div_one, show 2 ^ 16 = 65536 from rfl]
    have small : v % 65536 < 65536 := Nat.mod_lt _ (by decide)
    show execFxCfgWrite f v s = _
    refine whenUp_gives up ((if_pos on).trans ?_)
    simp only [State.writeFxCfg, State.setBounded, field]
    exact if_pos (by omega)
  case fault =>
    intro s f t up ferry thread
    show execFxFaultRead f t s = _
    exact whenUp_gives up (if_pos ⟨ferry, thread⟩)

end Sys2Proof.Proofs.QueueRows
end

section
/-! The registers of translation, windows and functions, the BARs, and the host functions' own rows (R9, R412 to R414, R427 to R441): each
command under the conditions of its rule. -/

namespace Sys2Proof.Proofs.HostRows

open Sys2Proof.Machine Sys2Proof.Laws Sys2Proof.Claims Sys2Proof.Proofs.Rows

variable {s : State}

/-! ## Registers -/

/-- A slot that is not locked takes the writes of its registers (R413). -/
theorem writeTxSlot_eq {a : Nat} (known : a < 4096) (unlocked : s.flag .TX_ASID_LOCKED a = false) (reg v : Nat) :
    s.writeTxSlot a reg v = match reg with
      | 0 => s.writeAsid a v
      | 1 => s.setFields a v [.TX_ROOT_ROOT, .TX_ROOT_LOC]
      | 2 => s.setFields a v [.TX_PKG_FIRST, .TX_PKG_LAST]
      | _ => s :=
  if_neg fun stops => stops.elim (fun large => by omega) (fun locked => by simp [unlocked] at locked)

/-- The guard of a span's registers lets a slot that is not locked through (R413, R414). -/
theorem span_open {a sp : Nat} (known : a < 4096) (span : sp < 8) (unlocked : s.flag .TX_ASID_LOCKED a = false) :
    ¬ (4096 ≤ a ∨ 8 ≤ sp ∨ s.flag .TX_ASID_LOCKED a = true) := by
  rintro (large | large | locked)
  · omega
  · omega
  · rw [unlocked] at locked; cases locked

/-- A span that is not VALID takes the writes of its registers (R414). -/
theorem writeTxSpan_invalid {a sp : Nat} (known : a < 4096) (span : sp < 8) (unlocked : s.flag .TX_ASID_LOCKED a = false)
    (invalid : s.flag .TX_SPAN_BASE_VALID (8 * a + sp) = false) (reg v : Nat) :
    s.writeTxSpan a sp reg v = match reg with
      | 0 => s.setFields (8 * a + sp) v [.TX_SPAN_BASE_BASE, .TX_SPAN_BASE_W, .TX_SPAN_BASE_R, .TX_SPAN_BASE_LOC, .TX_SPAN_BASE_VALID]
      | 1 => s.setFields (8 * a + sp) v [.TX_SPAN_LIMIT_LIMIT]
      | 2 => s.setFields (8 * a + sp) v [.TX_SPAN_TGT_TARGET]
      | _ => s :=
  (if_neg (span_open known span unlocked)).trans (if_neg (by rw [invalid]; decide))

/-- A write of TX_SPAN_BASE with VALID 0 clears the VALID of a span alone (R414). -/
theorem writeTxSpan_clear {a sp v : Nat} (known : a < 4096) (span : sp < 8) (unlocked : s.flag .TX_ASID_LOCKED a = false)
    (valid : s.flag .TX_SPAN_BASE_VALID (8 * a + sp) = true) (clears : Fld.of .TX_SPAN_BASE_VALID v = 0) :
    s.writeTxSpan a sp 0 v = s.wr .TX_SPAN_BASE_VALID (8 * a + sp) 0 := by
  simp only [State.writeTxSpan, span_open known span unlocked, valid, clears, and_self, if_true, if_false]

/-- A QBASE of a virtual function that is not bound is taken where it names a group of queues (R429). -/
theorem writeVf_eq {i v : Nat} (nonzero : Fld.of .HI_VF_QBASE v ≠ 0) (aligned : Fld.of .HI_VF_QBASE v % 64 = 0)
    (unbound : s.boundQueues (fun k => decide (s.qFunc k = i / 253 * 256 + i % 253)) = []) :
    s.writeVf i v = s.wr .HI_VF_QBASE i (Fld.of .HI_VF_QBASE v) := by
  unfold State.writeVf
  rw [if_neg (by simp [nonzero, aligned, unbound])]

/-- A read of a BAR of a function that exists. -/
theorem barAccess_read {f : Func} (there : s.fnExists f = true) (rd : State → State × Nat) (put : State → Nat → State) :
    s.barAccess f none rd put = (rd s).1.answer (some f) (rd s).2 := if_neg (by rw [there]; decide)

/-- A write of a BAR of a function that exists. -/
theorem barAccess_write {f : Func} (there : s.fnExists f = true) (v : Nat) (rd : State → State × Nat) (put : State → Nat → State) :
    s.barAccess f (some v) rd put = put s v := if_neg (by rw [there]; decide)

/-- An access to BAR4 that a window covers and whose rights allow it (R433). -/
theorem bar4_eq {f : Func} {off len i : Nat} {op : BarOp} (bad : Bool) (line : off / 64 = (off + len - 1) / 64)
    (inside : off + len ≤ bar4Size f) (window : s.winFor f off len = some i) (allowed : s.winAllows i op = true) :
    s.bar4 f off len op bad =
      if inPackage (s.winTarget i + (off - s.winLo i)) then s.winPackage f (s.winTarget i + (off - s.winLo i)) len op bad
      else s.winRegs f (s.winTarget i + (off - s.winLo i)) len op := by
  unfold State.bar4
  rw [if_neg (by omega), window]
  simp only [allowed, Bool.not_true, Bool.false_eq_true, if_false]

/-- Settles O34: each row by the lemma of its register or BAR. -/
theorem registerRowsComplete : Obligations.registerRowsComplete := by
  refine ⟨?asid, ?span, ?clear, ?ctl, ?win, ?vf, ?stat, ?internal, ?bars, ?bar4⟩
  case asid =>
    intro s a v up known unlocked
    refine ⟨?slot, ?root, ?pkg⟩
    case slot =>
      show execTxAsidWrite a 0 v s = _
      exact whenUp_gives up (writeTxSlot_eq known unlocked 0 v)
    case root =>
      show execTxAsidWrite a 1 v s = _
      exact whenUp_gives up (writeTxSlot_eq known unlocked 1 v)
    case pkg =>
      show execTxAsidWrite a 2 v s = _
      exact whenUp_gives up (writeTxSlot_eq known unlocked 2 v)
  case span =>
    intro s a sp v up known span unlocked invalid
    refine ⟨?base, ?limit, ?target⟩
    case base =>
      show execTxSpanBaseWrite a sp 0 v s = _
      exact whenUp_gives up (writeTxSpan_invalid known span unlocked invalid 0 v)
    case limit =>
      show execTxSpanBaseWrite a sp 1 v s = _
      exact whenUp_gives up (writeTxSpan_invalid known span unlocked invalid 1 v)
    case target =>
      show execTxSpanBaseWrite a sp 2 v s = _
      exact whenUp_gives up (writeTxSpan_invalid known span unlocked invalid 2 v)
  case clear =>
    intro s a sp v up known span unlocked valid clears
    show execTxSpanBaseWrite a sp 0 v s = _
    exact whenUp_gives up (writeTxSpan_clear known span unlocked valid clears)
  case ctl =>
    intro s v up open_ a
    refine ⟨?read, ?write⟩
    case read =>
      show execHiCtlDataRead 8 s = _
      exact whenUp_gives up (by simp only [State.ctlRead, open_, Bool.false_eq_true, if_false]; rfl)
    case write =>
      show execHiCtlDataWrite 8 v s = _
      exact whenUp_gives up (by simp only [State.ctlWrite, open_, Bool.false_eq_true, if_false]; rfl)
  case win =>
    intro s tgt p w v up port window
    show execHiWinWrite tgt p w v s = _
    exact whenUp_gives up (if_pos ⟨port, window⟩)
  case vf =>
    intro s p vf v up port least most nonzero aligned unbound
    show execHiVfWrite p vf v s = _
    exact whenUp_gives up ((if_pos ⟨port, least, most⟩).trans (writeVf_eq nonzero aligned unbound))
  case stat =>
    intro s f up there
    show execHiFnStatRead f s = _
    exact whenUp_gives up (if_pos there)
  case internal =>
    intro s a v ref works
    show execRegisterWrite (.internal a v) s = _
    exact whenRef_gives ref (if_pos works)
  case bars =>
    intro s f off len v up there
    refine ⟨?read0, ?write0, ?read2, ?write2⟩
    case read0 =>
      show (s.whenUp fun s => s.barAccess f none (fun s => s.bar0Read f off len) fun s v => s.bar0Write f off len v) = _
      exact whenUp_gives up (barAccess_read there (fun s => s.bar0Read f off len) fun s v => s.bar0Write f off len v)
    case write0 =>
      show (s.whenUp fun s => s.barAccess f (some v) (fun s => s.bar0Read f off len) fun s v => s.bar0Write f off len v) = _
      exact whenUp_gives up (barAccess_write there v (fun s => s.bar0Read f off len) fun s v => s.bar0Write f off len v)
    case read2 =>
      show (s.whenUp fun s => s.barAccess f none (fun s => (s, s.bar2Read f off len)) fun s v => s.bar2Write f off len v) = _
      exact whenUp_gives up (barAccess_read there (fun s => (s, s.bar2Read f off len)) fun s v => s.bar2Write f off len v)
    case write2 =>
      show (s.whenUp fun s => s.barAccess f (some v) (fun s => (s, s.bar2Read f off len)) fun s v => s.bar2Write f off len v) = _
      exact whenUp_gives up (barAccess_write there v (fun s => (s, s.bar2Read f off len)) fun s v => s.bar2Write f off len v)
  case bar4 =>
    intro s f off len op bad i up there nonempty length_ line inside window allowed a
    show execBar4Access f off len op bad s = _
    refine whenUp_gives up ?_
    rw [if_neg (by simp [nonempty, length_]), there, if_neg (by decide)]
    exact bar4_eq bad line inside window allowed

/-! ## Functions -/

/-- The loss of bus mastery of a function that has it, or is NORMAL (R427, R438). -/
theorem clearBme_eq {f : Func} (d3 : Bool) (there : s.fnExists f = true) (noFlr : s.fnState f ≠ 3)
    (mastery : (s.fn f).bme = true ∨ s.fnState f = 0) :
    s.clearBme f d3 = ((s.updFn f fun n => { n with bme := false, d3 := n.d3 || d3 }).dropFunc f 1 3).armIn (.quiesce f) (ms 10) := by
  unfold State.clearBme
  rw [if_neg (by rcases mastery with has | normal <;> simp [*])]

/-- Settles O44: each row by its own effect. -/
theorem hostFunctionsComplete : Obligations.hostFunctionsComplete := by
  refine ⟨?clear, ?set, ?quiesced, ?flr, ?flrEnds, ?leaves, ?vfClear, ?vfSet, ?unmask⟩
  case clear =>
    intro s f up there noFlr mastery
    refine ⟨?bme, ?d3hot⟩
    case bme =>
      show execBmeClear f s = _
      exact whenUp_gives up (clearBme_eq false there noFlr mastery)
    case d3hot =>
      show execD3hotEntry f s = _
      exact whenUp_gives up (clearBme_eq true there noFlr mastery)
  case set =>
    intro s f up there noFlr t
    show execBmeSet f s = _
    exact whenUp_gives up (if_neg (by simp [there, noFlr]))
  case quiesced =>
    intro s f d runs quiescing
    show execQuiesceExpiry f s = _
    simp only [execQuiesceExpiry, runs, quiescing, if_true]
    rfl
  case flr =>
    intro s f up there noFlr t u w
    show execFlr f s = _
    have one : s.flrOne f = w := if_neg noFlr
    refine whenUp_gives up ?_
    simp only [State.flrFunc, there, one, Bool.not_true, Bool.false_eq_true, if_false]
  case flrEnds =>
    intro s f d runs u stays
    show execFlrComplete f s = _
    refine whenDue_gives_at u runs rfl ?_
    rw [if_neg (by rw [stays]; decide)]
  case leaves =>
    intro s f d runs u v leaves gone
    show execFlrComplete f s = _
    refine whenDue_gives_at u runs rfl ?_
    rw [if_pos leaves]
    exact if_neg (by rw [gone]; decide)
  case vfClear =>
    intro s p up enabled noFlr
    show execVfEnableClear p s = _
    exact whenUp_gives up (if_pos (by rw [enabled, decide_eq_true noFlr]; rfl))
  case vfSet =>
    intro s p n up port there noFlr few
    show execVfEnableSet p n s = _
    refine whenUp_gives up (if_neg ?_)
    rw [there]
    simp only [Bool.not_true, Bool.false_eq_true, false_or]
    omega
  case unmask =>
    intro s f v up there noFlr known
    show execMsixUnmask f v s = _
    exact whenUp_gives up (if_neg (by simp [there, noFlr, known]))

end Sys2Proof.Proofs.HostRows
end

section
/-! Resets and power modes, the e-fuse channels, the attached-device slot, sensors and the pace governor (R33 to R43, R389, R426 to R447, R452
to R464, R490 to R504): each command under the conditions of its rule. -/

namespace Sys2Proof.Proofs.Power

open Sys2Proof.Machine Sys2Proof.Laws Sys2Proof.Claims Sys2Proof.Proofs.Rows

variable {s : State}

/-! ## Device resets -/

/-- Main reset is released once PWROK_MAIN is asserted and no sag holds it (R490, R494). -/
theorem releaseMain_eq (held : s.phase = .mainHeld) (ok : s.pwrok = true) (noSag : s.sagHeld = []) :
    s.releaseMain = ({ s with phase := .starting }.wr .HI_PORT_MODE 1 s.strapHb).armIn .mainUp (ms 50) :=
  if_pos ⟨held, ok, by rw [noSag]; rfl⟩

/-- A warm device reset of a device that runs (R501). -/
theorem warmReset_eq (up : s.phase = .running) (last low : Nat) : s.warmReset last low =
    ((State.wr { s.coreReset true with phase := .starting } .PW_STATUS_LAST_RESET 0 last).incWrap .PW_STATUS_WARMS 0 1).armIn .mainUp
      (low + ms 50) := if_neg (not_not_intro up)

/-- Main power-on reset of a device that runs (R491). -/
theorem mainReset_eq (up : s.phase = .running) (last : Nat) :
    s.mainReset last = State.wr { s.coreReset false with phase := .mainHeld } .PW_STATUS_LAST_RESET 0 last :=
  if_neg (by simp [State.mainRuns, up])

/-- Settles O42: each row by its own effect. -/
theorem powerComplete : Obligations.powerComplete := by
  refine ⟨?aux, ?release, ?pwrok, ?mainUp, ?pwrokLost, ?resetN, ?warm, ?park, ?unpark, ?sag, ?sagEnds, ?sagReset, ?glitch⟩
  case aux => exact fun s => rfl
  case release =>
    intro s mg auto d runs u held
    show execAuxResetRelease mg auto s = _
    exact whenDue_gives_at u runs rfl (if_pos held)
  case pwrok =>
    intro s hb held noSag t
    have notUp : s.phase ≠ .running := by rw [held]; decide
    show execPwrokMainAssert hb s = _
    rw [execPwrokMainAssert, if_neg notUp, releaseMain_eq (s := { s with pwrok := true, strapHb := hb }) held rfl noSag]
    rfl
  case mainUp =>
    intro s d runs u starts
    show execMainResetComplete s = _
    exact whenDue_gives_at u runs rfl (if_pos starts)
  case pwrokLost =>
    intro s up t
    show execPwrokMainDeassert s = _
    rw [execPwrokMainDeassert, if_neg (by rw [up]; decide), mainReset_eq (s := { s with pwrok := false }) up]
    rfl
  case resetN =>
    intro s ns acts up long t
    show execResetNAssert ns acts s = _
    exact whenRef_gives (by rw [up]; decide) ((if_pos long).trans (warmReset_eq up 5 (4 * ns)))
  case warm =>
    intro s up t
    show execPwResetWarm s = _
    exact whenRef_gives (by rw [up]; decide) (warmReset_eq up 6 0)
  case park =>
    intro s up runs ok
    show execParkEnter s = _
    exact whenUp_gives up ((if_neg (by rw [runs]; decide)).trans (if_pos ok))
  case unpark =>
    intro s up parked
    show execParkExit s = _
    exact whenUp_gives up (if_pos parked)
  case sag =>
    intro s x ref clear t
    show execSagWarning x s = _
    exact whenRef_gives ref (if_neg (by rw [clear]; decide))
  case sagEnds =>
    intro s x ref
    show execSagWarningRelease x s = _
    exact whenRef_gives ref rfl
  case sagReset =>
    intro s x ref
    show execSagReset x s = _
    cases x with
    | v12 => exact whenRef_gives ref rfl
    | core => exact whenRef_gives ref rfl
  case glitch =>
    intro s ref
    show execGlitchDetect s = _
    exact whenRef_gives ref rfl

/-! ## Units -/

/-- A per-unit reset, while none runs, of an enabled unit that is not the last catcher (R502, R503). -/
theorem unitReset_eq {kind i : Nat} (known : 1 ≤ kind ∧ kind ≤ 5) (free : s.unitInReset = none) (on : s.rstUnitOn kind i = true)
    (other : kind = 5 → (s.catchersOn.filter fun c => decide (c ≠ i)) ≠ []) :
    s.unitReset kind i = { s.rstEffect kind i with unitInReset := some (kind, i) } := by
  have notLast : ¬ (kind = 5 ∧ (s.catchersOn.filter fun c => decide (c ≠ i)).isEmpty = true) :=
    fun last => other last.1 (List.isEmpty_iff.mp last.2)
  unfold State.unitReset
  rw [if_neg (by omega), free, if_neg (by decide), on, if_neg (by decide), if_neg notLast]

/-- Settles O43: each reset by `unitReset_eq`, a write of PW_EN by R504's check. -/
theorem unitResetsComplete : Obligations.unitResetsComplete := by
  refine ⟨?ferry, ?port, ?quad, ?huddle, ?catcher, ?ends, ?enable⟩
  case ferry =>
    intro s f up free on
    show execUnitResetFerry f s = _
    exact whenUp_gives up (congrArg State.settleAll (unitReset_eq (kind := 1) (i := f) (by decide) free on nofun))
  case port =>
    intro s p up free on
    show execUnitResetPort p s = _
    exact whenUp_gives up (unitReset_eq (kind := 2) (i := p) (by decide) free on nofun)
  case quad =>
    intro s q up free on
    show execUnitResetLaneQuad q s = _
    exact whenUp_gives up (unitReset_eq (kind := 3) (i := q) (by decide) free on nofun)
  case huddle =>
    intro s h up free on
    show execUnitResetHuddle h s = _
    exact whenUp_gives up (congrArg State.settleAll (unitReset_eq (kind := 4) (i := h) (by decide) free on nofun))
  case catcher =>
    intro s c up free on others
    show execUnitResetCatcher c s = _
    exact whenUp_gives up (unitReset_eq (kind := 5) (i := c) (by decide) free on fun _ => others)
  case ends =>
    intro s kind i up runs t
    show execUnitResetComplete s = _
    exact whenUp_gives up (by simp only [State.unitResetOver, runs]; rfl)
  case enable =>
    intro s r w up notOne known old bits new gone back allowed t
    show execPwEnWrite r w s = _
    refine whenUp_gives up ((if_neg (by omega)).trans ?_)
    exact if_neg (by rw [show gone.all (fun k => s.mayClear r k new) = true from allowed]; decide)

/-! ## The slot and the PCIe links -/

/-- Settles O45: each row by its own effect. -/
theorem slotComplete : Obligations.slotComplete := by
  refine ⟨?on, ?off, ?perst, ?settle, ?arrives, ?leaves, ?button, ?freeze, ?release, ?msi, ?request, ?down, ?up, ?timeout⟩
  case on =>
    intro s up slot settled off fet
    show execSlotPwrOn s = _
    exact whenUp_gives up (by simp only [State.slotPwrOn, slot, settled, off, fet, Bool.not_true, Bool.or_self, Bool.false_eq_true, if_false])
  case off =>
    intro s up slot on
    show execSlotPwrOff s = _
    exact whenUp_gives up (by simp only [State.slotPwrOff, slot, on, Bool.not_true, Bool.false_eq_true, if_false, if_true])
  case perst =>
    intro s d runs u slot good
    show execSlotPerstRelease s = _
    exact whenDue_gives_at u runs rfl (if_pos (by rw [slot, good]; rfl))
  case settle =>
    intro s d runs
    show execSettleExpiry s = _
    exact whenDue_gives runs rfl
  case arrives =>
    intro s up slot absent
    show execPresenceChange true s = _
    exact whenUp_gives up (by
      simp only [slot, absent, Bool.not_true, Bool.false_eq_true, decide_false, Bool.or_self, if_false, if_true, Bool.false_and])
  case leaves =>
    intro s up slot present t
    show execPresenceChange false s = _
    exact whenUp_gives up (by
      simp only [slot, present, Bool.not_true, Bool.false_eq_true, Bool.true_eq_false, decide_false, Bool.or_self, if_false, Bool.not_false,
        Bool.true_and]; rfl)
  case button =>
    intro s up slot t
    show execAttentionButton s = _
    exact whenUp_gives up (if_neg (by rw [slot]; decide))
  case freeze =>
    intro s cause up slot least most powered
    have known : ¬ (cause = 0 ∨ 4 < cause) := by omega
    have on : (decide (cause = 4) && !s.flag .HI_SLOT_CTL_PWR_ON) = false := by
      rcases powered with notDown | on
      · rw [decide_eq_false notDown]; rfl
      · rw [on]; exact Bool.and_false _
    show execContainmentFreeze cause s = _
    exact whenUp_gives up (if_neg (by rw [slot, decide_eq_false known, on]; decide))
  case release =>
    intro s up slot
    show execContainmentRelease s = _
    exact whenUp_gives up (if_pos slot)
  case msi =>
    intro s data up live slot active small
    show execAttachedMsiWrite _ data s = _
    exact whenLive_gives up live (by
      simp only [slot, active, small, Bool.not_true, Bool.or_self, Bool.false_eq_true, if_false, ne_eq, not_true_eq_false, if_true])
  case request =>
    intro s up live slot active
    show execAttachedRequest s = _
    exact whenLive_gives up live (if_pos (by rw [slot, active]; rfl))
  case down =>
    intro s p up known mode
    show execPcieLinkDown p s = _
    exact whenUp_gives up ((if_neg (by omega)).trans (if_pos mode))
  case up =>
    intro s p speed width flit up known ok mode
    show execPcieLinkUp p speed width flit s = _
    refine whenUp_gives up ((if_neg ?_).trans (if_pos mode))
    rw [ok]
    simp only [Bool.not_true, Bool.false_eq_true, or_false]
    omega
  case timeout =>
    intro s id d x runs u known f v
    show execCompletionTimeout id s = _
    exact whenDue_gives_at u runs rfl (by simp only [known]; rfl)

/-! ## The e-fuse channels -/

/-- Settles O46: each row by its own effect. -/
theorem efuseComplete : Obligations.efuseComplete := by
  refine ⟨?on, ?off, ?above, ?below, ?fast, ?timer, ?hot, ?fail, ?model, ?regulation⟩
  case on =>
    intro s c ref owned off fet
    show execEfCommandOn c s = _
    exact whenRef_gives ref (by
      simp only [State.writeEfCtl, owned, off, fet, Bool.not_true, Bool.false_eq_true, decide_false, Bool.or_self, if_false, if_true])
  case off =>
    intro s c ref owned on
    show execEfCommandOff c s = _
    exact whenRef_gives ref (by
      simp only [State.writeEfCtl, owned, on, Bool.not_true, Bool.true_eq_false, Bool.false_eq_true, decide_false, Bool.or_self, if_false])
  case above =>
    intro s c ref known ramps t
    show execEfGateAbove8v c s = _
    exact whenRef_gives ref (if_neg (by simp [ramps, known]))
  case below =>
    intro s c ref known
    show execEfGateBelow7v5 c s = _
    exact whenRef_gives ref (if_pos known)
  case fast =>
    intro s c ref known _
    show execEfFastTrip c s = _
    exact whenRef_gives ref (if_pos known)
  case timer =>
    intro s c d runs known
    show execEfTimerTrip c s = _
    exact whenDue_gives runs (if_pos known)
  case hot =>
    intro s c ref known hot
    show execEfFetOtTrip c s = _
    exact whenRef_gives ref (if_pos ⟨known, hot⟩)
  case fail =>
    intro s c ref known off clear
    show execEfFetFail c s = _
    refine whenRef_gives ref (if_neg ?_)
    rw [clear]
    simp only [Bool.false_eq_true, or_false]
    omega
  case model =>
    intro s c vin vout iout diode ref known
    show execEfModelUpdate c vin vout iout diode s = _
    exact whenRef_gives ref (if_pos known)
  case regulation =>
    intro s c on ref known
    show execEfRegulation c on s = _
    exact whenRef_gives ref (if_pos known)

/-! ## Sensors and the governor -/

/-- Thresholds of which CRIT is not nearer to normal than WARN are taken (R464). -/
theorem writeSensThr_eq {i v : Nat}
    (ordered : let c := signedOf 16 (Fld.of .MG_SENS_THR_CRIT v)
      let w := signedOf 16 (Fld.of .MG_SENS_THR_WARN v)
      if Fld.of .MG_SENS_THR_LOW v = 1 then c ≤ w else w ≤ c) :
    s.writeSensThr i v =
      let t := s.setFields i v [.MG_SENS_THR_CRIT, .MG_SENS_THR_WARN, .MG_SENS_THR_LOW]
      if (t.sensAt.look i).isSome then t.sensorJudge i (t.rd .MG_SENS_VALUE i) else t := by
  refine if_neg ?_
  split at ordered
  case isTrue low => rw [if_pos low]; exact Int.not_lt.mpr ordered
  case isFalse high => rw [if_neg high]; exact Int.not_lt.mpr ordered

/-- Bounds and a fixed voltage that fit are taken (R43). -/
theorem writePaceCtl_eq {v : Nat} (lo : 660 ≤ Fld.of .PW_PACE_CTL_FLOOR_MV v) (hi : 680 ≤ Fld.of .PW_PACE_CTL_CEIL_MV v)
    (top : Fld.of .PW_PACE_CTL_CEIL_MV v ≤ 900) (above : Fld.of .PW_PACE_CTL_FLOOR_MV v ≤ Fld.of .PW_PACE_CTL_FIXED_MV v)
    (below : Fld.of .PW_PACE_CTL_FIXED_MV v ≤ Fld.of .PW_PACE_CTL_CEIL_MV v) :
    s.writePaceCtl v =
      s.setFields 0 v [.PW_PACE_CTL_FLOOR_MV, .PW_PACE_CTL_CEIL_MV, .PW_PACE_CTL_FIXED_MV, .PW_PACE_CTL_TARGET, .PW_PACE_CTL_MODE] :=
  if_neg (by omega)

/-- Settles O47: each row by its own effect. -/
theorem sensorsComplete : Obligations.sensorsComplete := by
  refine ⟨?reading, ?fails, ?thr, ?untimed, ?timed, ?ack, ?timeout, ?clear, ?ctl, ?gradient⟩
  case reading =>
    intro s i v ref known
    show execSensorReading i v s = _
    exact whenRef_gives ref (if_pos known)
  case fails =>
    intro s i ref known
    show execSensorFail i s = _
    exact whenRef_gives ref (if_neg (by omega))
  case thr =>
    intro s i v ref known c w ordered t
    show execMgSensThrWrite i v s = _
    exact whenRef_gives ref ((if_pos known).trans (writeSensThr_eq ordered))
  case untimed =>
    intro s rs ref untimed
    show execPaceEvaluation rs s = _
    exact whenRef_gives ref (by simp only [untimed])
  case timed =>
    intro s rs d ref timed
    show execPaceEvaluation rs s = _
    exact whenRef_gives ref (by simp only [timed]; rfl)
  case ack =>
    intro s ref asked
    show execAvsAck s = _
    exact whenRef_gives ref (if_neg (by
      obtain ⟨a, isAsked⟩ := Option.isSome_iff_exists.mp asked
      rw [isAsked]; exact Bool.false_ne_true))
  case timeout =>
    intro s d a runs u asked
    show execAvsTimeout s = _
    exact whenDue_gives_at u runs rfl (by simp only [asked]; rfl)
  case clear =>
    intro s ref
    show execAvsFailClear s = _
    exact whenRef_gives ref rfl
  case ctl =>
    intro s v ref lo hi fx least low top above below
    show execPwPaceCtlWrite v s = _
    exact whenRef_gives ref (writePaceCtl_eq least low top above below)
  case gradient =>
    intro s r ref known
    refine ⟨?warning, ?fault⟩
    case warning =>
      show execPaceGradientWarning r s = _
      exact whenRef_gives ref (if_neg (by omega))
    case fault =>
      show execPaceGradientFault r s = _
      exact whenRef_gives ref (if_pos known)

end Sys2Proof.Proofs.Power
end

section
/-! The crossing, the link layer and the lanes (R273 to R350): each command under the conditions of its rule. -/

namespace Sys2Proof.Proofs.Links

open Sys2Proof.Machine Sys2Proof.Laws Sys2Proof.Claims Sys2Proof.Proofs.Rows

variable {s : State}

/-! ## The crossing -/

/-- The packet of an output VC that does not fit the output is dropped (R280, R288). -/
theorem cutThrough_unfit {out v id sub : Nat} {l : Leg} (up : s.portUp out = true) (unfit : s.unfit out v = some (id, l, sub)) :
    s.cutThrough out v = s.dropLeg id l sub := by
  simp only [State.cutThrough, up, unfit, Bool.not_true, Bool.false_eq_true, if_false]

/-- The copy of the input that the output has granted starts (R278, R315). -/
theorem cutThrough_granted {out v i id : Nat} {t : Transit} {l : Leg} (up : s.portUp out = true) (fits : s.unfit out v = none)
    (asks : ((s.asking out).find? fun a => decide (s.granted out = some a.1 ∧ a.2.1 = v)) = some (i, v, id))
    (inside : s.transit.look id = some t) (copy : t.leg out = some l) : s.cutThrough out v = s.startLeg out v id t l := by
  simp only [State.cutThrough, up, fits, asks, inside, copy, Bool.not_true, Bool.false_eq_true, if_false]

/-- Settles O35: each row by its own effect. -/
theorem routingComplete : Obligations.routingComplete := by
  refine ⟨?network, ?internal, ?starts, ?drops, ?mgDrop, ?notice⟩
  case network =>
    intro s inPort pkt i1 i2 id up live port undecided
    show execRouterHeaderArrival inPort pkt i1 i2 s = _
    exact whenLive_gives up live ((if_pos port).trans (by simp only [undecided]))
  case internal =>
    intro s inPort pkt i1 i2 up live least most offered t
    show execRouterHeaderArrival inPort pkt i1 i2 s = _
    exact whenLive_gives up live ((if_neg (by omega)).trans (if_pos (by rw [decide_eq_true most, offered]; rfl)))
  case starts =>
    intro s out v i id t l up live port vc portUp fits asks inside copy
    show execCutThroughStart out v s = _
    exact whenLive_gives up live ((if_pos ⟨port, vc⟩).trans (cutThrough_granted portUp fits asks inside copy))
  case drops =>
    intro s out v id l sub up live port vc portUp unfit
    show execCutThroughStart out v s = _
    exact whenLive_gives up live ((if_pos ⟨port, vc⟩).trans (cutThrough_unfit portUp unfit))
  case mgDrop =>
    intro s out v id rest l up live port least most queue copy
    show execMgDropExpiry out v s = _
    exact whenLive_gives up live ((if_pos ⟨port, least, most⟩).trans (by simp only [State.mgDrop, queue, copy]))
  case notice =>
    intro s p n r up live notices d t rest
    show execNoticeReceive p n s = _
    exact whenLive_gives up live (by simp only [notices, if_true]; rfl)

/-! ## Flits -/

/-- A flit that a port takes from its half of a codeword is handed on where its row is for its type (R308). -/
theorem onFlit_eq {p : Nat} {c : CodeHalf} {f : Flit} {u : State} (arrives : FlitIn s p c f u) {ok : Flit → Bool}
    (run : State → Flit → State) (isFor : ok f = true) : s.onFlit p c ok run = run u f := by
  obtain ⟨next, fixed, taken, after⟩ := arrives.half
  simp only [State.onFlit, taken, isFor, if_true, after]

/-- A flit whose CRC fails is counted, and lost at a port that is up (R310, R313). -/
theorem onBadFlit_eq {p next : Nat} {c : CodeHalf} {fixed : Option Nat} (taken : s.takeHalf p c = some (next, fixed, .bad)) :
    s.onBadFlit p c =
      let t := (s.halfTaken p c next fixed).count (posUnit p) 8
      if t.portState p = psUp then t.flitLost p else t := by
  simp only [State.onBadFlit, taken]

/-- A CREDIT flit gives its counts (R316); its sequence number may show that a flit was lost (R313). -/
theorem flitIn_credit {p : Nat} {f : Flit} {cs : List Nat} (credit : f.pay = .credit cs) :
    s.flitIn p f =
      let t := s.flitHeader p f
      let d := seqDist (t.rd .LL_PORT_STATE_RX_EXP p) f.fseq
      (if 0 < d ∧ d < 2048 then t.flitLost p else t).updLink p fun k => {
        k with retU := ⟨cs.zipIdx.map fun c => (c.2, c.1 % 65536)⟩ } := by
  simp only [State.flitIn, State.flitOk, flitSeq, credit, Bool.not_true, Bool.false_eq_true, if_false]

/-- Settles O36: a flit of each type is taken by `onFlit_eq`. -/
theorem flitsComplete : Obligations.flitsComplete := by
  refine ⟨?transmit, ?data, ?bad, ?credit, ?hello, ?train, ?time⟩
  case transmit =>
    intro s p up live runs
    show execFlitTransmit p s = _
    exact whenLive_gives up live (if_pos runs)
  case data =>
    intro s p c f u arrives sequenced portUp
    show execDataFlitReceive p c s = _
    have taken := onFlit_eq arrives (ok := fun f => flitSeq f.pay) (fun s f => if s.portState p = psUp then s.flitIn p f else s) sequenced
    refine whenLive_gives arrives.up arrives.live ((if_neg (by rw [arrives.runs]; decide)).trans ?_)
    obtain ⟨next, fixed, half, _⟩ := arrives.half
    rw [half]
    exact taken.trans (if_pos portUp)
  case bad =>
    intro s p c next fixed up live runs taken t
    show execDataFlitReceive p c s = _
    refine whenLive_gives up live ((if_neg (by rw [runs]; decide)).trans ?_)
    rw [taken]
    exact onBadFlit_eq taken
  case credit =>
    intro s p c f u cs arrives portUp credit t d
    have isFor : isCredit f.pay = true := by rw [credit]; rfl
    show execCreditFlitReceive p c s = _
    refine whenLive_gives arrives.up arrives.live ((if_pos arrives.runs).trans ?_)
    rw [onFlit_eq arrives (ok := fun f => isCredit f.pay) (fun s f => if s.portState p = psUp then s.flitIn p f else s) isFor, if_pos portUp]
    exact flitIn_credit credit
  case hello =>
    intro s p c f u h arrives hello t
    have isFor : isHello f.pay = true := by rw [hello]; rfl
    show execHelloReceive p c s = _
    refine whenLive_gives arrives.up arrives.live ((if_neg (by rw [arrives.runs]; decide)).trans ?_)
    exact (onFlit_eq arrives (ok := fun f => isHello f.pay) _ isFor).trans (by simp only [hello]; rfl)
  case train =>
    intro s p c f u t arrives train
    have isFor : isTrain f.pay = true := by rw [train]; rfl
    show execTrainFlitReceive p c s = _
    refine whenLive_gives arrives.up arrives.live ((if_neg (by rw [arrives.runs]; decide)).trans ?_)
    exact (onFlit_eq arrives (ok := fun f => isTrain f.pay) _ isFor).trans (by simp only [train])
  case time =>
    intro s p c f u t arrives portUp time
    have isFor : isTime f.pay = true := by rw [time]; rfl
    show execTimeFlitReceive p c s = _
    refine whenLive_gives arrives.up arrives.live ((if_neg (by rw [arrives.runs]; decide)).trans ?_)
    exact (onFlit_eq arrives (ok := fun f => isTime f.pay) _ isFor).trans (by simp only [time, portUp, if_true])

/-! ## Timers of the link layer -/

/-- Settles O37: each timer runs, and its port is in the state that it is for. -/
theorem linkTimersComplete : Obligations.linkTimersComplete := by
  refine ⟨?replay, ?nack, ?hello, ?hold, ?train, ?retrain, ?drain, ?lock, ?rfail⟩
  case replay =>
    intro s p d runs u portUp
    show execReplayTimeout p s = _
    exact whenDue_gives_at u runs rfl (if_pos portUp)
  case nack =>
    intro s p d runs u portUp sent
    show execNackRepeatTimeout p s = _
    exact whenDue_gives_at u runs rfl (if_pos ⟨portUp, sent⟩)
  case hello =>
    intro s p d runs u notUp notDisabled
    show execHelloRepeat p s = _
    exact whenDue_gives_at u runs rfl (if_neg (not_or.mpr ⟨notUp, notDisabled⟩))
  case hold =>
    intro s p d runs u holds
    show execHoldExpiry p s = _
    exact whenDue_gives_at u runs rfl (if_pos holds)
  case train =>
    intro s p d t runs u portUp asked
    show execTrainReqRepeat p s = _
    exact whenDue_gives_at u runs rfl ((if_pos portUp).trans (by simp only [asked]))
  case retrain =>
    intro s p d runs u retrains
    show execRetrainLimitExpiry p s = _
    exact whenDue_gives_at u runs rfl (if_pos retrains)
  case drain =>
    intro s p d runs u disabling
    show execPortDisableDrainEnd p s = _
    exact whenDue_gives_at u runs rfl (if_pos disabling)
  case lock =>
    intro s p t up lost
    show execPortDown p dcLock s = _
    exact whenUp_gives up ((if_pos rfl).trans (by simp only [lost]))
  case rfail =>
    intro s p up portUp fails
    show execPortDown p dcReplay s = _
    exact whenUp_gives up ((if_neg (by decide)).trans (if_pos ⟨rfl, portUp, fails⟩))

/-! ## Lanes -/

/-- A recalibration that is due, on a port of width 1 that is up and undisturbed, asks for a retrain (R345, R346). -/
theorem recalAsk_eq {l p : Nat} (port : s.portOfLane l = some p) (due : s.recalDue l = true) (up : s.portState p = psUp)
    (inGroup : (s.link p).group.contains l = true) (noReq : (s.link p).trainReq = none) (noRecal : (s.link p).recal = none)
    (whole : (s.confLanes p).any (fun k => s.flag .LN_LANE_STATUS_FAILED k) = false) (limit : 2000 ≤ s.rd .LL_TIMERS_RETRAIN_LIMIT)
    (narrow : s.rd .LL_PORT_STATE_WIDTH p = 0) :
    s.recalAsk l =
      (s.updLane l fun x => { x with deferred := false, lastFull := s.now }).askRetrain p 0 (s.rd .LL_PORT_STATE_RATE p) 2 := by
  have longEnough : ¬ s.rd .LL_TIMERS_RETRAIN_LIMIT < 2000 := by omega
  simp only [State.recalAsk, port, due, up, inGroup, noReq, noRecal, whole, longEnough, narrow, Bool.not_true, ne_eq, not_true_eq_false,
    decide_false, Bool.or_self, Option.isSome_none, Bool.false_eq_true, if_false, if_true]

/-- A port that is up narrows to a group that keeps its lock (R347). -/
theorem narrow_eq {p : Nat} {lost : List Nat} (narrows : peNarrow (s.portEntry p) = true) (up : s.portState p = psUp)
    (wide : s.rd .LL_PORT_STATE_WIDTH p ≠ 0)
    (some_ : (lost.filter fun l => (s.link p).group.contains l && !s.flag .LN_LANE_STATUS_LOCK l) ≠ [])
    (keeps : ((s.groups p (s.rd .LL_PORT_STATE_WIDTH p - 1)).any fun g =>
      g.all fun l => (s.link p).group.contains l && s.flag .LN_LANE_STATUS_LOCK l) = true) :
    s.narrow p lost =
      let ls := lost.filter fun l => (s.link p).group.contains l && !s.flag .LN_LANE_STATUS_LOCK l
      let t := ls.foldl (fun s l => ((s.wr .LN_LANE_STATUS_FAILED l 1).wr .LN_LANE_STATUS_PSTATE l 1).laneStop l) s
      let held := (s.link p).group.all fun l => ls.contains l || s.flag .LN_LANE_STATUS_LOCK l
      let u := (t.updLink p fun k => { k with lostAt := if held then none else k.lostAt, recal := none }).logRec 1 0x05 .laneFailed p ls
      u.askRetrain p (u.reachWidth p (s.rd .LL_PORT_STATE_WIDTH p - 1)) (u.rd .LL_PORT_STATE_RATE p) 1 := by
  have nonempty : (lost.filter fun l => (s.link p).group.contains l && !s.flag .LN_LANE_STATUS_LOCK l).isEmpty = false :=
    Bool.eq_false_iff.mpr fun empty => some_ (List.isEmpty_iff.mp empty)
  simp only [State.narrow, nonempty, narrows, up, wide, keeps, decide_false, decide_true, Bool.not_true, Bool.or_self, Bool.true_or,
    Bool.and_self, Bool.false_eq_true, if_false, if_true]

/-- Settles O38: each row by its own effect. -/
theorem lanesComplete : Obligations.lanesComplete := by
  refine ⟨?gain, ?loss, ?frame, ?request, ?fast, ?full, ?recal, ?narrow, ?reads, ?checker⟩
  case gain =>
    intro s l up on idle t
    have guard : ¬ ((!s.laneOn l || (s.lane l).training) = true) := by rw [on, idle]; decide
    refine ⟨fun alone => ?_, fun p port => ?_⟩
    · show execFecLockGain l s = _
      refine whenUp_gives up ((if_neg guard).trans ?_)
      show (match t.portOfLane l with | none => t | some p => _) = _
      rw [alone]
    · show execFecLockGain l s = _
      refine whenUp_gives up ((if_neg guard).trans ?_)
      show (match t.portOfLane l with | none => t | some p => _) = _
      rw [port]
  case loss =>
    intro s l up on locked t
    have guard : ¬ ((!s.laneOn l || !s.flag .LN_LANE_STATUS_LOCK l) = true) := by rw [on, locked]; decide
    refine ⟨fun alone => ?_, fun p port inGroup fresh portUp => ?_⟩
    · show execFecLockLoss l s = _
      refine whenUp_gives up ((if_neg guard).trans ?_)
      show (match t.portOfLane l with | none => t | some p => _) = _
      rw [alone]
    · show execFecLockLoss l s = _
      refine whenUp_gives up ((if_neg guard).trans ?_)
      show (match t.portOfLane l with | none => t | some p => _) = _
      rw [port]
      exact if_pos (by rw [inGroup, fresh, portUp]; rfl)
  case frame =>
    intro s l w f up on frame
    show execTrainingFrameReceive l w s = _
    exact whenUp_gives up (by simp only [frame, on, if_true])
  case request =>
    intro s l d runs u trains asked
    show execLaneRequestRepeat l s = _
    exact whenDue_gives_at u runs rfl (if_pos (by rw [trains, asked]; rfl))
  case fast =>
    intro s l d runs u trains
    show execFastPathTimeout l s = _
    exact whenDue_gives_at u runs rfl (if_pos trains)
  case full =>
    intro s l d runs u trains alone
    show execFullTrainingRestart l s = _
    exact whenDue_gives_at u runs rfl (by simp only [State.laneAgain, trains, alone, Bool.not_true, Bool.false_eq_true, if_false])
  case recal =>
    intro s l p up live on port due portUp inGroup noReq noRecal whole limit narrow
    show execRecalRequest l s = _
    exact whenLive_gives up live ((if_pos on).trans (recalAsk_eq port due portUp inGroup noReq noRecal whole limit narrow))
  case narrow =>
    intro s p lost up live on narrows portUp wide ls some_ keeps t held u
    show execLaneFailureNarrow p lost s = _
    exact whenLive_gives up live ((if_pos on).trans (narrow_eq narrows portUp wide some_ keeps))
  case reads =>
    intro s l up known
    refine ⟨?ser, ?prbs⟩
    case ser =>
      show execLnLaneSerRead l s = _
      exact whenUp_gives up (if_pos known)
    case prbs =>
      show execLnLanePrbsRead l s = _
      exact whenUp_gives up (if_pos known)
  case checker =>
    intro s l up on checks alone
    show execPrbsCheckerLock l s = _
    exact whenUp_gives up (if_pos (by rw [on, checks, alone]; rfl))

end Sys2Proof.Proofs.Links
end

section
/-! Machine time, the management agent, images and Iamel's resets (R49, R54, R288, R351 to R361, R449 to R462, R488, R501): each command under
the conditions of its rule. -/

namespace Sys2Proof.Proofs.Agent

open Sys2Proof.Machine Sys2Proof.Laws Sys2Proof.Claims Sys2Proof.Proofs.Rows

variable {s : State}

/-! ## The management agent's packets -/

/-- The agent takes an MG packet while it has room (R288). -/
theorem mgTake_eq (f : State → State) (room : s.mgRoom = true) : s.mgTake f = f s := if_pos room

/-- A credential that holds is accepted, and its counter kept (R54). -/
theorem checkCred_eq {c : Cred} {covered : List Byte} (holds : s.credOk c covered = true) : s.checkCred c covered = (s.useCred c, 0) :=
  if_pos holds

/-! ## Machine time -/

/-- A job's WHISTLE packet whose session is the job's and that verifies is taken (R358). -/
theorem whistle_checks {p : Packet} {w : Schedule} (type_ : p.ptype = 0x46) (fits : Packet.mgOk p = true) (line : w.line < 16) :
    ¬ (p.ptype ≠ 0x46 ∨ (!true) = true ∨ (!Packet.mgOk p) = true ∨ 16 ≤ w.line) := by
  rw [fits]
  rintro (other | other | other | large)
  · exact other type_
  · cases other
  · cases other
  · omega

/-- An edge that is in place beside the reference that runs, once the servo has chosen, moves the time by at most 4 ticks, or the device does not
follow itself. -/
theorem edge_settled {self : Bool} {off : Int} (near : self = true → off.natAbs ≤ 4) : (self && decide (4 < off.natAbs)) = false := by
  cases self with
  | false => rfl
  | true => exact decide_eq_false (Nat.not_lt.mpr (near rfl))

/-- The meaning of an edge of the reference where machine time follows it. -/
theorem execPpsEdge_eq (ref : s.phase ≠ .auxHeld) (enabled : s.flag .MT_CFG_EXT_EN = true) : execPpsEdge s =
    let good := match s.servo.pps with
      | some t => decide (s.now ≤ t + sec 1 + us 1 ∧ t + sec 1 ≤ s.now + us 1)
      | none => false
    let u : State := { s with servo := { s.servo with pps := some s.now } }
    if !good then u.fin
    else
      let v : State := { u with servo := { u.servo with ext := true } }
      let off : Int := (ppsTarget v.now (v.rd .MT_CFG_EXT_OFFSET) : Int) - v.now
      let t := (v.armIn .extRef (sec 2)).chooseTime
      if t.servo.self && decide (4 < off.natAbs) then
        let t := t.takeOffset off
        { t with servo := { t.servo with pps := some t.now } }.fin
      else t.fin := if_neg (by rw [enabled]; exact not_or.mpr ⟨ref, by decide⟩)

/-- Settles O39: each row by its own effect. -/
theorem timeRowsComplete : Obligations.timeRowsComplete := by
  refine ⟨?firstEdge, ?nextEdge, ?lost, ?parent, ?holdover, ?jobWhistle, ?fmWhistle, ?fire, ?capture, ?output, ?cfg, ?reads, ?line⟩
  case firstEdge =>
    intro s ref enabled fresh
    show execPpsEdge s = _
    rw [execPpsEdge_eq ref enabled, fresh]
    rfl
  case nextEdge =>
    intro s b ref enabled earlier late early t near
    show execPpsEdge s = _
    rw [execPpsEdge_eq ref enabled, earlier]
    have good : decide (s.now ≤ b + sec 1 + us 1 ∧ b + sec 1 ≤ s.now + us 1) = true := decide_eq_true ⟨late, early⟩
    show (if (!decide (s.now ≤ b + sec 1 + us 1 ∧ b + sec 1 ≤ s.now + us 1)) = true then _ else _) = _
    rw [good]
    exact if_neg (Bool.eq_false_iff.mp (edge_settled near))
  case lost =>
    intro s d runs u
    show execExtReferenceLoss s = _
    exact whenDue_gives_at u runs rfl rfl
  case parent =>
    intro s d runs u has
    show execParentLoss s = _
    exact whenDue_gives_at u runs rfl (if_neg has)
  case holdover =>
    intro s d runs u holds v kept t
    show execHoldoverExpiry s = _
    exact whenDue_gives_at u runs rfl (if_neg (not_not_intro holds))
  case jobWhistle =>
    intro s p mc ses ctr tag w up live room body type_ fits line jobs byJob session verifies
    show execWhistlePacketReceive p s = _
    refine whenLive_gives up live ((mgTake_eq _ room).trans ?_)
    rw [body]
    refine (if_neg (whistle_checks type_ fits line)).trans ((if_pos jobs).trans ?_)
    rw [if_neg (by rw [byJob, decide_eq_false (not_not_intro session)]; decide), if_neg (by rw [verifies]; decide)]
  case fmWhistle =>
    intro s p mc ses ctr tag w up live room body type_ fits line managers byJob holds
    show execWhistlePacketReceive p s = _
    refine whenLive_gives up live ((mgTake_eq _ room).trans ?_)
    rw [body]
    refine (if_neg (whistle_checks type_ fits line)).trans ((if_neg (by rw [managers]; decide)).trans ?_)
    rw [checkCred_eq holds]
    exact if_neg (by rw [byJob]; decide)
  case fire =>
    intro s line x next t
    show execWhistleFire line s = _
    simp only [execWhistleFire, next]
    rfl
  case capture =>
    intro s k rising up pin mode q
    have guard : ¬ (4 ≤ k ∨ (!((decide (s.rd .MT_TRIG_CFG_MODE k = 1) && rising) || (decide (s.rd .MT_TRIG_CFG_MODE k = 2) && !rising)
        || decide (s.rd .MT_TRIG_CFG_MODE k = 3))) = true) := by
      rw [mode]
      exact not_or.mpr ⟨by omega, by simp⟩
    refine ⟨fun full => ?_, fun room => ?_⟩
    · show execTrigCaptureEdge k rising s = _
      exact whenUp_gives up ((if_neg guard).trans (if_pos full))
    · show execTrigCaptureEdge k rising s = _
      exact whenUp_gives up ((if_neg guard).trans (if_neg (Nat.not_le.mpr room)))
  case output =>
    intro s k t up pin next
    show execTrigOutputFire k s = _
    exact whenUp_gives up ((if_neg (by omega)).trans (by rw [next]))
  case cfg =>
    intro s k v up pin
    show execMtTrigCfgWrite k v s = _
    exact whenUp_gives up (if_pos pin)
  case reads =>
    intro s k up pin
    refine ⟨?stamp, ?stat⟩
    case stamp =>
      show execMtTrigCapRead k s = _
      exact whenUp_gives up (if_pos pin)
    case stat =>
      show execMtTrigStatRead k s = _
      exact whenUp_gives up (if_pos pin)
  case line =>
    intro s w up known
    show execMtLineRead w s = _
    exact whenUp_gives up (if_pos known)

/-! ## Management -/

/-- A CMD of Iamel whose entry can be read starts while there is room (R450). -/
theorem welrirel_eq {req : Nat} {msg tr : List Byte} {op : PrivOp} {p : Priv} (entry : msgEntry msg 4 = some (op, p, tr))
    (room : s.cmds.length < 8) (up : s.phase = .running) : s.welrirel req msg =
      s.runPriv (.iamel req) op p { msg := msg, trailer := tr } fun s => s.privBody op (.iamel req) p { msg := msg, trailer := tr } := by
  have starts : ¬ (8 ≤ s.cmds.length ∨ s.phase ≠ .running) := not_or.mpr ⟨by omega, not_not_intro up⟩
  simp only [State.welrirel, entry, starts, if_false]

/-- An MG-CMD whose credential holds starts its entry (R288). -/
theorem mgCommand_eq {pkt : Packet} {c : Cred} {msg tr : List Byte} {op : PrivOp} {p : Priv}
    (holds : s.credOk c (Packet.mgCovered pkt) = true) (entry : msgEntry msg 0 = some (op, p, tr)) : s.mgCommand pkt c msg =
      (s.useCred c).runPriv (.mg c.session c.counter (pkt.src / 4096)) op p { msg := msg, trailer := tr } fun s =>
        s.privBody op (.mg c.session c.counter (pkt.src / 4096)) p { msg := msg, trailer := tr } := by
  simp only [State.mgCommand, checkCred_eq holds, entry]

/-- A TELEMETRY request in range whose credential holds is answered (R488). -/
theorem telemetry_eq {pkt : Packet} {c : Cred} {op first n : Nat} (on : s.iamelUp = true)
    (holds : s.credOk c (Packet.mgCovered pkt) = true) (known : op = 1 ∨ op = 2) (least : 1 ≤ n) (most : n ≤ 64) (inside : first + n ≤ 295) :
    s.telemetry pkt c op first n =
      let t := s.useCred c
      t.sendAuth c.session {
        ptype := 0x47, cls := 3, dest := pkt.src, src := t.nodeId * 4096 + 0xFFF, ts := t.now % 2 ^ 32, length := 8 + 32 * n,
        body := .mg none true c.session c.counter []
          (.telemetryReply op first n ((List.range (4 * n)).map fun k => t.teleEntry op (4 * first + k))) } := by
  have ranges : ¬ (op = 0 ∨ 2 < op ∨ n = 0 ∨ 64 < n ∨ 295 < first + n) := by omega
  simp only [State.telemetry, on, checkCred_eq holds, ranges, Bool.not_true, Bool.false_eq_true, if_false]

/-- The checks of an authenticated MG packet of its row's type pass (R288). -/
theorem mg_checks {pkt : Packet} {ty : Nat} (type_ : pkt.ptype = ty) (fits : Packet.mgOk pkt = true) :
    ¬ (pkt.ptype ≠ ty ∨ (!true) = true ∨ (!Packet.mgOk pkt) = true) := by
  rw [fits]
  exact not_or.mpr ⟨not_not_intro type_, by decide⟩

/-- Settles O40: each row by its own effect; the packets' checks by `mg_checks`. -/
theorem managementComplete : Obligations.managementComplete := by
  refine ⟨?welrirel, ?enrolFirst, ?enrolNext, ?logRead, ?flash, ?lost, ?mctp, ?command, ?status, ?telemetry⟩
  case welrirel =>
    intro s msg op p tr on room up kind zero entry src x
    show execWelrirelCmd msg s = _
    refine whenRef_gives on.ref ((if_neg (by rw [on.up]; decide)).trans ((if_pos ⟨kind, zero⟩).trans ?_))
    exact welrirel_eq entry room up
  case enrolFirst =>
    intro s req key token on empty
    show execEnrol req true key token s = _
    exact whenRef_gives on.ref ((if_pos on.up).trans (if_pos empty))
  case enrolNext =>
    intro s t req key token on room granted
    show execEnrol req false key token s = _
    refine whenRef_gives on.ref ((if_pos on.up).trans ((if_neg (by omega)).trans ?_))
    rw [granted]
    rfl
  case logRead =>
    intro s req first n flash on some_ few
    show execLogRead req first n flash s = _
    exact whenRef_gives on.ref ((if_pos on.up).trans (if_neg (by omega)))
  case flash =>
    intro s on flash t
    show execLogFlashCopy s = _
    exact whenRef_gives on.ref (if_pos on.up)
  case lost =>
    intro s ref
    show execMgLogLostRead s = _
    exact whenRef_gives ref rfl
  case mctp =>
    intro s bus eid on known
    have here : ¬ 2 ≤ bus := by omega
    refine ⟨?set, ?get, ?types, ?version⟩
    case set =>
      show execMctpControl bus (.setEid eid) s = _
      exact whenRef_gives on.ref ((if_pos on.up).trans (if_neg here))
    case get =>
      show execMctpControl bus .getEid s = _
      exact whenRef_gives on.ref ((if_pos on.up).trans (if_neg here))
    case types =>
      show execMctpControl bus .types s = _
      exact whenRef_gives on.ref ((if_pos on.up).trans (if_neg here))
    case version =>
      intro t accepted
      show execMctpControl bus (.version t) s = _
      exact whenRef_gives on.ref ((if_pos on.up).trans ((if_neg here).trans (if_pos (List.contains_iff_mem.mpr accepted))))
  case command =>
    intro s pkt mc ses ctr tag msg op p tr up live room body type_ fits holds entry src x
    show execMgCmdReceive pkt s = _
    refine whenLive_gives up live ((mgTake_eq _ room).trans ?_)
    rw [body]
    exact (if_neg (mg_checks type_ fits)).trans (mgCommand_eq holds entry)
  case status =>
    intro s pkt mc ses ctr tag a b c up live room body type_ fits holds
    show execMgStatusReceive pkt s = _
    refine whenLive_gives up live ((mgTake_eq _ room).trans ?_)
    rw [body]
    exact (if_neg (mg_checks type_ fits)).trans (congrArg Prod.fst (checkCred_eq holds))
  case telemetry =>
    intro s pkt mc ses ctr tag op first n up live room body type_ fits holds known least most inside on t
    show execTelemetryRequest pkt s = _
    refine whenLive_gives up live ((mgTake_eq _ room).trans ?_)
    rw [body]
    exact (if_neg (mg_checks type_ fits)).trans (telemetry_eq on holds known least most inside)

/-! ## Images -/

/-- The types of an activation whose procedures start in turn, for one type (R462). -/
theorem liveTypes (t : Nat) : ([t].filter fun k => decide (2 ≤ k)).mergeSort (· ≤ ·) = if 2 ≤ t then [t] else [] := by
  by_cases live : 2 ≤ t
  · rw [List.filter_cons_of_pos (p := fun k => decide (2 ≤ k)) (decide_eq_true live), List.filter_nil, List.mergeSort_singleton, if_pos live]
  · rw [List.filter_cons_of_neg (p := fun k => decide (2 ≤ k)) (by simpa using live), List.filter_nil, List.mergeSort_nil, if_neg live]

/-- The activation of one type, its new slot verified, while no live procedure runs (R459). -/
theorem activateAll_eq {t : Nat} (still : s.live = none) (known : t < 6) (ok : s.slotOk t (1 - s.activeSlot t) = true) :
    s.activateAll [t] =
      let u := (s.activate t).emit (.mgmt mgOk 0)
      if t = 0 then u.iamelReset else if 2 ≤ t then u.liveStart t (u.unitsOf t) [] else u := by
  have one : [t].eraseDups = [t] := rfl
  have verified : ([t].any fun k => decide (6 ≤ k) || !s.slotOk k (1 - s.activeSlot k)) = false := by
    simp only [List.any_cons, List.any_nil, ok, decide_eq_false (Nat.not_le.mpr known), Bool.not_true, Bool.or_self]
  simp only [State.activateAll, one, still, verified, Option.isSome_none, Bool.false_eq_true, if_false, List.foldl_cons, List.foldl_nil,
    liveTypes]
  by_cases zero : t = 0
  · subst zero
    rfl
  · have other : ([t].contains 0) = false := by simpa using Ne.symm zero
    rw [other, if_neg (by decide), if_neg zero]
    by_cases live : 2 ≤ t
    · simp only [live, if_true]
    · simp only [live, if_false]

/-- Settles O41: each row by its own effect. -/
theorem imagesComplete : Obligations.imagesComplete := by
  refine ⟨?reset, ?watchdog, ?confirm, ?update, ?activate, ?step, ?back, ?commit⟩
  case reset =>
    intro s on up
    show execPwResetMgmt s = _
    exact whenRef_gives on.ref (if_pos ⟨on.up, up⟩)
  case watchdog =>
    intro s on up
    have resets : s.mgmtReset = s.iamelReset := if_pos ⟨on.up, up⟩
    show execIamelWatchdogReset s = _
    exact whenRef_gives on.ref ((if_pos on.up).trans (by rw [resets]))
  case confirm =>
    intro s ref trial
    show execTrialConfirm s = _
    exact whenRef_gives ref (if_pos trial)
  case update =>
    intro s t bs c on known container k u
    show execPldmUpdateComponent t bs s = _
    refine whenRef_gives on.ref ((if_pos on.up).trans ?_)
    simp only [State.updateComponent, container, Nat.not_le.mpr known, if_false]
    rfl
  case activate =>
    intro s t up on still known ok u
    show execActivateFirmware [t] s = _
    exact whenUp_gives up ((if_pos on).trans (activateAll_eq still known ok))
  case step =>
    intro s v up on live begun over_ t u
    show execLiveUpdateUnit true s = _
    refine whenUp_gives up ((if_pos on).trans ?_)
    simp only [State.liveNext, live, begun, over_, Bool.not_true, Bool.and_false, Bool.false_eq_true, if_false, if_true]
    rfl
  case back =>
    intro s ref off
    show execMgmtResetComplete s = _
    exact whenRef_gives ref (if_neg (by rw [off]; decide))
  case commit =>
    intro s req t v r g on signed known most active runs
    show execCommit req t v r g s = _
    exact whenRef_gives on.ref ((if_pos on.up).trans (if_pos (by
      rw [signed, decide_eq_true (⟨known, most, active⟩ : t < 6 ∧ v ≤ 256 ∧ v ≤ (s.activeImg t).secver), runs]; rfl)))

end Sys2Proof.Proofs.Agent
end

section
/-! The user commands of a queue (R94, R109 to R141): what a command that may start does, one lemma per kind of command, and its completion. -/

namespace Sys2Proof.Proofs.Commands

open Sys2Proof.Machine Sys2Proof.Laws Sys2Proof.Claims Sys2Proof.Proofs.Rows Sys2Proof.Proofs.QueueRows

variable {s : State} {q : Nat}

/-! ## Starting -/

/-- The entry at the cursor passes its checks and runs (R112). -/
theorem startUser_eq {slots draw : Nat} {c d : Cmd} (h : Starts s q slots c d) : s.startUser q slots c draw =
    match s.runCmd q (index s q) (iteration s q) d draw (fun z => started s z q slots d) with
    | (t, .held w) => t.holdQueue q w
    | (t, .fail k) => t.startFail q (index s q) (iteration s q) slots (cmdDest d) k
    | (t, .run) => ongoing t q
    | (t, .done) => completed s t q := by
  have may : (s.canStart q slots && s.turnOf q) = true := by rw [h.may, h.turn]; rfl
  simp only [State.startUser, State.passDoneEntries, toNext_here h.here, may, if_true]
  simp only [State.startAt, h.free, h.waits, h.passes, h.runs, h.aligned, Bool.false_eq_true, if_false, ne_eq, not_true_eq_false,
    Bool.not_true]
  rfl

variable {slots draw : Nat} {c d : Cmd} {t : State}

/-- A command that starts and goes on. -/
theorem starts_ongoing (h : Starts s q slots c d)
    (run : s.runCmd q (index s q) (iteration s q) d draw (fun z => started s z q slots d) = (t, .run)) :
    (s.whenLive fun s => s.startUser q slots c draw) = .next (ongoing t q).collected :=
  whenLive_gives h.up h.live ((startUser_eq h).trans (by rw [run]))

/-- A command that starts and completes. -/
theorem starts_completed (h : Starts s q slots c d)
    (run : s.runCmd q (index s q) (iteration s q) d draw (fun z => started s z q slots d) = (t, .done)) :
    (s.whenLive fun s => s.startUser q slots c draw) = .next (completed s t q).collected :=
  whenLive_gives h.up h.live ((startUser_eq h).trans (by rw [run]))

/-! ## Control commands -/

/-- A CANCEL of an entry that may be cancelled, or has completed, is started (R139). -/
theorem startCancel_eq {i : Nat} {k : CancelCmd} (note : State → State) (before : idxBefore k.index i = true)
    (first : (s.q q).secondSlot k.index = false)
    (may : ((s.q q).started.all fun e => decide (e.index ≠ k.index) || cancellable e.cmd) = true)
    (noLoop : ((s.q q).loops.all fun l => decide (l.index ≠ k.index)) = true) :
    s.startCancel q i k note =
      ((note s).updQ q fun x => { x with
        cancels := x.cancels ++ [⟨i, k.index,
          if (idxBefore k.index (s.rd .QU_HEAD_HEAD q) || (s.q q).done.any fun d => decide (d.1 = k.index))
            || ((s.q q).started.filter fun e => decide (e.index = k.index)).isEmpty then some .late else none, false⟩] }, .run) := by
  have kinds : (((s.q q).started.filter fun e => decide (e.index = k.index)).any fun e => !cancellable e.cmd) = false := by
    rw [List.any_eq_false]
    intro e named
    obtain ⟨isStarted, same⟩ := List.mem_filter.mp named
    have ok := List.all_eq_true.mp may e isStarted
    rw [decide_eq_false (not_not_intro (of_decide_eq_true same)), Bool.false_or] at ok
    rw [ok]
    exact Bool.false_ne_true
  have loops : ((s.q q).loops.any fun l => decide (l.index = k.index)) = false := by
    rw [List.any_eq_false]
    intro l isThere same
    exact of_decide_eq_true (List.all_eq_true.mp noLoop l isThere) (of_decide_eq_true same)
  simp only [State.startCancel, before, first, kinds, loops, Bool.not_true, Bool.or_self, Bool.and_false, Bool.false_eq_true, if_false]

/-- A wait, its queue reachable, is done where its condition holds, else the queue waits (R94). -/
theorem startWait_eq {w : WaitCmd} (note : State → State) (reach : ¬ (w.kind = .head ∧ (!s.waitQueueOk q (w.object % 65536)) = true)) :
    s.startWait q (index s q) (iteration s q) w note = if s.waitMet w then (note s, .done) else (waiting s q w, .run) := by
  unfold State.startWait
  rw [if_neg reach]
  rfl

/-- A wait command that starts completes, or waits. -/
theorem starts_wait {w : WaitCmd} (h : Starts s q 1 (.wait w) (.wait w))
    (reach : ¬ (w.kind = .head ∧ (!s.waitQueueOk q (w.object % 65536)) = true)) :
    (s.whenLive fun s => s.startUser q 1 (.wait w) 0) =
      .next (if s.waitMet w then completed s (started s s q 1 (.wait w)) q else ongoing (waiting s q w) q).collected := by
  have run := startWait_eq (q := q) (fun z => started s z q 1 (.wait w)) reach
  by_cases met : s.waitMet w = true
  · rw [if_pos met] at run ⊢
    exact starts_completed h run
  · rw [if_neg met] at run ⊢
    exact starts_ongoing h run

/-- A SKIP-IF whose slots are there completes, past what it skips where its condition holds (R136). -/
theorem startSkip_eq {i iter : Nat} {k : SkipCmd} (note : State → State) (there : 1 + k.skip ≤ s.slotsAhead q) :
    s.startSkip q i iter k note =
      if skipCond k.cond (s.tally (tfNum k.tally)) k.value then ((note s).skipAhead q i iter k.skip ((s.q q).inBody i), .done)
      else (note s, .done) := by
  unfold State.startSkip
  rw [if_neg (Nat.not_lt.mpr there)]
  cases skipCond k.cond (s.tally (tfNum k.tally)) k.value <;> rfl

/-- A LOOP whose body is whole and valid starts (R132). -/
theorem runLoop_eq {i : Nat} {k : LoopCmd} {body : List (Nat × Nat)} (whole : s.loopBody q i k = some (body, true)) :
    s.runLoop q i k = (s.startLoop q i k body, .run) := by
  simp only [State.runLoop, whole]

/-- Settles O1: each command starts by `startUser_eq`, and does what its own lemma says. -/
theorem controlCommandsComplete : Obligations.controlCommandsComplete := by
  refine ⟨?nop, ?end_, ?fence, ?add, ?addAfter, ?cancel, ?waitTally, ?waitHead, ?waitTime, ?loop, ?skipNot, ?skips⟩
  case nop =>
    intro s q t h
    show execNop q t s = _
    exact starts_completed h rfl
  case end_ =>
    intro s q t h
    show execEndCmd q t s = _
    exact starts_ongoing h rfl
  case fence =>
    intro s q c h
    show execFence q c s = _
    exact starts_ongoing h rfl
  case add =>
    intro s q c h now
    show execTallyAdd q c s = _
    exact starts_completed h (if_neg (by rw [now]; decide))
  case addAfter =>
    intro s q c h after
    show execTallyAdd q c s = _
    exact starts_ongoing h (if_pos after)
  case cancel =>
    intro s q c h before first may noLoop
    show execCancel q c s = _
    refine starts_ongoing h ?_
    exact startCancel_eq (fun z => started s z q 1 (.cancel c)) before first may noLoop
  case waitTally =>
    intro s q stop lt tt n tmo v w h
    show execWaitTally q stop lt tt n tmo v s = _
    exact starts_wait h (fun head => by cases head.1)
  case waitHead =>
    intro s q stop lt tt n tmo v w h reach
    show execWaitHead q stop lt tt n tmo v s = _
    exact starts_wait h (fun head => by
      have foreign := head.2
      rw [show s.waitQueueOk q (w.object % 65536) = true from reach] at foreign
      cases foreign)
  case waitTime =>
    intro s q lt v w h
    show execWaitTime q lt v s = _
    exact starts_wait h (fun head => by cases head.1)
  case loop =>
    intro s q c body h whole
    show execLoop q c s = _
    exact starts_ongoing h (runLoop_eq whole)
  case skipNot =>
    intro s q c h there fails
    show execSkipIf q c s = _
    refine starts_completed h ?_
    exact (startSkip_eq (fun z => started s z q 1 (.skipIf c)) there).trans (if_neg (by rw [fails]; decide))
  case skips =>
    intro s q c h there holds
    show execSkipIf q c s = _
    refine starts_completed h ?_
    exact (startSkip_eq (fun z => started s z q 1 (.skipIf c)) there).trans (if_pos holds)

/-! ## Operations toward an endpoint -/

/-- An operation whose entry, landing units and context are there, and whose start translates, goes out. -/
theorem startOp_eq {dest land x : Nat} {u v : State} {pre : State → State × Option Nat} (note : State → State) (mk : Nat → Nat → MEntry)
    (takes : Takes s q dest land u x) (translates : pre u = (v, none)) : s.startOp q dest land note pre mk =
      (launched (note v) (mk x (freeMtag (v.manifest.keys ++ v.stale.map (·.2)))), .run) := by
  have enough : ¬ s.landFree < land := Nat.not_lt.mpr takes.room
  simp only [State.startOp, takes.entry, enough, takes.ctx, translates, Bool.not_true, decide_false, Bool.or_self, Bool.false_eq_true, if_false]
  rfl

/-- A PUT goes out (R115). -/
theorem startPut_eq {i iter x : Nat} {k : XferCmd} {u : State} (note : State → State) (takes : Takes s q k.dest 0 u x) :
    s.startPut q i iter k note =
      (launched (note u)
        { s.opEntry q i iter x (.oneSided 0x08 k.rlx false false false 0 k.rtally k.key k.length k.roff 0) k.length k.laddr with
          ord := k.ord, rlx := k.rlx }, .run) := by
  unfold State.startPut
  exact startOp_eq note _ takes rfl

/-- A PUTI goes out with its data (R117). -/
theorem startPuti_eq {i iter x : Nat} {k : PutiCmd} {u : State} (note : State → State) (takes : Takes s q k.dest 0 u x) :
    s.startPuti q i iter k note =
      (launched (note u)
        { s.opEntry q i iter x (.oneSided 0x09 k.rlx false false false 0 0 k.key k.data.length k.roff 0) k.data.length 0 with
          ord := k.ord, rlx := k.rlx, data := k.data }, .run) := by
  unfold State.startPuti
  exact startOp_eq note _ takes rfl

/-- A GET goes out, its landing units reserved (R116). -/
theorem startGet_eq {i iter x : Nat} {k : XferCmd} {u v : State} (note : State → State) (takes : Takes s q k.dest (landUnits k.length) u x)
    (translates : State.preRange q k.laddr (min k.length 65536) true u = (v, none)) :
    s.startGet q i iter k note =
      (launched (note v)
        { s.opEntry q i iter x (.oneSided 0x0A k.rlx false false false 0 k.rtally k.key k.length k.roff 0) k.length k.laddr with
          ord := k.ord, rlx := k.rlx, land := landUnits k.length }, .run) := by
  unfold State.startGet
  exact startOp_eq note _ takes translates

/-- Settles O2: each command starts by `startUser_eq` and goes out by `startOp_eq`. -/
theorem oneSidedCommandsComplete : Obligations.oneSidedCommandsComplete := by
  refine ⟨?put, ?puti, ?get, ?atomic, ?fetching⟩
  case put =>
    intro s q c d u x h takes
    show execPut q c s = _
    refine starts_ongoing h ?_
    exact startPut_eq (fun z => started s z q 1 (.put d)) takes
  case puti =>
    intro s q c d u x h takes
    show execPuti q c s = _
    refine starts_ongoing h ?_
    exact startPuti_eq (fun z => started s z q 1 (.puti d)) takes
  case get =>
    intro s q c d u x v h takes translates
    show execGet q c s = _
    refine starts_ongoing h ?_
    exact startGet_eq (fun z => started s z q 1 (.get d)) takes translates
  case atomic =>
    intro s q c d u x h noFetch runsNoFetch takes n
    show execAtomic q c s = _
    rw [execAtomic, noFetch]
    refine starts_ongoing (slots := 1) h ?_
    simp only [State.runCmd, State.startAtomic, runsNoFetch, Bool.false_eq_true, if_false]
    exact startOp_eq (fun z => started s z q 1 (.atomic d)) _ takes rfl
  case fetching =>
    intro s q c d u x v n h fetch runsFetch takes translates
    show execAtomic q c s = _
    rw [execAtomic, fetch]
    refine starts_ongoing (slots := 2) h ?_
    simp only [State.runCmd, State.startAtomic, runsFetch, if_true]
    exact startOp_eq (fun z => started s z q 2 (.atomic d)) _ takes translates

/-! ## Messages, receives, schedules, collectives, calls -/

/-- A POSTRECV whose space has a catcher with room, and whose buffers translate, is posted (R122, R218). -/
theorem startPostrecv_eq {i iter k : Nat} {r : RecvCmd} {u v : State} (note : State → State)
    (served : s.catcherOf ⟨s.rd .QU_CFG_JOB_SLOT q, (s.q q).ep, r.comm⟩ = some k) (room : s.canMatch (s.rd .QU_CFG_JOB_SLOT q) = true)
    (buffer : State.preRange q r.buf r.length true s = (u, none))
    (status : (if r.status = 0 then (u, none) else State.preRange q r.status 32 true u) = (v, none)) :
    s.startPostrecv q i iter r note =
      ((note v).postRecv k {
        space := ⟨s.rd .QU_CFG_JOB_SLOT q, (s.q q).ep, r.comm⟩, anySrc := r.anySrc, anyTag := r.anyTag, srcRank := r.srcRank, tag := r.tag,
        rlx := r.rlx, func := v.qFunc q, asid := v.rd .QU_CFG_ASID q, buf := r.buf, length := r.length, status := r.status,
        owner := .exec q i iter }, .run) := by
  simp only [State.startPostrecv, served, room, buffer, status, Bool.not_true, Bool.false_eq_true, if_false]

/-- A WHISTLE of a line of its job, in time, with room, is sent (R129, R358). -/
theorem startWhistle_eq {k : WhistleCmd} (note : State → State)
    (line : bitOf (s.job (s.rd .QU_CFG_JOB_SLOT q)).whistleMask k.line = true) (inTime : s.now + us 10 ≤ k.time)
    (room : s.lineFull k.line ⟨k.time, some (s.rd .GLB_JOB_JOB_ID (s.rd .QU_CFG_JOB_SLOT q))⟩ = false) :
    s.startWhistle q k note =
      let b := s.job (s.rd .QU_CFG_JOB_SLOT q)
      let id := s.rd .GLB_JOB_JOB_ID (s.rd .QU_CFG_JOB_SLOT q)
      let w : Schedule := ⟨k.line, true, id, k.time, s.nodeId⟩
      (if b.pos = b.leaderPos then (((note s).sendWhistle w (b.kids.map b.nodeAt)).schedule k.line ⟨k.time, some id⟩).1
        else (note s).sendWhistle w [b.nodeAt b.leaderPos], if k.atFire then .run else .done) := by
  have early : ¬ k.time < s.now + us 10 := Nat.not_lt.mpr inTime
  simp only [State.startWhistle, line, early, room, Bool.not_true, Bool.false_eq_true, if_false]

/-- A COLLECTIVE of a context of its job with a place free, whose buffers translate, is joined (R130). -/
theorem collStart_eq {i iter : Nat} {m : CollCmd} {x : CollCtx} {u v : State} (note : State → State)
    (known : s.colls.look m.ctx = some x) (own : x.slot = s.rd .QU_CFG_JOB_SLOT q) (fits : x.vecLen m * dtSize m.dtype ≤ x.maxBytes)
    (works : s.rd .HD_CTX_STATE m.ctx ≠ hcFailed) (free : (x.insts.filter fun i => !i.done).length < 2)
    (source : s.collBuf q m.src (x.vecLen m * dtSize m.dtype) (x.usesSrc m) false = (u, none))
    (target : u.collBuf q m.dst (((x.ownRange m).2 - (x.ownRange m).1) * dtSize m.dtype) (x.usesDst m) true = (v, none)) :
    s.collStart q i iter m note = (v.collJoin q i iter x m note, .run) := by
  have whole : ¬ (x.slot ≠ s.rd .QU_CFG_JOB_SLOT q ∨ x.maxBytes < x.vecLen m * dtSize m.dtype) :=
    not_or.mpr ⟨not_not_intro own, Nat.not_lt.mpr fits⟩
  simp only [State.collStart, known, whole, works, Nat.not_le.mpr free, source, target, if_false]

/-- A CALL of a callable entry of its job, with room in the dispatch queue, is queued (R137). -/
theorem startCall_eq {i iter : Nat} {k : CallCmd} {e : HEntry} (note : State → State)
    (serves : s.servesJob (s.rd .QU_CFG_FERRY q) (s.rd .QU_CFG_JOB_SLOT q) = true)
    (known : (s.ferry (s.rd .QU_CFG_FERRY q)).entries.look k.handler = some e) (callable : e.callable = true) (jobs : 0x80 ≤ k.handler)
    (room : s.dispatchRoom (s.rd .QU_CFG_FERRY q) = true) :
    s.startCall q i iter k note =
      ((note s).pushEvent (s.rd .QU_CFG_FERRY q) {
        kind := .call q i iter, entry := k.handler, slot := s.rd .QU_CFG_JOB_SLOT q, asid := s.rd .QU_CFG_ASID q,
        args := [(1, k.arg1), (2, k.arg2), (3, k.arg3), (4, q), (5, i)], payload := [] }, .run) := by
  simp only [State.startCall, serves, known, callable, jobs, room, decide_true, Bool.and_self, Bool.not_true, Bool.or_self,
    Bool.false_eq_true, if_false]

/-- Settles O3: each command starts by `startUser_eq`, and does what its own lemma says. -/
theorem messageCommandsComplete : Obligations.messageCommandsComplete := by
  refine ⟨?eager, ?rendezvous, ?postrecv, ?whistle, ?collective, ?call⟩
  case eager =>
    intro s q c d draw u x h noRdv short takes
    have eager : (d.rdv || decide (s.rd .CT_CFG_EAGER_KIB * 1024 < d.length)) = false := by
      rw [noRdv, decide_eq_false (Nat.not_lt.mpr short)]
      rfl
    show execSend q c draw s = _
    refine starts_ongoing h ?_
    simp only [State.runCmd, State.startSend, eager, Bool.false_eq_true, if_false]
    exact startOp_eq (fun z => started s z q 2 (.send d)) _ takes rfl
  case rendezvous =>
    intro s q c d draw u x v h asks takes translates
    have rdv : (d.rdv || decide (s.rd .CT_CFG_EAGER_KIB * 1024 < d.length)) = true := by
      rcases asks with asked | long
      · rw [asked]; rfl
      · rw [decide_eq_true long, Bool.or_true]
    show execSend q c draw s = _
    refine starts_ongoing h ?_
    simp only [State.runCmd, State.startSend, rdv, if_true]
    exact startOp_eq (fun z => started s z q 2 (.send d)) _ takes translates
  case postrecv =>
    intro s q c d k u v h p served room buffer status
    show execPostrecv q c s = _
    refine starts_ongoing h ?_
    exact startPostrecv_eq (fun z => started s z q 2 (.postrecv d)) served room buffer status
  case whistle =>
    intro s q c h b id line inTime room t w sent
    have run := startWhistle_eq (q := q) (fun z => started s z q 1 (.whistle c)) line inTime room
    show execWhistle q c s = _
    by_cases waits : c.atFire = true
    · rw [if_pos waits]
      exact starts_ongoing h (run.trans (by simp only [waits, if_true]; rfl))
    · rw [if_neg waits]
      exact starts_completed h (run.trans (by simp only [waits]; rfl))
  case collective =>
    intro s q c d x u v h size known own fits works free source target
    show execCollective q c s = _
    refine starts_ongoing h ?_
    exact collStart_eq (fun z => started s z q 1 (.collective d)) known own fits works free source target
  case call =>
    intro s q c e h f slot serves known callable jobs room
    show execCall q c s = _
    refine starts_ongoing h ?_
    exact startCall_eq (fun z => started s z q 1 (.call c)) serves known callable jobs room

end Sys2Proof.Proofs.Commands
end

section
/-! The privileged commands (R14, R56, R67, R102, R142, R185 to R205, R240 to R245, R297 to R299, R385 to R389, R420, R483, R525): what each one's
body does where its checks pass, and how it starts and completes. -/

namespace Sys2Proof.Proofs.Privileged

open Sys2Proof.Machine Sys2Proof.Laws Sys2Proof.Claims Sys2Proof.Proofs.Rows

variable {s u : State} {src : CmdSrc} {op : PrivOp} {p : Priv} {x : PrivData} {body : State → State × Option Nat} {t : State}

/-! ## Starting and completing -/

/-- A privileged command from an entry point that may send it runs (R14, R288, R473). -/
theorem privRow_eq (runs : Runs s src op p x u) (effect : s.runPriv src op p x body = t) :
    s.privRow src op p x body = .next t.collected := by
  refine whenUp_gives runs.up ?_
  cases src with
  | iamel r => exact effect
  | mg ses ctr node =>
    have live : s.fatal = false := runs.live.resolve_right (by rintro ⟨r, other⟩; cases other)
    have room : s.mgRoom = true := runs.room.resolve_right fun other => other ses ctr node rfl
    exact (if_neg (by rw [live]; decide)).trans ((if_pos room).trans effect)
  | queue i =>
    have live : s.fatal = false := runs.live.resolve_right (by rintro ⟨r, other⟩; cases other)
    exact (if_neg (by rw [live]; decide)).trans effect

/-- A privileged command that completes later. -/
theorem runs_later (runs : Runs s src op p x u) (ends : body u = (t, none)) : s.privRow src op p x body = .next t.collected := by
  refine privRow_eq runs ?_
  simp only [State.runPriv, runs.start, runs.args, ends, Bool.not_true, Bool.false_eq_true, if_false]

/-- A privileged command that completes at once. -/
theorem runs_now (runs : Runs s src op p x u) (ends : body u = (t, some 0)) :
    s.privRow src op p x body = .next (succeeded t src p).collected := by
  refine privRow_eq runs ?_
  have noRecord : ¬ (p.token = 0 ∧ 0 = cAuthFormat) := fun both => by cases both.2
  simp only [State.runPriv, runs.start, runs.args, ends, noRecord, Bool.not_true, Bool.false_eq_true, if_false]
  rfl

/-! ## Jobs -/

/-- JOB-OPEN whose token passes takes a slot, and its key, or asks for it (R56). -/
theorem bodyJobOpen_eq {b : JobBlock} {v : State} {j : Nat} (pre : u.privPre src p x true true = 0)
    (block : decodeJobBlock (u.blockOf src p x) p.sealOut = some b) (opens : Opens u 0x01 p b (u.offer src .jobOpen p x) v j) :
    u.bodyJobOpen src p x =
      let w := v.takeSlot j p.arg b (u.offer src .jobOpen p x).1 p src
      (if w.posIn b.members = 0 then w.freeNext.installKey j 0 w.now (w.freeVal 256)
        else (w.arm (.keyFail j) ((u.offer src .jobOpen p x).1.notAfter + 1)).sendKeyReq j, none) := by
  obtain ⟨⟨w, token, consumed⟩, parked, allowed, slot⟩ := opens
  simp only [State.bodyJobOpen, pre, block, token, ← consumed, parked, allowed, slot, ne_eq, not_true_eq_false, Bool.false_eq_true, if_false]
  split <;> rfl

/-- KEY-INSTALL whose token passes and whose blob opens here installs the blob's generation (R67). -/
theorem bodyKeyInstall_eq {b : JobBlock} {v : State} {j key : Nat} (pre : u.privPre src p x true true = 0)
    (block : decodeJobBlock ((u.blockOf src p x).drop 144) p.sealOut = some b) (version : leAt (u.blockOf src p x) 0 1 = 1)
    (z1 : zeros (u.blockOf src p x) 1 3 = true) (z2 : zeros (u.blockOf src p x) 24 8 = true)
    (z3 : zeros (u.blockOf src p x) 140 4 = true) (opens : Opens u 0x03 p b (u.offer src .keyInstall p x) v j)
    (sealed : blobOpen v.blobKey ((u.blockOf src p x).take 144) = some key) (here : v.blobOk ((u.blockOf src p x).take 144) p.arg = true) :
    u.bodyKeyInstall src p x =
      let blob := (u.blockOf src p x).take 144
      ((((v.takeSlot j p.arg b (u.offer src .keyInstall p x).1 p src).noteGen p.arg (leAt blob 7 1)).wr .GLB_JOB_SEALED j 1).installKey j
        (leAt blob 7 1) (leAt blob 16 8 - hours 25) key, none) := by
  obtain ⟨⟨w, token, consumed⟩, parked, allowed, slot⟩ := opens
  simp only [State.bodyKeyInstall, pre, block, version, z1, z2, z3, token, ne_eq, not_true_eq_false, Bool.not_true, Bool.false_eq_true, or_self,
    if_false]
  simp only [State.installBlob, ← consumed, parked, allowed, sealed, here, slot, ne_eq, not_true_eq_false, Bool.not_true, Bool.false_eq_true,
    if_false]

/-- JOB-CLOSE of an open job whose token passes halts its queues and begins the close (R525). -/
theorem bodyJobClose_eq {j : Nat} {v : State} (pre : u.privPre src p x true false false = 0) (known : u.slotOf p.arg = some j)
    (token : u.jobToken (u.offer src .jobClose p x) 0x02 j = (v, 0)) (opened : v.jobState j ≠ jobClosing) :
    u.bodyJobClose src p x =
      ((((forEach (fun s q => s.haltQueue q 5) (v.boundQueues (v.qOfJob j)) v).beginClose j (some (src, p.ltally))).closeProgress
        j).settleAll, none) := by
  simp only [State.bodyJobClose, pre, known, token, opened, ne_eq, not_true_eq_false, if_false]

/-- Settles O17: each command runs, and its body does what its own lemma says. -/
theorem jobCommandsComplete : Obligations.jobCommandsComplete := by
  refine ⟨?open_, ?install, ?close⟩
  case open_ =>
    intro s src p x u b v j runs pre block o opens
    show execJobOpen src p x s = _
    refine runs_later runs ?_
    exact bodyJobOpen_eq pre block opens
  case install =>
    intro s src p x u b v j key runs pre bs block version z1 z2 z3 o opens blob sealed here
    show execKeyInstall src p x s = _
    refine runs_later runs ?_
    exact bodyKeyInstall_eq pre block version z1 z2 z3 opens sealed here
  case close =>
    intro s src p x u j v runs pre known token opened
    show execJobClose src p x s = _
    refine runs_later runs ?_
    exact bodyJobClose_eq pre known token opened

/-! ## Windows, regions, trees -/

/-- WINDOW-OPEN of a closed window of an ASID of the job (R185, R197). -/
theorem bodyWindowOpen_eq {d : DescrBlock} {v : State} (pre : u.privPre src p x true = 0) (block : decodeDescr (u.blockOf src p x) = some d)
    (known : p.arg2 < 256) (token : u.slotToken p.arg 0x04 (u.offer src .windowOpen p x) = (v, 0)) (mode : v.rd .GLB_JOB_MODE p.arg ≠ 1)
    (closed : (v.windows.look (p.arg, p.arg2)).all (fun w => decide (w.state = .closed)) = true)
    (asid : (v.job p.arg).asids.contains d.asid = true) :
    u.bodyWindowOpen src p x =
      ({ v with windows := v.windows.put (p.arg, p.arg2) { state := .opened, d := descrOf d } }, some 0) := by
  have notOpen : (v.windows.look (p.arg, p.arg2)).any (fun w => decide (w.state ≠ .closed)) = false := by
    cases found : v.windows.look (p.arg, p.arg2) with
    | none => rfl
    | some w =>
      rw [found] at closed
      exact decide_eq_false (not_not_intro (of_decide_eq_true closed))
  have free : ¬ (v.rd .GLB_JOB_MODE p.arg = 1 ∨ (v.windows.look (p.arg, p.arg2)).any (fun w => decide (w.state ≠ .closed)) = true) :=
    not_or.mpr ⟨mode, by rw [notOpen]; decide⟩
  simp only [State.bodyWindowOpen, pre, block, Nat.not_le.mpr known, token, free, asid, ne_eq, not_true_eq_false, Bool.not_true, Bool.false_eq_true,
    if_false]

/-- WINDOW-REVOKE of an open window starts its revocation (R197, R198). -/
theorem bodyWindowRevoke_eq {v : State} (pre : u.privPre src p x true false false = 0) (known : p.arg2 < 256)
    (token : u.slotToken p.arg 0x04 (u.offer src .windowRevoke p x) = (v, 0))
    (opened : (v.windows.look (p.arg, p.arg2)).any (fun w => decide (w.state = .opened)) = true) :
    u.bodyWindowRevoke src p x = (v.revokeStart p.arg p.arg2 (u.offer src .windowRevoke p x).1.serial (src, p.ltally), none) := by
  simp only [State.bodyWindowRevoke, pre, Nat.not_le.mpr known, token, opened, ne_eq, not_true_eq_false, if_false, if_true]

/-- REGION-REGISTER of a free key whose range translates and whose records have room (R202). -/
theorem bodyRegionRegister_eq {b : DescrBlock} {v w : State} {ls : List Leaf} (pre : u.privPre src p x true = 0)
    (block : decodeDescr (u.blockOf src p x) = some b) (token : u.slotToken p.arg 0x05 (u.offer src .regionRegister p x) = (v, 0))
    (mode : v.rd .GLB_JOB_MODE p.arg ≠ 0) (key : p.arg2 ≠ 0) (asid : (v.job p.arg).asids.contains (descrOf b).asid = true)
    (free : v.regions.look p.arg2 = none) (quiet : v.armed (.quarantine p.arg2) = false) (few : v.regions.size < 1048576)
    (translates : v.holdRegion (descrOf b) = (w, .inr ls)) (room : ls.length ≤ w.leavesFree) :
    u.bodyRegionRegister src p x =
      (State.evictRegion { w.freeNext with regions := w.regions.put p.arg2 {
        slot := p.arg, job := w.rd .GLB_JOB_JOB_ID p.arg, d := descrOf b, leaves := ls, cached := decide (w.freeVal 1 = 1) } } p.arg2,
        some 0) := by
  simp only [State.bodyRegionRegister, pre, block, token, mode, key, asid, free, quiet, Nat.not_le.mpr few, translates, Nat.not_lt.mpr room, ne_eq,
    not_true_eq_false, Option.isSome_none, Bool.not_true, Bool.false_eq_true, or_self, if_false]

/-- REGION-DEREGISTER of a live key of the slot unregisters it (R528). -/
theorem bodyRegionDeregister_eq {v : State} {r : Region} (pre : u.privPre src p x true false false = 0)
    (token : u.slotToken p.arg 0x05 (u.offer src .regionDeregister p x) = (v, 0)) (key : p.arg2 ≠ 0)
    (known : v.regions.look p.arg2 = some r) (live : r.live = true) (own : r.slot = p.arg) :
    u.bodyRegionDeregister src p x =
      ({ v with regions := v.regions.put p.arg2 { r with live := false, src := some (src, p.ltally) } }, none) := by
  simp only [State.bodyRegionDeregister, pre, token, key, known, live, own, ne_eq, not_true_eq_false, and_self, if_false, if_true]

/-- TREE-BUILD whose block passes the checks of R242. -/
theorem bodyTreeBuild_eq {v : State} {b : TreeBlock} (pre : u.privPre src p x true = 0)
    (token : u.slotToken p.arg 0x06 (u.offer src .treeBuild p x) = (v, 0)) (block : decodeTree (v.blockOf src p x) = some b)
    (passes : v.treeCause p.arg p.arg2 b = 0) : u.bodyTreeBuild src p x = (v.treeBuilt p.arg p.arg2 b, some 0) := by
  simp only [State.bodyTreeBuild, pre, token, block, passes, ne_eq, not_true_eq_false, if_false]

/-- Settles O18: each command runs, and its body does what its own lemma says. -/
theorem memoryCommandsComplete : Obligations.memoryCommandsComplete := by
  refine ⟨?open_, ?revoke, ?register, ?deregister, ?tree⟩
  case open_ =>
    intro s src p x u d v runs pre block known token mode closed asid
    show execWindowOpen src p x s = _
    refine runs_now runs ?_
    exact bodyWindowOpen_eq pre block known token mode closed asid
  case revoke =>
    intro s src p x u v runs pre known o token opened
    show execWindowRevoke src p x s = _
    refine runs_later runs ?_
    exact bodyWindowRevoke_eq pre known token opened
  case register =>
    intro s src p x u b v w ls runs pre block token mode key asid free quiet few translates room
    show execRegionRegister src p x s = _
    refine runs_now runs ?_
    exact bodyRegionRegister_eq pre block token mode key asid free quiet few translates room
  case deregister =>
    intro s src p x u v r runs pre token key known live own
    show execRegionDeregister src p x s = _
    refine runs_later runs ?_
    exact bodyRegionDeregister_eq pre token key known live own
  case tree =>
    intro s src p x u v b runs pre token block passes
    show execTreeBuild src p x s = _
    refine runs_now runs ?_
    exact bodyTreeBuild_eq pre token block passes

/-! ## Routes -/

/-- The body of ROUTE-WRITE whose credential holds and whose entries fit its table (R297). -/
theorem bodyRouteWrite_eq {v : State} {vs : List Nat} (pre : u.privPre src p x false = 0)
    (cred : u.checkTrailer src .routeWrite p x = (v, 0)) (block : decodeTable p.arg (v.blockOf src p x) = some vs)
    (fits : p.arg2 + vs.length ≤ tableCount p.arg) :
    u.bodyRouteWrite src p x = v.routeStart (src, p.ltally) (.write p.arg p.arg2 vs) := by
  simp only [State.bodyRouteWrite, pre, cred, block, Nat.not_lt.mpr fits, ne_eq, not_true_eq_false, if_false]

/-- The body of ROUTE-COMMIT whose credential holds (R298). -/
theorem bodyRouteCommit_eq {v : State} (pre : u.privPre src p x false false false = 0)
    (cred : u.checkTrailer src .routeCommit p x = (v, 0)) : u.bodyRouteCommit src p x = v.routeStart (src, p.ltally) (.commit p.arg) := by
  simp only [State.bodyRouteCommit, pre, cred, ne_eq, not_true_eq_false, if_false]

/-- A route command that finds none waiting, and no quad at its step, runs (R299, R462). -/
theorem routeStart_eq {v w : State} {r : CmdSrc × TallyField} {j : RouteJob} {c : Nat} (none_ : v.routeWait = [])
    (free : v.routeHeld j = false) (runs : v.routeRun j = (w, c)) : v.routeStart r j = (w, some c) := by
  simp only [State.routeStart, none_, free, runs, List.isEmpty_nil, Bool.not_true, Bool.or_self, Bool.false_eq_true, if_false]

/-- A route command that finds others waiting waits behind them (R299). -/
theorem routeStart_waits {v : State} {r : CmdSrc × TallyField} {j : RouteJob} (others : v.routeWait ≠ []) :
    v.routeStart r j = ({ v with routeWait := v.routeWait ++ [(r, j)] }, none) := by
  have nonempty : v.routeWait.isEmpty = false := Bool.eq_false_iff.mpr fun empty => others (List.isEmpty_iff.mp empty)
  simp only [State.routeStart, nonempty, Bool.not_false, Bool.true_or, if_true]

/-- A commit of the other bank, its checks passed, switches to it (R298). -/
theorem routeRun_commit {v : State} {arg : Nat} (other : arg % 2 ≠ v.activeBank) (passes : v.bankCause (arg % 2) = 0) :
    v.routeRun (.commit arg) =
      let old := v.activeBank
      let a := ((v.wr .XB_STATUS_ACTIVE 0 (arg % 2)).incWrap .XB_STATUS_COMMITS 0 1).applyBank old (arg % 2)
      let b := if bitOf arg 1 then a.copyBank (arg % 2) old else a
      (b.extendMeas 6 (digestOf (b.bankBytes (arg % 2))), 0) := by
  simp only [State.routeRun, other, passes, ne_eq, not_true_eq_false, if_false]

/-- Settles O19: each command runs, and reaches the crossing or waits. -/
theorem routeCommandsComplete : Obligations.routeCommandsComplete := by
  refine ⟨?write, ?commit, ?waits⟩
  case write =>
    intro s src p x u v vs runs pre cred block fits none_
    show execRouteWrite src p x s = _
    refine runs_now runs ?_
    exact (bodyRouteWrite_eq pre cred block fits).trans (routeStart_eq none_ rfl rfl)
  case commit =>
    intro s src p x u v runs pre cred none_ free other passes old a b
    show execRouteCommit src p x s = _
    refine runs_now runs ?_
    exact (bodyRouteCommit_eq pre cred).trans (routeStart_eq none_ free (routeRun_commit other passes))
  case waits =>
    intro s src p x u v vs runs pre cred block fits others
    show execRouteWrite src p x s = _
    refine runs_later runs ?_
    exact (bodyRouteWrite_eq pre cred block fits).trans (routeStart_waits others)

/-! ## Ferries, queues, caches, snapshots -/

/-- LOAD-PROGRAM of a job's image whose token and checks pass (R386). -/
theorem bodyLoadProgram_job {b : ImageBlock} {v : State} (kind : leAt (u.blockOf src p x) 0 1 = 1) (pre : u.privPre src p x true = 0)
    (on : u.ferryOn p.arg = true) (token : u.imageToken (u.offer src .loadProgram p x) = (v, 0))
    (block : decodeImage (u.blockOf src p x) = some b) (job : b.job = true) (still : v.ferryStill p.arg = true)
    (passes : v.jobImageCause p.arg b (u.offer src .loadProgram p x).1 = 0) :
    u.bodyLoadProgram src p x = (v.loadImage p.arg b, some 0) := by
  simp only [State.bodyLoadProgram, kind, pre, on, token, decide_true, ne_eq, not_true_eq_false, Bool.not_true, Bool.false_eq_true, if_false,
    if_true]
  simp only [State.loadChecked, block, still, job, passes, ne_eq, not_true_eq_false, Bool.not_true, Bool.false_eq_true, if_false, if_true]

/-- LOAD-PROGRAM of a system image that is signed and not below FLOOR (R385, R386). -/
theorem bodyLoadProgram_system {b : ImageBlock} (kind : leAt (u.blockOf src p x) 0 1 ≠ 1) (pre : u.privPre src p x false = 0)
    (on : u.ferryOn p.arg = true) (block : decodeImage (u.blockOf src p x) = some b) (system : b.job = false)
    (still : u.ferryStill p.arg = true)
    (signed : u.productSigned ((u.blockOf src p x).take ((u.blockOf src p x).length - 96))
      (((u.blockOf src p x).drop ((u.blockOf src p x).length - 96)).take 48)
      ((u.blockOf src p x).drop ((u.blockOf src p x).length - 48)) = true)
    (newer : u.rd .GLB_ROLLBACK_FLOOR 5 ≤ b.secver) :
    u.bodyLoadProgram src p x = ((u.loadImage p.arg b).extendMeas 5 (digestOf (u.blockOf src p x)), some 0) := by
  simp only [State.bodyLoadProgram, kind, pre, on, decide_false, ne_eq, not_true_eq_false, Bool.not_true, Bool.false_eq_true, if_false]
  simp only [State.loadChecked, block, still, system, signed, Nat.not_lt.mpr newer, Bool.not_true, Bool.false_eq_true, if_false]

/-- FERRY-DRAIN of a ferry that runs (R387). -/
theorem bodyFerryDrain_eq (pre : u.privPre src p x false false false = 0) (on : u.ferryOn p.arg = true)
    (running : u.fxState p.arg = fxRunning) :
    u.bodyFerryDrain src p x =
      (((u.wr .FX_STATUS_STATE p.arg fxDraining).haltFerryQueues p.arg).updFerry p.arg fun f =>
        { f with drainSrc := some (src, p.ltally) }, none) := by
  simp only [State.bodyFerryDrain, pre, on, running, ne_eq, not_true_eq_false, Bool.not_true, Bool.false_eq_true, if_false]

/-- FERRY-RESUME of a ferry that stands still (R389). -/
theorem bodyFerryResume_eq (pre : u.privPre src p x false false false = 0) (on : u.ferryOn p.arg = true)
    (still : u.ferryStill p.arg = true) : u.bodyFerryResume src p x = (u.runFerry p.arg, some 0) := by
  simp only [State.bodyFerryResume, pre, on, still, ne_eq, not_true_eq_false, Bool.not_true, Bool.false_eq_true, if_false]

/-- QUEUE-BIND of a queue that may be bound, whose token passes where it has a job (R102, R104, R429). -/
theorem bodyQueueBind_eq {b : BindBlock} {v : State} (pre : u.privPre src p x (!bitOf (leAt (u.blockOf src p x) 30 1) 0) = 0)
    (block : decodeBind (u.blockOf src p x) = some b) (notCtl : p.arg ≠ 0) (known : p.arg < 65536) (on : u.ferryOn b.ferry = true)
    (ep : b.ep ≠ 0xFFF) (job : b.noJob = true ∨ (u.jobState b.slot = jobOpened ∧ (u.job b.slot).asids.contains b.asid = true))
    (token : (if b.noJob then (u, 0) else u.jobToken (u.offer src .queueBind p x) 0x07 b.slot) = (v, 0)) (places : bindAddrs b = 0)
    (func : v.bindFuncOk b.func p.arg b.noJob b.slot = true)
    (idle : v.qState p.arg = qDisabled ∨ (v.qState p.arg = qHalted ∧ v.flag .QU_STATE_DRAINED p.arg = true)) :
    u.bodyQueueBind src p x = (v.bindQueue p.arg b, some 0) := by
  have hasJob : ¬ ((!b.noJob) = true ∧ (u.jobState b.slot ≠ jobOpened ∨ (!(u.job b.slot).asids.contains b.asid) = true)) := by
    rintro ⟨wants, lacks⟩
    rcases job with noJob | ⟨opened, asid⟩
    · rw [noJob] at wants; cases wants
    · rw [asid] at lacks
      exact lacks.elim (absurd opened) (by decide)
  simp only [State.bodyQueueBind, pre, block, notCtl, Nat.not_le.mpr known, on, ep, hasJob, token, places, func, idle, ne_eq, not_true_eq_false,
    Bool.not_true, Bool.false_eq_true, or_self, if_false, if_true]

/-- INVALIDATE flushes, and waits for the accesses under what it flushed, or makes the writes among them visible (R420, R421). -/
theorem bodyInvalidate_eq {base n : Nat} {v : State} {wait : List Nat} {i : Inval}
    (entry : i = ⟨(src, p.ltally), wait, v.unflushed wait⟩) (pre : u.privPre src p x false = 0)
    (block : decodeInval (u.blockOf src p x) = some (base, n))
    (known : bitOf p.arg 16 = true ∨ (u.asidSlot (p.arg % 65536)).isSome = true)
    (flush : u.flushTx (if bitOf p.arg 16 then none else u.asidSlot (p.arg % 65536)) p.arg2 base (if n = 0 then 2 ^ 48 else base + n)
      = (v, wait)) :
    u.bodyInvalidate src p x =
      (if v.invalWaits i then { v with invals := v.invals ++ [i] }
        else { (v.invalFlush i).1 with invals := (v.invalFlush i).1.invals ++ [(v.invalFlush i).2] }, none) := by
  have slot : ¬ ((!bitOf p.arg 16) = true ∧ (u.asidSlot (p.arg % 65536)).isNone = true) := by
    rintro ⟨notAll, unknown⟩
    rcases known with all | found
    · rw [all] at notAll; cases notAll
    · rw [Option.isNone_iff_eq_none.mp unknown] at found; cases found
  simp only [State.bodyInvalidate, pre, block, slot, flush, entry, ne_eq, not_true_eq_false, if_false]
  split <;> rfl

/-- SNAPSHOT with time to come and a place free is armed (R483). -/
theorem bodySnapshot_eq {when_ d k : Nat} (pre : u.privPre src p x false = 0) (block : decodeSnap (u.blockOf src p x) = some (when_, d))
    (later : u.now + us 2 ≤ when_)
    (place : bitOf d 0 = true → 0x13_8000_0000 < d / 64 * 64 + 14112 → 0x13_FFFF_FFFF < d / 64 * 64)
    (free : ((List.range 4).find? fun k => (u.snaps.look k).isNone) = some k) :
    u.bodySnapshot src p x =
      (State.arm { u with snaps := u.snaps.put k { src := (src, p.ltally), t := when_, dest := d } } (.snapshot k) when_, none) := by
  have outside : ¬ (bitOf d 0 = true ∧ 0x13_8000_0000 < d / 64 * 64 + 14112 ∧ d / 64 * 64 ≤ 0x13_FFFF_FFFF) :=
    fun inside => absurd inside.2.2 (Nat.not_le.mpr (place inside.1 inside.2.1))
  simp only [State.bodySnapshot, pre, block, Nat.not_lt.mpr later, outside, free, ne_eq, not_true_eq_false, if_false]

/-- Settles O20: each command runs, and its body does what its own lemma says. -/
theorem unitCommandsComplete : Obligations.unitCommandsComplete := by
  refine ⟨?loadJob, ?loadSystem, ?drain, ?resume, ?bind, ?invalidate, ?snapshot⟩
  case loadJob =>
    intro s src p x u b v runs kind pre on o token block job still passes
    show execLoadProgram src p x s = _
    refine runs_now runs ?_
    exact bodyLoadProgram_job kind pre on token block job still passes
  case loadSystem =>
    intro s src p x u b runs bs kind pre on block system still signed newer
    show execLoadProgram src p x s = _
    refine runs_now runs ?_
    exact bodyLoadProgram_system kind pre on block system still signed newer
  case drain =>
    intro s src p x u runs pre on running
    show execFerryDrain src p x s = _
    refine runs_later runs ?_
    exact bodyFerryDrain_eq pre on running
  case resume =>
    intro s src p x u runs pre on still
    show execFerryResume src p x s = _
    refine runs_now runs ?_
    exact bodyFerryResume_eq pre on still
  case bind =>
    intro s src p x u b v runs pre block notCtl known on ep job token places func idle
    show execQueueBind src p x s = _
    refine runs_now runs ?_
    exact bodyQueueBind_eq pre block notCtl known on ep job token places func idle
  case invalidate =>
    intro s src p x u base n v wait runs pre block known flush i
    show execInvalidate src p x s = _
    refine runs_later runs ?_
    exact bodyInvalidate_eq rfl pre block known flush
  case snapshot =>
    intro s src p x u t d k runs pre block later place free
    show execSnapshot src p x s = _
    refine runs_later runs ?_
    exact bodySnapshot_eq pre block later place free

end Sys2Proof.Proofs.Privileged
end

section
/-! Jobs, keys and trust (R53, R56, R57, R61 to R65, R71, R73, R387, R421, R525): each command under the conditions of its rule. -/

namespace Sys2Proof.Proofs.KeyRows

open Sys2Proof.Machine Sys2Proof.Laws Sys2Proof.Claims Sys2Proof.Proofs.Rows Sys2Proof.Proofs.Engine Sys2Proof.Proofs.Agent

variable {s : State}

/-! ## Key requests and answers -/

/-- Counting an event changes no job. -/
@[simp] theorem job_count (s : State) (u ev sub w j : Nat) : (s.count u ev sub w).job j = s.job j := by
  obtain ⟨g, h⟩ := onlyRegs_count s u ev sub w
  rw [h]
  rfl

/-- An OPEN slot is not KEYING. -/
theorem opened_ne_keying : ¬ jobOpened = jobKeying := by decide

/-- A KEY-REQ for a job that no slot holds, or whose slot is KEYING, is answered NOT-YET (R57). -/
theorem keyReqIn_notYet {job node serial : Nat} {m : KeyMsg} (waits : ∀ j, s.slotOf job = some j → s.jobState j = jobKeying) :
    s.keyReqIn job node serial m = s.sendMg node 0x44 (.notYet job) := by
  unfold State.keyReqIn
  cases slot : s.slotOf job with
  | none => rfl
  | some j => exact if_pos (waits j slot)

/-- A KEY-REQ of a member that this device serves is answered with its generation's key (R56 step 5). -/
theorem keyReqIn_served {job node serial j p k : Nat} {m : KeyMsg} (slot : s.slotOf job = some j) (opened : s.jobState j = jobOpened)
    (member : ((s.job j).members.findIdx? fun m => decide (m = (node, serial))) = some p) (serves : (s.job j).serves p = true)
    (holds : (s.count uSecurity 4 0 3).keyMsgOk (s.job j) m serial = true) (key : (s.job j).keys.look ((s.job j).answerGen m) = some k) :
    s.keyReqIn job node serial m = (s.count uSecurity 4 0 3).answerKey j node ((s.job j).answerGen m) k m := by
  simp only [State.keyReqIn, slot, opened, if_neg opened_ne_keying, ne_eq, not_true_eq_false, if_false, member, serves, holds,
    Bool.and_self, if_true, key]

/-- A KEY-RESP that passes installs the key of a KEYING slot (R56 step 6). -/
theorem keyRespIn_installs {job gen j kek k : Nat} {m : KeyMsg} (slot : s.slotOf job = some j) (keying : s.jobState j = jobKeying)
    (holds : s.keyMsgOk (s.job j) m ((((s.job j).members[(s.job j).reqTo]?).getD (0, 0)).2) = true)
    (wraps : wrapKey (s.job j).eph m.eph = some kek) (opens : unwrapJobKey kek m.wrapped = some k) :
    s.keyRespIn job gen m = ((s.count uSecurity 4 0 3).noteGen job gen).installKey j gen m.start k := by
  simp only [State.keyRespIn, slot, keying, if_true, holds, wraps, Option.bind_some, opens]

/-- At an OPEN slot it holds the next generation (R62 step 1). -/
theorem keyRespIn_holds {job gen j kek k : Nat} {m : KeyMsg} (slot : s.slotOf job = some j) (opened : s.jobState j = jobOpened)
    (holds : s.keyMsgOk (s.job j) m ((((s.job j).members[(s.job j).above (s.job j).pos]?).getD (0, 0)).2) = true)
    (wrapped : m.wrapped.isEmpty = false) (later : (s.job j).gen < gen) (fresh : (s.job j).held.contains gen = false)
    (wraps : wrapKey (s.job j).eph m.eph = some kek) (opens : unwrapJobKey kek m.wrapped = some k) :
    s.keyRespIn job gen m = (s.count uSecurity 4 0 3).holdNext j gen k := by
  simp only [State.keyRespIn, slot, opened, if_neg opened_ne_keying, ne_eq, not_true_eq_false, if_false, holds, wrapped,
    Bool.false_eq_true, later, decide_true, fresh, Bool.not_false, Bool.and_self, wraps, Option.bind_some, opens]

/-- A renewal's notice of a generation that is not held makes a member ask its parent for the key (R62 step 1). -/
theorem keyRespIn_asks {job gen j : Nat} {m : KeyMsg} (slot : s.slotOf job = some j) (opened : s.jobState j = jobOpened)
    (holds : s.keyMsgOk (s.job j) m ((((s.job j).members[(s.job j).above (s.job j).pos]?).getD (0, 0)).2) = true)
    (notice : m.wrapped.isEmpty = true) (later : (s.job j).gen < gen) (fresh : (s.job j).held.contains gen = false) :
    s.keyRespIn job gen m = (s.count uSecurity 4).askKey j ((s.job j).above (s.job j).pos) (some gen) := by
  have asks : (s.count uSecurity 4).noticeIn j gen = (s.count uSecurity 4).askKey j ((s.job j).above (s.job j).pos) (some gen) := by
    simp only [State.noticeIn, job_count, if_neg (Nat.not_le.mpr later), fresh, Bool.not_false, if_true]
  simp only [State.keyRespIn, slot, opened, if_neg opened_ne_keying, ne_eq, not_true_eq_false, if_false, notice, if_true, holds, asks]

/-- Settles O21: a message is taken where the agent has room, and each timer acts on its slot. -/
theorem keyExchangeCompletes : Obligations.keyExchangeCompletes := by
  refine ⟨?notYet, ?served, ?installs, ?holds, ?asks, ?waits, ?retry, ?unanswered, ?deadline⟩
  case notYet =>
    intro s job node serial m up room waits
    show execKeyReqReceive job node serial m s = _
    refine whenUp_gives up ?_
    exact (mgTake_eq _ room).trans (keyReqIn_notYet waits)
  case served =>
    intro s job node serial j p m k up room slot opened member serves holds key
    show execKeyReqReceive job node serial m s = _
    refine whenUp_gives up ?_
    exact (mgTake_eq _ room).trans (keyReqIn_served slot opened member serves holds key)
  case installs =>
    intro s job gen j m kek k up room slot keying holds wraps opens
    show execKeyRespReceive job gen m s = _
    refine whenUp_gives up ?_
    exact (mgTake_eq _ room).trans (keyRespIn_installs slot keying holds wraps opens)
  case holds =>
    intro s job gen j m kek k up room slot opened holds wrapped later fresh wraps opens
    show execKeyRespReceive job gen m s = _
    refine whenUp_gives up ?_
    exact (mgTake_eq _ room).trans (keyRespIn_holds slot opened holds wrapped later fresh wraps opens)
  case asks =>
    intro s job gen j m up room slot opened holds notice later fresh
    show execKeyRespReceive job gen m s = _
    refine whenUp_gives up ?_
    exact (mgTake_eq _ room).trans (keyRespIn_asks slot opened holds notice later fresh)
  case waits =>
    intro s job j up room slot keying runs
    show execNotYetReceive job s = _
    refine whenUp_gives up ?_
    refine (mgTake_eq _ room).trans ?_
    simp only [slot]
    exact if_pos ⟨keying, runs⟩
  case retry =>
    intro s j d runs
    show execKeyReqRetry j s = _
    exact whenDue_gives runs rfl
  case unanswered =>
    intro s j d runs
    show execKeyReqUnanswered j s = _
    exact whenDue_gives runs rfl
  case deadline =>
    intro s j d r runs u asked
    show execKeyFailDeadline j s = _
    exact whenDue_gives_at u runs rfl (by simp only [asked])

/-! ## Renewal -/

/-- Settles O22: each row by its own effect; what has a guard meets it. -/
theorem renewalCompletes : Obligations.renewalCompletes := by
  refine ⟨?starts, ?confirms, ?switch, ?changes, ?erases, ?repeats, ?expires, ?leads, ?retires, ?epoch⟩
  case starts =>
    intro s j d runs u opened leads rests
    show execRenewalStart j s = _
    exact whenDue_gives_at u runs rfl (if_pos ⟨opened, leads, by rw [rests]; rfl⟩)
  case confirms =>
    intro s j child up opened
    show execRenewalConfirmReceive j child s = _
    exact whenUp_gives up (if_neg (not_not_intro opened))
  case switch =>
    intro s j t up opened renews none_
    show execSwitchReceive j t s = _
    exact whenUp_gives up (if_pos ⟨opened, renews, by rw [none_]; rfl⟩)
  case changes =>
    intro s j d runs u opened renews
    show execGenerationSwitch j s = _
    exact whenDue_gives_at u runs rfl (if_pos ⟨opened, renews⟩)
  case erases =>
    intro s j d runs
    show execOldGenerationErase j s = _
    exact whenDue_gives runs rfl
  case repeats =>
    intro s j d runs u opened none_ renews
    show execRenewalRepeat j s = _
    refine whenDue_gives_at u runs rfl (if_neg ?_)
    rw [none_, renews]
    rintro (shut | switches | rests)
    · exact shut opened
    · cases switches
    · cases rests
  case expires =>
    intro s j d runs u opened
    show execGenerationExpiry j s = _
    exact whenDue_gives_at u runs rfl (if_pos opened)
  case leads =>
    intro s j k b up known member
    show execKeyLeaderTakeover j k s = _
    exact whenUp_gives up (by simp only [known]; exact if_neg (Nat.not_le.mpr member))
  case retires =>
    intro s j d runs
    show execJobCloseManifestTimeout j s = _
    exact whenDue_gives runs rfl
  case epoch =>
    intro s c d runs
    show execEpochKeyErase c s = _
    exact whenDue_gives runs rfl

/-! ## Trust, drains and invalidations -/

/-- An SPDM request is answered where Iamel does not reset, and the agent has room for one that comes in MG packets (R71). -/
theorem execSpdmMessage_eq {via : SpdmVia} {r : SpdmReq} (ref : s.phase ≠ .auxHeld) (works : s.rd .MG_STATUS_STATE ≠ 3)
    (room : s.mgRoom = true ∨ ∀ n, via ≠ .mg n) : execSpdmMessage via r s = .next (s.spdmIn via r).collected := by
  refine whenRef_gives ref ((if_neg works).trans ?_)
  cases via with
  | mg n => exact mgTake_eq _ (room.resolve_right fun none_ => none_ n rfl)
  | _ => rfl

/-- Settles O23: each row by its own effect. -/
theorem trustEventsComplete : Obligations.trustEventsComplete := by
  refine ⟨?challenge, ?unlocks, ?spdm, ?session, ?drained, ?invalidated⟩
  case challenge =>
    intro s draw up
    show execDebugChallengeRead draw s = _
    exact whenUp_gives up rfl
  case unlocks =>
    intro s t d up runs early
    show execDebugUnlock t s = _
    exact whenUp_gives up (by simp only [runs]; exact if_pos early)
  case spdm =>
    intro s via r ref works room
    exact execSpdmMessage_eq ref works room
  case session =>
    intro s k d runs
    show execFmSessionExpiry k s = _
    exact whenDue_gives runs rfl
  case drained =>
    intro s f r up empty asked
    show execFerryDrainComplete f s = _
    refine whenUp_gives up ?_
    simp only [State.drainOver, empty, Bool.not_true, Bool.false_eq_true, if_false, asked]
  case invalidated =>
    intro s i up ends
    show execInvalidateComplete s = _
    refine whenUp_gives up ?_
    simp only [State.invalOver, ends]

end Sys2Proof.Proofs.KeyRows
end

section
/-! Packets that arrive (R154): what the receive checks read, and what a packet that passes them does by its body (R157, R161 to R165, R172 to
R174, R198, R244 to R264). -/

namespace Sys2Proof.Proofs.Receive

open Sys2Proof.Machine Sys2Proof.Laws Sys2Proof.Claims Sys2Proof.Proofs.Rows

variable {s u v : State} {p r : Packet} {j c : Nat} {x : Ctx}

/-! ## The receive checks -/

/-- A check that answers nothing does not pass. -/
theorem not_passes {α : Type} {a : α} (h : (s, (none : Option α)) = (u, some a)) : False :=
  Option.some_ne_none a (congrArg Prod.snd h).symm

/-- Check 1 of R154 finds the packet's slot and leaves the state. -/
theorem rxHead_passes (h : s.rxHead p = (u, some j)) : u = s ∧ s.slotOf p.job = some j := by
  unfold State.rxHead at h
  split at h
  · exact (not_passes h).elim
  split at h
  · exact (not_passes h).elim
  split at h
  case h_1 => exact (not_passes h).elim
  case h_2 k slot =>
    split at h
    · split at h <;> exact (not_passes h).elim
    · obtain ⟨same, found⟩ := Prod.mk.inj h
      exact ⟨same.symm, found ▸ slot⟩

/-- A packet's text that reads as a body passes with that body. -/
theorem readBody_passes {k : Nat} {text : List Byte} (h : s.readBody j p text = (u, some (k, r))) :
    k = j ∧ ∃ b, decodeBody p.ptype text = some b ∧ r = { p with body := b } := by
  unfold State.readBody at h
  split at h
  case h_1 b reads =>
    obtain ⟨slot, body⟩ := Prod.mk.inj (Option.some.inj (congrArg Prod.snd h))
    exact ⟨slot.symm, b, reads, body.symm⟩
  case h_2 => exact (not_passes h).elim

/-- Checks 1 to 4 of R154 pass a NACK-BUSY as it came, and every other packet as this device reads it. -/
theorem rxAuth_passes (h : s.rxAuth p = (u, some (j, r))) : s.slotOf p.job = some j ∧
    if p.ptype = tyNackBusy then r = p
    else ∃ text b, s.opened j p = some text ∧ decodeBody p.ptype text = some b ∧ r = { p with body := b } := by
  unfold State.rxAuth at h
  split at h
  case h_1 => exact (not_passes h).elim
  case h_2 w k head =>
    obtain ⟨rfl, slot⟩ := rxHead_passes head
    split at h
    case isTrue nack =>
      obtain ⟨rfl, rfl⟩ := Prod.mk.inj (Option.some.inj (congrArg Prod.snd h))
      exact ⟨slot, by rw [if_pos nack]⟩
    case isFalse other =>
      split at h
      · exact (not_passes h).elim
      split at h
      case h_1 => exact (not_passes h).elim
      case h_2 text opens =>
        obtain ⟨rfl, b, reads, body⟩ := readBody_passes h
        exact ⟨slot, by rw [if_neg other]; exact ⟨text, b, opens, reads, body⟩⟩

/-- A NACK-BUSY passes as it came. -/
theorem nack_of_arrives (here : Arrives s p r v c x) (nack : p.ptype = tyNackBusy) : r = p := by
  obtain ⟨u, j, auth, _⟩ := here.passes
  have reads := (rxAuth_passes auth).2
  rwa [if_pos nack] at reads

/-- The type of a packet that passes is the one that it came with. -/
theorem ptype_of_arrives (here : Arrives s p r v c x) : r.ptype = p.ptype := by
  obtain ⟨u, j, auth, _⟩ := here.passes
  have reads := (rxAuth_passes auth).2
  split at reads
  · rw [reads]
  · obtain ⟨_, _, _, _, rfl⟩ := reads
    rfl

/-- A packet that passes has the body that this device reads in it. -/
theorem bodyIs_of_arrives (here : Arrives s p r v c x) (other : p.ptype ≠ tyNackBusy) (f : Body → Bool) : s.bodyIs p f = f r.body := by
  obtain ⟨u, j, auth, _⟩ := here.passes
  obtain ⟨slot, reads⟩ := rxAuth_passes auth
  rw [if_neg other] at reads
  obtain ⟨text, b, opens, reads, rfl⟩ := reads
  simp only [State.bodyIs, slot, Option.bind_some, opens, reads]

/-- A packet that passes checks 1 to 6 goes on at its context (R154). -/
theorem rxPacket_of_arrives (here : Arrives s p r v c x) : s.rxPacket p = (v.rxGo c r).settleAll := by
  obtain ⟨u, j, auth, ctx⟩ := here.passes
  simp only [State.rxPacket, auth, State.rxFrom5, ctx]

/-- A row of packets of one type gives what a packet that passes does at its context. -/
theorem gives_of_arrives {t : State} {b : Prop} [Decidable b] (here : Arrives s p r v c x) (kind : b) (effect : v.rxGo c r = t) :
    s.whenLive (fun s => if b then s.rxPacket p else s) = .next t.settleAll.collected :=
  whenLive_gives here.up here.live ((if_pos kind).trans (by rw [rxPacket_of_arrives here, effect]))

/-! ## Packets at their context, by their body -/

/-- A DATA packet that is new and finds its region, and room, acts or waits for its turn (R154, R157). -/
theorem dataIn_new {blk : OpBlock} {bytes : List Byte} (ctx : v.ctxs.look c = some x) (fresh : (x.rx 0).psnCase r.psn = .new)
    (region : v.regionAway x blk = false) (room : v.busyRow x r blk bytes = none) :
    v.dataIn c r blk bytes =
      let t := v.dataOpen c x r blk bytes
      (((t.dataPut c r x.slot blk bytes (t.opDead c r.mtag)).ackLast c 0 (x.rx 0).cum)).seqPass c := by
  simp only [State.dataIn, ctx, fresh, State.dataAt, region, Bool.false_eq_true, if_false, room]

/-- A NACK-BUSY of a packet that is not acknowledged makes it wait (R165). -/
theorem nackIn_waiting (ctx : v.ctxs.look c = some x)
    (sent : ((x.tx r.stream).una.any fun u => decide (u.pkt.psn = r.psn)) = true) :
    v.nackIn c r =
      ((v.updTx c r.stream fun t => { t with
          resend := t.resend.filter (fun q => decide (q.psn ≠ r.psn)),
          una := t.una.map fun u => if u.pkt.psn = r.psn then { u with notBefore := v.now + r.mtag, lost := false } else u }).arm
        (.nackRetry c r.stream r.psn) (v.now + r.mtag)).progress c := by
  simp only [State.nackIn, ctx, sent, Bool.not_true, Bool.false_eq_true, if_false]

/-- A RESP-DATA packet that is new and has room lands its bytes (R163). -/
theorem respIn_data {bytes : List Byte} (ctx : v.ctxs.look c = some x) (fresh : (x.rx 1).psnCase r.psn = .new)
    (room : v.storeFull (x.rx 1) r (decide (r.ptype = tyRespStatus)) false = false) (body : r.body = .resp bytes) :
    v.respIn c r =
      let t := ((v.admitPkt c r).progress c).landIn c r bytes
      ((if r.last then t.store c 1 (Packet.bare r) else t).ackLast c 1 (x.rx 1).cum).respPass c := by
  simp only [State.respIn, ctx, fresh, State.respAt, room, Bool.false_eq_true, if_false, body]

/-- A RESP-STATUS packet that is new and has room waits for its turn (R163). -/
theorem respIn_status {es : List StatusEntry} (ctx : v.ctxs.look c = some x) (fresh : (x.rx 1).psnCase r.psn = .new)
    (room : v.storeFull (x.rx 1) r (decide (r.ptype = tyRespStatus)) false = false) (body : r.body = .status es) :
    v.respIn c r = ((((v.admitPkt c r).progress c).store c 1 r).ackLast c 1 (x.rx 1).cum).respPass c := by
  simp only [State.respIn, ctx, fresh, State.respAt, room, Bool.false_eq_true, if_false, body]

/-- A COLL packet that is new on its stream is stored, and what is in sequence is taken (R244). -/
theorem collIn_new {h : CollHdr} {d : CollData} (ctx : v.ctxs.look c = some x) (fresh : (x.rx 2).psnCase r.psn = .new)
    (body : r.body = .coll h d) :
    v.collIn c r =
      let y := (v.admitPkt c r).collStore x.slot (x.rem / 4096) r.psn h d
      ((y.1.store c 2 { r with body := .coll h y.2 }).ackLast c 2 (x.rx 2).cum).collPass c := by
  simp only [State.collIn, ctx, fresh, State.collAt, body]

/-- A revocation message that is new on its stream is acted on (R198). -/
theorem collIn_revoke {kind w origin serial : Nat} (ctx : v.ctxs.look c = some x) (fresh : (x.rx 2).psnCase r.psn = .new)
    (body : r.body = .revoke kind w origin serial) :
    v.collIn c r = (((v.admitPkt c r).ackLast c 2 (x.rx 2).cum).revokeMsg c kind w origin serial).collPass c := by
  simp only [State.collIn, ctx, fresh, State.collAt, body]

/-- A CLOSE-ACK ends a close (R172). -/
theorem closeAckIn_closing (ctx : v.ctxs.look c = some x) (closing : x.state = .closing) : v.closeAckIn c = v.quietClose c := by
  simp only [State.closeAckIn, ctx, closing, if_true]

/-- A CLOSE-REQ is answered (R172, R173). -/
theorem closeReqIn_known {q n : Nat} (ctx : v.ctxs.look c = some x) :
    v.closeReqIn c q n = if v.ctxIdle c && x.closeFits q n then (v.sendCtl c tyCloseAck 0 x.closeBody).quietClose c
      else v.sendCtl c tyCloseRefuse 0 x.closeBody := by
  simp only [State.closeReqIn, ctx]

/-- A CLOSE-REFUSE takes back a close that no JOB-CLOSE asked for (R173). -/
theorem closeRefuseIn_closing (ctx : v.ctxs.look c = some x) (closing : x.state = .closing) (idle : x.jobClose = false) :
    v.closeRefuseIn c =
      let t := v.now + ms (v.rd .TP_CTX_CFG_CLOSE_IDLE)
      ((((v.disarm (.rto c 0)).disarm (.rto c 2)).updCtx c fun x => { x with state := .opened, noIdle := t }).progress c).arm
        (.idleClose c) t := by
  simp only [State.closeRefuseIn, ctx, closing, ne_eq, not_true_eq_false, if_false, idle, Bool.false_eq_true]

/-! ## The rows of packets -/

/-- A multicast DATA packet that passes becomes an event of its ferry (R378). -/
theorem mcTake_eq {h f n l : Nat} {bytes : List Byte} (may : v.hmsgCause j h f n l = 0) (room : v.hmsgRoom f = true) :
    v.mcTake j p h f n l bytes = v.pushEvent f {
      kind := .mcast, entry := h, slot := j, asid := v.rd .FX_JOBSEG_ASID f,
      args := [(2, n), (3, p.src), (4, p.dest % 65536)], payload := bytes } :=
  if_neg (by rw [may, room]; decide)

/-- Settles O24: a packet that passes the checks goes to its context, which takes it by its body. -/
theorem packetArrivalsComplete : Obligations.packetArrivalsComplete := by
  refine ⟨?data, ?mcast, ?ack, ?nack, ?resp, ?status⟩
  case data =>
    intro s p r v c x blk bytes here type_ uni body fresh region room
    refine gives_of_arrives here ⟨type_, by rw [uni]; rfl⟩ ?_
    simp only [State.rxGo, body]
    exact dataIn_new here.ctx fresh region room
  case mcast =>
    intro s p r u j h f n l bytes up live many auth body may room
    show execMulticastDataReceive p s = _
    refine whenLive_gives up live ?_
    simp only [many, Bool.not_true, Bool.false_eq_true, if_false, auth, body]
    exact mcTake_eq may room
  case ack =>
    intro s p r v c x a here type_ body
    refine gives_of_arrives here type_ ?_
    simp only [State.rxGo, body]
  case nack =>
    intro s p r v c x here type_ body sent
    obtain rfl := nack_of_arrives here type_
    refine gives_of_arrives here type_ ?_
    simp only [State.rxGo, body, if_pos type_]
    exact nackIn_waiting here.ctx sent
  case resp =>
    intro s p r v c x bytes here type_ body fresh room
    refine gives_of_arrives here type_ ?_
    simp only [State.rxGo, body]
    exact respIn_data here.ctx fresh (by rw [ptype_of_arrives here, type_]; exact room) body
  case status =>
    intro s p r v c x es here type_ body fresh room
    refine gives_of_arrives here type_ ?_
    simp only [State.rxGo, body]
    exact respIn_status here.ctx fresh (by rw [ptype_of_arrives here, type_]; exact room) body

/-- A revocation message of a kind is acted on by its own row (R198). -/
theorem gives_revoke {kind w o n : Nat} (here : Arrives s p r v c x) (type_ : p.ptype = tyColl) (body : r.body = .revoke kind w o n)
    (fresh : (x.rx 2).psnCase r.psn = .new) :
    s.whenLive (fun s => if p.ptype = tyColl && s.bodyIs p (isRevoke kind) then s.rxPacket p else s)
      = .next (revokeTaken v c x r kind w o n).collected := by
  have reads : s.bodyIs p (isRevoke kind) = true := by
    rw [bodyIs_of_arrives here (by rw [type_]; decide), body]
    exact decide_eq_true rfl
  refine whenLive_gives here.up here.live ?_
  simp only [type_, reads, decide_true, Bool.and_self, if_true, rxPacket_of_arrives here, State.rxGo, body,
    collIn_revoke here.ctx fresh body]
  rfl

/-- A COLL packet of a kind is taken by its own row (R244). -/
theorem gives_coll {kind : Nat} {h : CollHdr} {d : CollData} (arrives : CollNew s p r kind v c x h d) :
    s.whenLive (fun s => s.collArrives p kind) = .next (collTaken v c x r h d).collected := by
  obtain ⟨here, type_, body, named, fresh⟩ := arrives
  have reads : s.bodyIs p (isColl kind) = true := by
    rw [bodyIs_of_arrives here (by rw [type_]; decide), body]
    exact decide_eq_true named
  refine whenLive_gives here.up here.live ?_
  simp only [State.collArrives, type_, reads, decide_true, Bool.and_self, if_true, rxPacket_of_arrives here, State.rxGo, body,
    collIn_new here.ctx fresh body]
  rfl

/-- Settles O28: every kind's row by the one lemma for COLL packets. -/
theorem collectivePacketsComplete : Obligations.collectivePacketsComplete :=
  ⟨fun _ _ _ _ _ _ _ _ h => gives_coll h, fun _ _ _ _ _ _ _ _ h => gives_coll h, fun _ _ _ _ _ _ _ _ h => gives_coll h,
    fun _ _ _ _ _ _ _ _ h => gives_coll h, fun _ _ _ _ _ _ _ _ h => gives_coll h, fun _ _ _ _ _ _ _ _ h => gives_coll h,
    fun _ _ _ _ _ _ _ _ h => gives_coll h, fun _ _ _ _ _ _ _ _ h => gives_coll h, fun _ _ _ _ _ _ _ _ h => gives_coll h⟩

end Sys2Proof.Proofs.Receive
end

section
/-! The events of the transport, of remote memory, of transfers and of collectives (R27, R165 to R211, R224, R237 to R266, R528): each under the
conditions of its rule. -/

namespace Sys2Proof.Proofs.Transport

open Sys2Proof.Machine Sys2Proof.Laws Sys2Proof.Claims Sys2Proof.Proofs.Rows Sys2Proof.Proofs.Receive

variable {s : State}

/-! ## Timers of contexts -/

/-- A context's timer acts where the context is cached, or gone (R176). -/
theorem atCtx_cached {c : Nat} {k : TimerKey} {f : State → State} (here : Cached s c) : s.atCtx c k f = f s := by
  unfold State.atCtx
  split
  case h_1 => rfl
  case h_2 x known => exact if_pos (here x known)

/-- A context that is known, and cached, is cached. -/
theorem cached_of_look {c : Nat} {x : Ctx} (known : s.ctxs.look c = some x) (cached : x.cached = true) : Cached s c := by
  intro y found
  obtain rfl := Option.some.inj (known.symm.trans found)
  exact cached

/-- A context's timer that falls due acts in the state of its time where the context is cached, or gone. -/
theorem whenCtx_gives {c d : Nat} {k : TimerKey} {f : State → State} {t : State} (runs : s.timers.look k = some d)
    (here : Cached (at_ s k d) c) (effect : f (at_ s k d) = t) : s.whenCtx c k f = .next t.collected :=
  whenDue_gives runs ((atCtx_cached (f := f) here).trans effect)

/-- An evicted context is fetched before its timer acts (R176). -/
theorem whenCtx_fetches {c d : Nat} {k : TimerKey} {f : State → State} {x : Ctx} (runs : s.timers.look k = some d)
    (known : (at_ s k d).ctxs.look c = some x) (away : x.cached = false) :
    s.whenCtx c k f = .next (((at_ s k d).fetchCtx c).arm k (at_ s k d).now).collected := by
  refine whenDue_gives runs ?_
  show State.atCtx (at_ s k d) c k f = _
  simp only [State.atCtx, known, away, Bool.false_eq_true, if_false]

/-! ## Closes -/

/-- Settles O25: a packet of a close goes to its context; a timer acts on a context that is cached. -/
theorem closesComplete : Obligations.closesComplete := by
  refine ⟨?asked, ?answered, ?refused, ?alone, ?quiet, ?revoke, ?confirm, ?done⟩
  case asked =>
    intro s p r v c x q n here type_ body
    refine gives_of_arrives here type_ ?_
    simp only [State.rxGo, body, ptype_of_arrives here, type_, if_true]
    exact closeReqIn_known here.ctx
  case answered =>
    intro s p r v c x q n here type_ body closing
    refine gives_of_arrives here type_ ?_
    simp only [State.rxGo, body, ptype_of_arrives here, type_]
    exact closeAckIn_closing here.ctx closing
  case refused =>
    intro s p r v c x q n here type_ body closing idle
    refine gives_of_arrives here type_ ?_
    simp only [State.rxGo, body, ptype_of_arrives here, type_]
    exact closeRefuseIn_closing here.ctx closing idle
  case alone =>
    intro s c d x runs known cached closing
    show execJobCloseQuietTimeout c s = _
    refine whenCtx_gives runs (cached_of_look known cached) ?_
    simp only [known, closing, if_true]
  case quiet =>
    intro s c d runs u here
    show execQuietExpiry c s = _
    exact whenCtx_gives runs here rfl
  case revoke =>
    intro s p r v c x w o n here type_ body fresh
    exact gives_revoke here type_ body fresh
  case confirm =>
    intro s p r v c x w o n here type_ body fresh
    exact gives_revoke here type_ body fresh
  case done =>
    intro s p r v c x w o n here type_ body fresh
    exact gives_revoke here type_ body fresh

/-! ## The transport's events -/

/-- A region entry that arrives for a region that is there becomes cached, and what waited for it resumes (R204). -/
theorem execRegionEntryFetchComplete_eq {key : Nat} {r : Region} (up : s.phase = .running) (known : s.regions.look key = some r)
    (away : r.cached = false) : execRegionEntryFetchComplete key s =
      .next ((State.unmoor (State.evictRegion { s with regions := s.regions.put key { r with cached := true } } key) fun p =>
        decide (p.job = r.job) && namesKey key p).settleAll).collected := by
  refine whenUp_gives up ?_
  simp only [known, away, Bool.false_eq_true, if_false]

/-- Settles O26: each row by its own effect. -/
theorem transportEventsComplete : Obligations.transportEventsComplete := by
  refine ⟨?injects, ?retries, ?acks, ?rto, ?rtoAway, ?fails, ?idle, ?ctx, ?region, ?regionGone, ?repeats, ?expires, ?ends, ?quarantine⟩
  case injects =>
    intro s c st x p new up live _ _ _ _ _ _
    show execStreamInject c st s = _
    exact whenLive_gives up live rfl
  case retries =>
    intro s c st n d runs u here
    show execNackRetryExpiry c st n s = _
    exact whenCtx_gives runs here rfl
  case acks =>
    intro s c st d x runs known cached open_
    show execAckDelayExpiry c st s = _
    refine whenCtx_gives runs (cached_of_look known cached) ?_
    simp only [known, open_, if_false]
  case rto =>
    intro s c st d runs u here
    show execRtoExpiry c st s = _
    exact whenCtx_gives runs here rfl
  case rtoAway =>
    intro s c st d x runs u known away
    show execRtoExpiry c st s = _
    exact whenCtx_fetches runs known away
  case fails =>
    intro s c d x runs u known cached owes
    show execContextFail c s = _
    refine whenCtx_gives runs (cached_of_look known cached) ?_
    have guard : ((at_ s (.ctxFail c) d).owesWork c || decide (x.state = .closing)) = true := by
      rw [Bool.or_eq_true, decide_eq_true_iff]
      exact owes
    have same : (at_ s (.ctxFail c) d).ctxs.look c = some x := known
    simp only [same, guard, if_true]
    rfl
  case idle =>
    intro s c d runs u here idle
    show execIdleCloseStart c s = _
    exact whenCtx_gives runs here (if_pos idle)
  case ctx =>
    intro s c x up known fetching u
    show execContextFetchComplete c true s = _
    refine whenUp_gives up ?_
    simp only [State.ctxFetched, known, fetching, Bool.not_true, Bool.false_eq_true, if_false, if_true]
    rfl
  case region =>
    intro s key r up known away
    exact execRegionEntryFetchComplete_eq up known away
  case regionGone =>
    intro s key up gone
    show execRegionEntryFetchComplete key s = _
    refine whenUp_gives up ?_
    simp only [gone]
  case repeats =>
    intro s j w o n d runs
    show execRevokeRepeat j w o n s = _
    exact whenDue_gives runs rfl
  case expires =>
    intro s j w d runs
    show execRevokeFailTime j w s = _
    exact whenDue_gives runs rfl
  case ends =>
    intro s key r q up known shut still asked
    show execRegionDeregisterComplete key s = _
    refine whenUp_gives up ?_
    simp only [known, shut, still, Bool.or_self, Bool.false_eq_true, if_false, asked]
  case quarantine =>
    intro s key d runs
    show execRegionQuarantineEnd key s = _
    exact whenDue_gives runs rfl

/-! ## Transfers -/

/-- Settles O27: a transfer completes by its kind. -/
theorem transfersComplete : Obligations.transfersComplete := by
  refine ⟨?mover, ?memory, ?flush, ?atomic, ?copy, ?cfg, ?quota⟩
  case mover =>
    intro s id x seen up live known flush atomic copy mem
    show execMoverTransferComplete id true seen s = _
    refine whenLive_gives up live ?_
    simp only [known, flush, atomic, copy, mem, Bool.or_self, Bool.false_eq_true, if_false, if_true]
  case memory =>
    intro s id x ok seen up live known flush atomic copy mem
    show execMoverTransferComplete id ok seen s = _
    refine whenLive_gives up live ?_
    simp only [known, flush, atomic, copy, mem, Bool.or_self, Bool.false_eq_true, if_false, if_true]
  case flush =>
    intro s id x up live known flush
    show execFlushReadComplete id s = _
    refine whenLive_gives up live ?_
    simp only [known, flush, if_true]
  case atomic =>
    intro s id x c m n e old up live known kind
    show execHostAtomicComplete id false old s = _
    refine whenLive_gives up live ?_
    simp only [known, kind]
  case copy =>
    intro s id x up live known copy
    show execUnexpectedCopyComplete id s = _
    refine whenLive_gives up live ?_
    simp only [known, copy, if_true]
  case cfg =>
    intro s reg v up
    show execTpCfgWrite reg v s = _
    exact whenUp_gives up rfl
  case quota =>
    intro s j v up small
    show execMfQuotaWrite j v s = _
    exact whenUp_gives up (if_pos small)

/-! ## Collectives and catchers -/

/-- A landing pool's registers take SLOTS where the pool fits (R266). -/
theorem writeLandpool_eq (v : Nat) (idle : s.colls.size = 0) : s.writeLandpool v =
    if poolOk (Fld.of .HD_LANDPOOL_BASE v) (4224 * Fld.of .HD_LANDPOOL_SLOTS v) then
      s.setFields 0 v [.HD_LANDPOOL_BASE, .HD_LANDPOOL_SLOTS]
    else s.setFields 0 v [.HD_LANDPOOL_BASE] := by
  refine (if_neg (not_not_intro idle)).trans ?_
  split <;> rfl

/-- A catcher's pool registers take UNITS where the pool fits (R239). -/
theorem writeUxpool_eq (v : Nat) (idle : s.jobsActive = 0) : s.writeUxpool v =
    if poolOk (Fld.of .CT_UXPOOL_BASE v) (256 * Fld.of .CT_UXPOOL_UNITS v) then
      s.setFields 0 v [.CT_UXPOOL_BASE, .CT_UXPOOL_UNITS]
    else s.setFields 0 v [.CT_UXPOOL_BASE] := by
  refine (if_neg (not_not_intro idle)).trans ?_
  split <;> rfl

/-- Settles O29: each row by its own effect. -/
theorem collectiveEventsComplete : Obligations.collectiveEventsComplete := by
  refine ⟨?timeout, ?rejoin, ?credit, ?landpool, ?spill, ?eager, ?uxpool, ?quota⟩
  case timeout =>
    intro s c i d runs
    show execCollTimeout c i s = _
    exact whenDue_gives runs rfl
  case rejoin =>
    intro s c d x p runs u known parent
    show execRejoinRepeat c s = _
    refine whenDue_gives_at u runs rfl ?_
    simp only [State.rejoinAgain, known, parent]
  case credit =>
    intro s c node x up live known freed
    show execCollCreditReturn c node s = _
    refine whenLive_gives up live ?_
    simp only [State.creditReturn, known, freed, if_false]
  case landpool =>
    intro s v up idle
    show execHdRegWrite v s = _
    exact whenUp_gives up (writeLandpool_eq v idle)
  case spill =>
    intro s c n up next
    constructor
    · intro room
      show execSpillRefill c true s = _
      refine whenUp_gives up ?_
      simp only [next, Bool.not_true, Bool.false_eq_true, if_false, if_neg (Nat.not_le.mpr room)]
      rfl
    · show execSpillRefill c false s = _
      refine whenUp_gives up ?_
      simp only [next, Bool.not_false, if_true]
  case eager =>
    intro s v up
    show execCatcherRegWrite 0 0 v s = _
    exact whenUp_gives up rfl
  case uxpool =>
    intro s v up idle
    show execCatcherRegWrite 8 0 v s = _
    exact whenUp_gives up (congrArg State.settleAll (writeUxpool_eq v idle))
  case quota =>
    intro s j v up small
    show execCatcherRegWrite 0x1000 j v s = _
    refine whenUp_gives up (congrArg State.settleAll ?_)
    exact if_pos small

end Sys2Proof.Proofs.Transport
end
